-- ==== Sys2Proof/Word.lean ====
section
/-! DEFINITION. The register word of the device (R8: 32 bits) and the plainest views of one. -/

namespace Sys2Proof

/-- A register or memory word (R8). -/
abbrev W := BitVec 32

/-- A byte of memory. -/
abbrev Byte := BitVec 8

/-- Bits `hi:lo` of a word, as a number (fields are listed high bit to low bit, R5). -/
def W.fld (v : W) (hi lo : Nat) : Nat := (v.toNat >>> lo) % 2 ^ (hi + 1 - lo)

/-- Bit `i` of a word. -/
def W.bit (v : W) (i : Nat) : Bool := v.getLsbD i

/-- The word with field `hi:lo` replaced by `x` (taken modulo the field). -/
def W.put (v : W) (hi lo : Nat) (x : Nat) : W :=
  BitVec.ofNat 32 (v.toNat - (v.fld hi lo) <<< lo + (x % 2 ^ (hi + 1 - lo)) <<< lo)

/-- One where the condition holds. -/
def b2n (b : Bool) : Nat := if b then 1 else 0

/-- A word from a number. -/
def wn (n : Nat) : W := BitVec.ofNat 32 n

end Sys2Proof
end

