-- ==== Sys2Proof/Syntax.lean ====
section
/-! DEFINITION. The commands: one constructor of `Instr` for each row of spec/opcode_table.json, with
the operands the step needs from outside (R-numbers name the rule of the row). -/

namespace Sys2Proof

/-- Outcome of an ECC check of one access, which the environment decides (R79, R118, R162). -/
inductive Ecc where
  | clean
  | corrected
  | uncorrectable
  deriving DecidableEq, Repr

/-- A position in the frame, in SCLK periods (FLEN is at most 2^20, R17). -/
abbrev Pos := BitVec 20

/-- What the ECC checks found of the fetches and reads of one instruction, which the environment decides:
the program memory word (R79), the microwords fetched with an error, in order, by address with whether it is a
double one (R118), and whether a scratch word read holds a double-bit error (R308); and how many microwords issue
in this row, where another row, a cause of R131, falls between two words of the routine (R132); and the SCLK position of a route register's write (R286). -/
structure Fetch where
  pgm   : Ecc
  ucode : List (BitVec 15 × Bool)
  scr   : Bool
  upto  : Option Nat
  pos   : Pos
  deriving DecidableEq, Repr

/-- What the fetch of a vector's row finds: an outcome, and the word of the row that has the error (R162). -/
structure RowEcc where
  ecc  : Ecc
  word : Fin 4
  deriving DecidableEq, Repr

/-- What a host read finds, by word index: a word with a double-bit error, and the words corrected, ascending (R162, R308,
R380). -/
structure ReadEcc where
  bad   : Option Nat
  fixed : List Nat
  deriving DecidableEq, Repr

/-- What one comparator shows at the instants of a strobe: at E2, and later in a window (R141, R182). -/
structure Trace where
  first : Bool
  later : List Bool
  deriving DecidableEq, Repr

/-- An instant of the frame: its SCLK, and the interpolator steps after it (R251). -/
structure Instant where
  pos : Pos
  lsb : Nat
  deriving DecidableEq, Repr

/-- Circuits that fail their self-check in one ECLK, and quads whose shared logic does (R291, R308). -/
structure HwFaults where
  chs : List (Fin 720)
  qs  : List (Fin 144)
  deriving DecidableEq, Repr

/-- A word written at a known SCLK of the frame (R285). -/
structure TimedWord where
  v   : W
  pos : Pos
  deriving DecidableEq, Repr

/-- A rise of a trigger bus line, with its SCLK (R284). -/
structure TbusRise where
  n   : Fin 4
  pos : Pos
  deriving DecidableEq, Repr

/-- The path a request arrived by: one of the four links, or MSPI (R337, R350). -/
inductive Via where
  | link (l : Fin 4)
  | mspi
  deriving DecidableEq, Repr

/-- The supply rails (R399). -/
inductive Rail where
  | vddc | vddm | vdds | vdda | vddio | vdrv | vchp | vchn
  | vdps (d : Fin 4)
  deriving DecidableEq, Repr

/-- The switched power domains (R322). -/
inductive Domain where
  | quad (q : Fin 144)
  | cluster (k : Fin 16)
  | group (g : Fin 16)
  | lane (j : Fin 16)
  | bias (d : Fin 4)
  deriving DecidableEq, Repr

/-- A fatal finding of the boot self-test (R377). -/
inductive SelfTestFatal where
  | aon
  | fabric
  deriving DecidableEq, Repr

/-- What the boot self-test found (R377, R378), and the NV words that the NV load after it reads with an error, in order,
by word index with whether it is an uncorrectable one (R380, R384). -/
structure SelfTest where
  romBad      : Bool
  badBanks    : List (Fin 64)
  badClusters : List (Fin 16)
  fatal       : Option SelfTestFatal
  nv          : List (BitVec 16 × Bool)
  deriving DecidableEq, Repr

/-- What the analog side gives a finished conversion (R185, R321): the reading, an overload with its
sign (true negative), and whether the fit of a kind 2 reading was accepted. -/
structure Reading where
  value : W
  ovl   : Option Bool
  fit   : Bool
  deriving DecidableEq, Repr

/-- A sensor's raw reading (R316): temperature in degrees, the electrical findings, and its SCLK in the frame. -/
structure SensorIn where
  temp    : W
  isOpen  : Bool
  isShort : Bool
  isStuck : Bool
  pos     : Pos
  deriving DecidableEq, Repr

/-- One DPS sample: channel, output voltage, output current, supply voltage (R65, R327). -/
structure DpsSample where
  chan  : Fin 720
  volts : W
  amps  : W
  vdps  : W
  deriving DecidableEq, Repr

/-- Envelope of a MEM request: path and TAG (R338). -/
structure Hdr where
  via : Via
  tag : BitVec 12
  deriving DecidableEq, Repr

/-- A command message (R349): path, TAG, target frame, PLEN and the parameter words received. -/
structure Cmd where
  via    : Via
  tag    : BitVec 12
  tgt    : Option (BitVec 48)
  plen   : Nat
  params : List W
  deriving DecidableEq, Repr

/-- Payload of a CTRL flit (R332). -/
structure Ctrl where
  nak   : Bool
  ackv  : Bool
  insvc : BitVec 4
  lane  : Fin 4
  ack   : BitVec 12
  mem   : BitVec 16
  cmd   : BitVec 16
  ntfy  : BitVec 16
  strm  : BitVec 16
  align : BitVec 16
  deriving DecidableEq, Repr

/-- A stream record (R167). -/
structure Record where
  player : Fin 16
  seq    : BitVec 24
  seg    : BitVec 16
  blk    : BitVec 14
  marks  : Bool
  data   : List Byte
  deriving DecidableEq, Repr

/-- How a host write of one NV word ended (R380). -/
inductive NvVerify where
  | ok        -- the verify passed
  | retried   -- the verify failed once and the retry passed
  | failed    -- the retry failed too: the row is remapped if a spare row is left
  deriving DecidableEq, Repr

/-- What broke the culvert rules (R336, R338). -/
inductive ProtoWhy where
  | noCredit   -- a data flit arrived without a credit
  | badOp      -- a MEM request with an OP other than 1 or 2
  deriving DecidableEq, Repr

/-- The rows of the table. -/
inductive Instr where
  | powerOn
  | resetNLow
  | supplyReset (r : Rail)
  | bootStart (devid : BitVec 5) (master recov : Bool)
  | selfTestEnd (t : SelfTest)
  | linkUp (us : W)
  | sclkLock
  | railWarn (r : Rail)
  | vchFault (negative : Bool)
  | vdpsLow (d : Fin 4)
  | refLoss
  | refPresent
  | fsyncEdge (off : Int) (mark : Bool)
  | fsyncMiss
  | epochMark
  | frameTick (wcsBad : List (Fin 16))
  | rendezvousTimeout (site : Fin 256)
  | joinLapse (site : Fin 256)
  | modeSwitch (wcsBad : List (Fin 16))
  | quadWarmDone (q : Fin 144)
  | substPathClose (q : Fin 144)
  | substInService (q : Fin 144)
  | syncReset
  | dpsMonitor (xs : List DpsSample)
  | throttleWait (site : Fin 256)
  | yieldRelease (e : Fin 272)
  | overrun (e : Fin 272)
  | wdog (e : Fin 272)
  | waiteTimeout (e : Fin 272)
  | br (e : Fin 272) (f : Fetch)
  | brc (e : Fin 272) (f : Fetch)
  | call (e : Fin 272) (f : Fetch)
  | ret (e : Fin 272) (f : Fetch)
  | loop (e : Fin 272) (f : Fetch)
  | halt (e : Fin 272) (f : Fetch)
  | yield (e : Fin 272) (f : Fetch)
  | tpoint (e : Fin 272) (f : Fetch)
  | movi (e : Fin 272) (f : Fetch)
  | add (e : Fin 272) (f : Fetch)
  | sub (e : Fin 272) (f : Fetch)
  | and (e : Fin 272) (f : Fetch)
  | or (e : Fin 272) (f : Fetch)
  | xor (e : Fin 272) (f : Fetch)
  | shl (e : Fin 272) (f : Fetch)
  | shr (e : Fin 272) (f : Fetch)
  | cmp (e : Fin 272) (f : Fetch)
  | fcmp (e : Fin 272) (f : Fetch)
  | play (e : Fin 272) (f : Fetch)
  | join (e : Fin 272) (f : Fetch)
  | detach (e : Fin 272) (f : Fetch)
  | segjmp (e : Fin 272) (f : Fetch)
  | dwell (e : Fin 272) (f : Fetch)
  | level (e : Fin 272) (f : Fetch)
  | tset (e : Fin 272) (f : Fetch)
  | force (e : Fin 272) (f : Fetch)
  | gang (e : Fin 272) (f : Fetch)
  | meas (e : Fin 272) (f : Fetch)
  | measConversionEnd (ch : Fin 720) (r : Reading)
  | getm (e : Fin 272) (f : Fetch)
  | acqarm (e : Fin 272) (f : Fetch)
  | tdcopen (e : Fin 272) (f : Fetch)
  | winset (e : Fin 272) (f : Fetch)
  | step (e : Fin 272) (f : Fetch)
  | limit (e : Fin 272) (f : Fetch) (entryEcc : Ecc)
  | bin (e : Fin 272) (f : Fetch)
  | logf (e : Fin 272) (f : Fetch)
  | voidh (e : Fin 272) (f : Fetch)
  | emit (e : Fin 272) (f : Fetch)
  | waite (e : Fin 272) (f : Fetch)
  | undefinedOpcode (e : Fin 272) (f : Fetch)
  | vectorStart (y : Fin 16) (pos : Pos) (row : RowEcc)
  | unitEnd (y : Fin 16) (pos : Pos)
  | compareStrobe (site : Fin 256) (t : BitVec 7) (pos : Pos) (h l : Trace) (spareH spareL : Bool)
  | failQueueDrain (bad : List (Fin 256))
  | scrubStep (ecc : Ecc)
  | bankCopyDone (n : Fin 4) (bad : List (BitVec 23))
  | streamRecord (l : Fin 4) (r : Record)
  | dpsTrip (ch : Fin 720)
  | adcSample (ch : Fin 720) (pos : Pos) (code : BitVec 16) (clip : Bool)
  | acqDone (q : Fin 144) (pos : Pos)
  | dsyncPinEdge (pos : Pos)
  | tdcEdge (ch : Fin 720) (src : Fin 8) (pos : Pos) (lsb : Nat)
  | tdcWindowClose (ch : Fin 720)
  | tdcNosig (ch : Fin 720) (pos : Pos)
  | tdcMaxt (ch : Fin 720)
  | weirChange (ch : Fin 720) (x : Instant) (level : Int)
  | weirSample (ch : Fin 720) (x : Instant) (level : Int)
  | weirSettled (ch : Fin 720) (x : Instant) (level : Int)
  | wake (q : Fin 144)
  | comparatorCrossing (ch : Fin 720) (kind : Fin 4) (pos : Pos)
  | sluiceDelivery
  | tbusEdge (n : Fin 4) (pos : Pos)
  | tbusPulseEnd (n : Fin 4)
  | tbusStuck (n : Fin 4)
  | sensorReading (n : Fin 72) (r : SensorIn)
  | dpsPowerSum (xs : List DpsSample)
  | domainGood (d : Domain)
  | domainTimeout (d : Domain)
  | chHw (x : HwFaults)
  | quadHw (qs : List (Fin 144))
  | engHw (es : List (Fin 272))
  | sclkUnlock
  | fabricErr
  | aonFail
  | fwAssert
  | slcPar (q : Option (Fin 144)) (line : BitVec 8)
  | aliveInterval (checkedIn : Bool)
  | nvWriteDone (v : NvVerify)
  | nvSetSave
  | memRead (h : Hdr) (addr : BitVec 40) (len : Nat) (x : ReadEcc)
  | memWrite (h : Hdr) (addr : BitVec 40) (len : Nat) (ws : List W)
  | registerWrite (h : Hdr) (addr : BitVec 40) (v : W)
  | frameLoRead (h : Hdr)
  | sclkCfgWrite (h : Hdr) (v : W)
  | flenWrite (h : Hdr) (v : W)
  | syncCfgWrite (h : Hdr) (v : W)
  | modeRequest (h : Hdr) (v : W)
  | headgateWrite (h : Hdr) (off : BitVec 16) (v : W)
  | engineRegisterWrite (h : Hdr) (e : Fin 272) (off : BitVec 12) (v : W)
  | pramWordWrite (h : Hdr) (w : BitVec 10) (v : W)
  | matchWrite (h : Hdr) (n : Option (Fin 64)) (v : W)
  | wcsDataWrite (h : Hdr) (v : W)
  | playerCfgWrite (h : Hdr) (y : Fin 16) (v : W)
  | ringReset (h : Hdr) (y : Fin 16) (v : W)
  | ringArm (h : Hdr) (y : Fin 16) (v : W)
  | ringLwmWrite (h : Hdr) (y : Fin 16) (v : W)
  | quadRequest (h : Hdr) (q : Fin 144) (v : W)
  | substitutionRequest (h : Hdr) (q : Fin 144) (v : W)
  | restoreRequest (h : Hdr) (q : Fin 144) (v : W)
  | firSwap (h : Hdr) (q : Fin 144) (c : Fin 5) (v : W)
  | firCoefWrite (h : Hdr) (q : Fin 144) (c : Fin 5) (bank : Fin 2) (n : Fin 64) (v : W)
  | acqArm (h : Hdr) (q : Fin 144) (v : W)
  | acqAbort (h : Hdr) (q : Fin 144) (v : W)
  | acqForce (h : Hdr) (q : Fin 144) (v : W)
  | tdcOpen (h : Hdr) (q : Fin 144) (c : Fin 5) (v : W)
  | tdcClose (h : Hdr) (q : Fin 144) (c : Fin 5) (v : W)
  | tdcRdWrite (h : Hdr) (q : Fin 144) (c : Fin 5) (v : W)
  | limitEntryWrite (h : Hdr) (v : W)
  | ledgerAck (h : Hdr) (v : W)
  | ledgerClear (h : Hdr) (v : W)
  | faultAck (h : Hdr) (f : Fin 384) (v : W)
  | faultForce (h : Hdr) (f : Fin 384) (v : W)
  | powerRequest (h : Hdr) (off : BitVec 8) (v : W)
  | routeWrite (h : Hdr) (addr : BitVec 40) (v : TimedWord)
  | idGet (c : Cmd)
  | modeSet (c : Cmd)
  | enterRecovery (c : Cmd)
  | loadCrc (c : Cmd)
  | loadCrcDone
  | cisFill (c : Cmd)
  | cisFillDone
  | mapClear (c : Cmd)
  | runStart (c : Cmd)
  | runStop (c : Cmd)
  | runPause (c : Cmd)
  | runResume (c : Cmd)
  | fltRead (c : Cmd)
  | fltAck (c : Cmd)
  | repairRead (c : Cmd)
  | repairRetire (c : Cmd)
  | repairClear (c : Cmd)
  | calQuad (c : Cmd)
  | calQuadDone (fail : Option (Fin 720))
  | calFull (c : Cmd)
  | calFullDone (fail : Option (Fin 720))
  | nvInfo (c : Cmd)
  | patchSave (c : Cmd)
  | patchErase (c : Cmd)
  | pwrSet (c : Cmd)
  | pwrGroups (c : Cmd)
  | quadState (c : Cmd)
  | thmSet (c : Cmd)
  | thmSave (c : Cmd)
  | epoch (c : Cmd)
  | dsync (c : Cmd)
  | fullReset (c : Cmd)
  | unknownCommand (code : BitVec 8) (c : Cmd)
  | ctrlFlit (l : Fin 4) (f : Ctrl)
  | replayTimeout (l : Fin 4)
  | codewordUncorrectable (j : Fin 16) (hadData : Bool)
  | laneTrainDone (j : Fin 16)
  | laneTrainTimeout (j : Fin 16)
  | laneLockLoss (j : Fin 16)
  | ntfySend
  | mspiCmd (ws : List W)
  | mspiCpl
  | mspiRd (addr : BitVec 40) (count : BitVec 16) (x : ReadEcc)
  | mspiWr (addr : BitVec 40) (ws : List W)
  | mspiStat
  | mspiBadOpcode
  | bypass
  | idcode
  | samplePreload
  | extest
  | clamp
  | highz
  | extestPulse
  | extestTrain
  | powerLoss
  | railInRange (r : Rail)
  | domainFail (d : Domain)
  | currentLimit (ch : Fin 720) (entering : Bool)
  | pmuClamp (ch : Fin 720)
  | tbusRelease (x : TbusRise)
  | flitCrcFail (j : Fin 16) (hadData : Bool)
  | proto (l : Fin 4) (why : ProtoWhy)
  deriving DecidableEq, Repr

end Sys2Proof
end

