-- ==== Sys2Proof/Decode.lean ====
section
/-! DEFINITION. Decoding of table words. spec/opcode_table.json gives no row any bits: the commands of
the block are events and requests, not words, so no word spells one. -/

namespace Sys2Proof

/-- The command a table word spells: none, since the table gives no row bits. -/
def decodeTableWord (_nbits _w : Nat) : Option Instr := none

end Sys2Proof
end

