-- ==== Sys2Proof/Machine/F32.lean ====
section
/-! DEFINITION. IEEE 754 binary32 numbers (R15) as exact integers in units of 2^-149, and the rounding
of an exact ratio back to binary32 (nearest, ties to even: log 10). -/

namespace Sys2Proof.Machine

/-- One, in units of 2^-149. -/
def f32One : Int := 2 ^ 149

/-- Beyond every finite binary32 number: what an infinity counts as. -/
def f32Inf : Int := 2 ^ 300

/-- Quiet NaN: the value of an empty slot (R219, R422). -/
def qNaN : W := 0x7FC00000

/-- A binary32 number as an integer in units of 2^-149; `none` for a NaN. -/
def f32Key (w : W) : Option Int :=
  let e := w.fld 30 23
  let m := w.fld 22 0
  if e = 255 ∧ m ≠ 0 then none
  else
    let a : Int := if e = 255 then f32Inf else if e = 0 then m else (2 ^ 23 + m) * 2 ^ (e - 1)
    some (if w.bit 31 then -a else a)

/-- The word is a NaN. -/
def f32IsNaN (w : W) : Bool := (f32Key w).isNone

/-- Finite: neither a NaN nor an infinity. -/
def f32IsFinite (w : W) : Bool := w.fld 30 23 ≠ 255

/-- `a < b`; false if either is a NaN. -/
def f32Lt (a b : W) : Bool :=
  match f32Key a, f32Key b with
  | some x, some y => x < y
  | _, _ => false

/-- `a ≤ b`; false if either is a NaN. -/
def f32Le (a b : W) : Bool :=
  match f32Key a, f32Key b with
  | some x, some y => x ≤ y
  | _, _ => false

/-- `lo ≤ w ≤ hi` for bounds in thousandths; false for a NaN. -/
def f32InMilli (w : W) (lo hi : Int) : Bool :=
  match f32Key w with
  | some x => decide (lo * f32One ≤ x * 1000 ∧ x * 1000 ≤ hi * f32One)
  | none => false

/-- Nearest whole quotient, ties to even. -/
def divRne (n d : Nat) : Nat :=
  let q := n / d
  let r := n % d
  if d < 2 * r ∨ (2 * r = d ∧ q % 2 = 1) then q + 1 else q

/-- Bits of the magnitude `n / d` units of 2^-149. -/
def f32Mag (n d : Nat) : Nat :=
  let k := Nat.log2 (n / d) - 23
  min (k * 2 ^ 23 + divRne n (d * 2 ^ k)) 0x7F800000

/-- The binary32 number nearest to `x / d` units of 2^-149. -/
def f32OfScaled (x : Int) (d : Nat) : W :=
  let m := BitVec.ofNat 32 (f32Mag x.natAbs d)
  if x < 0 then m ||| 0x80000000 else m

/-- The binary32 number nearest to `x / d`. -/
def f32OfRatio (x : Int) (d : Nat) : W := f32OfScaled (x * f32One) d

/-- Sum, rounded once; a NaN if either is one. -/
def f32Add (a b : W) : W :=
  match f32Key a, f32Key b with
  | some x, some y => f32OfScaled (x + y) 1
  | _, _ => qNaN

/-- Difference, rounded once; a NaN if either is one. -/
def f32Sub (a b : W) : W :=
  match f32Key a, f32Key b with
  | some x, some y => f32OfScaled (x - y) 1
  | _, _ => qNaN

/-- Product, rounded once; a NaN if either is one. -/
def f32Mul (a b : W) : W :=
  match f32Key a, f32Key b with
  | some x, some y => f32OfScaled (x * y) (2 ^ 149)
  | _, _ => qNaN

end Sys2Proof.Machine
end

