-- ==== Sys2Proof/Config.lean ====
section
/-! DEFINITION. What an implementation fixes and the spec does not give. Every constant here is
opaque: nothing in Lean can evaluate it, so a statement about it holds for every value. -/

namespace Sys2Proof.Config

/-- The n-th free value of a run: the value of a result the spec leaves open (log 12). -/
opaque freeValue : Nat → W

/-- Firmware version of the ROM (R365 gives the field, not the value). -/
opaque fwVersion : BitVec 16

/-- Control store ROM version (R365). -/
opaque romVersion : W

/-- Silicon stepping (R365, R418). -/
opaque stepping : BitVec 8

/-- The device's unique number, low word first (R365, NVR.ID). -/
opaque serial : Nat → W

/-- The ROM word at a control store address (R114; the ROM's contents are given only for the
routines of R420 and of STEP). -/
opaque romWord : Nat → BitVec 160

/-- Whether the ROM routine of an opcode fetches a ROM address (the ROM's routines are given only
for STEP and HALT). -/
opaque romReaches : Nat → Nat → Bool

/-- SECDED check bits of a microword's bits 150:0 (R105: the code is not given). -/
opaque eccOf : Nat → BitVec 9

/-- DAC code of a binary32 level through a calibration word (F2CODE of R110). -/
opaque dacCode : W → W → W

/-- The calibration word of a path for a quantity (CALRD of R112), as the records of the set in force give it. -/
opaque calWord : Nat → List W → Nat → W

/-- ADC_SCALE of a path with the calibration in force, for a source and range (R237: the calibrated conversion). -/
opaque adcScale : Nat → List W → Nat → Nat → W

/-- ADC_OFS of a path with the calibration in force, for a source and range (R237). -/
opaque adcOfs : Nat → List W → Nat → Nat → W

/-- The propagation of a weir in W0 as its path's calibration gives it, in interpolator steps (R271). -/
opaque weirDelay : Nat → List W → Nat

/-- The errors that the n-th free draw of a run gives the reads of a LOAD_CRC job, whose row carries none: a word with a
double-bit error, and the words corrected (R79, R162, R308; log 12). -/
opaque readErrors : Nat → Option Nat × List Nat

/-- The route register that UIMM of a ROUTEWR selects, by address (R112): the source gives no numbering. -/
opaque routeReg : Nat → Nat

end Sys2Proof.Config
end

