-- ==== Sys2Proof/Machine/Tab.lean ====
section
/-! DEFINITION. Sparse tables: a list of keys and values in one canonical form (keys strictly rising,
no entry equal to what an unlisted key reads as), so that equal contents are equal data. -/

namespace Sys2Proof.Machine

/-- A sparse table from numbers. -/
abbrev Tab (α : Type) := List (Nat × α)

/-- The value at a key; an unlisted key reads as `d` gives. -/
def Tab.get {α : Type} (d : Nat → α) : Tab α → Nat → α
  | [], k => d k
  | (j, v) :: r, k => if j = k then v else Tab.get d r k

/-- The table with an entry placed (or replaced). -/
def Tab.put {α : Type} (k : Nat) (v : α) : Tab α → Tab α
  | [] => [(k, v)]
  | (j, w) :: r =>
    if k < j then (k, v) :: (j, w) :: r
    else if j = k then (k, v) :: r
    else (j, w) :: Tab.put k v r

/-- The table without an entry for a key. -/
def Tab.del {α : Type} (k : Nat) : Tab α → Tab α
  | [] => []
  | (j, w) :: r => if j = k then Tab.del k r else (j, w) :: Tab.del k r

/-- A write: the entry is listed only where it differs from what the key reads as unlisted. -/
def Tab.set {α : Type} [DecidableEq α] (d : Nat → α) (k : Nat) (v : α) (t : Tab α) : Tab α :=
  if v = d k then t.del k else t.put k v

/-- Every listed entry changed, knowing its key, by a function that fixes the unlisted value; entries that
then equal it are dropped. -/
def Tab.updAt {α : Type} [DecidableEq α] (d : α) (f : Nat → α → α) (t : Tab α) : Tab α :=
  (t.map (fun p => (p.1, f p.1 p.2))).filter (fun p => decide (p.2 ≠ d))

/-- Every listed entry changed alike. -/
def Tab.upd {α : Type} [DecidableEq α] (d : α) (f : α → α) (t : Tab α) : Tab α := t.updAt d (fun _ => f)

/-- Keys rise strictly above a bound. -/
def Tab.above {α : Type} (k : Nat) : Tab α → Bool
  | [] => true
  | (j, _) :: r => decide (k < j) && Tab.above j r

/-- No entry equals what its key reads as unlisted. -/
def Tab.sparse {α : Type} [DecidableEq α] (d : Nat → α) : Tab α → Bool
  | [] => true
  | (j, v) :: r => decide (v ≠ d j) && Tab.sparse d r

/-- Keys strictly rising. -/
def Tab.rising {α : Type} : Tab α → Bool
  | [] => true
  | (j, _) :: r => Tab.above j r

/-- The canonical form. -/
def Tab.wf {α : Type} [DecidableEq α] (d : Nat → α) (t : Tab α) : Bool :=
  t.rising && t.sparse d

/-- Fold a state over the numbers below `n`, rising. -/
def forN {σ : Type} (n : Nat) (f : Nat → σ → σ) (s : σ) : σ :=
  (List.range n).foldl (fun s k => f k s) s

/-- Fold a state over a list, front first. -/
def forL {σ α : Type} (l : List α) (f : α → σ → σ) (s : σ) : σ :=
  l.foldl (fun s k => f k s) s

end Sys2Proof.Machine
end

