-- ==== Sys2Proof/Machine/State.lean ====
section
/-! DEFINITION. The state of the device as plain data. Every stored register card has its home in
`regs`, at its address (R6); the fields here hold the state that is no register card, and the cards
that only show such state are computed from it when they are read (Machine/Regs.lean). -/

namespace Sys2Proof.Machine

/-- The twelve operating modes (R49). -/
inductive Mode where
  | reset | boot | recovery | idle | contact | parametric | functional | mixed
  | stress | calibrate | diagnostic | safe
  deriving DecidableEq, Repr

/-- Engine states (R76), in the order of ENG.STATE. -/
inductive EngState where
  | off | spare | ready | running | paused | halted | stopped | retired
  deriving DecidableEq, Repr

/-- What a RUNNING or PAUSED engine does in the frame (R76, R101, R88). -/
inductive Phase where
  /-- executing in its work window -/
  | exec
  /-- waiting in WAITE without Y (R85) -/
  | waiting
  /-- yielded; `n` ticks are left to its release (R101) -/
  | yielded (n : Nat)
  /-- stopped for the rest of the frame by a void (R88, R132) -/
  | stopped
  /-- started or resumed at this tick and not released yet -/
  | held
  deriving DecidableEq, Repr

/-- An event line: global line `n`, or local line `n` of a quad (R275). -/
inductive Line where
  | global (n : Nat)
  | loc (q n : Nat)
  deriving DecidableEq, Repr

/-- A request an instruction stages (R84); entries apply at step 1 of the next tick. -/
inductive EngOp where
  | play (seg : BitVec 16)
  | join (seg : BitVec 16) (w : Nat)
  | detach (alt : Bool)
  | segjmp (seg : BitVec 16)
  | dwell (code sel : Nat)
  | level (lvl sel : Nat) (v : W)
  | tset (ts sel edge : Nat) (pos : BitVec 24)
  | force (fn sel range : Nat) (v : W)
  | gang (on : Bool) (lead mask : Nat)
  | meas (slot t kind ap : Nat) (owner : Option Nat)
  | acqarm (prof t post : Nat)
  | tdcopen (mode t pre prof : Nat) (owner : Option Nat)
  | winset (mode sel n hi lo : Nat)
  | emit (l : Line)
  | exitMask
  deriving DecidableEq, Repr

/-- An operation a microword leaves in the shadow (R107, R112, R127). -/
inductive ShOp where
  /-- a register, by its number in R81 -/
  | reg (n : Nat) (v : W)
  | pc (t : Nat)
  | flags (mask bits : W)
  | voidh (en : Bool) (addr : Nat)
  | scr (a : Nat) (v : W)
  | stage (op : EngOp)
  | exitMask
  | slotBusy (m : Nat)
  | slotWr (m : Nat) (v : W)
  | push (v : BitVec 15)
  | pop
  | stepEnd
  | stepOpen (id : Nat)
  | bin (b : Nat)
  /-- LIMHOLD: the value was out of limits; it fails the open step -/
  | limHold (out fail : Bool)
  | cntInc
  | logEnt (t expc obs : Nat)
  /-- WARM, and whether an event has reached the line since -/
  | arm (l : Line) (hit : Bool)
  | disarm
  | tpDwell
  deriving DecidableEq, Repr

/-- The sequencer's own state of an engine (R106-R108, R112, R127): T0-T7, LCNT, the micro stack and the
latches; and of a routine that stands between two of its words, its address, its shadow in the order it was
built, and how far it is. -/
structure UCtx where
  addr   : Nat
  t      : List W
  lcnt   : Nat
  /-- micro stack, top first, at most 4 (R108) -/
  stack  : List Nat
  scra   : W
  scrw   : W
  scrd   : W
  resp   : W
  cal    : W
  limLo  : W
  limHi  : W
  out    : W
  rngOk  : Bool
  slotOk : Bool
  limIn  : Bool
  /-- a timeout of the WAIT expired -/
  wto    : Bool
  prof   : Nat
  sh     : List ShOp
  /-- words of a post-commit tail issue (R129) -/
  tail   : Bool
  /-- the routine has written PC (R108) -/
  pcW    : Bool
  /-- yield count of words that no commit has followed, and the committed one (R112 YCNT, R128) -/
  ycnt   : Option Nat
  yOn    : Option Nat
  /-- a tail has run to its terminator, whose sequencing has not been followed: its condition (R132) -/
  fin    : Option Bool
  deriving DecidableEq, Repr

/-- The sequencer's state at reset (log 13). -/
def uInit : UCtx :=
  { addr := 0, t := [0, 0, 0, 0, 0, 0, 0, 0], lcnt := 0, stack := [], scra := 0, scrw := 0, scrd := 0, resp := 0, cal := 0,
    limLo := 0, limHi := 0, out := 0, rngOk := false, slotOk := false, limIn := false, wto := false, prof := 0, sh := [],
    tail := false, pcW := false, ycnt := none, yOn := none, fin := none }

/-- What stays of the sequencer's state once a routine is over or abandoned (R107, R131). -/
def UCtx.rest (c : UCtx) : UCtx := { c with sh := [], tail := false, pcW := false, ycnt := none, yOn := none, fin := none, wto := false }

/-- A site engine: the state of R75 and R107 that no register card stores. -/
structure Eng where
  st     : EngState
  /-- HALT_CAUSE (R78) -/
  cause  : Nat
  phase  : Phase
  /-- call stack, top first, at most 8 (R75) -/
  stack  : List (BitVec 15)
  /-- writes staged in this frame (R26) -/
  staged : Nat
  /-- the line a WAITE armed (R85) -/
  wait   : Option Line
  /-- the armed wait is a WAITE with Y -/
  waitY  : Bool
  /-- an event reached the armed line (R109 EVTARR) -/
  arrived : Bool
  /-- WREM (R107) -/
  wrem   : BitVec 24
  /-- PG.UCHUNK (R136) -/
  uchunk : BitVec 16
  /-- RSTA (R136) -/
  rsta   : BitVec 15
  /-- microwords issued since the last commit or dispatch (R138) -/
  wdog   : Nat
  /-- the sequencer's state (R107); none where a ROM routine has left it open (log 13) -/
  u      : Option UCtx
  /-- a routine of altered microcode stands between two of its words, or repeats a WAIT word (R108, R132) -/
  mid    : Bool
  /-- an engine fault at DEGRADE waits for its repair tick (R77) -/
  repair : Bool
  deriving DecidableEq, Repr

/-- An engine as power-up of its cluster leaves it, before the domain is good (R75, R76). -/
def engOff : Eng :=
  { st := .off, cause := 0, phase := .exec, stack := [], staged := 0, wait := none, waitY := false,
    arrived := false, wrem := 0, uchunk := 0, rsta := 0, wdog := 0, u := some uInit,
    mid := false, repair := false }

/-- A candidate ledger entry (R206, R208). -/
structure Cand where
  frame : Nat       -- program frame of the position (R33)
  voff  : Nat
  ply   : Nat
  chan  : Nat
  flags : Nat
  tpin  : Nat
  expc  : Nat
  obs   : Nat
  deriving DecidableEq, Repr

/-- A step of a site (R98-R103). -/
structure Step where
  id      : BitVec 16
  /-- the device's own count of opened steps, so that two steps of one id differ -/
  serial  : Nat
  /-- its compare window has begun (R98) -/
  begun   : Bool
  fails   : W
  drops   : W
  /-- a LIMIT with FAILSTEP found it out of limits (R100) -/
  limFail : Bool
  /-- candidates it may still offer (R208); set when its window begins -/
  quota   : Nat
  /-- LOGFs of this frame, offered at the next tick, oldest first (R208) -/
  logs    : List Cand
  /-- ledger entries kept for it, in candidate order (R209) -/
  kept    : List Cand
  deriving DecidableEq, Repr

/-- Which mask a site is a member of (R89, R94). -/
inductive Member where
  | none | home | alt
  deriving DecidableEq, Repr

/-- A pending PLAY (R90). -/
structure PlayReq where
  seg : BitVec 16
  age : Nat
  deriving DecidableEq, Repr

/-- An armed JOIN: `left` eligible ticks remain (R95). -/
structure JoinReq where
  seg  : BitVec 16
  left : Nat
  deriving DecidableEq, Repr

/-- A measurement slot (R219, R422): value, ready, and the serial of the step its value belongs to. -/
structure Slot where
  value : W
  ready : Bool
  owner : Option Nat
  deriving DecidableEq, Repr

/-- Committed fields of a site record (R37). -/
structure SiteRec where
  stepId   : BitVec 16
  status   : Nat
  fails    : W
  bin      : Nat
  lastId   : BitVec 16
  lastStatus : Nat
  lastFails : W
  lastDrops : W
  voidCause : Nat
  deriving DecidableEq, Repr

/-- A site (R70, R98, R216-R220). -/
structure Site where
  /-- run origin (R32) -/
  origin : Nat
  /-- DWC (R32) -/
  dwc    : W
  /-- the step open for the engine (R81 STEPID) -/
  step   : Option Step
  /-- the step that ended in this frame (R98) -/
  ended  : Option Step
  /-- void causes that reached the site since the last commit (R30, R103), none set for STOP -/
  voids  : Option Nat
  /-- the void also takes the engine to VOIDH (false for STOP, R76) -/
  toVoidh : Bool
  /-- steps opened so far -/
  serial : Nat
  /-- held bin (R218) -/
  bin    : Option Nat
  member : Member
  /-- DET (R94) -/
  det    : Bool
  play   : Option PlayReq
  join   : Option JoinReq
  /-- slots m 0-31 that do not read as after a run start (R219) -/
  slots  : Tab Slot
  /-- dwell code of a template pin (R156) -/
  dwell  : Tab Nat
  /-- last vector state received on a template pin; 8 is none (R142) -/
  last   : Tab Nat
  record : SiteRec
  /-- ticks a throttle demand has gone unmet (R320) -/
  waited : Nat
  /-- throttle demand of the frame: D, or 0 for none (R319) -/
  demand : Nat
  /-- frames left of a dwell of the site (R102, R320) -/
  dwellLeft : Nat
  /-- a TPOINT dwell requested in this frame: D (R102) -/
  tpoint : Option Nat
  /-- the site executed TPOINT in this frame (R102) -/
  tpHit  : Bool
  /-- a DETACH applied at the current tick, and whether it names the alternate player (R94) -/
  leave  : Option Bool
  /-- mapping of the site: MAPPED and ERR as the last re-check left them (R73) -/
  mapped : Bool
  err    : Nat
  deriving DecidableEq, Repr

/-- A slot that no run has cleared yet (log 5). -/
def slotEmpty : Slot := { value := 0, ready := true, owner := none }

/-- A site nothing has run on. -/
def siteInit : Site :=
  { origin := 0, dwc := 0, step := none, ended := none, voids := none, toVoidh := false, serial := 0,
    bin := none, member := .none, det := false, play := none, join := none, slots := [], dwell := [],
    last := [],
    record := { stepId := 0, status := 0, fails := 0, bin := 0, lastId := 0, lastStatus := 0,
                lastFails := 0, lastDrops := 0, voidCause := 0 },
    waited := 0, demand := 0, dwellLeft := 0, tpoint := none, tpHit := false, leave := none,
    mapped := false, err := 0 }

/-- Player states (R158). -/
inductive PlyState where
  | disabled | dwell | playing
  deriving DecidableEq, Repr

/-- Ring states (R166). -/
inductive RingState where
  | off | filling | run | halted
  deriving DecidableEq, Repr

/-- A segment placed in a player: its id and the descriptor words read at placing (R145, R148). -/
structure Placed where
  seg : BitVec 16
  d0  : W
  d1  : W
  d2  : W
  d3  : W
  deriving DecidableEq, Repr

/-- The unit in play (R147): its segment, passes completed, vectors begun, and its period K latched
at its begin (R150). -/
structure PUnit where
  seg   : Placed
  pass  : Nat
  begun : Nat
  k     : Nat
  /-- blocks claimed, for a streamed unit (R169) -/
  got   : Nat
  /-- EDGE cards of the unit's timing set as it began, by address (R150, R179) -/
  edges : Tab W
  deriving DecidableEq, Repr

/-- A compare that waits for its strobe (R141, R202): what VECTOR_START fixed of it. -/
structure Cmp where
  site  : Nat
  tpin  : Nat
  code  : Nat
  seg   : Nat
  voff  : Nat
  frame : Nat       -- program frame of the vector (R33, R149)
  chan  : Nat
  count : Bool      -- false for a vector of an under-run tail (R170)
  ply   : Nat       -- player that played the vector, and whether the site received it as ALT (R206)
  alt   : Bool
  window : Bool     -- CMP_MODE of the pin (R182)
  begun : Nat       -- SCLK in which the vector's period began
  /-- instant of the strobe, and the end of its window where it has one, in 1/256 SCLK (R179, R182) -/
  opens : Int
  closes : Option Int
  deriving DecidableEq, Repr

/-- A pattern player (R152-R172). -/
structure Ply where
  st     : PlyState
  cur    : Option PUnit
  next   : Option Placed
  /-- blocks of the next segment claimed (R169) -/
  nextGot : Nat
  /-- last pass of the current segment that is played, where a jump cut it (R155) -/
  limit  : Option Nat
  /-- NEXT.FIXED (R153) -/
  fixed  : Bool
  /-- a late jump's target that waits behind the next segment or behind dwell (R155) -/
  late   : Option Placed
  /-- a pause applies: units still played after the current one (R157) -/
  pause  : Option Nat
  /-- a claim failed: the claimed vectors play out and compare for no step (R170) -/
  tail   : Bool
  ring   : RingState
  fill   : Nat
  drain  : Nat
  /-- the next SEQ to claim (R169) -/
  claim  : Nat
  /-- SEG and BLK tags of a ring slot (R168) -/
  tags   : Tab (Nat × Nat)
  /-- SEQs that have arrived beyond FILL -/
  ahead  : List Nat
  /-- the ring level has reached LWM since the last crossing (R172) -/
  lwm    : Bool
  /-- the site elected pacer at the last tick (R91 step 2) -/
  pacer  : Option Nat
  /-- per-frame flags of the image (R31) -/
  under  : Bool
  lateF  : Bool
  /-- the same two of the frame that ended, for the image -/
  endUnder : Bool
  endLate  : Bool
  /-- the mask at a claim that failed, voided at the next tick (R170 step 4) -/
  urMask : List Nat
  deriving DecidableEq, Repr

/-- A player after reset. -/
def plyInit : Ply :=
  { st := .disabled, cur := none, next := none, nextGot := 0, limit := none, fixed := false, late := none,
    pause := none, tail := false, ring := .off, fill := 0, drain := 0, claim := 0, tags := [],
    ahead := [], lwm := false, pacer := none, under := false, lateF := false, endUnder := false, endLate := false, urMask := [] }

/-- An engine-staged entry (R11, R26). -/
structure EngEnt where
  e  : Nat
  op : EngOp
  deriving DecidableEq, Repr

/-- A command of the catalogue once taken (R349): its code, its envelope. -/
structure Job where
  code   : Nat
  via    : Via
  tag    : BitVec 12
  params : List W
  deriving DecidableEq, Repr

/-- What a host-staged entry does at its tick (R11, R40, R357). -/
inductive HostOp where
  | write (addr : Nat) (v : W)
  | cmd (j : Job)
  deriving DecidableEq, Repr

/-- A host-staged entry: the frame it waits for, if targeted, and what it does. -/
structure HostEnt where
  tgt : Option Nat
  op  : HostOp
  deriving DecidableEq, Repr

/-- The mode request that stands (R54-R57). -/
structure ModeReq where
  target : Mode
  tag    : Nat
  switchAt : Nat
  /-- the MODE_SET command that carried it -/
  cmd    : Option Job
  deriving DecidableEq, Repr

/-- Circuit conditions (R201 CIRC). -/
inductive CircState where
  | off | inService | watch | settling | failed | isolated
  deriving DecidableEq, Repr

/-- A MEAS in progress on a circuit (R184, R185). -/
structure Meas where
  site  : Nat
  slot  : Nat
  kind  : Nat
  ap    : Nat
  owner : Option Nat
  /-- ticks left to the tick that writes the result -/
  left  : Nat
  /-- no tick has passed since it was applied: it begins at ECLK 16 of this frame -/
  fresh : Bool
  /-- ADC samples converted since its start -/
  n     : Nat
  /-- the value the conversion ended with -/
  value : Option W
  deriving DecidableEq, Repr

/-- What a drive event does: the driver turns on at a level or off, at E0; or it changes level if it is on. -/
inductive DrvAct where
  | on (high : Bool) | off | level (high : Bool)
  deriving DecidableEq, Repr

/-- A drive event that waits, at an instant in 1/256 SCLK of device time (R178, R179). -/
structure DrvEv where
  inst : Int
  act  : DrvAct
  deriving DecidableEq, Repr

/-- A channel circuit (R175, R178, R186-R190). -/
structure Circ where
  st     : CircState
  /-- the DPS output is enabled -/
  dpsOn  : Bool
  /-- the bleeder is engaged -/
  bleed  : Bool
  /-- current limiting now (R187) -/
  limit  : Bool
  /-- gang: channel c of the lead and the members' mask (R189) -/
  gang   : Option (Nat × Nat)
  meas   : Option Meas
  /-- the driver: off, or on at VIH (true) or VIL, before the events that wait (R178) -/
  drv    : Option Bool
  /-- drive events that wait, in the order they act -/
  evs    : List DrvEv
  deriving DecidableEq, Repr

/-- A circuit after reset. -/
def circInit : Circ := { st := .off, dpsOn := false, bleed := true, limit := false, gang := none, meas := none,
                         drv := none, evs := [] }

/-- Quad states (R62), in the order of the quad state word. -/
inductive QState where
  | off | parked | active | watch | service | retired
  deriving DecidableEq, Repr

/-- Spare conditions (R193). -/
inductive SpareState where
  | off | watch | settling | subst | failed | restoring
  deriving DecidableEq, Repr

/-- A substitution or restore sequence under way (R196, R200): channel c, ticks since T, S, and which. -/
structure SubstSeq where
  c       : Nat
  tick    : Nat
  s       : Nat
  restore : Bool
  deriving DecidableEq, Repr

/-- A quad (R193-R200, R272-R273). -/
structure Quad where
  st      : QState
  /-- a request that warms: target, TAG, ticks left -/
  warm    : Option (QState × Nat × Nat)
  /-- ticks left until a quad just powered reads PARKED (R193) -/
  powering : Option Nat
  spare   : SpareState
  subst   : Option Nat
  seq     : Option SubstSeq
  /-- DEGRADE faults recognised in this frame on circuits c 0-4 (R196, R199) -/
  faults  : List Nat
  /-- the quad is to be retired at the next tick (R199, R302) -/
  retire  : Bool
  /-- the domain goes off at the next tick (R193) -/
  domOff  : Bool
  /-- a substitution of a channel, or a restore (true), recorded while the quad was not ACTIVE or WATCH, which waits
  for the next ACTIVE (R198, R200) -/
  record  : Option (Nat × Bool)
  /-- primaries marked failed in the repair map (PFAIL) -/
  pfail   : List Nat
  /-- the spare is marked failed -/
  sfail   : Bool
  /-- circuits with a DPS switch-on pending (R190) -/
  pendOn  : List Nat
  /-- place in the admission queue (R190); 0 is none -/
  ticket  : Nat
  /-- watch disagreements in this frame (R195) -/
  mm      : Nat
  /-- they have raised WATCH_MISMATCH in this frame -/
  mmHit   : Bool
  /-- recalibration runs (R193 CAL_RUN) -/
  cal     : Bool
  /-- the wake logic's run of samples (R272) -/
  wakeRun : Nat
  /-- one of the counted evaluations was UNSETTLED (R273) -/
  wakeUnset : Bool
  /-- a wake request waits for the next tick's phase a (R273) -/
  wakeReq : Bool
  deriving DecidableEq, Repr

/-- A quad after reset (R63). -/
def quadInit : Quad :=
  { st := .off, warm := none, powering := none, spare := .off, subst := none, seq := none, faults := [],
    retire := false, domOff := false, record := none, pfail := [], sfail := false, pendOn := [],
    ticket := 0, mm := 0, mmHit := false, cal := false, wakeRun := 0, wakeUnset := false, wakeReq := false }

/-- A decimation chain (R221-R232). -/
structure Chain where
  /-- CIC integrators and combs, first stage first (R226) -/
  integ  : List (BitVec 56)
  comb   : List (BitVec 56)
  /-- FIR delay line, newest first, at most 64 (R227) -/
  line   : List Int
  /-- DC estimate M, 24 fraction bits (R230) -/
  m      : Int
  /-- input samples since the origin (R221) -/
  n      : Nat
  /-- inputs since the last restart, up to 69,632 (R232) -/
  since  : Nat
  /-- inputs for which outputs stay invalid after a TAKEN input and a CLIP input (R232) -/
  takenLeft : Nat
  clipLeft : Nat
  /-- the last sample converted before a take (R224) -/
  held   : Int
  /-- active bank, running cross-fade (outputs done, length), pending request's XF (R228) -/
  bank   : Nat
  fade   : Option (Nat × Nat)
  pendXf : Option Nat
  /-- the latest output: F, Y and its flags (R232) -/
  outF   : Int
  outY   : Int
  valid  : Bool
  sat    : Bool
  taken  : Bool
  xf     : Bool
  /-- outputs since the origin (R225) -/
  j      : Nat
  /-- sum and count of the VALID outputs of a kind 3 MEAS in progress (R238) -/
  acc    : Int
  accN   : Nat
  /-- a restart acted since the last output (R239 RESTART) -/
  restarted : Bool
  deriving DecidableEq, Repr

/-- A chain after reset. -/
def chainInit : Chain :=
  { integ := [0, 0, 0, 0], comb := [0, 0, 0, 0], line := [], m := 0, n := 0, since := 0, takenLeft := 0,
    clipLeft := 0, held := 0, bank := 0, fade := none, pendXf := none, outF := 0, outY := 0,
    valid := false, sat := false, taken := false, xf := false, j := 0, acc := 0, accN := 0,
    restarted := false }

/-- Acquisition unit states (R241), in the order of ACQ_STAT.STATE. -/
inductive AcqState where
  | idle | waitArm | filling | post | done
  deriving DecidableEq, Repr

/-- An acquisition unit (R239-R247). -/
structure Acq where
  st     : AcqState
  /-- the seven profile words latched at the arm (R240) -/
  prof   : List W
  c      : Nat
  /-- P in force (R242) -/
  p      : Nat
  /-- first record number, and the first output of the evaluation (R240, R244) -/
  first  : Nat
  evalJ  : Nat
  /-- records written since the arm, and the next memory index -/
  wrote  : Nat
  widx   : Nat
  /-- accumulators of the running record (R239) -/
  cnt    : Nat
  nvalid : Nat
  mn     : Int
  mx     : Int
  fSat   : Bool
  fTaken : Bool
  fXf    : Bool
  fRestart : Bool
  fTrig  : Bool
  /-- F of the outputs that take part in a row, newest first, at most 65 (R244) -/
  hist   : List Int
  pwStart : Option Nat
  runtStart : Option Nat
  toCount : Nat
  toDone : Bool
  slewWas : Bool
  /-- an external trigger or a FORCE waits for the next output (R245) -/
  ext    : Bool
  force  : Bool
  /-- records left to DONE (R241 POST) -/
  left   : Nat
  /-- frame of the tick at which the arm applied (R240) -/
  armedAt : Nat
  /-- tags of the trigger-arm event, of the acquisition-start event and of ACQ_TRIG (R282) -/
  tagArm : Nat
  tagExt : Nat
  tagTrig : Nat
  deriving DecidableEq, Repr

/-- An acquisition unit after reset. -/
def acqInit : Acq :=
  { st := .idle, prof := [], c := 0, p := 0, first := 0, evalJ := 0, wrote := 0, widx := 0, cnt := 0,
    nvalid := 0, mn := 0, mx := 0, fSat := false, fTaken := false, fXf := false, fRestart := false,
    fTrig := false, hist := [], pwStart := none, runtStart := none, toCount := 0, toDone := false,
    slewWas := false, ext := false, force := false, left := 0, armedAt := 0,
    tagArm := 297, tagExt := 297, tagTrig := 297 }

/-- TDC states (R274), in the order of TDC_STAT.STATE. -/
inductive TdcState where
  | closed | waitStart | waitStop | counting | done
  deriving DecidableEq, Repr

/-- A closed measurement whose result waits for its tick (R262). -/
structure TdcPend where
  value  : W
  /-- the closing instant c, in time units -/
  close  : Int
  /-- slot, site and owning step of a result that goes to a slot -/
  slot   : Option (Nat × Nat × Option Nat)
  done   : Nat
  missed : Nat
  deriving DecidableEq, Repr

/-- A stop edge that a signed interval keeps: its instant, and the POL and UNREF of its stamp (R251, R257). -/
structure KeptStop where
  t     : Int
  pol   : Bool
  unref : Bool
  deriving DecidableEq, Repr

/-- A TDC (R253-R264). Instants count in 1/32768 of an SCLK period from SCLK 0 of the open tick: a
unit in which both SCLK positions and 2.44 ps readings (times MULT) are whole (R250, R252). -/
structure Tdc where
  st     : TdcState
  mode   : Nat
  pre    : Nat
  /-- the four profile words latched at the open (R253) -/
  prof   : List W
  /-- slot, site and owning step of a TDCOPEN with SLOT_EN (R254, R422) -/
  slot   : Option (Nat × Nat × Option Nat)
  /-- SCLK periods from the open tick to SCLK 0 of the current frame -/
  base   : Nat
  /-- edges seen by the prescaler -/
  edges  : Nat
  /-- start of the running attempt; first and last counted edge -/
  start  : Option Int
  first  : Option Int
  last   : Option Int
  /-- the latest counted edge (R256) -/
  prev   : Option Int
  /-- most recent stop edge (R257 Signed) -/
  stop   : Option KeptStop
  /-- end of the running gate: first edge at or after it (R259) -/
  gate   : Int
  /-- counted edges after the first -/
  count  : Nat
  /-- attempts, periods or gates completed, attempts missed, sum of the accepted offsets -/
  done   : Nat
  missed : Nat
  sum    : Int
  /-- edges counted up to the end of the last gate, and that end (R261 MAXT) -/
  gateN  : Nat
  /-- an entry was dropped before the next one (R263) -/
  dropped : Bool
  /-- tag of the last sluice event consumed (R282) -/
  tag    : Nat
  /-- ticks left to MAXT (R261) -/
  maxt   : Nat
  pend   : List TdcPend
  deriving DecidableEq, Repr

/-- A TDC after reset. -/
def tdcInit : Tdc :=
  { st := .closed, mode := 0, pre := 0, prof := [], slot := none, base := 0, edges := 0, start := none,
    first := none, last := none, prev := none, stop := none, gate := 0, count := 0, done := 0, missed := 0, sum := 0,
    gateN := 0, dropped := false, tag := 297, maxt := 0, pend := [] }

/-- Weir states (R269), in the order of WEIR_STAT.STATE. -/
inductive WeirState where
  | inside | above | below | unknown
  deriving DecidableEq, Repr

/-- A weir (R268-R271). -/
structure Weir where
  st      : WeirState
  /-- the state comes from a first evaluation (R270) -/
  unsettled : Bool
  /-- the DACs settle after a change: the state is held (R271) -/
  settling : Bool
  deriving DecidableEq, Repr

/-- A weir after reset. -/
def weirInit : Weir := { st := .unknown, unsettled := false, settling := false }

/-- The block that produced an event, for the loop rule (R283). -/
inductive Block where
  | none
  | eng (e : Nat)
  | tdc (ch : Nat)
  | acq (q : Nat)
  | tbus (n : Nat)
  deriving DecidableEq, Repr

/-- A consumer of a line (R277). -/
inductive Consumer where
  | wait (e : Nat)
  | tdcStart (ch : Nat)
  | tdcStop (ch : Nat)
  | acqArm (q : Nat)
  | acqStart (q : Nat)
  | snap
  | dsync
  | tbus (n : Nat)
  deriving DecidableEq, Repr

/-- An event in flight (R278, R285): its line, capture edge in ECLK since SCLK started, origin tag,
producing block, the TBUS input it was captured from, and the consumers fixed at capture. -/
structure Flight where
  line  : Line
  edge  : Nat
  tag   : Nat
  by_   : Block
  tbus  : Option Nat
  dest  : List Consumer
  deriving DecidableEq, Repr

/-- A producer by its KIND, SUB and INDEX (R276). -/
structure Prod where
  kind  : Nat
  sub   : Nat
  index : Nat
  deriving DecidableEq, Repr

/-- What fires: a producer, on every line it sources at the capture edge, or an EMIT on the line it names (R275). -/
inductive Mouth where
  | prod (p : Prod)
  | emit (l : Line)
  deriving DecidableEq, Repr

/-- An event whose capture edge lies ahead: what fires, the edge, and the event it will be (R278, R285). -/
structure Coming where
  mouth : Mouth
  edge  : Nat
  tag   : Nat
  by_   : Block
  tbus  : Option Nat
  deriving DecidableEq, Repr

/-- A route write that took effect: the register, the edge, and who wrote, 0 for the host and e + 1 for engine e
(R286). -/
structure Wrote where
  addr : Nat
  edge : Nat
  rank : Nat
  deriving DecidableEq, Repr

/-- A TBUS line as the device drives and sees it (R284). -/
structure Tbus where
  /-- ECLK edge at which the device's own pulse began, its width, and the event that began it -/
  pulse : Option (Nat × Nat × Nat × Block)
  low   : Bool
  /-- SCLK since it started at which the line last rose -/
  rose  : Option Nat
  deriving DecidableEq, Repr

/-- The sluice (R275-R287): events in flight in capture order, last delivery edge of a line (global
line n under n, local line l of quad q under 256 + 16q + l; stored plus one), and the TBUS lines. -/
structure Slc where
  flights : List Flight
  /-- events whose capture edge lies ahead, as they were fired -/
  coming  : List Coming
  /-- route writes that took effect at the latest edge of one (R286) -/
  wrote   : List Wrote
  gates   : Tab Nat
  tbus    : Tab Tbus
  /-- route writes in this frame (R287) -/
  writes  : Nat
  deriving DecidableEq, Repr

/-- A temperature sensor (R312-R318): states 0 NORMAL, 1 WARN, 2 THROTTLE, 3 TRIP. -/
structure Sensor where
  st     : Nat
  /-- states indicated by the latest readings that all lie on one side of `st`, newest first (R314) -/
  ind    : List Nat
  broken : Bool
  why    : Nat
  median : Bool
  /-- criteria met by the latest readings: a run of broken criteria, and of clean readings (R316, R317) -/
  run    : List (List Nat)
  clean  : Nat
  /-- last clean reading, and the value in use -/
  good   : W
  value  : W
  reads  : Nat
  /-- in THROTTLE or above when judged broken (R318) -/
  held   : Bool
  /-- readings in a row below THROTTLE - 5 (R312) -/
  cool   : Nat
  deriving DecidableEq, Repr

/-- A sensor after reset. -/
def sensorInit : Sensor :=
  { st := 0, ind := [], broken := false, why := 0, median := false, run := [], clean := 0, good := 0,
    value := 0, reads := 0, held := false, cool := 0 }

/-- Thermal and power state (R312, R322-R327). Domains are numbered quad q, 144 + cluster k,
160 + group g, 176 + lane j, 192 + bias d. -/
structure Pwr where
  sensors : Tab Sensor
  /-- zones read every 1 ms (R312) -/
  fast    : List Nat
  /-- domains switched on, and domains that have reported good -/
  on      : List Nat
  good    : List Nat
  /-- switch-ons that wait for admission since an earlier tick, oldest first (R323) -/
  wait    : List Nat
  /-- switch-ons requested since the last admission, ascending -/
  fresh   : List Nat
  /-- bank groups powered (CIS.CFG) -/
  groups  : Nat
  /-- requests of this tick: request registers and the bits asked of each, and the PWR_SET that asks (R322) -/
  asked   : List (List (Nat × W) × Option Job)
  /-- a PWR_GROUPS command that waits for its groups (R323) -/
  job     : Option Job
  /-- sums in a row above DPS_LIM (R327) -/
  overN   : Nat
  deriving DecidableEq, Repr

/-- Lane states (R344), in the order of LANE.STAT.STATE. -/
inductive LaneState where
  | off | train | up | failed
  deriving DecidableEq, Repr

/-- A lane (R344). -/
structure Lane where
  st      : LaneState
  /-- attempt of the running training, and attempts since reset -/
  attempt : Nat
  total   : Nat
  /-- the partner lists the lane in INSVC -/
  partner : Bool
  /-- an attempt completed and the lane waits for the partner's INSVC -/
  ready   : Bool
  /-- uncorrectable codewords in a row; ECLK counts of those inside the window of ERR_LIM, newest first -/
  row     : Nat
  errAt   : List Nat
  /-- ECLK count when the lane last came UP -/
  upAt    : Nat
  /-- LANE_FAIL waits for the tick that narrows the link (R303) -/
  failed  : Bool
  /-- failed in the repair map (R304) -/
  marked  : Bool
  /-- as the last training attempt took them (R348): TXEQ where TXEQ_FIX asks for it, none with trained values; and
  the pattern of PAT, which only DIAGNOSTIC sends -/
  eq      : Option W
  pat     : Nat
  deriving DecidableEq, Repr

/-- A lane after reset. -/
def laneInit : Lane :=
  { st := .off, attempt := 0, total := 0, partner := false, ready := false, row := 0, errAt := [], upAt := 0,
    failed := false, marked := false, eq := none, pat := 0 }

/-- A notification (R341). -/
structure Ntfy where
  type_ : Nat
  arg   : Nat
  frame : Nat
  data  : W
  lost  : Bool
  deriving DecidableEq, Repr

/-- A MEM completion (R340). -/
structure MemCpl where
  read   : Bool
  tag    : BitVec 12
  link   : Nat
  status : Nat
  words  : Nat
  tick   : Nat
  data   : List W
  deriving DecidableEq, Repr

/-- A command completion (R350). -/
structure CmdCpl where
  code   : Nat
  tag    : BitVec 12
  status : Nat
  detail : Nat
  frame  : Nat
  /-- FRAME_V (R352) -/
  frameV : Bool
  data   : List W
  deriving DecidableEq, Repr

/-- A data flit the device sent and the partner has not acknowledged (R343): what it carries. -/
inductive Msg where
  | mem (c : MemCpl)
  | cmd (c : CmdCpl)
  | ntfy (n : Ntfy)
  deriving DecidableEq, Repr

/-- A link (R330-R347). -/
structure Link where
  /-- lanes in service -/
  inSvc   : List Nat
  /-- messages queued and messages sent but not acknowledged, oldest first -/
  queue   : List Msg
  sent    : List (Nat × Msg)
  /-- next SEQ to send; SEQ of the last data flit received in order -/
  seq     : Nat
  rx      : Nat
  /-- last SEQ the partner acknowledged (R343) -/
  acked   : Nat
  /-- a data flit was lost: later ones are discarded until it arrives again (R342) -/
  nak     : Bool
  /-- credits granted by the host (R336) -/
  credMem : Nat
  credCmd : Nat
  credNtfy : Nat
  replays : Nat
  /-- successive replays from the same flit (R343) -/
  same    : Nat
  deriving DecidableEq, Repr

/-- A link after reset. -/
def linkInit : Link :=
  { inSvc := [], queue := [], sent := [], seq := 0, rx := 4095, acked := 4095, nak := false, credMem := 0, credCmd := 0,
    credNtfy := 0, replays := 0, same := 0 }

/-- The NV sets that are saved by generation and commit (R382-R391). A quad's calibration carries the
generation of the full job that saves it; the CAL_FULL word closes such a job (R388). -/
inductive NvSet where
  | repair | thermal
  /-- the live patch, or an empty one (R389) -/
  | patch (erase : Bool)
  | cal (q : Nat) (full : Option Nat)
  | calFull (gen : Nat)
  deriving DecidableEq, Repr

/-- A save that waits or is under way (R383, R385) and the command it completes. -/
structure NvSave where
  set_ : NvSet
  job  : Option Job
  deriving DecidableEq, Repr

/-- A set being written (R383): the words left of its current part, as NVR offset and value, and its new generation. -/
structure NvRun where
  save : NvSave
  left : List (Nat × W)
  gen  : Nat
  /-- step 2 is over: the payload was taken (R385) -/
  filled : Bool
  /-- the job was stopped: the word under way is the last one (R68, R359) -/
  cut  : Bool
  deriving DecidableEq, Repr

/-- How a request that wrote NV words completes: its envelope, the words applied, and whether one of them
was not made durable (R340, R380). -/
structure NvFin where
  hdr   : Hdr
  words : Nat
  bad   : Bool
  deriving DecidableEq, Repr

/-- A host write of one NV word (R381), and on the last word of a request its completion. -/
structure NvWord where
  off : Nat
  val : W
  fin : Option NvFin
  deriving DecidableEq, Repr

/-- Boot stages (R377). -/
inductive BootStage where
  | off | selfTest | training | done
  deriving DecidableEq, Repr

/-- Reset, supplies, mode and boot (R49-R69, R373-R378, R400, R412). -/
structure Sys where
  mode     : Mode
  /-- the rails are gone (R375) -/
  unpowered : Bool
  resetLow : Bool
  /-- rails outside their operating range that raised RAIL_WARN, VCH_FAULT (true for VCHN) or VDPS_LOW (R400) -/
  warned   : List Rail
  vchBad   : List Bool
  vdpsLow  : List (Fin 4)
  devid    : BitVec 5
  master   : Bool
  recov    : Bool
  boot     : BootStage
  mspi     : Bool
  /-- GLB.MODE.WCS -/
  wcs      : Bool
  /-- the mode request that warms (R55) -/
  req      : Option ModeReq
  /-- mode requests applied at the current tick, in the order of R11 (R57) -/
  asked    : List ModeReq
  /-- quad states at CALIBRATE entry (R63) -/
  held     : Tab QState
  /-- SAFE entry's step 4 is due at the next tick (R67) -/
  safeDue  : Bool
  deriving DecidableEq, Repr

/-- Clock, frame number and card tick (R16-R21, R41-R48, R265-R266). -/
structure Clk where
  frame    : Nat
  /-- a tick has fallen since SCLK first locked (R20) -/
  ticked   : Bool
  locked   : Bool
  relock   : Bool
  ref      : Bool
  holdover : Bool
  /-- the frame in progress ran in holdover at some time; it was locked to the card tick throughout -/
  heldOver : Bool
  synced   : Bool
  /-- slave: the first edge has been captured; consecutive good edges; consecutive misses (R42, R43) -/
  captured : Bool
  good     : Nat
  miss     : Nat
  slocked  : Bool
  /-- the slave relocks by R44 -/
  again    : Bool
  /-- the next tick has been moved by so many SCLK (R44) -/
  moved    : Option Int
  /-- TRIM in force (R41) -/
  trim     : Nat
  /-- ticks left to the master's epoch mark; an armed mark names the next tick (R46) -/
  markIn   : Option Nat
  mark     : Bool
  /-- width of the last FSYNC_OUT pulse (R41, R46) -/
  fsync    : Nat
  /-- ECLK from the start of SCLK to SCLK 0 of this frame, in the sluice's count of edges (R278) -/
  eclk     : Nat
  /-- synchronised resets scheduled: tick, source (R233) -/
  resets   : List (Nat × Nat)
  /-- engines that overran in this frame and were taken before its tick (R28, SUMMARY.OVERRUNS) -/
  overran  : Nat
  deriving DecidableEq, Repr

/-- Staging queues (R11, R26, R40). -/
structure Stage where
  host : List HostEnt
  eng  : List EngEnt
  deriving DecidableEq, Repr

/-- A failing compare whose SCLK is not over: offered to its queue once every compare of that SCLK is known (R208,
R209). -/
structure Offer where
  site   : Nat
  begun  : Nat       -- SCLK in which the vector's period began
  serial : Nat       -- the step it counts for
  cand   : Cand
  deriving DecidableEq, Repr

/-- A step that closed at the tick: with status 1 PASS, 2 FAIL, 3 VOID, or 0 where R103 cancelled it. -/
structure Closing where
  site : Nat
  step : Step
  st   : Nat
  deriving DecidableEq, Repr

/-- Fail capture (R208-R217). -/
structure Led where
  /-- occupancy of a cluster's fail queue -/
  occ    : Tab Nat
  limits : Tab (W × W)
  /-- the ledger is at or above its high-water mark -/
  high   : Bool
  /-- LOGFs of the ended frame wait for the compares of SCLK 0: 1 until the queues' drain of that SCLK, then 2 -/
  logs   : Nat
  /-- failing compares of one SCLK, in the order they are offered, and that SCLK -/
  offers : List Offer
  offAt  : Nat
  /-- steps that closed at the tick and are not yet numbered, by ascending site -/
  due    : List Closing
  /-- numbered entries that the ring writer has not copied: LSEQ and words (R212) -/
  ring   : List (Nat × List W)
  deriving DecidableEq, Repr

/-- The occurrence of a class at the tick under way (R291): raised and effective level, and its sources with their
aims. -/
structure OccNow where
  cls  : Nat
  lvl  : Nat
  eff  : Nat
  srcs : List (Nat × List Nat)
  deriving DecidableEq, Repr

/-- Fault notification and ALIVE (R301, R307): for a class, one more than the highest effective level
of its occurrences in this frame. While a tick's sequence runs, `tick` holds the classes that were
unacknowledged as it began, and `joined` the occurrences of the tick so far: the raises of one tick are raises of one
instant (R291). -/
structure Flt where
  occ     : Tab Nat
  tick    : Option (List Nat)
  joined  : List OccNow
  running : Bool
  level   : Bool
  toggles : Nat
  deriving DecidableEq, Repr

/-- A spare bank (R164). -/
structure SpareBank where
  copying : Bool
  copied  : Bool
  inUse   : Bool
  /-- recorded in the repair map; marked unusable there (R390) -/
  listed  : Bool
  failed  : Bool
  bank    : Nat
  deriving DecidableEq, Repr

/-- Cistern upkeep (R163, R164): scrub position in words, corrected-error frames of a bank, banks
found weak that wait, poisoned and unreadable words, and the spares. -/
structure Cis where
  scrub  : Nat
  ecc1   : Tab (List Nat)
  weak   : List Nat
  poison : List Nat
  spares : Tab SpareBank
  deriving DecidableEq, Repr

/-- The scarab's command handling (R353-R359, R416): commands received and not taken, jobs that run
to a later event, unread MSPI completions, the MSPI error flag. -/
structure HostIf where
  waiting : List (Nat × Cmd)
  jobs    : List Job
  mspiCpl : List CmdCpl
  mspiErr : Bool
  /-- words the last MSPI read returned -/
  mspiOut : List W
  ntfy    : List Ntfy
  lost    : Nat
  /-- a notification was lost since the last one sent -/
  lostF   : Bool
  deriving DecidableEq, Repr

/-- The NV store (R379-R391). -/
structure Nv where
  saves  : List NvSave
  run    : Option NvRun
  /-- host writes of single words that wait -/
  singles : List NvWord
  /-- slot in force of a set by its number (0 repair, 1 thermal, 2 patch, 3 + q calibration): 1 A, 2 B -/
  slot   : Tab Nat
  /-- writes of a word so far; spare rows left; rows remapped -/
  wear   : Tab Nat
  spare  : Nat
  /-- a full calibration whose saves have begun: its generation, and the quads below which all are saved (R388) -/
  calFull : Option (Nat × Nat)
  deriving DecidableEq, Repr

/-- The writable control store and patch RAM words (R122, R125): copy 16 k + word, five-word values. -/
structure Ucs where
  wcs    : Tab (BitVec 160)
  loaded : Tab (List Nat)
  pram   : Tab (BitVec 160)
  /-- held words W0-W3 of a PRAM word being written, and of WCS_DATA -/
  hold   : Tab W
  deriving DecidableEq, Repr

/-- The instructions of the TAP (R418). -/
inductive Jtag where
  | bypass | idcode | samplePreload | extest | clamp | highz | extestPulse | extestTrain
  deriving DecidableEq, Repr

/-- The device: all that the spec gives it. -/
structure Dev where
  sys     : Sys
  clk     : Clk
  stage   : Stage
  /-- stored register cards at their addresses -/
  regs    : Tab W
  /-- byte-addressed memories: PGM, ACQ, LDG, CIS, NVR -/
  mem     : List Host.Cell
  /-- scratch byte `a` of engine `e` under 16384 e + a -/
  scratch : List Host.Cell
  engs    : Tab Eng
  sites   : Tab Site
  plys    : Tab Ply
  cmps    : List Cmp
  quads   : Tab Quad
  circs   : Tab Circ
  chains  : Tab Chain
  acqs    : Tab Acq
  tdcs    : Tab Tdc
  weirs   : Tab Weir
  slc     : Slc
  led     : Led
  flt     : Flt
  cis     : Cis
  pwr     : Pwr
  lanes   : Tab Lane
  links   : Tab Link
  host    : HostIf
  nv      : Nv
  ucs     : Ucs
  /-- frame images: words by offset (R34, R37) -/
  imgs    : Tab (Tab W)
  /-- JTAG instruction in effect, and what it captures for TDO (R418) -/
  jtag    : Jtag
  tdo     : W
  /-- the model's own count of free values drawn -/
  freeIx  : Nat
  deriving DecidableEq, Repr

/-- The state of the block: the device, and the commands that wait, first in, first out. -/
structure State extends Dev where
  pending : List Instr
  deriving DecidableEq, Repr

/-- Why a step stops: no command of this device stops the model, every failure the spec describes is
state (R289), so the type has no value. Safe. -/
inductive Fault where
  deriving DecidableEq, Repr

/-- Why a command has no meaning. -/
inductive Refusal where
  /-- raised by the dispatch for a command that is not modelled yet; safe -/
  | notModelled (mnemonic : String)
  deriving DecidableEq, Repr

/-- The device right after reset (R373, R374): mode RESET, every card at its reset value. -/
def Dev.reset : Dev :=
  { sys := { mode := .reset, unpowered := false, resetLow := true, warned := [], vchBad := [],
             vdpsLow := [], devid := 0, master := false, recov := false, boot := .off, mspi := false,
             wcs := false, req := none, asked := [], held := [], safeDue := false },
    clk := { frame := 0, ticked := false, locked := false, relock := false, ref := false, holdover := false,
             heldOver := false, synced := false, captured := false, good := 0, miss := 0, slocked := false,
             again := false, moved := none, trim := 0, markIn := none, mark := false, fsync := 0, eclk := 0, resets := [], overran := 0 },
    stage := { host := [], eng := [] },
    regs := [], mem := [], scratch := [], engs := [], sites := [], plys := [], cmps := [], quads := [],
    circs := [], chains := [], acqs := [], tdcs := [], weirs := [],
    slc := { flights := [], coming := [], wrote := [], gates := [], tbus := [], writes := 0 },
    led := { occ := [], limits := [], high := false, logs := 0, offers := [], offAt := 0, due := [], ring := [] },
    flt := { occ := [], tick := none, joined := [], running := false, level := false, toggles := 0 },
    cis := { scrub := 0, ecc1 := [], weak := [], poison := [], spares := [] },
    pwr := { sensors := [], fast := [], on := [], good := [], wait := [], fresh := [], groups := 16, asked := [], job := none, overN := 0 },
    lanes := [], links := [],
    host := { waiting := [], jobs := [], mspiCpl := [], mspiErr := false, mspiOut := [],
              ntfy := [], lost := 0, lostF := false },
    nv := { saves := [], run := none, singles := [], slot := [], wear := [], spare := 128, calFull := none },
    ucs := { wcs := [], loaded := [], pram := [], hold := [] },
    imgs := [], jtag := .idcode, tdo := 0, freeIx := 0 }

/-- The block right after reset: no command waits. -/
def State.reset : State := { toDev := Dev.reset, pending := [] }

/-- A command's effect on the device; the queue is left to the step. -/
def State.run (s : State) (f : Dev → Dev) : Host.Outcome State Fault Refusal := .next { s with toDev := f s.toDev }

end Sys2Proof.Machine
end

