-- ==== Sys2Proof/Machine/Regs.lean ====
section
/-! DEFINITION. The address map (R6), the register cards as functions of an address: reset word,
writable bits, write-1-to-clear bits, staged or not, and the class that decides the modes (R59-R61). -/

namespace Sys2Proof.Machine

/-- Where an address lies: a region and the offset inside it (R6); channels by number 5q + c (R4). -/
inductive Loc where
  | glb (o : Nat) | flt (o : Nat) | frm (o : Nat) | thm (o : Nat) | slc (o : Nat) | lnk (o : Nat)
  | pwr (o : Nat) | eng (e o : Nat) | ch (c o : Nat) | quad (q o : Nat) | ply (y o : Nat)
  | ts (n : Nat) | cisReg (o : Nat)
  | hgt (o : Nat) | ucs (o : Nat) | nvr (o : Nat) | img (i o : Nat) | ldg (o : Nat) | pgm (k o : Nat)
  | acq (q o : Nat) | cis (o : Nat) | none
  deriving DecidableEq, Repr

/-- The location of a byte address (R6). -/
def locOf (a : Nat) : Loc :=
  if a < 0x10000 then .glb a
  else if a < 0x20000 then .flt (a - 0x10000)
  else if a < 0x30000 then .frm (a - 0x20000)
  else if a < 0x40000 then .thm (a - 0x30000)
  else if a < 0x50000 then .slc (a - 0x40000)
  else if a < 0x60000 then .lnk (a - 0x50000)
  else if a < 0x70000 then .pwr (a - 0x60000)
  else if a < 0x1000000 then .none
  else if a < 0x1110000 then .eng ((a - 0x1000000) / 0x1000) (a % 0x1000)
  else if a < 0x2000000 then .none
  else if a < 0x2240000 then
    let q := (a - 0x2000000) / 0x4000
    let o := a % 0x4000
    if o < 0x2800 then .ch (5 * q + o / 0x800) (o % 0x800) else .quad q (o - 0x2800)
  else if a < 0x3000000 then .none
  else if a < 0x3010000 then
    let o := a % 0x1000
    if 0xC00 ≤ o ∧ o < 0xD00 then .ts ((o - 0xC00) / 4)
    else if 0xE00 ≤ o ∧ o < 0xF00 then .cisReg (o - 0xE00)
    else .ply ((a - 0x3000000) / 0x1000) o
  else if a < 0x3100000 then .none
  else if a < 0x3110000 then .hgt (a - 0x3100000)
  else if a < 0x4000000 then .none
  else if a < 0x4010000 then .ucs (a - 0x4000000)
  else if a < 0x5000000 then .none
  else if a < 0x5040000 then .nvr (a - 0x5000000)
  else if a < 0x6000000 then .none
  else if a < 0x6080000 then .img ((a - 0x6000000) / 0x10000) (a % 0x10000)
  else if a < 0x8000000 then .none
  else if a < 0x8100000 then .ldg (a - 0x8000000)
  else if a < 0xC000000 then .none
  else if a < 0xC400000 then .pgm ((a - 0xC000000) / 0x40000) (a % 0x40000)
  else if a < 0x10000000 then .none
  else if a < 0x10900000 then .acq ((a - 0x10000000) / 0x10000) (a % 0x10000)
  else if a < 0x100000000 then .none
  else if a < 0x108000000 then .cis (a - 0x100000000)
  else .none

/-- Addresses of the register blocks (R6). -/
def aFlt (o : Nat) : Nat := 0x10000 + o
def aFrm (o : Nat) : Nat := 0x20000 + o
def aThm (o : Nat) : Nat := 0x30000 + o
def aSlc (o : Nat) : Nat := 0x40000 + o
def aLnk (o : Nat) : Nat := 0x50000 + o
def aPwr (o : Nat) : Nat := 0x60000 + o
def aEng (e o : Nat) : Nat := 0x1000000 + e * 0x1000 + o
def aCh (c o : Nat) : Nat := 0x2000000 + (c / 5) * 0x4000 + (c % 5) * 0x800 + o
def aQuad (q o : Nat) : Nat := 0x2002800 + q * 0x4000 + o
def aPly (y o : Nat) : Nat := 0x3000000 + y * 0x1000 + o
def aTs (n : Nat) : Nat := 0x3000C00 + n * 4
def aCisReg (o : Nat) : Nat := 0x3000E00 + o
def aHgt (o : Nat) : Nat := 0x3100000 + o
def aUcs (o : Nat) : Nat := 0x4000000 + o
def aNvr (o : Nat) : Nat := 0x5000000 + o
def aLdg (o : Nat) : Nat := 0x8000000 + o
def aPgm (k o : Nat) : Nat := 0xC000000 + k * 0x40000 + o
def aAcq (q o : Nat) : Nat := 0x10000000 + q * 0x10000 + o
def aCis (o : Nat) : Nat := 0x100000000 + o

/-- The one address a card is stored at: TS and CIS registers are the same in every PLY view (R174). -/
def canonAddr (a : Nat) : Nat :=
  match locOf a with
  | .ts n => aTs n
  | .cisReg o => aCisReg o
  | _ => a

/-- ROM budgets (R85, R124): the published budget of an opcode, its fixed part for WAITE. -/
def romBudget (o : Nat) : Nat :=
  match o with
  | 0x01 => 3 | 0x02 => 4 | 0x03 => 5 | 0x04 => 5 | 0x05 => 4 | 0x06 => 12 | 0x07 => 6 | 0x08 => 8
  | 0x10 => 6 | 0x11 => 3 | 0x12 => 3 | 0x13 => 3 | 0x14 => 3 | 0x15 => 3 | 0x16 => 3 | 0x17 => 3
  | 0x18 => 3 | 0x19 => 5
  | 0x20 => 24 | 0x21 => 20 | 0x22 => 20 | 0x23 => 16 | 0x24 => 24
  | 0x30 => 40 | 0x31 => 24 | 0x32 => 48 | 0x33 => 64 | 0x34 => 40 | 0x35 => 8
  | 0x40 => 32 | 0x41 => 32 | 0x42 => 32
  | 0x50 => 12 | 0x51 => 10 | 0x52 => 6 | 0x53 => 10 | 0x54 => 4 | 0x60 => 4 | 0x61 => 6
  | _ => 0

/-- The source f is named in the source table (R308). -/
def fltNamed (f : Nat) : Bool :=
  f ≤ 4 || (32 ≤ f && f ≤ 39) || (64 ≤ f && f ≤ 68) || (96 ≤ f && f ≤ 100) || (128 ≤ f && f ≤ 136) ||
  (160 ≤ f && f ≤ 171) || (192 ≤ f && f ≤ 197) || (224 ≤ f && f ≤ 229) || (256 ≤ f && f ≤ 259) ||
  (288 ≤ f && f ≤ 292) || (320 ≤ f && f ≤ 321) || (352 ≤ f && f ≤ 355)

/-- The source can be masked by EN (R295, R308). -/
def fltMaskable (f : Nat) : Bool :=
  [1, 64, 65, 98, 99, 100, 128, 132, 169, 192, 228, 256, 288, 291, 320].contains f

/-- The word a card reads after any reset (the cards' Reset column). -/
def resetWord (a : Nat) : W :=
  match locOf a with
  | .glb o =>
    if o = 0x204 then 0xFF800000 else if o = 0x208 then 0x7F800000 else if o = 0x30C then 0xC000
    else if 0x400 ≤ o ∧ o < 0x800 ∧ o % 4 = 0 then 0x3F else 0
  | .flt o =>
    if o < 0x600 ∧ o % 4 = 0 ∧ fltNamed (o / 4) then 0x10000000
    else if o = 0xA04 then 0x80000000 else 0
  | .frm o => if o = 0 then 0x80 else if o = 4 then 0xF else 0
  | .thm o =>
    if o < 0x1C0 ∧ o % 16 = 0 then 0x786955 else if o < 0x1C0 ∧ o % 16 = 4 then 0x400001 else 0
  | .pwr o => if o = 0x2C then 0x10 else if o = 0x88 then 0x42700000 else 0
  | .lnk o =>
    if o < 0x200 ∧ o % 32 = 4 then 0x100000 else if o < 0x200 ∧ o % 32 = 8 then 0x30000
    else if 0x400 ≤ o ∧ o < 0x440 ∧ o % 16 = 4 then 0xA else 0
  | .ch _ o =>
    if o = 0x38 then 0x40F00000 else if o = 0x3C then 0xC0000000 else if o = 0x40 then 0xA20
    else if o = 0x44 then 0x3E800000
    else if o = 0x48 ∨ o = 0x50 then 0xFF800000 else if o = 0x4C ∨ o = 0x54 then 0x7F800000
    else if o = 0x60 then 0x203 else if o = 0x64 then 0xFFF0000
    else if o = 0x100 then 3 else if o = 0x10C then 0x10
    else if o = 0x130 then 0x7FC00000 else if o = 0x200 then 0x1FFFF else 0
  | .quad _ o => if o = 8 then 0x1000 else if o = 0x20 then 0x101 else 0
  | .ply _ o => if o = 0x24 then 0x10 else 0
  | .cisReg o => if o = 0x28 then 0x80000000 else 0
  | .hgt o => if 0x2100 ≤ o ∧ o < 0x2140 ∧ o % 4 = 0 then 2 else 0
  | .ucs o =>
    if o = 0x8108 then 0x1000
    else if 0x8200 ≤ o ∧ o < 0x8600 ∧ o % 4 = 0 then wn (romBudget ((o - 0x8200) / 4)) else 0
  | _ => 0

/-- Bits of a card that a host write changes (RW and RWT fields). -/
def rwMask (a : Nat) : W :=
  match locOf a with
  | .glb o =>
    if o = 0x104 then 0xFF0F else if o = 0x114 then 0x800F1F01 else if o = 0x200 then 0x80003FFF
    else if o = 0x204 ∨ o = 0x208 ∨ o = 0x308 then 0xFFFFFFFF else if o = 0x30C then 0x2001FFFF
    else if 0x400 ≤ o ∧ o < 0x800 then 0x3F else if o = 0x908 then 0xFFFF else 0
  | .frm o =>
    if o = 0 then 0xFF else if o = 4 then 0x3FF else if o = 0x14 then 0x1FF
    else if o = 0x18 ∨ o = 0x28 then 0xFFFFFFFF else if o = 0x1C then 0xFFFF else if o = 0x24 then 0x3F
    else if o = 0x2C then 0x8000FFFF else if o = 0x80 then 1 else 0
  | .flt o =>
    if o < 0x600 then
      (if fltNamed (o / 4) then (if fltMaskable (o / 4) then 0x10030000 else 0x30000) else 0)
    else if o = 0xA04 then 0xC0000000 else if o = 0xA08 then 0x800000FF else 0
  | .thm o =>
    if o < 0x1C0 ∧ o % 16 = 0 then 0xFFFFFF else if o < 0x1C0 ∧ o % 16 = 4 then 0xFFFF00FF
    else if 0x200 ≤ o ∧ o < 0x220 then 0x8000FFFF else 0
  | .slc o =>
    if o < 0x1000 then (if o % 16 = 0 then 0xFFFFF else if o % 16 = 4 then 0xE0FFFFFF else 0)
    else if o = 0x1000 ∨ o = 0x1004 then 0xC00000FF
    else if 0x1010 ≤ o ∧ o < 0x1020 then 0x8000FFFF else 0
  | .lnk o =>
    if o < 0x200 then (if o % 32 = 4 then 0xFFF0301 else if o % 32 = 8 then 0x3FFFF else 0)
    else if 0x400 ≤ o ∧ o < 0x440 ∧ o % 16 = 4 then 0xFF else 0
  | .pwr o =>
    if o < 0x10 then 0xFFFFFFFF else if o = 0x10 ∨ o = 0x20 ∨ o = 0x24 then 0xFFFF
    else if o = 0x28 then 0xF else if o = 0x2C then 0x1F else if o = 0x88 then 0xFFFFFFFF else 0
  | .eng _ o =>
    if o = 4 then 0x7FFF else if o = 8 then 0xFFFF0000 else if o = 0xC then 0x3FEF
    else if o = 0x18 then 0x80007FFF else if 0x40 ≤ o ∧ o < 0xC0 then 0xFFFFFFFF
    else if 0xC0 ≤ o ∧ o < 0xD0 then 0xFFFFFF else if o = 0x100 then 7 else 0
  | .ch _ o =>
    if o = 0 then 0xF else if 0x10 ≤ o ∧ o ≤ 0x20 then 0xFFFFFFFF else if o = 0x30 then 0x77
    else if o = 0x34 ∨ o = 0x38 ∨ o = 0x3C then 0xFFFFFFFF else if o = 0x40 then 0xFF30
    else if 0x44 ≤ o ∧ o ≤ 0x54 then 0xFFFFFFFF else if o = 0x5C then 0xFFF
    else if o = 0x60 then 0x1FF7 else if o = 0x64 then 0xFFF0FFF
    else if o = 0x100 then 0x703FF else if o = 0x104 then 0x80000007 else if o = 0x10C then 0xC000001F
    else if o = 0x128 then 0xC0003F0F else if o = 0x13C then 0xFFFFFFFF
    else if o = 0x180 ∨ o = 0x184 then 0xC00000FF
    else if 0x200 ≤ o ∧ o < 0x400 then 0x3FFFF else if 0x400 ≤ o ∧ o < 0x800 then 0xFFFFFF else 0
  | .quad _ o =>
    if o = 0 then 0xFF07 else if o = 8 then 0xFF03 else if o = 0xC then 0xC0000003
    else if o = 0x20 then 0xF00F070F else if o = 0x100 then 0xFF00FFFF
    else if 0x200 ≤ o ∧ o < 0x300 then
      (match o % 32 with
       | 0 => 0xFFF0FFFF | 4 => 0xFFFFFF | 8 => 0xFFFFFF | 12 => 0xFFFFFFFF | 16 => 0xFFFFFF
       | 20 => 0x3FFFFFFF | 24 => 0x1FFF | _ => 0)
    else if 0x300 ≤ o ∧ o < 0x400 then
      (match o % 16 with
       | 0 => 0xFF1FFFFF | 4 => 0xFFFFFF | 8 => 0xFFFFFF | _ => 0xFFFF)
    else if 0xE00 ≤ o ∧ o < 0xE80 then (if o % 8 = 0 then 0xFFFFF else 0xE0FFFFFF)
    else if o = 0xE80 ∨ o = 0xE84 then 0xC00000FF else 0
  | .ply _ o =>
    if o = 0 then 0xC000007F else if o = 0x14 then 0x1FFFFF else if o = 0x18 ∨ o = 0x1C then 0xFFFF
    else if o = 0x20 then 0x1FFFFF else if o = 0x24 then 0xFFFFF else if o = 0x28 then 0xFFFFFF
    else if 0xA0 ≤ o ∧ o < 0xC0 then 0xFFFFFFFF else 0
  | .ts _ => 0xFFFF
  | .cisReg o => if o = 0x28 then 0x80000000 else 0
  | .hgt o =>
    if o < 0x900 then 0x8000FF7F else if 0x1000 ≤ o ∧ o < 0x2000 ∧ o % 16 = 0 then 0xC1FFFFFF
    else if 0x2100 ≤ o ∧ o < 0x2140 then 0xF else 0
  | .ucs o =>
    if 0x8000 ≤ o ∧ o < 0x8100 then 0x80FFFFFF else if o = 0x8100 then 1 else if o = 0x8108 then 0x3FFF
    else if 0x8200 ≤ o ∧ o < 0x8600 then 0xFFFF else if o = 0x8600 then 0xC00F3FFF else 0
  | _ => 0

/-- Bits of a card that a write of 1 clears (W1C fields with no further rule of their own). -/
def w1cMask (a : Nat) : W :=
  match locOf a with
  | .glb o =>
    if o = 0x108 then 6 else if o = 0x20C then 0x80000000 else if o = 0x30C then 0x40000000
    else if o = 0x324 then 0xC0000000 else if 0x800 ≤ o ∧ o < 0x820 then 0xFFFFFFFF
    else if o = 0x904 then 0x80000000 else 0
  | .frm o =>
    if o = 0x10 then 0xDF8 else if 0x40 ≤ o ∧ o < 0x60 then 0xFFFFFFFF else if o = 0x60 then 0xFFFF
    else if o = 0x8C then 0xE0000000 else if o = 0xA0 then 0x80000000 else 0
  | .flt o => if o = 0xA0C then 0xC0000000 else 0
  | .thm o => if o = 0x800 then 0x80000000 else 0
  | .slc o =>
    if o = 0x1020 then 0xFFF3 else if o = 0x1024 then 0xC0000000
    else if (0x1100 ≤ o ∧ o < 0x1120) ∨ (0x1140 ≤ o ∧ o < 0x1160) ∨ (0x1180 ≤ o ∧ o < 0x11A0) then 0xFFFFFFFF
    else if o = 0x1120 ∨ o = 0x1160 ∨ o = 0x11A0 then 0xFFFF else 0
  | .pwr o => if o = 0x80 then 0xC0000000 else 0
  | .eng _ o => if o = 0 then 0x80000000 else 0
  | .ch _ o =>
    if o = 4 then 0x7F8 else if o = 0x68 then 0x60000000 else if o = 0x108 then 0xC0000000
    else if o = 0x114 then 0xF0000000 else if o = 0x12C then 0xFC000000 else if o = 0x188 then 7 else 0
  | .quad _ o =>
    if o = 4 then 0xC0000000 else if o = 0x24 then 0xE0000000 else if o = 0x104 then 0x78000000
    else if o = 0xE88 then 7 else 0
  | .ply _ o => if o = 4 then 0xFF000000 else 0
  | .cisReg o => if o = 0x24 then 0x80000000 else 0
  | .hgt o => if o = 0x2000 then 0x80000000 else 0
  | .ucs o => if o = 0x8104 then 0x80000000 else if o = 0x8110 then 0x80000000 else 0
  | _ => 0

/-- The card is RWT: a write is staged (R10). -/
def isStaged (a : Nat) : Bool :=
  match locOf a with
  | .glb o => o = 0x104 || (0x400 ≤ o && o < 0x800)
  | .frm o => o = 4
  | .pwr o => o ≤ 0x10 || o = 0x20 || o = 0x24 || o = 0x28 || o = 0x2C
  | .ch _ o =>
    o = 0 || (0x10 ≤ o && o ≤ 0x20) || (0x30 ≤ o && o ≤ 0x54) || o = 0x5C || o = 0x60 || o = 0x64 ||
    o = 0x100 || o = 0x104 || o = 0x10C || o = 0x128 || (0x400 ≤ o && o < 0x800)
  | .quad _ o =>
    o = 0 || o = 0xC || o = 0x100 || (0x200 ≤ o && o < 0x300 && o % 32 ≤ 24) || (0x300 ≤ o && o < 0x400)
  | .ts _ => true
  | _ => false

/-- Who may write a register, by mode (R59-R61). -/
inductive WClass where
  | load | map_ | faults | repair | nv | patch | power | thermal | dsync
  | engine | clkCfg | syncCfg | stageTgt | modeReq | stressCfg | wearSel | wcs | faultAck | statusW1c
  | scrub | reserved
  deriving DecidableEq, Repr

/-- The class of the register at an address (the chapters' register-class rules; R61). -/
def wclass (a : Nat) : WClass :=
  match locOf a with
  | .glb o =>
    if o = 0x104 then .modeReq else if o = 0x108 then .statusW1c else if o = 0x114 then .stressCfg
    else if 0x200 ≤ o ∧ o < 0x820 then .load
    else if o = 0x904 then .statusW1c else if o = 0x908 then .wearSel else .reserved
  | .flt _ => .faults
  | .frm o =>
    if o = 0 ∨ o = 4 then .clkCfg else if o = 0x10 ∨ (0x40 ≤ o ∧ o ≤ 0x60) then .statusW1c
    else if o = 0x14 ∨ o = 0x18 ∨ o = 0x1C then .syncCfg
    else if o = 0x24 ∨ o = 0x28 ∨ o = 0x2C then .stageTgt
    else if o = 0x80 then .load else if o = 0x84 ∨ o = 0x88 then .dsync
    else if o = 0x8C ∨ o = 0xA0 then .statusW1c else .reserved
  | .thm _ => .thermal
  | .slc _ => .load
  | .lnk _ => .power
  | .pwr _ => .power
  | .eng _ _ => .engine
  | .ch _ _ => .load
  | .quad _ o =>
    if o = 0 ∨ o = 4 then .power else if o = 8 ∨ o = 0xC then .repair
    else if o = 0x20 ∨ o = 0x24 then .power else .load
  | .ply _ o => if o = 0 ∨ (0xA0 ≤ o ∧ o < 0xC0) then .map_ else .load
  | .ts _ => .load
  | .cisReg o => if o = 0x28 ∨ o = 0x24 then .scrub else .reserved
  | .hgt _ => .map_
  | .ucs o =>
    if 0x8600 ≤ o ∧ o < 0x8618 then .wcs else if o = 0x8110 then .faultAck else .patch
  | .nvr _ => .nv
  | .img _ _ => .reserved
  | .ldg _ => .load
  | .pgm _ _ => .load
  | .acq _ _ => .load
  | .cis _ => .load
  | .none => .reserved

/-- IDLE or a working mode (M4-M10). -/
def Mode.idleOrWorking (m : Mode) : Bool :=
  match m with
  | .idle | .contact | .parametric | .functional | .mixed | .stress | .calibrate | .diagnostic => true
  | _ => false

/-- A working mode in which engines run Pranum programs (R50). -/
def Mode.running (m : Mode) : Bool :=
  match m with
  | .contact | .parametric | .functional | .mixed | .stress | .diagnostic => true
  | _ => false

/-- The mode lets the host write a register of the class (R59-R61); the Patch class over a link is
IDLE only, and over MSPI also BOOT (R121), which the MSPI path adds. -/
def WClass.mayWrite (k : WClass) (m : Mode) : Bool :=
  match k with
  | .load | .scrub => m = .idle || m.running
  | .map_ => m = .idle || m = .diagnostic
  | .faults => m.idleOrWorking || m = .recovery
  | .faultAck => m.idleOrWorking || m = .recovery
  | .repair => m = .idle || m.running
  | .nv => m = .recovery || m = .idle || m = .calibrate || m = .diagnostic
  | .patch => m = .idle
  | .power => m = .idle || m.running
  | .thermal => m = .idle || m = .diagnostic
  | .dsync => m.running
  | .engine => m.idleOrWorking
  | .clkCfg | .syncCfg | .stressCfg => m = .idle
  | .stageTgt | .modeReq | .statusW1c => m = .recovery || m.idleOrWorking
  | .wearSel => m = .boot || m = .recovery || m.idleOrWorking
  | .wcs => m = .recovery || m = .idle || m.running
  | .reserved => m ≠ .safe && m ≠ .reset

end Sys2Proof.Machine
end

