-- ==== Sys2Proof/Machine/Ops.lean ====
section
/-! DEFINITION. Named operations over the state: registers, memories, tables, the headgate map, and
the small questions the rules ask of the machine. -/

namespace Sys2Proof.Machine

/-! ### Registers -/

/-- The stored word of a card. -/
def Dev.rd (s : Dev) (a : Nat) : W := s.regs.get resetWord a

/-- The card with a new stored word. -/
def Dev.wr (s : Dev) (a : Nat) (v : W) : Dev := { s with regs := s.regs.set resetWord a v }

/-- A field of a card. -/
def Dev.fld (s : Dev) (a hi lo : Nat) : Nat := (s.rd a).fld hi lo

/-- A bit of a card. -/
def Dev.bit (s : Dev) (a i : Nat) : Bool := (s.rd a).bit i

/-- A field of a card replaced. -/
def Dev.setFld (s : Dev) (a hi lo x : Nat) : Dev := s.wr a ((s.rd a).put hi lo x)

/-- Bits of a card set. -/
def Dev.setBits (s : Dev) (a : Nat) (m : W) : Dev := s.wr a (s.rd a ||| m)

/-- Bits of a card cleared. -/
def Dev.clrBits (s : Dev) (a : Nat) (m : W) : Dev := s.wr a (s.rd a &&& ~~~m)

/-- A count in a field, one more, saturating at the field's top. -/
def Dev.incSat (s : Dev) (a hi lo : Nat) : Dev :=
  s.setFld a hi lo (min (s.fld a hi lo + 1) (2 ^ (hi + 1 - lo) - 1))

/-- A frame number written to a LO and HI pair of cards (HI takes bits 47:32). -/
def Dev.wrFrame (s : Dev) (aLo aHi n : Nat) : Dev :=
  (s.wr aLo (wn n)).setFld aHi 15 0 (n / 2 ^ 32)

/-- The frame number of a LO and HI pair of cards. -/
def Dev.rdFrame (s : Dev) (aLo aHi : Nat) : Nat := (s.rd aLo).toNat + s.fld aHi 15 0 * 2 ^ 32

/-! ### Tables -/

def Dev.eng (s : Dev) (e : Nat) : Eng := s.engs.get (fun _ => engOff) e
def Dev.setEng (s : Dev) (e : Nat) (x : Eng) : Dev := { s with engs := s.engs.set (fun _ => engOff) e x }
def Dev.site (s : Dev) (i : Nat) : Site := s.sites.get (fun _ => siteInit) i
def Dev.setSite (s : Dev) (i : Nat) (x : Site) : Dev := { s with sites := s.sites.set (fun _ => siteInit) i x }
def Dev.ply (s : Dev) (y : Nat) : Ply := s.plys.get (fun _ => plyInit) y
def Dev.setPly (s : Dev) (y : Nat) (x : Ply) : Dev := { s with plys := s.plys.set (fun _ => plyInit) y x }
def Dev.quad (s : Dev) (q : Nat) : Quad := s.quads.get (fun _ => quadInit) q
def Dev.setQuad (s : Dev) (q : Nat) (x : Quad) : Dev := { s with quads := s.quads.set (fun _ => quadInit) q x }
def Dev.circ (s : Dev) (c : Nat) : Circ := s.circs.get (fun _ => circInit) c
def Dev.setCirc (s : Dev) (c : Nat) (x : Circ) : Dev := { s with circs := s.circs.set (fun _ => circInit) c x }
def Dev.chain (s : Dev) (c : Nat) : Chain := s.chains.get (fun _ => chainInit) c
def Dev.setChain (s : Dev) (c : Nat) (x : Chain) : Dev := { s with chains := s.chains.set (fun _ => chainInit) c x }
def Dev.acq (s : Dev) (q : Nat) : Acq := s.acqs.get (fun _ => acqInit) q
def Dev.setAcq (s : Dev) (q : Nat) (x : Acq) : Dev := { s with acqs := s.acqs.set (fun _ => acqInit) q x }
def Dev.tdc (s : Dev) (c : Nat) : Tdc := s.tdcs.get (fun _ => tdcInit) c
def Dev.setTdc (s : Dev) (c : Nat) (x : Tdc) : Dev := { s with tdcs := s.tdcs.set (fun _ => tdcInit) c x }
def Dev.weir (s : Dev) (c : Nat) : Weir := s.weirs.get (fun _ => weirInit) c
def Dev.setWeir (s : Dev) (c : Nat) (x : Weir) : Dev := { s with weirs := s.weirs.set (fun _ => weirInit) c x }
def Dev.sensor (s : Dev) (n : Nat) : Sensor := s.pwr.sensors.get (fun _ => sensorInit) n
def Dev.setSensor (s : Dev) (n : Nat) (x : Sensor) : Dev :=
  { s with pwr := { s.pwr with sensors := s.pwr.sensors.set (fun _ => sensorInit) n x } }
def Dev.lane (s : Dev) (j : Nat) : Lane := s.lanes.get (fun _ => laneInit) j
def Dev.setLane (s : Dev) (j : Nat) (x : Lane) : Dev := { s with lanes := s.lanes.set (fun _ => laneInit) j x }
def Dev.link (s : Dev) (l : Nat) : Link := s.links.get (fun _ => linkInit) l
def Dev.setLink (s : Dev) (l : Nat) (x : Link) : Dev := { s with links := s.links.set (fun _ => linkInit) l x }

/-- Apply a function to one entry. -/
def Dev.onEng (s : Dev) (e : Nat) (f : Eng → Eng) : Dev := s.setEng e (f (s.eng e))
def Dev.onSite (s : Dev) (i : Nat) (f : Site → Site) : Dev := s.setSite i (f (s.site i))
def Dev.onPly (s : Dev) (y : Nat) (f : Ply → Ply) : Dev := s.setPly y (f (s.ply y))
def Dev.onQuad (s : Dev) (q : Nat) (f : Quad → Quad) : Dev := s.setQuad q (f (s.quad q))
def Dev.onCirc (s : Dev) (c : Nat) (f : Circ → Circ) : Dev := s.setCirc c (f (s.circ c))
def Dev.onChain (s : Dev) (c : Nat) (f : Chain → Chain) : Dev := s.setChain c (f (s.chain c))
def Dev.onAcq (s : Dev) (q : Nat) (f : Acq → Acq) : Dev := s.setAcq q (f (s.acq q))
def Dev.onTdc (s : Dev) (c : Nat) (f : Tdc → Tdc) : Dev := s.setTdc c (f (s.tdc c))
def Dev.onWeir (s : Dev) (c : Nat) (f : Weir → Weir) : Dev := s.setWeir c (f (s.weir c))
def Dev.onSensor (s : Dev) (n : Nat) (f : Sensor → Sensor) : Dev := s.setSensor n (f (s.sensor n))
def Dev.onLane (s : Dev) (j : Nat) (f : Lane → Lane) : Dev := s.setLane j (f (s.lane j))
def Dev.onLink (s : Dev) (l : Nat) (f : Link → Link) : Dev := s.setLink l (f (s.link l))

/-- Insert into an ascending list without repeats. -/
def insAsc (x : Nat) : List Nat → List Nat
  | [] => [x]
  | y :: r => if x < y then x :: y :: r else if x = y then y :: r else y :: insAsc x r

/-- Remove a number from a list. -/
def rmv (x : Nat) (l : List Nat) : List Nat := l.filter (· ≠ x)

/-! ### Limit table (R215) -/

/-- A limit entry: LO and HI; an entry nothing has written holds no bounds (R215). -/
def Dev.limit (s : Dev) (n : Nat) : W × W := s.led.limits.get (fun _ => (0xFF800000, 0x7F800000)) n

def Dev.setLimit (s : Dev) (n : Nat) (v : W × W) : Dev :=
  { s with led := { s.led with limits := s.led.limits.set (fun _ => (0xFF800000, 0x7F800000)) n v } }

/-! ### Free values -/

/-- Draw the errors that a job's reads find (log 12). -/
def Dev.drawErrors (s : Dev) : (Option Nat × List Nat) × Dev :=
  (Config.readErrors s.freeIx, { s with freeIx := s.freeIx + 1 })

/-- Draw one free value (log 12). -/
def Dev.draw (s : Dev) : W × Dev := (Config.freeValue s.freeIx, { s with freeIx := s.freeIx + 1 })

/-! ### CRC-32 (R363 LOAD_CRC, R382) -/

/-- One bit of the reflected CRC. -/
def crcBit (c : W) : W := if c.bit 0 then (c >>> 1) ^^^ 0xEDB88320 else c >>> 1

/-- One byte. -/
def crcByte (c : W) (b : Byte) : W :=
  crcBit (crcBit (crcBit (crcBit (crcBit (crcBit (crcBit (crcBit (c ^^^ b.setWidth 32))))))))

/-- CRC-32 of a byte string: initial value and final XOR all ones. -/
def crc32 (l : List Byte) : W := ~~~ (l.foldl crcByte 0xFFFFFFFF)

/-- The four bytes of a word, low byte first. -/
def bytesOf (w : W) : List Byte := [w.extractLsb' 0 8, w.extractLsb' 8 8, w.extractLsb' 16 8, w.extractLsb' 24 8]

/-- CRC-32 of words. -/
def crcWords (l : List W) : W := crc32 (l.flatMap bytesOf)

/-! ### Memories -/

/-- The words of one identity copy (R365, NVR.ID). -/
def idWords : List W :=
  let l := [0xC0B50576, Config.stepping.setWidth 32, Config.serial 0, Config.serial 1]
  l ++ [crcWords l]

/-- An NVR word as manufacture leaves it (R381, R388): the identity, slot A of every quad's calibration
committed with GEN 1 and FULL 1 over a payload of zeros, and the CAL_FULL word (log 7). -/
def nvrMade (o : Nat) : W :=
  if o < 0x14 then idWords.getD (o / 4) 0
  else if 0x200 ≤ o ∧ o < 0x214 then idWords.getD ((o - 0x200) / 4) 0
  else if 0xD000 ≤ o ∧ o < 0x3A000 then
    let r := (o - 0xD000) % 0x500
    if r = 0 then 0x0001015A else if r = 4 then 0x43EC18F3 else 0
  else if o = 0x3A000 then 0x0001005A else 0

/-- What an NVR byte nothing has written reads as. -/
def nvrByte (o : Nat) : Byte := (nvrMade (o / 4 * 4)).extractLsb' (8 * (o % 4)) 8

/-- What an unlisted byte reads as (log 6). -/
def memByte (a : Nat) : Byte :=
  match locOf a with
  | .nvr o => nvrByte o
  | _ => 0

/-- The canonical form of the memories. -/
def Memory.wf (m : List Host.Cell) : Bool := Tab.wf memByte m

/-- The canonical form of scratch. -/
def Scratch.wf (m : List Host.Cell) : Bool := Tab.wf (fun _ => (0 : Byte)) m

/-- One byte of memory. -/
def Dev.byte (s : Dev) (a : Nat) : Byte := Tab.get memByte s.mem a

/-- One byte of memory written. -/
def Dev.setByte (s : Dev) (a : Nat) (b : Byte) : Dev := { s with mem := Tab.set memByte a b s.mem }

/-- A little-endian word of four bytes (R8). -/
def wordOf (b : Nat → Byte) (a : Nat) : W := b (a + 3) ++ b (a + 2) ++ b (a + 1) ++ b a

/-- A word of memory. -/
def Dev.word (s : Dev) (a : Nat) : W := wordOf s.byte a

/-- A word of memory written. -/
def Dev.setWord (s : Dev) (a : Nat) (v : W) : Dev :=
  (((s.setByte a (v.extractLsb' 0 8)).setByte (a + 1) (v.extractLsb' 8 8)).setByte (a + 2)
    (v.extractLsb' 16 8)).setByte (a + 3) (v.extractLsb' 24 8)

/-- Bytes written from an address on. -/
def Dev.setBytes (s : Dev) (a : Nat) : List Byte → Dev
  | [] => s
  | b :: r => (s.setByte a b).setBytes (a + 1) r

/-- One byte of scratch. -/
def Dev.scrByte (s : Dev) (e a : Nat) : Byte := Tab.get (fun _ => 0) s.scratch (16384 * e + a)

/-- The scratch word at a byte address of an engine; bits 1:0 are ignored and the address wraps (R85). -/
def Dev.scrWord (s : Dev) (e a : Nat) : W := wordOf (s.scrByte e) (a % 16384 / 4 * 4)

/-- A scratch byte written. -/
def Dev.setScrByte (s : Dev) (e a : Nat) (b : Byte) : Dev :=
  { s with scratch := Tab.set (fun _ => 0) (16384 * e + a) b s.scratch }

/-- A scratch word written. -/
def Dev.setScrWord (s : Dev) (e a : Nat) (v : W) : Dev :=
  let a := a % 16384 / 4 * 4
  (((s.setScrByte e a (v.extractLsb' 0 8)).setScrByte e (a + 1) (v.extractLsb' 8 8)).setScrByte e (a + 2)
    (v.extractLsb' 16 8)).setScrByte e (a + 3) (v.extractLsb' 24 8)

/-- An engine's scratch cleared (R75, R77). -/
def Dev.clearScr (s : Dev) (e : Nat) : Dev :=
  { s with scratch := s.scratch.filter (fun c => c.1 / 16384 ≠ e) }

/-- A memory region cleared to what its bytes read as unlisted. -/
def Dev.clearMem (s : Dev) (lo hi : Nat) : Dev :=
  { s with mem := s.mem.filter (fun c => c.1 < lo || hi ≤ c.1) }

/-! ### Clock and frame -/

/-- MULT in force (R16). -/
def Dev.mult (s : Dev) : Nat := s.fld (aFrm 0) 7 0

/-- FLEN in SCLK periods (R17). -/
def Dev.flen (s : Dev) : Nat := 1024 * (s.fld (aFrm 4) 9 0 + 1)

/-- Ticks that `ns` nanoseconds span at least: ⌈ns × SCLK / FLEN⌉ with SCLK = 12.5 MHz × MULT (R16). -/
def Dev.ticksOf (s : Dev) (ns : Nat) : Nat := (ns * s.mult + 80 * s.flen - 1) / (80 * s.flen)

/-- W of R55. -/
def Dev.warmTicks (s : Dev) : Nat := max 1 (s.ticksOf 25000)

/-- S of R196. -/
def Dev.settleTicks (s : Dev) : Nat := 1 + s.ticksOf 2000

/-- Frame numbers count modulo 2^48. -/
def frameMod (n : Nat) : Nat := n % 2 ^ 48

/-- Program frame of a site in the current frame (R32). -/
def Dev.pframe (s : Dev) (i : Nat) : Nat :=
  (s.clk.frame + 2 ^ 49 - (s.site i).origin % 2 ^ 48 - (s.site i).dwc.toNat) % 2 ^ 48

/-! ### Mode -/

/-- Encoding of the mode (R49). -/
def Mode.code : Mode → Nat
  | .reset => 0 | .boot => 1 | .recovery => 2 | .idle => 3 | .contact => 4 | .parametric => 5
  | .functional => 6 | .mixed => 7 | .stress => 8 | .calibrate => 9 | .diagnostic => 10 | .safe => 11

/-- The mode of an encoding. -/
def modeOf : Nat → Option Mode
  | 0 => some .reset | 1 => some .boot | 2 => some .recovery | 3 => some .idle | 4 => some .contact
  | 5 => some .parametric | 6 => some .functional | 7 => some .mixed | 8 => some .stress
  | 9 => some .calibrate | 10 => some .diagnostic | 11 => some .safe | _ => none

/-- The resource class is enabled in the mode (R423). -/
def Mode.enables (m : Mode) (k : Nat) : Bool :=
  let c := m.code
  (match k with
   | 0 => [6, 7, 10]
   | 1 => [6, 7, 8, 10]
   | 2 => [6, 7, 8, 10]
   | 3 => [5, 6, 7, 8, 10]
   | 4 => [4, 5, 7, 8, 10]
   | 5 => [5, 7, 8, 10]
   | 6 => [5, 6, 7, 8, 10]
   | 7 => [4, 5, 6, 7, 8, 10]
   | 8 => [5, 6, 7, 8, 10]
   | 9 => [4, 5, 6, 7, 8, 10]
   | 10 => [5, 7, 8, 10]
   | 11 => [4, 5, 6, 7, 8, 10]
   | _ => []).contains c

/-- The mode enables a channel's function in its range (R50, R423). -/
def Mode.funcOk (m : Mode) (fn range : Nat) : Bool :=
  if fn = 1 || fn = 2 then m.enables (if range ≤ 3 then 4 else 5)
  else if fn = 3 then m.enables 11
  else if fn = 4 then m.enables 6
  else true

/-! ### Headgate map (R70-R73) -/

/-- The pin belongs to the site. -/
def Dev.pinOfSite (s : Dev) (p i : Nat) : Bool :=
  s.bit (aHgt (4 * p)) 31 && s.fld (aHgt (4 * p)) 15 8 = i

/-- Template pin of a pin. -/
def Dev.tpinOf (s : Dev) (p : Nat) : Nat := s.fld (aHgt (4 * p)) 6 0

/-- Pins of a site, ascending. -/
def Dev.pins (s : Dev) (i : Nat) : List Nat := (List.range 576).filter (s.pinOfSite · i)

/-- The pin a template pin of a site names. -/
def Dev.pin? (s : Dev) (i t : Nat) : Option Nat := (s.pins i).find? (s.tpinOf · = t)

/-- The site that owns a pin. -/
def Dev.siteOfPin (s : Dev) (p : Nat) : Option Nat :=
  if s.bit (aHgt (4 * p)) 31 then some (s.fld (aHgt (4 * p)) 15 8) else none

/-- CFG word of a site. -/
def aSiteCfg (i : Nat) : Nat := aHgt (0x1000 + 16 * i)

def Dev.engOf (s : Dev) (i : Nat) : Nat := s.fld (aSiteCfg i) 24 16
def Dev.homeOf (s : Dev) (i : Nat) : Nat := s.fld (aSiteCfg i) 15 12
def Dev.altOf (s : Dev) (i : Nat) : Nat := s.fld (aSiteCfg i) 11 8
def Dev.altEn (s : Dev) (i : Nat) : Bool := s.bit (aSiteCfg i) 30
def Dev.npin (s : Dev) (i : Nat) : Nat := s.fld (aSiteCfg i) 7 0

/-- The mapped site an engine serves. -/
def Dev.siteOf (s : Dev) (e : Nat) : Option Nat :=
  (s.sites.filter (fun x => x.2.mapped && s.engOf x.1 = e)).head?.map (·.1)

/-- The player whose mask the site is in (R89). -/
def Dev.playerOf (s : Dev) (i : Nat) : Option Nat :=
  match (s.site i).member with
  | .none => none
  | .home => some (s.homeOf i)
  | .alt => some (s.altOf i)

/-- Sites of a player's mask, ascending (R89). -/
def Dev.mask (s : Dev) (y : Nat) : List Nat :=
  (s.sites.filter (fun x => x.2.mapped && s.playerOf x.1 = some y)).map (·.1)

/-- The pacer of a player for the frame: the site elected at the tick, while it is in the mask; else the
lowest-numbered site of the mask. A site that a JOIN brings in below it waits for the next election (R89, R91, R95). -/
def Dev.pacer (s : Dev) (y : Nat) : Option Nat :=
  match (s.ply y).pacer with
  | some i => if (s.mask y).contains i then some i else (s.mask y).head?
  | none => (s.mask y).head?

/-- The circuit that serves a pin: the spare once substituted, else the primary (R4, R196). -/
def Dev.circOf (s : Dev) (p : Nat) : Nat :=
  let q := p / 4
  if (s.quad q).subst = some (p % 4) && (s.quad q).spare = .subst then 5 * q + 4 else 5 * q + p % 4

/-- Address of a pin's configuration card (R176). -/
def aPin (p o : Nat) : Nat := aCh (5 * (p / 4) + p % 4) o

/-- FUNC and RANGE of a pin in force. -/
def Dev.func (s : Dev) (p : Nat) : Nat := s.fld (aPin p 0x30) 2 0
def Dev.range (s : Dev) (p : Nat) : Nat := s.fld (aPin p 0x30) 6 4

/-- The function that acts on a pin: Off while the mode does not enable the one its card holds (R50, log 51). -/
def Dev.funcNow (s : Dev) (p : Nat) : Nat := if s.sys.mode.funcOk (s.func p) (s.range p) then s.func p else 0

/-- The pin's function disconnects its driver and termination: FV/MI, FI/MV or DPS (R181). -/
def Dev.pmuDrives (s : Dev) (p : Nat) : Bool := s.funcNow p = 1 || s.funcNow p = 2 || s.funcNow p = 4

/-- A step of the site counts as open within a frame (R421). -/
def Site.stepOpen (x : Site) : Bool := x.step.isSome || x.ended.isSome

/-- Any site has a step open (R421). -/
def Dev.anyStepOpen (s : Dev) : Bool := s.sites.any (fun x => x.2.stepOpen)

/-- The engine is RUNNING or PAUSED. -/
def Eng.live (x : Eng) : Bool := x.st = .running || x.st = .paused

/-- Cluster of an engine (R3). -/
def clusterOf (e : Nat) : Nat := e / 17

/-- Some engine is RUNNING or PAUSED. -/
def Dev.anyEngLive (s : Dev) : Bool := s.engs.any (fun x => x.2.live)

/-- An engine of the cluster is RUNNING or PAUSED. -/
def Dev.clusterLive (s : Dev) (k : Nat) : Bool := s.engs.any (fun x => clusterOf x.1 = k && x.2.live)

/-! ### Engine registers (R75, R78) -/

def Dev.pc (s : Dev) (e : Nat) : Nat := s.fld (aEng e 4) 14 0
def Dev.setPc (s : Dev) (e n : Nat) : Dev := s.wr (aEng e 4) (wn (n % 32768))
def Dev.flag (s : Dev) (e i : Nat) : Bool := s.bit (aEng e 0xC) i
def Dev.setFlag (s : Dev) (e i : Nat) (b : Bool) : Dev := s.setFld (aEng e 0xC) i i (b2n b)

/-! ### NV sets (R381, R382, R387) -/

/-- NVR offset of slot b (0 A, 1 B) and length in bytes of a set, by its number. -/
def nvSlot (n b : Nat) : Nat × Nat :=
  if n = 0 then (0x800 + 0x400 * b, 0x400)
  else if n = 1 then (0x1000 + 0x200 * b, 0x200)
  else if n = 2 then (0x2000 + 0x5800 * b, 0x5800)
  else (0xD000 + (2 * (n - 3) + b) * 0x280, 0x280)

/-- Word at an NVR offset. -/
def Dev.nvWord (s : Dev) (o : Nat) : W := s.word (aNvr o)

/-- Words of an NVR range. -/
def Dev.nvWords (s : Dev) (o n : Nat) : List W := (List.range n).map (fun k => s.nvWord (o + 4 * k))

/-- The slot in force of a set: 1 A, 2 B, 0 none. -/
def Dev.nvForce (s : Dev) (n : Nat) : Nat := s.nv.slot.get (fun _ => 0) n

/-- Channel c whose configuration a circuit applies: a primary its own, the spare that of the pin it serves or
watches (R176). -/
def Dev.cfgPin (s : Dev) (c : Nat) : Nat :=
  let q := c / 5
  if c % 5 < 4 then 4 * q + c % 5
  else
    match (s.quad q).subst with
    | some k => 4 * q + k
    | none => 4 * q + s.fld (aQuad q 8) 1 0

/-- Path of a circuit: its own for a primary, for the spare the one to the pin it serves or watches (R387). -/
def Dev.calPath (s : Dev) (c : Nat) : Nat := if c % 5 < 4 then c else 720 + s.cfgPin c

/-- The calibration in force of a circuit and its path: the two records of its quad's set (R387, R388). -/
def Dev.calRecord (s : Dev) (c : Nat) : List W :=
  let q := c / 5
  if s.nvForce (3 + q) = 0 then []
  else
    let a := (nvSlot (3 + q) (s.nvForce (3 + q) - 1)).1
    let k := if c % 5 < 4 then c % 5 else 4 + s.cfgPin c % 4
    s.nvWords (a + 0x40 + 0x20 * (c % 5)) 8 ++ s.nvWords (a + 0xE0 + 0x30 * k) 12

end Sys2Proof.Machine
end

