-- ==== Sys2Proof/Machine/Msgs.lean ====
section
/-! DEFINITION. Messages to the host: the notification queue (R341), completions (R340, R350), their
transmission under credits and the replay window (R336, R343), and single-word NV writes (R379, R386). -/

namespace Sys2Proof.Machine

/-! ### Sending -/

/-- Lowest-numbered link in service (R341). -/
def Dev.firstLink (s : Dev) : Option Nat := (List.range 4).find? (fun l => !(s.link l).inSvc.isEmpty)

/-- Data flits of a message (R335, R340, R350). -/
def Msg.flits : Msg → Nat
  | .mem c => if c.read then 1 + (4 * c.data.length + 63) / 64 else 1
  | .cmd c => 1 + (4 * c.data.length - 48 + 63) / 64
  | .ntfy _ => 1

/-- Traffic class of a message (R331). -/
def Msg.cls : Msg → Nat
  | .cmd _ => 0
  | .mem _ => 1
  | .ntfy _ => 3

/-- Credits the host has granted for a class (R336). -/
def Link.cred (k : Link) (c : Nat) : Nat := if c = 0 then k.credCmd else if c = 1 then k.credMem else k.credNtfy

/-- Credits taken. -/
def Link.spend (k : Link) (c n : Nat) : Link :=
  if c = 0 then { k with credCmd := k.credCmd - n }
  else if c = 1 then { k with credMem := k.credMem - n }
  else { k with credNtfy := k.credNtfy - n }

/-- Flits sent and not acknowledged. -/
def Link.unacked (k : Link) : Nat := (k.seq + 4095 - k.acked) % 4096

/-- A message goes out: its flits take the next SEQs and its credits (R331, R336). -/
def Link.send (k : Link) (m : Msg) : Link :=
  let n := m.flits
  { k.spend m.cls n with seq := (k.seq + n) % 4096, sent := k.sent ++ [((k.seq + n + 4095) % 4096, m)] }

/-- The link is in service, holds the credits and has room in the replay buffer (R336, R343). -/
def Link.canSend (k : Link) (m : Msg) : Bool :=
  !k.inSvc.isEmpty && m.flits ≤ k.cred m.cls && k.unacked + m.flits ≤ 1024

/-- Send what may go, keeping the order within each class (R335); `held` lists the classes that wait. -/
def Link.pumpGo : List Msg → List Nat → Link → Link
  | [], _, k => k
  | m :: r, held, k =>
    if !held.contains m.cls && k.canSend m then Link.pumpGo r held (k.send m)
    else
      let k' := Link.pumpGo r (m.cls :: held) k
      { k' with queue := m :: k'.queue }

/-- Send what may go on a link. -/
def Link.pump (k : Link) : Link := Link.pumpGo k.queue [] { k with queue := [] }

/-- Queue a message on a link; on the lowest-numbered link in service where the link is DOWN (R347). -/
def Dev.sendMsg (s : Dev) (l : Nat) (m : Msg) : Dev :=
  let t := if (s.link l).inSvc.isEmpty then s.firstLink.getD l else l
  s.onLink t (fun k => Link.pump { k with queue := k.queue ++ [m] })

/-- Messages of a link that is DOWN move, in order, to the lowest-numbered link in service (R347). -/
def Dev.moveMsgs (s : Dev) (l : Nat) : Dev :=
  let k := s.link l
  match k.inSvc, s.firstLink with
  | [], some t =>
    let ms := k.sent.map (·.2) ++ k.queue
    let s := s.setLink l { k with queue := [], sent := [], acked := (k.seq + 4095) % 4096 }
    s.onLink t (fun k => Link.pump { k with queue := k.queue ++ ms })
  | _, _ => s

/-- A message arrived complete on a link: its flits are received in order (R342, R343). -/
def Dev.received (s : Dev) (v : Via) (n : Nat) : Dev :=
  match v with
  | .mspi => s
  | .link l => s.onLink l (fun k => { k with rx := (k.rx + n) % 4096, nak := false })

/-! ### Notifications -/

/-- Queue a notification: at the end, or at the head for SAFE; a full queue discards it (R341). -/
def Dev.notify (s : Dev) (n : Ntfy) (head : Bool) : Dev :=
  if 256 ≤ s.host.ntfy.length then
    { s with host := { s.host with lost := min (s.host.lost + 1) 65535, lostF := true } }
  else if head then { s with host := { s.host with ntfy := n :: s.host.ntfy } }
  else { s with host := { s.host with ntfy := s.host.ntfy ++ [n] } }

/-- A notification of the current frame. -/
def Dev.ntfyNow (s : Dev) (type arg : Nat) (data : W) : Ntfy :=
  { type_ := type, arg := arg, frame := s.clk.frame, data := data, lost := false }

/-! ### Completions -/

/-- Complete a command (R350-R352): on its link, or for MSPI to read. -/
def Dev.complete (s : Dev) (j : Job) (status detail : Nat) (data : List W) : Dev :=
  let c : CmdCpl :=
    { code := j.code, tag := j.tag, status := status, detail := detail,
      frame := if s.clk.ticked then s.clk.frame else 0, frameV := s.clk.ticked, data := data }
  match j.via with
  | .mspi => { s with host := { s.host with mspiCpl := s.host.mspiCpl ++ [c] } }
  | .link l => s.sendMsg l (.cmd c)

/-- Complete a MEM request (R340). -/
def Dev.memDone (s : Dev) (h : Hdr) (read : Bool) (status words tick : Nat) (data : List W) : Dev :=
  match h.via with
  | .mspi => s
  | .link l =>
    s.sendMsg l (.mem { read := read, tag := h.tag, link := l, status := status, words := words,
                        tick := tick, data := data })

/-! ### Recording raises (R290-R292, R295) -/

/-- Address of FLT.SRC[f]. -/
def aSrc (f : Nat) : Nat := aFlt (4 * f)

/-- Address of FLT.CLS[x]. -/
def aCls (x : Nat) : Nat := aFlt (0x800 + 4 * x)

/-- One raise: STICKY set and CNT counted (R290). -/
def Dev.markRaise (s : Dev) (f : Nat) : Dev := (s.setBits (aSrc f) 0x40000000).incSat (aSrc f) 15 0

/-- STICKY of a source. -/
def Dev.sticky (s : Dev) (f : Nat) : Bool := s.bit (aSrc f) 30

/-- LVL of a source. -/
def Dev.lvlOf (s : Dev) (f : Nat) : Nat := s.fld (aSrc f) 25 24

/-- The class is unacknowledged: a source has STICKY = 1 and LVL ≥ 1 (R292). -/
def Dev.unack (s : Dev) (x : Nat) : Bool :=
  (List.range 32).any (fun n => s.sticky (32 * x + n) && 1 ≤ s.lvlOf (32 * x + n))

/-- Highest LVL of a source of the class with STICKY = 1. -/
def Dev.clsLevel (s : Dev) (x : Nat) : Nat :=
  (List.range 32).foldl (fun m n => if s.sticky (32 * x + n) then max m (s.lvlOf (32 * x + n)) else m) 0

/-- Some source of the class has STICKY = 1. -/
def Dev.clsAny (s : Dev) (x : Nat) : Bool := (List.range 32).any (fun n => s.sticky (32 * x + n))

/-- Effective level of an occurrence (R291). -/
def effLevel (l : Nat) (unack : Bool) : Nat := if 1 ≤ l && unack then min (l + 1) 3 else l

/-- One source of an occurrence takes its level (R291). -/
def Dev.recordRaise (s : Dev) (e f : Nat) : Dev :=
  let s := s.markRaise f
  s.setFld (aSrc f) 25 24 (max (s.lvlOf f) e)

/-- The class is unacknowledged as an occurrence is judged: as the tick began, for one of a tick (R291). -/
def Dev.unackAt (s : Dev) (x : Nat) : Bool :=
  match s.flt.tick with
  | some l => l.contains x
  | none => s.unack x

/-- The occurrence of a class at the tick under way: further raises of the tick join it (R291). -/
def Dev.occNow (s : Dev) (x : Nat) : OccNow :=
  (s.flt.joined.find? (fun o => o.cls = x)).getD { cls := x, lvl := 0, eff := 0, srcs := [] }

/-- Raised and effective level of the occurrence of class x that raises of level l form or join (R291). -/
def Dev.judgeOcc (s : Dev) (x l : Nat) : Nat × Nat :=
  let m := max (s.occNow x).lvl l
  (m, effLevel m (s.unackAt x))

/-- An occurrence of class x, at raised level l and effective level e, that stood as `o` and takes `rs`: its earlier
sources take its level. The class counts it, once for a tick, and its escalation, at the end of a tick (R291, R301). -/
def Dev.countOcc (s : Dev) (x l e : Nat) (o : OccNow) (rs : List (Nat × List Nat)) : Dev :=
  let s := forL ((o.srcs.map (·.1)).filter (fun f => f / 32 = x)) (fun f s => s.setFld (aSrc f) 25 24 (max (s.lvlOf f) e)) s
  let s := if o.srcs.isEmpty then s.incSat (aCls x) 15 0 else s
  let s := { s with flt := { s.flt with occ := s.flt.occ.set (fun _ => 0) x (max (s.flt.occ.get (fun _ => 0) x) (e + 1)) } }
  if s.flt.tick.isSome then
    { s with flt := { s.flt with
        joined := { cls := x, lvl := l, eff := e, srcs := o.srcs ++ rs } :: s.flt.joined.filter (fun p => p.cls ≠ x) } }
  else if l < e then s.incSat (aCls x) 23 16
  else s

/-- An occurrence of class x at raised level l and effective level e takes some sources with their aims (R291). -/
def Dev.recordOcc (s : Dev) (x l e : Nat) (rs : List (Nat × List Nat)) : Dev :=
  (forL (rs.map (·.1)) (fun f s => s.recordRaise e f) s).countOcc x l e (s.occNow x) rs

/-- The tick's occurrences are over: those that escalated count in ESC (R291). -/
def Dev.closeOccs (s : Dev) : Dev :=
  forL (s.flt.joined.filter (fun o => o.lvl < o.eff)) (fun o s => s.incSat (aCls o.cls) 23 16)
    { s with flt := { s.flt with tick := none, joined := [] } }

/-- EN of a source (R295): a masked source only sets STICKY and counts. -/
def Dev.srcEn (s : Dev) (f : Nat) : Bool := !fltMaskable f || s.bit (aSrc f) 28

/-- A NOTE raise of one source (R292, R295); the sources of this kind have no aim and no repair. -/
def Dev.note (s : Dev) (f : Nat) : Dev :=
  if s.srcEn f then
    let j := s.judgeOcc (f / 32) 0
    s.recordOcc (f / 32) j.1 j.2 [(f, [])]
  else s.markRaise f

/-! ### Single words in NV -/

/-- A word written in the NVR region: its value and its wear count (R379); the write that takes the
counter past 10^14 raises NV_WEAR (R380). -/
def Dev.nvPut (s : Dev) (o : Nat) (v : W) : Dev :=
  let n := s.nv.wear.get (fun _ => 0) (o / 4) + 1
  let s := s.setWord (aNvr o) v
  let s := { s with nv := { s.nv with wear := s.nv.wear.set (fun _ => 0) (o / 4) n } }
  if n = 10 ^ 14 + 1 then s.note 291 else s

/-- A counter of NVR, one more, saturating (R386). -/
def Dev.nvCount (s : Dev) (o : Nat) : Dev :=
  let v := s.word (aNvr o)
  s.nvPut o (if v = 0xFFFFFFFF then v else v + 1)

end Sys2Proof.Machine
end

