-- ==== Sys2Proof/Machine/Fault.lean ====
section
/-! DEFINITION. Faults: occurrences, escalation, reactions, voids, repairs and SAFE entry (R289-R308,
R67, R68, R88, R103). -/

namespace Sys2Proof.Machine

/-- A raise of a source: its level, the sites of its aim, and the unit its repair acts on (R290, R291).
A forced raise performs no repair (R296). -/
structure Raise where
  f      : Nat
  lvl    : Nat
  sites  : List Nat
  unit   : Nat
  forced : Bool
  deriving DecidableEq, Repr

/-! Sources the engines raise (R308). -/
abbrev srcStageOvf : Nat := 161
abbrev srcModeIll : Nat := 162
abbrev srcIllOp : Nat := 163
abbrev srcParam : Nat := 164
abbrev srcStack : Nat := 165
abbrev srcRdv : Nat := 166
abbrev srcPgmEcc : Nat := 167

/-- A raise with no aim and no unit. -/
def raiseOf (f lvl : Nat) : Raise := { f := f, lvl := lvl, sites := [], unit := 0, forced := false }

/-- A raise aimed at sites. -/
def raiseAt (f lvl : Nat) (sites : List Nat) : Raise :=
  { f := f, lvl := lvl, sites := sites, unit := 0, forced := false }

/-- The void cause of a source, as the bit of VOID_CAUSE (R298). -/
def causeBit (f : Nat) : Nat :=
  if f = 0 then 8 else if f = 2 || f = 3 then 64 else if f = 160 then 1 else if f = 68 then 32 else 4

/-! ### Aims (R297) -/

/-- Every site with a step open, or ended and not yet committed. -/
def Dev.deviceAim (s : Dev) : List Nat := (s.sites.filter (fun x => x.2.stepOpen)).map (·.1)

/-- The mapped site an engine serves, as an aim. -/
def Dev.engAim (s : Dev) (e : Nat) : List Nat := (s.siteOf e).toList

/-- Every mapped site with a pin in a quad. -/
def Dev.quadAim (s : Dev) (q : Nat) : List Nat :=
  (((List.range 4).filterMap (fun c => s.siteOfPin (4 * q + c))).foldr insAsc []).filter (fun i => (s.site i).mapped)

/-- The pins a channel circuit serves: its own pin for a primary, the substituted one for a spare (R196). -/
def Dev.pinsOfCirc (s : Dev) (c : Nat) : List Nat :=
  if c % 5 < 4 then (if s.circOf (4 * (c / 5) + c % 5) = c then [4 * (c / 5) + c % 5] else [])
  else
    match (s.quad (c / 5)).subst with
    | some p => if (s.quad (c / 5)).spare = .subst then [4 * (c / 5) + p] else []
    | none => []

/-- Every mapped site a channel circuit serves. -/
def Dev.circAim (s : Dev) (c : Nat) : List Nat :=
  ((s.pinsOfCirc c).filterMap s.siteOfPin).filter (fun i => (s.site i).mapped)

/-! ### Voids (R88, R103) -/

/-- An engine is stopped for the rest of the frame: its routine is abandoned and its shadow discarded (R88, R131,
R132). -/
def Eng.abandon (x : Eng) : Eng := { x with phase := .stopped, wdog := 0, mid := false, u := x.u.map UCtx.rest }

/-- The abandoned instruction ends, at the entry to VOIDH or at the stop: chunk progress and the micro stack are
cleared, and its wait is disarmed (R137). -/
def Eng.endIns (x : Eng) : Eng :=
  { x.abandon with wait := none, waitY := false, arrived := false, wrem := 0, uchunk := 0, rsta := 0,
                   u := x.u.map (fun c => { c.rest with stack := [] }) }

/-- A void reaches a site (R30, R88, R103): its cause is noted for the commit, the pending PLAY and the
armed JOIN drop, and its engine does no more work in the frame. -/
def Dev.voidSite (s : Dev) (cause i : Nat) : Dev :=
  let x := s.site i
  let s := s.setSite i { x with voids := some (x.voids.getD 0 ||| cause), toVoidh := true, play := none, join := none }
  if x.mapped then
    s.onEng (s.engOf i) (fun g => if g.live then g.abandon else g)
  else s

/-- A void reaches several sites. -/
def Dev.voidSites (s : Dev) (cause : Nat) (l : List Nat) : Dev := forL l (fun i s => s.voidSite cause i) s

/-! ### Repairs (R302) -/

/-- A spare bank in no use. -/
def spareBankInit : SpareBank := { copying := false, copied := false, inUse := false, listed := false, failed := false, bank := 0 }

def Dev.spareBank (s : Dev) (n : Nat) : SpareBank := s.cis.spares.get (fun _ => spareBankInit) n

def Dev.setSpareBank (s : Dev) (n : Nat) (x : SpareBank) : Dev :=
  { s with cis := { s.cis with spares := s.cis.spares.set (fun _ => spareBankInit) n x } }

/-- The lowest-numbered spare bank that is powered and free (R160, R164). -/
def Dev.freeSpare (s : Dev) : Option Nat :=
  (List.range 4).find? (fun n => 4 * n < s.pwr.groups && !(s.spareBank n).copying && !(s.spareBank n).inUse && !(s.spareBank n).failed)

/-- The bank is replaced, being copied, or waits for a copy. -/
def Dev.bankHandled (s : Dev) (b : Nat) : Bool :=
  s.cis.weak.contains b ||
    (List.range 4).any (fun n => ((s.spareBank n).copying || (s.spareBank n).inUse) && (s.spareBank n).bank = b)

/-- The replacement of a bank begins: a copy to the lowest free spare, after a copy that runs; with no
spare, BANK_NOSPARE (R164). -/
def Dev.replaceBank (s : Dev) (b : Nat) : Dev :=
  if s.bankHandled b then s
  else if (List.range 4).any (fun n => (s.spareBank n).copying) then
    { s with cis := { s.cis with weak := s.cis.weak ++ [b] } }
  else
    match s.freeSpare with
    | some n => s.setSpareBank n { spareBankInit with copying := true, bank := b }
    | none => s.note 131

/-- An NV word that cannot be corrected moves to a spare row, where its value is an open one (log 12); none left raises
NV_NOSPARE. Where it lies in a slot of a set, the previous generation applies at the next load (R302, R380, R384). -/
def Dev.nvRowSpare (s : Dev) (o : Nat) : Dev :=
  if s.nv.spare = 0 then s.note 292
  else
    let d := s.draw
    let s := d.2.nvPut o d.1
    { s with nv := { s.nv with spare := s.nv.spare - 1 } }

/-- The repair a source raised at DEGRADE asks for, on its unit (R299, R302); each is carried out at its
tick. A sensor's substitution, and the spare row of a failed write, are part of the events that raise them. -/
def Dev.repair (s : Dev) (f u : Nat) : Dev :=
  if f = 224 then s.onQuad (u / 5) (fun q => { q with faults := insAsc (u % 5) q.faults })
  else if f = 229 || f = 35 then s.onQuad u (fun q => { q with retire := true })
  else if f = 170 then s.onEng u (fun g => { g with repair := true })
  else if f = 130 then s.replaceBank u
  else if f = 289 then s.nvRowSpare u
  else if f = 96 || f = 38 then s.onLane u (fun x => { x with st := .failed, failed := true, ready := false })
  else s

/-! ### SAFE entry (R67, R68, R300, R359) -/

/-- The end of a mode request without a switch: REJ, REASON and LAST_TAG (R57). -/
def Dev.rejMode (s : Dev) (tag reason : Nat) : Dev :=
  let a := 0x108
  (((s.setBits a 2).setFld a 11 8 reason).setFld a 23 16 tag)

/-- A mode request ends without a switch: its status, and the MODE_SET that carried it (R57, R363). -/
def Dev.endReq (s : Dev) (r : ModeReq) (reason : Nat) : Dev :=
  let s := s.rejMode r.tag reason
  match r.cmd with
  | some j => s.complete j 3 reason []
  | none => s

/-- Jobs of the catalogue (kind J, R363). -/
def isJob (code : Nat) : Bool := code = 0x20 || code = 0x21 || code = 0x70 || code = 0x71

/-- A save that belongs to a calibration job. -/
def NvSet.isCal : NvSet → Bool
  | .cal _ _ | .calFull _ => true
  | .repair | .thermal | .patch _ => false

/-- Staged commands not yet applied, running jobs and a PWR_GROUPS under way complete ABORTED (R351, R359); the
word that a stopped calibration save is writing still completes (R13, R68). -/
def Dev.abortCmds (s : Dev) : Dev :=
  let staged := s.stage.host.filterMap (fun x => match x.op with | .cmd j => some j | _ => none)
  let jobs := s.host.jobs.filter (fun j => isJob j.code) ++ s.pwr.job.toList
  let s := { s with stage := { s.stage with host := s.stage.host.filter (fun x => match x.op with | .cmd _ => false | _ => true) },
                    host := { s.host with jobs := s.host.jobs.filter (fun j => !isJob j.code) },
                    pwr := { s.pwr with job := none, asked := [] },
                    nv := { s.nv with
                      saves := s.nv.saves.filter (fun v => !v.set_.isCal), calFull := none,
                      run := s.nv.run.map (fun r =>
                        if r.save.set_.isCal then { r with left := r.left.take 1, cut := true } else r) } }
  forL (staged ++ jobs) (fun j s => s.complete j 14 0 []) s

/-- Every circuit's outputs go off: the driver and the PMU high-impedance, the DPS disabled with its
bleeder engaged (R67 steps 2 and 3, R68). -/
def circStop (x : Circ) : Circ :=
  { x with st := .off, dpsOn := false, bleed := true, limit := false, meas := none, drv := none, evs := [] }

/-- A player stops (R67): it dwells, with DRAIN past the blocks it claimed (R168). -/
def plyStop (x : Ply) : Ply :=
  { x with st := if x.st = .disabled then .disabled else .dwell, cur := none, next := none, nextGot := 0, fixed := false,
           limit := none, late := none, pause := none, tail := false, drain := x.claim }

/-- SAFE entry caused by class x (R67 steps 1-3, R57, R68, R300, R301, R359, R386). -/
def Dev.enterSafe (s : Dev) (x : Nat) : Dev :=
  if s.sys.mode = .safe || s.sys.mode = .reset then s
  else
    let n := s.ntfyNow 4 (x + 16 * 3 + 64 * b2n (s.unack x)) (wn (s.fld (aCls x) 15 0))
    let s := if s.bit (aFlt 0xA04) 31 then s.notify n true else s
    let s := forL (s.sys.req.toList ++ s.sys.asked) (fun r s => s.endReq r 9) s
    let s := s.abortCmds
    let s := s.nvCount (0x400 + 4 * x)
    let s := if s.sys.mode = .stress then s.clrBits 0x114 0x80000000 else s
    { s with
      sys := { s.sys with mode := .safe, req := none, asked := [], safeDue := true }
      engs := s.engs.upd engOff (fun g => if g.st = .running then g.endIns else g)
      plys := s.plys.upd plyInit plyStop
      cmps := []
      circs := s.circs.upd circInit circStop
      quads := s.quads.upd quadInit (fun q => { q with pendOn := [], ticket := 0, cal := false })
      acqs := s.acqs.upd acqInit (fun a => { a with st := AcqState.idle })
      tdcs := s.tdcs.upd tdcInit (fun a => { a with st := TdcState.closed, pend := [] })
      slc := { s.slc with flights := [], coming := [] }
      flt := { s.flt with running := false } }

/-- An action of the tick that SAFE, once entered, has stopped (R67). -/
def Dev.unlessSafe (s : Dev) (f : Dev → Dev) : Dev := if s.sys.mode = .safe then s else f s

/-! ### Occurrences (R291, R293, R297, R299) -/

/-- The reaction to one source of an occurrence at effective level e below SAFE (R297, R299). -/
def Dev.react (s : Dev) (e : Nat) (r : Raise) : Dev :=
  let s := if e = 2 then s.voidSites (causeBit r.f) r.sites else s
  if r.lvl = 1 && !r.forced then s.repair r.f r.unit else s

/-- The reaction to an occurrence of class x at effective level e, which stood as `o` before these raises. Raises that
lift an occurrence of the tick to VOID void its earlier sources' aims too (R293, R297, R299). -/
def Dev.reacts (s : Dev) (x e : Nat) (o : OccNow) (rs : List Raise) : Dev :=
  if 3 ≤ e then s.enterSafe x
  else
    let s := if e = 2 && o.eff < 2 then forL o.srcs (fun r s => s.voidSites (causeBit r.1) r.2) s else s
    forL rs (fun r s => s.react e r) s

/-- The occurrence of one class: raises of one ECLK, judged once (R291, R299). -/
def Dev.occur (s : Dev) (x : Nat) (rs : List Raise) : Dev :=
  let j := s.judgeOcc x (rs.foldl (fun m r => max m r.lvl) 0)
  (s.recordOcc x j.1 j.2 (rs.map (fun r => (r.f, r.sites)))).reacts x j.2 (s.occNow x) rs

/-- Raises recognised together: masked sources set STICKY and count, the others form one occurrence for
each class, in class order (R291, R293, R295). -/
def Dev.raises (s : Dev) (rs : List Raise) : Dev :=
  let on := rs.filter (fun r => r.forced || s.srcEn r.f)
  let off := rs.filter (fun r => !(r.forced || s.srcEn r.f))
  let s := forL off (fun r s => s.markRaise r.f) s
  forN 12 (fun x s =>
    let here := on.filter (fun r => r.f / 32 = x)
    if here.isEmpty then s else s.occur x here) s

/-- One raise. -/
def Dev.raise (s : Dev) (r : Raise) : Dev := s.raises [r]

/-- LIVE of a condition source. -/
def Dev.setLive (s : Dev) (f : Nat) (b : Bool) : Dev := s.setFld (aSrc f) 31 31 (b2n b)

/-- A condition begins: LIVE is set, and the source raises unless the condition was present (R290). -/
def Dev.condOn (s : Dev) (r : Raise) : Dev :=
  if s.bit (aSrc r.f) 31 then s else (s.setLive r.f true).raise r

/-- An acknowledgement of a source (R292): a live one only sets ACK_LIVE. -/
def Dev.ackSrc (s : Dev) (f : Nat) : Dev :=
  if s.bit (aSrc f) 31 then s.setBits (aFlt 0xA0C) 0x80000000
  else s.clrBits (aSrc f) 0x43000000

end Sys2Proof.Machine
end

