-- ==== Sys2Proof/Machine/Flags.lean ====
section
/-! DEFINITION. Arithmetic results and flags of the engines (R85), and the conditions of BRC (R86). -/

namespace Sys2Proof.Machine

/-- Flag bits an operation writes: mask and values within FLAGS (R78's card). -/
structure FlagSet where
  mask : W
  bits : W
  deriving DecidableEq, Repr

/-- A result with its flags. -/
structure AluOut where
  value : W
  flags : FlagSet
  deriving DecidableEq, Repr

/-- A flag bit. -/
def fbit (i : Nat) (b : Bool) : W := if b then wn (2 ^ i) else 0

/-- Z and N of a result. -/
def zn (v : W) : W := fbit 0 (v = 0) ||| fbit 1 (v.getLsbD 31)

/-- ADD: Z N C V; C is the carry, V signed overflow (R85). -/
def aluAdd (a b : W) : AluOut :=
  let v := a + b
  let c := decide (2 ^ 32 ≤ a.toNat + b.toNat)
  let o := a.getLsbD 31 == b.getLsbD 31 && v.getLsbD 31 != a.getLsbD 31
  { value := v, flags := { mask := 0xF, bits := zn v ||| fbit 2 c ||| fbit 3 o } }

/-- SUB and CMP: C = 1 if no borrow (R85). -/
def aluSub (a b : W) : AluOut :=
  let v := a - b
  let o := a.getLsbD 31 != b.getLsbD 31 && v.getLsbD 31 != a.getLsbD 31
  { value := v, flags := { mask := 0xF, bits := zn v ||| fbit 2 (decide (b.toNat ≤ a.toNat)) ||| fbit 3 o } }

/-- The logical operations and the shifts: Z N set, V cleared, C unchanged (R85). -/
def aluLogic (v : W) : AluOut := { value := v, flags := { mask := 0xB, bits := zn v } }

/-- SHL by S mod 32 (R85). -/
def aluShl (a b : W) : AluOut := aluLogic (a <<< (b.toNat % 32))

/-- SHR by S mod 32, with sign fill if arithmetic (R85). -/
def aluShr (arith : Bool) (a b : W) : AluOut :=
  aluLogic (if arith then a.sshiftRight (b.toNat % 32) else a >>> (b.toNat % 32))

/-- FCMP on binary32: Z equal, N less, V = 0, U unordered (R85). -/
def aluFcmp (a b : W) : AluOut :=
  let f : W :=
    match f32Key a, f32Key b with
    | some x, some y => fbit 0 (decide (x = y)) ||| fbit 1 (decide (x < y))
    | _, _ => fbit 5 true
  { value := a, flags := { mask := 0x2B, bits := f } }

/-- The FLAGS word with a flag set written. -/
def FlagSet.apply (f : FlagSet) (w : W) : W := (w &&& ~~~f.mask) ||| (f.bits &&& f.mask)

/-- Write flags of an engine. -/
def Dev.putFlags (s : Dev) (e : Nat) (f : FlagSet) : Dev := s.wr (aEng e 0xC) (f.apply (s.rd (aEng e 0xC)))

/-- A BRC condition on the FLAGS word and LAST_STATUS (R86); `none` for a value of 16 or more. -/
def condOf (a : Nat) (fl : W) (last : Nat) : Option Bool :=
  let z := fl.bit 0
  let n := fl.bit 1
  let c := fl.bit 2
  let v := fl.bit 3
  match a with
  | 0 => some z
  | 1 => some !z
  | 2 => some (n != v)
  | 3 => some (n == v)
  | 4 => some !c
  | 5 => some c
  | 6 => some (fl.bit 5)
  | 7 => some (fl.bit 6)
  | 8 => some (fl.bit 7)
  | 9 => some (fl.bit 8)
  | 10 => some (fl.bit 9)
  | 11 => some (fl.bit 10)
  | 12 => some (fl.bit 11)
  | 13 => some (fl.bit 12)
  | 14 => some (decide (last = 2))
  | 15 => some (decide (last = 3))
  | _ => none

end Sys2Proof.Machine
end

