-- ==== Sys2Proof/Machine/Operands.lean ====
section
/-! DEFINITION. Pranum instructions: the word and its fields (R79, R85), the registers an operand names
(R81), pin selectors (R82), and the fields that must be zero (R85). -/

namespace Sys2Proof.Machine

/-- The fields of an instruction word. -/
structure Ins where
  op  : Nat
  a   : Nat
  b   : Nat
  fl  : Nat
  imm : W
  deriving DecidableEq, Repr

/-- An instruction from its words: bits 31:0 and bits 63:32 (R79). -/
def insOf (lo hi : W) : Ins :=
  { op := hi.fld 31 24, a := hi.fld 23 16, b := hi.fld 15 8, fl := hi.fld 7 0, imm := lo }

/-- The instruction at an engine's PC (R79). -/
def Dev.insAt (s : Dev) (e : Nat) : Ins :=
  let o := 8 * s.pc e
  insOf (s.word (aPgm (clusterOf e) o)) (s.word (aPgm (clusterOf e) (o + 4)))

/-- Flag bit i of an instruction. -/
def Ins.flag (x : Ins) (i : Nat) : Bool := x.fl.testBit i

/-- A field of the immediate. -/
def Ins.im (x : Ins) (hi lo : Nat) : Nat := x.imm.fld hi lo

/-- What R85 requires of an opcode's fields: A zero, B zero, the flag bits and the immediate bits listed. -/
structure Format where
  a0   : Bool
  b0   : Bool
  fl   : Nat
  imm  : W
  deriving DecidableEq, Repr

/-- The tables of R85, by opcode; `none` for an opcode not listed. -/
def formatOf (o : Nat) : Option Format :=
  match o with
  | 0x01 => some ⟨true, true, 0, 0x7FFF⟩
  | 0x02 => some ⟨false, true, 1, 0x7FFF⟩
  | 0x03 => some ⟨true, true, 0, 0x7FFF⟩
  | 0x04 => some ⟨true, true, 0, 0⟩
  | 0x05 => some ⟨false, true, 0, 0x7FFF⟩
  | 0x06 => some ⟨true, true, 0, 0⟩
  | 0x07 => some ⟨true, true, 0, 0xFFFF⟩
  | 0x08 => some ⟨true, true, 0, 0⟩
  | 0x10 => some ⟨false, false, 3, 0xFFFFFFFF⟩
  | 0x11 | 0x12 | 0x13 | 0x14 | 0x15 | 0x16 | 0x18 | 0x19 => some ⟨false, false, 1, 0xFFFFFFFF⟩
  | 0x17 => some ⟨false, false, 3, 0xFFFFFFFF⟩
  | 0x20 => some ⟨true, true, 0, 0xFFFF⟩
  | 0x21 => some ⟨true, false, 0, 0xFFFF⟩
  | 0x22 => some ⟨true, true, 1, 0⟩
  | 0x23 => some ⟨false, true, 1, 0xFFFF⟩
  | 0x24 => some ⟨false, false, 0, 0⟩
  | 0x30 => some ⟨false, false, 0, 0xFFFFFFFF⟩
  | 0x31 => some ⟨false, false, 3, 0xFFFFFF⟩
  | 0x32 => some ⟨false, false, 7, 0xFFFFFFFF⟩
  | 0x33 => some ⟨false, false, 0, 0xF⟩
  | 0x34 => some ⟨false, false, 0xF, 0xFFFF⟩
  | 0x35 => some ⟨false, false, 1, 0⟩
  | 0x40 => some ⟨false, false, 0, 0xFFFF⟩
  | 0x41 => some ⟨false, false, 0xF, 0xF⟩
  | 0x42 => some ⟨false, false, 0x1F, 0x0FFF0FFF⟩
  | 0x50 => some ⟨true, true, 1, 0xFFFF⟩
  | 0x51 => some ⟨false, true, 1, 0x3FFF⟩
  | 0x52 => some ⟨true, true, 0, 0xFF⟩
  | 0x53 => some ⟨true, false, 7, 3⟩
  | 0x54 => some ⟨true, true, 1, 0x7FFF⟩
  | 0x60 => some ⟨false, false, 1, 0⟩
  | 0x61 => some ⟨false, false, 3, 0xFFFFFF⟩
  | _ => none

/-- MBZ of R109: a field, flag bit or immediate bit that R85 requires to be 0 is not. -/
def Ins.mbz (x : Ins) : Bool :=
  match formatOf x.op with
  | none => true
  | some f =>
    (f.a0 && x.a != 0) || (f.b0 && x.b != 0) || (x.fl &&& (255 ^^^ f.fl)) != 0 || (x.imm &&& ~~~f.imm) != 0

/-- The number names a register (R81). -/
def regOk (n : Nat) : Bool := n < 46

/-- The number names a register that can be written (R81). -/
def regRw (n : Nat) : Bool := n < 37

/-- A register read (R81). With no step open, FAILS shows the record's last fail count: DESIGN CHOICE (log 27); a step
whose window has not begun has no committed count and reads 0. -/
def Dev.reg (s : Dev) (e n : Nat) : W :=
  if n < 32 then s.rd (aEng e (0x40 + 4 * n))
  else if n < 36 then s.rd (aEng e (0xC0 + 4 * (n - 32)))
  else if n = 36 then wn (s.fld (aEng e 8) 31 16)
  else if n = 37 then s.rd (aEng e 0xC)
  else if n = 41 then s.rd (aEng e 0x10)
  else if n = 42 then s.rd (aEng e 0x14)
  else
    match s.siteOf e with
    | none => 0
    | some i =>
      let x := s.site i
      if n = 38 then
        match x.step with
        | some p => wn (p.id.toNat + 65536)
        | none => 0
      else if n = 39 then wn (s.pframe i)
      else if n = 40 then wn (i + 256 * s.sys.devid.toNat)
      else if n = 43 then wn (x.record.lastId.toNat * 65536 + x.record.lastStatus)
      else if n = 44 then x.record.lastFails
      else
        match x.step with
        | some p => if p.begun then x.record.fails else 0
        | none => x.record.fails

/-- The program half of PG written: ENG[e].PG and the site's MIRROR (R81). -/
def Dev.setPg (s : Dev) (e v : Nat) : Dev :=
  let s := s.setFld (aEng e 8) 31 16 v
  match s.siteOf e with
  | some i => s.setFld (aSiteCfg i + 8) 31 16 v
  | none => s

/-- A register written (R81). -/
def Dev.setReg (s : Dev) (e n : Nat) (v : W) : Dev :=
  if n < 32 then s.wr (aEng e (0x40 + 4 * n)) v
  else if n < 36 then s.wr (aEng e (0xC0 + 4 * (n - 32))) (v &&& 0xFFFFFF)
  else if n = 36 then s.setPg e (v.fld 15 0)
  else s

/-- LSTAT's status (R81). -/
def Dev.lastStatus (s : Dev) (e : Nat) : Nat := (s.reg e 43).fld 1 0

/-- The selector is neither a template pin nor 0x80 (R82). -/
def selBad (b : Nat) : Bool := 128 < b

/-- The selector names a template pin the site does not have (R82). -/
def Dev.selOut (s : Dev) (i b : Nat) : Bool := b != 128 && s.npin i ≤ b

/-- The pins a selector names (R82). -/
def Dev.selPins (s : Dev) (i b : Nat) : List Nat :=
  if b = 128 then s.pins i else (s.pin? i b).toList

end Sys2Proof.Machine
end

