-- ==== Sys2Proof/Machine/Engine.lean ====
section
/-! DEFINITION. What the site engines share: traps, retirement, yields, staging, steps, slots and the
range checks of the instructions (R26, R84, R87, R98-R101, R112, R127, R137). -/

namespace Sys2Proof.Machine

/-! ### Flow of an instruction -/

/-- An ENG or UCD fault at VOID against an engine's site: the instruction has no effect and the engine
stops for the frame (R87, R88). -/
def Dev.trap (s : Dev) (e f : Nat) : Dev :=
  let s := s.raise (raiseAt f 2 (s.engAim e))
  s.onEng e (fun g => if g.st = .running then g.abandon else g)

/-- The micro state an instruction leaves when it retires (R108, R136); what a ROM routine leaves in T0-T7, LCNT and
the latches the spec does not say (log 13). -/
def Eng.retired (g : Eng) : Eng := { g with wrem := 0, uchunk := 0, rsta := 0, wdog := 0, u := none, mid := false }

/-- Retire with PC written (R108). -/
def Dev.jumpTo (s : Dev) (e t : Nat) : Dev := (s.onEng e Eng.retired).setPc e t

/-- Retire and advance; past instruction 32,767 the engine raises ILL_OP (R80, R108). -/
def Dev.retire (s : Dev) (e : Nat) : Dev :=
  let p := s.pc e
  let s := s.jumpTo e (p + 1)
  if p = 32767 then s.trap e 163 else s

/-- Yield for max(n, 1) ticks (R85, R112 YCNT). -/
def Dev.yieldFor (s : Dev) (e n : Nat) : Dev := s.onEng e (fun g => { g with phase := .yielded (max n 1) })

/-- An engine-staged write joins the queue: the seventeenth of a frame raises STAGE_OVF (R26). -/
def Dev.stageOp (s : Dev) (e : Nat) (op : EngOp) : Dev :=
  let s := s.onEng e (fun g => { g with staged := g.staged + 1 })
  { s with stage := { s.stage with eng := s.stage.eng ++ [⟨e, op⟩] } }

/-- The engine has staged 16 writes in this frame (R26, R109 STGFULL). -/
def Dev.stageFull (s : Dev) (e : Nat) : Bool := 16 ≤ (s.eng e).staged

/-- The engine executes instructions now (R50, R76); a routine of altered microcode in a WAIT word tests
its condition again with each event of its row (R108). -/
def Dev.executing (s : Dev) (e : Nat) : Bool :=
  let g := s.eng e
  s.sys.mode.running && g.st = .running && (g.phase = .exec || (g.phase = .waiting && g.mid))

/-! ### Steps (R98, R99) -/

/-- End the open step of a site, if there is one (R98). -/
def Dev.endStep (s : Dev) (e i : Nat) : Dev :=
  let x := s.site i
  match x.step with
  | none => s
  | some p => (s.setSite i { x with ended := some p, step := none }).setFlag e 13 true

/-- Open a step of a site (R98). -/
def Dev.openStep (s : Dev) (i id : Nat) : Dev :=
  s.onSite i (fun x =>
    { x with serial := x.serial + 1,
             step := some { id := BitVec.ofNat 16 id, serial := x.serial + 1, begun := false, fails := 0, drops := 0,
                            limFail := false, quota := 0, logs := [], kept := [] } })

/-- The serial of the step open for a site (R422). -/
def Dev.owner (s : Dev) (i : Nat) : Option Nat := (s.site i).step.map (·.serial)

/-- One more fail on a step's counter, stopping at its top (R204); true where it saturates. -/
def Step.fail (p : Step) : Step := { p with fails := if p.fails = 0xFFFFFFFF then p.fails else p.fails + 1 }

/-- The site's bit in CNT_SAT, once its counter stands at its top (R204). -/
def Dev.satBit (s : Dev) (i : Nat) (p : Step) : Dev :=
  if p.fails = 0xFFFFFFFF then s.setBits (0x800 + 4 * (i / 32)) (wn (2 ^ (i % 32))) else s

/-! ### Slots (R219, R422) -/

/-- A slot of a site as it reads. -/
def Site.slot (x : Site) (m : Nat) : Slot := x.slots.get (fun _ => slotEmpty) m

/-- A slot written. -/
def Site.setSlot (x : Site) (m : Nat) (v : Slot) : Site := { x with slots := x.slots.set (fun _ => slotEmpty) m v }

/-- A slot marked not-ready by the staging of a measurement that names it (R84). -/
def Dev.slotBusy (s : Dev) (i m : Nat) : Dev :=
  s.onSite i (fun x => x.setSlot m { x.slot m with ready := false })

/-! ### Range checks (R87, R109 RNGOK, R112) -/

/-- A level of LEVEL lies within -1.5 V to +6.5 V (R177). -/
def levelOk (v : W) : Bool := f32InMilli v (-1500) 6500

/-- The value lies within ±b; limits are compared as binary32 numbers (log 18). -/
def f32InBand (v b : W) : Bool :=
  match f32Key v, f32Key b with
  | some x, some y => decide (-y ≤ x ∧ x ≤ y)
  | _, _ => false

/-- Range and value of FORCE, or of PMU_CTL with PMU_VAL, are allowed together (R183). -/
def forceOk (fn range : Nat) (v : W) : Bool :=
  if fn = 0 then range ≤ 5
  else if fn = 1 then range ≤ 4 && f32InMilli v (-2000) 7500
  else if fn = 2 then range ≤ 4 && f32InBand v (if range = 4 then f32OfRatio 25 1000 else f32OfRatio (2 * 10 ^ range) 1000000)
  else if fn = 3 then range ≤ 4
  else range = 5 && f32InMilli v 0 6500

/-- The position of TSET lies inside the period of its timing set (R180). -/
def Dev.tsetOk (s : Dev) (ts pos : Nat) : Bool := ts ≤ 63 && pos < 256 * (s.fld (aTs ts) 15 0 + 1)

/-- Address of word w of a TDC profile (R274's card). -/
def aTdcProf (q n w : Nat) : Nat := aQuad q (0x300 + 16 * n + 4 * w)

/-- Address of word w of an acquisition profile. -/
def aAcqProf (q n w : Nat) : Nat := aQuad q (0x200 + 32 * n + 4 * w)

/-- The slot a TDC profile's first word names, where SLOT_EN is set (R253's card). -/
def tdcSlotOf (w0 : W) : Option Nat := if w0.bit 24 then some (w0.fld 20 16) else none

/-- A 24-bit two's complement number. -/
def sext24 (n : Nat) : Int := if n < 2 ^ 23 then n else (n : Int) - 2 ^ 24

/-- CLOSE of a TDC profile; 0 acts as 1. -/
def closeOf (w : W) : Int := ((max 1 (w.fld 23 0) : Nat) : Int)

/-- The mode, exponent and profile of a TDC open are allowed together (R254). -/
def Dev.tdcOk (s : Dev) (q mode pre prof : Nat) : Bool :=
  let w0 := s.rd (aTdcProf q prof 0)
  let lo := sext24 ((s.rd (aTdcProf q prof 1)).fld 23 0)
  let hi := closeOf (s.rd (aTdcProf q prof 2))
  pre ≤ 8 && prof ≤ 15 && !(mode = 0 && pre ≠ 0) && !(!w0.bit 25 && lo < 0) && !(mode = 0 && hi < lo)

/-- The exponent and the codes of WINSET are allowed (R267, R268). -/
def winOk (n hi lo : Nat) : Bool := n ≤ 20 && lo < hi

/-- The masked channels and the lead are of one quad and one site, the lead among them (R189). -/
def Dev.gangOk (s : Dev) (i t mask : Nat) : Bool :=
  match s.pin? i t with
  | none => false
  | some p => mask.testBit (p % 4) && (List.range 4).all (fun c => !mask.testBit c || s.pinOfSite (4 * (p / 4) + c) i)

/-! ### Microcode that differs from the ROM (R114, R119, R126) -/

/-- The ROM addresses the routine of an opcode reaches: those the spec gives for STEP and HALT, the
entry word of an opcode not listed (R115, R420); otherwise the ROM decides (log 13). -/
def romReach (o a : Nat) : Bool :=
  if o = 0x50 then a = 0x50 || (0x1A47 ≤ a && a ≤ 0x1A4C)
  else if o = 0x06 then a = 6 || (0x1A57 ≤ a && a ≤ 0x1A5B)
  else if (formatOf o).isNone then a = o
  else a = o || Config.romReaches o a

/-- MATCH[n] is enabled and names a ROM address (R119). -/
def Dev.matchAt (s : Dev) (n a : Nat) : Bool :=
  s.bit (aUcs (0x8000 + 4 * n)) 31 && s.fld (aUcs (0x8000 + 4 * n)) 13 0 = a

/-- The routine of an opcode runs other words than the ROM's: the writable store is in force, or an
enabled match names a word it reaches (R119, R126). -/
def Dev.altered (s : Dev) (o : Nat) : Bool :=
  s.sys.wcs ||
    (s.bit (aUcs 0x8100) 0 &&
      (List.range 64).any (fun n => s.bit (aUcs (0x8000 + 4 * n)) 31 && romReach o (s.fld (aUcs (0x8000 + 4 * n)) 13 0)))

end Sys2Proof.Machine
end

