-- ==== Sys2Proof/Machine/Route.lean ====
section
/-! DEFINITION. Sluice lines: sources, gates, capture of an event on a line, and writes of the route
registers (R275-R279, R281, R285-R287). Delivery is in Machine/Sluice.lean. -/

namespace Sys2Proof.Machine

/-- The ECLK edge at or after an SCLK position of the current frame (R278). -/
def Dev.edgeAt (s : Dev) (pos : Nat) : Nat := s.clk.eclk + (pos + 1) / 2

/-- The line a SRC register belongs to. -/
def lineOfSrc (a : Nat) : Option Line :=
  match locOf a with
  | .slc o => if o < 0x1000 && o % 16 = 0 then some (.global (o / 16)) else none
  | .quad q o => if 0xE00 ≤ o && o < 0xE80 && o % 8 = 0 then some (.loc q ((o - 0xE00) / 8)) else none
  | _ => none

/-- Address of a line's SRC register. -/
def aLineSrc : Line → Nat
  | .global n => aSlc (16 * n)
  | .loc q l => aQuad q (0xE00 + 8 * l)

/-- Key of a line's last delivery. -/
def lineKey : Line → Nat
  | .global n => n
  | .loc q l => 256 + 16 * q + l

/-- The lines whose source is a producer. -/
def Dev.linesOf (s : Dev) (p : Prod) : List Line :=
  s.regs.filterMap (fun x =>
    match lineOfSrc x.1 with
    | some l => if x.2.fld 19 16 = p.kind && x.2.fld 15 12 = p.sub && x.2.fld 11 0 = p.index then some l else none
    | none => none)

/-- A consumer-select word takes a line of the quad or a global line (R277, R288). -/
def selects (v : W) (q : Option Nat) (l : Line) : Bool :=
  v.bit 31 &&
    match l with
    | .global n => !v.bit 30 && v.fld 7 0 = n
    | .loc k n => v.bit 30 && q = some k && v.fld 3 0 = n

/-- The wait a shadow arms or disarms last: the line and whether an event has reached it (R106, R112 WARM). -/
def shWait : List ShOp → Option (Option Line × Bool)
  | [] => none
  | o :: l =>
    match shWait l with
    | some w => some w
    | none =>
      match o with
      | .arm ln hit => some (some ln, hit)
      | .disarm => some (none, false)
      | _ => none

/-- The wait of an engine, with its routine's shadow. -/
def Eng.waitNow (g : Eng) : Option Line × Bool :=
  match g.u.bind (fun c => shWait c.sh) with
  | some w => w
  | none => (g.wait, g.arrived)

/-- An event reached the wait of an engine. -/
def Eng.hit (g : Eng) : Eng :=
  match g.u.bind (fun c => shWait c.sh) with
  | some _ => { g with u := g.u.map (fun c => { c with sh := c.sh.map (fun o => match o with | .arm ln _ => .arm ln true | o => o) }) }
  | none => { g with arrived := true }

/-- The consumers that select a line now: the engines that wait on it, then the selected units (R277). -/
def Dev.consumersOf (s : Dev) (l : Line) : List Consumer :=
  (s.engs.filter (fun x => x.2.waitNow.1 = some l)).map (fun x => .wait x.1) ++
    s.regs.filterMap (fun x =>
      match locOf x.1 with
      | .ch c o =>
        if 4 ≤ c % 5 then none
        else if o = 0x180 && selects x.2 (some (c / 5)) l then some (.tdcStart (s.circOf (4 * (c / 5) + c % 5)))
        else if o = 0x184 && selects x.2 (some (c / 5)) l then some (.tdcStop (s.circOf (4 * (c / 5) + c % 5)))
        else none
      | .quad q o =>
        if o = 0xE80 && selects x.2 (some q) l then some (.acqArm q)
        else if o = 0xE84 && selects x.2 (some q) l then some (.acqStart q)
        else none
      | .slc o =>
        if o = 0x1000 && selects x.2 none l then some .snap
        else if o = 0x1004 && selects x.2 none l then some .dsync
        else if 0x1010 ≤ o && o < 0x1020 && selects (x.2 &&& 0x800000FF) none l then some (.tbus ((o - 0x1010) / 4))
        else none
      | _ => none)

/-- The gate of a line passes an event captured at an edge (R279). -/
def Dev.gateOpen (s : Dev) (l : Line) (x : Nat) : Bool :=
  let v := s.rd (aLineSrc l + 4)
  if !v.bit 31 then true
  else
    let g : Line :=
      match l with
      | .loc q _ => if v.bit 29 then .loc q (v.fld 19 16) else .global (v.fld 23 16)
      | .global _ => .global (v.fld 23 16)
    let last := s.slc.gates.get (fun _ => 0) (lineKey g)
    let isOpen := 0 < last && last - 1 ≤ x && x < last - 1 + max 1 (v.fld 15 0)
    isOpen != v.bit 30

/-- A line's count of passed or gated events; local lines keep none (R279). -/
def Dev.countLine (s : Dev) (l : Line) (passed : Bool) : Dev :=
  match l with
  | .global n => if passed then s.incSat (aSlc (16 * n + 8)) 15 0 else s.incSat (aSlc (16 * n + 8)) 31 16
  | .loc _ _ => s

/-- An event is captured on a line: gated out, joined with one captured on the line at the same edge, or
set in flight with the consumers that select the line now (R278-R280, R285). In SAFE and RESET nothing
is captured (R67). -/
def Dev.fireLine (s : Dev) (l : Line) (edge tag : Nat) (b : Block) (tb : Option Nat) : Dev :=
  if s.sys.mode = .safe || s.sys.mode = .reset then s
  else if !s.gateOpen l edge then s.countLine l false
  else if s.slc.flights.any (fun f => f.line = l && f.edge = edge) then
    { s with slc := { s.slc with flights := s.slc.flights.map (fun f =>
        if f.line = l && f.edge = edge && tag < f.tag then { f with tag := tag, by_ := b, tbus := tb } else f) } }
  else
    let s := s.countLine l true
    { s with slc := { s.slc with
        flights := s.slc.flights ++ [{ line := l, edge := edge, tag := tag, by_ := b, tbus := tb, dest := s.consumersOf l }] } }

/-- A producer fires at an edge: every line it sources captures the event. -/
def Dev.produce (s : Dev) (p : Prod) (edge tag : Nat) (b : Block) (tb : Option Nat) : Dev :=
  forL (s.linesOf p) (fun l s => s.fireLine l edge tag b tb) s

/-- A producer or an EMIT fires on its lines at the capture edge (R275, R285). -/
def Dev.capture (s : Dev) (c : Coming) : Dev :=
  match c.mouth with
  | .prod p => s.produce p c.edge c.tag c.by_ c.tbus
  | .emit l => s.fireLine l c.edge c.tag c.by_ c.tbus

/-- What fires ahead of its capture edge waits for it (R285). -/
def Dev.fireAhead (s : Dev) (c : Coming) : Dev := { s with slc := { s.slc with coming := s.slc.coming ++ [c] } }

/-- The edges before x have passed: what was to be captured at them is, by the routes, gates and consumers they
found (R279, R285). -/
def Dev.capturesTo (s : Dev) (x : Nat) : Dev :=
  let due := (s.slc.coming.filter (fun c => c.edge < x)).mergeSort (fun a b => a.edge ≤ b.edge)
  forL due (fun c s => s.capture c) { s with slc := { s.slc with coming := s.slc.coming.filter (fun c => x ≤ c.edge) } }

/-- A source value is allowed on a line (R276). -/
def srcOk (l : Line) (v : W) : Bool :=
  let k := v.fld 19 16
  let sub := v.fld 15 12
  let ix := v.fld 11 0
  let listed :=
    match k with
    | 0 => true
    | 1 => sub ≤ 3 && ix < 720
    | 2 => sub ≤ 1 && ix < 720
    | 3 => sub = 0 && ix < 720
    | 4 => sub ≤ 1 && ix < 144
    | 5 => sub = 0 && ix < 144
    | 6 => sub ≤ 3 && ix < 16
    | 7 => sub = 0 && ix = 0
    | 8 => sub ≤ 3 && ix < 72
    | 9 => sub = 0 && ix < 4
    | 10 => ix < 144
    | 11 => sub = 0 && ix < 256
    | _ => false
  listed &&
    match l with
    | .global _ => k ≠ 11
    | .loc q _ =>
      (k = 0) || (k ≤ 3 && 1 ≤ k && ix / 5 = q) || ((k = 4 || k = 5) && ix = q) || (k = 11)

/-- A route register takes a value: a SRC that breaks R276 stores KIND 0 and sets SRC_REJ. -/
def Dev.routeStore (s : Dev) (a : Nat) (v : W) : Dev :=
  let v := v &&& rwMask a
  match lineOfSrc a with
  | some l => if srcOk l v then s.wr a v else (s.wr a (v.put 19 16 0)).setBits (aSlc 0x1024) 0x40000000
  | none => s.wr a v

/-- A route write that takes effect is counted, and LIVE_WR notes one made while a step is open (R287). -/
def Dev.routeCount (s : Dev) : Dev :=
  let s := s.incSat (aSlc 0x1024) 15 0
  let s := { s with slc := { s.slc with writes := s.slc.writes + 1 } }
  if s.anyStepOpen then s.setBits (aSlc 0x1024) 0x80000000 else s

/-- The edge at which a route write completed at an SCLK position of the current frame takes effect: the first ECLK edge
after it (R285). -/
def Dev.edgeAfter (s : Dev) (pos : Nat) : Nat := s.clk.eclk + pos / 2 + 1

/-- The writes of one edge are remembered while it lasts (R286). -/
def Dev.routeMark (s : Dev) (l : List Wrote) (a x rank : Nat) : Dev :=
  { s with slc := { s.slc with wrote := l ++ [{ addr := a, edge := x, rank := rank }] } }

/-- A route write of known instant takes effect at an edge, from which on captures find it (R285). Of two writes of one
register at one edge an engine's prevails over the host's and a higher engine's over a lower's; the two have one effect,
counted once (R286, R287, log 38). -/
def Dev.routeWriteAt (s : Dev) (a : Nat) (v : W) (x rank : Nat) : Dev :=
  let s := s.capturesTo x
  let l := s.slc.wrote.filter (fun w => x ≤ w.edge)
  match l.find? (fun w => w.addr = a && w.edge = x) with
  | some w =>
    if rank < w.rank then s
    else s.routeMark (l.filter (fun w => w.addr ≠ a)) a x rank |>.routeStore a v
  | none => ((s.routeMark l a x rank).routeStore a v).routeCount

/-- A route write whose instant the row does not tell takes effect after ECLK 15 of the frame, with what was captured up
to there (R285, log 38). -/
def Dev.routeWrite (s : Dev) (a : Nat) (v : W) : Dev :=
  ((s.capturesTo (s.clk.eclk + 16)).routeStore a v).routeCount

/-- The address is a route register (R285, R288). -/
def isRoute (a : Nat) : Bool :=
  match locOf a with
  | .slc o => (o < 0x1000 && (o % 16 = 0 || o % 16 = 4)) || o = 0x1000 || o = 0x1004 || (0x1010 ≤ o && o < 0x1020 && o % 4 = 0)
  | .quad _ o => (0xE00 ≤ o && o < 0xE80 && o % 4 = 0) || o = 0xE80 || o = 0xE84
  | .ch c o => c % 5 < 4 && (o = 0x180 || o = 0x184)
  | _ => false

end Sys2Proof.Machine
end

