-- ==== Sys2Proof/Machine/Results.lean ====
section
/-! DEFINITION. Held results of the engines: LOGF candidates, the limit table, bins, the void handler and
the throttle demand a TPOINT sees (R102, R207, R215-R218, R319). -/

namespace Sys2Proof.Machine

/-- The value lies within the bounds (R215). -/
def inLimit (b : W × W) (v : W) : Bool := f32Le b.1 v && f32Le v b.2

/-- A LIMIT with FAILSTEP found the value outside: the open step fails (R216). -/
def Dev.failStep (s : Dev) (i : Nat) : Dev :=
  s.onSite i (fun x => { x with step := x.step.map (fun p => { p with limFail := true }) })

/-- One more fail of the open step (R204). -/
def Dev.stepFail (s : Dev) (i : Nat) : Dev :=
  match (s.site i).step with
  | none => s
  | some p => (s.onSite i (fun x => { x with step := some p.fail })).satBit i p.fail

/-- The candidate entry of a LOGF (R207). -/
def Dev.logCand (s : Dev) (i t expc obs : Nat) : Cand :=
  let p := (s.pin? i t).getD 0
  let c := s.circOf p
  { frame := s.pframe i, voff := 0xFFFFF,
    ply := (s.playerOf i).getD (s.homeOf i), chan := c,
    flags := 1 + 2 * b2n (c % 5 = 4) + 4 * b2n (s.bit (aPin p 0) 3) + 8 * b2n ((s.site i).member = .alt),
    tpin := t, expc := expc, obs := obs }

/-! ### Candidates (R208, R209) -/

/-- Cluster of the fail queue that serves a site. -/
def Dev.queueOf (s : Dev) (i : Nat) : Nat := clusterOf (s.engOf i)

/-- Occupancy of a cluster's fail queue. -/
def Dev.occ (s : Dev) (k : Nat) : Nat := s.led.occ.get (fun _ => 0) k

def Dev.setOcc (s : Dev) (k n : Nat) : Dev := { s with led := { s.led with occ := s.led.occ.set (fun _ => 0) k n } }

/-- A count in a whole word, one more, saturating. -/
def Dev.incWord (s : Dev) (a : Nat) : Dev :=
  s.wr a (if s.rd a = 0xFFFFFFFF then s.rd a else s.rd a + 1)

/-- A candidate of a step is offered: kept while its quota and the queue last, dropped when the queue is
full, never offered beyond F (R208, R209). -/
def Dev.offer (s : Dev) (k : Nat) (p : Step) (c : Cand) : Dev × Step :=
  if p.quota = 0 then (s, p)
  else
    let p := { p with quota := p.quota - 1 }
    if s.occ k < 256 then (s.setOcc k (s.occ k + 1), { p with kept := p.kept ++ [c] })
    else (s.incWord 0x310, { p with drops := if p.drops = 0xFFFFFFFF then p.drops else p.drops + 1 })

/-- Several candidates, in order. -/
def Dev.offers (s : Dev) (k : Nat) (p : Step) (l : List Cand) : Dev × Step :=
  l.foldl (fun r c => r.1.offer k r.2 c) (s, p)

/-- The LOGFs of a step are offered (R208). -/
def Dev.offerLogs (s : Dev) (i : Nat) (p : Step) : Dev × Step :=
  let r := s.offers (s.queueOf i) p p.logs
  (r.1, { r.2 with logs := [] })

/-- One failing compare goes to its queue, for the step it counts for. -/
def Dev.offerOne (o : Offer) (s : Dev) : Dev :=
  let put (p : Step) : Dev × Step := s.offer (s.queueOf o.site) p o.cand
  match (s.site o.site).ended, (s.site o.site).step with
  | some p, _ => if p.serial = o.serial then (put p).1.onSite o.site (fun x => { x with ended := some (put p).2 }) else s
  | none, some p => if p.serial = o.serial then (put p).1.onSite o.site (fun x => { x with step := some (put p).2 }) else s
  | none, none => s

/-- The SCLK of the failing compares that wait is over: they are offered in order (R208, R209). -/
def Dev.flushOffers (s : Dev) : Dev :=
  match s.led.offers with
  | [] => s
  | l => forL l Dev.offerOne { s with led := { s.led with offers := [] } }

/-- A candidate takes its place among those of its SCLK: by site, then by the vector that began first, then by
template pin (R208, R209). -/
def addOffer (o : Offer) : List Offer → List Offer
  | [] => [o]
  | x :: r =>
    if o.site < x.site ∨ (o.site = x.site ∧ (o.begun < x.begun ∨ (o.begun = x.begun ∧ o.cand.tpin < x.cand.tpin)))
    then o :: x :: r else x :: addOffer o r

/-- A failing compare of an SCLK waits for the others of it. -/
def Dev.holdOffer (s : Dev) (sclk : Nat) (o : Offer) : Dev :=
  { s with led := { s.led with offers := addOffer o s.led.offers, offAt := sclk } }

/-- The LOGFs of one site in the ended frame: those of its steps that closed, then those of its open step (R208). -/
def Dev.offerSite (r : Dev × List Closing) (i : Nat) : Dev × List Closing :=
  let r := (r.1.led.due.filter (·.site = i)).foldl (fun r c =>
    let o := r.1.offerLogs i c.step
    (o.1, r.2 ++ [{ c with step := o.2 }])) r
  match (r.1.site i).step with
  | some p =>
    if p.logs.isEmpty then r
    else
      let o := r.1.offerLogs i p
      (o.1.onSite i (fun x => { x with step := some o.2 }), r.2)
  | none => r

/-- The LOGFs of the ended frame are offered once the compares of SCLK 0 are, by ascending site (R208, R209). -/
def Dev.offerFrame (s : Dev) : Dev :=
  let r := (s.sites.map (·.1)).foldl Dev.offerSite (s, [])
  { r.1 with led := { r.1.led with due := r.2, logs := 0 } }

/-! ### The ring (R206, R211-R213) -/

/-- The four words of an entry (R206). -/
def entryWords (i : Nat) (id : Nat) (c : Cand) : List W :=
  [wn c.frame, wn (id * 65536 + c.frame / 2 ^ 32 % 65536),
   wn (c.ply % 16 * 2 ^ 28 + i % 256 * 2 ^ 20 + c.voff % 2 ^ 20),
   wn (c.chan % 1024 * 65536 + c.flags % 16 * 4096 + c.obs % 4 * 1024 + c.expc % 8 * 128 + c.tpin % 128)]

/-- Words written from an address on. -/
def Dev.setWords (s : Dev) (a : Nat) : List W → Dev
  | [] => s
  | v :: r => (s.setWord a v).setWords (a + 4) r

/-- One entry takes the next LSEQ and waits for the ring writer (R211). -/
def Dev.numberEntry (s : Dev) (i id : Nat) (c : Cand) : Dev :=
  let n := (s.rd 0x300).toNat
  let s := s.wr 0x300 (wn (n + 1))
  { s with led := { s.led with ring := s.led.ring ++ [(n, entryWords i id c)] } }

/-- The ring writer copies an entry to its place and WSEQ passes it; overwriting an entry the host has not consumed
sets OVERWR (R212, R213). -/
def Dev.ringPut (x : Nat × List W) (s : Dev) : Dev :=
  let lost := (x.1 + 2 ^ 33 - 65536 - (s.rd 0x308).toNat) % 2 ^ 32 < 2 ^ 31
  let s := (s.setWords (aLdg (16 * (x.1 % 65536))) x.2).wr 0x304 (wn (x.1 + 1))
  if lost then s.setBits 0x30C 0x40000000 else s

/-- High-water mark in force (LDG_CTRL.HWM). -/
def Dev.hwm (s : Dev) : Nat := min 65536 (max 1 (s.fld 0x30C 16 0))

/-- WSEQ - ACK against the high-water mark: one notification for each rise (R213). -/
def Dev.hwmCheck (s : Dev) : Dev :=
  let high := decide (s.hwm ≤ ((s.rd 0x304) - (s.rd 0x308)).toNat)
  let s' := { s with led := { s.led with high := high } }
  if high && !s.led.high && s.bit 0x30C 29 then s'.notify (s'.ntfyNow 3 0 (s'.rd 0x304)) false else s'

/-- The ring writer's work of a frame: 8 entries in each ECLK from ECLK 8 on, in LSEQ order; what it does not reach
waits for the next frame (R212). The model copies a frame's entries at its tick, DESIGN CHOICE (log 34). -/
def Dev.ringRun (s : Dev) : Dev :=
  let n := 8 * (s.flen / 2 - 8)
  let l := s.led.ring
  (forL (l.take n) Dev.ringPut { s with led := { s.led with ring := l.drop n } }).hwmCheck

/-- The entries of the steps that closed PASS or FAIL are numbered, by ascending site; those of the others are
discarded (R211). Then the ring writer runs. -/
def Dev.numberDue (s : Dev) : Dev :=
  let l := s.led.due.filter (fun c => c.st = 1 || c.st = 2)
  let s := { s with led := { s.led with due := [] } }
  (forL l (fun c s => forL c.step.kept (fun k s => s.numberEntry c.site c.step.id.toNat k) s) s).ringRun

/-- Counts of a commit, for the image header (R37). -/
structure Tally where
  voided : Nat
  drops  : Nat
  added  : Nat
  deriving DecidableEq, Repr

/-- The counts of the steps that closed. -/
def tallyOf (l : List Closing) : Tally :=
  { voided := l.countP (·.st = 3), drops := ((l.filter (·.st ≠ 0)).map (·.step.drops.toNat)).sum,
    added := ((l.filter (fun c => c.st = 1 || c.st = 2)).map (·.step.kept.length)).sum }

/-- LDG_SEQ and LDG_ADD of an image. -/
def Dev.ledWords (s : Dev) (t : Tally) : List (Nat × W) :=
  [(0x10, s.rd 0x300), (0x14, wn (65536 * min t.drops 65535 + t.added % 65536))]

/-- The image of this tick, if one was sealed, with the words that the LOGFs of closed steps decide. -/
def Dev.patchImage (s : Dev) (l : List Closing) : Dev :=
  let n := s.clk.frame
  if s.rd (aFrm 0x20) ≠ wn (n % 2 ^ 24 * 256 + 8 + n % 8) then s
  else
    let ws := s.ledWords (tallyOf l) ++ (l.filter (·.st ≠ 0)).map (fun c => (0x1010 + 0x40 * c.site, c.step.drops))
    let old := Tab.get (fun _ => []) s.imgs (n % 8)
    { s with imgs := s.imgs.set (fun _ => []) (n % 8) (ws.foldl (fun (t : Tab W) x => t.set (fun _ => 0) x.1 x.2) old) }

/-- SCLK 0 of the frame is over: the LOGFs of the ended frame are offered, and steps that closed with some are
numbered, which the image shows too (R208, R211). -/
def Dev.settleFrame (s : Dev) : Dev :=
  let s := s.offerFrame
  let l := s.led.due
  if l.isEmpty then s
  else
    let s := forL (l.filter (·.st ≠ 0)) (fun c s => s.onSite c.site (fun x =>
      { x with record := { x.record with lastDrops := c.step.drops } })) s
    s.numberDue.patchImage l

/-- What waits for the end of an SCLK happens: the candidates of its compares, and at SCLK 0 the LOGFs after them. -/
def Dev.settleLogs (s : Dev) : Dev :=
  let s := s.flushOffers
  if s.led.logs = 0 then s else s.settleFrame

/-- The entry a LOGF leaves with the open step, offered at the next tick (R207, R208). -/
def Dev.stepLog (s : Dev) (i : Nat) (c : Cand) : Dev :=
  s.settleLogs.onSite i (fun x => { x with step := x.step.map (fun p => { p with logs := p.logs ++ [c] }) })

/-- ENG[e].VOIDH written by the engine, with the site's MIRROR (R85, R112). -/
def Dev.setVoidh (s : Dev) (e : Nat) (en : Bool) (addr : Nat) : Dev :=
  let v := wn (addr % 32768 + 2 ^ 31 * b2n en)
  let s := s.wr (aEng e 0x18) v
  match s.siteOf e with
  | some i => s.setFld (aSiteCfg i + 8) 15 0 (addr % 32768 + 32768 * b2n en)
  | none => s

/-- The demand TPOINT acts on: the site's own, or the largest of its mask (R102, R319); 0 is none. -/
def Dev.tpDemand (s : Dev) (i : Nat) : Nat :=
  match s.playerOf i with
  | none => (s.site i).demand
  | some y => (s.mask y).foldl (fun m j => max m (s.site j).demand) 0

/-- The site's player is in dwell with its next slot empty; a site in no mask dwells alone (R102, R109). -/
def Dev.pDwell (s : Dev) (i : Nat) : Bool :=
  match s.playerOf i with
  | none => true
  | some y => (s.ply y).st ≠ .playing && (s.ply y).next.isNone

/-- Request the dwell of R102 for a site: D of the demand. -/
def Dev.reqDwell (s : Dev) (i : Nat) : Dev :=
  let d := s.tpDemand i
  s.onSite i (fun x => { x with tpoint := some d, tpHit := true })

/-- The line an instruction names in A and B (R85): global A, or local A[3:0] of the pin's quad. -/
def Dev.lineArg (s : Dev) (i : Nat) (x : Ins) : Option Line :=
  if x.flag 0 then (s.pin? i x.b).map (fun p => .loc (p / 4) (x.a % 16)) else some (.global x.a)

/-- Record of an uncorrectable microword: durable, and shown in UCS.ECC2_LOG (R118, R386). -/
def Dev.logUcode2 (s : Dev) (k addr : Nat) : Dev := s.nvPut 0x460 (wn (2 ^ 31 + k * 2 ^ 24 + addr))

/-- The first microword an event fetches with a double-bit error; nothing is fetched after it. -/
def doubleAt (f : Fetch) : Option Nat := (f.ucode.find? (·.2)).map (·.1.toNat)

/-- The microwords an event corrects, up to one with a double-bit error. -/
def singlesOf (f : Fetch) : List Nat := (f.ucode.takeWhile (fun x => !x.2)).map (·.1.toNat)

/-- A microword fetched with a double-bit error: the record, and UCS_ECC2 at SAFE (R118). -/
def Dev.ucodeDouble (s : Dev) (k addr : Nat) : Dev := (s.logUcode2 k addr).raise (raiseOf 193 3)

/-- Record of a corrected microword (R118). -/
def Dev.logUcode1 (s : Dev) (k addr : Nat) : Dev :=
  let a := aUcs 0x810C
  ((s.incSat a 23 16).setFld a 31 28 k).setFld a 14 0 addr

end Sys2Proof.Machine
end

