-- ==== Sys2Proof/Machine/Microcode.lean ====
section
/-! DEFINITION. The microcode sequencer (R105-R139): it runs an instruction's routine word by word where
the control store differs from the ROM (a patch, or the writable store), over a shadow that becomes
visible only at a commit word. The ROM's own routines have the effect R85 gives (log 13). -/

namespace Sys2Proof.Machine

/-! ### Words (R105, R114, R115, R122, R420) -/

/-- Bits `hi:lo` of a microword. -/
def mf (w : BitVec 160) (hi lo : Nat) : Nat := (w.toNat >>> lo) % 2 ^ (hi + 1 - lo)

/-- A microword from SEQ, NEXT, COND, CMT and the other fields, already placed. -/
def uword (seq next cond cmt other : Nat) : BitVec 160 :=
  BitVec.ofNat 160 (seq * 2 ^ 147 + next * 2 ^ 132 + cond * 2 ^ 126 + cmt * 2 ^ 125 + other)

/-- The TRAP word with IMM 1 (R115, R122). -/
def trapWord : BitVec 160 := uword 12 0 0 0 (2 ^ 89)

/-- A ROM word: those of the routines of HALT and STEP, the entry of an opcode not listed, and otherwise
the ROM's own (R115, R420). -/
def romWordAt (a : Nat) : BitVec 160 :=
  if a = 0x0006 then uword 4 0x1A57 29 0 0
  else if a = 0x1A57 || a = 0x1A47 then trapWord
  else if a = 0x1A58 then uword 2 0x1A5B 13 0 0
  else if a = 0x1A59 then uword 1 0x1A5A 0 1 (2 ^ 10 + 3 * 2 ^ 75 + 0x1A5A * 2 ^ 89)
  else if a = 0x1A5A then uword 11 0 0 1 (2 ^ 6)
  else if a = 0x1A5B || a = 0x1A4C then uword 10 0 0 1 (2 ^ 24 + 9 * 2 ^ 120)
  else if a = 0x0050 then uword 4 0x1A47 29 0 0
  else if a = 0x1A48 then uword 2 0x1A4C 13 0 0
  else if a = 0x1A49 then uword 2 0x1A4B 18 1 (2 ^ 10 + 3 * 2 ^ 75 + 0x1A4A * 2 ^ 89)
  else if a = 0x1A4A then uword 9 0 0 1 (2 * 2 ^ 10)
  else if a = 0x1A4B then uword 9 0 0 1 0
  else if a < 256 && (formatOf a).isNone then trapWord
  else Config.romWord a

/-- A patch RAM word (R122). -/
def Dev.pramWord (s : Dev) (w : Nat) : BitVec 160 := s.ucs.pram.get (fun _ => trapWord) w

/-- The enabled matches of a ROM address, ascending (R119). -/
def Dev.matchesAt (s : Dev) (a : Nat) : List Nat := (List.range 64).filter (fun n => s.matchAt n a)

/-- The microword at an address of cluster k; `none` for a reserved address (R114, R119, R126). -/
def Dev.fetchU (s : Dev) (k a : Nat) : Option (BitVec 160) :=
  if a < 0x4000 then
    if s.sys.wcs then some (s.ucs.wcs.get (fun _ => 0) (16384 * k + a))
    else if s.bit (aUcs 0x8100) 0 then
      match s.matchesAt a with
      | n :: _ => some (s.pramWord (s.fld (aUcs (0x8000 + 4 * n)) 23 14))
      | [] => some (romWordAt a)
    else some (romWordAt a)
  else if a < 0x4400 then some (s.pramWord (a - 0x4000))
  else none

/-- SEQ codes that may end a tail (R108). -/
def isTerm (q : Nat) : Bool := [1, 2, 3, 4, 9, 10, 11].contains q

/-- The word may not issue where it stands: UC_ILL (R113). `tail` says it lies in a post-commit tail. -/
def wordIll (w : BitVec 160) (tail : Bool) : Bool :=
  let q := mf w 150 147
  let cmt := mf w 125 125 = 1
  let c := mf w 131 126
  13 ≤ q || (56 ≤ c && c ≤ 62) || mf w 124 120 = 16 || 24 ≤ mf w 119 115 || 24 ≤ mf w 114 110 ||
  17 ≤ mf w 109 105 || 7 ≤ mf w 88 81 || 4 ≤ mf w 80 75 || 3 ≤ mf w 74 69 || 9 ≤ mf w 68 61 ||
  3 ≤ mf w 60 55 || 2 ≤ mf w 54 50 || 3 ≤ mf w 49 45 || 3 ≤ mf w 44 39 || 5 ≤ mf w 38 31 ||
  3 ≤ mf w 30 27 || 4 ≤ mf w 26 24 || 6 ≤ mf w 23 18 || 7 ≤ mf w 17 10 || 3 ≤ mf w 9 6 ||
  2 ≤ mf w 5 3 || 2 ≤ mf w 2 0 ||
  ((q = 9 || q = 10 || q = 11) && !cmt && !tail) ||
  (mf w 80 75 = 3 && !cmt) || (q = 12 && cmt) ||
  ((mf w 38 31 = 4 || mf w 5 3 = 1) && !cmt && !tail)

/-- The operands name a register they may not: ILL_OP (R111). -/
def wordRegBad (w : BitVec 160) (x : Ins) : Bool :=
  let rd (c : Nat) := (c = 1 && !regOk x.a) || (c = 2 && !regOk x.b)
  let d := mf w 109 105
  rd (mf w 119 115) || rd (mf w 114 110) || (d = 1 && !regRw x.a) || (d = 2 && !regRw x.b)

/-! ### Shadow (R127, R128) -/

/-- A shadowed operation becomes visible (R128). -/
def Dev.applySh (e : Nat) (o : ShOp) (s : Dev) : Dev :=
  match o with
  | .reg n v => if n = 46 then s.onEng e (fun g => { g with wrem := v.setWidth 24 }) else s.setReg e n v
  | .pc t => s.setPc e t
  | .flags m b => s.putFlags e ⟨m, b⟩
  | .voidh en a => s.setVoidh e en a
  | .scr a v => s.setScrWord e a v
  | .stage op => s.stageOp e op
  | .exitMask => { s with stage := { s.stage with eng := s.stage.eng ++ [⟨e, .exitMask⟩] } }
  | .push v => s.onEng e (fun g => { g with stack := (v :: g.stack).take 8 })
  | .pop => s.onEng e (fun g => { g with stack := g.stack.drop 1 })
  | .arm l hit => s.onEng e (fun g => { g with wait := some l, waitY := false, arrived := hit })
  | .disarm => s.onEng e (fun g => { g with wait := none, arrived := false })
  | o =>
    match s.siteOf e with
    | none => s
    | some i =>
      match o with
      | .slotBusy m => s.slotBusy i m
      | .slotWr m v => s.onSite i (fun x => x.setSlot m { value := v, ready := true, owner := x.step.map (·.serial) })
      | .stepEnd => s.endStep e i
      | .stepOpen id => s.openStep i id
      | .bin b => s.onSite i (fun x => { x with bin := some b })
      | .limHold out fail => if fail && out then (s.setFlag e 8 out).failStep i else s.setFlag e 8 out
      | .cntInc => s.stepFail i
      | .logEnt t c b => s.stepLog i (s.logCand i t c b)
      | .tpDwell => s.reqDwell i
      | _ => s

/-- How many of each kind a shadow holds exceeds R127. -/
def shOver (l : List ShOp) : Bool :=
  let cnt (f : ShOp → Bool) := (l.filter f).length
  8 < cnt (fun o => match o with | .reg n _ => n < 46 | .pc _ | .flags _ _ | .voidh _ _ => true | _ => false) ||
  4 < cnt (fun o => match o with | .scr _ _ => true | _ => false) ||
  2 < cnt (fun o => match o with | .stage _ => true | _ => false) ||
  4 < cnt (fun o => match o with | .stepEnd | .stepOpen _ | .bin _ | .limHold _ _ | .cntInc | .logEnt _ _ _ => true | _ => false) ||
  2 < cnt (fun o => match o with | .push _ | .pop => true | _ => false)

/-- Staging entries of a shadow. EXITREQ stages nothing that R26 counts: a frame of FORCE, BIN and HALT stages one
write (chapter 3, frame budgets). -/
def shStaged (l : List ShOp) : Nat := (l.filter (fun o => match o with | .stage _ => true | _ => false)).length

/-! ### A running routine -/

/-- The sequencer between two words: visible state, context, and words since the last commit (R138). -/
structure Mi where
  s     : Dev
  c     : UCtx
  /-- SCLK position in the frame of what the words write at once -/
  pos   : Nat
  since : Nat

/-- What a word leaves: the routine goes on, or the instruction is over for now. -/
inductive MRes where
  | run (m : Mi)
  | done (s : Dev)

/-- The state as the routine sees it: its shadow applied (R106). -/
def Mi.view (m : Mi) (e : Nat) : Dev := forL m.c.sh (fun o s => s.applySh e o) m.s

/-- An ALU source (R111). -/
def Mi.src (m : Mi) (e : Nat) (x : Ins) (hi : W) (imm : Nat) (code : Nat) : W :=
  let v := m.view e
  match code with
  | 0 => 0
  | 1 => v.reg e x.a
  | 2 => v.reg e x.b
  | 3 => x.imm
  | 4 => wn imm
  | 5 => (BitVec.ofNat 16 imm).signExtend 32
  | 6 => wn (v.pc e)
  | 15 => m.c.scrd
  | 16 => m.c.resp
  | 17 => wn m.c.lcnt
  | 18 => m.c.cal
  | 19 => m.c.limLo
  | 20 => m.c.limHi
  | 21 => hi
  | 22 => ((v.eng e).stack.headD 0).setWidth 32
  | 23 => (v.eng e).wrem.setWidth 32
  | n => m.c.t.getD (n - 7) 0

/-- ALU operation (R110): its result and the flags SETF writes. PASSA, PASSB, DEC0, MIN and F2CODE match no Pranum
operation, and the spec does not say what SETF then writes: DESIGN CHOICE (log 13), Z and N of the result and V cleared,
as AND. DEC0 takes A as unsigned: DESIGN CHOICE (log 13). -/
def aluOp (op : Nat) (a b : W) : AluOut :=
  match op with
  | 1 => aluAdd a b
  | 2 => aluSub a b
  | 3 => aluLogic (a &&& b)
  | 4 => aluLogic (a ||| b)
  | 5 => aluLogic (a ^^^ b)
  | 6 => aluShl a b
  | 7 => aluShr false a b
  | 8 => aluShr true a b
  | 9 => aluLogic a
  | 10 => aluLogic b
  | 11 => aluSub a b
  | 12 => aluFcmp a b
  | 13 => aluLogic (if a = 0 then 0 else a - 1)
  | 14 => aluLogic (if a.toNat ≤ b.toNat then a else b)
  | 15 => aluLogic (Config.dacCode a b)
  | _ => aluLogic 0

/-- A condition (R109), for the word whose ALU result is given. What the spec leaves open here are DESIGN CHOICES of log
13: the ready lines 48-55 always hold; a COND sees what its own word reads (LDI, range checks) but not the flags its word
writes; TPBAD is true for selector 0x80, which names no template pin; ICOND is false for A of 16 or more. -/
def Mi.cond (m : Mi) (e : Nat) (x : Ins) (imm : Nat) (r : W) (c : Nat) : Bool :=
  let v := m.view e
  let fl := v.rd (aEng e 0xC)
  let site := v.siteOf e
  let onSite (f : Nat → Bool) : Bool := match site with | some i => f i | none => false
  match c with
  | 0 => true
  | 1 => fl.bit 0 | 2 => fl.bit 1 | 3 => fl.bit 2 | 4 => fl.bit 3 | 5 => fl.bit 5
  | 6 => fl.bit 6 | 7 => fl.bit 7 | 8 => fl.bit 8 | 9 => fl.bit 9 | 10 => fl.bit 10
  | 11 => fl.bit 11 | 12 => fl.bit 12 | 13 => fl.bit 13
  | 14 => decide (r = 0)
  | 15 => r.bit 31
  | 16 => decide (m.c.lcnt = 0)
  | 17 => (condOf x.a fl (v.lastStatus e)).getD false
  | 26 => decide (x.b = 128)
  | 27 => selBad x.b
  | 28 => onSite (fun i => decide (v.npin i ≤ x.b))
  | 29 => x.mbz
  | 30 => decide (8 ≤ (v.eng e).stack.length)
  | 31 => (v.eng e).stack.isEmpty
  | 32 => onSite (fun i => (v.site i).stepOpen)
  | 33 => onSite (fun i => (v.site i).member ≠ .none)
  | 34 => onSite (fun i => (v.site i).play.isSome)
  | 35 => onSite (fun i => (v.site i).join.isSome)
  | 36 => v.stageFull e
  | 37 => m.c.slotOk
  | 38 => (v.eng e).arrived
  | 39 => m.c.wto
  | 40 => onSite (fun i => v.tpDemand i ≠ 0)
  | 41 => onSite v.pDwell
  | 42 => v.sys.mode.enables (imm % 16)
  | 43 => m.c.rngOk
  | 44 => m.c.limIn
  | 45 => decide ((v.eng e).wrem = 0)
  | 46 => v.bit (aEng e 0x18) 31
  | 47 => decide ((v.eng e).uchunk = 0)
  | 63 => false
  | n => if 18 ≤ n && n ≤ 25 then x.flag (n - 18) else 48 ≤ n && n ≤ 55

/-- Add shadowed operations; in a tail they act as they issue (R129). -/
def Mi.shadow (m : Mi) (e : Nat) (l : List ShOp) : Mi :=
  if m.c.tail then { m with s := forL l (fun o s => s.applySh e o) m.s }
  else { m with c := { m.c with sh := m.c.sh ++ l } }

/-- A read whose response layout the spec does not give returns a free value (log 12). -/
def Mi.freeResp (m : Mi) : Mi :=
  let d := m.s.draw
  { m with s := d.2, c := { m.c with resp := d.1 } }

/-- The shadowed operations of a word's resource fields (R112), in the order of the fields. -/
def Mi.requests (m : Mi) (e : Nat) (x : Ins) (w : BitVec 160) (r : W) : List ShOp :=
  let v := m.view e
  let i := (v.siteOf e).getD 0
  let own := v.owner i
  let pat := mf w 88 81
  let pmu := mf w 68 61
  let evt := mf w 38 31
  let mem := mf w 23 18
  let res := mf w 17 10
  (match pat with
   | 1 => [.stage (.play (x.imm.setWidth 16))]
   | 2 => [.stage (.join (x.imm.setWidth 16) x.b)]
   | 3 => [.stage (.detach (x.flag 0))]
   | 4 => [.stage (.segjmp (x.imm.setWidth 16))]
   | 5 => [.stage (.dwell x.a x.b)]
   | _ => []) ++
  (if mf w 74 69 = 1 then [.stage (.tset x.a x.b (x.fl % 4) (x.imm.setWidth 24))] else []) ++
  (match pmu with
   | 1 => [.stage (.level x.a x.b m.c.out)]
   | 2 => [.stage (.force x.a x.b (x.fl % 8) m.c.out)]
   | 3 => [.stage (.gang (x.a = 1) x.b (x.im 3 0))]
   | 4 => [.stage (.meas (x.a % 32) x.b (x.fl % 16) (x.im 15 0) own), .slotBusy (x.a % 32)]
   | 8 => [.slotWr (x.b % 32) r]
   | _ => []) ++
  (if mf w 60 55 = 1 then [.stage (.acqarm (if mf w 54 50 = 1 then x.a else m.c.prof) x.b (x.im 15 0))] else []) ++
  (if mf w 49 45 = 1 then .stage (.tdcopen (x.a % 4) x.b (x.fl % 16) (x.im 3 0) own) ::
      (((v.pin? i x.b).bind (fun p => tdcSlotOf (v.rd (aTdcProf (p / 4) (x.im 3 0) 0)))).map ShOp.slotBusy).toList
   else []) ++
  (if mf w 44 39 = 1 then [.stage (.winset x.a x.b (x.fl % 32) (x.im 27 16) (x.im 11 0))] else []) ++
  (match evt with
   | 1 => ((v.lineArg i x).map (fun l => ShOp.stage (.emit l))).toList
   | 2 => ((v.lineArg i x).map (fun l => ShOp.arm l false)).toList
   | 3 => [.disarm]
   | _ => []) ++
  (match mf w 30 27 with
   | 1 => [.cntInc]
   | 2 => [.logEnt x.b (x.fl % 8) (x.im 1 0)]
   | _ => []) ++
  (if mf w 26 24 = 3 then [.tpDwell] else []) ++
  (match mem with
   | 2 => [.scr m.c.scra.toNat m.c.scrw]
   | 3 => [.push (r.setWidth 15)]
   | 4 => [.pop]
   | _ => []) ++
  (match res with
   | 1 => [.stepEnd]
   | 2 => [.stepOpen (x.im 15 0)]
   | 3 => [.bin (x.im 7 0)]
   | 4 => [.limHold (!m.c.limIn) (x.flag 0)]
   | 5 => [.voidh (x.flag 0) (x.im 14 0)]
   | 6 => [.reg 36 r]
   | _ => []) ++
  (if mf w 9 6 = 1 then [.exitMask] else [])

/-- The calibration word of the circuit that serves a pin (CALRD). -/
def Dev.calWordOf (s : Dev) (p k : Nat) : W := Config.calWord (s.calPath (s.circOf p)) (s.calRecord (s.circOf p)) k

/-- The reads of a word's resource fields (R112), and the micro counter. LIMRD tests the value that RA holds then
against the bounds, for LIMIN: DESIGN CHOICE (log 13). -/
def Mi.reads (m : Mi) (e : Nat) (x : Ins) (w : BitVec 160) (imm : Nat) (r : W) : Mi :=
  let v := m.view e
  let i := (v.siteOf e).getD 0
  let q := ((v.pin? i x.b).getD 0) / 4
  let m := if mf w 88 81 = 6 then m.freeResp else m
  let m := { m with c :=
    (match mf w 80 75 with
     | 1 => { m.c with lcnt := imm }
     | 2 => { m.c with lcnt := r.fld 15 0 }
     | _ => m.c) }
  let m := if mf w 74 69 = 2 then { m with c := { m.c with rngOk := v.tsetOk x.a (x.im 23 0) } } else m
  let m := { m with c :=
    (match mf w 68 61 with
     | 5 => { m.c with rngOk := if x.op = 0x30 then levelOk x.imm else forceOk x.a (x.fl % 8) x.imm }
     | 6 => { m.c with cal := v.calWordOf ((v.pin? i x.b).getD 0) (imm % 16) }
     | 7 => { m.c with resp := ((v.site i).slot (x.b % 32)).value, slotOk := ((v.site i).slot (x.b % 32)).ready }
     | _ => m.c) }
  let m := if mf w 60 55 = 2 then { m with c := { m.c with rngOk := x.a ≤ 7 } } else m
  let m := if mf w 54 50 = 1 then { m with c := { m.c with prof := x.a } } else m
  let m := if mf w 49 45 = 2 then { m with c := { m.c with rngOk := v.tdcOk q x.a (x.fl % 16) (x.im 3 0) } } else m
  let m := if mf w 44 39 = 2 then { m with c := { m.c with rngOk := x.a ≤ 4 && winOk (x.fl % 32) (x.im 27 16) (x.im 11 0) } } else m
  let m := if mf w 26 24 = 2 then { m with c := { m.c with resp := wn (v.pframe i) } } else m
  let m := { m with c :=
    (match mf w 23 18 with
     | 1 => { m.c with scrd := v.scrWord e m.c.scra.toNat }
     | 4 => { m.c with resp := ((v.eng e).stack.headD 0).setWidth 32 }
     | 5 =>
       let b := v.limit (x.im 13 0)
       { m.c with limLo := b.1, limHi := b.2, limIn := inLimit b (v.reg e x.a) }
     | _ => m.c) }
  let m := if mf w 9 6 = 2 then m.freeResp else m
  if mf w 2 0 = 1 then m.freeResp else m

/-- ALU destination (R111). WREM keeps the 24 bits of a timeout: DESIGN CHOICE (log 13). -/
def Mi.dest (m : Mi) (e : Nat) (x : Ins) (d : Nat) (r : W) : Mi :=
  match d with
  | 0 => m
  | 1 => m.shadow e [.reg x.a r]
  | 2 => m.shadow e [.reg x.b r]
  | 3 =>
    let m := m.shadow e [.pc (r.toNat % 32768)]
    { m with c := { m.c with pcW := true } }
  | 12 => { m with c := { m.c with scra := r } }
  | 13 => { m with c := { m.c with scrw := r } }
  | 14 => { m with c := { m.c with lcnt := r.fld 15 0 } }
  | 15 => m.shadow e [.reg 46 r]
  | 16 => { m with c := { m.c with out := r } }
  | n => { m with c := { m.c with t := m.c.t.set (n - 4) r } }

/-- The immediate operations of a word: ROUTEWR of the route register UIMM selects, a free choice of the source's
(log 12), at the edge after the word, and NTFY (R112, R286). -/
def Mi.immediate (m : Mi) (e : Nat) (w : BitVec 160) (imm : Nat) (r : W) : Mi :=
  let a := Config.routeReg imm
  let s := if mf w 38 31 = 4 && isRoute a then m.s.routeWriteAt a r (m.s.edgeAfter m.pos) (e + 1) else m.s
  let s := if mf w 5 3 = 1 then s.notify (s.ntfyNow 6 ((s.siteOf e).getD 0) r) false else s
  { m with s := s }

/-- The words of the tail that follows a commit word: up to its first terminator, at most 16 words, every other word
CONT without CMT, none of them UC_ILL; `none` where it breaks R129 (R130). -/
def Dev.tailAt (s : Dev) (k : Nat) : Nat → Nat → Option (List (BitVec 160))
  | 0, _ => none
  | n + 1, a =>
    match s.fetchU k a with
    | none => none
    | some w =>
      if wordIll w true then none
      else if isTerm (mf w 150 147) then some [w]
      else if mf w 150 147 = 0 && mf w 125 125 = 0 then (s.tailAt k n (a + 1)).map (w :: ·)
      else none

/-- The tail of a commit word; a commit word that is a terminator has none (R129). -/
def Dev.tailOf (s : Dev) (k a : Nat) (w : BitVec 160) : Option (List (BitVec 160)) :=
  if isTerm (mf w 150 147) then some []
  else if mf w 150 147 = 0 then s.tailAt k 16 (a + 1)
  else none

/-- Engine-staged writes that a word requests (R112). -/
def wordStages (w : BitVec 160) : Nat :=
  let one (b : Bool) : Nat := b2n b
  one (1 ≤ mf w 88 81 && mf w 88 81 ≤ 5) + one (mf w 74 69 = 1) + one (1 ≤ mf w 68 61 && mf w 68 61 ≤ 4) +
    one (mf w 60 55 = 1) + one (mf w 49 45 = 1) + one (mf w 44 39 = 1) + one (mf w 38 31 = 1)

/-- What keeps a commit word from issuing, found in its shadow and its tail as it reads ahead (R26, R111, R130): the
fault, if any. A tail cannot fail once begun, so a bad register or a seventeenth staged write in it stops the commit
word (log 13). -/
def Mi.commitBad (m : Mi) (e : Nat) (x : Ins) (w : BitVec 160) : Option Nat :=
  match m.s.tailOf (clusterOf e) m.c.addr w with
  | none => some 197
  | some l =>
    if l.any (wordRegBad · x) then some 163
    else if 16 < (m.s.eng e).staged + shStaged m.c.sh + l.foldl (fun n w => n + wordStages w) 0 then some 161
    else none

/-- The address of a double-bit error lies in the tail of the commit word at an address. -/
def Dev.tailDouble (s : Dev) (k a : Nat) (w : BitVec 160) (double : Option Nat) : Bool :=
  match double, s.tailOf k a w with
  | some b, some l => a < b && b ≤ a + l.length
  | _, _ => false

/-- HALT's end: the engine leaves RUNNING (R76, R108). -/
def Dev.haltEng (s : Dev) (e : Nat) : Dev :=
  s.onEng e (fun g => { g.retired with st := .halted, cause := 1, phase := .exec, wait := none, arrived := false })

/-- The instruction is over for now: the sequencer keeps what is its own (R107). -/
def Mi.close (m : Mi) (e : Nat) (s : Dev) : MRes :=
  .done (s.onEng e (fun g => { g with u := some m.c.rest, mid := false }))

/-- The routine is abandoned with a fault (R87, R131). -/
def Mi.trap (m : Mi) (e f : Nat) : MRes := m.close e (m.s.trap e f)

/-- The routine stands where it is: in a WAIT word, or cut between two words. -/
def Mi.stand (m : Mi) (e : Nat) (p : Phase) : Dev :=
  m.s.onEng e (fun g => { g with phase := p, wdog := m.since, u := some m.c, mid := true })

/-- The instruction retires (R108): PC advances unless the routine wrote it. -/
def Mi.retire (m : Mi) (e : Nat) : Dev := if m.c.pcW then m.s.jumpTo e (m.s.pc e) else m.s.retire e

/-- The next address, or the end of the routine (R108). A committed yield count yields after the terminator, whichever
it is: after DISP with the instruction retired, after any other with it unretired, to restart by R136 (R112, R135). -/
def Mi.next (m : Mi) (e : Nat) (w : BitVec 160) (cond : Bool) : MRes :=
  let q := mf w 150 147
  let nx := mf w 146 132
  let ends := isTerm q && (m.c.tail || mf w 125 125 = 1)
  let a := m.c.addr
  let go (c : UCtx) (a : Nat) : MRes := .run { m with c := { c with addr := a % 32768, tail := c.tail && !isTerm q } }
  let jump (a : Nat) : MRes :=
    match m.c.yOn with
    | some n => if ends then m.close e ((m.s.yieldFor e n).onEng e (fun g => { g with wdog := 0 })) else go m.c a
    | none => go m.c a
  match q with
  | 0 => go m.c (a + 1)
  | 1 => jump nx
  | 2 => jump (if cond then nx else a + 1)
  | 3 => jump (if cond then a + 1 else nx)
  | 4 => jump (if cond then nx else nx + 1)
  | 5 => if 4 ≤ m.c.stack.length then m.trap e 194 else go { m.c with stack := (a + 1) :: m.c.stack } nx
  | 6 =>
    match m.c.stack with
    | [] => m.trap e 194
    | t :: r => go { m.c with stack := r } t
  | 7 => if m.c.lcnt ≠ 0 then go { m.c with lcnt := m.c.lcnt - 1 } nx else go m.c (a + 1)
  | 8 => if cond then go m.c (a + 1) else .done ({ m with c := { m.c with wto := false } }.stand e .waiting)
  | 9 =>
    match m.c.yOn with
    | some n => m.close e ((m.retire e).yieldFor e n)
    | none => m.close e (m.retire e)
  | 10 => m.close e ((m.s.yieldFor e (m.c.yOn.getD 1)).onEng e (fun g => { g with wdog := 0 }))
  | _ => m.close e ((m.retire e).haltEng e)

/-- The trap a TRAP word codes (R108). -/
def trapFault (imm : Nat) : Nat :=
  match imm % 256 with
  | 1 => 163 | 2 => 164 | 3 => 165 | 4 => 161 | 5 => 162 | _ => 195

/-- What a word leaves once its operations have acted, before its sequencing. -/
inductive MIss where
  /-- it issued: its condition -/
  | ok (m : Mi) (w : BitVec 160) (cond : Bool)
  /-- it did not issue, or trapped -/
  | stop (r : MRes)

/-- A yield count a word gives (R112 YCNT): committed with the next commit, or at once in a tail (R128, R129). -/
def UCtx.count (c : UCtx) (n : Option Nat) : UCtx :=
  match n with
  | none => c
  | some k => if c.tail then { c with yOn := some k } else { c with ycnt := some k }

/-- A commit (R128): the whole shadow becomes visible, with the yield count and, by CHUNK, the restart address. -/
def Mi.commit (m : Mi) (e : Nat) (w : BitVec 160) : Mi :=
  let s := m.view e
  let s :=
    if mf w 80 75 = 3 then
      s.onEng e (fun g => { g with rsta := BitVec.ofNat 15 (mf w 104 89), uchunk := g.uchunk + 1 })
    else s
  let y := match m.c.ycnt with
    | some n => some n
    | none => m.c.yOn
  { s := s, c := { m.c with sh := [], ycnt := none, yOn := y, tail := !isTerm (mf w 150 147) }, pos := m.pos, since := 0 }

/-- The fields of a word act (R106, R110-R112): the word's condition and ALU result, and what it reads, computes and
shadows. The resource fields take OUT, and COND takes FLAGS, as they were before the word; ALU_D is ignored with ALU_OP
NOP, and FCMP writes its first operand to the destination: DESIGN CHOICES (log 13). -/
def Mi.operate (m : Mi) (e : Nat) (x : Ins) (hi : W) (w : BitVec 160) : Mi × Bool × W :=
  let imm := mf w 104 89
  let out := aluOp (mf w 123 120) (m.src e x hi imm (mf w 119 115)) (m.src e x hi imm (mf w 114 110))
  let r := out.value
  let m := m.reads e x w imm r
  let cond := m.cond e x imm r (mf w 131 126)
  let ops := m.requests e x w r
  let m := m.shadow e (if mf w 124 124 = 1 then [.flags out.flags.mask out.flags.bits] else [])
  let m := if mf w 123 120 = 11 || mf w 123 120 = 0 then m else m.dest e x (mf w 109 105) r
  let m := m.shadow e ops
  ({ m with c := m.c.count (if mf w 26 24 = 1 then some (max 1 r.toNat) else none), since := m.since + 1 }, cond, r)

/-- What keeps a word from issuing where it stands, before its fields act (R108, R111, R113, R118). -/
def Mi.wordStop (m : Mi) (e : Nat) (x : Ins) (w : BitVec 160) (double : Option Nat) : Option MRes :=
  let k := clusterOf e
  if double = some m.c.addr then some (m.close e (m.s.ucodeDouble k m.c.addr))
  else if wordIll w m.c.tail then some (m.trap e 195)
  else if wordRegBad w x then some (m.trap e 163)
  else if mf w 150 147 = 12 then some (m.trap e (trapFault (mf w 104 89)))
  else if mf w 125 125 = 1 && m.s.tailDouble k m.c.addr w double then some (m.close e (m.s.ucodeDouble k (double.getD 0)))
  else none

/-- One microword issues (R106-R113, R127-R130). The watchdog acts once a word beyond its limit has issued without a
commit (R138). -/
def Mi.issue (m : Mi) (e : Nat) (x : Ins) (hi : W) (double : Option Nat) : MIss :=
  match m.s.fetchU (clusterOf e) m.c.addr with
  | none => .stop (m.trap e 195)
  | some w =>
    match m.wordStop e x w double with
    | some r => .stop r
    | none =>
      let o := m.operate e x hi w
      if shOver o.1.c.sh then .stop (m.trap e 196)
      else if mf w 125 125 = 1 then
        match o.1.commitBad e x w with
        | some f => .stop (m.trap e f)
        | none => .ok ((o.1.commit e w).immediate e w (mf w 104 89) o.2.2) w o.2.1
      else if max 64 (o.1.s.fld (aUcs 0x8108) 13 0) < o.1.since then .stop (o.1.trap e 168)
      else .ok (o.1.immediate e w (mf w 104 89) o.2.2) w o.2.1

/-- One microword issues, and its sequencing is followed. -/
def microStep (e : Nat) (x : Ins) (hi : W) (double : Option Nat) (m : Mi) : MRes :=
  match m.issue e x hi double with
  | .ok m w cond => m.next e w cond
  | .stop r => r

/-- The rest of a tail that is under way where the routine is cut: it runs to its terminator, whose sequencing is not
followed (R132). -/
def tailRun (e : Nat) (x : Ins) (hi : W) (double : Option Nat) : Nat → Mi → Dev
  | 0, m => m.stand e .exec
  | n + 1, m =>
    if !m.c.tail then m.stand e .exec
    else
      match m.issue e x hi double with
      | .stop (.done s) => s
      | .stop (.run m) => m.stand e .exec
      | .ok m w cond =>
        if isTerm (mf w 150 147) then { m with c := { m.c with fin := some cond } }.stand e .exec
        else tailRun e x hi double n { m with c := { m.c with addr := m.c.addr + 1 } }

/-- The routine runs on, for so many words: then it stands, its tail run to the end (R132). -/
def microRun (e : Nat) (x : Ins) (hi : W) (double : Option Nat) : Nat → Mi → Dev
  | 0, m => tailRun e x hi double 16 m
  | n + 1, m =>
    match microStep e x hi double m with
    | .done s => s
    | .run m => microRun e x hi double n m

/-- The sequencer's state as an instruction finds it: what the last one left, or, where a ROM routine has left it open,
free values (R107, log 13). -/
def Dev.uctx (s : Dev) (e : Nat) : UCtx × Dev :=
  match (s.eng e).u with
  | some c => (c.rest, s)
  | none =>
    let f (n : Nat) := Config.freeValue (s.freeIx + n)
    ({ uInit with
       t := (List.range 8).map f, lcnt := (f 8).fld 15 0, scra := f 9, scrw := f 10, scrd := f 11, resp := f 12, cal := f 13,
       limLo := f 14, limHi := f 15, out := f 16, rngOk := (f 17).bit 0, slotOk := (f 17).bit 1, limIn := (f 17).bit 2,
       prof := (f 18).fld 2 0 }, { s with freeIx := s.freeIx + 19 })

/-- A routine that stood between two words goes on; a repeated WAIT word adds nothing to the watchdog count (R108). -/
def Dev.resume (s : Dev) (e : Nat) (x : Ins) (hi : W) (f : Fetch) (c : UCtx) : Dev :=
  let g := s.eng e
  let n := f.upto.getD (s.flen / 2)
  let m : Mi := { s := s.onEng e (fun g => { g with phase := .exec, mid := false }), c := { c with fin := none }, pos := f.pos.toNat,
                  since := if g.phase = .waiting then g.wdog - 1 else g.wdog }
  match c.fin, s.fetchU (clusterOf e) c.addr with
  | some cond, some w =>
    match m.next e w cond with
    | .done s => s
    | .run m => microRun e x hi (doubleAt f) n m
  | _, _ => microRun e x hi (doubleAt f) n m

/-- An instruction carried out by altered microcode: from where it stands, from its restart address, or from its entry
word (R115, R136). A routine that does not end within the words of a frame is still in it at the tick, and overruns
(R27). -/
def Dev.micro (s : Dev) (e : Nat) (x : Ins) (hi : W) (f : Fetch) : Dev :=
  let g := s.eng e
  match g.mid, g.u with
  | true, some c => s.resume e x hi f c
  | _, _ =>
    let r := s.uctx e
    microRun e x hi (doubleAt f) (f.upto.getD (s.flen / 2))
      { s := r.2, c := { r.1 with addr := if g.uchunk ≠ 0 then g.rsta.toNat else x.op }, pos := f.pos.toNat, since := 0 }

end Sys2Proof.Machine
end

