-- ==== Sys2Proof/Machine/Segments.lean ====
section
/-! DEFINITION. Segment descriptors of the players (R144-R148). -/

namespace Sys2Proof.Machine

/-- Template width of a player (PLY.CFG): the field reads 0 while EN = 0. -/
def Dev.width (s : Dev) (y : Nat) : Nat := if s.bit (aPly y 0) 31 then s.fld (aPly y 0) 6 0 + 1 else 1

/-- Bytes of one vector row: 6 for each group of 16 pins (R143). -/
def rowBytes (w : Nat) : Nat := 6 * ((w + 15) / 16)

/-- Capacity of the powered cistern in bytes (R160). -/
def Dev.cisBytes (s : Dev) : Nat := s.pwr.groups * 2 ^ 23

/-- The descriptor of a segment id in a player's table (R144, R145). -/
def Dev.descOf (s : Dev) (y id : Nat) : Placed :=
  let a := aCis (64 * s.fld (aPly y 0x14) 20 0 + 16 * id)
  { seg := BitVec.ofNat 16 id, d0 := s.word a, d1 := s.word (a + 4), d2 := s.word (a + 8), d3 := s.word (a + 12) }

/-- The id lies in the player's table (R148 check 1). -/
def Dev.segIn (s : Dev) (y id : Nat) : Bool := id < s.fld (aPly y 0x18) 15 0 && id != 0xFFFF

/-! Fields of a descriptor (R145). -/
def Placed.valid (p : Placed) : Bool := p.d0.bit 31
def Placed.strm (p : Placed) : Bool := p.d0.bit 30
def Placed.mmask (p : Placed) : Nat := p.d0.fld 29 26
def Placed.ts (p : Placed) : Nat := p.d0.fld 25 20
def Placed.blocks (p : Placed) : Nat := p.d0.fld 13 0 + 1
def Placed.start (p : Placed) : Nat := p.d1.fld 20 0
def Placed.rep (p : Placed) : Nat := p.d2.fld 31 16
def Placed.link (p : Placed) : Nat := p.d2.fld 15 0
def Placed.linkEn (p : Placed) : Bool := p.d3.bit 31
def Placed.width (p : Placed) : Nat := p.d3.fld 6 0 + 1

/-- Vectors of one pass. -/
def Placed.len (p : Placed) : Nat := 64 * p.blocks

/-- Block stride of a resident segment in bytes (R146). -/
def Placed.stride (p : Placed) : Nat := 64 * rowBytes p.width + (if p.mmask = 0 then 0 else 64)

/-- Last pass index of a segment; `none` repeats without end (R145 REP). -/
def Placed.lastPass (p : Placed) : Option Nat := if p.rep = 65535 then none else some p.rep

/-- The reserved bits are 0 (R145). -/
def Placed.clean (p : Placed) : Bool := p.d0.fld 19 14 = 0 && p.d1.fld 31 21 = 0 && p.d3.fld 30 7 = 0

/-- The site's current player, or its home player where it is in no mask. -/
def Dev.streamOf (s : Dev) (i : Nat) : Nat := (s.playerOf i).getD (s.homeOf i)

/-- The named descriptor is valid and streamed (R423). -/
def Dev.namesStream (s : Dev) (y id : Nat) : Bool :=
  s.segIn y id && (s.descOf y id).valid && (s.descOf y id).strm

end Sys2Proof.Machine
end

