-- ==== Sys2Proof/Machine/Instr.lean ====
section
/-! DEFINITION. How an engine carries out one instruction (R79, R85, R87, R118): the fetch and its checks,
then the instruction's own effect. Where several conditions of R87 hold, the first in the order the
meaning lists them raises (log 14). -/

namespace Sys2Proof.Machine

/-- The first condition that holds raises its fault; with none, the instruction has its effect (R87). -/
def Dev.check (s : Dev) (e : Nat) (bad : List (Bool × Nat)) (ok : Dev) : Dev :=
  match bad.find? (·.1) with
  | some c => s.trap e c.2
  | none => ok

/-- The words that issue in a row reach the n-th word of a routine; `none` runs the routine to its end (R132). -/
def issues (words : Option Nat) (n : Nat) : Bool :=
  match words with
  | none => true
  | some k => n ≤ k

/-- Words of a ROM routine that issue before the one at an address: for the second chunks of STEP and HALT the three
before it; before any other word of a ROM routine nothing has committed (R130, R139, R420). -/
def wordsBefore (a : Nat) : Nat := if a = 0x1A4A || a = 0x1A4B || a = 0x1A5A then 3 else 0

/-- The words of a ROM routine that issue in a row: up to where it is cut, or to a word with a double-bit error. -/
def wordsOf (f : Fetch) : Option Nat :=
  match doubleAt f with
  | some a => some (match f.upto with | some n => min n (wordsBefore a) | none => wordsBefore a)
  | none => f.upto

/-- A ROM word with a double-bit error does not issue (R118). -/
def Dev.romDouble (s : Dev) (k : Nat) (f : Fetch) : Dev :=
  match doubleAt f with
  | some a => s.ucodeDouble k a
  | none => s

/-- One instruction of an engine. An event of another opcode than the one at PC, or for an engine that
does not execute, changes nothing (log 1). A routine that stands between two of its words goes on: its instruction
has been fetched (R115, R132). -/
def Dev.instr (s : Dev) (e : Nat) (f : Fetch) (op : Nat → Bool) (body : Option Nat → Dev → Ins → Dev) : Dev :=
  if !s.executing e then s
  else if f.pgm = .uncorrectable && !(s.eng e).mid then s.trap e srcPgmEcc
  else
    let x := s.insAt e
    if !op x.op then s
    else
      let k := clusterOf e
      let s := if f.pgm = .corrected && !(s.eng e).mid then s.note 132 else s
      let s := forL (singlesOf f) (fun a s => (s.logUcode1 k a).note 192) s
      if (s.eng e).mid || s.altered x.op then s.micro e x (s.word (aPgm k (8 * s.pc e + 4))) f
      else (body (wordsOf f) s x).romDouble k f

/-- One instruction of a fixed opcode, whose routine has one commit word: cut before it, it has no effect (R139). -/
def Dev.instrOp (s : Dev) (e : Nat) (f : Fetch) (o : Nat) (body : Dev → Ins → Dev) : Dev :=
  s.instr e f (fun n => n = o) (fun n s x => if n.isNone then body s x else s)

/-- One instruction that acts for the engine's site and may be cut between its chunks. -/
def Dev.instrCut (s : Dev) (e : Nat) (f : Fetch) (o : Nat) (body : Option Nat → Dev → Ins → Nat → Dev) : Dev :=
  s.instr e f (fun n => n = o) (fun n s x =>
    match s.siteOf e with
    | some i => body n s x i
    | none => s)

/-- One instruction that acts for the engine's site. -/
def Dev.instrSite (s : Dev) (e : Nat) (f : Fetch) (o : Nat) (body : Dev → Ins → Nat → Dev) : Dev :=
  s.instrOp e f o (fun s x =>
    match s.siteOf e with
    | some i => body s x i
    | none => s)

/-- A staged write with the checks of its instruction (R26, R84, R87): bad fields, range, room in the
queue, mode. -/
def Dev.stageIns (s : Dev) (e : Nat) (ill param modeIll : Bool) (op : EngOp) : Dev :=
  s.check e [(ill, srcIllOp), (param, srcParam), (s.stageFull e, srcStageOvf), (modeIll, srcModeIll)]
    ((s.stageOp e op).retire e)

/-- The step the program may end another of has ended in this frame: the engine yields first (R99). -/
def Dev.stepped (s : Dev) (e : Nat) : Bool := s.flag e 13

/-- A ROM routine's chunk 0 has committed and the next has not begun (R139, R420). -/
def Eng.chunkDone (g : Eng) (next : Nat) : Eng := { g with uchunk := 1, rsta := BitVec.ofNat 15 next, wdog := 0 }

/-- Begin to wait in chunks, one for each frame (R139): the next release finds the wait under way. -/
def Eng.chunk (g : Eng) (n : Nat) : Eng := { g with uchunk := 1, wdog := 0, phase := .yielded n }

end Sys2Proof.Machine
end

