-- ==== Sys2Proof/Machine/Arith.lean ====
section
/-! DEFINITION. Arithmetic instructions (R85): MOVI, the operations on A and S, CMP and FCMP. -/

namespace Sys2Proof.Machine

/-- S: the register named by B, or the immediate (R85). -/
def Dev.second (s : Dev) (e : Nat) (x : Ins) : W := if x.flag 0 then x.imm else s.reg e x.b

/-- A or S name a register they may not; `wr` says whether A is written (R81). -/
def aluBad (x : Ins) (wr : Bool) : Bool :=
  x.mbz || !regOk x.a || (wr && !regRw x.a) || (!x.flag 0 && !regOk x.b)

/-- An operation that writes A and its flags. -/
def doAlu (op : W → W → AluOut) (e : Nat) (s : Dev) (x : Ins) : Dev :=
  let r := op (s.reg e x.a) (s.second e x)
  s.check e [(aluBad x true, srcIllOp)] (((s.setReg e x.a r.value).putFlags e r.flags).retire e)

/-- An operation that only sets flags. -/
def doTest (op : W → W → AluOut) (e : Nat) (s : Dev) (x : Ins) : Dev :=
  s.check e [(aluBad x false, srcIllOp)] ((s.putFlags e (op (s.reg e x.a) (s.second e x)).flags).retire e)

/-- SHR takes flag bit 1 as arithmetic. -/
def doShr (e : Nat) (s : Dev) (x : Ins) : Dev := doAlu (aluShr (x.flag 1)) e s x

/-- MOVI, four forms; no flags (R85). -/
def doMovi (scrBad : Bool) (e : Nat) (s : Dev) (x : Ins) : Dev :=
  let at_ := (s.reg e x.b + x.imm).toNat
  match x.fl % 4 with
  | 0 => s.check e [(x.mbz || !regRw x.a || x.b != 0, srcIllOp)] ((s.setReg e x.a x.imm).retire e)
  | 1 => s.check e [(x.mbz || !regRw x.a || !regOk x.b, srcIllOp)] ((s.setReg e x.a (s.reg e x.b + x.imm)).retire e)
  | 2 => s.check e [(x.mbz || !regRw x.a || !regOk x.b, srcIllOp), (scrBad, 133)]
           ((s.setReg e x.a (s.scrWord e at_)).retire e)
  | _ => s.check e [(x.mbz || !regOk x.a || !regOk x.b, srcIllOp)] ((s.setScrWord e at_ (s.reg e x.a)).retire e)

def execMovi (e : Fin 272) (f : Fetch) (s : State) : Host.Outcome State Fault Refusal :=
  s.run (fun s => s.instrOp e f 0x10 (doMovi f.scr e))
def execAdd (e : Fin 272) (f : Fetch) (s : State) : Host.Outcome State Fault Refusal :=
  s.run (fun s => s.instrOp e f 0x11 (doAlu aluAdd e))
def execSub (e : Fin 272) (f : Fetch) (s : State) : Host.Outcome State Fault Refusal :=
  s.run (fun s => s.instrOp e f 0x12 (doAlu aluSub e))
def execAnd (e : Fin 272) (f : Fetch) (s : State) : Host.Outcome State Fault Refusal :=
  s.run (fun s => s.instrOp e f 0x13 (doAlu (fun a b => aluLogic (a &&& b)) e))
def execOr (e : Fin 272) (f : Fetch) (s : State) : Host.Outcome State Fault Refusal :=
  s.run (fun s => s.instrOp e f 0x14 (doAlu (fun a b => aluLogic (a ||| b)) e))
def execXor (e : Fin 272) (f : Fetch) (s : State) : Host.Outcome State Fault Refusal :=
  s.run (fun s => s.instrOp e f 0x15 (doAlu (fun a b => aluLogic (a ^^^ b)) e))
def execShl (e : Fin 272) (f : Fetch) (s : State) : Host.Outcome State Fault Refusal :=
  s.run (fun s => s.instrOp e f 0x16 (doAlu aluShl e))
def execShr (e : Fin 272) (f : Fetch) (s : State) : Host.Outcome State Fault Refusal :=
  s.run (fun s => s.instrOp e f 0x17 (doShr e))
def execCmp (e : Fin 272) (f : Fetch) (s : State) : Host.Outcome State Fault Refusal :=
  s.run (fun s => s.instrOp e f 0x18 (doTest aluSub e))
def execFcmp (e : Fin 272) (f : Fetch) (s : State) : Host.Outcome State Fault Refusal :=
  s.run (fun s => s.instrOp e f 0x19 (doTest aluFcmp e))

end Sys2Proof.Machine
end

