-- ==== Sys2Proof/Machine/Cistern.lean ====
section
/-! DEFINITION. The cistern: errors, scrub, spare banks (R160-R164), and the rings with their records
(R166-R172). -/

namespace Sys2Proof.Machine

/-! ### Errors (R162, R164) -/

/-- Bank of a cistern byte offset (R160). -/
def Dev.bankOf (s : Dev) (a : Nat) : Nat := a / 256 % (4 * max 4 s.pwr.groups)

/-- The raise of BANK_WEAK, whose repair replaces the bank (R164). -/
def Dev.weakRaise (_ : Dev) (b : Nat) : Raise := { f := 130, lvl := 1, sites := [], unit := b, forced := false }

/-- BANK_WEAK with the replacement of the bank (R164). -/
def Dev.bankWeak (s : Dev) (b : Nat) : Dev := s.raise (s.weakRaise b)

/-- A corrected word at a byte offset: CIS_ECC1, the log, and BANK_WEAK at the sixteenth within 2^20
frames (R162, R164). -/
def Dev.cisCorrected (s : Dev) (a : Nat) : Dev :=
  let b := s.bankOf a
  let old := (s.cis.ecc1.get (fun _ => []) b).filter (fun f => (s.clk.frame + 2 ^ 48 - f) % 2 ^ 48 < 2 ^ 20)
  let now := (s.clk.frame :: old).take 16
  let s := s.incSat (aCisReg 0x20) 31 24
  let s := s.setFld (aCisReg 0x20) 22 0 (a / 16)
  let s := { s with cis := { s.cis with ecc1 := s.cis.ecc1.set (fun _ => []) b now } }
  s.raises (raiseOf 128 0 :: (if 16 ≤ now.length then [s.weakRaise b] else []))

/-- A bank copy left a word of a byte range poisoned: a read of it is a double-bit error (R164). -/
def Dev.poisoned (s : Dev) (a n : Nat) : Bool := s.cis.poison.any (fun w => a < 16 * w + 16 && 16 * w < a + n)

/-- Words of a byte range written with fresh ECC (R162). -/
def Dev.cisFresh (s : Dev) (a n : Nat) : Dev :=
  { s with cis := { s.cis with poison := s.cis.poison.filter (fun w => !(a < 16 * w + 16 && 16 * w < a + n)) } }

/-- The record of a double-bit word in ECC2_LOG (R162, R164). -/
def Dev.cisLog2 (s : Dev) (a : Nat) : Dev :=
  let w := a / 16
  s.wr (aCisReg 0x24) (wn (2 ^ 31 + 2 ^ 30 * b2n (s.cis.poison.contains w) + w))

/-- Record of a double-bit word, and BANK_WEAK of its bank (R162, R164). -/
def Dev.cisBad (s : Dev) (a : Nat) : Dev := (s.cisLog2 a).bankWeak (s.bankOf a)

/-- A double-bit error on a host read: CIS_ECC2 at NOTE, in one instant with BANK_WEAK (R162, R164, R291). -/
def Dev.cisHostBad (s : Dev) (a : Nat) : Dev := (s.cisLog2 a).raises [raiseOf 129 0, s.weakRaise (s.bankOf a)]

/-- SCRUB_STEP: one word read and corrected, in address order; a finished pass counts (R163). -/
def Dev.scrubStep (s : Dev) (c : Ecc) : Dev :=
  if !s.bit (aCisReg 0x28) 31 || s.cisBytes = 0 then s
  else
    let a := 16 * s.cis.scrub
    let s := match c with
      | .clean => s
      | .corrected => s.cisCorrected a
      | .uncorrectable => s.cisBad a
    if s.cisBytes ≤ 16 * (s.cis.scrub + 1) then
      { s.incSat (aCisReg 0x28) 15 0 with cis := { s.cis with scrub := 0 } }
    else { s with cis := { s.cis with scrub := s.cis.scrub + 1 } }

def execScrubStep (c : Ecc) (s : State) : Host.Outcome State Fault Refusal := s.run (fun s => s.scrubStep c)

/-- BANK_COPY_DONE: the copy of spare n is complete, the bank's words that had a double-bit error poisoned in
it; access moves at the next tick (R164). -/
def Dev.copyDone (s : Dev) (n : Nat) (bad : List (BitVec 23)) : Dev :=
  let x := s.spareBank n
  if x.copying then
    let ws := (bad.map (·.toNat)).filter (fun w => s.bankOf (16 * w) = x.bank)
    let s := s.setSpareBank n { x with copied := true }
    { s with cis := { s.cis with poison := ws.foldl (fun l w => insAsc w l) s.cis.poison } }
  else s

def execBankCopyDone (n : Fin 4) (bad : List (BitVec 23)) (s : State) : Host.Outcome State Fault Refusal :=
  s.run (fun s => s.copyDone n bad)

/-! ### Rings (R166, R168, R172) -/

/-- SLOTS in force: values below 16 act as 16. -/
def Dev.ringSlots (s : Dev) (y : Nat) : Nat := max 16 (s.fld (aPly y 0x24) 19 0)

/-- Difference of two 24-bit counts. -/
def dist24 (a b : Nat) : Nat := (a + 2 ^ 24 - b % 2 ^ 24) % 2 ^ 24

/-- FILL - DRAIN. -/
def Ply.level (p : Ply) : Nat := dist24 p.fill p.drain

/-- Slot size in bytes (R166). -/
def Dev.slotBytes (s : Dev) (y : Nat) : Nat := 64 * rowBytes (s.width y) + 64

/-- Cistern offset of the slot of a SEQ (R168). -/
def Dev.slotAt (s : Dev) (y seq : Nat) : Nat :=
  64 * s.fld (aPly y 0x20) 20 0 + seq % s.ringSlots y * s.slotBytes y

/-- The level has changed: a fall from LWM or above to below it notifies once (R172). -/
def Dev.lwmCheck (s : Dev) (y : Nat) : Dev :=
  let m := s.fld (aPly y 0x28) 23 0
  let p := s.ply y
  if m = 0 then s
  else if m ≤ p.level then s.setPly y { p with lwm := true }
  else if p.lwm then (s.setPly y { p with lwm := false }).notify (s.ntfyNow 2 y (wn p.level)) false
  else s

/-- Empty pointers and discard counts (R166); the level falls to 0, which may cross the low-water mark (R172). -/
def Dev.ringClear (s : Dev) (y : Nat) (r : RingState) : Dev :=
  ((s.onPly y (fun p => { p with ring := r, fill := 0, drain := 0, claim := 0, ahead := [], tags := [] })).wr (aPly y 0x34) 0).lwmCheck y

/-- Passes of the current segment that remain after the one in play; `none` for passes without end. -/
def Ply.remaining (p : Ply) (u : PUnit) : Option Nat :=
  match p.limit, u.seg.lastPass with
  | some l, some r => some (min l r - u.pass)
  | some l, none => some (l - u.pass)
  | none, some r => some (r - u.pass)
  | none, none => none

/-- The segment in the next slot, where its unit is the one fixed next: no pass of the current segment remains, and a
pause does not cut it off (R153, R157). -/
def Ply.fixedNext (p : Ply) : Option Placed :=
  match p.cur with
  | some u => if p.fixed && p.remaining u = some 0 && p.pause ≠ some 0 then p.next else none
  | none => none

/-- A streamed unit is current or fixed next (R166). -/
def Ply.streaming (p : Ply) : Bool :=
  (match p.cur with | some u => u.seg.strm | none => false) ||
    (match p.fixedNext with | some n => n.strm | none => false)

/-- STATUS.WR_REJ of a player. -/
def Dev.plyRej (s : Dev) (y : Nat) : Dev := s.setBits (aPly y 4) 0x01000000

/-- RING_CTRL.RESET (R166). -/
def Dev.ringReset (s : Dev) (y : Nat) : Dev :=
  let p := s.ply y
  if p.streaming then s.plyRej y
  else s.ringClear y (if p.ring = .off then .off else .filling)

/-- RING_CTRL.ARM (R166). -/
def Dev.ringArm (s : Dev) (y : Nat) : Dev :=
  match (s.ply y).ring with
  | .filling => s.onPly y (fun p => { p with ring := .run })
  | .run => s
  | _ => s.plyRej y

/-- A write of LWM notifies nothing of its own and rearms the crossing rule (R172). -/
def Dev.ringLwm (s : Dev) (y v : Nat) : Dev :=
  let s := s.setFld (aPly y 0x28) 23 0 v
  s.onPly y (fun p => { p with lwm := decide (v % 2 ^ 24 ≤ p.level) })

/-- FILL advances over every slot whose record has arrived, in unbroken sequence (R168). -/
def fillUp : Nat → Nat → List Nat → Nat × List Nat
  | 0, f, l => (f, l)
  | n + 1, f, l => if l.contains f then fillUp n ((f + 1) % 2 ^ 24) (rmv f l) else (f, l)

/-- A record placed in its slot: rows and marker record, its tags, FILL (R168). -/
def Dev.placeRecord (s : Dev) (y : Nat) (r : Record) : Dev :=
  let seq := r.seq.toNat
  let s := s.setBytes (aCis (s.slotAt y seq)) (r.data.take (s.slotBytes y))
  let s := s.cisFresh (s.slotAt y seq) (min r.data.length (s.slotBytes y))
  let p := s.ply y
  let t := p.tags.set (fun _ => (0, 0)) (seq % s.ringSlots y) (r.seg.toNat, r.blk.toNat)
  let g := fillUp (p.ahead.length + 1) p.fill (insAsc seq p.ahead)
  (s.setPly y { p with tags := t, fill := g.1, ahead := g.2 }).lwmCheck y

/-- A record arrives: placed inside the window, discarded and counted otherwise (R168). In SAFE the flume has stopped
(R67): nothing is placed, and nothing counted, DESIGN CHOICE (log 15). -/
def Dev.streamRecord (s : Dev) (l : Nat) (r : Record) : Dev :=
  let y := r.player.val
  let s := s.received (.link (Fin.ofNat 4 l)) (1 + (r.data.length + 63) / 64)
  let p := s.ply y
  if s.sys.mode = .safe then s
  else if p.ring = .halted then s.incSat (aPly y 0x34) 15 0
  else if p.ring = .off then s.incSat (aPly y 0x34) 31 16
  else if dist24 r.seq.toNat p.fill < s.ringSlots y - p.level then s.placeRecord y r
  else s.incSat (aPly y 0x34) 31 16

def execStreamRecord (l : Fin 4) (r : Record) (s : State) : Host.Outcome State Fault Refusal :=
  s.run (fun s => s.streamRecord l r)

end Sys2Proof.Machine
end

