-- ==== Sys2Proof/Machine/Drive.lean ====
section
/-! DEFINITION. Drivers: the events of a vector, and what a pin's driver does at an instant (R156, R177-R181). -/

namespace Sys2Proof.Machine

/-- An SCLK of the frame as an instant, in 1/256 SCLK of device time. -/
def Dev.instant (s : Dev) (pos : Nat) : Int := ((512 * s.clk.eclk + 256 * pos : Nat) : Int)

/-- DESKEW of a pin, signed, in 1/256 SCLK (R179). -/
def Dev.deskew (s : Dev) (p : Nat) : Int :=
  let x := s.fld (aPin p 0x5C) 11 0
  if x < 2048 then (x : Int) else (x : Int) - 4096

/-- What a dwell state does to the driver: D0 and D1 drive, the others turn it off (R140, R156). -/
def Site.dwellDrive (x : Site) (t : Nat) : Option Bool :=
  match x.dwell.get (fun _ => 0) t with
  | 0 => some false
  | 1 => some true
  | _ => none

/-- The drive events of a state in a vector (R178): by format, from the vector's start and the instants of E0 and E1.
The driver turns on and off at E0 alone; E1 placed before it acts first. -/
def driveEvents (fmt code : Nat) (start e0 e1 : Int) : List DrvEv :=
  if 2 ≤ code then [⟨e0, .off⟩]
  else
    let d := decide (code = 1)
    match fmt with
    | 0 => [⟨e0, .on d⟩]
    | 1 => if d then [⟨e0, .on true⟩, ⟨e1, .level false⟩] else [⟨e0, .on false⟩]
    | 2 => if d then [⟨e0, .on true⟩] else [⟨e0, .on false⟩, ⟨e1, .level true⟩]
    | _ => [⟨start, .level !d⟩, ⟨e0, .on d⟩, ⟨e1, .level !d⟩]

/-- What an event leaves the driver at. -/
def DrvAct.apply : DrvAct → Option Bool → Option Bool
  | .on v, _ => some v
  | .off, _ => none
  | .level v, d => d.map (fun _ => v)

/-- An event takes its place: by position, after those of the same position that came before it. -/
def addEvent (x : DrvEv) : List DrvEv → List DrvEv
  | [] => [x]
  | y :: r => if x.inst < y.inst then x :: y :: r else y :: addEvent x r

/-- The circuit once every event up to an instant has acted. -/
def Circ.driveTo (x : Circ) (t : Int) : Circ :=
  { x with drv := (x.evs.filter (fun v => v.inst ≤ t)).foldl (fun d v => v.act.apply d) x.drv,
           evs := x.evs.filter (fun v => t < v.inst) }

/-- A vector's events join those that wait: from dwell the driver starts as the dwell state left it. No event of a
vector lies more than 2,048 steps before its start, so the ones before that are over. -/
def Circ.play (start : Int) (base : Option (Option Bool)) (l : List DrvEv) (x : Circ) : Circ :=
  let x := match base with
    | some d => { x with drv := d, evs := [] }
    | none => x.driveTo (start - 2048)
  { x with evs := l.foldl (fun r v => addEvent v r) x.evs }

/-- What a pin's circuit puts on the pin: nothing, the termination to VTT, or a level (VIH for true). -/
inductive Drive where
  | open_ | vtt | level (high : Bool)
  deriving DecidableEq, Repr

/-- The drive of a pin at an instant: none without a circuit in service (R175), in a mode without drivers (R50) and
under FV/MI, FI/MV and DPS (R181); else its dwell state or what its events left; with the driver off, CFG.TERM says
whether it is terminated (R178). -/
def Dev.driveAt (s : Dev) (p : Nat) (t : Int) : Drive :=
  let x := s.circ (s.circOf p)
  if x.st ≠ .inService || !s.sys.mode.enables 3 || s.pmuDrives p then .open_
  else
    let d := match s.siteOfPin p with
      | some i =>
        if (s.site i).last.get (fun _ => 8) (s.tpinOf p) = 8 then (s.site i).dwellDrive (s.tpinOf p) else (x.driveTo t).drv
      | none => none
    match d with
    | some v => .level v
    | none => if s.bit (aPin p 0) 2 then .open_ else .vtt

end Sys2Proof.Machine
end

