-- ==== Sys2Proof/Machine/Players.lean ====
section
/-! DEFINITION. Pattern players: placing segments, claims, under-runs, units, vectors, jumps and moves
(R140-R142, R146-R159, R169, R170). -/

namespace Sys2Proof.Machine

/-! ### Placing (R148) -/

/-- Vector period of a timing set (R150). -/
def Dev.periodOf (s : Dev) (ts : Nat) : Nat := s.fld (aTs ts) 15 0 + 1

/-- Numerator and denominator of a player's demand in bytes per SCLK: the larger of its unit in play and
the segment placed next (R148 check 6, log 15). -/
def Dev.demandOf (s : Dev) (p : Ply) : Nat × Nat :=
  let d (g : Placed) (k : Nat) : Nat × Nat := (rowBytes g.width, k)
  let big (a b : Nat × Nat) := if a.1 * b.2 < b.1 * a.2 then b else a
  big (match p.cur with | some u => d u.seg u.k | none => (0, 1))
      (match p.next with | some n => d n (s.periodOf n.ts) | none => (0, 1))

/-- The demand of every player, with player y's next slot holding g, stays within 384 bytes per SCLK. -/
def Dev.demandOk (s : Dev) (y : Nat) (g : Placed) : Bool :=
  let all := (List.range 16).map (fun k =>
    s.demandOf (if k = y then { s.ply k with next := some g } else s.ply k))
  let t := all.foldl (fun a b => (a.1 * b.2 + b.1 * a.2, a.2 * b.2)) (0, 1)
  t.1 ≤ 384 * t.2

/-- The checks of R148 on a descriptor that is about to be placed. -/
def Dev.placeOk (s : Dev) (y : Nat) (g : Placed) : Bool :=
  s.segIn y g.seg.toNat && g.valid && g.clean && g.width = s.width y &&
    (if g.strm then g.rep = 0 && s.bit (aPly y 0) 30 && s.sys.mode ≠ .stress
     else 64 * g.start + g.blocks * g.stride ≤ s.cisBytes) &&
    (s.pwr.groups ≠ 4 || s.demandOk y g)

/-- A PLY fault of level VOID against every site of a player's mask, with its STATUS bit. -/
def Dev.plyFault (s : Dev) (y f bit : Nat) : Dev :=
  (s.setBits (aPly y 4) (wn (2 ^ bit))).raise (raiseAt f 2 (s.mask y))

/-- BAD_SEG (R148). -/
def Dev.badSeg (s : Dev) (y : Nat) : Dev := s.plyFault y 257 29

/-! ### Dwell (R156, R157) -/

/-- The pins of a player's mask hold their dwell states: a KEEP then repeats dwell (R142). -/
def Dev.holdDwell (s : Dev) (y : Nat) : Dev :=
  forL (s.mask y) (fun i s => s.onSite i (fun x => { x with last := [] })) s

/-- A player enters dwell: claimed blocks are consumed (R168), the next slot empties. -/
def Ply.dwellNow (p : Ply) : Ply :=
  { p with st := .dwell, cur := none, next := none, nextGot := 0, limit := none, fixed := false, pause := none,
           tail := false, drain := p.claim }

def Dev.restDwell (s : Dev) (y : Nat) : Dev := (s.onPly y Ply.dwellNow).lwmCheck y

def Dev.enterDwell (s : Dev) (y : Nat) : Dev := (s.holdDwell y).restDwell y

/-- A player is cut to dwell, with no jump left waiting (R157). -/
def Dev.cutDwell (s : Dev) (y : Nat) : Dev :=
  if (s.ply y).st = .disabled then s else (s.enterDwell y).onPly y (fun p => { p with late := none })

/-! ### Claims (R169, R170) -/

/-- A claim fails: the ring halts, the event is recorded, pending jumps and the next slot clear, and the
mask is noted for the voids (R170 steps 1 and 4; R169 for a tag mismatch). -/
def Dev.claimFail (s : Dev) (y : Nat) (mismatch : Bool) (seg blk : Nat) : Dev :=
  let p := s.ply y
  let s := s.setBits (aPly y 4) (wn (2 ^ (if mismatch then 27 else 31)))
  let s := if mismatch then s else s.note 256
  let s := s.wr (aPly y 0x38) (match p.cur with | some u => u.seg.seg.setWidth 32 | none => 0xFFFF)
  let s := s.wr (aPly y 0x3C) (wn (blk * 65536 + seg))
  s.setPly y { p with ring := .halted, late := none, tail := true, under := p.under || !mismatch,
                      urMask := if mismatch then p.urMask else s.mask y,
                      next := if p.nextGot = 0 then none else p.next }

/-- Claim the block at the next SEQ for a segment; the flag tells whether it succeeded. -/
def Dev.claimOne (s : Dev) (y seg blk : Nat) : Dev × Bool :=
  let p := s.ply y
  if p.level ≤ dist24 p.claim p.drain then (s.claimFail y false seg blk, false)
  else if p.tags.get (fun _ => (0, 0)) (p.claim % s.ringSlots y) ≠ (seg, blk) then
    let s := s.claimFail y true seg blk
    (s.raise (raiseAt 259 2 (s.mask y)), false)
  else (s.setPly y { p with claim := (p.claim + 1) % 2 ^ 24 }, true)

/-- Claim blocks of the current unit until `n` are claimed. -/
def Dev.claimCur (s : Dev) (y : Nat) : Nat → Dev
  | 0 => s
  | n + 1 =>
    let s := s.claimCur y n
    match (s.ply y).cur with
    | some u =>
      if n < u.got || (s.ply y).tail || u.got ≠ n then s
      else
        let r := s.claimOne y u.seg.seg.toNat n
        if r.2 then r.1.onPly y (fun p => { p with cur := p.cur.map (fun u => { u with got := n + 1 }) }) else r.1
    | none => s

/-- Claim blocks of the segment in the next slot until `n` are claimed. -/
def Dev.claimNext (s : Dev) (y : Nat) : Nat → Dev
  | 0 => s
  | n + 1 =>
    let s := s.claimNext y n
    let p := s.ply y
    match p.next with
    | some g =>
      if n < p.nextGot || p.tail || p.nextGot ≠ n then s
      else
        let r := s.claimOne y g.seg.toNat n
        if r.2 then r.1.onPly y (fun p => { p with nextGot := n + 1 }) else r.1
    | none => s

/-! ### Units (R147, R150, R152) -/

/-- Vectors the unit in play has: after a failed claim a streamed unit ends at its last claimed block. -/
def Ply.curLen (p : Ply) (u : PUnit) : Nat := if p.tail && u.seg.strm then 64 * u.got else u.seg.len

/-- RV: vectors of the unit in play that have not begun (R153). -/
def Ply.rv (p : Ply) : Nat := match p.cur with | some u => p.curLen u - u.begun | none => 0

/-- A segment is placed in the next slot by its LINK when it begins and the slot is empty (R152); under a pause the
last unit's LINK is not followed (R157). -/
def Dev.takeLink (s : Dev) (y : Nat) (g : Placed) : Dev :=
  let p := s.ply y
  if g.linkEn && p.next.isNone && !p.tail && p.pause ≠ some 0 then
    let t := s.descOf y g.link
    if s.placeOk y t then s.setPly y { p with next := some t, nextGot := 0 } else s.badSeg y
  else s

/-- The EDGE cards of a timing set, of every pin, as a unit that begins latches them (R150, R179). -/
def Dev.edgesOf (s : Dev) (ts : Nat) : Tab W :=
  s.regs.filter (fun x => match locOf x.1 with
    | .ch _ o => 0x400 + 16 * ts ≤ o && o < 0x410 + 16 * ts
    | _ => false)

/-- A segment begins its first pass; a jump that waited behind it replaces what follows its first unit
(R152, R155). -/
def Dev.startSeg (s : Dev) (y : Nat) (g : Placed) (got : Nat) : Dev :=
  let k := s.periodOf g.ts
  let s := s.onPly y (fun p =>
    { p with st := .playing, cur := some { seg := g, pass := 0, begun := 0, k := k, got := got, edges := s.edgesOf g.ts }, fixed := false,
             next := p.late, nextGot := 0, late := none, limit := p.late.map (fun _ => 0) })
  s.takeLink y g

/-- The next pass of the segment in play begins. -/
def Dev.nextPass (s : Dev) (y : Nat) (u : PUnit) : Dev :=
  let k := s.periodOf u.seg.ts
  s.onPly y (fun p => { p with cur := some { u with pass := u.pass + 1, begun := 0, k := k, edges := s.edgesOf u.seg.ts }, fixed := false })

/-- POS of edge n of a pin as the unit in play latched it. -/
def PUnit.rawEdge (u : Machine.PUnit) (p n : Nat) : Nat :=
  (u.edges.get (fun _ => 0) (aPin p (0x400 + 16 * u.seg.ts + 4 * n))).fld 23 0

/-- Where edge n of a pin acts in the period: one past it acts at its last step (R179). -/
def PUnit.edge (u : Machine.PUnit) (p n : Nat) : Nat := min (u.rawEdge p n) (256 * u.k - 1)

/-- An edge that lies past the period of a unit that begins is clamped, on the circuits of the mask's pins
(R179). -/
def Dev.edgeClamp (s : Dev) (y : Nat) : Dev :=
  match (s.ply y).cur with
  | none => s
  | some u =>
    if u.begun ≠ 0 then s
    else
      forL (s.mask y) (fun i s => forL (s.pins i) (fun p s =>
        if (List.range 4).any (fun n => 256 * u.k ≤ u.rawEdge p n) then
          let c := s.circOf p
          s.setBits (aCh c 4) 8
        else s) s) s

/-- What follows a unit that ends (R152, R155, R157, R170). -/
def Dev.unitEnd (s : Dev) (y : Nat) (pos : Nat) : Dev :=
  let rest (s : Dev) : Dev := if pos = 0 then s.restDwell y else s.enterDwell y
  let p := s.ply y
  match p.cur with
  | none => s
  | some u =>
    if p.st ≠ .playing || u.begun < p.curLen u then s
    else if p.tail then
      match p.next with
      | some g => if p.nextGot = 0 then rest s else (s.onPly y (fun p => { p with next := none })).startSeg y g p.nextGot
      | none => rest s
    else if p.pause = some 0 then s.cutDwell y
    else
      let s := s.onPly y (fun p => { p with pause := p.pause.map (· - 1) })
      match p.remaining u, p.next with
      | some 0, some g => s.startSeg y g p.nextGot
      | some 0, none => rest s
      | _, _ => s.nextPass y u

/-- UNIT_END of player y at an SCLK of the frame. A unit that ends exactly at SCLK 0 of a tick is sent before that
FRAME_TICK, with position 0: the player is in dwell at the tick, and a move at it follows without a dwell
vector (R153). -/
def execUnitEnd (y : Fin 16) (pos : Pos) (s : State) : Host.Outcome State Fault Refusal :=
  s.run (fun s =>
    let s := s.unitEnd y pos.toNat
    if pos.toNat = 0 then s else s.edgeClamp y)

/-! ### Vectors (R140-R143, R146, R149, R151, R162) -/

/-- Claims due as vector v of the unit in play begins, at a position in the frame: the blocks 96 vectors ahead, in the unit
in play and in the one that follows it. Blocks of a segment that no tick has fixed yet wait for the tick that does, unless
the unit in play ends before it; a unit shorter than 96 vectors then claims as it begins. Any block that is reached
unclaimed is claimed then (R169, log 16). -/
def Dev.vectorClaims (s : Dev) (y pos : Nat) (u : PUnit) (v : Nat) : Dev :=
  let s :=
    if u.seg.strm then
      s.claimCur y (min u.seg.blocks (if (v + 96) % 64 = 0 then (v + 96) / 64 + 1 else v / 64 + 1))
    else s
  let p := s.ply y
  match p.next, p.remaining u with
  | some g, some 0 =>
    let d := u.seg.len - v
    if g.strm && p.pause ≠ some 0 && d ≤ 96 && (p.fixed || pos + d * u.k ≤ s.flen) && ((96 - d) % 64 = 0 || v = 0) then
      s.claimNext y (min g.blocks ((96 - d) / 64 + 1))
    else s
  | _, _ => s

/-- Cistern offset of block b of the unit in play (R146, R168). -/
def Dev.blockAt (s : Dev) (y : Nat) (u : PUnit) (b : Nat) : Nat :=
  let p := s.ply y
  if u.seg.strm then s.slotAt y ((p.claim + 2 ^ 24 - (p.nextGot + u.got) + b) % 2 ^ 24)
  else 64 * u.seg.start + b * u.seg.stride

/-- Cistern offset of the row of vector v. -/
def Dev.rowAt (s : Dev) (y : Nat) (u : PUnit) (v : Nat) : Nat :=
  s.blockAt y u (v / 64) + v % 64 * rowBytes u.seg.width

/-- The code of template pin t in a row (R143). -/
def Dev.rowCode (s : Dev) (row t : Nat) : Nat :=
  let b := aCis (row + 6 * (t / 16)) + 3 * (t % 16) / 8
  ((s.byte b).toNat + 256 * (s.byte (b + 1)).toNat) / 2 ^ (3 * (t % 16) % 8) % 8

/-- Marker bits of vector v (R146, R151). -/
def Dev.markersOf (s : Dev) (y : Nat) (u : PUnit) (v : Nat) : Nat :=
  if u.seg.mmask = 0 then 0
  else
    let i := v % 64
    let b := s.byte (aCis (s.blockAt y u (v / 64) + 64 * rowBytes u.seg.width + i / 2))
    (b.toNat / 2 ^ (4 * (i % 2)) % 16) &&& u.seg.mmask

/-- Marker producers fire, MK_DLY after the start of the vector (R151). -/
def Dev.fireMarkers (s : Dev) (y pos m : Nat) : Dev :=
  let edge := s.clk.eclk + (256 * pos + s.fld (aPly y 0x1C) 15 0 + 511) / 512
  forN 4 (fun b s =>
    let p : Prod := { kind := 6, sub := b, index := y }
    if !m.testBit b then s
    else if edge ≤ s.edgeAt pos then s.produce p edge (272 + y) .none none
    else s.fireAhead { mouth := .prod p, edge := edge, tag := 272 + y, by_ := .none, tbus := none }) s

/-- The state a pin receives, KEEP resolved to its previous one; 8 is its dwell state (R142). -/
def resolveCode (c prev : Nat) : Nat := if c = 7 then prev else c

/-- A compare state waits for its strobe: at E2, or from E2 to E3 where the pin's window is on and E3 lies later
(R141, R179, R182). `z` is the start of the vector on the pin, DESKEW counted. -/
def Dev.addCmp (s : Dev) (y : Nat) (u : Machine.PUnit) (v pos : Nat) (z : Int) (counts : Bool) (i p t c : Nat) : Dev :=
  let w := s.bit (aPin p 0) 3
  { s with cmps := s.cmps ++ [{ site := i, tpin := t, code := c, seg := u.seg.seg.toNat, voff := v,
                                frame := s.pframe i, chan := s.circOf p, count := counts, ply := y,
                                alt := decide ((s.site i).member = .alt), window := w, begun := 2 * s.clk.eclk + pos, opens := z + u.edge p 2,
                                closes := if w && u.edge p 2 < u.edge p 3 then some (z + u.edge p 3) else none }] }

/-- One pin of one site receives its state: its drive events and its compare (R140-R142, R178). A pin without a
circuit in service receives neither (R196); under FV/MI, FI/MV and DPS drive states have no effect (R181). -/
def Dev.deliver (s : Dev) (y : Nat) (u : PUnit) (v row pos : Nat) (counts : Bool) (i p : Nat) : Dev :=
  let t := s.tpinOf p
  if u.seg.width ≤ t then s
  else
    let x := s.site i
    let was := x.last.get (fun _ => 8) t
    let c := resolveCode (s.rowCode row t) was
    let s := s.setSite i { x with last := x.last.set (fun _ => 8) t c }
    let k := s.circOf p
    if (s.circ k).st ≠ .inService || 6 < c then s
    else
      let z := s.instant pos + s.deskew p
      let base := if was = 8 then some (x.dwellDrive t) else none
      let s := if s.pmuDrives p then s
        else s.onCirc k (Circ.play (s.instant pos) base (driveEvents (s.fld (aPin p 0) 1 0) c z (z + u.edge p 0) (z + u.edge p 1)))
      if 3 ≤ c && c ≤ 5 then s.addCmp y u v pos z counts i p t c else s

/-- The vector reaches every site of the mask. -/
def Dev.broadcast (s : Dev) (y : Nat) (u : PUnit) (v row pos : Nat) (counts : Bool) : Dev :=
  forL (s.mask y) (fun i s => forL (s.pins i) (fun p s => s.deliver y u v row pos counts i p) s) s

/-- What a fetch of a row finds: a word that a bank copy poisoned, or the error of word w of those the row touches;
with the byte offset of the word (R162, R164). -/
def Dev.rowEcc (s : Dev) (row n : Nat) (c : Ecc) (w : Nat) : Ecc × Nat :=
  match s.cis.poison.find? (fun w => row < 16 * w + 16 && 16 * w < row + n) with
  | some p => (.uncorrectable, 16 * p)
  | none => (c, 16 * min (row / 16 + w) ((row + n - 1) / 16))

/-- A double-bit error on a player fetch: STATUS.ECC2, the record of the word, and in one instant CIS_ECC2 against the
mask and BANK_WEAK of the bank (R162, R164, R291). -/
def Dev.fetchBad (s : Dev) (y a : Nat) : Dev :=
  ((s.cisLog2 a).setBits (aPly y 4) (wn (2 ^ 26))).raises [raiseAt 129 2 (s.mask y), s.weakRaise (s.bankOf a)]

/-- VECTOR_START: the next vector of the unit in play begins; `c` is what the fetch of its row finds, `w` the word of
the row with the error. A vector whose own block's claim fails as it begins is not played: the unit is over (R170). -/
def Dev.vectorStart (s : Dev) (y pos : Nat) (c : Ecc) (w : Nat) : Dev :=
  let p := s.ply y
  match p.cur with
  | none => s
  | some u =>
    let v := u.begun
    if p.st ≠ .playing || p.curLen u ≤ v then s
    else
      let s := s.onPly y (fun p => { p with cur := some { u with begun := v + 1 } })
      let s := if p.tail then s else s.vectorClaims y pos u v
      if (s.ply y).tail && (match (s.ply y).cur with | some u => (s.ply y).curLen u ≤ v | none => true) then
        (s.onPly y (fun p => { p with cur := p.cur.map (fun u => { u with begun := v }) })).unitEnd y pos
      else
      let u := ((s.ply y).cur).getD u
      let row := s.rowAt y u v
      let s := s.fireMarkers y pos (s.markersOf y u v)
      let s :=
        match s.rowEcc row (rowBytes (s.width y)) c w with
        | (.uncorrectable, a) => (s.holdDwell y).fetchBad y a
        | (.corrected, a) => (s.broadcast y u v row pos (!(s.ply y).tail)).cisCorrected a
        | (.clean, _) => s.broadcast y u v row pos (!(s.ply y).tail)
      if u.seg.strm && v % 64 = 63 then
        (s.onPly y (fun p => { p with drain := (p.drain + 1) % 2 ^ 24 })).lwmCheck y
      else s

def execVectorStart (y : Fin 16) (pos : Pos) (x : RowEcc) (s : State) : Host.Outcome State Fault Refusal :=
  s.run (fun s => s.vectorStart y pos.toNat x.ecc x.word)

/-! ### Decisions at a tick (R153-R157, R170) -/

/-- The next slot is free for the segment the pacer asks for (R154); not while an under-run plays out
(log 17). -/
def Dev.slotFree (s : Dev) (y id : Nat) : Bool :=
  let p := s.ply y
  !p.tail && (p.st = .dwell || (p.st = .playing && p.next.isNone && p.late.isNone && 96 < p.rv)) &&
    (!s.namesStream y id || p.ring = .run)

/-- The sites of an under-run's mask are voided with cause UNDERRUN (R170 step 4). -/
def Dev.underVoid (s : Dev) (y : Nat) : Dev :=
  let m := (s.ply y).urMask
  (s.onPly y (fun p => { p with urMask := [] })).voidSites 2 m

/-- A start from dwell whose claims fail never leaves dwell; its voids fall at that tick (R169, R170). -/
def Dev.failedStart (s : Dev) (y : Nat) : Dev := (s.enterDwell y).underVoid y

/-- A segment starts from dwell; a streamed one first claims every block with one of its first 96
vectors (R149, R169). -/
def Dev.startFromDwell (s : Dev) (y : Nat) (g : Placed) : Dev :=
  if g.strm then
    let s := (s.onPly y (fun p => { p with next := some g, nextGot := 0 })).claimNext y (min g.blocks 2)
    if (s.ply y).tail then s.failedStart y
    else (s.onPly y (fun p => { p with next := none })).startSeg y g (s.ply y).nextGot
  else s.startSeg y g 0

/-- A move places a segment that passed R148: from dwell it starts, in play it takes the next slot. -/
def Dev.moveSeg (s : Dev) (y : Nat) (g : Placed) : Dev :=
  if (s.ply y).st = .dwell then (s.onPly y (fun p => { p with late := none })).startFromDwell y g
  else s.onPly y (fun p => { p with next := some g, nextGot := 0 })

/-- A jump against the sequence as it stands, early or late by RV (R155). -/
def Dev.jumpSeq (s : Dev) (y : Nat) (g : Placed) : Dev :=
  let p := s.ply y
  match p.cur with
  | none => s
  | some u =>
    if 96 < p.rv then
      s.setPly y { p with limit := some u.pass, next := some g, nextGot := 0, late := none }
    else
      let s := s.setBits (aPly y 4) 0x40000000
      match p.remaining u, p.next with
      | some 0, _ => s.setPly y { p with late := some g, lateF := true }
      | _, _ => s.setPly y { p with limit := some (u.pass + 1), next := some g, nextGot := 0, late := none, lateF := true }

/-- A pacer's jump reaches its player at a tick (R155). -/
def Dev.jump (s : Dev) (y id : Nat) : Dev :=
  let p := s.ply y
  let g := s.descOf y id
  if p.st ≠ .playing || p.tail then
    if p.st = .disabled then s else s.setBits (aPly y 4) 0x02000000
  else if !s.placeOk y g then s.badSeg y
  else if g.strm then s.plyFault y 258 28
  else s.jumpSeq y g

/-- A late jump that waits behind dwell acts at the first tick in dwell, after the moves (R155). -/
def Dev.waitingJump (s : Dev) (y : Nat) (was : Ply) : Dev :=
  match was.late with
  | some g =>
    if was.st ≠ .dwell then s
    else if (s.ply y).st = .dwell then
      let s := s.onPly y (fun p => { p with late := none })
      if s.placeOk y g then s.startFromDwell y g else s.badSeg y
    else s.jumpSeq y g
  | none => s

/-- A unit that begins at SCLK 0 of a tick latches the timing set as the writes of that tick leave it (R150). -/
def Dev.latchAtTick (s : Dev) (y : Nat) : Dev :=
  s.onPly y (fun p => { p with cur := p.cur.map (fun u =>
    if u.begun = 0 then { u with k := s.periodOf u.seg.ts, edges := s.edgesOf u.seg.ts } else u) })

/-- The sequence is fixed at a tick: claims of the following unit that are due (R153, R169). -/
def Dev.fixSeq (s : Dev) (y : Nat) : Dev :=
  let p := s.ply y
  match p.cur with
  | none => s.onPly y (fun p => { p with fixed := false })
  | some u =>
    let rv := p.rv
    let s := s.onPly y (fun p => { p with fixed := decide (rv ≤ 96) })
    match p.next with
    | some g =>
      if g.strm && rv < 96 && p.remaining u = some 0 && p.pause ≠ some 0 && !p.tail then
        s.claimNext y (min g.blocks ((95 - rv) / 64 + 1))
      else s
    | none => s

/-- A pause applies to a player: the current unit and the one after it still play (R157). -/
def Dev.pausePly (s : Dev) (y : Nat) : Dev :=
  s.onPly y (fun p => if p.st = .playing then { p with pause := some 1 } else p)

/-- A RESUME before dwell cancels the pause, as though it had not applied: the LINK of a unit that began last under it
is followed now (R157). -/
def Dev.resumePly (s : Dev) (y : Nat) : Dev :=
  let p := s.ply y
  let s := s.onPly y (fun p => { p with pause := none })
  match p.pause, p.cur with
  | some 0, some u => if u.pass = 0 && p.limit.isNone then s.takeLink y u.seg else s
  | _, _ => s

end Sys2Proof.Machine
end

