-- ==== Sys2Proof/Machine/Capture.lean ====
section
/-! DEFINITION. Compare results, fail counts, the fail queues and the ledger (R141, R182, R195, R202-R214). -/

namespace Sys2Proof.Machine

/-- The step that is credited at a judgement instant: the one whose compare window has begun (R98, R202). -/
inductive Credit where
  | ended | step
  deriving DecidableEq, Repr

def Site.credit (x : Site) : Option (Credit × Step) :=
  match x.ended, x.step with
  | some p, _ => if p.begun then some (.ended, p) else none
  | none, some p => if p.begun then some (.step, p) else none
  | none, none => none

/-- The credited step replaced. -/
def Site.putCredit (x : Site) (c : Credit) (p : Step) : Site :=
  match c with
  | .ended => { x with ended := some p }
  | .step => { x with step := some p }

/-! ### Compares -/

/-- The compare state passes on the observed bits (R140). -/
def cmpPass (code : Nat) (h l : Bool) : Bool :=
  match code with
  | 3 => l
  | 4 => h
  | _ => !h && !l

/-- The entry of a failing compare (R206). -/
def cmpCand (m : Cmp) (h l : Bool) : Cand :=
  { frame := m.frame, voff := m.voff, ply := m.ply, chan := m.chan,
    flags := 2 * b2n (m.chan % 5 = 4) + 4 * b2n m.window + 8 * b2n m.alt,
    tpin := m.tpin, expc := m.code, obs := 2 * b2n h + b2n l }

/-- A failing result counts for the credited step and waits to be offered with the others of its SCLK; with no step it
is an orphan (R203, R204, R208). -/
def Dev.cmpFail (s : Dev) (sclk : Nat) (m : Cmp) (h l : Bool) : Dev :=
  match (s.site m.site).credit with
  | none => s.incWord 0x314
  | some (c, p) =>
    let s := (s.onSite m.site (fun x => x.putCredit c p.fail)).satBit m.site p.fail
    s.holdOffer sclk { site := m.site, begun := m.begun, serial := p.serial, cand := cmpCand m h l }

/-- The spare of an ACTIVE quad watches: a disagreement on the watched pin counts, and WATCH_MISMATCH is
raised once in a frame whose count is MM_LIMIT or more (R195). -/
def Dev.watchPin (s : Dev) (p : Nat) (differ : Bool) : Dev :=
  let q := p / 4
  let z := s.quad q
  if differ && z.st = .active && z.spare = .watch && s.fld (aQuad q 8) 1 0 = p % 4 then
    let lim := s.fld (aQuad q 8) 15 8
    let hit := lim ≠ 0 && lim ≤ z.mm + 1 && !z.mmHit
    let s := (s.incWord (aQuad q 0x18)).setQuad q { z with mm := z.mm + 1, mmHit := z.mmHit || hit }
    if hit then s.note 228 else s
  else s

/-- The first waiting compare of a site and template pin. -/
def takeCmp (i t : Nat) : List Cmp → Option (Cmp × List Cmp)
  | [] => none
  | c :: r =>
    if c.site = i ∧ c.tpin = t then some (c, r)
    else (takeCmp i t r).map (fun x => (x.1, c :: x.2))

/-- The bits a compare is judged by: those of the first failing instant of its strobe, or of E2 if none fails. Only a
window has instants after E2 (R182). -/
def Cmp.observed (m : Cmp) (h l : Bool) (win : List (Bool × Bool)) : Bool × Bool :=
  (((h, l) :: (if m.closes.isSome then win else [])).find? (fun b => !cmpPass m.code b.1 b.2)).getD (h, l)

/-- COMPARE_STROBE: the oldest compare that waits on the pin is judged (R141, R182, R202, R203). A result that
passes and finds no step is an orphan as well; one of an under-run's tail counts for no step, and is an orphan where
none is open (R170, R203). -/
def Dev.compareStrobe (s : Dev) (sclk i t : Nat) (h l sh sl : Bool) (win : List (Bool × Bool)) : Dev :=
  match takeCmp i t s.cmps with
  | none => s
  | some (m, r) =>
    let s := { s with cmps := r }
    let s := match s.pin? i t with
      | some p => s.watchPin p (decide (h ≠ sh) || decide (l ≠ sl))
      | none => s
    let b := m.observed h l win
    if cmpPass m.code b.1 b.2 || !m.count then
      (if ((s.site i).credit).isNone then s.incWord 0x314 else s)
    else s.cmpFail sclk m b.1 b.2

def execCompareStrobe (i : Fin 256) (t : BitVec 7) (pos : Pos) (h l : Trace) (sh sl : Bool) (s : State) :
    Host.Outcome State Fault Refusal :=
  s.run (fun s =>
    let x := 2 * s.clk.eclk + pos.toNat
    let s := if s.led.offAt = x then s else s.flushOffers
    (if pos = 0 then s else if s.led.logs = 0 then s else s.settleFrame).compareStrobe x i t.toNat h.first l.first sh sl
      (h.later.zip l.later))

/-- FAIL_QUEUE_DRAIN: each cluster's queue passes its oldest entry to the holding store; a held entry
found with a double-bit error voids its site (R209, R308 LDG_ECC2). -/
def Dev.queueDrain (s : Dev) (bad : List Nat) : Dev :=
  let s := s.flushOffers
  let s := if s.led.logs = 1 then { s with led := { s.led with logs := 2 } } else s.settleLogs
  let s := { s with led := { s.led with occ := s.led.occ.upd 0 (· - 1) } }
  if bad.isEmpty then s else s.raise (raiseAt 134 2 bad)

def execFailQueueDrain (bad : List (Fin 256)) (s : State) : Host.Outcome State Fault Refusal :=
  s.run (fun s => s.queueDrain (bad.map (·.val)))

/-! ### Snap (R214) -/

/-- A snap event: CSEQ, frame and position are latched, or OVR is set while one is held (R214). -/
def Dev.snap (s : Dev) (pos : Nat) : Dev :=
  if s.bit 0x324 31 then s.setBits 0x324 0x40000000
  else
    let s := s.settleLogs
    let s := s.wr 0x318 (s.rd 0x300)
    let s := s.wrFrame 0x31C 0x320 s.clk.frame
    s.wr 0x324 (wn (2 ^ 31 + 2 ^ 30 * b2n (s.bit 0x324 30) + pos % 2 ^ 20))

end Sys2Proof.Machine
end

