-- ==== Sys2Proof/Machine/Tdc.lean ====
section
/-! DEFINITION. TDCs: stamps, modes, closing, results and the queue (R250-R264, R422). -/

namespace Sys2Proof.Machine

/-- A result reaches a slot of a site: quiet NaN if its step has committed VOID (owner 0, R422). -/
def Dev.slotResult (s : Dev) (i m : Nat) (owner : Option Nat) (v : W) : Dev :=
  s.onSite i (fun x => x.setSlot m
    (if owner = some 0 then { value := qNaN, ready := true, owner := none }
     else { value := v, ready := true, owner := owner }))

/-- Bits of CH.STATUS of a circuit. -/
def Dev.chFlag (s : Dev) (c bit : Nat) : Dev := s.setBits (aCh c 4) (wn (2 ^ bit))

/-! ### Time (R251, R252) -/

/-- Units of 1/32768 SCLK of an instant: SCLK position in the current frame and interpolator steps. -/
def Dev.tdcTime (s : Dev) (d : Tdc) (pos lsb : Nat) : Int := ((d.base + pos) * 32768 + lsb * s.mult : Nat)

/-- SCLK frequency in Hz times 1/32768-units in a second. -/
def Dev.unitHz (s : Dev) : Nat := 32768 * (12500000 * s.mult)

/-- Absolute SCLK count of an instant of a TDC, modulo 2^48 (R251). -/
def Dev.coarse (s : Dev) (d : Tdc) (t : Int) : Nat :=
  (((s.clk.frame * s.flen : Nat) : Int) - d.base + t / 32768).toNat % 2 ^ 48

/-- ECLK edge at or after an instant of a TDC (R278). -/
def Dev.tdcEdge (s : Dev) (d : Tdc) (t : Int) : Nat :=
  (s.clk.eclk + ((t - d.base * 32768 + 65535) / 65536).toNat)

/-! ### Queue (R263) -/

/-- Flags of a queue entry (R251). -/
structure Stamp where
  t      : Int
  coinc  : Bool
  pol    : Bool
  window : Bool
  unref  : Bool
  deriving DecidableEq, Repr

/-- The queue of a circuit is full (R263). -/
def Dev.tdcFull (s : Dev) (ch : Nat) : Bool := decide (64 ≤ (s.rd (aCh ch 0x138) - s.rd (aCh ch 0x13C)).toNat)

/-- The two words of an entry. -/
def Dev.stampWords (s : Dev) (d : Tdc) (e : Stamp) : W × W :=
  let c := s.coarse d e.t
  let fine := ((e.t % 32768) / 128).toNat
  let lo := c % 65536 * 65536 + fine * 256 + 128 * b2n e.unref + 64 * b2n e.coinc + 32 * b2n d.dropped +
            16 * b2n e.pol + 8 * b2n (d.pre ≠ 0 && !e.window) + 4 * b2n e.window
  (wn lo, wn (c / 65536))

/-- An entry joins the queue of a circuit, or is dropped when it is full (R263). -/
def Dev.tdcPush (s : Dev) (ch : Nat) (e : Stamp) : Dev :=
  let n := s.rd (aCh ch 0x138)
  let d := s.tdc ch
  if s.tdcFull ch then
    let s := s.setBits (aCh ch 0x12C) 0x10000000
    let a := aCh ch 0x140
    let s := s.wr a (if s.rd a = 0xFFFFFFFF then s.rd a else s.rd a + 1)
    s.setTdc ch { d with dropped := true }
  else
    let w := s.stampWords d e
    let a := aQuad (ch / 5) (0x400 + ch % 5 * 0x200 + n.toNat % 64 * 8)
    let s := ((s.wr a w.1).wr (a + 4) w.2).wr (aCh ch 0x138) (n + 1)
    s.setTdc ch { d with dropped := false }

/-- The queue of a circuit is emptied (R196, R253). -/
def Dev.tdcEmpty (s : Dev) (ch : Nat) : Dev := (s.wr (aCh ch 0x138) 0).wr (aCh ch 0x13C) 0

/-! ### Results (R257-R262) -/

/-- CM1 + 1. -/
def Tdc.count1 (d : Tdc) : Nat := (d.prof.headD 0).fld 15 0 + 1

/-- The profile's SIGNED, OPEN and CLOSE (or GATE). -/
def Tdc.signed (d : Tdc) : Bool := (d.prof.headD 0).bit 25
def Tdc.winLo (d : Tdc) : Int := sext24 ((d.prof.getD 1 0).fld 23 0)
def Tdc.winHi (d : Tdc) : Int := closeOf (d.prof.getD 2 0)

/-- The mode's result over what has completed; quiet NaN if nothing has (R257-R261). -/
def Dev.tdcValue (s : Dev) (d : Tdc) : W :=
  match d.mode with
  | 0 => if d.done = 0 then qNaN else f32OfRatio d.sum (d.done * s.unitHz)
  | 1 =>
    match d.first, d.last with
    | some a, some b => if d.done = 0 then qNaN else f32OfRatio (b - a) (d.done * 2 ^ d.pre * s.unitHz)
    | _, _ => qNaN
  | 2 =>
    match d.first, d.last with
    | some a, some b =>
      if d.done = 0 || b ≤ a then qNaN else f32OfRatio ((d.gateN * 2 ^ d.pre * s.unitHz : Nat) : Int) (b - a).toNat
    | _, _ => qNaN
  | _ => qNaN

/-- The slot a result goes to: stream mode writes none (R260). -/
def Tdc.slotOut (d : Tdc) : Option (Nat × Nat × Option Nat) := if d.mode = 3 then none else d.slot

/-- A measurement closes at instant c with a result: it waits for its tick, and TDC_DONE fires (R261, R262,
R264). -/
def Dev.tdcClose (s : Dev) (ch : Nat) (c : Int) (v : W) (st : TdcState) : Dev :=
  let d := s.tdc ch
  let s := s.setTdc ch { d with
    st := st, pend := d.pend ++ [{ value := v, close := c, slot := d.slotOut, done := d.done, missed := d.missed }] }
  s.produce { kind := 3, sub := 0, index := ch } (s.tdcEdge d c) d.tag (.tdc ch) none

/-- A substitution ends a measurement: quiet NaN to its slot at once, MEAS_ILL, and no other result (R196, R261,
R262). -/
def Dev.tdcKill (s : Dev) (ch : Nat) : Dev :=
  let d := s.tdc ch
  match d.st with
  | .closed | .done => s
  | _ =>
    let s := s.setTdc ch { d with st := .closed }
    let s := s.chFlag ch 5
    match d.slotOut with
    | some (i, m, o) => s.slotResult i m o qNaN
    | none => s

/-- The TDC runs a measurement. -/
def Tdc.running (d : Tdc) : Bool :=
  match d.st with
  | .waitStart | .waitStop | .counting => true
  | _ => false

/-- The sequence is complete: the measurement closes with the mode's result. -/
def Dev.tdcFinish (s : Dev) (ch : Nat) (c : Int) : Dev := s.tdcClose ch c (s.tdcValue (s.tdc ch)) .done

/-- MAXT or a host CLOSE ends a measurement with the mean of what completed (R261). -/
def Dev.tdcCut (s : Dev) (ch : Nat) : Dev :=
  let d := s.tdc ch
  if d.running then s.tdcClose ch (d.base * 32768) (s.tdcValue d) .closed else s

/-- A mode without TDCs, or a quad that leaves ACTIVE, ends a measurement at step 1 of its tick: quiet NaN as its
result, and MEAS_ILL (R261). -/
def Dev.tdcLost (s : Dev) (ch : Nat) : Dev :=
  let d := s.tdc ch
  if d.running then (s.chFlag ch 5).tdcClose ch (d.base * 32768) qNaN .closed else s

/-- NOSIG or FAST: the measurement closes at once with quiet NaN (R256, R259). -/
def Dev.tdcBad (s : Dev) (ch : Nat) (bit : Nat) (c : Int) : Dev :=
  (s.setBits (aCh ch 0x12C) (wn (2 ^ bit))).tdcClose ch c qNaN .closed

/-! ### Interval mode (R257) -/

/-- An attempt is over: another begins, or the measurement is complete after COUNT of them. -/
def Dev.attemptOver (s : Dev) (ch : Nat) (c : Int) : Dev :=
  let d := s.tdc ch
  if d.count1 ≤ d.done + d.missed then s.tdcFinish ch c
  else s.setTdc ch { d with st := .waitStart, start := none }

/-- A stop is accepted, for an attempt that started at t0. -/
def Dev.acceptStop (s : Dev) (ch : Nat) (t0 : Int) (k : KeptStop) : Dev :=
  let t := k.t
  let co := decide (-(s.mult : Int) < t - t0 ∧ t - t0 < s.mult)
  let s := s.tdcPush ch { t := t, coinc := co, pol := k.pol, window := false, unref := k.unref }
  let s := if co then s.setBits (aCh ch 0x12C) 0x04000000 else s
  let s := s.onTdc ch (fun d => { d with done := d.done + 1, sum := d.sum + (if co then 0 else t - t0) })
  s.attemptOver ch (max t t0)

/-- The window of the running attempt closes without a stop. -/
def Dev.missStop (s : Dev) (ch : Nat) : Dev :=
  let d := s.tdc ch
  match d.start with
  | none => s
  | some t0 =>
    if d.st ≠ .waitStop then s
    else
      let c := t0 + d.winHi * 32768
      let s := s.tdcPush ch { t := c, coinc := false, pol := false, window := true, unref := s.clk.holdover }
      let s := s.setBits (aCh ch 0x12C) 0x80000000
      let s := s.onTdc ch (fun d => { d with missed := d.missed + 1 })
      s.attemptOver ch c

/-- A start edge begins an attempt; a signed one may find its stop already seen. -/
def Dev.startAttempt (s : Dev) (ch : Nat) (t : Int) (pol : Bool) : Dev :=
  let s := s.tdcPush ch { t := t, coinc := false, pol := pol, window := false, unref := s.clk.holdover }
  let d := s.tdc ch
  let s := s.setTdc ch { d with st := .waitStop, start := some t }
  match d.stop with
  | some k => if d.signed && t + d.winLo * 32768 ≤ k.t && k.t < t then s.acceptStop ch t k else s
  | none => s

/-- One more discarded stop (DISC). -/
def Dev.discStop (s : Dev) (ch : Nat) : Dev := s.incSat (aCh ch 0x12C) 15 0

/-- A signed measurement keeps its most recent stop edge (R257). -/
def Dev.keepStop (s : Dev) (ch : Nat) (k : KeptStop) : Dev :=
  s.onTdc ch (fun d => if d.signed then { d with stop := some k } else d)

/-- A stop edge. One before the start, or before the window, is discarded but in signed mode. -/
def Dev.stopEdge (s : Dev) (ch : Nat) (t : Int) (pol : Bool) : Dev :=
  let d := s.tdc ch
  let k : KeptStop := { t := t, pol := pol, unref := s.clk.holdover }
  let s := s.keepStop ch k
  match d.st, d.start with
  | .waitStart, _ => if d.signed then s else s.discStop ch
  | .waitStop, some t0 =>
    if t - t0 < d.winLo * 32768 then (if d.signed then s else s.discStop ch) else s.acceptStop ch t0 k
  | _, _ => s

/-- A window that ended before an instant has closed without a stop. -/
def Dev.missBefore (s : Dev) (ch : Nat) (t : Int) : Dev :=
  let d := s.tdc ch
  match d.start with
  | some t0 => if d.mode = 0 && d.st = .waitStop && d.winHi * 32768 < t - t0 then s.missStop ch else s
  | none => s

/-! ### Start edges (R256, R258-R260) -/

/-- Two counted edges lie closer than 1.25 ns: MULT / 64 SCLK. -/
def Dev.tooFast (s : Dev) (d : Tdc) (t : Int) : Bool :=
  match d.prev with
  | some l => decide (t - l < 512 * s.mult)
  | none => false

/-- A counted edge of period, frequency or stream mode; a stream counts the entries it has written (R260). -/
def Dev.countedEdge (s : Dev) (ch : Nat) (t : Int) (pol : Bool) : Dev :=
  let d := s.tdc ch
  let e : Stamp := { t := t, coinc := false, pol := pol, window := false, unref := s.clk.holdover }
  match d.mode with
  | 1 =>
    match d.first with
    | none => (s.tdcPush ch e).onTdc ch (fun d => { d with st := .counting, first := some t, last := some t })
    | some _ =>
      let s := s.setTdc ch { d with last := some t, done := d.done + 1 }
      if d.count1 ≤ d.done + 1 then (s.tdcPush ch e).tdcFinish ch t else s
  | 2 =>
    match d.first with
    | none =>
      (s.tdcPush ch e).onTdc ch (fun d =>
        { d with st := .counting, first := some t, last := some t, gate := t + d.winHi * 32768 })
    | some _ =>
      if t < d.gate then s.setTdc ch { d with count := d.count + 1 }
      else
        let s := (s.tdcPush ch e).onTdc ch (fun d =>
          { d with count := d.count + 1, gateN := d.count + 1, done := d.done + 1, last := some t,
                   gate := t + d.winHi * 32768 })
        if d.count1 ≤ d.done + 1 then s.tdcFinish ch t else s
  | _ =>
    let n := d.count + b2n (!s.tdcFull ch)
    let s := (s.tdcPush ch e).onTdc ch (fun d => { d with st := .counting, count := n, last := some t })
    if d.count1 ≤ n then s.tdcFinish ch t else s

/-- An edge at the start input: the prescaler counts it, and a counted edge acts (R256). -/
def Dev.startEdge (s : Dev) (ch : Nat) (t : Int) (pol : Bool) : Dev :=
  let d := s.tdc ch
  let s := s.setTdc ch { d with edges := d.edges + 1 }
  if d.edges % 2 ^ d.pre ≠ 0 then s
  else if s.tooFast d t then s.tdcBad ch 29 t
  else
    let s := s.onTdc ch (fun d => { d with prev := some t })
    if d.mode = 0 then s.startAttempt ch t pol else s.countedEdge ch t pol

/-- Polarity of a source's edges; the spec states none for a weir, an event or a drive edge (R251). -/
def srcPol (src : Nat) : Option Bool :=
  match src with
  | 0 | 2 => some true
  | 1 | 3 => some false
  | _ => none

/-- An edge of a source at a TDC: the start input takes it where it waits for one, else the stop input. The edge that
served as start is not its own stop, but a later attempt may find it kept (R255, R257). -/
def Dev.tdcInput (s : Dev) (ch src : Nat) (t : Int) (pol : Bool) : Dev :=
  let s := s.missBefore ch t
  let d := s.tdc ch
  let w := d.prof.headD 0
  if !d.running then s
  else if w.fld 31 29 = src && (d.mode ≠ 0 || d.st = .waitStart) then
    let s := s.startEdge ch t pol
    if d.mode = 0 && w.fld 28 26 = src then s.keepStop ch { t := t, pol := pol, unref := s.clk.holdover } else s
  else if d.mode = 0 && w.fld 28 26 = src then s.stopEdge ch t pol
  else s

/-- An edge with the polarity its source has; a free value where none is stated (log 12). -/
def Dev.tdcEdgeIn (s : Dev) (ch src : Nat) (t : Int) : Dev :=
  if !(s.tdc ch).running then s
  else match srcPol src with
  | some p => s.tdcInput ch src t p
  | none =>
    let d := s.draw
    d.2.tdcInput ch src t (d.1.bit 0)

/-- The scheduled instant of the first E0 of the channel's own drive in an SCLK, in 1/32768 SCLK of its TDC (R179,
R252, R255); an E0 that turns the driver off is none of its edges (log 52). -/
def Dev.ownEdge (s : Dev) (ch pos : Nat) : Option Int :=
  let z := s.instant pos
  ((s.circ ch).evs.find? (fun v => z ≤ v.inst && v.inst < z + 256 && (match v.act with | .on _ => true | _ => false))).map
    (fun v => ((s.tdc ch).base * 32768 : Nat) + (v.inst - s.instant 0) * 128)

/-! ### Opening (R253, R254) and the tick (R261, R262) -/

/-- Open a TDC at a tick. -/
def Dev.tdcOpenAt (s : Dev) (ch q mode pre prof : Nat) (slot : Option (Nat × Nat × Option Nat)) : Dev :=
  let old := s.tdc ch
  let w := (List.range 4).map (fun k => s.rd (aTdcProf q prof k))
  let s := s.tdcEmpty ch
  s.setTdc ch { tdcInit with
    st := .waitStart, mode := mode, pre := pre, prof := w, slot := slot,
    maxt := (w.getD 3 0).fld 15 0,
    pend := old.pend.map (fun p => { p with close := p.close - old.base * 32768 }) }

/-- Mode enables the TDCs (R50). -/
def Mode.tdcs (m : Mode) : Bool := m.enables 8

/-- A frame of n SCLK has passed for a TDC. -/
def Tdc.advance (n : Nat) (d : Tdc) : Tdc := { d with base := d.base + n }

/-- Results whose tick has come are written (R262). -/
def Dev.tdcWrite (s : Dev) (ch : Nat) : Dev :=
  let d := s.tdc ch
  let due := d.pend.filter (fun p => p.close + 256 * 32768 ≤ (d.base : Int) * 32768)
  let s := s.setTdc ch { d with pend := d.pend.filter (fun p => !(p.close + 256 * 32768 ≤ (d.base : Int) * 32768)) }
  forL due (fun p s =>
    let s := s.wr (aCh ch 0x130) p.value
    let s := s.wr (aCh ch 0x134) (wn (min p.missed 65535 * 65536 + min p.done 65535))
    match p.slot with
    | some (i, m, o) => s.slotResult i m o p.value
    | none => s) s

/-- MAXT counts the ticks of a measurement and ends it (R261). -/
def Dev.tdcMaxt (s : Dev) (ch : Nat) : Dev :=
  let d := s.tdc ch
  if d.maxt = 0 || !d.running then s
  else
    let s := s.setTdc ch { d with maxt := d.maxt - 1 }
    if d.maxt = 1 then s.tdcCut ch else s

/-- The tick's work on every TDC: time advances, MAXT, results due. -/
def Dev.tdcTick (s : Dev) (n : Nat) : Dev :=
  let l := s.tdcs.map (·.1)
  forL l (fun ch s => ((s.onTdc ch (Tdc.advance n)).tdcMaxt ch).tdcWrite ch) s

/-! ### Rows -/

/-- TDC_EDGE: an edge of sources 0 to 3 where the interpolator measured it, or of the own drive where it is scheduled.
Weirs and the sluice bring the edges of sources 4 to 6 themselves (R255, R271). -/
def execTdcEdge (ch : Fin 720) (src : Fin 8) (pos : Pos) (lsb : Nat) (s : State) : Host.Outcome State Fault Refusal :=
  s.run (fun s =>
    match src.val with
    | 4 | 5 | 6 => s
    | 7 =>
      match s.ownEdge ch pos.toNat with
      | some t => s.tdcEdgeIn ch 7 t
      | none => s
    | k => s.tdcEdgeIn ch k (s.tdcTime (s.tdc ch) pos.toNat lsb))

def execTdcWindowClose (ch : Fin 720) (s : State) : Host.Outcome State Fault Refusal := s.run (fun s => s.missStop ch)

def execTdcNosig (ch : Fin 720) (pos : Pos) (s : State) : Host.Outcome State Fault Refusal :=
  s.run (fun s => if (s.tdc ch).running && (s.tdc ch).mode = 2 then s.tdcBad ch 30 (s.tdcTime (s.tdc ch) pos.toNat 0) else s)

/-- TDC_MAXT: a measurement with MAXT ≠ 0 has run its frames. -/
def execTdcMaxt (ch : Fin 720) (s : State) : Host.Outcome State Fault Refusal :=
  s.run (fun s => if (s.tdc ch).maxt = 0 then s else s.tdcCut ch)

end Sys2Proof.Machine
end

