-- ==== Sys2Proof/Machine/Chan.lean ====
section
/-! DEFINITION. Channel circuits as the tick finds them: levels, edges, PMU and DPS functions, gangs, DPS
admission, measurements (R175-R192, R201, R224, R237, R238, R321). -/

namespace Sys2Proof.Machine

/-! ### Functions and gangs (R183, R188, R189) -/

/-- The gang of a pin: channel c of its lead and the members' mask. -/
def Dev.gangOf (s : Dev) (p : Nat) : Option (Nat × Nat) := (s.circ (s.circOf p)).gang

/-- The pin follows another pin's lead. -/
def Dev.follower (s : Dev) (p : Nat) : Bool :=
  match s.gangOf p with
  | some (l, _) => l ≠ p % 4
  | none => false

/-- Channels of a mask. -/
def maskChans (m : Nat) : List Nat := (List.range 4).filter (m.testBit ·)

/-- The pins a function set on a pin applies to: every member of a gang it leads. -/
def Dev.gangPins (s : Dev) (p : Nat) : List Nat :=
  match s.gangOf p with
  | some (_, m) => (maskChans m).map (fun c => 4 * (p / 4) + c)
  | none => [p]

/-- FUNC and RANGE written; the value too where the function has one. -/
def Dev.setFunc (s : Dev) (fn range : Nat) (v : W) (p : Nat) : Dev :=
  let s := s.wr (aPin p 0x30) (wn (range % 8 * 16 + fn % 8))
  if fn = 0 || fn = 3 then s else s.wr (aPin p 0x34) v

/-- A circuit's DPS goes off; with its bleeder, or disconnected without it (R188). -/
def dpsOff (bleed : Bool) (x : Circ) : Circ := { x with dpsOn := false, bleed := bleed, limit := false }

/-- A follower that leaves its gang becomes Off without its bleeder (R189). -/
def Dev.freeFollower (s : Dev) (p : Nat) : Dev :=
  (s.setFunc 0 (s.range p) 0 p).onCirc (s.circOf p) (fun x => { dpsOff false x with gang := none })

/-- A gang is released: its lead keeps its function (R189). -/
def Dev.releaseGang (s : Dev) (p : Nat) : Dev :=
  match s.gangOf p with
  | none => s
  | some (l, m) =>
    let q := 4 * (p / 4)
    forL (maskChans m) (fun c s =>
      if c = l then s.onCirc (s.circOf (q + c)) (fun x => { x with gang := none })
      else s.freeFollower (q + c)) s

/-- A pin takes a configuration word, or SLEW, of another pin. -/
def Dev.copyCard (s : Dev) (p r o : Nat) : Dev := s.wr (aPin r o) (s.rd (aPin p o))
def Dev.copySlew (s : Dev) (p r : Nat) : Dev := s.setFld (aPin r 0x40) 5 4 (s.fld (aPin p 0x40) 5 4)

/-- A gang forms from a lead and a mask; gangs of the channels named are released first, and the
followers take the lead's function, value, SLEW and DPS_ILIM (R189). -/
def Dev.formGang (s : Dev) (p mask : Nat) : Dev :=
  let q := 4 * (p / 4)
  let s := forL (maskChans mask) (fun c s => s.releaseGang (q + c)) s
  let fn := s.func p
  let rg := s.range p
  let v := s.rd (aPin p 0x34)
  forL (maskChans mask) (fun c s =>
    let s := if c = p % 4 then s else ((s.setFunc fn rg v (q + c)).copyCard p (q + c) 0x44).copySlew p (q + c)
    s.onCirc (s.circOf (q + c)) (fun x => { x with gang := some (p % 4, mask) })) s

/-! ### Engine-staged writes (R84, R96, R177-R183, R189) -/

def applyLevel (lvl : Nat) (v : W) (p : Nat) (s : Dev) : Dev := s.wr (aPin p (0x10 + 4 * lvl)) v

def applyEdge (ts edge pos : Nat) (p : Nat) (s : Dev) : Dev := s.wr (aPin p (0x400 + 16 * ts + 4 * edge)) (wn pos)

/-- FORCE where it applies: a follower raises PARAM at that tick, a lead sets its whole gang (R189). -/
def applyForce (i fn range : Nat) (v : W) (p : Nat) (s : Dev) : Dev :=
  if s.follower p then s.raise (raiseAt srcParam 2 [i])
  else forL (s.gangPins p) (fun r s => s.setFunc fn range v r) s

/-- WINSET where it applies: mode, exponent and thresholds of the pin; the weir settles (R268, R271). -/
def applyWinset (mode n hi lo : Nat) (p : Nat) (s : Dev) : Dev :=
  let a := aPin p 0x60
  let s := s.wr a (((s.rd a).put 12 8 n).put 2 0 mode)
  let s := s.wr (aPin p 0x64) (wn (hi * 65536 + lo))
  s.onWeir (s.circOf p) (fun w => { w with settling := true })

/-! ### Measurements (R184, R185, R224) -/

/-- ECLK from the start of a MEAS to its ready instant (R184). -/
def Dev.measEclk (s : Dev) (kind ap : Nat) : Nat :=
  let ns := if kind = 2 then 3 * (ap * 100 + 20000) + 2000 else ap * 100 + 2000
  (ns * s.mult + 159) / 160

/-- Ticks from the one that applies a MEAS to the one that writes its result. -/
def Dev.measTicks (s : Dev) (kind ap : Nat) : Nat :=
  (16 + s.measEclk kind ap + s.flen / 2 - 1) / (s.flen / 2)

/-- The kind is allowed for the pin's function and source as the MEAS begins (R185, R238). -/
def Dev.measLegal (s : Dev) (p kind : Nat) : Bool :=
  let f := s.funcNow p
  let src := s.fld (aPin p 0x100) 18 16
  (s.circ (s.circOf p)).st = .inService &&
  match kind with
  | 0 => true
  | 1 => f = 1 || f = 2 || f = 4
  | 2 => f = 0 || f = 3
  | _ => src ≠ 1 && src ≠ 2

/-- A MEAS applies: an earlier one of the circuit ends, one of the same slot loses its slot (32 names
none), and a kind that is not allowed is noted (kind 4) to write quiet NaN (R185). -/
def Dev.applyMeas (s : Dev) (i slot t kind ap : Nat) (owner : Option Nat) : Dev :=
  match s.pin? i t with
  | none => s
  | some p =>
    let c := s.circOf p
    let s := { s with circs := s.circs.upd circInit (fun x =>
      match x.meas with
      | some m => if m.site = i && m.slot = slot then { x with meas := some { m with slot := 32 } } else x
      | none => x) }
    let k := if s.measLegal p kind then kind else 4
    let s := s.onChain c (fun x => { x with acc := 0, accN := 0 })
    s.onCirc c (fun x => { x with
      meas := some { site := i, slot := slot, kind := k, ap := ap, owner := owner, left := s.measTicks kind ap,
                     fresh := true, n := 0, value := if k = 4 then some qNaN else none } })

/-- Calibrated conversion of a circuit for the pin it serves, through the calibration in force (R237, R388): zero until
calibration is applied. -/
def Dev.adcScale (s : Dev) (c : Nat) : W :=
  let p := s.cfgPin c
  if s.sys.boot = .done then
    Config.adcScale (s.calPath c) (s.calRecord c) (s.fld (aPin p 0x100) 18 16) (s.range p) else 0

def Dev.adcOfs (s : Dev) (c : Nat) : W :=
  let p := s.cfgPin c
  if s.sys.boot = .done then
    Config.adcOfs (s.calPath c) (s.calRecord c) (s.fld (aPin p 0x100) 18 16) (s.range p) else 0

/-- The circuit whose conversion the cards of circuit c show: the one that serves its pin (R237). -/
def Dev.showCirc (s : Dev) (c : Nat) : Nat := if c % 5 < 4 then s.circOf (s.cfgPin c) else c

/-- Mean of the VALID outputs of a kind 3 MEAS in the source's unit (R237, R238). -/
def Dev.chainMean (s : Dev) (c : Nat) : W :=
  let h := s.chain c
  if h.accN = 0 then qNaN
  else
    match f32Key (s.adcScale c), f32Key (s.adcOfs c) with
    | some k, some o =>
      if s.bit (aPin (s.cfgPin c) 0x10C) 31 then f32OfScaled (k * h.acc) h.accN
      else f32OfScaled (k * h.acc + o * h.accN) h.accN
    | _, _ => qNaN

/-- What a conversion ends with, and the STATUS bit it sets (R185, R321). -/
def convEnd (kind : Nat) (r : Reading) : W × Option Nat :=
  match r.ovl with
  | some neg => (if neg then 0xFF800000 else 0x7F800000, some 6)
  | none =>
    if kind = 2 then
      if !r.fit then (qNaN, some 5)
      else if f32Lt r.value 0xC25C0000 then (0xFF800000, some 6)
      else if f32Lt 0x43480000 r.value then (0x7F800000, some 6)
      else (r.value, none)
    else (r.value, none)

/-- MEAS_CONVERSION_END: the conversion on a circuit ends (R185). -/
def Dev.convDone (s : Dev) (c : Nat) (r : Reading) : Dev :=
  match (s.circ c).meas with
  | none => s
  | some m =>
    if m.value.isSome then s
    else if m.kind = 3 then s.onCirc c (fun x => { x with meas := some { m with value := some (s.chainMean c) } })
    else
      let v := convEnd m.kind r
      let s := s.onCirc c (fun x => { x with meas := some { m with value := some v.1 } })
      match v.2 with
      | some b => s.chFlag c b
      | none => s

def execMeasConversionEnd (ch : Fin 720) (r : Reading) (s : State) : Host.Outcome State Fault Refusal :=
  s.run (fun s => s.convDone ch r)

/-- The result of a MEAS whose tick has come is written; where the conversion gave no value it is a free
value (log 12). -/
def Dev.measWrite (s : Dev) (c : Nat) (m : Meas) : Dev :=
  let s := s.onCirc c (fun x => { x with meas := none })
  let s := if m.kind = 4 then s.chFlag c 5 else s
  if 32 ≤ m.slot then s
  else
    match m.value with
    | some v => s.slotResult m.site m.slot m.owner v
    | none =>
      let d := s.draw
      d.2.slotResult m.site m.slot m.owner d.1

/-- A MEAS that cannot finish: quiet NaN to its slot, MEAS_ILL on the circuit (R196). -/
def Dev.measKill (s : Dev) (c : Nat) : Dev :=
  match (s.circ c).meas with
  | none => s
  | some m =>
    let s := (s.onCirc c (fun x => { x with meas := none })).chFlag c 5
    if 32 ≤ m.slot then s else s.slotResult m.site m.slot m.owner qNaN

/-- One tick of a MEAS. -/
def Dev.measTick (s : Dev) (c : Nat) : Dev :=
  match (s.circ c).meas with
  | none => s
  | some m =>
    if m.left ≤ 1 then s.measWrite c m
    else s.onCirc c (fun x => { x with meas := some { m with left := m.left - 1, fresh := false } })

/-- A staged MEAS that applies at this tick names the slot: it is the most recent one (R185). -/
def Dev.slotNamed (s : Dev) (i slot : Nat) : Bool :=
  s.stage.eng.any (fun x => match x.op with
    | .meas m _ _ _ _ => m = slot && s.siteOf x.e = some i
    | _ => false)

/-- A MEAS whose slot a newer one takes at this tick writes nothing (R185). -/
def Dev.measYield (s : Dev) : Dev :=
  { s with circs := s.circs.upd circInit (fun x => { x with meas := x.meas.map (fun m =>
      if s.slotNamed m.site m.slot then { m with slot := 32 } else m) }) }

/-- The tick's work on every MEAS. -/
def Dev.measTicksAll (s : Dev) : Dev :=
  let s := if s.stage.eng.isEmpty then s else s.measYield
  forL (s.circs.map (·.1)) (fun c s => s.measTick c) s

/-! ### DPS (R186-R190) -/

/-- The pin's DPS is to be on: its function is DPS, in a mode with supplies, on a circuit in service of an ACTIVE quad
(R50, R186, R194). -/
def Dev.wantsDps (s : Dev) (p : Nat) : Bool :=
  s.funcNow p = 4 && (s.quad (p / 4)).st = .active && (s.circ (s.circOf p)).st = .inService

/-- Outputs whose function left DPS go off with their bleeders; switch-ons become pending (R188, R190). -/
def Dev.dpsScan (s : Dev) (q : Nat) : Dev :=
  let ps := (List.range 4).map (fun c => 4 * q + c)
  let s := forL ps (fun p s =>
    let c := s.circOf p
    if (s.circ c).dpsOn && !s.wantsDps p then s.onCirc c (dpsOff true) else s) s
  let pend := (List.range 4).filter (fun c => s.wantsDps (4 * q + c) && !(s.circ (s.circOf (4 * q + c))).dpsOn)
  let z := s.quad q
  s.setQuad q { z with pendOn := pend, ticket := if pend.isEmpty then 0 else z.ticket }

/-- An admitted quad applies every pending switch-on (R190). -/
def Dev.admitQuad (s : Dev) (q : Nat) : Dev :=
  let z := s.quad q
  let s := forL z.pendOn (fun c s => s.onCirc (s.circOf (4 * q + c)) (fun x => { x with dpsOn := true, bleed := false })) s
  s.setQuad q { z with pendOn := [], ticket := 0 }

/-- The first quad of a list in the order of R190. -/
def firstTicket (s : Dev) : List Nat → Option Nat
  | [] => none
  | q :: r =>
    match firstTicket s r with
    | none => some q
    | some b =>
      let tq := (s.quad q).ticket
      let tb := (s.quad b).ticket
      if tb ≠ 0 && (tq = 0 || tb < tq) then some b else some q

/-- Admission of at most `n` quads. -/
def Dev.admitting : Nat → Dev → Dev
  | 0, s => s
  | n + 1, s =>
    match firstTicket s ((s.quads.filter (fun x => !x.2.pendOn.isEmpty)).map (·.1)) with
    | none => s
    | some q => (s.admitQuad q).admitting n

/-- Quads left waiting take their place in the queue, later than those that wait already; their outputs wait with
bleeders engaged. -/
def Dev.queueDps (s : Dev) : Dev :=
  let t := s.quads.foldl (fun m x => max m x.2.ticket) 0 + 1
  let s := forL (s.quads.map (·.1)) (fun q s => forL (s.quad q).pendOn (fun c s =>
    s.onCirc (s.circOf (4 * q + c)) (dpsOff true)) s) s
  { s with quads := s.quads.upd quadInit (fun z => if z.pendOn.isEmpty then { z with ticket := 0 }
                                           else if z.ticket = 0 then { z with ticket := t } else z) }

/-- Phase f of step 1 (R24, R190). -/
def Dev.dpsPhase (s : Dev) : Dev :=
  (Dev.admitting 16 (forL (s.quads.map (·.1)) (fun q s => s.dpsScan q) s)).queueDps

/-- The circuit may trip: a supply that limits, on a pin whose TRIP_T is not 0 (R187). -/
def Dev.mayTrip (s : Dev) (c : Nat) : Bool :=
  (s.circ c).dpsOn && (s.circ c).limit && (s.pinsOfCirc c).any (fun p => s.fld (aPin p 0x40) 15 8 ≠ 0)

/-- A trip: the output or the whole gang goes off with bleeders, FUNC Off on every member, and DPS_TRIP
against the site that owns the pin (R187). -/
def Dev.dpsTrip (s : Dev) (c : Nat) : Dev :=
  match s.pinsOfCirc c with
  | [] => s
  | p :: _ =>
    let ps := s.gangPins p
    let s := forL ps (fun r s =>
      ((s.setFunc 0 (s.range r) 0 r).onCirc (s.circOf r) (dpsOff true)).chFlag (s.circOf r) 7) s
    s.raise (raiseAt 226 2 (s.circAim c))

def execDpsTrip (ch : Fin 720) (s : State) : Host.Outcome State Fault Refusal :=
  s.run (fun s => if s.mayTrip ch then s.dpsTrip ch else s)

/-- CURRENT_LIMIT: a DPS output enters or leaves current limiting (R187). -/
def Dev.currentLimit (s : Dev) (c : Nat) (entering : Bool) : Dev :=
  if !(s.circ c).dpsOn then s
  else
    let s := s.onCirc c (fun x => { x with limit := entering })
    if entering then s.chFlag c 8 else s

def execCurrentLimit (ch : Fin 720) (entering : Bool) (s : State) : Host.Outcome State Fault Refusal :=
  s.run (fun s => s.currentLimit ch entering)

/-- PMU_CLAMP: STATUS.CLAMP of a circuit that forces (R183). -/
def Dev.pmuClamp (s : Dev) (c : Nat) : Dev :=
  match s.pinsOfCirc c with
  | p :: _ => if s.funcNow p = 1 || s.funcNow p = 2 then s.chFlag c 9 else s
  | [] => s

def execPmuClamp (ch : Fin 720) (s : State) : Host.Outcome State Fault Refusal := s.run (fun s => s.pmuClamp ch)

/-- A supply sample shows a target above VDPS - 0.5 V: STATUS.DROPOUT (R186). -/
def Dev.dropout (s : Dev) (x : DpsSample) : Dev :=
  match s.pinsOfCirc x.chan with
  | p :: _ =>
    if (s.circ x.chan).dpsOn && f32Lt (f32Sub x.vdps 0x3F000000) (s.rd (aPin p 0x34)) then s.chFlag x.chan 10 else s
  | [] => s

/-! ### Host values (R179, R183, R201, R223, R267) -/

/-- The pin's channel register takes the value: offset in the card of CH (R201). -/
def Dev.chValueOk (s : Dev) (p o : Nat) (v : W) : Bool :=
  if 0x10 ≤ o ∧ o ≤ 0x20 then levelOk v
  else if o = 0x30 then
    v.fld 2 0 ≤ 4 && forceOk (v.fld 2 0) (v.fld 6 4) (s.rd (aPin p 0x34)) && !s.follower p
  else if o = 0x34 then forceOk (s.func p) (s.range p) v && !s.follower p
  else if o = 0x38 then f32InMilli v (-2000) 7500 && f32Lt (s.rd (aPin p 0x3C)) v
  else if o = 0x3C then f32InMilli v (-2000) 7500 && f32Lt v (s.rd (aPin p 0x38))
  else if o = 0x44 then f32Le (f32OfRatio 10 1000) v && f32InMilli v 0 250
  else if o = 0x60 then v.fld 2 0 ≤ 4 && v.fld 12 8 ≤ 20
  else if o = 0x64 then v.fld 11 0 < v.fld 27 16
  else if o = 0x100 then v.fld 18 16 ≤ 5
  else true

end Sys2Proof.Machine
end

