-- ==== Sys2Proof/Machine/Chain.lean ====
section
/-! DEFINITION. Decimation chains and acquisition units (R221-R247). -/

namespace Sys2Proof.Machine

/-! ### Settings of a chain: those of the pin its circuit serves (R176, R249) -/

/-- R in force. -/
def Dev.decim (s : Dev) (c : Nat) : Nat := max 1 (s.fld (aPin (s.cfgPin c) 0x100) 9 0) + 1

/-- ⌈log2 r⌉. -/
def clog2 (r : Nat) : Nat := if r ≤ 1 then 0 else Nat.log2 (r - 1) + 1

/-- A signed 18-bit coefficient of a bank (R227). -/
def Dev.coef (s : Dev) (c bank n : Nat) : Int :=
  let x := s.fld (aPin (s.cfgPin c) (0x200 + 256 * bank + 4 * n)) 17 0
  if x < 2 ^ 17 then x else (x : Int) - 2 ^ 18

/-- Nearest whole quotient, halves away from zero. -/
def divAway (n : Int) (d : Nat) : Int :=
  let m := ((2 * n.natAbs + d) / (2 * d) : Nat)
  if n < 0 then -m else m

/-- Limits of a 24-bit output. -/
def sat24 (x : Int) : Int := max (-8388608) (min 8388607 x)

/-! ### Stages (R226, R227, R228, R230) -/

/-- Four integrators take one input; the last is the CIC's running sum (R226). -/
def integrate (x : BitVec 56) : List (BitVec 56) → List (BitVec 56)
  | [] => []
  | i :: r => (i + x) :: integrate (i + x) r

/-- Four combs take one value: their new delays and the output (R226). -/
def combs (x : BitVec 56) : List (BitVec 56) → List (BitVec 56) × BitVec 56
  | [] => ([], x)
  | d :: r => let y := combs (x - d) r; (x :: y.1, y.2)

/-- The FIR sum of a bank over the delay line, scaled and rounded (R227); not yet saturated. -/
def Dev.fir (s : Dev) (c bank : Nat) (line : List Int) : Int :=
  divAway ((List.range 64).foldl (fun a n => a + s.coef c bank n * line.getD n 0) 0) 512

/-- At an output a cross-fade that has run out leaves its bank active, and with none running a request that waits
begins (R228). -/
def Chain.endFade (h : Chain) : Chain :=
  let h := match h.fade with
    | some (k, n) => if n ≤ k then { h with bank := 1 - h.bank, fade := none } else h
    | none => h
  match h.fade, h.pendXf with
  | none, some x => { h with fade := some (0, 16 * 2 ^ x), pendXf := none }
  | _, _ => h

/-- F of an output, whether it was saturated, and the chain with its fade advanced (R227, R228). -/
def Dev.firOut (s : Dev) (c : Nat) (h : Chain) : Int × Bool × Chain :=
  let o := s.fir c h.bank h.line
  match h.fade with
  | none => (sat24 o, decide (sat24 o ≠ o), h)
  | some (k, n) =>
    let w := s.fir c (1 - h.bank) h.line
    let f := sat24 o + ((k + 1 : Nat) * (sat24 w - sat24 o)).tdiv n
    (sat24 f, decide (sat24 o ≠ o) || decide (sat24 w ≠ w), { h with fade := some (k + 1, n) })

/-- K of the DC-block, 4 to 24. -/
def Dev.dcbK (s : Dev) (p : Nat) : Nat := max 4 (min 24 (s.fld (aPin p 0x10C) 4 0))

/-- Y, whether it was saturated, and the estimate M (R230). -/
def Dev.dcBlock (s : Dev) (p : Nat) (m f : Int) : Int × Bool × Int :=
  if !s.bit (aPin p 0x10C) 31 then (f, false, m)
  else
    let m := if s.bit (aPin p 0x10C) 30 then m else m + (f * 2 ^ 24 - m) / 2 ^ s.dcbK p
    let y := f - divAway m (2 ^ 24)
    (sat24 y, decide (sat24 y ≠ y), m)

/-! ### Restarts (R228, R230, R231) -/

/-- A chain restarts: CIC and delay line cleared, M unless frozen, a running fade ended with its bank active (R228,
R231). What TAKEN and CLIP inputs make invalid stays so (R232). -/
def Chain.restart (frozen : Bool) (h : Chain) : Chain :=
  { h with integ := [0, 0, 0, 0], comb := [0, 0, 0, 0], line := [], m := if frozen then h.m else 0, since := 0,
           bank := if h.fade.isSome then 1 - h.bank else h.bank, fade := none, restarted := true }

/-- Restart of one chain, with its STATUS bit. -/
def Dev.restartChain (s : Dev) (c : Nat) : Dev :=
  let s := s.setBits (aCh c 0x114) 0x10000000
  s.onChain c (Chain.restart (s.bit (aPin (s.cfgPin c) 0x10C) 30))

/-- The origin moves: every chain restarts with its counts at 0 (R222, R231). -/
def Dev.moveOrigin (s : Dev) : Dev :=
  let s := forN 720 (fun c s => (s.restartChain c).onChain c (fun h => { h with n := 0, j := 0, restarted := false })) s
  s.wrFrame (aFrm 0x90) (aFrm 0x94) s.clk.frame

/-- A change of R recounts the outputs from the origin (R231). -/
def Dev.recount (s : Dev) (c : Nat) : Dev :=
  (s.restartChain c).onChain c (fun h => { h with j := h.n / s.decim c })

/-! ### Acquisition: arms and ends (R240-R242) -/

/-- Fields of a latched profile word. -/
def Acq.w (a : Acq) (k : Nat) : W := a.prof.getD k 0
def Acq.on (a : Acq) (bit : Nat) : Bool := (a.w 0).bit bit
def Acq.ivl (a : Acq) : Nat := (a.w 0).fld 15 0 + 1

/-- A capture is under way. -/
def Acq.busy (a : Acq) : Bool :=
  match a.st with
  | .waitArm | .filling | .post => true
  | _ => false

/-- A capture ends without DONE (R241). -/
def Dev.acqEnd (s : Dev) (q why : Nat) : Dev :=
  if (s.acq q).busy then
    let s := s.onAcq q (fun a => { a with st := .idle })
    (s.setBits (aQuad q 0x104) 0x40000000).setFld (aQuad q 0x104) 23 21 why
  else s

/-- An arm applies (R240, R241): the profile, channel and count are latched. -/
def Dev.acqArmAt (s : Dev) (q prof c post : Nat) : Dev :=
  if !s.sys.mode.enables 10 then
    (s.setBits (aQuad q 0x104) 0x40000000).setFld (aQuad q 0x104) 23 21 4
  else
    let s := if (s.acq q).armedAt = s.clk.frame then s else s.acqEnd q 2
    let w := (List.range 7).map (fun k => s.rd (aAcqProf q prof k))
    let a := { acqInit with prof := w, c := c, armedAt := s.clk.frame }
    let ch := s.circOf (4 * q + c)
    let first := ((s.chain ch).j + a.ivl - 1) / a.ivl
    let p := min 8192 (max 1 post)
    let s := s.setAcq q { a with
      st := if a.on 26 then .waitArm else .filling, p := p, first := first,
      evalJ := (first + (a.w 6).fld 12 0) * a.ivl, mn := 8388607, mx := -8388608 }
    let t := aQuad q 0x104
    -- DONE, TRUNCATED, CAUSE and PRE cleared
    let s := s.clrBits t 0x881FBFFF
    let s := if 8192 < post then s.setBits t 0x80000000 else s
    (s.wr (aQuad q 0x108) (wn (post % 65536 * 65536 + p))).wr (aQuad q 0x10C) 0

/-! ### Records and triggers (R239, R242, R244-R246) -/

/-- What one output brings: F, Y and its flags (R232). -/
structure Out where
  j     : Nat
  f     : Int
  y     : Int
  valid : Bool
  sat   : Bool
  taken : Bool
  xf    : Bool
  rst   : Bool
  deriving DecidableEq, Repr

/-- Bits of a 24-bit number. -/
def bits24 (x : Int) : Nat := (x % 2 ^ 24).toNat

/-- An output joins the running record. -/
def Acq.take (a : Acq) (o : Out) : Acq :=
  let v := if a.on 25 then o.y else o.f
  { a with cnt := a.cnt + 1, nvalid := if o.valid then a.nvalid + 1 else a.nvalid,
           mn := if o.valid then min a.mn v else a.mn, mx := if o.valid then max a.mx v else a.mx,
           fSat := a.fSat || o.sat, fTaken := a.fTaken || o.taken, fXf := a.fXf || o.xf,
           fRestart := a.fRestart || o.rst }

/-- The two words of the running record (R239). -/
def Acq.words (a : Acq) : W × W :=
  (wn (min 255 a.nvalid * 2 ^ 24 + bits24 a.mn),
   wn (2 ^ 31 * b2n (a.nvalid = a.cnt) + 2 ^ 30 * b2n (0 < a.nvalid) + 2 ^ 29 * b2n a.fTrig + 2 ^ 28 * b2n a.fSat +
       2 ^ 27 * b2n a.fTaken + 2 ^ 26 * b2n a.fXf + 2 ^ 25 * b2n a.fRestart + bits24 a.mx))

/-- The record is complete: written, and the next begins. -/
def Dev.writeRecord (s : Dev) (q : Nat) : Dev :=
  let a := s.acq q
  let w := a.words
  let s := (s.setWord (aAcq q (8 * a.widx)) w.1).setWord (aAcq q (8 * a.widx + 4)) w.2
  let i := (a.widx + 1) % 8192
  let s := s.wr (aQuad q 0x10C) (wn i)
  s.setAcq q { a with
    cnt := 0, nvalid := 0, mn := 8388607, mx := -8388608, fSat := false, fTaken := false, fXf := false,
    fRestart := false, fTrig := false, wrote := a.wrote + 1, widx := i,
    left := if a.st = .post then a.left - 1 else a.left }

/-- Crossings of a threshold between two outputs that take part (R244). -/
def crossUp (x p f : Int) : Bool := decide (p < x) && decide (x ≤ f)
def crossDn (x p f : Int) : Bool := decide (x ≤ p) && decide (f < x)

/-- Pulse width: the running pulse, and whether the condition is met (R244). -/
def Acq.pulse (a : Acq) (j : Nat) (p f : Int) : Option Nat × Bool :=
  let pol := a.on 23
  let h := sext24 ((a.w 1).fld 23 0)
  let l := sext24 ((a.w 2).fld 23 0)
  let beg := if pol then crossDn l p f else crossUp h p f
  let fin := if pol then crossUp l p f else crossDn h p f
  let met := match a.pwStart with
    | some b =>
      let inside := (a.w 3).fld 15 0 ≤ j - b && j - b ≤ (a.w 3).fld 31 16
      fin && (inside != a.on 24)
    | none => false
  (if beg then some j else if fin then none else a.pwStart, met)

/-- Runt: the running pulse, and whether the condition is met (R244). -/
def Acq.runt (a : Acq) (j : Nat) (p f : Int) : Option Nat × Bool :=
  let pol := a.on 22
  let h := sext24 ((a.w 1).fld 23 0)
  let l := sext24 ((a.w 2).fld 23 0)
  let beg := if pol then crossDn h p f else crossUp l p f
  let fin := if pol then crossUp h p f else crossDn l p f
  let lost := if pol then decide (f ≤ l) else decide (h ≤ f)
  let met := fin && a.runtStart.isSome && decide (l < h)
  (if lost then none else if beg then some j else if fin then none else a.runtStart, met)

/-- Outputs in a row that meet the timeout's relation (R244). -/
def Acq.stretch (a : Acq) (f : Int) : Nat :=
  let h := sext24 ((a.w 1).fld 23 0)
  if (if a.on 21 then decide (f < h) else decide (h ≤ f)) then a.toCount + 1 else 0

/-- The slew inequality at an output, with the earlier outputs newest first (R244). -/
def Acq.slew (a : Acq) (f : Int) : Bool :=
  match a.hist[(a.w 5).fld 29 24]? with
  | some g => decide (((a.w 5).fld 23 0 : Nat) < (if a.on 20 then g - f else f - g))
  | none => false

/-- The conditions of R244 at one output: the unit's new state and the CAUSE bits met. -/
def Acq.judge (a : Acq) (o : Out) : Acq × Nat :=
  if !o.valid then
    ({ a with hist := [], pwStart := none, runtStart := none, toCount := 0, slewWas := false }, 0)
  else if o.j < a.evalJ then (a, 0)
  else
    let to_ := a.stretch o.f
    let sl := a.slew o.f
    let pw := match a.hist with | p :: _ => a.pulse o.j p o.f | [] => (none, false)
    let ru := match a.hist with | p :: _ => a.runt o.j p o.f | [] => (none, false)
    let n := b2n (a.on 31 && pw.2) + 2 * b2n (a.on 30 && ru.2) +
             4 * b2n (a.on 29 && to_ = max 1 ((a.w 4).fld 23 0)) + 8 * b2n (a.on 28 && sl && !a.slewWas)
    ({ a with hist := (o.f :: a.hist).take 65, pwStart := pw.1, runtStart := ru.1, toCount := to_, slewWas := sl }, n)

/-- The trigger: what it latches, its producer, and the records left (R242, R246). One that lands before the first
record begins has its trigger record before index 0, unwritten: DESIGN CHOICE (log 36). -/
def Dev.acqTrigger (s : Dev) (q pos cause : Nat) (o : Out) : Dev :=
  let a := s.acq q
  let pre := min a.wrote (8192 - a.p)
  let t := aQuad q 0x104
  let s := (s.setFld t 20 15 cause).setFld t 13 0 pre
  let early := decide (o.j < a.first * a.ivl)
  let s := s.wr (aQuad q 0x110) (wn (if early then 8191 else a.widx))
  let s := (s.wr (aQuad q 0x114) (wn o.j)).wr (aQuad q 0x118) (wn (o.j / 2 ^ 32 % 65536))
  let s := s.wrFrame (aQuad q 0x11C) (aQuad q 0x120) s.clk.frame
  let s := s.wr (aQuad q 0x124) (wn pos)
  let c := (s.clk.frame * s.flen + pos) % 2 ^ 48
  let s := (s.wr (aQuad q 0x128) (wn (c % 65536 * 65536 + 128 * b2n s.clk.holdover))).wr (aQuad q 0x12C) (wn (c / 65536))
  let s := s.wr (aQuad q 0x130) (wn (o.j / a.ivl))
  let tag := if cause.testBit 4 then a.tagExt else a.tagArm
  let s := s.setAcq q { a with st := .post, left := if early then a.p - 1 else a.p, fTrig := !early, ext := false, force := false, tagTrig := tag }
  s.produce { kind := 4, sub := 0, index := q } (s.edgeAt pos) tag (.acq q) none

/-- The capture is complete: DONE and the ACQ_DONE producer (R241). -/
def Dev.acqFinish (s : Dev) (q pos : Nat) : Dev :=
  let a := s.acq q
  if a.st = .post && a.left = 0 then
    let s := (s.setAcq q { a with st := .done }).setBits (aQuad q 0x104) 0x08000000
    s.produce { kind := 4, sub := 1, index := q } (s.edgeAt pos) a.tagTrig (.acq q) none
  else s

/-- An output of the recorded channel reaches the unit. -/
def Dev.acqOutput (s : Dev) (q pos : Nat) (o : Out) : Dev :=
  let s := s.acqFinish q pos
  let a := s.acq q
  if !a.busy then s
  else
    let here := a.first * a.ivl ≤ o.j
    let r := if a.st = .filling then a.judge o else (a, 0)
    let cause := r.2 + 16 * b2n (a.ext && a.st = .filling) + 32 * b2n a.force
    let s := s.setAcq q r.1
    let s := if cause ≠ 0 && a.st ≠ .post then s.acqTrigger q pos cause o else s
    if !here then s
    else
      let s := s.onAcq q (fun a => a.take o)
      if (o.j + 1) % a.ivl = 0 then s.writeRecord q else s

/-! ### Samples (R221-R225, R232) -/

/-- A MEAS takes the ADC of its circuit (R224). -/
def Dev.taking (s : Dev) (c pos : Nat) : Bool :=
  match (s.circ c).meas with
  | none => false
  | some m =>
    let src := s.fld (aPin (s.cfgPin c) 0x100) 18 16
    m.kind ≤ 2 && m.value.isNone && !(m.fresh && pos < 32) && !(m.kind = 0 && src = 0) && !(m.kind = 1 && src = 1)

/-- A kind 3 MEAS counts a sample, and adds the output that the sample completed (R238). -/
def Dev.measSample (s : Dev) (c pos : Nat) (y : Option Int) : Dev :=
  match (s.circ c).meas with
  | none => s
  | some m =>
    if m.fresh && pos < 32 then s
    else
      let s := s.onCirc c (fun x => { x with meas := some { m with n := m.n + 1 } })
      match y with
      | some v => if m.kind = 3 && m.n < m.ap then s.onChain c (fun h => { h with acc := h.acc + v, accN := h.accN + 1 }) else s
      | none => s

/-- The acquisition unit that records the circuit takes the output. -/
def Dev.toAcq (s : Dev) (c pos : Nat) (o : Out) : Dev :=
  let q := c / 5
  if s.circOf (4 * q + (s.acq q).c) = c then
    s.acqOutput q pos o
  else s

/-- The output completed by an input: FIR, DC-block, flags, the status registers and the consumers. -/
def Dev.chainOut (s : Dev) (c pos : Nat) (h : Chain) (x : Int) (taken clip settled : Bool) : Dev :=
  let p := s.cfgPin c
  let h := { h with line := (x :: h.line).take 64 }.endFade
  let xf := h.fade.isSome
  let f := s.firOut c h
  let d := s.dcBlock p h.m f.1
  let valid := settled && !taken && !clip
  let sat := f.2.1 || d.2.1 || clip
  let o : Out := { j := h.j, f := f.1, y := d.1, valid := valid, sat := sat, taken := taken, xf := xf, rst := h.restarted }
  let s := s.setChain c { f.2.2 with m := d.2.2, outF := f.1, outY := d.1, valid := valid, sat := sat,
                                     taken := taken, xf := xf, j := h.j + 1, restarted := false }
  let s := if sat then s.setBits (aCh c 0x114) 0x80000000 else s
  (s.measSample c pos (if valid then some d.1 else none)).toAcq c pos o

/-- ADC_SAMPLE: one conversion enters the chain (R223-R226). -/
def Dev.adcSample (s : Dev) (c pos : Nat) (code : BitVec 16) (clip : Bool) : Dev :=
  if !s.sys.mode.enables 7 then s
  else
    let h := s.chain c
    let r := s.decim c
    let taking := s.taking c pos
    let v := if clip then (if code.toInt < 0 then -32768 else 32767) else code.toInt
    let x := if taking then h.held else v
    let clip := clip && !taking
    let tl := if taking then 68 * r else h.takenLeft
    let cl := if clip then 68 * r else h.clipLeft
    let integ := integrate (BitVec.ofInt 56 x) h.integ
    let h' := { h with integ := integ, n := h.n + 1, since := min 69632 (h.since + 1), takenLeft := tl - 1,
                       clipLeft := cl - 1, held := x }
    let s := if clip then s.setBits (aCh c 0x114) 0x40000000 else s
    let s := if taking then s.setBits (aCh c 0x114) 0x20000000 else s
    if (h.n + 1) % r = 0 then
      let y := combs (integ.getLastD 0) h.comb
      s.chainOut c pos { h' with comb := y.1 } (y.2.toInt / 2 ^ (4 * clog2 r)) (decide (0 < tl)) (decide (0 < cl))
        (decide (68 * r ≤ h.since))
    else (s.setChain c h').measSample c pos none

def execAdcSample (ch : Fin 720) (pos : Pos) (code : BitVec 16) (clip : Bool) (s : State) :
    Host.Outcome State Fault Refusal := s.run (fun s => s.adcSample ch pos.toNat code clip)

/-- ACQ_DONE: the last record of a capture is written (R241). -/
def execAcqDone (q : Fin 144) (pos : Pos) (s : State) : Host.Outcome State Fault Refusal :=
  s.run (fun s => s.acqFinish q pos.toNat)

/-! ### Swaps (R228) and host control of the acquisition unit (R241, R245) -/

/-- A swap request waits for the first output at which no cross-fade runs; one that waits already is replaced
(R228). -/
def Dev.firSwapAt (s : Dev) (c xf : Nat) : Dev :=
  let h := s.chain c
  let s := s.setChain c { h with pendXf := some (min 6 xf) }
  if h.pendXf.isSome then s.setBits (aCh c 0x108) 0x40000000 else s

/-- ACQ_CTL where it applies: ABORT, then ARM, then FORCE (R245). -/
def Dev.acqCtl (s : Dev) (q : Nat) (v : W) : Dev :=
  let s := if v.bit 30 then s.acqEnd q 1 else s
  let s := if v.bit 31 then s.acqArmAt q (v.fld 28 26) (v.fld 25 24) (v.fld 15 0) else s
  if v.bit 29 && (match (s.acq q).st with | .waitArm | .filling => true | _ => false) then
    s.onAcq q (fun a => { a with force := true })
  else s

/-! ### Synchronised resets (R233-R236) -/

/-- A synchronised reset acts at its tick; in a mode without sense ADCs it does not (R235, R236). -/
def Dev.syncAct (s : Dev) : Dev :=
  if !s.sys.mode.enables 7 then s
  else
    let s := s.moveOrigin
    let s := s.setBits (aFrm 0x8C) 0x20000000
    forL (s.acqs.map (·.1)) (fun q s => s.acqEnd q 3) s

/-- A request from the ball or the sluice: recognised, or ignored in a mode without sense ADCs (R233-R235). -/
def Dev.syncRequest (s : Dev) (src pos : Nat) : Dev :=
  let a := aFrm 0x8C
  if !s.sys.mode.enables 7 then s.setBits a 0x40000000
  else
    let s := (s.setFld a 25 24 src).setFld a 19 0 pos
    let s := if pos ≤ 16 || s.flen - pos ≤ 16 then s.setBits a 0x80000000 else s
    { s with clk := { s.clk with resets := s.clk.resets ++ [(frameMod (s.clk.frame + 2), src)] } }

def execDsyncPinEdge (pos : Pos) (s : State) : Host.Outcome State Fault Refusal :=
  s.run (fun s => if s.bit (aFrm 0x80) 0 then s.syncRequest 1 pos.toNat else s)

end Sys2Proof.Machine
end

