-- ==== Sys2Proof/Machine/Held.lean ====
section
/-! DEFINITION. Result and event instructions (R85, R98-R100, R139, R204, R207, R215-R218, R281). -/

namespace Sys2Proof.Machine

/-- STEP's chunk 1: without E it opens the new step; then it retires (R98, R139). -/
def stepChunk1 (e : Nat) (s : Dev) (x : Ins) (i : Nat) : Dev :=
  if x.flag 0 then s.retire e else (s.openStep i (x.im 15 0)).retire e

/-- STEP: end the open step and, without E, open another; a second end in a frame yields first (R98, R99). The words
of its routine issue in the order entry, test of STEPPED, chunk 0, chunk 1 (the worked example of R139). -/
def doStep (e : Nat) (n : Option Nat) (s : Dev) (x : Ins) (i : Nat) : Dev :=
  if (s.eng e).uchunk ≠ 0 then (if issues n 1 then stepChunk1 e s x i else s)
  else if x.mbz then (if issues n 2 then s.trap e srcIllOp else s)
  else if !issues n 3 then s
  else if s.stepped e then s.yieldFor e 1
  else if issues n 4 then stepChunk1 e (s.endStep e i) x i
  else (s.endStep e i).onEng e (fun g => g.chunkDone 0x1A4A)

/-- LIMIT: LF ← out of limits; with FAILSTEP such a value fails the open step (R215, R216). -/
def doLimit (bad : Bool) (e : Nat) (s : Dev) (x : Ins) (i : Nat) : Dev :=
  let out := !inLimit (s.limit (x.im 13 0)) (s.reg e x.a)
  s.check e [(x.mbz || !regOk x.a, srcIllOp), (bad, 135)]
    ((if out && x.flag 0 then (s.setFlag e 8 out).failStep i else s.setFlag e 8 out).retire e)

/-- BIN: holds the site's bin (R218). -/
def doBin (e : Nat) (s : Dev) (x : Ins) (i : Nat) : Dev :=
  s.check e [(x.mbz, srcIllOp)] ((s.onSite i (fun z => { z with bin := some (x.im 7 0) })).retire e)

/-- LOGF: one more fail and an engine-logged entry for the open step; no effect with none open (R204, R207). -/
def doLogf (e : Nat) (s : Dev) (x : Ins) (i : Nat) : Dev :=
  s.check e [(x.mbz, srcIllOp), (s.npin i ≤ x.b, srcParam)]
    ((if (s.site i).step.isSome then (s.stepFail i).stepLog i (s.logCand i x.b (x.fl % 8) (x.im 1 0)) else s).retire e)

/-- VOIDH: sets ENG[e].VOIDH. -/
def doVoidh (e : Nat) (s : Dev) (x : Ins) : Dev :=
  s.check e [(x.mbz, srcIllOp)] ((s.setVoidh e (x.flag 0) (x.im 14 0)).retire e)

/-- EMIT: fires a line at ECLK 15 of the next tick. -/
def doEmit (e : Nat) (s : Dev) (x : Ins) (i : Nat) : Dev :=
  match s.lineArg i x with
  | some l => s.stageIns e x.mbz (x.flag 0 && s.npin i ≤ x.b) false (.emit l)
  | none => s.check e [(x.mbz, srcIllOp), (true, srcParam)] s

/-- A WAITE's wait ends: TO, the wait disarmed, the instruction retired (R139). -/
def Dev.waitDone (s : Dev) (e : Nat) (timedOut : Bool) : Dev :=
  ((s.onEng e (fun g => { g with wait := none, waitY := false, arrived := false, phase := .exec })).setFlag e 7 timedOut).retire e

/-- WAITE with Y at a release: an event that arrived ends it; otherwise one frame less is left (R139). -/
def Dev.waitChunk (s : Dev) (e : Nat) : Dev :=
  let g := s.eng e
  if g.arrived then s.waitDone e false
  else if g.wrem.toNat ≤ 1 then s.waitDone e true
  else s.onEng e (fun g => { (g.chunk 1) with wrem := g.wrem - 1 })

/-- WAITE: arm the line and wait; with Y the engine yields and is released into it again (R85, R139). -/
def doWaite (e : Nat) (s : Dev) (x : Ins) (i : Nat) : Dev :=
  match s.lineArg i x with
  | none => s.check e [(x.mbz, srcIllOp), (true, srcParam)] s
  | some l =>
    s.check e [(x.mbz, srcIllOp), (x.flag 0 && s.npin i ≤ x.b, srcParam)]
      (if (s.eng e).uchunk ≠ 0 then s.waitChunk e
       else if x.flag 1 then
         s.onEng e (fun g => { (g.chunk 1) with wait := some l, waitY := true, arrived := false,
                                                wrem := BitVec.ofNat 24 (x.im 23 0) })
       else s.onEng e (fun g => { g with wait := some l, waitY := false, arrived := false, phase := .waiting }))

def execStep (e : Fin 272) (f : Fetch) (s : State) : Host.Outcome State Fault Refusal :=
  s.run (fun s => s.instrCut e f 0x50 (doStep e))
def execLimit (e : Fin 272) (f : Fetch) (c : Ecc) (s : State) : Host.Outcome State Fault Refusal :=
  s.run (fun s => s.instrSite e f 0x51 (doLimit (c = .uncorrectable) e))
def execBin (e : Fin 272) (f : Fetch) (s : State) : Host.Outcome State Fault Refusal :=
  s.run (fun s => s.instrSite e f 0x52 (doBin e))
def execLogf (e : Fin 272) (f : Fetch) (s : State) : Host.Outcome State Fault Refusal :=
  s.run (fun s => s.instrSite e f 0x53 (doLogf e))
def execVoidh (e : Fin 272) (f : Fetch) (s : State) : Host.Outcome State Fault Refusal :=
  s.run (fun s => s.instrOp e f 0x54 (doVoidh e))
def execEmit (e : Fin 272) (f : Fetch) (s : State) : Host.Outcome State Fault Refusal :=
  s.run (fun s => s.instrSite e f 0x60 (doEmit e))
def execWaite (e : Fin 272) (f : Fetch) (s : State) : Host.Outcome State Fault Refusal :=
  s.run (fun s => s.instrSite e f 0x61 (doWaite e))

end Sys2Proof.Machine
end

