-- ==== Sys2Proof/Machine/Sluice.lean ====
section
/-! DEFINITION. Delivery of sluice events and the trigger bus (R264, R247, R277-R284, R308). -/

namespace Sys2Proof.Machine

/-! ### What a consumer does with an event (R280, R283) -/

/-- The loop rule removes the event at the consumer (R283). -/
def loopDrop (c : Consumer) (f : Flight) : Bool :=
  match c with
  | .wait e => f.tag = e || f.by_ = .eng e
  | .tdcStart ch | .tdcStop ch => f.by_ = .tdc ch
  | .acqArm q | .acqStart q => f.by_ = .acq q
  | .tbus n => f.tag = 293 + n || f.by_ = .tbus n || f.tbus = some n
  | .snap | .dsync => false

/-- A bit of a set of engine flags: the card's first offset and the engine. -/
def Dev.engBit (s : Dev) (o e : Nat) : Dev := s.setBits (aSlc (o + 4 * (e / 32))) (wn (2 ^ (e % 32)))

/-- LOOP of the block a discard concerns (R283). -/
def Dev.flagLoop (s : Dev) (c : Consumer) : Dev :=
  match c with
  | .wait e => s.engBit 0x1100 e
  | .tdcStart ch | .tdcStop ch => s.setBits (aCh ch 0x188) 4
  | .acqArm q | .acqStart q => s.setBits (aQuad q 0xE88) 4
  | .tbus n => s.setBits (aSlc 0x1020) (wn (2 ^ (12 + n)))
  | .snap | .dsync => s

/-- MERGE of a consumer (R280). -/
def Dev.flagMerge (s : Dev) (c : Consumer) : Dev :=
  match c with
  | .wait e => s.engBit 0x1140 e
  | .tdcStart ch => s.setBits (aCh ch 0x188) 1
  | .tdcStop ch => s.setBits (aCh ch 0x188) 2
  | .acqArm q => s.setBits (aQuad q 0xE88) 1
  | .acqStart q => s.setBits (aQuad q 0xE88) 2
  | .snap => s.setBits (aSlc 0x1020) 1
  | .dsync => s.setBits (aSlc 0x1020) 2
  | .tbus n => s.setBits (aSlc 0x1020) (wn (2 ^ (8 + n)))

/-- A trigger-bus line as the device drives and sees it. -/
def tbusInit : Tbus := { pulse := none, low := false, rose := none }

def Dev.tbusLine (s : Dev) (n : Nat) : Tbus := s.slc.tbus.get (fun _ => tbusInit) n

def Dev.setTbus (s : Dev) (n : Nat) (x : Tbus) : Dev :=
  { s with slc := { s.slc with tbus := s.slc.tbus.set (fun _ => tbusInit) n x } }

/-- The consumer is busy (R264, R247, R277); the ledger snap handles its own (R214). -/
def Dev.busy (s : Dev) (c : Consumer) : Bool :=
  match c with
  | .wait e => (s.eng e).waitNow.2
  | .tdcStart ch =>
    let d := s.tdc ch
    !(d.running && (d.prof.headD 0).fld 31 29 = 6 && (d.mode ≠ 0 || d.st = .waitStart))
  | .tdcStop ch =>
    let d := s.tdc ch
    !(d.mode = 0 && (d.prof.headD 0).fld 28 26 = 6 && d.st = .waitStop)
  | .acqArm q => (s.acq q).st ≠ .waitArm
  | .acqStart q => !((s.acq q).st = .filling && (s.acq q).on 27)
  | .tbus n => (s.tbusLine n).pulse.isSome
  | .snap | .dsync => false

/-- OVERRUN of a busy consumer (R277, R280). -/
def Dev.flagBusy (s : Dev) (c : Consumer) : Dev :=
  match c with
  | .wait e => s.engBit 0x1180 e
  | .tdcStart ch | .tdcStop ch => s.setBits (aCh ch 0x12C) 0x08000000
  | .acqArm q => s.setBits (aQuad q 0x104) 0x10000000
  | .acqStart q => s.setBits (aQuad q 0x104) 0x20000000
  | .tbus n => s.setBits (aSlc 0x1020) (wn (2 ^ (4 + n)))
  | .snap | .dsync => s

/-- SCLK position in the current frame of an ECLK edge. -/
def Dev.posOf (s : Dev) (d : Nat) : Nat := 2 * (d - s.clk.eclk)

/-- The instant of an ECLK edge in a TDC's time. -/
def Dev.tdcAt (s : Dev) (ch d : Nat) : Int :=
  ((s.tdc ch).base : Int) * 32768 + ((d : Int) - s.clk.eclk) * 65536

/-- A wait takes an event: WAITE without Y ends, any other wait latches it (R85, R277). -/
def Dev.waitTakes (s : Dev) (e : Nat) : Dev :=
  let g := s.eng e
  if g.st = .running && g.phase = .waiting && !g.mid && !g.waitY then s.waitDone e false
  else s.setEng e g.hit

/-- A consumer that is not busy acts on an event delivered at an edge, with its tag and block. -/
def Dev.act (s : Dev) (c : Consumer) (d tag : Nat) (b : Block) : Dev :=
  match c with
  | .wait e => s.waitTakes e
  | .tdcStart ch =>
    let x := s.draw
    (x.2.onTdc ch (fun t => { t with tag := tag })).startEdge ch (s.tdcAt ch d) (x.1.bit 0)
  | .tdcStop ch =>
    let x := s.draw
    (x.2.onTdc ch (fun t => { t with tag := tag })).stopEdge ch (s.tdcAt ch d) (x.1.bit 0)
  | .acqArm q =>
    let j := (s.chain (s.circOf (4 * q + (s.acq q).c))).j
    s.onAcq q (fun a => { a with st := .filling, tagArm := tag, evalJ := max a.evalJ j })
  | .acqStart q => s.onAcq q (fun a => { a with ext := true, tagExt := tag })
  | .snap => s.snap (s.posOf d)
  | .dsync => s.syncRequest 2 (s.posOf d)
  | .tbus n => s.setTbus n { s.tbusLine n with pulse := some (d, max 1 (s.fld (aSlc (0x1010 + 4 * n)) 15 8), tag, b) }

/-- The consumer can take an event: an engine's wait exists only while it is armed (R277). -/
def Dev.present (s : Dev) (c : Consumer) : Bool :=
  match c with
  | .wait e => (s.eng e).waitNow.1.isSome
  | _ => true

/-- The event with the lowest tag of a list. -/
def lowestTag : List Flight → Option Flight
  | [] => none
  | f :: r =>
    match lowestTag r with
    | some g => if g.tag < f.tag then some g else some f
    | none => some f

/-- A consumer deals with the events delivered to it at one edge (R280). -/
def Dev.consume (s : Dev) (d : Nat) (fs : List Flight) (c : Consumer) : Dev :=
  let mine := fs.filter (fun f => f.dest.contains c)
  if !s.present c then s
  else
    let kept := mine.filter (fun f => !loopDrop c f)
    let s := if kept.length < mine.length then s.flagLoop c else s
    let s := if 2 ≤ kept.length then s.flagMerge c else s
    match lowestTag kept with
    | none => s
    | some f => if s.busy c then s.flagBusy c else s.act c d f.tag f.by_

/-! ### Delivery (R278, R279) -/

/-- The events delivered at one edge: gates see them, lines fed by their lines capture them, and their
consumers deal with them. -/
def Dev.deliverAt (s : Dev) (d : Nat) (fs : List Flight) : Dev :=
  let s := { s with slc := { s.slc with gates := fs.foldl (fun g f => g.set (fun _ => 0) (lineKey f.line) (d + 1)) s.slc.gates } }
  let s := forL fs (fun f s =>
    match f.line with
    | .loc q l => s.produce { kind := 10, sub := l, index := q } d f.tag f.by_ f.tbus
    | .global n => s.produce { kind := 11, sub := 0, index := n } d f.tag f.by_ f.tbus) s
  forL ((fs.flatMap (·.dest)).eraseDups) (fun c s => s.consume d fs c) s

/-- The least of some edges. -/
def leastEdge : List Nat → Option Nat
  | [] => none
  | x :: r => some (r.foldl min x)

/-- The earliest edges that lie ahead pass, so many of them at most, until an event is in flight that was captured no
later than the next of them (R278). -/
def Dev.captureNext : Nat → Dev → Dev
  | 0, s => s
  | n + 1, s =>
    match leastEdge (s.slc.coming.map (·.edge)) with
    | none => s
    | some x =>
      match leastEdge (s.slc.flights.map (·.edge)) with
      | some m => if m ≤ x then s else (s.capturesTo (x + 1)).captureNext n
      | none => (s.capturesTo (x + 1)).captureNext n

/-- SLUICE_DELIVERY: the events captured at the earliest edge are delivered 2 ECLK after it, when the edges before have
passed. -/
def Dev.delivery (s : Dev) : Dev :=
  let s := Dev.captureNext s.slc.coming.length s
  match leastEdge (s.slc.flights.map (·.edge)) with
  | none => s
  | some m =>
    let s := s.capturesTo (m + 2)
    let due := s.slc.flights.filter (fun f => f.edge = m)
    { s with slc := { s.slc with flights := s.slc.flights.filter (fun f => f.edge ≠ m) } }.deliverAt (m + 2) due

def execSluiceDelivery (s : State) : Host.Outcome State Fault Refusal := s.run (fun s => s.delivery)

/-! ### The trigger bus (R284) -/

/-- TBUS_EDGE: a line that has been high for at least 2 ECLK goes low, an asserting edge: it fires the input producer, as
the device's own edge or as a foreign one. -/
def Dev.tbusEdge (s : Dev) (n pos : Nat) : Dev :=
  let x := s.tbusLine n
  let edge := s.edgeAt pos
  let short := match x.rose with | some r => decide (2 * s.clk.eclk + pos < r + 4) | none => false
  if x.low then s
  else if short then s.setTbus n { x with low := true }
  else
    let s := s.setTbus n { x with low := true }
    let p : Prod := { kind := 9, sub := 0, index := n }
    match x.pulse with
    | some (e, w, tag, b) =>
      if e ≤ edge && edge < e + w then s.produce p edge tag b (some n) else s.produce p edge (293 + n) .none (some n)
    | none => s.produce p edge (293 + n) .none (some n)

def execTbusEdge (n : Fin 4) (pos : Pos) (s : State) : Host.Outcome State Fault Refusal :=
  s.run (fun s => s.tbusEdge n pos.toNat)

/-- TBUS_PULSE_END: the device no longer drives the line. -/
def execTbusPulseEnd (n : Fin 4) (s : State) : Host.Outcome State Fault Refusal :=
  s.run (fun s => s.setTbus n { s.tbusLine n with pulse := none })

/-- TBUS_RELEASE: the line rises, at an SCLK position. -/
def execTbusRelease (x : TbusRise) (s : State) : Host.Outcome State Fault Refusal :=
  s.run (fun s => s.setTbus x.n { s.tbusLine x.n with low := false, rose := some (2 * s.clk.eclk + x.pos.toNat) })

/-- TBUS_STUCK: noted unless this device drives the line (R308). -/
def execTbusStuck (n : Fin 4) (s : State) : Host.Outcome State Fault Refusal :=
  s.run (fun s => if (s.tbusLine n).pulse.isSome then s else s.note 320)

/-- COMPARATOR_CROSSING: kinds 0 H rises, 1 H falls, 2 L rises, 3 L falls (R276). -/
def execComparatorCrossing (ch : Fin 720) (kind : Fin 4) (pos : Pos) (s : State) : Host.Outcome State Fault Refusal :=
  s.run (fun s => s.produce { kind := 1, sub := kind, index := ch } (s.edgeAt pos.toNat) 288 .none none)

/-- SLC_PAR: a route register fails parity; its KIND reads 0, and open steps void (R308). -/
def Dev.slcPar (s : Dev) (l : Line) : Dev :=
  (s.setFld (aLineSrc l) 19 16 0).raise (raiseAt 321 2 s.deviceAim)

def execSlcPar (q : Option (Fin 144)) (line : BitVec 8) (s : State) : Host.Outcome State Fault Refusal :=
  s.run (fun s => match q with
    | some k => s.slcPar (.loc k.val (line.toNat % 16))
    | none => s.slcPar (.global line.toNat))

end Sys2Proof.Machine
end

