-- ==== Sys2Proof/Machine/Nv.lean ====
section
/-! DEFINITION. The NV sets: slots, headers, generations, payloads, saves and what boot loads
(R379-R391). -/

namespace Sys2Proof.Machine

/-! ### Slots (R381, R382) -/

/-- Number of a set in the table of slots in force. -/
def NvSet.num : NvSet → Nat
  | .repair => 0
  | .thermal => 1
  | .patch _ => 2
  | .cal q _ => 3 + q
  | .calFull _ => 200

/-- Header word 0 of the slot in force; 0 with none. -/
def Dev.nvHead (s : Dev) (n : Nat) : W := if s.nvForce n = 0 then 0 else s.nvWord (nvSlot n (s.nvForce n - 1)).1

/-- Generation in force of a set; 0 with none. -/
def Dev.nvGen (s : Dev) (n : Nat) : Nat := (s.nvHead n).fld 31 16

/-- Generation a is newer than b (R382). -/
def newer (a b : Nat) : Bool := 1 ≤ (a + 65536 - b) % 65536 && (a + 65536 - b) % 65536 ≤ 32767

/-- The CAL_FULL word is committed (R384). -/
def Dev.calFullOk (s : Dev) : Bool := (s.nvWord 0x3A000).fld 7 0 = 0x5A

/-- Generation of the CAL_FULL word, 0 where it is not committed (R370). -/
def Dev.calFullGen (s : Dev) : Nat := if s.calFullOk then (s.nvWord 0x3A000).fld 31 16 else 0

/-- Newest calibration generation in force on any quad (R370). -/
def Dev.calGen (s : Dev) : Nat :=
  (List.range 144).foldl (fun m q =>
    if s.nvForce (3 + q) = 0 then m else if newer (s.nvGen (3 + q)) m then s.nvGen (3 + q) else m) 0

/-- The next generation of a set (R383). -/
def Dev.nextGen (s : Dev) (t : NvSet) : Nat :=
  match t with
  | .calFull g => g
  | .cal _ (some g) => g
  | .cal _ none => ((if newer s.calFullGen s.calGen then s.calFullGen else s.calGen) + 1) % 65536
  | t => (s.nvGen t.num + 1) % 65536

/-! ### Payloads: the live state (R385, R387-R391) -/

/-- Quad record of the repair map (R390). -/
def Dev.quadRec (s : Dev) (q : Nat) : Nat :=
  let z := s.quad q
  32768 * b2n (z.st = .retired) + 16384 * b2n z.sfail + 16 * z.pfail.foldl (fun m c => m + 2 ^ c) 0 +
    (match z.subst with
     | some c => if z.spare = .subst || z.spare = .settling then 8 + c else 0
     | none => 0)

/-- Spare bank record (R390). -/
def Dev.bankRec (s : Dev) (n : Nat) : W :=
  let x := s.spareBank n
  wn (2 ^ 31 * b2n x.listed + 2 ^ 30 * b2n x.failed + (if x.listed then x.bank else 0))

/-- A mask word over 32 units. -/
def maskWord (f : Nat → Bool) (w : Nat) : W := wn ((List.range 32).foldl (fun m b => if f (32 * w + b) then m + 2 ^ b else m) 0)

/-- Zero words. -/
def zeroWords (n : Nat) : List W := List.replicate n 0

/-- Payload of the repair map. -/
def Dev.repairPayload (s : Dev) : List W :=
  (List.range 72).map (fun w => wn (s.quadRec (2 * w) + 65536 * s.quadRec (2 * w + 1))) ++
    (List.range 9).map (maskWord (fun e => e < 272 && (s.eng e).st = .retired)) ++ zeroWords 3 ++
    (List.range 4).map s.bankRec ++ [maskWord (fun j => j < 16 && (s.lane j).marked) 0] ++ zeroWords 151

/-- Payload of the thermal policy. -/
def Dev.thermalPayload (s : Dev) : List W :=
  (List.range 28).flatMap (fun z => [s.rd (aThm (16 * z)), s.rd (aThm (16 * z + 4))]) ++
    (List.range 8).map (fun r => s.rd (aThm (0x200 + 4 * r))) ++ zeroWords 48

/-- The five words W0 to W4 of a patch RAM word, ECC left out. -/
def Dev.pramWords (s : Dev) (w : Nat) : List W :=
  (List.range 5).map (fun v =>
    if v = 4 then ((s.pramWord w).extractLsb' 128 23).setWidth 32 else (s.pramWord w).extractLsb' (32 * v) 32)

/-- Payload of a patch image: every live word, or an empty image (R389). -/
def Dev.patchPayload (s : Dev) (erase : Bool) : List W :=
  if erase then
    zeroWords 32 ++ [0, 0x1000] ++ zeroWords 14 ++ zeroWords 64 ++ (List.range 256).map (fun o => wn (romBudget o)) ++
      zeroWords 5248
  else
    List.replicate 32 0xFFFFFFFF ++ [s.rd (aUcs 0x8100), s.rd (aUcs 0x8108)] ++ zeroWords 14 ++
      (List.range 64).map (fun n => s.rd (aUcs (0x8000 + 4 * n))) ++
      (List.range 256).map (fun o => s.rd (aUcs (0x8200 + 4 * o))) ++ (List.range 1024).flatMap s.pramWords ++ zeroWords 128

/-- Payload of a quad's calibration: what the job found, values the spec leaves open (log 12). -/
def Dev.calPayload (s : Dev) : List W :=
  (List.range 136).map (fun k => Config.freeValue (s.freeIx + k)) ++ zeroWords 8

/-- Payload of a set. -/
def Dev.payload (s : Dev) (t : NvSet) : List W :=
  match t with
  | .repair => s.repairPayload
  | .thermal => s.thermalPayload
  | .patch e => s.patchPayload e
  | .cal _ _ => s.calPayload
  | .calFull _ => []

/-! ### Saves (R383, R385) -/

/-- A save is asked for; it merges into one of the same set that waits to begin. -/
def Dev.requestSave (s : Dev) (t : NvSet) (j : Option Job) : Dev :=
  if s.nv.saves.any (fun v => v.set_ = t) then
    { s with nv := { s.nv with saves := s.nv.saves.map (fun v =>
        if v.set_ = t then { v with job := match v.job with | none => j | some k => some k } else v) } }
  else { s with nv := { s.nv with saves := s.nv.saves ++ [{ set_ := t, job := j }] } }

/-- The repair map changed: it is saved (R302). -/
def Dev.saveMap (s : Dev) : Dev := s.requestSave .repair none

/-- The slot a save writes: the one not in force (R383 step 1). -/
def Dev.saveSlot (s : Dev) (n : Nat) : Nat := (nvSlot n (if s.nvForce n = 1 then 1 else 0)).1

/-- The commit word of a full calibration's quad slot, or of another set's (R382, R388). -/
def commitWord (t : NvSet) (g : Nat) : W := wn (g * 65536 + (match t with | .cal _ (some _) => 256 | _ => 0) + 0x5A)

/-- The word a save writes before it takes its payload: the commit word with STATE 0, or the one CAL_FULL word. -/
def Dev.saveFirst (s : Dev) (t : NvSet) (g : Nat) : List (Nat × W) :=
  match t with
  | .calFull _ => [(0x3A000, commitWord t g)]
  | t => let b := s.saveSlot t.num; [(b, s.nvWord b &&& 0xFFFFFF00)]

/-- Steps 3 and 4 of R383: the payload as it stands, the header, and the commit word. -/
def Dev.saveRest (s : Dev) (t : NvSet) (g : Nat) : List (Nat × W) :=
  let b := s.saveSlot t.num
  let p := s.payload t
  (List.range p.length).map (fun k => (b + 64 + 4 * k, p.getD k 0)) ++
    [(b + 4, crcWords p), (b + 8, wn s.clk.frame), (b + 12, wn (s.clk.frame / 2 ^ 32)),
     (b + 16, Config.fwVersion.setWidth 32), (b, commitWord t g)]

/-- Step 3 of a save begins: its payload is the live state of now (R385). -/
def Dev.fillSave (s : Dev) (r : NvRun) : Dev :=
  let n := match r.save.set_ with | .cal _ _ => 136 | _ => 0
  { s with freeIx := s.freeIx + n
           nv := { s.nv with run := some { r with left := s.saveRest r.save.set_ r.gen, filled := true } } }

/-- A save begins to be written. -/
def Dev.runSave (s : Dev) (v : NvSave) : Dev :=
  let g := s.nextGen v.set_
  let one := match v.set_ with | .calFull _ => true | _ => false
  { s with nv := { s.nv with
      run := some { save := v, left := s.saveFirst v.set_ g, gen := g, filled := one, cut := false } } }

/-- The quads a full calibration has not saved, and its generation (R388). -/
def Dev.calLeft (s : Dev) : Nat × List Nat :=
  let x := match s.nv.calFull with | some x => x | none => (s.nextGen (.cal 0 none), 0)
  (x.1, (List.range 144).filter (fun q => decide (x.2 ≤ q) && decide ((s.quad q).st ≠ .retired)))

/-- The next save begins: the oldest that waits, or with none waiting the next quad that a full calibration has
finished (R383, R388). -/
def Dev.beginSave (s : Dev) : Dev :=
  match s.nv.run, s.nv.saves with
  | none, v :: r => { s with nv := { s.nv with saves := r } }.runSave v
  | none, [] =>
    if s.host.jobs.all (fun j => decide (j.code ≠ 0x71)) then s
    else
      let x := s.calLeft
      match x.2 with
      | q :: _ =>
        { s with nv := { s.nv with calFull := some (x.1, q + 1) } }.runSave { set_ := .cal q (some x.1), job := none }
      | [] => s
  | some _, _ => s

/-- The slot not in force of a set is now in force. -/
def Dev.flipSlot (s : Dev) (n : Nat) : Dev :=
  { s with nv := { s.nv with slot := s.nv.slot.set (fun _ => 0) n (if s.nvForce n = 1 then 2 else 1) } }

/-- CAL_NONE follows a calibration that came into force: the quads that still run on nominal values (R384). -/
def Dev.calCount (s : Dev) : Dev :=
  s.setFld 0x904 7 0 ((List.range 144).filter (fun q => s.nvForce (3 + q) == 0)).length

/-- A finished save: its slot is in force; a full calibration's slots all are once its CAL_FULL word is committed
(R383, R384, R388). -/
def Dev.inForce (s : Dev) (t : NvSet) : Dev :=
  match t with
  | .calFull g =>
    let s := { s with nv := { s.nv with calFull := none } }
    (forN 144 (fun q s =>
      if s.nvWord (s.saveSlot (3 + q)) = commitWord (.cal q (some g)) g then s.flipSlot (3 + q) else s) s).calCount
  | .cal _ (some _) => s
  | .cal q none => (s.flipSlot (3 + q)).calCount
  | t => s.flipSlot t.num

/-! ### One word (R379, R380) -/

/-- The write of one NV word, as its verify went: the flag tells whether it was made durable. With no
spare row left the word keeps its old or its new value (R13, log 12). -/
def Dev.nvVerified (s : Dev) (o : Nat) (v : W) (r : NvVerify) : Dev × Bool :=
  match r with
  | .ok => (s.nvPut o v, true)
  | .retried => ((s.nvPut o v).nvPut o v, true)
  | .failed =>
    let s := s.raise (raiseOf 290 1)
    if s.nv.spare = 0 then
      let d := s.draw
      ((if d.1.bit 0 then d.2.nvPut o v else d.2).note 292, false)
    else
      let s := { s with nv := { s.nv with spare := s.nv.spare - 1 } }
      (((s.nvPut o v).nvPut o v).nvPut o v, true)

/-- A read corrects an NV word: it is rewritten, and NV_ECC1 noted (R380). -/
def Dev.nvEcc1 (s : Dev) (o : Nat) : Dev := (s.nvPut o (s.nvWord o)).note 288

/-- A read meets an NV word that cannot be corrected (R380). -/
def Dev.nvEcc2 (s : Dev) (o : Nat) : Dev := s.raise { f := 289, lvl := 1, sites := [], unit := o, forced := false }

/-! ### Load at boot (R384, R386) -/

/-- A slot is committed: STATE, every word correctable (`bad` lists the offsets of those that are not), and the CRC. -/
def Dev.slotOk (s : Dev) (bad : List Nat) (n b : Nat) : Bool :=
  let x := nvSlot n b
  (s.nvWord x.1).fld 7 0 = 0x5A && !bad.any (fun o => x.1 ≤ o && o < x.1 + x.2) &&
    s.nvWord (x.1 + 4) = crcWords (s.nvWords (x.1 + 64) ((x.2 - 64) / 4))

/-- A committed slot counts: a full calibration not newer than CAL_FULL (R384). -/
def Dev.slotCounts (s : Dev) (bad : List Nat) (n b : Nat) : Bool :=
  let h := s.nvWord (nvSlot n b).1
  s.slotOk bad n b && (n < 3 || !h.bit 8 || (s.calFullOk && !bad.contains 0x3A000 && !newer (h.fld 31 16) s.calFullGen))

/-- The slot in force of a set, as the load finds it: 0 none, 1 A, 2 B. -/
def Dev.judge (s : Dev) (bad : List Nat) (n : Nat) : Nat :=
  let g (b : Nat) := (s.nvWord (nvSlot n b).1).fld 31 16
  match s.slotCounts bad n 0, s.slotCounts bad n 1 with
  | true, true => if newer (g 1) (g 0) then 2 else 1
  | true, false => 1
  | false, true => 2
  | false, false => 0

/-- A committed slot that did not count loses its STATE. -/
def Dev.dropSlot (s : Dev) (bad : List Nat) (n b : Nat) : Dev :=
  let o := (nvSlot n b).1
  if s.slotOk bad n b && !s.slotCounts bad n b then s.nvPut o (s.nvWord o &&& 0xFFFFFF00) else s

/-- Every set is judged; slots that did not count are dropped, and NV_STAT shows what is missing. -/
def Dev.loadNv (s : Dev) (bad : List Nat) : Dev :=
  let slots : Tab Nat := (List.range 147).foldl (fun (t : Tab Nat) n => Tab.set (fun _ => 0) n (s.judge bad n) t) []
  let s := forN 147 (fun n s => (s.dropSlot bad n 0).dropSlot bad n 1) s
  let s : Dev := { s with nv := { s.nv with slot := slots } }
  let none_ := ((List.range 144).filter (fun q => s.nvForce (3 + q) == 0)).length
  s.wr 0x904 (wn (2 ^ 29 * b2n (s.nvForce 0 = 0) + 2 ^ 28 * b2n (s.nvForce 1 = 0) + 2 ^ 27 * b2n (s.nvForce 2 = 0) + none_))

/-- A payload word of the slot in force of a set. -/
def Dev.nvSetWord (s : Dev) (n o : Nat) : W := s.nvWord ((nvSlot n (s.nvForce n - 1)).1 + o)

/-- The repair map in force becomes live state (R304, R390). -/
def Dev.applyMap (s : Dev) : Dev :=
  if s.nvForce 0 = 0 then s
  else
    let w := s.nvSetWord 0
    let s := forN 144 (fun q s =>
      let r := (w (0x40 + 4 * (q / 2))).fld (16 * (q % 2) + 15) (16 * (q % 2))
      if r = 0 then s
      else s.onQuad q (fun z => { z with
        st := if r.testBit 15 then .retired else z.st, sfail := r.testBit 14,
        pfail := (List.range 4).filter (fun c => r.testBit (4 + c)),
        subst := if r.testBit 3 then some (r % 4) else none,
        spare := if r.testBit 14 then .failed else if r.testBit 3 then .subst else .off,
        record := if r.testBit 3 then some (r % 4, false) else none })) s
    let s := forN 272 (fun e s =>
      if (w (0x160 + 4 * (e / 32))).bit (e % 32) then s.onEng e (fun g => { g with st := .retired }) else s) s
    let s := forN 4 (fun n s =>
      let v := w (0x190 + 4 * n)
      s.setSpareBank n { copying := false, copied := false, inUse := v.bit 31, listed := v.bit 31, failed := v.bit 30,
                         bank := if v.bit 31 then v.fld 5 0 else 0 }) s
    forN 16 (fun j s =>
      if (w 0x1A0).bit j then s.onLane j (fun x => { x with st := .failed, marked := true }) else s) s

/-- The order WARN + 3 ≤ THROTTLE ≤ TRIP - 3 of a zone's thresholds (R328). -/
def thrOk (v : W) : Bool := v.fld 7 0 + 3 ≤ v.fld 15 8 && v.fld 15 8 + 3 ≤ v.fld 23 16

/-- The thermal policy in force becomes the THM registers (R391). -/
def Dev.applyThermal (s : Dev) : Dev :=
  if s.nvForce 1 = 0 then s
  else
    let w := s.nvSetWord 1
    let s := forN 28 (fun z s =>
      if thrOk (w (0x40 + 8 * z)) then
        (s.wr (aThm (16 * z)) (w (0x40 + 8 * z))).wr (aThm (16 * z + 4)) (w (0x44 + 8 * z))
      else s.setBits (aThm 0x800) 0x80000000) s
    forN 8 (fun r s => s.wr (aThm (0x200 + 4 * r)) (w (0x120 + 4 * r))) s

/-- The patch install of boot (R123, R389): an empty image installs nothing. -/
def Dev.installPatch (s : Dev) : Dev :=
  let a := aUcs 0x8104
  let s := s.setBits a 0x08000000
  if s.nvForce 2 = 0 then s
  else
    let w := s.nvSetWord 2
    let s := s.setFld a 15 0 (s.nvGen 2)
    let empty := w 0xC0 = 0 && (List.range 32).all (fun k => w (0x40 + 4 * k) = 0) &&
      (List.range 64).all (fun n => w (0x100 + 4 * n) = 0)
    if empty then s
    else
      let s := s.setFld a 29 28 1
      let s := (s.wr (aUcs 0x8100) (w 0xC0 &&& 1)).wr (aUcs 0x8108) (w 0xC4 &&& 0x3FFF)
      let s := forN 64 (fun n s => s.wr (aUcs (0x8000 + 4 * n)) (w (0x100 + 4 * n) &&& 0x80FFFFFF)) s
      let s := forN 256 (fun o s => s.wr (aUcs (0x8200 + 4 * o)) (w (0x200 + 4 * o) &&& 0xFFFF)) s
      forN 1024 (fun p s =>
        if (w (0x40 + 4 * (p / 32))).bit (p % 32) then
          let v (k : Nat) := (w (0x600 + 20 * p + 4 * k)).toNat
          let u := BitVec.ofNat 160 (v 0 + v 1 * 2 ^ 32 + v 2 * 2 ^ 64 + v 3 * 2 ^ 96 + v 4 % 2 ^ 23 * 2 ^ 128)
          { s with ucs := { s.ucs with pram := s.ucs.pram.set (fun _ => trapWord) p u } }
        else s) s

end Sys2Proof.Machine
end

