-- ==== Sys2Proof/Machine/Lanes.lean ====
section
/-! DEFINITION. Lanes, links, credits and replay (R302, R303, R330-R347). -/

namespace Sys2Proof.Machine

/-! ### Lanes in service (R345) -/

/-- The lane is usable: UP, and listed by the partner. -/
def Lane.usable (x : Lane) : Bool := x.st = .up && x.partner

/-- Usable lanes of a link, by index in it; a lane in service that has failed since the last tick leaves at the next one
(R303). -/
def Dev.usable (s : Dev) (l : Nat) : List Nat :=
  (List.range 4).filter (fun i =>
    let x := s.lane (4 * l + i)
    x.usable || (x.failed && x.partner && (s.link l).inSvc.contains i))

/-- The widest set of R330 that the usable lanes fill. -/
def widest (u : List Nat) : List Nat :=
  let has (i : Nat) : Bool := u.contains i
  if has 0 && has 1 && has 2 && has 3 then [0, 1, 2, 3]
  else if has 0 && has 1 then [0, 1]
  else if has 2 && has 3 then [2, 3]
  else u.take 1

/-- The host granted what a link needs to come up (R336). -/
def Link.granted (k : Link) : Bool := 65 ≤ k.credMem && 16 ≤ k.credCmd && 4 ≤ k.credNtfy

/-- A replay takes place: every unacknowledged flit goes out again (R343). -/
def Dev.replay (s : Dev) (l : Nat) : Dev :=
  if (s.link l).sent.isEmpty then s
  else
    (s.onLink l (fun k => { k with replays := min (k.replays + 1) 65535, same := k.same + 1 })).note 98

/-- A link goes DOWN: LINK_DOWN, its messages move, the host grants its credits anew (R345, R347). -/
def Dev.linkDown (s : Dev) (l : Nat) : Dev :=
  let s := s.onLink l (fun k => { k with inSvc := [], nak := false, credMem := 0, credCmd := 0, credNtfy := 0, same := 0 })
  (s.moveMsgs l).note 97

/-- Messages left on links that are DOWN go to the link that has come up. -/
def Dev.moveAll (s : Dev) : Dev := forN 4 (fun l s => s.moveMsgs l) s

/-- A link takes the widest set its usable lanes fill; a change of width replays (R345). -/
def Dev.agree (s : Dev) (l : Nat) : Dev :=
  let k := s.link l
  let w := widest (s.usable l)
  if w = k.inSvc then s
  else if w.isEmpty then s.linkDown l
  else if k.inSvc.isEmpty && !k.granted then s
  else
    let s := s.onLink l (fun k => { k with inSvc := w })
    if k.inSvc.isEmpty then (s.moveAll).onLink l Link.pump else (s.replay l).onLink l Link.pump

/-! ### Training (R344) -/

/-- ECLK in 100 ms (R16, R344). -/
def Dev.eclk100ms (s : Dev) : Nat := 625000 * s.mult

/-- A training attempt begins, the `n`th since the lane last was UP: it takes CFG and TXEQ as they stand (R344, R348). -/
def Dev.attempt (s : Dev) (j n : Nat) : Dev :=
  let cfg := s.rd (aLnk (32 * j + 4))
  s.onLane j (fun x => { x with
    st := .train, attempt := n, total := min 255 (x.total + 1), ready := false
    eq := if cfg.bit 0 then some (s.rd (aLnk (32 * j + 8))) else none
    pat := if s.sys.mode = .diagnostic then cfg.fld 9 8 % 3 else 0 })

/-- A lane leaves UP for TRAIN: the attempts start again unless it came UP less than 100 ms ago. -/
def Dev.retrain (s : Dev) (j : Nat) : Dev :=
  let x := s.lane j
  if x.st ≠ .up then s
  else
    let fresh := s.eclk100ms ≤ s.clk.eclk - x.upAt
    ((s.attempt j (if fresh then 1 else min 3 (x.attempt + 1))).onLane j (fun x => { x with row := 0, errAt := [] })).agree
      (j / 4)

/-- A lane's domain comes good: training begins (R322, R344). -/
def Dev.startLane (s : Dev) (j : Nat) : Dev :=
  if (s.lane j).st = .off then s.attempt j 1 else s

/-- A lane whose attempt has completed is UP once the partner lists it. -/
def Dev.laneUp (s : Dev) (j : Nat) : Dev :=
  let x := s.lane j
  if x.st = .train && x.ready && x.partner then
    (s.setLane j { x with st := .up, ready := false, row := 0, errAt := [], upAt := s.clk.eclk }).agree (j / 4)
  else s

/-- LANE_FAIL on a lane: it is FAILED at once, its link narrows at the next tick (R303, R344). -/
def Dev.laneFail (s : Dev) (j : Nat) : Dev :=
  s.raise { f := 96, lvl := 1, sites := [], unit := j, forced := false }

/-- A lane's domain is switched off (R325, R344). -/
def Dev.laneOff (s : Dev) (j : Nat) : Dev :=
  let x := s.lane j
  let s := if x.st = .failed then s else s.setLane j { laneInit with total := x.total, marked := x.marked }
  s.agree (j / 4)

/-- Lanes that failed since the last tick are recorded, and their links narrow (R302, R303). -/
def Dev.narrow (s : Dev) : Nat → Dev
  | 0 => s
  | j + 1 =>
    let s := s.narrow j
    let x := s.lane j
    if x.failed then (s.setLane j { x with failed := false, marked := true }).agree (j / 4) else s

/-- Some lane failed since the last tick. -/
def Dev.laneFailed (s : Dev) : Bool := s.lanes.any (fun x => x.2.failed)

/-! ### Rows -/

/-- LANE_TRAIN_DONE: an attempt completes. -/
def execLaneTrainDone (j : Fin 16) (s : State) : Host.Outcome State Fault Refusal :=
  s.run (fun s =>
    let x := s.lane j
    if x.st = .train then (s.setLane j { x with ready := true }).laneUp j else s)

/-- LANE_TRAIN_TIMEOUT: an attempt exceeds 8 ms; the third failure raises LANE_FAIL. -/
def execLaneTrainTimeout (j : Fin 16) (s : State) : Host.Outcome State Fault Refusal :=
  s.run (fun s =>
    let x := s.lane j
    if x.st ≠ .train then s
    else if 3 ≤ x.attempt then s.laneFail j
    else s.attempt j (x.attempt + 1))

/-- LANE_LOCK_LOSS: CDR lock is lost. -/
def execLaneLockLoss (j : Fin 16) (s : State) : Host.Outcome State Fault Refusal := s.run (fun s => s.retrain j)

/-- ECLK that 2^24 codewords of 5,440 bits span at 56 Gbit/s (R329, R344). -/
def Dev.limWindow (s : Dev) : Nat := 2 ^ 24 * 17 * s.mult / 28

/-- A data flit was lost: NAK follows, and later data flits are discarded until it arrives (R342). -/
def Dev.lostFlit (s : Dev) (l : Nat) : Dev := s.onLink l (fun k => { k with nak := true })

/-- CODEWORD_UNCORRECTABLE: FEC_UNCORR, the lane's counts, and what their limits ask for. -/
def Dev.uncorrectable (s : Dev) (j : Nat) (hadData : Bool) : Dev :=
  let s := (s.incSat (aLnk (32 * j + 12)) 31 16).note 99
  let s := if hadData then s.lostFlit (j / 4) else s
  let x := s.lane j
  if x.st ≠ .up then s
  else
    let now := s.clk.eclk
    let l := now :: x.errAt.filter (fun t => now < t + s.limWindow)
    let s := s.setLane j { x with row := x.row + 1, errAt := l }
    if max 1 (s.fld (aLnk (32 * j + 4)) 27 16) ≤ l.length then s.laneFail j
    else if 8 ≤ x.row + 1 then s.retrain j
    else s

def execCodewordUncorrectable (j : Fin 16) (hadData : Bool) (s : State) : Host.Outcome State Fault Refusal :=
  s.run (fun s => s.uncorrectable j hadData)

/-- FLIT_CRC_FAIL: the flit is discarded (R342); a good codeword ends a run of uncorrectable ones. -/
def execFlitCrcFail (j : Fin 16) (hadData : Bool) (s : State) : Host.Outcome State Fault Refusal :=
  s.run (fun s =>
    let s := s.onLane j (fun x => { x with row := 0 })
    if hadData then s.lostFlit (j.val / 4) else s)

/-- PROTO: the flit is discarded, and acknowledged where it broke the credit rule (R336, R338). -/
def execProto (l : Fin 4) (why : ProtoWhy) (s : State) : Host.Outcome State Fault Refusal :=
  s.run (fun s =>
    let s := s.note 100
    match why with
    | .noCredit => s.onLink l (fun k => { k with rx := (k.rx + 1) % 4096 })
    | .badOp => s.received (.link l) 1)

/-- The partner acknowledges every flit up to a SEQ (R343). -/
def Link.ackTo (k : Link) (a : Nat) : Link :=
  let ahead (n : Nat) : Nat := (n + 4096 - k.acked) % 4096
  if ahead a = 0 || k.unacked < ahead a then k
  else { k with acked := a, same := 0, sent := k.sent.filter (fun x => ahead a < ahead x.1) }

/-- Eight replays from one flit: every lane of the link trains again (R343). -/
def Dev.replayed (s : Dev) (l : Nat) : Dev :=
  let s := s.replay l
  if (s.link l).same < 8 then s
  else
    let s := s.onLink l (fun k => { k with same := 0 })
    forN 4 (fun i s => s.retrain (4 * l + i)) s

/-- The partner lists its lanes (R332, R344). -/
def Dev.listed (s : Dev) (l : Nat) (m : BitVec 4) : Dev :=
  forN 4 (fun i s =>
    let j := 4 * l + i
    let b := m.getLsbD i
    let was := (s.lane j).partner
    let s := s.onLane j (fun x => { x with partner := b })
    if b then s.laneUp j else if was then s.retrain j else s) s

/-- CTRL_FLIT: the partner's lanes, credits and acknowledgement. A CTRL flit that arrives ends a run of
uncorrectable codewords. -/
def Dev.ctrlFlit (s : Dev) (l : Nat) (f : Ctrl) : Dev :=
  let s := s.onLane (4 * l + f.lane) (fun x => { x with row := 0 })
  let s := s.onLink l (fun k => { k with
    credMem := k.credMem + f.mem.toNat, credCmd := k.credCmd + f.cmd.toNat, credNtfy := k.credNtfy + f.ntfy.toNat })
  let s := if f.ackv then s.onLink l (fun k => k.ackTo f.ack.toNat) else s
  let s := s.listed l f.insvc
  let s := s.agree l
  let s := if f.nak then s.replayed l else s
  s.onLink l Link.pump

def execCtrlFlit (l : Fin 4) (f : Ctrl) (s : State) : Host.Outcome State Fault Refusal :=
  s.run (fun s => s.ctrlFlit l f)

/-- REPLAY_TIMEOUT: the oldest unacknowledged flit has waited RTO. -/
def execReplayTimeout (l : Fin 4) (s : State) : Host.Outcome State Fault Refusal := s.run (fun s => s.replayed l)

/-- NTFY_SEND: the oldest notification goes out on the lowest-numbered link in service (R341). -/
def execNtfySend (s : State) : Host.Outcome State Fault Refusal :=
  s.run (fun s =>
    match s.host.ntfy, s.firstLink with
    | n :: r, some l =>
      let s' := { s with host := { s.host with ntfy := r, lostF := false } }
      s'.sendMsg l (.ntfy { n with lost := s.host.lostF })
    | _, _ => s)

end Sys2Proof.Machine
end

