-- ==== Sys2Proof/Machine/Quads.lean ====
section
/-! DEFINITION. Quads: requests, state changes, the spare and its substitution, retirement (R62-R64, R72,
R193-R200). -/

namespace Sys2Proof.Machine

/-! ### Words and permissions -/

/-- Quad state of a code of the quad state word. -/
def qOf : Nat → Option QState
  | 1 => some .parked | 2 => some .active | 3 => some .watch | 4 => some .service | _ => none

/-- Code of a quad state (R37). -/
def QState.code : QState → Nat
  | .off => 0 | .parked => 1 | .active => 2 | .watch => 3 | .service => 4 | .retired => 5

/-- The mode permits the quad state (R62). -/
def Mode.permits (m : Mode) (z : QState) : Bool :=
  match m with
  | .reset | .safe => z = .off || z = .retired
  | .boot | .recovery => z = .off || z = .parked || z = .retired
  | .calibrate => z = .service || z = .retired
  | _ => true

/-- A request is refused: REJ, REASON and LAST_TAG (R193). -/
def Dev.qRej (s : Dev) (q tag why : Nat) : Dev :=
  let a := aQuad q 4
  ((s.setBits a 0x80000000).setFld a 27 24 why).setFld a 23 16 tag

/-- A request took effect: DONE and LAST_TAG. -/
def Dev.qDone (s : Dev) (q tag : Nat) : Dev :=
  let a := aQuad q 4
  (s.setBits a 0x40000000).setFld a 23 16 tag

/-! ### Circuits of a quad (R194-R196, R201 CIRC) -/

/-- The condition of a primary in a quad state. -/
def Quad.primary (z : Quad) (c : Nat) : CircState :=
  match z.st with
  | .off | .retired => .off
  | .active =>
    if z.subst = some c then (if z.spare = .restoring then .settling else .isolated)
    else .inService
  | _ => .isolated

/-- The condition of the spare's circuit. -/
def Quad.spareCirc (z : Quad) : CircState :=
  match z.st with
  | .off | .retired => .off
  | .active =>
    (match z.spare with
     | .failed => .failed | .subst => .inService | .settling => .settling | .restoring => .isolated | _ => .watch)
  | .watch => (match z.spare with | .failed => .failed | .settling => .settling | _ => .watch)
  | _ => .isolated

/-- A circuit takes a condition. Out of service its driver and its DPS are off, with the bleeder engaged as it leaves
service and wherever `bleed` says so: outside ACTIVE (R188, R194). -/
def circTo (bleed : Bool) (st : CircState) (x : Circ) : Circ :=
  if st = .inService then { x with st := st }
  else { x with st := st, dpsOn := false, bleed := x.bleed || bleed || decide (x.st = .inService), limit := false,
                drv := none, evs := [] }

/-- Every circuit of a quad follows its quad. -/
def Dev.setCircs (s : Dev) (q : Nat) : Dev :=
  let z := s.quad q
  let b := decide (z.st ≠ .active)
  let s := forN 4 (fun c s => s.onCirc (5 * q + c) (circTo b (z.primary c))) s
  s.onCirc (5 * q + 4) (circTo b z.spareCirc)

/-- The weirs of a quad lose their state: power comes on (R270). -/
def Dev.weirsOn (s : Dev) (q : Nat) : Dev := forN 5 (fun c s => s.setWeir (5 * q + c) weirInit) s

/-- A quad whose channels are powered: ACTIVE or WATCH. -/
def QState.up (t : QState) : Bool := t = .active || t = .watch

/-- A sequence under way goes on: between ACTIVE and WATCH (R198, R200). -/
def Quad.goesOn (z : Quad) (t : QState) : Bool := z.seq.isSome && z.st.up && t.up

/-- The spare's condition as its quad enters a state (R195, R198). -/
def Quad.spareFor (z : Quad) (t : QState) : SpareState :=
  match z.spare with
  | .failed => .failed
  | .subst => .subst
  | .settling => if z.goesOn t then .settling else .subst
  | .restoring => if z.goesOn t then .restoring else if z.sfail then .failed else if t.up then .watch else .off
  | _ => if t.up then .watch else .off

/-- What waits for the next ACTIVE once the quad enters a state: a sequence that is cut short is recorded (R198,
R200). -/
def Quad.recordFor (z : Quad) (t : QState) : Option (Nat × Bool) :=
  match z.seq with
  | some x => if z.goesOn t then z.record else some (x.c, x.restore)
  | none => z.record

/-- What leaving ACTIVE does to a quad's units: TDCs close with quiet NaN (R261); out of ACTIVE and WATCH the
capture ends (R241). -/
def Dev.quadUnits (s : Dev) (q : Nat) (old new : QState) : Dev :=
  let s := if old = .active && new ≠ .active then forN 5 (fun c s => s.tdcLost (5 * q + c)) s else s
  if old.up && !new.up then s.acqEnd q 5 else s

/-- Circuit n takes the service of a pin over from circuit p: gang role, filters and counts go with it, its chain
restarts, its weir reads UNKNOWN, its TDC queue starts empty; SUBST_LO and SUBST_HI name the tick (R196, R231, R270). -/
def Dev.handOver (s : Dev) (q p n : Nat) : Dev :=
  let g := (s.circ p).gang
  let h := s.chain p
  let s := s.onCirc p (fun x => { x with gang := none })
  let s := s.onCirc n (fun x => { x with gang := g })
  let s := s.onChain n (fun y => { y with n := h.n, j := h.j, bank := h.bank, fade := h.fade, pendXf := h.pendXf })
  let s := ((s.restartChain n).setWeir n weirInit).tdcEmpty n
  s.wrFrame (aQuad q 0x10) (aQuad q 0x14) s.clk.frame

/-- A recorded substitution or restore takes effect, without settling frames (R198, R200). -/
def Dev.serveRecord (s : Dev) (q : Nat) (r : Nat × Bool) : Dev :=
  if r.2 then s.handOver q (5 * q + 4) (5 * q + r.1) else s.handOver q (5 * q + r.1) (5 * q + 4)

/-- Sites that run with a pin in a quad, for QUAD_LEFT (R72). -/
def Dev.runningIn (s : Dev) (q : Nat) : List Nat := (s.quadAim q).filter (fun i => (s.eng (s.engOf i)).live)

/-- A quad changes state: its circuits, weirs and units follow. A substitution under way goes on between ACTIVE and
WATCH, and is recorded by any other change (R193, R194, R198). QUAD_LEFT is left to the caller, which raises it once for the tick. -/
def Dev.quadTo (s : Dev) (q : Nat) (t : QState) : Dev :=
  let z := s.quad q
  let s := s.quadUnits q z.st t
  let due := z.recordFor t
  let s := s.setQuad q { z with
    st := t, warm := none, spare := z.spareFor t, seq := if z.goesOn t then z.seq else none,
    record := if t = .active then none else due,
    subst := if z.spare = .restoring && !z.goesOn t then none else z.subst }
  let s := if (z.st = .off || z.st = .service) && t ≠ .off && t ≠ .retired then s.weirsOn q else s
  let s := s.setCircs q
  match due with
  | some r => if t = .active then s.serveRecord q r else s
  | none => s

/-- The QUAD_LEFT raises of a quad about to leave ACTIVE for a state (R72). -/
def Dev.leftRaises (s : Dev) (q : Nat) (t : QState) : List Raise :=
  if (s.quad q).st = .active && t ≠ .active then (s.runningIn q).map (fun i => raiseAt 225 2 [i]) else []

/-- Pins of a running site in a quad it loses drive their dwell state (R72). -/
def Dev.dwellPins (s : Dev) (q : Nat) : Dev :=
  forL (s.runningIn q) (fun i s =>
    let gone := ((s.pins i).filter (fun p => p / 4 = q)).map s.tpinOf
    s.onSite i (fun x => { x with last := x.last.filter (fun k => !gone.contains k.1) })) s

/-- Several quads change state at one tick: one occurrence of QUAD_LEFT (R72, R291). -/
def Dev.quadsTo (s : Dev) (l : List (Nat × QState)) : Dev :=
  let rs := l.flatMap (fun x => s.leftRaises x.1 x.2)
  let s := forL l (fun x s => (if (s.quad x.1).st = .active && x.2 ≠ .active then s.dwellPins x.1 else s).quadTo x.1 x.2) s
  if rs.isEmpty then s else s.raises rs

/-! ### Requests (R193, R273) -/

/-- A warming request ends SUPERSEDED, its warmed stages power down. -/
def Dev.qSupersede (s : Dev) (q : Nat) : Dev :=
  match (s.quad q).warm with
  | some (_, tag, _) => (s.qRej q tag 4).onQuad q (fun z => { z with warm := none })
  | none => s

/-- Ticks from the acceptance of a request to its change (R193). -/
def Dev.qWait (s : Dev) (old new : QState) : Nat :=
  match old, new with
  | .parked, .service => 0
  | .parked, _ => s.warmTicks
  | .service, _ => s.warmTicks
  | _, _ => 0

/-- A request for a state applies to a quad; its change falls due in phase d of this tick or of a later
one (R24, R193). -/
def Dev.qRequest (s : Dev) (q : Nat) (t : QState) (tag : Nat) : Dev :=
  let z := s.quad q
  if z.st = .off then s.qRej q tag 1
  else if !s.sys.mode.permits t then s.qRej q tag 2
  else if z.st = .retired then s.qRej q tag 5
  else if z.st = t then (s.qSupersede q).qDone q tag
  else if z.st = .service && z.cal then s.qRej q tag 3
  else (s.qSupersede q).onQuad q (fun y => { y with warm := some (t, tag, s.qWait y.st t) })

/-- A write of Q.REQ applies. -/
def Dev.qReqWrite (s : Dev) (q : Nat) (v : W) : Dev :=
  match qOf (v.fld 2 0) with
  | none => s.qRej q (v.fld 15 8) 1
  | some t => s.qRequest q t (v.fld 15 8)

/-- One tick of a warming request (R55, R193). -/
def Quad.warmTick (z : Quad) : Quad :=
  match z.warm with
  | some (t, tag, n + 1) => { z with warm := some (t, tag, n) }
  | _ => z

/-- The changes that fall due at this tick, with their tags. -/
def Dev.quadsDue (s : Dev) : List (Nat × QState × Nat) :=
  s.quads.filterMap (fun x =>
    match x.2.warm with
    | some (t, tag, 0) => some (x.1, t, tag)
    | _ => none)

/-- The requested changes of the tick are made and counted down (phase d). -/
def Dev.quadChanges (s : Dev) : Dev :=
  let due := s.quadsDue
  let s := s.quadsTo (due.map (fun x => (x.1, x.2.1)))
  let s := forL due (fun x s => s.qDone x.1 x.2.2) s
  let ids := due.map (·.1)
  { s with quads := s.quads.updAt quadInit (fun q z => if ids.contains q then z else z.warmTick) }

/-! ### Powered and retired (R193, R199, R302) -/

/-- A quad's domain has been good for 100 µs: PARKED at this tick; a SERVICE quad stays so (R193). -/
def Dev.quadPowered (s : Dev) (q : Nat) : Dev :=
  let z := s.quad q
  let s := s.onQuad q (fun z => { z with powering := none })
  if z.st = .off then s.quadTo q .parked else s

/-- The repair map's part of a retirement: the quad stays RETIRED, its domain goes off at the next tick. -/
def Dev.retireMark (s : Dev) (q : Nat) : Dev :=
  (s.onQuad q (fun z => { z with retire := false, domOff := true, faults := [], warm := none, powering := none })).saveMap

/-- Quads are retired at this tick (R199). -/
def Dev.retireQuads (s : Dev) (l : List Nat) : Dev :=
  let l := l.filter (fun q => (s.quad q).st ≠ .retired)
  let s := s.quadsTo (l.map (fun q => (q, QState.retired)))
  forL l (fun q s => s.retireMark q) s

/-! ### Substitution (R196-R200) -/

/-- The pin's site is voided with cause SUBST if it has a step open and the quad is ACTIVE (R197, R198). -/
def Dev.substVoid (s : Dev) (q c : Nat) : Dev :=
  if (s.quad q).st ≠ .active then s
  else
    match s.siteOfPin (4 * q + c) with
    | some i => if (s.site i).stepOpen then s.voidSite 16 i else s
    | none => s

/-- Tick T: the circuit that serves the pin goes off and its measurements end; the other one settles. -/
def Dev.substBegin (s : Dev) (q c : Nat) (restore : Bool) : Dev :=
  let old := if restore then 5 * q + 4 else 5 * q + c
  let follower := s.follower (4 * q + c)
  let s := (s.measKill old).tdcKill old
  let s := s.onQuad q (fun z => { z with
    subst := some c, spare := if restore then .restoring else .settling,
    seq := some { c := c, tick := 0, s := s.settleTicks, restore := restore } })
  let s := s.setCircs q
  let s := if follower then s.onCirc old (dpsOff false) else s
  (s.saveMap).substVoid q c

/-- A change recorded while the quad is PARKED, in SERVICE or OFF (R198, R200). -/
def Dev.substRecord (s : Dev) (q c : Nat) (restore : Bool) : Dev :=
  let s := s.onQuad q (fun z =>
    if restore then { z with subst := none, spare := .off, record := some (c, true) }
    else { z with subst := some c, spare := .subst, record := some (c, false) })
  s.saveMap

/-- A substitution or restore starts, or is recorded, as the quad's state asks. -/
def Dev.substStart (s : Dev) (q c : Nat) (restore : Bool) : Dev :=
  match (s.quad q).st with
  | .active | .watch => s.substBegin q c restore
  | _ => s.substRecord q c restore

/-- A SUBST_REQ cannot act (R200). -/
def Quad.substBad (z : Quad) (c : Nat) (restore : Bool) : Bool :=
  z.st = .retired ||
    (if restore then z.subst ≠ some c || z.spare ≠ .subst || z.pfail.contains c
     else z.subst.isSome || z.spare = .failed || z.spare = .settling || z.spare = .restoring || z.sfail)

/-- A write of Q.SUBST_REQ applies. A fault and a request for one pin at one tick start one substitution. -/
def Dev.substWrite (s : Dev) (q : Nat) (v : W) : Dev :=
  let z := s.quad q
  let c := v.fld 1 0
  if !v.bit 31 then s
  else if !v.bit 30 && z.faults = [c] then s
  else if z.substBad c (v.bit 30) then s.qRej q (s.fld (aQuad q 4) 23 16) 6
  else s.substStart q c (v.bit 30)

/-- The outcome of the DEGRADE faults of a frame on a quad's circuits (R196, R199). -/
def Dev.quadFaults (s : Dev) (q : Nat) : Dev × Bool :=
  let z := s.quad q
  let l := z.faults
  let s := s.onQuad q (fun z => { z with faults := [] })
  if l.isEmpty || z.st = .retired then (s, false)
  else
    let busy := z.spare = .subst || z.spare = .settling
    let prim := l.filter (fun c => c < 4 && !(busy && z.subst = some c))
    let s := (s.onQuad q (fun z => { z with pfail := (l.filter (· < 4)).foldl (fun p c => insAsc c p) z.pfail })).saveMap
    if l.contains 4 && busy then (s, true)
    else
      let bad := l.contains 4 || z.sfail
      let s := if l.contains 4 then (s.onQuad q (fun z => { z with
        sfail := true, spare := if z.spare = .restoring then .restoring else .failed })).setCircs q else s
      match prim with
      | [] => (s, false)
      | [c] =>
        if z.spare = .restoring && z.subst = some c && !bad then
          (((s.onQuad q (fun z => { z with subst := none, spare := .watch, seq := none })).substStart q c false), false)
        else if z.spare = .restoring || busy || bad then (s, true)
        else (s.substStart q c false, false)
      | _ => (s, true)

/-- The spare enters service for pin c (R196). -/
def Dev.spareServes (s : Dev) (q c : Nat) : Dev :=
  let s := s.onQuad q (fun z => { z with spare := .subst, seq := none })
  (s.setCircs q).handOver q (5 * q + c) (5 * q + 4)

/-- The primary enters service again; the spare returns to WATCH, or reads FAILED where it failed meanwhile (R195,
R200). -/
def Dev.primaryServes (s : Dev) (q c : Nat) : Dev :=
  let s := s.onQuad q (fun z => { z with spare := if z.sfail then .failed else .watch, subst := none, seq := none })
  ((s.setCircs q).handOver q (5 * q + 4) (5 * q + c)).saveMap

/-- The path switch to the pin closes: the circuit that takes over is settling (tick T + 1). -/
def Dev.substPath (s : Dev) (q : Nat) : Dev :=
  match (s.quad q).seq with
  | none => s
  | some x => s.onQuad q (fun z => { z with seq := some { x with tick := max x.tick 1 } })

/-- Tick T + S: the circuit that takes over is in service. -/
def Dev.substServe (s : Dev) (q : Nat) : Dev :=
  match (s.quad q).seq with
  | none => s
  | some x => if x.restore then s.primaryServes q x.c else s.spareServes q x.c

/-- One tick of a sequence under way: its voids, and the step that falls due (R196, R197). -/
def Dev.substTick (s : Dev) (q : Nat) : Dev :=
  match (s.quad q).seq with
  | none => s
  | some x =>
    let s := s.substVoid q x.c
    if x.s ≤ x.tick then s.substServe q
    else s.onQuad q (fun z => { z with seq := some { x with tick := x.tick + 1 } })

/-- Phase d of a tick: sequences under way, the faults of the ended frame, retirements, requested changes
and quads just powered (R24). -/
def Dev.quadPhase (s : Dev) : Dev :=
  let ids := s.quads.map (·.1)
  let running := ids.filter (fun q => match (s.quad q).seq with | some x => 0 < x.tick | none => false)
  let s := forL running (fun q s => s.substTick q) s
  let r := ids.foldl (fun (r : Dev × List Nat) q =>
    let x := r.1.quadFaults q
    (x.1, if x.2 then r.2 ++ [q] else r.2)) (s, [])
  let s := r.1
  let s := forL (ids.filter (fun q => (s.quad q).seq.isSome)) (fun q s =>
    s.onQuad q (fun z => { z with seq := z.seq.map (fun x => { x with tick := max x.tick 1 }) })) s
  let s := s.retireQuads (r.2 ++ (ids.filter (fun q => (s.quad q).retire && !r.2.contains q)))
  s.quadChanges

/-! ### Rows of single steps -/

/-- QUAD_WARM_DONE: a warming request of a quad takes effect (R193). -/
def execQuadWarmDone (q : Fin 144) (s : State) : Host.Outcome State Fault Refusal :=
  s.run (fun s => match (s.quad q).warm with
    | some (t, tag, _) => (s.quadsTo [(q.val, t)]).qDone q tag
    | none => s)

def execSubstPathClose (q : Fin 144) (s : State) : Host.Outcome State Fault Refusal := s.run (fun s => s.substPath q)

def execSubstInService (q : Fin 144) (s : State) : Host.Outcome State Fault Refusal := s.run (fun s => s.substServe q)

/-- The raise of CH_HW on a circuit. -/
def Dev.chRaise (s : Dev) (ch : Nat) : Raise := { f := 224, lvl := 1, sites := s.circAim ch, unit := ch, forced := false }

/-- The raise of QUAD_HW on a quad. -/
def Dev.quadRaise (s : Dev) (q : Nat) : Raise := { f := 229, lvl := 1, sites := s.quadAim q, unit := q, forced := false }

/-- CH_HW: the circuits that fail their self-check in one ECLK, with the quads whose shared logic does, in one occurrence
(R291, R308); their repairs fall at the next tick (R196, R199). -/
def execChHw (x : HwFaults) (s : State) : Host.Outcome State Fault Refusal :=
  s.run (fun s => s.raises (x.chs.map (fun c => s.chRaise c.val) ++ x.qs.map (fun q => s.quadRaise q.val)))

/-- QUAD_HW: the quads whose shared logic fails in one ECLK; each is retired (R291, R302, R308). -/
def execQuadHw (qs : List (Fin 144)) (s : State) : Host.Outcome State Fault Refusal :=
  s.run (fun s => s.raises (qs.map (fun q => s.quadRaise q.val)))

end Sys2Proof.Machine
end

