-- ==== Sys2Proof/Machine/Weirs.lean ====
section
/-! DEFINITION. Weirs and the wake on touchdown (R267-R273). Levels come in 1/256 of a threshold code
(log 19). -/

namespace Sys2Proof.Machine

/-- The weir is powered (R270). -/
def Dev.weirPowered (s : Dev) (c : Nat) : Bool :=
  let z := (s.quad (c / 5)).st
  let m := s.sys.mode
  if m.idleOrWorking && m ≠ .calibrate then z = .parked || z = .watch || z = .active
  else (m = .boot || m = .recovery) && z = .parked

/-- WEIR_CFG.MODE and N of the pin a circuit applies. -/
def Dev.weirMode (s : Dev) (c : Nat) : Nat := s.fld (aPin (s.cfgPin c) 0x60) 2 0
def Dev.weirExp (s : Dev) (c : Nat) : Nat := s.fld (aPin (s.cfgPin c) 0x60) 12 8

/-- The weir samples in this frame (R268, mode S). -/
def Dev.weirSamples (s : Dev) (c : Nat) : Bool :=
  s.weirMode c = 4 && s.clk.ticked && s.clk.frame % 2 ^ s.weirExp c = 0

/-- The state a level gives a weir (R269); the first evaluation has no hysteresis (R270). -/
def weirNext (st : WeirState) (low high hys level : Int) : WeirState :=
  let plain : WeirState :=
    if high * 256 < level then .above else if level < low * 256 then .below else .inside
  match st with
  | .inside | .unknown => plain
  | .above => if level < (high - hys) * 256 then plain else .above
  | .below => if (low + hys) * 256 < level then plain else .below

/-- The stamp of a weir's change: its instant, from which W0 subtracts the calibrated propagation (R271). -/
def Dev.weirStamp (s : Dev) (c pos lsb : Nat) : Int :=
  let t := s.tdcTime (s.tdc c) pos lsb
  if s.weirMode c = 0 then t - (Config.weirDelay (s.calPath c) (s.calRecord c) * s.mult : Nat) else t

/-- A change between IN and not IN fires ENTER or EXIT, and is an edge of TDC source 5 or 4 at the same instant
(R271). -/
def Dev.weirFire (s : Dev) (c pos lsb : Nat) (entered : Bool) : Dev :=
  let a := aCh c 0x68
  let s := (s.setBits a (if entered then 0x40000000 else 0x20000000)).incSat a 15 0
  let s := s.produce { kind := 2, sub := b2n !entered, index := c } (s.edgeAt pos) 289 .none none
  s.tdcEdgeIn c (if entered then 5 else 4) (s.weirStamp c pos lsb)

/-- A weir judges its pin (R269-R271). -/
def Dev.weirJudge (s : Dev) (c pos lsb : Nat) (level : Int) : Dev :=
  let w := s.weir c
  let p := s.cfgPin c
  let st := weirNext w.st (s.fld (aPin p 0x64) 11 0) (s.fld (aPin p 0x64) 27 16) (s.fld (aPin p 0x60) 7 4) level
  let first := decide (w.st = .unknown)
  let s := s.setWeir c { w with st := st, unsettled := first }
  if !first && (decide (w.st = .inside) != decide (st = .inside)) then s.weirFire c pos lsb (decide (st = .inside)) else s

/-- The circuit's weir is on its pin: the spare's once it is substituted, then no longer the primary's; none while a
substitution settles (R175, R196, R270). -/
def Dev.weirServes (s : Dev) (c : Nat) : Bool :=
  !(s.pinsOfCirc c).isEmpty && (match (s.quad (c / 5)).seq with | some x => x.c ≠ c % 5 | none => true)

/-- A weir judges where it is powered, is on its pin and its DACs have settled. -/
def Dev.weirSees (s : Dev) (c pos lsb : Nat) (level : Int) : Dev :=
  if s.weirPowered c && s.weirServes c && !(s.weir c).settling then s.weirJudge c pos lsb level else s

/-! ### Wake (R272, R273) -/

/-- The mode lets the wake logic evaluate. -/
def Mode.wakes (m : Mode) : Bool := m.idleOrWorking && m ≠ .calibrate

/-- The circuits that serve the masked pins of a quad's wake logic. -/
def Dev.wakeMask (s : Dev) (q : Nat) : List Nat :=
  ((List.range 4).filter (fun c => s.bit (aQuad q 0x20) (16 + c))).map (fun c => s.circOf (4 * q + c))

/-- The pull on a pin: 1 for +1 µA up to +1.5 V, 2 for -1 µA down to -0.5 V, 0 for none. A masked pin carries it while
its quad is PARKED with wake on, in a mode that wakes (R272). -/
def Dev.pullOf (s : Dev) (p : Nat) : Nat :=
  let a := aQuad (p / 4) 0x20
  let k := s.fld a 29 28
  if s.bit a 31 && s.bit a (16 + p % 4) && (s.quad (p / 4)).st = .parked && s.sys.mode.wakes && k < 3 then k else 0

/-- The condition holds: at least NEED masked weirs vote for it. -/
def Dev.wakeMet (s : Dev) (q : Nat) : Bool :=
  let cond := s.bit (aQuad q 0x20) 30
  let need := max 1 (min 4 (s.fld (aQuad q 0x20) 10 8))
  let vote (c : Nat) : Bool :=
    match (s.weir c).st with
    | .unknown => false
    | .inside => cond
    | .above | .below => !cond
  need ≤ ((s.wakeMask q).filter vote).length

/-- One evaluation of a quad's wake logic. -/
def Dev.wakeEval (s : Dev) (q : Nat) : Dev :=
  let z := s.quad q
  let a := aQuad q 0x20
  if !s.bit a 31 || !s.sys.mode.wakes then s
  else
    let met := s.wakeMet q
    if z.st ≠ .parked then (if met then s.setBits (aQuad q 0x24) 0x40000000 else s)
    else if !met then s.setQuad q { z with wakeRun := 0, wakeUnset := false }
    else
      let n := min 15 (z.wakeRun + 1)
      let unset := z.wakeUnset || (s.wakeMask q).any (fun c => (s.weir c).unsettled)
      s.setQuad q { z with
        wakeRun := n, wakeUnset := unset, wakeReq := z.wakeReq || decide (max 1 (s.fld a 3 0) ≤ n) }

/-- The evaluation at SCLK 0 of a tick, for the masked weirs in a continuous mode. -/
def Dev.wakeAtTick (s : Dev) (q : Nat) : Dev :=
  if (s.wakeMask q).any (fun c => s.weirMode c ≤ 3) then s.wakeEval q else s

/-- A request for ACTIVE already warms: a wake found meanwhile adds nothing (log 20). -/
def Quad.waking (z : Quad) : Bool :=
  match z.warm with
  | some (t, _, _) => t = .active
  | none => false

/-- A quad wakes at its tick (R273). -/
def Dev.wake (s : Dev) (q : Nat) : Dev :=
  let z := s.quad q
  if !z.wakeReq then s
  else
    let s := s.setQuad q { z with wakeReq := false, wakeRun := 0, wakeUnset := false }
    if z.st ≠ .parked || z.waking then s
    else
      let s := s.qRequest q .active 0
      let s := s.setBits (aQuad q 0x24) (if z.wakeUnset then 0xA0000000 else 0x80000000)
      let s := s.produce { kind := 5, sub := 0, index := q } s.clk.eclk 290 .none none
      s.notify (s.ntfyNow 5 q 0) false

/-! ### Rows -/

/-- WEIR_CHANGE: a weir in a continuous mode sees its pin cross. -/
def execWeirChange (ch : Fin 720) (x : Instant) (level : Int) (s : State) :
    Host.Outcome State Fault Refusal :=
  s.run (fun s => if s.weirMode ch ≤ 3 then s.weirSees ch x.pos.toNat x.lsb level else s)

/-- The highest masked circuit of a quad that samples in this frame: its sample is the wake logic's. -/
def Dev.lastSampler (s : Dev) (q : Nat) : Option Nat := ((s.wakeMask q).filter s.weirSamples).getLast?

/-- WEIR_SAMPLE: a weir in mode S evaluates once in the frame. -/
def execWeirSample (ch : Fin 720) (x : Instant) (level : Int) (s : State) :
    Host.Outcome State Fault Refusal :=
  s.run (fun s => if !s.weirSamples ch then s
    else
      let s := s.weirSees ch x.pos.toNat x.lsb level
      if s.lastSampler (ch.val / 5) = some ch.val then s.wakeEval (ch.val / 5) else s)

/-- WEIR_SETTLED: the DACs have settled, and the weir judges the pin afresh (R271); in mode S the next
sample does so. -/
def execWeirSettled (ch : Fin 720) (x : Instant) (level : Int) (s : State) :
    Host.Outcome State Fault Refusal :=
  s.run (fun s =>
    let s := s.onWeir ch (fun w => { w with settling := false })
    if s.weirMode ch ≤ 3 then s.weirSees ch x.pos.toNat x.lsb level else s)

/-- WAKE: the counted evaluations reach CONF. -/
def execWake (q : Fin 144) (s : State) : Host.Outcome State Fault Refusal := s.run (fun s => s.wake q)

end Sys2Proof.Machine
end

