-- ==== Sys2Proof/Machine/Power.lean ====
section
/-! DEFINITION. Power domains (R76, R160, R193, R308, R322-R325). -/

namespace Sys2Proof.Machine

/-- The number a domain has in `Pwr`. -/
def domNum : Domain → Nat
  | .quad q => q
  | .cluster k => 144 + k
  | .group g => 160 + g
  | .lane j => 176 + j
  | .bias d => 192 + d

def Dev.domOn (s : Dev) (n : Nat) : Bool := s.pwr.on.contains n
def Dev.domGood (s : Dev) (n : Nat) : Bool := s.pwr.good.contains n

/-- A request is refused (R324). -/
def Dev.pwrRej (s : Dev) (why : Nat) : Dev := (s.setBits (aPwr 0x80) 0x80000000).setFld (aPwr 0x80) 3 0 why

/-- A domain's power is removed. -/
def Dev.domCut (s : Dev) (n : Nat) : Dev :=
  { s with pwr := { s.pwr with on := rmv n s.pwr.on, good := rmv n s.pwr.good, wait := rmv n s.pwr.wait, fresh := rmv n s.pwr.fresh } }

/-- A domain is on, or its switch-on waits. -/
def Dev.domAsked (s : Dev) (n : Nat) : Bool := s.domOn n || s.pwr.wait.contains n || s.pwr.fresh.contains n

/-- A domain is switched on. -/
def Dev.domSwitch (s : Dev) (n : Nat) : Dev := { s with pwr := { s.pwr with on := insAsc n s.pwr.on } }

/-- A switch-on waits for admission (R323). -/
def Dev.domWait (s : Dev) (n : Nat) : Dev :=
  if s.domAsked n then s else { s with pwr := { s.pwr with fresh := insAsc n s.pwr.fresh } }

/-! ### What the domains hold -/

/-- Engine state of a cluster is lost (R75, R76): RETIRED engines stay RETIRED. -/
def Dev.clusterClear (s : Dev) (k : Nat) : Dev :=
  { s with
    engs := s.engs.updAt engOff (fun e g => if clusterOf e = k && g.st ≠ .retired then engOff else g)
    scratch := s.scratch.filter (fun c => clusterOf (c.1 / 16384) ≠ k)
    regs := s.regs.filter (fun x => match locOf x.1 with | .eng e _ => clusterOf e ≠ k | _ => true) }

/-- Engines of clusters that are good come out of OFF: SPARE, and READY where a mapped site binds them. -/
def Dev.enginesUp (s : Dev) : Dev :=
  forN 16 (fun k s =>
    if !s.domGood (144 + k) then s
    else forN 17 (fun n s =>
      let e := 17 * k + n
      let g := s.eng e
      if g.st = .off then s.setEng e { g with st := if (s.siteOf e).isSome then .ready else .spare } else s) s) s

/-- Cistern contents of a bank group cleared (R322). -/
def Dev.groupClear (s : Dev) (g : Nat) : Dev :=
  { s with mem := s.mem.filter (fun c => !(match locOf c.1 with | .cis o => s.bankOf o / 4 = g | _ => false)) }

/-- The whole cistern cleared, every ring and segment table with it (R160). -/
def Dev.cisClear (s : Dev) : Dev :=
  let s := s.clearMem (aCis 0) (aCis (2 ^ 27))
  let s := { s with cis := { s.cis with poison := [], scrub := 0 } }
  forN 16 (fun y s => let p := s.ply y; if p.ring = .off then s else s.ringClear y .filling) s

/-! ### Switching off (R193, R324, R325) -/

/-- A lane is the last one in service on the device. -/
def Dev.lastLane (s : Dev) (j : Nat) : Bool :=
  (s.link (j / 4)).inSvc = [j % 4] && (List.range 4).all (fun l => l = j / 4 || (s.link l).inSvc.isEmpty)

/-- Why a switch-off is refused; 0 where it is not. -/
def Dev.offRej (s : Dev) (n : Nat) : Nat :=
  if 192 ≤ n then (if (List.range 36).any (fun i => s.domOn (36 * (n - 192) + i)) then 3 else 0)
  else if 176 ≤ n then (if s.lastLane (n - 176) then 5 else 0)
  else if 144 ≤ n ∧ n < 160 then (if s.clusterLive (n - 144) then 4 else 0)
  else 0

/-- A domain goes off; a quad in another state than SERVICE or RETIRED goes OFF with it. -/
def Dev.domOff (s : Dev) (n : Nat) : Dev :=
  let s := s.domCut n
  if 192 ≤ n then s
  else if 176 ≤ n then s.laneOff (n - 176)
  else if 160 ≤ n then s
  else if 144 ≤ n then s.clusterClear (n - 144)
  else
    let s := s.onQuad n (fun z => { z with powering := none })
    if (s.quad n).st = .service || (s.quad n).st = .retired || (s.quad n).st = .off then s
    else (if (s.quad n).st = .active then s.dwellPins n else s).quadTo n .off

/-- Why a switch-on is refused; 0 where it is not. -/
def Dev.onRej (s : Dev) (n : Nat) : Nat :=
  if 144 ≤ n then 0
  else if !s.domGood (192 + n / 36) then 1
  else if (s.quad n).st = .retired then 2
  else 0

/-! ### Requests (R323, R324) -/

/-- Domains a bit of a request register names: first domain of its bit 0, and how many bits. -/
def reqBase (o : Nat) : Nat × Nat :=
  if o < 0x10 then (8 * o, 32) else if o = 0x10 then (128, 16) else if o = 0x20 then (144, 16)
  else if o = 0x24 then (176, 16) else if o = 0x28 then (192, 4) else (0, 0)

/-- One request for a domain: the reason of a refusal, 0 for none. QUAD_LEFT is raised by the caller. -/
def Dev.domAsk (s : Dev) (n : Nat) (on : Bool) : Dev × Nat :=
  if on then
    if s.domAsked n then (s, 0)
    else
      let why := s.onRej n
      if why ≠ 0 then (s.pwrRej why, why) else (s.domWait n, 0)
  else if !s.domAsked n then (s, 0)
  else
    let why := s.offRej n
    if why ≠ 0 then (s.pwrRej why, why) else (s.domOff n, 0)

/-- A new number of bank groups (R160, R323). -/
def Dev.setGroups (s : Dev) (n : Nat) : Dev :=
  let s := if n = s.pwr.groups then s else s.cisClear
  let s := { s with pwr := { s.pwr with groups := n } }
  forN 16 (fun g s => if g < n then s.domWait (160 + g) else s.domCut (160 + g)) s

/-- A GREQ write acts (R324). -/
def Dev.greq (s : Dev) : Dev :=
  let n := s.fld (aPwr 0x2C) 4 0
  if s.sys.mode ≠ .idle || !(n = 4 || n = 8 || n = 16) then s.pwrRej 6 else s.setGroups n

/-- One entry of the requests of a tick: the first refusal's reason. For GREQ the entry of a PWR_GROUPS carries its value,
which a write of the register has stored already. -/
def Dev.askEntry (s : Dev) (o : Nat) (m : W) : Dev × Nat :=
  if o = 0x2C then ((if m = 0xFFFFFFFF then s else s.wr (aPwr 0x2C) m).greq, 0)
  else
    let b := reqBase o
    (List.range b.2).foldl (fun (r : Dev × Nat) i =>
      if !m.bit i then r
      else
        let x := r.1.domAsk (b.1 + i) (r.1.bit (aPwr o) i)
        (x.1, if r.2 = 0 then x.2 else r.2)) (s, 0)

/-- One request of a tick: its registers in turn, and the PWR_SET that carried it completes with the first
refusal's reason (R324, R363). -/
def Dev.askAll (s : Dev) (l : List (Nat × W)) (j : Option Job) : Dev :=
  let r := l.foldl (fun (r : Dev × Nat) x =>
    let y := r.1.askEntry x.1 x.2
    (y.1, if r.2 = 0 then y.2 else r.2)) (s, 0)
  match j with
  | some j => if r.2 = 0 then r.1.complete j 0 0 [] else r.1.complete j 3 r.2 []
  | none => r.1

/-- Admissions left of a tick, by class: quads, clusters, groups, lanes, bias. -/
def admitLimit (n : Nat) : Nat :=
  if n < 144 then 8 else if n < 160 then 2 else if n < 176 then 4 else if n < 192 then 4 else 1

/-- Class of a domain. -/
def domClass (n : Nat) : Nat :=
  if n < 144 then 0 else if n < 160 then 1 else if n < 176 then 2 else if n < 192 then 3 else 4

/-- Switch-ons admitted at a tick: those that wait, oldest first, then the new ones, ascending (R323). -/
def Dev.admitDoms (s : Dev) : Dev :=
  let l := s.pwr.wait ++ s.pwr.fresh
  let pick := l.foldl (fun (r : List Nat) n =>
    if (r.filter (fun m => domClass m = domClass n)).length < admitLimit n then r ++ [n] else r) []
  let s := { s with pwr := { s.pwr with wait := l.filter (fun n => !pick.contains n), fresh := [] } }
  forL pick (fun n s => s.domSwitch n) s

/-- Domains of quads retired at the last tick go off (R193). -/
def Dev.retiredOff (s : Dev) : Dev :=
  forL ((s.quads.filter (fun x => x.2.domOff)).map (·.1)) (fun q s => (s.onQuad q (fun z => { z with domOff := false })).domCut q) s

/-- Every group a PWR_GROUPS powers is good, once its tick has come: it completes (R323). -/
def Dev.groupsDone (s : Dev) : Dev :=
  match s.pwr.job with
  | some j =>
    if !s.pwr.asked.any (fun a => a.1.any (fun x => x.1 = 0x2C)) && (List.range s.pwr.groups).all (fun g => s.domGood (160 + g)) then
      { s with pwr := { s.pwr with job := none } }.complete j 0 0 []
    else s
  | none => s

/-- Phase c of step 1 (R24): the requests of the tick, then admission. -/
def Dev.powerPhase (s : Dev) : Dev :=
  let s := s.retiredOff
  let l := s.pwr.asked
  let s := { s with pwr := { s.pwr with asked := [] } }
  let left := (l.flatMap (·.1)).flatMap (fun x =>
    if 0x20 ≤ x.1 then []
    else (List.range 32).flatMap (fun i =>
      let q := 8 * x.1 + i
      if x.2.bit i && q < 144 && !s.bit (aPwr x.1) i && s.domOn q then s.leftRaises q .off else []))
  let s := forL l (fun x s => s.askAll x.1 x.2) s
  let s := if left.isEmpty then s else s.raises left
  s.admitDoms.groupsDone

/-! ### Rows -/

/-- DOMAIN_GOOD: a domain that was switched on is good (R322). In boot a bias domain lets the quads of its
die follow (R325). -/
def Dev.domainGood (s : Dev) (n : Nat) : Dev :=
  if !s.domOn n || s.domGood n then s
  else
    let s := { s with pwr := { s.pwr with good := insAsc n s.pwr.good } }
    if 192 ≤ n then
      if s.sys.boot = .training then
        forN 36 (fun i s => let q := 36 * (n - 192) + i; if (s.quad q).st = .retired then s else s.domWait q) s
      else s
    else if 176 ≤ n then s.startLane (n - 176)
    else if 160 ≤ n then (s.groupClear (n - 160)).groupsDone
    else if 144 ≤ n then s
    else s.onQuad n (fun z => { z with powering := some 0 })

/-- Quads whose domain has come good are PARKED at this tick (R193). -/
def Dev.quadsPowered (s : Dev) : Dev :=
  forL ((s.quads.filter (fun x => x.2.powering.isSome)).map (·.1)) (fun q s => s.quadPowered q) s

/-- The mapped sites whose engine lies in a cluster. -/
def Dev.clusterAim (s : Dev) (k : Nat) : List Nat :=
  (s.sites.filter (fun x => x.2.mapped && clusterOf (s.engOf x.1) = k)).map (·.1)

/-- The fault of a domain (R308). -/
def Dev.domFault (s : Dev) (n : Nat) : Dev :=
  if 192 ≤ n then s.raise (raiseOf 39 3)
  else if 176 ≤ n then s.raise { f := 38, lvl := 1, sites := [], unit := n - 176, forced := false }
  else if 160 ≤ n then s.raise (raiseOf 37 3)
  else if 144 ≤ n then s.raise (raiseAt 36 2 (s.clusterAim (n - 144)))
  else s.raise { f := 35, lvl := 1, sites := s.quadAim n, unit := n, forced := false }

/-- DOMAIN_TIMEOUT: a domain switched on is not good in time. -/
def execDomainTimeout (d : Domain) (s : State) : Host.Outcome State Fault Refusal :=
  s.run (fun s =>
    let n := domNum d
    if s.domOn n && !s.domGood n then s.domFault n else s)

/-- DOMAIN_FAIL: a bank group, lane or bias domain that was good fails (R308). -/
def execDomainFail (d : Domain) (s : State) : Host.Outcome State Fault Refusal :=
  s.run (fun s =>
    let n := domNum d
    if s.domGood n && 160 ≤ n then ({ s with pwr := { s.pwr with good := rmv n s.pwr.good } }).domFault n else s)

end Sys2Proof.Machine
end

