-- ==== Sys2Proof/Machine/Boot.lean ====
section
/-! DEFINITION. Reset, the rails, boot, ALIVE and the faults of the always-on logic (R53, R63, R307, R373-R378,
R386, R400). -/

namespace Sys2Proof.Machine

/-! ### Reset (R373, R374) -/

/-- The NV word being written: a single word goes before the words of a set (R385). -/
def Dev.nvUnderWay (s : Dev) : Option (Nat × W) :=
  match s.nv.singles, s.nv.run with
  | x :: _, _ => some (x.off, x.val)
  | [], some r => r.left.head?
  | [], none => none

/-- A reset or power loss meets an NV word under way: it holds its old or its new value (R13, log 12). -/
def Dev.nvCut (s : Dev) : Dev :=
  match s.nvUnderWay with
  | some (o, v) =>
    let d := s.draw
    if d.1.bit 0 then d.2.nvPut o v else d.2
  | none => s

/-- Entry to RESET: everything outside NV is lost; the lowest cause of one reset is recorded. -/
def Dev.enterReset (s : Dev) (cause : Nat) : Dev :=
  let s := s.nvCut
  let c := if s.sys.mode = .reset then min cause (s.rd 0x900).toNat else cause
  let r := { Dev.reset with
    sys := { Dev.reset.sys with unpowered := s.sys.unpowered, resetLow := s.sys.resetLow }
    mem := s.mem.filter (fun x => match locOf x.1 with | .nvr _ => true | _ => false)
    nv := { Dev.reset.nv with wear := s.nv.wear, spare := s.nv.spare }
    flt := { Dev.reset.flt with level := s.flt.level }
    jtag := s.jtag, tdo := s.tdo, freeIx := s.freeIx }
  r.wr 0x900 (wn c)

/-- The always-on logic without power, or cold: no cause is held, ALIVE is low. -/
def Dev.cold (s : Dev) (unpowered : Bool) : Dev :=
  let s := s.enterReset 0
  { s with sys := { s.sys with unpowered := unpowered }, flt := { s.flt with level := false }, jtag := .idcode, tdo := 0 }

/-- POWER_ON: the always-on logic starts cold (R373). -/
def execPowerOn (s : State) : Host.Outcome State Fault Refusal := s.run (fun s => s.cold false)

/-- POWER_LOSS: the rails vanish (R375). -/
def execPowerLoss (s : State) : Host.Outcome State Fault Refusal := s.run (fun s => s.cold true)

/-- RESET_N_LOW: cause 1. -/
def execResetNLow (s : State) : Host.Outcome State Fault Refusal :=
  s.run (fun s => if s.sys.unpowered then s
    else
      let s := s.enterReset 1
      { s with sys := { s.sys with resetLow := true } })

/-- The VDPS rails have no reset thresholds (R399). -/
def hasThreshold : Rail → Bool
  | .vdps _ => false
  | _ => true

/-- SUPPLY_RESET: a rail crosses its reset threshold, cause 2. -/
def execSupplyReset (r : Rail) (s : State) : Host.Outcome State Fault Refusal :=
  s.run (fun s => if s.sys.unpowered || !hasThreshold r then s else s.enterReset 2)

/-! ### Rails (R400) -/

/-- RAIL_WARN: a rail outside its operating range, or a VDPS rail above 7.0 V; VCHP and VCHN have a fault of their own. -/
def Dev.railWarn (s : Dev) (r : Rail) : Dev :=
  if s.sys.mode = .reset || r = .vchp || r = .vchn then s
  else
    let s := { s with sys := { s.sys with warned := r :: s.sys.warned.filter (· ≠ r) } }
    s.condOn (raiseAt 32 2 s.deviceAim)

def execRailWarn (r : Rail) (s : State) : Host.Outcome State Fault Refusal := s.run (fun s => s.railWarn r)

/-- VCH_FAULT: VCHP or VCHN out of range. -/
def execVchFault (negative : Bool) (s : State) : Host.Outcome State Fault Refusal :=
  s.run (fun s => if s.sys.mode = .reset then s
    else
      let s := { s with sys := { s.sys with vchBad := negative :: s.sys.vchBad.filter (· ≠ negative) } }
      s.condOn (raiseOf 34 3))

/-- Sites with a pin whose function is DPS (R297). -/
def Dev.dpsAim (s : Dev) : List Nat :=
  (List.range 256).filter (fun i => (s.pins i).any (fun p => s.func p = 4))

/-- VDPS_LOW: a DPS supply below the need of its die's highest target. -/
def execVdpsLow (d : Fin 4) (s : State) : Host.Outcome State Fault Refusal :=
  s.run (fun s => if s.sys.mode = .reset then s
    else
      let s := { s with sys := { s.sys with vdpsLow := d :: s.sys.vdpsLow.filter (· ≠ d) } }
      s.condOn (raiseAt 33 2 s.dpsAim))

/-- RAIL_IN_RANGE: a rail is back in its range; LIVE clears with the last rail of its source (R290, R294). -/
def Dev.railBack (s : Dev) (r : Rail) : Dev :=
  if s.sys.mode = .reset then s
  else
    let y := { s.sys with
      warned := s.sys.warned.filter (· ≠ r)
      vchBad := s.sys.vchBad.filter (fun b => !(r = (if b then Rail.vchn else Rail.vchp)))
      vdpsLow := s.sys.vdpsLow.filter (fun d => decide (r ≠ .vdps d)) }
    let s := { s with sys := y }
    let s := if y.warned.isEmpty then s.setLive 32 false else s
    let s := if y.vchBad.isEmpty then s.setLive 34 false else s
    if y.vdpsLow.isEmpty then s.setLive 33 false else s

def execRailInRange (r : Rail) (s : State) : Host.Outcome State Fault Refusal := s.run (fun s => s.railBack r)

/-! ### Boot (R377, R378) -/

/-- A TAP instruction that drives balls acts only while RESET_N is low, otherwise as BYPASS (R418). -/
def Jtag.drives : Jtag → Bool
  | .bypass | .idcode | .samplePreload => false
  | .extest | .clamp | .highz | .extestPulse | .extestTrain => true

/-- BOOT_START: RESET ends, the straps are sampled, clusters and bank groups are asked for. -/
def Dev.bootStart (s : Dev) (devid : BitVec 5) (master recov : Bool) : Dev :=
  if s.sys.mode ≠ .reset || s.sys.unpowered then s
  else
    let s := { s with sys := { s.sys with mode := .boot, resetLow := false, devid := devid, master := master, recov := recov, boot := .selfTest } }
    let s := { s with jtag := if s.jtag.drives then .bypass else s.jtag }
    forN 32 (fun n s => s.domWait (144 + n)) s

def execBootStart (devid : BitVec 5) (master recov : Bool) (s : State) : Host.Outcome State Fault Refusal :=
  s.run (fun s => s.bootStart devid master recov)

/-- Entry to RECOVERY, counted in NV (R386). -/
def Dev.toRecovery (s : Dev) : Dev := ({ s with sys := { s.sys with mode := .recovery } }).nvCount 0x454

/-- An identity copy can be read, and its CRC matches. -/
def Dev.idOk (s : Dev) (bad : List Nat) (n : Nat) : Bool :=
  !bad.any (fun o => 0x200 * n ≤ o && o < 0x200 * n + 20) && s.nvWord (0x200 * n + 16) = crcWords (s.nvWords (0x200 * n) 4)

/-- ID_BAD: no identity copy matches. -/
def Dev.idCheck (s : Dev) (bad : List Nat) : Dev := if s.idOk bad 0 || s.idOk bad 1 then s else s.setBits 0x904 0x40000000

/-- What the ECC of the NV load finds, word by word: corrected words are rewritten, others raise NV_ECC2 (R380). -/
def Dev.nvFound (s : Dev) (l : List (BitVec 16 × Bool)) : Dev :=
  forL l (fun x s => if x.2 then s.nvEcc2 (4 * x.1.toNat) else s.nvEcc1 (4 * x.1.toNat)) s

/-- NVR offsets of the words that the load finds uncorrectable. -/
def nvBad (t : SelfTest) : List Nat := (t.nv.filter (·.2)).map (fun x => 4 * x.1.toNat)

/-- What the self-test found wrong with banks and clusters: one occurrence for each class. -/
def Dev.testFaults (s : Dev) (t : SelfTest) : Dev :=
  let ks := t.badClusters.map (·.val)
  let banks := (t.badBanks.map (·.val)).filter (fun b => !s.bankHandled b)
  let s := forL ks (fun k s => s.domCut (144 + k)) s
  let rs : List Raise :=
    (ks.map (fun k => raiseAt 36 2 (s.clusterAim k))) ++
      banks.map (fun b => { f := 130, lvl := 1, sites := [], unit := b, forced := false })
  if rs.isEmpty then s else s.raises rs

/-- SELF_TEST_END: the cistern is zero; then RECOVERY or the NV load, the counters, the repair map, the
thermal policy and the patch, and the switch-on of bias and lanes (R377 steps 3-6). -/
def Dev.selfTestEnd (s : Dev) (t : SelfTest) : Dev :=
  if s.sys.boot ≠ .selfTest then s
  else
    let s := s.clearMem (aCis 0) (aCis (2 ^ 27))
    match t.fatal with
    | some .aon => s.raise (raiseOf 354 3)
    | some .fabric => s.raise (raiseOf 353 3)
    | none =>
      let s := if (t.romBad || s.sys.recov) && s.sys.mode = .boot then s.toRecovery else s
      let s := ((s.loadNv (nvBad t)).idCheck (nvBad t)).nvFound t.nv
      let s := (s.nvCount (0x440 + 4 * s.fld 0x900 1 0)).nvCount 0x450
      let s := s.applyMap.applyThermal
      let s := if s.sys.mode = .recovery then s else s.installPatch
      let s := s.testFaults t
      let s := { s with sys := { s.sys with boot := .training } }
      let s := forN 4 (fun d s => s.domWait (192 + d)) s
      forN 16 (fun j s => if (s.lane j).st = .failed then s else s.domWait (176 + j)) s

def execSelfTestEnd (t : SelfTest) (s : State) : Host.Outcome State Fault Refusal := s.run (fun s => s.selfTestEnd t)

/-- LINK_UP: BOOT ends in IDLE, and ALIVE begins; RECOVERY stays (R346, R378). -/
def Dev.linkUp (s : Dev) (us : W) : Dev :=
  if s.sys.boot ≠ .training then s
  else
    let m := if s.sys.mode = .boot then Mode.idle else s.sys.mode
    let s := { s with sys := { s.sys with boot := .done, mspi := true, mode := m }
                      flt := { s.flt with running := decide (m ≠ Mode.safe) } }
    s.wr 0x914 us

def execLinkUp (us : W) (s : State) : Host.Outcome State Fault Refusal := s.run (fun s => s.linkUp us)

/-! ### ALIVE and the always-on logic (R307, R308) -/

/-- ALIVE toggles. -/
def Dev.toggle (s : Dev) : Dev :=
  { s with flt := { s.flt with level := !s.flt.level, toggles := min (s.flt.toggles + 1) 65535 } }

/-- ALIVE_INTERVAL: an interval ends; from the first one on MSPI takes commands (R307, R361, R378). -/
def Dev.aliveInterval (s : Dev) (checkedIn : Bool) : Dev :=
  if s.sys.mode = .reset then s
  else
    let s := { s with sys := { s.sys with mspi := true } }
    if !checkedIn then s.raise (raiseOf 352 3)
    else if s.flt.running then s.toggle else s

def execAliveInterval (checkedIn : Bool) (s : State) : Host.Outcome State Fault Refusal :=
  s.run (fun s => s.aliveInterval checkedIn)

/-- A SAFE-level fault without an aim; none in RESET. -/
def Dev.safeFault (s : Dev) (f : Nat) : Dev := if s.sys.mode = .reset then s else s.raise (raiseOf f 3)

def execFabricErr (s : State) : Host.Outcome State Fault Refusal := s.run (fun s => s.safeFault 353)
def execAonFail (s : State) : Host.Outcome State Fault Refusal := s.run (fun s => s.safeFault 354)
def execFwAssert (s : State) : Host.Outcome State Fault Refusal := s.run (fun s => s.safeFault 355)

end Sys2Proof.Machine
end

