-- ==== Sys2Proof/Machine/Channel.lean ====
section
/-! DEFINITION. Channel and measurement instructions (R84, R85, R87, R177, R180, R183, R184, R189, R254,
R267, R423). Their writes apply at the tick (Machine/Apply.lean). -/

namespace Sys2Proof.Machine

/-- LEVEL: classes 3 for VIH, VIL and VTT, 3 or 8 for VOH and VOL (R423). -/
def doLevel (e : Nat) (s : Dev) (x : Ins) (i : Nat) : Dev :=
  s.stageIns e (x.mbz || 4 < x.a || selBad x.b) (s.selOut i x.b || !levelOk x.imm)
    (!(s.sys.mode.enables 3 || (3 ≤ x.a && s.sys.mode.enables 8))) (.level x.a x.b x.imm)

def doTset (e : Nat) (s : Dev) (x : Ins) (i : Nat) : Dev :=
  s.stageIns e (x.mbz || selBad x.b) (s.selOut i x.b || !s.tsetOk x.a (x.im 23 0)) (!s.sys.mode.enables 2)
    (.tset x.a x.b (x.fl % 4) (BitVec.ofNat 24 (x.im 23 0)))

/-- The class a FORCE needs is not enabled (R423). -/
def forceIll (m : Mode) (fn range : Nat) : Bool :=
  match fn with
  | 0 => false
  | 1 | 2 => !m.enables (if range = 4 then 5 else 4)
  | 3 => !m.enables 11
  | _ => !m.enables 6

def doForce (e : Nat) (s : Dev) (x : Ins) (i : Nat) : Dev :=
  s.stageIns e (x.mbz || 4 < x.a || selBad x.b) (s.selOut i x.b || !forceOk x.a (x.fl % 8) x.imm)
    (forceIll s.sys.mode x.a (x.fl % 8)) (.force x.a x.b (x.fl % 8) x.imm)

/-- GANG: the masked channels lie in the lead's quad and site; a release ignores the mask (R189). -/
def doGang (e : Nat) (s : Dev) (x : Ins) (i : Nat) : Dev :=
  s.stageIns e (x.mbz || 1 < x.a) (s.npin i ≤ x.b || (x.a = 1 && !s.gangOk i x.b (x.im 3 0)))
    (!s.sys.mode.enables 6) (.gang (x.a = 1) x.b (x.im 3 0))

/-- MEAS: staged, its slot not-ready from now (R84). -/
def doMeas (e : Nat) (s : Dev) (x : Ins) (i : Nat) : Dev :=
  (s.slotBusy i x.a).stageIns e false false false (.meas x.a x.b (x.fl % 16) (x.im 15 0) (s.owner i))
    |> s.check e [(x.mbz || 3 < x.fl % 16, srcIllOp), (31 < x.a || s.npin i ≤ x.b || x.im 15 0 = 0, srcParam),
                  (s.stageFull e, srcStageOvf),
                  (!s.sys.mode.enables 7 || (x.fl % 16 = 2 && !s.sys.mode.enables 4), srcModeIll)]

/-- GETM: read a slot if it is ready, or with PUT store A in it (R85). -/
def doGetm (e : Nat) (s : Dev) (x : Ins) (i : Nat) : Dev :=
  let v := (s.site i).slot x.b
  s.check e [(x.mbz || !regOk x.a || (!x.flag 0 && !regRw x.a), srcIllOp), (31 < x.b, srcParam)]
    ((if x.flag 0 then
        s.onSite i (fun z => z.setSlot x.b { value := s.reg e x.a, ready := true, owner := z.step.map (·.serial) })
      else if v.ready then (s.setReg e x.a v.value).setFlag e 6 false
      else s.setFlag e 6 true).retire e)

def doAcqarm (e : Nat) (s : Dev) (x : Ins) (i : Nat) : Dev :=
  s.stageIns e x.mbz (7 < x.a || s.npin i ≤ x.b) (!(s.sys.mode.enables 7 && s.sys.mode.enables 10))
    (.acqarm x.a x.b (x.im 15 0))

/-- TDCOPEN: a profile with SLOT_EN marks its slot not-ready when it is staged (R253). -/
def doTdcopen (e : Nat) (s : Dev) (x : Ins) (i : Nat) : Dev :=
  let q := ((s.pin? i x.b).getD 0) / 4
  let w0 := s.rd (aTdcProf q (x.im 3 0) 0)
  ((if w0.bit 24 then s.slotBusy i (w0.fld 20 16) else s).stageIns e false false false
    (.tdcopen x.a x.b (x.fl % 16) (x.im 3 0) (s.owner i)))
    |> s.check e [(x.mbz || 3 < x.a, srcIllOp), (s.npin i ≤ x.b || !s.tdcOk q x.a (x.fl % 16) (x.im 3 0), srcParam),
                  (s.stageFull e, srcStageOvf), (!s.sys.mode.enables 8, srcModeIll)]

def doWinset (e : Nat) (s : Dev) (x : Ins) (i : Nat) : Dev :=
  s.stageIns e (x.mbz || 4 < x.a || selBad x.b) (s.selOut i x.b || !winOk (x.fl % 32) (x.im 27 16) (x.im 11 0))
    (!s.sys.mode.enables 9) (.winset x.a x.b (x.fl % 32) (x.im 27 16) (x.im 11 0))

def execLevel (e : Fin 272) (f : Fetch) (s : State) : Host.Outcome State Fault Refusal :=
  s.run (fun s => s.instrSite e f 0x30 (doLevel e))
def execTset (e : Fin 272) (f : Fetch) (s : State) : Host.Outcome State Fault Refusal :=
  s.run (fun s => s.instrSite e f 0x31 (doTset e))
def execForce (e : Fin 272) (f : Fetch) (s : State) : Host.Outcome State Fault Refusal :=
  s.run (fun s => s.instrSite e f 0x32 (doForce e))
def execGang (e : Fin 272) (f : Fetch) (s : State) : Host.Outcome State Fault Refusal :=
  s.run (fun s => s.instrSite e f 0x33 (doGang e))
def execMeas (e : Fin 272) (f : Fetch) (s : State) : Host.Outcome State Fault Refusal :=
  s.run (fun s => s.instrSite e f 0x34 (doMeas e))
def execGetm (e : Fin 272) (f : Fetch) (s : State) : Host.Outcome State Fault Refusal :=
  s.run (fun s => s.instrSite e f 0x35 (doGetm e))
def execAcqarm (e : Fin 272) (f : Fetch) (s : State) : Host.Outcome State Fault Refusal :=
  s.run (fun s => s.instrSite e f 0x40 (doAcqarm e))
def execTdcopen (e : Fin 272) (f : Fetch) (s : State) : Host.Outcome State Fault Refusal :=
  s.run (fun s => s.instrSite e f 0x41 (doTdcopen e))
def execWinset (e : Fin 272) (f : Fetch) (s : State) : Host.Outcome State Fault Refusal :=
  s.run (fun s => s.instrSite e f 0x42 (doWinset e))

end Sys2Proof.Machine
end

