-- ==== Sys2Proof/Machine/Clock.lean ====
section
/-! DEFINITION. SCLK lock and holdover, the card tick of a slave, epoch marks (R20, R21, R41-R48, R265, R266). -/

namespace Sys2Proof.Machine

/-! ### Lock and holdover -/

/-- SCLK relocks: frames stop, and a slave starts unlocked (R20, R21, R42). -/
def Dev.startRelock (s : Dev) : Dev :=
  { s with clk := { s.clk with locked := false, relock := true, slocked := false, captured := false, again := false,
                               good := 0, miss := 0, synced := false } }

/-- SCLK_LOCK: the synthesiser locks, first in BOOT or after a relock; a relock to REFCLK ends holdover once
REF_LOSS is acknowledged (R20, R48, R266). -/
def Dev.sclkLock (s : Dev) : Dev :=
  if s.sys.mode = .reset || s.clk.locked then s
  else
    let back := s.clk.relock && s.clk.ref && !s.sticky 0
    { s with clk := { s.clk with locked := true, relock := false, holdover := s.clk.holdover && !back
                                 ref := s.clk.ref || !s.clk.holdover } }

def execSclkLock (s : State) : Host.Outcome State Fault Refusal := s.run (fun s => s.sclkLock)

/-- REF_LOSS: holdover begins; a loss within holdover only counts (R265, R266). -/
def Dev.refLoss (s : Dev) : Dev :=
  if s.sys.mode = .reset then s
  else
    let s := (s.setBits (aFrm 0xA0) 0x80000000).incSat (aFrm 0xA0) 15 8
    if s.clk.holdover then ({ s with clk := { s.clk with ref := false } }).setLive 0 true
    else
      let s := { s with clk := { s.clk with ref := false, holdover := true, heldOver := true } }
      let s := s.wrFrame (aFrm 0xA4) (aFrm 0xA8) s.clk.frame
      s.condOn (raiseAt 0 2 s.deviceAim)

def execRefLoss (s : State) : Host.Outcome State Fault Refusal := s.run (fun s => s.refLoss)

/-- REF_PRESENT: REFCLK has been in tolerance for 1 ms (R266). -/
def Dev.refPresent (s : Dev) : Dev :=
  if s.sys.mode = .reset then s else ({ s with clk := { s.clk with ref := true } }).setLive 0 false

def execRefPresent (s : State) : Host.Outcome State Fault Refusal := s.run (fun s => s.refPresent)

/-- SCLK_UNLOCK: lock is lost other than by a commanded relock or holdover (R308). -/
def Dev.sclkUnlock (s : Dev) : Dev :=
  if s.sys.mode = .reset || !s.clk.locked || s.clk.holdover then s
  else ({ s with clk := { s.clk with locked := false } }).raise (raiseOf 4 3)

def execSclkUnlock (s : State) : Host.Outcome State Fault Refusal := s.run (fun s => s.sclkUnlock)

/-- The host acknowledges a source; acknowledging REF_LOSS in holdover relocks SCLK (R48, R292). -/
def Dev.ackHost (s : Dev) (f : Nat) : Dev :=
  let was := s.sticky f
  let s := s.ackSrc f
  if f = 0 && was && !s.sticky 0 && s.clk.holdover then s.startRelock else s

/-! ### The card tick (R42-R45) -/

/-- A slave loses SYNC_LOCKED and relocks by R44. -/
def Dev.unsync (s : Dev) : Dev :=
  { s with clk := { s.clk with slocked := false, captured := false, again := true, good := 0, miss := 0, synced := false } }

/-- The edge a slave takes its tick from: a slave that starts unlocked sets its tick from it (R42 step 2); one
that relocks keeps a tick within one SCLK of it, and else moves its next tick (R44 step 2). -/
def Dev.firstEdge (s : Dev) (off : Int) : Dev :=
  let keep := if s.clk.again then decide (off.natAbs ≤ 1) else decide (off = 0)
  let s := { s with clk := { s.clk with captured := true, good := 0, moved := if keep then s.clk.moved else some off } }
  if s.clk.again && !keep then s.setBits (aFrm 0x10) 0x800 else s

/-- An epoch mark reaches an armed device: the next tick takes N (R46). -/
def Dev.epochMark (s : Dev) : Dev :=
  if s.bit (aFrm 0x10) 9 then { s with clk := { s.clk with mark := true } } else s

/-- FSYNC_EDGE: an edge captured `off` SCLK from its expected place; on the master it has no effect. The edge
of a slip only clears SYNC_LOCKED: the next edge captured is that of R44 step 2 (DEDUCED, log 24). -/
def Dev.fsyncEdge (s : Dev) (off : Int) (mark : Bool) : Dev :=
  if s.sys.mode = .reset || s.sys.master then s
  else
    let near := decide (off.natAbs ≤ 1)
    let s :=
      if !s.clk.captured then s.firstEdge off
      else if s.clk.slocked then
        (if near then { s with clk := { s.clk with miss := 0 } }
         else (s.setBits (aFrm 0x10) 0x20).unsync.raise (raiseAt 3 2 s.deviceAim))
      else if near then
        let g := s.clk.good + 1
        { s with clk := { s.clk with good := g, slocked := decide (4 ≤ g), again := s.clk.again && decide (g < 4), miss := 0 } }
      else s.firstEdge off
    if mark then s.epochMark else s

def execFsyncEdge (off : Int) (mark : Bool) (s : State) : Host.Outcome State Fault Refusal :=
  s.run (fun s => s.fsyncEdge off mark)

/-- FSYNC_MISS: an expected edge is missing; the fourth in a row loses the card tick (R43). -/
def Dev.fsyncMiss (s : Dev) : Dev :=
  if s.sys.mode = .reset || s.sys.master then s
  else if !s.clk.slocked then { s with clk := { s.clk with good := 0 } }
  else
    let s := (s.setBits (aFrm 0x10) 0x10)
    if 3 ≤ s.clk.miss then s.unsync.raises [raiseOf 1 0, raiseAt 2 2 s.deviceAim]
    else ({ s with clk := { s.clk with miss := s.clk.miss + 1 } }).raise (raiseOf 1 0)

def execFsyncMiss (s : State) : Host.Outcome State Fault Refusal := s.run (fun s => s.fsyncMiss)

/-- EPOCH_MARK: the mark reaches the device. -/
def execEpochMark (s : State) : Host.Outcome State Fault Refusal := s.run (fun s => s.epochMark)

end Sys2Proof.Machine
end

