-- ==== Sys2Proof/Machine/Headgate.lean ====
section
/-! DEFINITION. The headgate: re-checks of sites, busy sites, headgate writes (R70-R76, R156). -/

namespace Sys2Proof.Machine

/-! ### Checks (R73) -/

/-- ENGINE of a site is allowed: it exists, is not RETIRED, no other mapped site binds it, and its cluster
has a spare left (R73 check 4). -/
def Dev.engineOk (s : Dev) (i : Nat) : Bool :=
  let e := s.engOf i
  let others := s.sites.filter (fun x => x.1 ≠ i && x.2.mapped)
  e ≤ 271 && (s.eng e).st ≠ .retired && others.all (fun x => s.engOf x.1 ≠ e) &&
    (others.filter (fun x => clusterOf (s.engOf x.1) = clusterOf e)).length < 16

/-- ERR of a site: the first check that fails, 0 if all pass (R73). -/
def Dev.siteErr (s : Dev) (i : Nat) : Nat :=
  let n := s.npin i
  let ts := (s.pins i).map s.tpinOf
  if !(s.bit (aSiteCfg i) 31 && 2 ≤ n && n ≤ 128) then 1
  else if !(List.range n).all (fun t => (ts.filter (· = t)).length = 1) then 2
  else if ts.any (n ≤ ·) then 3
  else if !s.engineOk i then 4
  else if s.width (s.homeOf i) ≠ n || (s.altEn i && s.width (s.altOf i) ≠ n) then 5
  else if (s.pins i).any (fun p => (s.quad (p / 4)).st = .retired) then 6
  else 0

/-- An engine whose site unbinds it or is unmapped goes back to SPARE (R76). -/
def Dev.unbind (s : Dev) (e : Nat) : Dev :=
  s.onEng e (fun g => if g.st = .ready || g.st = .halted || g.st = .stopped then { g with st := .spare } else g)

/-- An engine a mapped site binds is READY (R76, R78). The site's MIRROR copies the engine's PG and VOIDH (R74). -/
def Dev.bindEng (s : Dev) (i e : Nat) : Dev :=
  let s := s.onEng e (fun g => if g.st = .spare then { g with st := .ready, cause := 0 } else g)
  let v := s.rd (aEng e 0x18)
  s.wr (aSiteCfg i + 8) (wn (s.fld (aEng e 8) 31 16 * 65536 + 32768 * b2n (v.bit 31) + v.fld 14 0))

/-- Dwell states of a site from its home player's DWV: code 3 acts as DZ (R156). -/
def Dev.loadDwell (s : Dev) (i : Nat) : Dev :=
  let y := s.homeOf i
  let f (t : Nat) : Nat := min 2 (s.fld (aPly y (0xA0 + 4 * (t / 16))) (2 * (t % 16) + 1) (2 * (t % 16)))
  s.onSite i (fun x => { x with
    dwell := (List.range (s.npin i)).foldl (fun (d : Tab Nat) t => Tab.set (fun _ => 0) t (f t) d) [] })

/-- A re-check of a site after a write, with the engine it bound before (R73, R76). -/
def Dev.recheck (s : Dev) (i e0 : Nat) : Dev :=
  let was := (s.site i).mapped
  let err := s.siteErr i
  let e := s.engOf i
  if err = 0 then
    let s := s.onSite i (fun x => { x with mapped := true, err := 0 })
    let s := if was && e0 ≠ e then s.unbind e0 else s
    let s := s.bindEng i e
    if was then s else s.loadDwell i
  else
    let s := s.onSite i (fun x => { x with mapped := false, err := err, member := .none, last := [] })
    if was then s.unbind e0 else s

/-- Re-check of several sites after a write that leaves their ENGINE alone. -/
def Dev.recheckAll (s : Dev) (l : List Nat) : Dev := forL l (fun i s => s.recheck i (s.engOf i)) s

/-- Sites whose CFG names a player as PLAYER or ALT (R174). -/
def Dev.sitesNaming (s : Dev) (y : Nat) : List Nat :=
  (List.range 256).filter (fun i => s.bit (aSiteCfg i) 31 && (s.homeOf i = y || (s.altEn i && s.altOf i = y)))

/-! ### Busy sites (R74) -/

/-- The site is busy. -/
def Dev.siteBusy (s : Dev) (i : Nat) : Bool :=
  ((s.site i).mapped && (s.eng (s.engOf i)).live) ||
    (match s.playerOf i with
     | some y => (s.site i).mapped && (s.ply y).st = .playing
     | none => false)

/-- BUSY_REJ. -/
def Dev.hgtRej (s : Dev) : Dev := s.setBits (aHgt 0x2000) 0x80000000

/-- The site an HGT.PIN word names. -/
def pinNames (v : W) : List Nat := if v.bit 31 then [v.fld 15 8] else []

/-- Sites a write of a new word at a headgate offset touches (R74). -/
def Dev.hgtTouches (s : Dev) (o : Nat) (v : W) : List Nat :=
  let old := s.rd (aHgt o)
  if old = v then []
  else if o < 0x900 then pinNames old ++ pinNames v
  else if 0x1000 ≤ o ∧ o < 0x2000 then [(o - 0x1000) / 16]
  else if 0x2100 ≤ o ∧ o < 0x2140 then s.mask ((o - 0x2100) / 4)
  else []

/-- A write of a headgate word: refused where it touches a busy site in DIAGNOSTIC, otherwise stored, with
the re-checks of R73. -/
def Dev.hgtWrite (s : Dev) (o : Nat) (v : W) : Dev :=
  let a := aHgt o
  let v := v &&& rwMask a
  if s.sys.mode = .diagnostic && (s.hgtTouches o v).any s.siteBusy then s.hgtRej
  else
    let old := s.rd a
    if o < 0x900 then (s.wr a v).recheckAll ((pinNames old ++ pinNames v).eraseDups)
    else if 0x1000 ≤ o ∧ o < 0x2000 ∧ o % 16 = 0 then
      let i := (o - 0x1000) / 16
      let e0 := s.engOf i
      (s.wr a v).recheck i e0
    else s.wr a v

/-- Sites with a PIN, CFG or RDV that MAP_CLEAR would change and that are busy, ascending (R363). -/
def Dev.clearBusy (s : Dev) : List Nat :=
  (List.range 256).filter (fun i => s.siteBusy i &&
    (s.rd (aSiteCfg i) ≠ 0 || (List.range 576).any (s.pinOfSite · i) ||
      (match s.playerOf i with | some y => s.rd (aHgt (0x2100 + 4 * y)) ≠ 2 | none => false)))

/-- MAP_CLEAR: every PIN and CFG to 0, every RDV to 2, every site re-checked (R363). -/
def Dev.mapClear (s : Dev) : Dev :=
  let bound := (s.sites.filter (fun x => x.2.mapped)).map (fun x => (x.1, s.engOf x.1))
  let s := { s with regs := s.regs.filter (fun x => match locOf x.1 with
    | .hgt o => !(o < 0x900 || (0x1000 ≤ o && o < 0x2000 && o % 16 = 0) || (0x2100 ≤ o && o < 0x2140))
    | _ => true) }
  let s := forN 256 (fun i s => s.onSite i (fun x => { x with mapped := false, err := 1, member := .none, last := [] })) s
  forL bound (fun x s => s.unbind x.2) s

end Sys2Proof.Machine
end

