-- ==== Sys2Proof/Machine/Thermal.lean ====
section
/-! DEFINITION. Sensors, zones, throttle demands and the DPS monitors (R65, R102, R191, R310-R320, R327). -/

namespace Sys2Proof.Machine

/-! ### Sensors and zones (R310, R311, R313) -/

/-- The zone of a sensor. -/
def zoneOf (n : Nat) : Nat := if n < 32 then n / 2 else if n < 64 then 16 + (n - 32) / 8 else n - 44

/-- The sensor is read. -/
def Dev.sensorOn (s : Dev) (n : Nat) : Bool := n < 64 || s.bit (aThm (0x200 + 4 * (n - 64))) 31

/-- Sensors of a zone that are read. -/
def Dev.zoneSensors (s : Dev) (z : Nat) : List Nat := (List.range 72).filter (fun n => zoneOf n = z && s.sensorOn n)

/-- Neighbours of a sensor. -/
def Dev.neighbours (s : Dev) (n : Nat) : List Nat :=
  if n < 32 then
    (List.range 32).filter (fun m =>
      (m / 8 = n / 8 && (m + 1 = n || n + 1 = m)) || (m % 8 = n % 8 && (m + 8 = n || n + 8 = m)))
  else if n < 64 then (List.range 64).filter (fun m => 32 ≤ m && m / 8 = n / 8 && (m + 1 = n || n + 1 = m))
  else (List.range 72).filter (fun m => 64 ≤ m && m ≠ n && s.sensorOn m)

/-- Thresholds of a zone: WARN, the effective THROTTLE, TRIP. -/
def Dev.thrWarn (s : Dev) (z : Nat) : Int := s.fld (aThm (16 * z)) 7 0
def Dev.thrTrip (s : Dev) (z : Nat) : Int := s.fld (aThm (16 * z)) 23 16
def Dev.thrThrottle (s : Dev) (z : Nat) : Int :=
  (s.fld (aThm (16 * z)) 15 8 : Int) - (if s.sys.mode = .stress then (s.fld 0x114 19 16 : Int) else 0)

/-- A temperature in units of 2^-149 °C; a NaN counts as out of every range. -/
def tempKey (v : W) : Int := (f32Key v).getD (-f32Inf)

/-- The value lies at or above a whole temperature. -/
def tempGe (v : W) (t : Int) : Bool := decide (t * f32One ≤ tempKey v)

/-- State of a zone: the highest of its sensors. -/
def Dev.zoneState (s : Dev) (z : Nat) : Nat := (s.zoneSensors z).foldl (fun m n => max m (s.sensor n).st) 0

/-! ### Judging a reading (R314, R316-R318) -/

/-- The state a reading indicates for a sensor in a state (R314). -/
def Dev.indicates (s : Dev) (z st : Nat) (v : W) : Nat :=
  let enter (k : Nat) : Bool :=
    if k = 1 then tempGe v (s.thrWarn z) else if k = 2 then tempGe v (s.thrThrottle z) else tempGe v (s.thrTrip z)
  let stay (k : Nat) : Bool :=
    if k = 0 then true else if k = 1 then tempGe v (s.thrWarn z - 3)
    else if k = 2 then tempGe v (s.thrThrottle z - 3) else tempGe v (s.thrTrip z - 3)
  match ([3, 2, 1].filter (fun k => st < k && enter k)).head? with
  | some k => k
  | none => (([3, 2, 1, 0].filter (fun k => k ≤ st && stay k)).head?).getD 0

/-- Keys sorted rising. -/
def insKey (x : Int) : List Int → List Int
  | [] => [x]
  | y :: r => if x ≤ y then x :: y :: r else y :: insKey x r

/-- Twice the median of a list of keys; the mean of the two middle values for an even count. -/
def median2 (l : List Int) : Int :=
  let m := l.foldr insKey []
  let n := m.length
  m.getD ((n - 1) / 2) 0 + m.getD (n / 2) 0

/-- Values in use of the unbroken neighbours that have been read (log 21). -/
def Dev.goodNeighbours (s : Dev) (n : Nat) : List Int :=
  ((s.neighbours n).filter (fun m => !(s.sensor m).broken && 0 < (s.sensor m).reads)).map (fun m => tempKey (s.sensor m).value)

/-- The criteria a reading meets, in table order (R316). -/
def Dev.criteria (s : Dev) (n : Nat) (r : SensorIn) : List Nat :=
  let k := tempKey r.temp
  let nb := s.goodNeighbours n
  let far : Bool := !nb.isEmpty && decide (30 * f32One < (2 * k - median2 nb).natAbs)
  (if r.isOpen then [1] else []) ++ (if r.isShort then [2] else []) ++
    (if k < -55 * f32One ∨ 175 * f32One < k then [3] else []) ++ (if r.isStuck then [4] else []) ++
    (if far then [5] else [])

/-- Quads ACTIVE or WATCH (R317). -/
def Dev.actQuads (s : Dev) : Nat := (s.quads.filter (fun x => x.2.st = .active || x.2.st = .watch)).length

/-- The value that stands in for a broken sensor, and whether it is the neighbours' median (R317). -/
def Dev.substitute (s : Dev) (n : Nat) : W × Bool :=
  let nb := s.goodNeighbours n
  if s.actQuads ≤ 72 && !nb.isEmpty then (f32OfScaled (median2 nb + 10 * f32One) 2, true)
  else (f32OfRatio (s.thrThrottle (zoneOf n) + 1) 1, false)

/-- A criterion held at the last four readings. -/
def heldFour (l : List (List Nat)) : Bool :=
  match l with
  | [a, b, c, d] => a.any (fun k => b.contains k && c.contains k && d.contains k)
  | _ => false

/-- A reading judged for breakage: the sensor with its value in use, and whether it was judged broken now. -/
def Dev.judgeSensor (s : Dev) (n : Nat) (r : SensorIn) : Sensor × Bool :=
  let x := s.sensor n
  let c := s.criteria n r
  let run := (c :: x.run).take 4
  let x := { x with reads := min (x.reads + 1) 65535, run := run, clean := if c.isEmpty then x.clean + 1 else 0 }
  let y := s.substitute n
  if x.broken then
    if 16 ≤ x.clean then ({ x with broken := false, held := false, run := [], good := r.temp, value := r.temp }, false)
    else ({ x with value := y.1, median := y.2 }, false)
  else if heldFour run then
    ({ x with broken := true, why := c.headD 0, held := 2 ≤ x.st, clean := 0, value := y.1, median := y.2 }, true)
  else if c.isEmpty then ({ x with good := r.temp, value := r.temp }, false)
  else ({ x with value := x.good }, false)

/-- Four readings on one side of the state change it (R314, R318): the sensor, and whether it changed. -/
def Sensor.step (x : Sensor) (k : Nat) : Sensor × Bool :=
  let up := decide (x.st < k)
  let kept := x.ind.filter (fun m => if up then x.st < m else m < x.st)
  if k = x.st then ({ x with ind := [] }, false)
  else
    let l := k :: (if kept.length = x.ind.length then x.ind else [])
    if l.length < 4 then ({ x with ind := l }, false)
    else
      let t := if up then l.foldl min 3 else l.foldl max 0
      let t := if x.broken && x.held then max 2 t else t
      ({ x with st := t, ind := [] }, decide (t ≠ x.st))

/-- A sensor changed state: its event and its fault (R315). -/
def Dev.sensorChanged (s : Dev) (n pos : Nat) : Dev :=
  let t := (s.sensor n).st
  let s := s.produce { kind := 8, sub := if t = 0 then 3 else t - 1, index := n } (s.edgeAt pos) 292 .none none
  let s := if t ≠ 3 && !(s.pwr.sensors.any (fun x => x.2.st = 3)) then s.setLive 66 false else s
  if t = 1 then s.note 64 else if t = 2 then s.note 65 else if t = 3 then s.condOn (raiseOf 66 3) else s

/-- The cadence of a sensor's zone after a reading (R312). -/
def Dev.cadence (s : Dev) (n : Nat) : Dev :=
  let z := zoneOf n
  let x := s.sensor n
  let hot := tempGe x.value (s.thrThrottle z - 5)
  let s := s.setSensor n { x with cool := if hot then 0 else min 4 (x.cool + 1) }
  if hot then { s with pwr := { s.pwr with fast := insAsc z s.pwr.fast } }
  else if (s.zoneSensors z).all (fun m => 4 ≤ (s.sensor m).cool) then { s with pwr := { s.pwr with fast := rmv z s.pwr.fast } }
  else s

/-- SENSOR_READING: one reading of an enabled sensor. -/
def Dev.sensorReading (s : Dev) (n pos : Nat) (r : SensorIn) : Dev :=
  if s.sys.mode = .reset || !s.sensorOn n then s
  else
    let j := s.judgeSensor n r
    let k := s.indicates (zoneOf n) j.1.st j.1.value
    let y := j.1.step k
    let s := s.setSensor n y.1
    let s := s.cadence n
    let s := if j.2 then (s.setLive 67 true).raise (raiseOf 67 1)
             else if s.pwr.sensors.any (fun x => x.2.broken) then s else s.setLive 67 false
    if y.2 then s.sensorChanged n pos else s

def execSensorReading (n : Fin 72) (r : SensorIn) (s : State) : Host.Outcome State Fault Refusal :=
  s.run (fun s => s.sensorReading n r.pos.toNat r)

/-! ### Throttling (R311, R319, R320) -/

/-- The zones that throttle a site. -/
def Dev.zonesOfSite (s : Dev) (i : Nat) : List Nat :=
  let ps := s.pins i
  [clusterOf (s.engOf i)] ++
    (List.range 4).filterMap (fun d => if ps.any (fun p => p / 144 = d) then some (16 + d) else none) ++
    (List.range 8).filterMap (fun r =>
      let a := aThm (0x200 + 4 * r)
      if ps.any (fun p => s.fld a 7 0 ≤ p / 4 && p / 4 ≤ s.fld a 15 8) then some (20 + r) else none)

/-- The zones in THROTTLE that throttle a site. -/
def Dev.throttlers (s : Dev) (i : Nat) : List Nat := (s.zonesOfSite i).filter (fun z => 2 ≤ s.zoneState z)

/-- D of a site's throttle demand at this tick; 0 is none (R319). -/
def Dev.demandNow (s : Dev) (i : Nat) : Nat :=
  if (s.site i).mapped && (s.eng (s.engOf i)).st = .running then
    (s.throttlers i).foldl (fun m z => max m (max 1 (s.fld (aThm (16 * z + 4)) 7 0))) 0
  else 0

/-- TWAIT of a site: the smallest among its throttling zones. -/
def Dev.twait (s : Dev) (i : Nat) : Nat :=
  (s.throttlers i).foldl (fun m z => min m (max 1 (s.fld (aThm (16 * z + 4)) 31 16))) 65535

/-- THROTTLE_WAIT acts on a site (R320): a void, no mask, D dwell frames before the handler. -/
def Dev.throttleWait (s : Dev) (i d : Nat) : Dev :=
  let s := s.raise (raiseAt 68 2 [i])
  s.onSite i (fun x => { x with
    member := .none, det := true, last := [], dwc := x.dwc + wn d, waited := 0, dwellLeft := d, tpoint := none })

/-- The site's TPOINT of the ended frame dwells: it stands alone, or its pacer made one too (R102). -/
def Dev.tpDwells (s : Dev) (i : Nat) : Bool :=
  (s.site i).tpoint.isSome &&
    match s.playerOf i with
    | none => true
    | some y =>
      match s.pacer y with
      | some c => (s.site c).tpoint.isSome
      | none => false

/-- The site has a demand in the frame that ends and at this tick, and does not dwell: the tick counts (R320). -/
def Dev.waitsNow (s : Dev) (i : Nat) : Bool :=
  let x := s.site i
  s.demandNow i ≠ 0 && x.demand ≠ 0 && x.dwellLeft = 0 && !s.tpDwells i

/-- The wait counts of a tick, over the frame that has ended, and one dwell frame less left (R320). -/
def Dev.waitCounts (s : Dev) : Dev :=
  if !(s.sites.any (fun x => x.2.demand ≠ 0 || x.2.waited ≠ 0 || x.2.dwellLeft ≠ 0)) then s
  else
    forL (s.sites.map (·.1)) (fun i s =>
      let x := s.site i
      let y := { x with dwellLeft := x.dwellLeft - 1 }
      if !s.waitsNow i then s.setSite i { y with waited := 0 }
      else if s.twait i ≤ x.waited + 1 then (s.setSite i y).throttleWait i (s.demandNow i)
      else s.setSite i { y with waited := x.waited + 1 }) s

/-- The demands of the frame a tick begins (R319). -/
def Dev.demands (s : Dev) : Dev :=
  if !(s.pwr.sensors.any (fun x => 2 ≤ x.2.st)) && !(s.sites.any (fun x => x.2.demand ≠ 0)) then s
  else forL (s.sites.map (·.1)) (fun i s => s.onSite i (fun x => { x with demand := s.demandNow i })) s

/-- THROTTLE_WAIT: a site whose wait count reaches TWAIT with the tick to come; its D dwell frames begin at that tick, which
commits the void (R320). -/
def execThrottleWait (site : Fin 256) (s : State) : Host.Outcome State Fault Refusal :=
  s.run (fun s =>
    if s.waitsNow site && s.twait site ≤ (s.site site).waited + 1 then
      let d := s.demandNow site
      (s.raise (raiseAt 68 2 [site.val])).onSite site (fun x =>
        { x with member := .none, det := true, last := [], waited := 0, tpoint := some d })
    else s)

/-! ### DPS monitors (R65, R191, R327) -/

/-- (VDPS - V_out) × I_out of a sample in units of 2^-298 W; none for a NaN. -/
def sampleWatts (x : DpsSample) : Option Int :=
  match f32Key x.vdps, f32Key x.volts, f32Key x.amps with
  | some a, some b, some c => some ((a - b) * c)
  | _, _, _ => none

/-- Sum of exact powers. -/
def sumWatts : List DpsSample → Option Int
  | [] => some 0
  | x :: r =>
    match sampleWatts x, sumWatts r with
    | some a, some b => some (a + b)
    | _, _ => none

/-- DPS_POWER_SUM: the sum over the enabled outputs (R327), and their dropouts (R186). -/
def Dev.dpsPower (s : Dev) (xs : List DpsSample) : Dev :=
  let xs := xs.filter (fun x => (s.circ x.chan).dpsOn)
  let w := match sumWatts xs with
    | some t => f32OfScaled t (2 ^ 149)
    | none => qNaN
  let s := forL xs (fun x s => s.dropout x) s
  let s := s.wr (aPwr 0x84) w
  let n := if f32Lt (s.rd (aPwr 0x88)) w then min 4 (s.pwr.overN + 1) else 0
  let s := { s with pwr := { s.pwr with overN := n } }
  if 4 ≤ n then s.setBits (aPwr 0x80) 0x40000000 else s

def execDpsPowerSum (xs : List DpsSample) (s : State) : Host.Outcome State Fault Refusal :=
  s.run (fun s => s.dpsPower xs)

/-- A sample lies inside its channel's alarm window (R191). -/
def Dev.inAlarm (s : Dev) (x : DpsSample) : Bool :=
  let p := s.cfgPin x.chan
  f32Le (s.rd (aPin p 0x48)) x.volts && f32Le x.volts (s.rd (aPin p 0x4C)) &&
    f32Le (s.rd (aPin p 0x50)) x.amps && f32Le x.amps (s.rd (aPin p 0x54))

/-- DPS_MONITOR: in STRESS with MON_EN, at a tick whose frame number is a multiple of 2^MON_N; the phase is a DESIGN CHOICE, R65
gives none (log 22). -/
def Dev.dpsMonitor (s : Dev) (xs : List DpsSample) : Dev :=
  let n := max 4 (min 24 (s.fld 0x114 12 8))
  if s.sys.mode ≠ .stress || !s.bit 0x114 0 || s.clk.frame % 2 ^ n ≠ 0 then s
  else
    let bad := xs.filter (fun x => (s.circ x.chan).dpsOn && !s.inAlarm x)
    if bad.isEmpty then s else s.raises (bad.map (fun x => raiseAt 227 2 (s.circAim x.chan)))

def execDpsMonitor (xs : List DpsSample) (s : State) : Host.Outcome State Fault Refusal :=
  s.run (fun s => s.dpsMonitor xs)

end Sys2Proof.Machine
end

