-- ==== Sys2Proof/Machine/Sequence.lean ====
section
/-! DEFINITION. What the engines staged, as a tick applies it, and the masks of the players: exits, election,
moves, rendezvous, joins, jumps (R84, R88-R97, R102, R155, R157; phases b and e of R24). -/

namespace Sys2Proof.Machine

/-! ### Engine-staged entries (phase b) -/

/-- The site's player is playing a segment with the site in its mask (R96). -/
def Dev.inPlay (s : Dev) (i : Nat) : Bool :=
  match s.playerOf i with
  | some y => (s.ply y).st = .playing
  | none => false

/-- DWELL applies, or is refused with DWELL_ILL (R96). -/
def Dev.applyDwell (s : Dev) (i code sel : Nat) : Dev :=
  if s.inPlay i then s.note 169
  else
    let ts := if sel = 128 then List.range (s.npin i) else [sel]
    s.onSite i (fun x => { x with dwell := ts.foldl (fun (d : Tab Nat) t => Tab.set (fun _ => 0) t code d) x.dwell })

/-- JOIN arms; for a site already in its home mask it only clears JF (R95). -/
def Dev.applyJoin (s : Dev) (e i : Nat) (seg : BitVec 16) (w : Nat) : Dev :=
  if (s.site i).member = .home then s.setFlag e 9 false
  else s.onSite i (fun x => { x with join := some { seg := seg, left := w + 1 } })

/-- The site leaves every mask: its pins take their dwell states. -/
def Dev.unmask (s : Dev) (i : Nat) : Dev := s.onSite i (fun x => { x with member := .none, last := [] })

/-- The site leaves every mask and loses its pending PLAY and its armed JOIN (R91 step 1). -/
def Dev.exitSite (s : Dev) (i : Nat) : Dev :=
  s.onSite i (fun x => { x with member := .none, last := [], play := none, join := none })

/-- One engine-staged entry applies (R84). SEGJMP and EMIT act later in the tick. -/
def Dev.applyEng (s : Dev) (x : EngEnt) : Dev :=
  match s.siteOf x.e with
  | none => s
  | some i =>
    match x.op with
    | .play seg => s.onSite i (fun z => { z with play := some { seg := seg, age := 0 } })
    | .join seg w => s.applyJoin x.e i seg w
    | .detach alt => s.onSite i (fun z => { z with leave := some alt })
    | .segjmp _ => s
    | .dwell code sel => s.applyDwell i code sel
    | .level lvl sel v => forL (s.selPins i sel) (applyLevel lvl v) s
    | .tset ts sel edge pos => forL (s.selPins i sel) (applyEdge ts edge pos.toNat) s
    | .force fn sel range v => forL (s.selPins i sel) (applyForce i fn range v) s
    | .gang on lead m =>
      match s.pin? i lead with
      | some p => if on then s.formGang p m else s.releaseGang p
      | none => s
    | .meas slot t kind ap owner => s.applyMeas i slot t kind ap owner
    | .acqarm prof t post =>
      match s.pin? i t with
      | some p => s.acqArmAt (p / 4) prof (p % 4) post
      | none => s
    | .tdcopen mode t pre prof owner =>
      match s.pin? i t with
      | some p =>
        let w0 := s.rd (aTdcProf (p / 4) prof 0)
        if !s.sys.mode.enables 8 then s.chFlag (s.circOf p) 5
        else s.tdcOpenAt (s.circOf p) (p / 4) mode pre prof (if w0.bit 24 then some (i, w0.fld 20 16, owner) else none)
      | none => s
    | .winset mode sel n hi lo => forL (s.selPins i sel) (applyWinset mode n hi lo) s
    | .emit _ => s
    | .exitMask => s.exitSite i

/-- Entries by ascending engine, in program order within one (R11). -/
def engOrder (l : List EngEnt) : List EngEnt := (List.range 272).flatMap (fun e => l.filter (fun x => x.e = e))

/-- The jumps a tick's entries ask for: those of engines whose site is the pacer of its player (R96). -/
def Dev.jumpsOf (s : Dev) (l : List EngEnt) : List (Nat × Nat) :=
  l.filterMap (fun x =>
    match x.op, s.siteOf x.e with
    | .segjmp seg, some i =>
      match s.playerOf i with
      | some y => if s.pacer y = some i then some (y, seg.toNat) else none
      | none => none
    | _, _ => none)

/-! ### TPOINT (R102) -/

/-- A site dwells for D frames from this tick on. -/
def Dev.dwellSite (s : Dev) (d i : Nat) : Dev :=
  s.onSite i (fun x => { x with dwc := x.dwc + wn d, dwellLeft := d, waited := 0 })

/-- A request that its pacer did not make: the engine is released at this tick. -/
def Dev.dropTpoint (s : Dev) (i : Nat) : Dev :=
  s.onEng (s.engOf i) (fun g => match g.phase with | .yielded _ => { g with phase := .yielded 1 } | _ => g)

/-- The TPOINTs of a player's mask in the ended frame; answers the sites that failed the rendezvous. -/
def Dev.tpointMask (s : Dev) (y : Nat) : Dev × List Nat :=
  let m := s.mask y
  let hit := m.filter (fun i => (s.site i).tpoint.isSome)
  match s.pacer y with
  | none => (s, [])
  | some c =>
    match (s.site c).tpoint with
    | some d => (forL hit (fun i s => s.dwellSite d i) s, m.filter (fun i => !(s.site i).tpHit))
    | none => (forL hit (fun i s => s.dropTpoint i) s, [])

/-- Every TPOINT of the ended frame: groups by their pacers, sites in no mask alone. -/
def Dev.tpoints (s : Dev) : Dev × List Nat :=
  if !(s.sites.any (fun x => x.2.tpHit || x.2.tpoint.isSome)) then (s, [])
  else
    let alone := (s.sites.filter (fun x => x.2.member = .none && x.2.tpoint.isSome)).map (·.1)
    let s := forL alone (fun i s => s.dwellSite (((s.site i).tpoint).getD 0) i) s
    let r := (List.range 16).foldl (fun (r : Dev × List Nat) y =>
      let x := r.1.tpointMask y
      (x.1, r.2 ++ x.2)) (s, [])
    ({ r.1 with sites := r.1.sites.upd siteInit (fun x => { x with tpoint := none, tpHit := false }) }, r.2)

/-! ### Mask exits (R91 step 1, R94) -/

/-- A DETACH acts. -/
def Dev.detachSite (s : Dev) (alt : Bool) (i : Nat) : Dev :=
  let s := s.onSite i (fun x => { x with leave := none })
  if alt then
    (if s.altEn i then s.onSite i (fun x => { x with member := .alt, det := true }) else s)
  else if (s.site i).member = .none then s
  else s.onSite i (fun x => { x with member := .none, det := true, last := [] })

/-- DETACH, HALT and STOP exits of the tick. -/
def Dev.maskExits (s : Dev) : Dev :=
  let s := forL (s.sites.filterMap (fun x => x.2.leave.map (fun a => (x.1, a)))) (fun p s => s.detachSite p.2 p.1) s
  let gone := (s.sites.filter (fun x =>
    (x.2.member ≠ .none || x.2.play.isSome || x.2.join.isSome) && !(s.eng (s.engOf x.1)).live)).map (·.1)
  forL gone (fun i s => s.exitSite i) s

/-! ### Moves and the rendezvous (R89-R93) -/

/-- A site fails the rendezvous: it is detached. -/
def Dev.failRdv (s : Dev) (i : Nat) : Dev :=
  s.onSite i (fun x => { x with member := .none, det := true, last := [], play := none, join := none })

/-- What the players' steps find: sites that failed, segments started from dwell by a move. -/
structure SeqOut where
  s     : Dev
  fails : List Nat
  moved : List (Nat × Nat)

/-- A pending PLAY grows older, unless its site is PAUSED (R90, R97). -/
def Dev.agePlay (s : Dev) (i : Nat) : Dev :=
  if (s.eng (s.engOf i)).st = .paused then s
  else s.onSite i (fun x => { x with play := x.play.map (fun p => { p with age := p.age + 1 }) })

/-- The pending PLAY has outlived the window of its player. -/
def Dev.tooOld (s : Dev) (y i : Nat) : Bool :=
  match (s.site i).play with
  | some p => s.fld (aHgt (0x2100 + 4 * y)) 3 0 < p.age && (s.eng (s.engOf i)).st ≠ .paused
  | none => false

/-- A move (R91 steps 3 and 4): the segment has passed R148. -/
def SeqOut.move (o : SeqOut) (y : Nat) (m : List Nat) (c : Nat) (seg : BitVec 16) (g : Placed) : SeqOut :=
  let s := o.s
  let bad := m.filter (fun i => i ≠ c && ((s.site i).play.map (·.seg)) ≠ some seg)
  let fromDwell := decide ((s.ply y).st = .dwell)
  let s := forL m (fun i s => s.onSite i (fun x => { x with play := none })) s
  let s := forL bad (fun i s => s.failRdv i) s
  let s := s.moveSeg y g
  { s := s, fails := o.fails ++ bad,
    moved := if fromDwell && (s.ply y).st = .playing then o.moved ++ [(y, seg.toNat)] else o.moved }

/-- Without a move, pending PLAYs age and the oldest fail, unless the slot was not free (R91 step 5). -/
def SeqOut.wait (o : SeqOut) (y : Nat) (m : List Nat) (free : Bool) : SeqOut :=
  if !free then o
  else
    let s := forL m (fun i s => s.agePlay i) o.s
    let bad := m.filter (s.tooOld y)
    { o with s := forL bad (fun i s => s.failRdv i) s, fails := o.fails ++ bad }

/-- The election (R91 step 2). -/
def SeqOut.elect (o : SeqOut) (y : Nat) : SeqOut :=
  { o with s := o.s.onPly y (fun p => { p with pacer := (o.s.mask y).head? }) }

/-- Steps 2 to 5 of R91 for a player. -/
def SeqOut.player (o : SeqOut) (y : Nat) : SeqOut :=
  let o := o.elect y
  let s := o.s
  let m := s.mask y
  match m.head? with
  | none => o
  | some c =>
    match (s.site c).play with
    | none => o.wait y m (s.slotFree y 0xFFFF)
    | some p =>
      if s.slotFree y p.seg.toNat then
        let g := s.descOf y p.seg.toNat
        if s.placeOk y g then o.move y m c p.seg g else { o with s := s.badSeg y }
      else o

/-- Pending PLAYs of sites in no mask age. -/
def Dev.ageAlone (s : Dev) : Dev :=
  forL ((s.sites.filter (fun x => x.2.member = .none && x.2.play.isSome)).map (·.1)) (fun i s => s.agePlay i) s

/-! ### Joins (R95) -/

/-- An armed JOIN lapses. -/
def Dev.joinLapse (s : Dev) (i : Nat) : Dev :=
  (s.onSite i (fun x => { x with join := none })).setFlag (s.engOf i) 9 true

/-- One eligible tick of an armed JOIN. -/
def Dev.joinTick (s : Dev) (moved : List (Nat × Nat)) (i : Nat) : Dev :=
  match (s.site i).join with
  | none => s
  | some j =>
    if moved.contains (s.homeOf i, j.seg.toNat) && (s.eng (s.engOf i)).live then
      (s.onSite i (fun x => { x with member := .home, det := false, join := none })).setFlag (s.engOf i) 9 false
    else if j.left ≤ 1 then s.joinLapse i
    else s.onSite i (fun x => { x with join := some { j with left := j.left - 1 } })

def Dev.joins (s : Dev) (moved : List (Nat × Nat)) : Dev :=
  forL ((s.sites.filter (fun x => x.2.join.isSome)).map (·.1)) (fun i s => s.joinTick moved i) s

/-! ### Phase e -/

/-- After the moves of a tick: an empty mask cuts the player to dwell, then waiting and new jumps, then
the fixed horizon (R153, R155, R157). -/
def Dev.finishPly (s : Dev) (was : Dev) (jumps : List (Nat × Nat)) (y : Nat) : Dev :=
  let p := s.ply y
  if p.st = .disabled then s
  else
    let s := if (s.mask y).isEmpty && (p.st = .playing || p.next.isSome || p.late.isSome) then s.cutDwell y else s
    let s := if (s.mask y).isEmpty || (p.ring = .halted && (was.ply y).ring ≠ .halted) then s
      else s.waitingJump y (was.ply y)
    let s := match (jumps.filter (·.1 = y)).getLast? with
      | some j => s.jump y j.2
      | none => s
    ((s.fixSeq y).latchAtTick y).edgeClamp y

/-- The pins of sites whose player is not playing hold their dwell states in the new frame: a KEEP then repeats
dwell (R142, R156). -/
def Dev.quietPins (s : Dev) : Dev :=
  forL ((s.sites.filter (fun x => !x.2.last.isEmpty && !s.inPlay x.1)).map (·.1)) (fun i s =>
    s.onSite i (fun x => { x with last := [] })) s

/-- Phase e of step 1 (R24, R91, R93). The TPOINTs of the ended frame are judged over that frame's masks, before the
tick's exits: a site that HALTs or DETACHes in the frame of its group's TPOINT without executing one fails the
rendezvous, DESIGN CHOICE (log 31). -/
def Dev.playersPhase (s : Dev) (jumps : List (Nat × Nat)) : Dev :=
  let was := s
  let s := forN 16 (fun y s => if (s.ply y).urMask.isEmpty then s else s.underVoid y) s
  let t := s.tpoints
  let s := forL t.2 (fun i s => s.failRdv i) t.1
  let o := (List.range 16).foldl SeqOut.player { s := s.maskExits, fails := t.2, moved := [] }
  let s := (o.s.ageAlone).joins o.moved
  let s := if o.fails.isEmpty then s else s.raise (raiseAt srcRdv 2 (o.fails.foldr insAsc []))
  (forN 16 (fun y s => s.finishPly was jumps y) s).quietPins

/-! ### Rows -/

/-- RENDEZVOUS_TIMEOUT: a pending PLAY is older than the window of its player: RDV (R91 step 5, R93). -/
def execRendezvousTimeout (site : Fin 256) (s : State) : Host.Outcome State Fault Refusal :=
  s.run (fun s => match s.playerOf site with
    | some y =>
      if s.slotFree y 0xFFFF && (s.agePlay site).tooOld y site then (s.failRdv site).raise (raiseAt srcRdv 2 [site.val]) else s
    | none => s)

/-- JOIN_LAPSE: the last eligible tick of an armed JOIN has passed without a grant. -/
def execJoinLapse (site : Fin 256) (s : State) : Host.Outcome State Fault Refusal :=
  s.run (fun s => match (s.site site).join with
    | some j => if j.left ≤ 1 then s.joinLapse site else s
    | none => s)

end Sys2Proof.Machine
end

