-- ==== Sys2Proof/Machine/Commit.lean ====
section
/-! DEFINITION. Commit and release: overruns, steps, voids and bins at a tick, engine repair, and the release
of the engines with their VOIDH entries (R27-R31, R76, R77, R98-R104, R204, R208-R212, R218-R220, R422). -/

namespace Sys2Proof.Machine

/-! ### Overruns (R27, R28) -/

/-- The engine has not yielded in a frame into which it was released. -/
def Dev.overruns (s : Dev) (e : Nat) : Bool :=
  let g := s.eng e
  s.sys.mode.running && g.st = .running && (g.phase = .exec || g.phase = .waiting)

/-- Step 1 to 3 of R28 on one engine, but for the raise: its routine is abandoned, the writes it staged and
the bin it held are discarded, its bit in OVR_ENG is set. -/
def Dev.overrunEng (s : Dev) (e : Nat) : Dev :=
  let s := s.onEng e Eng.abandon
  let s := { s with stage := { s.stage with eng := s.stage.eng.filter (fun x => x.e ≠ e) } }
  let s := match s.siteOf e with
    | some i => s.onSite i (fun x => { x with bin := none })
    | none => s
  (s.setBits (aFrm (0x40 + 4 * (e / 32))) (wn (2 ^ (e % 32)))).setBits (aFrm 0x10) 8

/-- Several engines overrun at one tick: one occurrence of OVERRUN (R28, R291). -/
def Dev.overrunAll (s : Dev) (l : List Nat) : Dev :=
  if l.isEmpty then s
  else
    let s := forL l (fun e s => s.overrunEng e) s
    s.raises (l.map (fun e => raiseAt 160 2 (s.engAim e)))

/-- OVERRUN: an engine's YIELD has not retired by the end of its frame; the tick that ends it counts it. -/
def execOverrun (e : Fin 272) (s : State) : Host.Outcome State Fault Refusal :=
  s.run (fun s =>
    if s.overruns e then
      let s := s.overrunAll [e.val]
      { s with clk := { s.clk with overran := s.clk.overran + 1 } }
    else s)

/-- WDOG: an engine has issued more microwords than UCS.WDOG.LIMIT since its last commit (R138). -/
def execWdog (e : Fin 272) (s : State) : Host.Outcome State Fault Refusal :=
  s.run (fun s => if s.overruns e then s.trap e 168 else s)

/-- WAITE_TIMEOUT: the timeout of a WAITE without Y, or of a WAIT word, ends (R85, R108, R139). -/
def execWaiteTimeout (e : Fin 272) (s : State) : Host.Outcome State Fault Refusal :=
  s.run (fun s =>
    let g := s.eng e
    if g.st = .running && g.phase = .waiting then
      if g.mid then s.setEng e { g with u := g.u.map (fun c => { c with wto := true }) }
      else if g.wait.isSome && !g.waitY then s.waitDone e true
      else s
    else s)

/-! ### Steps (R98-R103) -/

/-- F of a site (R208). -/
def Dev.ledF (s : Dev) (i : Nat) : Nat := s.fld (0x400 + 4 * i) 5 0 + 1

/-- A step's compare window begins at this tick (R98, R208). -/
def Dev.beginStep (s : Dev) (i : Nat) (p : Step) : Step :=
  if p.begun then p else { p with begun := true, quota := s.ledF i }

/-- Status a step commits unless it was voided: 1 PASS, 2 FAIL (R100). -/
def Step.verdict (p : Step) : Nat := if p.fails ≠ 0 || p.limFail then 2 else 1

/-- The record of a site once a step committed (R37). -/
def SiteRec.close (r : SiteRec) (p : Step) (st : Nat) : SiteRec :=
  { r with stepId := p.id, status := st, fails := p.fails, lastId := p.id, lastStatus := st, lastFails := p.fails,
           lastDrops := p.drops }

/-- The record shows an open step. -/
def SiteRec.showOpen (r : SiteRec) (p : Step) : SiteRec := { r with stepId := p.id, status := 0, fails := p.fails }

/-- Slots and running measurements of a step that commits VOID (R422). -/
def Dev.voidSlots (s : Dev) (i ser : Nat) : Dev :=
  let gone (o : Option Nat) : Option Nat := if o = some ser then some 0 else o
  let mine (t : Option (Nat × Nat × Option Nat)) : Option (Nat × Nat × Option Nat) :=
    t.map (fun x => if x.1 = i then (x.1, x.2.1, gone x.2.2) else x)
  let s := s.onSite i (fun x => { x with
    slots := x.slots.upd slotEmpty (fun v => if v.owner = some ser then { v with value := qNaN, owner := none } else v) })
  { s with
    circs := s.circs.upd circInit (fun c => match c.meas with
      | some m => if m.site = i then { c with meas := some { m with owner := gone m.owner } } else c
      | none => c)
    tdcs := s.tdcs.upd tdcInit (fun d => { d with slot := mine d.slot, pend := d.pend.map (fun p => { p with slot := mine p.slot }) }) }

/-- A step joins those that closed at the tick. -/
def Dev.addDue (s : Dev) (c : Closing) : Dev := { s with led := { s.led with due := s.led.due ++ [c] } }

/-- A step commits with a status; its entries are numbered or discarded with those of the other steps (R31, R211). -/
def Dev.closeStep (s : Dev) (i : Nat) (p : Step) (st : Nat) : Dev :=
  let s := if st = 3 then s.voidSlots i p.serial else s
  (s.onSite i (fun x => { x with record := x.record.close p st })).addDue { site := i, step := p, st := st }

/-- A step opened in the ended frame is cancelled without status: its LOGFs are still offered and leave their queue
without a number, and its slots stand (R103, R211, R422). -/
def Dev.cancelStep (s : Dev) (i : Nat) (p : Step) : Dev := s.addDue { site := i, step := s.beginStep i p, st := 0 }

/-- A step goes on, or begins its window: the record shows it, and its LOGFs wait for the compares of
SCLK 0 (R31, R98, R208). -/
def Dev.keepStep (s : Dev) (i : Nat) (p : Step) : Dev :=
  let p := s.beginStep i p
  let s := if p.logs.isEmpty then s else { s with led := { s.led with logs := 1 } }
  s.onSite i (fun x => { x with step := some p, record := x.record.showOpen p })

/-- The held bin commits (R218). -/
def Site.commitBin (x : Site) : Site :=
  match x.bin with
  | some b => { x with bin := none, record := { x.record with bin := b } }
  | none => x

/-- Commit of a site whose steps a void reached: begun steps commit VOID, others are cancelled (R103). -/
def Dev.commitVoid (s : Dev) (i cause : Nat) (ended step : Option Step) : Dev :=
  forL (ended.toList ++ step.toList) (fun p s =>
    if p.begun then
      (s.closeStep i p 3).onSite i (fun x => { x with record := { x.record with voidCause := cause } })
    else s.cancelStep i p) s

/-- Commit of the step that ended in the frame (R100). -/
def Dev.commitEnded (s : Dev) (i : Nat) (ended : Option Step) : Dev :=
  match ended with
  | none => s
  | some p => s.closeStep i (s.beginStep i p) p.verdict

/-- Commit of one site (R31). A STOP alone is a void without a cause bit: the open step commits VOID, also one opened in
the ended frame, and so does a step that ended in it (R76, R103, R421; log 27). -/
def Dev.commitSite (i : Nat) (s : Dev) : Dev :=
  let x := s.site i
  if x.step.isNone && x.ended.isNone && x.bin.isNone then s
  else
    let s := s.setSite i { x.commitBin with ended := none, step := none }
    match x.voids with
    | some c =>
      if x.toVoidh then s.commitVoid i c x.ended x.step
      else s.commitVoid i c (x.ended.map (s.beginStep i)) (x.step.map (s.beginStep i))
    | none =>
      let s := s.commitEnded i x.ended
      match x.step with
      | some q => s.keepStep i q
      | none => s

/-- The steps that closed are numbered at once where none of them logged in the ended frame; else after the compares of
SCLK 0, which come before the numbering of step 2 (R22, R208, R211). -/
def Dev.closeTick (s : Dev) : Dev :=
  if s.led.due.any (fun c => !c.step.logs.isEmpty) then { s with led := { s.led with logs := 1 } } else s.numberDue

/-- Step 2 of a tick: every site, ascending; then the steps that closed are numbered (R31, R211, R212). -/
def Dev.commitAll (s : Dev) : Dev × Tally :=
  let s := forL (s.sites.map (·.1)) Dev.commitSite s
  (s.closeTick, tallyOf s.led.due)

/-! ### Engine repair (R77) -/

/-- A spare engine of a cluster, the lowest-numbered. -/
def Dev.spareEng (s : Dev) (k : Nat) : Option Nat :=
  ((List.range 17).map (fun n => 17 * k + n)).find? (fun e => (s.eng e).st = .spare)

/-- An engine is retired, and the repair map records it. -/
def Dev.retireEng (s : Dev) (e : Nat) : Dev := (s.setEng e { engOff with st := .retired }).saveMap

/-- A spare takes a site over: its state as R77 leaves it, its repair noted for VCAUSE. R77 restores no PC, so VPC at its
VOIDH entry names the spare's own PC and not the failed engine's instruction: DESIGN CHOICE (log 32). -/
def Dev.takeOver (s : Dev) (i n : Nat) : Dev :=
  let m := s.rd (aSiteCfg i + 8)
  let s := s.setFld (aSiteCfg i) 24 16 n
  let s := { s with regs := s.regs.filter (fun x => match locOf x.1 with
    | .eng e o => !(e = n && 0x40 ≤ o && o < 0xD0)
    | _ => true) }
  let s := ((s.wr (aEng n 0xC) 0).wr (aEng n 8) (wn (m.fld 31 16 * 65536))).wr (aEng n 0x18) (wn (m.fld 15 15 * 2 ^ 31 + m.fld 14 0))
  (s.clearScr n).setEng n { engOff with st := .running, phase := .held, repair := true }

/-- An engine fault at DEGRADE, or a command, replaces an engine by the cluster's spare; without one the
site is unmapped with ERR 4 (R77). -/
def Dev.repairEng (s : Dev) (e : Nat) : Dev :=
  match s.siteOf e with
  | none => s.retireEng e
  | some i =>
    let s := s.voidSite 4 i
    match s.spareEng (clusterOf e) with
    | some n => (s.retireEng e).takeOver i n
    | none =>
      ((s.retireEng e).onSite i (fun x => { x with mapped := false, err := 4, member := .none, last := [] })).note 171

/-- Engines that wait for their repair at this tick. -/
def Dev.engRepairs (s : Dev) : Dev :=
  forL ((s.engs.filter (fun x => x.2.repair)).map (·.1)) (fun e s => s.repairEng e) s

/-- In SAFE nothing starts: a spare that takes a site over stands still (R67). -/
def Dev.engRepairsSafe (s : Dev) : Dev :=
  forL ((s.engs.filter (fun x => x.2.repair)).map (·.1)) (fun e s =>
    let s := s.repairEng e
    { s with engs := s.engs.upd engOff (fun g => if g.phase = .held && g.repair then { g with phase := .stopped, repair := false } else g) }) s

/-- ENG_HW: parity or self-check of engines fails in one ECLK (R291, R308). -/
def execEngHw (es : List (Fin 272)) (s : State) : Host.Outcome State Fault Refusal :=
  s.run (fun s =>
    let l := (es.map (·.val)).filter (fun e => (s.eng e).st ≠ .off && (s.eng e).st ≠ .retired)
    s.raises (l.map (fun e => { f := 170, lvl := 1, sites := s.engAim e, unit := e, forced := false })))

/-! ### Release (step 5) -/

/-- FLAGS as a release recomputes them: STEPPED, PLAYING, PACER, DET. -/
def Dev.releaseFlags (s : Dev) (e : Nat) : Dev :=
  match s.siteOf e with
  | none => s.setFld (aEng e 0xC) 13 10 0
  | some i =>
    let y := s.playerOf i
    let playing := match y with | some y => decide ((s.ply y).st = .playing) | none => false
    let pacer := match y with | some y => decide (s.pacer y = some i) | none => false
    s.setFld (aEng e 0xC) 13 10 (4 * b2n playing + 2 * b2n pacer + b2n ((s.site i).member ≠ .home))

/-- An engine enters its void handler, or halts without one (R104, R137); a throttle dwell holds it back. -/
def Dev.enterVoidh (s : Dev) (e i cause : Nat) : Dev :=
  let g := s.eng e
  let v := s.rd (aEng e 0x18)
  let s := (s.wr (aEng e 0x10) (wn (cause % 128 + 128 * b2n g.repair))).wr (aEng e 0x14) (wn (s.pc e))
  let g := { g.endIns with stack := [], repair := false }
  if v.bit 31 then
    let d := (s.site i).dwellLeft
    let g := { g with phase := if 0 < d then .yielded d else if g.st = .paused then .held else .exec }
    let s := (s.setEng e g).setPc e (v.fld 14 0)
    if g.phase = .exec then s.releaseFlags e else s
  else (s.setEng e { g with st := .halted, cause := 3, phase := .exec }).exitSite i

/-- One engine at step 5 of a tick: released, or one tick nearer to its release (R76, R101, R104). -/
def Dev.releaseEng (s : Dev) (e : Nat) : Dev :=
  let s := s.onEng e (fun g => { g with staged := 0 })
  let g := s.eng e
  let void := match s.siteOf e with
    | some i =>
      let x := s.site i
      (match x.voids with
       | some c => if x.toVoidh && g.live then some (i, c) else none
       | none => none)
    | none => none
  match void with
  | some (i, c) => s.enterVoidh e i c
  | none =>
    match g.st, g.phase with
    | .running, .yielded n =>
      if n ≤ 1 then (s.setEng e { g with phase := .exec }).releaseFlags e else s.setEng e { g with phase := .yielded (n - 1) }
    | .running, .held => (s.setEng e { g with phase := .exec }).releaseFlags e
    | .running, .stopped => (s.setEng e { g.endIns with phase := .exec }).releaseFlags e
    | .paused, .yielded n => s.setEng e { g with phase := .yielded (n - 1) }
    | _, _ => s

/-- Step 5 of a tick for every engine; the voids of the tick are done. -/
def Dev.releaseAll (s : Dev) : Dev :=
  let s := forL (s.engs.map (·.1)) (fun e s => s.releaseEng e) s
  { s with sites := s.sites.upd siteInit (fun x => { x with voids := none, toVoidh := false }) }

/-- YIELD_RELEASE: a yielded engine of which no tick is left is released (R101). -/
def execYieldRelease (e : Fin 272) (s : State) : Host.Outcome State Fault Refusal :=
  s.run (fun s =>
    let g := s.eng e
    match g.st, g.phase with
    | .running, .yielded n => if n = 0 then (s.setEng e { g with phase := .exec }).releaseFlags e else s
    | _, _ => s)

end Sys2Proof.Machine
end

