-- ==== Sys2Proof/Machine/Run.lean ====
section
/-! DEFINITION. Run control at a tick: starts, stops, pauses and resumes (R76, R97, R219, R366, R367). -/

namespace Sys2Proof.Machine

/-! ### Start (R366) -/

/-- The first condition of a start that a site fails, 0 if it meets all. -/
def Dev.startFails (s : Dev) (i : Nat) : Nat :=
  let st := (s.eng (s.engOf i)).st
  if !(s.site i).mapped then 1
  else if !(st = .ready || st = .halted || st = .stopped) then 2
  else if (s.pins i).any (fun p => (s.quad (p / 4)).st ≠ .active) then 3
  else if (s.ply (s.homeOf i)).st = .playing && (s.site i).member ≠ .home then 4
  else 0

/-- The record of a site as a start clears it (R219). -/
def recordClear : SiteRec :=
  { stepId := 0, status := 0, fails := 0, bin := 0, lastId := 0, lastStatus := 0, lastFails := 0,
    lastDrops := 0, voidCause := 0 }

/-- The 32 slots as a start clears them: quiet NaN, ready. -/
def slotsClear : Tab Slot := (List.range 32).map (fun m => (m, { value := qNaN, ready := true, owner := none }))

/-- A site as its start leaves it: a new run origin, no dwell frames, committed values cleared, in the mask
of its home player; a step that ended and a bin held in the frame before still commit at this tick (R31, R218). -/
def Site.startAt (x : Site) (frame : Nat) : Site :=
  { x with origin := frame, dwc := 0, record := recordClear, slots := slotsClear, play := none,
           join := none, leave := none, det := false, member := .home, last := [], waited := 0, dwellLeft := 0,
           tpoint := none, tpHit := false }

/-- An engine as a start leaves it: RUNNING, to be released at step 5. -/
def Eng.startRun (g : Eng) : Eng := { g.endIns with st := .running, phase := .held }

/-- One site starts at this tick. -/
def Dev.startSite (s : Dev) (entry i : Nat) : Dev :=
  let s := s.onSite i (fun x => x.startAt s.clk.frame)
  let s := s.clrBits (0x800 + 4 * (i / 32)) (wn (2 ^ (i % 32)))
  (s.onEng (s.engOf i) Eng.startRun).setPc (s.engOf i) entry

/-- RUN_START: every named site, or none; answers the status and DETAIL of its completion. -/
def Dev.runStart (s : Dev) (entry : Nat) (l : List Nat) : Dev × Nat × Nat :=
  match l.find? (fun i => s.startFails i ≠ 0) with
  | some i => (s, 11, s.startFails i * 256 + i)
  | none => (forL l (fun i s => s.startSite entry i) s, 0, 0)

/-! ### Stop (R76) -/

/-- The named sites whose engine is RUNNING or PAUSED. -/
def Dev.liveSites (s : Dev) (l : List Nat) : List Nat :=
  l.filter (fun i => (s.site i).mapped && (s.eng (s.engOf i)).live)

/-- STOP of one site: its routine is abandoned and its open step commits VOID at this tick, without a cause. -/
def Dev.stopSite (s : Dev) (i : Nat) : Dev :=
  let s := s.onSite i (fun x => { x with voids := some (x.voids.getD 0), play := none, join := none })
  s.onEng (s.engOf i) (fun g => { g.endIns with st := .stopped, cause := 2 })

/-- RUN_STOP; answers the number of sites stopped. -/
def Dev.runStop (s : Dev) (l : List Nat) : Dev × Nat :=
  let l := s.liveSites l
  (forL l (fun i s => s.stopSite i) s, l.length)

/-! ### Pause and resume (R97, R367) -/

/-- Mapped sites whose home player is y. -/
def Dev.homeSites (s : Dev) (y : Nat) : List Nat :=
  (s.sites.filter (fun x => x.2.mapped && s.homeOf x.1 = y)).map (·.1)

/-- The engine of a site is in a state. -/
def Dev.siteIn (s : Dev) (st : EngState) (i : Nat) : Bool := (s.eng (s.engOf i)).st = st

/-- One RUNNING site pauses. -/
def Dev.pauseSite (s : Dev) (i : Nat) : Dev := s.onEng (s.engOf i) (fun g => { g with st := .paused, cause := 4 })

/-- One PAUSED site resumes. -/
def Dev.resumeSite (s : Dev) (i : Nat) : Dev := s.onEng (s.engOf i) (fun g => { g with st := .running })

/-- A pause or resume by player: every site of the group in the state it acts on, and the player. -/
def Dev.groupRun (s : Dev) (pause : Bool) (y : Nat) : Dev :=
  let l := (s.homeSites y).filter (s.siteIn (if pause then .running else .paused))
  if l.isEmpty then s
  else if pause then (forL l (fun i s => s.pauseSite i) s).pausePly y
  else (forL l (fun i s => s.resumeSite i) s).resumePly y

/-- A pause or resume of one site, which must be in no mask; answers status and DETAIL. -/
def Dev.oneRun (s : Dev) (pause : Bool) (i : Nat) : Dev × Nat × Nat :=
  if (s.playerOf i).isSome then (s, 11, i)
  else if (s.site i).mapped && s.siteIn (if pause then .running else .paused) i then
    (if pause then s.pauseSite i else s.resumeSite i, 0, 0)
  else (s, 0, 0)

end Sys2Proof.Machine
end

