-- ==== Sys2Proof/Machine/Modes.lean ====
section
/-! DEFINITION. Mode requests and switches (R53-R57, R63, R66, R126, R157, R190, R192, R222, R241, R261). -/

namespace Sys2Proof.Machine

/-! ### Paths, stages and conditions -/

/-- M4 to M7. -/
def Mode.m4to7 (m : Mode) : Bool := m = .contact || m = .parametric || m = .functional || m = .mixed

/-- A working mode, M4 to M10. -/
def Mode.working (m : Mode) : Bool := m.idleOrWorking && m ≠ .idle

/-- The host may ask for the path (R53). -/
def modePath (old new : Mode) : Bool :=
  (old = .recovery && new = .idle) || (old = .idle && new.working) || (old.working && new = .idle) ||
    (old.m4to7 && new.m4to7 && old ≠ new)

/-- Analog stages a mode enables: 0 PMU, 1 DPS, 2 drivers and comparators, 3 sense ADCs, 4 TDCs,
5 acquisition (R50, R55). -/
def Mode.stages (m : Mode) : List Nat :=
  match m with
  | .contact => [0, 3]
  | .functional => [0, 1, 2, 3, 4]
  | .calibrate => [0, 2, 3, 4, 5]
  | .parametric | .mixed | .stress | .diagnostic => [0, 1, 2, 3, 4, 5]
  | _ => []

/-- Ticks from acceptance to the switch (R55). -/
def Dev.modeWait (s : Dev) (m : Mode) : Nat :=
  if m.stages.any (fun k => !s.sys.mode.stages.contains k) then s.warmTicks else 0

/-- A step counts as open at step 1 of a tick: one of a STOPPED engine has ended there (R421). -/
def Dev.anyStepOn (s : Dev) : Bool :=
  s.sites.any (fun x => x.2.step.isSome && (s.eng (s.engOf x.1)).st ≠ .stopped)

/-- SYNC_LOCKED: on the master, SCLK lock (FRM.STATUS). -/
def Dev.syncLocked (s : Dev) : Bool := if s.sys.master then s.clk.locked else s.clk.slocked

/-- A calibration, of the device or of a quad, or a save of it is under way. -/
def Dev.calRuns (s : Dev) : Bool := s.host.jobs.any (fun j => j.code = 0x70 || j.code = 0x71)

/-- Distinct words loaded into a writable copy. -/
def Dev.wcsCount (s : Dev) (k : Nat) : Nat := (s.ucs.loaded.get (fun _ => []) k).length

/-- Every copy is loaded and ECC-clean (R53, R126). -/
def Dev.wcsReady (s : Dev) : Bool :=
  (List.range 16).all (fun k => s.wcsCount k = 16384 && !s.bit (aUcs (0x8620 + 4 * k)) 30)

/-- The first condition of a switch that does not hold, 0 if all hold (R56). -/
def Dev.switchReason (s : Dev) (m : Mode) : Nat :=
  let old := s.sys.mode
  if old = .idle then
    (if !(s.clk.locked && s.syncLocked) then 2 else if m = .stress && !s.bit 0x114 31 then 6 else 0)
  else if old = .recovery then (if s.wcsReady then 0 else 10)
  else if old = .calibrate then (if s.calRuns then 7 else 0)
  else if m = .idle then
    (if s.anyEngLive then 4 else if s.plys.any (fun x => x.2.st = .playing) then 5 else 0)
  else if s.anyStepOn then 3 else 0

/-! ### What a switch does -/

/-- A channel the new mode does not serve: FUNC Off, its gang released, its bleeder engaged where it was DPS
(R188, R189, R192). -/
def Dev.chanOff (s : Dev) (p : Nat) : Dev :=
  let s := s.onCirc (s.circOf p) (fun x => if s.func p = 4 then { dpsOff true x with gang := none } else { x with gang := none })
  s.setFunc 0 (s.range p) 0 p

/-- Channels at a switch into a mode. -/
def Dev.chansTo (s : Dev) (m : Mode) : Dev :=
  forN 576 (fun p s => if m.funcOk (s.func p) (s.range p) then s else s.chanOff p) s

/-- Quads at the entry to CALIBRATE: their states are kept, every one not RETIRED goes to SERVICE (R63). -/
def Dev.calEnter (s : Dev) : Dev :=
  let l := (List.range 144).filter (fun q => (s.quad q).st ≠ .retired)
  let s := { s with sys := { s.sys with held := l.map (fun q => (q, (s.quad q).st)) } }
  let s := forL l (fun q s => s.qSupersede q) s
  s.quadsTo ((l.filter (fun q => (s.quad q).st ≠ .service)).map (fun q => (q, QState.service)))

/-- Quads at the switch back to IDLE. -/
def Dev.calLeave (s : Dev) : Dev :=
  let l := s.sys.held.filter (fun x => (s.quad x.1).st = .service && x.2 ≠ .service)
  ({ s with sys := { s.sys with held := [] } }).quadsTo l

/-- The units that follow the mode at a switch tick. -/
def Dev.unitsTo (s : Dev) (old new : Mode) : Dev :=
  let s := if new.enables 0 || new.enables 1 then s else forN 16 (fun y s => s.cutDwell y) s
  let s := s.chansTo new
  let s := if new.enables 6 then s
    else { s with quads := s.quads.upd quadInit (fun z => { z with pendOn := [], ticket := 0 }) }
  let s := if new.enables 8 then s else forL (s.tdcs.map (·.1)) (fun c s => s.tdcLost c) s
  let s := if new.enables 10 then s else forL (s.acqs.map (·.1)) (fun q s => s.acqEnd q 4) s
  if new.enables 7 && !old.enables 7 then s.moveOrigin else s

/-- The switch of the mode (R56). A fault of the switch's own steps that enters SAFE ends the request
(R57, R67). -/
def Dev.switchTo (s : Dev) (r : ModeReq) : Dev :=
  let old := s.sys.mode
  let new := r.target
  let s := if old = .stress then s.clrBits 0x114 0x80000000 else s
  let s := if old = .calibrate then s.calLeave else s
  let s := if new = .calibrate then s.calEnter else s
  let s := s.unitsTo old new
  if s.sys.mode = .safe then s else
  let s := { s with sys := { s.sys with mode := new, req := none, wcs := s.sys.wcs || decide (old = Mode.recovery) } }
  let s := ((s.setBits 0x108 4).setFld 0x108 23 16 r.tag).wrFrame 0x10C 0x110 s.clk.frame
  match r.cmd with
  | some j => s.complete j 0 0 []
  | none => s

/-- The conditions are tested and the switch is made or refused. -/
def Dev.trySwitch (s : Dev) (r : ModeReq) : Dev :=
  let why := s.switchReason r.target
  if why = 0 then s.switchTo r
  else ({ s with sys := { s.sys with req := none } }).endReq r why

/-! ### Phase g (R54, R57) -/

/-- The read-through of the writable store at a request to leave RECOVERY: copies with a double-bit error
(R126). -/
def Dev.readThrough (s : Dev) (bad : List (Fin 16)) : Dev :=
  forN 16 (fun k s => s.setFld (aUcs (0x8620 + 4 * k)) 30 30 (b2n (bad.any (fun x => x.val = k)))) s

/-- One request of the tick: refused for its path, or the one that stands (R57). -/
def Dev.takeReq (bad : List (Fin 16)) (r : ModeReq) (s : Dev) : Dev :=
  if !modePath s.sys.mode r.target then s.endReq r 1
  else
    let s := match s.sys.req with
      | some old => s.endReq old 8
      | none => s
    let s := if s.sys.mode = .recovery then s.readThrough bad else s
    { s with sys := { s.sys with req := some { r with switchAt := frameMod (s.clk.frame + s.modeWait r.target) } } }

/-- A switch that is due at the tick. -/
def Dev.switchDue (s : Dev) : Dev :=
  match s.sys.req with
  | some r => if r.switchAt = s.clk.frame then s.trySwitch r else s
  | none => s

/-- Phase g of step 1. -/
def Dev.modePhase (s : Dev) (bad : List (Fin 16)) : Dev :=
  let l := s.sys.asked
  let s := { s with sys := { s.sys with asked := [] } }
  (forL l (Dev.takeReq bad) s).switchDue

/-- MODE_SWITCH: the switch tick of the request that stands (R55, R56). -/
def execModeSwitch (bad : List (Fin 16)) (s : State) : Host.Outcome State Fault Refusal :=
  s.run (fun s => match s.sys.req with
    | some r => if r.switchAt = s.clk.frame then (if s.sys.mode = .recovery then s.readThrough bad else s).trySwitch r else s
    | none => s)

end Sys2Proof.Machine
end

