-- ==== Sys2Proof/Machine/Access.lean ====
section
/-! DEFINITION. What a host read of each address returns (R6-R10): stored cards, and the fields that show other
state. -/

namespace Sys2Proof.Machine

/-! ### Codes of the cards -/

def EngState.code : EngState → Nat
  | .off => 0 | .spare => 1 | .ready => 2 | .running => 3 | .paused => 4 | .halted => 5 | .stopped => 6 | .retired => 7

def CircState.code : CircState → Nat
  | .off => 0 | .inService => 1 | .watch => 2 | .settling => 3 | .failed => 4 | .isolated => 5

def SpareState.code : SpareState → Nat
  | .off => 0 | .watch => 1 | .settling => 2 | .subst => 3 | .failed => 4 | .restoring => 5

def WeirState.code : WeirState → Nat
  | .inside => 0 | .above => 1 | .below => 2 | .unknown => 3

def TdcState.code : TdcState → Nat
  | .closed => 0 | .waitStart => 1 | .waitStop => 2 | .counting => 3 | .done => 4

def AcqState.code : AcqState → Nat
  | .idle => 0 | .waitArm => 1 | .filling => 2 | .post => 3 | .done => 4

def PlyState.code : PlyState → Nat
  | .disabled => 0 | .dwell => 1 | .playing => 2

def RingState.code : RingState → Nat
  | .off => 0 | .filling => 1 | .run => 2 | .halted => 3

def LaneState.code : LaneState → Nat
  | .off => 0 | .train => 1 | .up => 2 | .failed => 3

/-- A bit of a word. -/
def at1 (i : Nat) (b : Bool) : W := if b then wn (2 ^ i) else 0

/-- A field of a word. -/
def atF (lo : Nat) (x : Nat) : W := wn (x * 2 ^ lo)

/-- A word whose bit b shows whether a list holds base + b. -/
def listWord (l : List Nat) (base n : Nat) : W := maskWord (fun i => i < n && l.contains (base + i)) 0

/-! ### Staged entries (R26, R357) -/

/-- Staged writes an entry counts as: QUAD_STATE one for each quad it names (R357). -/
def HostEnt.weight (x : HostEnt) : Nat :=
  match x.op with
  | .write _ _ => 1
  | .cmd j => if j.code = 0xA2 then (List.range 144).countP (fun q => (j.params.getD (1 + q / 32) 0).bit (q % 32)) else 1

/-- The entry applies at a tick, as it stands. -/
def HostEnt.isFor (x : HostEnt) (next : Nat) (n : Nat) : Bool :=
  match x.tgt with
  | some t => t = n
  | none => n = next

/-- Number of the next tick. -/
def Dev.nextTick (s : Dev) : Nat := if s.clk.ticked then frameMod (s.clk.frame + 1) else 0

/-- Host writes staged for a tick. -/
def Dev.stagedFor (s : Dev) (n : Nat) : Nat :=
  ((s.stage.host.filter (fun x => x.isFor s.nextTick n)).map HostEnt.weight).foldl (· + ·) 0

/-! ### Reads by region -/

/-- GLB (R49, R381). -/
def Dev.readGlb (s : Dev) (o : Nat) : W :=
  let v := s.rd o
  if o = 0x100 then
    at1 31 s.sys.wcs ||| atF 8 (match s.sys.req with | some r => r.target.code | none => 0) |||
      at1 7 s.sys.req.isSome ||| wn s.sys.mode.code
  else if o = 0x108 then v ||| at1 0 s.sys.req.isSome
  else if o = 0x204 then (s.limit (s.fld 0x200 13 0)).1
  else if o = 0x208 then (s.limit (s.fld 0x200 13 0)).2
  else if o = 0x904 then v ||| at1 26 s.nv.run.isSome
  else if o = 0x90C then wn (s.nv.wear.get (fun _ => 0) (s.fld 0x908 15 0))
  else if o = 0x910 then wn (s.nv.wear.get (fun _ => 0) (s.fld 0x908 15 0) / 2 ^ 32 % 65536)
  else v

/-- STICKY bits of a class (FLT.PEND). -/
def Dev.pendWord (s : Dev) (x : Nat) : W := maskWord (fun n => s.sticky (32 * x + n)) 0

/-- FLT (R289-R292, R307). -/
def Dev.readFlt (s : Dev) (o : Nat) : W :=
  let v := s.rd (aFlt o)
  if 0x800 ≤ o ∧ o < 0x830 ∧ o % 4 = 0 then
    let x := (o - 0x800) / 4
    v ||| at1 31 (s.unack x) ||| atF 24 (s.clsLevel x)
  else if 0x900 ≤ o ∧ o < 0x930 ∧ o % 4 = 0 then s.pendWord ((o - 0x900) / 4)
  else if o = 0xA00 then atF 16 (maskWord (fun x => x < 12 && s.unack x) 0).toNat ||| maskWord (fun x => x < 12 && s.clsAny x) 0
  else if o = 0xA10 then at1 31 s.flt.running ||| at1 30 s.flt.level ||| wn s.flt.toggles
  else v

/-- CLK and FRM (R16-R48, R265). -/
def Dev.readFrm (s : Dev) (o : Nat) : W :=
  let v := s.rd (aFrm o)
  if o = 8 then wn s.clk.frame
  else if o = 0x10 then v ||| at1 2 s.syncLocked ||| at1 1 s.sys.master ||| at1 0 s.clk.locked
  else if o = 0x30 then wn (s.stagedFor s.nextTick)
  else if o = 0x88 then v ||| at1 31 (s.clk.resets.any (fun x => x.2 = 3))
  else if o = 0xA0 then v ||| at1 2 s.clk.holdover ||| at1 1 s.clk.ref
  else v

/-- The sensor with the highest value in use in a zone, the lowest-numbered of equals; none before the
first reading, when the cards still show their reset values (R13). -/
def Dev.hotSensor (s : Dev) (z : Nat) : Option Nat :=
  ((s.zoneSensors z).filter (fun n => 0 < (s.sensor n).reads)).foldl (fun (m : Option Nat) n =>
    match m with
    | none => some n
    | some h => if tempKey (s.sensor h).value < tempKey (s.sensor n).value then some n else some h) none

/-- THM (R310-R318). -/
def Dev.readThm (s : Dev) (o : Nat) : W :=
  let z := o / 16
  if o < 0x1C0 ∧ o % 16 = 8 then
    at1 31 (s.pwr.fast.contains z) ||| at1 30 ((s.zoneSensors z).any (fun n => (s.sensor n).held)) |||
      atF 16 (s.zoneState z) ||| wn ((s.hotSensor z).getD 0)
  else if o < 0x1C0 ∧ o % 16 = 12 then
    match s.hotSensor z with
    | some n => (s.sensor n).value
    | none => 0
  else if 0x400 ≤ o ∧ o < 0x640 then
    let x := s.sensor ((o - 0x400) / 8)
    if o % 8 = 0 then x.value
    else if o % 8 = 4 then at1 31 x.broken ||| at1 30 x.median ||| atF 27 x.why ||| atF 16 x.st ||| wn (min x.reads 65535)
    else 0
  else if o = 0x800 then s.rd (aThm o) ||| wn s.actQuads
  else s.rd (aThm o)

/-- LNK (R341, R344, R345). -/
def Dev.readLnk (s : Dev) (o : Nat) : W :=
  if o < 0x200 ∧ o % 32 = 0 then
    let x := s.lane (o / 32)
    atF 16 (min x.total 255) ||| wn x.st.code
  else if 0x400 ≤ o ∧ o < 0x440 ∧ o % 16 = 0 then
    let k := s.link ((o - 0x400) / 16)
    atF 16 (min k.replays 65535) ||| atF 4 (listWord k.inSvc 0 4).toNat |||
      wn (match k.inSvc.length with | 0 => 0 | 1 => 1 | 2 => 2 | _ => 3)
  else if o = 0x500 then
    atF 16 (if s.sys.boot = .done then s.firstLink.getD 255 else 0) ||| wn s.host.lost
  else s.rd (aLnk o)

/-- A word of PWR.GOOD or PWR.WAIT. -/
def domWord (l : List Nat) (w : Nat) : W :=
  if w < 5 then listWord l (32 * w) (min 32 (144 - 32 * w))
  else if w = 5 then listWord l 144 16
  else if w = 6 then listWord l 176 16
  else listWord l 160 16 ||| atF 16 (listWord l 192 4).toNat

/-- The domains that are on or wait to be: what the request registers show (R324, R325). -/
def Dev.domsAsked (s : Dev) : List Nat := s.pwr.on ++ s.pwr.wait ++ s.pwr.fresh

/-- PWR (R322-R325). -/
def Dev.readPwr (s : Dev) (o : Nat) : W :=
  if 0x40 ≤ o ∧ o < 0x60 ∧ o % 4 = 0 then domWord s.pwr.good ((o - 0x40) / 4)
  else if 0x60 ≤ o ∧ o < 0x80 ∧ o % 4 = 0 then domWord (s.pwr.wait ++ s.pwr.fresh) ((o - 0x60) / 4)
  else if o ≤ 0x10 ∧ o % 4 = 0 then domWord s.domsAsked (o / 4)
  else if o = 0x20 then domWord s.domsAsked 5
  else if o = 0x24 then domWord s.domsAsked 6
  else if o = 0x28 then listWord s.domsAsked 192 4
  else if o = 0x2C then wn s.pwr.groups
  else s.rd (aPwr o)

/-- ENG[e] (R75, R78): SCR shows the scratch page named by SCR_PAGE. -/
def Dev.readEng (s : Dev) (e o : Nat) : W :=
  let g := s.eng e
  let v := s.rd (aEng e o)
  if o = 0 then
    v ||| (match s.siteOf e with | some i => atF 16 i ||| at1 15 true | none => 0) ||| atF 8 g.cause ||| wn g.st.code
  else if o = 8 then v ||| g.uchunk.setWidth 32
  else if o = 0x1C then
    match s.siteOf e with
    | none => 0
    | some i =>
      let x := s.site i
      (match x.play with | some p => at1 31 true ||| atF 24 (min p.age 15) | none => 0) |||
        (match x.join with | some j => at1 30 true ||| atF 16 (min j.left 255) | none => 0) |||
        (match x.play, x.join with | some p, _ => p.seg.setWidth 32 | none, some j => j.seg.setWidth 32 | none, none => 0)
  else if o = 0x20 then wn g.stack.length
  else if 0x800 ≤ o then s.scrWord e (0x800 * s.fld (aEng e 0x100) 2 0 + (o - 0x800))
  else v

/-- Configuration registers of a channel, which belong to the pin (R176, R249, R274, R288). -/
def isPinCfg (o : Nat) : Bool :=
  o = 0 || (0x10 ≤ o && o < 0x58) || o = 0x5C || o = 0x60 || o = 0x64 || o = 0x100 || o = 0x104 || o = 0x10C ||
    o = 0x128 || o = 0x180 || o = 0x184 || 0x200 ≤ o

/-- CH of circuit c (R176, R201, R228, R232, R237): the spare's configuration is that of its pin. -/
def Dev.readCh (s : Dev) (c o : Nat) : W :=
  let v := s.rd (aCh c o)
  let h := s.chain c
  if isPinCfg o then s.rd (aPin (s.cfgPin c) o)
  else if o = 4 then v ||| wn (s.circ c).st.code
  else if o = 0x58 then
    match (s.circ c).gang with
    | some (l, m) => atF 30 (if s.cfgPin c % 4 = l then 1 else 2) ||| atF 16 l ||| wn m
    | none => 0
  else if o = 0x68 then v ||| at1 31 (s.weir c).unsettled ||| atF 16 (s.weir c).st.code
  else if o = 0x108 then
    v ||| (match h.pendXf with | some x => atF 4 x ||| at1 3 true | none => 0) ||| at1 2 h.fade.isSome ||| wn h.bank
  else if o = 0x110 then BitVec.ofInt 32 (divAway h.m (2 ^ 24))
  else if o = 0x114 then v ||| at1 0 h.valid
  else if o = 0x118 then
    at1 31 h.valid ||| at1 30 h.sat ||| at1 29 h.taken ||| at1 28 h.xf ||| wn (bits24 h.outY)
  else if o = 0x11C then (if h.j = 0 then 0 else wn (h.j - 1))
  else if o = 0x120 then s.adcScale (s.showCirc c)
  else if o = 0x124 then s.adcOfs (s.showCirc c)
  else if o = 0x12C then v ||| atF 16 (s.tdc c).st.code
  else v

/-- Quad registers (R193, R241, R273). -/
def Dev.readQuad (s : Dev) (q o : Nat) : W :=
  let v := s.rd (aQuad q o)
  let z := s.quad q
  if o = 4 then
    v ||| at1 29 (z.ticket ≠ 0) ||| at1 28 z.warm.isSome ||| atF 8 (z.subst.getD 15) ||| atF 4 z.spare.code ||| wn z.st.code
  else if o = 0x24 then v ||| wn (min z.wakeRun 15)
  else if o = 0x104 then v ||| atF 24 (s.acq q).st.code
  else v

/-- PLY[y] (R147-R172). -/
def Dev.readPly (s : Dev) (y o : Nat) : W :=
  let v := s.rd (aPly y o)
  let p := s.ply y
  if o = 0 then (if v.bit 31 then v else v &&& 0xFFFFFF80) else
  if o = 4 then v ||| atF 2 p.ring.code ||| wn p.st.code
  else if o = 8 then
    match p.cur with
    | some u => atF 16 (min u.pass 65535) ||| u.seg.seg.setWidth 32
    | none => 0xFFFF
  else if o = 0xC then
    match p.cur with
    | some u => wn (u.begun - 1)
    | none => 0
  else if o = 0x10 then
    match p.next, p.tail with
    | some g, false => at1 31 true ||| at1 30 p.fixed ||| g.seg.setWidth 32
    | _, _ => at1 30 p.fixed
  else if o = 0x2C then wn p.fill
  else if o = 0x30 then wn p.drain
  else if 0x80 ≤ o ∧ o < 0xA0 ∧ o % 4 = 0 then
    let m := s.mask y
    maskWord (fun i => m.contains i) ((o - 0x80) / 4)
  else v

/-- CIS registers (R160-R164). -/
def Dev.readCisReg (s : Dev) (o : Nat) : W :=
  if o = 0 then wn s.pwr.groups
  else if 0x10 ≤ o ∧ o < 0x20 ∧ o % 4 = 0 then
    let n := (o - 0x10) / 4
    let x := s.spareBank n
    at1 31 (4 * n < s.pwr.groups && !x.copying && !x.inUse && !x.failed) ||| at1 30 x.inUse ||| at1 29 x.copying ||| wn x.bank
  else s.rd (aCisReg o)

/-- HGT (R70-R74). -/
def Dev.readHgt (s : Dev) (o : Nat) : W :=
  if 0x1000 ≤ o ∧ o < 0x2000 ∧ o % 16 = 4 then
    let x := s.site ((o - 0x1000) / 16)
    at1 31 x.mapped ||| wn (if x.mapped then 0 else x.err)
  else if o = 0x2000 then s.rd (aHgt o) ||| wn (s.sites.countP (fun x => x.2.mapped))
  else s.rd (aHgt o)

/-- Two enabled match registers name one address (R119). -/
def Dev.dupMatch (s : Dev) : Bool :=
  (List.range 64).any (fun n =>
    let v := s.rd (aUcs (0x8000 + 4 * n))
    v.bit 31 && (List.range n).any (fun k =>
      let w := s.rd (aUcs (0x8000 + 4 * k))
      w.bit 31 && w.fld 13 0 = v.fld 13 0))

/-- UCS (R118-R125). -/
def Dev.readUcs (s : Dev) (o : Nat) : W :=
  if o < 0x8000 then
    let w := s.pramWord (o / 32)
    if o % 32 < 16 then w.extractLsb' (8 * (o % 32)) 32
    else if o % 32 = 16 then (w.extractLsb' 128 23).setWidth 32 ||| atF 23 (Config.eccOf w.toNat).toNat
    else 0
  else if o = 0x8104 then s.rd (aUcs o) ||| at1 30 s.dupMatch
  else if o = 0x8110 then s.nvWord 0x460
  else if 0x8620 ≤ o ∧ o < 0x8660 ∧ o % 4 = 0 then
    let n := s.wcsCount ((o - 0x8620) / 4)
    s.rd (aUcs o) ||| at1 31 (n = 16384) ||| wn n
  else s.rd (aUcs o)

/-- The word at an aligned address. Cistern beyond the powered groups reads 0 (R160, log 23). -/
def Dev.readWord (s : Dev) (a : Nat) : W :=
  match locOf a with
  | .glb o => s.readGlb o
  | .flt o => s.readFlt o
  | .frm o => s.readFrm o
  | .thm o => s.readThm o
  | .slc _ => s.rd a
  | .lnk o => s.readLnk o
  | .pwr o => s.readPwr o
  | .eng e o => s.readEng e o
  | .ch c o => s.readCh c o
  | .quad q o => s.readQuad q o
  | .ply y o => s.readPly y o
  | .ts n => s.rd (aTs n)
  | .cisReg o => s.readCisReg o
  | .hgt o => s.readHgt o
  | .ucs o => s.readUcs o
  | .nvr _ => s.word a
  | .img i o => Tab.get (fun _ => (0 : W)) (Tab.get (fun _ => []) s.imgs i) o
  | .ldg _ => s.word a
  | .pgm _ _ => s.word a
  | .acq _ _ => s.word a
  | .cis o => if o < s.cisBytes then s.word a else 0
  | .none => 0

/-- What reading a word changes: a read of FRAME_LO latches FRAME_HI (R41's card). -/
def Dev.readLatch (s : Dev) (a : Nat) : Dev :=
  match locOf a with
  | .frm 8 => s.wr (aFrm 0xC) (wn (s.clk.frame / 2 ^ 32 % 65536))
  | _ => s

/-- A double-bit error on a word the host reads: the fault of its memory (R162, R308, R380). -/
def Dev.readBad (s : Dev) (a : Nat) : Dev :=
  match locOf a with
  | .cis o => s.cisHostBad o
  | .img _ _ => s.note 136
  | .eng e _ => s.raise (raiseAt 133 2 (s.engAim e))
  | .nvr o => s.nvEcc2 o
  | _ => s

/-- A single-bit error on a word the host reads: corrected and rewritten, and noted by its memory (R79, R162, R308,
R380). -/
def Dev.readFixed (s : Dev) (a : Nat) : Dev :=
  match locOf a with
  | .cis o => if o < s.cisBytes then s.cisCorrected o else s
  | .pgm _ _ => s.note 132
  | .nvr o => s.nvEcc1 o
  | _ => s

/-- The word holds a double-bit error: a poisoned cistern word, or one the environment names. -/
def Dev.wordBad (s : Dev) (a k : Nat) (bad : Option Nat) : Bool :=
  bad = some k || (match locOf a with | .cis o => s.poisoned o 4 | _ => false)

/-- What reading word k of a request changes, where it is one with a single-bit error too. -/
def Dev.readOne (s : Dev) (a k : Nat) (fixed : List Nat) : Dev :=
  if fixed.contains k then (s.readFixed a).readLatch a else s.readLatch a

/-- Words of a read from word k on, in ascending order; a word with a double-bit error returns 0 and ends
it: the state, the words, and whether it stopped (R339, R340). -/
def Dev.readFrom (s : Dev) (a : Nat) (bad : Option Nat) (fixed : List Nat) : Nat → Nat → Dev × List W × Bool
  | _, 0 => (s, [], false)
  | k, n + 1 =>
    if s.wordBad (a + 4 * k) k bad then (s.readBad (a + 4 * k), [0], true)
    else
      let v := s.readWord (a + 4 * k)
      let r := (s.readOne (a + 4 * k) k fixed).readFrom a bad fixed (k + 1) n
      (r.1, v :: r.2.1, r.2.2)

end Sys2Proof.Machine
end

