-- ==== Sys2Proof/Machine/Write.lean ====
section
/-! DEFINITION. Host writes: the card behind each address, the staging of RWT words and the entries a tick
applies (R7-R12, R18, R23, R26, R40, and the write rules of each chapter's cards). -/

namespace Sys2Proof.Machine

/-! ### A plain card -/

/-- The word a card holds after a write: RW fields take the value, ones clear W1C fields (R10). -/
def cardWrite (a : Nat) (old v : W) : W := ((old &&& ~~~(rwMask a)) ||| (v &&& rwMask a)) &&& ~~~(v &&& w1cMask a)

/-- A write of a card with no rule of its own. -/
def Dev.putCard (s : Dev) (a : Nat) (v : W) : Dev := s.wr a (cardWrite a (s.rd a) v)

/-! ### GLB (R66, R213, R217) -/

/-- LIM_LO or LIM_HI: refused while an engine runs; LIM_HI stores the entry (R217). -/
def Dev.limWrite (s : Dev) (o : Nat) (v : W) : Dev :=
  if s.anyEngLive then s.setBits 0x20C 0x80000000
  else if o = 0x204 then s.putCard o v
  else
    let n := s.fld 0x200 13 0
    let s := s.setLimit n (s.rd 0x204, v)
    if s.bit 0x200 31 then s.setFld 0x200 13 0 ((n + 1) % 16384) else s

/-- LDG_CTRL, with CLR in IDLE (R213). -/
def Dev.ldgCtrl (s : Dev) (v : W) : Dev :=
  let s := s.putCard 0x30C v
  let s := if v.bit 31 && s.sys.mode = .idle then
    { ((s.wr 0x300 0).wr 0x304 0).wr 0x308 0 with led := { s.led with ring := [] } } else s
  s.hwmCheck

def Dev.writeGlb (s : Dev) (o : Nat) (v : W) : Dev :=
  if o = 0x204 ∨ o = 0x208 then s.limWrite o v
  else if o = 0x308 then (s.putCard o v).hwmCheck
  else if o = 0x30C then s.ldgCtrl v
  else s.putCard o v

/-! ### FLT (R292, R295, R296) -/

/-- A FORCE of a reserved source is refused; one of another source acts in the ECLK after the request (R296). -/
def Dev.forceSrc (s : Dev) (f : Nat) : Dev := if fltNamed f then s else s.setBits (aFlt 0xA0C) 0x40000000

/-- The sources a word of a request forces. -/
def forcedBy (a : Nat) (v : W) : Option Nat :=
  match locOf a with
  | .flt o => if o < 0x600 && v.bit 29 && fltNamed (o / 4) then some (o / 4) else none
  | _ => none

/-- The ECLK after a write request completes: the forced occurrences of its words, in one instant (R291, R296). FORCE reads
1 up to it, which lies in the same row: no read of the host falls between. In RECOVERY a write only acknowledges. -/
def Dev.forced (s : Dev) (ws : List (Nat × W)) : Dev :=
  let l := ws.filterMap (fun x => forcedBy x.1 x.2)
  if l.isEmpty || s.sys.mode = .recovery then s
  else
    let aim := if s.bit (aFlt 0xA08) 31 then [s.fld (aFlt 0xA08) 7 0] else []
    s.raises (l.map (fun f => { f := f, lvl := s.fld (aSrc f) 17 16, sites := aim, unit := 0, forced := true }))

/-- Words of a request with their addresses. -/
def wordsAt (a : Nat) : List W → List (Nat × W)
  | [] => []
  | v :: l => (a, v) :: wordsAt (a + 4) l

/-- A write of FLT.SRC[f]: the fields, the acknowledgement, then FORCE; in RECOVERY it only acknowledges. -/
def Dev.srcWrite (s : Dev) (f : Nat) (v : W) : Dev :=
  let full := s.sys.mode ≠ .recovery
  let s := if full then s.putCard (aSrc f) v else s
  let s := if v.bit 30 && fltNamed f then s.ackHost f else s
  if full && v.bit 29 then s.forceSrc f else s

/-- A write of FLT.PEND[x] acknowledges the sources it names. -/
def Dev.pendWrite (s : Dev) (x : Nat) (v : W) : Dev :=
  forN 32 (fun n s => if v.bit n && fltNamed (32 * x + n) then s.ackHost (32 * x + n) else s) s

def Dev.writeFlt (s : Dev) (o : Nat) (v : W) : Dev :=
  if o < 0x600 then s.srcWrite (o / 4) v
  else if 0x900 ≤ o ∧ o < 0x930 then s.pendWrite ((o - 0x900) / 4) v
  else s.putCard (aFlt o) v

/-! ### CLK, FRM, THM, LNK -/

/-- CFG_REJ. -/
def Dev.cfgRej (s : Dev) : Dev := s.setBits (aFrm 0x10) 0x40

/-- SCLK_CFG: MULT outside 16 to 128 is ignored; a change relocks SCLK (R16, R21). -/
def Dev.sclkCfg (s : Dev) (v : W) : Dev :=
  let m := v.fld 7 0
  if m < 16 ∨ 128 < m then s.cfgRej
  else if m = s.mult then s
  else (s.putCard (aFrm 0) v).startRelock

/-- SYNC_CFG: a change of TRIM clears SYNC_LOCKED on a slave (R44). -/
def Dev.syncCfg (s : Dev) (v : W) : Dev :=
  let moved := v.fld 7 0 ≠ s.fld (aFrm 0x14) 7 0
  let s := s.putCard (aFrm 0x14) v
  if moved && !s.sys.master then s.unsync else s

def Dev.writeFrm (s : Dev) (o : Nat) (v : W) : Dev :=
  if o = 0 then s.sclkCfg v else if o = 0x14 then s.syncCfg v else s.putCard (aFrm o) v

/-- THM: thresholds out of order are refused (R328). -/
def Dev.writeThm (s : Dev) (o : Nat) (v : W) : Dev :=
  if o < 0x1C0 ∧ o % 16 = 0 ∧ !thrOk v then s.setBits (aThm 0x800) 0x80000000 else s.putCard (aThm o) v

/-- LNK: writing 1 to any bit of NTFY.LOST clears the count. -/
def Dev.writeLnk (s : Dev) (o : Nat) (v : W) : Dev :=
  if o = 0x500 then (if v.fld 15 0 = 0 then s else { s with host := { s.host with lost := 0 } })
  else s.putCard (aLnk o) v

/-! ### Engines (R78) -/

/-- Cards with no plain writable bit: read-only and write-only ones, and those with a rule of their own. -/
def roCard (a : Nat) : Bool :=
  match locOf a with
  | .glb o => o = 0x300 || o = 0x304 || (0x310 ≤ o && o < 0x324)
  | .flt o => o < 0x600 || (0x800 ≤ o && o < 0x830) || (0x900 ≤ o && o < 0x930) || o = 0xA00 || o = 0xA10
  | .thm o => (o < 0x1C0 && 8 ≤ o % 16) || (0x400 ≤ o && o < 0x640)
  | .slc o => o < 0x1000 && o % 16 = 8
  | .lnk o => o = 0x500 || (o < 0x200 && (o % 32 = 0 || o % 32 = 12)) || (0x400 ≤ o && o < 0x440 && o % 16 = 0)
  | .pwr o => (0x40 ≤ o && o < 0x80) || o = 0x84
  | .eng _ o => o = 0x10 || o = 0x14 || o = 0x1C || o = 0x20 || 0x800 ≤ o
  | .ch _ o => o = 0x58 || (0x110 ≤ o && o < 0x128) || (0x130 ≤ o && o < 0x144)
  | .quad _ o => (0x10 ≤ o && o < 0x1C) || (0x108 ≤ o && o < 0x134) || (0x400 ≤ o && o < 0xE00)
  | .ply _ o => (8 ≤ o && o < 0x14) || (0x2C ≤ o && o < 0x40) || (0x80 ≤ o && o < 0xA0)
  | .ts _ | .pgm _ _ | .acq _ _ | .ldg _ | .nvr _ => true
  | .cis _ => true
  | .cisReg o => o = 0 || (0x10 ≤ o && o ≤ 0x20)
  | .hgt o => 0x1000 ≤ o && o < 0x2000 && (o % 16 = 4 || o % 16 = 8)
  | .ucs o => (o < 0x8000 && o % 32 ≤ 16) || o = 0x810C || (0x8604 ≤ o && o < 0x8618) || (0x8620 ≤ o && o < 0x8660)
  | .img _ _ | .frm _ | .none => false

/-- A card or memory stands at the address. -/
def assigned (a : Nat) : Bool := rwMask a ≠ 0 || w1cMask a ≠ 0 || roCard a

/-- The engine state lets the host write its registers and scratch. -/
def EngState.hostMayWrite (z : EngState) : Bool :=
  z = .ready || z = .paused || z = .halted || z = .stopped || z = .spare

def Dev.writeEng (s : Dev) (e o : Nat) (v : W) : Dev :=
  let a := aEng e o
  if !assigned a then s
  else if !(s.eng e).st.hostMayWrite then s.setBits (aEng e 0) 0x80000000
  else if o = 8 then s.setPg e (v.fld 31 16)
  else if o = 0x18 then s.setVoidh e (v.bit 31) (v.fld 14 0)
  else if 0x800 ≤ o then s.setScrWord e (0x800 * s.fld (aEng e 0x100) 2 0 + (o - 0x800)) v
  else s.putCard a v

/-! ### Channels and quads -/

/-- FIR_COEF: refused for the active bank, and while a swap runs or waits (R229). -/
def Dev.coefWrite (s : Dev) (p o : Nat) (v : W) : Dev :=
  let c := s.circOf p
  let h := s.chain c
  if h.bank = (o - 0x200) / 0x100 || h.fade.isSome || h.pendXf.isSome then s.setBits (aCh c 0x108) 0x80000000
  else s.putCard (aPin p o) v

/-- TDC_RD: at most WCNT, never back (R263). -/
def Dev.tdcRd (s : Dev) (c : Nat) (v : W) : Dev :=
  let n := min v.toNat (s.rd (aCh c 0x138)).toNat
  if n < (s.rd (aCh c 0x13C)).toNat then s else s.wr (aCh c 0x13C) (wn n)

def Dev.writeCh (s : Dev) (c o : Nat) (v : W) : Dev :=
  if isPinCfg o && c % 5 = 4 then s
  else if 0x200 ≤ o ∧ o < 0x400 then s.coefWrite (4 * (c / 5) + c % 5) o v
  else if o = 0x13C then s.tdcRd c v
  else s.putCard (aCh c o) v

/-! ### Players (R166, R174) -/

/-- PLY.CFG (R166, R174): the ring follows RING_EN, the player EN, and every site that names it is
re-checked. -/
def Dev.plyCfg (s : Dev) (y : Nat) (v : W) : Dev :=
  let old := s.rd (aPly y 0)
  let v := v &&& rwMask (aPly y 0)
  let p := s.ply y
  let bad := p.st = .playing && (!v.bit 31 || v.fld 6 0 ≠ old.fld 6 0)
  if bad then s.plyRej y
  else
    let stays := old.bit 30 && !v.bit 30 && p.streaming
    let s := if stays then s.plyRej y else s
    let v := if stays then v ||| 0x40000000 else v
    let s := s.wr (aPly y 0) v
    let s := if v.bit 30 && !old.bit 30 then s.ringClear y .filling
      else if !v.bit 30 && old.bit 30 then s.onPly y (fun p => { p with ring := .off })
      else s
    let s := if v.bit 31 then s.onPly y (fun p => if p.st = .disabled then { p with st := .dwell } else p)
      else s.onPly y (fun p => { plyStop p with st := .disabled })
    s.recheckAll (s.sitesNaming y)

/-- RING_CTRL: LWM, then RESET, then ARM (R166, R172). -/
def Dev.ringCtrl (s : Dev) (y : Nat) (v : W) : Dev :=
  let s := s.ringLwm y (v.fld 23 0)
  let s := if v.bit 31 then s.ringReset y else s
  if v.bit 30 then s.ringArm y else s

/-- The segment table and the ring's place may change (R174). -/
def Dev.plyFree (s : Dev) (y : Nat) : Bool :=
  let p := s.ply y
  p.st ≠ .playing && p.ring ≠ .filling && p.ring ≠ .run

def Dev.writePly (s : Dev) (y o : Nat) (v : W) : Dev :=
  if o = 0 then s.plyCfg y v
  else if o = 0x28 then s.ringCtrl y v
  else if o = 0x14 ∨ o = 0x18 ∨ o = 0x20 ∨ o = 0x24 then (if s.plyFree y then s.putCard (aPly y o) v else s.plyRej y)
  else s.putCard (aPly y o) v

/-! ### UCS (R121-R125) -/

/-- The first accepted host write after install makes SRC 2 (R123). -/
def Dev.patchTouched (s : Dev) : Dev :=
  if s.bit (aUcs 0x8104) 27 then s.setFld (aUcs 0x8104) 29 28 2 else s

/-- The five held words as a microword. -/
def Dev.heldWord (s : Dev) (base : Nat) (w4 : W) : BitVec 160 :=
  let h (v : Nat) : Nat := (s.ucs.hold.get (fun _ => 0) (base + v)).toNat
  BitVec.ofNat 160 (h 0 + h 1 * 2 ^ 32 + h 2 * 2 ^ 64 + h 3 * 2 ^ 96 + w4.fld 22 0 * 2 ^ 128)

/-- Hold a word. -/
def Dev.holdWord (s : Dev) (k : Nat) (v : W) : Dev :=
  { s with ucs := { s.ucs with hold := s.ucs.hold.set (fun _ => 0) k v } }

/-- A word of PRAM[w]: W0 to W3 are held, W4 stores (R122). -/
def Dev.pramWrite (s : Dev) (w v : Nat) (x : W) : Dev :=
  let s := s.patchTouched
  if v < 4 then s.holdWord v x
  else { s with ucs := { s.ucs with pram := s.ucs.pram.set (fun _ => trapWord) w (s.heldWord 0 x) } }

/-- A word stored in one writable copy. -/
def Dev.wcsStore (s : Dev) (k n : Nat) (x : BitVec 160) : Dev :=
  { s with ucs := { s.ucs with
      wcs := s.ucs.wcs.set (fun _ => 0) (16384 * k + n) x
      loaded := s.ucs.loaded.set (fun _ => []) k (insAsc n (s.ucs.loaded.get (fun _ => []) k)) } }

/-- WCS_DATA[i]: words 0 to 3 are held, word 4 stores into the copies WCS_ADDR names; in RECOVERY, where the
store is powered (R125). -/
def Dev.wcsData (s : Dev) (i : Nat) (v : W) : Dev :=
  if s.sys.mode ≠ .recovery then s
  else if i < 4 then s.holdWord (8 + i) v
  else
    let a := aUcs 0x8600
    let n := s.fld a 13 0
    let x := s.heldWord 8 v
    let s := if s.bit a 31 then forN 16 (fun k s => s.wcsStore k n x) s else s.wcsStore (s.fld a 19 16) n x
    if s.bit a 30 then s.setFld a 13 0 ((n + 1) % 16384) else s

def Dev.writeUcs (s : Dev) (o : Nat) (v : W) : Dev :=
  if o < 0x8000 then (if o % 32 ≤ 16 then s.pramWrite (o / 32) (o % 32 / 4) v else s)
  else if o = 0x8110 then (if v.bit 31 then s.nvPut 0x460 (s.nvWord 0x460 &&& 0x7FFFFFFF) else s)
  else if o = 0x8104 then s.putCard (aUcs o) v
  else if o = 0x8600 then s.putCard (aUcs o) v
  else if 0x8604 ≤ o ∧ o < 0x8618 then s.wcsData ((o - 0x8604) / 4) v
  else if rwMask (aUcs o) = 0 then s
  else (s.putCard (aUcs o) v).patchTouched

/-! ### A word that is not staged -/

/-- A write of one word that takes effect at once; NV words of the user area are queued by the caller. -/
def Dev.writeNow (s : Dev) (a : Nat) (v : W) : Dev :=
  if isRoute a then s.routeWrite a v
  else
    match locOf a with
    | .glb o => s.writeGlb o v
    | .flt o => s.writeFlt o v
    | .frm o => s.writeFrm o v
    | .thm o => s.writeThm o v
    | .slc _ => s.putCard a v
    | .lnk o => s.writeLnk o v
    | .pwr _ => s.putCard a v
    | .eng e o => s.writeEng e o v
    | .ch c o => s.writeCh c o v
    | .quad _ _ => s.putCard a v
    | .ply y o => s.writePly y o v
    | .ts _ => s
    | .cisReg o => s.putCard (aCisReg o) v
    | .hgt o => if rwMask a = 0 then s.putCard a v else s.hgtWrite o v
    | .ucs o => s.writeUcs o v
    | .nvr _ => s.setBits 0x904 0x80000000
    | .img _ _ | .ldg _ | .acq _ _ | .none => s
    | .pgm _ _ => s.setWord a v
    | .cis o => if o < s.cisBytes then (s.setWord a v).cisFresh o 4 else s

/-! ### Where the mode and the regions in play forbid a write (R59-R61, R165, R339) -/

/-- The mode admits a write of the word (R7, R59-R61, R121, R285); in RECOVERY the Faults class takes writes that
acknowledge only (R309). -/
def Dev.modeOk (s : Dev) (via : Via) (a : Nat) (v : W) : Bool :=
  let m := s.sys.mode
  if !assigned a then WClass.reserved.mayWrite m
  else
    let k := wclass a
    (m = .calibrate && isRoute a) || (k.mayWrite m &&
      (m ≠ .recovery || k ≠ .faults || (match locOf a with | .flt o => (o < 0x600 && v.bit 30) || (0x900 ≤ o && o < 0x930 && v ≠ 0) | _ => true))) ||
    (k = .patch && via = .mspi && m = .boot && s.bit (aUcs 0x8104) 27)

/-- The registers whose refused write sets UCS.STATUS.WR_REJ: PRAM, MATCH, CTRL, WDOG and BUDGET (R121). -/
def patchReg (a : Nat) : Bool :=
  match locOf a with
  | .ucs o => o < 0x8104 || o = 0x8108 || (0x8200 ≤ o && o < 0x8600)
  | _ => false

/-- What a word the mode forbids leaves behind (R18, R121). -/
def Dev.modeRej (s : Dev) (a : Nat) : Dev :=
  if !assigned a then s
  else
    match wclass a with
    | .patch => if patchReg a then s.setBits (aUcs 0x8104) 0x80000000 else s
    | .clkCfg => s.cfgRej
    | _ => s

/-- Two byte ranges meet. -/
def meets (a n b m : Nat) : Bool := decide (a < b + m) && decide (b < a + n)

/-- A cistern range lies in a segment's blocks or descriptor. -/
def Dev.inSeg (s : Dev) (y o n : Nat) (g : Placed) : Bool :=
  (!g.strm && meets o n (64 * g.start) (g.blocks * g.stride)) ||
    meets o n (64 * s.fld (aPly y 0x14) 20 0 + 16 * g.seg.toNat) 16

/-- A cistern range lies in a region in play (R165). -/
def Dev.cisInPlay (s : Dev) (o n : Nat) : Bool :=
  s.plys.any (fun x =>
    let y := x.1
    let p := x.2
    (match p.cur with | some u => s.inSeg y o n u.seg | none => false) ||
      (match p.fixedNext with | some g => s.inSeg y o n g | none => false) ||
      (s.bit (aPly y 0) 30 && meets o n (64 * s.fld (aPly y 0x20) 20 0) (s.ringSlots y * s.slotBytes y)))

/-- The word lies in a region in play, or in program memory in use (R339 check 3). -/
def Dev.wordInPlay (s : Dev) (a : Nat) : Bool :=
  match locOf a with
  | .cis o => s.cisInPlay o 4
  | .pgm k _ => s.clusterLive k
  | _ => false

/-! ### Staging (R12, R23, R26, R40) -/

/-- Status of an entry that reaches the staging point for a target: 0, STAGE_FULL, TOO_LATE, BAD_TARGET. -/
def Dev.stageStatus (s : Dev) (tgt : Option Nat) (w : Nat) : Nat :=
  match tgt with
  | some t =>
    let d := (t + 2 ^ 48 - s.clk.frame % 2 ^ 48) % 2 ^ 48
    if d = 0 || 2 ^ 47 ≤ d then 6
    else if 2 ^ 20 < d then 7
    else if 1024 < s.stagedFor t + w then 5 else 0
  | none => if 1024 < s.stagedFor s.nextTick + w then 5 else 0

/-- An entry is staged, or refused; a late one sets LATE_TARGET. -/
def Dev.stageEnt (s : Dev) (x : HostEnt) : Dev × Nat :=
  let st := s.stageStatus x.tgt x.weight
  if st = 0 then ({ s with stage := { s.stage with host := s.stage.host ++ [x] } }, 0)
  else (if st = 6 then s.setBits (aFrm 0x10) 0x100 else s, st)

/-- The target of a host RWT write (R40). -/
def Dev.stageTgt (s : Dev) : Option Nat :=
  if s.bit (aFrm 0x2C) 31 then some (s.rdFrame (aFrm 0x28) (aFrm 0x2C)) else none

/-- The write of the word is staged (R10); the spare's configuration registers take none (R176). -/
def stages (a : Nat) : Bool :=
  isStaged (canonAddr a) && (match locOf a with | .ch c _ => c % 5 < 4 | _ => true)

/-! ### Words of a request (R339, R340) -/

/-- Progress of a write request: the state, its status, words applied, the tick of the last staged word,
and its NV words that wait, newest first. -/
structure WrOut where
  s      : Dev
  status : Nat
  words  : Nat
  tick   : Nat
  nv     : List (Nat × W)

/-- The user area of NVR (R381). -/
def userNv (a : Nat) : Option Nat :=
  match locOf a with
  | .nvr o => if 0x3B000 ≤ o then some o else none
  | _ => none

/-- One word of a write request. -/
def WrOut.word (r : WrOut) (a : Nat) (v : W) : WrOut :=
  if r.status ≠ 0 then r
  else
    match userNv a with
    | some o => { r with words := r.words + 1, nv := (o, v) :: r.nv }
    | none =>
      if stages a then
        let t := r.s.stageTgt
        let x := r.s.stageEnt { tgt := t, op := .write (canonAddr a) v }
        if x.2 = 0 then { r with s := x.1, words := r.words + 1, tick := t.getD r.s.nextTick }
        else { r with s := x.1, status := x.2 }
      else { r with s := r.s.writeNow (canonAddr a) v, words := r.words + 1 }

/-- The words of a write, in ascending address order. -/
def WrOut.run (r : WrOut) (a : Nat) : List W → WrOut
  | [] => r
  | v :: l => (r.word a v).run (a + 4) l

/-- The checks and the words of a write request whose framing is right. -/
def Dev.writeWords (s : Dev) (via : Via) (a : Nat) (ws : List W) : WrOut :=
  let as := (List.range ws.length).map (fun k => a + 4 * k)
  let stop (s : Dev) (st : Nat) : WrOut := { s := s, status := st, words := 0, tick := 0, nv := [] }
  let bad := ((as.zip ws).filter (fun x => !s.modeOk via x.1 x.2)).map (·.1)
  if !bad.isEmpty then stop (forL bad (fun x s => s.modeRej x) s) 2
  else if as.any s.wordInPlay then stop s 3
  else WrOut.run { s := s, status := 0, words := 0, tick := 0, nv := [] } a ws

/-- NV words of a request join the words that wait; the last one carries its completion (R10). -/
def Dev.queueNv (s : Dev) (nv : List (Nat × W)) (fin : Option NvFin) : Dev :=
  match nv with
  | [] => s
  | (o, v) :: r =>
    let first : List NvWord := r.reverse.map (fun x => { off := x.1, val := x.2, fin := none })
    let last : NvWord := { off := o, val := v, fin := fin }
    { s with nv := { s.nv with singles := s.nv.singles ++ first ++ [last] } }

/-! ### Staged words where they apply (phase b) -/

/-- A mode request applies: it is taken in phase g (R54). -/
def Dev.askMode (s : Dev) (tag target : Nat) (cmd : Option Job) : Dev :=
  let r : ModeReq := { target := (modeOf target).getD .reset, tag := tag, switchAt := 0, cmd := cmd }
  let s := s.wr 0x104 (wn (tag * 256 + target))
  { s with sys := { s.sys with asked := s.sys.asked ++ [r] } }

/-- A power request register takes its value; the domains follow in phase c (R322). -/
def Dev.askPower (s : Dev) (o : Nat) (v : W) : Dev :=
  let s := s.wr (aPwr o) (v &&& rwMask (aPwr o))
  { s with pwr := { s.pwr with asked := s.pwr.asked ++ [([(o, 0xFFFFFFFF)], none)] } }

/-- FLEN is judged again where it applies (R18). -/
def Dev.applyFlen (s : Dev) (v : W) : Dev :=
  if s.sys.mode = .idle then s.putCard (aFrm 4) v else s.cfgRej

/-- ADC_CFG, on every chain that applies the pin's settings, a watching spare's too: a change of R recounts, a change of SRC restarts; a change of R ends a capture of the channel
(R231, R241). -/
def Dev.applyAdc (s : Dev) (p : Nat) (v : W) : Dev :=
  let a := aPin p 0x100
  let old := s.rd a
  let c := 5 * (p / 4) + p % 4
  let l := [c, 5 * (p / 4) + 4].filter (fun k => s.cfgPin k = p)
  let r0 := s.decim c
  let s := s.putCard a v
  if s.decim c ≠ r0 then
    let s := forL l (fun k s => s.recount k) s
    if (s.acq (p / 4)).busy && (s.acq (p / 4)).c = p % 4 then s.acqEnd (p / 4) 3 else s
  else if v.fld 18 16 ≠ old.fld 18 16 then forL l (fun k s => s.restartChain k) s
  else s

/-- TDC_CTL: CLOSE acts before GO (R253, R254, R261). -/
def Dev.applyTdc (s : Dev) (p : Nat) (v : W) : Dev :=
  let s := s.putCard (aPin p 0x128) v
  let c := s.circOf p
  let s := if v.bit 30 then s.tdcCut c else s
  if !v.bit 31 then s
  else if !s.sys.mode.enables 8 then s.chFlag c 5
  else if !s.tdcOk (p / 4) (v.fld 13 12) (v.fld 11 8) (v.fld 3 0) then s.chFlag c 4
  else s.tdcOpenAt c (p / 4) (v.fld 13 12) (v.fld 11 8) (v.fld 3 0) none

/-- A channel's staged word: refused with VAL_REJ outside its limits (R201). -/
def Dev.applyCh (s : Dev) (p o : Nat) (v : W) : Dev :=
  if !s.chValueOk p o v then s.chFlag (s.circOf p) 4
  else if o = 0x30 ∨ o = 0x34 then forL (s.gangPins p) (fun r s => s.putCard (aPin r o) v) s
  else if (o = 0x40 ∨ o = 0x44) && !s.follower p then
    forL (s.gangPins p) (fun r s => if o = 0x44 then s.copyCard p r o else s.copySlew p r) (s.putCard (aPin p o) v)
  else if o = 0x60 ∨ o = 0x64 then (s.putCard (aPin p o) v).onWeir (s.circOf p) (fun w => { w with settling := true })
  else if o = 0x100 then s.applyAdc p v
  else if o = 0x104 then
    let s := s.putCard (aPin p o) v
    if v.bit 31 then s.firSwapAt (s.circOf p) (v.fld 2 0) else s
  else if o = 0x128 then s.applyTdc p v
  else s.putCard (aPin p o) v

/-- One staged word applies. -/
def Dev.applyWrite (s : Dev) (a : Nat) (v : W) : Dev :=
  match locOf a with
  | .glb 0x104 => s.askMode (v.fld 15 8) (v.fld 3 0) none
  | .frm 4 => s.applyFlen v
  | .pwr o => s.askPower o v
  | .ch c o => s.applyCh (4 * (c / 5) + c % 5) o v
  | .quad q 0 => (s.putCard a v).qReqWrite q v
  | .quad q 0xC => (s.putCard a v).substWrite q v
  | .quad q 0x100 => (s.putCard a v).acqCtl q v
  | _ => s.putCard a v

end Sys2Proof.Machine
end

