-- ==== Sys2Proof/Machine/Mem.lean ====
section
/-! DEFINITION. Memory requests of the host: reads, writes, and the rows that write one register
(R338-R340, R5-R10). -/

namespace Sys2Proof.Machine

/-- The links carry requests: boot has ended with link-up (R346, R377). -/
def Dev.linked (s : Dev) : Bool := s.sys.mode ≠ .reset && s.sys.boot = .done

/-- Address and length of a request are right (R8, R339 check 1). -/
def framed (a len : Nat) : Bool := a % 4 = 0 && len % 4 = 0 && 4 ≤ len && len ≤ 4096

/-- A READ request (R339, R340). -/
def Dev.hostRead (s : Dev) (h : Hdr) (a len : Nat) (bad : Option Nat) (fixed : List Nat) : Dev :=
  if !s.linked then s
  else
    let s := s.settleLogs.received h.via 1
    if !framed a len then s.memDone h true 1 0 0 []
    else
      let r := s.readFrom a bad fixed 0 (len / 4)
      r.1.memDone h true (if r.2.2 then 4 else 0) r.2.1.length 0 r.2.1

/-- A WRITE request (R339, R340); the completion of words of the NV user area waits until they are
durable (R10). -/
def Dev.hostWrite (s : Dev) (h : Hdr) (a len : Nat) (ws : List W) : Dev :=
  if !s.linked then s
  else
    let s := s.received h.via (1 + (len + 63) / 64)
    if !framed a len then s.memDone h false 1 0 0 []
    else
      let r := s.writeWords h.via a (ws.take (len / 4))
      match r.nv with
      | [] => (r.s.memDone h false r.status r.words r.tick []).forced (wordsAt a (ws.take r.words))
      | nv => (r.s.forced (wordsAt a (ws.take r.words))).queueNv nv (some { hdr := h, words := r.words, bad := false })

/-- A WRITE request of one word. -/
def Dev.hostWord (s : Dev) (h : Hdr) (a : Nat) (v : W) : Dev := s.hostWrite h a 4 [v]

def execMemRead (h : Hdr) (addr : BitVec 40) (len : Nat) (x : ReadEcc) (s : State) :
    Host.Outcome State Fault Refusal :=
  s.run (fun s => s.hostRead h addr.toNat len x.bad x.fixed)

def execMemWrite (h : Hdr) (addr : BitVec 40) (len : Nat) (ws : List W) (s : State) : Host.Outcome State Fault Refusal :=
  s.run (fun s => s.hostWrite h addr.toNat len ws)

def execRegisterWrite (h : Hdr) (addr : BitVec 40) (v : W) (s : State) : Host.Outcome State Fault Refusal :=
  s.run (fun s => s.hostWord h addr.toNat v)

def execFrameLoRead (h : Hdr) (s : State) : Host.Outcome State Fault Refusal :=
  s.run (fun s => s.hostRead h (aFrm 8) 4 none [])
def execSclkCfgWrite (h : Hdr) (v : W) (s : State) : Host.Outcome State Fault Refusal :=
  s.run (fun s => s.hostWord h (aFrm 0) v)
def execFlenWrite (h : Hdr) (v : W) (s : State) : Host.Outcome State Fault Refusal :=
  s.run (fun s => s.hostWord h (aFrm 4) v)
def execSyncCfgWrite (h : Hdr) (v : W) (s : State) : Host.Outcome State Fault Refusal :=
  s.run (fun s => s.hostWord h (aFrm 0x14) v)
def execModeRequest (h : Hdr) (v : W) (s : State) : Host.Outcome State Fault Refusal :=
  s.run (fun s => s.hostWord h 0x104 v)

def execHeadgateWrite (h : Hdr) (off : BitVec 16) (v : W) (s : State) : Host.Outcome State Fault Refusal :=
  s.run (fun s => s.hostWord h (aHgt off.toNat) v)

def execEngineRegisterWrite (h : Hdr) (e : Fin 272) (off : BitVec 12) (v : W) (s : State) : Host.Outcome State Fault Refusal :=
  s.run (fun s => s.hostWord h (aEng e off.toNat) v)

/-- W4 of PRAM[w]. -/
def execPramWordWrite (h : Hdr) (w : BitVec 10) (v : W) (s : State) : Host.Outcome State Fault Refusal :=
  s.run (fun s => s.hostWord h (aUcs (32 * w.toNat + 16)) v)

/-- MATCH[n], or CTRL. -/
def execMatchWrite (h : Hdr) (n : Option (Fin 64)) (v : W) (s : State) : Host.Outcome State Fault Refusal :=
  s.run (fun s => s.hostWord h (match n with | some n => aUcs (0x8000 + 4 * n) | none => aUcs 0x8100) v)

def execWcsDataWrite (h : Hdr) (v : W) (s : State) : Host.Outcome State Fault Refusal :=
  s.run (fun s => s.hostWord h (aUcs 0x8614) v)

def execPlayerCfgWrite (h : Hdr) (y : Fin 16) (v : W) (s : State) : Host.Outcome State Fault Refusal :=
  s.run (fun s => s.hostWord h (aPly y 0) v)
def execRingReset (h : Hdr) (y : Fin 16) (v : W) (s : State) : Host.Outcome State Fault Refusal :=
  s.run (fun s => s.hostWord h (aPly y 0x28) v)
def execRingArm (h : Hdr) (y : Fin 16) (v : W) (s : State) : Host.Outcome State Fault Refusal :=
  s.run (fun s => s.hostWord h (aPly y 0x28) v)
def execRingLwmWrite (h : Hdr) (y : Fin 16) (v : W) (s : State) : Host.Outcome State Fault Refusal :=
  s.run (fun s => s.hostWord h (aPly y 0x28) v)

def execQuadRequest (h : Hdr) (q : Fin 144) (v : W) (s : State) : Host.Outcome State Fault Refusal :=
  s.run (fun s => s.hostWord h (aQuad q 0) v)
def execSubstitutionRequest (h : Hdr) (q : Fin 144) (v : W) (s : State) : Host.Outcome State Fault Refusal :=
  s.run (fun s => s.hostWord h (aQuad q 0xC) v)
def execRestoreRequest (h : Hdr) (q : Fin 144) (v : W) (s : State) : Host.Outcome State Fault Refusal :=
  s.run (fun s => s.hostWord h (aQuad q 0xC) v)

def execFirSwap (h : Hdr) (q : Fin 144) (c : Fin 5) (v : W) (s : State) : Host.Outcome State Fault Refusal :=
  s.run (fun s => s.hostWord h (aCh (5 * q + c) 0x104) v)
def execFirCoefWrite (h : Hdr) (q : Fin 144) (c : Fin 5) (bank : Fin 2) (n : Fin 64) (v : W) (s : State) :
    Host.Outcome State Fault Refusal :=
  s.run (fun s => s.hostWord h (aCh (5 * q + c) (0x200 + 0x100 * bank + 4 * n)) v)

def execAcqArm (h : Hdr) (q : Fin 144) (v : W) (s : State) : Host.Outcome State Fault Refusal :=
  s.run (fun s => s.hostWord h (aQuad q 0x100) v)
def execAcqAbort (h : Hdr) (q : Fin 144) (v : W) (s : State) : Host.Outcome State Fault Refusal :=
  s.run (fun s => s.hostWord h (aQuad q 0x100) v)
def execAcqForce (h : Hdr) (q : Fin 144) (v : W) (s : State) : Host.Outcome State Fault Refusal :=
  s.run (fun s => s.hostWord h (aQuad q 0x100) v)

def execTdcOpen (h : Hdr) (q : Fin 144) (c : Fin 5) (v : W) (s : State) : Host.Outcome State Fault Refusal :=
  s.run (fun s => s.hostWord h (aCh (5 * q + c) 0x128) v)
def execTdcClose (h : Hdr) (q : Fin 144) (c : Fin 5) (v : W) (s : State) : Host.Outcome State Fault Refusal :=
  s.run (fun s => s.hostWord h (aCh (5 * q + c) 0x128) v)
def execTdcRdWrite (h : Hdr) (q : Fin 144) (c : Fin 5) (v : W) (s : State) : Host.Outcome State Fault Refusal :=
  s.run (fun s => s.hostWord h (aCh (5 * q + c) 0x13C) v)

def execLimitEntryWrite (h : Hdr) (v : W) (s : State) : Host.Outcome State Fault Refusal :=
  s.run (fun s => s.hostWord h 0x208 v)
def execLedgerAck (h : Hdr) (v : W) (s : State) : Host.Outcome State Fault Refusal :=
  s.run (fun s => s.hostWord h 0x308 v)
def execLedgerClear (h : Hdr) (v : W) (s : State) : Host.Outcome State Fault Refusal :=
  s.run (fun s => s.hostWord h 0x30C v)

def execFaultAck (h : Hdr) (f : Fin 384) (v : W) (s : State) : Host.Outcome State Fault Refusal :=
  s.run (fun s => s.hostWord h (aSrc f) v)
def execFaultForce (h : Hdr) (f : Fin 384) (v : W) (s : State) : Host.Outcome State Fault Refusal :=
  s.run (fun s => s.hostWord h (aSrc f) v)

def execPowerRequest (h : Hdr) (off : BitVec 8) (v : W) (s : State) : Host.Outcome State Fault Refusal :=
  s.run (fun s => s.hostWord h (aPwr off.toNat) v)

/-- A WRITE request of one line or consumer-select register that completes at an SCLK position of the frame; in IDLE and
the working modes (R285, R287). -/
def Dev.hostRoute (s : Dev) (h : Hdr) (a : Nat) (v : W) (pos : Nat) : Dev :=
  if !s.linked then s
  else
    let s := s.received h.via 2
    if !framed a 4 then s.memDone h false 1 0 0 []
    else if !s.modeOk h.via a v then (s.modeRej a).memDone h false 2 0 0 []
    else (s.routeWriteAt a v (s.edgeAfter pos) 0).memDone h false 0 1 0 []

def execRouteWrite (h : Hdr) (addr : BitVec 40) (v : TimedWord) (s : State) : Host.Outcome State Fault Refusal :=
  s.run (fun s => if isRoute addr.toNat then s.hostRoute h addr.toNat v.v v.pos.toNat else s.hostWord h addr.toNat v.v)

end Sys2Proof.Machine
end

