-- ==== Sys2Proof/Machine/Commands.lean ====
section
/-! DEFINITION. The command set: checks, kinds, effects and completions (R349-R372, R46, R233, R383, R385). -/

namespace Sys2Proof.Machine

/-! ### The catalogue (R363, R364) -/

/-- Bits that the parameter words of a command may set; none for a code that is not in the catalogue. -/
def cmdMasks (code : Nat) : Option (List W) :=
  let m : W := 0xFFFFFFFF
  if [0x01, 0x11, 0x30, 0x50, 0x60, 0x71, 0x80, 0x90, 0x91, 0xB1, 0xC1].contains code then some []
  else if code = 0x10 then some [0xFF0F]
  else if code = 0x20 then some [m, 0xFF, m]
  else if code = 0x21 then some [0x7FFFFFF, m, m]
  else if code = 0x40 then some (0x7FFF :: List.replicate 8 m)
  else if code = 0x41 then some (0 :: List.replicate 8 m)
  else if code = 0x42 ∨ code = 0x43 then some [0x8000FF0F]
  else if code = 0x51 then some [0xFFF]
  else if code = 0x61 ∨ code = 0x62 then some [0xF1FF0003]
  else if code = 0x70 then some [0xFF]
  else if code = 0xA0 then some (0x30000001 :: List.replicate 5 m)
  else if code = 0xA1 then some [0x1F]
  else if code = 0xA2 then some [0xFF07, m, m, m, m, 0xFFFF]
  else if code = 0xB0 then some [0xFFFFFFF, 0xFFFFFF, 0xFFFF00FF]
  else if code = 0xC0 then some [m, 0xFFFF]
  else if code = 0xFF then some [m]
  else none

/-- Commands of kind S. -/
def isStagedCmd (code : Nat) : Bool := [0x10, 0x40, 0x41, 0x42, 0x43, 0x61, 0xA0, 0xA2].contains code

/-- Modes of the Run control and DSYNC classes. -/
def Mode.runs (m : Mode) : Bool := m.m4to7 || m = .stress || m = .diagnostic

/-- Training has begun: boot step 7. -/
def Dev.trains (s : Dev) : Bool := s.lanes.any (fun x => 0 < x.2.total)

/-- The mode accepts a command (R59, R364); `p` is its first parameter word. -/
def Dev.cmdLegal (s : Dev) (via : Via) (code : Nat) (p : W) : Bool :=
  let m := s.sys.mode
  if code = 0x01 ∨ code = 0x50 ∨ code = 0x80 ∨ code = 0xFF then m ≠ .reset
  else if code = 0x10 then
    m = .idle || m.m4to7 ||
      ((m = .recovery || m = .stress || m = .calibrate || m = .diagnostic) && p.fld 3 0 = 3)
  else if code = 0x11 then m = .boot && via = .mspi && !s.trains
  else if code = 0x20 ∨ code = 0x60 ∨ code = 0x61 ∨ code = 0xA0 ∨ code = 0xA2 then m = .idle || m.runs
  else if code = 0x21 ∨ code = 0x62 ∨ code = 0xA1 ∨ code = 0xC0 then m = .idle
  else if code = 0x30 ∨ code = 0xB0 ∨ code = 0xB1 then m = .idle || m = .diagnostic
  else if (0x40 ≤ code ∧ code ≤ 0x43) ∨ code = 0xC1 then m.runs
  else if code = 0x51 then m = .recovery || m.idleOrWorking
  else if code = 0x70 then m = .idle || m.runs
  else if code = 0x71 then m = .calibrate
  else if code = 0x90 ∨ code = 0x91 then m = .idle || (m = .boot && via = .mspi && s.bit (aUcs 0x8104) 27)
  else false

/-- Before link-up MSPI takes only some commands (R361). -/
def Dev.mspiTakes (s : Dev) (via : Via) (code : Nat) : Bool :=
  match via with
  | .mspi => s.sys.boot = .done || [0x01, 0x11, 0x50, 0x80, 0x90, 0x91, 0xFF].contains code
  | .link _ => true

/-! ### Checks (R353) -/

/-- A parameter word, w3 first. -/
def cmdParam (c : Cmd) (k : Nat) : W := c.params.getD k 0
def Job.p (j : Job) (k : Nat) : W := j.params.getD k 0

/-- The units a mask from w4 on names, of n words. -/
def Job.units (j : Job) (n : Nat) : List Nat := (List.range (32 * n)).filter (fun b => (j.p (1 + b / 32)).bit (b % 32))

/-- A target more than 2^20 frames ahead. -/
def Dev.farTarget (s : Dev) (t : Nat) : Bool :=
  let d := (t + 2 ^ 48 - s.clk.frame % 2 ^ 48) % 2 ^ 48
  decide (2 ^ 20 < d) && decide (d < 2 ^ 47)

/-- Check 4: a target where none is allowed, none where one is required, or one too far ahead. -/
def Dev.badTarget (s : Dev) (code : Nat) (tgt : Option (BitVec 48)) : Bool :=
  match tgt with
  | some t => !(isStagedCmd code || code = 0xC1) || s.farTarget t.toNat
  | none => code = 0xC1

/-- INDEX and C of a repair command lie in the range of KIND (R368). -/
def repairOk (v : W) : Bool :=
  let i := v.fld 24 16
  match v.fld 31 28 with
  | 0 | 3 => i < 144 && v.fld 1 0 = 0
  | 1 => i < 272 && v.fld 1 0 = 0
  | 2 => i < 16 && v.fld 1 0 = 0
  | 4 => i < 144
  | 5 => i < 64 && v.fld 1 0 = 0
  | _ => false

/-- The mask of PWR_SET names no unit beyond the last. -/
def pwrMaskOk (j : Job) : Bool :=
  let n := match (j.p 0).fld 29 28 with | 0 => 144 | 3 => 4 | _ => 16
  (j.units 5).all (· < n)

/-- Check 5 beyond the reserved bits. -/
def Dev.paramsOk (s : Dev) (code : Nat) (j : Job) : Bool :=
  if code = 0x20 then
    let n := (j.p 2).toNat
    j.p 0 &&& 3 = 0 && n % 4 = 0 && 4 ≤ n && n ≤ 2 ^ 27
  else if code = 0x21 then
    let o := (j.p 0).toNat
    let n := (j.p 1).toNat
    o % 16 = 0 && n % 16 = 0 && o + n ≤ s.cisBytes
  else if code = 0x40 then !(j.units 8).isEmpty
  else if code = 0x61 ∨ code = 0x62 then repairOk (j.p 0)
  else if code = 0x70 then (j.p 0).toNat < 144
  else if code = 0xA0 then pwrMaskOk j
  else if code = 0xA1 then j.p 0 = 4 || j.p 0 = 8 || j.p 0 = 16
  else if code = 0xFF then j.p 0 = 0xA5C3
  else true

/-- Staged commands and MODE_SETs that await their tick or switch (R356). -/
def Dev.awaiting (s : Dev) : Nat :=
  (s.stage.host.filter (fun x => match x.op with | .cmd _ => true | .write _ _ => false)).length +
    (match s.sys.req with | some r => b2n r.cmd.isSome | none => 0)

/-- A store is full: that of the commands received and not taken, or that of the staged ones; every command that arrives
then is BUSY (R356). -/
def Dev.storesFull (s : Dev) : Bool := decide (128 ≤ s.host.waiting.length) || decide (256 ≤ s.awaiting)

/-- Check 6, of a command that was received while there was room. -/
def Dev.cmdBusy (s : Dev) (code : Nat) : Bool :=
  (isJob code && s.host.jobs.any (fun j => j.code = code)) ||
    (isStagedCmd code && decide (256 ≤ s.awaiting)) ||
    (code = 0xC1 && decide (8 ≤ (s.clk.resets.filter (fun x => x.2 = 3)).length))

/-- The command as the device holds it once taken. -/
def jobOfCmd (c : Cmd) (code : Nat) : Job := { code := code, via := c.via, tag := c.tag, params := c.params }

/-- Status of checks 1 to 6: 0, or that of the first check that fails. -/
def Dev.cmdStatus (s : Dev) (code : Nat) (c : Cmd) : Nat :=
  match cmdMasks code with
  | none => 8
  | some ms =>
    if c.plen % 4 ≠ 0 || 2048 < c.plen || c.plen ≠ 4 * ms.length || c.params.length ≠ ms.length then 1
    else if !(s.mspiTakes c.via code && s.cmdLegal c.via code (cmdParam c 0)) then 2
    else if s.badTarget code c.tgt then 7
    else if (ms.zip c.params).any (fun x => x.2 &&& ~~~x.1 ≠ 0) || !s.paramsOk code (jobOfCmd c code) then 9
    else if s.cmdBusy code then 10
    else 0

/-! ### Repair (R368) -/

/-- A spare bank that the map lists for a bank. -/
def Dev.listedSpare (s : Dev) (b : Nat) : Option Nat :=
  (List.range 4).find? (fun n => (s.spareBank n).listed && (s.spareBank n).bank = b)

/-- REPAIR_RETIRE applies: its status. -/
def Dev.retireUnit (s : Dev) (v : W) : Dev × Nat :=
  let i := v.fld 24 16
  match v.fld 31 28 with
  | 0 => (if (s.quad i).st = .retired then s else s.onQuad i (fun z => { z with retire := true }), 0)
  | 1 =>
    if (s.eng i).live then (s.onEng i (fun g => { g with repair := true }), 0)
    else if (s.eng i).st = .retired then (s, 0)
    else
      let site := s.siteOf i
      let s := s.retireEng i
      (match site with
       | some k => s.onSite k (fun x => { x with mapped := false, err := 4, member := .none, last := [] })
       | none => s, 0)
  | 2 =>
    if s.lastLane i then (s, 3)
    else (((s.onLane i (fun x => { x with st := .failed, marked := true, ready := false })).agree (i / 4)).saveMap, 0)
  | 3 =>
    let z := s.quad i
    if z.spare = .settling || z.spare = .subst || z.spare = .restoring then (s, 3)
    else (((s.onQuad i (fun z => { z with sfail := true, spare := .failed })).setCircs i).saveMap, 0)
  | 4 =>
    let c := v.fld 1 0
    if (s.quad i).spare ≠ .watch then (s, 3)
    else ((s.onQuad i (fun z => { z with pfail := insAsc c z.pfail })).substStart i c false, 0)
  | _ =>
    if s.bankHandled i then (s, 0)
    else if s.freeSpare.isNone then (s, 3)
    else (s.replaceBank i, 0)

/-- REPAIR_CLEAR takes an entry out of the live map; its save follows. -/
def Dev.clearUnit (s : Dev) (v : W) : Dev :=
  let i := v.fld 24 16
  match v.fld 31 28 with
  | 0 => if (s.quad i).st = .retired then s.onQuad i (fun z => { z with st := .off }) else s
  | 1 => if (s.eng i).st = .retired then s.setEng i engOff else s
  | 2 =>
    let x := s.lane i
    if x.st ≠ .failed then s
    else
      let s := s.setLane i { laneInit with total := x.total, partner := x.partner }
      if s.domGood (176 + i) then s.startLane i else s
  | 3 =>
    let s := s.onQuad i (fun z => { z with sfail := false, spare := if z.spare = .failed then .off else z.spare })
    s.setCircs i
  | 4 => (s.onQuad i (fun z => { z with pfail := rmv (v.fld 1 0) z.pfail })).setCircs i
  | _ =>
    match s.listedSpare i with
    | some n => s.setSpareBank n { s.spareBank n with listed := false }
    | none => s

/-! ### Staged commands at their tick (R354, R357) -/

/-- The power request of PWR_SET: the registers it changes and their masks. -/
def Dev.pwrSet (s : Dev) (j : Job) : Dev :=
  let on := (j.p 0).bit 0
  let regs := match (j.p 0).fld 29 28 with
    | 0 => [0, 4, 8, 12, 16]
    | 1 => [0x20]
    | 2 => [0x24]
    | _ => [0x28]
  let l := (regs.zipIdx.map (fun x => (x.1, j.p (1 + x.2)))).filter (fun x => x.2 ≠ 0)
  let s := forL l (fun x s => if on then s.setBits (aPwr x.1) x.2 else s.clrBits (aPwr x.1) x.2) s
  { s with pwr := { s.pwr with asked := s.pwr.asked ++ [(l, some j)] } }

/-- The write of Q.REQ for each quad QUAD_STATE names. -/
def Dev.quadState (s : Dev) (j : Job) : Dev :=
  forL (j.units 5) (fun q s => (s.putCard (aQuad q 0) (j.p 0 &&& 0xFF07)).qReqWrite q (j.p 0)) s

/-- A staged command applies. PWR_SET completes in phase c, MODE_SET at its switch or refusal. -/
def Dev.applyCmd (s : Dev) (j : Job) : Dev :=
  let p := j.p 0
  if !s.cmdLegal j.via j.code p then s.complete j 2 0 []
  else if j.code = 0x10 then s.askMode (p.fld 15 8) (p.fld 3 0) (some j)
  else if j.code = 0x40 then
    let r := s.runStart (p.fld 14 0) (j.units 8)
    r.1.complete j r.2.1 r.2.2 []
  else if j.code = 0x41 then
    let r := s.runStop (j.units 8)
    r.1.complete j 0 r.2 []
  else if j.code = 0x42 ∨ j.code = 0x43 then
    let pause := decide (j.code = 0x42)
    if p.bit 31 then
      let r := s.oneRun pause (p.fld 15 8)
      r.1.complete j r.2.1 r.2.2 []
    else (s.groupRun pause (p.fld 3 0)).complete j 0 0 []
  else if j.code = 0x61 then
    let r := s.retireUnit p
    r.1.complete j r.2 0 []
  else if j.code = 0xA0 then s.pwrSet j
  else (s.quadState j).complete j 0 0 []

/-- A staged command reaches the staging point. -/
def Dev.stageCmd (s : Dev) (j : Job) (tgt : Option (BitVec 48)) : Dev :=
  let r := s.stageEnt { tgt := tgt.map (·.toNat), op := .cmd j }
  if r.2 = 0 then r.1 else r.1.complete j r.2 0 []

/-! ### Immediate commands and the start of jobs -/

/-- ID_GET (R365, NVR.ID). -/
def Dev.idGet (s : Dev) (j : Job) : Dev :=
  let o := if s.idOk [] 0 then 8 else 0x208
  let good := s.idOk [] 0 || s.idOk [] 1
  let s := s.idCheck []
  s.complete j 0 0
    [0xC0B50576, Config.fwVersion.setWidth 32 <<< 16 ||| Config.stepping.setWidth 32,
     if good then s.nvWord o else 0, if good then s.nvWord (o + 4) else 0,
     at1 9 s.sys.recov ||| at1 8 s.sys.master ||| s.sys.devid.setWidth 32,
     Config.romVersion, s.readWord (aUcs 0x8104), s.readWord 0x100]

/-- FLT_READ: SUM, CLS and PEND. -/
def Dev.fltWords (s : Dev) : List W :=
  [s.readFlt 0xA00] ++ (List.range 12).map (fun x => s.readFlt (0x800 + 4 * x)) ++ (List.range 12).map s.pendWord

/-- FLT_ACK: the named classes are acknowledged. -/
def Dev.fltAck (s : Dev) (j : Job) : Dev :=
  let s := forN 12 (fun x s => if (j.p 0).bit x then s.pendWrite x 0xFFFFFFFF else s) s
  s.complete j 0 0 ((List.range 12).map s.pendWord)

/-- REPAIR_READ: the slot in force, or the empty map (R390). -/
def Dev.repairWords (s : Dev) : List W :=
  if s.nvForce 0 = 0 then zeroWords 256 else s.nvWords (nvSlot 0 (s.nvForce 0 - 1)).1 256

/-- NV_INFO (R370, R386). -/
def Dev.nvInfo (s : Dev) : List W :=
  let wear := s.nv.wear.foldl (fun m x => max m x.2) 0
  let safe := (List.range 12).foldl (fun n x => n + (s.nvWord (0x400 + 4 * x)).toNat) 0
  [wn (s.calFullGen * 65536 + s.calGen), wn (s.nvGen 0), wn (s.nvGen 2), wn (s.nvGen 1),
   wn wear, wn (wear / 2 ^ 32), wn s.nv.spare, wn (min safe 0xFFFFFFFF)]

/-- THM_SET: every zone named, or none (R328). -/
def Dev.thmSet (s : Dev) (j : Job) : Dev :=
  let l := (List.range 28).filter (fun z => (j.p 0).bit z)
  match l with
  | z :: _ =>
    if !thrOk (j.p 1) then s.complete j 3 z []
    else (forL l (fun z s => (s.writeThm (16 * z) (j.p 1)).writeThm (16 * z + 4) (j.p 2)) s).complete j 0 0 []
  | [] => s.complete j 0 0 []

/-- EPOCH arms the device; the master marks the third tick after it (R46, R371). -/
def Dev.epochCmd (s : Dev) (j : Job) : Dev :=
  let s := (s.wr (aFrm 0x18) (j.p 0)).wr (aFrm 0x1C) (j.p 1)
  let s := s.setBits (aFrm 0x10) 0x200
  let s := if s.sys.master then { s with clk := { s.clk with markIn := some 3 } } else s
  s.complete j 0 0 []

/-- DSYNC schedules a synchronised reset (R233, R372). -/
def Dev.dsyncCmd (s : Dev) (j : Job) (t : Nat) : Dev :=
  let d := (t + 2 ^ 48 - s.clk.frame % 2 ^ 48) % 2 ^ 48
  if d < 2 || 2 ^ 47 ≤ d then s.complete j 6 0 []
  else
    let s := s.wrFrame (aFrm 0x84) (aFrm 0x88) t
    let s := s.setFld (aFrm 0x8C) 25 24 3
    ({ s with clk := { s.clk with resets := s.clk.resets ++ [(t, 3)] } }).complete j 0 0 []

/-- MAP_CLEAR; in DIAGNOSTIC refused while a site concerned is busy (R74). -/
def Dev.mapClearCmd (s : Dev) (j : Job) : Dev :=
  match if s.sys.mode = .diagnostic then s.clearBusy else [] with
  | i :: _ => s.hgtRej.complete j 3 i []
  | [] => s.mapClear.complete j 0 0 []

/-- A job starts. -/
def Dev.startJob (s : Dev) (j : Job) : Dev := { s with host := { s.host with jobs := s.host.jobs ++ [j] } }

/-- PWR_GROUPS: the groups are asked for in phase c of the next tick; it completes once they are good (R160, R322,
R323). -/
def Dev.pwrGroups (s : Dev) (j : Job) : Dev :=
  { s with pwr := { s.pwr with job := some j, asked := s.pwr.asked ++ [([(0x2C, j.p 0)], none)] } }

/-- CAL_QUAD starts on a quad in SERVICE (R369). -/
def Dev.calQuad (s : Dev) (j : Job) : Dev :=
  let q := (j.p 0).toNat
  if (s.quad q).st ≠ .service then s.complete j 11 q []
  else (s.onQuad q (fun z => { z with cal := true })).startJob j

/-- A command that passed its checks and is not staged. -/
def Dev.carryOut (s : Dev) (j : Job) (tgt : Nat) : Dev :=
  let c := j.code
  if c = 0x01 then s.idGet j
  else if c = 0x11 then s.toRecovery.complete j 0 0 []
  else if c = 0x30 then s.mapClearCmd j
  else if c = 0x50 then s.complete j 0 0 s.fltWords
  else if c = 0x51 then s.fltAck j
  else if c = 0x60 then s.complete j 0 0 s.repairWords
  else if c = 0x62 then (s.clearUnit (j.p 0)).requestSave .repair (some j)
  else if c = 0x70 then s.calQuad j
  else if c = 0x80 then s.complete j 0 0 s.nvInfo
  else if c = 0x90 then s.requestSave (.patch false) (some j)
  else if c = 0x91 then s.requestSave (.patch true) (some j)
  else if c = 0xA1 then s.pwrGroups j
  else if c = 0xB0 then s.thmSet j
  else if c = 0xB1 then s.requestSave .thermal (some j)
  else if c = 0xC0 then s.epochCmd j
  else if c = 0xC1 then s.dsyncCmd j tgt
  else if c = 0xFF then s.enterReset 3
  else s.startJob j

/-! ### Arrival and taking (R355, R356, R360) -/

/-- The scarab takes a command: its checks, then its effect. -/
def Dev.take (s : Dev) (code : Nat) (c : Cmd) : Dev :=
  let j := jobOfCmd c code
  let st := s.cmdStatus code c
  if st ≠ 0 then s.complete j st 0 []
  else if isStagedCmd code then s.stageCmd j c.tgt
  else s.carryOut j (match c.tgt with | some t => t.toNat | none => 0)

/-- A save carries an immediate command. -/
def NvSave.waits (v : NvSave) : Bool :=
  match v.job with
  | some j => !isJob j.code
  | none => false

/-- An immediate command is not complete yet: the scarab takes no other. -/
def Dev.scarabBusy (s : Dev) : Bool :=
  s.pwr.job.isSome || s.nv.saves.any NvSave.waits || (match s.nv.run with | some r => r.save.waits | none => false)

/-- Commands received and not taken, in order, until one keeps the scarab busy. -/
def Dev.takeAll : List (Nat × Cmd) → Dev → Dev
  | [], s => { s with host := { s.host with waiting := [] } }
  | x :: r, s =>
    if s.scarabBusy then { s with host := { s.host with waiting := x :: r } } else Dev.takeAll r (s.take x.1 x.2)

/-- The scarab takes what waits. -/
def Dev.drain (s : Dev) : Dev := Dev.takeAll s.host.waiting s

/-- The path brings commands: a link after link-up, MSPI from the end of the first ALIVE interval (R361). -/
def Dev.pathOpen (s : Dev) (via : Via) : Bool :=
  match via with
  | .link _ => s.linked
  | .mspi => s.sys.mspi && s.sys.mode ≠ .reset

/-- Flits of a command message (R349). -/
def cmdFlits (plen : Nat) : Nat := 1 + (plen - 52 + 63) / 64

/-- A command arrives. FULL_RESET goes ahead of every command that waits; a full store answers BUSY. -/
def Dev.receive (s : Dev) (code : Nat) (c : Cmd) : Dev :=
  if !s.pathOpen c.via then s
  else
    let s := s.received c.via (cmdFlits c.plen)
    if code = 0xFF then s.take code c
    else if s.storesFull then s.complete (jobOfCmd c code) 10 0 []
    else Dev.drain { s with host := { s.host with waiting := s.host.waiting ++ [(code, c)] } }

/-! ### The rows of the catalogue -/

def execIdGet (c : Cmd) (s : State) : Host.Outcome State Fault Refusal := s.run (fun s => s.receive 0x01 c)
def execModeSet (c : Cmd) (s : State) : Host.Outcome State Fault Refusal := s.run (fun s => s.receive 0x10 c)
def execEnterRecovery (c : Cmd) (s : State) : Host.Outcome State Fault Refusal := s.run (fun s => s.receive 0x11 c)
def execLoadCrc (c : Cmd) (s : State) : Host.Outcome State Fault Refusal := s.run (fun s => s.receive 0x20 c)
def execCisFill (c : Cmd) (s : State) : Host.Outcome State Fault Refusal := s.run (fun s => s.receive 0x21 c)
def execMapClear (c : Cmd) (s : State) : Host.Outcome State Fault Refusal := s.run (fun s => s.receive 0x30 c)
def execRunStart (c : Cmd) (s : State) : Host.Outcome State Fault Refusal := s.run (fun s => s.receive 0x40 c)
def execRunStop (c : Cmd) (s : State) : Host.Outcome State Fault Refusal := s.run (fun s => s.receive 0x41 c)
def execRunPause (c : Cmd) (s : State) : Host.Outcome State Fault Refusal := s.run (fun s => s.receive 0x42 c)
def execRunResume (c : Cmd) (s : State) : Host.Outcome State Fault Refusal := s.run (fun s => s.receive 0x43 c)
def execFltRead (c : Cmd) (s : State) : Host.Outcome State Fault Refusal := s.run (fun s => s.receive 0x50 c)
def execFltAck (c : Cmd) (s : State) : Host.Outcome State Fault Refusal := s.run (fun s => s.receive 0x51 c)
def execRepairRead (c : Cmd) (s : State) : Host.Outcome State Fault Refusal := s.run (fun s => s.receive 0x60 c)
def execRepairRetire (c : Cmd) (s : State) : Host.Outcome State Fault Refusal := s.run (fun s => s.receive 0x61 c)
def execRepairClear (c : Cmd) (s : State) : Host.Outcome State Fault Refusal := s.run (fun s => s.receive 0x62 c)
def execCalQuad (c : Cmd) (s : State) : Host.Outcome State Fault Refusal := s.run (fun s => s.receive 0x70 c)
def execCalFull (c : Cmd) (s : State) : Host.Outcome State Fault Refusal := s.run (fun s => s.receive 0x71 c)
def execNvInfo (c : Cmd) (s : State) : Host.Outcome State Fault Refusal := s.run (fun s => s.receive 0x80 c)
def execPatchSave (c : Cmd) (s : State) : Host.Outcome State Fault Refusal := s.run (fun s => s.receive 0x90 c)
def execPatchErase (c : Cmd) (s : State) : Host.Outcome State Fault Refusal := s.run (fun s => s.receive 0x91 c)
def execPwrSet (c : Cmd) (s : State) : Host.Outcome State Fault Refusal := s.run (fun s => s.receive 0xA0 c)
def execPwrGroups (c : Cmd) (s : State) : Host.Outcome State Fault Refusal := s.run (fun s => s.receive 0xA1 c)
def execQuadState (c : Cmd) (s : State) : Host.Outcome State Fault Refusal := s.run (fun s => s.receive 0xA2 c)
def execThmSet (c : Cmd) (s : State) : Host.Outcome State Fault Refusal := s.run (fun s => s.receive 0xB0 c)
def execThmSave (c : Cmd) (s : State) : Host.Outcome State Fault Refusal := s.run (fun s => s.receive 0xB1 c)
def execEpoch (c : Cmd) (s : State) : Host.Outcome State Fault Refusal := s.run (fun s => s.receive 0xC0 c)
def execDsync (c : Cmd) (s : State) : Host.Outcome State Fault Refusal := s.run (fun s => s.receive 0xC1 c)
def execFullReset (c : Cmd) (s : State) : Host.Outcome State Fault Refusal := s.run (fun s => s.receive 0xFF c)

/-- A code outside the catalogue completes BAD_CODE. -/
def execUnknownCommand (code : BitVec 8) (c : Cmd) (s : State) : Host.Outcome State Fault Refusal :=
  s.run (fun s => s.receive code.toNat c)

/-! ### Job ends (R354, R369, R388) -/

/-- The running job of a code. -/
def Dev.jobOf (s : Dev) (code : Nat) : Option Job := s.host.jobs.find? (fun j => j.code = code)

/-- A job ends; a calibration releases its quad. -/
def Dev.endJob (s : Dev) (j : Job) (status detail : Nat) (data : List W) : Dev :=
  let s := { s with host := { s.host with jobs := s.host.jobs.filter (fun x => x.code ≠ j.code) } }
  let s := if j.code = 0x70 then s.onQuad (j.p 0).toNat (fun z => { z with cal := false }) else s
  s.complete j status detail data

/-- The reads of a LOAD_CRC job with the errors they find: the CRC of the bytes, or ECC where a word holds a double-bit
error. -/
def Dev.crcReads (s : Dev) (j : Job) (bad : Option Nat) (fixed : List Nat) : Dev :=
  let r := s.readFrom ((j.p 0).toNat + (j.p 1).toNat * 2 ^ 32) bad fixed 0 ((j.p 2).toNat / 4)
  if r.2.2 then r.1.endJob j 4 0 [] else r.1.endJob j 0 0 [crcWords r.2.1]

/-- LOAD_CRC_DONE: the job reads its bytes; its row carries no ECC outcome, so the errors it finds are free (log 12). -/
def Dev.loadCrcDone (s : Dev) : Dev :=
  match s.jobOf 0x20 with
  | none => s
  | some j =>
    let d := s.settleLogs.drawErrors
    d.2.crcReads j d.1.1 d.1.2

def execLoadCrcDone (s : State) : Host.Outcome State Fault Refusal := s.run Dev.loadCrcDone

/-- CIS_FILL_DONE: the pattern stands in every word of the range, with fresh ECC. -/
def Dev.cisFillDone (s : Dev) : Dev :=
  match s.jobOf 0x21 with
  | none => s
  | some j =>
    let o := (j.p 0).toNat
    let n := (j.p 1).toNat
    let s := forN (n / 4) (fun k s => if o + 4 * k < s.cisBytes then s.setWord (aCis (o + 4 * k)) (j.p 2) else s) s
    (s.cisFresh o n).endJob j 0 0 []

def execCisFillDone (s : State) : Host.Outcome State Fault Refusal := s.run (fun s => s.cisFillDone)

/-- A calibration job has ended and its last save waits or is under way. -/
def Dev.jobSaves (s : Dev) (code : Nat) : Bool :=
  (s.nv.saves ++ (s.nv.run.map (·.save)).toList).any (fun v =>
    v.set_.isCal && (match v.job with | some j => decide (j.code = code) | none => false))

/-- CAL_QUAD_DONE: CAL_FAIL with the channel, or the save whose end completes the job. -/
def Dev.calQuadDone (s : Dev) (fail : Option (Fin 720)) : Dev :=
  match s.jobOf 0x70 with
  | none => s
  | some j =>
    if s.jobSaves 0x70 then s
    else
      match fail with
      | some c => s.endJob j 12 c []
      | none => s.requestSave (.cal (j.p 0).toNat none) (some j)

def execCalQuadDone (fail : Option (Fin 720)) (s : State) : Host.Outcome State Fault Refusal :=
  s.run (fun s => s.calQuadDone fail)

/-- CAL_FULL_DONE: CAL_FAIL, or the save of every quad not yet saved that is not RETIRED, and of the CAL_FULL word. -/
def Dev.calFullDone (s : Dev) (fail : Option (Fin 720)) : Dev :=
  match s.jobOf 0x71 with
  | none => s
  | some j =>
    if s.jobSaves 0x71 then s
    else
      match fail with
      | some c => { s with nv := { s.nv with calFull := none } }.endJob j 12 c []
      | none =>
        let x := s.calLeft
        let s := { s with nv := { s.nv with calFull := some (x.1, 144) } }
        (forL x.2 (fun q s => s.requestSave (.cal q (some x.1)) none) s).requestSave (.calFull x.1) (some j)

def execCalFullDone (fail : Option (Fin 720)) (s : State) : Host.Outcome State Fault Refusal :=
  s.run (fun s => s.calFullDone fail)

/-! ### NV writes (R379, R380, R383) -/

/-- The command that a save carries completes; a job ends. -/
def Dev.saveEnds (s : Dev) (j : Job) (status : Nat) (data : List W) : Dev :=
  if isJob j.code then s.endJob j status 0 data else s.complete j status 0 data

/-- A save of a full calibration. -/
def NvSet.isFull : NvSet → Bool
  | .cal _ (some _) | .calFull _ => true
  | _ => false

/-- A word of a set could not be made durable: the save ends, with the others of a full calibration, and its
command completes NV_FAIL. -/
def Dev.saveFails (s : Dev) (r : NvRun) : Dev :=
  let full := match r.save.set_ with
    | .cal _ (some g) => some g
    | _ => none
  let mine (v : NvSave) : Bool := match full, v.set_ with
    | some g, .cal _ (some h) => g = h
    | some g, .calFull h => g = h
    | _, _ => false
  let jobs := if full.isSome then (s.jobOf 0x71).toList else r.save.job.toList
  let s := { s with nv := { s.nv with
    run := none, saves := s.nv.saves.filter (fun v => !mine v), calFull := if r.save.set_.isFull then none else s.nv.calFull } }
  forL jobs (fun j s => s.saveEnds j 13 []) s

/-- The last word of a set is durable: its slot is in force, and its command completes (R370, R383). -/
def Dev.saveDone (s : Dev) (r : NvRun) : Dev :=
  let s := ({ s with nv := { s.nv with run := none } }).inForce r.save.set_
  match r.save.job with
  | none => s
  | some j =>
    let data := match r.save.set_ with
      | .patch _ | .thermal => [wn r.gen]
      | .repair | .cal _ _ | .calFull _ => []
    s.saveEnds j 0 data

/-- The next word of the set being written; after its first word the payload is taken (R383, R385). -/
def Dev.setWordDone (s : Dev) (r : NvRun) (v : NvVerify) : Dev :=
  match r.left with
  | [] => s
  | (o, w) :: l =>
    let x := s.nvVerified o w v
    if r.cut then
      let s := x.1
      { s with nv := { s.nv with run := none } }
    else if !x.2 then x.1.saveFails r
    else if l.isEmpty && r.filled then x.1.saveDone r
    else if l.isEmpty then x.1.fillSave r
    else
      let s := x.1
      { s with nv := { s.nv with run := some { r with left := l } } }

/-- The request of a word that was not made durable completes ECC. -/
def markBad : List NvWord → List NvWord
  | [] => []
  | x :: l =>
    match x.fin with
    | some f => { x with fin := some { f with bad := true } } :: l
    | none => x :: markBad l

/-- A host word of NV is written; the last one of its request completes it (R340). -/
def Dev.singleDone (s : Dev) (x : NvWord) (rest : List NvWord) (v : NvVerify) : Dev :=
  let r := s.nvVerified x.off x.val v
  let s := r.1
  match x.fin with
  | none => { s with nv := { s.nv with singles := if r.2 then rest else markBad rest } }
  | some f =>
    let s := { s with nv := { s.nv with singles := rest } }
    s.memDone f.hdr false (if f.bad || !r.2 then 4 else 0) f.words 0 []

/-- NV_WRITE_DONE: the word under way is written and verified. -/
def Dev.nvWriteDone (s : Dev) (v : NvVerify) : Dev :=
  match s.nv.singles, s.nv.run with
  | x :: rest, _ => s.singleDone x rest v
  | [], some r => (s.setWordDone r v).drain
  | [], none => s

def execNvWriteDone (v : NvVerify) (s : State) : Host.Outcome State Fault Refusal := s.run (fun s => s.nvWriteDone v)

/-- NV_SET_SAVE: the next save begins, once no set is being written. -/
def execNvSetSave (s : State) : Host.Outcome State Fault Refusal := s.run (fun s => s.beginSave)

/-- DOMAIN_GOOD; the last bank group of a PWR_GROUPS frees the scarab. -/
def execDomainGood (d : Domain) (s : State) : Host.Outcome State Fault Refusal :=
  s.run (fun s => (s.domainGood (domNum d)).drain)

end Sys2Proof.Machine
end

