-- ==== Sys2Proof/Machine/Flow.lean ====
section
/-! DEFINITION. Flow instructions (R85, R86, R102, R139). -/

namespace Sys2Proof.Machine

/-- BR: PC ← target. -/
def doBr (e : Nat) (s : Dev) (x : Ins) : Dev :=
  s.check e [(x.mbz, srcIllOp)] (s.jumpTo e (x.im 14 0))

/-- BRC: PC ← target if the condition, XOR invert, holds. -/
def doBrc (e : Nat) (s : Dev) (x : Ins) : Dev :=
  match condOf x.a (s.rd (aEng e 0xC)) (s.lastStatus e) with
  | none => s.trap e srcIllOp
  | some c => s.check e [(x.mbz, srcIllOp)] (if c != x.flag 0 then s.jumpTo e (x.im 14 0) else s.retire e)

/-- CALL: push PC + 1 and jump; STACK with 8 entries in use. -/
def doCall (e : Nat) (s : Dev) (x : Ins) : Dev :=
  s.check e [(x.mbz, srcIllOp), (8 ≤ (s.eng e).stack.length, srcStack)]
    ((s.onEng e (fun g => { g with stack := BitVec.ofNat 15 (s.pc e + 1) :: g.stack })).jumpTo e (x.im 14 0))

/-- RET: pop PC; STACK with none in use. -/
def doRet (e : Nat) (s : Dev) (x : Ins) : Dev :=
  s.check e [(x.mbz, srcIllOp), ((s.eng e).stack.isEmpty, srcStack)]
    ((s.onEng e (fun g => { g with stack := g.stack.drop 1 })).jumpTo e (((s.eng e).stack.headD 0).toNat))

/-- LOOP: Ln ← max(Ln - 1, 0); PC ← target while Ln ≠ 0. -/
def doLoop (e : Nat) (s : Dev) (x : Ins) : Dev :=
  let v := (s.reg e (32 + x.a)).toNat - 1
  let s' := s.setReg e (32 + x.a) (wn v)
  s.check e [(x.mbz || 3 < x.a, srcIllOp)] (if v ≠ 0 then s'.jumpTo e (x.im 14 0) else s'.retire e)

/-- HALT: the open step ends and the engine retires the instruction and halts; a step that ended in this frame makes
it yield first (R76, R99, R100). The words of its routine issue in the order entry, test of STEPPED, chunk 0, chunk 1
(R420). -/
def doHalt (e : Nat) (n : Option Nat) (s : Dev) (x : Ins) (i : Nat) : Dev :=
  if (s.eng e).uchunk ≠ 0 then (if issues n 1 then (s.retire e).haltEng e else s)
  else if x.mbz then (if issues n 2 then s.trap e srcIllOp else s)
  else if !issues n 3 then s
  else if s.stepped e then s.yieldFor e 1
  else if issues n 4 then ((s.endStep e i).retire e).haltEng e
  else (s.endStep e i).onEng e (fun g => g.chunkDone 0x1A5A)

/-- YIELD: released at step 5 of the max(N, 1)-th tick from now. -/
def doYield (e : Nat) (s : Dev) (x : Ins) : Dev :=
  s.check e [(x.mbz, srcIllOp)] ((s.retire e).onEng e (fun g =>
    if g.phase = .exec then { g with phase := .yielded (max (x.im 15 0) 1) } else g))

/-- TPOINT: with a demand and the player in dwell, request the dwell and yield; chunk 1 retires at the
release (R102, R139). -/
def doTpoint (e : Nat) (s : Dev) (x : Ins) (i : Nat) : Dev :=
  s.check e [(x.mbz, srcIllOp)]
    (if (s.eng e).uchunk ≠ 0 then s.retire e
     else if s.tpDemand i ≠ 0 && s.pDwell i then
       (s.reqDwell i).onEng e (fun g => g.chunk (s.tpDemand i + 1))
     else (s.onSite i (fun z => { z with tpHit := true })).retire e)

def execBr (e : Fin 272) (f : Fetch) (s : State) : Host.Outcome State Fault Refusal :=
  s.run (fun s => s.instrOp e f 0x01 (doBr e))
def execBrc (e : Fin 272) (f : Fetch) (s : State) : Host.Outcome State Fault Refusal :=
  s.run (fun s => s.instrOp e f 0x02 (doBrc e))
def execCall (e : Fin 272) (f : Fetch) (s : State) : Host.Outcome State Fault Refusal :=
  s.run (fun s => s.instrOp e f 0x03 (doCall e))
def execRet (e : Fin 272) (f : Fetch) (s : State) : Host.Outcome State Fault Refusal :=
  s.run (fun s => s.instrOp e f 0x04 (doRet e))
def execLoop (e : Fin 272) (f : Fetch) (s : State) : Host.Outcome State Fault Refusal :=
  s.run (fun s => s.instrOp e f 0x05 (doLoop e))
def execHalt (e : Fin 272) (f : Fetch) (s : State) : Host.Outcome State Fault Refusal :=
  s.run (fun s => s.instrCut e f 0x06 (doHalt e))
def execYield (e : Fin 272) (f : Fetch) (s : State) : Host.Outcome State Fault Refusal :=
  s.run (fun s => s.instrOp e f 0x07 (doYield e))
def execTpoint (e : Fin 272) (f : Fetch) (s : State) : Host.Outcome State Fault Refusal :=
  s.run (fun s => s.instrSite e f 0x08 (doTpoint e))

/-- An opcode that R85 does not list raises ILL_OP. -/
def execUndefinedOpcode (e : Fin 272) (f : Fetch) (s : State) : Host.Outcome State Fault Refusal :=
  s.run (fun s => s.instr e f (fun o => (formatOf o).isNone) (fun n s _ => if issues n 1 then s.trap e srcIllOp else s))

end Sys2Proof.Machine
end

