-- ==== Sys2Proof/Machine/Mspi.lean ====
section
/-! DEFINITION. The MSPI port and the TAP (R361, R416-R418). -/

namespace Sys2Proof.Machine

/-! ### MSPI -/

/-- ERR of the MSPI status. -/
def Dev.mspiFault (s : Dev) : Dev := { s with host := { s.host with mspiErr := true } }

/-- What the device returns for a transfer. -/
def Dev.mspiReturn (s : Dev) (l : List W) : Dev := { s with host := { s.host with mspiOut := l } }

/-- The command of a CMD transfer: words 0 to 2 and the parameters (R349). -/
def cmdOf (ws : List W) : Option (Nat × Cmd) :=
  match ws with
  | w0 :: w1 :: w2 :: l =>
    let n := w0.fld 11 0
    if l.length ≠ (n + 3) / 4 then none
    else
      let t : Option (BitVec 48) := if w1.bit 31 then some (BitVec.ofNat 48 (w1.fld 15 0 * 2 ^ 32 + w2.toNat)) else none
      some (w0.fld 31 24, { via := .mspi, tag := w0.extractLsb' 12 12, tgt := t, plen := n, params := l })
  | _ => none

/-- CMD: malformed framing has no effect but ERR; before commands are accepted, or with a store full, it is
refused. -/
def Dev.mspiCmd (s : Dev) (ws : List W) : Dev :=
  if s.sys.mode = .reset then s
  else
    match cmdOf ws with
    | none => s.mspiFault
    | some (code, c) =>
      if !s.pathOpen .mspi then s.mspiFault
      else
        let s := if code ≠ 0xFF && s.storesFull then s.mspiFault else s
        s.receive code c

def execMspiCmd (ws : List W) (s : State) : Host.Outcome State Fault Refusal := s.run (fun s => s.mspiCmd ws)

/-- A completion as its words (R350). -/
def CmdCpl.words (c : CmdCpl) : List W :=
  [wn (c.code * 2 ^ 24 + c.tag.toNat * 2 ^ 12 + c.status), wn (c.detail * 2 ^ 16 + 4 * c.data.length), wn c.frame,
   wn (b2n c.frameV * 2 ^ 31 + c.frame / 2 ^ 32 % 2 ^ 16)] ++ c.data

/-- CPL: the byte count and the bytes of the oldest unread completion. -/
def Dev.mspiCpl (s : Dev) : Dev :=
  if s.sys.mode = .reset then s
  else
    match s.host.mspiCpl with
    | [] => s.mspiReturn [0]
    | c :: r =>
      let s := { s with host := { s.host with mspiCpl := r } }
      s.mspiReturn (wn (4 * c.words.length) :: c.words)

def execMspiCpl (s : State) : Host.Outcome State Fault Refusal := s.run (fun s => s.mspiCpl)

/-- RD serves the address: everything after link-up, four regions before. -/
def Dev.mspiServed (s : Dev) (a : Nat) : Bool :=
  s.sys.boot = .done || (match locOf a with | .glb _ | .flt _ | .ucs _ | .nvr _ => true | _ => false)

/-- Words of an RD transfer; one with a double-bit error returns 0, ends it and sets ERR. -/
def Dev.mspiWords (s : Dev) (a : Nat) (bad : Option Nat) (fixed : List Nat) : Nat → Nat → Dev × List W
  | _, 0 => (s, [])
  | k, n + 1 =>
    let x := a + 4 * k
    if !s.mspiServed x then
      let r := s.mspiFault.mspiWords a bad fixed (k + 1) n
      (r.1, 0 :: r.2)
    else if s.wordBad x k bad then ((s.readBad x).mspiFault, [0])
    else
      let v := s.readWord x
      let r := (s.readOne x k fixed).mspiWords a bad fixed (k + 1) n
      (r.1, v :: r.2)

/-- RD. -/
def Dev.mspiRd (s : Dev) (a n : Nat) (bad : Option Nat) (fixed : List Nat) : Dev :=
  if s.sys.mode = .reset then s
  else if a % 4 ≠ 0 then s.mspiFault
  else
    let r := s.settleLogs.mspiWords a bad fixed 0 n
    r.1.mspiReturn r.2

def execMspiRd (addr : BitVec 40) (count : BitVec 16) (x : ReadEcc) (s : State) :
    Host.Outcome State Fault Refusal :=
  s.run (fun s => s.mspiRd addr.toNat count.toNat x.bad x.fixed)

/-- Words of a WR transfer: a refused word ends it. -/
def WrOut.mspi (r : WrOut) (a : Nat) : List W → WrOut
  | [] => r
  | v :: l =>
    if r.status ≠ 0 then r
    else if !r.s.modeOk .mspi a v then { r with s := r.s.modeRej a, status := 2 }
    else if r.s.wordInPlay a then { r with status := 3 }
    else (r.word a v).mspi (a + 4) l

/-- WR; a word of the NV user area is written like any other that waits. -/
def Dev.mspiWr (s : Dev) (a : Nat) (ws : List W) : Dev :=
  if s.sys.mode = .reset then s
  else if a % 4 ≠ 0 then s.mspiFault
  else
    let r := WrOut.mspi { s := s, status := 0, words := 0, tick := 0, nv := [] } a ws
    let s := (r.s.forced (wordsAt a (ws.take r.words))).queueNv r.nv (some { hdr := { via := .mspi, tag := 0 }, words := r.words, bad := false })
    if r.status ≠ 0 then s.mspiFault else s

def execMspiWr (addr : BitVec 40) (ws : List W) (s : State) : Host.Outcome State Fault Refusal :=
  s.run (fun s => s.mspiWr addr.toNat ws)

/-- The status byte. -/
def Dev.mspiByte (s : Dev) : W :=
  atF 4 s.sys.mode.code ||| at1 3 (s.sys.boot = .done) ||| at1 2 s.host.mspiErr |||
    at1 1 (decide (128 ≤ s.host.waiting.length)) ||| at1 0 (!s.host.mspiCpl.isEmpty)

/-- STAT: the status byte; ERR clears. -/
def Dev.mspiStat (s : Dev) : Dev :=
  if s.sys.mode = .reset then s
  else
    let b := s.mspiByte
    Dev.mspiReturn { s with host := { s.host with mspiErr := false } } [b]

def execMspiStat (s : State) : Host.Outcome State Fault Refusal := s.run (fun s => s.mspiStat)

/-- An opcode that is not listed is ignored and sets ERR. -/
def execMspiBadOpcode (s : State) : Host.Outcome State Fault Refusal :=
  s.run (fun s => if s.sys.mode = .reset then s else s.mspiFault)

/-! ### JTAG (R418) -/

/-- IDCODE. -/
def idcodeWord : W := Config.stepping.setWidth 32 <<< 28 ||| 0x00576B67

/-- An instruction takes effect; those that drive balls only while RESET_N is low, otherwise as BYPASS. -/
def Dev.tap (s : Dev) (i : Jtag) : Dev :=
  if s.sys.unpowered then s
  else
    let i := if i.drives && !s.sys.resetLow then Jtag.bypass else i
    { s with jtag := i, tdo := if i = .idcode then idcodeWord else 0 }

def execBypass (s : State) : Host.Outcome State Fault Refusal := s.run (fun s => s.tap .bypass)
def execIdcode (s : State) : Host.Outcome State Fault Refusal := s.run (fun s => s.tap .idcode)
def execSamplePreload (s : State) : Host.Outcome State Fault Refusal := s.run (fun s => s.tap .samplePreload)
def execExtest (s : State) : Host.Outcome State Fault Refusal := s.run (fun s => s.tap .extest)
def execClamp (s : State) : Host.Outcome State Fault Refusal := s.run (fun s => s.tap .clamp)
def execHighz (s : State) : Host.Outcome State Fault Refusal := s.run (fun s => s.tap .highz)
def execExtestPulse (s : State) : Host.Outcome State Fault Refusal := s.run (fun s => s.tap .extestPulse)
def execExtestTrain (s : State) : Host.Outcome State Fault Refusal := s.run (fun s => s.tap .extestTrain)

end Sys2Proof.Machine
end

