-- ==== Sys2Proof/Machine/Pattern.lean ====
section
/-! DEFINITION. Pattern instructions (R85, R90, R94-R96, R423). Their effects apply at the tick. -/

namespace Sys2Proof.Machine

/-- The mode does not enable the classes a streamed or resident segment needs (R423). -/
def Dev.segModeIll (s : Dev) (y id : Nat) : Bool :=
  !s.sys.mode.enables 1 || (s.namesStream y id && !s.sys.mode.enables 0)

def doPlay (e : Nat) (s : Dev) (x : Ins) (i : Nat) : Dev :=
  s.stageIns e x.mbz false (s.segModeIll (s.streamOf i) (x.im 15 0)) (.play (BitVec.ofNat 16 (x.im 15 0)))

def doJoin (e : Nat) (s : Dev) (x : Ins) (i : Nat) : Dev :=
  s.stageIns e x.mbz false (s.segModeIll (s.homeOf i) (x.im 15 0)) (.join (BitVec.ofNat 16 (x.im 15 0)) x.b)

/-- DETACH with ALT by a site without an alternate player raises PARAM (R94). -/
def doDetach (e : Nat) (s : Dev) (x : Ins) (i : Nat) : Dev :=
  s.stageIns e x.mbz (x.flag 0 && !s.altEn i) false (.detach (x.flag 0))

/-- SEGJMP stages its jump where the condition, XOR invert, holds. -/
def doSegjmp (e : Nat) (s : Dev) (x : Ins) : Dev :=
  match condOf x.a (s.rd (aEng e 0xC)) (s.lastStatus e) with
  | none => s.trap e srcIllOp
  | some c =>
    if c != x.flag 0 then s.stageIns e x.mbz false (!s.sys.mode.enables 1) (.segjmp (BitVec.ofNat 16 (x.im 15 0)))
    else s.check e [(x.mbz, srcIllOp), (!s.sys.mode.enables 1, srcModeIll)] (s.retire e)

def doDwell (e : Nat) (s : Dev) (x : Ins) (i : Nat) : Dev :=
  s.stageIns e (x.mbz || 2 < x.a || selBad x.b) (s.selOut i x.b) (!s.sys.mode.enables 3) (.dwell x.a x.b)

def execPlay (e : Fin 272) (f : Fetch) (s : State) : Host.Outcome State Fault Refusal :=
  s.run (fun s => s.instrSite e f 0x20 (doPlay e))
def execJoin (e : Fin 272) (f : Fetch) (s : State) : Host.Outcome State Fault Refusal :=
  s.run (fun s => s.instrSite e f 0x21 (doJoin e))
def execDetach (e : Fin 272) (f : Fetch) (s : State) : Host.Outcome State Fault Refusal :=
  s.run (fun s => s.instrSite e f 0x22 (doDetach e))
def execSegjmp (e : Fin 272) (f : Fetch) (s : State) : Host.Outcome State Fault Refusal :=
  s.run (fun s => s.instrOp e f 0x23 (doSegjmp e))
def execDwell (e : Fin 272) (f : Fetch) (s : State) : Host.Outcome State Fault Refusal :=
  s.run (fun s => s.instrSite e f 0x24 (doDwell e))

end Sys2Proof.Machine
end

