-- ==== Sys2Proof/Machine/Image.lean ====
section
/-! DEFINITION. The frame image: what a tick seals into its slot (R31, R33-R37, R213, R287). -/

namespace Sys2Proof.Machine

/-- What the tick itself brings to the header: the mode, the flags of the ended frame, its overruns and the
counts of its commit. -/
structure Header where
  mode      : Mode
  throttled : Bool
  syncOk    : Bool
  holdover  : Bool
  hostw     : Bool
  overruns  : Nat
  tally     : Tally
  deriving DecidableEq, Repr

/-- FRAME_HI of a sealed slot. -/
def Dev.imageHi (s : Dev) (h : Header) : W :=
  at1 27 h.throttled ||| at1 26 h.syncOk ||| at1 25 h.holdover ||| at1 24 h.hostw ||| atF 20 h.mode.code |||
    atF 16 2 ||| wn (s.clk.frame / 2 ^ 32 % 65536)

/-- Header words. -/
def Dev.imageHeader (s : Dev) (h : Header) : List (Nat × W) :=
  [(0, wn s.clk.frame), (4, s.imageHi h),
   (8, atF 16 s.mult ||| atF 5 (s.fld (aFrm 4) 9 0) ||| s.sys.devid.setWidth 32),
   (0xC, atF 16 (maskWord (fun y => y < 16 && (s.ply y).endUnder) 0).toNat ||| atF 8 (min h.overruns 255) |||
     wn (min h.tally.voided 255))] ++ s.ledWords h.tally ++ [(0x18, wn (min s.slc.writes 65535))]

/-- A player record. -/
def Dev.imagePlayer (s : Dev) (y : Nat) : List (Nat × W) :=
  let a := 0x100 + 0x40 * y
  let p := s.ply y
  [(a, at1 17 p.endLate ||| at1 16 p.endUnder ||| (s.readPly y 8 &&& 0xFFFF)), (a + 4, s.readPly y 0xC &&& 0xFFFFF)] ++
    (List.range 8).map (fun w => (a + 0x20 + 4 * w, s.readPly y (0x80 + 4 * w)))

/-- The quad state words. -/
def Dev.imageQuads (s : Dev) : List (Nat × W) :=
  (List.range 144).map (fun q => (0x500 + 4 * q, atF 4 ((s.quad q).subst.getD 15) ||| wn (s.quad q).st.code))

/-- The fault class summary. -/
def Dev.imageClasses (s : Dev) : List (Nat × W) :=
  (List.range 12).map (fun x => (0x800 + 4 * x, at1 2 (s.unack x) ||| wn (s.clsLevel x)))

/-- A site record. -/
def Dev.imageSite (s : Dev) (i : Nat) : List (Nat × W) :=
  let a := 0x1000 + 0x40 * i
  let x := s.site i
  let r := x.record
  let f := s.pframe i
  [(a, atF 16 r.stepId.toNat ||| atF 8 r.bin ||| at1 3 x.mapped ||| at1 2 x.det ||| wn r.status), (a + 4, r.fails),
   (a + 8, atF 16 r.lastId.toNat ||| wn r.lastStatus), (a + 0xC, r.lastFails), (a + 0x10, r.lastDrops),
   (a + 0x14, wn r.voidCause), (a + 0x18, wn f), (a + 0x1C, wn (f / 2 ^ 32)), (a + 0x20, x.dwc),
   (a + 0x24, atF 16 ((s.playerOf i).getD (s.homeOf i)) ||| wn (s.engOf i))]

/-- A site's measurement slots. -/
def imageSlots (i : Nat) (x : Site) : List (Nat × W) :=
  (x.slots.filter (fun v => v.1 < 32)).map (fun v => (0x5000 + 0x80 * i + 4 * v.1, v.2.value))

/-- Sensor readings in use. -/
def Dev.imageSensors (s : Dev) : List (Nat × W) :=
  (List.range 72).map (fun n => (0xD000 + 4 * n, (s.sensor n).value))

/-- The trailer. -/
def Dev.imageTrailer (s : Dev) : List (Nat × W) := [(0xFFF8, wn s.clk.frame), (0xFFFC, wn (s.clk.frame / 2 ^ 32 % 65536))]

/-- The words of an image, ascending; words that read 0 are not listed. -/
def Dev.imageWords (s : Dev) (h : Header) : Tab W :=
  let l := s.imageHeader h ++ (List.range 16).flatMap s.imagePlayer ++ s.imageQuads ++ s.imageClasses ++
    (List.range 256).flatMap s.imageSite ++ s.sites.flatMap (fun x => imageSlots x.1 x.2) ++ s.imageSensors ++ s.imageTrailer
  l.filter (fun x => decide (x.2 ≠ 0))

/-- The notification of a seal (R36). -/
def Dev.sealNotes (s : Dev) : List Ntfy :=
  let v := s.rd (aFrm 0x24)
  if v.bit 5 && s.clk.frame % 2 ^ min (v.fld 4 0) 20 = 0 then [s.ntfyNow 1 (s.clk.frame % 8) 0] else []

/-- Step 3 of a tick: the slot n mod 8 is sealed and IMG_LATEST names it (R34, R36). -/
def Dev.seal (s : Dev) (h : Header) : Dev :=
  let n := s.clk.frame
  let s := { s with imgs := s.imgs.set (fun _ => []) (n % 8) (s.imageWords h) }
  let s := s.wr (aFrm 0x20) (wn (n % 2 ^ 24 * 256 + 8 + n % 8))
  forL s.sealNotes (fun x s => s.notify x false) s

end Sys2Proof.Machine
end

