-- ==== Sys2Proof/Machine/Tick.lean ====
section
/-! DEFINITION. The frame tick: the frame number and its clock, the phases of step 1, commit, seal, the
FRAME_TICK producer and release (R19-R48, R67, R77, R164, R233, R273, R301, R303, R341). -/

namespace Sys2Proof.Machine

/-! ### Frame number, clock and epoch (R20, R41, R44, R46) -/

/-- Ticks fall: SCLK has locked once, no relock holds the frames, and the device is not in RESET (R20). -/
def Dev.tickRuns (s : Dev) : Bool :=
  s.sys.mode ≠ .reset && !s.clk.relock && (s.clk.locked || s.clk.ticked)

/-- SCLK periods of the frame that ends: FLEN, or up to the tick a relock moved (R44). -/
def Dev.frameLen (s : Dev) : Nat :=
  match s.clk.moved with
  | some d => ((s.flen : Int) + d).toNat
  | none => s.flen

/-- The tick is that of an epoch mark: one that reached an armed slave, or the master's own (R46). -/
def Dev.marks (s : Dev) : Bool := s.clk.mark || s.clk.markIn = some 1

/-- What waits keeps its distance when the tick takes another number. -/
def Dev.renumber (s : Dev) (jump : Nat) : Dev :=
  let far (t : Nat) : Nat := frameMod (t + jump)
  { s with
    sys := { s.sys with req := s.sys.req.map (fun r => { r with switchAt := far r.switchAt }) }
    clk := { s.clk with resets := (s.clk.resets.filter (fun r => r.2 ≠ 3)).map (fun r => (far r.1, r.2)) }
    cis := { s.cis with ecc1 := s.cis.ecc1.map (fun x => (x.1, x.2.map far)) } }

/-- An entry that waits for a target frame is discarded (R46 step 5). -/
def Dev.dropTarget (x : HostEnt) (s : Dev) : Dev :=
  match x.op with
  | .write _ _ => s.setBits (aFrm 0x10) 0x100
  | .cmd j => s.complete j 7 0 []

/-- The tick of an epoch mark takes the number N (R46 steps 3 and 5). -/
def Dev.epochTick (s : Dev) : Dev :=
  let was := s.nextTick
  let n := s.rdFrame (aFrm 0x18) (aFrm 0x1C)
  let s := { s with clk := { s.clk with frame := n, ticked := true, mark := false, markIn := none } }
  let s := s.renumber ((n + 2 ^ 48 - was) % 2 ^ 48)
  let gone := s.stage.host.filter (fun x => x.tgt.isSome)
  let s := { s with stage := { s.stage with host := s.stage.host.filter (fun x => x.tgt.isNone) } }
  let s := forL gone Dev.dropTarget s
  (s.setBits (aFrm 0x10) 0x400).clrBits (aFrm 0x10) 0x200

/-- The tick takes its number; SCLK 0 of the new frame is `len` SCLK after that of the old one; the master
launches its FSYNC pulse (R20, R41, R46). -/
def Dev.advance (s : Dev) (len : Nat) : Dev :=
  let mark := s.marks
  let s := { s with clk := { s.clk with eclk := s.clk.eclk + len / 2, trim := s.fld (aFrm 0x14) 7 0, moved := none } }
  let s := if s.sys.master && s.bit (aFrm 0x14) 8 then { s with clk := { s.clk with fsync := if mark then 16 else 8 } } else s
  if mark then s.epochTick
  else { s with clk := { s.clk with frame := s.nextTick, ticked := true, markIn := s.clk.markIn.map (· - 1) } }

/-- Sites with a step open at the tick (R421). -/
def Dev.openNow (s : Dev) : List Nat :=
  (s.sites.filter (fun x => x.2.step.isSome && (s.eng (s.engOf x.1)).st ≠ .stopped)).map (·.1)

/-- Steps open at a moved tick void with SYNC, at any tick in holdover with HOLDOVER (R38, R44). -/
def Dev.clockVoids (s : Dev) (moved : Bool) : Dev :=
  let l := s.openNow
  let s := if moved then s.voidSites 64 l else s
  if s.clk.holdover then s.voidSites 8 l else s

/-! ### Synchronised resets (R233, R236) -/

/-- The resets of a tick act as one. -/
def Dev.resetsAt (s : Dev) (t : Nat) : Dev :=
  if s.clk.resets.any (fun r => r.1 = t) then
    ({ s with clk := { s.clk with resets := s.clk.resets.filter (fun r => r.1 ≠ t) } }).syncAct
  else s

/-- SYNC_RESET: the resets whose tick has come act. -/
def execSyncReset (s : State) : Host.Outcome State Fault Refusal := s.run (fun s => s.resetsAt s.clk.frame)

/-! ### Phases a to g (R24) -/

/-- A copied bank: all access moves to the spare, and the next weak bank's copy begins; where no spare is left, every
bank that waits raises BANK_NOSPARE (R164). -/
def Dev.bankSwitch (n : Nat) (s : Dev) : Dev :=
  let x := s.spareBank n
  if !x.copied then s
  else
    let s := (s.setSpareBank n { x with copying := false, copied := false, inUse := true, listed := true }).saveMap
    forL s.cis.weak (fun b s => s.replaceBank b) { s with cis := { s.cis with weak := [] } }

/-- Units whose tick has come before the staged entries: measurements, synchronised resets, bank switches,
failed lanes and engines of clusters that have come good. -/
def Dev.unitsTick (s : Dev) (len : Nat) : Dev :=
  let s := (s.measTicksAll).tdcTick len
  let s := s.resetsAt s.clk.frame
  let s := forN 4 Dev.bankSwitch s
  let s := if s.laneFailed then (s.narrow 16).saveMap else s
  s.enginesUp

/-- Phase a, with the evaluations at SCLK 0 of the tick (R272, R273). -/
def Dev.wakePhase (s : Dev) : Dev :=
  let due := (s.quads.filter (fun x => x.2.wakeReq)).map (·.1)
  let s := forL (s.quads.map (·.1)) (fun q s => s.wakeAtTick q) s
  forL due (fun q s => s.wake q) s

/-- One host-staged entry applies; an untargeted one while a step is open is flagged (R39). After SAFE entry
in the same tick a command completes ABORTED (R359). -/
def Dev.applyHost (x : HostEnt) (r : Dev × Bool) : Dev × Bool :=
  let late := x.tgt.isNone && r.1.anyStepOn
  let s := if late then r.1.setBits (aFrm 0x10) 0x80 else r.1
  (match x.op with
   | .write a v => s.applyWrite a v
   | .cmd j => if s.sys.mode = .safe then s.complete j 14 0 [] else s.applyCmd j, r.2 || late)

/-- Phase b: the host's entries for this tick in arrival order, then the engines'; answers HOSTW, the jumps
and the EMITs (R11, R24, R96). -/
def Dev.stagedPhase (s : Dev) : Dev × Bool × List (Nat × Nat) × List EngEnt :=
  let n := s.clk.frame
  let now := s.stage.host.filter (fun x => x.isFor n n)
  let s := { s with stage := { s.stage with host := s.stage.host.filter (fun x => !x.isFor n n) } }
  let r := forL now Dev.applyHost (s, false)
  let s := r.1
  let l := engOrder s.stage.eng
  let jumps := s.jumpsOf l
  let s := { s with stage := { s.stage with eng := [] } }
  (forL l (fun x s => s.unlessSafe (fun s => s.applyEng x)) s, r.2, jumps, l)

/-- The spare of a quad that is ACTIVE again watches. -/
def Dev.sparesWatch (s : Dev) : Dev :=
  forL ((s.quads.filter (fun x => x.2.st = .active && x.2.spare = .off && !x.2.sfail)).map (·.1))
    (fun q s => (s.onQuad q (fun z => { z with spare := .watch })).setCircs q) s

/-- Phases c to g. Where one of them enters SAFE, players, outputs and requests have stopped at once, and the
later phases find nothing to do (R67). -/
def Dev.laterPhases (s : Dev) (jumps : List (Nat × Nat)) (wcsBad : List (Fin 16)) : Dev :=
  let s := (s.unlessSafe Dev.powerPhase).unlessSafe Dev.engRepairs
  let s := (s.unlessSafe (fun s => s.quadsPowered.quadPhase)).unlessSafe Dev.sparesWatch
  let s := (s.unlessSafe (fun s => s.playersPhase jumps)).unlessSafe Dev.dpsPhase
  s.unlessSafe (fun s => s.modePhase wcsBad)

/-! ### After step 1 -/

/-- The EMITs of the ended frame fire at ECLK 15 (R84). -/
def Dev.emits (s : Dev) (l : List EngEnt) : Dev :=
  forL l (fun x s => match x.op with
    | .emit ln => s.fireAhead { mouth := .emit ln, edge := s.clk.eclk + 15, tag := x.e, by_ := .eng x.e, tbus := none }
    | _ => s) s

/-- FAULT notifications of the classes that had occurrences in the ended frame (R301). -/
def Dev.faultNotes (s : Dev) (due : Tab Nat) : List Ntfy :=
  if !s.bit (aFlt 0xA04) 31 then []
  else (due.filter (fun x => 2 ≤ x.2 || s.bit (aFlt 0xA04) 30)).map (fun x =>
    s.ntfyNow 4 (x.1 + 16 * (x.2 - 1) + 64 * b2n (s.unack x.1)) (wn (s.fld (aCls x.1) 15 0)))

/-- Occurrences that wait for link-up join those of later frames. -/
def Dev.keepOcc (s : Dev) (due : Tab Nat) : Dev :=
  forL due (fun x s => { s with flt := { s.flt with
    occ := s.flt.occ.set (fun _ => 0) x.1 (max x.2 (s.flt.occ.get (fun _ => 0) x.1)) } }) s

/-- The notifications of a tick join the queue in the order of R341; one of SAFE goes to its head. -/
def Dev.queueNotes (s : Dev) (old : List Ntfy) (notes : List Ntfy) : Dev :=
  let mine := s.host.ntfy
  let kind (k : Nat) : List Ntfy :=
    let l := mine.filter (fun n => n.type_ = k)
    if k = 2 ∨ k = 5 then l.mergeSort (fun a b => a.arg ≤ b.arg) else l
  let s := { s with host := { s.host with ntfy := old } }
  let s := forL (kind 4) (fun n s => s.notify n true) s
  forL (notes ++ kind 1 ++ kind 3 ++ kind 2 ++ kind 5) (fun n s => s.notify n false) s

/-- Flags and counts of a frame start again. -/
def Dev.frameReset (s : Dev) : Dev :=
  Dev.closeOccs { s with
    quads := s.quads.upd quadInit (fun z => { z with mm := 0, mmHit := false })
    slc := { s.slc with writes := 0 } }

/-- Step 5, but in SAFE no engine is released (R67). -/
def Dev.releaseStep (s : Dev) : Dev :=
  if s.sys.mode = .safe then
    { s with sites := s.sites.upd siteInit (fun x => { x with voids := none, toVoidh := false }) }
  else s.releaseAll

/-! ### The tick of SAFE (R67 step 4) -/

/-- Quads that are not RETIRED go OFF. -/
def Dev.quadsOff (s : Dev) : Dev :=
  forL ((s.quads.filter (fun x => x.2.st ≠ .retired && x.2.st ≠ .off)).map (·.1)) (fun q s => s.quadTo q .off) s

/-- Repairs whose tick has come act in SAFE too: they are recorded in the repair map (R299, R302, R303). -/
def Dev.safeRepairs (s : Dev) : Dev :=
  let s := forN 4 Dev.bankSwitch s
  let s := (if s.laneFailed then (s.narrow 16).saveMap else s).engRepairsSafe
  let s := forL (s.quads.map (·.1)) (fun q s => let r := s.quadFaults q; if r.2 then r.1.onQuad q (fun z => { z with retire := true }) else r.1) s
  s.retireQuads ((s.quads.filter (fun x => x.2.retire)).map (·.1))

/-- The tick after SAFE entry: staged writes are discarded, open steps void, one image shows MODE 11. -/
def Dev.safeTick (s : Dev) (h : Header) : Dev :=
  if !s.sys.safeDue then s.safeRepairs.ringRun
  else
    let s := { s with stage := { host := [], eng := [] }, sys := { s.sys with safeDue := false } }
    let s := s.voidSites 4 s.deviceAim
    let c := s.quadsOff.safeRepairs.commitAll
    c.1.seal { h with mode := .safe, tally := c.2 }

/-! ### The tick (R22) -/

/-- Steps 1 to 4 of a tick outside SAFE; `old` is the mode of the ended frame: a tick in which SAFE is entered
completes its sequence in it (R68). -/
def Dev.runTick (s : Dev) (old : Mode) (len : Nat) (wcsBad : List (Fin 16)) (h : Header) : Dev :=
  let p := ((s.unitsTick len).wakePhase).stagedPhase
  let s := (p.1.laterPhases p.2.2.1 wcsBad).demands
  let c := s.commitAll
  let s := c.1
  let mode := if s.sys.safeDue then old else s.sys.mode
  let s := if mode.idleOrWorking then s.seal { h with mode := mode, hostw := p.2.1, tally := c.2 } else s
  let s := s.fireAhead { mouth := .prod { kind := 7, sub := 0, index := 0 }, edge := s.clk.eclk + 14, tag := 291,
                         by_ := .none, tbus := none }
  s.emits p.2.2.2

/-- What the header tells of the ended frame. -/
def Dev.headerOf (s : Dev) (overruns : Nat) : Header :=
  { mode := s.sys.mode, throttled := s.sites.any (fun x => decide (0 < x.2.dwellLeft)), syncOk := s.clk.synced,
    holdover := s.clk.heldOver, hostw := false, overruns := overruns, tally := { voided := 0, drops := 0, added := 0 } }

/-- The tick begins: its raises are of one instant, its notifications are ordered at its end (R291, R341). A late
jump or an under-run from here on belongs to the frame that the tick begins (R155, R170). -/
def Dev.tickOpens (s : Dev) : Dev :=
  { s with
    plys := s.plys.upd plyInit (fun p => { p with endUnder := p.under, endLate := p.lateF, under := false, lateF := false })
    host := { s.host with ntfy := [] }
    flt := { s.flt with tick := some ((List.range 12).filter s.unack), joined := [] } }

/-- The clock part of a tick: the new frame's number, and whether it begins in holdover and on the card tick. -/
def Dev.newFrame (s : Dev) : Dev :=
  let s := s.advance s.frameLen
  let s := s.capturesTo s.clk.eclk
  { s with clk := { s.clk with heldOver := s.clk.holdover, synced := s.syncLocked, overran := 0 } }

/-- The notifications of a tick; faults of the time before link-up wait for it (R301). -/
def Dev.tickNotes (s : Dev) (old : List Ntfy) (due : Tab Nat) : Dev :=
  if s.sys.boot = .done then s.queueNotes old (s.faultNotes due) else (s.queueNotes old []).keepOcc due

/-- A tick: the ended frame's overruns and clock voids, then its steps, then the notifications and release. -/
def Dev.frameTick (s : Dev) (wcsBad : List (Fin 16)) : Dev :=
  if !s.tickRuns then s
  else
    let old := s.sys.mode
    let len := s.frameLen
    let moved := s.clk.moved.isSome && s.clk.again
    let ntfy := s.host.ntfy
    let late := (s.engs.map (·.1)).filter s.overruns
    let s := s.settleLogs.tickOpens.overrunAll late
    let due := s.flt.occ
    let s := { s with flt := { s.flt with occ := [] } }
    let h := s.headerOf (s.clk.overran + late.length)
    let s := s.newFrame
    let s := if old = .safe then s.safeTick h else ((s.clockVoids moved).waitCounts).runTick old len wcsBad h
    ((s.tickNotes ntfy due).releaseStep.frameReset).drain

/-- FRAME_TICK: `wcsBad` names the writable copies in which a read-through finds a double-bit error (R126). -/
def execFrameTick (wcsBad : List (Fin 16)) (s : State) : Host.Outcome State Fault Refusal :=
  s.run (fun s => s.frameTick wcsBad)

end Sys2Proof.Machine
end

