-- ==== Sys2Proof/Machine/Dispatch.lean ====
section
/-! DEFINITION. The dispatch: one arm for each command, one call of its meaning. -/

namespace Sys2Proof.Machine

def exec (i : Instr) (s : State) : Host.Outcome State Fault Refusal :=
  match i with
  | .powerOn => Sys2Proof.Machine.execPowerOn s
  | .resetNLow => Sys2Proof.Machine.execResetNLow s
  | .supplyReset r => Sys2Proof.Machine.execSupplyReset r s
  | .bootStart devid master recov => Sys2Proof.Machine.execBootStart devid master recov s
  | .selfTestEnd t => Sys2Proof.Machine.execSelfTestEnd t s
  | .linkUp us => Sys2Proof.Machine.execLinkUp us s
  | .sclkLock => Sys2Proof.Machine.execSclkLock s
  | .railWarn r => Sys2Proof.Machine.execRailWarn r s
  | .vchFault negative => Sys2Proof.Machine.execVchFault negative s
  | .vdpsLow d => Sys2Proof.Machine.execVdpsLow d s
  | .refLoss => Sys2Proof.Machine.execRefLoss s
  | .refPresent => Sys2Proof.Machine.execRefPresent s
  | .fsyncEdge off mark => Sys2Proof.Machine.execFsyncEdge off mark s
  | .fsyncMiss => Sys2Proof.Machine.execFsyncMiss s
  | .epochMark => Sys2Proof.Machine.execEpochMark s
  | .frameTick wcsBad => Sys2Proof.Machine.execFrameTick wcsBad s
  | .rendezvousTimeout site => Sys2Proof.Machine.execRendezvousTimeout site s
  | .joinLapse site => Sys2Proof.Machine.execJoinLapse site s
  | .modeSwitch wcsBad => Sys2Proof.Machine.execModeSwitch wcsBad s
  | .quadWarmDone q => Sys2Proof.Machine.execQuadWarmDone q s
  | .substPathClose q => Sys2Proof.Machine.execSubstPathClose q s
  | .substInService q => Sys2Proof.Machine.execSubstInService q s
  | .syncReset => Sys2Proof.Machine.execSyncReset s
  | .dpsMonitor xs => Sys2Proof.Machine.execDpsMonitor xs s
  | .throttleWait site => Sys2Proof.Machine.execThrottleWait site s
  | .yieldRelease e => Sys2Proof.Machine.execYieldRelease e s
  | .overrun e => Sys2Proof.Machine.execOverrun e s
  | .wdog e => Sys2Proof.Machine.execWdog e s
  | .waiteTimeout e => Sys2Proof.Machine.execWaiteTimeout e s
  | .br e f => Sys2Proof.Machine.execBr e f s
  | .brc e f => Sys2Proof.Machine.execBrc e f s
  | .call e f => Sys2Proof.Machine.execCall e f s
  | .ret e f => Sys2Proof.Machine.execRet e f s
  | .loop e f => Sys2Proof.Machine.execLoop e f s
  | .halt e f => Sys2Proof.Machine.execHalt e f s
  | .yield e f => Sys2Proof.Machine.execYield e f s
  | .tpoint e f => Sys2Proof.Machine.execTpoint e f s
  | .movi e f => Sys2Proof.Machine.execMovi e f s
  | .add e f => Sys2Proof.Machine.execAdd e f s
  | .sub e f => Sys2Proof.Machine.execSub e f s
  | .and e f => Sys2Proof.Machine.execAnd e f s
  | .or e f => Sys2Proof.Machine.execOr e f s
  | .xor e f => Sys2Proof.Machine.execXor e f s
  | .shl e f => Sys2Proof.Machine.execShl e f s
  | .shr e f => Sys2Proof.Machine.execShr e f s
  | .cmp e f => Sys2Proof.Machine.execCmp e f s
  | .fcmp e f => Sys2Proof.Machine.execFcmp e f s
  | .play e f => Sys2Proof.Machine.execPlay e f s
  | .join e f => Sys2Proof.Machine.execJoin e f s
  | .detach e f => Sys2Proof.Machine.execDetach e f s
  | .segjmp e f => Sys2Proof.Machine.execSegjmp e f s
  | .dwell e f => Sys2Proof.Machine.execDwell e f s
  | .level e f => Sys2Proof.Machine.execLevel e f s
  | .tset e f => Sys2Proof.Machine.execTset e f s
  | .force e f => Sys2Proof.Machine.execForce e f s
  | .gang e f => Sys2Proof.Machine.execGang e f s
  | .meas e f => Sys2Proof.Machine.execMeas e f s
  | .measConversionEnd ch r => Sys2Proof.Machine.execMeasConversionEnd ch r s
  | .getm e f => Sys2Proof.Machine.execGetm e f s
  | .acqarm e f => Sys2Proof.Machine.execAcqarm e f s
  | .tdcopen e f => Sys2Proof.Machine.execTdcopen e f s
  | .winset e f => Sys2Proof.Machine.execWinset e f s
  | .step e f => Sys2Proof.Machine.execStep e f s
  | .limit e f entryEcc => Sys2Proof.Machine.execLimit e f entryEcc s
  | .bin e f => Sys2Proof.Machine.execBin e f s
  | .logf e f => Sys2Proof.Machine.execLogf e f s
  | .voidh e f => Sys2Proof.Machine.execVoidh e f s
  | .emit e f => Sys2Proof.Machine.execEmit e f s
  | .waite e f => Sys2Proof.Machine.execWaite e f s
  | .undefinedOpcode e f => Sys2Proof.Machine.execUndefinedOpcode e f s
  | .vectorStart y pos row => Sys2Proof.Machine.execVectorStart y pos row s
  | .unitEnd y pos => Sys2Proof.Machine.execUnitEnd y pos s
  | .compareStrobe site t pos h l spareH spareL => Sys2Proof.Machine.execCompareStrobe site t pos h l spareH spareL s
  | .failQueueDrain bad => Sys2Proof.Machine.execFailQueueDrain bad s
  | .scrubStep ecc => Sys2Proof.Machine.execScrubStep ecc s
  | .bankCopyDone n bad => Sys2Proof.Machine.execBankCopyDone n bad s
  | .streamRecord l r => Sys2Proof.Machine.execStreamRecord l r s
  | .dpsTrip ch => Sys2Proof.Machine.execDpsTrip ch s
  | .adcSample ch pos code clip => Sys2Proof.Machine.execAdcSample ch pos code clip s
  | .acqDone q pos => Sys2Proof.Machine.execAcqDone q pos s
  | .dsyncPinEdge pos => Sys2Proof.Machine.execDsyncPinEdge pos s
  | .tdcEdge ch src pos lsb => Sys2Proof.Machine.execTdcEdge ch src pos lsb s
  | .tdcWindowClose ch => Sys2Proof.Machine.execTdcWindowClose ch s
  | .tdcNosig ch pos => Sys2Proof.Machine.execTdcNosig ch pos s
  | .tdcMaxt ch => Sys2Proof.Machine.execTdcMaxt ch s
  | .weirChange ch x level => Sys2Proof.Machine.execWeirChange ch x level s
  | .weirSample ch x level => Sys2Proof.Machine.execWeirSample ch x level s
  | .weirSettled ch x level => Sys2Proof.Machine.execWeirSettled ch x level s
  | .wake q => Sys2Proof.Machine.execWake q s
  | .comparatorCrossing ch kind pos => Sys2Proof.Machine.execComparatorCrossing ch kind pos s
  | .sluiceDelivery => Sys2Proof.Machine.execSluiceDelivery s
  | .tbusEdge n pos => Sys2Proof.Machine.execTbusEdge n pos s
  | .tbusPulseEnd n => Sys2Proof.Machine.execTbusPulseEnd n s
  | .tbusStuck n => Sys2Proof.Machine.execTbusStuck n s
  | .sensorReading n r => Sys2Proof.Machine.execSensorReading n r s
  | .dpsPowerSum xs => Sys2Proof.Machine.execDpsPowerSum xs s
  | .domainGood d => Sys2Proof.Machine.execDomainGood d s
  | .domainTimeout d => Sys2Proof.Machine.execDomainTimeout d s
  | .chHw x => Sys2Proof.Machine.execChHw x s
  | .quadHw qs => Sys2Proof.Machine.execQuadHw qs s
  | .engHw es => Sys2Proof.Machine.execEngHw es s
  | .sclkUnlock => Sys2Proof.Machine.execSclkUnlock s
  | .fabricErr => Sys2Proof.Machine.execFabricErr s
  | .aonFail => Sys2Proof.Machine.execAonFail s
  | .fwAssert => Sys2Proof.Machine.execFwAssert s
  | .slcPar q line => Sys2Proof.Machine.execSlcPar q line s
  | .aliveInterval checkedIn => Sys2Proof.Machine.execAliveInterval checkedIn s
  | .nvWriteDone v => Sys2Proof.Machine.execNvWriteDone v s
  | .nvSetSave => Sys2Proof.Machine.execNvSetSave s
  | .memRead h addr len x => Sys2Proof.Machine.execMemRead h addr len x s
  | .memWrite h addr len ws => Sys2Proof.Machine.execMemWrite h addr len ws s
  | .registerWrite h addr v => Sys2Proof.Machine.execRegisterWrite h addr v s
  | .frameLoRead h => Sys2Proof.Machine.execFrameLoRead h s
  | .sclkCfgWrite h v => Sys2Proof.Machine.execSclkCfgWrite h v s
  | .flenWrite h v => Sys2Proof.Machine.execFlenWrite h v s
  | .syncCfgWrite h v => Sys2Proof.Machine.execSyncCfgWrite h v s
  | .modeRequest h v => Sys2Proof.Machine.execModeRequest h v s
  | .headgateWrite h off v => Sys2Proof.Machine.execHeadgateWrite h off v s
  | .engineRegisterWrite h e off v => Sys2Proof.Machine.execEngineRegisterWrite h e off v s
  | .pramWordWrite h w v => Sys2Proof.Machine.execPramWordWrite h w v s
  | .matchWrite h n v => Sys2Proof.Machine.execMatchWrite h n v s
  | .wcsDataWrite h v => Sys2Proof.Machine.execWcsDataWrite h v s
  | .playerCfgWrite h y v => Sys2Proof.Machine.execPlayerCfgWrite h y v s
  | .ringReset h y v => Sys2Proof.Machine.execRingReset h y v s
  | .ringArm h y v => Sys2Proof.Machine.execRingArm h y v s
  | .ringLwmWrite h y v => Sys2Proof.Machine.execRingLwmWrite h y v s
  | .quadRequest h q v => Sys2Proof.Machine.execQuadRequest h q v s
  | .substitutionRequest h q v => Sys2Proof.Machine.execSubstitutionRequest h q v s
  | .restoreRequest h q v => Sys2Proof.Machine.execRestoreRequest h q v s
  | .firSwap h q c v => Sys2Proof.Machine.execFirSwap h q c v s
  | .firCoefWrite h q c bank n v => Sys2Proof.Machine.execFirCoefWrite h q c bank n v s
  | .acqArm h q v => Sys2Proof.Machine.execAcqArm h q v s
  | .acqAbort h q v => Sys2Proof.Machine.execAcqAbort h q v s
  | .acqForce h q v => Sys2Proof.Machine.execAcqForce h q v s
  | .tdcOpen h q c v => Sys2Proof.Machine.execTdcOpen h q c v s
  | .tdcClose h q c v => Sys2Proof.Machine.execTdcClose h q c v s
  | .tdcRdWrite h q c v => Sys2Proof.Machine.execTdcRdWrite h q c v s
  | .limitEntryWrite h v => Sys2Proof.Machine.execLimitEntryWrite h v s
  | .ledgerAck h v => Sys2Proof.Machine.execLedgerAck h v s
  | .ledgerClear h v => Sys2Proof.Machine.execLedgerClear h v s
  | .faultAck h f v => Sys2Proof.Machine.execFaultAck h f v s
  | .faultForce h f v => Sys2Proof.Machine.execFaultForce h f v s
  | .powerRequest h off v => Sys2Proof.Machine.execPowerRequest h off v s
  | .routeWrite h addr v => Sys2Proof.Machine.execRouteWrite h addr v s
  | .idGet c => Sys2Proof.Machine.execIdGet c s
  | .modeSet c => Sys2Proof.Machine.execModeSet c s
  | .enterRecovery c => Sys2Proof.Machine.execEnterRecovery c s
  | .loadCrc c => Sys2Proof.Machine.execLoadCrc c s
  | .loadCrcDone => Sys2Proof.Machine.execLoadCrcDone s
  | .cisFill c => Sys2Proof.Machine.execCisFill c s
  | .cisFillDone => Sys2Proof.Machine.execCisFillDone s
  | .mapClear c => Sys2Proof.Machine.execMapClear c s
  | .runStart c => Sys2Proof.Machine.execRunStart c s
  | .runStop c => Sys2Proof.Machine.execRunStop c s
  | .runPause c => Sys2Proof.Machine.execRunPause c s
  | .runResume c => Sys2Proof.Machine.execRunResume c s
  | .fltRead c => Sys2Proof.Machine.execFltRead c s
  | .fltAck c => Sys2Proof.Machine.execFltAck c s
  | .repairRead c => Sys2Proof.Machine.execRepairRead c s
  | .repairRetire c => Sys2Proof.Machine.execRepairRetire c s
  | .repairClear c => Sys2Proof.Machine.execRepairClear c s
  | .calQuad c => Sys2Proof.Machine.execCalQuad c s
  | .calQuadDone fail => Sys2Proof.Machine.execCalQuadDone fail s
  | .calFull c => Sys2Proof.Machine.execCalFull c s
  | .calFullDone fail => Sys2Proof.Machine.execCalFullDone fail s
  | .nvInfo c => Sys2Proof.Machine.execNvInfo c s
  | .patchSave c => Sys2Proof.Machine.execPatchSave c s
  | .patchErase c => Sys2Proof.Machine.execPatchErase c s
  | .pwrSet c => Sys2Proof.Machine.execPwrSet c s
  | .pwrGroups c => Sys2Proof.Machine.execPwrGroups c s
  | .quadState c => Sys2Proof.Machine.execQuadState c s
  | .thmSet c => Sys2Proof.Machine.execThmSet c s
  | .thmSave c => Sys2Proof.Machine.execThmSave c s
  | .epoch c => Sys2Proof.Machine.execEpoch c s
  | .dsync c => Sys2Proof.Machine.execDsync c s
  | .fullReset c => Sys2Proof.Machine.execFullReset c s
  | .unknownCommand code c => Sys2Proof.Machine.execUnknownCommand code c s
  | .ctrlFlit l f => Sys2Proof.Machine.execCtrlFlit l f s
  | .replayTimeout l => Sys2Proof.Machine.execReplayTimeout l s
  | .codewordUncorrectable j hadData => Sys2Proof.Machine.execCodewordUncorrectable j hadData s
  | .laneTrainDone j => Sys2Proof.Machine.execLaneTrainDone j s
  | .laneTrainTimeout j => Sys2Proof.Machine.execLaneTrainTimeout j s
  | .laneLockLoss j => Sys2Proof.Machine.execLaneLockLoss j s
  | .ntfySend => Sys2Proof.Machine.execNtfySend s
  | .mspiCmd ws => Sys2Proof.Machine.execMspiCmd ws s
  | .mspiCpl => Sys2Proof.Machine.execMspiCpl s
  | .mspiRd addr count x => Sys2Proof.Machine.execMspiRd addr count x s
  | .mspiWr addr ws => Sys2Proof.Machine.execMspiWr addr ws s
  | .mspiStat => Sys2Proof.Machine.execMspiStat s
  | .mspiBadOpcode => Sys2Proof.Machine.execMspiBadOpcode s
  | .bypass => Sys2Proof.Machine.execBypass s
  | .idcode => Sys2Proof.Machine.execIdcode s
  | .samplePreload => Sys2Proof.Machine.execSamplePreload s
  | .extest => Sys2Proof.Machine.execExtest s
  | .clamp => Sys2Proof.Machine.execClamp s
  | .highz => Sys2Proof.Machine.execHighz s
  | .extestPulse => Sys2Proof.Machine.execExtestPulse s
  | .extestTrain => Sys2Proof.Machine.execExtestTrain s
  | .powerLoss => Sys2Proof.Machine.execPowerLoss s
  | .railInRange r => Sys2Proof.Machine.execRailInRange r s
  | .domainFail d => Sys2Proof.Machine.execDomainFail d s
  | .currentLimit ch entering => Sys2Proof.Machine.execCurrentLimit ch entering s
  | .pmuClamp ch => Sys2Proof.Machine.execPmuClamp ch s
  | .tbusRelease x => Sys2Proof.Machine.execTbusRelease x s
  | .flitCrcFail j hadData => Sys2Proof.Machine.execFlitCrcFail j hadData s
  | .proto l why => Sys2Proof.Machine.execProto l why s

end Sys2Proof.Machine
end

