-- ==== Sys2Proof/Safety.lean ====
section
/-! DEFINITION. What counts as a safe run, and the terms the statements use: the canonical form of the
state's tables and memories, the device's invariant, and what a command leaves alone. -/

namespace Sys2Proof.Machine

/-- The device's memories, its stored cards and its tables are in canonical form: equal contents are equal
data. -/
structure Dev.Canonical (s : Dev) : Prop where
  mem     : Memory.wf s.mem = true
  scratch : Scratch.wf s.scratch = true
  regs    : Tab.wf resetWord s.regs = true
  engs    : Tab.wf (fun _ => engOff) s.engs = true
  sites   : Tab.wf (fun _ => siteInit) s.sites = true
  plys    : Tab.wf (fun _ => plyInit) s.plys = true
  quads   : Tab.wf (fun _ => quadInit) s.quads = true
  circs   : Tab.wf (fun _ => circInit) s.circs = true
  chains  : Tab.wf (fun _ => chainInit) s.chains = true
  acqs    : Tab.wf (fun _ => acqInit) s.acqs = true
  tdcs    : Tab.wf (fun _ => tdcInit) s.tdcs = true
  weirs   : Tab.wf (fun _ => weirInit) s.weirs = true
  sensors : Tab.wf (fun _ => sensorInit) s.pwr.sensors = true
  lanes   : Tab.wf (fun _ => laneInit) s.lanes = true
  links   : Tab.wf (fun _ => linkInit) s.links = true
  limits  : Tab.wf (fun _ => (0xFF800000, 0x7F800000)) s.led.limits = true

/-- No mode request stands in RESET or in SAFE, none names RESET, and boot has not begun in RESET. -/
structure Dev.Settled (s : Dev) : Prop where
  quiet : s.sys.mode = .reset ∨ s.sys.mode = .safe → s.sys.req = none
  path  : ∀ r, s.sys.req = some r → r.target ≠ .reset
  boot  : s.sys.mode = .reset → s.sys.boot = .off

/-- The invariant of the device: what every command keeps. -/
structure Dev.Inv (s : Dev) : Prop where
  canon   : s.Canonical
  settled : s.Settled

/-! ### What the statements say of engines -/

/-- Engine `e` executes an instruction of opcode `o`, fetched and decoded without an ECC error, from its beginning;
its routine runs from the ROM, and no cause of R131 cuts it (R50, R76, R79, R85, R118, R119, R132). -/
structure Dev.Runs (s : Dev) (e : Nat) (f : Fetch) (o : Nat) : Prop where
  exec  : s.executing e = true
  pgm   : f.pgm = .clean
  ucode : f.ucode = []
  whole : f.upto = none
  mid   : (s.eng e).mid = false
  op    : (s.insAt e).op = o
  rom   : s.altered o = false

/-- The same, and no field that R85 requires to be 0 is set. -/
structure Dev.RunsClean (s : Dev) (e : Nat) (f : Fetch) (o : Nat) : Prop extends s.Runs e f o where
  mbz   : (s.insAt e).mbz = false

/-- Only the listed cards may differ. -/
def Dev.Cards (s t : Dev) (l : List Nat) : Prop := ∀ a, a ∉ l → t.rd a = s.rd a

/-- The card that stores register `n` of an engine (R81). -/
def regCard (e n : Nat) : Nat :=
  if n < 32 then aEng e (0x40 + 4 * n) else if n < 36 then aEng e (0xC0 + 4 * (n - 32)) else aEng e 8

/-- What register `n` shows after `v` is written to it: 24 bits for the loop counters, 16 for PG (R81). -/
def regShows (n : Nat) (v : W) : W := if n < 32 then v else if n < 36 then v &&& 0xFFFFFF else v &&& 0xFFFF

/-- The MIRROR card of the site an engine serves, which holds PG and VOIDH too (R81). -/
def Dev.mirror (s : Dev) (e : Nat) : List Nat :=
  match s.siteOf e with
  | some i => [aSiteCfg i + 8]
  | none => []

/-- PC takes a value and the engine has retired an instruction: a wait, a chunk and a routine under way are
done with (R108, R136). No other engine changes. -/
structure Dev.Jumps (s t : Dev) (e n : Nat) : Prop where
  pc     : t.pc e = n
  eng    : t.eng e = (s.eng e).retired
  others : ∀ k, k ≠ e → t.eng k = s.eng k

/-- An instruction retires and PC advances by one (R80). -/
def Dev.Retires (s t : Dev) (e : Nat) : Prop := s.Jumps t e (s.pc e + 1)

/-- Nothing but register cards and engine states differs: no memory, no scratch, no site, no queue. -/
def Dev.RegFrame (s t : Dev) : Prop := { t with regs := s.regs, engs := s.engs } = s

/-- An instruction retires with `v` written to register `d` and the FLAGS bits of `m` set to those of `b`:
no other card, engine, site, queue or memory byte changes. -/
structure Dev.Computes (s t : Dev) (e d : Nat) (v m b : W) : Prop where
  value : t.reg e d = regShows d v
  flags : t.rd (aEng e 0xC) = (s.rd (aEng e 0xC) &&& ~~~m) ||| b
  done  : s.Retires t e
  cards : s.Cards t (regCard e d :: aEng e 4 :: aEng e 0xC :: if d = 36 then s.mirror e else [])
  rest  : s.RegFrame t

/-- An instruction retires with only FLAGS written. -/
structure Dev.Tests (s t : Dev) (e : Nat) (m b : W) : Prop where
  flags : t.rd (aEng e 0xC) = (s.rd (aEng e 0xC) &&& ~~~m) ||| b
  done  : s.Retires t e
  cards : s.Cards t [aEng e 4, aEng e 0xC]
  rest  : s.RegFrame t

/-- A FLAGS word with the bits Z, N, C and V (R75). -/
def nzcv (z n c v : Bool) : W := wn (b2n z + 2 * b2n n + 4 * b2n c + 8 * b2n v)

/-- The instruction's staged write stands at the end of the queue, and the instruction retires (R26, R84);
nothing else changes before the tick. -/
structure Dev.Stages (s t : Dev) (e : Nat) (op : EngOp) : Prop where
  queue  : t.stage.eng = s.stage.eng ++ [⟨e, op⟩]
  host   : t.stage.host = s.stage.host
  pc     : t.pc e = s.pc e + 1
  eng    : t.eng e = { (s.eng e).retired with staged := (s.eng e).staged + 1 }
  others : ∀ k, k ≠ e → t.eng k = s.eng k
  cards  : s.Cards t [aEng e 4]

/-- Nothing but register cards, engine states and the staging queue differs. -/
def Dev.StageFrame (s t : Dev) : Prop := { t with regs := s.regs, engs := s.engs, stage := s.stage } = s

/-! ### What the statements say of faults -/

/-- What raising a fault may touch besides the state of the units it stops (R66, R67, R290-R303): the fault
cards, the mode request's status, the STRESS arm, and the SAFE counters of NVR. The clock, the scratch memories, the
decimation chains, the weirs, the ledger, the microcode, the frame images and the TAP stay as they are. -/
structure Dev.FaultFrame (s t : Dev) : Prop where
  cards   : ∀ a, ¬(0x10000 ≤ a ∧ a < 0x20000) → a ≠ 0x108 → a ≠ 0x114 → t.rd a = s.rd a
  bytes   : ∀ a, ¬(aNvr 0x400 ≤ a ∧ a < aNvr 0x430) → t.byte a = s.byte a
  clk     : t.clk = s.clk
  scratch : t.scratch = s.scratch
  chains  : t.chains = s.chains
  weirs   : t.weirs = s.weirs
  led     : t.led = s.led
  ucs     : t.ucs = s.ucs
  imgs    : t.imgs = s.imgs
  staged  : t.stage.eng = s.stage.eng
  power   : t.pwr.on = s.pwr.on ∧ t.pwr.good = s.pwr.good ∧ t.pwr.wait = s.pwr.wait ∧ t.pwr.fresh = s.pwr.fresh ∧
              t.pwr.sensors = s.pwr.sensors ∧ t.pwr.groups = s.pwr.groups
  straps  : t.sys.devid = s.sys.devid ∧ t.sys.master = s.sys.master ∧ t.sys.recov = s.sys.recov
  tap     : t.jtag = s.jtag ∧ t.tdo = s.tdo
  /-- the mode is kept, or SAFE is entered -/
  mode    : t.sys.mode = s.sys.mode ∨ t.sys.mode = .safe

/-- A fault was raised: its source reads STICKY, and no source that was STICKY has lost it. -/
structure Dev.Raised (s t : Dev) (f : Nat) : Prop where
  now   : t.sticky f = true
  stays : ∀ g, s.sticky g = true → t.sticky g = true
  rest  : s.FaultFrame t

/-- Class x is acknowledged and no raise of a tick under way joins its occurrence: one takes its raised level (R291). -/
structure Dev.Clean (s : Dev) (x : Nat) : Prop where
  acked : s.unackAt x = false
  alone : s.flt.joined = []

/-- An occurrence at VOID: the mode is kept, and every site of the aim notes the cause and goes to its handler (R88,
R103, R298). -/
structure Dev.Voids (s t : Dev) (cause : Nat) (aim : List Nat) : Prop where
  mode   : t.sys.mode = s.sys.mode
  noted  : ∀ i, i ∈ aim → (t.site i).voids = some ((s.site i).voids.getD 0 ||| cause) ∧ (t.site i).toVoidh = true
  others : ∀ i, i ∉ aim → t.site i = s.site i

/-! ### What the statements say of requests and commands -/

/-- A message stands on a link, queued or sent and not yet acknowledged (R343, R347). -/
def Dev.Said (t : Dev) (m : Msg) : Prop := ∃ l, m ∈ (t.link l).queue ∨ m ∈ (t.link l).sent.map (·.2)

/-- A MEM request that came by a link is completed with a status, its count of words, its tick and its data. -/
def Dev.AnswersMem (t : Dev) (h : Hdr) (read : Bool) (status words tick : Nat) (data : List W) : Prop :=
  ∀ l, h.via = .link l →
    t.Said (.mem { read := read, tag := h.tag, link := l, status := status, words := words, tick := tick, data := data })

/-- A command is completed on its path: by MSPI as the newest unread completion, by a link as a message. -/
def Dev.AnswersCmd (s t : Dev) (j : Job) (status detail : Nat) (data : List W) : Prop :=
  let c : CmdCpl :=
    { code := j.code, tag := j.tag, status := status, detail := detail,
      frame := if s.clk.ticked then s.clk.frame else 0, frameV := s.clk.ticked, data := data }
  match j.via with
  | .mspi => t.host.mspiCpl = s.host.mspiCpl ++ [c]
  | .link _ => t.Said (.cmd c)

/-- A command was answered and did nothing else: only its completion and the link that brought it differ. -/
def Dev.Answered (s t : Dev) : Prop :=
  { t with host := { t.host with mspiCpl := s.host.mspiCpl }, links := s.links } = s

/-- A write of the word reaches it: the links are up, the mode admits it, and it lies in no region in play
(R339). -/
structure Dev.Admits (s : Dev) (h : Hdr) (a : Nat) (v : W) : Prop where
  linked : s.linked = true
  mode   : s.modeOk h.via a v = true
  free   : s.wordInPlay a = false

/-- The scarab takes the command at once: its path is open, nothing waits, the staged commands have room, no command
keeps the scarab, and the checks of R353 pass. -/
structure Dev.Takes (s : Dev) (code : Nat) (c : Cmd) : Prop where
  path : s.pathOpen c.via = true
  idle : s.host.waiting = []
  room : s.awaiting < 256
  free : s.scarabBusy = false
  ok   : s.cmdStatus code c = 0

end Sys2Proof.Machine
end

