-- ==== Sys2Proof/Certificates/Slice0/Obligations.lean ====
section
/-! DEFINITION. The statements for the provers. -/

open Sys2Proof Sys2Proof.Machine

/-- For every command and state: a step with the command at the front of the queue runs it on the state with
the queue's rest. -/
def Obligations.StepRunsFrontCommand : Prop :=
  ∀ (c : Instr) (s : State), step { s with pending := c :: s.pending } = exec c s

/-- With no command waiting the block idles (the model's choice: log 2). -/
def Obligations.EmptyQueueIdles : Prop := ∀ s : State, s.pending = [] → step s = .next s

/-- Every command completes from every state and leaves the commands that wait alone. -/
def Obligations.EveryCommandCompletes : Prop :=
  ∀ (c : Instr) (s : State), ∃ t, exec c s = .next t ∧ t.pending = s.pending

/-- The state after reset meets the invariant. -/
def Obligations.ResetMeetsInvariant : Prop := State.reset.Inv

/-- Every step keeps the invariant: the canonical form of every memory and table, and what R55, R65 and R67
say of a mode request (none stands in RESET or in SAFE, none names RESET), and boot has not begun in RESET. -/
def Obligations.EveryStepKeepsInvariant : Prop :=
  ∀ s t : State, s.Inv → step s = .next t → t.Inv

/-! ### Engine arithmetic (R79-R81, R85) -/

/-- ADD and SUB write A and set Z, N, C and V: C is the carry of ADD and, for SUB, 1 without a borrow; V is
signed overflow. Every destination R81 lets an instruction write, both forms of the second operand. -/
def Obligations.AddAndSubSetResultAndFlags : Prop :=
  ∀ (e : Fin 272) (f : Fetch) (s : State) (x : Ins) (a b : W),
    x = s.insAt e → x.a < 37 → (x.flag 0 = true ∨ x.b < 46) → s.pc e < 32767 →
    a = s.reg e x.a → b = (if x.flag 0 then x.imm else s.reg e x.b) →
    (s.RunsClean e f 0x11 →
      ∃ t : Dev, exec (.add e f) s = .next { s with toDev := t } ∧
        s.Computes t e x.a (a + b) 0xF
          (nzcv (a + b = 0) ((a + b).msb) (2 ^ 32 ≤ a.toNat + b.toNat) ((a + b).toInt ≠ a.toInt + b.toInt))) ∧
    (s.RunsClean e f 0x12 →
      ∃ t : Dev, exec (.sub e f) s = .next { s with toDev := t } ∧
        s.Computes t e x.a (a - b) 0xF
          (nzcv (a - b = 0) ((a - b).msb) (b.toNat ≤ a.toNat) ((a - b).toInt ≠ a.toInt - b.toInt)))

/-- AND, OR and XOR write A, set Z and N, clear V and leave C; so do SHL and SHR, which shift by S mod 32, SHR
with sign fill where flag bit 1 says so. -/
def Obligations.LogicalOpsAndShiftsSetResultAndFlags : Prop :=
  ∀ (e : Fin 272) (f : Fetch) (s : State) (x : Ins) (a b : W),
    x = s.insAt e → x.a < 37 → (x.flag 0 = true ∨ x.b < 46) → s.pc e < 32767 →
    a = s.reg e x.a → b = (if x.flag 0 then x.imm else s.reg e x.b) →
    (s.RunsClean e f 0x13 → ∃ t : Dev, exec (.and e f) s = .next { s with toDev := t } ∧
        s.Computes t e x.a (a &&& b) 0xB (nzcv (a &&& b = 0) ((a &&& b).msb) false false)) ∧
    (s.RunsClean e f 0x14 → ∃ t : Dev, exec (.or e f) s = .next { s with toDev := t } ∧
        s.Computes t e x.a (a ||| b) 0xB (nzcv (a ||| b = 0) ((a ||| b).msb) false false)) ∧
    (s.RunsClean e f 0x15 → ∃ t : Dev, exec (.xor e f) s = .next { s with toDev := t } ∧
        s.Computes t e x.a (a ^^^ b) 0xB (nzcv (a ^^^ b = 0) ((a ^^^ b).msb) false false)) ∧
    (s.RunsClean e f 0x16 → ∃ t : Dev, exec (.shl e f) s = .next { s with toDev := t } ∧
        ∃ v : W, v.toNat = a.toNat * 2 ^ (b.toNat % 32) % 2 ^ 32 ∧
          s.Computes t e x.a v 0xB (nzcv (v = 0) v.msb false false)) ∧
    (s.RunsClean e f 0x17 → ∃ t : Dev, exec (.shr e f) s = .next { s with toDev := t } ∧
        ∃ v : W, (if x.flag 1 then v.toInt = a.toInt / 2 ^ (b.toNat % 32)
                  else v.toNat = a.toNat / 2 ^ (b.toNat % 32)) ∧
          s.Computes t e x.a v 0xB (nzcv (v = 0) v.msb false false))

/-- CMP sets the flags of SUB and writes no register. FCMP sets Z where the binary32 numbers are equal and N
where A is less, U alone where either is a NaN, and clears V; it leaves C. -/
def Obligations.ComparesSetOnlyFlags : Prop :=
  ∀ (e : Fin 272) (f : Fetch) (s : State) (x : Ins) (a b : W),
    x = s.insAt e → x.a < 46 → (x.flag 0 = true ∨ x.b < 46) → s.pc e < 32767 →
    a = s.reg e x.a → b = (if x.flag 0 then x.imm else s.reg e x.b) →
    (s.RunsClean e f 0x18 → ∃ t : Dev, exec (.cmp e f) s = .next { s with toDev := t } ∧
        s.Tests t e 0xF
          (nzcv (a - b = 0) ((a - b).msb) (b.toNat ≤ a.toNat) ((a - b).toInt ≠ a.toInt - b.toInt))) ∧
    (s.RunsClean e f 0x19 → ∃ t : Dev, exec (.fcmp e f) s = .next { s with toDev := t } ∧
        ((f32IsNaN a = true ∨ f32IsNaN b = true) → s.Tests t e 0x2B 0x20) ∧
        (f32IsNaN a = false → f32IsNaN b = false →
          s.Tests t e 0x2B (nzcv (f32Le a b && f32Le b a) (f32Lt a b) false false)))

/-- The four forms of MOVI: an immediate, a register plus an immediate, a load from scratch and a store to
scratch. The store writes the four bytes of its word and no register; the others write A alone; no flags. -/
def Obligations.MoviMovesItsFourForms : Prop :=
  ∀ (e : Fin 272) (f : Fetch) (s : State) (x : Ins),
    x = s.insAt e → s.RunsClean e f 0x10 → s.pc e < 32767 → f.scr = false →
    (x.fl = 0 → x.a < 37 → x.b = 0 → ∃ t : Dev, exec (.movi e f) s = .next { s with toDev := t } ∧
        s.Computes t e x.a x.imm 0 0) ∧
    (x.fl = 1 → x.a < 37 → x.b < 46 → ∃ t : Dev, exec (.movi e f) s = .next { s with toDev := t } ∧
        s.Computes t e x.a (s.reg e x.b + x.imm) 0 0) ∧
    (x.fl = 2 → x.a < 37 → x.b < 46 → ∃ t : Dev, exec (.movi e f) s = .next { s with toDev := t } ∧
        s.Computes t e x.a (s.scrWord e (s.reg e x.b + x.imm).toNat) 0 0) ∧
    (x.fl = 3 → x.a < 46 → x.b < 46 → ∃ t : Dev, exec (.movi e f) s = .next { s with toDev := t } ∧
        t.scrWord e (s.reg e x.b + x.imm).toNat = s.reg e x.a ∧
        (∀ k a, (k ≠ e ∨ a / 4 ≠ (s.reg e x.b + x.imm).toNat % 16384 / 4) → a < 16384 →
          t.scrByte k a = s.scrByte k a) ∧
        s.Retires t e ∧ s.Cards t [aEng e 4] ∧
        { t with regs := s.regs, engs := s.engs, scratch := s.scratch } = s.toDev)

/-! ### Flow of the engines (R75, R76, R80, R85, R86, R98, R100-R102) -/

/-- BR, BRC, CALL, RET and LOOP: where PC goes, what the call stack and the loop counter hold. -/
def Obligations.FlowInstructionsSetPc : Prop :=
  ∀ (e : Fin 272) (f : Fetch) (s : State) (x : Ins), x = s.insAt e →
    (s.RunsClean e f 0x01 → ∃ t : Dev, exec (.br e f) s = .next { s with toDev := t } ∧
        s.Jumps t e (x.im 14 0) ∧ s.Cards t [aEng e 4] ∧ s.RegFrame t) ∧
    (∀ c, s.RunsClean e f 0x02 → condOf x.a (s.rd (aEng e 0xC)) (s.lastStatus e) = some c → s.pc e < 32767 →
      ∃ t : Dev, exec (.brc e f) s = .next { s with toDev := t } ∧
        s.Jumps t e (if c != x.flag 0 then x.im 14 0 else s.pc e + 1) ∧ s.Cards t [aEng e 4] ∧ s.RegFrame t) ∧
    (s.RunsClean e f 0x03 → (s.eng e).stack.length < 8 → ∃ t : Dev, exec (.call e f) s = .next { s with toDev := t } ∧
        t.pc e = x.im 14 0 ∧
        t.eng e = { (s.eng e).retired with stack := BitVec.ofNat 15 (s.pc e + 1) :: (s.eng e).stack } ∧
        (∀ k, k ≠ e.val → t.eng k = s.eng k) ∧ s.Cards t [aEng e 4] ∧ s.RegFrame t) ∧
    (∀ p r, s.RunsClean e f 0x04 → (s.eng e).stack = p :: r → ∃ t : Dev, exec (.ret e f) s = .next { s with toDev := t } ∧
        t.pc e = p.toNat ∧ t.eng e = { (s.eng e).retired with stack := r } ∧
        (∀ k, k ≠ e.val → t.eng k = s.eng k) ∧ s.Cards t [aEng e 4] ∧ s.RegFrame t) ∧
    (s.RunsClean e f 0x05 → x.a < 4 → s.pc e < 32767 → ∃ t : Dev, exec (.loop e f) s = .next { s with toDev := t } ∧
        t.reg e (32 + x.a) = regShows 32 (wn ((s.reg e (32 + x.a)).toNat - 1)) ∧
        s.Jumps t e (if (s.reg e (32 + x.a)).toNat ≤ 1 then s.pc e + 1 else x.im 14 0) ∧
        s.Cards t [aEng e 4, aEng e (0xC0 + 4 * x.a)] ∧ s.RegFrame t)

/-- YIELD retires and yields for max(N, 1) ticks, in which the engine does not execute; HALT, with no step ended in
this frame, ends the site's open step, retires and halts the engine with cause 1. -/
def Obligations.YieldAndHaltLeaveTheFrame : Prop :=
  ∀ (e : Fin 272) (f : Fetch) (s : State) (x : Ins), x = s.insAt e → s.pc e < 32767 →
    (s.RunsClean e f 0x07 →
      ∃ t : Dev, exec (.yield e f) s = .next { s with toDev := t } ∧ t.pc e = s.pc e + 1 ∧
        t.eng e = { (s.eng e).retired with phase := .yielded (max (x.im 15 0) 1) } ∧ t.executing e = false ∧
        (∀ k, k ≠ e.val → t.eng k = s.eng k) ∧ s.Cards t [aEng e 4] ∧ s.RegFrame t) ∧
    (∀ i, s.RunsClean e f 0x06 → s.siteOf e = some i → (s.eng e).uchunk = 0 → s.flag e 13 = false →
      ∃ t : Dev, exec (.halt e f) s = .next { s with toDev := t } ∧ t.pc e = s.pc e + 1 ∧ t.executing e = false ∧
        t.eng e = { (s.eng e).retired with st := .halted, cause := 1, phase := .exec, wait := none, arrived := false } ∧
        (∀ p, (s.site i).step = some p → t.site i = { s.site i with step := none, ended := some p }) ∧
        ((s.site i).step = none → t.site i = s.site i) ∧ t.flag e 13 = (s.site i).step.isSome ∧
        (∀ j, j ≠ i → t.site j = s.site j) ∧ (∀ k, k ≠ e.val → t.eng k = s.eng k) ∧ s.Cards t [aEng e 4, aEng e 0xC] ∧
        { t with regs := s.regs, engs := s.engs, sites := s.sites } = s.toDev)

/-- TPOINT of a site with no demand, or whose player does not dwell, only marks that the site executed it;
with a demand and the player in dwell it requests the dwell of R102 and yields the demand's frames and one more. -/
def Obligations.TpointDwellsOnDemand : Prop :=
  ∀ (e : Fin 272) (f : Fetch) (s : State) (i : Nat),
    s.RunsClean e f 0x08 → s.siteOf e = some i → s.pc e < 32767 → (s.eng e).uchunk = 0 →
    ((s.tpDemand i = 0 ∨ s.pDwell i = false) → ∃ t : Dev, exec (.tpoint e f) s = .next { s with toDev := t } ∧
        t.site i = { s.site i with tpHit := true } ∧ s.Retires t e ∧ (∀ j, j ≠ i → t.site j = s.site j) ∧
        s.Cards t [aEng e 4] ∧ { t with regs := s.regs, engs := s.engs, sites := s.sites } = s.toDev) ∧
    (s.tpDemand i ≠ 0 → s.pDwell i = true → ∃ t : Dev, exec (.tpoint e f) s = .next { s with toDev := t } ∧
        t.site i = { s.site i with tpHit := true, tpoint := some (s.tpDemand i) } ∧
        (t.eng e).phase = .yielded (s.tpDemand i + 1) ∧ t.pc e = s.pc e ∧ t.executing e = false ∧
        (∀ j, j ≠ i → t.site j = s.site j) ∧ (∀ k, k ≠ e.val → t.eng k = s.eng k) ∧
        { t with engs := s.engs, sites := s.sites } = s.toDev)

/-! ### Staged instructions (R26, R84, R85, R87, R90, R94-R96, R177-R189, R253, R267, R423) -/

/-- PLAY, JOIN, DETACH, SEGJMP and DWELL join the staging queue in a mode that enables their class, and change
nothing else before the tick; a SEGJMP whose condition does not hold only retires. -/
def Obligations.PatternInstructionsStage : Prop :=
  ∀ (e : Fin 272) (f : Fetch) (s : State) (x : Ins) (i : Nat),
    x = s.insAt e → s.siteOf e = some i → s.pc e < 32767 → (s.eng e).staged < 16 →
    (s.RunsClean e f 0x20 → s.segModeIll (s.streamOf i) (x.im 15 0) = false →
      ∃ t : Dev, exec (.play e f) s = .next { s with toDev := t } ∧
        s.Stages t e (.play (BitVec.ofNat 16 (x.im 15 0))) ∧ s.StageFrame t) ∧
    (s.RunsClean e f 0x21 → s.segModeIll (s.homeOf i) (x.im 15 0) = false →
      ∃ t : Dev, exec (.join e f) s = .next { s with toDev := t } ∧
        s.Stages t e (.join (BitVec.ofNat 16 (x.im 15 0)) x.b) ∧ s.StageFrame t) ∧
    (s.RunsClean e f 0x22 → (x.flag 0 = false ∨ s.altEn i = true) →
      ∃ t : Dev, exec (.detach e f) s = .next { s with toDev := t } ∧
        s.Stages t e (.detach (x.flag 0)) ∧ s.StageFrame t) ∧
    (∀ c, s.RunsClean e f 0x23 → condOf x.a (s.rd (aEng e 0xC)) (s.lastStatus e) = some c →
      s.sys.mode.enables 1 = true →
      ∃ t : Dev, exec (.segjmp e f) s = .next { s with toDev := t } ∧ s.StageFrame t ∧
        ((c != x.flag 0) = true → s.Stages t e (.segjmp (BitVec.ofNat 16 (x.im 15 0)))) ∧
        (c = x.flag 0 → s.Retires t e ∧ t.stage = s.stage ∧ s.Cards t [aEng e 4])) ∧
    (s.RunsClean e f 0x24 → x.a ≤ 2 → (x.b = 128 ∨ x.b < min 128 (s.npin i)) → s.sys.mode.enables 3 = true →
      ∃ t : Dev, exec (.dwell e f) s = .next { s with toDev := t } ∧
        s.Stages t e (.dwell x.a x.b) ∧ s.StageFrame t)

/-- LEVEL, TSET, FORCE, GANG and WINSET join the staging queue when their selector, values and mode are in
order. -/
def Obligations.ChannelInstructionsStage : Prop :=
  ∀ (e : Fin 272) (f : Fetch) (s : State) (x : Ins) (i : Nat),
    x = s.insAt e → s.siteOf e = some i → s.pc e < 32767 → (s.eng e).staged < 16 →
    (s.RunsClean e f 0x30 → x.a ≤ 4 → (x.b = 128 ∨ x.b < min 128 (s.npin i)) → levelOk x.imm = true →
      (s.sys.mode.enables 3 = true ∨ (3 ≤ x.a ∧ s.sys.mode.enables 8 = true)) →
      ∃ t : Dev, exec (.level e f) s = .next { s with toDev := t } ∧
        s.Stages t e (.level x.a x.b x.imm) ∧ s.StageFrame t) ∧
    (s.RunsClean e f 0x31 → (x.b = 128 ∨ x.b < min 128 (s.npin i)) →
      x.a ≤ 63 → x.im 23 0 < 256 * (s.fld (aTs x.a) 15 0 + 1) → s.sys.mode.enables 2 = true →
      ∃ t : Dev, exec (.tset e f) s = .next { s with toDev := t } ∧
        s.Stages t e (.tset x.a x.b (x.fl % 4) (BitVec.ofNat 24 (x.im 23 0))) ∧ s.StageFrame t) ∧
    (s.RunsClean e f 0x32 → x.a ≤ 4 → (x.b = 128 ∨ x.b < min 128 (s.npin i)) →
      forceOk x.a (x.fl % 8) x.imm = true → forceIll s.sys.mode x.a (x.fl % 8) = false →
      ∃ t : Dev, exec (.force e f) s = .next { s with toDev := t } ∧
        s.Stages t e (.force x.a x.b (x.fl % 8) x.imm) ∧ s.StageFrame t) ∧
    (s.RunsClean e f 0x33 → x.a ≤ 1 → x.b < s.npin i → (x.a = 0 ∨ s.gangOk i x.b (x.im 3 0) = true) →
      s.sys.mode.enables 6 = true →
      ∃ t : Dev, exec (.gang e f) s = .next { s with toDev := t } ∧
        s.Stages t e (.gang (x.a = 1) x.b (x.im 3 0)) ∧ s.StageFrame t) ∧
    (s.RunsClean e f 0x42 → x.a ≤ 4 → (x.b = 128 ∨ x.b < min 128 (s.npin i)) →
      x.fl % 32 ≤ 20 → x.im 11 0 < x.im 27 16 → s.sys.mode.enables 9 = true →
      ∃ t : Dev, exec (.winset e f) s = .next { s with toDev := t } ∧
        s.Stages t e (.winset x.a x.b (x.fl % 32) (x.im 27 16) (x.im 11 0)) ∧ s.StageFrame t)

/-- MEAS, ACQARM and TDCOPEN join the staging queue; MEAS, and TDCOPEN with SLOT_EN in its profile, mark their
slot not-ready at once (R84, R253), and no other slot, site or memory byte changes before the tick. -/
def Obligations.MeasurementInstructionsStage : Prop :=
  ∀ (e : Fin 272) (f : Fetch) (s : State) (x : Ins) (i : Nat),
    x = s.insAt e → s.siteOf e = some i → s.pc e < 32767 → (s.eng e).staged < 16 → x.b < s.npin i →
    (s.RunsClean e f 0x34 → x.a < 32 → x.fl ≤ 3 → x.im 15 0 ≠ 0 → s.sys.mode.enables 7 = true →
      (x.fl ≠ 2 ∨ s.sys.mode.enables 4 = true) →
      ∃ t : Dev, exec (.meas e f) s = .next { s with toDev := t } ∧
        s.Stages t e (.meas x.a x.b x.fl (x.im 15 0) ((s.site i).step.map (·.serial))) ∧
        (t.site i).slot x.a = { (s.site i).slot x.a with ready := false } ∧
        (∀ m, m ≠ x.a → (t.site i).slot m = (s.site i).slot m) ∧
        { t.site i with slots := (s.site i).slots } = s.site i ∧ (∀ j, j ≠ i → t.site j = s.site j) ∧
        Dev.StageFrame s.toDev { t with sites := s.sites }) ∧
    (s.RunsClean e f 0x40 → x.a < 8 → s.sys.mode.enables 7 = true → s.sys.mode.enables 10 = true →
      ∃ t : Dev, exec (.acqarm e f) s = .next { s with toDev := t } ∧
        s.Stages t e (.acqarm x.a x.b (x.im 15 0)) ∧ s.StageFrame t) ∧
    (∀ p w, s.RunsClean e f 0x41 → s.pin? i x.b = some p → w = s.rd (aTdcProf (p / 4) (x.im 3 0) 0) →
      x.a ≤ 3 → s.tdcOk (p / 4) x.a (x.fl % 16) (x.im 3 0) = true → s.sys.mode.enables 8 = true →
      ∃ t : Dev, exec (.tdcopen e f) s = .next { s with toDev := t } ∧
        s.Stages t e (.tdcopen x.a x.b (x.fl % 16) (x.im 3 0) ((s.site i).step.map (·.serial))) ∧
        (t.site i).slot (w.fld 20 16) =
          { (s.site i).slot (w.fld 20 16) with ready := ((s.site i).slot (w.fld 20 16)).ready && !w.bit 24 } ∧
        (∀ m, m ≠ w.fld 20 16 → (t.site i).slot m = (s.site i).slot m) ∧ (∀ j, j ≠ i → t.site j = s.site j) ∧
        Dev.StageFrame s.toDev { t with sites := s.sites })

/-- GETM takes a ready slot's value and clears TO, sets TO alone while the slot is not ready, and with PUT
stores A in the slot for the open step. -/
def Obligations.GetmReadsAndPutsSlots : Prop :=
  ∀ (e : Fin 272) (f : Fetch) (s : State) (x : Ins) (i : Nat),
    x = s.insAt e → s.siteOf e = some i → s.pc e < 32767 → s.RunsClean e f 0x35 → x.b < 32 →
    (x.flag 0 = false → x.a < 37 → ((s.site i).slot x.b).ready = true →
      ∃ t : Dev, exec (.getm e f) s = .next { s with toDev := t } ∧
        s.Computes t e x.a ((s.site i).slot x.b).value 0x40 0) ∧
    (x.flag 0 = false → x.a < 37 → ((s.site i).slot x.b).ready = false →
      ∃ t : Dev, exec (.getm e f) s = .next { s with toDev := t } ∧ s.Tests t e 0x40 0x40) ∧
    (x.flag 0 = true → x.a < 46 →
      ∃ t : Dev, exec (.getm e f) s = .next { s with toDev := t } ∧
        (t.site i).slot x.b = { value := s.reg e x.a, ready := true, owner := (s.site i).step.map (·.serial) } ∧
        (∀ m, m ≠ x.b → (t.site i).slot m = (s.site i).slot m) ∧ (∀ j, j ≠ i → t.site j = s.site j) ∧
        s.Retires t e ∧ s.Cards t [aEng e 4] ∧
        { t with regs := s.regs, engs := s.engs, sites := s.sites } = s.toDev)

/-! ### Steps and results of the engines (R98-R100, R204, R207, R215-R218, R281) -/

/-- STEP ends the open step and, without E, opens another of the id given; a second end in one frame is put
off by a yield. -/
def Obligations.StepEndsAndOpensSteps : Prop :=
  ∀ (e : Fin 272) (f : Fetch) (s : State) (x : Ins) (i : Nat),
    x = s.insAt e → s.siteOf e = some i → s.pc e < 32767 → s.RunsClean e f 0x50 → (s.eng e).uchunk = 0 →
    (s.flag e 13 = true →
      ∃ t : Dev, exec (.step e f) s = .next { s with toDev := t } ∧
        t.eng e = { s.eng e with phase := .yielded 1 } ∧ t.executing e = false ∧ t.pc e = s.pc e ∧
        (∀ k, k ≠ e.val → t.eng k = s.eng k) ∧ { t with engs := s.engs } = s.toDev) ∧
    (s.flag e 13 = false →
      ∃ t : Dev, exec (.step e f) s = .next { s with toDev := t } ∧ s.Retires t e ∧
        (t.site i).ended = (match (s.site i).step with | some p => some p | none => (s.site i).ended) ∧
        t.flag e 13 = (s.site i).step.isSome ∧
        (x.flag 0 = true → (t.site i).step = none) ∧
        (x.flag 0 = false → ∃ p, (t.site i).step = some p ∧ p.id.toNat = x.im 15 0 ∧ p.begun = false ∧
          p.fails = 0 ∧ p.drops = 0 ∧ p.limFail = false ∧ p.serial = (s.site i).serial + 1) ∧
        (∀ j, j ≠ i → t.site j = s.site j) ∧ s.Cards t [aEng e 4, aEng e 0xC] ∧
        { t with regs := s.regs, engs := s.engs, sites := s.sites } = s.toDev)

/-- LIMIT sets LF where the register lies outside its entry, a NaN being outside, and with FAILSTEP marks the
open step; BIN holds a bin; VOIDH sets the handler and its enable. -/
def Obligations.LimitBinAndVoidhHold : Prop :=
  ∀ (e : Fin 272) (f : Fetch) (s : State) (x : Ins) (i : Nat) (out : Bool),
    x = s.insAt e → s.siteOf e = some i → s.pc e < 32767 →
    out = !(f32Le (s.limit (x.im 13 0)).1 (s.reg e x.a) && f32Le (s.reg e x.a) (s.limit (x.im 13 0)).2) →
    (∀ c : Ecc, c ≠ .uncorrectable → s.RunsClean e f 0x51 → x.a < 46 →
      ∃ t : Dev, exec (.limit e f c) s = .next { s with toDev := t } ∧ s.Retires t e ∧ t.flag e 8 = out ∧
        (∀ n, n < 32 → n ≠ 8 → t.flag e n = s.flag e n) ∧ s.Cards t [aEng e 4, aEng e 0xC] ∧
        (t.site i).step = (s.site i).step.map
          (fun p => { p with limFail := p.limFail || (out && x.flag 0) }) ∧
        (∀ j, j ≠ i → t.site j = s.site j) ∧
        { t with regs := s.regs, engs := s.engs, sites := s.sites } = s.toDev) ∧
    (s.RunsClean e f 0x52 →
      ∃ t : Dev, exec (.bin e f) s = .next { s with toDev := t } ∧ s.Retires t e ∧ s.Cards t [aEng e 4] ∧
        t.site i = { s.site i with bin := some (x.im 7 0) } ∧ (∀ j, j ≠ i → t.site j = s.site j) ∧
        { t with regs := s.regs, engs := s.engs, sites := s.sites } = s.toDev) ∧
    (s.RunsClean e f 0x54 →
      ∃ t : Dev, exec (.voidh e f) s = .next { s with toDev := t } ∧ s.Retires t e ∧
        t.fld (aEng e 0x18) 14 0 = x.im 14 0 ∧ t.bit (aEng e 0x18) 31 = x.flag 0 ∧
        t.fld (aSiteCfg i + 8) 14 0 = x.im 14 0 ∧ t.bit (aSiteCfg i + 8) 15 = x.flag 0 ∧
        t.fld (aSiteCfg i + 8) 31 16 = s.fld (aSiteCfg i + 8) 31 16 ∧
        s.Cards t [aEng e 4, aEng e 0x18, aSiteCfg i + 8] ∧ s.RegFrame t)

/-- LOGF with a step open counts one more fail, up to the counter's top, and leaves one candidate entry of the
pin with the observed and expected codes it names; with none open it only retires. -/
def Obligations.LogfCountsAndLogs : Prop :=
  ∀ (e : Fin 272) (f : Fetch) (s : State) (x : Ins) (i : Nat),
    x = s.insAt e → s.siteOf e = some i → s.pc e < 32767 → s.RunsClean e f 0x53 → x.b < s.npin i →
    ((s.site i).step = none →
      ∃ t : Dev, exec (.logf e f) s = .next { s with toDev := t } ∧ s.Retires t e ∧ s.Cards t [aEng e 4] ∧ s.RegFrame t) ∧
    (∀ p, (s.site i).step = some p → s.led.logs = 0 → s.led.offers = [] →
      ∃ t : Dev, exec (.logf e f) s = .next { s with toDev := t } ∧ s.Retires t e ∧
        ∃ r c, (t.site i).step = some r ∧ r.logs = p.logs ++ [c] ∧ r.id = p.id ∧
          r.fails.toNat = min (p.fails.toNat + 1) (2 ^ 32 - 1) ∧
          c.tpin = x.b ∧ c.expc = x.fl % 8 ∧ c.obs = x.im 1 0 ∧ c.voff = 0xFFFFF ∧ c.frame = s.pframe i ∧
          (∀ j, j ≠ i → t.site j = s.site j) ∧ s.Cards t [aEng e 4, 0x800 + 4 * (i / 32)] ∧
          { t with regs := s.regs, engs := s.engs, sites := s.sites } = s.toDev)

/-- EMIT stages the firing of its line. WAITE arms its line: without Y the engine waits, with Y it yields and
keeps the frames it may still wait; the instruction has not retired. -/
def Obligations.EmitAndWaiteUseLines : Prop :=
  ∀ (e : Fin 272) (f : Fetch) (s : State) (x : Ins) (i : Nat) (l : Line),
    x = s.insAt e → s.siteOf e = some i → s.pc e < 32767 →
    ((x.flag 0 = false ∧ l = .global x.a) ∨
      (x.flag 0 = true ∧ x.b < s.npin i ∧ ∃ p, s.pin? i x.b = some p ∧ l = .loc (p / 4) (x.a % 16))) →
    (s.RunsClean e f 0x60 → (s.eng e).staged < 16 →
      ∃ t : Dev, exec (.emit e f) s = .next { s with toDev := t } ∧ s.Stages t e (.emit l) ∧ s.StageFrame t) ∧
    (s.RunsClean e f 0x61 → (s.eng e).uchunk = 0 →
      ∃ t : Dev, exec (.waite e f) s = .next { s with toDev := t } ∧
        (t.eng e).wait = some l ∧ (t.eng e).waitY = x.flag 1 ∧ (t.eng e).arrived = false ∧
        (t.eng e).phase = (if x.flag 1 then .yielded 1 else .waiting) ∧
        (x.flag 1 = true → (t.eng e).wrem.toNat = x.im 23 0) ∧ t.executing e = false ∧
        (∀ k, k ≠ e.val → t.eng k = s.eng k) ∧ { t with engs := s.engs } = s.toDev)

/-- An opcode R85 does not list, a field that must be 0 and is not, and a register that cannot be written raise
ILL_OP against the engine's site with no effect of the instruction's own; one that retires past instruction 32,767
raises it after its effect. -/
def Obligations.IllegalInstructionsRaiseIllOp : Prop :=
  ∀ (e : Fin 272) (f : Fetch) (s : State),
    let Ill := fun (c : Instr) => ∃ t : Dev, exec c s = .next { s with toDev := t } ∧ t.sticky srcIllOp = true ∧
      t.executing e = false ∧ t.pc e = s.pc e ∧ t.stage.eng = s.stage.eng
    let alu : List (Instr × Nat) := [(.add e f, 0x11), (.sub e f, 0x12), (.and e f, 0x13), (.or e f, 0x14),
      (.xor e f, 0x15), (.shl e f, 0x16), (.shr e f, 0x17)]
    (∀ o, s.Runs e f o → formatOf o = none → Ill (.undefinedOpcode e f)) ∧
    (∀ (c : Instr) (o : Nat), (c, o) ∈ alu ++ [(.br e f, 0x01), (.brc e f, 0x02), (.call e f, 0x03), (.ret e f, 0x04),
        (.loop e f, 0x05), (.yield e f, 0x07), (.movi e f, 0x10), (.cmp e f, 0x18), (.fcmp e f, 0x19),
        (.segjmp e f, 0x23), (.voidh e f, 0x54)] →
      s.Runs e f o → (s.insAt e).mbz = true → Ill c) ∧
    (∀ (k : Ecc) (c : Instr) (o i : Nat), (c, o) ∈ [(Instr.halt e f, 0x06), (.tpoint e f, 0x08), (.play e f, 0x20), (.join e f, 0x21),
        (.detach e f, 0x22), (.dwell e f, 0x24), (.level e f, 0x30), (.tset e f, 0x31), (.force e f, 0x32), (.gang e f, 0x33),
        (.meas e f, 0x34), (.getm e f, 0x35), (.acqarm e f, 0x40), (.tdcopen e f, 0x41), (.winset e f, 0x42), (.step e f, 0x50),
        (.limit e f k, 0x51), (.bin e f, 0x52), (.logf e f, 0x53), (.emit e f, 0x60), (.waite e f, 0x61)] →
      s.Runs e f o → s.siteOf e = some i → (s.eng e).uchunk = 0 → (s.insAt e).mbz = true → Ill c) ∧
    (∀ (c : Instr) (o : Nat), (c, o) ∈ alu → s.RunsClean e f o → 37 ≤ (s.insAt e).a → Ill c) ∧
    (∀ (c : Instr) (o : Nat), (c, o) ∈ alu → s.RunsClean e f o → (s.insAt e).a < 37 →
      ((s.insAt e).flag 0 = true ∨ (s.insAt e).b < 46) → s.pc e = 32767 →
      ∃ t : Dev, exec c s = .next { s with toDev := t } ∧ t.sticky srcIllOp = true ∧ t.executing e = false ∧ t.pc e = 0)

/-! ### Reset, supplies and boot (R53, R373-R378, R400, R418) -/

/-- RESET_N_LOW, a supply's reset threshold, POWER_ON and POWER_LOSS lead to RESET: every card at its reset
value but the record of the cause, every engine, site, player, quad, queue and register memory as after reset,
and NVR kept where no NV word was being written. Nothing is reset by RESET_N or a supply without power. -/
def Obligations.ResetCausesReset : Prop :=
  ∀ s : State,
    let Cleared := fun (t : Dev) (cause : Nat) =>
      t.sys.mode = .reset ∧ t.rd 0x900 = wn cause ∧ (∀ a, a ≠ 0x900 → t.rd a = resetWord a) ∧
      (∀ a, (∀ o, locOf a ≠ .nvr o) → t.byte a = memByte a) ∧
      (s.nvUnderWay = none → ∀ a o, locOf a = .nvr o → t.byte a = s.byte a) ∧
      (∀ e, t.eng e = engOff) ∧ (∀ i, t.site i = siteInit) ∧ (∀ y, t.ply y = plyInit) ∧ (∀ q, t.quad q = quadInit) ∧
      t.stage.host = [] ∧ t.stage.eng = [] ∧ t.host.ntfy = [] ∧ t.sys.req = none ∧ t.clk = Dev.reset.clk ∧
      t.pwr.on = [] ∧ t.sys.boot = .off
    (s.sys.unpowered = false → ∃ t : Dev, exec .resetNLow s = .next { s with toDev := t } ∧
      Cleared t (if s.sys.mode = .reset then min 1 (s.rd 0x900).toNat else 1) ∧ t.sys.resetLow = true ∧
      t.jtag = s.jtag ∧ t.tdo = s.tdo ∧ t.flt.level = s.flt.level) ∧
    (∀ r, s.sys.unpowered = false → hasThreshold r = true →
      ∃ t : Dev, exec (.supplyReset r) s = .next { s with toDev := t } ∧
        Cleared t (if s.sys.mode = .reset then min 2 (s.rd 0x900).toNat else 2) ∧
        t.jtag = s.jtag ∧ t.tdo = s.tdo ∧ t.flt.level = s.flt.level) ∧
    (∃ t : Dev, exec .powerOn s = .next { s with toDev := t } ∧ Cleared t 0 ∧ t.sys.unpowered = false ∧
      t.jtag = .idcode ∧ t.tdo = 0 ∧ t.flt.level = false) ∧
    (∃ t : Dev, exec .powerLoss s = .next { s with toDev := t } ∧ Cleared t 0 ∧ t.sys.unpowered = true ∧
      t.jtag = .idcode ∧ t.flt.level = false) ∧
    (∀ r, s.sys.unpowered = true → exec .resetNLow s = .next s ∧ exec (.supplyReset r) s = .next s)

/-- BOOT_START ends RESET: BOOT begins with the self-test, the straps are sampled, every cluster and bank group
waits for power, and a TAP instruction that drives balls falls back to BYPASS. Elsewhere it has no effect. -/
def Obligations.BootStartSamplesStraps : Prop :=
  ∀ (s : State) (devid : BitVec 5) (master recov : Bool),
    (s.sys.mode = .reset → s.sys.unpowered = false →
      ∃ t : Dev, exec (.bootStart devid master recov) s = .next { s with toDev := t } ∧
        t.sys.mode = .boot ∧ t.sys.boot = .selfTest ∧ t.sys.devid = devid ∧ t.sys.master = master ∧
        t.sys.recov = recov ∧ t.sys.resetLow = false ∧ (∀ n, 144 ≤ n → n < 176 → t.domAsked n = true) ∧
        (∀ n, (n < 144 ∨ 176 ≤ n) → t.domAsked n = s.domAsked n) ∧
        t.jtag = (if s.jtag.drives then .bypass else s.jtag) ∧
        t.regs = s.regs ∧ t.mem = s.mem ∧ t.engs = s.engs ∧ t.clk = s.clk ∧ t.flt = s.flt) ∧
    ((s.sys.mode ≠ .reset ∨ s.sys.unpowered = true) → exec (.bootStart devid master recov) s = .next s)

/-- SELF_TEST_END during the self-test leaves the cistern zero. Without a fatal error training is next: bias and every
lane that has not failed are asked for; a bad cluster goes off and raises its fault. Where no NV word was read with an
error, the boot and the cause of its reset are counted and each NV set's slot in force is judged; where no cluster is
bad and no tick is under way, the mode is RECOVERY for a bad ROM or the RECOVERY strap in BOOT, and is kept otherwise. A fatal error raises its
SAFE fault and boot stays where it is. At another stage of boot nothing happens. -/
def Obligations.SelfTestEndsInTraining : Prop :=
  ∀ (s : State) (u : SelfTest),
    let up := fun (v : W) => if v = 0xFFFFFFFF then v else v + 1
    let rec_ := (u.romBad || s.sys.recov) && decide (s.sys.mode = .boot)
    (s.sys.boot = .selfTest → u.fatal = none →
      ∃ t : Dev, exec (.selfTestEnd u) s = .next { s with toDev := t } ∧ t.sys.boot = .training ∧
        (∀ o, o < 2 ^ 27 → t.byte (aCis o) = 0) ∧ (∀ d, d < 4 → t.domAsked (192 + d) = true) ∧
        (∀ j, j < 16 → (t.lane j).st ≠ .failed → t.domAsked (176 + j) = true) ∧
        (∀ k, k ∈ u.badClusters → t.sticky 36 = true ∧ t.domAsked (144 + k.val) = false) ∧
        t.clk = s.clk ∧ t.jtag = s.jtag ∧ t.tdo = s.tdo ∧
        t.sys.devid = s.sys.devid ∧ t.sys.master = s.sys.master ∧ t.sys.recov = s.sys.recov ∧
        (u.nv = [] →
          t.nvWord 0x450 = up (s.nvWord 0x450) ∧
          t.nvWord (0x440 + 4 * s.fld 0x900 1 0) = up (s.nvWord (0x440 + 4 * s.fld 0x900 1 0)) ∧
          t.nvWord 0x454 = (if rec_ then up (s.nvWord 0x454) else s.nvWord 0x454) ∧
          (∀ n, n < 147 → t.nvForce n = s.judge [] n)) ∧
        (u.badClusters = [] → s.flt.joined = [] → t.sys.mode = (if rec_ then .recovery else s.sys.mode)) ∧
        (u.badClusters = [] → u.nv = [] → s.flt.joined = [] →
          { t with sys := s.sys, regs := s.regs, mem := s.mem, engs := s.engs, quads := s.quads, lanes := s.lanes,
                   cis := s.cis, pwr := s.pwr, nv := s.nv, ucs := s.ucs, flt := s.flt } = s.toDev)) ∧
    (∀ x, s.sys.boot = .selfTest → u.fatal = some x → s.sys.mode ≠ .reset →
      ∃ t : Dev, exec (.selfTestEnd u) s = .next { s with toDev := t } ∧ t.sys.mode = .safe ∧
        Dev.Raised (s.clearMem (aCis 0) (aCis (2 ^ 27))) t (match x with | .aon => 354 | .fabric => 353) ∧
        t.sys.boot = .selfTest ∧ (∀ o, o < 2 ^ 27 → t.byte (aCis o) = 0)) ∧
    (s.sys.boot ≠ .selfTest → exec (.selfTestEnd u) s = .next s)

/-- LINK_UP after the training ends BOOT in IDLE, leaves RECOVERY and SAFE as they are, shows the boot time and
starts ALIVE outside SAFE; before the training it has no effect. -/
def Obligations.LinkUpEndsBoot : Prop :=
  ∀ (s : State) (us : W),
    (s.sys.boot = .training →
      ∃ t : Dev, exec (.linkUp us) s = .next { s with toDev := t } ∧ t.sys.boot = .done ∧
        t.sys.mode = (if s.sys.mode = .boot then .idle else s.sys.mode) ∧
        (t.flt.running = true ↔ s.sys.mode ≠ .safe) ∧ t.sys.mspi = true ∧ t.rd 0x914 = us ∧ s.Cards t [0x914] ∧
        { t with regs := s.regs, sys := s.sys, flt := s.flt } = s.toDev) ∧
    (s.sys.boot ≠ .training → exec (.linkUp us) s = .next s)

/-- RAIL_WARN, VCH_FAULT and VDPS_LOW note their rail and show LIVE; the source raises unless its condition was
present, and then nothing else changes. In a clean class RAIL_WARN voids every site with a step open, VDPS_LOW those
with a pin of function DPS; VCH_FAULT leads to SAFE. RAIL_IN_RANGE ends the rail's condition, LIVE ends with the last
rail of its source, and STICKY stays. RAIL_WARN of VCHP or VCHN, which have a fault of their own, and every rail in
RESET have no effect. -/
def Obligations.RailsRaiseWhileOutOfRange : Prop :=
  ∀ s : State,
    let Warns := fun (c : Instr) (f : Nat) (y : Sys) => ∃ t : Dev, exec c s = .next { s with toDev := t } ∧
      t.bit (aSrc f) 31 = true ∧ t.sys.warned = y.warned ∧ t.sys.vchBad = y.vchBad ∧ t.sys.vdpsLow = y.vdpsLow ∧
      (s.bit (aSrc f) 31 = true → { t with sys := s.sys } = s.toDev ∧ t.sys = y) ∧
      (s.bit (aSrc f) 31 = false → s.Raised t f ∧ (f = 34 → t.sys.mode = .safe) ∧
        (s.Clean 1 → f = 32 → s.Voids t 4 s.deviceAim) ∧ (s.Clean 1 → f = 33 → s.Voids t 4 s.dpsAim))
    (s.sys.mode ≠ .reset →
      (∀ r, r ≠ .vchp → r ≠ .vchn →
        Warns (.railWarn r) 32 { s.sys with warned := r :: s.sys.warned.filter (· ≠ r) }) ∧
      (∀ n, Warns (.vchFault n) 34 { s.sys with vchBad := n :: s.sys.vchBad.filter (· ≠ n) }) ∧
      (∀ d, Warns (.vdpsLow d) 33 { s.sys with vdpsLow := d :: s.sys.vdpsLow.filter (· ≠ d) }) ∧
      (∀ r, ∃ t : Dev, exec (.railInRange r) s = .next { s with toDev := t } ∧
        t.sys = { s.sys with
          warned := s.sys.warned.filter (· ≠ r)
          vchBad := s.sys.vchBad.filter (fun n => decide (r ≠ if n then .vchn else .vchp))
          vdpsLow := s.sys.vdpsLow.filter (fun d => decide (r ≠ .vdps d)) } ∧
        t.bit (aSrc 32) 31 = (s.bit (aSrc 32) 31 && !t.sys.warned.isEmpty) ∧
        t.bit (aSrc 34) 31 = (s.bit (aSrc 34) 31 && !t.sys.vchBad.isEmpty) ∧
        t.bit (aSrc 33) 31 = (s.bit (aSrc 33) 31 && !t.sys.vdpsLow.isEmpty) ∧
        (∀ f, t.sticky f = s.sticky f) ∧ s.Cards t [aSrc 32, aSrc 33, aSrc 34] ∧
        { t with sys := s.sys, regs := s.regs } = s.toDev)) ∧
    ((s.sys.mode = .reset → ∀ r n d, exec (.railWarn r) s = .next s ∧ exec (.vchFault n) s = .next s ∧
        exec (.vdpsLow d) s = .next s ∧ exec (.railInRange r) s = .next s) ∧
      (∀ r, r = .vchp ∨ r = .vchn → exec (.railWarn r) s = .next s))

/-- Faults that are SAFE by their level lead to SAFE from every mode but RESET, and end the mode request that stood:
FABRIC_ERR, AON_FAIL, FW_ASSERT, a missed check-in, and SCLK_UNLOCK of a locked SCLK outside holdover. A check-in toggles
ALIVE while it runs; every interval opens MSPI. None of them acts in RESET. -/
def Obligations.SafeLevelFaultsEnterSafe : Prop :=
  ∀ s : State,
    (s.sys.mode ≠ .reset →
      (∀ c f, (c, f) ∈ [(Instr.fabricErr, 353), (.aonFail, 354), (.fwAssert, 355), (.aliveInterval false, 352)] →
        ∃ t : Dev, exec c s = .next { s with toDev := t } ∧ t.sys.mode = .safe ∧
          (s.sys.mode ≠ .safe → t.sys.req = none) ∧ s.Raised t f ∧ (c = .aliveInterval false → t.sys.mspi = true)) ∧
      (s.clk.locked = true → s.clk.holdover = false →
        ∃ t : Dev, exec .sclkUnlock s = .next { s with toDev := t } ∧ t.sys.mode = .safe ∧
          (s.sys.mode ≠ .safe → t.sys.req = none) ∧
          Dev.Raised { s.toDev with clk := { s.clk with locked := false } } t 4) ∧
      (∃ t : Dev, exec (.aliveInterval true) s = .next { s with toDev := t } ∧ t.sys = { s.sys with mspi := true } ∧
        t.flt = (if s.flt.running then { s.flt with level := !s.flt.level, toggles := min (s.flt.toggles + 1) 65535 }
                 else s.flt) ∧
        { t with flt := s.flt, sys := s.sys } = s.toDev)) ∧
    ((s.clk.locked = false ∨ s.clk.holdover = true) → exec .sclkUnlock s = .next s) ∧
    (s.sys.mode = .reset → ∀ c, c ∈ [Instr.fabricErr, .aonFail, .fwAssert, .sclkUnlock, .aliveInterval false, .aliveInterval true] →
      exec c s = .next s)

/-! ### Clock and card tick (R20, R21, R41-R48, R265, R266) -/

/-- SCLK_LOCK locks an unlocked SCLK; it ends holdover where a relock finds REFCLK present and REF_LOSS acknowledged.
REF_LOSS shows LIVE and its count; outside holdover it begins holdover, notes its frame and, in a clean class whose
source was not LIVE, voids every site with a step open with cause 8. REF_PRESENT ends the condition and not the
holdover. None of them acts in RESET. -/
def Obligations.ReferenceLossBeginsHoldover : Prop :=
  ∀ s : State,
    (s.sys.mode ≠ .reset →
      (s.clk.locked = false → exec .sclkLock s = .next { s with clk := { s.clk with
        locked := true, relock := false, ref := s.clk.ref || !s.clk.holdover
        holdover := s.clk.holdover && !(s.clk.relock && s.clk.ref && !s.sticky 0) } }) ∧
      (∃ t : Dev, exec .refLoss s = .next { s with toDev := t } ∧ t.bit (aSrc 0) 31 = true ∧ t.bit (aFrm 0xA0) 31 = true ∧
        t.fld (aFrm 0xA0) 15 8 = min (s.fld (aFrm 0xA0) 15 8 + 1) 255 ∧
        (s.clk.holdover = true → t.clk = { s.clk with ref := false } ∧ (∀ f, t.sticky f = s.sticky f) ∧
          s.Cards t [aFrm 0xA0, aSrc 0] ∧ { t with clk := s.clk, regs := s.regs } = s.toDev) ∧
        (s.clk.holdover = false → t.clk = { s.clk with ref := false, holdover := true, heldOver := true } ∧
          t.rdFrame (aFrm 0xA4) (aFrm 0xA8) = s.clk.frame % 2 ^ 48 ∧
          (s.bit (aSrc 0) 31 = true → (∀ f, t.sticky f = s.sticky f) ∧
            s.Cards t [aFrm 0xA0, aFrm 0xA4, aFrm 0xA8] ∧ { t with clk := s.clk, regs := s.regs } = s.toDev) ∧
          (s.bit (aSrc 0) 31 = false → t.sticky 0 = true ∧
            (s.Clean 0 → s.Voids t 8 s.deviceAim ∧ s.Cards t [aFrm 0xA0, aFrm 0xA4, aFrm 0xA8, aSrc 0, aCls 0] ∧
              { t with clk := s.clk, regs := s.regs, sites := s.sites, engs := s.engs, flt := s.flt } = s.toDev)))) ∧
      (∃ t : Dev, exec .refPresent s = .next { s with toDev := t } ∧ t.clk = { s.clk with ref := true } ∧
        t.bit (aSrc 0) 31 = false ∧ (∀ f, t.sticky f = s.sticky f) ∧ s.Cards t [aSrc 0] ∧
        { t with clk := s.clk, regs := s.regs } = s.toDev)) ∧
    (s.clk.locked = true → exec .sclkLock s = .next s) ∧
    (s.sys.mode = .reset → exec .sclkLock s = .next s ∧ exec .refLoss s = .next s ∧ exec .refPresent s = .next s)

/-- FSYNC_EDGE on a slave. The first edge captured sets the tick, or while relocking leaves a tick within one SCLK
alone and shows STEPPED where it moves it. Four good edges more lock. A locked slave takes an edge within one SCLK, and
loses lock with one further off: SYNC_SLIP, with the sites with a step open voided, cause 64, in a clean class. FSYNC_MISS
begins the count of good edges again; locked it raises FSYNC_MISS, and the fourth in a row FSYNC_LOST too. An edge with a
mark acts as EPOCH_MARK after it, which arms the mark where an epoch is armed. The master, and RESET, ignore edges. -/
def Obligations.SlaveLocksToTheCardTick : Prop :=
  ∀ (s : State) (off : Int),
    let lost : Clk := { s.clk with slocked := false, captured := false, again := true, good := 0, miss := 0, synced := false }
    ((s.sys.mode = .reset ∨ s.sys.master = true) →
      (∀ m, exec (.fsyncEdge off m) s = .next s) ∧ exec .fsyncMiss s = .next s) ∧
    (s.sys.mode ≠ .reset → s.sys.master = false →
      (∃ t : Dev, exec (.fsyncEdge off false) s = .next { s with toDev := t } ∧
        exec (.fsyncEdge off true) s = exec .epochMark { s with toDev := t } ∧
        ((s.clk.captured = false ∨ (s.clk.slocked = false ∧ 1 < off.natAbs)) →
          t.clk = { s.clk with
            captured := true, good := 0
            moved := if (s.clk.again = true ∧ off.natAbs ≤ 1) ∨ (s.clk.again = false ∧ off = 0) then s.clk.moved
                     else some off } ∧
          t.bit (aFrm 0x10) 11 = (s.bit (aFrm 0x10) 11 || (s.clk.again && decide (1 < off.natAbs))) ∧
          s.Cards t [aFrm 0x10] ∧ { t with clk := s.clk, regs := s.regs } = s.toDev) ∧
        (s.clk.captured = true → off.natAbs ≤ 1 → { t with clk := s.clk } = s.toDev ∧
          t.clk = (if s.clk.slocked then { s.clk with miss := 0 } else
            { s.clk with good := s.clk.good + 1, slocked := decide (4 ≤ s.clk.good + 1), miss := 0
                         again := s.clk.again && decide (s.clk.good + 1 < 4) })) ∧
        (s.clk.captured = true → s.clk.slocked = true → 1 < off.natAbs →
          t.clk = lost ∧ t.sticky 3 = true ∧ t.bit (aFrm 0x10) 5 = true ∧
          (s.Clean 0 → s.Voids t 64 s.deviceAim ∧ s.Cards t [aFrm 0x10, aSrc 3, aCls 0] ∧
            { t with clk := s.clk, regs := s.regs, sites := s.sites, engs := s.engs, flt := s.flt } = s.toDev))) ∧
      (s.clk.slocked = false → exec .fsyncMiss s = .next { s with clk := { s.clk with good := 0 } }) ∧
      (s.clk.slocked = true →
        ∃ t : Dev, exec .fsyncMiss s = .next { s with toDev := t } ∧ t.sticky 1 = true ∧ t.bit (aFrm 0x10) 4 = true ∧
          (s.clk.miss < 3 → t.clk = { s.clk with miss := s.clk.miss + 1 }) ∧
          (3 ≤ s.clk.miss → t.clk = lost ∧ t.sticky 2 = true ∧
            (s.Clean 0 → (s.srcEn 1 = true ∨ s.lvlOf 1 = 0) → s.Voids t 64 s.deviceAim)))) ∧
    (s.bit (aFrm 0x10) 9 = true → exec .epochMark s = .next { s with clk := { s.clk with mark := true } }) ∧
    (s.bit (aFrm 0x10) 9 = false → exec .epochMark s = .next s)

/-! ### Domains, sensors, quads and supplies (R65, R183-R200, R269-R273, R308-R327) -/

/-- A domain that is on and comes good: a quad waits for the tick that makes it PARKED, a lane that was OFF begins its
first training attempt, the cistern bytes of a bank group are 0, a bias domain asks for its quads in boot; the last bank
group that a PWR_GROUPS waits for completes it. A domain that is off or already good changes nothing. -/
def Obligations.DomainsComeGood : Prop :=
  ∀ (s : State) (d : Domain), s.host.waiting = [] →
    (s.domOn (domNum d) = true → s.domGood (domNum d) = false →
      ∃ t : Dev, exec (.domainGood d) s = .next { s with toDev := t } ∧ t.domGood (domNum d) = true ∧
        (∀ m, m ≠ domNum d → t.domGood m = s.domGood m) ∧ t.pwr.on = s.pwr.on ∧ t.sys.mode = s.sys.mode ∧
        t.regs = s.regs ∧ t.engs = s.engs ∧
        (∀ q, d = .quad q → t.quads = (s.onQuad q (fun z => { z with powering := some 0 })).quads ∧
          { t with pwr := s.pwr, quads := s.quads } = s.toDev) ∧
        (∀ j, d = .lane j → (s.lane j).st = .off →
          (t.lane j).st = .train ∧ (t.lane j).attempt = 1 ∧ (t.lane j).total = min 255 ((s.lane j).total + 1) ∧
          (∀ k, k ≠ j.val → t.lane k = s.lane k) ∧ { t with pwr := s.pwr, lanes := s.lanes } = s.toDev) ∧
        (∀ j, d = .lane j → (s.lane j).st ≠ .off → { t with pwr := s.pwr } = s.toDev) ∧
        (∀ k, d = .cluster k → { t with pwr := s.pwr } = s.toDev) ∧
        (∀ g, d = .group g → (∀ o, o < 2 ^ 27 → s.bankOf o / 4 = g → t.byte (aCis o) = 0) ∧
          (∀ a, (∀ o, locOf a = .cis o → s.bankOf o / 4 ≠ g) → t.byte a = s.byte a) ∧
          (s.pwr.job = none → { t with pwr := s.pwr, mem := s.mem } = s.toDev) ∧
          (∀ j, s.pwr.job = some j → s.pwr.asked = [] → (∀ h, h < s.pwr.groups → h ≠ g.val → s.domGood (160 + h) = true) →
            t.pwr.job = none ∧ s.AnswersCmd t j 0 0 [])) ∧
        (∀ b, d = .bias b → s.sys.boot = .training →
          ∀ q, 36 * b.val ≤ q → q < 36 * b.val + 36 → (s.quad q).st ≠ .retired → t.domAsked q = true) ∧
        (∀ b, d = .bias b → { t with pwr := s.pwr } = s.toDev)) ∧
    ((s.domOn (domNum d) = false ∨ s.domGood (domNum d) = true) → exec (.domainGood d) s = .next s)

/-- DOMAIN_TIMEOUT of a domain that is on and not good, and DOMAIN_FAIL of a bank group, lane or bias domain that is,
raise the fault of their kind: SAFE for a bank group and a bias domain; in a clean class the sites of a cluster are
voided, a quad waits to be retired and a lane is FAILED. DOMAIN_FAIL also ends the domain's GOOD. Otherwise neither has an
effect. -/
def Obligations.DomainFaultsRaise : Prop :=
  ∀ (s : State) (d : Domain),
    let f := match d with | .quad _ => 35 | .cluster _ => 36 | .group _ => 37 | .lane _ => 38 | .bias _ => 39
    let Safe := match d with | .group _ | .bias _ => True | _ => False
    let Fails := fun (u t : Dev) => u.Raised t f ∧ (Safe → u.sys.mode ≠ .reset → t.sys.mode = .safe) ∧
      (s.Clean 1 → (∀ k, d = .cluster k → u.Voids t 4 (u.clusterAim k)) ∧
        (∀ q, d = .quad q → t.sys.mode = u.sys.mode ∧ (t.quad q).retire = true) ∧
        (∀ j, d = .lane j → t.sys.mode = u.sys.mode ∧ (t.lane j).st = .failed ∧ (t.lane j).failed = true))
    (s.domOn (domNum d) = true → s.domGood (domNum d) = false →
      ∃ t : Dev, exec (.domainTimeout d) s = .next { s with toDev := t } ∧ Fails s.toDev t) ∧
    ((s.domOn (domNum d) = false ∨ s.domGood (domNum d) = true) → exec (.domainTimeout d) s = .next s) ∧
    (s.domGood (domNum d) = true → 160 ≤ domNum d →
      ∃ t : Dev, exec (.domainFail d) s = .next { s with toDev := t } ∧
        Fails { s.toDev with pwr := { s.pwr with good := rmv (domNum d) s.pwr.good } } t ∧ t.domGood (domNum d) = false) ∧
    ((s.domGood (domNum d) = false ∨ domNum d < 160) → exec (.domainFail d) s = .next s)

/-- CH_HW, QUAD_HW and ENG_HW raise the fault of the circuits, quads and engines that fail in one ECLK; in a clean class
it stays at DEGRADE and each unit waits for its repair. An engine that is OFF or RETIRED raises none. SLC_PAR makes the
route register's KIND read 0 and raises; in a clean class it voids every site with a step open. TBUS_STUCK is noted
unless this device drives the line. -/
def Obligations.UnitFailuresRaise : Prop :=
  ∀ s : State,
    let Raises := fun (c : Instr) (u : Dev) (fs : List (Nat × Bool)) (P : Dev → Prop) =>
      ∃ t : Dev, exec c s = .next { s with toDev := t } ∧ u.FaultFrame t ∧
        (∀ g, u.sticky g = true → t.sticky g = true) ∧ (∀ x, x ∈ fs → x.2 = true → t.sticky x.1 = true) ∧ P t
    (∀ (cs : List (Fin 720)) (qs : List (Fin 144)),
      Raises (.chHw ⟨cs, qs⟩) s.toDev [(224, !cs.isEmpty), (229, !qs.isEmpty)] (fun t => s.Clean 7 →
        t.sys.mode = s.sys.mode ∧ (∀ c, c ∈ cs → c.val % 5 ∈ (t.quad (c.val / 5)).faults) ∧
        (∀ q, q ∈ qs → (t.quad q).retire = true))) ∧
    (∀ qs : List (Fin 144), Raises (.quadHw qs) s.toDev [(229, !qs.isEmpty)] (fun t => s.Clean 7 →
        t.sys.mode = s.sys.mode ∧ ∀ q, q ∈ qs → (t.quad q).retire = true)) ∧
    (∀ es : List (Fin 272),
      let hit := fun (e : Fin 272) => (s.eng e).st ≠ .off ∧ (s.eng e).st ≠ .retired
      Raises (.engHw es) s.toDev [] (fun t => (∀ e, e ∈ es → hit e → t.sticky 170 = true) ∧ (s.Clean 5 →
        t.sys.mode = s.sys.mode ∧ ∀ e, e ∈ es → hit e → (t.eng e).repair = true)) ∧
      ((∀ e, e ∈ es → ¬hit e) → exec (.engHw es) s = .next s)) ∧
    (∀ (q : Option (Fin 144)) (n : BitVec 8),
      let a := match q with | some k => aQuad k (0xE00 + 8 * (n.toNat % 16)) | none => aSlc (16 * n.toNat)
      Raises (.slcPar q n) (s.setFld a 19 16 0) [(321, true)] (fun t => t.fld a 19 16 = 0 ∧
        (s.Clean 10 → s.Voids t 4 s.deviceAim))) ∧
    (∀ n : Fin 4, (s.tbusLine n).pulse = none →
      Raises (.tbusStuck n) s.toDev [(320, true)] (fun t => t.sys.mode = s.sys.mode ∧
        { t with regs := s.regs, flt := s.flt } = s.toDev)) ∧
    (∀ n : Fin 4, (s.tbusLine n).pulse ≠ none → exec (.tbusStuck n) s = .next s)

/-- A reading of a sensor counts. A clean one of a working sensor is its value; one that meets a criterion leaves the
value of the last clean one, until a criterion that the last four met judges the sensor broken, raises SENSOR_BROKEN and
gives it a substitute; sixteen clean readings in a row mend it. Readings on one side of the state collect, one on the
other begins again, and the fourth moves the state to the nearest that the four indicate. A sensor that is off, and any
sensor in RESET, is not read. -/
def Obligations.SensorsFollowTheirReadings : Prop :=
  ∀ (s : State) (n : Fin 72) (r : SensorIn),
    let x := s.sensor n
    let c := s.criteria n r
    (s.sys.mode ≠ .reset → s.sensorOn n = true →
      ∃ t : Dev, exec (.sensorReading n r) s = .next { s with toDev := t } ∧
        (t.sensor n).reads = min (x.reads + 1) 65535 ∧ (∀ m, m ≠ n.val → t.sensor m = s.sensor m) ∧ t.clk = s.clk ∧
        ((t.sensor n).st = x.st → (t.sensor n).broken = x.broken →
          s.Cards t [aSrc 67] ∧ { t with regs := s.regs, pwr := s.pwr } = s.toDev) ∧
        (x.broken = false → c ≠ [] → heldFour ((c :: x.run).take 4) = false →
          (t.sensor n).value = x.good ∧ (t.sensor n).good = x.good ∧ (t.sensor n).broken = false) ∧
        (x.broken = false → heldFour ((c :: x.run).take 4) = true →
          (t.sensor n).broken = true ∧ (t.sensor n).why = c.headD 0 ∧ (t.sensor n).value = (s.substitute n).1 ∧
          t.sticky 67 = true ∧ t.bit (aSrc 67) 31 = true) ∧
        (x.broken = true → (c ≠ [] ∨ x.clean < 15) →
          (t.sensor n).broken = true ∧ (t.sensor n).value = (s.substitute n).1) ∧
        (x.broken = true → c = [] → 15 ≤ x.clean →
          (t.sensor n).broken = false ∧ (t.sensor n).value = r.temp ∧ (t.sensor n).good = r.temp) ∧
        (x.broken = false → c = [] →
          let k := s.indicates (zoneOf n) x.st r.temp
          let side := fun (m : Nat) => if x.st < k then x.st < m else m < x.st
          (t.sensor n).value = r.temp ∧ (t.sensor n).good = r.temp ∧ (t.sensor n).broken = false ∧
          (k = x.st → (t.sensor n).st = x.st ∧ (t.sensor n).ind = []) ∧
          (k ≠ x.st → (∀ m, m ∈ x.ind → side m) → x.ind.length < 3 → (t.sensor n).st = x.st ∧ (t.sensor n).ind = k :: x.ind) ∧
          (k ≠ x.st → (∃ m, m ∈ x.ind ∧ ¬side m) → (t.sensor n).st = x.st ∧ (t.sensor n).ind = [k]) ∧
          (k ≠ x.st → (∀ m, m ∈ x.ind → side m) → 3 ≤ x.ind.length → (t.sensor n).ind = [] ∧
            (t.sensor n).st = if x.st < k then (k :: x.ind).foldl min 3 else (k :: x.ind).foldl max 0))) ∧
    ((s.sys.mode = .reset ∨ s.sensorOn n = false) → exec (.sensorReading n r) s = .next s)

/-- The DPS power sum reads the exact sum of the enabled outputs rounded once, or quiet NaN where a sample is one, and
flags at the fourth in a row above its limit. A sample outside its window alarms in STRESS at the monitor's ticks
(whose phase is the model's choice, log 22), in a clean class against the channel's site. A supply that limits trips where
TRIP_T is not 0: every output of its gang goes off with its bleeder and FUNC Off. Limiting and clamping set their bits. -/
def Obligations.SupplyMonitorsReport : Prop :=
  ∀ s : State,
    let monitors := decide (s.sys.mode = .stress) && s.bit 0x114 0 && decide (s.clk.frame % 2 ^ max 4 (min 24 (s.fld 0x114 12 8)) = 0)
    (∀ (xs : List DpsSample) (w : Option Int), sumWatts (xs.filter (fun x => (s.circ x.chan).dpsOn)) = w →
      let v := match w with | some n => f32OfScaled n (2 ^ 149) | none => qNaN
      ∃ t : Dev, exec (.dpsPowerSum xs) s = .next { s with toDev := t } ∧ t.rd (aPwr 0x84) = v ∧
        t.pwr.overN = (if f32Lt (s.rd (aPwr 0x88)) v then min 4 (s.pwr.overN + 1) else 0) ∧
        (4 ≤ t.pwr.overN → t.bit (aPwr 0x80) 30 = true) ∧
        (t.pwr.overN < 4 → t.rd (aPwr 0x80) = s.rd (aPwr 0x80)) ∧
        { t with regs := s.regs, pwr := { t.pwr with overN := s.pwr.overN } } = s.toDev) ∧
    (∀ (xs : List DpsSample) (x : DpsSample), monitors = true → x ∈ xs → (s.circ x.chan).dpsOn = true → s.inAlarm x = false →
      ∃ t : Dev, exec (.dpsMonitor xs) s = .next { s with toDev := t } ∧ s.Raised t 227 ∧
        (s.Clean 7 → t.sys.mode = s.sys.mode ∧ ∀ i, i ∈ s.circAim x.chan →
          (t.site i).voids = some ((s.site i).voids.getD 0 ||| 4))) ∧
    (∀ xs : List DpsSample, (monitors = false ∨ ∀ x ∈ xs, (s.circ x.chan).dpsOn = true → s.inAlarm x = true) →
      exec (.dpsMonitor xs) s = .next s) ∧
    (∀ (c : Fin 720) (p : Nat) (l : List Nat), s.mayTrip c = true → s.pinsOfCirc c = p :: l →
      ∃ t : Dev, exec (.dpsTrip c) s = .next { s with toDev := t } ∧
        (∀ r, r ∈ s.gangPins p → (t.circ (s.circOf r)).dpsOn = false ∧ (t.circ (s.circOf r)).bleed = true ∧
          t.func r = 0 ∧ t.range r = s.range r ∧ t.bit (aCh (s.circOf r) 4) 7 = true) ∧
        t.sticky 226 = true ∧ t.clk = s.clk ∧ (s.Clean 7 → s.Voids t 4 (s.circAim c))) ∧
    (∀ c : Fin 720, s.mayTrip c = false → exec (.dpsTrip c) s = .next s) ∧
    (∀ (c : Fin 720) (b : Bool), (s.circ c).dpsOn = true →
      ∃ t : Dev, exec (.currentLimit c b) s = .next { s with toDev := t } ∧ t.circ c = { s.circ c with limit := b } ∧
        (∀ k, k ≠ c.val → t.circ k = s.circ k) ∧ (b = true → t.bit (aCh c 4) 8 = true ∧ s.Cards t [aCh c 4]) ∧
        (b = false → t.regs = s.regs) ∧ { t with circs := s.circs, regs := s.regs } = s.toDev) ∧
    (∀ (c : Fin 720) (b : Bool), (s.circ c).dpsOn = false → exec (.currentLimit c b) s = .next s) ∧
    (∀ (c : Fin 720) (p : Nat), s.pinsOfCirc c = [p] → (s.funcNow p = 1 ∨ s.funcNow p = 2) →
      ∃ t : Dev, exec (.pmuClamp c) s = .next { s with toDev := t } ∧ t.rd (aCh c 4) = s.rd (aCh c 4) ||| 0x200 ∧
        s.Cards t [aCh c 4] ∧ { t with regs := s.regs } = s.toDev) ∧
    (∀ c : Fin 720, (∀ p, p ∈ s.pinsOfCirc c → s.funcNow p ≠ 1 ∧ s.funcNow p ≠ 2) → exec (.pmuClamp c) s = .next s)

/-- A warmed request changes its quad and reads DONE with its TAG. A substitution's path closes one tick after it began;
at its end the circuit that takes over is in service in an ACTIVE quad, with the other's count of samples and a weir that
reads UNKNOWN, and SUBST_LO and SUBST_HI name the tick. A wake asks for ACTIVE, sets WOKE and notifies. -/
def Obligations.QuadsChangeStateAndServe : Prop :=
  ∀ (s : State) (q : Fin 144),
    (∀ z tag n, (s.quad q).warm = some (z, tag, n) → tag < 256 →
      ∃ t : Dev, exec (.quadWarmDone q) s = .next { s with toDev := t } ∧ (t.quad q).st = z ∧ (t.quad q).warm = none ∧
        t.bit (aQuad q 4) 30 = true ∧ t.fld (aQuad q 4) 23 16 = tag ∧
        ((s.quad q).st ≠ .active → (∀ k, k ≠ q.val → t.quad k = s.quad k) ∧ t.sys = s.sys ∧ t.engs = s.engs ∧
          t.sites = s.sites ∧ t.mem = s.mem ∧ t.flt = s.flt)) ∧
    ((s.quad q).warm = none → exec (.quadWarmDone q) s = .next s) ∧
    (∀ x, (s.quad q).seq = some x →
      ∃ t : Dev, exec (.substPathClose q) s = .next { s with toDev := t } ∧
        t.quad q = { s.quad q with seq := some { x with tick := max x.tick 1 } } ∧ (∀ k, k ≠ q.val → t.quad k = s.quad k) ∧
        { t with quads := s.quads } = s.toDev) ∧
    (∀ x, (s.quad q).seq = some x → x.c < 4 →
      let p := 4 * q.val + x.c
      let old := if x.restore then 5 * q.val + 4 else 5 * q.val + x.c
      let new := if x.restore then 5 * q.val + x.c else 5 * q.val + 4
      (x.restore = false → (s.quad q).subst = some x.c) →
      ∃ t : Dev, exec (.substInService q) s = .next { s with toDev := t } ∧ t.circOf p = new ∧
        t.quad q = (if x.restore then { s.quad q with spare := if (s.quad q).sfail then .failed else .watch, subst := none, seq := none }
                    else { s.quad q with spare := .subst, seq := none }) ∧
        (∀ k, k ≠ q.val → t.quad k = s.quad k) ∧ (t.chain new).n = (s.chain old).n ∧ t.weir new = weirInit ∧
        (t.circ new).gang = (s.circ old).gang ∧ t.rdFrame (aQuad q 0x10) (aQuad q 0x14) = s.clk.frame % 2 ^ 48 ∧
        t.engs = s.engs ∧ t.sites = s.sites ∧ t.mem = s.mem ∧ t.clk = s.clk ∧
        ((s.quad q).st = .active → (t.circ new).st = .inService ∧ (t.circ old).st ≠ .inService)) ∧
    ((s.quad q).seq = none → exec (.substPathClose q) s = .next s ∧ exec (.substInService q) s = .next s) ∧
    ((s.quad q).wakeReq = true → (s.quad q).st = .parked → (s.quad q).warm = none → s.sys.mode.permits .active = true →
      s.host.ntfy.length < 256 →
      ∃ t : Dev, exec (.wake q) s = .next { s with toDev := t } ∧
        t.quad q = { s.quad q with wakeReq := false, wakeRun := 0, wakeUnset := false, warm := some (.active, 0, s.warmTicks) } ∧
        t.bit (aQuad q 0x24) 31 = true ∧ ((s.quad q).wakeUnset = true → t.bit (aQuad q 0x24) 29 = true) ∧
        (∃ n, n.type_ = 5 ∧ n.arg = q.val ∧ n.frame = s.clk.frame ∧ t.host.ntfy = s.host.ntfy ++ [n]) ∧
        (∀ k, k ≠ q.val → t.quad k = s.quad k) ∧ t.engs = s.engs ∧ t.sites = s.sites ∧ t.mem = s.mem ∧ t.sys = s.sys) ∧
    ((s.quad q).wakeReq = true → (s.quad q).st ≠ .parked →
      ∃ t : Dev, exec (.wake q) s = .next { s with toDev := t } ∧
        t.quad q = { s.quad q with wakeReq := false, wakeRun := 0, wakeUnset := false } ∧
        (∀ k, k ≠ q.val → t.quad k = s.quad k) ∧ { t with quads := s.quads } = s.toDev) ∧
    ((s.quad q).wakeReq = false → exec (.wake q) s = .next s)

/-- A powered weir on its pin judges its level against its band: ENTER or EXIT is latched and counted as it enters or
leaves, but for its first evaluation. It holds its state while its DACs settle, and judges afresh once they have; in mode
S it samples in its own frames only. One that is not powered, or not on its pin, does not judge. -/
def Obligations.WeirsJudgeTheirPins : Prop :=
  ∀ (s : State) (ch : Fin 720) (x : Instant) (level : Int),
    let sees := s.weirPowered ch && s.weirServes ch
    let p := s.cfgPin ch
    let old := (s.weir ch).st
    let st := weirNext old (s.fld (aPin p 0x64) 11 0) (s.fld (aPin p 0x64) 27 16) (s.fld (aPin p 0x60) 7 4) level
    let Judged := fun (t : Dev) =>
      t.weir ch = { st := st, unsettled := decide (old = .unknown), settling := false } ∧
      (∀ k, k ≠ ch.val → t.weir k = s.weir k) ∧ t.clk = s.clk ∧ t.mem = s.mem ∧ t.sys = s.sys ∧ t.sites = s.sites ∧
      (old ≠ .unknown → (old = .inside ↔ st ≠ .inside) →
        t.bit (aCh ch 0x68) (if st = .inside then 30 else 29) = true ∧
        t.fld (aCh ch 0x68) 15 0 = min (s.fld (aCh ch 0x68) 15 0 + 1) 65535) ∧
      ((old = .unknown ∨ (old = .inside ↔ st = .inside)) → t.rd (aCh ch 0x68) = s.rd (aCh ch 0x68))
    (sees = true →
      (s.weirMode ch ≤ 3 → (s.weir ch).settling = false →
        ∃ t : Dev, exec (.weirChange ch x level) s = .next { s with toDev := t } ∧ Judged t) ∧
      (s.weirMode ch ≤ 3 →
        ∃ t : Dev, exec (.weirSettled ch x level) s = .next { s with toDev := t } ∧ Judged t) ∧
      (s.weirSamples ch = true → (s.weir ch).settling = false →
        ∃ t : Dev, exec (.weirSample ch x level) s = .next { s with toDev := t } ∧ Judged t)) ∧
    ((sees = false ∨ (s.weir ch).settling = true ∨ 3 < s.weirMode ch) → exec (.weirChange ch x level) s = .next s) ∧
    (s.weirSamples ch = false → exec (.weirSample ch x level) s = .next s) ∧
    ((sees = false ∨ (s.weir ch).settling = true) → s.weirSamples ch = true →
      ∃ t : Dev, exec (.weirSample ch x level) s = .next { s with toDev := t } ∧ t.weirs = s.weirs ∧
        s.Cards t [aQuad (ch.val / 5) 0x24] ∧ { t with quads := s.quads, regs := s.regs } = s.toDev) ∧
    ((sees = false ∨ 3 < s.weirMode ch) →
      exec (.weirSettled ch x level) s = .next { s with toDev := s.onWeir ch (fun w => { w with settling := false }) })

/-! ### Sluice, chains, TDCs, players and cistern (R141-R172, R185, R195-R214, R221-R264, R276-R284) -/

/-- A comparator crossing, and an asserting edge of a bus line, are captured on every line they source whose gate is
open. A bus line asserts where it falls after 2 ECLK high; its event carries the tag of the device's own pulse while that
lasts, else the line's. In SAFE and RESET nothing is captured; a bus line still falls. -/
def Obligations.EventsAreCaptured : Prop :=
  ∀ (s : State) (pos : Pos),
    let x := s.edgeAt pos.toNat
    let on := s.sys.mode ≠ .safe ∧ s.sys.mode ≠ .reset
    let Fires := fun (t : Dev) (p : Prod) (tag : Nat) => ∀ l, l ∈ s.linesOf p → s.gateOpen l x = true →
      ∃ f ∈ t.slc.flights, f.line = l ∧ f.edge = x ∧ f.tag ≤ tag
    (∀ (c : Fin 720) (k : Fin 4), ∃ t : Dev, exec (.comparatorCrossing c k pos) s = .next { s with toDev := t } ∧
      (on → Fires t { kind := 1, sub := k, index := c } 288) ∧
      ((¬on ∨ s.linesOf { kind := 1, sub := k, index := c } = []) → t = s.toDev) ∧
      t.slc.tbus = s.slc.tbus ∧ { t with slc := s.slc, regs := s.regs } = s.toDev) ∧
    (∀ n : Fin 4, (s.tbusLine n).low = false →
      let short := ∃ r, (s.tbusLine n).rose = some r ∧ 2 * s.clk.eclk + pos.toNat < r + 4
      ∃ t : Dev, exec (.tbusEdge n pos) s = .next { s with toDev := t } ∧ t.tbusLine n = { s.tbusLine n with low := true } ∧
        (∀ m, m ≠ n.val → t.tbusLine m = s.tbusLine m) ∧ { t with slc := s.slc, regs := s.regs } = s.toDev ∧
        ((short ∨ ¬on) → t.regs = s.regs ∧ t.slc.flights = s.slc.flights) ∧
        (¬short → on →
          ((s.tbusLine n).pulse = none → Fires t { kind := 9, sub := 0, index := n } (293 + n.val)) ∧
          (∀ e w tag b, (s.tbusLine n).pulse = some (e, w, tag, b) →
            Fires t { kind := 9, sub := 0, index := n } (if e ≤ x ∧ x < e + w then tag else 293 + n.val)))) ∧
    (∀ n : Fin 4, (s.tbusLine n).low = true → exec (.tbusEdge n pos) s = .next s)

/-- A captured event, with none before it and none to come, is delivered two ECLK after its edge: one that reaches only
an engine's WAITE ends it with TO clear. With none captured or to come nothing happens. TBUS_PULSE_END ends the device's
own pulse, TBUS_RELEASE is the line's rise and its instant. -/
def Obligations.DeliveriesEndWaits : Prop :=
  ∀ s : State,
    (∀ (f : Flight) (e : Fin 272), s.slc.flights = [f] → s.slc.coming = [] → f.dest = [.wait e] → f.tag ≠ e.val →
      f.by_ ≠ .eng e → (s.eng e).st = .running → (s.eng e).phase = .waiting → (s.eng e).mid = false →
      (∀ c, (s.eng e).u = some c → c.sh = []) → (s.eng e).waitY = false →
      (s.eng e).wait = some f.line → (s.eng e).arrived = false → s.pc e < 32767 →
      (∀ n, f.line = .global n → s.linesOf { kind := 11, sub := 0, index := n } = []) →
      (∀ q n, f.line = .loc q n → s.linesOf { kind := 10, sub := n, index := q } = []) →
      ∃ t : Dev, exec .sluiceDelivery s = .next { s with toDev := t } ∧ t.slc.flights = [] ∧
        t.slc.gates.get (fun _ => 0) (lineKey f.line) = f.edge + 3 ∧ t.pc e = s.pc e + 1 ∧ t.flag e 7 = false ∧
        t.eng e = { (s.eng e).retired with wait := none, phase := .exec } ∧ (∀ k, k ≠ e.val → t.eng k = s.eng k) ∧
        s.Cards t [aEng e 4, aEng e 0xC] ∧ { t with slc := s.slc, engs := s.engs, regs := s.regs } = s.toDev) ∧
    (s.slc.flights = [] → s.slc.coming = [] → exec .sluiceDelivery s = .next s) ∧
    (∀ n : Fin 4,
      (∃ t : Dev, exec (.tbusPulseEnd n) s = .next { s with toDev := t } ∧
        t.tbusLine n = { s.tbusLine n with pulse := none } ∧ (∀ m, m ≠ n.val → t.tbusLine m = s.tbusLine m) ∧
        { t with slc := { t.slc with tbus := s.slc.tbus } } = s.toDev) ∧
      (∀ pos : Pos, ∃ t : Dev, exec (.tbusRelease ⟨n, pos⟩) s = .next { s with toDev := t } ∧
        t.tbusLine n = { s.tbusLine n with low := false, rose := some (2 * s.clk.eclk + pos.toNat) } ∧
        (∀ m, m ≠ n.val → t.tbusLine m = s.tbusLine m) ∧ { t with slc := { t.slc with tbus := s.slc.tbus } } = s.toDev))

/-- A sample counts and integrates on its chain: its code, the end code of its sign with CLIP, or the last one before a
MEAS took the ADC, with TAKEN. Every R-th gives an output. A capture whose last record is written reads DONE. A
synchronising pin edge schedules its reset two ticks on, with NEAR within 16 SCLK of a tick, and is ignored in a mode
without sense ADCs. -/
def Obligations.SamplesEnterTheChains : Prop :=
  ∀ s : State,
    (∀ (c : Fin 720) (pos : Pos) (code : BitVec 16) (clip : Bool), s.sys.mode.enables 7 = true →
      let taken := s.taking c pos.toNat
      let v : Int := if taken then (s.chain c).held else if clip then (if code.toInt < 0 then -32768 else 32767) else code.toInt
      ∃ t : Dev, exec (.adcSample c pos code clip) s = .next { s with toDev := t } ∧
        (t.chain c).n = (s.chain c).n + 1 ∧ (t.chain c).held = v ∧
        (t.chain c).integ = integrate (BitVec.ofInt 56 v) (s.chain c).integ ∧
        (∀ k, k ≠ c.val → t.chain k = s.chain k) ∧
        (clip = true → taken = false → t.bit (aCh c 0x114) 30 = true) ∧ (taken = true → t.bit (aCh c 0x114) 29 = true) ∧
        (((s.chain c).n + 1) % s.decim c = 0 → (t.chain c).j = (s.chain c).j + 1) ∧
        (((s.chain c).n + 1) % s.decim c ≠ 0 → (t.chain c).j = (s.chain c).j ∧ (t.chain c).outF = (s.chain c).outF ∧
          { t with chains := s.chains, regs := s.regs, circs := s.circs } = s.toDev) ∧
        t.clk = s.clk ∧ t.sys = s.sys ∧ t.engs = s.engs ∧ t.sites = s.sites) ∧
    (∀ (c : Fin 720) (pos : Pos) (code : BitVec 16) (clip : Bool), s.sys.mode.enables 7 = false →
      exec (.adcSample c pos code clip) s = .next s) ∧
    (∀ (q : Fin 144) (pos : Pos), (s.acq q).st = .post → (s.acq q).left = 0 →
      ∃ t : Dev, exec (.acqDone q pos) s = .next { s with toDev := t } ∧ t.acq q = { s.acq q with st := .done } ∧
        t.bit (aQuad q 0x104) 27 = true ∧ (∀ k, k ≠ q.val → t.acq k = s.acq k) ∧
        { t with acqs := s.acqs, regs := s.regs, slc := s.slc } = s.toDev) ∧
    (∀ (q : Fin 144) (pos : Pos), ((s.acq q).st ≠ .post ∨ (s.acq q).left ≠ 0) → exec (.acqDone q pos) s = .next s) ∧
    (∀ pos : Pos, s.bit (aFrm 0x80) 0 = true → s.sys.mode.enables 7 = true →
      ∃ t : Dev, exec (.dsyncPinEdge pos) s = .next { s with toDev := t } ∧
        t.clk = { s.clk with resets := s.clk.resets ++ [(frameMod (s.clk.frame + 2), 1)] } ∧
        t.fld (aFrm 0x8C) 25 24 = 1 ∧ t.fld (aFrm 0x8C) 19 0 = pos.toNat ∧
        (pos.toNat ≤ 16 ∨ s.flen - pos.toNat ≤ 16 → t.bit (aFrm 0x8C) 31 = true) ∧ s.Cards t [aFrm 0x8C] ∧
        { t with clk := s.clk, regs := s.regs } = s.toDev) ∧
    (∀ pos : Pos, s.bit (aFrm 0x80) 0 = true → s.sys.mode.enables 7 = false →
      exec (.dsyncPinEdge pos) s = .next { s with toDev := s.setBits (aFrm 0x8C) 0x40000000 }) ∧
    (∀ pos : Pos, s.bit (aFrm 0x80) 0 = false → exec (.dsyncPinEdge pos) s = .next s)

/-- Interval mode of a TDC: a counted start edge begins an attempt; a stop in its window is accepted with its offset,
and the last of COUNT closes with their mean in seconds; a stop before an unsigned window is discarded and counted; a
window that passes is MISSED. Counted edges closer than 1.25 ns close with FAST, and NOSIG closes, both with quiet NaN;
MAXT closes with what completed. Edges of the own drive are those that are scheduled; weirs and the sluice bring sources
4 to 6 themselves. -/
def Obligations.TdcsMeasureIntervals : Prop :=
  ∀ (s : State) (c : Fin 720),
    let d := s.tdc c
    let Rest := fun (t : Dev) => (∀ k, k ≠ c.val → t.tdc k = s.tdc k) ∧
      { t with tdcs := s.tdcs, regs := s.regs, slc := s.slc, freeIx := s.freeIx } = s.toDev
    let Closes := fun (t : Dev) (st : TdcState) (at_ : Int) (v : W) (n m : Nat) => (t.tdc c).st = st ∧
      ∃ p : TdcPend, (t.tdc c).pend = d.pend ++ [p] ∧ p.value = v ∧ p.close = at_ ∧ p.slot = d.slotOut ∧ p.done = n ∧ p.missed = m
    (∀ (src : Fin 8) (pos : Pos) (lsb : Nat) (a : Int), d.mode = 0 →
      (src.val ≤ 3 ∧ a = s.tdcTime d pos.toNat lsb) ∨ (src.val = 7 ∧ s.ownEdge c pos.toNat = some a) →
      (d.st = .waitStart → (d.prof.headD 0).fld 31 29 = src.val →
        ∃ t : Dev, exec (.tdcEdge c src pos lsb) s = .next { s with toDev := t } ∧ Rest t ∧ (t.tdc c).edges = d.edges + 1 ∧
          (d.edges % 2 ^ d.pre ≠ 0 → (t.tdc c).st = .waitStart ∧ (t.tdc c).pend = d.pend) ∧
          (d.edges % 2 ^ d.pre = 0 → s.tooFast d a = true →
            t.bit (aCh c 0x12C) 29 = true ∧ Closes t .closed a qNaN d.done d.missed) ∧
          (d.edges % 2 ^ d.pre = 0 → s.tooFast d a = false → (d.signed = false ∨ d.stop = none) →
            (t.tdc c).st = .waitStop ∧ (t.tdc c).start = some a ∧ (t.tdc c).prev = some a ∧ (t.tdc c).done = d.done ∧
            (t.tdc c).pend = d.pend)) ∧
      (∀ b, d.st = .waitStop → (d.prof.headD 0).fld 28 26 = src.val → d.start = some b → a - b ≤ d.winHi * 32768 →
        ∃ t : Dev, exec (.tdcEdge c src pos lsb) s = .next { s with toDev := t } ∧ Rest t ∧
          (a - b < d.winLo * 32768 → d.signed = false → (t.tdc c).st = .waitStop ∧ (t.tdc c).pend = d.pend ∧
            t.fld (aCh c 0x12C) 15 0 = min (s.fld (aCh c 0x12C) 15 0 + 1) 65535) ∧
          (d.winLo * 32768 ≤ a - b → (s.mult : Int) ≤ a - b →
            (t.tdc c).done = d.done + 1 ∧ (t.tdc c).sum = d.sum + (a - b) ∧
            (d.done + 1 + d.missed < d.count1 → (t.tdc c).st = .waitStart ∧ (t.tdc c).start = none ∧ (t.tdc c).pend = d.pend) ∧
            (d.count1 ≤ d.done + 1 + d.missed →
              Closes t .done (max a b) (f32OfRatio (d.sum + (a - b)) ((d.done + 1) * s.unitHz)) (d.done + 1) d.missed)))) ∧
    (∀ (src : Fin 8) (pos : Pos) (lsb : Nat),
      (src.val = 4 ∨ src.val = 5 ∨ src.val = 6 ∨ d.running = false ∨ (src.val = 7 ∧ s.ownEdge c pos.toNat = none)) →
      exec (.tdcEdge c src pos lsb) s = .next s) ∧
    (∀ b, d.st = .waitStop → d.start = some b →
      ∃ t : Dev, exec (.tdcWindowClose c) s = .next { s with toDev := t } ∧ Rest t ∧ (t.tdc c).missed = d.missed + 1 ∧
        t.bit (aCh c 0x12C) 31 = true ∧
        (d.done + d.missed + 1 < d.count1 →
          (t.tdc c).st = .waitStart ∧ (t.tdc c).start = none ∧ (t.tdc c).pend = d.pend) ∧
        (d.count1 ≤ d.done + d.missed + 1 →
          Closes t .done (b + d.winHi * 32768) (s.tdcValue d) d.done (d.missed + 1))) ∧
    ((d.st ≠ .waitStop ∨ d.start = none) → exec (.tdcWindowClose c) s = .next s) ∧
    (∀ pos : Pos, d.running = true → d.mode = 2 →
      ∃ t : Dev, exec (.tdcNosig c pos) s = .next { s with toDev := t } ∧ Rest t ∧ t.bit (aCh c 0x12C) 30 = true ∧
        Closes t .closed (s.tdcTime d pos.toNat 0) qNaN d.done d.missed) ∧
    (∀ pos : Pos, (d.running = false ∨ d.mode ≠ 2) → exec (.tdcNosig c pos) s = .next s) ∧
    (d.running = true → d.maxt ≠ 0 →
      ∃ t : Dev, exec (.tdcMaxt c) s = .next { s with toDev := t } ∧ Rest t ∧
        Closes t .closed (d.base * 32768) (s.tdcValue d) d.done d.missed) ∧
    ((d.running = false ∨ d.maxt = 0) → exec (.tdcMaxt c) s = .next s)

/-- A conversion ends with its reading; an overload gives the infinity of its sign with OVL, a resistance whose fit is
refused quiet NaN with MEAS_ILL and one below -55 or above 200 an infinity with OVL, and kind 3 the mean of the chain.
One that has ended, or was never begun, is left alone. -/
def Obligations.ConversionsEndWithTheirReading : Prop :=
  ∀ (s : State) (c : Fin 720) (r : Reading),
    (∀ m : Meas, (s.circ c).meas = some m → m.value = none →
      let Ends := fun (v : W) (l : List Nat) =>
        ∃ t : Dev, exec (.measConversionEnd c r) s = .next { s with toDev := t } ∧
          t.circ c = { s.circ c with meas := some { m with value := some v } } ∧ (∀ k, k ≠ c.val → t.circ k = s.circ k) ∧
          (∀ b ∈ l, t.bit (aCh c 4) b = true) ∧ (l = [] → t.regs = s.regs) ∧ s.Cards t [aCh c 4] ∧
          { t with circs := s.circs, regs := s.regs } = s.toDev
      (m.kind = 3 → Ends (s.chainMean c) []) ∧
      (∀ neg, m.kind ≠ 3 → r.ovl = some neg → Ends (if neg then 0xFF800000 else 0x7F800000) [6]) ∧
      (m.kind ≠ 2 → m.kind ≠ 3 → r.ovl = none → Ends r.value []) ∧
      (m.kind = 2 → r.ovl = none → r.fit = false → Ends qNaN [5]) ∧
      (m.kind = 2 → r.ovl = none → r.fit = true →
        (f32Lt r.value 0xC25C0000 = true → Ends 0xFF800000 [6]) ∧
        (f32Lt r.value 0xC25C0000 = false → f32Lt 0x43480000 r.value = true → Ends 0x7F800000 [6]) ∧
        (f32Lt r.value 0xC25C0000 = false → f32Lt 0x43480000 r.value = false → Ends r.value []))) ∧
    ((∀ m : Meas, (s.circ c).meas = some m → m.value ≠ none) → exec (.measConversionEnd c r) s = .next s)

/-- A compare, once no frame's LOGFs wait and no fail of an earlier SCLK, is judged at its strobe: a fail, at any instant of
a window, counts for the step whose window has begun and waits to be offered; a pass, and a vector of an under-run's tail,
change nothing more; a result with no step is an orphan; a spare that watches the pin and disagrees is counted. A drain
offers the fail that waits, kept while its step's quota and the queue last and dropped where the queue is full, and passes
one entry of every queue; a bad entry raises. -/
def Obligations.StrobesJudgeCompares : Prop :=
  ∀ s : State, s.led.logs = 0 →
    (∀ (i : Fin 256) (n : BitVec 7) (pos : Pos) (h l : Trace) (m : Cmp) (r : List Cmp),
      s.led.offers = [] → takeCmp i.val n.toNat s.cmps = some (m, r) →
      let b := m.observed h.first l.first (h.later.zip l.later)
      let fails := !cmpPass m.code b.1 b.2 && m.count
      (∀ c p, fails = true → (s.site i).credit = some (c, p) →
        ∃ t : Dev, exec (.compareStrobe i n pos h l h.first l.first) s = .next { s with toDev := t } ∧ t.cmps = r ∧
          t.site i = (s.site i).putCredit c { p with fails := if p.fails = 0xFFFFFFFF then p.fails else p.fails + 1 } ∧
          t.led = { s.led with
            offers := [{ site := i.val, begun := m.begun, serial := p.serial, cand := cmpCand m b.1 b.2 }]
            offAt := 2 * s.clk.eclk + pos.toNat } ∧
          (∀ k, k ≠ i.val → t.site k = s.site k) ∧ s.Cards t [0x800 + 4 * (i.val / 32)] ∧
          { t with cmps := s.cmps, sites := s.sites, led := s.led, regs := s.regs } = s.toDev) ∧
      (∀ x, fails = false → (s.site i).credit = some x →
        exec (.compareStrobe i n pos h l h.first l.first) s = .next { s with cmps := r }) ∧
      ((s.site i).credit = none →
        ∃ t : Dev, exec (.compareStrobe i n pos h l h.first l.first) s = .next { s with toDev := t } ∧ t.cmps = r ∧
          t.rd 0x314 = (if s.rd 0x314 = 0xFFFFFFFF then s.rd 0x314 else s.rd 0x314 + 1) ∧ s.Cards t [0x314] ∧
          { t with cmps := s.cmps, regs := s.regs } = s.toDev) ∧
      (∀ p sh sl, s.pin? i n.toNat = some p → (h.first ≠ sh ∨ l.first ≠ sl) → (s.quad (p / 4)).st = .active →
        (s.quad (p / 4)).spare = .watch → s.fld (aQuad (p / 4) 8) 1 0 = p % 4 →
        ∃ t : Dev, exec (.compareStrobe i n pos h l sh sl) s = .next { s with toDev := t } ∧ t.cmps = r ∧
          (t.quad (p / 4)).mm = (s.quad (p / 4)).mm + 1 ∧ (∀ k, k ≠ p / 4 → t.quad k = s.quad k))) ∧
    (∀ (i : Fin 256) (n : BitVec 7) (pos : Pos) (h l : Trace) (a b : Bool), s.led.offers = [] →
      takeCmp i.val n.toNat s.cmps = none → exec (.compareStrobe i n pos h l a b) s = .next s) ∧
    (∀ bad, s.led.offers = [] →
      ∃ t : Dev, exec (.failQueueDrain bad) s = .next { s with toDev := t } ∧ (∀ k, t.occ k = s.occ k - 1) ∧
        (bad ≠ [] → Dev.Raised { s.toDev with led := t.led } t 134) ∧ (bad = [] → { t with led := s.led } = s.toDev)) ∧
    (∀ (o : Offer) (p : Step), s.led.offers = [o] → (s.site o.site).ended = none → (s.site o.site).step = some p →
      p.serial = o.serial → 0 < p.quota →
      ∃ t : Dev, exec (.failQueueDrain []) s = .next { s with toDev := t } ∧ t.led.offers = [] ∧
        (∀ k, k ≠ o.site → t.site k = s.site k) ∧ { t with sites := s.sites, led := s.led, regs := s.regs } = s.toDev ∧
        (s.occ (s.queueOf o.site) < 256 → t.occ (s.queueOf o.site) = s.occ (s.queueOf o.site) ∧ t.regs = s.regs ∧
          (t.site o.site).step = some { p with quota := p.quota - 1, kept := p.kept ++ [o.cand] }) ∧
        (256 ≤ s.occ (s.queueOf o.site) → s.Cards t [0x310] ∧
          (t.site o.site).step = some { p with quota := p.quota - 1, drops := if p.drops = 0xFFFFFFFF then p.drops else p.drops + 1 }))

/-- A stream record at FILL goes to its ring slot and advances FILL; a halted ring counts it, and a record outside
the window or for a ring that is off counts as discarded; in SAFE none is placed or counted (the model's choice, log 15). -/
def Obligations.RecordsFillTheirRing : Prop :=
  ∀ (s : State) (l : Fin 4) (r : Record),
    let y := r.player.val
    let Taken := fun (t : Dev) => (t.link l).rx = ((s.link l).rx + 1 + (r.data.length + 63) / 64) % 4096 ∧
      (∀ k, k ≠ y → t.ply k = s.ply k) ∧ t.sites = s.sites ∧ t.clk = s.clk
    (s.sys.mode = .safe → ∃ t : Dev, exec (.streamRecord l r) s = .next { s with toDev := t } ∧ Taken t ∧ t.ply y = s.ply y ∧
      t.mem = s.mem ∧ t.regs = s.regs) ∧
    (s.sys.mode ≠ .safe → (s.ply y).ring = .filling ∨ (s.ply y).ring = .run → r.seq.toNat = (s.ply y).fill → (s.ply y).ahead = [] →
      (s.ply y).level < s.ringSlots y →
      ∃ t : Dev, exec (.streamRecord l r) s = .next { s with toDev := t } ∧ Taken t ∧
        (t.ply y).fill = ((s.ply y).fill + 1) % 2 ^ 24 ∧ (t.ply y).ahead = [] ∧ (t.ply y).drain = (s.ply y).drain ∧
        (t.ply y).tags.get (fun _ => (0, 0)) (r.seq.toNat % s.ringSlots y) = (r.seg.toNat, r.blk.toNat) ∧
        (∀ k, k < min r.data.length (s.slotBytes y) → t.byte (aCis (s.slotAt y r.seq.toNat + k)) = r.data.getD k 0) ∧
        (∀ a, a < aCis (s.slotAt y r.seq.toNat) ∨
            aCis (s.slotAt y r.seq.toNat) + min r.data.length (s.slotBytes y) ≤ a → t.byte a = s.byte a) ∧
        t.regs = s.regs) ∧
    (s.sys.mode ≠ .safe → (s.ply y).ring = .halted →
      ∃ t : Dev, exec (.streamRecord l r) s = .next { s with toDev := t } ∧ Taken t ∧ t.ply y = s.ply y ∧ t.mem = s.mem ∧
        t.fld (aPly y 0x34) 15 0 = min (s.fld (aPly y 0x34) 15 0 + 1) 65535 ∧ s.Cards t [aPly y 0x34]) ∧
    (s.sys.mode ≠ .safe → (s.ply y).ring = .off ∨ ((s.ply y).ring ≠ .halted ∧ s.ringSlots y - (s.ply y).level ≤ dist24 r.seq.toNat (s.ply y).fill) →
      ∃ t : Dev, exec (.streamRecord l r) s = .next { s with toDev := t } ∧ Taken t ∧ t.ply y = s.ply y ∧ t.mem = s.mem ∧
        t.fld (aPly y 0x34) 31 16 = min (s.fld (aPly y 0x34) 31 16 + 1) 65535 ∧ s.Cards t [aPly y 0x34])

/-- A vector of a resident segment reaches every pin of the player's mask, KEEP leaving the pin's state; a driver in
service gets its format's events from E0 and E1, a compare its strobe from E2. One fetched with a double-bit error
leaves every pin of the mask in dwell and raises CIS_ECC2. A unit whose vectors are over goes on to its next pass, to the
next segment, or to dwell, and to dwell under a pause. -/
def Obligations.VectorsPlayAndUnitsFollow : Prop :=
  ∀ (s : State) (y : Fin 16) (pos : Pos) (u : Machine.PUnit), (s.ply y).cur = some u → (s.ply y).st = .playing →
    (s.ply y).tail = false →
    (u.begun < u.seg.len → u.seg.strm = false → u.seg.mmask = 0 → (∀ g, (s.ply y).next = some g → g.strm = false) →
      s.cis.poison = [] → (s.mask y).Nodup →
      let was := fun (i p : Nat) => (s.site i).last.get (fun _ => 8) (s.tpinOf p)
      let got := fun (i p : Nat) => resolveCode (s.rowCode (s.rowAt y u u.begun) (s.tpinOf p)) (was i p)
      (∀ c w, c ≠ .uncorrectable →
        ∃ t : Dev, exec (.vectorStart y pos ⟨c, w⟩) s = .next { s with toDev := t } ∧
          (∀ i, i ∈ s.mask y → ∀ p, p ∈ s.pins i → s.tpinOf p < u.seg.width →
            (t.site i).last.get (fun _ => 8) (s.tpinOf p) = got i p) ∧
          (c = .corrected → t.sticky 128 = true) ∧
          (c = .clean → t.ply y = { s.ply y with cur := some { u with begun := u.begun + 1 } } ∧
            (∀ k, k ≠ y.val → t.ply k = s.ply k) ∧ (∀ i, i ∉ s.mask y → t.site i = s.site i) ∧
            { t with plys := s.plys, sites := s.sites, cmps := s.cmps, circs := s.circs } = s.toDev ∧
            (∀ i, i ∈ s.mask y → ∀ p, p ∈ s.pins i → s.pin? i (s.tpinOf p) = some p → s.tpinOf p < u.seg.width →
              (s.circ (s.circOf p)).st = .inService → got i p ≤ 6 →
              let z := s.instant pos.toNat + s.deskew p
              (s.pmuDrives p = false → t.circ (s.circOf p) = Circ.play (s.instant pos.toNat)
                (if was i p = 8 then some ((s.site i).dwellDrive (s.tpinOf p)) else none)
                (driveEvents (s.fld (aPin p 0) 1 0) (got i p) z (z + u.edge p 0) (z + u.edge p 1)) (s.circ (s.circOf p))) ∧
              (3 ≤ got i p → got i p ≤ 5 → ∃ m ∈ t.cmps, m.site = i ∧ m.tpin = s.tpinOf p ∧ m.code = got i p ∧
                m.voff = u.begun ∧ m.count = true ∧ m.opens = z + u.edge p 2)))) ∧
      (∀ w, ∃ t : Dev, exec (.vectorStart y pos ⟨.uncorrectable, w⟩) s = .next { s with toDev := t } ∧
        (∀ i, i ∈ s.mask y → (t.site i).last = []) ∧ t.sticky 129 = true ∧ t.sticky 130 = true ∧
        t.bit (aPly y 4) 26 = true ∧ t.bit (aCisReg 0x24) 31 = true)) ∧
    (u.seg.len ≤ u.begun →
      ∃ t : Dev, exec (.unitEnd y pos) s = .next { s with toDev := t } ∧ (∀ k, k ≠ y.val → t.ply k = s.ply k) ∧
        t.mem = s.mem ∧ t.sys = s.sys ∧
        ((s.ply y).pause ≠ some 0 → (s.ply y).remaining u ≠ some 0 →
          (t.ply y).cur = some { u with pass := u.pass + 1, begun := 0, k := s.periodOf u.seg.ts, edges := s.edgesOf u.seg.ts } ∧
          (t.ply y).next = (s.ply y).next ∧ (t.ply y).st = .playing ∧
          { t with plys := s.plys, regs := s.regs } = s.toDev) ∧
        (∀ g, (s.ply y).pause ≠ some 0 → (s.ply y).remaining u = some 0 → (s.ply y).next = some g → g.linkEn = false →
          (t.ply y).cur = some { seg := g, pass := 0, begun := 0, k := s.periodOf g.ts, got := (s.ply y).nextGot,
                                 edges := s.edgesOf g.ts } ∧
          (t.ply y).next = (s.ply y).late ∧ (t.ply y).late = none ∧ (t.ply y).st = .playing ∧
          { t with plys := s.plys, regs := s.regs } = s.toDev) ∧
        (((s.ply y).pause = some 0 ∨ ((s.ply y).remaining u = some 0 ∧ (s.ply y).next = none)) →
          (t.ply y).st = .dwell ∧ (t.ply y).cur = none ∧ (t.ply y).drain = (s.ply y).claim ∧ t.regs = s.regs ∧
          (pos.toNat ≠ 0 → ∀ i, i ∈ s.mask y → (t.site i).last = [])))

/-- The scrubber takes one word a step in address order and counts its passes; a corrected word is noted with its
place, an uncorrectable one raises BANK_WEAK. A bank's copy that is done waits for its tick. -/
def Obligations.ScrubAndCopiesAdvance : Prop :=
  ∀ s : State,
    (∀ c : Ecc, s.bit (aCisReg 0x28) 31 = true → s.cisBytes ≠ 0 → s.cis.scrub < 2 ^ 23 →
      ∃ t : Dev, exec (.scrubStep c) s = .next { s with toDev := t } ∧
        t.cis.scrub = (if s.cisBytes ≤ 16 * (s.cis.scrub + 1) then 0 else s.cis.scrub + 1) ∧
        t.fld (aCisReg 0x28) 15 0 =
          (if s.cisBytes ≤ 16 * (s.cis.scrub + 1) then min (s.fld (aCisReg 0x28) 15 0 + 1) 65535
           else s.fld (aCisReg 0x28) 15 0) ∧
        (c = .corrected → t.sticky 128 = true ∧ t.fld (aCisReg 0x20) 22 0 = s.cis.scrub) ∧
        (c = .uncorrectable → t.sticky 130 = true ∧ t.bit (aCisReg 0x24) 31 = true) ∧
        (∀ g, g < 384 → s.sticky g = true → t.sticky g = true) ∧
        (c = .clean → { t with cis := s.cis, regs := s.regs } = s.toDev)) ∧
    (∀ c : Ecc, (s.bit (aCisReg 0x28) 31 = false ∨ s.cisBytes = 0) → exec (.scrubStep c) s = .next s) ∧
    (∀ (n : Fin 4) (bad : List (BitVec 23)), (s.spareBank n).copying = true →
      ∃ t : Dev, exec (.bankCopyDone n bad) s = .next { s with toDev := t } ∧
        t.spareBank n = { s.spareBank n with copied := true } ∧ (∀ k, k ≠ n.val → t.spareBank k = s.spareBank k) ∧
        (∀ w ∈ bad, s.bankOf (16 * w.toNat) = (s.spareBank n).bank → w.toNat ∈ t.cis.poison) ∧
        (∀ w ∈ s.cis.poison, w ∈ t.cis.poison) ∧ { t with cis := s.cis } = s.toDev) ∧
    (∀ (n : Fin 4) (bad : List (BitVec 23)), (s.spareBank n).copying = false → exec (.bankCopyDone n bad) s = .next s)
/-! ### The tick and its timers (R20-R30, R53-R57, R85, R91-R103, R138, R233-R236, R319-R320) -/

/-- FRAME_TICK, unless RESET or a relock holds the ticks, leaves a device from which the scarab takes the commands that
wait: none with none waiting. The frame has its number, N at an epoch mark, and its clock; every engine-staged write and
every host entry for the tick has left its queue, and at a mark every targeted one. The tick after SAFE entry empties both
queues. MODE_SWITCH acts at the switch tick of the request that stands, in RECOVERY after a read-through of the writable
store: a condition that does not hold refuses the request with its reason; else the mode is in force, channels it does not
serve are Off, and the MODE_SET completes. SYNC_RESET acts the resets whose tick it is as one: every count and filter
restarts, captures end; a mode without sense ADCs only drops them. Without a request or a reset for the tick nothing
changes. -/
def Obligations.TicksAndSwitches : Prop :=
  ∀ s : State,
    (∀ w, s.tickRuns = true →
      ∃ u : Dev, exec (.frameTick w) s = .next { s with toDev := u.drain } ∧ (s.host.waiting = [] → u.drain = u) ∧
        u.clk.frame = (if s.marks then s.rdFrame (aFrm 0x18) (aFrm 0x1C) else s.nextTick) ∧ u.clk.ticked = true ∧
        u.clk.moved = none ∧ u.clk.eclk = s.clk.eclk + s.frameLen / 2 ∧ u.clk.overran = 0 ∧ u.flt.joined = [] ∧
        (s.sys.mode ≠ .safe → u.stage.eng = [] ∧
          ∀ x, x ∈ u.stage.host → x ∈ s.stage.host ∧ x.isFor u.clk.frame u.clk.frame = false ∧ (s.marks = true → x.tgt = none)) ∧
        (s.sys.mode = .safe → s.sys.safeDue = true → u.stage = { host := [], eng := [] } ∧ u.sys.safeDue = false) ∧
        u.sys.devid = s.sys.devid ∧ u.sys.master = s.sys.master ∧ u.jtag = s.jtag) ∧
    (∀ w, s.tickRuns = false → exec (.frameTick w) s = .next s) ∧
    (∀ w r, s.sys.req = some r → r.switchAt = s.clk.frame → r.tag < 256 →
      let u := if s.sys.mode = .recovery then s.readThrough w else s.toDev
      (s.sys.mode = .recovery → (∀ k, k < 16 → u.bit (aUcs (0x8620 + 4 * k)) 30 = w.any (fun x => x.val = k)) ∧
        s.Cards u ((List.range 16).map (fun k => aUcs (0x8620 + 4 * k))) ∧ { u with regs := s.regs } = s.toDev) ∧
      (u.switchReason r.target ≠ 0 →
        ∃ t : Dev, exec (.modeSwitch w) s = .next { s with toDev := t } ∧ t.sys = { s.sys with req := none } ∧
          t.bit 0x108 1 = true ∧ t.fld 0x108 11 8 = u.switchReason r.target ∧ t.fld 0x108 23 16 = r.tag ∧
          u.Cards t [0x108] ∧ (∀ j, r.cmd = some j → s.AnswersCmd t j 3 (u.switchReason r.target) []) ∧
          { t with sys := s.sys, regs := s.regs, links := s.links
                   host := { t.host with mspiCpl := s.host.mspiCpl } } = s.toDev ∧
          (r.cmd = none → t.links = s.links ∧ t.host = s.host)) ∧
      (u.switchReason r.target = 0 → s.sys.mode ≠ .safe →
        (s.sys.mode = .calibrate ∨ r.target = .calibrate → ∀ e, (s.eng e).live = false) →
        ∃ t : Dev, exec (.modeSwitch w) s = .next { s with toDev := t } ∧ t.sys.mode = r.target ∧ t.sys.req = none ∧
          t.bit 0x108 2 = true ∧ t.fld 0x108 23 16 = r.tag ∧ t.rdFrame 0x10C 0x110 = s.clk.frame % 2 ^ 48 ∧
          (s.sys.mode = .stress → t.bit 0x114 31 = false) ∧
          (∀ p, p < 576 → r.target.funcOk (s.func p) (s.range p) = false → t.func p = 0) ∧
          (∀ j, r.cmd = some j → s.AnswersCmd t j 0 0 []) ∧ t.clk = s.clk ∧ t.engs = s.engs ∧ t.mem = s.mem)) ∧
    (∀ w, (∀ r, s.sys.req = some r → r.switchAt ≠ s.clk.frame) → exec (.modeSwitch w) s = .next s) ∧
    (let rest : Clk := { s.clk with resets := s.clk.resets.filter (fun r => r.1 ≠ s.clk.frame) }
     (∀ r, r ∈ s.clk.resets → r.1 = s.clk.frame → s.sys.mode.enables 7 = true →
      ∃ t : Dev, exec .syncReset s = .next { s with toDev := t } ∧ t.clk = rest ∧
        (∀ c, c < 720 → (t.chain c).n = 0 ∧ (t.chain c).j = 0 ∧ (t.chain c).integ = [0, 0, 0, 0] ∧ (t.chain c).line = []) ∧
        t.bit (aFrm 0x8C) 29 = true ∧ t.rdFrame (aFrm 0x90) (aFrm 0x94) = s.clk.frame % 2 ^ 48 ∧
        (∀ q, (s.acq q).busy = true → (t.acq q).st = .idle ∧ t.bit (aQuad q 0x104) 30 = true ∧ t.fld (aQuad q 0x104) 23 21 = 3) ∧
        s.Cards t ([aFrm 0x8C, aFrm 0x90, aFrm 0x94] ++ (List.range 720).map (fun c => aCh c 0x114) ++
          s.acqs.map (fun x => aQuad x.1 0x104)) ∧
        { t with clk := s.clk, regs := s.regs, chains := s.chains, acqs := s.acqs } = s.toDev) ∧
     (∀ r, r ∈ s.clk.resets → r.1 = s.clk.frame → s.sys.mode.enables 7 = false →
      exec .syncReset s = .next { s with clk := rest })) ∧
    ((∀ r, r ∈ s.clk.resets → r.1 ≠ s.clk.frame) → exec .syncReset s = .next s)

/-- A yielded engine with no tick left is released with STEPPED, PLAYING, PACER and DET computed anew. One that has not
yielded by the end of its frame is stopped: its staged writes and its bin are discarded, its bit of OVR_ENG is set, and
OVERRUN voids its site; the watchdog stops one with UCODE_WDOG. A timeout ends a WAITE without Y, which retires with TO
set; past instruction 32,767 it raises ILL_OP; in a routine it is noted for the WAIT. Otherwise nothing changes. -/
def Obligations.EngineTimersAct : Prop :=
  ∀ (s : State) (e : Fin 272),
    let aim := s.engAim e
    ((s.eng e).st = .running → (s.eng e).phase = .yielded 0 →
      ∃ t : Dev, exec (.yieldRelease e) s = .next { s with toDev := t } ∧ t.eng e = { s.eng e with phase := .exec } ∧
        (∀ k, k ≠ e.val → t.eng k = s.eng k) ∧ s.Cards t [aEng e 0xC] ∧
        (s.siteOf e = none → t.fld (aEng e 0xC) 13 10 = 0) ∧
        (∀ i, s.siteOf e = some i → t.flag e 13 = false ∧ (t.flag e 10 = true ↔ (s.site i).member ≠ .home) ∧
          (t.flag e 11 = true ↔ ∃ y, s.playerOf i = some y ∧ s.pacer y = some i) ∧
          (t.flag e 12 = true ↔ ∃ y, s.playerOf i = some y ∧ (s.ply y).st = .playing)) ∧
        { t with engs := s.engs, regs := s.regs } = s.toDev) ∧
    (((s.eng e).st ≠ .running ∨ (s.eng e).phase ≠ .yielded 0) → exec (.yieldRelease e) s = .next s) ∧
    (s.overruns e = true →
      ∃ t : Dev, exec (.overrun e) s = .next { s with toDev := t } ∧ (t.eng e).phase = .stopped ∧
        t.stage.eng = s.stage.eng.filter (fun x => x.e ≠ e.val) ∧ (∀ i, i ∈ aim → (t.site i).bin = none) ∧ t.sticky 160 = true ∧
        t.bit (aFrm (0x40 + 4 * (e.val / 32))) (e.val % 32) = true ∧ t.bit (aFrm 0x10) 3 = true ∧
        t.clk = { s.clk with overran := s.clk.overran + 1 } ∧
        (s.Clean 5 → s.Voids t 1 aim ∧ t.eng e = (s.eng e).abandon ∧ (∀ k, k ≠ e.val → t.eng k = s.eng k) ∧
          s.Cards t [aFrm (0x40 + 4 * (e.val / 32)), aFrm 0x10, aSrc 160, aCls 5] ∧
          { t with clk := s.clk, engs := s.engs, sites := s.sites, stage := s.stage, regs := s.regs, flt := s.flt } = s.toDev)) ∧
    (s.overruns e = true →
      ∃ t : Dev, exec (.wdog e) s = .next { s with toDev := t } ∧ (t.eng e).phase = .stopped ∧ s.Raised t 168 ∧
        (s.Clean 5 → s.Voids t 4 aim ∧ t.eng e = (s.eng e).abandon ∧ (∀ k, k ≠ e.val → t.eng k = s.eng k) ∧
          { t with engs := s.engs, sites := s.sites, regs := s.regs, flt := s.flt } = s.toDev)) ∧
    (s.overruns e = false → exec (.overrun e) s = .next s ∧ exec (.wdog e) s = .next s) ∧
    ((s.eng e).st = .running → (s.eng e).phase = .waiting → (s.eng e).mid = false → (s.eng e).wait ≠ none →
      (s.eng e).waitY = false →
      (s.pc e < 32767 →
        ∃ t : Dev, exec (.waiteTimeout e) s = .next { s with toDev := t } ∧ t.pc e = s.pc e + 1 ∧ t.flag e 7 = true ∧
          t.eng e = { (s.eng e).retired with wait := none, arrived := false, phase := .exec } ∧
          (∀ k, k ≠ e.val → t.eng k = s.eng k) ∧ s.Cards t [aEng e 4, aEng e 0xC] ∧
          { t with engs := s.engs, regs := s.regs } = s.toDev) ∧
      (s.pc e = 32767 →
        ∃ t : Dev, exec (.waiteTimeout e) s = .next { s with toDev := t } ∧ t.flag e 7 = true ∧ t.sticky 163 = true ∧
          (t.eng e).wait = none ∧ (t.eng e).phase = .stopped)) ∧
    ((s.eng e).st = .running → (s.eng e).phase = .waiting → (s.eng e).mid = true →
      ∃ t : Dev, exec (.waiteTimeout e) s = .next { s with toDev := t } ∧
        t.eng e = { s.eng e with u := (s.eng e).u.map (fun c => { c with wto := true }) } ∧
        (∀ k, k ≠ e.val → t.eng k = s.eng k) ∧ { t with engs := s.engs } = s.toDev) ∧
    (((s.eng e).st ≠ .running ∨ (s.eng e).phase ≠ .waiting ∨
        ((s.eng e).mid = false ∧ ((s.eng e).wait = none ∨ (s.eng e).waitY = true))) →
      exec (.waiteTimeout e) s = .next s)

/-- A PLAY that outlives the rendezvous window while the next slot is free takes its site out of the mask with DET and
RDV; the last eligible tick of a JOIN lets it lapse with flag 9 set; a throttle demand whose wait count reaches TWAIT with
the tick to come takes its site out of the mask with DET and THROTTLE, and its dwell frames stand. Each void reaches that
site alone, and each row does nothing where its condition does not hold. -/
def Obligations.LateSitesLeaveTheirMask : Prop :=
  ∀ (s : State) (i : Fin 256),
    let Left := fun (c : Instr) (t : Dev) (f cause : Nat) => exec c s = .next { s with toDev := t } ∧
      (t.site i).member = .none ∧ (t.site i).det = true ∧ (t.site i).last = [] ∧ s.Raised t f ∧
      (∀ k, k ≠ i.val → t.site k = s.site k) ∧
      (s.Clean (f / 32) → t.sys.mode = s.sys.mode ∧ (t.site i).voids = some ((s.site i).voids.getD 0 ||| cause) ∧
        (t.site i).toVoidh = true ∧ (t.site i).play = none ∧ (t.site i).join = none ∧
        (∀ k, k ≠ s.engOf i → t.eng k = s.eng k) ∧
        { t with sites := s.sites, engs := s.engs, regs := s.regs, flt := s.flt } = s.toDev)
    (∀ y p, s.playerOf i = some y → s.slotFree y 0xFFFF = true → (s.site i).play = some p →
      s.fld (aHgt (0x2100 + 4 * y)) 3 0 ≤ p.age → (s.eng (s.engOf i)).st ≠ .paused →
      ∃ t : Dev, Left (.rendezvousTimeout i) t 166 4 ∧ (t.site i).play = none ∧ (t.site i).join = none) ∧
    ((∀ y p, s.playerOf i = some y → s.slotFree y 0xFFFF = true → (s.site i).play = some p →
        s.fld (aHgt (0x2100 + 4 * y)) 3 0 ≤ p.age → (s.eng (s.engOf i)).st = .paused) →
      exec (.rendezvousTimeout i) s = .next s) ∧
    (∀ j, (s.site i).join = some j → j.left ≤ 1 →
      ∃ t : Dev, exec (.joinLapse i) s = .next { s with toDev := t } ∧ t.site i = { s.site i with join := none } ∧
        t.flag (s.engOf i) 9 = true ∧ s.Cards t [aEng (s.engOf i) 0xC] ∧ (∀ k, k ≠ i.val → t.site k = s.site k) ∧
        { t with sites := s.sites, regs := s.regs } = s.toDev) ∧
    ((∀ j, (s.site i).join = some j → 1 < j.left) → exec (.joinLapse i) s = .next s) ∧
    (s.waitsNow i = true → s.twait i ≤ (s.site i).waited + 1 →
      ∃ t : Dev, Left (.throttleWait i) t 68 32 ∧ (t.site i).waited = 0 ∧ (t.site i).tpoint = some (s.demandNow i)) ∧
    ((s.waitsNow i = false ∨ (s.site i).waited + 1 < s.twait i) → exec (.throttleWait i) s = .next s)

/-! ### Requests of the host for registers and memories (R5-R18, R40, R54, R59-R61, R70-R76, R121-R125, R166, R193-R200,
R212-R217, R228-R229, R240-R245, R253-R263, R276-R288, R292-R296, R323-R324, R338-R340) -/

/-- A write of a staged register waits for the next tick, or for the target STAGE_TGT names, and completes OK with that
tick; the one that would be the 1,025th, or whose target is too late or too far, is refused with its status, and one too
late sets LATE_TARGET. The spare's own copy of a channel register takes none. -/
def Obligations.StagedRegistersWaitForTheirTick : Prop :=
  ∀ (s : State) (h : Hdr) (v : W) (q : Fin 144) (k : Fin 5) (o : BitVec 8) (c : Instr) (a : Nat),
    (o.toNat ∈ [0, 4, 8, 0xC, 0x10, 0x20, 0x24, 0x28, 0x2C] →
      (c, a) ∈ [(.modeRequest h v, 0x104), (.flenWrite h v, aFrm 4), (.quadRequest h q v, aQuad q 0),
        (.substitutionRequest h q v, aQuad q 0xC), (.restoreRequest h q v, aQuad q 0xC), (.acqArm h q v, aQuad q 0x100),
        (.acqAbort h q v, aQuad q 0x100), (.acqForce h q v, aQuad q 0x100), (.powerRequest h o v, aPwr o.toNat)] ∨
      (k.val < 4 ∧ (c, a) ∈ [(.firSwap h q k v, aCh (5 * q.val + k.val) 0x104),
        (.tdcOpen h q k v, aCh (5 * q.val + k.val) 0x128), (.tdcClose h q k v, aCh (5 * q.val + k.val) 0x128)]) →
      s.Admits h a v →
      (s.stageStatus s.stageTgt 1 = 0 →
        ∃ t : Dev, exec c s = .next { s with toDev := t } ∧
          t.stage = { s.stage with host := s.stage.host ++ [{ tgt := s.stageTgt, op := .write a v }] } ∧
          t.AnswersMem h false 0 1 (s.stageTgt.getD s.nextTick) [] ∧ { t with stage := s.stage, links := s.links } = s.toDev) ∧
      (s.stageStatus s.stageTgt 1 ≠ 0 →
        ∃ t : Dev, exec c s = .next { s with toDev := t } ∧ t.AnswersMem h false (s.stageStatus s.stageTgt 1) 0 0 [] ∧
          t.bit (aFrm 0x10) 8 = (s.bit (aFrm 0x10) 8 || decide (s.stageStatus s.stageTgt 1 = 6)) ∧ s.Cards t [aFrm 0x10] ∧
          (s.stageStatus s.stageTgt 1 ≠ 6 → t.regs = s.regs) ∧ { t with regs := s.regs, links := s.links } = s.toDev)) ∧
    (s.stageTgt = none → s.stageStatus s.stageTgt 1 = if s.stagedFor s.nextTick < 1024 then 0 else 5) ∧
    (∀ n, s.stageTgt = some n → let d := (n + 2 ^ 48 - s.clk.frame % 2 ^ 48) % 2 ^ 48
      s.stageStatus s.stageTgt 1 = if d = 0 ∨ 2 ^ 47 ≤ d then 6 else if 2 ^ 20 < d then 7
        else if s.stagedFor n < 1024 then 0 else 5) ∧
    (k.val = 4 → (c, a) ∈ [(.firSwap h q k v, aCh (5 * q.val + 4) 0x104), (.tdcOpen h q k v, aCh (5 * q.val + 4) 0x128),
        (.tdcClose h q k v, aCh (5 * q.val + 4) 0x128)] → s.Admits h a v →
      ∃ t : Dev, exec c s = .next { s with toDev := t } ∧ t.AnswersMem h false 0 1 0 [] ∧
        { t with links := s.links } = s.toDev)

/-- MEM requests reach a device whose links are up; one of wrong framing is refused. A READ takes its words in ascending
order, settled to its instant: the words it finds, up to one with a double-bit error, which reads 0, ends it and is the
fault of its memory; a corrected word is noted by its memory; FRAME_LO latches FRAME_HI. Of a WRITE, a word the mode
forbids refuses all, and shows CFG_REJ or WR_REJ where it names such a register, and a region in play refuses all; else a
program memory takes its words and no other byte changes, NV words wait to be durable, a plain card takes its writable
bits, and an unassigned word takes nothing. A row that writes one register is the WRITE of that word. -/
def Obligations.MemoryRequestsReadAndWrite : Prop :=
  ∀ (s : State) (h : Hdr) (a : BitVec 40) (n : Nat),
    let u := s.settleLogs
    (s.linked = false → ∀ x ws,
      exec (.memRead h a n x) s = .next s ∧ exec (.memWrite h a n ws) s = .next s ∧ exec (.frameLoRead h) s = .next s) ∧
    (s.linked = true →
      (framed a.toNat n = false → ∀ x ws,
        (∃ t : Dev, exec (.memRead h a n x) s = .next { s with toDev := t } ∧ t.AnswersMem h true 1 0 0 [] ∧
          { t with links := u.links } = u) ∧
        (∃ t : Dev, exec (.memWrite h a n ws) s = .next { s with toDev := t } ∧ t.AnswersMem h false 1 0 0 [] ∧
          { t with links := s.links } = s.toDev)) ∧
      (framed a.toNat n = true → (∀ k, k < n / 4 → a.toNat + 4 * k ≠ aFrm 8) →
        ((∀ k, k < n / 4 → s.wordBad (a.toNat + 4 * k) k none = false) →
          ∃ t : Dev, exec (.memRead h a n ⟨none, []⟩) s = .next { s with toDev := t } ∧
            t.AnswersMem h true 0 (n / 4) 0 ((List.range (n / 4)).map (fun k => u.readWord (a.toNat + 4 * k))) ∧
            { t with links := u.links } = u) ∧
        (∀ k, k < n / 4 → (∀ j, j < k → s.wordBad (a.toNat + 4 * j) j none = false) →
          ∃ t : Dev, exec (.memRead h a n ⟨some k, []⟩) s = .next { s with toDev := t } ∧
            t.AnswersMem h true 4 (k + 1) 0 ((List.range k).map (fun j => u.readWord (a.toNat + 4 * j)) ++ [0]) ∧
            (∀ o, locOf (a.toNat + 4 * k) = .cis o → t.sticky 129 = true ∧ t.bit (aCisReg 0x24) 31 = true ∧
              t.fld (aCisReg 0x24) 22 0 = o / 16 % 2 ^ 23) ∧
            (∀ i o, locOf (a.toNat + 4 * k) = .img i o → t.sticky 136 = true) ∧
            (∀ e o, locOf (a.toNat + 4 * k) = .eng e o → t.sticky 133 = true) ∧
            (∀ o, locOf (a.toNat + 4 * k) = .nvr o → t.sticky 289 = true)) ∧
        (∀ k, k < n / 4 → (∀ j, j < n / 4 → s.wordBad (a.toNat + 4 * j) j none = false) →
          ∃ (t : Dev) (data : List W), exec (.memRead h a n ⟨none, [k]⟩) s = .next { s with toDev := t } ∧
            data.length = n / 4 ∧ t.AnswersMem h true 0 (n / 4) 0 data ∧
            (∀ o, locOf (a.toNat + 4 * k) = .cis o → o < s.cisBytes → t.sticky 128 = true) ∧
            (∀ m o, locOf (a.toNat + 4 * k) = .pgm m o → t.sticky 132 = true) ∧
            (∀ o, locOf (a.toNat + 4 * k) = .nvr o → t.sticky 288 = true))) ∧
      (framed a.toNat n = true → ∀ x, let r := (u.received h.via 1).readFrom a.toNat x.bad x.fixed 0 (n / 4)
        ∃ t : Dev, exec (.memRead h a n x) s = .next { s with toDev := t } ∧
          t.AnswersMem h true (if r.2.2 then 4 else 0) r.2.1.length 0 r.2.1 ∧ { t with links := r.1.links } = r.1) ∧
      (∃ t : Dev, exec (.frameLoRead h) s = .next { s with toDev := t } ∧ t.AnswersMem h true 0 1 0 [wn s.clk.frame] ∧
        t.rd (aFrm 0xC) = wn (s.clk.frame / 2 ^ 32 % 65536) ∧ u.Cards t [aFrm 0xC] ∧
        { t with regs := u.regs, links := u.links } = u) ∧
      (∀ ws : List W, framed a.toNat n = true → ws.length = n / 4 →
        let Admitted := ∀ k, k < n / 4 → s.modeOk h.via (a.toNat + 4 * k) (ws.getD k 0) = true
        let Free := ∀ k, k < n / 4 → s.wordInPlay (a.toNat + 4 * k) = false
        (¬Admitted → ∃ t : Dev, exec (.memWrite h a n ws) s = .next { s with toDev := t } ∧ t.AnswersMem h false 2 0 0 [] ∧
          (∀ k, k < n / 4 → s.modeOk h.via (a.toNat + 4 * k) (ws.getD k 0) = false →
            (a.toNat + 4 * k = aFrm 0 ∨ a.toNat + 4 * k = aFrm 4 → t.bit (aFrm 0x10) 6 = true) ∧
            (wclass (a.toNat + 4 * k) = .patch → patchReg (a.toNat + 4 * k) = true → t.bit (aUcs 0x8104) 31 = true)) ∧
          s.Cards t [aFrm 0x10, aUcs 0x8104] ∧ { t with regs := s.regs, links := s.links } = s.toDev) ∧
        (s.sys.mode = .safe → ¬Admitted) ∧
        (Admitted → ¬Free → ∃ t : Dev, exec (.memWrite h a n ws) s = .next { s with toDev := t } ∧
          t.AnswersMem h false 3 0 0 [] ∧ { t with links := s.links } = s.toDev) ∧
        (Admitted → Free → aPgm 0 0 ≤ a.toNat → a.toNat + n ≤ aPgm 16 0 →
          ∃ t : Dev, exec (.memWrite h a n ws) s = .next { s with toDev := t } ∧ t.AnswersMem h false 0 (n / 4) 0 [] ∧
            (∀ k, k < n / 4 → t.word (a.toNat + 4 * k) = ws.getD k 0) ∧
            (∀ b, b < a.toNat ∨ a.toNat + n ≤ b → t.byte b = s.byte b) ∧
            { t with mem := s.mem, links := s.links } = s.toDev) ∧
        (Admitted → aNvr 0x3B000 ≤ a.toNat → (∀ k, k < n / 4 → locOf (a.toNat + 4 * k) = .nvr (a.toNat + 4 * k - aNvr 0)) →
          ∃ t : Dev, exec (.memWrite h a n ws) s = .next { s with toDev := t } ∧
            t.nv = { s.nv with singles := s.nv.singles ++ (List.range (n / 4)).map (fun k =>
              { off := a.toNat + 4 * k - aNvr 0, val := ws.getD k 0
                fin := if k + 1 = n / 4 then some { hdr := h, words := n / 4, bad := false } else none }) } ∧
            { t with nv := s.nv, links := s.links } = s.toDev))) ∧
    (∀ v : W, s.Admits h a.toNat v →
      (a.toNat ∈ [0x114, 0x200, 0x908, aFrm 0x18, aFrm 0x1C, aFrm 0x24, aFrm 0x28, aFrm 0x2C, aFrm 0x80, aPwr 0x88] →
        ∃ t : Dev, exec (.registerWrite h a v) s = .next { s with toDev := t } ∧ t.AnswersMem h false 0 1 0 [] ∧
          t.rd a.toNat = (s.rd a.toNat &&& ~~~(rwMask a.toNat)) ||| (v &&& rwMask a.toNat) ∧ s.Cards t [a.toNat] ∧
          { t with regs := s.regs, links := s.links } = s.toDev) ∧
      (a.toNat % 4 = 0 → assigned a.toNat = false → stages a.toNat = false → Tab.wf resetWord s.regs = true →
        ∃ t : Dev, exec (.registerWrite h a v) s = .next { s with toDev := t } ∧ t.AnswersMem h false 0 1 0 [] ∧
          { t with links := s.links } = s.toDev)) ∧
    (∀ (v : W) (y : Fin 16) (e : Fin 272) (q : Fin 144) (k : Fin 5) (b : Fin 2) (i : Fin 64) (f : Fin 384) (j : Option (Fin 64))
        (o8 : BitVec 8) (o10 : BitVec 10) (o12 : BitVec 12) (o16 : BitVec 16) (c : Instr) (x : Nat),
      (c, x) ∈ [(.registerWrite h a v, a.toNat), (.sclkCfgWrite h v, aFrm 0), (.flenWrite h v, aFrm 4),
        (.syncCfgWrite h v, aFrm 0x14), (.modeRequest h v, 0x104), (.headgateWrite h o16 v, aHgt o16.toNat),
        (.engineRegisterWrite h e o12 v, aEng e o12.toNat), (.pramWordWrite h o10 v, aUcs (32 * o10.toNat + 16)),
        (.matchWrite h j v, (match j with | some n => aUcs (0x8000 + 4 * n.val) | none => aUcs 0x8100)),
        (.wcsDataWrite h v, aUcs 0x8614), (.playerCfgWrite h y v, aPly y 0), (.ringReset h y v, aPly y 0x28),
        (.ringArm h y v, aPly y 0x28), (.ringLwmWrite h y v, aPly y 0x28), (.quadRequest h q v, aQuad q 0),
        (.substitutionRequest h q v, aQuad q 0xC), (.restoreRequest h q v, aQuad q 0xC),
        (.firSwap h q k v, aCh (5 * q.val + k.val) 0x104),
        (.firCoefWrite h q k b i v, aCh (5 * q.val + k.val) (0x200 + 0x100 * b.val + 4 * i.val)),
        (.acqArm h q v, aQuad q 0x100), (.acqAbort h q v, aQuad q 0x100), (.acqForce h q v, aQuad q 0x100),
        (.tdcOpen h q k v, aCh (5 * q.val + k.val) 0x128), (.tdcClose h q k v, aCh (5 * q.val + k.val) 0x128),
        (.tdcRdWrite h q k v, aCh (5 * q.val + k.val) 0x13C), (.limitEntryWrite h v, 0x208), (.ledgerAck h v, 0x308),
        (.ledgerClear h v, 0x30C), (.faultAck h f v, aSrc f), (.faultForce h f v, aSrc f), (.powerRequest h o8 v, aPwr o8.toNat)] →
      exec c s = exec (.memWrite h (BitVec.ofNat 40 x) 4 [v]) s)

/-- The registers of clock, headgate, players, rings, limits and ledger: what each write stores, and which it refuses.
SCLK_CFG takes a MULT of 16 to 128 and relocks SCLK, in IDLE; a change of TRIM unlocks a slave. A headgate word is
stored and its sites re-checked, unless it touches a busy site in DIAGNOSTIC. PLY.CFG takes no change of EN or WIDTH
while PLAYING; RING_EN clears or stops the ring, and stays while a streamed unit is in play. RING_CTRL takes LWM, then
RESET, then ARM. LIM_HI stores the entry, unless an engine runs. LDG_ACK moves the high-water mark; CLR in IDLE clears
the ledger's pointers. -/
def Obligations.ConfigurationWritesAct : Prop :=
  ∀ (s : State) (h : Hdr) (v : W),
    let Done := fun (c : Instr) (t : Dev) => exec c s = .next { s with toDev := t } ∧ t.AnswersMem h false 0 1 0 []
    (s.Admits h (aFrm 0) v →
      ∃ t : Dev, Done (.sclkCfgWrite h v) t ∧
        (16 ≤ v.fld 7 0 → v.fld 7 0 ≤ 128 → v.fld 7 0 ≠ s.mult →
          t.mult = v.fld 7 0 ∧ s.Cards t [aFrm 0] ∧
          t.clk = { s.clk with
            locked := false, relock := true, slocked := false, captured := false, again := false, good := 0, miss := 0
            synced := false } ∧ { t with clk := s.clk, regs := s.regs, links := s.links } = s.toDev) ∧
        (v.fld 7 0 = s.mult → 16 ≤ s.mult → s.mult ≤ 128 → { t with links := s.links } = s.toDev) ∧
        (v.fld 7 0 < 16 ∨ 128 < v.fld 7 0 → t.bit (aFrm 0x10) 6 = true ∧ s.Cards t [aFrm 0x10] ∧
          { t with regs := s.regs, links := s.links } = s.toDev)) ∧
    (s.Admits h (aFrm 0x14) v →
      ∃ t : Dev, Done (.syncCfgWrite h v) t ∧ t.fld (aFrm 0x14) 8 0 = v.fld 8 0 ∧ s.Cards t [aFrm 0x14] ∧
        (s.sys.master = false → v.fld 7 0 ≠ s.fld (aFrm 0x14) 7 0 → t.clk = { s.clk with
          slocked := false, captured := false, again := true, good := 0, miss := 0, synced := false }) ∧
        (s.sys.master = true ∨ v.fld 7 0 = s.fld (aFrm 0x14) 7 0 → t.clk = s.clk) ∧
        { t with clk := s.clk, regs := s.regs, links := s.links } = s.toDev) ∧
    (∀ o : BitVec 16, s.Admits h (aHgt o.toNat) v → o.toNat % 4 = 0 →
      (o.toNat < 0x900 ∨ (0x1000 ≤ o.toNat ∧ o.toNat < 0x2000 ∧ o.toNat % 16 = 0) ∨ (0x2100 ≤ o.toNat ∧ o.toNat < 0x2140)) →
      let w := v &&& rwMask (aHgt o.toNat)
      ((s.sys.mode ≠ .diagnostic ∨ (s.hgtTouches o.toNat w).any s.siteBusy = false) →
        ∃ t : Dev, Done (.headgateWrite h o v) t ∧ t.rd (aHgt o.toNat) = w ∧
          s.Cards t (aHgt o.toNat :: (List.range 256).map (fun i => aSiteCfg i + 8)) ∧
          (∀ i, i < 256 → o.toNat = 0x1000 + 16 * i → ((t.site i).mapped = true ↔ t.siteErr i = 0)) ∧
          { t with regs := s.regs, links := s.links, sites := s.sites, engs := s.engs } = s.toDev) ∧
      (s.sys.mode = .diagnostic → (s.hgtTouches o.toNat w).any s.siteBusy = true →
        ∃ t : Dev, Done (.headgateWrite h o v) t ∧ t.bit (aHgt 0x2000) 31 = true ∧ s.Cards t [aHgt 0x2000] ∧
          { t with regs := s.regs, links := s.links } = s.toDev)) ∧
    (∀ y : Fin 16, s.Admits h (aPly y 0) v →
      let old := s.rd (aPly y 0)
      let w := v &&& 0xC000007F
      let p := s.ply y
      let bad := p.st = .playing ∧ (v.bit 31 = false ∨ w.fld 6 0 ≠ old.fld 6 0)
      let stays := old.bit 30 = true ∧ v.bit 30 = false ∧ p.streaming = true
      (bad → ∃ t : Dev, Done (.playerCfgWrite h y v) t ∧ t.bit (aPly y 4) 24 = true ∧ s.Cards t [aPly y 4] ∧
        { t with regs := s.regs, links := s.links } = s.toDev) ∧
      (¬bad → ∃ t : Dev, Done (.playerCfgWrite h y v) t ∧
        (stays → t.rd (aPly y 0) = w ||| 0x40000000 ∧ t.bit (aPly y 4) 24 = true) ∧
        (¬stays → t.rd (aPly y 0) = w) ∧ (∀ k, k ≠ y.val → t.ply k = s.ply k) ∧
        (t.ply y).st = (if v.bit 31 = false then .disabled else if p.st = .disabled then .dwell else p.st) ∧
        (v.bit 30 = true → old.bit 30 = false → (t.ply y).ring = .filling ∧ (t.ply y).fill = 0 ∧ (t.ply y).drain = 0 ∧
          (t.ply y).claim = 0) ∧
        (v.bit 30 = false → old.bit 30 = true → ¬stays → (t.ply y).ring = .off) ∧
        (v.bit 30 = old.bit 30 ∨ stays → (t.ply y).ring = p.ring) ∧
        s.Cards t ([aPly y 0, aPly y 4, aPly y 0x34] ++ (List.range 256).map (fun i => aSiteCfg i + 8)) ∧
        { t with regs := s.regs, links := s.links, plys := s.plys, sites := s.sites, engs := s.engs, host := s.host } = s.toDev)) ∧
    (∀ (y : Fin 16) (c : Instr), c ∈ [.ringReset h y v, .ringArm h y v, .ringLwmWrite h y v] → s.Admits h (aPly y 0x28) v →
      let p := s.ply y
      ∃ t : Dev, Done c t ∧ t.fld (aPly y 0x28) 23 0 = v.fld 23 0 ∧ (∀ k, k ≠ y.val → t.ply k = s.ply k) ∧
        s.Cards t [aPly y 0x28, aPly y 4, aPly y 0x34] ∧
        (v.bit 31 = true → p.streaming = false →
          (t.ply y).fill = 0 ∧ (t.ply y).drain = 0 ∧ (t.ply y).claim = 0 ∧ t.rd (aPly y 0x34) = 0 ∧
          (t.ply y).ring = (if p.ring = .off then .off else if v.bit 30 then .run else .filling) ∧
          (v.bit 30 = true → p.ring = .off → t.bit (aPly y 4) 24 = true) ∧
          (0 < v.fld 23 0 → v.fld 23 0 ≤ p.level → s.host.ntfy.length < 256 →
            t.host = { s.host with ntfy := s.host.ntfy ++ [s.ntfyNow 2 y 0] })) ∧
        (v.bit 31 = true → p.streaming = true → t.bit (aPly y 4) 24 = true ∧ (t.ply y).fill = p.fill ∧
          (t.ply y).drain = p.drain ∧ (t.ply y).claim = p.claim ∧
          (t.ply y).ring = (if v.bit 30 = true ∧ p.ring = .filling then .run else p.ring)) ∧
        (v.bit 31 = false → v.bit 30 = true →
          (t.ply y).ring = (if p.ring = .filling then .run else p.ring) ∧ (t.ply y).fill = p.fill ∧
          (p.ring = .off ∨ p.ring = .halted → t.bit (aPly y 4) 24 = true)) ∧
        (v.bit 31 = false → v.bit 30 = false → t.ply y = { p with lwm := decide (v.fld 23 0 ≤ p.level) } ∧
          s.Cards t [aPly y 0x28]) ∧
        (v.bit 31 = false ∨ p.streaming = true → t.host = s.host) ∧
        { t with regs := s.regs, links := s.links, plys := s.plys, host := s.host } = s.toDev) ∧
    (s.Admits h 0x208 v →
      (s.anyEngLive = false →
        ∃ t : Dev, Done (.limitEntryWrite h v) t ∧ t.limit (s.fld 0x200 13 0) = (s.rd 0x204, v) ∧
          (∀ n, n ≠ s.fld 0x200 13 0 → t.limit n = s.limit n) ∧
          t.fld 0x200 13 0 = (if s.bit 0x200 31 then (s.fld 0x200 13 0 + 1) % 16384 else s.fld 0x200 13 0) ∧
          s.Cards t [0x200] ∧ { t with regs := s.regs, links := s.links, led := s.led } = s.toDev) ∧
      (s.anyEngLive = true →
        ∃ t : Dev, Done (.limitEntryWrite h v) t ∧ t.bit 0x20C 31 = true ∧
          s.Cards t [0x20C] ∧ { t with regs := s.regs, links := s.links } = s.toDev)) ∧
    (s.Admits h 0x308 v →
      ∃ t : Dev, Done (.ledgerAck h v) t ∧ t.rd 0x308 = v ∧ s.Cards t [0x308] ∧
        (t.led.high = true ↔ s.hwm ≤ (s.rd 0x304 - v).toNat) ∧
        { t with regs := s.regs, links := s.links, led := s.led, host := s.host } = s.toDev) ∧
    (s.Admits h 0x30C v →
      ∃ t : Dev, Done (.ledgerClear h v) t ∧ t.fld 0x30C 16 0 = v.fld 16 0 ∧ t.bit 0x30C 29 = v.bit 29 ∧
        (s.sys.mode = .idle → v.bit 31 = true → t.rd 0x300 = 0 ∧ t.rd 0x304 = 0 ∧ t.rd 0x308 = 0 ∧ t.led.ring = []) ∧
        (s.sys.mode ≠ .idle ∨ v.bit 31 = false → s.Cards t [0x30C] ∧ t.led.ring = s.led.ring) ∧
        s.Cards t [0x300, 0x304, 0x308, 0x30C] ∧
        { t with regs := s.regs, links := s.links, led := s.led, host := s.host } = s.toDev)

/-- The registers of engines, microcode, filters, TDC queues, faults and routes: what each write stores, and which it
refuses. An engine's registers and scratch take a write in the states that let the host write, else WR_REJ is set. PRAM,
MATCH and CTRL take one with SRC following; WCS_DATA in RECOVERY alone. FIR_COEF is refused for the active bank and while
a swap runs or waits; TDC_RD never goes back or past WCNT. A fault is acknowledged unless it is LIVE, and REF_LOSS
acknowledged in holdover relocks SCLK; a FORCE raises its source, or is refused for a reserved one. A route write takes
effect at the edge after its instant, with what is captured before that; the first of a register there counts, a later one
replaces it unless an engine's stands. -/
def Obligations.UnitRegisterWritesAct : Prop :=
  ∀ (s : State) (h : Hdr) (v : W),
    let Done := fun (c : Instr) (t : Dev) => exec c s = .next { s with toDev := t } ∧ t.AnswersMem h false 0 1 0 []
    (∀ (e : Fin 272) (o : BitVec 12), s.Admits h (aEng e o.toNat) v → o.toNat % 4 = 0 →
      let a := aEng e o.toNat
      (assigned a = false → ∃ t : Dev, Done (.engineRegisterWrite h e o v) t ∧ { t with links := s.links } = s.toDev) ∧
      (assigned a = true → (s.eng e).st.hostMayWrite = false →
        ∃ t : Dev, Done (.engineRegisterWrite h e o v) t ∧ t.bit (aEng e 0) 31 = true ∧ s.Cards t [aEng e 0] ∧
          { t with regs := s.regs, links := s.links } = s.toDev) ∧
      (assigned a = true → (s.eng e).st.hostMayWrite = true →
        ∃ t : Dev, Done (.engineRegisterWrite h e o v) t ∧
          { t with regs := s.regs, links := s.links, scratch := s.scratch } = s.toDev ∧
          (o.toNat = 8 → t.fld a 31 16 = v.fld 31 16 ∧ s.Cards t (a :: s.mirror e) ∧ t.scratch = s.scratch) ∧
          (o.toNat = 0x18 → t.bit a 31 = v.bit 31 ∧ t.fld a 14 0 = v.fld 14 0 ∧ s.Cards t (a :: s.mirror e) ∧
            t.scratch = s.scratch) ∧
          (0x800 ≤ o.toNat → t.regs = s.regs ∧
            ∀ k n, t.scrWord k (4 * n) = if k = e.val ∧ n % 4096 = 512 * s.fld (aEng e 0x100) 2 0 + (o.toNat - 0x800) / 4
              then v else s.scrWord k (4 * n)) ∧
          (o.toNat ≠ 8 → o.toNat ≠ 0x18 → o.toNat < 0x800 → t.rd a = cardWrite a (s.rd a) v ∧ s.Cards t [a] ∧
            t.scratch = s.scratch))) ∧
    (∀ w : BitVec 10, s.Admits h (aUcs (32 * w.toNat + 16)) v →
      ∃ t : Dev, Done (.pramWordWrite h w v) t ∧ t.ucs.pram.get (fun _ => trapWord) w.toNat = s.heldWord 0 v ∧
        (∀ k, k ≠ w.toNat → t.ucs.pram.get (fun _ => trapWord) k = s.ucs.pram.get (fun _ => trapWord) k) ∧
        (s.bit (aUcs 0x8104) 27 = true → t.fld (aUcs 0x8104) 29 28 = 2) ∧ s.Cards t [aUcs 0x8104] ∧
        { t.ucs with pram := s.ucs.pram } = s.ucs ∧ { t with regs := s.regs, links := s.links, ucs := s.ucs } = s.toDev) ∧
    (∀ n : Option (Fin 64), let a := match n with | some n => aUcs (0x8000 + 4 * n.val) | none => aUcs 0x8100
      s.Admits h a v →
      ∃ t : Dev, Done (.matchWrite h n v) t ∧ t.rd a = (s.rd a &&& ~~~(rwMask a)) ||| (v &&& rwMask a) ∧
        (s.bit (aUcs 0x8104) 27 = true → t.fld (aUcs 0x8104) 29 28 = 2) ∧ s.Cards t [a, aUcs 0x8104] ∧
        { t with regs := s.regs, links := s.links } = s.toDev) ∧
    (s.Admits h (aUcs 0x8614) v →
      let n := s.fld (aUcs 0x8600) 13 0
      (s.sys.mode = .recovery →
        ∃ t : Dev, Done (.wcsDataWrite h v) t ∧
          (∀ k m, k < 16 → m < 16384 → t.ucs.wcs.get (fun _ => 0) (16384 * k + m) =
            if m = n ∧ (s.bit (aUcs 0x8600) 31 = true ∨ k = s.fld (aUcs 0x8600) 19 16) then s.heldWord 8 v
            else s.ucs.wcs.get (fun _ => 0) (16384 * k + m)) ∧
          t.fld (aUcs 0x8600) 13 0 = (if s.bit (aUcs 0x8600) 30 then (n + 1) % 16384 else n) ∧ s.Cards t [aUcs 0x8600] ∧
          { t with regs := s.regs, links := s.links, ucs := s.ucs } = s.toDev) ∧
      (s.sys.mode ≠ .recovery → ∃ t : Dev, Done (.wcsDataWrite h v) t ∧ { t with links := s.links } = s.toDev)) ∧
    (∀ (q : Fin 144) (c : Fin 5) (b : Fin 2) (n : Fin 64),
      let a := aCh (5 * q.val + c.val) (0x200 + 0x100 * b.val + 4 * n.val)
      let k := s.circOf (4 * q.val + c.val)
      let shut := (s.chain k).bank = b.val ∨ (s.chain k).fade ≠ none ∨ (s.chain k).pendXf ≠ none
      s.Admits h a v →
      (c.val < 4 → ¬shut →
        ∃ t : Dev, Done (.firCoefWrite h q c b n v) t ∧ t.fld a 17 0 = v.fld 17 0 ∧ s.Cards t [a] ∧
          { t with regs := s.regs, links := s.links } = s.toDev) ∧
      (c.val < 4 → shut →
        ∃ t : Dev, Done (.firCoefWrite h q c b n v) t ∧ t.bit (aCh k 0x108) 31 = true ∧ s.Cards t [aCh k 0x108] ∧
          { t with regs := s.regs, links := s.links } = s.toDev) ∧
      (c.val = 4 → ∃ t : Dev, Done (.firCoefWrite h q c b n v) t ∧ { t with links := s.links } = s.toDev)) ∧
    (∀ (q : Fin 144) (c : Fin 5), let a := aCh (5 * q.val + c.val) 0x13C
      let n := min v.toNat (s.rd (aCh (5 * q.val + c.val) 0x138)).toNat
      s.Admits h a v →
      ∃ t : Dev, Done (.tdcRdWrite h q c v) t ∧ t.rd a = (if n < (s.rd a).toNat then s.rd a else wn n) ∧
        s.Cards t [a] ∧ { t with regs := s.regs, links := s.links } = s.toDev) ∧
    (∀ f : Fin 384, s.Admits h (aSrc f) v → v.bit 30 = true → (v.bit 29 = false ∨ s.sys.mode = .recovery) →
      ∃ t : Dev, Done (.faultAck h f v) t ∧
        (fltNamed f = true → s.bit (aSrc f) 31 = false → t.sticky f = false ∧ t.lvlOf f = 0) ∧
        (fltNamed f = true → s.bit (aSrc f) 31 = true → t.sticky f = s.sticky f ∧ t.bit (aFlt 0xA0C) 31 = true) ∧
        t.fld (aSrc f) 17 16 = (if fltNamed f = true ∧ s.sys.mode ≠ .recovery then v.fld 17 16 else s.fld (aSrc f) 17 16) ∧
        t.clk = (if f.val = 0 ∧ s.sticky 0 = true ∧ s.bit (aSrc 0) 31 = false ∧ s.clk.holdover = true then
            { s.clk with
              locked := false, relock := true, slocked := false, captured := false, again := false, good := 0, miss := 0
              synced := false } else s.clk) ∧
        s.Cards t [aSrc f, aFlt 0xA0C] ∧ { t with regs := s.regs, links := s.links, clk := s.clk } = s.toDev) ∧
    (∀ f : Fin 384, s.Admits h (aSrc f) v → s.sys.mode ≠ .recovery → v.bit 29 = true →
      ∃ t : Dev, Done (.faultForce h f v) t ∧
        (fltNamed f = true → t.sticky f = true ∧ (v.fld 17 16 = 3 → t.sys.mode = .safe) ∧
          (v.fld 17 16 = 2 → s.Clean (f / 32) →
            s.Voids t (causeBit f) (if s.bit (aFlt 0xA08) 31 then [s.fld (aFlt 0xA08) 7 0] else []))) ∧
        (fltNamed f = false → t.bit (aFlt 0xA0C) 30 = true ∧ s.Cards t [aFlt 0xA0C] ∧
          { t with regs := s.regs, links := s.links } = s.toDev)) ∧
    (∀ (a : BitVec 40) (p : Pos),
      (isRoute a.toNat = false → exec (.routeWrite h a ⟨v, p⟩) s = exec (.memWrite h a 4 [v]) s) ∧
      (isRoute a.toNat = true → s.linked = false → exec (.routeWrite h a ⟨v, p⟩) s = .next s) ∧
      (isRoute a.toNat = true → s.linked = true → s.modeOk h.via a.toNat v = false →
        ∃ t : Dev, exec (.routeWrite h a ⟨v, p⟩) s = .next { s with toDev := t } ∧ t.AnswersMem h false 2 0 0 [] ∧
          { t with links := s.links } = s.toDev) ∧
      (isRoute a.toNat = true → s.Admits h a.toNat v →
        let x := s.edgeAfter p.toNat
        let u := s.capturesTo x
        let w := v &&& rwMask a.toNat
        let stands := s.slc.wrote.find? (fun y => decide (y.addr = a.toNat) && decide (y.edge = x))
        ∃ t : Dev, Done (.routeWrite h a ⟨v, p⟩) t ∧ ((∀ y, y ∈ s.slc.coming → x ≤ y.edge) → u = s.toDev) ∧
          u.Cards t [a.toNat, aSlc 0x1024] ∧ { t with regs := u.regs, links := u.links, slc := u.slc } = u ∧
          ((∀ y, stands = some y → y.rank = 0) →
            ((lineOfSrc a.toNat).all (fun l => srcOk l w) = true → t.rd a.toNat = w) ∧
            ((lineOfSrc a.toNat).all (fun l => srcOk l w) = false → t.fld a.toNat 19 16 = 0 ∧ t.bit (aSlc 0x1024) 30 = true)) ∧
          (stands = none → t.fld (aSlc 0x1024) 15 0 = min (u.fld (aSlc 0x1024) 15 0 + 1) 65535 ∧
            t.slc.writes = u.slc.writes + 1 ∧ (s.anyStepOpen = true → t.bit (aSlc 0x1024) 31 = true)) ∧
          (stands ≠ none → t.fld (aSlc 0x1024) 15 0 = u.fld (aSlc 0x1024) 15 0 ∧ t.slc.writes = u.slc.writes) ∧
          (∀ y, stands = some y → 0 < y.rank → t.regs = u.regs)))

/-! ### The command set (R349-R372, R379-R386) -/

/-- A command that a check refuses completes with that check's status and has no other effect; so does a code
outside the catalogue, and a command that arrives while 128 others wait or 256 staged
ones await their tick. Each other command joins those that wait, which the
scarab takes in order while nothing keeps it busy. A command whose path is not open has no effect. One that passes the
checks before BUSY is BUSY with 256 staged commands waiting, or a job of its code running. The queries answer at once with
what they report: ID_GET, which shows ID_BAD and zeros where neither identity copy matches, FLT_READ, REPAIR_READ,
NV_INFO. -/
def Obligations.CommandsAreCheckedAndQueriesAnswer : Prop :=
  ∀ (s : State) (c : Cmd),
    (∀ (k : BitVec 8) (i : Instr) (code : Nat),
      (i, code) ∈ ([(.idGet c, 0x01), (.modeSet c, 0x10), (.enterRecovery c, 0x11), (.loadCrc c, 0x20), (.cisFill c, 0x21),
        (.mapClear c, 0x30), (.runStart c, 0x40), (.runStop c, 0x41), (.runPause c, 0x42), (.runResume c, 0x43),
        (.fltRead c, 0x50), (.fltAck c, 0x51), (.repairRead c, 0x60), (.repairRetire c, 0x61), (.repairClear c, 0x62),
        (.calQuad c, 0x70), (.calFull c, 0x71), (.nvInfo c, 0x80), (.patchSave c, 0x90), (.patchErase c, 0x91),
        (.pwrSet c, 0xA0), (.pwrGroups c, 0xA1), (.quadState c, 0xA2), (.thmSet c, 0xB0), (.thmSave c, 0xB1),
        (.epoch c, 0xC0), (.dsync c, 0xC1), (.fullReset c, 0xFF), (.unknownCommand k c, k.toNat)] : List (Instr × Nat)) →
      (code ∉ [0x01, 0x10, 0x11, 0x20, 0x21, 0x30, 0x40, 0x41, 0x42, 0x43, 0x50, 0x51, 0x60, 0x61, 0x62, 0x70, 0x71, 0x80, 0x90,
        0x91, 0xA0, 0xA1, 0xA2, 0xB0, 0xB1, 0xC0, 0xC1, 0xFF] → s.cmdStatus code c = 8) ∧
      (s.pathOpen c.via = true → s.host.waiting = [] → s.awaiting < 256 ∨ code = 0xFF → s.scarabBusy = false → s.cmdStatus code c ≠ 0 →
        ∃ t : Dev, exec i s = .next { s with toDev := t } ∧ s.Answered t ∧
          s.AnswersCmd t (jobOfCmd c code) (s.cmdStatus code c) 0 []) ∧
      (s.pathOpen c.via = true → 128 ≤ s.host.waiting.length ∨ 256 ≤ s.awaiting → code ≠ 0xFF →
        ∃ t : Dev, exec i s = .next { s with toDev := t } ∧ s.Answered t ∧ s.AnswersCmd t (jobOfCmd c code) 10 0 []) ∧
      (s.pathOpen c.via = true → s.host.waiting.length < 128 → s.awaiting < 256 → s.scarabBusy = true → code ≠ 0xFF →
        ∃ t : Dev, exec i s = .next { s with toDev := t } ∧ t.host.waiting = s.host.waiting ++ [(code, c)] ∧
          { t with host := { t.host with waiting := s.host.waiting }, links := s.links } = s.toDev) ∧
      (s.pathOpen c.via = true → s.host.waiting.length < 128 → s.awaiting < 256 → code ≠ 0xFF →
        let u := s.received c.via (cmdFlits c.plen)
        exec i s = .next { s with toDev := Dev.drain { u with host := { u.host with waiting := u.host.waiting ++ [(code, c)] } } }) ∧
      (s.pathOpen c.via = false → exec i s = .next s) ∧
      (∀ ms, cmdMasks code = some ms → c.plen = 4 * ms.length → c.params.length = ms.length →
        s.mspiTakes c.via code = true → s.cmdLegal c.via code (cmdParam c 0) = true → s.badTarget code c.tgt = false →
        (∀ x ∈ ms.zip c.params, x.2 &&& ~~~x.1 = 0) → s.paramsOk code (jobOfCmd c code) = true →
        ((isStagedCmd code = true ∧ 256 ≤ s.awaiting) ∨ (isJob code = true ∧ ∃ j ∈ s.host.jobs, j.code = code)) →
        s.cmdStatus code c = 10)) ∧
    (s.Takes 0x01 c → s.idOk [] 0 = true ∨ s.idOk [] 1 = true →
      let o := if s.idOk [] 0 then 8 else 0x208
      ∃ t : Dev, exec (.idGet c) s = .next { s with toDev := t } ∧ s.Answered t ∧
        s.AnswersCmd t (jobOfCmd c 0x01) 0 0
          [0xC0B50576, Config.fwVersion.setWidth 32 <<< 16 ||| Config.stepping.setWidth 32, s.nvWord o, s.nvWord (o + 4),
           at1 9 s.sys.recov ||| at1 8 s.sys.master ||| s.sys.devid.setWidth 32, Config.romVersion,
           s.readWord (aUcs 0x8104), s.readWord 0x100]) ∧
    (s.Takes 0x01 c → s.idOk [] 0 = false → s.idOk [] 1 = false →
      ∃ t : Dev, exec (.idGet c) s = .next { s with toDev := t } ∧ t.bit 0x904 30 = true ∧ s.Cards t [0x904] ∧
        s.AnswersCmd t (jobOfCmd c 0x01) 0 0
          [0xC0B50576, Config.fwVersion.setWidth 32 <<< 16 ||| Config.stepping.setWidth 32, 0, 0,
           at1 9 s.sys.recov ||| at1 8 s.sys.master ||| s.sys.devid.setWidth 32, Config.romVersion,
           s.readWord (aUcs 0x8104), s.readWord 0x100] ∧ s.Answered { t with regs := s.regs }) ∧
    (s.Takes 0x50 c →
      ∃ t : Dev, exec (.fltRead c) s = .next { s with toDev := t } ∧ s.Answered t ∧
        s.AnswersCmd t (jobOfCmd c 0x50) 0 0
          ([s.readFlt 0xA00] ++ (List.range 12).map (fun x => s.readFlt (0x800 + 4 * x)) ++ (List.range 12).map s.pendWord)) ∧
    (s.Takes 0x60 c →
      ∃ t : Dev, exec (.repairRead c) s = .next { s with toDev := t } ∧ s.Answered t ∧
        s.AnswersCmd t (jobOfCmd c 0x60) 0 0
          (if s.nvForce 0 = 0 then zeroWords 256 else s.nvWords (nvSlot 0 (s.nvForce 0 - 1)).1 256)) ∧
    (s.Takes 0x80 c →
      ∃ t : Dev, exec (.nvInfo c) s = .next { s with toDev := t } ∧ s.Answered t ∧
        s.AnswersCmd t (jobOfCmd c 0x80) 0 0 s.nvInfo)

/-- A staged command waits for its tick, the next one or its target, at the end of the staging queue. One past the limit of
its tick is refused STAGE_FULL; a target that is not ahead is refused TOO_LATE and sets LATE_TARGET. -/
def Obligations.StagedCommandsWait : Prop :=
  ∀ (s : State) (c : Cmd) (i : Instr) (code : Nat),
    (i, code) ∈ ([(.modeSet c, 0x10), (.runStart c, 0x40), (.runStop c, 0x41), (.runPause c, 0x42), (.runResume c, 0x43),
      (.repairRetire c, 0x61), (.pwrSet c, 0xA0), (.quadState c, 0xA2)] : List (Instr × Nat)) →
    s.Takes code c →
    let x : HostEnt := { tgt := c.tgt.map (·.toNat), op := .cmd (jobOfCmd c code) }
    let ahead := fun T : BitVec 48 => (T.toNat + 2 ^ 48 - s.clk.frame % 2 ^ 48) % 2 ^ 48
    ((c.tgt = none ∧ s.stagedFor s.nextTick + x.weight ≤ 1024) ∨
        (∃ T, c.tgt = some T ∧ 0 < ahead T ∧ ahead T ≤ 2 ^ 20 ∧ s.stagedFor T.toNat + x.weight ≤ 1024) →
      ∃ t : Dev, exec i s = .next { s with toDev := t } ∧ t.stage = { s.stage with host := s.stage.host ++ [x] } ∧
        { t with stage := s.stage, links := s.links } = s.toDev) ∧
    ((c.tgt = none ∧ 1024 < s.stagedFor s.nextTick + x.weight) ∨
        (∃ T, c.tgt = some T ∧ 0 < ahead T ∧ ahead T ≤ 2 ^ 20 ∧ 1024 < s.stagedFor T.toNat + x.weight) →
      ∃ t : Dev, exec i s = .next { s with toDev := t } ∧ s.Answered t ∧ s.AnswersCmd t (jobOfCmd c code) 5 0 []) ∧
    (∀ T, c.tgt = some T → ahead T = 0 ∨ 2 ^ 47 ≤ ahead T →
      ∃ t : Dev, exec i s = .next { s with toDev := t } ∧ s.AnswersCmd t (jobOfCmd c code) 6 0 [] ∧
        t.bit (aFrm 0x10) 8 = true ∧ s.Cards t [aFrm 0x10] ∧ s.Answered { t with regs := s.regs })

/-- The immediate commands and the start of jobs: what each does as it is taken. ENTER_RECOVERY enters it and counts;
MAP_CLEAR clears the headgate, but a busy site in DIAGNOSTIC refuses it; FLT_ACK acknowledges what is not live; a save
joins the queue, or the one of its set that waits; REPAIR_CLEAR takes its unit out of the map first; CAL_QUAD needs a quad in
SERVICE; a job joins the jobs; PWR_GROUPS is asked for in phase c; THM_SET sets every zone it names or none; EPOCH arms;
DSYNC schedules a reset or is too late; FULL_RESET resets, and NV stays but for the word under way. -/
def Obligations.ImmediateCommandsAct : Prop :=
  ∀ (s : State) (c : Cmd) (p : Nat → W), p = (fun k => c.params.getD k 0) →
    let DoesWith := fun (i : Instr) (code : Nat) (P : Dev → Prop) =>
      s.Takes code c → ∃ t : Dev, exec i s = .next { s with toDev := t } ∧ P t
    let Ok := fun (code : Nat) (t : Dev) => s.AnswersCmd t (jobOfCmd c code) 0 0 []
    let job := fun code => jobOfCmd c code
    (s.nv.wear.get (fun _ => 0) (0x454 / 4) = 10 ^ 14 →
      DoesWith (.enterRecovery c) 0x11 (fun t => Ok 0x11 t ∧ t.sys = { s.sys with mode := .recovery } ∧ t.sticky 291 = true ∧
        (∀ b, b < aNvr 0x454 ∨ aNvr 0x458 ≤ b → t.byte b = s.byte b))) ∧
    (s.nv.wear.get (fun _ => 0) (0x454 / 4) ≠ 10 ^ 14 →
      DoesWith (.enterRecovery c) 0x11 (fun t => Ok 0x11 t ∧ t.sys = { s.sys with mode := .recovery } ∧
        t.word (aNvr 0x454) = (if s.word (aNvr 0x454) = 0xFFFFFFFF then 0xFFFFFFFF else s.word (aNvr 0x454) + 1) ∧
        (∀ b, b < aNvr 0x454 ∨ aNvr 0x458 ≤ b → t.byte b = s.byte b) ∧
        s.Answered { t with sys := s.sys, mem := s.mem, nv := s.nv })) ∧
    (s.sys.mode = .idle ∨ s.clearBusy = [] →
      DoesWith (.mapClear c) 0x30 (fun t => Ok 0x30 t ∧ (∀ o, o < 0x900 → t.rd (aHgt o) = 0) ∧
        (∀ n, n < 256 → t.rd (aSiteCfg n) = 0) ∧ (∀ y, y < 16 → t.rd (aHgt (0x2100 + 4 * y)) = 2) ∧
        (∀ n, n < 256 → (t.site n).mapped = false ∧ (t.site n).err = 1) ∧
        s.Answered { t with regs := s.regs, sites := s.sites, engs := s.engs })) ∧
    (∀ n r, s.sys.mode = .diagnostic → s.clearBusy = n :: r →
      DoesWith (.mapClear c) 0x30 (fun t => s.AnswersCmd t (job 0x30) 3 n [] ∧ t.bit (aHgt 0x2000) 31 = true ∧
        s.Cards t [aHgt 0x2000] ∧ s.Answered { t with regs := s.regs })) ∧
    DoesWith (.fltAck c) 0x51 (fun t => s.AnswersCmd t (job 0x51) 0 0 ((List.range 12).map t.pendWord) ∧
      (∀ f, f < 384 → fltNamed f = true → (p 0).bit (f / 32) = true → s.bit (aSrc f) 31 = false → t.sticky f = false) ∧
      (∀ f, f < 384 → s.bit (aSrc f) 31 = true ∨ (p 0).bit (f / 32) = false → t.rd (aSrc f) = s.rd (aSrc f)) ∧
      s.Answered { t with regs := s.regs, clk := s.clk }) ∧
    (∀ i code v, (i, code, v) ∈ ([(.patchSave c, 0x90, .patch false), (.patchErase c, 0x91, .patch true),
        (.thmSave c, 0xB1, .thermal)] : List (Instr × Nat × NvSet)) → (∀ x ∈ s.nv.saves, x.set_ ≠ v) →
      DoesWith i code (fun t => t.nv.saves = s.nv.saves ++ [{ set_ := v, job := some (job code) }] ∧
        { t with nv := { t.nv with saves := s.nv.saves }, links := s.links } = s.toDev)) ∧
    (∀ i code v, (i, code, v) ∈ ([(.patchSave c, 0x90, .patch false), (.patchErase c, 0x91, .patch true),
        (.thmSave c, 0xB1, .thermal)] : List (Instr × Nat × NvSet)) → (∃ x ∈ s.nv.saves, x.set_ = v) →
      DoesWith i code (fun t =>
        t.nv.saves = s.nv.saves.map (fun x => if x.set_ = v then { x with job := some (x.job.getD (job code)) } else x) ∧
        { t with nv := { t.nv with saves := s.nv.saves }, links := s.links } = s.toDev)) ∧
    (let k := (p 0).fld 24 16
     DoesWith (.repairClear c) 0x62 (fun t =>
        ((∀ x ∈ s.nv.saves, x.set_ ≠ .repair) →
          t.nv.saves = s.nv.saves ++ [{ set_ := .repair, job := some (job 0x62) }]) ∧
        ((∃ x ∈ s.nv.saves, x.set_ = .repair) → ∃ x ∈ t.nv.saves, x.set_ = .repair ∧ x.job ≠ none) ∧
        ((p 0).fld 31 28 = 0 → (s.quad k).st = .retired → t.quad k = { s.quad k with st := .off }) ∧
        ((p 0).fld 31 28 = 1 → (s.eng k).st = .retired → t.eng k = engOff) ∧
        ((p 0).fld 31 28 = 2 → (s.lane k).st = .failed → (t.lane k).st ≠ .failed ∧ (t.lane k).marked = false) ∧
        ((p 0).fld 31 28 = 3 → (t.quad k).sfail = false ∧ (t.quad k).spare ≠ .failed) ∧
        ((p 0).fld 31 28 = 4 → (p 0).fld 1 0 ∉ (t.quad k).pfail) ∧
        (∀ n, (p 0).fld 31 28 = 5 → s.listedSpare k = some n → (t.spareBank n).listed = false) ∧
        t.clk = s.clk ∧ t.mem = s.mem ∧ t.sys = s.sys ∧ t.regs = s.regs)) ∧
    ((s.quad (p 0).toNat).st = .service →
      DoesWith (.calQuad c) 0x70 (fun t => t.host.jobs = s.host.jobs ++ [job 0x70] ∧
        t.quad (p 0).toNat = { s.quad (p 0).toNat with cal := true } ∧
        { t with host := { t.host with jobs := s.host.jobs }, quads := s.quads, links := s.links } = s.toDev)) ∧
    ((s.quad (p 0).toNat).st ≠ .service →
      DoesWith (.calQuad c) 0x70 (fun t => s.AnswersCmd t (job 0x70) 11 (p 0).toNat [] ∧ s.Answered t)) ∧
    (∀ i code, (i, code) ∈ ([(.calFull c, 0x71), (.loadCrc c, 0x20), (.cisFill c, 0x21)] : List (Instr × Nat)) →
      DoesWith i code (fun t => t.host.jobs = s.host.jobs ++ [job code] ∧
        { t with host := { t.host with jobs := s.host.jobs }, links := s.links } = s.toDev)) ∧
    DoesWith (.pwrGroups c) 0xA1 (fun t =>
      t.pwr = { s.pwr with job := some (job 0xA1), asked := s.pwr.asked ++ [([(0x2C, p 0)], none)] } ∧
      { t with pwr := s.pwr, links := s.links } = s.toDev) ∧
    ((∀ z, z < 28 → (p 0).bit z = false) →
      DoesWith (.thmSet c) 0xB0 (fun t => Ok 0xB0 t ∧ s.Answered t)) ∧
    (thrOk (p 1) = true →
      DoesWith (.thmSet c) 0xB0 (fun t => Ok 0xB0 t ∧
        (∀ z, z < 28 → (p 0).bit z = true → ∀ a v, (a, v) ∈ [(aThm (16 * z), p 1), (aThm (16 * z + 4), p 2)] →
          t.rd a = (s.rd a &&& ~~~(rwMask a)) ||| (v &&& rwMask a)) ∧
        (∀ a, (∀ z, z < 28 → (p 0).bit z = true → a ≠ aThm (16 * z) ∧ a ≠ aThm (16 * z + 4)) → t.rd a = s.rd a) ∧
        s.Answered { t with regs := s.regs })) ∧
    (∀ z, z < 28 → thrOk (p 1) = false → (p 0).bit z = true → (∀ y, y < z → (p 0).bit y = false) →
      DoesWith (.thmSet c) 0xB0 (fun t => s.AnswersCmd t (job 0xB0) 3 z [] ∧ s.Answered t)) ∧
    DoesWith (.epoch c) 0xC0 (fun t => Ok 0xC0 t ∧ t.rd (aFrm 0x18) = p 0 ∧ t.rd (aFrm 0x1C) = p 1 ∧
      t.bit (aFrm 0x10) 9 = true ∧ t.clk.markIn = (if s.sys.master then some 3 else s.clk.markIn) ∧
      { t.clk with markIn := s.clk.markIn } = s.clk ∧ s.Cards t [aFrm 0x18, aFrm 0x1C, aFrm 0x10] ∧
      s.Answered { t with regs := s.regs, clk := s.clk }) ∧
    (∀ T : BitVec 48, c.tgt = some T →
      let d := (T.toNat + 2 ^ 48 - s.clk.frame % 2 ^ 48) % 2 ^ 48
      (2 ≤ d → d < 2 ^ 47 →
        DoesWith (.dsync c) 0xC1 (fun t => Ok 0xC1 t ∧ t.clk.resets = s.clk.resets ++ [(T.toNat, 3)] ∧
          t.rdFrame (aFrm 0x84) (aFrm 0x88) = T.toNat ∧ t.fld (aFrm 0x8C) 25 24 = 3 ∧
          s.Cards t [aFrm 0x84, aFrm 0x88, aFrm 0x8C] ∧
          s.Answered { t with regs := s.regs, clk := { t.clk with resets := s.clk.resets } })) ∧
      (d < 2 ∨ 2 ^ 47 ≤ d →
        DoesWith (.dsync c) 0xC1 (fun t => s.AnswersCmd t (job 0xC1) 6 0 [] ∧ s.Answered t))) ∧
    (s.pathOpen c.via = true → s.host.waiting = [] → s.scarabBusy = false → s.sys.mode.runs = true →
      (c.via = .mspi → s.sys.boot = .done) → c.plen = 0 → c.params = [] →
      (∃ T : BitVec 48, c.tgt = some T ∧ s.farTarget T.toNat = false) →
      8 ≤ (s.clk.resets.filter (fun x => x.2 = 3)).length →
      ∃ t : Dev, exec (.dsync c) s = .next { s with toDev := t } ∧ s.AnswersCmd t (job 0xC1) 10 0 [] ∧ s.Answered t) ∧
    (s.pathOpen c.via = true → s.cmdStatus 0xFF c = 0 →
      ∃ t : Dev, exec (.fullReset c) s = .next { s with toDev := t } ∧ t.sys.mode = .reset ∧
        t.rd 0x900 = 3 ∧
        (∀ a, a ≠ 0x900 → t.rd a = resetWord a) ∧ t.host = Dev.reset.host ∧ t.links = [] ∧ t.flt.running = false ∧
        (s.nvUnderWay = none → ∀ a o, locOf a = .nvr o → t.byte a = s.byte a))

/-- Jobs and NV writes end: the CRC is returned, or ECC, by the errors the reads find (free, log 12); the pattern stands in its range; a calibration fails with its
channel or goes on to its saves; a save begins with its slot's STATE at 0, the oldest that waits or the next quad of a full
calibration; a durable word is followed by the next one, the payload is taken after the first, and the last puts the set
in force, with CAL_NONE for a quad's calibration, and completes the command. A word that is not durable takes a spare row, or with none left ends its save NV_FAIL,
or its request ECC. Without such a job, save or word nothing changes. -/
def Obligations.JobsAndSavesEnd : Prop :=
  ∀ s : State,
    let u := s.settleLogs
    (∀ j, s.jobOf 0x20 = some j →
      let a := (j.p 0).toNat + (j.p 1).toNat * 2 ^ 32
      let n := (j.p 2).toNat / 4
      let e := Config.readErrors u.freeIx
      let v : Dev := { u with freeIx := u.freeIx + 1 }
      let r := v.readFrom a e.1 e.2 0 n
      (∃ t : Dev, exec .loadCrcDone s = .next { s with toDev := t } ∧
        r.1.AnswersCmd t j (if r.2.2 then 4 else 0) 0 (if r.2.2 then [] else [crcWords r.2.1]) ∧
        t.host.jobs = r.1.host.jobs.filter (fun x => x.code ≠ j.code) ∧
        r.1.Answered { t with host := { t.host with jobs := r.1.host.jobs } }) ∧
      ((∀ k, k < n → s.wordBad (a + 4 * k) k none = false ∧ a + 4 * k ≠ aFrm 8) →
        v.readFrom a none [] 0 n = (v, (List.range n).map (fun k => v.readWord (a + 4 * k)), false) ∧
        ∀ k, k < n → (v.readFrom a (some k) [] 0 n).2 = ((List.range k).map (fun i => v.readWord (a + 4 * i)) ++ [0], true))) ∧
    (s.jobOf 0x20 = none → exec .loadCrcDone s = .next s) ∧
    (∀ j, s.jobOf 0x21 = some j →
      ∃ t : Dev, exec .cisFillDone s = .next { s with toDev := t } ∧ s.AnswersCmd t j 0 0 [] ∧
        (∀ k, k < (j.p 1).toNat / 4 → (j.p 0).toNat + 4 * k < s.cisBytes → t.word (aCis ((j.p 0).toNat + 4 * k)) = j.p 2) ∧
        (∀ b, b < aCis (j.p 0).toNat ∨ aCis ((j.p 0).toNat + (j.p 1).toNat) ≤ b → t.byte b = s.byte b) ∧
        t.host.jobs = s.host.jobs.filter (fun x => x.code ≠ j.code) ∧
        s.Answered { t with host := { t.host with jobs := s.host.jobs }, mem := s.mem, cis := s.cis }) ∧
    (s.jobOf 0x21 = none → exec .cisFillDone s = .next s) ∧
    (∀ j, s.jobOf 0x70 = some j → s.jobSaves 0x70 = false →
      (∀ ch : Fin 720, ∃ t : Dev, exec (.calQuadDone (some ch)) s = .next { s with toDev := t } ∧
        s.AnswersCmd t j 12 ch.val [] ∧ (t.quad (j.p 0).toNat).cal = false ∧
        t.host.jobs = s.host.jobs.filter (fun x => x.code ≠ j.code) ∧
        s.Answered { t with host := { t.host with jobs := s.host.jobs }, quads := s.quads }) ∧
      ((∀ x ∈ s.nv.saves, x.set_ ≠ .cal (j.p 0).toNat none) →
        ∃ t : Dev, exec (.calQuadDone none) s = .next { s with toDev := t } ∧
          t.nv.saves = s.nv.saves ++ [{ set_ := .cal (j.p 0).toNat none, job := some j }] ∧
          { t with nv := { t.nv with saves := s.nv.saves } } = s.toDev)) ∧
    (s.jobOf 0x70 = none ∨ s.jobSaves 0x70 = true → ∀ ch, exec (.calQuadDone ch) s = .next s) ∧
    (∀ j, s.jobOf 0x71 = some j → s.jobSaves 0x71 = false →
      (∀ ch : Fin 720, ∃ t : Dev, exec (.calFullDone (some ch)) s = .next { s with toDev := t } ∧
        s.AnswersCmd t j 12 ch.val [] ∧ t.host.jobs = s.host.jobs.filter (fun x => x.code ≠ j.code) ∧
        t.nv = { s.nv with calFull := none } ∧
        s.Answered { t with host := { t.host with jobs := s.host.jobs }, nv := s.nv }) ∧
      (∀ g n, s.nv.calFull = some (g, n) ∨ (s.nv.calFull = none ∧ g = s.nextGen (.cal 0 none) ∧ n = 0) →
        (∀ x ∈ s.nv.saves, x.set_ ≠ .calFull g ∧ ∀ q, x.set_ ≠ .cal q (some g)) →
        ∃ t : Dev, exec (.calFullDone none) s = .next { s with toDev := t } ∧
          t.nv.saves = s.nv.saves ++
            ((List.range 144).filter (fun q => n ≤ q && (s.quad q).st ≠ .retired)).map (fun q => { set_ := .cal q (some g), job := none }) ++
            [{ set_ := .calFull g, job := some j }] ∧ t.nv.calFull = some (g, 144) ∧
          { t with nv := { t.nv with saves := s.nv.saves, calFull := s.nv.calFull } } = s.toDev)) ∧
    (s.jobOf 0x71 = none ∨ s.jobSaves 0x71 = true → ∀ ch, exec (.calFullDone ch) s = .next s) ∧
    (∀ v r, s.nv.run = none → s.nv.saves = v :: r →
      ∃ (t : Dev) (x : NvRun), exec .nvSetSave s = .next { s with toDev := t } ∧ t.nv.run = some x ∧ x.save = v ∧
        x.gen = s.nextGen v.set_ ∧ x.cut = false ∧ t.nv.saves = r ∧
        ((∀ g, v.set_ ≠ .calFull g) → x.filled = false ∧
          x.left = [(s.saveSlot v.set_.num, s.nvWord (s.saveSlot v.set_.num) &&& 0xFFFFFF00)]) ∧
        (∀ g, v.set_ = .calFull g → x.filled = true ∧ x.left = [(0x3A000, wn (g * 65536 + 0x5A))]) ∧
        { t with nv := { t.nv with saves := s.nv.saves, run := s.nv.run } } = s.toDev) ∧
    (∀ g q, s.nv.run = none → s.nv.saves = [] → (∃ j ∈ s.host.jobs, j.code = 0x71) → s.calLeft.1 = g →
      s.calLeft.2.head? = some q →
      ∃ (t : Dev) (x : NvRun), exec .nvSetSave s = .next { s with toDev := t } ∧ t.nv.run = some x ∧
        x.save = { set_ := .cal q (some g), job := none } ∧ x.gen = g ∧ x.filled = false ∧ t.nv.calFull = some (g, q + 1) ∧
        { t with nv := { t.nv with run := s.nv.run, calFull := s.nv.calFull } } = s.toDev) ∧
    (s.nv.run ≠ none ∨ (s.nv.saves = [] ∧ ((∀ j ∈ s.host.jobs, j.code ≠ 0x71) ∨ s.calLeft.2 = [])) →
      exec .nvSetSave s = .next s) ∧
    (∀ r o w l v, s.nv.singles = [] → s.nv.run = some r → r.left = (o, w) :: l → s.host.waiting = [] →
      ∃ t : Dev, exec (.nvWriteDone v) s = .next { s with toDev := t } ∧
        (v ≠ .failed → t.word (aNvr o) = w ∧ (∀ b, b < aNvr o ∨ aNvr (o + 4) ≤ b → t.byte b = s.byte b) ∧
          t.clk = s.clk ∧ t.sys = s.sys ∧
          (s.nv.wear.get (fun _ => 0) (o / 4) = 10 ^ 14 → t.sticky 291 = true) ∧
          (r.cut = true → t.nv.run = none) ∧
          (r.cut = false → l ≠ [] → t.nv.run = some { r with left := l }) ∧
          (r.cut = false → l = [] → r.filled = false →
            ∃ x : NvRun, t.nv.run = some x ∧ x.filled = true ∧ x.save = r.save ∧ x.gen = r.gen ∧
              x.left.getLast? = some (s.saveSlot r.save.set_.num, commitWord r.save.set_ r.gen)) ∧
          (r.cut = false → l = [] → r.filled = true → t.nv.run = none ∧
            ((∃ q, r.save.set_ = .cal q none) →
              t.fld 0x904 7 0 = ((List.range 144).filter (fun q => t.nvForce (3 + q) == 0)).length) ∧
            ((r.save.set_ = .repair ∨ r.save.set_ = .thermal ∨ (∃ e, r.save.set_ = .patch e) ∨ ∃ q, r.save.set_ = .cal q none) →
              t.nvForce r.save.set_.num = if s.nvForce r.save.set_.num = 1 then 2 else 1) ∧
            (∀ j, r.save.job = some j →
              s.AnswersCmd t j 0 0 (if r.save.set_ = .thermal ∨ ∃ e, r.save.set_ = .patch e then [wn r.gen] else [])))) ∧
        (v = .failed → t.sticky 290 = true ∧ (s.nv.spare = 0 → t.sticky 292 = true) ∧
          (s.nv.spare ≠ 0 → s.Clean 9 → t.word (aNvr o) = w ∧ t.nv.spare = s.nv.spare - 1) ∧
          (s.nv.spare = 0 → s.Clean 9 → (t.word (aNvr o) = w ∨ t.word (aNvr o) = s.word (aNvr o)) ∧ t.nv.run = none ∧
            (∀ j, r.cut = false → (r.save.job = some j ∧ (∀ q g, r.save.set_ ≠ .cal q (some g))) ∨
                (s.jobOf 0x71 = some j ∧ ∃ q g, r.save.set_ = .cal q (some g)) → s.AnswersCmd t j 13 0 [])))) ∧
    (∀ r v, s.nv.singles = [] → s.nv.run = some r → r.left = [] → s.host.waiting = [] → exec (.nvWriteDone v) s = .next s) ∧
    (∀ x rest v, s.nv.singles = x :: rest →
      let good := v ≠ .failed ∨ s.nv.spare ≠ 0
      ∃ t : Dev, exec (.nvWriteDone v) s = .next { s with toDev := t } ∧ (good → t.word (aNvr x.off) = x.val) ∧
        (v = .failed → t.sticky 290 = true) ∧ (¬good → t.sticky 292 = true) ∧
        (x.fin = none → t.nv.singles = if v ≠ .failed ∨ s.nv.spare ≠ 0 then rest else markBad rest) ∧
        (∀ f, x.fin = some f → t.nv.singles = rest ∧
          t.AnswersMem f.hdr false (if f.bad = true ∨ ¬(v ≠ .failed ∨ s.nv.spare ≠ 0) then 4 else 0) f.words 0 []) ∧
        (v ≠ .failed → ∀ b, b < aNvr x.off ∨ aNvr (x.off + 4) ≤ b → t.byte b = s.byte b)) ∧
    (s.nv.singles = [] → s.nv.run = none → ∀ v, exec (.nvWriteDone v) s = .next s)

/-! ### Links, lanes and notifications (R302, R303, R329-R347) -/

/-- A completed attempt brings a listed lane UP, and its link takes the widest set its usable lanes fill; the third
failed attempt fails the lane with LANE_FAIL; a lane that loses lock trains again, with a new count of attempts once it was
UP for 100 ms. An attempt takes the lane's equaliser, and in DIAGNOSTIC its pattern, as they stand.
An uncorrectable codeword is counted and noted, its data is asked for again, and a lane that reaches its limit
fails or trains again; a flit with a bad CRC is asked for again; a flit that breaks the protocol is noted and
acknowledged. -/
def Obligations.LanesTrainAndBadFlitsComeAgain : Prop :=
  ∀ (s : State) (j : Fin 16),
    let x := s.lane j.val
    let Others := fun t : Dev => ∀ k, k ≠ j.val → t.lane k = s.lane k
    let Agreed := fun t : Dev => (t.link (j.val / 4)).inSvc =
      if (s.link (j.val / 4)).inSvc = [] ∧ (s.link (j.val / 4)).granted = false then [] else widest (t.usable (j.val / 4))
    let cfg := s.rd (aLnk (32 * j.val + 4))
    let taken : Lane := { x with
      eq := if cfg.bit 0 then some (s.rd (aLnk (32 * j.val + 8))) else none
      pat := if s.sys.mode = .diagnostic then cfg.fld 9 8 % 3 else 0 }
    (x.st = .train → x.partner = true →
      ∃ t : Dev, exec (.laneTrainDone j) s = .next { s with toDev := t } ∧
        t.lane j.val = { x with st := .up, ready := false, row := 0, errAt := [], upAt := s.clk.eclk } ∧ Others t ∧ Agreed t) ∧
    (x.st = .train → x.partner = false →
      ∃ t : Dev, exec (.laneTrainDone j) s = .next { s with toDev := t } ∧ t.lane j.val = { x with ready := true } ∧
        Others t ∧ { t with lanes := s.lanes } = s.toDev) ∧
    (x.st = .train → x.attempt < 3 →
      ∃ t : Dev, exec (.laneTrainTimeout j) s = .next { s with toDev := t } ∧
        t.lane j.val = { taken with attempt := x.attempt + 1, total := min 255 (x.total + 1), ready := false } ∧
        Others t ∧ { t with lanes := s.lanes } = s.toDev) ∧
    (x.st = .train → 3 ≤ x.attempt → s.flt.joined = [] →
      ∃ t : Dev, exec (.laneTrainTimeout j) s = .next { s with toDev := t } ∧ s.Raised t 96 ∧
        (t.lane j.val).st = .failed ∧ (t.lane j.val).failed = true ∧ Others t) ∧
    (x.st ≠ .train → exec (.laneTrainDone j) s = .next s ∧ exec (.laneTrainTimeout j) s = .next s) ∧
    (x.st = .up →
      ∃ t : Dev, exec (.laneLockLoss j) s = .next { s with toDev := t } ∧
        t.lane j.val = { taken with
          st := .train, attempt := (if 625000 * s.mult ≤ s.clk.eclk - x.upAt then 1 else min 3 (x.attempt + 1)),
          total := min 255 (x.total + 1), ready := false, row := 0, errAt := [] } ∧ Others t ∧ Agreed t) ∧
    (x.st ≠ .up → exec (.laneLockLoss j) s = .next s) ∧
    (∀ (hadData : Bool) (l : Fin 4),
      let lim := max 1 (s.fld (aLnk (32 * j.val + 4)) 27 16)
      let win := s.clk.eclk :: x.errAt.filter (fun t => s.clk.eclk < t + 2 ^ 24 * 17 * s.mult / 28)
      let Asked := fun t : Dev => t.link (j.val / 4) =
        { s.link (j.val / 4) with nak := hadData || (s.link (j.val / 4)).nak }
      (∃ t : Dev, exec (.codewordUncorrectable j hadData) s = .next { s with toDev := t } ∧ t.sticky 99 = true ∧
        t.fld (aLnk (32 * j.val + 12)) 31 16 = min (s.fld (aLnk (32 * j.val + 12)) 31 16 + 1) 65535 ∧
        t.clk = s.clk ∧ (s.flt.joined = [] → t.mem = s.mem ∧ t.sys = s.sys) ∧
        (x.st ≠ .up → Asked t ∧ ∀ k, t.lane k = s.lane k) ∧
        (x.st = .up → win.length < lim → x.row < 7 →
          Asked t ∧ t.lane j.val = { x with row := x.row + 1, errAt := win } ∧ ∀ k, k ≠ j.val → t.lane k = s.lane k) ∧
        (x.st = .up → lim ≤ win.length → s.flt.joined = [] → (t.lane j.val).st = .failed ∧ t.sticky 96 = true) ∧
        (x.st = .up → win.length < lim → 7 ≤ x.row → (t.lane j.val).st = .train)) ∧
      (∃ t : Dev, exec (.flitCrcFail j hadData) s = .next { s with toDev := t } ∧ t.lane j.val = { x with row := 0 } ∧
        (∀ k, k ≠ j.val → t.lane k = s.lane k) ∧ Asked t ∧ (∀ k, k ≠ j.val / 4 → t.link k = s.link k) ∧
        { t with lanes := s.lanes, links := s.links } = s.toDev) ∧
      (∀ why, ∃ t : Dev, exec (.proto l why) s = .next { s with toDev := t } ∧ t.sticky 100 = true ∧
        t.link l.val = { s.link l.val with
          rx := ((s.link l.val).rx + 1) % 4096, nak := (match why with | .noCredit => (s.link l.val).nak | .badOp => false) } ∧
        (∀ k, k ≠ l.val → t.link k = s.link k) ∧ { t with regs := s.regs, flt := s.flt, links := s.links } = s.toDev))

/-- A CTRL flit grants credits, acknowledges and lists the partner's lanes: a link whose lanes are all listed and
whose credits suffice comes up, and an UP lane that is no longer listed trains again; with NAK the flits not acknowledged
go out again. The oldest flit's timeout replays; the eighth replay of one flit trains the link's lanes again. A
notification goes out on the lowest link in service. -/
def Obligations.LinksGrantReplayAndNotify : Prop :=
  ∀ (s : State) (l : Fin 4) (f : Ctrl),
    let k := s.link l.val
    let granted : Link := { k with
      credMem := k.credMem + f.mem.toNat, credCmd := k.credCmd + f.cmd.toNat, credNtfy := k.credNtfy + f.ntfy.toNat }
    let ahead := fun n : Nat => (n + 4096 - k.acked) % 4096
    let same := widest (s.usable l.val) = k.inSvc ∧
      ∀ i, i < 4 → f.insvc.getLsbD i = (s.lane (4 * l.val + i)).partner ∧
        ¬((s.lane (4 * l.val + i)).st = .train ∧ (s.lane (4 * l.val + i)).ready = true ∧ f.insvc.getLsbD i = true)
    (∃ t : Dev, exec (.ctrlFlit l f) s = .next { s with toDev := t } ∧
      (∀ i, i < 4 → (t.lane (4 * l.val + i)).partner = f.insvc.getLsbD i) ∧ (∀ n, n / 4 ≠ l.val → t.lane n = s.lane n) ∧
      { t with regs := s.regs, flt := s.flt, lanes := s.lanes, links := s.links } = s.toDev) ∧
    (k.queue = [] → f.nak = true → f.ackv = false → k.sent ≠ [] → k.same < 7 → same →
      ∃ t : Dev, exec (.ctrlFlit l f) s = .next { s with toDev := t } ∧ t.sticky 98 = true ∧
        t.link l.val = { granted with replays := min (k.replays + 1) 65535, same := k.same + 1 } ∧
        (∀ n, n ≠ l.val → t.link n = s.link n)) ∧
    (k.queue = [] → f.nak = false → same →
      ∃ t : Dev, exec (.ctrlFlit l f) s = .next { s with toDev := t } ∧
        t.link l.val = (if f.ackv ∧ ahead f.ack.toNat ≠ 0 ∧ ahead f.ack.toNat ≤ k.unacked then
            { granted with acked := f.ack.toNat, same := 0, sent := k.sent.filter (fun m => ahead f.ack.toNat < ahead m.1) }
          else granted) ∧
        t.lane (4 * l.val + f.lane.val) = { s.lane (4 * l.val + f.lane.val) with row := 0 } ∧
        (∀ n, n ≠ 4 * l.val + f.lane.val → t.lane n = s.lane n) ∧ (∀ n, n ≠ l.val → t.link n = s.link n) ∧
        { t with lanes := s.lanes, links := s.links } = s.toDev) ∧
    (k.inSvc = [] → granted.granted = true → f.nak = false → f.ackv = false → f.insvc = 0xF →
      (∀ i, i < 4 → (s.lane (4 * l.val + i)).st = .up) →
      ∃ t : Dev, exec (.ctrlFlit l f) s = .next { s with toDev := t } ∧ (t.link l.val).inSvc = [0, 1, 2, 3] ∧
        (∀ i, i < 4 → (t.lane (4 * l.val + i)).partner = true)) ∧
    (∀ i, i < 4 → f.insvc.getLsbD i = false → (s.lane (4 * l.val + i)).partner = true →
      (s.lane (4 * l.val + i)).st = .up →
      ∃ t : Dev, exec (.ctrlFlit l f) s = .next { s with toDev := t } ∧ (t.lane (4 * l.val + i)).st = .train ∧
        (t.lane (4 * l.val + i)).partner = false) ∧
    (k.sent = [] → k.same < 8 → exec (.replayTimeout l) s = .next s) ∧
    (k.sent ≠ [] → k.same < 7 →
      ∃ t : Dev, exec (.replayTimeout l) s = .next { s with toDev := t } ∧ t.sticky 98 = true ∧
        t.link l.val = { k with replays := min (k.replays + 1) 65535, same := k.same + 1 } ∧
        (∀ n, n ≠ l.val → t.link n = s.link n) ∧ { t with regs := s.regs, flt := s.flt, links := s.links } = s.toDev) ∧
    ((k.sent ≠ [] ∧ 7 ≤ k.same) ∨ (k.sent = [] ∧ 8 ≤ k.same) →
      ∃ t : Dev, exec (.replayTimeout l) s = .next { s with toDev := t } ∧ (k.sent ≠ [] → t.sticky 98 = true) ∧
        ∀ i, i < 4 → (s.lane (4 * l.val + i)).st = .up → (t.lane (4 * l.val + i)).st = .train) ∧
    (∀ n r m, s.host.ntfy = n :: r → s.firstLink = some m →
      ∃ t : Dev, exec .ntfySend s = .next { s with toDev := t } ∧ t.Said (.ntfy { n with lost := s.host.lostF }) ∧
        t.host = { s.host with ntfy := r, lostF := false } ∧ { t with host := s.host, links := s.links } = s.toDev) ∧
    (s.host.ntfy = [] ∨ s.firstLink = none → exec .ntfySend s = .next s)

/-! ### MSPI and the TAP (R361, R416-R418) -/

/-- CMD takes a command as its row does, and refuses malformed framing and a full store; CPL returns the oldest
completion; RD returns words, 0 for those not served before link-up, up to one with a double-bit error, which sets ERR; WR
writes words up to one refused, which sets ERR; STAT returns the status byte and clears ERR. A TAP instruction that drives balls acts as BYPASS unless RESET_N is low. -/
def Obligations.ServicePortsAnswer : Prop :=
  ∀ s : State,
    let Err : Dev := { s.toDev with host := { s.host with mspiErr := true } }
    let u := s.settleLogs
    (s.sys.mode = .reset → ∀ (ws : List W) (a : BitVec 40) (n : BitVec 16) (x : ReadEcc),
      ∀ i ∈ ([.mspiCmd ws, .mspiCpl, .mspiRd a n x, .mspiWr a ws, .mspiStat, .mspiBadOpcode] : List Instr),
        exec i s = .next s) ∧
    (s.sys.mode ≠ .reset →
      (∀ ws, cmdOf ws = none → exec (.mspiCmd ws) s = .next { s with toDev := Err }) ∧
      (∀ ws code c, cmdOf ws = some (code, c) → s.pathOpen .mspi = false →
        exec (.mspiCmd ws) s = .next { s with toDev := Err }) ∧
      (∀ ws i code c (k : BitVec 8), cmdOf ws = some (code, c) →
        (i, code) ∈ ([(.idGet c, 0x01), (.modeSet c, 0x10), (.enterRecovery c, 0x11), (.loadCrc c, 0x20), (.cisFill c, 0x21),
          (.mapClear c, 0x30), (.runStart c, 0x40), (.runStop c, 0x41), (.runPause c, 0x42), (.runResume c, 0x43),
          (.fltRead c, 0x50), (.fltAck c, 0x51), (.repairRead c, 0x60), (.repairRetire c, 0x61), (.repairClear c, 0x62),
          (.calQuad c, 0x70), (.calFull c, 0x71), (.nvInfo c, 0x80), (.patchSave c, 0x90), (.patchErase c, 0x91),
          (.pwrSet c, 0xA0), (.pwrGroups c, 0xA1), (.quadState c, 0xA2), (.thmSet c, 0xB0), (.thmSave c, 0xB1),
          (.epoch c, 0xC0), (.dsync c, 0xC1), (.fullReset c, 0xFF),
          (.unknownCommand k c, k.toNat)] : List (Instr × Nat)) →
        s.pathOpen .mspi = true → (s.host.waiting.length < 128 ∧ s.awaiting < 256) ∨ code = 0xFF → exec (.mspiCmd ws) s = exec i s) ∧
      (∀ ws code c, cmdOf ws = some (code, c) → code ≠ 0xFF → s.pathOpen .mspi = true →
          128 ≤ s.host.waiting.length ∨ 256 ≤ s.awaiting →
        ∃ t : Dev, exec (.mspiCmd ws) s = .next { s with toDev := t } ∧ t.host.mspiErr = true ∧
          s.AnswersCmd t (jobOfCmd c code) 10 0 [] ∧ t.host.waiting = s.host.waiting) ∧
      (s.host.mspiCpl = [] →
        exec .mspiCpl s = .next { s with toDev := { s.toDev with host := { s.host with mspiOut := [0] } } }) ∧
      (∀ c r, s.host.mspiCpl = c :: r → exec .mspiCpl s = .next { s with toDev := { s.toDev with host := { s.host with
        mspiCpl := r, mspiOut := wn (16 + 4 * c.data.length) ::
          wn (c.code * 2 ^ 24 + c.tag.toNat * 2 ^ 12 + c.status) :: wn (c.detail * 2 ^ 16 + 4 * c.data.length) :: wn c.frame ::
          wn (b2n c.frameV * 2 ^ 31 + c.frame / 2 ^ 32 % 2 ^ 16) :: c.data } } }) ∧
      (∀ (a : BitVec 40) (n : BitVec 16) (x : ReadEcc) (ws : List W), a.toNat % 4 ≠ 0 →
        exec (.mspiRd a n x) s = .next { s with toDev := Err } ∧ exec (.mspiWr a ws) s = .next { s with toDev := Err }) ∧
      (∀ (a : BitVec 40) (n : BitVec 16) (m : Nat), a.toNat % 4 = 0 →
        (∀ k, k < m → s.mspiServed (a.toNat + 4 * k) = true ∧ s.wordBad (a.toNat + 4 * k) k none = false ∧
          a.toNat + 4 * k ≠ aFrm 8) →
        (m = n.toNat → exec (.mspiRd a n ⟨none, []⟩) s = .next { s with toDev := { u with host := { u.host with
          mspiOut := (List.range m).map (fun k => u.readWord (a.toNat + 4 * k)) } } }) ∧
        (m < n.toNat → s.mspiServed (a.toNat + 4 * m) = true →
          ∃ t : Dev, exec (.mspiRd a n ⟨some m, []⟩) s = .next { s with toDev := t } ∧ t.host.mspiErr = true ∧
            t.host.mspiOut = (List.range m).map (fun k => u.readWord (a.toNat + 4 * k)) ++ [0] ∧
            (∀ o, locOf (a.toNat + 4 * m) = .cis o → t.sticky 129 = true) ∧
            (∀ o, locOf (a.toNat + 4 * m) = .nvr o → t.sticky 289 = true)) ∧
        (m = n.toNat → ∀ k, k < m →
          ∃ t : Dev, exec (.mspiRd a n ⟨none, [k]⟩) s = .next { s with toDev := t } ∧ t.host.mspiOut.length = m ∧
            (∀ o, locOf (a.toNat + 4 * k) = .cis o → o < s.cisBytes → t.sticky 128 = true) ∧
            (∀ o, locOf (a.toNat + 4 * k) = .nvr o → t.sticky 288 = true))) ∧
      (∀ (a : BitVec 40) (n : BitVec 16) (x : ReadEcc), a.toNat % 4 = 0 → 0 < n.toNat →
        (∀ k, k < n.toNat → s.mspiServed (a.toNat + 4 * k) = false) →
        exec (.mspiRd a n x) s = .next { s with toDev := { u with host := { u.host with
          mspiErr := true, mspiOut := List.replicate n.toNat 0 } } }) ∧
      (∀ x, s.sys.boot ≠ .done → aPgm 0 0 ≤ x → x < aPgm 16 0 → s.mspiServed x = false) ∧
      (∀ (a : BitVec 40) (ws : List W), a.toNat % 4 = 0 → aPgm 0 0 ≤ a.toNat → a.toNat + 4 * ws.length ≤ aPgm 16 0 →
        s.anyEngLive = false → s.sys.mode = .idle ∨ s.sys.mode.running = true →
        ∃ t : Dev, exec (.mspiWr a ws) s = .next { s with toDev := t } ∧
          (∀ k, k < ws.length → t.word (a.toNat + 4 * k) = ws.getD k 0) ∧
          (∀ b, b < a.toNat ∨ a.toNat + 4 * ws.length ≤ b → t.byte b = s.byte b) ∧ { t with mem := s.mem } = s.toDev) ∧
      (∀ (a : BitVec 40) (v : W) (ws : List W), a.toNat % 4 = 0 →
        (s.modeOk .mspi a.toNat v = false →
          ∃ t : Dev, exec (.mspiWr a (v :: ws)) s = .next { s with toDev := t } ∧
            t.host = { s.host with mspiErr := true } ∧ s.Cards t [aFrm 0x10, aUcs 0x8104] ∧
            { t with regs := s.regs, host := s.host } = s.toDev) ∧
        (s.modeOk .mspi a.toNat v = true → s.wordInPlay a.toNat = true →
          exec (.mspiWr a (v :: ws)) s = .next { s with toDev := Err })) ∧
      (∀ a : BitVec 40, a.toNat % 4 = 0 → exec (.mspiWr a []) s = .next s) ∧
      exec .mspiStat s = .next { s with toDev := { s.toDev with host := { s.host with
        mspiErr := false, mspiOut := [atF 4 s.sys.mode.code ||| at1 3 (s.sys.boot = .done) ||| at1 2 s.host.mspiErr |||
          at1 1 (decide (128 ≤ s.host.waiting.length)) ||| at1 0 (!s.host.mspiCpl.isEmpty)] } } } ∧
      exec .mspiBadOpcode s = .next { s with toDev := Err }) ∧
    (∀ i x, (i, x) ∈ ([(.bypass, .bypass), (.idcode, .idcode), (.samplePreload, .samplePreload), (.extest, .extest),
        (.clamp, .clamp), (.highz, .highz), (.extestPulse, .extestPulse), (.extestTrain, .extestTrain)] : List (Instr × Jtag)) →
      (s.sys.unpowered = true → exec i s = .next s) ∧
      (s.sys.unpowered = false →
        ∃ t : Dev, exec i s = .next { s with toDev := t } ∧
          t.jtag = (if x ∈ [.extest, .clamp, .highz, .extestPulse, .extestTrain] ∧ s.sys.resetLow = false then .bypass else x) ∧
          t.tdo = (if x = .idcode then Config.stepping.setWidth 32 <<< 28 ||| 0x00576B67 else 0) ∧
          { t with jtag := s.jtag, tdo := s.tdo } = s.toDev))

/-! ### Rules of the whole machine -/

/-- From every state that meets the invariant, whatever the command: SAFE is left only for RESET, RESET is left only
by BOOT_START, the straps stand until a reset, the frame number moves only at a tick, and only the TAP's own
commands, BOOT_START and the supply change the TAP (R43, R53, R57, R67, R418). -/
def Obligations.ModesStrapsAndFrameMoveOnlyAsStated : Prop :=
  ∀ (c : Instr) (s t : State), s.Inv → exec c s = .next t →
    (s.sys.mode = .safe → t.sys.mode = .safe ∨ t.sys.mode = .reset) ∧
    (s.sys.mode = .reset → t.sys.mode = .reset ∨ ∃ d m r, c = .bootStart d m r) ∧
    ((t.sys.devid = s.sys.devid ∧ t.sys.master = s.sys.master ∧ t.sys.recov = s.sys.recov) ∨ t.sys.mode = .reset ∨
      ∃ d m r, c = .bootStart d m r) ∧
    (t.clk.frame = s.clk.frame ∨ t.sys.mode = .reset ∨ ∃ b, c = .frameTick b) ∧
    ((t.jtag = s.jtag ∧ t.tdo = s.tdo) ∨ (∃ d m r, c = .bootStart d m r) ∨
      c ∈ ([.bypass, .idcode, .samplePreload, .extest, .clamp, .highz, .extestPulse, .extestTrain, .powerOn, .powerLoss] :
        List Instr))
end

