-- ==== Sys2Proof/Laws/Tab.lean ====
section
/-! SUPPORT. Laws of sparse tables: a read after a write, and that every operation keeps the canonical
form. -/

namespace Sys2Proof.Machine

variable {α : Type}

theorem Tab.get_put_self (d : Nat → α) (k : Nat) (v : α) (t : Tab α) : (t.put k v).get d k = v := by
  induction t with
  | nil => simp [put, get]
  | cons p r ih =>
    obtain ⟨j, w⟩ := p
    unfold put
    split
    · simp [get]
    · split
      · simp [get]
      · rename_i h; simp [get, h, ih]

theorem Tab.get_put_of_ne (d : Nat → α) {k n : Nat} (h : n ≠ k) (v : α) (t : Tab α) :
    (t.put k v).get d n = t.get d n := by
  induction t with
  | nil => simp [put, get, h.symm]
  | cons p r ih =>
    obtain ⟨j, w⟩ := p
    unfold put
    split
    · simp [get, h.symm]
    · split
      · rename_i hj; subst hj; simp [get, h.symm]
      · simp [get, ih]

theorem Tab.get_del_self (d : Nat → α) (k : Nat) (t : Tab α) : (t.del k).get d k = d k := by
  induction t with
  | nil => rfl
  | cons p r ih =>
    obtain ⟨j, w⟩ := p
    unfold del
    split
    · exact ih
    · rename_i hj; simp [get, hj, ih]

theorem Tab.get_del_of_ne (d : Nat → α) {k n : Nat} (h : n ≠ k) (t : Tab α) : (t.del k).get d n = t.get d n := by
  induction t with
  | nil => rfl
  | cons p r ih =>
    obtain ⟨j, w⟩ := p
    unfold del
    split
    · rename_i hj; subst hj; simp [get, h.symm, ih]
    · simp [get, ih]

variable [DecidableEq α]

/-- A read of the key just written. -/
@[simp] theorem Tab.get_set_self (d : Nat → α) (k : Nat) (v : α) (t : Tab α) : (t.set d k v).get d k = v := by
  unfold set
  split
  · rename_i h; rw [get_del_self, h]
  · exact get_put_self d k v t

/-- A read of another key. -/
theorem Tab.get_set_of_ne (d : Nat → α) {k n : Nat} (h : n ≠ k) (v : α) (t : Tab α) :
    (t.set d k v).get d n = t.get d n := by
  unfold set
  split
  · exact get_del_of_ne d h t
  · exact get_put_of_ne d h v t

omit [DecidableEq α] in
theorem Tab.above_of_le {j k : Nat} (h : j ≤ k) {t : Tab α} (ht : t.above k = true) : t.above j = true := by
  cases t with
  | nil => rfl
  | cons p r => simp only [above, Bool.and_eq_true, decide_eq_true_eq] at ht ⊢; exact ⟨by omega, ht.2⟩

omit [DecidableEq α] in
theorem Tab.above_put {j k : Nat} (h : j < k) (v : α) {t : Tab α} (ht : t.above j = true) :
    (t.put k v).above j = true := by
  induction t generalizing j with
  | nil => simp [put, above, h]
  | cons p r ih =>
    obtain ⟨i, w⟩ := p
    simp only [above, Bool.and_eq_true, decide_eq_true_eq] at ht
    unfold put
    split
    · simp [above, *]
    · split
      · subst_vars; simp [above, *]
      · simp only [above, Bool.and_eq_true, decide_eq_true_eq]
        exact ⟨ht.1, ih (by omega) ht.2⟩

omit [DecidableEq α] in
theorem Tab.rising_put (k : Nat) (v : α) {t : Tab α} (ht : t.rising = true) : (t.put k v).rising = true := by
  cases t with
  | nil => rfl
  | cons p r =>
    obtain ⟨i, w⟩ := p
    simp only [rising] at ht
    unfold put
    split
    · simp [rising, above, *]
    · split
      · subst_vars; simpa [rising] using ht
      · simp only [rising]; exact above_put (by omega) v ht

omit [DecidableEq α] in
/-- Dropping entries keeps the keys above a bound. -/
theorem Tab.above_filter (q : Nat × α → Bool) {j : Nat} {t : Tab α} (ht : t.above j = true) :
    Tab.above j (t.filter q) = true := by
  induction t generalizing j with
  | nil => rfl
  | cons p r ih =>
    obtain ⟨i, w⟩ := p
    simp only [above, Bool.and_eq_true, decide_eq_true_eq] at ht
    rw [List.filter_cons]
    split
    · simp only [above, Bool.and_eq_true, decide_eq_true_eq]; exact ⟨ht.1, ih ht.2⟩
    · exact ih (above_of_le (by omega) ht.2)

omit [DecidableEq α] in
theorem Tab.rising_filter (q : Nat × α → Bool) {t : Tab α} (ht : t.rising = true) :
    Tab.rising (t.filter q) = true := by
  induction t with
  | nil => rfl
  | cons p r ih =>
    obtain ⟨i, w⟩ := p
    rw [List.filter_cons]
    split
    · simp only [rising] at ht ⊢; exact above_filter q ht
    · refine ih ?_
      cases r with
      | nil => rfl
      | cons p' r' => simp only [rising, above, Bool.and_eq_true] at ht ⊢; exact ht.2

omit [DecidableEq α] in
theorem Tab.above_map (f : Nat × α → α) {j : Nat} {t : Tab α} :
    Tab.above j (t.map (fun p => (p.1, f p))) = t.above j := by
  induction t generalizing j with
  | nil => rfl
  | cons p r ih => simp [above, ih]

theorem Tab.sparse_iff (d : Nat → α) (t : Tab α) : t.sparse d = true ↔ ∀ p ∈ t, p.2 ≠ d p.1 := by
  induction t with
  | nil => simp [sparse]
  | cons p r ih => simp [sparse, ih]

omit [DecidableEq α] in
theorem Tab.mem_put {k : Nat} {v : α} {t : Tab α} {p : Nat × α} (h : p ∈ t.put k v) : p = (k, v) ∨ p ∈ t := by
  induction t with
  | nil => simpa [put] using h
  | cons q r ih =>
    unfold put at h
    split at h
    · simpa using h
    · split at h <;> simp only [List.mem_cons] at h ⊢
      · tauto
      · rcases h with h | h
        · tauto
        · rcases ih h with h | h <;> tauto

omit [DecidableEq α] in
theorem Tab.del_eq_filter (k : Nat) (t : Tab α) : t.del k = t.filter (fun p => decide (p.1 ≠ k)) := by
  induction t with
  | nil => rfl
  | cons p r ih => simp only [del, ih, List.filter_cons]; split <;> simp_all

/-- Dropping entries keeps the canonical form. -/
theorem Tab.wf_filter {d : Nat → α} (q : Nat × α → Bool) {t : Tab α} (h : t.wf d = true) :
    Tab.wf d (t.filter q) = true := by
  simp only [wf, Bool.and_eq_true] at h ⊢
  refine ⟨rising_filter q h.1, ?_⟩
  have h2 := h.2
  rw [sparse_iff] at h2 ⊢
  exact fun p hp => h2 p (List.mem_of_mem_filter hp)

/-- A write keeps the canonical form. -/
theorem Tab.wf_set {d : Nat → α} (k : Nat) (v : α) {t : Tab α} (h : t.wf d = true) :
    Tab.wf d (t.set d k v) = true := by
  unfold set
  split
  · rw [del_eq_filter]; exact wf_filter _ h
  · rename_i hv
    simp only [wf, Bool.and_eq_true] at h ⊢
    refine ⟨rising_put k v h.1, ?_⟩
    have h2 := h.2
    rw [sparse_iff] at h2 ⊢
    intro p hp
    rcases mem_put hp with rfl | hp
    · exact hv
    · exact h2 p hp

/-- A change of every entry keeps the canonical form. -/
theorem Tab.wf_updAt {d : α} (f : Nat → α → α) {t : Tab α} (h : t.wf (fun _ => d) = true) :
    Tab.wf (fun _ => d) (t.updAt d f) = true := by
  simp only [wf, Bool.and_eq_true] at h ⊢
  refine ⟨rising_filter _ ?_, ?_⟩
  · cases t with
    | nil => rfl
    | cons p r => simpa [rising, above_map (fun p => f p.1 p.2)] using h.1
  · rw [sparse_iff]
    intro p hp
    simpa using (List.mem_filter.mp hp).2

theorem Tab.wf_upd {d : α} (f : α → α) {t : Tab α} (h : t.wf (fun _ => d) = true) :
    Tab.wf (fun _ => d) (t.upd d f) = true := wf_updAt (fun _ => f) h

end Sys2Proof.Machine
end

