-- ==== Sys2Proof/Laws/State.lean ====
section
/-! SUPPORT. One lemma for each field and each write of the state, and a read after each write. -/

namespace Sys2Proof.Machine

/-! ### Reads after writes -/

@[simp] theorem Dev.rd_wr_self (s : Dev) (a : Nat) (v : W) : (s.wr a v).rd a = v := Tab.get_set_self _ _ _ _
theorem Dev.rd_wr_of_ne (s : Dev) {a n : Nat} (h : n ≠ a) (v : W) : (s.wr a v).rd n = s.rd n :=
  Tab.get_set_of_ne _ h _ _
@[simp] theorem Dev.byte_setByte_self (s : Dev) (a : Nat) (b : Byte) : (s.setByte a b).byte a = b :=
  Tab.get_set_self _ _ _ _
theorem Dev.byte_setByte_of_ne (s : Dev) {a n : Nat} (h : n ≠ a) (b : Byte) : (s.setByte a b).byte n = s.byte n :=
  Tab.get_set_of_ne _ h _ _
@[simp] theorem Dev.limit_setLimit_self (s : Dev) (n : Nat) (x : W × W) : (s.setLimit n x).limit n = x :=
  Tab.get_set_self _ _ _ _
theorem Dev.limit_setLimit_of_ne (s : Dev) {n k : Nat} (h : k ≠ n) (x : W × W) : (s.setLimit n x).limit k = s.limit k :=
  Tab.get_set_of_ne _ h _ _
@[simp] theorem Dev.eng_setEng_self (s : Dev) (n : Nat) (x : Eng) : (s.setEng n x).eng n = x := Tab.get_set_self _ _ _ _
theorem Dev.eng_setEng_of_ne (s : Dev) {n k : Nat} (h : k ≠ n) (x : Eng) : (s.setEng n x).eng k = s.eng k :=
  Tab.get_set_of_ne _ h _ _
@[simp] theorem Dev.site_setSite_self (s : Dev) (n : Nat) (x : Site) : (s.setSite n x).site n = x := Tab.get_set_self _ _ _ _
theorem Dev.site_setSite_of_ne (s : Dev) {n k : Nat} (h : k ≠ n) (x : Site) : (s.setSite n x).site k = s.site k :=
  Tab.get_set_of_ne _ h _ _
@[simp] theorem Dev.ply_setPly_self (s : Dev) (n : Nat) (x : Ply) : (s.setPly n x).ply n = x := Tab.get_set_self _ _ _ _
theorem Dev.ply_setPly_of_ne (s : Dev) {n k : Nat} (h : k ≠ n) (x : Ply) : (s.setPly n x).ply k = s.ply k :=
  Tab.get_set_of_ne _ h _ _
@[simp] theorem Dev.quad_setQuad_self (s : Dev) (n : Nat) (x : Quad) : (s.setQuad n x).quad n = x := Tab.get_set_self _ _ _ _
theorem Dev.quad_setQuad_of_ne (s : Dev) {n k : Nat} (h : k ≠ n) (x : Quad) : (s.setQuad n x).quad k = s.quad k :=
  Tab.get_set_of_ne _ h _ _
@[simp] theorem Dev.circ_setCirc_self (s : Dev) (n : Nat) (x : Circ) : (s.setCirc n x).circ n = x := Tab.get_set_self _ _ _ _
theorem Dev.circ_setCirc_of_ne (s : Dev) {n k : Nat} (h : k ≠ n) (x : Circ) : (s.setCirc n x).circ k = s.circ k :=
  Tab.get_set_of_ne _ h _ _
@[simp] theorem Dev.chain_setChain_self (s : Dev) (n : Nat) (x : Chain) : (s.setChain n x).chain n = x := Tab.get_set_self _ _ _ _
theorem Dev.chain_setChain_of_ne (s : Dev) {n k : Nat} (h : k ≠ n) (x : Chain) : (s.setChain n x).chain k = s.chain k :=
  Tab.get_set_of_ne _ h _ _
@[simp] theorem Dev.acq_setAcq_self (s : Dev) (n : Nat) (x : Acq) : (s.setAcq n x).acq n = x := Tab.get_set_self _ _ _ _
theorem Dev.acq_setAcq_of_ne (s : Dev) {n k : Nat} (h : k ≠ n) (x : Acq) : (s.setAcq n x).acq k = s.acq k :=
  Tab.get_set_of_ne _ h _ _
@[simp] theorem Dev.tdc_setTdc_self (s : Dev) (n : Nat) (x : Tdc) : (s.setTdc n x).tdc n = x := Tab.get_set_self _ _ _ _
theorem Dev.tdc_setTdc_of_ne (s : Dev) {n k : Nat} (h : k ≠ n) (x : Tdc) : (s.setTdc n x).tdc k = s.tdc k :=
  Tab.get_set_of_ne _ h _ _
@[simp] theorem Dev.weir_setWeir_self (s : Dev) (n : Nat) (x : Weir) : (s.setWeir n x).weir n = x := Tab.get_set_self _ _ _ _
theorem Dev.weir_setWeir_of_ne (s : Dev) {n k : Nat} (h : k ≠ n) (x : Weir) : (s.setWeir n x).weir k = s.weir k :=
  Tab.get_set_of_ne _ h _ _
@[simp] theorem Dev.sensor_setSensor_self (s : Dev) (n : Nat) (x : Sensor) : (s.setSensor n x).sensor n = x := Tab.get_set_self _ _ _ _
theorem Dev.sensor_setSensor_of_ne (s : Dev) {n k : Nat} (h : k ≠ n) (x : Sensor) : (s.setSensor n x).sensor k = s.sensor k :=
  Tab.get_set_of_ne _ h _ _
@[simp] theorem Dev.lane_setLane_self (s : Dev) (n : Nat) (x : Lane) : (s.setLane n x).lane n = x := Tab.get_set_self _ _ _ _
theorem Dev.lane_setLane_of_ne (s : Dev) {n k : Nat} (h : k ≠ n) (x : Lane) : (s.setLane n x).lane k = s.lane k :=
  Tab.get_set_of_ne _ h _ _
@[simp] theorem Dev.link_setLink_self (s : Dev) (n : Nat) (x : Link) : (s.setLink n x).link n = x := Tab.get_set_self _ _ _ _
theorem Dev.link_setLink_of_ne (s : Dev) {n k : Nat} (h : k ≠ n) (x : Link) : (s.setLink n x).link k = s.link k :=
  Tab.get_set_of_ne _ h _ _

/-! ### Fields a write leaves alone -/

@[simp] theorem Dev.wr_sys (s : Dev) (n : Nat) (v : W) : (s.wr n v).sys = s.sys := rfl
@[simp] theorem Dev.wr_clk (s : Dev) (n : Nat) (v : W) : (s.wr n v).clk = s.clk := rfl
@[simp] theorem Dev.wr_stage (s : Dev) (n : Nat) (v : W) : (s.wr n v).stage = s.stage := rfl
@[simp] theorem Dev.wr_mem (s : Dev) (n : Nat) (v : W) : (s.wr n v).mem = s.mem := rfl
@[simp] theorem Dev.wr_scratch (s : Dev) (n : Nat) (v : W) : (s.wr n v).scratch = s.scratch := rfl
@[simp] theorem Dev.wr_engs (s : Dev) (n : Nat) (v : W) : (s.wr n v).engs = s.engs := rfl
@[simp] theorem Dev.wr_sites (s : Dev) (n : Nat) (v : W) : (s.wr n v).sites = s.sites := rfl
@[simp] theorem Dev.wr_plys (s : Dev) (n : Nat) (v : W) : (s.wr n v).plys = s.plys := rfl
@[simp] theorem Dev.wr_cmps (s : Dev) (n : Nat) (v : W) : (s.wr n v).cmps = s.cmps := rfl
@[simp] theorem Dev.wr_quads (s : Dev) (n : Nat) (v : W) : (s.wr n v).quads = s.quads := rfl
@[simp] theorem Dev.wr_circs (s : Dev) (n : Nat) (v : W) : (s.wr n v).circs = s.circs := rfl
@[simp] theorem Dev.wr_chains (s : Dev) (n : Nat) (v : W) : (s.wr n v).chains = s.chains := rfl
@[simp] theorem Dev.wr_acqs (s : Dev) (n : Nat) (v : W) : (s.wr n v).acqs = s.acqs := rfl
@[simp] theorem Dev.wr_tdcs (s : Dev) (n : Nat) (v : W) : (s.wr n v).tdcs = s.tdcs := rfl
@[simp] theorem Dev.wr_weirs (s : Dev) (n : Nat) (v : W) : (s.wr n v).weirs = s.weirs := rfl
@[simp] theorem Dev.wr_slc (s : Dev) (n : Nat) (v : W) : (s.wr n v).slc = s.slc := rfl
@[simp] theorem Dev.wr_led (s : Dev) (n : Nat) (v : W) : (s.wr n v).led = s.led := rfl
@[simp] theorem Dev.wr_flt (s : Dev) (n : Nat) (v : W) : (s.wr n v).flt = s.flt := rfl
@[simp] theorem Dev.wr_cis (s : Dev) (n : Nat) (v : W) : (s.wr n v).cis = s.cis := rfl
@[simp] theorem Dev.wr_pwr (s : Dev) (n : Nat) (v : W) : (s.wr n v).pwr = s.pwr := rfl
@[simp] theorem Dev.wr_lanes (s : Dev) (n : Nat) (v : W) : (s.wr n v).lanes = s.lanes := rfl
@[simp] theorem Dev.wr_links (s : Dev) (n : Nat) (v : W) : (s.wr n v).links = s.links := rfl
@[simp] theorem Dev.wr_host (s : Dev) (n : Nat) (v : W) : (s.wr n v).host = s.host := rfl
@[simp] theorem Dev.wr_nv (s : Dev) (n : Nat) (v : W) : (s.wr n v).nv = s.nv := rfl
@[simp] theorem Dev.wr_ucs (s : Dev) (n : Nat) (v : W) : (s.wr n v).ucs = s.ucs := rfl
@[simp] theorem Dev.wr_imgs (s : Dev) (n : Nat) (v : W) : (s.wr n v).imgs = s.imgs := rfl
@[simp] theorem Dev.wr_jtag (s : Dev) (n : Nat) (v : W) : (s.wr n v).jtag = s.jtag := rfl
@[simp] theorem Dev.wr_tdo (s : Dev) (n : Nat) (v : W) : (s.wr n v).tdo = s.tdo := rfl
@[simp] theorem Dev.wr_freeIx (s : Dev) (n : Nat) (v : W) : (s.wr n v).freeIx = s.freeIx := rfl

@[simp] theorem Dev.setByte_sys (s : Dev) (n : Nat) (v : Byte) : (s.setByte n v).sys = s.sys := rfl
@[simp] theorem Dev.setByte_clk (s : Dev) (n : Nat) (v : Byte) : (s.setByte n v).clk = s.clk := rfl
@[simp] theorem Dev.setByte_stage (s : Dev) (n : Nat) (v : Byte) : (s.setByte n v).stage = s.stage := rfl
@[simp] theorem Dev.setByte_regs (s : Dev) (n : Nat) (v : Byte) : (s.setByte n v).regs = s.regs := rfl
@[simp] theorem Dev.setByte_scratch (s : Dev) (n : Nat) (v : Byte) : (s.setByte n v).scratch = s.scratch := rfl
@[simp] theorem Dev.setByte_engs (s : Dev) (n : Nat) (v : Byte) : (s.setByte n v).engs = s.engs := rfl
@[simp] theorem Dev.setByte_sites (s : Dev) (n : Nat) (v : Byte) : (s.setByte n v).sites = s.sites := rfl
@[simp] theorem Dev.setByte_plys (s : Dev) (n : Nat) (v : Byte) : (s.setByte n v).plys = s.plys := rfl
@[simp] theorem Dev.setByte_cmps (s : Dev) (n : Nat) (v : Byte) : (s.setByte n v).cmps = s.cmps := rfl
@[simp] theorem Dev.setByte_quads (s : Dev) (n : Nat) (v : Byte) : (s.setByte n v).quads = s.quads := rfl
@[simp] theorem Dev.setByte_circs (s : Dev) (n : Nat) (v : Byte) : (s.setByte n v).circs = s.circs := rfl
@[simp] theorem Dev.setByte_chains (s : Dev) (n : Nat) (v : Byte) : (s.setByte n v).chains = s.chains := rfl
@[simp] theorem Dev.setByte_acqs (s : Dev) (n : Nat) (v : Byte) : (s.setByte n v).acqs = s.acqs := rfl
@[simp] theorem Dev.setByte_tdcs (s : Dev) (n : Nat) (v : Byte) : (s.setByte n v).tdcs = s.tdcs := rfl
@[simp] theorem Dev.setByte_weirs (s : Dev) (n : Nat) (v : Byte) : (s.setByte n v).weirs = s.weirs := rfl
@[simp] theorem Dev.setByte_slc (s : Dev) (n : Nat) (v : Byte) : (s.setByte n v).slc = s.slc := rfl
@[simp] theorem Dev.setByte_led (s : Dev) (n : Nat) (v : Byte) : (s.setByte n v).led = s.led := rfl
@[simp] theorem Dev.setByte_flt (s : Dev) (n : Nat) (v : Byte) : (s.setByte n v).flt = s.flt := rfl
@[simp] theorem Dev.setByte_cis (s : Dev) (n : Nat) (v : Byte) : (s.setByte n v).cis = s.cis := rfl
@[simp] theorem Dev.setByte_pwr (s : Dev) (n : Nat) (v : Byte) : (s.setByte n v).pwr = s.pwr := rfl
@[simp] theorem Dev.setByte_lanes (s : Dev) (n : Nat) (v : Byte) : (s.setByte n v).lanes = s.lanes := rfl
@[simp] theorem Dev.setByte_links (s : Dev) (n : Nat) (v : Byte) : (s.setByte n v).links = s.links := rfl
@[simp] theorem Dev.setByte_host (s : Dev) (n : Nat) (v : Byte) : (s.setByte n v).host = s.host := rfl
@[simp] theorem Dev.setByte_nv (s : Dev) (n : Nat) (v : Byte) : (s.setByte n v).nv = s.nv := rfl
@[simp] theorem Dev.setByte_ucs (s : Dev) (n : Nat) (v : Byte) : (s.setByte n v).ucs = s.ucs := rfl
@[simp] theorem Dev.setByte_imgs (s : Dev) (n : Nat) (v : Byte) : (s.setByte n v).imgs = s.imgs := rfl
@[simp] theorem Dev.setByte_jtag (s : Dev) (n : Nat) (v : Byte) : (s.setByte n v).jtag = s.jtag := rfl
@[simp] theorem Dev.setByte_tdo (s : Dev) (n : Nat) (v : Byte) : (s.setByte n v).tdo = s.tdo := rfl
@[simp] theorem Dev.setByte_freeIx (s : Dev) (n : Nat) (v : Byte) : (s.setByte n v).freeIx = s.freeIx := rfl

@[simp] theorem Dev.setScrByte_sys (s : Dev) (e n : Nat) (v : Byte) : (s.setScrByte e n v).sys = s.sys := rfl
@[simp] theorem Dev.setScrByte_clk (s : Dev) (e n : Nat) (v : Byte) : (s.setScrByte e n v).clk = s.clk := rfl
@[simp] theorem Dev.setScrByte_stage (s : Dev) (e n : Nat) (v : Byte) : (s.setScrByte e n v).stage = s.stage := rfl
@[simp] theorem Dev.setScrByte_regs (s : Dev) (e n : Nat) (v : Byte) : (s.setScrByte e n v).regs = s.regs := rfl
@[simp] theorem Dev.setScrByte_mem (s : Dev) (e n : Nat) (v : Byte) : (s.setScrByte e n v).mem = s.mem := rfl
@[simp] theorem Dev.setScrByte_engs (s : Dev) (e n : Nat) (v : Byte) : (s.setScrByte e n v).engs = s.engs := rfl
@[simp] theorem Dev.setScrByte_sites (s : Dev) (e n : Nat) (v : Byte) : (s.setScrByte e n v).sites = s.sites := rfl
@[simp] theorem Dev.setScrByte_plys (s : Dev) (e n : Nat) (v : Byte) : (s.setScrByte e n v).plys = s.plys := rfl
@[simp] theorem Dev.setScrByte_cmps (s : Dev) (e n : Nat) (v : Byte) : (s.setScrByte e n v).cmps = s.cmps := rfl
@[simp] theorem Dev.setScrByte_quads (s : Dev) (e n : Nat) (v : Byte) : (s.setScrByte e n v).quads = s.quads := rfl
@[simp] theorem Dev.setScrByte_circs (s : Dev) (e n : Nat) (v : Byte) : (s.setScrByte e n v).circs = s.circs := rfl
@[simp] theorem Dev.setScrByte_chains (s : Dev) (e n : Nat) (v : Byte) : (s.setScrByte e n v).chains = s.chains := rfl
@[simp] theorem Dev.setScrByte_acqs (s : Dev) (e n : Nat) (v : Byte) : (s.setScrByte e n v).acqs = s.acqs := rfl
@[simp] theorem Dev.setScrByte_tdcs (s : Dev) (e n : Nat) (v : Byte) : (s.setScrByte e n v).tdcs = s.tdcs := rfl
@[simp] theorem Dev.setScrByte_weirs (s : Dev) (e n : Nat) (v : Byte) : (s.setScrByte e n v).weirs = s.weirs := rfl
@[simp] theorem Dev.setScrByte_slc (s : Dev) (e n : Nat) (v : Byte) : (s.setScrByte e n v).slc = s.slc := rfl
@[simp] theorem Dev.setScrByte_led (s : Dev) (e n : Nat) (v : Byte) : (s.setScrByte e n v).led = s.led := rfl
@[simp] theorem Dev.setScrByte_flt (s : Dev) (e n : Nat) (v : Byte) : (s.setScrByte e n v).flt = s.flt := rfl
@[simp] theorem Dev.setScrByte_cis (s : Dev) (e n : Nat) (v : Byte) : (s.setScrByte e n v).cis = s.cis := rfl
@[simp] theorem Dev.setScrByte_pwr (s : Dev) (e n : Nat) (v : Byte) : (s.setScrByte e n v).pwr = s.pwr := rfl
@[simp] theorem Dev.setScrByte_lanes (s : Dev) (e n : Nat) (v : Byte) : (s.setScrByte e n v).lanes = s.lanes := rfl
@[simp] theorem Dev.setScrByte_links (s : Dev) (e n : Nat) (v : Byte) : (s.setScrByte e n v).links = s.links := rfl
@[simp] theorem Dev.setScrByte_host (s : Dev) (e n : Nat) (v : Byte) : (s.setScrByte e n v).host = s.host := rfl
@[simp] theorem Dev.setScrByte_nv (s : Dev) (e n : Nat) (v : Byte) : (s.setScrByte e n v).nv = s.nv := rfl
@[simp] theorem Dev.setScrByte_ucs (s : Dev) (e n : Nat) (v : Byte) : (s.setScrByte e n v).ucs = s.ucs := rfl
@[simp] theorem Dev.setScrByte_imgs (s : Dev) (e n : Nat) (v : Byte) : (s.setScrByte e n v).imgs = s.imgs := rfl
@[simp] theorem Dev.setScrByte_jtag (s : Dev) (e n : Nat) (v : Byte) : (s.setScrByte e n v).jtag = s.jtag := rfl
@[simp] theorem Dev.setScrByte_tdo (s : Dev) (e n : Nat) (v : Byte) : (s.setScrByte e n v).tdo = s.tdo := rfl
@[simp] theorem Dev.setScrByte_freeIx (s : Dev) (e n : Nat) (v : Byte) : (s.setScrByte e n v).freeIx = s.freeIx := rfl

@[simp] theorem Dev.clearScr_sys (s : Dev) (e : Nat) : (s.clearScr e).sys = s.sys := rfl
@[simp] theorem Dev.clearScr_clk (s : Dev) (e : Nat) : (s.clearScr e).clk = s.clk := rfl
@[simp] theorem Dev.clearScr_stage (s : Dev) (e : Nat) : (s.clearScr e).stage = s.stage := rfl
@[simp] theorem Dev.clearScr_regs (s : Dev) (e : Nat) : (s.clearScr e).regs = s.regs := rfl
@[simp] theorem Dev.clearScr_mem (s : Dev) (e : Nat) : (s.clearScr e).mem = s.mem := rfl
@[simp] theorem Dev.clearScr_engs (s : Dev) (e : Nat) : (s.clearScr e).engs = s.engs := rfl
@[simp] theorem Dev.clearScr_sites (s : Dev) (e : Nat) : (s.clearScr e).sites = s.sites := rfl
@[simp] theorem Dev.clearScr_plys (s : Dev) (e : Nat) : (s.clearScr e).plys = s.plys := rfl
@[simp] theorem Dev.clearScr_cmps (s : Dev) (e : Nat) : (s.clearScr e).cmps = s.cmps := rfl
@[simp] theorem Dev.clearScr_quads (s : Dev) (e : Nat) : (s.clearScr e).quads = s.quads := rfl
@[simp] theorem Dev.clearScr_circs (s : Dev) (e : Nat) : (s.clearScr e).circs = s.circs := rfl
@[simp] theorem Dev.clearScr_chains (s : Dev) (e : Nat) : (s.clearScr e).chains = s.chains := rfl
@[simp] theorem Dev.clearScr_acqs (s : Dev) (e : Nat) : (s.clearScr e).acqs = s.acqs := rfl
@[simp] theorem Dev.clearScr_tdcs (s : Dev) (e : Nat) : (s.clearScr e).tdcs = s.tdcs := rfl
@[simp] theorem Dev.clearScr_weirs (s : Dev) (e : Nat) : (s.clearScr e).weirs = s.weirs := rfl
@[simp] theorem Dev.clearScr_slc (s : Dev) (e : Nat) : (s.clearScr e).slc = s.slc := rfl
@[simp] theorem Dev.clearScr_led (s : Dev) (e : Nat) : (s.clearScr e).led = s.led := rfl
@[simp] theorem Dev.clearScr_flt (s : Dev) (e : Nat) : (s.clearScr e).flt = s.flt := rfl
@[simp] theorem Dev.clearScr_cis (s : Dev) (e : Nat) : (s.clearScr e).cis = s.cis := rfl
@[simp] theorem Dev.clearScr_pwr (s : Dev) (e : Nat) : (s.clearScr e).pwr = s.pwr := rfl
@[simp] theorem Dev.clearScr_lanes (s : Dev) (e : Nat) : (s.clearScr e).lanes = s.lanes := rfl
@[simp] theorem Dev.clearScr_links (s : Dev) (e : Nat) : (s.clearScr e).links = s.links := rfl
@[simp] theorem Dev.clearScr_host (s : Dev) (e : Nat) : (s.clearScr e).host = s.host := rfl
@[simp] theorem Dev.clearScr_nv (s : Dev) (e : Nat) : (s.clearScr e).nv = s.nv := rfl
@[simp] theorem Dev.clearScr_ucs (s : Dev) (e : Nat) : (s.clearScr e).ucs = s.ucs := rfl
@[simp] theorem Dev.clearScr_imgs (s : Dev) (e : Nat) : (s.clearScr e).imgs = s.imgs := rfl
@[simp] theorem Dev.clearScr_jtag (s : Dev) (e : Nat) : (s.clearScr e).jtag = s.jtag := rfl
@[simp] theorem Dev.clearScr_tdo (s : Dev) (e : Nat) : (s.clearScr e).tdo = s.tdo := rfl
@[simp] theorem Dev.clearScr_freeIx (s : Dev) (e : Nat) : (s.clearScr e).freeIx = s.freeIx := rfl

@[simp] theorem Dev.clearMem_sys (s : Dev) (l u : Nat) : (s.clearMem l u).sys = s.sys := rfl
@[simp] theorem Dev.clearMem_clk (s : Dev) (l u : Nat) : (s.clearMem l u).clk = s.clk := rfl
@[simp] theorem Dev.clearMem_stage (s : Dev) (l u : Nat) : (s.clearMem l u).stage = s.stage := rfl
@[simp] theorem Dev.clearMem_regs (s : Dev) (l u : Nat) : (s.clearMem l u).regs = s.regs := rfl
@[simp] theorem Dev.clearMem_scratch (s : Dev) (l u : Nat) : (s.clearMem l u).scratch = s.scratch := rfl
@[simp] theorem Dev.clearMem_engs (s : Dev) (l u : Nat) : (s.clearMem l u).engs = s.engs := rfl
@[simp] theorem Dev.clearMem_sites (s : Dev) (l u : Nat) : (s.clearMem l u).sites = s.sites := rfl
@[simp] theorem Dev.clearMem_plys (s : Dev) (l u : Nat) : (s.clearMem l u).plys = s.plys := rfl
@[simp] theorem Dev.clearMem_cmps (s : Dev) (l u : Nat) : (s.clearMem l u).cmps = s.cmps := rfl
@[simp] theorem Dev.clearMem_quads (s : Dev) (l u : Nat) : (s.clearMem l u).quads = s.quads := rfl
@[simp] theorem Dev.clearMem_circs (s : Dev) (l u : Nat) : (s.clearMem l u).circs = s.circs := rfl
@[simp] theorem Dev.clearMem_chains (s : Dev) (l u : Nat) : (s.clearMem l u).chains = s.chains := rfl
@[simp] theorem Dev.clearMem_acqs (s : Dev) (l u : Nat) : (s.clearMem l u).acqs = s.acqs := rfl
@[simp] theorem Dev.clearMem_tdcs (s : Dev) (l u : Nat) : (s.clearMem l u).tdcs = s.tdcs := rfl
@[simp] theorem Dev.clearMem_weirs (s : Dev) (l u : Nat) : (s.clearMem l u).weirs = s.weirs := rfl
@[simp] theorem Dev.clearMem_slc (s : Dev) (l u : Nat) : (s.clearMem l u).slc = s.slc := rfl
@[simp] theorem Dev.clearMem_led (s : Dev) (l u : Nat) : (s.clearMem l u).led = s.led := rfl
@[simp] theorem Dev.clearMem_flt (s : Dev) (l u : Nat) : (s.clearMem l u).flt = s.flt := rfl
@[simp] theorem Dev.clearMem_cis (s : Dev) (l u : Nat) : (s.clearMem l u).cis = s.cis := rfl
@[simp] theorem Dev.clearMem_pwr (s : Dev) (l u : Nat) : (s.clearMem l u).pwr = s.pwr := rfl
@[simp] theorem Dev.clearMem_lanes (s : Dev) (l u : Nat) : (s.clearMem l u).lanes = s.lanes := rfl
@[simp] theorem Dev.clearMem_links (s : Dev) (l u : Nat) : (s.clearMem l u).links = s.links := rfl
@[simp] theorem Dev.clearMem_host (s : Dev) (l u : Nat) : (s.clearMem l u).host = s.host := rfl
@[simp] theorem Dev.clearMem_nv (s : Dev) (l u : Nat) : (s.clearMem l u).nv = s.nv := rfl
@[simp] theorem Dev.clearMem_ucs (s : Dev) (l u : Nat) : (s.clearMem l u).ucs = s.ucs := rfl
@[simp] theorem Dev.clearMem_imgs (s : Dev) (l u : Nat) : (s.clearMem l u).imgs = s.imgs := rfl
@[simp] theorem Dev.clearMem_jtag (s : Dev) (l u : Nat) : (s.clearMem l u).jtag = s.jtag := rfl
@[simp] theorem Dev.clearMem_tdo (s : Dev) (l u : Nat) : (s.clearMem l u).tdo = s.tdo := rfl
@[simp] theorem Dev.clearMem_freeIx (s : Dev) (l u : Nat) : (s.clearMem l u).freeIx = s.freeIx := rfl

@[simp] theorem Dev.setEng_sys (s : Dev) (n : Nat) (x : Eng) : (s.setEng n x).sys = s.sys := rfl
@[simp] theorem Dev.setEng_clk (s : Dev) (n : Nat) (x : Eng) : (s.setEng n x).clk = s.clk := rfl
@[simp] theorem Dev.setEng_stage (s : Dev) (n : Nat) (x : Eng) : (s.setEng n x).stage = s.stage := rfl
@[simp] theorem Dev.setEng_regs (s : Dev) (n : Nat) (x : Eng) : (s.setEng n x).regs = s.regs := rfl
@[simp] theorem Dev.setEng_mem (s : Dev) (n : Nat) (x : Eng) : (s.setEng n x).mem = s.mem := rfl
@[simp] theorem Dev.setEng_scratch (s : Dev) (n : Nat) (x : Eng) : (s.setEng n x).scratch = s.scratch := rfl
@[simp] theorem Dev.setEng_sites (s : Dev) (n : Nat) (x : Eng) : (s.setEng n x).sites = s.sites := rfl
@[simp] theorem Dev.setEng_plys (s : Dev) (n : Nat) (x : Eng) : (s.setEng n x).plys = s.plys := rfl
@[simp] theorem Dev.setEng_cmps (s : Dev) (n : Nat) (x : Eng) : (s.setEng n x).cmps = s.cmps := rfl
@[simp] theorem Dev.setEng_quads (s : Dev) (n : Nat) (x : Eng) : (s.setEng n x).quads = s.quads := rfl
@[simp] theorem Dev.setEng_circs (s : Dev) (n : Nat) (x : Eng) : (s.setEng n x).circs = s.circs := rfl
@[simp] theorem Dev.setEng_chains (s : Dev) (n : Nat) (x : Eng) : (s.setEng n x).chains = s.chains := rfl
@[simp] theorem Dev.setEng_acqs (s : Dev) (n : Nat) (x : Eng) : (s.setEng n x).acqs = s.acqs := rfl
@[simp] theorem Dev.setEng_tdcs (s : Dev) (n : Nat) (x : Eng) : (s.setEng n x).tdcs = s.tdcs := rfl
@[simp] theorem Dev.setEng_weirs (s : Dev) (n : Nat) (x : Eng) : (s.setEng n x).weirs = s.weirs := rfl
@[simp] theorem Dev.setEng_slc (s : Dev) (n : Nat) (x : Eng) : (s.setEng n x).slc = s.slc := rfl
@[simp] theorem Dev.setEng_led (s : Dev) (n : Nat) (x : Eng) : (s.setEng n x).led = s.led := rfl
@[simp] theorem Dev.setEng_flt (s : Dev) (n : Nat) (x : Eng) : (s.setEng n x).flt = s.flt := rfl
@[simp] theorem Dev.setEng_cis (s : Dev) (n : Nat) (x : Eng) : (s.setEng n x).cis = s.cis := rfl
@[simp] theorem Dev.setEng_pwr (s : Dev) (n : Nat) (x : Eng) : (s.setEng n x).pwr = s.pwr := rfl
@[simp] theorem Dev.setEng_lanes (s : Dev) (n : Nat) (x : Eng) : (s.setEng n x).lanes = s.lanes := rfl
@[simp] theorem Dev.setEng_links (s : Dev) (n : Nat) (x : Eng) : (s.setEng n x).links = s.links := rfl
@[simp] theorem Dev.setEng_host (s : Dev) (n : Nat) (x : Eng) : (s.setEng n x).host = s.host := rfl
@[simp] theorem Dev.setEng_nv (s : Dev) (n : Nat) (x : Eng) : (s.setEng n x).nv = s.nv := rfl
@[simp] theorem Dev.setEng_ucs (s : Dev) (n : Nat) (x : Eng) : (s.setEng n x).ucs = s.ucs := rfl
@[simp] theorem Dev.setEng_imgs (s : Dev) (n : Nat) (x : Eng) : (s.setEng n x).imgs = s.imgs := rfl
@[simp] theorem Dev.setEng_jtag (s : Dev) (n : Nat) (x : Eng) : (s.setEng n x).jtag = s.jtag := rfl
@[simp] theorem Dev.setEng_tdo (s : Dev) (n : Nat) (x : Eng) : (s.setEng n x).tdo = s.tdo := rfl
@[simp] theorem Dev.setEng_freeIx (s : Dev) (n : Nat) (x : Eng) : (s.setEng n x).freeIx = s.freeIx := rfl

@[simp] theorem Dev.setSite_sys (s : Dev) (n : Nat) (x : Site) : (s.setSite n x).sys = s.sys := rfl
@[simp] theorem Dev.setSite_clk (s : Dev) (n : Nat) (x : Site) : (s.setSite n x).clk = s.clk := rfl
@[simp] theorem Dev.setSite_stage (s : Dev) (n : Nat) (x : Site) : (s.setSite n x).stage = s.stage := rfl
@[simp] theorem Dev.setSite_regs (s : Dev) (n : Nat) (x : Site) : (s.setSite n x).regs = s.regs := rfl
@[simp] theorem Dev.setSite_mem (s : Dev) (n : Nat) (x : Site) : (s.setSite n x).mem = s.mem := rfl
@[simp] theorem Dev.setSite_scratch (s : Dev) (n : Nat) (x : Site) : (s.setSite n x).scratch = s.scratch := rfl
@[simp] theorem Dev.setSite_engs (s : Dev) (n : Nat) (x : Site) : (s.setSite n x).engs = s.engs := rfl
@[simp] theorem Dev.setSite_plys (s : Dev) (n : Nat) (x : Site) : (s.setSite n x).plys = s.plys := rfl
@[simp] theorem Dev.setSite_cmps (s : Dev) (n : Nat) (x : Site) : (s.setSite n x).cmps = s.cmps := rfl
@[simp] theorem Dev.setSite_quads (s : Dev) (n : Nat) (x : Site) : (s.setSite n x).quads = s.quads := rfl
@[simp] theorem Dev.setSite_circs (s : Dev) (n : Nat) (x : Site) : (s.setSite n x).circs = s.circs := rfl
@[simp] theorem Dev.setSite_chains (s : Dev) (n : Nat) (x : Site) : (s.setSite n x).chains = s.chains := rfl
@[simp] theorem Dev.setSite_acqs (s : Dev) (n : Nat) (x : Site) : (s.setSite n x).acqs = s.acqs := rfl
@[simp] theorem Dev.setSite_tdcs (s : Dev) (n : Nat) (x : Site) : (s.setSite n x).tdcs = s.tdcs := rfl
@[simp] theorem Dev.setSite_weirs (s : Dev) (n : Nat) (x : Site) : (s.setSite n x).weirs = s.weirs := rfl
@[simp] theorem Dev.setSite_slc (s : Dev) (n : Nat) (x : Site) : (s.setSite n x).slc = s.slc := rfl
@[simp] theorem Dev.setSite_led (s : Dev) (n : Nat) (x : Site) : (s.setSite n x).led = s.led := rfl
@[simp] theorem Dev.setSite_flt (s : Dev) (n : Nat) (x : Site) : (s.setSite n x).flt = s.flt := rfl
@[simp] theorem Dev.setSite_cis (s : Dev) (n : Nat) (x : Site) : (s.setSite n x).cis = s.cis := rfl
@[simp] theorem Dev.setSite_pwr (s : Dev) (n : Nat) (x : Site) : (s.setSite n x).pwr = s.pwr := rfl
@[simp] theorem Dev.setSite_lanes (s : Dev) (n : Nat) (x : Site) : (s.setSite n x).lanes = s.lanes := rfl
@[simp] theorem Dev.setSite_links (s : Dev) (n : Nat) (x : Site) : (s.setSite n x).links = s.links := rfl
@[simp] theorem Dev.setSite_host (s : Dev) (n : Nat) (x : Site) : (s.setSite n x).host = s.host := rfl
@[simp] theorem Dev.setSite_nv (s : Dev) (n : Nat) (x : Site) : (s.setSite n x).nv = s.nv := rfl
@[simp] theorem Dev.setSite_ucs (s : Dev) (n : Nat) (x : Site) : (s.setSite n x).ucs = s.ucs := rfl
@[simp] theorem Dev.setSite_imgs (s : Dev) (n : Nat) (x : Site) : (s.setSite n x).imgs = s.imgs := rfl
@[simp] theorem Dev.setSite_jtag (s : Dev) (n : Nat) (x : Site) : (s.setSite n x).jtag = s.jtag := rfl
@[simp] theorem Dev.setSite_tdo (s : Dev) (n : Nat) (x : Site) : (s.setSite n x).tdo = s.tdo := rfl
@[simp] theorem Dev.setSite_freeIx (s : Dev) (n : Nat) (x : Site) : (s.setSite n x).freeIx = s.freeIx := rfl

@[simp] theorem Dev.setPly_sys (s : Dev) (n : Nat) (x : Ply) : (s.setPly n x).sys = s.sys := rfl
@[simp] theorem Dev.setPly_clk (s : Dev) (n : Nat) (x : Ply) : (s.setPly n x).clk = s.clk := rfl
@[simp] theorem Dev.setPly_stage (s : Dev) (n : Nat) (x : Ply) : (s.setPly n x).stage = s.stage := rfl
@[simp] theorem Dev.setPly_regs (s : Dev) (n : Nat) (x : Ply) : (s.setPly n x).regs = s.regs := rfl
@[simp] theorem Dev.setPly_mem (s : Dev) (n : Nat) (x : Ply) : (s.setPly n x).mem = s.mem := rfl
@[simp] theorem Dev.setPly_scratch (s : Dev) (n : Nat) (x : Ply) : (s.setPly n x).scratch = s.scratch := rfl
@[simp] theorem Dev.setPly_engs (s : Dev) (n : Nat) (x : Ply) : (s.setPly n x).engs = s.engs := rfl
@[simp] theorem Dev.setPly_sites (s : Dev) (n : Nat) (x : Ply) : (s.setPly n x).sites = s.sites := rfl
@[simp] theorem Dev.setPly_cmps (s : Dev) (n : Nat) (x : Ply) : (s.setPly n x).cmps = s.cmps := rfl
@[simp] theorem Dev.setPly_quads (s : Dev) (n : Nat) (x : Ply) : (s.setPly n x).quads = s.quads := rfl
@[simp] theorem Dev.setPly_circs (s : Dev) (n : Nat) (x : Ply) : (s.setPly n x).circs = s.circs := rfl
@[simp] theorem Dev.setPly_chains (s : Dev) (n : Nat) (x : Ply) : (s.setPly n x).chains = s.chains := rfl
@[simp] theorem Dev.setPly_acqs (s : Dev) (n : Nat) (x : Ply) : (s.setPly n x).acqs = s.acqs := rfl
@[simp] theorem Dev.setPly_tdcs (s : Dev) (n : Nat) (x : Ply) : (s.setPly n x).tdcs = s.tdcs := rfl
@[simp] theorem Dev.setPly_weirs (s : Dev) (n : Nat) (x : Ply) : (s.setPly n x).weirs = s.weirs := rfl
@[simp] theorem Dev.setPly_slc (s : Dev) (n : Nat) (x : Ply) : (s.setPly n x).slc = s.slc := rfl
@[simp] theorem Dev.setPly_led (s : Dev) (n : Nat) (x : Ply) : (s.setPly n x).led = s.led := rfl
@[simp] theorem Dev.setPly_flt (s : Dev) (n : Nat) (x : Ply) : (s.setPly n x).flt = s.flt := rfl
@[simp] theorem Dev.setPly_cis (s : Dev) (n : Nat) (x : Ply) : (s.setPly n x).cis = s.cis := rfl
@[simp] theorem Dev.setPly_pwr (s : Dev) (n : Nat) (x : Ply) : (s.setPly n x).pwr = s.pwr := rfl
@[simp] theorem Dev.setPly_lanes (s : Dev) (n : Nat) (x : Ply) : (s.setPly n x).lanes = s.lanes := rfl
@[simp] theorem Dev.setPly_links (s : Dev) (n : Nat) (x : Ply) : (s.setPly n x).links = s.links := rfl
@[simp] theorem Dev.setPly_host (s : Dev) (n : Nat) (x : Ply) : (s.setPly n x).host = s.host := rfl
@[simp] theorem Dev.setPly_nv (s : Dev) (n : Nat) (x : Ply) : (s.setPly n x).nv = s.nv := rfl
@[simp] theorem Dev.setPly_ucs (s : Dev) (n : Nat) (x : Ply) : (s.setPly n x).ucs = s.ucs := rfl
@[simp] theorem Dev.setPly_imgs (s : Dev) (n : Nat) (x : Ply) : (s.setPly n x).imgs = s.imgs := rfl
@[simp] theorem Dev.setPly_jtag (s : Dev) (n : Nat) (x : Ply) : (s.setPly n x).jtag = s.jtag := rfl
@[simp] theorem Dev.setPly_tdo (s : Dev) (n : Nat) (x : Ply) : (s.setPly n x).tdo = s.tdo := rfl
@[simp] theorem Dev.setPly_freeIx (s : Dev) (n : Nat) (x : Ply) : (s.setPly n x).freeIx = s.freeIx := rfl

@[simp] theorem Dev.setQuad_sys (s : Dev) (n : Nat) (x : Quad) : (s.setQuad n x).sys = s.sys := rfl
@[simp] theorem Dev.setQuad_clk (s : Dev) (n : Nat) (x : Quad) : (s.setQuad n x).clk = s.clk := rfl
@[simp] theorem Dev.setQuad_stage (s : Dev) (n : Nat) (x : Quad) : (s.setQuad n x).stage = s.stage := rfl
@[simp] theorem Dev.setQuad_regs (s : Dev) (n : Nat) (x : Quad) : (s.setQuad n x).regs = s.regs := rfl
@[simp] theorem Dev.setQuad_mem (s : Dev) (n : Nat) (x : Quad) : (s.setQuad n x).mem = s.mem := rfl
@[simp] theorem Dev.setQuad_scratch (s : Dev) (n : Nat) (x : Quad) : (s.setQuad n x).scratch = s.scratch := rfl
@[simp] theorem Dev.setQuad_engs (s : Dev) (n : Nat) (x : Quad) : (s.setQuad n x).engs = s.engs := rfl
@[simp] theorem Dev.setQuad_sites (s : Dev) (n : Nat) (x : Quad) : (s.setQuad n x).sites = s.sites := rfl
@[simp] theorem Dev.setQuad_plys (s : Dev) (n : Nat) (x : Quad) : (s.setQuad n x).plys = s.plys := rfl
@[simp] theorem Dev.setQuad_cmps (s : Dev) (n : Nat) (x : Quad) : (s.setQuad n x).cmps = s.cmps := rfl
@[simp] theorem Dev.setQuad_circs (s : Dev) (n : Nat) (x : Quad) : (s.setQuad n x).circs = s.circs := rfl
@[simp] theorem Dev.setQuad_chains (s : Dev) (n : Nat) (x : Quad) : (s.setQuad n x).chains = s.chains := rfl
@[simp] theorem Dev.setQuad_acqs (s : Dev) (n : Nat) (x : Quad) : (s.setQuad n x).acqs = s.acqs := rfl
@[simp] theorem Dev.setQuad_tdcs (s : Dev) (n : Nat) (x : Quad) : (s.setQuad n x).tdcs = s.tdcs := rfl
@[simp] theorem Dev.setQuad_weirs (s : Dev) (n : Nat) (x : Quad) : (s.setQuad n x).weirs = s.weirs := rfl
@[simp] theorem Dev.setQuad_slc (s : Dev) (n : Nat) (x : Quad) : (s.setQuad n x).slc = s.slc := rfl
@[simp] theorem Dev.setQuad_led (s : Dev) (n : Nat) (x : Quad) : (s.setQuad n x).led = s.led := rfl
@[simp] theorem Dev.setQuad_flt (s : Dev) (n : Nat) (x : Quad) : (s.setQuad n x).flt = s.flt := rfl
@[simp] theorem Dev.setQuad_cis (s : Dev) (n : Nat) (x : Quad) : (s.setQuad n x).cis = s.cis := rfl
@[simp] theorem Dev.setQuad_pwr (s : Dev) (n : Nat) (x : Quad) : (s.setQuad n x).pwr = s.pwr := rfl
@[simp] theorem Dev.setQuad_lanes (s : Dev) (n : Nat) (x : Quad) : (s.setQuad n x).lanes = s.lanes := rfl
@[simp] theorem Dev.setQuad_links (s : Dev) (n : Nat) (x : Quad) : (s.setQuad n x).links = s.links := rfl
@[simp] theorem Dev.setQuad_host (s : Dev) (n : Nat) (x : Quad) : (s.setQuad n x).host = s.host := rfl
@[simp] theorem Dev.setQuad_nv (s : Dev) (n : Nat) (x : Quad) : (s.setQuad n x).nv = s.nv := rfl
@[simp] theorem Dev.setQuad_ucs (s : Dev) (n : Nat) (x : Quad) : (s.setQuad n x).ucs = s.ucs := rfl
@[simp] theorem Dev.setQuad_imgs (s : Dev) (n : Nat) (x : Quad) : (s.setQuad n x).imgs = s.imgs := rfl
@[simp] theorem Dev.setQuad_jtag (s : Dev) (n : Nat) (x : Quad) : (s.setQuad n x).jtag = s.jtag := rfl
@[simp] theorem Dev.setQuad_tdo (s : Dev) (n : Nat) (x : Quad) : (s.setQuad n x).tdo = s.tdo := rfl
@[simp] theorem Dev.setQuad_freeIx (s : Dev) (n : Nat) (x : Quad) : (s.setQuad n x).freeIx = s.freeIx := rfl

@[simp] theorem Dev.setCirc_sys (s : Dev) (n : Nat) (x : Circ) : (s.setCirc n x).sys = s.sys := rfl
@[simp] theorem Dev.setCirc_clk (s : Dev) (n : Nat) (x : Circ) : (s.setCirc n x).clk = s.clk := rfl
@[simp] theorem Dev.setCirc_stage (s : Dev) (n : Nat) (x : Circ) : (s.setCirc n x).stage = s.stage := rfl
@[simp] theorem Dev.setCirc_regs (s : Dev) (n : Nat) (x : Circ) : (s.setCirc n x).regs = s.regs := rfl
@[simp] theorem Dev.setCirc_mem (s : Dev) (n : Nat) (x : Circ) : (s.setCirc n x).mem = s.mem := rfl
@[simp] theorem Dev.setCirc_scratch (s : Dev) (n : Nat) (x : Circ) : (s.setCirc n x).scratch = s.scratch := rfl
@[simp] theorem Dev.setCirc_engs (s : Dev) (n : Nat) (x : Circ) : (s.setCirc n x).engs = s.engs := rfl
@[simp] theorem Dev.setCirc_sites (s : Dev) (n : Nat) (x : Circ) : (s.setCirc n x).sites = s.sites := rfl
@[simp] theorem Dev.setCirc_plys (s : Dev) (n : Nat) (x : Circ) : (s.setCirc n x).plys = s.plys := rfl
@[simp] theorem Dev.setCirc_cmps (s : Dev) (n : Nat) (x : Circ) : (s.setCirc n x).cmps = s.cmps := rfl
@[simp] theorem Dev.setCirc_quads (s : Dev) (n : Nat) (x : Circ) : (s.setCirc n x).quads = s.quads := rfl
@[simp] theorem Dev.setCirc_chains (s : Dev) (n : Nat) (x : Circ) : (s.setCirc n x).chains = s.chains := rfl
@[simp] theorem Dev.setCirc_acqs (s : Dev) (n : Nat) (x : Circ) : (s.setCirc n x).acqs = s.acqs := rfl
@[simp] theorem Dev.setCirc_tdcs (s : Dev) (n : Nat) (x : Circ) : (s.setCirc n x).tdcs = s.tdcs := rfl
@[simp] theorem Dev.setCirc_weirs (s : Dev) (n : Nat) (x : Circ) : (s.setCirc n x).weirs = s.weirs := rfl
@[simp] theorem Dev.setCirc_slc (s : Dev) (n : Nat) (x : Circ) : (s.setCirc n x).slc = s.slc := rfl
@[simp] theorem Dev.setCirc_led (s : Dev) (n : Nat) (x : Circ) : (s.setCirc n x).led = s.led := rfl
@[simp] theorem Dev.setCirc_flt (s : Dev) (n : Nat) (x : Circ) : (s.setCirc n x).flt = s.flt := rfl
@[simp] theorem Dev.setCirc_cis (s : Dev) (n : Nat) (x : Circ) : (s.setCirc n x).cis = s.cis := rfl
@[simp] theorem Dev.setCirc_pwr (s : Dev) (n : Nat) (x : Circ) : (s.setCirc n x).pwr = s.pwr := rfl
@[simp] theorem Dev.setCirc_lanes (s : Dev) (n : Nat) (x : Circ) : (s.setCirc n x).lanes = s.lanes := rfl
@[simp] theorem Dev.setCirc_links (s : Dev) (n : Nat) (x : Circ) : (s.setCirc n x).links = s.links := rfl
@[simp] theorem Dev.setCirc_host (s : Dev) (n : Nat) (x : Circ) : (s.setCirc n x).host = s.host := rfl
@[simp] theorem Dev.setCirc_nv (s : Dev) (n : Nat) (x : Circ) : (s.setCirc n x).nv = s.nv := rfl
@[simp] theorem Dev.setCirc_ucs (s : Dev) (n : Nat) (x : Circ) : (s.setCirc n x).ucs = s.ucs := rfl
@[simp] theorem Dev.setCirc_imgs (s : Dev) (n : Nat) (x : Circ) : (s.setCirc n x).imgs = s.imgs := rfl
@[simp] theorem Dev.setCirc_jtag (s : Dev) (n : Nat) (x : Circ) : (s.setCirc n x).jtag = s.jtag := rfl
@[simp] theorem Dev.setCirc_tdo (s : Dev) (n : Nat) (x : Circ) : (s.setCirc n x).tdo = s.tdo := rfl
@[simp] theorem Dev.setCirc_freeIx (s : Dev) (n : Nat) (x : Circ) : (s.setCirc n x).freeIx = s.freeIx := rfl

@[simp] theorem Dev.setChain_sys (s : Dev) (n : Nat) (x : Chain) : (s.setChain n x).sys = s.sys := rfl
@[simp] theorem Dev.setChain_clk (s : Dev) (n : Nat) (x : Chain) : (s.setChain n x).clk = s.clk := rfl
@[simp] theorem Dev.setChain_stage (s : Dev) (n : Nat) (x : Chain) : (s.setChain n x).stage = s.stage := rfl
@[simp] theorem Dev.setChain_regs (s : Dev) (n : Nat) (x : Chain) : (s.setChain n x).regs = s.regs := rfl
@[simp] theorem Dev.setChain_mem (s : Dev) (n : Nat) (x : Chain) : (s.setChain n x).mem = s.mem := rfl
@[simp] theorem Dev.setChain_scratch (s : Dev) (n : Nat) (x : Chain) : (s.setChain n x).scratch = s.scratch := rfl
@[simp] theorem Dev.setChain_engs (s : Dev) (n : Nat) (x : Chain) : (s.setChain n x).engs = s.engs := rfl
@[simp] theorem Dev.setChain_sites (s : Dev) (n : Nat) (x : Chain) : (s.setChain n x).sites = s.sites := rfl
@[simp] theorem Dev.setChain_plys (s : Dev) (n : Nat) (x : Chain) : (s.setChain n x).plys = s.plys := rfl
@[simp] theorem Dev.setChain_cmps (s : Dev) (n : Nat) (x : Chain) : (s.setChain n x).cmps = s.cmps := rfl
@[simp] theorem Dev.setChain_quads (s : Dev) (n : Nat) (x : Chain) : (s.setChain n x).quads = s.quads := rfl
@[simp] theorem Dev.setChain_circs (s : Dev) (n : Nat) (x : Chain) : (s.setChain n x).circs = s.circs := rfl
@[simp] theorem Dev.setChain_acqs (s : Dev) (n : Nat) (x : Chain) : (s.setChain n x).acqs = s.acqs := rfl
@[simp] theorem Dev.setChain_tdcs (s : Dev) (n : Nat) (x : Chain) : (s.setChain n x).tdcs = s.tdcs := rfl
@[simp] theorem Dev.setChain_weirs (s : Dev) (n : Nat) (x : Chain) : (s.setChain n x).weirs = s.weirs := rfl
@[simp] theorem Dev.setChain_slc (s : Dev) (n : Nat) (x : Chain) : (s.setChain n x).slc = s.slc := rfl
@[simp] theorem Dev.setChain_led (s : Dev) (n : Nat) (x : Chain) : (s.setChain n x).led = s.led := rfl
@[simp] theorem Dev.setChain_flt (s : Dev) (n : Nat) (x : Chain) : (s.setChain n x).flt = s.flt := rfl
@[simp] theorem Dev.setChain_cis (s : Dev) (n : Nat) (x : Chain) : (s.setChain n x).cis = s.cis := rfl
@[simp] theorem Dev.setChain_pwr (s : Dev) (n : Nat) (x : Chain) : (s.setChain n x).pwr = s.pwr := rfl
@[simp] theorem Dev.setChain_lanes (s : Dev) (n : Nat) (x : Chain) : (s.setChain n x).lanes = s.lanes := rfl
@[simp] theorem Dev.setChain_links (s : Dev) (n : Nat) (x : Chain) : (s.setChain n x).links = s.links := rfl
@[simp] theorem Dev.setChain_host (s : Dev) (n : Nat) (x : Chain) : (s.setChain n x).host = s.host := rfl
@[simp] theorem Dev.setChain_nv (s : Dev) (n : Nat) (x : Chain) : (s.setChain n x).nv = s.nv := rfl
@[simp] theorem Dev.setChain_ucs (s : Dev) (n : Nat) (x : Chain) : (s.setChain n x).ucs = s.ucs := rfl
@[simp] theorem Dev.setChain_imgs (s : Dev) (n : Nat) (x : Chain) : (s.setChain n x).imgs = s.imgs := rfl
@[simp] theorem Dev.setChain_jtag (s : Dev) (n : Nat) (x : Chain) : (s.setChain n x).jtag = s.jtag := rfl
@[simp] theorem Dev.setChain_tdo (s : Dev) (n : Nat) (x : Chain) : (s.setChain n x).tdo = s.tdo := rfl
@[simp] theorem Dev.setChain_freeIx (s : Dev) (n : Nat) (x : Chain) : (s.setChain n x).freeIx = s.freeIx := rfl

@[simp] theorem Dev.setAcq_sys (s : Dev) (n : Nat) (x : Acq) : (s.setAcq n x).sys = s.sys := rfl
@[simp] theorem Dev.setAcq_clk (s : Dev) (n : Nat) (x : Acq) : (s.setAcq n x).clk = s.clk := rfl
@[simp] theorem Dev.setAcq_stage (s : Dev) (n : Nat) (x : Acq) : (s.setAcq n x).stage = s.stage := rfl
@[simp] theorem Dev.setAcq_regs (s : Dev) (n : Nat) (x : Acq) : (s.setAcq n x).regs = s.regs := rfl
@[simp] theorem Dev.setAcq_mem (s : Dev) (n : Nat) (x : Acq) : (s.setAcq n x).mem = s.mem := rfl
@[simp] theorem Dev.setAcq_scratch (s : Dev) (n : Nat) (x : Acq) : (s.setAcq n x).scratch = s.scratch := rfl
@[simp] theorem Dev.setAcq_engs (s : Dev) (n : Nat) (x : Acq) : (s.setAcq n x).engs = s.engs := rfl
@[simp] theorem Dev.setAcq_sites (s : Dev) (n : Nat) (x : Acq) : (s.setAcq n x).sites = s.sites := rfl
@[simp] theorem Dev.setAcq_plys (s : Dev) (n : Nat) (x : Acq) : (s.setAcq n x).plys = s.plys := rfl
@[simp] theorem Dev.setAcq_cmps (s : Dev) (n : Nat) (x : Acq) : (s.setAcq n x).cmps = s.cmps := rfl
@[simp] theorem Dev.setAcq_quads (s : Dev) (n : Nat) (x : Acq) : (s.setAcq n x).quads = s.quads := rfl
@[simp] theorem Dev.setAcq_circs (s : Dev) (n : Nat) (x : Acq) : (s.setAcq n x).circs = s.circs := rfl
@[simp] theorem Dev.setAcq_chains (s : Dev) (n : Nat) (x : Acq) : (s.setAcq n x).chains = s.chains := rfl
@[simp] theorem Dev.setAcq_tdcs (s : Dev) (n : Nat) (x : Acq) : (s.setAcq n x).tdcs = s.tdcs := rfl
@[simp] theorem Dev.setAcq_weirs (s : Dev) (n : Nat) (x : Acq) : (s.setAcq n x).weirs = s.weirs := rfl
@[simp] theorem Dev.setAcq_slc (s : Dev) (n : Nat) (x : Acq) : (s.setAcq n x).slc = s.slc := rfl
@[simp] theorem Dev.setAcq_led (s : Dev) (n : Nat) (x : Acq) : (s.setAcq n x).led = s.led := rfl
@[simp] theorem Dev.setAcq_flt (s : Dev) (n : Nat) (x : Acq) : (s.setAcq n x).flt = s.flt := rfl
@[simp] theorem Dev.setAcq_cis (s : Dev) (n : Nat) (x : Acq) : (s.setAcq n x).cis = s.cis := rfl
@[simp] theorem Dev.setAcq_pwr (s : Dev) (n : Nat) (x : Acq) : (s.setAcq n x).pwr = s.pwr := rfl
@[simp] theorem Dev.setAcq_lanes (s : Dev) (n : Nat) (x : Acq) : (s.setAcq n x).lanes = s.lanes := rfl
@[simp] theorem Dev.setAcq_links (s : Dev) (n : Nat) (x : Acq) : (s.setAcq n x).links = s.links := rfl
@[simp] theorem Dev.setAcq_host (s : Dev) (n : Nat) (x : Acq) : (s.setAcq n x).host = s.host := rfl
@[simp] theorem Dev.setAcq_nv (s : Dev) (n : Nat) (x : Acq) : (s.setAcq n x).nv = s.nv := rfl
@[simp] theorem Dev.setAcq_ucs (s : Dev) (n : Nat) (x : Acq) : (s.setAcq n x).ucs = s.ucs := rfl
@[simp] theorem Dev.setAcq_imgs (s : Dev) (n : Nat) (x : Acq) : (s.setAcq n x).imgs = s.imgs := rfl
@[simp] theorem Dev.setAcq_jtag (s : Dev) (n : Nat) (x : Acq) : (s.setAcq n x).jtag = s.jtag := rfl
@[simp] theorem Dev.setAcq_tdo (s : Dev) (n : Nat) (x : Acq) : (s.setAcq n x).tdo = s.tdo := rfl
@[simp] theorem Dev.setAcq_freeIx (s : Dev) (n : Nat) (x : Acq) : (s.setAcq n x).freeIx = s.freeIx := rfl

@[simp] theorem Dev.setTdc_sys (s : Dev) (n : Nat) (x : Tdc) : (s.setTdc n x).sys = s.sys := rfl
@[simp] theorem Dev.setTdc_clk (s : Dev) (n : Nat) (x : Tdc) : (s.setTdc n x).clk = s.clk := rfl
@[simp] theorem Dev.setTdc_stage (s : Dev) (n : Nat) (x : Tdc) : (s.setTdc n x).stage = s.stage := rfl
@[simp] theorem Dev.setTdc_regs (s : Dev) (n : Nat) (x : Tdc) : (s.setTdc n x).regs = s.regs := rfl
@[simp] theorem Dev.setTdc_mem (s : Dev) (n : Nat) (x : Tdc) : (s.setTdc n x).mem = s.mem := rfl
@[simp] theorem Dev.setTdc_scratch (s : Dev) (n : Nat) (x : Tdc) : (s.setTdc n x).scratch = s.scratch := rfl
@[simp] theorem Dev.setTdc_engs (s : Dev) (n : Nat) (x : Tdc) : (s.setTdc n x).engs = s.engs := rfl
@[simp] theorem Dev.setTdc_sites (s : Dev) (n : Nat) (x : Tdc) : (s.setTdc n x).sites = s.sites := rfl
@[simp] theorem Dev.setTdc_plys (s : Dev) (n : Nat) (x : Tdc) : (s.setTdc n x).plys = s.plys := rfl
@[simp] theorem Dev.setTdc_cmps (s : Dev) (n : Nat) (x : Tdc) : (s.setTdc n x).cmps = s.cmps := rfl
@[simp] theorem Dev.setTdc_quads (s : Dev) (n : Nat) (x : Tdc) : (s.setTdc n x).quads = s.quads := rfl
@[simp] theorem Dev.setTdc_circs (s : Dev) (n : Nat) (x : Tdc) : (s.setTdc n x).circs = s.circs := rfl
@[simp] theorem Dev.setTdc_chains (s : Dev) (n : Nat) (x : Tdc) : (s.setTdc n x).chains = s.chains := rfl
@[simp] theorem Dev.setTdc_acqs (s : Dev) (n : Nat) (x : Tdc) : (s.setTdc n x).acqs = s.acqs := rfl
@[simp] theorem Dev.setTdc_weirs (s : Dev) (n : Nat) (x : Tdc) : (s.setTdc n x).weirs = s.weirs := rfl
@[simp] theorem Dev.setTdc_slc (s : Dev) (n : Nat) (x : Tdc) : (s.setTdc n x).slc = s.slc := rfl
@[simp] theorem Dev.setTdc_led (s : Dev) (n : Nat) (x : Tdc) : (s.setTdc n x).led = s.led := rfl
@[simp] theorem Dev.setTdc_flt (s : Dev) (n : Nat) (x : Tdc) : (s.setTdc n x).flt = s.flt := rfl
@[simp] theorem Dev.setTdc_cis (s : Dev) (n : Nat) (x : Tdc) : (s.setTdc n x).cis = s.cis := rfl
@[simp] theorem Dev.setTdc_pwr (s : Dev) (n : Nat) (x : Tdc) : (s.setTdc n x).pwr = s.pwr := rfl
@[simp] theorem Dev.setTdc_lanes (s : Dev) (n : Nat) (x : Tdc) : (s.setTdc n x).lanes = s.lanes := rfl
@[simp] theorem Dev.setTdc_links (s : Dev) (n : Nat) (x : Tdc) : (s.setTdc n x).links = s.links := rfl
@[simp] theorem Dev.setTdc_host (s : Dev) (n : Nat) (x : Tdc) : (s.setTdc n x).host = s.host := rfl
@[simp] theorem Dev.setTdc_nv (s : Dev) (n : Nat) (x : Tdc) : (s.setTdc n x).nv = s.nv := rfl
@[simp] theorem Dev.setTdc_ucs (s : Dev) (n : Nat) (x : Tdc) : (s.setTdc n x).ucs = s.ucs := rfl
@[simp] theorem Dev.setTdc_imgs (s : Dev) (n : Nat) (x : Tdc) : (s.setTdc n x).imgs = s.imgs := rfl
@[simp] theorem Dev.setTdc_jtag (s : Dev) (n : Nat) (x : Tdc) : (s.setTdc n x).jtag = s.jtag := rfl
@[simp] theorem Dev.setTdc_tdo (s : Dev) (n : Nat) (x : Tdc) : (s.setTdc n x).tdo = s.tdo := rfl
@[simp] theorem Dev.setTdc_freeIx (s : Dev) (n : Nat) (x : Tdc) : (s.setTdc n x).freeIx = s.freeIx := rfl

@[simp] theorem Dev.setWeir_sys (s : Dev) (n : Nat) (x : Weir) : (s.setWeir n x).sys = s.sys := rfl
@[simp] theorem Dev.setWeir_clk (s : Dev) (n : Nat) (x : Weir) : (s.setWeir n x).clk = s.clk := rfl
@[simp] theorem Dev.setWeir_stage (s : Dev) (n : Nat) (x : Weir) : (s.setWeir n x).stage = s.stage := rfl
@[simp] theorem Dev.setWeir_regs (s : Dev) (n : Nat) (x : Weir) : (s.setWeir n x).regs = s.regs := rfl
@[simp] theorem Dev.setWeir_mem (s : Dev) (n : Nat) (x : Weir) : (s.setWeir n x).mem = s.mem := rfl
@[simp] theorem Dev.setWeir_scratch (s : Dev) (n : Nat) (x : Weir) : (s.setWeir n x).scratch = s.scratch := rfl
@[simp] theorem Dev.setWeir_engs (s : Dev) (n : Nat) (x : Weir) : (s.setWeir n x).engs = s.engs := rfl
@[simp] theorem Dev.setWeir_sites (s : Dev) (n : Nat) (x : Weir) : (s.setWeir n x).sites = s.sites := rfl
@[simp] theorem Dev.setWeir_plys (s : Dev) (n : Nat) (x : Weir) : (s.setWeir n x).plys = s.plys := rfl
@[simp] theorem Dev.setWeir_cmps (s : Dev) (n : Nat) (x : Weir) : (s.setWeir n x).cmps = s.cmps := rfl
@[simp] theorem Dev.setWeir_quads (s : Dev) (n : Nat) (x : Weir) : (s.setWeir n x).quads = s.quads := rfl
@[simp] theorem Dev.setWeir_circs (s : Dev) (n : Nat) (x : Weir) : (s.setWeir n x).circs = s.circs := rfl
@[simp] theorem Dev.setWeir_chains (s : Dev) (n : Nat) (x : Weir) : (s.setWeir n x).chains = s.chains := rfl
@[simp] theorem Dev.setWeir_acqs (s : Dev) (n : Nat) (x : Weir) : (s.setWeir n x).acqs = s.acqs := rfl
@[simp] theorem Dev.setWeir_tdcs (s : Dev) (n : Nat) (x : Weir) : (s.setWeir n x).tdcs = s.tdcs := rfl
@[simp] theorem Dev.setWeir_slc (s : Dev) (n : Nat) (x : Weir) : (s.setWeir n x).slc = s.slc := rfl
@[simp] theorem Dev.setWeir_led (s : Dev) (n : Nat) (x : Weir) : (s.setWeir n x).led = s.led := rfl
@[simp] theorem Dev.setWeir_flt (s : Dev) (n : Nat) (x : Weir) : (s.setWeir n x).flt = s.flt := rfl
@[simp] theorem Dev.setWeir_cis (s : Dev) (n : Nat) (x : Weir) : (s.setWeir n x).cis = s.cis := rfl
@[simp] theorem Dev.setWeir_pwr (s : Dev) (n : Nat) (x : Weir) : (s.setWeir n x).pwr = s.pwr := rfl
@[simp] theorem Dev.setWeir_lanes (s : Dev) (n : Nat) (x : Weir) : (s.setWeir n x).lanes = s.lanes := rfl
@[simp] theorem Dev.setWeir_links (s : Dev) (n : Nat) (x : Weir) : (s.setWeir n x).links = s.links := rfl
@[simp] theorem Dev.setWeir_host (s : Dev) (n : Nat) (x : Weir) : (s.setWeir n x).host = s.host := rfl
@[simp] theorem Dev.setWeir_nv (s : Dev) (n : Nat) (x : Weir) : (s.setWeir n x).nv = s.nv := rfl
@[simp] theorem Dev.setWeir_ucs (s : Dev) (n : Nat) (x : Weir) : (s.setWeir n x).ucs = s.ucs := rfl
@[simp] theorem Dev.setWeir_imgs (s : Dev) (n : Nat) (x : Weir) : (s.setWeir n x).imgs = s.imgs := rfl
@[simp] theorem Dev.setWeir_jtag (s : Dev) (n : Nat) (x : Weir) : (s.setWeir n x).jtag = s.jtag := rfl
@[simp] theorem Dev.setWeir_tdo (s : Dev) (n : Nat) (x : Weir) : (s.setWeir n x).tdo = s.tdo := rfl
@[simp] theorem Dev.setWeir_freeIx (s : Dev) (n : Nat) (x : Weir) : (s.setWeir n x).freeIx = s.freeIx := rfl

@[simp] theorem Dev.setSensor_sys (s : Dev) (n : Nat) (x : Sensor) : (s.setSensor n x).sys = s.sys := rfl
@[simp] theorem Dev.setSensor_clk (s : Dev) (n : Nat) (x : Sensor) : (s.setSensor n x).clk = s.clk := rfl
@[simp] theorem Dev.setSensor_stage (s : Dev) (n : Nat) (x : Sensor) : (s.setSensor n x).stage = s.stage := rfl
@[simp] theorem Dev.setSensor_regs (s : Dev) (n : Nat) (x : Sensor) : (s.setSensor n x).regs = s.regs := rfl
@[simp] theorem Dev.setSensor_mem (s : Dev) (n : Nat) (x : Sensor) : (s.setSensor n x).mem = s.mem := rfl
@[simp] theorem Dev.setSensor_scratch (s : Dev) (n : Nat) (x : Sensor) : (s.setSensor n x).scratch = s.scratch := rfl
@[simp] theorem Dev.setSensor_engs (s : Dev) (n : Nat) (x : Sensor) : (s.setSensor n x).engs = s.engs := rfl
@[simp] theorem Dev.setSensor_sites (s : Dev) (n : Nat) (x : Sensor) : (s.setSensor n x).sites = s.sites := rfl
@[simp] theorem Dev.setSensor_plys (s : Dev) (n : Nat) (x : Sensor) : (s.setSensor n x).plys = s.plys := rfl
@[simp] theorem Dev.setSensor_cmps (s : Dev) (n : Nat) (x : Sensor) : (s.setSensor n x).cmps = s.cmps := rfl
@[simp] theorem Dev.setSensor_quads (s : Dev) (n : Nat) (x : Sensor) : (s.setSensor n x).quads = s.quads := rfl
@[simp] theorem Dev.setSensor_circs (s : Dev) (n : Nat) (x : Sensor) : (s.setSensor n x).circs = s.circs := rfl
@[simp] theorem Dev.setSensor_chains (s : Dev) (n : Nat) (x : Sensor) : (s.setSensor n x).chains = s.chains := rfl
@[simp] theorem Dev.setSensor_acqs (s : Dev) (n : Nat) (x : Sensor) : (s.setSensor n x).acqs = s.acqs := rfl
@[simp] theorem Dev.setSensor_tdcs (s : Dev) (n : Nat) (x : Sensor) : (s.setSensor n x).tdcs = s.tdcs := rfl
@[simp] theorem Dev.setSensor_weirs (s : Dev) (n : Nat) (x : Sensor) : (s.setSensor n x).weirs = s.weirs := rfl
@[simp] theorem Dev.setSensor_slc (s : Dev) (n : Nat) (x : Sensor) : (s.setSensor n x).slc = s.slc := rfl
@[simp] theorem Dev.setSensor_led (s : Dev) (n : Nat) (x : Sensor) : (s.setSensor n x).led = s.led := rfl
@[simp] theorem Dev.setSensor_flt (s : Dev) (n : Nat) (x : Sensor) : (s.setSensor n x).flt = s.flt := rfl
@[simp] theorem Dev.setSensor_cis (s : Dev) (n : Nat) (x : Sensor) : (s.setSensor n x).cis = s.cis := rfl
@[simp] theorem Dev.setSensor_lanes (s : Dev) (n : Nat) (x : Sensor) : (s.setSensor n x).lanes = s.lanes := rfl
@[simp] theorem Dev.setSensor_links (s : Dev) (n : Nat) (x : Sensor) : (s.setSensor n x).links = s.links := rfl
@[simp] theorem Dev.setSensor_host (s : Dev) (n : Nat) (x : Sensor) : (s.setSensor n x).host = s.host := rfl
@[simp] theorem Dev.setSensor_nv (s : Dev) (n : Nat) (x : Sensor) : (s.setSensor n x).nv = s.nv := rfl
@[simp] theorem Dev.setSensor_ucs (s : Dev) (n : Nat) (x : Sensor) : (s.setSensor n x).ucs = s.ucs := rfl
@[simp] theorem Dev.setSensor_imgs (s : Dev) (n : Nat) (x : Sensor) : (s.setSensor n x).imgs = s.imgs := rfl
@[simp] theorem Dev.setSensor_jtag (s : Dev) (n : Nat) (x : Sensor) : (s.setSensor n x).jtag = s.jtag := rfl
@[simp] theorem Dev.setSensor_tdo (s : Dev) (n : Nat) (x : Sensor) : (s.setSensor n x).tdo = s.tdo := rfl
@[simp] theorem Dev.setSensor_freeIx (s : Dev) (n : Nat) (x : Sensor) : (s.setSensor n x).freeIx = s.freeIx := rfl
@[simp] theorem Dev.setSensor_pwr_fast (s : Dev) (n : Nat) (x : Sensor) : (s.setSensor n x).pwr.fast = s.pwr.fast := rfl
@[simp] theorem Dev.setSensor_pwr_on (s : Dev) (n : Nat) (x : Sensor) : (s.setSensor n x).pwr.on = s.pwr.on := rfl
@[simp] theorem Dev.setSensor_pwr_good (s : Dev) (n : Nat) (x : Sensor) : (s.setSensor n x).pwr.good = s.pwr.good := rfl
@[simp] theorem Dev.setSensor_pwr_wait (s : Dev) (n : Nat) (x : Sensor) : (s.setSensor n x).pwr.wait = s.pwr.wait := rfl
@[simp] theorem Dev.setSensor_pwr_fresh (s : Dev) (n : Nat) (x : Sensor) : (s.setSensor n x).pwr.fresh = s.pwr.fresh := rfl
@[simp] theorem Dev.setSensor_pwr_groups (s : Dev) (n : Nat) (x : Sensor) : (s.setSensor n x).pwr.groups = s.pwr.groups := rfl
@[simp] theorem Dev.setSensor_pwr_asked (s : Dev) (n : Nat) (x : Sensor) : (s.setSensor n x).pwr.asked = s.pwr.asked := rfl
@[simp] theorem Dev.setSensor_pwr_job (s : Dev) (n : Nat) (x : Sensor) : (s.setSensor n x).pwr.job = s.pwr.job := rfl
@[simp] theorem Dev.setSensor_pwr_overN (s : Dev) (n : Nat) (x : Sensor) : (s.setSensor n x).pwr.overN = s.pwr.overN := rfl

@[simp] theorem Dev.setLane_sys (s : Dev) (n : Nat) (x : Lane) : (s.setLane n x).sys = s.sys := rfl
@[simp] theorem Dev.setLane_clk (s : Dev) (n : Nat) (x : Lane) : (s.setLane n x).clk = s.clk := rfl
@[simp] theorem Dev.setLane_stage (s : Dev) (n : Nat) (x : Lane) : (s.setLane n x).stage = s.stage := rfl
@[simp] theorem Dev.setLane_regs (s : Dev) (n : Nat) (x : Lane) : (s.setLane n x).regs = s.regs := rfl
@[simp] theorem Dev.setLane_mem (s : Dev) (n : Nat) (x : Lane) : (s.setLane n x).mem = s.mem := rfl
@[simp] theorem Dev.setLane_scratch (s : Dev) (n : Nat) (x : Lane) : (s.setLane n x).scratch = s.scratch := rfl
@[simp] theorem Dev.setLane_engs (s : Dev) (n : Nat) (x : Lane) : (s.setLane n x).engs = s.engs := rfl
@[simp] theorem Dev.setLane_sites (s : Dev) (n : Nat) (x : Lane) : (s.setLane n x).sites = s.sites := rfl
@[simp] theorem Dev.setLane_plys (s : Dev) (n : Nat) (x : Lane) : (s.setLane n x).plys = s.plys := rfl
@[simp] theorem Dev.setLane_cmps (s : Dev) (n : Nat) (x : Lane) : (s.setLane n x).cmps = s.cmps := rfl
@[simp] theorem Dev.setLane_quads (s : Dev) (n : Nat) (x : Lane) : (s.setLane n x).quads = s.quads := rfl
@[simp] theorem Dev.setLane_circs (s : Dev) (n : Nat) (x : Lane) : (s.setLane n x).circs = s.circs := rfl
@[simp] theorem Dev.setLane_chains (s : Dev) (n : Nat) (x : Lane) : (s.setLane n x).chains = s.chains := rfl
@[simp] theorem Dev.setLane_acqs (s : Dev) (n : Nat) (x : Lane) : (s.setLane n x).acqs = s.acqs := rfl
@[simp] theorem Dev.setLane_tdcs (s : Dev) (n : Nat) (x : Lane) : (s.setLane n x).tdcs = s.tdcs := rfl
@[simp] theorem Dev.setLane_weirs (s : Dev) (n : Nat) (x : Lane) : (s.setLane n x).weirs = s.weirs := rfl
@[simp] theorem Dev.setLane_slc (s : Dev) (n : Nat) (x : Lane) : (s.setLane n x).slc = s.slc := rfl
@[simp] theorem Dev.setLane_led (s : Dev) (n : Nat) (x : Lane) : (s.setLane n x).led = s.led := rfl
@[simp] theorem Dev.setLane_flt (s : Dev) (n : Nat) (x : Lane) : (s.setLane n x).flt = s.flt := rfl
@[simp] theorem Dev.setLane_cis (s : Dev) (n : Nat) (x : Lane) : (s.setLane n x).cis = s.cis := rfl
@[simp] theorem Dev.setLane_pwr (s : Dev) (n : Nat) (x : Lane) : (s.setLane n x).pwr = s.pwr := rfl
@[simp] theorem Dev.setLane_links (s : Dev) (n : Nat) (x : Lane) : (s.setLane n x).links = s.links := rfl
@[simp] theorem Dev.setLane_host (s : Dev) (n : Nat) (x : Lane) : (s.setLane n x).host = s.host := rfl
@[simp] theorem Dev.setLane_nv (s : Dev) (n : Nat) (x : Lane) : (s.setLane n x).nv = s.nv := rfl
@[simp] theorem Dev.setLane_ucs (s : Dev) (n : Nat) (x : Lane) : (s.setLane n x).ucs = s.ucs := rfl
@[simp] theorem Dev.setLane_imgs (s : Dev) (n : Nat) (x : Lane) : (s.setLane n x).imgs = s.imgs := rfl
@[simp] theorem Dev.setLane_jtag (s : Dev) (n : Nat) (x : Lane) : (s.setLane n x).jtag = s.jtag := rfl
@[simp] theorem Dev.setLane_tdo (s : Dev) (n : Nat) (x : Lane) : (s.setLane n x).tdo = s.tdo := rfl
@[simp] theorem Dev.setLane_freeIx (s : Dev) (n : Nat) (x : Lane) : (s.setLane n x).freeIx = s.freeIx := rfl

@[simp] theorem Dev.setLink_sys (s : Dev) (n : Nat) (x : Link) : (s.setLink n x).sys = s.sys := rfl
@[simp] theorem Dev.setLink_clk (s : Dev) (n : Nat) (x : Link) : (s.setLink n x).clk = s.clk := rfl
@[simp] theorem Dev.setLink_stage (s : Dev) (n : Nat) (x : Link) : (s.setLink n x).stage = s.stage := rfl
@[simp] theorem Dev.setLink_regs (s : Dev) (n : Nat) (x : Link) : (s.setLink n x).regs = s.regs := rfl
@[simp] theorem Dev.setLink_mem (s : Dev) (n : Nat) (x : Link) : (s.setLink n x).mem = s.mem := rfl
@[simp] theorem Dev.setLink_scratch (s : Dev) (n : Nat) (x : Link) : (s.setLink n x).scratch = s.scratch := rfl
@[simp] theorem Dev.setLink_engs (s : Dev) (n : Nat) (x : Link) : (s.setLink n x).engs = s.engs := rfl
@[simp] theorem Dev.setLink_sites (s : Dev) (n : Nat) (x : Link) : (s.setLink n x).sites = s.sites := rfl
@[simp] theorem Dev.setLink_plys (s : Dev) (n : Nat) (x : Link) : (s.setLink n x).plys = s.plys := rfl
@[simp] theorem Dev.setLink_cmps (s : Dev) (n : Nat) (x : Link) : (s.setLink n x).cmps = s.cmps := rfl
@[simp] theorem Dev.setLink_quads (s : Dev) (n : Nat) (x : Link) : (s.setLink n x).quads = s.quads := rfl
@[simp] theorem Dev.setLink_circs (s : Dev) (n : Nat) (x : Link) : (s.setLink n x).circs = s.circs := rfl
@[simp] theorem Dev.setLink_chains (s : Dev) (n : Nat) (x : Link) : (s.setLink n x).chains = s.chains := rfl
@[simp] theorem Dev.setLink_acqs (s : Dev) (n : Nat) (x : Link) : (s.setLink n x).acqs = s.acqs := rfl
@[simp] theorem Dev.setLink_tdcs (s : Dev) (n : Nat) (x : Link) : (s.setLink n x).tdcs = s.tdcs := rfl
@[simp] theorem Dev.setLink_weirs (s : Dev) (n : Nat) (x : Link) : (s.setLink n x).weirs = s.weirs := rfl
@[simp] theorem Dev.setLink_slc (s : Dev) (n : Nat) (x : Link) : (s.setLink n x).slc = s.slc := rfl
@[simp] theorem Dev.setLink_led (s : Dev) (n : Nat) (x : Link) : (s.setLink n x).led = s.led := rfl
@[simp] theorem Dev.setLink_flt (s : Dev) (n : Nat) (x : Link) : (s.setLink n x).flt = s.flt := rfl
@[simp] theorem Dev.setLink_cis (s : Dev) (n : Nat) (x : Link) : (s.setLink n x).cis = s.cis := rfl
@[simp] theorem Dev.setLink_pwr (s : Dev) (n : Nat) (x : Link) : (s.setLink n x).pwr = s.pwr := rfl
@[simp] theorem Dev.setLink_lanes (s : Dev) (n : Nat) (x : Link) : (s.setLink n x).lanes = s.lanes := rfl
@[simp] theorem Dev.setLink_host (s : Dev) (n : Nat) (x : Link) : (s.setLink n x).host = s.host := rfl
@[simp] theorem Dev.setLink_nv (s : Dev) (n : Nat) (x : Link) : (s.setLink n x).nv = s.nv := rfl
@[simp] theorem Dev.setLink_ucs (s : Dev) (n : Nat) (x : Link) : (s.setLink n x).ucs = s.ucs := rfl
@[simp] theorem Dev.setLink_imgs (s : Dev) (n : Nat) (x : Link) : (s.setLink n x).imgs = s.imgs := rfl
@[simp] theorem Dev.setLink_jtag (s : Dev) (n : Nat) (x : Link) : (s.setLink n x).jtag = s.jtag := rfl
@[simp] theorem Dev.setLink_tdo (s : Dev) (n : Nat) (x : Link) : (s.setLink n x).tdo = s.tdo := rfl
@[simp] theorem Dev.setLink_freeIx (s : Dev) (n : Nat) (x : Link) : (s.setLink n x).freeIx = s.freeIx := rfl

@[simp] theorem Dev.setLimit_sys (s : Dev) (n : Nat) (x : W × W) : (s.setLimit n x).sys = s.sys := rfl
@[simp] theorem Dev.setLimit_clk (s : Dev) (n : Nat) (x : W × W) : (s.setLimit n x).clk = s.clk := rfl
@[simp] theorem Dev.setLimit_stage (s : Dev) (n : Nat) (x : W × W) : (s.setLimit n x).stage = s.stage := rfl
@[simp] theorem Dev.setLimit_regs (s : Dev) (n : Nat) (x : W × W) : (s.setLimit n x).regs = s.regs := rfl
@[simp] theorem Dev.setLimit_mem (s : Dev) (n : Nat) (x : W × W) : (s.setLimit n x).mem = s.mem := rfl
@[simp] theorem Dev.setLimit_scratch (s : Dev) (n : Nat) (x : W × W) : (s.setLimit n x).scratch = s.scratch := rfl
@[simp] theorem Dev.setLimit_engs (s : Dev) (n : Nat) (x : W × W) : (s.setLimit n x).engs = s.engs := rfl
@[simp] theorem Dev.setLimit_sites (s : Dev) (n : Nat) (x : W × W) : (s.setLimit n x).sites = s.sites := rfl
@[simp] theorem Dev.setLimit_plys (s : Dev) (n : Nat) (x : W × W) : (s.setLimit n x).plys = s.plys := rfl
@[simp] theorem Dev.setLimit_cmps (s : Dev) (n : Nat) (x : W × W) : (s.setLimit n x).cmps = s.cmps := rfl
@[simp] theorem Dev.setLimit_quads (s : Dev) (n : Nat) (x : W × W) : (s.setLimit n x).quads = s.quads := rfl
@[simp] theorem Dev.setLimit_circs (s : Dev) (n : Nat) (x : W × W) : (s.setLimit n x).circs = s.circs := rfl
@[simp] theorem Dev.setLimit_chains (s : Dev) (n : Nat) (x : W × W) : (s.setLimit n x).chains = s.chains := rfl
@[simp] theorem Dev.setLimit_acqs (s : Dev) (n : Nat) (x : W × W) : (s.setLimit n x).acqs = s.acqs := rfl
@[simp] theorem Dev.setLimit_tdcs (s : Dev) (n : Nat) (x : W × W) : (s.setLimit n x).tdcs = s.tdcs := rfl
@[simp] theorem Dev.setLimit_weirs (s : Dev) (n : Nat) (x : W × W) : (s.setLimit n x).weirs = s.weirs := rfl
@[simp] theorem Dev.setLimit_slc (s : Dev) (n : Nat) (x : W × W) : (s.setLimit n x).slc = s.slc := rfl
@[simp] theorem Dev.setLimit_flt (s : Dev) (n : Nat) (x : W × W) : (s.setLimit n x).flt = s.flt := rfl
@[simp] theorem Dev.setLimit_cis (s : Dev) (n : Nat) (x : W × W) : (s.setLimit n x).cis = s.cis := rfl
@[simp] theorem Dev.setLimit_pwr (s : Dev) (n : Nat) (x : W × W) : (s.setLimit n x).pwr = s.pwr := rfl
@[simp] theorem Dev.setLimit_lanes (s : Dev) (n : Nat) (x : W × W) : (s.setLimit n x).lanes = s.lanes := rfl
@[simp] theorem Dev.setLimit_links (s : Dev) (n : Nat) (x : W × W) : (s.setLimit n x).links = s.links := rfl
@[simp] theorem Dev.setLimit_host (s : Dev) (n : Nat) (x : W × W) : (s.setLimit n x).host = s.host := rfl
@[simp] theorem Dev.setLimit_nv (s : Dev) (n : Nat) (x : W × W) : (s.setLimit n x).nv = s.nv := rfl
@[simp] theorem Dev.setLimit_ucs (s : Dev) (n : Nat) (x : W × W) : (s.setLimit n x).ucs = s.ucs := rfl
@[simp] theorem Dev.setLimit_imgs (s : Dev) (n : Nat) (x : W × W) : (s.setLimit n x).imgs = s.imgs := rfl
@[simp] theorem Dev.setLimit_jtag (s : Dev) (n : Nat) (x : W × W) : (s.setLimit n x).jtag = s.jtag := rfl
@[simp] theorem Dev.setLimit_tdo (s : Dev) (n : Nat) (x : W × W) : (s.setLimit n x).tdo = s.tdo := rfl
@[simp] theorem Dev.setLimit_freeIx (s : Dev) (n : Nat) (x : W × W) : (s.setLimit n x).freeIx = s.freeIx := rfl
@[simp] theorem Dev.setLimit_led_occ (s : Dev) (n : Nat) (x : W × W) : (s.setLimit n x).led.occ = s.led.occ := rfl
@[simp] theorem Dev.setLimit_led_high (s : Dev) (n : Nat) (x : W × W) : (s.setLimit n x).led.high = s.led.high := rfl
@[simp] theorem Dev.setLimit_led_logs (s : Dev) (n : Nat) (x : W × W) : (s.setLimit n x).led.logs = s.led.logs := rfl

/-! ### What a write of one kind leaves of another -/

@[simp] theorem Dev.wr_byte (s : Dev) (n : Nat) (v : W) (a : Nat) : (s.wr n v).byte a = s.byte a := rfl
@[simp] theorem Dev.wr_limit (s : Dev) (n : Nat) (v : W) (k : Nat) : (s.wr n v).limit k = s.limit k := rfl
@[simp] theorem Dev.wr_eng (s : Dev) (n : Nat) (v : W) (k : Nat) : (s.wr n v).eng k = s.eng k := rfl
@[simp] theorem Dev.wr_site (s : Dev) (n : Nat) (v : W) (k : Nat) : (s.wr n v).site k = s.site k := rfl
@[simp] theorem Dev.wr_ply (s : Dev) (n : Nat) (v : W) (k : Nat) : (s.wr n v).ply k = s.ply k := rfl
@[simp] theorem Dev.wr_quad (s : Dev) (n : Nat) (v : W) (k : Nat) : (s.wr n v).quad k = s.quad k := rfl
@[simp] theorem Dev.wr_circ (s : Dev) (n : Nat) (v : W) (k : Nat) : (s.wr n v).circ k = s.circ k := rfl
@[simp] theorem Dev.wr_chain (s : Dev) (n : Nat) (v : W) (k : Nat) : (s.wr n v).chain k = s.chain k := rfl
@[simp] theorem Dev.wr_acq (s : Dev) (n : Nat) (v : W) (k : Nat) : (s.wr n v).acq k = s.acq k := rfl
@[simp] theorem Dev.wr_tdc (s : Dev) (n : Nat) (v : W) (k : Nat) : (s.wr n v).tdc k = s.tdc k := rfl
@[simp] theorem Dev.wr_weir (s : Dev) (n : Nat) (v : W) (k : Nat) : (s.wr n v).weir k = s.weir k := rfl
@[simp] theorem Dev.wr_sensor (s : Dev) (n : Nat) (v : W) (k : Nat) : (s.wr n v).sensor k = s.sensor k := rfl
@[simp] theorem Dev.wr_lane (s : Dev) (n : Nat) (v : W) (k : Nat) : (s.wr n v).lane k = s.lane k := rfl
@[simp] theorem Dev.wr_link (s : Dev) (n : Nat) (v : W) (k : Nat) : (s.wr n v).link k = s.link k := rfl
@[simp] theorem Dev.setByte_rd (s : Dev) (n : Nat) (v : Byte) (a : Nat) : (s.setByte n v).rd a = s.rd a := rfl
@[simp] theorem Dev.setByte_limit (s : Dev) (n : Nat) (v : Byte) (k : Nat) : (s.setByte n v).limit k = s.limit k := rfl
@[simp] theorem Dev.setByte_eng (s : Dev) (n : Nat) (v : Byte) (k : Nat) : (s.setByte n v).eng k = s.eng k := rfl
@[simp] theorem Dev.setByte_site (s : Dev) (n : Nat) (v : Byte) (k : Nat) : (s.setByte n v).site k = s.site k := rfl
@[simp] theorem Dev.setByte_ply (s : Dev) (n : Nat) (v : Byte) (k : Nat) : (s.setByte n v).ply k = s.ply k := rfl
@[simp] theorem Dev.setByte_quad (s : Dev) (n : Nat) (v : Byte) (k : Nat) : (s.setByte n v).quad k = s.quad k := rfl
@[simp] theorem Dev.setByte_circ (s : Dev) (n : Nat) (v : Byte) (k : Nat) : (s.setByte n v).circ k = s.circ k := rfl
@[simp] theorem Dev.setByte_chain (s : Dev) (n : Nat) (v : Byte) (k : Nat) : (s.setByte n v).chain k = s.chain k := rfl
@[simp] theorem Dev.setByte_acq (s : Dev) (n : Nat) (v : Byte) (k : Nat) : (s.setByte n v).acq k = s.acq k := rfl
@[simp] theorem Dev.setByte_tdc (s : Dev) (n : Nat) (v : Byte) (k : Nat) : (s.setByte n v).tdc k = s.tdc k := rfl
@[simp] theorem Dev.setByte_weir (s : Dev) (n : Nat) (v : Byte) (k : Nat) : (s.setByte n v).weir k = s.weir k := rfl
@[simp] theorem Dev.setByte_sensor (s : Dev) (n : Nat) (v : Byte) (k : Nat) : (s.setByte n v).sensor k = s.sensor k := rfl
@[simp] theorem Dev.setByte_lane (s : Dev) (n : Nat) (v : Byte) (k : Nat) : (s.setByte n v).lane k = s.lane k := rfl
@[simp] theorem Dev.setByte_link (s : Dev) (n : Nat) (v : Byte) (k : Nat) : (s.setByte n v).link k = s.link k := rfl
@[simp] theorem Dev.setScrByte_rd (s : Dev) (e n : Nat) (v : Byte) (a : Nat) : (s.setScrByte e n v).rd a = s.rd a := rfl
@[simp] theorem Dev.setScrByte_byte (s : Dev) (e n : Nat) (v : Byte) (a : Nat) : (s.setScrByte e n v).byte a = s.byte a := rfl
@[simp] theorem Dev.setScrByte_limit (s : Dev) (e n : Nat) (v : Byte) (k : Nat) : (s.setScrByte e n v).limit k = s.limit k := rfl
@[simp] theorem Dev.setScrByte_eng (s : Dev) (e n : Nat) (v : Byte) (k : Nat) : (s.setScrByte e n v).eng k = s.eng k := rfl
@[simp] theorem Dev.setScrByte_site (s : Dev) (e n : Nat) (v : Byte) (k : Nat) : (s.setScrByte e n v).site k = s.site k := rfl
@[simp] theorem Dev.setScrByte_ply (s : Dev) (e n : Nat) (v : Byte) (k : Nat) : (s.setScrByte e n v).ply k = s.ply k := rfl
@[simp] theorem Dev.setScrByte_quad (s : Dev) (e n : Nat) (v : Byte) (k : Nat) : (s.setScrByte e n v).quad k = s.quad k := rfl
@[simp] theorem Dev.setScrByte_circ (s : Dev) (e n : Nat) (v : Byte) (k : Nat) : (s.setScrByte e n v).circ k = s.circ k := rfl
@[simp] theorem Dev.setScrByte_chain (s : Dev) (e n : Nat) (v : Byte) (k : Nat) : (s.setScrByte e n v).chain k = s.chain k := rfl
@[simp] theorem Dev.setScrByte_acq (s : Dev) (e n : Nat) (v : Byte) (k : Nat) : (s.setScrByte e n v).acq k = s.acq k := rfl
@[simp] theorem Dev.setScrByte_tdc (s : Dev) (e n : Nat) (v : Byte) (k : Nat) : (s.setScrByte e n v).tdc k = s.tdc k := rfl
@[simp] theorem Dev.setScrByte_weir (s : Dev) (e n : Nat) (v : Byte) (k : Nat) : (s.setScrByte e n v).weir k = s.weir k := rfl
@[simp] theorem Dev.setScrByte_sensor (s : Dev) (e n : Nat) (v : Byte) (k : Nat) : (s.setScrByte e n v).sensor k = s.sensor k := rfl
@[simp] theorem Dev.setScrByte_lane (s : Dev) (e n : Nat) (v : Byte) (k : Nat) : (s.setScrByte e n v).lane k = s.lane k := rfl
@[simp] theorem Dev.setScrByte_link (s : Dev) (e n : Nat) (v : Byte) (k : Nat) : (s.setScrByte e n v).link k = s.link k := rfl
@[simp] theorem Dev.clearScr_rd (s : Dev) (e : Nat) (a : Nat) : (s.clearScr e).rd a = s.rd a := rfl
@[simp] theorem Dev.clearScr_byte (s : Dev) (e : Nat) (a : Nat) : (s.clearScr e).byte a = s.byte a := rfl
@[simp] theorem Dev.clearScr_limit (s : Dev) (e : Nat) (k : Nat) : (s.clearScr e).limit k = s.limit k := rfl
@[simp] theorem Dev.clearScr_eng (s : Dev) (e : Nat) (k : Nat) : (s.clearScr e).eng k = s.eng k := rfl
@[simp] theorem Dev.clearScr_site (s : Dev) (e : Nat) (k : Nat) : (s.clearScr e).site k = s.site k := rfl
@[simp] theorem Dev.clearScr_ply (s : Dev) (e : Nat) (k : Nat) : (s.clearScr e).ply k = s.ply k := rfl
@[simp] theorem Dev.clearScr_quad (s : Dev) (e : Nat) (k : Nat) : (s.clearScr e).quad k = s.quad k := rfl
@[simp] theorem Dev.clearScr_circ (s : Dev) (e : Nat) (k : Nat) : (s.clearScr e).circ k = s.circ k := rfl
@[simp] theorem Dev.clearScr_chain (s : Dev) (e : Nat) (k : Nat) : (s.clearScr e).chain k = s.chain k := rfl
@[simp] theorem Dev.clearScr_acq (s : Dev) (e : Nat) (k : Nat) : (s.clearScr e).acq k = s.acq k := rfl
@[simp] theorem Dev.clearScr_tdc (s : Dev) (e : Nat) (k : Nat) : (s.clearScr e).tdc k = s.tdc k := rfl
@[simp] theorem Dev.clearScr_weir (s : Dev) (e : Nat) (k : Nat) : (s.clearScr e).weir k = s.weir k := rfl
@[simp] theorem Dev.clearScr_sensor (s : Dev) (e : Nat) (k : Nat) : (s.clearScr e).sensor k = s.sensor k := rfl
@[simp] theorem Dev.clearScr_lane (s : Dev) (e : Nat) (k : Nat) : (s.clearScr e).lane k = s.lane k := rfl
@[simp] theorem Dev.clearScr_link (s : Dev) (e : Nat) (k : Nat) : (s.clearScr e).link k = s.link k := rfl
@[simp] theorem Dev.clearMem_rd (s : Dev) (l u : Nat) (a : Nat) : (s.clearMem l u).rd a = s.rd a := rfl
@[simp] theorem Dev.clearMem_limit (s : Dev) (l u : Nat) (k : Nat) : (s.clearMem l u).limit k = s.limit k := rfl
@[simp] theorem Dev.clearMem_eng (s : Dev) (l u : Nat) (k : Nat) : (s.clearMem l u).eng k = s.eng k := rfl
@[simp] theorem Dev.clearMem_site (s : Dev) (l u : Nat) (k : Nat) : (s.clearMem l u).site k = s.site k := rfl
@[simp] theorem Dev.clearMem_ply (s : Dev) (l u : Nat) (k : Nat) : (s.clearMem l u).ply k = s.ply k := rfl
@[simp] theorem Dev.clearMem_quad (s : Dev) (l u : Nat) (k : Nat) : (s.clearMem l u).quad k = s.quad k := rfl
@[simp] theorem Dev.clearMem_circ (s : Dev) (l u : Nat) (k : Nat) : (s.clearMem l u).circ k = s.circ k := rfl
@[simp] theorem Dev.clearMem_chain (s : Dev) (l u : Nat) (k : Nat) : (s.clearMem l u).chain k = s.chain k := rfl
@[simp] theorem Dev.clearMem_acq (s : Dev) (l u : Nat) (k : Nat) : (s.clearMem l u).acq k = s.acq k := rfl
@[simp] theorem Dev.clearMem_tdc (s : Dev) (l u : Nat) (k : Nat) : (s.clearMem l u).tdc k = s.tdc k := rfl
@[simp] theorem Dev.clearMem_weir (s : Dev) (l u : Nat) (k : Nat) : (s.clearMem l u).weir k = s.weir k := rfl
@[simp] theorem Dev.clearMem_sensor (s : Dev) (l u : Nat) (k : Nat) : (s.clearMem l u).sensor k = s.sensor k := rfl
@[simp] theorem Dev.clearMem_lane (s : Dev) (l u : Nat) (k : Nat) : (s.clearMem l u).lane k = s.lane k := rfl
@[simp] theorem Dev.clearMem_link (s : Dev) (l u : Nat) (k : Nat) : (s.clearMem l u).link k = s.link k := rfl
@[simp] theorem Dev.setEng_rd (s : Dev) (n : Nat) (x : Eng) (a : Nat) : (s.setEng n x).rd a = s.rd a := rfl
@[simp] theorem Dev.setEng_byte (s : Dev) (n : Nat) (x : Eng) (a : Nat) : (s.setEng n x).byte a = s.byte a := rfl
@[simp] theorem Dev.setEng_limit (s : Dev) (n : Nat) (x : Eng) (k : Nat) : (s.setEng n x).limit k = s.limit k := rfl
@[simp] theorem Dev.setEng_site (s : Dev) (n : Nat) (x : Eng) (k : Nat) : (s.setEng n x).site k = s.site k := rfl
@[simp] theorem Dev.setEng_ply (s : Dev) (n : Nat) (x : Eng) (k : Nat) : (s.setEng n x).ply k = s.ply k := rfl
@[simp] theorem Dev.setEng_quad (s : Dev) (n : Nat) (x : Eng) (k : Nat) : (s.setEng n x).quad k = s.quad k := rfl
@[simp] theorem Dev.setEng_circ (s : Dev) (n : Nat) (x : Eng) (k : Nat) : (s.setEng n x).circ k = s.circ k := rfl
@[simp] theorem Dev.setEng_chain (s : Dev) (n : Nat) (x : Eng) (k : Nat) : (s.setEng n x).chain k = s.chain k := rfl
@[simp] theorem Dev.setEng_acq (s : Dev) (n : Nat) (x : Eng) (k : Nat) : (s.setEng n x).acq k = s.acq k := rfl
@[simp] theorem Dev.setEng_tdc (s : Dev) (n : Nat) (x : Eng) (k : Nat) : (s.setEng n x).tdc k = s.tdc k := rfl
@[simp] theorem Dev.setEng_weir (s : Dev) (n : Nat) (x : Eng) (k : Nat) : (s.setEng n x).weir k = s.weir k := rfl
@[simp] theorem Dev.setEng_sensor (s : Dev) (n : Nat) (x : Eng) (k : Nat) : (s.setEng n x).sensor k = s.sensor k := rfl
@[simp] theorem Dev.setEng_lane (s : Dev) (n : Nat) (x : Eng) (k : Nat) : (s.setEng n x).lane k = s.lane k := rfl
@[simp] theorem Dev.setEng_link (s : Dev) (n : Nat) (x : Eng) (k : Nat) : (s.setEng n x).link k = s.link k := rfl
@[simp] theorem Dev.setSite_rd (s : Dev) (n : Nat) (x : Site) (a : Nat) : (s.setSite n x).rd a = s.rd a := rfl
@[simp] theorem Dev.setSite_byte (s : Dev) (n : Nat) (x : Site) (a : Nat) : (s.setSite n x).byte a = s.byte a := rfl
@[simp] theorem Dev.setSite_limit (s : Dev) (n : Nat) (x : Site) (k : Nat) : (s.setSite n x).limit k = s.limit k := rfl
@[simp] theorem Dev.setSite_eng (s : Dev) (n : Nat) (x : Site) (k : Nat) : (s.setSite n x).eng k = s.eng k := rfl
@[simp] theorem Dev.setSite_ply (s : Dev) (n : Nat) (x : Site) (k : Nat) : (s.setSite n x).ply k = s.ply k := rfl
@[simp] theorem Dev.setSite_quad (s : Dev) (n : Nat) (x : Site) (k : Nat) : (s.setSite n x).quad k = s.quad k := rfl
@[simp] theorem Dev.setSite_circ (s : Dev) (n : Nat) (x : Site) (k : Nat) : (s.setSite n x).circ k = s.circ k := rfl
@[simp] theorem Dev.setSite_chain (s : Dev) (n : Nat) (x : Site) (k : Nat) : (s.setSite n x).chain k = s.chain k := rfl
@[simp] theorem Dev.setSite_acq (s : Dev) (n : Nat) (x : Site) (k : Nat) : (s.setSite n x).acq k = s.acq k := rfl
@[simp] theorem Dev.setSite_tdc (s : Dev) (n : Nat) (x : Site) (k : Nat) : (s.setSite n x).tdc k = s.tdc k := rfl
@[simp] theorem Dev.setSite_weir (s : Dev) (n : Nat) (x : Site) (k : Nat) : (s.setSite n x).weir k = s.weir k := rfl
@[simp] theorem Dev.setSite_sensor (s : Dev) (n : Nat) (x : Site) (k : Nat) : (s.setSite n x).sensor k = s.sensor k := rfl
@[simp] theorem Dev.setSite_lane (s : Dev) (n : Nat) (x : Site) (k : Nat) : (s.setSite n x).lane k = s.lane k := rfl
@[simp] theorem Dev.setSite_link (s : Dev) (n : Nat) (x : Site) (k : Nat) : (s.setSite n x).link k = s.link k := rfl
@[simp] theorem Dev.setPly_rd (s : Dev) (n : Nat) (x : Ply) (a : Nat) : (s.setPly n x).rd a = s.rd a := rfl
@[simp] theorem Dev.setPly_byte (s : Dev) (n : Nat) (x : Ply) (a : Nat) : (s.setPly n x).byte a = s.byte a := rfl
@[simp] theorem Dev.setPly_limit (s : Dev) (n : Nat) (x : Ply) (k : Nat) : (s.setPly n x).limit k = s.limit k := rfl
@[simp] theorem Dev.setPly_eng (s : Dev) (n : Nat) (x : Ply) (k : Nat) : (s.setPly n x).eng k = s.eng k := rfl
@[simp] theorem Dev.setPly_site (s : Dev) (n : Nat) (x : Ply) (k : Nat) : (s.setPly n x).site k = s.site k := rfl
@[simp] theorem Dev.setPly_quad (s : Dev) (n : Nat) (x : Ply) (k : Nat) : (s.setPly n x).quad k = s.quad k := rfl
@[simp] theorem Dev.setPly_circ (s : Dev) (n : Nat) (x : Ply) (k : Nat) : (s.setPly n x).circ k = s.circ k := rfl
@[simp] theorem Dev.setPly_chain (s : Dev) (n : Nat) (x : Ply) (k : Nat) : (s.setPly n x).chain k = s.chain k := rfl
@[simp] theorem Dev.setPly_acq (s : Dev) (n : Nat) (x : Ply) (k : Nat) : (s.setPly n x).acq k = s.acq k := rfl
@[simp] theorem Dev.setPly_tdc (s : Dev) (n : Nat) (x : Ply) (k : Nat) : (s.setPly n x).tdc k = s.tdc k := rfl
@[simp] theorem Dev.setPly_weir (s : Dev) (n : Nat) (x : Ply) (k : Nat) : (s.setPly n x).weir k = s.weir k := rfl
@[simp] theorem Dev.setPly_sensor (s : Dev) (n : Nat) (x : Ply) (k : Nat) : (s.setPly n x).sensor k = s.sensor k := rfl
@[simp] theorem Dev.setPly_lane (s : Dev) (n : Nat) (x : Ply) (k : Nat) : (s.setPly n x).lane k = s.lane k := rfl
@[simp] theorem Dev.setPly_link (s : Dev) (n : Nat) (x : Ply) (k : Nat) : (s.setPly n x).link k = s.link k := rfl
@[simp] theorem Dev.setQuad_rd (s : Dev) (n : Nat) (x : Quad) (a : Nat) : (s.setQuad n x).rd a = s.rd a := rfl
@[simp] theorem Dev.setQuad_byte (s : Dev) (n : Nat) (x : Quad) (a : Nat) : (s.setQuad n x).byte a = s.byte a := rfl
@[simp] theorem Dev.setQuad_limit (s : Dev) (n : Nat) (x : Quad) (k : Nat) : (s.setQuad n x).limit k = s.limit k := rfl
@[simp] theorem Dev.setQuad_eng (s : Dev) (n : Nat) (x : Quad) (k : Nat) : (s.setQuad n x).eng k = s.eng k := rfl
@[simp] theorem Dev.setQuad_site (s : Dev) (n : Nat) (x : Quad) (k : Nat) : (s.setQuad n x).site k = s.site k := rfl
@[simp] theorem Dev.setQuad_ply (s : Dev) (n : Nat) (x : Quad) (k : Nat) : (s.setQuad n x).ply k = s.ply k := rfl
@[simp] theorem Dev.setQuad_circ (s : Dev) (n : Nat) (x : Quad) (k : Nat) : (s.setQuad n x).circ k = s.circ k := rfl
@[simp] theorem Dev.setQuad_chain (s : Dev) (n : Nat) (x : Quad) (k : Nat) : (s.setQuad n x).chain k = s.chain k := rfl
@[simp] theorem Dev.setQuad_acq (s : Dev) (n : Nat) (x : Quad) (k : Nat) : (s.setQuad n x).acq k = s.acq k := rfl
@[simp] theorem Dev.setQuad_tdc (s : Dev) (n : Nat) (x : Quad) (k : Nat) : (s.setQuad n x).tdc k = s.tdc k := rfl
@[simp] theorem Dev.setQuad_weir (s : Dev) (n : Nat) (x : Quad) (k : Nat) : (s.setQuad n x).weir k = s.weir k := rfl
@[simp] theorem Dev.setQuad_sensor (s : Dev) (n : Nat) (x : Quad) (k : Nat) : (s.setQuad n x).sensor k = s.sensor k := rfl
@[simp] theorem Dev.setQuad_lane (s : Dev) (n : Nat) (x : Quad) (k : Nat) : (s.setQuad n x).lane k = s.lane k := rfl
@[simp] theorem Dev.setQuad_link (s : Dev) (n : Nat) (x : Quad) (k : Nat) : (s.setQuad n x).link k = s.link k := rfl
@[simp] theorem Dev.setCirc_rd (s : Dev) (n : Nat) (x : Circ) (a : Nat) : (s.setCirc n x).rd a = s.rd a := rfl
@[simp] theorem Dev.setCirc_byte (s : Dev) (n : Nat) (x : Circ) (a : Nat) : (s.setCirc n x).byte a = s.byte a := rfl
@[simp] theorem Dev.setCirc_limit (s : Dev) (n : Nat) (x : Circ) (k : Nat) : (s.setCirc n x).limit k = s.limit k := rfl
@[simp] theorem Dev.setCirc_eng (s : Dev) (n : Nat) (x : Circ) (k : Nat) : (s.setCirc n x).eng k = s.eng k := rfl
@[simp] theorem Dev.setCirc_site (s : Dev) (n : Nat) (x : Circ) (k : Nat) : (s.setCirc n x).site k = s.site k := rfl
@[simp] theorem Dev.setCirc_ply (s : Dev) (n : Nat) (x : Circ) (k : Nat) : (s.setCirc n x).ply k = s.ply k := rfl
@[simp] theorem Dev.setCirc_quad (s : Dev) (n : Nat) (x : Circ) (k : Nat) : (s.setCirc n x).quad k = s.quad k := rfl
@[simp] theorem Dev.setCirc_chain (s : Dev) (n : Nat) (x : Circ) (k : Nat) : (s.setCirc n x).chain k = s.chain k := rfl
@[simp] theorem Dev.setCirc_acq (s : Dev) (n : Nat) (x : Circ) (k : Nat) : (s.setCirc n x).acq k = s.acq k := rfl
@[simp] theorem Dev.setCirc_tdc (s : Dev) (n : Nat) (x : Circ) (k : Nat) : (s.setCirc n x).tdc k = s.tdc k := rfl
@[simp] theorem Dev.setCirc_weir (s : Dev) (n : Nat) (x : Circ) (k : Nat) : (s.setCirc n x).weir k = s.weir k := rfl
@[simp] theorem Dev.setCirc_sensor (s : Dev) (n : Nat) (x : Circ) (k : Nat) : (s.setCirc n x).sensor k = s.sensor k := rfl
@[simp] theorem Dev.setCirc_lane (s : Dev) (n : Nat) (x : Circ) (k : Nat) : (s.setCirc n x).lane k = s.lane k := rfl
@[simp] theorem Dev.setCirc_link (s : Dev) (n : Nat) (x : Circ) (k : Nat) : (s.setCirc n x).link k = s.link k := rfl
@[simp] theorem Dev.setChain_rd (s : Dev) (n : Nat) (x : Chain) (a : Nat) : (s.setChain n x).rd a = s.rd a := rfl
@[simp] theorem Dev.setChain_byte (s : Dev) (n : Nat) (x : Chain) (a : Nat) : (s.setChain n x).byte a = s.byte a := rfl
@[simp] theorem Dev.setChain_limit (s : Dev) (n : Nat) (x : Chain) (k : Nat) : (s.setChain n x).limit k = s.limit k := rfl
@[simp] theorem Dev.setChain_eng (s : Dev) (n : Nat) (x : Chain) (k : Nat) : (s.setChain n x).eng k = s.eng k := rfl
@[simp] theorem Dev.setChain_site (s : Dev) (n : Nat) (x : Chain) (k : Nat) : (s.setChain n x).site k = s.site k := rfl
@[simp] theorem Dev.setChain_ply (s : Dev) (n : Nat) (x : Chain) (k : Nat) : (s.setChain n x).ply k = s.ply k := rfl
@[simp] theorem Dev.setChain_quad (s : Dev) (n : Nat) (x : Chain) (k : Nat) : (s.setChain n x).quad k = s.quad k := rfl
@[simp] theorem Dev.setChain_circ (s : Dev) (n : Nat) (x : Chain) (k : Nat) : (s.setChain n x).circ k = s.circ k := rfl
@[simp] theorem Dev.setChain_acq (s : Dev) (n : Nat) (x : Chain) (k : Nat) : (s.setChain n x).acq k = s.acq k := rfl
@[simp] theorem Dev.setChain_tdc (s : Dev) (n : Nat) (x : Chain) (k : Nat) : (s.setChain n x).tdc k = s.tdc k := rfl
@[simp] theorem Dev.setChain_weir (s : Dev) (n : Nat) (x : Chain) (k : Nat) : (s.setChain n x).weir k = s.weir k := rfl
@[simp] theorem Dev.setChain_sensor (s : Dev) (n : Nat) (x : Chain) (k : Nat) : (s.setChain n x).sensor k = s.sensor k := rfl
@[simp] theorem Dev.setChain_lane (s : Dev) (n : Nat) (x : Chain) (k : Nat) : (s.setChain n x).lane k = s.lane k := rfl
@[simp] theorem Dev.setChain_link (s : Dev) (n : Nat) (x : Chain) (k : Nat) : (s.setChain n x).link k = s.link k := rfl
@[simp] theorem Dev.setAcq_rd (s : Dev) (n : Nat) (x : Acq) (a : Nat) : (s.setAcq n x).rd a = s.rd a := rfl
@[simp] theorem Dev.setAcq_byte (s : Dev) (n : Nat) (x : Acq) (a : Nat) : (s.setAcq n x).byte a = s.byte a := rfl
@[simp] theorem Dev.setAcq_limit (s : Dev) (n : Nat) (x : Acq) (k : Nat) : (s.setAcq n x).limit k = s.limit k := rfl
@[simp] theorem Dev.setAcq_eng (s : Dev) (n : Nat) (x : Acq) (k : Nat) : (s.setAcq n x).eng k = s.eng k := rfl
@[simp] theorem Dev.setAcq_site (s : Dev) (n : Nat) (x : Acq) (k : Nat) : (s.setAcq n x).site k = s.site k := rfl
@[simp] theorem Dev.setAcq_ply (s : Dev) (n : Nat) (x : Acq) (k : Nat) : (s.setAcq n x).ply k = s.ply k := rfl
@[simp] theorem Dev.setAcq_quad (s : Dev) (n : Nat) (x : Acq) (k : Nat) : (s.setAcq n x).quad k = s.quad k := rfl
@[simp] theorem Dev.setAcq_circ (s : Dev) (n : Nat) (x : Acq) (k : Nat) : (s.setAcq n x).circ k = s.circ k := rfl
@[simp] theorem Dev.setAcq_chain (s : Dev) (n : Nat) (x : Acq) (k : Nat) : (s.setAcq n x).chain k = s.chain k := rfl
@[simp] theorem Dev.setAcq_tdc (s : Dev) (n : Nat) (x : Acq) (k : Nat) : (s.setAcq n x).tdc k = s.tdc k := rfl
@[simp] theorem Dev.setAcq_weir (s : Dev) (n : Nat) (x : Acq) (k : Nat) : (s.setAcq n x).weir k = s.weir k := rfl
@[simp] theorem Dev.setAcq_sensor (s : Dev) (n : Nat) (x : Acq) (k : Nat) : (s.setAcq n x).sensor k = s.sensor k := rfl
@[simp] theorem Dev.setAcq_lane (s : Dev) (n : Nat) (x : Acq) (k : Nat) : (s.setAcq n x).lane k = s.lane k := rfl
@[simp] theorem Dev.setAcq_link (s : Dev) (n : Nat) (x : Acq) (k : Nat) : (s.setAcq n x).link k = s.link k := rfl
@[simp] theorem Dev.setTdc_rd (s : Dev) (n : Nat) (x : Tdc) (a : Nat) : (s.setTdc n x).rd a = s.rd a := rfl
@[simp] theorem Dev.setTdc_byte (s : Dev) (n : Nat) (x : Tdc) (a : Nat) : (s.setTdc n x).byte a = s.byte a := rfl
@[simp] theorem Dev.setTdc_limit (s : Dev) (n : Nat) (x : Tdc) (k : Nat) : (s.setTdc n x).limit k = s.limit k := rfl
@[simp] theorem Dev.setTdc_eng (s : Dev) (n : Nat) (x : Tdc) (k : Nat) : (s.setTdc n x).eng k = s.eng k := rfl
@[simp] theorem Dev.setTdc_site (s : Dev) (n : Nat) (x : Tdc) (k : Nat) : (s.setTdc n x).site k = s.site k := rfl
@[simp] theorem Dev.setTdc_ply (s : Dev) (n : Nat) (x : Tdc) (k : Nat) : (s.setTdc n x).ply k = s.ply k := rfl
@[simp] theorem Dev.setTdc_quad (s : Dev) (n : Nat) (x : Tdc) (k : Nat) : (s.setTdc n x).quad k = s.quad k := rfl
@[simp] theorem Dev.setTdc_circ (s : Dev) (n : Nat) (x : Tdc) (k : Nat) : (s.setTdc n x).circ k = s.circ k := rfl
@[simp] theorem Dev.setTdc_chain (s : Dev) (n : Nat) (x : Tdc) (k : Nat) : (s.setTdc n x).chain k = s.chain k := rfl
@[simp] theorem Dev.setTdc_acq (s : Dev) (n : Nat) (x : Tdc) (k : Nat) : (s.setTdc n x).acq k = s.acq k := rfl
@[simp] theorem Dev.setTdc_weir (s : Dev) (n : Nat) (x : Tdc) (k : Nat) : (s.setTdc n x).weir k = s.weir k := rfl
@[simp] theorem Dev.setTdc_sensor (s : Dev) (n : Nat) (x : Tdc) (k : Nat) : (s.setTdc n x).sensor k = s.sensor k := rfl
@[simp] theorem Dev.setTdc_lane (s : Dev) (n : Nat) (x : Tdc) (k : Nat) : (s.setTdc n x).lane k = s.lane k := rfl
@[simp] theorem Dev.setTdc_link (s : Dev) (n : Nat) (x : Tdc) (k : Nat) : (s.setTdc n x).link k = s.link k := rfl
@[simp] theorem Dev.setWeir_rd (s : Dev) (n : Nat) (x : Weir) (a : Nat) : (s.setWeir n x).rd a = s.rd a := rfl
@[simp] theorem Dev.setWeir_byte (s : Dev) (n : Nat) (x : Weir) (a : Nat) : (s.setWeir n x).byte a = s.byte a := rfl
@[simp] theorem Dev.setWeir_limit (s : Dev) (n : Nat) (x : Weir) (k : Nat) : (s.setWeir n x).limit k = s.limit k := rfl
@[simp] theorem Dev.setWeir_eng (s : Dev) (n : Nat) (x : Weir) (k : Nat) : (s.setWeir n x).eng k = s.eng k := rfl
@[simp] theorem Dev.setWeir_site (s : Dev) (n : Nat) (x : Weir) (k : Nat) : (s.setWeir n x).site k = s.site k := rfl
@[simp] theorem Dev.setWeir_ply (s : Dev) (n : Nat) (x : Weir) (k : Nat) : (s.setWeir n x).ply k = s.ply k := rfl
@[simp] theorem Dev.setWeir_quad (s : Dev) (n : Nat) (x : Weir) (k : Nat) : (s.setWeir n x).quad k = s.quad k := rfl
@[simp] theorem Dev.setWeir_circ (s : Dev) (n : Nat) (x : Weir) (k : Nat) : (s.setWeir n x).circ k = s.circ k := rfl
@[simp] theorem Dev.setWeir_chain (s : Dev) (n : Nat) (x : Weir) (k : Nat) : (s.setWeir n x).chain k = s.chain k := rfl
@[simp] theorem Dev.setWeir_acq (s : Dev) (n : Nat) (x : Weir) (k : Nat) : (s.setWeir n x).acq k = s.acq k := rfl
@[simp] theorem Dev.setWeir_tdc (s : Dev) (n : Nat) (x : Weir) (k : Nat) : (s.setWeir n x).tdc k = s.tdc k := rfl
@[simp] theorem Dev.setWeir_sensor (s : Dev) (n : Nat) (x : Weir) (k : Nat) : (s.setWeir n x).sensor k = s.sensor k := rfl
@[simp] theorem Dev.setWeir_lane (s : Dev) (n : Nat) (x : Weir) (k : Nat) : (s.setWeir n x).lane k = s.lane k := rfl
@[simp] theorem Dev.setWeir_link (s : Dev) (n : Nat) (x : Weir) (k : Nat) : (s.setWeir n x).link k = s.link k := rfl
@[simp] theorem Dev.setSensor_rd (s : Dev) (n : Nat) (x : Sensor) (a : Nat) : (s.setSensor n x).rd a = s.rd a := rfl
@[simp] theorem Dev.setSensor_byte (s : Dev) (n : Nat) (x : Sensor) (a : Nat) : (s.setSensor n x).byte a = s.byte a := rfl
@[simp] theorem Dev.setSensor_limit (s : Dev) (n : Nat) (x : Sensor) (k : Nat) : (s.setSensor n x).limit k = s.limit k := rfl
@[simp] theorem Dev.setSensor_eng (s : Dev) (n : Nat) (x : Sensor) (k : Nat) : (s.setSensor n x).eng k = s.eng k := rfl
@[simp] theorem Dev.setSensor_site (s : Dev) (n : Nat) (x : Sensor) (k : Nat) : (s.setSensor n x).site k = s.site k := rfl
@[simp] theorem Dev.setSensor_ply (s : Dev) (n : Nat) (x : Sensor) (k : Nat) : (s.setSensor n x).ply k = s.ply k := rfl
@[simp] theorem Dev.setSensor_quad (s : Dev) (n : Nat) (x : Sensor) (k : Nat) : (s.setSensor n x).quad k = s.quad k := rfl
@[simp] theorem Dev.setSensor_circ (s : Dev) (n : Nat) (x : Sensor) (k : Nat) : (s.setSensor n x).circ k = s.circ k := rfl
@[simp] theorem Dev.setSensor_chain (s : Dev) (n : Nat) (x : Sensor) (k : Nat) : (s.setSensor n x).chain k = s.chain k := rfl
@[simp] theorem Dev.setSensor_acq (s : Dev) (n : Nat) (x : Sensor) (k : Nat) : (s.setSensor n x).acq k = s.acq k := rfl
@[simp] theorem Dev.setSensor_tdc (s : Dev) (n : Nat) (x : Sensor) (k : Nat) : (s.setSensor n x).tdc k = s.tdc k := rfl
@[simp] theorem Dev.setSensor_weir (s : Dev) (n : Nat) (x : Sensor) (k : Nat) : (s.setSensor n x).weir k = s.weir k := rfl
@[simp] theorem Dev.setSensor_lane (s : Dev) (n : Nat) (x : Sensor) (k : Nat) : (s.setSensor n x).lane k = s.lane k := rfl
@[simp] theorem Dev.setSensor_link (s : Dev) (n : Nat) (x : Sensor) (k : Nat) : (s.setSensor n x).link k = s.link k := rfl
@[simp] theorem Dev.setLane_rd (s : Dev) (n : Nat) (x : Lane) (a : Nat) : (s.setLane n x).rd a = s.rd a := rfl
@[simp] theorem Dev.setLane_byte (s : Dev) (n : Nat) (x : Lane) (a : Nat) : (s.setLane n x).byte a = s.byte a := rfl
@[simp] theorem Dev.setLane_limit (s : Dev) (n : Nat) (x : Lane) (k : Nat) : (s.setLane n x).limit k = s.limit k := rfl
@[simp] theorem Dev.setLane_eng (s : Dev) (n : Nat) (x : Lane) (k : Nat) : (s.setLane n x).eng k = s.eng k := rfl
@[simp] theorem Dev.setLane_site (s : Dev) (n : Nat) (x : Lane) (k : Nat) : (s.setLane n x).site k = s.site k := rfl
@[simp] theorem Dev.setLane_ply (s : Dev) (n : Nat) (x : Lane) (k : Nat) : (s.setLane n x).ply k = s.ply k := rfl
@[simp] theorem Dev.setLane_quad (s : Dev) (n : Nat) (x : Lane) (k : Nat) : (s.setLane n x).quad k = s.quad k := rfl
@[simp] theorem Dev.setLane_circ (s : Dev) (n : Nat) (x : Lane) (k : Nat) : (s.setLane n x).circ k = s.circ k := rfl
@[simp] theorem Dev.setLane_chain (s : Dev) (n : Nat) (x : Lane) (k : Nat) : (s.setLane n x).chain k = s.chain k := rfl
@[simp] theorem Dev.setLane_acq (s : Dev) (n : Nat) (x : Lane) (k : Nat) : (s.setLane n x).acq k = s.acq k := rfl
@[simp] theorem Dev.setLane_tdc (s : Dev) (n : Nat) (x : Lane) (k : Nat) : (s.setLane n x).tdc k = s.tdc k := rfl
@[simp] theorem Dev.setLane_weir (s : Dev) (n : Nat) (x : Lane) (k : Nat) : (s.setLane n x).weir k = s.weir k := rfl
@[simp] theorem Dev.setLane_sensor (s : Dev) (n : Nat) (x : Lane) (k : Nat) : (s.setLane n x).sensor k = s.sensor k := rfl
@[simp] theorem Dev.setLane_link (s : Dev) (n : Nat) (x : Lane) (k : Nat) : (s.setLane n x).link k = s.link k := rfl
@[simp] theorem Dev.setLink_rd (s : Dev) (n : Nat) (x : Link) (a : Nat) : (s.setLink n x).rd a = s.rd a := rfl
@[simp] theorem Dev.setLink_byte (s : Dev) (n : Nat) (x : Link) (a : Nat) : (s.setLink n x).byte a = s.byte a := rfl
@[simp] theorem Dev.setLink_limit (s : Dev) (n : Nat) (x : Link) (k : Nat) : (s.setLink n x).limit k = s.limit k := rfl
@[simp] theorem Dev.setLink_eng (s : Dev) (n : Nat) (x : Link) (k : Nat) : (s.setLink n x).eng k = s.eng k := rfl
@[simp] theorem Dev.setLink_site (s : Dev) (n : Nat) (x : Link) (k : Nat) : (s.setLink n x).site k = s.site k := rfl
@[simp] theorem Dev.setLink_ply (s : Dev) (n : Nat) (x : Link) (k : Nat) : (s.setLink n x).ply k = s.ply k := rfl
@[simp] theorem Dev.setLink_quad (s : Dev) (n : Nat) (x : Link) (k : Nat) : (s.setLink n x).quad k = s.quad k := rfl
@[simp] theorem Dev.setLink_circ (s : Dev) (n : Nat) (x : Link) (k : Nat) : (s.setLink n x).circ k = s.circ k := rfl
@[simp] theorem Dev.setLink_chain (s : Dev) (n : Nat) (x : Link) (k : Nat) : (s.setLink n x).chain k = s.chain k := rfl
@[simp] theorem Dev.setLink_acq (s : Dev) (n : Nat) (x : Link) (k : Nat) : (s.setLink n x).acq k = s.acq k := rfl
@[simp] theorem Dev.setLink_tdc (s : Dev) (n : Nat) (x : Link) (k : Nat) : (s.setLink n x).tdc k = s.tdc k := rfl
@[simp] theorem Dev.setLink_weir (s : Dev) (n : Nat) (x : Link) (k : Nat) : (s.setLink n x).weir k = s.weir k := rfl
@[simp] theorem Dev.setLink_sensor (s : Dev) (n : Nat) (x : Link) (k : Nat) : (s.setLink n x).sensor k = s.sensor k := rfl
@[simp] theorem Dev.setLink_lane (s : Dev) (n : Nat) (x : Link) (k : Nat) : (s.setLink n x).lane k = s.lane k := rfl
@[simp] theorem Dev.setLimit_rd (s : Dev) (n : Nat) (x : W × W) (a : Nat) : (s.setLimit n x).rd a = s.rd a := rfl
@[simp] theorem Dev.setLimit_byte (s : Dev) (n : Nat) (x : W × W) (a : Nat) : (s.setLimit n x).byte a = s.byte a := rfl
@[simp] theorem Dev.setLimit_eng (s : Dev) (n : Nat) (x : W × W) (k : Nat) : (s.setLimit n x).eng k = s.eng k := rfl
@[simp] theorem Dev.setLimit_site (s : Dev) (n : Nat) (x : W × W) (k : Nat) : (s.setLimit n x).site k = s.site k := rfl
@[simp] theorem Dev.setLimit_ply (s : Dev) (n : Nat) (x : W × W) (k : Nat) : (s.setLimit n x).ply k = s.ply k := rfl
@[simp] theorem Dev.setLimit_quad (s : Dev) (n : Nat) (x : W × W) (k : Nat) : (s.setLimit n x).quad k = s.quad k := rfl
@[simp] theorem Dev.setLimit_circ (s : Dev) (n : Nat) (x : W × W) (k : Nat) : (s.setLimit n x).circ k = s.circ k := rfl
@[simp] theorem Dev.setLimit_chain (s : Dev) (n : Nat) (x : W × W) (k : Nat) : (s.setLimit n x).chain k = s.chain k := rfl
@[simp] theorem Dev.setLimit_acq (s : Dev) (n : Nat) (x : W × W) (k : Nat) : (s.setLimit n x).acq k = s.acq k := rfl
@[simp] theorem Dev.setLimit_tdc (s : Dev) (n : Nat) (x : W × W) (k : Nat) : (s.setLimit n x).tdc k = s.tdc k := rfl
@[simp] theorem Dev.setLimit_weir (s : Dev) (n : Nat) (x : W × W) (k : Nat) : (s.setLimit n x).weir k = s.weir k := rfl
@[simp] theorem Dev.setLimit_sensor (s : Dev) (n : Nat) (x : W × W) (k : Nat) : (s.setLimit n x).sensor k = s.sensor k := rfl
@[simp] theorem Dev.setLimit_lane (s : Dev) (n : Nat) (x : W × W) (k : Nat) : (s.setLimit n x).lane k = s.lane k := rfl
@[simp] theorem Dev.setLimit_link (s : Dev) (n : Nat) (x : W × W) (k : Nat) : (s.setLimit n x).link k = s.link k := rfl

/-! ### Commands -/

/-- A command's run: the queue stands. -/
theorem State.run_pending (s : State) (f : Dev → Dev) (t : State) (h : s.run f = .next t) : t.pending = s.pending := by
  cases h; rfl

theorem State.run_next (s : State) (f : Dev → Dev) : s.run f = .next { s with toDev := f s.toDev } := rfl

end Sys2Proof.Machine
end

