-- ==== Sys2Proof/Laws/Engine.lean ====
section
/-! SUPPORT. What the shared operations of the engines do, said once: an instruction that runs, its checks,
register writes, retirement and staging. -/

namespace Sys2Proof.Machine

theorem aEng_ne {e a b : Nat} (h : a ≠ b) : aEng e a ≠ aEng e b := by unfold aEng; omega

/-- The addresses of an engine's cards lie below those of the headgate. -/
theorem aEng_ne_mirror {e o i : Nat} (he : e < 272) (ho : o < 0x1000) : aEng e o ≠ aSiteCfg i + 8 := by
  unfold aEng aSiteCfg aHgt; omega

/-- An instruction whose opcode is asked for runs its body (R79, R118, R119). -/
theorem Dev.instr_run {s : Dev} {e : Nat} {f : Fetch} {o : Nat} (h : s.Runs e f o) {op : Nat → Bool}
    (ho : op o = true) (body : Option Nat → Dev → Ins → Dev) : s.instr e f op body = body none s (s.insAt e) := by
  obtain ⟨h1, h2, h3, h4, h5, h6, h7⟩ := h
  have d : doubleAt f = none := by simp [doubleAt, h3]
  have g : singlesOf f = [] := by simp [singlesOf, h3]
  simp [Dev.instr, h1, h2, h4, h5, h6, h7, ho, d, g, wordsOf, Dev.romDouble, forL]

theorem Dev.instrOp_run {s : Dev} {e : Nat} {f : Fetch} {o : Nat} (h : s.Runs e f o) (body : Dev → Ins → Dev) :
    s.instrOp e f o body = body s (s.insAt e) := by
  unfold Dev.instrOp; rw [Dev.instr_run h (by simp)]; rfl

theorem Dev.instrCut_run {s : Dev} {e : Nat} {f : Fetch} {o i : Nat} (h : s.Runs e f o) (hi : s.siteOf e = some i)
    (body : Option Nat → Dev → Ins → Nat → Dev) : s.instrCut e f o body = body none s (s.insAt e) i := by
  unfold Dev.instrCut; rw [Dev.instr_run h (by simp)]; simp [hi]

theorem Dev.instrSite_run {s : Dev} {e : Nat} {f : Fetch} {o i : Nat} (h : s.Runs e f o) (hi : s.siteOf e = some i)
    (body : Dev → Ins → Nat → Dev) : s.instrSite e f o body = body s (s.insAt e) i := by
  unfold Dev.instrSite; rw [Dev.instrOp_run h]; simp [hi]

/-- With none of its conditions met an instruction has its effect (R87). -/
theorem Dev.check_ok {s ok : Dev} {e : Nat} {bad : List (Bool × Nat)} (h : ∀ c ∈ bad, c.1 = false) :
    s.check e bad ok = ok := by
  have : bad.find? (·.1) = none := by
    rw [List.find?_eq_none]; intro c hc; simp [h c hc]
  simp [Dev.check, this]

/-- The first condition met raises its fault. -/
theorem Dev.check_bad {s ok : Dev} {e f : Nat} {bad : List (Bool × Nat)} : s.check e ((true, f) :: bad) ok = s.trap e f := by
  simp [Dev.check]

@[simp] theorem Dev.pc_setPc (s : Dev) (e n : Nat) : (s.setPc e n).pc e = n % 32768 := by
  simp [Dev.pc, Dev.setPc, Dev.fld, W.fld, wn]

theorem Dev.rd_setPc (s : Dev) {e n a : Nat} (h : a ≠ aEng e 4) : (s.setPc e n).rd a = s.rd a :=
  Dev.rd_wr_of_ne _ h _

@[simp] theorem Dev.setPc_eng (s : Dev) (e n k : Nat) : (s.setPc e n).eng k = s.eng k := rfl

/-- A retirement that does not run past the last instruction (R80, R108). -/
theorem Dev.retire_eq (s : Dev) {e : Nat} (h : s.pc e < 32767) :
    s.retire e = (s.onEng e Eng.retired).setPc e (s.pc e + 1) := by
  unfold Dev.retire Dev.jumpTo
  rw [if_neg (by omega)]

theorem Dev.jumpTo_jumps (s : Dev) {e n : Nat} (h : n < 32768) : s.Jumps (s.jumpTo e n) e n where
  pc := by simp [Dev.jumpTo]; omega
  eng := by simp [Dev.jumpTo, Dev.onEng]
  others := fun k hk => by simp [Dev.jumpTo, Dev.onEng, Dev.eng_setEng_of_ne _ hk]

theorem Dev.jumpTo_cards (s : Dev) (e n : Nat) : s.Cards (s.jumpTo e n) [aEng e 4] := by
  intro a ha
  simp only [List.mem_singleton] at ha
  simp [Dev.jumpTo, Dev.rd_setPc _ ha, Dev.onEng]

theorem Dev.jumpTo_rest (s : Dev) (e n : Nat) : s.RegFrame (s.jumpTo e n) := rfl

theorem Dev.retire_eq_jump (s : Dev) {e : Nat} (h : s.pc e < 32767) : s.retire e = s.jumpTo e (s.pc e + 1) := by
  rw [Dev.retire_eq s h, Dev.jumpTo]

/-! ### Frames -/

theorem Dev.RegFrame.refl (s : Dev) : s.RegFrame s := rfl
theorem Dev.RegFrame.wr {s t : Dev} (h : s.RegFrame t) (a : Nat) (v : W) : s.RegFrame (t.wr a v) := h
theorem Dev.RegFrame.setFld {s t : Dev} (h : s.RegFrame t) (a hi lo x : Nat) : s.RegFrame (t.setFld a hi lo x) := h
theorem Dev.RegFrame.onEng {s t : Dev} (h : s.RegFrame t) (e : Nat) (f : Eng → Eng) : s.RegFrame (t.onEng e f) := h
theorem Dev.RegFrame.setPc {s t : Dev} (h : s.RegFrame t) (e n : Nat) : s.RegFrame (t.setPc e n) := h
theorem Dev.RegFrame.jumpTo {s t : Dev} (h : s.RegFrame t) (e n : Nat) : s.RegFrame (t.jumpTo e n) := h
theorem Dev.RegFrame.putFlags {s t : Dev} (h : s.RegFrame t) (e : Nat) (f : FlagSet) : s.RegFrame (t.putFlags e f) := h

theorem Dev.Cards.refl (s : Dev) (l : List Nat) : s.Cards s l := fun _ _ => rfl
theorem Dev.Cards.wr {s t : Dev} {l : List Nat} (h : s.Cards t l) {a : Nat} (ha : a ∈ l) (v : W) : s.Cards (t.wr a v) l :=
  fun k hk => by
    have hne : k ≠ a := fun e => hk (by rw [e]; exact ha)
    rw [Dev.rd_wr_of_ne _ hne]; exact h k hk
theorem Dev.Cards.mono {s t : Dev} {l m : List Nat} (h : s.Cards t l) (hs : l ⊆ m) : s.Cards t m :=
  fun a ha => h a (fun x => ha (hs x))

/-! ### Registers of an engine -/

theorem Dev.siteOf_congr {s t : Dev} (hs : t.sites = s.sites) (h : ∀ i, t.rd (aSiteCfg i) = s.rd (aSiteCfg i)) (e : Nat) :
    t.siteOf e = s.siteOf e := by
  have : ∀ i, t.engOf i = s.engOf i := fun i => by unfold Dev.engOf Dev.fld; rw [h]
  unfold Dev.siteOf; simp only [hs, this]

theorem aSiteCfg_ne {i j : Nat} : aSiteCfg i ≠ aSiteCfg j + 8 := by unfold aSiteCfg aHgt; omega

theorem aEng_ne_cfg {e o i : Nat} (he : e < 272) (ho : o < 0x1000) : aEng e o ≠ aSiteCfg i := by
  unfold aEng aSiteCfg aHgt; omega

/-- A write of an engine's card or of a MIRROR card changes no binding. -/
theorem Dev.siteOf_wr_eng (s : Dev) {e o : Nat} (he : e < 272) (ho : o < 0x1000) (v : W) (k : Nat) :
    (s.wr (aEng e o) v).siteOf k = s.siteOf k :=
  Dev.siteOf_congr (s := s) (t := s.wr (aEng e o) v) rfl (fun _ => Dev.rd_wr_of_ne _ (aEng_ne_cfg he ho).symm _) k

/-- PG written: the engine's card, and the MIRROR card of its site (R81). -/
theorem Dev.setPg_eq (s : Dev) {e : Nat} (he : e < 272) (v : Nat) :
    s.setPg e v = match s.siteOf e with
      | some i => (s.setFld (aEng e 8) 31 16 v).setFld (aSiteCfg i + 8) 31 16 v
      | none => s.setFld (aEng e 8) 31 16 v := by
  have h : (s.setFld (aEng e 8) 31 16 v).siteOf e = s.siteOf e := Dev.siteOf_wr_eng s he (by omega) _ e
  unfold Dev.setPg; dsimp only; rw [h]
  all_goals cases s.siteOf e <;> rfl

/-- Where a register written stands among the engine's cards. -/
theorem regCard_spec {n : Nat} (h : n < 37) : ∃ o, o < 0x1000 ∧ o ≠ 4 ∧ o ≠ 0xC ∧ ∀ e, regCard e n = aEng e o := by
  unfold regCard
  by_cases h1 : n < 32
  · exact ⟨0x40 + 4 * n, by omega, by omega, by omega, fun e => by simp [h1]⟩
  · by_cases h2 : n < 36
    · exact ⟨0xC0 + 4 * (n - 32), by omega, by omega, by omega, fun e => by simp [h1, h2]⟩
    · exact ⟨8, by omega, by omega, by omega, fun e => by simp [h1, h2]⟩

/-- A register write changes the register's card, and the MIRROR card for PG. -/
theorem Dev.setReg_cards (s : Dev) {e n : Nat} (v : W) (he : e < 272) (h : n < 37) :
    s.Cards (s.setReg e n v) (regCard e n :: if n = 36 then s.mirror e else []) := by
  unfold Dev.setReg regCard
  by_cases h1 : n < 32
  · simp only [h1, if_true]; exact (Dev.Cards.refl s _).wr (by simp) _
  · by_cases h2 : n < 36
    · simp only [h1, h2, if_true, if_false]; exact (Dev.Cards.refl s _).wr (by simp) _
    · have h3 : n = 36 := by omega
      subst h3
      simp only [h1, h2, if_true, if_false, Dev.setPg_eq s he, Dev.mirror]
      cases s.siteOf e with
      | none => exact (Dev.Cards.refl s _).wr (by simp) _
      | some i => exact ((Dev.Cards.refl s _).wr (by simp) _).wr (by simp) _

theorem Dev.setReg_frame (s : Dev) (e n : Nat) (v : W) : s.RegFrame (s.setReg e n v) ∧ (s.setReg e n v).engs = s.engs := by
  unfold Dev.setReg Dev.setPg
  split
  · exact ⟨(Dev.RegFrame.refl s).wr _ _, Dev.wr_engs _ _ _⟩
  · split
    · exact ⟨(Dev.RegFrame.refl s).wr _ _, Dev.wr_engs _ _ _⟩
    · split
      · dsimp only
        cases (s.setFld (aEng e 8) 31 16 (v.fld 15 0)).siteOf e with
        | none => exact ⟨(Dev.RegFrame.refl s).setFld _ _ _ _, Dev.wr_engs _ _ _⟩
        | some i => exact ⟨((Dev.RegFrame.refl s).setFld _ _ _ _).setFld _ _ _ _, by simp only [Dev.setFld, Dev.wr_engs]⟩
      · exact ⟨Dev.RegFrame.refl s, rfl⟩

theorem W.fld_put_hi (w : W) (x : Nat) : (w.put 31 16 x).fld 31 16 = x % 65536 := by
  unfold W.put W.fld; simp [Nat.shiftLeft_eq, Nat.shiftRight_eq_div_pow]; omega

/-- A register shows what is written to it, within its width (R81). -/
theorem Dev.reg_setReg (s : Dev) {e n : Nat} (v : W) (he : e < 272) (h : n < 37) : (s.setReg e n v).reg e n = regShows n v := by
  unfold Dev.setReg Dev.reg regShows
  by_cases h1 : n < 32
  · simp [h1]
  · by_cases h2 : n < 36
    · simp [h1, h2]
    · have h3 : n = 36 := by omega
      subst h3
      have key : ((s.setFld (aEng e 8) 31 16 (v.fld 15 0)).rd (aEng e 8)).fld 31 16 = v.toNat % 65536 := by
        unfold Dev.setFld; rw [Dev.rd_wr_self, W.fld_put_hi]; simp [W.fld]
      have h5 : wn (v.toNat % 65536) = v &&& 65535#32 := by
        apply BitVec.eq_of_toNat_eq
        rw [BitVec.toNat_and]; simp [wn]
        rw [show (65535 : Nat) = 2 ^ 16 - 1 by rfl, Nat.and_two_pow_sub_one_eq_mod]; omega
      simp only [h1, h2, if_true, if_false, Dev.setPg_eq s he]
      cases s.siteOf e with
      | none => simp only [Dev.fld]; rw [key, h5]; rfl
      | some i =>
        have : ((s.setFld (aEng e 8) 31 16 (v.fld 15 0)).setFld (aSiteCfg i + 8) 31 16 (v.fld 15 0)).rd (aEng e 8) =
            (s.setFld (aEng e 8) 31 16 (v.fld 15 0)).rd (aEng e 8) :=
          Dev.rd_wr_of_ne _ (aEng_ne_mirror he (by omega)) _
        simp only [Dev.fld, this]; rw [key, h5]; rfl

theorem Dev.not_mem_regCards {s : Dev} {e d o : Nat} (he : e < 272) (hd : d < 37) (ho : o = 4 ∨ o = 0xC) :
    aEng e o ∉ regCard e d :: if d = 36 then s.mirror e else [] := by
  obtain ⟨r, hr, h4, hC, hR⟩ := regCard_spec hd
  simp only [List.mem_cons, not_or, hR]
  refine ⟨aEng_ne (by omega), ?_⟩
  split
  · unfold Dev.mirror; split
    · simp only [List.mem_singleton]; exact aEng_ne_mirror he (by omega)
    · simp
  · simp

/-- A result written with its flags, and the instruction retired (R81, R85). -/
theorem Dev.computes (s : Dev) {e d : Nat} (v : W) (fs : FlagSet) (he : e < 272) (hd : d < 37) (hp : s.pc e < 32767) :
    s.Computes (((s.setReg e d v).putFlags e fs).retire e) e d v fs.mask (fs.bits &&& fs.mask) := by
  have hC := Dev.setReg_cards s v he hd
  have hpc : ((s.setReg e d v).putFlags e fs).pc e = s.pc e := by
    unfold Dev.pc Dev.fld Dev.putFlags
    rw [Dev.rd_wr_of_ne _ (aEng_ne (by omega)), hC _ (Dev.not_mem_regCards he hd (.inl rfl))]
  rw [Dev.retire_eq_jump _ (by rw [hpc]; exact hp), hpc]
  have hF := Dev.setReg_frame s e d v
  have hE : ∀ k, ((s.setReg e d v).putFlags e fs).eng k = s.eng k := fun k => by
    show (s.setReg e d v).eng k = s.eng k
    unfold Dev.eng; rw [hF.2]
  have J := Dev.jumpTo_jumps ((s.setReg e d v).putFlags e fs) (e := e) (n := s.pc e + 1) (by omega)
  have Cc := Dev.jumpTo_cards ((s.setReg e d v).putFlags e fs) e (s.pc e + 1)
  have rdne : ∀ a, a ≠ aEng e 4 → a ≠ aEng e 0xC →
      (((s.setReg e d v).putFlags e fs).jumpTo e (s.pc e + 1)).rd a = (s.setReg e d v).rd a := by
    intro a h1 h2
    rw [Cc a (by simpa using h1)]
    exact Dev.rd_wr_of_ne _ h2 _
  obtain ⟨o, ho, h4, hc, hR⟩ := regCard_spec hd
  constructor
  · rw [← Dev.reg_setReg s v he hd]
    have hcard := rdne (regCard e d) (by rw [hR]; exact aEng_ne h4) (by rw [hR]; exact aEng_ne hc)
    unfold regCard at hcard
    unfold Dev.reg
    by_cases h1 : d < 32
    · simpa [h1] using hcard
    · by_cases h2 : d < 36
      · simpa [h1, h2] using hcard
      · have h3 : d = 36 := by omega
        subst h3
        simp at hcard ⊢
        simp [Dev.fld, hcard]
  · rw [Cc _ (by simpa using aEng_ne (by omega))]
    unfold Dev.putFlags FlagSet.apply
    rw [Dev.rd_wr_self, hC _ (Dev.not_mem_regCards he hd (.inr rfl))]
  · exact ⟨J.pc, by rw [J.eng, hE], fun k hk => by rw [J.others k hk]; exact hE k⟩
  · intro a ha
    simp only [List.mem_cons, not_or] at ha
    rw [rdne a ha.2.1 ha.2.2.1]
    exact hC a (by simp only [List.mem_cons, not_or]; exact ⟨ha.1, ha.2.2.2⟩)
  · exact (hF.1.putFlags e fs).jumpTo e _

/-- Flags written, and the instruction retired. -/
theorem Dev.tests (s : Dev) {e : Nat} (fs : FlagSet) (hp : s.pc e < 32767) :
    s.Tests ((s.putFlags e fs).retire e) e fs.mask (fs.bits &&& fs.mask) := by
  have hpc : (s.putFlags e fs).pc e = s.pc e := by
    unfold Dev.pc Dev.fld Dev.putFlags
    rw [Dev.rd_wr_of_ne _ (aEng_ne (by omega))]
  rw [Dev.retire_eq_jump _ (by rw [hpc]; exact hp), hpc]
  have J := Dev.jumpTo_jumps (s.putFlags e fs) (e := e) (n := s.pc e + 1) (by omega)
  have Cc := Dev.jumpTo_cards (s.putFlags e fs) e (s.pc e + 1)
  constructor
  · rw [Cc _ (by simpa using aEng_ne (by omega))]
    unfold Dev.putFlags FlagSet.apply
    rw [Dev.rd_wr_self]
  · exact ⟨J.pc, J.eng, J.others⟩
  · intro a ha
    simp only [List.mem_cons, List.not_mem_nil, or_false, not_or] at ha
    rw [Cc a (by simpa using ha.1)]
    exact Dev.rd_wr_of_ne _ ha.2 _
  · exact rfl

/-! ### Staging (R26, R84) -/

@[simp] theorem Dev.stageOp_rd (s : Dev) (e : Nat) (op : EngOp) (a : Nat) : (s.stageOp e op).rd a = s.rd a := rfl

/-- A staged write and the retirement of its instruction. -/
theorem Dev.stages (s : Dev) {e : Nat} (op : EngOp) (hp : s.pc e < 32767) :
    s.Stages ((s.stageOp e op).retire e) e op ∧ s.StageFrame ((s.stageOp e op).retire e) := by
  have hpc : (s.stageOp e op).pc e = s.pc e := rfl
  rw [Dev.retire_eq_jump _ (by rw [hpc]; exact hp), hpc]
  have J := Dev.jumpTo_jumps (s.stageOp e op) (e := e) (n := s.pc e + 1) (by omega)
  have Cc := Dev.jumpTo_cards (s.stageOp e op) e (s.pc e + 1)
  have hE : (s.stageOp e op).eng e = { s.eng e with staged := (s.eng e).staged + 1 } :=
    Dev.eng_setEng_self _ _ _
  have hO : ∀ k, k ≠ e → (s.stageOp e op).eng k = s.eng k := fun k hk => Dev.eng_setEng_of_ne _ hk _
  refine ⟨⟨rfl, rfl, J.pc, ?_, fun k hk => by rw [J.others k hk]; exact hO k hk, Cc⟩, rfl⟩
  rw [J.eng, hE]; rfl

/-- An instruction that stages, with every check passed. -/
theorem Dev.stageIns_stages (s : Dev) {e : Nat} {ill param modeIll : Bool} (op : EngOp) (hp : s.pc e < 32767)
    (hi : ill = false) (hq : param = false) (hm : modeIll = false) (hs : (s.eng e).staged < 16) :
    s.Stages (s.stageIns e ill param modeIll op) e op ∧ s.StageFrame (s.stageIns e ill param modeIll op) := by
  have : s.stageIns e ill param modeIll op = (s.stageOp e op).retire e := by
    unfold Dev.stageIns
    apply Dev.check_ok
    simp [hi, hq, hm, Dev.stageFull]; omega
  rw [this]; exact Dev.stages s op hp

end Sys2Proof.Machine
end

