-- ==== Sys2Proof/Laws/Evo.lean ====
section
/-! SUPPORT. What an operation of the device can do to the whole of it: the tables and memories keep their
canonical form, and the mode, the frame number, the straps and the TAP stand, but for an entry to SAFE. Each
operation has one lemma that says so of it (Laws/Ev*.lean); only resets, boot steps, mode switches, ticks
and the TAP's own rows go beyond it. -/

namespace Sys2Proof.Machine

/-- `s` was reached from `a` by operations that keep the canonical form and leave the mode, the standing mode request,
the boot stage, the frame number, the straps and the TAP as they were; with `b`, SAFE may have been entered. -/
structure Evo (b : Bool) (a s : Dev) : Prop where
  mem     : Memory.wf a.mem = true → Memory.wf s.mem = true
  scratch : Scratch.wf a.scratch = true → Scratch.wf s.scratch = true
  regs    : Tab.wf resetWord a.regs = true → Tab.wf resetWord s.regs = true
  engs    : Tab.wf (fun _ => engOff) a.engs = true → Tab.wf (fun _ => engOff) s.engs = true
  sites   : Tab.wf (fun _ => siteInit) a.sites = true → Tab.wf (fun _ => siteInit) s.sites = true
  plys    : Tab.wf (fun _ => plyInit) a.plys = true → Tab.wf (fun _ => plyInit) s.plys = true
  quads   : Tab.wf (fun _ => quadInit) a.quads = true → Tab.wf (fun _ => quadInit) s.quads = true
  circs   : Tab.wf (fun _ => circInit) a.circs = true → Tab.wf (fun _ => circInit) s.circs = true
  chains  : Tab.wf (fun _ => chainInit) a.chains = true → Tab.wf (fun _ => chainInit) s.chains = true
  acqs    : Tab.wf (fun _ => acqInit) a.acqs = true → Tab.wf (fun _ => acqInit) s.acqs = true
  tdcs    : Tab.wf (fun _ => tdcInit) a.tdcs = true → Tab.wf (fun _ => tdcInit) s.tdcs = true
  weirs   : Tab.wf (fun _ => weirInit) a.weirs = true → Tab.wf (fun _ => weirInit) s.weirs = true
  sensors : Tab.wf (fun _ => sensorInit) a.pwr.sensors = true → Tab.wf (fun _ => sensorInit) s.pwr.sensors = true
  lanes   : Tab.wf (fun _ => laneInit) a.lanes = true → Tab.wf (fun _ => laneInit) s.lanes = true
  links   : Tab.wf (fun _ => linkInit) a.links = true → Tab.wf (fun _ => linkInit) s.links = true
  limits  : Tab.wf (fun _ => (0xFF800000, 0x7F800000)) a.led.limits = true →
              Tab.wf (fun _ => (0xFF800000, 0x7F800000)) s.led.limits = true
  mode    : (s.sys.mode = a.sys.mode ∧ s.sys.req = a.sys.req) ∨
              (b = true ∧ s.sys.mode = .safe ∧ a.sys.mode ≠ .reset ∧ s.sys.req = none)
  boot    : s.sys.boot = a.sys.boot
  frame   : s.clk.frame = a.clk.frame
  ticked  : s.clk.ticked = a.clk.ticked
  devid   : s.sys.devid = a.sys.devid
  master  : s.sys.master = a.sys.master
  recov   : s.sys.recov = a.sys.recov
  jtag    : s.jtag = a.jtag
  tdo     : s.tdo = a.tdo

theorem Evo.refl {b : Bool} (s : Dev) : Evo b s s where
  mem := id
  scratch := id
  regs := id
  engs := id
  sites := id
  plys := id
  quads := id
  circs := id
  chains := id
  acqs := id
  tdcs := id
  weirs := id
  sensors := id
  lanes := id
  links := id
  limits := id
  mode := .inl ⟨rfl, rfl⟩
  boot := rfl
  frame := rfl
  ticked := rfl
  devid := rfl
  master := rfl
  recov := rfl
  jtag := rfl
  tdo := rfl

/-- Canonical form carries over. -/
theorem Evo.canonical {b : Bool} {a s : Dev} (h : Evo b a s) (c : a.Canonical) : s.Canonical :=
  ⟨h.mem c.mem, h.scratch c.scratch, h.regs c.regs, h.engs c.engs, h.sites c.sites, h.plys c.plys, h.quads c.quads,
   h.circs c.circs, h.chains c.chains, h.acqs c.acqs, h.tdcs c.tdcs, h.weirs c.weirs, h.sensors c.sensors,
   h.lanes c.lanes, h.links c.links, h.limits c.limits⟩

/-- SAFE stays. -/
theorem Evo.safe {b : Bool} {a s : Dev} (h : Evo b a s) (m : a.sys.mode = .safe) : s.sys.mode = .safe := by
  rcases h.mode with h | h
  · rw [h.1, m]
  · exact h.2.1

/-- RESET stays. -/
theorem Evo.reset {b : Bool} {a s : Dev} (h : Evo b a s) (m : a.sys.mode = .reset) : s.sys.mode = .reset := by
  rcases h.mode with h | h
  · rw [h.1, m]
  · exact absurd m h.2.2.1

/-- No request stands where none stood. -/
theorem Evo.noReq {b : Bool} {a s : Dev} (h : Evo b a s) (m : a.sys.req = none) : s.sys.req = none := by
  rcases h.mode with h | h
  · rw [h.2, m]
  · exact h.2.2.2

/-- An operation that cannot enter SAFE keeps the mode. -/
theorem Evo.calm {a s : Dev} (h : Evo false a s) : s.sys.mode = a.sys.mode ∧ s.sys.req = a.sys.req := by
  rcases h.mode with h | h
  · exact h
  · exact absurd h.1 (by decide)

theorem Evo.loud {b : Bool} {a s : Dev} (h : Evo b a s) : Evo true a s :=
  { h with mode := h.mode.imp_right (fun k => ⟨rfl, k.2⟩) }

theorem Evo.trans {b : Bool} {a c d : Dev} (h : Evo b a c) (k : Evo b c d) : Evo b a d where
  mem := k.mem ∘ h.mem
  scratch := k.scratch ∘ h.scratch
  regs := k.regs ∘ h.regs
  engs := k.engs ∘ h.engs
  sites := k.sites ∘ h.sites
  plys := k.plys ∘ h.plys
  quads := k.quads ∘ h.quads
  circs := k.circs ∘ h.circs
  chains := k.chains ∘ h.chains
  acqs := k.acqs ∘ h.acqs
  tdcs := k.tdcs ∘ h.tdcs
  weirs := k.weirs ∘ h.weirs
  sensors := k.sensors ∘ h.sensors
  lanes := k.lanes ∘ h.lanes
  links := k.links ∘ h.links
  limits := k.limits ∘ h.limits
  mode := by
    rcases k.mode with k | k
    · rcases h.mode with h | h
      · exact .inl ⟨k.1.trans h.1, k.2.trans h.2⟩
      · exact .inr ⟨h.1, k.1.trans h.2.1, h.2.2.1, k.2.trans h.2.2.2⟩
    · exact .inr ⟨k.1, k.2.1, fun m => k.2.2.1 (h.reset m), k.2.2.2⟩
  boot := k.boot.trans h.boot
  frame := k.frame.trans h.frame
  ticked := k.ticked.trans h.ticked
  devid := k.devid.trans h.devid
  master := k.master.trans h.master
  recov := k.recov.trans h.recov
  jtag := k.jtag.trans h.jtag
  tdo := k.tdo.trans h.tdo

/-- An update of fields the relation does not read. -/
theorem Evo.upd {b : Bool} {a s : Dev} {sys : Sys} {clk : Clk} {stage : Stage} {cmps : List Cmp} {slc : Slc} {led : Led} {flt : Flt} {cis : Cis} {pwr : Pwr} {host : HostIf} {nv : Nv} {ucs : Ucs} {imgs : Tab (Tab W)} {freeIx : Nat}
    (h : Evo b a s) (h1 : sys.mode = s.sys.mode) (h0 : sys.req = s.sys.req) (h9 : sys.boot = s.sys.boot) (h2 : clk.frame = s.clk.frame) (h3 : clk.ticked = s.clk.ticked)
    (h4 : sys.devid = s.sys.devid) (h5 : sys.master = s.sys.master) (h6 : sys.recov = s.sys.recov)
    (h7 : led.limits = s.led.limits) (h8 : pwr.sensors = s.pwr.sensors) :
    Evo b a ⟨sys, clk, stage, s.regs, s.mem, s.scratch, s.engs, s.sites, s.plys, cmps, s.quads, s.circs, s.chains, s.acqs, s.tdcs, s.weirs, slc, led, flt, cis, pwr, s.lanes, s.links, host, nv, ucs, imgs, s.jtag, s.tdo, freeIx⟩ :=
  { mem := h.mem, scratch := h.scratch, regs := h.regs, engs := h.engs, sites := h.sites, plys := h.plys, quads := h.quads,
    circs := h.circs, chains := h.chains, acqs := h.acqs, tdcs := h.tdcs, weirs := h.weirs, lanes := h.lanes,
    links := h.links, jtag := h.jtag, tdo := h.tdo, sensors := h8 ▸ h.sensors, limits := h7 ▸ h.limits,
    mode := h0 ▸ h1 ▸ h.mode, boot := h9 ▸ h.boot, frame := h2 ▸ h.frame, ticked := h3 ▸ h.ticked, devid := h4 ▸ h.devid,
    master := h5 ▸ h.master, recov := h6 ▸ h.recov }

/-- An update of tables as well, each in its canonical form. -/
theorem Evo.all {b : Bool} {a s : Dev}
    {sys : Sys} {clk : Clk} {stage : Stage} {regs : Tab W} {mem : List Host.Cell} {scratch : List Host.Cell} {engs
    : Tab Eng} {sites : Tab Site} {plys : Tab Ply} {cmps : List Cmp} {quads : Tab Quad} {circs : Tab Circ} {chains
    : Tab Chain} {acqs : Tab Acq} {tdcs : Tab Tdc} {weirs : Tab Weir} {slc : Slc} {led : Led} {flt : Flt} {cis :
    Cis} {pwr : Pwr} {lanes : Tab Lane} {links : Tab Link} {host : HostIf} {nv : Nv} {ucs : Ucs} {imgs : Tab (Tab
    W)} {jtag : Jtag} {tdo : W} {freeIx : Nat} (h : Evo b a s) (hmem : Memory.wf s.mem = true → Memory.wf mem =
    true) (hscr : Scratch.wf s.scratch = true → Scratch.wf scratch = true) (hregs : Tab.wf resetWord s.regs = true
    → Tab.wf resetWord regs = true) (hengs : Tab.wf (fun _ => engOff) s.engs = true → Tab.wf (fun _ => engOff)
    engs = true) (hsites : Tab.wf (fun _ => siteInit) s.sites = true → Tab.wf (fun _ => siteInit) sites = true)
    (hplys : Tab.wf (fun _ => plyInit) s.plys = true → Tab.wf (fun _ => plyInit) plys = true) (hquads : Tab.wf
    (fun _ => quadInit) s.quads = true → Tab.wf (fun _ => quadInit) quads = true) (hcircs : Tab.wf (fun _ =>
    circInit) s.circs = true → Tab.wf (fun _ => circInit) circs = true) (hchains : Tab.wf (fun _ => chainInit)
    s.chains = true → Tab.wf (fun _ => chainInit) chains = true) (hacqs : Tab.wf (fun _ => acqInit) s.acqs = true
    → Tab.wf (fun _ => acqInit) acqs = true) (htdcs : Tab.wf (fun _ => tdcInit) s.tdcs = true → Tab.wf (fun _ =>
    tdcInit) tdcs = true) (hweirs : Tab.wf (fun _ => weirInit) s.weirs = true → Tab.wf (fun _ => weirInit) weirs =
    true) (hlanes : Tab.wf (fun _ => laneInit) s.lanes = true → Tab.wf (fun _ => laneInit) lanes = true) (hlinks :
    Tab.wf (fun _ => linkInit) s.links = true → Tab.wf (fun _ => linkInit) links = true) (h1 : sys.mode =
    s.sys.mode) (h0 : sys.req = s.sys.req) (h9 : sys.boot = s.sys.boot) (h2 : clk.frame = s.clk.frame) (h3 :
    clk.ticked = s.clk.ticked) (h4 : sys.devid = s.sys.devid) (h5 : sys.master = s.sys.master) (h6 : sys.recov =
    s.sys.recov) (h7 : led.limits = s.led.limits) (h8 : pwr.sensors = s.pwr.sensors) (hj : jtag = s.jtag) (ht :
    tdo = s.tdo) :
    Evo b a ⟨sys, clk, stage, regs, mem, scratch, engs, sites, plys, cmps, quads, circs, chains, acqs, tdcs, weirs, slc, led, flt, cis, pwr, lanes, links, host, nv, ucs, imgs, jtag, tdo, freeIx⟩ :=
  { mem := hmem ∘ h.mem, scratch := hscr ∘ h.scratch, regs := hregs ∘ h.regs, engs := hengs ∘ h.engs, sites := hsites ∘ h.sites, plys := hplys ∘ h.plys, quads := hquads ∘ h.quads, circs := hcircs ∘ h.circs, chains := hchains ∘ h.chains, acqs := hacqs ∘ h.acqs, tdcs := htdcs ∘ h.tdcs, weirs := hweirs ∘ h.weirs, lanes := hlanes ∘ h.lanes, links := hlinks ∘ h.links,
    jtag := hj ▸ h.jtag, tdo := ht ▸ h.tdo, sensors := h8 ▸ h.sensors, limits := h7 ▸ h.limits,
    mode := h0 ▸ h1 ▸ h.mode, boot := h9 ▸ h.boot, frame := h2 ▸ h.frame, ticked := h3 ▸ h.ticked, devid := h4 ▸ h.devid,
    master := h5 ▸ h.master, recov := h6 ▸ h.recov }

/-- Use of a fact about an intermediate device. -/
theorem Evo.cut {p q : Prop} (h : p) (k : p → q) : q := k h

theorem Evo.forL {β : Type} {b : Bool} {a s : Dev} {l : List β} {f : β → Dev → Dev} (h : Evo b a s)
    (k : ∀ x t, Evo b a t → Evo b a (f x t)) : Evo b a (forL l f s) := by
  unfold Machine.forL
  induction l generalizing s with
  | nil => exact h
  | cons x r ih => exact ih (k x s h)

theorem Evo.forN {b : Bool} {a s : Dev} {n : Nat} {f : Nat → Dev → Dev} (h : Evo b a s)
    (k : ∀ x t, Evo b a t → Evo b a (f x t)) : Evo b a (forN n f s) :=
  Evo.forL (l := List.range n) h k

/-- A fold that carries the device in a pair. -/
theorem Evo.foldl_fst {β γ : Type} {b : Bool} {a : Dev} {l : List β} {f : Dev × γ → β → Dev × γ} {r : Dev × γ} (h : Evo b a r.1)
    (k : ∀ r x, Evo b a r.1 → Evo b a (f r x).1) : Evo b a (l.foldl f r).1 := by
  induction l generalizing r with
  | nil => exact h
  | cons x l ih => exact ih (k r x h)

/-- A fold of the device itself. -/
theorem Evo.foldl {β : Type} {b : Bool} {a s : Dev} {l : List β} {f : Dev → β → Dev} (h : Evo b a s)
    (k : ∀ t x, Evo b a t → Evo b a (f t x)) : Evo b a (l.foldl f s) := by
  induction l generalizing s with
  | nil => exact h
  | cons x l ih => exact ih (k s x h)

/-! ### Changes of a whole table -/

theorem Evo.updSites {b : Bool} {a s : Dev} {f : Site → Site} (h : Evo b a s) : Evo b a { s with sites := s.sites.upd siteInit f } :=
  { h with sites := fun k => Tab.wf_upd f (h.sites k) }
theorem Evo.updQuads {b : Bool} {a s : Dev} {f : Quad → Quad} (h : Evo b a s) : Evo b a { s with quads := s.quads.upd quadInit f } :=
  { h with quads := fun k => Tab.wf_upd f (h.quads k) }
theorem Evo.updAtQuads {b : Bool} {a s : Dev} {f : Nat → Quad → Quad} (h : Evo b a s) :
    Evo b a { s with quads := s.quads.updAt quadInit f } :=
  { h with quads := fun k => Tab.wf_updAt f (h.quads k) }
theorem Evo.updCircs {b : Bool} {a s : Dev} {f : Circ → Circ} (h : Evo b a s) : Evo b a { s with circs := s.circs.upd circInit f } :=
  { h with circs := fun k => Tab.wf_upd f (h.circs k) }
theorem Evo.updTdcs {b : Bool} {a s : Dev} {f : Tdc → Tdc} (h : Evo b a s) : Evo b a { s with tdcs := s.tdcs.upd tdcInit f } :=
  { h with tdcs := fun k => Tab.wf_upd f (h.tdcs k) }
theorem Evo.updPlys {b : Bool} {a s : Dev} {f : Ply → Ply} (h : Evo b a s) : Evo b a { s with plys := s.plys.upd plyInit f } :=
  { h with plys := fun k => Tab.wf_upd f (h.plys k) }
theorem Evo.updEngs {b : Bool} {a s : Dev} {f : Eng → Eng} (h : Evo b a s) : Evo b a { s with engs := s.engs.upd engOff f } :=
  { h with engs := fun k => Tab.wf_upd f (h.engs k) }
theorem Evo.updAtEngs {b : Bool} {a s : Dev} {f : Nat → Eng → Eng} (h : Evo b a s) : Evo b a { s with engs := s.engs.updAt engOff f } :=
  { h with engs := fun k => Tab.wf_updAt f (h.engs k) }
theorem Evo.updAcqs {b : Bool} {a s : Dev} {f : Acq → Acq} (h : Evo b a s) : Evo b a { s with acqs := s.acqs.upd acqInit f } :=
  { h with acqs := fun k => Tab.wf_upd f (h.acqs k) }
theorem Evo.filterRegs {b : Bool} {a s : Dev} {q : Nat × W → Bool} (h : Evo b a s) : Evo b a { s with regs := s.regs.filter q } :=
  { h with regs := fun k => Tab.wf_filter q (h.regs k) }
theorem Evo.filterMem {b : Bool} {a s : Dev} {q : Nat × Byte → Bool} (h : Evo b a s) : Evo b a { s with mem := s.mem.filter q } :=
  { h with mem := fun k => Tab.wf_filter q (h.mem k) }
theorem Evo.filterScratch {b : Bool} {a s : Dev} {q : Nat × Byte → Bool} (h : Evo b a s) :
    Evo b a { s with scratch := s.scratch.filter q } :=
  { h with scratch := fun k => Tab.wf_filter q (h.scratch k) }

/-- A fold of what carries the device. -/
theorem Evo.foldlBy {σ β : Type} {b : Bool} {a : Dev} (p : σ → Dev) {l : List β} {f : σ → β → σ} {r : σ} (h : Evo b a (p r))
    (k : ∀ r x, Evo b a (p r) → Evo b a (p (f r x))) : Evo b a (p (l.foldl f r)) := by
  induction l generalizing r with
  | nil => exact h
  | cons x l ih => exact ih (k r x h)

/-! ### The primitive writes -/

theorem Dev.wr_evo {b : Bool} {a s : Dev} {n : Nat} {v : W} (h : Evo b a s) : Evo b a (s.wr n v) :=
  { h with regs := fun x => Tab.wf_set n v (h.regs x) }
theorem Dev.setByte_evo {b : Bool} {a s : Dev} {n : Nat} {v : Byte} (h : Evo b a s) : Evo b a (s.setByte n v) :=
  { h with mem := fun x => Tab.wf_set n v (h.mem x) }
theorem Dev.setScrByte_evo {b : Bool} {a s : Dev} {e n : Nat} {v : Byte} (h : Evo b a s) : Evo b a (s.setScrByte e n v) :=
  { h with scratch := fun x => Tab.wf_set _ v (h.scratch x) }
theorem Dev.clearScr_evo {b : Bool} {a s : Dev} {e : Nat} (h : Evo b a s) : Evo b a (s.clearScr e) :=
  { h with scratch := fun x => Tab.wf_filter _ (h.scratch x) }
theorem Dev.clearMem_evo {b : Bool} {a s : Dev} {l u : Nat} (h : Evo b a s) : Evo b a (s.clearMem l u) :=
  { h with mem := fun x => Tab.wf_filter _ (h.mem x) }
theorem Dev.setEng_evo {b : Bool} {a s : Dev} {n : Nat} {x : Eng} (h : Evo b a s) : Evo b a (s.setEng n x) :=
  { h with engs := fun k => Tab.wf_set n x (h.engs k) }
theorem Dev.setSite_evo {b : Bool} {a s : Dev} {n : Nat} {x : Site} (h : Evo b a s) : Evo b a (s.setSite n x) :=
  { h with sites := fun k => Tab.wf_set n x (h.sites k) }
theorem Dev.setPly_evo {b : Bool} {a s : Dev} {n : Nat} {x : Ply} (h : Evo b a s) : Evo b a (s.setPly n x) :=
  { h with plys := fun k => Tab.wf_set n x (h.plys k) }
theorem Dev.setQuad_evo {b : Bool} {a s : Dev} {n : Nat} {x : Quad} (h : Evo b a s) : Evo b a (s.setQuad n x) :=
  { h with quads := fun k => Tab.wf_set n x (h.quads k) }
theorem Dev.setCirc_evo {b : Bool} {a s : Dev} {n : Nat} {x : Circ} (h : Evo b a s) : Evo b a (s.setCirc n x) :=
  { h with circs := fun k => Tab.wf_set n x (h.circs k) }
theorem Dev.setChain_evo {b : Bool} {a s : Dev} {n : Nat} {x : Chain} (h : Evo b a s) : Evo b a (s.setChain n x) :=
  { h with chains := fun k => Tab.wf_set n x (h.chains k) }
theorem Dev.setAcq_evo {b : Bool} {a s : Dev} {n : Nat} {x : Acq} (h : Evo b a s) : Evo b a (s.setAcq n x) :=
  { h with acqs := fun k => Tab.wf_set n x (h.acqs k) }
theorem Dev.setTdc_evo {b : Bool} {a s : Dev} {n : Nat} {x : Tdc} (h : Evo b a s) : Evo b a (s.setTdc n x) :=
  { h with tdcs := fun k => Tab.wf_set n x (h.tdcs k) }
theorem Dev.setWeir_evo {b : Bool} {a s : Dev} {n : Nat} {x : Weir} (h : Evo b a s) : Evo b a (s.setWeir n x) :=
  { h with weirs := fun k => Tab.wf_set n x (h.weirs k) }
theorem Dev.setSensor_evo {b : Bool} {a s : Dev} {n : Nat} {x : Sensor} (h : Evo b a s) : Evo b a (s.setSensor n x) :=
  { h with sensors := fun k => Tab.wf_set n x (h.sensors k) }
theorem Dev.setLane_evo {b : Bool} {a s : Dev} {n : Nat} {x : Lane} (h : Evo b a s) : Evo b a (s.setLane n x) :=
  { h with lanes := fun k => Tab.wf_set n x (h.lanes k) }
theorem Dev.setLink_evo {b : Bool} {a s : Dev} {n : Nat} {x : Link} (h : Evo b a s) : Evo b a (s.setLink n x) :=
  { h with links := fun k => Tab.wf_set n x (h.links k) }
theorem Dev.setLimit_evo {b : Bool} {a s : Dev} {n : Nat} {x : W × W} (h : Evo b a s) : Evo b a (s.setLimit n x) :=
  { h with limits := fun k => Tab.wf_set n x (h.limits k) }
theorem Dev.draw_evo {b : Bool} {a s : Dev} (h : Evo b a s) : Evo b a s.draw.2 :=
  Evo.upd h rfl rfl rfl rfl rfl rfl rfl rfl rfl rfl

theorem Dev.drawErrors_evo {b : Bool} {a s : Dev} (h : Evo b a s) : Evo b a s.drawErrors.2 :=
  Evo.upd h rfl rfl rfl rfl rfl rfl rfl rfl rfl rfl

end Sys2Proof.Machine
end

