-- ==== Sys2Proof/Laws/Ev/Ops.lean ====
section
/-! SUPPORT. What the operations of Machine/Ops.lean can do to the whole device. -/

namespace Sys2Proof.Machine

theorem Dev.setFld_evo {m₀ : Bool} {d₀ : Dev} {s : Dev} {a : Nat} {hi : Nat} {lo : Nat} {x : Nat} (ev : Evo m₀ d₀ s) :
    Evo m₀ d₀ (Dev.setFld s a hi lo x) := by
  unfold Dev.setFld
  repeat' first
    | with_reducible assumption
    | with_reducible apply Dev.wr_evo

theorem Dev.setBits_evo {m₀ : Bool} {d₀ : Dev} {s : Dev} {a : Nat} {m : W} (ev : Evo m₀ d₀ s) :
    Evo m₀ d₀ (Dev.setBits s a m) := by
  unfold Dev.setBits
  repeat' first
    | with_reducible assumption
    | with_reducible apply Dev.wr_evo

theorem Dev.clrBits_evo {m₀ : Bool} {d₀ : Dev} {s : Dev} {a : Nat} {m : W} (ev : Evo m₀ d₀ s) :
    Evo m₀ d₀ (Dev.clrBits s a m) := by
  unfold Dev.clrBits
  repeat' first
    | with_reducible assumption
    | with_reducible apply Dev.wr_evo

theorem Dev.incSat_evo {m₀ : Bool} {d₀ : Dev} {s : Dev} {a : Nat} {hi : Nat} {lo : Nat} (ev : Evo m₀ d₀ s) :
    Evo m₀ d₀ (Dev.incSat s a hi lo) := by
  unfold Dev.incSat
  repeat' first
    | with_reducible assumption
    | with_reducible apply Dev.setFld_evo

theorem Dev.wrFrame_evo {m₀ : Bool} {d₀ : Dev} {s : Dev} {aLo : Nat} {aHi : Nat} {n : Nat} (ev : Evo m₀ d₀ s) :
    Evo m₀ d₀ (Dev.wrFrame s aLo aHi n) := by
  unfold Dev.wrFrame
  repeat' first
    | with_reducible assumption
    | with_reducible apply Dev.wr_evo
    | with_reducible apply Dev.setFld_evo

theorem Dev.onEng_evo {m₀ : Bool} {d₀ : Dev} {s : Dev} {e : Nat} {f : Eng → Eng} (ev : Evo m₀ d₀ s) :
    Evo m₀ d₀ (Dev.onEng s e f) := by
  unfold Dev.onEng
  repeat' first
    | with_reducible assumption
    | with_reducible apply Dev.setEng_evo

theorem Dev.onSite_evo {m₀ : Bool} {d₀ : Dev} {s : Dev} {i : Nat} {f : Site → Site} (ev : Evo m₀ d₀ s) :
    Evo m₀ d₀ (Dev.onSite s i f) := by
  unfold Dev.onSite
  repeat' first
    | with_reducible assumption
    | with_reducible apply Dev.setSite_evo

theorem Dev.onPly_evo {m₀ : Bool} {d₀ : Dev} {s : Dev} {y : Nat} {f : Ply → Ply} (ev : Evo m₀ d₀ s) :
    Evo m₀ d₀ (Dev.onPly s y f) := by
  unfold Dev.onPly
  repeat' first
    | with_reducible assumption
    | with_reducible apply Dev.setPly_evo

theorem Dev.onQuad_evo {m₀ : Bool} {d₀ : Dev} {s : Dev} {q : Nat} {f : Quad → Quad} (ev : Evo m₀ d₀ s) :
    Evo m₀ d₀ (Dev.onQuad s q f) := by
  unfold Dev.onQuad
  repeat' first
    | with_reducible assumption
    | with_reducible apply Dev.setQuad_evo

theorem Dev.onCirc_evo {m₀ : Bool} {d₀ : Dev} {s : Dev} {c : Nat} {f : Circ → Circ} (ev : Evo m₀ d₀ s) :
    Evo m₀ d₀ (Dev.onCirc s c f) := by
  unfold Dev.onCirc
  repeat' first
    | with_reducible assumption
    | with_reducible apply Dev.setCirc_evo

theorem Dev.onChain_evo {m₀ : Bool} {d₀ : Dev} {s : Dev} {c : Nat} {f : Chain → Chain} (ev : Evo m₀ d₀ s) :
    Evo m₀ d₀ (Dev.onChain s c f) := by
  unfold Dev.onChain
  repeat' first
    | with_reducible assumption
    | with_reducible apply Dev.setChain_evo

theorem Dev.onAcq_evo {m₀ : Bool} {d₀ : Dev} {s : Dev} {q : Nat} {f : Acq → Acq} (ev : Evo m₀ d₀ s) :
    Evo m₀ d₀ (Dev.onAcq s q f) := by
  unfold Dev.onAcq
  repeat' first
    | with_reducible assumption
    | with_reducible apply Dev.setAcq_evo

theorem Dev.onTdc_evo {m₀ : Bool} {d₀ : Dev} {s : Dev} {c : Nat} {f : Tdc → Tdc} (ev : Evo m₀ d₀ s) :
    Evo m₀ d₀ (Dev.onTdc s c f) := by
  unfold Dev.onTdc
  repeat' first
    | with_reducible assumption
    | with_reducible apply Dev.setTdc_evo

theorem Dev.onWeir_evo {m₀ : Bool} {d₀ : Dev} {s : Dev} {c : Nat} {f : Weir → Weir} (ev : Evo m₀ d₀ s) :
    Evo m₀ d₀ (Dev.onWeir s c f) := by
  unfold Dev.onWeir
  repeat' first
    | with_reducible assumption
    | with_reducible apply Dev.setWeir_evo

theorem Dev.onSensor_evo {m₀ : Bool} {d₀ : Dev} {s : Dev} {n : Nat} {f : Sensor → Sensor} (ev : Evo m₀ d₀ s) :
    Evo m₀ d₀ (Dev.onSensor s n f) := by
  unfold Dev.onSensor
  repeat' first
    | with_reducible assumption
    | with_reducible apply Dev.setSensor_evo

theorem Dev.onLane_evo {m₀ : Bool} {d₀ : Dev} {s : Dev} {j : Nat} {f : Lane → Lane} (ev : Evo m₀ d₀ s) :
    Evo m₀ d₀ (Dev.onLane s j f) := by
  unfold Dev.onLane
  repeat' first
    | with_reducible assumption
    | with_reducible apply Dev.setLane_evo

theorem Dev.onLink_evo {m₀ : Bool} {d₀ : Dev} {s : Dev} {l : Nat} {f : Link → Link} (ev : Evo m₀ d₀ s) :
    Evo m₀ d₀ (Dev.onLink s l f) := by
  unfold Dev.onLink
  repeat' first
    | with_reducible assumption
    | with_reducible apply Dev.setLink_evo

theorem Dev.setWord_evo {m₀ : Bool} {d₀ : Dev} {s : Dev} {a : Nat} {v : W} (ev : Evo m₀ d₀ s) :
    Evo m₀ d₀ (Dev.setWord s a v) := by
  unfold Dev.setWord
  repeat' first
    | with_reducible assumption
    | with_reducible apply Dev.setByte_evo

theorem Dev.setBytes_evo {m₀ : Bool} {d₀ s : Dev} {a : Nat} {l : List Byte} (ev : Evo m₀ d₀ s) : Evo m₀ d₀ (s.setBytes a l) := by
  induction l generalizing s a with
  | nil => exact ev
  | cons b r ih => exact ih (Dev.setByte_evo ev)

theorem Dev.setScrWord_evo {m₀ : Bool} {d₀ : Dev} {s : Dev} {e : Nat} {a : Nat} {v : W} (ev : Evo m₀ d₀ s) :
    Evo m₀ d₀ (Dev.setScrWord s e a v) := by
  unfold Dev.setScrWord
  repeat' first
    | with_reducible assumption
    | (extract_lets +onlyGivenNames z; refine Evo.cut (p := Evo m₀ d₀ z) ?_ (fun e1 => ?_); (on_goal 2 => clear_value z); (on_goal 1 => (unfold z; try clear z)))
    | (extract_lets +onlyGivenNames z; refine Evo.cut (p := Evo m₀ d₀ z.1) ?_ (fun e1 => ?_); (on_goal 2 => clear_value z); (on_goal 1 => (unfold z; try clear z)))
    | extract_lets +onlyGivenNames z
    | with_reducible apply Dev.setScrByte_evo

theorem Dev.setPc_evo {m₀ : Bool} {d₀ : Dev} {s : Dev} {e : Nat} {n : Nat} (ev : Evo m₀ d₀ s) :
    Evo m₀ d₀ (Dev.setPc s e n) := by
  unfold Dev.setPc
  repeat' first
    | with_reducible assumption
    | with_reducible apply Dev.wr_evo

theorem Dev.setFlag_evo {m₀ : Bool} {d₀ : Dev} {s : Dev} {e : Nat} {i : Nat} {b : Bool} (ev : Evo m₀ d₀ s) :
    Evo m₀ d₀ (Dev.setFlag s e i b) := by
  unfold Dev.setFlag
  repeat' first
    | with_reducible assumption
    | with_reducible apply Dev.setFld_evo


end Sys2Proof.Machine
end

