-- ==== Sys2Proof/Laws/Ev/Msgs.lean ====
section
/-! SUPPORT. What the operations of Machine/Msgs.lean can do to the whole device. -/

namespace Sys2Proof.Machine

theorem Dev.sendMsg_evo {m₀ : Bool} {d₀ : Dev} {s : Dev} {l : Nat} {m : Msg} (ev : Evo m₀ d₀ s) :
    Evo m₀ d₀ (Dev.sendMsg s l m) := by
  unfold Dev.sendMsg
  repeat' first
    | with_reducible assumption
    | (extract_lets +onlyGivenNames z; refine Evo.cut (p := Evo m₀ d₀ z) ?_ (fun e1 => ?_); (on_goal 2 => clear_value z); (on_goal 1 => (unfold z; try clear z)))
    | (extract_lets +onlyGivenNames z; refine Evo.cut (p := Evo m₀ d₀ z.1) ?_ (fun e1 => ?_); (on_goal 2 => clear_value z); (on_goal 1 => (unfold z; try clear z)))
    | extract_lets +onlyGivenNames z
    | with_reducible apply Dev.onLink_evo
    | (intro _; intros)
    | (with_reducible refine Evo.upd (by with_reducible assumption) ?_ ?_ ?_ ?_ ?_ ?_ ?_ ?_ ?_ ?_ <;> rfl)
    | split

theorem Dev.moveMsgs_evo {m₀ : Bool} {d₀ : Dev} {s : Dev} {l : Nat} (ev : Evo m₀ d₀ s) :
    Evo m₀ d₀ (Dev.moveMsgs s l) := by
  unfold Dev.moveMsgs
  repeat' first
    | with_reducible assumption
    | (extract_lets +onlyGivenNames z; refine Evo.cut (p := Evo m₀ d₀ z) ?_ (fun e1 => ?_); (on_goal 2 => clear_value z); (on_goal 1 => (unfold z; try clear z)))
    | (extract_lets +onlyGivenNames z; refine Evo.cut (p := Evo m₀ d₀ z.1) ?_ (fun e1 => ?_); (on_goal 2 => clear_value z); (on_goal 1 => (unfold z; try clear z)))
    | extract_lets +onlyGivenNames z
    | with_reducible apply Dev.setLink_evo
    | with_reducible apply Dev.onLink_evo
    | (intro _; intros)
    | (with_reducible refine Evo.upd (by with_reducible assumption) ?_ ?_ ?_ ?_ ?_ ?_ ?_ ?_ ?_ ?_ <;> rfl)
    | split
    | clear_value *

theorem Dev.received_evo {m₀ : Bool} {d₀ : Dev} {s : Dev} {v : Via} {n : Nat} (ev : Evo m₀ d₀ s) :
    Evo m₀ d₀ (Dev.received s v n) := by
  unfold Dev.received
  repeat' first
    | with_reducible assumption
    | with_reducible apply Dev.onLink_evo
    | (intro _; intros)
    | (with_reducible refine Evo.upd (by with_reducible assumption) ?_ ?_ ?_ ?_ ?_ ?_ ?_ ?_ ?_ ?_ <;> rfl)
    | split
    | clear_value *

theorem Dev.notify_evo {m₀ : Bool} {d₀ : Dev} {s : Dev} {n : Ntfy} {head : Bool} (ev : Evo m₀ d₀ s) :
    Evo m₀ d₀ (Dev.notify s n head) := by
  unfold Dev.notify
  repeat' first
    | with_reducible assumption
    | (with_reducible refine Evo.upd (by with_reducible assumption) ?_ ?_ ?_ ?_ ?_ ?_ ?_ ?_ ?_ ?_ <;> rfl)
    | split

theorem Dev.complete_evo {m₀ : Bool} {d₀ : Dev} {s : Dev} {j : Job} {status : Nat} {detail : Nat} {data : List W} (ev : Evo m₀ d₀ s) :
    Evo m₀ d₀ (Dev.complete s j status detail data) := by
  unfold Dev.complete
  repeat' first
    | with_reducible assumption
    | (extract_lets +onlyGivenNames z; refine Evo.cut (p := Evo m₀ d₀ z) ?_ (fun e1 => ?_); (on_goal 2 => clear_value z); (on_goal 1 => (unfold z; try clear z)))
    | (extract_lets +onlyGivenNames z; refine Evo.cut (p := Evo m₀ d₀ z.1) ?_ (fun e1 => ?_); (on_goal 2 => clear_value z); (on_goal 1 => (unfold z; try clear z)))
    | extract_lets +onlyGivenNames z
    | with_reducible apply Dev.sendMsg_evo
    | (with_reducible refine Evo.upd (by with_reducible assumption) ?_ ?_ ?_ ?_ ?_ ?_ ?_ ?_ ?_ ?_ <;> rfl)
    | split
    | clear_value *

theorem Dev.memDone_evo {m₀ : Bool} {d₀ : Dev} {s : Dev} {h : Hdr} {read : Bool} {status : Nat} {words : Nat} {tick : Nat} {data : List W} (ev : Evo m₀ d₀ s) :
    Evo m₀ d₀ (Dev.memDone s h read status words tick data) := by
  unfold Dev.memDone
  repeat' first
    | with_reducible assumption
    | with_reducible apply Dev.sendMsg_evo
    | (with_reducible refine Evo.upd (by with_reducible assumption) ?_ ?_ ?_ ?_ ?_ ?_ ?_ ?_ ?_ ?_ <;> rfl)
    | split
    | clear_value *

theorem Dev.markRaise_evo {m₀ : Bool} {d₀ : Dev} {s : Dev} {f : Nat} (ev : Evo m₀ d₀ s) :
    Evo m₀ d₀ (Dev.markRaise s f) := by
  unfold Dev.markRaise
  repeat' first
    | with_reducible assumption
    | with_reducible apply Dev.setBits_evo
    | with_reducible apply Dev.incSat_evo

theorem Dev.recordRaise_evo {m₀ : Bool} {d₀ : Dev} {s : Dev} {e : Nat} {f : Nat} (ev : Evo m₀ d₀ s) :
    Evo m₀ d₀ (Dev.recordRaise s e f) := by
  unfold Dev.recordRaise
  repeat' first
    | with_reducible assumption
    | (extract_lets +onlyGivenNames z; refine Evo.cut (p := Evo m₀ d₀ z) ?_ (fun e1 => ?_); (on_goal 2 => clear_value z); (on_goal 1 => (unfold z; try clear z)))
    | (extract_lets +onlyGivenNames z; refine Evo.cut (p := Evo m₀ d₀ z.1) ?_ (fun e1 => ?_); (on_goal 2 => clear_value z); (on_goal 1 => (unfold z; try clear z)))
    | extract_lets +onlyGivenNames z
    | with_reducible apply Dev.markRaise_evo
    | with_reducible apply Dev.setFld_evo

theorem Dev.countOcc_evo {m₀ : Bool} {d₀ : Dev} {s : Dev} {x : Nat} {l : Nat} {e : Nat} {o : OccNow} {rs : List (Nat × List Nat)} (ev : Evo m₀ d₀ s) :
    Evo m₀ d₀ (Dev.countOcc s x l e o rs) := by
  unfold Dev.countOcc
  repeat' first
    | with_reducible assumption
    | (extract_lets +onlyGivenNames z; refine Evo.cut (p := Evo m₀ d₀ z) ?_ (fun e1 => ?_); (on_goal 2 => clear_value z); (on_goal 1 => (unfold z; try clear z)))
    | (extract_lets +onlyGivenNames z; refine Evo.cut (p := Evo m₀ d₀ z.1) ?_ (fun e1 => ?_); (on_goal 2 => clear_value z); (on_goal 1 => (unfold z; try clear z)))
    | extract_lets +onlyGivenNames z
    | with_reducible apply Dev.setFld_evo
    | with_reducible apply Dev.incSat_evo
    | with_reducible apply Evo.forL
    | (intro _; intros)
    | (with_reducible refine Evo.upd (by with_reducible assumption) ?_ ?_ ?_ ?_ ?_ ?_ ?_ ?_ ?_ ?_ <;> rfl)
    | split

theorem Dev.recordOcc_evo {m₀ : Bool} {d₀ : Dev} {s : Dev} {x : Nat} {l : Nat} {e : Nat} {rs : List (Nat × List Nat)} (ev : Evo m₀ d₀ s) :
    Evo m₀ d₀ (Dev.recordOcc s x l e rs) := by
  unfold Dev.recordOcc
  repeat' first
    | with_reducible assumption
    | with_reducible apply Dev.recordRaise_evo
    | with_reducible apply Dev.countOcc_evo
    | with_reducible apply Evo.forL
    | (intro _; intros)

theorem Dev.closeOccs_evo {m₀ : Bool} {d₀ : Dev} {s : Dev} (ev : Evo m₀ d₀ s) :
    Evo m₀ d₀ (Dev.closeOccs s) := by
  unfold Dev.closeOccs
  repeat' first
    | with_reducible assumption
    | with_reducible apply Dev.incSat_evo
    | with_reducible apply Evo.forL
    | (intro _; intros)
    | (with_reducible refine Evo.upd (by with_reducible assumption) ?_ ?_ ?_ ?_ ?_ ?_ ?_ ?_ ?_ ?_ <;> rfl)

theorem Dev.note_evo {m₀ : Bool} {d₀ : Dev} {s : Dev} {f : Nat} (ev : Evo m₀ d₀ s) :
    Evo m₀ d₀ (Dev.note s f) := by
  unfold Dev.note
  repeat' first
    | with_reducible assumption
    | (extract_lets +onlyGivenNames z; refine Evo.cut (p := Evo m₀ d₀ z) ?_ (fun e1 => ?_); (on_goal 2 => clear_value z); (on_goal 1 => (unfold z; try clear z)))
    | (extract_lets +onlyGivenNames z; refine Evo.cut (p := Evo m₀ d₀ z.1) ?_ (fun e1 => ?_); (on_goal 2 => clear_value z); (on_goal 1 => (unfold z; try clear z)))
    | extract_lets +onlyGivenNames z
    | with_reducible apply Dev.recordOcc_evo
    | with_reducible apply Dev.markRaise_evo
    | split

theorem Dev.nvPut_evo {m₀ : Bool} {d₀ : Dev} {s : Dev} {o : Nat} {v : W} (ev : Evo m₀ d₀ s) :
    Evo m₀ d₀ (Dev.nvPut s o v) := by
  unfold Dev.nvPut
  repeat' first
    | with_reducible assumption
    | (extract_lets +onlyGivenNames z; refine Evo.cut (p := Evo m₀ d₀ z) ?_ (fun e1 => ?_); (on_goal 2 => clear_value z); (on_goal 1 => (unfold z; try clear z)))
    | (extract_lets +onlyGivenNames z; refine Evo.cut (p := Evo m₀ d₀ z.1) ?_ (fun e1 => ?_); (on_goal 2 => clear_value z); (on_goal 1 => (unfold z; try clear z)))
    | extract_lets +onlyGivenNames z
    | with_reducible apply Dev.setWord_evo
    | with_reducible apply Dev.note_evo
    | (intro _; intros)
    | (with_reducible refine Evo.upd (by with_reducible assumption) ?_ ?_ ?_ ?_ ?_ ?_ ?_ ?_ ?_ ?_ <;> rfl)
    | split

theorem Dev.nvCount_evo {m₀ : Bool} {d₀ : Dev} {s : Dev} {o : Nat} (ev : Evo m₀ d₀ s) :
    Evo m₀ d₀ (Dev.nvCount s o) := by
  unfold Dev.nvCount
  repeat' first
    | with_reducible assumption
    | (extract_lets +onlyGivenNames z; refine Evo.cut (p := Evo m₀ d₀ z) ?_ (fun e1 => ?_); (on_goal 2 => clear_value z); (on_goal 1 => (unfold z; try clear z)))
    | (extract_lets +onlyGivenNames z; refine Evo.cut (p := Evo m₀ d₀ z.1) ?_ (fun e1 => ?_); (on_goal 2 => clear_value z); (on_goal 1 => (unfold z; try clear z)))
    | extract_lets +onlyGivenNames z
    | with_reducible apply Dev.nvPut_evo
    | split


end Sys2Proof.Machine
end

