-- ==== Sys2Proof/Laws/Ev/Fault.lean ====
section
/-! SUPPORT. What the operations of Machine/Fault.lean can do to the whole device. -/

namespace Sys2Proof.Machine

theorem Dev.voidSite_evo {m₀ : Bool} {d₀ : Dev} {s : Dev} {cause : Nat} {i : Nat} (ev : Evo m₀ d₀ s) :
    Evo m₀ d₀ (Dev.voidSite s cause i) := by
  unfold Dev.voidSite
  repeat' first
    | with_reducible assumption
    | (extract_lets +onlyGivenNames z; refine Evo.cut (p := Evo m₀ d₀ z) ?_ (fun e1 => ?_); (on_goal 2 => clear_value z); (on_goal 1 => (unfold z; try clear z)))
    | (extract_lets +onlyGivenNames z; refine Evo.cut (p := Evo m₀ d₀ z.1) ?_ (fun e1 => ?_); (on_goal 2 => clear_value z); (on_goal 1 => (unfold z; try clear z)))
    | extract_lets +onlyGivenNames z
    | with_reducible apply Dev.setSite_evo
    | with_reducible apply Dev.onEng_evo
    | (intro _; intros)
    | (with_reducible refine Evo.upd (by with_reducible assumption) ?_ ?_ ?_ ?_ ?_ ?_ ?_ ?_ ?_ ?_ <;> rfl)
    | split

theorem Dev.voidSites_evo {m₀ : Bool} {d₀ : Dev} {s : Dev} {cause : Nat} {l : List Nat} (ev : Evo m₀ d₀ s) :
    Evo m₀ d₀ (Dev.voidSites s cause l) := by
  unfold Dev.voidSites
  repeat' first
    | with_reducible assumption
    | with_reducible apply Dev.voidSite_evo
    | with_reducible apply Evo.forL
    | (intro _; intros)

theorem Dev.setSpareBank_evo {m₀ : Bool} {d₀ : Dev} {s : Dev} {n : Nat} {x : SpareBank} (ev : Evo m₀ d₀ s) :
    Evo m₀ d₀ (Dev.setSpareBank s n x) := by
  unfold Dev.setSpareBank
  repeat' first
    | with_reducible assumption
    | (intro _; intros)
    | (with_reducible refine Evo.upd (by with_reducible assumption) ?_ ?_ ?_ ?_ ?_ ?_ ?_ ?_ ?_ ?_ <;> rfl)

theorem Dev.replaceBank_evo {m₀ : Bool} {d₀ : Dev} {s : Dev} {b : Nat} (ev : Evo m₀ d₀ s) :
    Evo m₀ d₀ (Dev.replaceBank s b) := by
  unfold Dev.replaceBank
  repeat' first
    | with_reducible assumption
    | with_reducible apply Dev.setSpareBank_evo
    | with_reducible apply Dev.note_evo
    | (intro _; intros)
    | (with_reducible refine Evo.upd (by with_reducible assumption) ?_ ?_ ?_ ?_ ?_ ?_ ?_ ?_ ?_ ?_ <;> rfl)
    | split
    | clear_value *

theorem Dev.nvRowSpare_evo {m₀ : Bool} {d₀ : Dev} {s : Dev} {o : Nat} (ev : Evo m₀ d₀ s) :
    Evo m₀ d₀ (Dev.nvRowSpare s o) := by
  unfold Dev.nvRowSpare
  repeat' first
    | with_reducible assumption
    | (extract_lets +onlyGivenNames z; refine Evo.cut (p := Evo m₀ d₀ z) ?_ (fun e1 => ?_); (on_goal 2 => clear_value z); (on_goal 1 => (unfold z; try clear z)))
    | (extract_lets +onlyGivenNames z; refine Evo.cut (p := Evo m₀ d₀ z.1) ?_ (fun e1 => ?_); (on_goal 2 => clear_value z); (on_goal 1 => (unfold z; try clear z)))
    | extract_lets +onlyGivenNames z
    | with_reducible apply Dev.note_evo
    | with_reducible apply Dev.draw_evo
    | with_reducible apply Dev.nvPut_evo
    | (with_reducible refine Evo.upd (by with_reducible assumption) ?_ ?_ ?_ ?_ ?_ ?_ ?_ ?_ ?_ ?_ <;> rfl)
    | split

theorem Dev.repair_evo {m₀ : Bool} {d₀ : Dev} {s : Dev} {f : Nat} {u : Nat} (ev : Evo m₀ d₀ s) :
    Evo m₀ d₀ (Dev.repair s f u) := by
  unfold Dev.repair
  repeat' first
    | with_reducible assumption
    | with_reducible apply Dev.onQuad_evo
    | with_reducible apply Dev.onEng_evo
    | with_reducible apply Dev.replaceBank_evo
    | with_reducible apply Dev.nvRowSpare_evo
    | with_reducible apply Dev.onLane_evo
    | (intro _; intros)
    | (with_reducible refine Evo.upd (by with_reducible assumption) ?_ ?_ ?_ ?_ ?_ ?_ ?_ ?_ ?_ ?_ <;> rfl)
    | split

theorem Dev.rejMode_evo {m₀ : Bool} {d₀ : Dev} {s : Dev} {tag : Nat} {reason : Nat} (ev : Evo m₀ d₀ s) :
    Evo m₀ d₀ (Dev.rejMode s tag reason) := by
  unfold Dev.rejMode
  repeat' first
    | with_reducible assumption
    | (extract_lets +onlyGivenNames z; refine Evo.cut (p := Evo m₀ d₀ z) ?_ (fun e1 => ?_); (on_goal 2 => clear_value z); (on_goal 1 => (unfold z; try clear z)))
    | (extract_lets +onlyGivenNames z; refine Evo.cut (p := Evo m₀ d₀ z.1) ?_ (fun e1 => ?_); (on_goal 2 => clear_value z); (on_goal 1 => (unfold z; try clear z)))
    | extract_lets +onlyGivenNames z
    | with_reducible apply Dev.setBits_evo
    | with_reducible apply Dev.setFld_evo

theorem Dev.endReq_evo {m₀ : Bool} {d₀ : Dev} {s : Dev} {r : ModeReq} {reason : Nat} (ev : Evo m₀ d₀ s) :
    Evo m₀ d₀ (Dev.endReq s r reason) := by
  unfold Dev.endReq
  repeat' first
    | with_reducible assumption
    | (extract_lets +onlyGivenNames z; refine Evo.cut (p := Evo m₀ d₀ z) ?_ (fun e1 => ?_); (on_goal 2 => clear_value z); (on_goal 1 => (unfold z; try clear z)))
    | (extract_lets +onlyGivenNames z; refine Evo.cut (p := Evo m₀ d₀ z.1) ?_ (fun e1 => ?_); (on_goal 2 => clear_value z); (on_goal 1 => (unfold z; try clear z)))
    | extract_lets +onlyGivenNames z
    | with_reducible apply Dev.rejMode_evo
    | with_reducible apply Dev.complete_evo
    | (with_reducible refine Evo.upd (by with_reducible assumption) ?_ ?_ ?_ ?_ ?_ ?_ ?_ ?_ ?_ ?_ <;> rfl)
    | split
    | clear_value *

theorem Dev.abortCmds_evo {m₀ : Bool} {d₀ : Dev} {s : Dev} (ev : Evo m₀ d₀ s) :
    Evo m₀ d₀ (Dev.abortCmds s) := by
  unfold Dev.abortCmds
  repeat' first
    | with_reducible assumption
    | (extract_lets +onlyGivenNames z; refine Evo.cut (p := Evo m₀ d₀ z) ?_ (fun e1 => ?_); (on_goal 2 => clear_value z); (on_goal 1 => (unfold z; try clear z)))
    | (extract_lets +onlyGivenNames z; refine Evo.cut (p := Evo m₀ d₀ z.1) ?_ (fun e1 => ?_); (on_goal 2 => clear_value z); (on_goal 1 => (unfold z; try clear z)))
    | extract_lets +onlyGivenNames z
    | with_reducible apply Dev.complete_evo
    | with_reducible apply Evo.forL
    | (intro _; intros)
    | (with_reducible refine Evo.upd (by with_reducible assumption) ?_ ?_ ?_ ?_ ?_ ?_ ?_ ?_ ?_ ?_ <;> rfl)
    | split
    | clear_value *

theorem Dev.enterSafe_evo {d₀ s : Dev} {x : Nat} (ev : Evo true d₀ s) : Evo true d₀ (s.enterSafe x) := by
  unfold Dev.enterSafe
  split
  · exact ev
  · rename_i hm
    extract_lets n s1 s2 s3 s4 s5
    have e1 : Evo true d₀ s1 := by
      unfold s1
      split
      · exact Dev.notify_evo ev
      · exact ev
    have e2 : Evo true d₀ s2 := Evo.forL e1 (fun _ _ h => Dev.endReq_evo h)
    have e4 : Evo true d₀ s4 := Dev.nvCount_evo (Dev.abortCmds_evo e2)
    have e6 : Evo true d₀ s5 := by
      unfold s5
      split
      · exact Dev.clrBits_evo e4
      · exact e4
    have hr : d₀.sys.mode ≠ .reset := fun h => hm (by simp [ev.reset h])
    clear_value s5
    have e5 : Evo true d₀ { s5 with sys := { s5.sys with mode := .safe, req := none, asked := [], safeDue := true } } := { e6 with
      mode := .inr ⟨rfl, rfl, hr, rfl⟩, boot := e6.boot, devid := e6.devid, master := e6.master, recov := e6.recov }
    (refine Evo.all (s := { s5 with sys := { s5.sys with mode := .safe, req := none, asked := [], safeDue := true } }) e5 ?_ ?_ ?_ ?_ ?_ ?_ ?_ ?_ ?_ ?_ ?_ ?_ ?_ ?_ ?_ ?_ ?_ ?_ ?_ ?_ ?_ ?_ ?_ ?_ ?_ ?_ <;> first | exact id | rfl | exact fun k => Tab.wf_upd _ k | exact fun k => Tab.wf_updAt _ k | exact fun k => Tab.wf_filter _ k)

theorem Dev.unlessSafe_evo {m₀ : Bool} {d₀ : Dev} {s : Dev} {f : Dev → Dev} (ev : Evo m₀ d₀ s) (evf : ∀ t, Evo m₀ d₀ t → Evo m₀ d₀ (f t )) :
    Evo m₀ d₀ (Dev.unlessSafe s f) := by
  unfold Dev.unlessSafe
  repeat' first
    | with_reducible assumption
    | with_reducible apply evf
    | split

theorem Dev.react_evo {m₀ : Bool} {d₀ : Dev} {s : Dev} {e : Nat} {r : Raise} (ev : Evo m₀ d₀ s) :
    Evo m₀ d₀ (Dev.react s e r) := by
  unfold Dev.react
  repeat' first
    | with_reducible assumption
    | (extract_lets +onlyGivenNames z; refine Evo.cut (p := Evo m₀ d₀ z) ?_ (fun e1 => ?_); (on_goal 2 => clear_value z); (on_goal 1 => (unfold z; try clear z)))
    | (extract_lets +onlyGivenNames z; refine Evo.cut (p := Evo m₀ d₀ z.1) ?_ (fun e1 => ?_); (on_goal 2 => clear_value z); (on_goal 1 => (unfold z; try clear z)))
    | extract_lets +onlyGivenNames z
    | with_reducible apply Dev.voidSites_evo
    | with_reducible apply Dev.repair_evo
    | split

theorem Dev.reacts_evo {d₀ : Dev} {s : Dev} {x : Nat} {e : Nat} {o : OccNow} {rs : List Raise} (ev : Evo true d₀ s) :
    Evo true d₀ (Dev.reacts s x e o rs) := by
  unfold Dev.reacts
  repeat' first
    | with_reducible assumption
    | (extract_lets +onlyGivenNames z; refine Evo.cut (p := Evo true d₀ z) ?_ (fun e1 => ?_); (on_goal 2 => clear_value z); (on_goal 1 => (unfold z; try clear z)))
    | (extract_lets +onlyGivenNames z; refine Evo.cut (p := Evo true d₀ z.1) ?_ (fun e1 => ?_); (on_goal 2 => clear_value z); (on_goal 1 => (unfold z; try clear z)))
    | extract_lets +onlyGivenNames z
    | with_reducible apply Dev.enterSafe_evo
    | with_reducible apply Dev.voidSites_evo
    | with_reducible apply Dev.react_evo
    | with_reducible apply Evo.forL
    | (intro _; intros)
    | split

theorem Dev.occur_evo {d₀ : Dev} {s : Dev} {x : Nat} {rs : List Raise} (ev : Evo true d₀ s) :
    Evo true d₀ (Dev.occur s x rs) := by
  unfold Dev.occur
  repeat' first
    | with_reducible assumption
    | (extract_lets +onlyGivenNames z; refine Evo.cut (p := Evo true d₀ z) ?_ (fun e1 => ?_); (on_goal 2 => clear_value z); (on_goal 1 => (unfold z; try clear z)))
    | (extract_lets +onlyGivenNames z; refine Evo.cut (p := Evo true d₀ z.1) ?_ (fun e1 => ?_); (on_goal 2 => clear_value z); (on_goal 1 => (unfold z; try clear z)))
    | extract_lets +onlyGivenNames z
    | with_reducible apply Dev.recordOcc_evo
    | with_reducible apply Dev.reacts_evo
    | with_reducible apply Evo.foldl_fst
    | with_reducible apply Evo.foldl
    | (intro _; intros)

theorem Dev.raises_evo {d₀ : Dev} {s : Dev} {rs : List Raise} (ev : Evo true d₀ s) :
    Evo true d₀ (Dev.raises s rs) := by
  unfold Dev.raises
  repeat' first
    | with_reducible assumption
    | (extract_lets +onlyGivenNames z; refine Evo.cut (p := Evo true d₀ z) ?_ (fun e1 => ?_); (on_goal 2 => clear_value z); (on_goal 1 => (unfold z; try clear z)))
    | (extract_lets +onlyGivenNames z; refine Evo.cut (p := Evo true d₀ z.1) ?_ (fun e1 => ?_); (on_goal 2 => clear_value z); (on_goal 1 => (unfold z; try clear z)))
    | extract_lets +onlyGivenNames z
    | with_reducible apply Dev.markRaise_evo
    | with_reducible apply Dev.occur_evo
    | with_reducible apply Evo.forL
    | with_reducible apply Evo.forN
    | (intro _; intros)
    | split

theorem Dev.raise_evo {d₀ : Dev} {s : Dev} {r : Raise} (ev : Evo true d₀ s) :
    Evo true d₀ (Dev.raise s r) := by
  unfold Dev.raise
  repeat' first
    | with_reducible assumption
    | with_reducible apply Dev.raises_evo

theorem Dev.setLive_evo {m₀ : Bool} {d₀ : Dev} {s : Dev} {f : Nat} {b : Bool} (ev : Evo m₀ d₀ s) :
    Evo m₀ d₀ (Dev.setLive s f b) := by
  unfold Dev.setLive
  repeat' first
    | with_reducible assumption
    | with_reducible apply Dev.setFld_evo

theorem Dev.condOn_evo {d₀ : Dev} {s : Dev} {r : Raise} (ev : Evo true d₀ s) :
    Evo true d₀ (Dev.condOn s r) := by
  unfold Dev.condOn
  repeat' first
    | with_reducible assumption
    | with_reducible apply Dev.setLive_evo
    | with_reducible apply Dev.raise_evo
    | split

theorem Dev.ackSrc_evo {m₀ : Bool} {d₀ : Dev} {s : Dev} {f : Nat} (ev : Evo m₀ d₀ s) :
    Evo m₀ d₀ (Dev.ackSrc s f) := by
  unfold Dev.ackSrc
  repeat' first
    | with_reducible assumption
    | with_reducible apply Dev.setBits_evo
    | with_reducible apply Dev.clrBits_evo
    | split


end Sys2Proof.Machine
end

