-- ==== Sys2Proof/Laws/Ev/Flags.lean ====
section
/-! SUPPORT. What the operations of Machine/Flags.lean can do to the whole device. -/

namespace Sys2Proof.Machine

theorem Dev.putFlags_evo {m₀ : Bool} {d₀ : Dev} {s : Dev} {e : Nat} {f : FlagSet} (ev : Evo m₀ d₀ s) :
    Evo m₀ d₀ (Dev.putFlags s e f) := by
  unfold Dev.putFlags
  repeat' first
    | with_reducible assumption
    | with_reducible apply Dev.wr_evo


end Sys2Proof.Machine
end

