-- ==== Sys2Proof/Laws/Ev/Operands.lean ====
section
/-! SUPPORT. What the operations of Machine/Operands.lean can do to the whole device. -/

namespace Sys2Proof.Machine

theorem Dev.setPg_evo {m₀ : Bool} {d₀ : Dev} {s : Dev} {e : Nat} {v : Nat} (ev : Evo m₀ d₀ s) :
    Evo m₀ d₀ (Dev.setPg s e v) := by
  unfold Dev.setPg
  repeat' first
    | with_reducible assumption
    | (extract_lets +onlyGivenNames z; refine Evo.cut (p := Evo m₀ d₀ z) ?_ (fun e1 => ?_); (on_goal 2 => clear_value z); (on_goal 1 => (unfold z; try clear z)))
    | (extract_lets +onlyGivenNames z; refine Evo.cut (p := Evo m₀ d₀ z.1) ?_ (fun e1 => ?_); (on_goal 2 => clear_value z); (on_goal 1 => (unfold z; try clear z)))
    | extract_lets +onlyGivenNames z
    | with_reducible apply Dev.setFld_evo
    | (with_reducible refine Evo.upd (by with_reducible assumption) ?_ ?_ ?_ ?_ ?_ ?_ ?_ ?_ ?_ ?_ <;> rfl)
    | split
    | clear_value *

theorem Dev.setReg_evo {m₀ : Bool} {d₀ : Dev} {s : Dev} {e : Nat} {n : Nat} {v : W} (ev : Evo m₀ d₀ s) :
    Evo m₀ d₀ (Dev.setReg s e n v) := by
  unfold Dev.setReg
  repeat' first
    | with_reducible assumption
    | with_reducible apply Dev.wr_evo
    | with_reducible apply Dev.setPg_evo
    | split


end Sys2Proof.Machine
end

