-- ==== Sys2Proof/Laws/Ev/Engine.lean ====
section
/-! SUPPORT. What the operations of Machine/Engine.lean can do to the whole device. -/

namespace Sys2Proof.Machine

theorem Dev.trap_evo {d₀ : Dev} {s : Dev} {e : Nat} {f : Nat} (ev : Evo true d₀ s) :
    Evo true d₀ (Dev.trap s e f) := by
  unfold Dev.trap
  repeat' first
    | with_reducible assumption
    | (extract_lets +onlyGivenNames z; refine Evo.cut (p := Evo true d₀ z) ?_ (fun e1 => ?_); (on_goal 2 => clear_value z); (on_goal 1 => (unfold z; try clear z)))
    | (extract_lets +onlyGivenNames z; refine Evo.cut (p := Evo true d₀ z.1) ?_ (fun e1 => ?_); (on_goal 2 => clear_value z); (on_goal 1 => (unfold z; try clear z)))
    | extract_lets +onlyGivenNames z
    | with_reducible apply Dev.raise_evo
    | with_reducible apply Dev.onEng_evo
    | (intro _; intros)
    | split

theorem Dev.jumpTo_evo {m₀ : Bool} {d₀ : Dev} {s : Dev} {e : Nat} {t : Nat} (ev : Evo m₀ d₀ s) :
    Evo m₀ d₀ (Dev.jumpTo s e t) := by
  unfold Dev.jumpTo
  repeat' first
    | with_reducible assumption
    | with_reducible apply Dev.onEng_evo
    | with_reducible apply Dev.setPc_evo

theorem Dev.retire_evo {d₀ : Dev} {s : Dev} {e : Nat} (ev : Evo true d₀ s) :
    Evo true d₀ (Dev.retire s e) := by
  unfold Dev.retire
  repeat' first
    | with_reducible assumption
    | (extract_lets +onlyGivenNames z; refine Evo.cut (p := Evo true d₀ z) ?_ (fun e1 => ?_); (on_goal 2 => clear_value z); (on_goal 1 => (unfold z; try clear z)))
    | (extract_lets +onlyGivenNames z; refine Evo.cut (p := Evo true d₀ z.1) ?_ (fun e1 => ?_); (on_goal 2 => clear_value z); (on_goal 1 => (unfold z; try clear z)))
    | extract_lets +onlyGivenNames z
    | with_reducible apply Dev.jumpTo_evo
    | with_reducible apply Dev.trap_evo
    | split

theorem Dev.yieldFor_evo {m₀ : Bool} {d₀ : Dev} {s : Dev} {e : Nat} {n : Nat} (ev : Evo m₀ d₀ s) :
    Evo m₀ d₀ (Dev.yieldFor s e n) := by
  unfold Dev.yieldFor
  repeat' first
    | with_reducible assumption
    | with_reducible apply Dev.onEng_evo
    | (intro _; intros)
    | (with_reducible refine Evo.upd (by with_reducible assumption) ?_ ?_ ?_ ?_ ?_ ?_ ?_ ?_ ?_ ?_ <;> rfl)

theorem Dev.stageOp_evo {m₀ : Bool} {d₀ : Dev} {s : Dev} {e : Nat} {op : EngOp} (ev : Evo m₀ d₀ s) :
    Evo m₀ d₀ (Dev.stageOp s e op) := by
  unfold Dev.stageOp
  repeat' first
    | with_reducible assumption
    | (extract_lets +onlyGivenNames z; refine Evo.cut (p := Evo m₀ d₀ z) ?_ (fun e1 => ?_); (on_goal 2 => clear_value z); (on_goal 1 => (unfold z; try clear z)))
    | (extract_lets +onlyGivenNames z; refine Evo.cut (p := Evo m₀ d₀ z.1) ?_ (fun e1 => ?_); (on_goal 2 => clear_value z); (on_goal 1 => (unfold z; try clear z)))
    | extract_lets +onlyGivenNames z
    | with_reducible apply Dev.onEng_evo
    | (intro _; intros)
    | (with_reducible refine Evo.upd (by with_reducible assumption) ?_ ?_ ?_ ?_ ?_ ?_ ?_ ?_ ?_ ?_ <;> rfl)

theorem Dev.endStep_evo {m₀ : Bool} {d₀ : Dev} {s : Dev} {e : Nat} {i : Nat} (ev : Evo m₀ d₀ s) :
    Evo m₀ d₀ (Dev.endStep s e i) := by
  unfold Dev.endStep
  repeat' first
    | with_reducible assumption
    | (extract_lets +onlyGivenNames z; refine Evo.cut (p := Evo m₀ d₀ z) ?_ (fun e1 => ?_); (on_goal 2 => clear_value z); (on_goal 1 => (unfold z; try clear z)))
    | (extract_lets +onlyGivenNames z; refine Evo.cut (p := Evo m₀ d₀ z.1) ?_ (fun e1 => ?_); (on_goal 2 => clear_value z); (on_goal 1 => (unfold z; try clear z)))
    | extract_lets +onlyGivenNames z
    | with_reducible apply Dev.setSite_evo
    | with_reducible apply Dev.setFlag_evo
    | (with_reducible refine Evo.upd (by with_reducible assumption) ?_ ?_ ?_ ?_ ?_ ?_ ?_ ?_ ?_ ?_ <;> rfl)
    | split
    | clear_value *

theorem Dev.openStep_evo {m₀ : Bool} {d₀ : Dev} {s : Dev} {i : Nat} {id : Nat} (ev : Evo m₀ d₀ s) :
    Evo m₀ d₀ (Dev.openStep s i id) := by
  unfold Dev.openStep
  repeat' first
    | with_reducible assumption
    | with_reducible apply Dev.onSite_evo
    | (intro _; intros)
    | (with_reducible refine Evo.upd (by with_reducible assumption) ?_ ?_ ?_ ?_ ?_ ?_ ?_ ?_ ?_ ?_ <;> rfl)

theorem Dev.satBit_evo {m₀ : Bool} {d₀ : Dev} {s : Dev} {i : Nat} {p : Step} (ev : Evo m₀ d₀ s) :
    Evo m₀ d₀ (Dev.satBit s i p) := by
  unfold Dev.satBit
  repeat' first
    | with_reducible assumption
    | with_reducible apply Dev.setBits_evo
    | split

theorem Dev.slotBusy_evo {m₀ : Bool} {d₀ : Dev} {s : Dev} {i : Nat} {m : Nat} (ev : Evo m₀ d₀ s) :
    Evo m₀ d₀ (Dev.slotBusy s i m) := by
  unfold Dev.slotBusy
  repeat' first
    | with_reducible assumption
    | with_reducible apply Dev.onSite_evo
    | (intro _; intros)
    | (with_reducible refine Evo.upd (by with_reducible assumption) ?_ ?_ ?_ ?_ ?_ ?_ ?_ ?_ ?_ ?_ <;> rfl)


end Sys2Proof.Machine
end

