-- ==== Sys2Proof/Laws/Ev/Route.lean ====
section
/-! SUPPORT. What the operations of Machine/Route.lean can do to the whole device. -/

namespace Sys2Proof.Machine

theorem Dev.countLine_evo {m₀ : Bool} {d₀ : Dev} {s : Dev} {l : Line} {passed : Bool} (ev : Evo m₀ d₀ s) :
    Evo m₀ d₀ (Dev.countLine s l passed) := by
  unfold Dev.countLine
  repeat' first
    | with_reducible assumption
    | with_reducible apply Dev.incSat_evo
    | (with_reducible refine Evo.upd (by with_reducible assumption) ?_ ?_ ?_ ?_ ?_ ?_ ?_ ?_ ?_ ?_ <;> rfl)
    | split
    | clear_value *

theorem Dev.fireLine_evo {m₀ : Bool} {d₀ : Dev} {s : Dev} {l : Line} {edge : Nat} {tag : Nat} {b : Block} {tb : Option Nat} (ev : Evo m₀ d₀ s) :
    Evo m₀ d₀ (Dev.fireLine s l edge tag b tb) := by
  unfold Dev.fireLine
  repeat' first
    | with_reducible assumption
    | (extract_lets +onlyGivenNames z; refine Evo.cut (p := Evo m₀ d₀ z) ?_ (fun e1 => ?_); (on_goal 2 => clear_value z); (on_goal 1 => (unfold z; try clear z)))
    | (extract_lets +onlyGivenNames z; refine Evo.cut (p := Evo m₀ d₀ z.1) ?_ (fun e1 => ?_); (on_goal 2 => clear_value z); (on_goal 1 => (unfold z; try clear z)))
    | extract_lets +onlyGivenNames z
    | with_reducible apply Dev.countLine_evo
    | (intro _; intros)
    | (with_reducible refine Evo.upd (by with_reducible assumption) ?_ ?_ ?_ ?_ ?_ ?_ ?_ ?_ ?_ ?_ <;> rfl)
    | split

theorem Dev.produce_evo {m₀ : Bool} {d₀ : Dev} {s : Dev} {p : Prod} {edge : Nat} {tag : Nat} {b : Block} {tb : Option Nat} (ev : Evo m₀ d₀ s) :
    Evo m₀ d₀ (Dev.produce s p edge tag b tb) := by
  unfold Dev.produce
  repeat' first
    | with_reducible assumption
    | with_reducible apply Dev.fireLine_evo
    | with_reducible apply Evo.forL
    | (intro _; intros)

theorem Dev.capture_evo {m₀ : Bool} {d₀ : Dev} {s : Dev} {c : Coming} (ev : Evo m₀ d₀ s) :
    Evo m₀ d₀ (Dev.capture s c) := by
  unfold Dev.capture
  repeat' first
    | with_reducible assumption
    | with_reducible apply Dev.produce_evo
    | with_reducible apply Dev.fireLine_evo
    | (with_reducible refine Evo.upd (by with_reducible assumption) ?_ ?_ ?_ ?_ ?_ ?_ ?_ ?_ ?_ ?_ <;> rfl)
    | split
    | clear_value *

theorem Dev.fireAhead_evo {m₀ : Bool} {d₀ : Dev} {s : Dev} {c : Coming} (ev : Evo m₀ d₀ s) :
    Evo m₀ d₀ (Dev.fireAhead s c) := by
  unfold Dev.fireAhead
  repeat' first
    | with_reducible assumption
    | (with_reducible refine Evo.upd (by with_reducible assumption) ?_ ?_ ?_ ?_ ?_ ?_ ?_ ?_ ?_ ?_ <;> rfl)

theorem Dev.capturesTo_evo {m₀ : Bool} {d₀ : Dev} {s : Dev} {x : Nat} (ev : Evo m₀ d₀ s) :
    Evo m₀ d₀ (Dev.capturesTo s x) := by
  unfold Dev.capturesTo
  repeat' first
    | with_reducible assumption
    | (extract_lets +onlyGivenNames z; refine Evo.cut (p := Evo m₀ d₀ z) ?_ (fun e1 => ?_); (on_goal 2 => clear_value z); (on_goal 1 => (unfold z; try clear z)))
    | (extract_lets +onlyGivenNames z; refine Evo.cut (p := Evo m₀ d₀ z.1) ?_ (fun e1 => ?_); (on_goal 2 => clear_value z); (on_goal 1 => (unfold z; try clear z)))
    | extract_lets +onlyGivenNames z
    | with_reducible apply Dev.capture_evo
    | with_reducible apply Evo.forL
    | (intro _; intros)
    | (with_reducible refine Evo.upd (by with_reducible assumption) ?_ ?_ ?_ ?_ ?_ ?_ ?_ ?_ ?_ ?_ <;> rfl)

theorem Dev.routeStore_evo {m₀ : Bool} {d₀ : Dev} {s : Dev} {a : Nat} {v : W} (ev : Evo m₀ d₀ s) :
    Evo m₀ d₀ (Dev.routeStore s a v) := by
  unfold Dev.routeStore
  repeat' first
    | with_reducible assumption
    | (extract_lets +onlyGivenNames z; refine Evo.cut (p := Evo m₀ d₀ z) ?_ (fun e1 => ?_); (on_goal 2 => clear_value z); (on_goal 1 => (unfold z; try clear z)))
    | (extract_lets +onlyGivenNames z; refine Evo.cut (p := Evo m₀ d₀ z.1) ?_ (fun e1 => ?_); (on_goal 2 => clear_value z); (on_goal 1 => (unfold z; try clear z)))
    | extract_lets +onlyGivenNames z
    | with_reducible apply Dev.wr_evo
    | with_reducible apply Dev.setBits_evo
    | (with_reducible refine Evo.upd (by with_reducible assumption) ?_ ?_ ?_ ?_ ?_ ?_ ?_ ?_ ?_ ?_ <;> rfl)
    | split
    | clear_value *

theorem Dev.routeCount_evo {m₀ : Bool} {d₀ : Dev} {s : Dev} (ev : Evo m₀ d₀ s) :
    Evo m₀ d₀ (Dev.routeCount s) := by
  unfold Dev.routeCount
  repeat' first
    | with_reducible assumption
    | (extract_lets +onlyGivenNames z; refine Evo.cut (p := Evo m₀ d₀ z) ?_ (fun e1 => ?_); (on_goal 2 => clear_value z); (on_goal 1 => (unfold z; try clear z)))
    | (extract_lets +onlyGivenNames z; refine Evo.cut (p := Evo m₀ d₀ z.1) ?_ (fun e1 => ?_); (on_goal 2 => clear_value z); (on_goal 1 => (unfold z; try clear z)))
    | extract_lets +onlyGivenNames z
    | with_reducible apply Dev.incSat_evo
    | with_reducible apply Dev.setBits_evo
    | (with_reducible refine Evo.upd (by with_reducible assumption) ?_ ?_ ?_ ?_ ?_ ?_ ?_ ?_ ?_ ?_ <;> rfl)
    | split

theorem Dev.routeMark_evo {m₀ : Bool} {d₀ : Dev} {s : Dev} {l : List Wrote} {a : Nat} {x : Nat} {rank : Nat} (ev : Evo m₀ d₀ s) :
    Evo m₀ d₀ (Dev.routeMark s l a x rank) := by
  unfold Dev.routeMark
  repeat' first
    | with_reducible assumption
    | (with_reducible refine Evo.upd (by with_reducible assumption) ?_ ?_ ?_ ?_ ?_ ?_ ?_ ?_ ?_ ?_ <;> rfl)

theorem Dev.routeWriteAt_evo {m₀ : Bool} {d₀ : Dev} {s : Dev} {a : Nat} {v : W} {x : Nat} {rank : Nat} (ev : Evo m₀ d₀ s) :
    Evo m₀ d₀ (Dev.routeWriteAt s a v x rank) := by
  unfold Dev.routeWriteAt
  repeat' first
    | with_reducible assumption
    | (extract_lets +onlyGivenNames z; refine Evo.cut (p := Evo m₀ d₀ z) ?_ (fun e1 => ?_); (on_goal 2 => clear_value z); (on_goal 1 => (unfold z; try clear z)))
    | (extract_lets +onlyGivenNames z; refine Evo.cut (p := Evo m₀ d₀ z.1) ?_ (fun e1 => ?_); (on_goal 2 => clear_value z); (on_goal 1 => (unfold z; try clear z)))
    | extract_lets +onlyGivenNames z
    | with_reducible apply Dev.capturesTo_evo
    | with_reducible apply Dev.routeMark_evo
    | with_reducible apply Dev.routeStore_evo
    | with_reducible apply Dev.routeCount_evo
    | (intro _; intros)
    | (with_reducible refine Evo.upd (by with_reducible assumption) ?_ ?_ ?_ ?_ ?_ ?_ ?_ ?_ ?_ ?_ <;> rfl)
    | split
    | clear_value *

theorem Dev.routeWrite_evo {m₀ : Bool} {d₀ : Dev} {s : Dev} {a : Nat} {v : W} (ev : Evo m₀ d₀ s) :
    Evo m₀ d₀ (Dev.routeWrite s a v) := by
  unfold Dev.routeWrite
  repeat' first
    | with_reducible assumption
    | with_reducible apply Dev.capturesTo_evo
    | with_reducible apply Dev.routeStore_evo
    | with_reducible apply Dev.routeCount_evo


end Sys2Proof.Machine
end

