-- ==== Sys2Proof/Laws/Ev/Results.lean ====
section
/-! SUPPORT. What the operations of Machine/Results.lean can do to the whole device. -/

namespace Sys2Proof.Machine

theorem Dev.failStep_evo {m₀ : Bool} {d₀ : Dev} {s : Dev} {i : Nat} (ev : Evo m₀ d₀ s) :
    Evo m₀ d₀ (Dev.failStep s i) := by
  unfold Dev.failStep
  repeat' first
    | with_reducible assumption
    | with_reducible apply Dev.onSite_evo
    | (intro _; intros)
    | (with_reducible refine Evo.upd (by with_reducible assumption) ?_ ?_ ?_ ?_ ?_ ?_ ?_ ?_ ?_ ?_ <;> rfl)

theorem Dev.stepFail_evo {m₀ : Bool} {d₀ : Dev} {s : Dev} {i : Nat} (ev : Evo m₀ d₀ s) :
    Evo m₀ d₀ (Dev.stepFail s i) := by
  unfold Dev.stepFail
  repeat' first
    | with_reducible assumption
    | with_reducible apply Dev.onSite_evo
    | with_reducible apply Dev.satBit_evo
    | (intro _; intros)
    | (with_reducible refine Evo.upd (by with_reducible assumption) ?_ ?_ ?_ ?_ ?_ ?_ ?_ ?_ ?_ ?_ <;> rfl)
    | split
    | clear_value *

theorem Dev.setOcc_evo {m₀ : Bool} {d₀ : Dev} {s : Dev} {k : Nat} {n : Nat} (ev : Evo m₀ d₀ s) :
    Evo m₀ d₀ (Dev.setOcc s k n) := by
  unfold Dev.setOcc
  repeat' first
    | with_reducible assumption
    | (intro _; intros)
    | (with_reducible refine Evo.upd (by with_reducible assumption) ?_ ?_ ?_ ?_ ?_ ?_ ?_ ?_ ?_ ?_ <;> rfl)

theorem Dev.incWord_evo {m₀ : Bool} {d₀ : Dev} {s : Dev} {a : Nat} (ev : Evo m₀ d₀ s) :
    Evo m₀ d₀ (Dev.incWord s a) := by
  unfold Dev.incWord
  repeat' first
    | with_reducible assumption
    | with_reducible apply Dev.wr_evo
    | split

theorem Dev.offer_evo {m₀ : Bool} {d₀ : Dev} {s : Dev} {k : Nat} {p : Step} {c : Cand} (ev : Evo m₀ d₀ s) :
    Evo m₀ d₀ (Dev.offer s k p c).1 := by
  unfold Dev.offer
  repeat' first
    | with_reducible assumption
    | (extract_lets +onlyGivenNames z; refine Evo.cut (p := Evo m₀ d₀ z) ?_ (fun e1 => ?_); (on_goal 2 => clear_value z); (on_goal 1 => (unfold z; try clear z)))
    | (extract_lets +onlyGivenNames z; refine Evo.cut (p := Evo m₀ d₀ z.1) ?_ (fun e1 => ?_); (on_goal 2 => clear_value z); (on_goal 1 => (unfold z; try clear z)))
    | extract_lets +onlyGivenNames z
    | with_reducible apply Dev.setOcc_evo
    | with_reducible apply Dev.incWord_evo
    | (with_reducible refine Evo.upd (by with_reducible assumption) ?_ ?_ ?_ ?_ ?_ ?_ ?_ ?_ ?_ ?_ <;> rfl)
    | split
    | dsimp only

theorem Dev.offers_evo {m₀ : Bool} {d₀ : Dev} {s : Dev} {k : Nat} {p : Step} {l : List Cand} (ev : Evo m₀ d₀ s) :
    Evo m₀ d₀ (Dev.offers s k p l).1 := by
  unfold Dev.offers
  repeat' first
    | with_reducible assumption
    | with_reducible apply Dev.offer_evo
    | with_reducible apply Evo.foldl_fst
    | with_reducible apply Evo.foldl
    | (intro _; intros)
    | dsimp only

theorem Dev.offerLogs_evo {m₀ : Bool} {d₀ : Dev} {s : Dev} {i : Nat} {p : Step} (ev : Evo m₀ d₀ s) :
    Evo m₀ d₀ (Dev.offerLogs s i p).1 := by
  unfold Dev.offerLogs
  repeat' first
    | with_reducible assumption
    | (extract_lets +onlyGivenNames z; refine Evo.cut (p := Evo m₀ d₀ z) ?_ (fun e1 => ?_); (on_goal 2 => clear_value z); (on_goal 1 => (unfold z; try clear z)))
    | (extract_lets +onlyGivenNames z; refine Evo.cut (p := Evo m₀ d₀ z.1) ?_ (fun e1 => ?_); (on_goal 2 => clear_value z); (on_goal 1 => (unfold z; try clear z)))
    | extract_lets +onlyGivenNames z
    | with_reducible apply Dev.offers_evo
    | (with_reducible refine Evo.upd (by with_reducible assumption) ?_ ?_ ?_ ?_ ?_ ?_ ?_ ?_ ?_ ?_ <;> rfl)
    | dsimp only

theorem Dev.offerOne_evo {m₀ : Bool} {d₀ : Dev} {o : Offer} {s : Dev} (ev : Evo m₀ d₀ s) :
    Evo m₀ d₀ (Dev.offerOne o s) := by
  unfold Dev.offerOne
  repeat' first
    | with_reducible assumption
    | (extract_lets +onlyGivenNames z; refine Evo.cut (p := Evo m₀ d₀ z) ?_ (fun e1 => ?_); (on_goal 2 => clear_value z); (on_goal 1 => (unfold z; try clear z)))
    | (extract_lets +onlyGivenNames z; refine Evo.cut (p := Evo m₀ d₀ z.1) ?_ (fun e1 => ?_); (on_goal 2 => clear_value z); (on_goal 1 => (unfold z; try clear z)))
    | extract_lets +onlyGivenNames z
    | with_reducible apply Dev.offer_evo
    | with_reducible apply Dev.onSite_evo
    | (intro _; intros)
    | (with_reducible refine Evo.upd (by with_reducible assumption) ?_ ?_ ?_ ?_ ?_ ?_ ?_ ?_ ?_ ?_ <;> rfl)
    | split
    | clear_value *

theorem Dev.flushOffers_evo {m₀ : Bool} {d₀ : Dev} {s : Dev} (ev : Evo m₀ d₀ s) :
    Evo m₀ d₀ (Dev.flushOffers s) := by
  unfold Dev.flushOffers
  repeat' first
    | with_reducible assumption
    | with_reducible apply Dev.offers_evo
    | with_reducible apply Dev.offerOne_evo
    | with_reducible apply Evo.forL
    | (intro _; intros)
    | (with_reducible refine Evo.upd (by with_reducible assumption) ?_ ?_ ?_ ?_ ?_ ?_ ?_ ?_ ?_ ?_ <;> rfl)
    | split
    | clear_value *

theorem Dev.holdOffer_evo {m₀ : Bool} {d₀ : Dev} {s : Dev} {sclk : Nat} {o : Offer} (ev : Evo m₀ d₀ s) :
    Evo m₀ d₀ (Dev.holdOffer s sclk o) := by
  unfold Dev.holdOffer
  repeat' first
    | with_reducible assumption
    | with_reducible apply Dev.offers_evo
    | (with_reducible refine Evo.upd (by with_reducible assumption) ?_ ?_ ?_ ?_ ?_ ?_ ?_ ?_ ?_ ?_ <;> rfl)

theorem Dev.offerSite_evo {m₀ : Bool} {d₀ : Dev} {r : Dev × List Closing} {i : Nat} (ev : Evo m₀ d₀ r.1) :
    Evo m₀ d₀ (Dev.offerSite r i).1 := by
  unfold Dev.offerSite
  repeat' first
    | with_reducible assumption
    | (extract_lets +onlyGivenNames z; refine Evo.cut (p := Evo m₀ d₀ z) ?_ (fun e1 => ?_); (on_goal 2 => clear_value z); (on_goal 1 => (unfold z; try clear z)))
    | (extract_lets +onlyGivenNames z; refine Evo.cut (p := Evo m₀ d₀ z.1) ?_ (fun e1 => ?_); (on_goal 2 => clear_value z); (on_goal 1 => (unfold z; try clear z)))
    | extract_lets +onlyGivenNames z
    | with_reducible apply Dev.offerLogs_evo
    | with_reducible apply Dev.onSite_evo
    | with_reducible apply Evo.foldl_fst
    | with_reducible apply Evo.foldl
    | (intro _; intros)
    | (with_reducible refine Evo.upd (by with_reducible assumption) ?_ ?_ ?_ ?_ ?_ ?_ ?_ ?_ ?_ ?_ <;> rfl)
    | split
    | dsimp only
    | clear_value *

theorem Dev.offerFrame_evo {m₀ : Bool} {d₀ s : Dev} (ev : Evo m₀ d₀ s) : Evo m₀ d₀ s.offerFrame := by
  unfold Dev.offerFrame
  extract_lets r
  have e1 : Evo m₀ d₀ r.1 := Evo.foldl_fst ev (fun _ _ h => Dev.offerSite_evo h)
  clear_value r
  exact Evo.upd e1 rfl rfl rfl rfl rfl rfl rfl rfl rfl rfl

theorem Dev.setWords_evo {m₀ : Bool} {d₀ s : Dev} {a : Nat} {l : List W} (ev : Evo m₀ d₀ s) : Evo m₀ d₀ (s.setWords a l) := by
  induction l generalizing s a with
  | nil => exact ev
  | cons b r ih => exact ih (Dev.setWord_evo ev)

theorem Dev.numberEntry_evo {m₀ : Bool} {d₀ : Dev} {s : Dev} {i : Nat} {id : Nat} {c : Cand} (ev : Evo m₀ d₀ s) :
    Evo m₀ d₀ (Dev.numberEntry s i id c) := by
  unfold Dev.numberEntry
  repeat' first
    | with_reducible assumption
    | (extract_lets +onlyGivenNames z; refine Evo.cut (p := Evo m₀ d₀ z) ?_ (fun e1 => ?_); (on_goal 2 => clear_value z); (on_goal 1 => (unfold z; try clear z)))
    | (extract_lets +onlyGivenNames z; refine Evo.cut (p := Evo m₀ d₀ z.1) ?_ (fun e1 => ?_); (on_goal 2 => clear_value z); (on_goal 1 => (unfold z; try clear z)))
    | extract_lets +onlyGivenNames z
    | with_reducible apply Dev.wr_evo
    | (with_reducible refine Evo.upd (by with_reducible assumption) ?_ ?_ ?_ ?_ ?_ ?_ ?_ ?_ ?_ ?_ <;> rfl)

theorem Dev.ringPut_evo {m₀ : Bool} {d₀ : Dev} {x : Nat × List W} {s : Dev} (ev : Evo m₀ d₀ s) :
    Evo m₀ d₀ (Dev.ringPut x s) := by
  unfold Dev.ringPut
  repeat' first
    | with_reducible assumption
    | (extract_lets +onlyGivenNames z; refine Evo.cut (p := Evo m₀ d₀ z) ?_ (fun e1 => ?_); (on_goal 2 => clear_value z); (on_goal 1 => (unfold z; try clear z)))
    | (extract_lets +onlyGivenNames z; refine Evo.cut (p := Evo m₀ d₀ z.1) ?_ (fun e1 => ?_); (on_goal 2 => clear_value z); (on_goal 1 => (unfold z; try clear z)))
    | extract_lets +onlyGivenNames z
    | with_reducible apply Dev.setWords_evo
    | with_reducible apply Dev.wr_evo
    | with_reducible apply Dev.setBits_evo
    | split

theorem Dev.hwmCheck_evo {m₀ : Bool} {d₀ : Dev} {s : Dev} (ev : Evo m₀ d₀ s) :
    Evo m₀ d₀ (Dev.hwmCheck s) := by
  unfold Dev.hwmCheck
  repeat' first
    | with_reducible assumption
    | (extract_lets +onlyGivenNames z; refine Evo.cut (p := Evo m₀ d₀ z) ?_ (fun e1 => ?_); (on_goal 2 => clear_value z); (on_goal 1 => (unfold z; try clear z)))
    | (extract_lets +onlyGivenNames z; refine Evo.cut (p := Evo m₀ d₀ z.1) ?_ (fun e1 => ?_); (on_goal 2 => clear_value z); (on_goal 1 => (unfold z; try clear z)))
    | extract_lets +onlyGivenNames z
    | with_reducible apply Dev.notify_evo
    | (with_reducible refine Evo.upd (by with_reducible assumption) ?_ ?_ ?_ ?_ ?_ ?_ ?_ ?_ ?_ ?_ <;> rfl)
    | split

theorem Dev.ringRun_evo {m₀ : Bool} {d₀ : Dev} {s : Dev} (ev : Evo m₀ d₀ s) :
    Evo m₀ d₀ (Dev.ringRun s) := by
  unfold Dev.ringRun
  repeat' first
    | with_reducible assumption
    | (extract_lets +onlyGivenNames z; refine Evo.cut (p := Evo m₀ d₀ z) ?_ (fun e1 => ?_); (on_goal 2 => clear_value z); (on_goal 1 => (unfold z; try clear z)))
    | (extract_lets +onlyGivenNames z; refine Evo.cut (p := Evo m₀ d₀ z.1) ?_ (fun e1 => ?_); (on_goal 2 => clear_value z); (on_goal 1 => (unfold z; try clear z)))
    | extract_lets +onlyGivenNames z
    | with_reducible apply Dev.ringPut_evo
    | with_reducible apply Dev.hwmCheck_evo
    | with_reducible apply Evo.forL
    | (intro _; intros)
    | (with_reducible refine Evo.upd (by with_reducible assumption) ?_ ?_ ?_ ?_ ?_ ?_ ?_ ?_ ?_ ?_ <;> rfl)

theorem Dev.numberDue_evo {m₀ : Bool} {d₀ : Dev} {s : Dev} (ev : Evo m₀ d₀ s) :
    Evo m₀ d₀ (Dev.numberDue s) := by
  unfold Dev.numberDue
  repeat' first
    | with_reducible assumption
    | (extract_lets +onlyGivenNames z; refine Evo.cut (p := Evo m₀ d₀ z) ?_ (fun e1 => ?_); (on_goal 2 => clear_value z); (on_goal 1 => (unfold z; try clear z)))
    | (extract_lets +onlyGivenNames z; refine Evo.cut (p := Evo m₀ d₀ z.1) ?_ (fun e1 => ?_); (on_goal 2 => clear_value z); (on_goal 1 => (unfold z; try clear z)))
    | extract_lets +onlyGivenNames z
    | with_reducible apply Dev.numberEntry_evo
    | with_reducible apply Dev.ringRun_evo
    | with_reducible apply Evo.forL
    | (intro _; intros)
    | (with_reducible refine Evo.upd (by with_reducible assumption) ?_ ?_ ?_ ?_ ?_ ?_ ?_ ?_ ?_ ?_ <;> rfl)

theorem Dev.patchImage_evo {m₀ : Bool} {d₀ : Dev} {s : Dev} {l : List Closing} (ev : Evo m₀ d₀ s) :
    Evo m₀ d₀ (Dev.patchImage s l) := by
  unfold Dev.patchImage
  repeat' first
    | with_reducible assumption
    | (extract_lets +onlyGivenNames z; refine Evo.cut (p := Evo m₀ d₀ z) ?_ (fun e1 => ?_); (on_goal 2 => clear_value z); (on_goal 1 => (unfold z; try clear z)))
    | (extract_lets +onlyGivenNames z; refine Evo.cut (p := Evo m₀ d₀ z.1) ?_ (fun e1 => ?_); (on_goal 2 => clear_value z); (on_goal 1 => (unfold z; try clear z)))
    | extract_lets +onlyGivenNames z
    | with_reducible apply Evo.foldl_fst
    | with_reducible apply Evo.foldl
    | (intro _; intros)
    | (with_reducible refine Evo.upd (by with_reducible assumption) ?_ ?_ ?_ ?_ ?_ ?_ ?_ ?_ ?_ ?_ <;> rfl)
    | split

theorem Dev.settleFrame_evo {m₀ : Bool} {d₀ : Dev} {s : Dev} (ev : Evo m₀ d₀ s) :
    Evo m₀ d₀ (Dev.settleFrame s) := by
  unfold Dev.settleFrame
  repeat' first
    | with_reducible assumption
    | (extract_lets +onlyGivenNames z; refine Evo.cut (p := Evo m₀ d₀ z) ?_ (fun e1 => ?_); (on_goal 2 => clear_value z); (on_goal 1 => (unfold z; try clear z)))
    | (extract_lets +onlyGivenNames z; refine Evo.cut (p := Evo m₀ d₀ z.1) ?_ (fun e1 => ?_); (on_goal 2 => clear_value z); (on_goal 1 => (unfold z; try clear z)))
    | extract_lets +onlyGivenNames z
    | with_reducible apply Dev.offerFrame_evo
    | with_reducible apply Dev.onSite_evo
    | with_reducible apply Dev.numberDue_evo
    | with_reducible apply Dev.patchImage_evo
    | with_reducible apply Evo.forL
    | (intro _; intros)
    | (with_reducible refine Evo.upd (by with_reducible assumption) ?_ ?_ ?_ ?_ ?_ ?_ ?_ ?_ ?_ ?_ <;> rfl)
    | split

theorem Dev.settleLogs_evo {m₀ : Bool} {d₀ : Dev} {s : Dev} (ev : Evo m₀ d₀ s) :
    Evo m₀ d₀ (Dev.settleLogs s) := by
  unfold Dev.settleLogs
  repeat' first
    | with_reducible assumption
    | (extract_lets +onlyGivenNames z; refine Evo.cut (p := Evo m₀ d₀ z) ?_ (fun e1 => ?_); (on_goal 2 => clear_value z); (on_goal 1 => (unfold z; try clear z)))
    | (extract_lets +onlyGivenNames z; refine Evo.cut (p := Evo m₀ d₀ z.1) ?_ (fun e1 => ?_); (on_goal 2 => clear_value z); (on_goal 1 => (unfold z; try clear z)))
    | extract_lets +onlyGivenNames z
    | with_reducible apply Dev.flushOffers_evo
    | with_reducible apply Dev.settleFrame_evo
    | split

theorem Dev.stepLog_evo {m₀ : Bool} {d₀ : Dev} {s : Dev} {i : Nat} {c : Cand} (ev : Evo m₀ d₀ s) :
    Evo m₀ d₀ (Dev.stepLog s i c) := by
  unfold Dev.stepLog
  repeat' first
    | with_reducible assumption
    | with_reducible apply Dev.settleLogs_evo
    | with_reducible apply Dev.onSite_evo
    | (intro _; intros)
    | (with_reducible refine Evo.upd (by with_reducible assumption) ?_ ?_ ?_ ?_ ?_ ?_ ?_ ?_ ?_ ?_ <;> rfl)

theorem Dev.setVoidh_evo {m₀ : Bool} {d₀ : Dev} {s : Dev} {e : Nat} {en : Bool} {addr : Nat} (ev : Evo m₀ d₀ s) :
    Evo m₀ d₀ (Dev.setVoidh s e en addr) := by
  unfold Dev.setVoidh
  repeat' first
    | with_reducible assumption
    | (extract_lets +onlyGivenNames z; refine Evo.cut (p := Evo m₀ d₀ z) ?_ (fun e1 => ?_); (on_goal 2 => clear_value z); (on_goal 1 => (unfold z; try clear z)))
    | (extract_lets +onlyGivenNames z; refine Evo.cut (p := Evo m₀ d₀ z.1) ?_ (fun e1 => ?_); (on_goal 2 => clear_value z); (on_goal 1 => (unfold z; try clear z)))
    | extract_lets +onlyGivenNames z
    | with_reducible apply Dev.wr_evo
    | with_reducible apply Dev.setFld_evo
    | (with_reducible refine Evo.upd (by with_reducible assumption) ?_ ?_ ?_ ?_ ?_ ?_ ?_ ?_ ?_ ?_ <;> rfl)
    | split
    | clear_value *

theorem Dev.reqDwell_evo {m₀ : Bool} {d₀ : Dev} {s : Dev} {i : Nat} (ev : Evo m₀ d₀ s) :
    Evo m₀ d₀ (Dev.reqDwell s i) := by
  unfold Dev.reqDwell
  repeat' first
    | with_reducible assumption
    | (extract_lets +onlyGivenNames z; refine Evo.cut (p := Evo m₀ d₀ z) ?_ (fun e1 => ?_); (on_goal 2 => clear_value z); (on_goal 1 => (unfold z; try clear z)))
    | (extract_lets +onlyGivenNames z; refine Evo.cut (p := Evo m₀ d₀ z.1) ?_ (fun e1 => ?_); (on_goal 2 => clear_value z); (on_goal 1 => (unfold z; try clear z)))
    | extract_lets +onlyGivenNames z
    | with_reducible apply Dev.onSite_evo
    | (intro _; intros)
    | (with_reducible refine Evo.upd (by with_reducible assumption) ?_ ?_ ?_ ?_ ?_ ?_ ?_ ?_ ?_ ?_ <;> rfl)

theorem Dev.logUcode2_evo {m₀ : Bool} {d₀ : Dev} {s : Dev} {k : Nat} {addr : Nat} (ev : Evo m₀ d₀ s) :
    Evo m₀ d₀ (Dev.logUcode2 s k addr) := by
  unfold Dev.logUcode2
  repeat' first
    | with_reducible assumption
    | with_reducible apply Dev.nvPut_evo

theorem Dev.ucodeDouble_evo {d₀ : Dev} {s : Dev} {k : Nat} {addr : Nat} (ev : Evo true d₀ s) :
    Evo true d₀ (Dev.ucodeDouble s k addr) := by
  unfold Dev.ucodeDouble
  repeat' first
    | with_reducible assumption
    | with_reducible apply Dev.logUcode2_evo
    | with_reducible apply Dev.raise_evo

theorem Dev.logUcode1_evo {m₀ : Bool} {d₀ : Dev} {s : Dev} {k : Nat} {addr : Nat} (ev : Evo m₀ d₀ s) :
    Evo m₀ d₀ (Dev.logUcode1 s k addr) := by
  unfold Dev.logUcode1
  repeat' first
    | with_reducible assumption
    | (extract_lets +onlyGivenNames z; refine Evo.cut (p := Evo m₀ d₀ z) ?_ (fun e1 => ?_); (on_goal 2 => clear_value z); (on_goal 1 => (unfold z; try clear z)))
    | (extract_lets +onlyGivenNames z; refine Evo.cut (p := Evo m₀ d₀ z.1) ?_ (fun e1 => ?_); (on_goal 2 => clear_value z); (on_goal 1 => (unfold z; try clear z)))
    | extract_lets +onlyGivenNames z
    | with_reducible apply Dev.incSat_evo
    | with_reducible apply Dev.setFld_evo


end Sys2Proof.Machine
end

