-- ==== Sys2Proof/Laws/Ev/Microcode.lean ====
section
/-! SUPPORT. What the operations of Machine/Microcode.lean can do to the whole device. -/

namespace Sys2Proof.Machine

theorem Dev.applySh_evo {m₀ : Bool} {d₀ s : Dev} {e : Nat} {o : ShOp} (ev : Evo m₀ d₀ s) : Evo m₀ d₀ (s.applySh e o) := by
  cases o <;> unfold Dev.applySh <;> dsimp only <;> repeat' first
    | with_reducible assumption
    | with_reducible apply Dev.onEng_evo
    | with_reducible apply Dev.setReg_evo
    | with_reducible apply Dev.setPc_evo
    | with_reducible apply Dev.putFlags_evo
    | with_reducible apply Dev.setFlag_evo
    | with_reducible apply Dev.setVoidh_evo
    | with_reducible apply Dev.setScrWord_evo
    | with_reducible apply Dev.stageOp_evo
    | with_reducible apply Dev.slotBusy_evo
    | with_reducible apply Dev.onSite_evo
    | with_reducible apply Dev.endStep_evo
    | with_reducible apply Dev.openStep_evo
    | with_reducible apply Dev.failStep_evo
    | with_reducible apply Dev.stepFail_evo
    | with_reducible apply Dev.stepLog_evo
    | with_reducible apply Dev.reqDwell_evo
    | (with_reducible refine Evo.upd (by with_reducible assumption) ?_ ?_ ?_ ?_ ?_ ?_ ?_ ?_ ?_ ?_ <;> rfl)
    | split

theorem Mi.view_evo {m₀ : Bool} {d₀ : Dev} {m : Mi} {e : Nat} (ev : Evo m₀ d₀ m.s) :
    Evo m₀ d₀ (Mi.view m e) := by
  unfold Mi.view
  repeat' first
    | with_reducible assumption
    | with_reducible apply Dev.applySh_evo
    | with_reducible apply Evo.forL
    | (intro _; intros)

theorem Mi.shadow_evo {m₀ : Bool} {d₀ : Dev} {m : Mi} {e : Nat} {l : List ShOp} (ev : Evo m₀ d₀ m.s) : Evo m₀ d₀ (m.shadow e l).s := by
  unfold Mi.shadow
  split
  · exact Evo.forL ev (fun _ _ h => Dev.applySh_evo h)
  · exact ev

theorem Mi.freeResp_evo {m₀ : Bool} {d₀ : Dev} {m : Mi} (ev : Evo m₀ d₀ m.s) :
    Evo m₀ d₀ (Mi.freeResp m).s := by
  unfold Mi.freeResp
  repeat' first
    | with_reducible assumption
    | (extract_lets +onlyGivenNames z; refine Evo.cut (p := Evo m₀ d₀ z) ?_ (fun e1 => ?_); (on_goal 2 => clear_value z); (on_goal 1 => (unfold z; try clear z)))
    | (extract_lets +onlyGivenNames z; refine Evo.cut (p := Evo m₀ d₀ z.1) ?_ (fun e1 => ?_); (on_goal 2 => clear_value z); (on_goal 1 => (unfold z; try clear z)))
    | extract_lets +onlyGivenNames z
    | with_reducible apply Dev.draw_evo
    | (with_reducible refine Evo.upd (by with_reducible assumption) ?_ ?_ ?_ ?_ ?_ ?_ ?_ ?_ ?_ ?_ <;> rfl)
    | dsimp only

theorem Mi.reads_evo {m₀ : Bool} {d₀ : Dev} {m : Mi} {e : Nat} {x : Ins} {w : BitVec 160} {imm : Nat} {r : W}
    (ev : Evo m₀ d₀ m.s) : Evo m₀ d₀ (m.reads e x w imm r).s := by
  have free (n : Mi) (p : Prop) [Decidable p] (h : Evo m₀ d₀ n.s) : Evo m₀ d₀ (if p then n.freeResp else n).s := by
    split
    · exact Mi.freeResp_evo h
    · exact h
  have ctx (n : Mi) (p : Prop) [Decidable p] (c : UCtx) (h : Evo m₀ d₀ n.s) : Evo m₀ d₀ (if p then { n with c := c } else n).s := by
    split <;> exact h
  unfold Mi.reads
  extract_lets v i q m1 c1 m3 c3 m5 c5 m7 c7 m9 c9 m11 c11 m13 c13 m15 c15 m17 c17 b m18 m19
  have e1 : Evo m₀ d₀ m1.s := free _ _ ev
  have e3 : Evo m₀ d₀ m3.s := e1
  have e5 : Evo m₀ d₀ m5.s := ctx m3 _ _ e3
  have e7 : Evo m₀ d₀ m7.s := e5
  have e9 : Evo m₀ d₀ m9.s := ctx m7 _ _ e7
  have e11 : Evo m₀ d₀ m11.s := ctx m9 _ _ e9
  have e13 : Evo m₀ d₀ m13.s := ctx m11 _ _ e11
  have e15 : Evo m₀ d₀ m15.s := ctx m13 _ _ e13
  have e17 : Evo m₀ d₀ m17.s := ctx m15 _ _ e15
  have e18 : Evo m₀ d₀ m18.s := e17
  have e19 : Evo m₀ d₀ m19.s := free m18 _ e18
  exact free _ _ e19

theorem Mi.dest_evo {m₀ : Bool} {d₀ : Dev} {m : Mi} {e : Nat} {x : Ins} {d : Nat} {r : W} (ev : Evo m₀ d₀ m.s) :
    Evo m₀ d₀ (m.dest e x d r).s := by
  unfold Mi.dest
  split <;> first | exact ev | exact Mi.shadow_evo ev

theorem Mi.immediate_evo {m₀ : Bool} {d₀ : Dev} {m : Mi} {e : Nat} {w : BitVec 160} {imm : Nat} {r : W} (ev : Evo m₀ d₀ m.s) :
    Evo m₀ d₀ (m.immediate e w imm r).s := by
  unfold Mi.immediate
  extract_lets a s1 s2
  have e1 : Evo m₀ d₀ s1 := by
    unfold s1
    split
    · exact Dev.routeWriteAt_evo ev
    · exact ev
  unfold s2
  dsimp only
  split
  · exact Dev.notify_evo e1
  · exact e1

theorem Dev.haltEng_evo {m₀ : Bool} {d₀ : Dev} {s : Dev} {e : Nat} (ev : Evo m₀ d₀ s) :
    Evo m₀ d₀ (Dev.haltEng s e) := by
  unfold Dev.haltEng
  repeat' first
    | with_reducible assumption
    | with_reducible apply Dev.onEng_evo
    | (intro _; intros)
    | (with_reducible refine Evo.upd (by with_reducible assumption) ?_ ?_ ?_ ?_ ?_ ?_ ?_ ?_ ?_ ?_ <;> rfl)

/-- What a word leaves the device as. -/
def MRes.dev : MRes → Dev
  | .run m => m.s
  | .done s => s

theorem Mi.close_evo {m₀ : Bool} {d₀ s : Dev} {m : Mi} {e : Nat} (ev : Evo m₀ d₀ s) : Evo m₀ d₀ (m.close e s).dev := by
  unfold Mi.close MRes.dev
  exact Dev.onEng_evo ev

theorem Mi.trap_evo {d₀ : Dev} {m : Mi} {e f : Nat} (ev : Evo true d₀ m.s) : Evo true d₀ (m.trap e f).dev :=
  Mi.close_evo (Dev.trap_evo ev)

theorem Mi.stand_evo {m₀ : Bool} {d₀ : Dev} {m : Mi} {e : Nat} {p : Phase} (ev : Evo m₀ d₀ m.s) :
    Evo m₀ d₀ (Mi.stand m e p) := by
  unfold Mi.stand
  repeat' first
    | with_reducible assumption
    | with_reducible apply Dev.onEng_evo
    | (intro _; intros)
    | (with_reducible refine Evo.upd (by with_reducible assumption) ?_ ?_ ?_ ?_ ?_ ?_ ?_ ?_ ?_ ?_ <;> rfl)

theorem Mi.retire_evo {d₀ : Dev} {m : Mi} {e : Nat} (ev : Evo true d₀ m.s) :
    Evo true d₀ (Mi.retire m e) := by
  unfold Mi.retire
  repeat' first
    | with_reducible assumption
    | with_reducible apply Dev.jumpTo_evo
    | with_reducible apply Dev.retire_evo
    | split

theorem Mi.next_evo {d₀ : Dev} {m : Mi} {e : Nat} {w : BitVec 160} {c : Bool} (ev : Evo true d₀ m.s) :
    Evo true d₀ (m.next e w c).dev := by
  unfold Mi.next
  extract_lets q nx ends a go jump
  have hgo (c : UCtx) (b : Nat) : Evo true d₀ (go c b).dev := ev
  have hjump (b : Nat) : Evo true d₀ (jump b).dev := by
    unfold jump
    split
    · split
      · exact Mi.close_evo (Dev.onEng_evo (Dev.yieldFor_evo ev))
      · exact hgo _ _
    · exact hgo _ _
  clear_value go jump q
  repeat' first
    | with_reducible exact hgo _ _
    | with_reducible exact hjump _
    | with_reducible exact Mi.trap_evo ev
    | with_reducible exact Mi.close_evo (Dev.yieldFor_evo (Mi.retire_evo ev))
    | with_reducible exact Mi.close_evo (Mi.retire_evo ev)
    | with_reducible exact Mi.close_evo (Dev.onEng_evo (Dev.yieldFor_evo ev))
    | with_reducible exact Mi.close_evo (Dev.haltEng_evo (Mi.retire_evo ev))
    | split
    | exact Mi.stand_evo ev

theorem Mi.commit_evo {m₀ : Bool} {d₀ : Dev} {m : Mi} {e : Nat} {w : BitVec 160} (ev : Evo m₀ d₀ m.s) :
    Evo m₀ d₀ (Mi.commit m e w).s := by
  unfold Mi.commit
  repeat' first
    | with_reducible assumption
    | (extract_lets +onlyGivenNames z; refine Evo.cut (p := Evo m₀ d₀ z) ?_ (fun e1 => ?_); (on_goal 2 => clear_value z); (on_goal 1 => (unfold z; try clear z)))
    | (extract_lets +onlyGivenNames z; refine Evo.cut (p := Evo m₀ d₀ z.1) ?_ (fun e1 => ?_); (on_goal 2 => clear_value z); (on_goal 1 => (unfold z; try clear z)))
    | extract_lets +onlyGivenNames z
    | with_reducible apply Mi.view_evo
    | with_reducible apply Dev.onEng_evo
    | (intro _; intros)
    | (with_reducible refine Evo.upd (by with_reducible assumption) ?_ ?_ ?_ ?_ ?_ ?_ ?_ ?_ ?_ ?_ <;> rfl)
    | split
    | dsimp only
    | clear_value *

theorem Mi.operate_evo {m₀ : Bool} {d₀ : Dev} {m : Mi} {e : Nat} {x : Ins} {hi : W} {w : BitVec 160} (ev : Evo m₀ d₀ m.s) :
    Evo m₀ d₀ (m.operate e x hi w).1.s := by
  unfold Mi.operate
  extract_lets imm out r m1 cond ops m2 m3 m4
  have e2 : Evo m₀ d₀ m2.s := Mi.shadow_evo (Mi.reads_evo ev)
  have e3 : Evo m₀ d₀ m3.s := by
    unfold m3
    split
    · exact e2
    · exact Mi.dest_evo e2
  exact Mi.shadow_evo (m := m3) e3

theorem Mi.wordStop_evo {d₀ : Dev} {m : Mi} {e : Nat} {x : Ins} {w : BitVec 160} {db : Option Nat} {r : MRes} (ev : Evo true d₀ m.s)
    (h : m.wordStop e x w db = some r) : Evo true d₀ r.dev := by
  have key {p : Prop} [Decidable p] {a : MRes} {t : Option MRes} (ha : Evo true d₀ a.dev) (ht : ∀ r, t = some r → Evo true d₀ r.dev)
      (r : MRes) (h : (if p then some a else t) = some r) : Evo true d₀ r.dev := by
    split at h
    · cases h; exact ha
    · exact ht r h
  have none (r : MRes) (h : Option.none = some r) : Evo true d₀ r.dev := by cases h
  exact key (Mi.close_evo (Dev.ucodeDouble_evo ev)) (key (Mi.trap_evo ev) (key (Mi.trap_evo ev) (key (Mi.trap_evo ev)
    (key (Mi.close_evo (Dev.ucodeDouble_evo ev)) none)))) r h

/-- What an issued word leaves the device as. -/
def MIss.dev : MIss → Dev
  | .ok m _ _ => m.s
  | .stop r => r.dev

theorem Mi.issue_evo {d₀ : Dev} {m : Mi} {e : Nat} {x : Ins} {hi : W} {db : Option Nat} (ev : Evo true d₀ m.s) :
    Evo true d₀ (m.issue e x hi db).dev := by
  unfold Mi.issue
  split
  · exact Mi.trap_evo ev
  · split
    · exact Mi.wordStop_evo ev ‹_›
    · extract_lets o
      have eo : Evo true d₀ o.1.s := Mi.operate_evo ev
      clear_value o
      split
      · exact Mi.trap_evo ev
      · split
        · split
          · exact Mi.trap_evo ev
          · exact Mi.immediate_evo (Mi.commit_evo eo)
        · split
          · exact Mi.trap_evo eo
          · exact Mi.immediate_evo eo

theorem microStep_evo {d₀ : Dev} {e : Nat} {x : Ins} {hi : W} {db : Option Nat} {m : Mi} (ev : Evo true d₀ m.s) :
    Evo true d₀ (microStep e x hi db m).dev := by
  have h := Mi.issue_evo (e := e) (x := x) (hi := hi) (db := db) ev
  unfold microStep
  split
  · rename_i heq; rw [heq] at h; exact Mi.next_evo h
  · rename_i heq; rw [heq] at h; exact h

theorem tailRun_evo {d₀ : Dev} {e : Nat} {x : Ins} {hi : W} {db : Option Nat} {n : Nat} {m : Mi} (ev : Evo true d₀ m.s) :
    Evo true d₀ (tailRun e x hi db n m) := by
  induction n generalizing m with
  | zero => exact Mi.stand_evo ev
  | succ n ih =>
    have h := Mi.issue_evo (e := e) (x := x) (hi := hi) (db := db) ev
    unfold tailRun
    split
    · exact Mi.stand_evo ev
    · split
      · rename_i heq; rw [heq] at h; exact h
      · rename_i heq; rw [heq] at h; exact Mi.stand_evo h
      · rename_i heq
        rw [heq] at h
        split
        · exact Mi.stand_evo h
        · exact ih h

theorem microRun_evo {d₀ : Dev} {e : Nat} {x : Ins} {hi : W} {db : Option Nat} {n : Nat} {m : Mi} (ev : Evo true d₀ m.s) :
    Evo true d₀ (microRun e x hi db n m) := by
  induction n generalizing m with
  | zero => exact tailRun_evo ev
  | succ n ih =>
    have h := microStep_evo (e := e) (x := x) (hi := hi) (db := db) ev
    unfold microRun
    split
    · rename_i heq; rw [heq] at h; exact h
    · rename_i heq; rw [heq] at h; exact ih h

theorem Dev.uctx_evo {m₀ : Bool} {d₀ s : Dev} {e : Nat} (ev : Evo m₀ d₀ s) : Evo m₀ d₀ (s.uctx e).2 := by
  unfold Dev.uctx
  split
  · exact ev
  · exact Evo.upd ev rfl rfl rfl rfl rfl rfl rfl rfl rfl rfl

theorem Dev.resume_evo {d₀ s : Dev} {e : Nat} {x : Ins} {hi : W} {f : Fetch} {c : UCtx} (ev : Evo true d₀ s) :
    Evo true d₀ (s.resume e x hi f c) := by
  unfold Dev.resume
  extract_lets g n m
  have e1 : Evo true d₀ m.s := by
    unfold m
    dsimp only
    exact Dev.onEng_evo ev
  clear_value m
  split
  · have h := Mi.next_evo (e := e) (w := ‹_›) (c := ‹_›) e1
    split
    · rename_i heq; rw [heq] at h; exact h
    · rename_i heq; rw [heq] at h; exact microRun_evo h
  · exact microRun_evo e1

theorem Dev.micro_evo {d₀ s : Dev} {e : Nat} {x : Ins} {hi : W} {f : Fetch} (ev : Evo true d₀ s) : Evo true d₀ (s.micro e x hi f) := by
  unfold Dev.micro
  dsimp only
  split
  · exact Dev.resume_evo ev
  · apply microRun_evo
    exact Dev.uctx_evo ev


end Sys2Proof.Machine
end

