-- ==== Sys2Proof/Laws/Ev/Instr.lean ====
section
/-! SUPPORT. What the operations of Machine/Instr.lean can do to the whole device. -/

namespace Sys2Proof.Machine

theorem Dev.check_evo {d₀ : Dev} {s : Dev} {e : Nat} {bad : List (Bool × Nat)} {ok : Dev} (ev : Evo true d₀ s) (evok : Evo true d₀ ok) :
    Evo true d₀ (Dev.check s e bad ok) := by
  unfold Dev.check
  repeat' first
    | with_reducible assumption
    | with_reducible apply Dev.trap_evo
    | with_reducible apply Mi.trap_evo
    | (with_reducible refine Evo.upd (by with_reducible assumption) ?_ ?_ ?_ ?_ ?_ ?_ ?_ ?_ ?_ ?_ <;> rfl)
    | split
    | clear_value *

theorem Dev.romDouble_evo {d₀ : Dev} {s : Dev} {k : Nat} {f : Fetch} (ev : Evo true d₀ s) :
    Evo true d₀ (Dev.romDouble s k f) := by
  unfold Dev.romDouble
  repeat' first
    | with_reducible assumption
    | with_reducible apply Dev.ucodeDouble_evo
    | (with_reducible refine Evo.upd (by with_reducible assumption) ?_ ?_ ?_ ?_ ?_ ?_ ?_ ?_ ?_ ?_ <;> rfl)
    | split
    | clear_value *

theorem Dev.instr_evo {d₀ : Dev} {s : Dev} {e : Nat} {f : Fetch} {op : Nat → Bool} {body : Option Nat → Dev → Ins → Dev} (ev : Evo true d₀ s) (evbody : ∀ x0 t x2, Evo true d₀ t → Evo true d₀ (body x0 t x2)) :
    Evo true d₀ (Dev.instr s e f op body) := by
  unfold Dev.instr
  repeat' first
    | with_reducible assumption
    | (extract_lets +onlyGivenNames z; refine Evo.cut (p := Evo true d₀ z) ?_ (fun e1 => ?_); (on_goal 2 => clear_value z); (on_goal 1 => (unfold z; try clear z)))
    | (extract_lets +onlyGivenNames z; refine Evo.cut (p := Evo true d₀ z.1) ?_ (fun e1 => ?_); (on_goal 2 => clear_value z); (on_goal 1 => (unfold z; try clear z)))
    | extract_lets +onlyGivenNames z
    | with_reducible apply Dev.trap_evo
    | with_reducible apply Mi.trap_evo
    | with_reducible apply Dev.note_evo
    | with_reducible apply Dev.logUcode1_evo
    | with_reducible apply Dev.micro_evo
    | with_reducible apply Dev.romDouble_evo
    | with_reducible apply Evo.forL
    | (intro _; intros)
    | with_reducible apply evbody
    | split

theorem Dev.instrOp_evo {d₀ : Dev} {s : Dev} {e : Nat} {f : Fetch} {o : Nat} {body : Dev → Ins → Dev} (ev : Evo true d₀ s) (evbody : ∀ t x0, Evo true d₀ t → Evo true d₀ (body t x0)) :
    Evo true d₀ (Dev.instrOp s e f o body) := by
  unfold Dev.instrOp
  repeat' first
    | with_reducible assumption
    | with_reducible apply Dev.instr_evo
    | (intro _; intros)
    | with_reducible apply evbody
    | split

theorem Dev.instrCut_evo {d₀ : Dev} {s : Dev} {e : Nat} {f : Fetch} {o : Nat} {body : Option Nat → Dev → Ins → Nat → Dev} (ev : Evo true d₀ s) (evbody : ∀ x0 t x2 x3, Evo true d₀ t → Evo true d₀ (body x0 t x2 x3)) :
    Evo true d₀ (Dev.instrCut s e f o body) := by
  unfold Dev.instrCut
  repeat' first
    | with_reducible assumption
    | with_reducible apply Dev.instr_evo
    | (intro _; intros)
    | with_reducible apply evbody
    | (with_reducible refine Evo.upd (by with_reducible assumption) ?_ ?_ ?_ ?_ ?_ ?_ ?_ ?_ ?_ ?_ <;> rfl)
    | split
    | clear_value *

theorem Dev.instrSite_evo {d₀ : Dev} {s : Dev} {e : Nat} {f : Fetch} {o : Nat} {body : Dev → Ins → Nat → Dev} (ev : Evo true d₀ s) (evbody : ∀ t x0 x1, Evo true d₀ t → Evo true d₀ (body t x0 x1)) :
    Evo true d₀ (Dev.instrSite s e f o body) := by
  unfold Dev.instrSite
  repeat' first
    | with_reducible assumption
    | with_reducible apply Dev.instrOp_evo
    | (intro _; intros)
    | with_reducible apply evbody
    | (with_reducible refine Evo.upd (by with_reducible assumption) ?_ ?_ ?_ ?_ ?_ ?_ ?_ ?_ ?_ ?_ <;> rfl)
    | split
    | clear_value *

theorem Dev.stageIns_evo {d₀ : Dev} {s : Dev} {e : Nat} {ill : Bool} {param : Bool} {modeIll : Bool} {op : EngOp} (ev : Evo true d₀ s) :
    Evo true d₀ (Dev.stageIns s e ill param modeIll op) := by
  unfold Dev.stageIns
  repeat' first
    | with_reducible assumption
    | with_reducible apply Dev.check_evo
    | with_reducible apply Dev.stageOp_evo
    | with_reducible apply Dev.retire_evo
    | with_reducible apply Mi.retire_evo


end Sys2Proof.Machine
end

