-- ==== Sys2Proof/Laws/Ev/Arith.lean ====
section
/-! SUPPORT. What the operations of Machine/Arith.lean can do to the whole device. -/

namespace Sys2Proof.Machine

theorem doAlu_evo {d₀ : Dev} {op : W → W → AluOut} {e : Nat} {s : Dev} {x : Ins} (ev : Evo true d₀ s) :
    Evo true d₀ (doAlu op e s x) := by
  unfold doAlu
  repeat' first
    | with_reducible assumption
    | (extract_lets +onlyGivenNames z; refine Evo.cut (p := Evo true d₀ z) ?_ (fun e1 => ?_); (on_goal 2 => clear_value z); (on_goal 1 => (unfold z; try clear z)))
    | (extract_lets +onlyGivenNames z; refine Evo.cut (p := Evo true d₀ z.1) ?_ (fun e1 => ?_); (on_goal 2 => clear_value z); (on_goal 1 => (unfold z; try clear z)))
    | extract_lets +onlyGivenNames z
    | with_reducible apply Dev.check_evo
    | with_reducible apply Dev.setReg_evo
    | with_reducible apply Dev.putFlags_evo
    | with_reducible apply Dev.retire_evo
    | with_reducible apply Mi.retire_evo

theorem doTest_evo {d₀ : Dev} {op : W → W → AluOut} {e : Nat} {s : Dev} {x : Ins} (ev : Evo true d₀ s) :
    Evo true d₀ (doTest op e s x) := by
  unfold doTest
  repeat' first
    | with_reducible assumption
    | with_reducible apply Dev.check_evo
    | with_reducible apply Dev.putFlags_evo
    | with_reducible apply Dev.retire_evo
    | with_reducible apply Mi.retire_evo

theorem doShr_evo {d₀ : Dev} {e : Nat} {s : Dev} {x : Ins} (ev : Evo true d₀ s) :
    Evo true d₀ (doShr e s x) := by
  unfold doShr
  repeat' first
    | with_reducible assumption
    | with_reducible apply doAlu_evo

theorem doMovi_evo {d₀ : Dev} {scrBad : Bool} {e : Nat} {s : Dev} {x : Ins} (ev : Evo true d₀ s) :
    Evo true d₀ (doMovi scrBad e s x) := by
  unfold doMovi
  repeat' first
    | with_reducible assumption
    | (extract_lets +onlyGivenNames z; refine Evo.cut (p := Evo true d₀ z) ?_ (fun e1 => ?_); (on_goal 2 => clear_value z); (on_goal 1 => (unfold z; try clear z)))
    | (extract_lets +onlyGivenNames z; refine Evo.cut (p := Evo true d₀ z.1) ?_ (fun e1 => ?_); (on_goal 2 => clear_value z); (on_goal 1 => (unfold z; try clear z)))
    | extract_lets +onlyGivenNames z
    | with_reducible apply Dev.check_evo
    | with_reducible apply Dev.setReg_evo
    | with_reducible apply Dev.retire_evo
    | with_reducible apply Mi.retire_evo
    | with_reducible apply Dev.setScrWord_evo
    | (with_reducible refine Evo.upd (by with_reducible assumption) ?_ ?_ ?_ ?_ ?_ ?_ ?_ ?_ ?_ ?_ <;> rfl)
    | split
    | clear_value *


end Sys2Proof.Machine
end

