-- ==== Sys2Proof/Laws/Ev/Cistern.lean ====
section
/-! SUPPORT. What the operations of Machine/Cistern.lean can do to the whole device. -/

namespace Sys2Proof.Machine

theorem Dev.bankWeak_evo {d₀ : Dev} {s : Dev} {b : Nat} (ev : Evo true d₀ s) :
    Evo true d₀ (Dev.bankWeak s b) := by
  unfold Dev.bankWeak
  repeat' first
    | with_reducible assumption
    | with_reducible apply Dev.raise_evo

theorem Dev.cisCorrected_evo {d₀ : Dev} {s : Dev} {a : Nat} (ev : Evo true d₀ s) :
    Evo true d₀ (Dev.cisCorrected s a) := by
  unfold Dev.cisCorrected
  repeat' first
    | with_reducible assumption
    | (extract_lets +onlyGivenNames z; refine Evo.cut (p := Evo true d₀ z) ?_ (fun e1 => ?_); (on_goal 2 => clear_value z); (on_goal 1 => (unfold z; try clear z)))
    | (extract_lets +onlyGivenNames z; refine Evo.cut (p := Evo true d₀ z.1) ?_ (fun e1 => ?_); (on_goal 2 => clear_value z); (on_goal 1 => (unfold z; try clear z)))
    | extract_lets +onlyGivenNames z
    | with_reducible apply Dev.incSat_evo
    | with_reducible apply Dev.setFld_evo
    | with_reducible apply Dev.raises_evo
    | (intro _; intros)
    | (with_reducible refine Evo.upd (by with_reducible assumption) ?_ ?_ ?_ ?_ ?_ ?_ ?_ ?_ ?_ ?_ <;> rfl)
    | split

theorem Dev.cisFresh_evo {m₀ : Bool} {d₀ : Dev} {s : Dev} {a : Nat} {n : Nat} (ev : Evo m₀ d₀ s) :
    Evo m₀ d₀ (Dev.cisFresh s a n) := by
  unfold Dev.cisFresh
  repeat' first
    | with_reducible assumption
    | (intro _; intros)
    | (with_reducible refine Evo.upd (by with_reducible assumption) ?_ ?_ ?_ ?_ ?_ ?_ ?_ ?_ ?_ ?_ <;> rfl)

theorem Dev.cisLog2_evo {m₀ : Bool} {d₀ : Dev} {s : Dev} {a : Nat} (ev : Evo m₀ d₀ s) :
    Evo m₀ d₀ (Dev.cisLog2 s a) := by
  unfold Dev.cisLog2
  repeat' first
    | with_reducible assumption
    | (extract_lets +onlyGivenNames z; refine Evo.cut (p := Evo m₀ d₀ z) ?_ (fun e1 => ?_); (on_goal 2 => clear_value z); (on_goal 1 => (unfold z; try clear z)))
    | (extract_lets +onlyGivenNames z; refine Evo.cut (p := Evo m₀ d₀ z.1) ?_ (fun e1 => ?_); (on_goal 2 => clear_value z); (on_goal 1 => (unfold z; try clear z)))
    | extract_lets +onlyGivenNames z
    | with_reducible apply Dev.wr_evo

theorem Dev.cisBad_evo {d₀ : Dev} {s : Dev} {a : Nat} (ev : Evo true d₀ s) :
    Evo true d₀ (Dev.cisBad s a) := by
  unfold Dev.cisBad
  repeat' first
    | with_reducible assumption
    | with_reducible apply Dev.cisLog2_evo
    | with_reducible apply Dev.bankWeak_evo

theorem Dev.cisHostBad_evo {d₀ : Dev} {s : Dev} {a : Nat} (ev : Evo true d₀ s) :
    Evo true d₀ (Dev.cisHostBad s a) := by
  unfold Dev.cisHostBad
  repeat' first
    | with_reducible assumption
    | with_reducible apply Dev.cisLog2_evo
    | with_reducible apply Dev.raises_evo

theorem Dev.scrubStep_evo {d₀ s : Dev} {c : Ecc} (ev : Evo true d₀ s) : Evo true d₀ (s.scrubStep c) := by
  unfold Dev.scrubStep
  split
  · exact ev
  · extract_lets a s1 k1 k2
    have e1 : Evo true d₀ s1 := by
      unfold s1
      cases c
      · exact ev
      · exact Dev.cisCorrected_evo ev
      · exact Dev.cisBad_evo ev
    have e2 : Evo true d₀ (s1.incSat (aCisReg 0x28) 15 0) := Dev.incSat_evo e1
    split
    · exact Evo.upd (s := s1.incSat (aCisReg 0x28) 15 0) e2 rfl rfl rfl rfl rfl rfl rfl rfl rfl rfl
    · exact Evo.upd (s := s1) e1 rfl rfl rfl rfl rfl rfl rfl rfl rfl rfl

theorem Dev.copyDone_evo {m₀ : Bool} {d₀ : Dev} {s : Dev} {n : Nat} {bad : List (BitVec 23)} (ev : Evo m₀ d₀ s) :
    Evo m₀ d₀ (Dev.copyDone s n bad) := by
  unfold Dev.copyDone
  repeat' first
    | with_reducible assumption
    | (extract_lets +onlyGivenNames z; refine Evo.cut (p := Evo m₀ d₀ z) ?_ (fun e1 => ?_); (on_goal 2 => clear_value z); (on_goal 1 => (unfold z; try clear z)))
    | (extract_lets +onlyGivenNames z; refine Evo.cut (p := Evo m₀ d₀ z.1) ?_ (fun e1 => ?_); (on_goal 2 => clear_value z); (on_goal 1 => (unfold z; try clear z)))
    | extract_lets +onlyGivenNames z
    | with_reducible apply Dev.setSpareBank_evo
    | with_reducible apply Evo.foldl_fst
    | with_reducible apply Evo.foldl
    | (intro _; intros)
    | (with_reducible refine Evo.upd (by with_reducible assumption) ?_ ?_ ?_ ?_ ?_ ?_ ?_ ?_ ?_ ?_ <;> rfl)
    | split

theorem Dev.lwmCheck_evo {m₀ : Bool} {d₀ : Dev} {s : Dev} {y : Nat} (ev : Evo m₀ d₀ s) :
    Evo m₀ d₀ (Dev.lwmCheck s y) := by
  unfold Dev.lwmCheck
  repeat' first
    | with_reducible assumption
    | (extract_lets +onlyGivenNames z; refine Evo.cut (p := Evo m₀ d₀ z) ?_ (fun e1 => ?_); (on_goal 2 => clear_value z); (on_goal 1 => (unfold z; try clear z)))
    | (extract_lets +onlyGivenNames z; refine Evo.cut (p := Evo m₀ d₀ z.1) ?_ (fun e1 => ?_); (on_goal 2 => clear_value z); (on_goal 1 => (unfold z; try clear z)))
    | extract_lets +onlyGivenNames z
    | with_reducible apply Dev.setPly_evo
    | with_reducible apply Dev.notify_evo
    | (with_reducible refine Evo.upd (by with_reducible assumption) ?_ ?_ ?_ ?_ ?_ ?_ ?_ ?_ ?_ ?_ <;> rfl)
    | split

theorem Dev.ringClear_evo {m₀ : Bool} {d₀ : Dev} {s : Dev} {y : Nat} {r : RingState} (ev : Evo m₀ d₀ s) :
    Evo m₀ d₀ (Dev.ringClear s y r) := by
  unfold Dev.ringClear
  repeat' first
    | with_reducible assumption
    | with_reducible apply Dev.onPly_evo
    | with_reducible apply Dev.wr_evo
    | with_reducible apply Dev.lwmCheck_evo
    | (intro _; intros)
    | (with_reducible refine Evo.upd (by with_reducible assumption) ?_ ?_ ?_ ?_ ?_ ?_ ?_ ?_ ?_ ?_ <;> rfl)

theorem Dev.plyRej_evo {m₀ : Bool} {d₀ : Dev} {s : Dev} {y : Nat} (ev : Evo m₀ d₀ s) :
    Evo m₀ d₀ (Dev.plyRej s y) := by
  unfold Dev.plyRej
  repeat' first
    | with_reducible assumption
    | with_reducible apply Dev.setBits_evo

theorem Dev.ringReset_evo {m₀ : Bool} {d₀ : Dev} {s : Dev} {y : Nat} (ev : Evo m₀ d₀ s) :
    Evo m₀ d₀ (Dev.ringReset s y) := by
  unfold Dev.ringReset
  repeat' first
    | with_reducible assumption
    | (extract_lets +onlyGivenNames z; refine Evo.cut (p := Evo m₀ d₀ z) ?_ (fun e1 => ?_); (on_goal 2 => clear_value z); (on_goal 1 => (unfold z; try clear z)))
    | (extract_lets +onlyGivenNames z; refine Evo.cut (p := Evo m₀ d₀ z.1) ?_ (fun e1 => ?_); (on_goal 2 => clear_value z); (on_goal 1 => (unfold z; try clear z)))
    | extract_lets +onlyGivenNames z
    | with_reducible apply Dev.plyRej_evo
    | with_reducible apply Dev.ringClear_evo
    | split

theorem Dev.ringArm_evo {m₀ : Bool} {d₀ : Dev} {s : Dev} {y : Nat} (ev : Evo m₀ d₀ s) :
    Evo m₀ d₀ (Dev.ringArm s y) := by
  unfold Dev.ringArm
  repeat' first
    | with_reducible assumption
    | with_reducible apply Dev.onPly_evo
    | with_reducible apply Dev.plyRej_evo
    | (intro _; intros)
    | (with_reducible refine Evo.upd (by with_reducible assumption) ?_ ?_ ?_ ?_ ?_ ?_ ?_ ?_ ?_ ?_ <;> rfl)
    | split
    | clear_value *

theorem Dev.ringLwm_evo {m₀ : Bool} {d₀ : Dev} {s : Dev} {y : Nat} {v : Nat} (ev : Evo m₀ d₀ s) :
    Evo m₀ d₀ (Dev.ringLwm s y v) := by
  unfold Dev.ringLwm
  repeat' first
    | with_reducible assumption
    | (extract_lets +onlyGivenNames z; refine Evo.cut (p := Evo m₀ d₀ z) ?_ (fun e1 => ?_); (on_goal 2 => clear_value z); (on_goal 1 => (unfold z; try clear z)))
    | (extract_lets +onlyGivenNames z; refine Evo.cut (p := Evo m₀ d₀ z.1) ?_ (fun e1 => ?_); (on_goal 2 => clear_value z); (on_goal 1 => (unfold z; try clear z)))
    | extract_lets +onlyGivenNames z
    | with_reducible apply Dev.setFld_evo
    | with_reducible apply Dev.onPly_evo
    | (intro _; intros)
    | (with_reducible refine Evo.upd (by with_reducible assumption) ?_ ?_ ?_ ?_ ?_ ?_ ?_ ?_ ?_ ?_ <;> rfl)

theorem Dev.placeRecord_evo {m₀ : Bool} {d₀ : Dev} {s : Dev} {y : Nat} {r : Record} (ev : Evo m₀ d₀ s) :
    Evo m₀ d₀ (Dev.placeRecord s y r) := by
  unfold Dev.placeRecord
  repeat' first
    | with_reducible assumption
    | (extract_lets +onlyGivenNames z; refine Evo.cut (p := Evo m₀ d₀ z) ?_ (fun e1 => ?_); (on_goal 2 => clear_value z); (on_goal 1 => (unfold z; try clear z)))
    | (extract_lets +onlyGivenNames z; refine Evo.cut (p := Evo m₀ d₀ z.1) ?_ (fun e1 => ?_); (on_goal 2 => clear_value z); (on_goal 1 => (unfold z; try clear z)))
    | extract_lets +onlyGivenNames z
    | with_reducible apply Dev.setBytes_evo
    | with_reducible apply Dev.cisFresh_evo
    | with_reducible apply Dev.setPly_evo
    | with_reducible apply Dev.lwmCheck_evo
    | (intro _; intros)
    | (with_reducible refine Evo.upd (by with_reducible assumption) ?_ ?_ ?_ ?_ ?_ ?_ ?_ ?_ ?_ ?_ <;> rfl)

theorem Dev.streamRecord_evo {m₀ : Bool} {d₀ : Dev} {s : Dev} {l : Nat} {r : Record} (ev : Evo m₀ d₀ s) :
    Evo m₀ d₀ (Dev.streamRecord s l r) := by
  unfold Dev.streamRecord
  repeat' first
    | with_reducible assumption
    | (extract_lets +onlyGivenNames z; refine Evo.cut (p := Evo m₀ d₀ z) ?_ (fun e1 => ?_); (on_goal 2 => clear_value z); (on_goal 1 => (unfold z; try clear z)))
    | (extract_lets +onlyGivenNames z; refine Evo.cut (p := Evo m₀ d₀ z.1) ?_ (fun e1 => ?_); (on_goal 2 => clear_value z); (on_goal 1 => (unfold z; try clear z)))
    | extract_lets +onlyGivenNames z
    | with_reducible apply Dev.received_evo
    | with_reducible apply Dev.incSat_evo
    | with_reducible apply Dev.placeRecord_evo
    | split


end Sys2Proof.Machine
end

