-- ==== Sys2Proof/Laws/Ev/Players.lean ====
section
/-! SUPPORT. What the operations of Machine/Players.lean can do to the whole device. -/

namespace Sys2Proof.Machine

theorem Dev.plyFault_evo {d₀ : Dev} {s : Dev} {y : Nat} {f : Nat} {bit : Nat} (ev : Evo true d₀ s) :
    Evo true d₀ (Dev.plyFault s y f bit) := by
  unfold Dev.plyFault
  repeat' first
    | with_reducible assumption
    | with_reducible apply Dev.setBits_evo
    | with_reducible apply Dev.raise_evo

theorem Dev.badSeg_evo {d₀ : Dev} {s : Dev} {y : Nat} (ev : Evo true d₀ s) :
    Evo true d₀ (Dev.badSeg s y) := by
  unfold Dev.badSeg
  repeat' first
    | with_reducible assumption
    | with_reducible apply Dev.plyFault_evo

theorem Dev.holdDwell_evo {m₀ : Bool} {d₀ : Dev} {s : Dev} {y : Nat} (ev : Evo m₀ d₀ s) :
    Evo m₀ d₀ (Dev.holdDwell s y) := by
  unfold Dev.holdDwell
  repeat' first
    | with_reducible assumption
    | with_reducible apply Dev.onSite_evo
    | with_reducible apply Evo.forL
    | (intro _; intros)
    | (with_reducible refine Evo.upd (by with_reducible assumption) ?_ ?_ ?_ ?_ ?_ ?_ ?_ ?_ ?_ ?_ <;> rfl)

theorem Dev.restDwell_evo {m₀ : Bool} {d₀ : Dev} {s : Dev} {y : Nat} (ev : Evo m₀ d₀ s) :
    Evo m₀ d₀ (Dev.restDwell s y) := by
  unfold Dev.restDwell
  repeat' first
    | with_reducible assumption
    | with_reducible apply Dev.onPly_evo
    | with_reducible apply Dev.lwmCheck_evo

theorem Dev.enterDwell_evo {m₀ : Bool} {d₀ : Dev} {s : Dev} {y : Nat} (ev : Evo m₀ d₀ s) :
    Evo m₀ d₀ (Dev.enterDwell s y) := by
  unfold Dev.enterDwell
  repeat' first
    | with_reducible assumption
    | with_reducible apply Dev.holdDwell_evo
    | with_reducible apply Dev.restDwell_evo

theorem Dev.cutDwell_evo {m₀ : Bool} {d₀ : Dev} {s : Dev} {y : Nat} (ev : Evo m₀ d₀ s) :
    Evo m₀ d₀ (Dev.cutDwell s y) := by
  unfold Dev.cutDwell
  repeat' first
    | with_reducible assumption
    | with_reducible apply Dev.enterDwell_evo
    | with_reducible apply Dev.onPly_evo
    | (intro _; intros)
    | (with_reducible refine Evo.upd (by with_reducible assumption) ?_ ?_ ?_ ?_ ?_ ?_ ?_ ?_ ?_ ?_ <;> rfl)
    | split

theorem Dev.claimFail_evo {d₀ : Dev} {s : Dev} {y : Nat} {mismatch : Bool} {seg : Nat} {blk : Nat} (ev : Evo true d₀ s) :
    Evo true d₀ (Dev.claimFail s y mismatch seg blk) := by
  unfold Dev.claimFail
  repeat' first
    | with_reducible assumption
    | (extract_lets +onlyGivenNames z; refine Evo.cut (p := Evo true d₀ z) ?_ (fun e1 => ?_); (on_goal 2 => clear_value z); (on_goal 1 => (unfold z; try clear z)))
    | (extract_lets +onlyGivenNames z; refine Evo.cut (p := Evo true d₀ z.1) ?_ (fun e1 => ?_); (on_goal 2 => clear_value z); (on_goal 1 => (unfold z; try clear z)))
    | extract_lets +onlyGivenNames z
    | with_reducible apply Dev.setBits_evo
    | with_reducible apply Dev.note_evo
    | with_reducible apply Dev.wr_evo
    | with_reducible apply Dev.setPly_evo
    | with_reducible apply Mi.next_evo
    | (with_reducible refine Evo.upd (by with_reducible assumption) ?_ ?_ ?_ ?_ ?_ ?_ ?_ ?_ ?_ ?_ <;> rfl)
    | split
    | clear_value *

theorem Dev.claimOne_evo {d₀ : Dev} {s : Dev} {y : Nat} {seg : Nat} {blk : Nat} (ev : Evo true d₀ s) :
    Evo true d₀ (Dev.claimOne s y seg blk).1 := by
  unfold Dev.claimOne
  repeat' first
    | with_reducible assumption
    | (extract_lets +onlyGivenNames z; refine Evo.cut (p := Evo true d₀ z) ?_ (fun e1 => ?_); (on_goal 2 => clear_value z); (on_goal 1 => (unfold z; try clear z)))
    | (extract_lets +onlyGivenNames z; refine Evo.cut (p := Evo true d₀ z.1) ?_ (fun e1 => ?_); (on_goal 2 => clear_value z); (on_goal 1 => (unfold z; try clear z)))
    | extract_lets +onlyGivenNames z
    | with_reducible apply Dev.claimFail_evo
    | with_reducible apply Dev.raise_evo
    | with_reducible apply Dev.setPly_evo
    | (intro _; intros)
    | (with_reducible refine Evo.upd (by with_reducible assumption) ?_ ?_ ?_ ?_ ?_ ?_ ?_ ?_ ?_ ?_ <;> rfl)
    | split
    | dsimp only

theorem Dev.claimCur_evo {d₀ s : Dev} {y n : Nat} (ev : Evo true d₀ s) : Evo true d₀ (s.claimCur y n) := by
  induction n with
  | zero => exact ev
  | succ n ih =>
    unfold Dev.claimCur
    dsimp only
    repeat' first
      | exact ih
      | exact Dev.onPly_evo (Dev.claimOne_evo ih)
      | exact Dev.claimOne_evo ih
      | split

theorem Dev.claimNext_evo {d₀ s : Dev} {y n : Nat} (ev : Evo true d₀ s) : Evo true d₀ (s.claimNext y n) := by
  induction n with
  | zero => exact ev
  | succ n ih =>
    unfold Dev.claimNext
    dsimp only
    repeat' first
      | exact ih
      | exact Dev.onPly_evo (Dev.claimOne_evo ih)
      | exact Dev.claimOne_evo ih
      | split

theorem Dev.takeLink_evo {d₀ : Dev} {s : Dev} {y : Nat} {g : Placed} (ev : Evo true d₀ s) :
    Evo true d₀ (Dev.takeLink s y g) := by
  unfold Dev.takeLink
  repeat' first
    | with_reducible assumption
    | (extract_lets +onlyGivenNames z; refine Evo.cut (p := Evo true d₀ z) ?_ (fun e1 => ?_); (on_goal 2 => clear_value z); (on_goal 1 => (unfold z; try clear z)))
    | (extract_lets +onlyGivenNames z; refine Evo.cut (p := Evo true d₀ z.1) ?_ (fun e1 => ?_); (on_goal 2 => clear_value z); (on_goal 1 => (unfold z; try clear z)))
    | extract_lets +onlyGivenNames z
    | with_reducible apply Mi.next_evo
    | with_reducible apply Dev.setPly_evo
    | with_reducible apply Dev.badSeg_evo
    | (with_reducible refine Evo.upd (by with_reducible assumption) ?_ ?_ ?_ ?_ ?_ ?_ ?_ ?_ ?_ ?_ <;> rfl)
    | split

theorem Dev.startSeg_evo {d₀ : Dev} {s : Dev} {y : Nat} {g : Placed} {got : Nat} (ev : Evo true d₀ s) :
    Evo true d₀ (Dev.startSeg s y g got) := by
  unfold Dev.startSeg
  repeat' first
    | with_reducible assumption
    | (extract_lets +onlyGivenNames z; refine Evo.cut (p := Evo true d₀ z) ?_ (fun e1 => ?_); (on_goal 2 => clear_value z); (on_goal 1 => (unfold z; try clear z)))
    | (extract_lets +onlyGivenNames z; refine Evo.cut (p := Evo true d₀ z.1) ?_ (fun e1 => ?_); (on_goal 2 => clear_value z); (on_goal 1 => (unfold z; try clear z)))
    | extract_lets +onlyGivenNames z
    | with_reducible apply Dev.onPly_evo
    | with_reducible apply Mi.next_evo
    | with_reducible apply Dev.takeLink_evo
    | (intro _; intros)
    | (with_reducible refine Evo.upd (by with_reducible assumption) ?_ ?_ ?_ ?_ ?_ ?_ ?_ ?_ ?_ ?_ <;> rfl)

theorem Dev.nextPass_evo {m₀ : Bool} {d₀ : Dev} {s : Dev} {y : Nat} {u : PUnit} (ev : Evo m₀ d₀ s) :
    Evo m₀ d₀ (Dev.nextPass s y u) := by
  unfold Dev.nextPass
  repeat' first
    | with_reducible assumption
    | (extract_lets +onlyGivenNames z; refine Evo.cut (p := Evo m₀ d₀ z) ?_ (fun e1 => ?_); (on_goal 2 => clear_value z); (on_goal 1 => (unfold z; try clear z)))
    | (extract_lets +onlyGivenNames z; refine Evo.cut (p := Evo m₀ d₀ z.1) ?_ (fun e1 => ?_); (on_goal 2 => clear_value z); (on_goal 1 => (unfold z; try clear z)))
    | extract_lets +onlyGivenNames z
    | with_reducible apply Dev.onPly_evo
    | (intro _; intros)
    | (with_reducible refine Evo.upd (by with_reducible assumption) ?_ ?_ ?_ ?_ ?_ ?_ ?_ ?_ ?_ ?_ <;> rfl)

theorem Dev.edgeClamp_evo {m₀ : Bool} {d₀ : Dev} {s : Dev} {y : Nat} (ev : Evo m₀ d₀ s) :
    Evo m₀ d₀ (Dev.edgeClamp s y) := by
  unfold Dev.edgeClamp
  repeat' first
    | with_reducible assumption
    | (extract_lets +onlyGivenNames z; refine Evo.cut (p := Evo m₀ d₀ z) ?_ (fun e1 => ?_); (on_goal 2 => clear_value z); (on_goal 1 => (unfold z; try clear z)))
    | (extract_lets +onlyGivenNames z; refine Evo.cut (p := Evo m₀ d₀ z.1) ?_ (fun e1 => ?_); (on_goal 2 => clear_value z); (on_goal 1 => (unfold z; try clear z)))
    | extract_lets +onlyGivenNames z
    | with_reducible apply Dev.setBits_evo
    | with_reducible apply Evo.forL
    | (intro _; intros)
    | (with_reducible refine Evo.upd (by with_reducible assumption) ?_ ?_ ?_ ?_ ?_ ?_ ?_ ?_ ?_ ?_ <;> rfl)
    | split
    | clear_value *

theorem Dev.unitEnd_evo {d₀ s : Dev} {y pos : Nat} (ev : Evo true d₀ s) : Evo true d₀ (s.unitEnd y pos) := by
  unfold Dev.unitEnd
  extract_lets rest p
  have hr (t : Dev) (h : Evo true d₀ t) : Evo true d₀ (rest t) := by
    unfold rest
    split
    · exact Dev.restDwell_evo h
    · exact Dev.enterDwell_evo h
  clear_value rest
  repeat' first
    | with_reducible assumption
    | exact hr _ ev
    | exact hr _ (Dev.onPly_evo ev)
    | exact Dev.startSeg_evo (Dev.onPly_evo ev)
    | exact Dev.cutDwell_evo ev
    | exact Dev.nextPass_evo (Dev.onPly_evo ev)
    | split
    | dsimp only

theorem Dev.vectorClaims_evo {d₀ : Dev} {s : Dev} {y : Nat} {pos : Nat} {u : PUnit} {v : Nat} (ev : Evo true d₀ s) :
    Evo true d₀ (Dev.vectorClaims s y pos u v) := by
  unfold Dev.vectorClaims
  repeat' first
    | with_reducible assumption
    | (extract_lets +onlyGivenNames z; refine Evo.cut (p := Evo true d₀ z) ?_ (fun e1 => ?_); (on_goal 2 => clear_value z); (on_goal 1 => (unfold z; try clear z)))
    | (extract_lets +onlyGivenNames z; refine Evo.cut (p := Evo true d₀ z.1) ?_ (fun e1 => ?_); (on_goal 2 => clear_value z); (on_goal 1 => (unfold z; try clear z)))
    | extract_lets +onlyGivenNames z
    | with_reducible apply Dev.claimCur_evo
    | with_reducible apply Mi.next_evo
    | with_reducible apply Dev.claimNext_evo
    | (with_reducible refine Evo.upd (by with_reducible assumption) ?_ ?_ ?_ ?_ ?_ ?_ ?_ ?_ ?_ ?_ <;> rfl)
    | split
    | clear_value *

theorem Dev.fireMarkers_evo {m₀ : Bool} {d₀ : Dev} {s : Dev} {y : Nat} {pos : Nat} {m : Nat} (ev : Evo m₀ d₀ s) :
    Evo m₀ d₀ (Dev.fireMarkers s y pos m) := by
  unfold Dev.fireMarkers
  repeat' first
    | with_reducible assumption
    | (extract_lets +onlyGivenNames z; refine Evo.cut (p := Evo m₀ d₀ z) ?_ (fun e1 => ?_); (on_goal 2 => clear_value z); (on_goal 1 => (unfold z; try clear z)))
    | (extract_lets +onlyGivenNames z; refine Evo.cut (p := Evo m₀ d₀ z.1) ?_ (fun e1 => ?_); (on_goal 2 => clear_value z); (on_goal 1 => (unfold z; try clear z)))
    | extract_lets +onlyGivenNames z
    | with_reducible apply Dev.produce_evo
    | with_reducible apply Dev.fireAhead_evo
    | with_reducible apply Evo.forN
    | (intro _; intros)
    | split

theorem Dev.addCmp_evo {m₀ : Bool} {d₀ : Dev} {s : Dev} {y : Nat} {u : Machine.PUnit} {v : Nat} {pos : Nat} {z : Int} {counts : Bool} {i : Nat} {p : Nat} {t : Nat} {c : Nat} (ev : Evo m₀ d₀ s) :
    Evo m₀ d₀ (Dev.addCmp s y u v pos z counts i p t c) := by
  unfold Dev.addCmp
  repeat' first
    | with_reducible assumption
    | (extract_lets +onlyGivenNames z; refine Evo.cut (p := Evo m₀ d₀ z) ?_ (fun e1 => ?_); (on_goal 2 => clear_value z); (on_goal 1 => (unfold z; try clear z)))
    | (extract_lets +onlyGivenNames z; refine Evo.cut (p := Evo m₀ d₀ z.1) ?_ (fun e1 => ?_); (on_goal 2 => clear_value z); (on_goal 1 => (unfold z; try clear z)))
    | extract_lets +onlyGivenNames z
    | (with_reducible refine Evo.upd (by with_reducible assumption) ?_ ?_ ?_ ?_ ?_ ?_ ?_ ?_ ?_ ?_ <;> rfl)
    | split

theorem Dev.deliver_evo {m₀ : Bool} {d₀ : Dev} {s : Dev} {y : Nat} {u : PUnit} {v : Nat} {row : Nat} {pos : Nat} {counts : Bool} {i : Nat} {p : Nat} (ev : Evo m₀ d₀ s) :
    Evo m₀ d₀ (Dev.deliver s y u v row pos counts i p) := by
  unfold Dev.deliver
  repeat' first
    | with_reducible assumption
    | (extract_lets +onlyGivenNames z; refine Evo.cut (p := Evo m₀ d₀ z) ?_ (fun e1 => ?_); (on_goal 2 => clear_value z); (on_goal 1 => (unfold z; try clear z)))
    | (extract_lets +onlyGivenNames z; refine Evo.cut (p := Evo m₀ d₀ z.1) ?_ (fun e1 => ?_); (on_goal 2 => clear_value z); (on_goal 1 => (unfold z; try clear z)))
    | extract_lets +onlyGivenNames z
    | with_reducible apply Dev.setSite_evo
    | with_reducible apply Dev.onCirc_evo
    | with_reducible apply Dev.addCmp_evo
    | (intro _; intros)
    | (with_reducible refine Evo.upd (by with_reducible assumption) ?_ ?_ ?_ ?_ ?_ ?_ ?_ ?_ ?_ ?_ <;> rfl)
    | split

theorem Dev.broadcast_evo {m₀ : Bool} {d₀ : Dev} {s : Dev} {y : Nat} {u : PUnit} {v : Nat} {row : Nat} {pos : Nat} {counts : Bool} (ev : Evo m₀ d₀ s) :
    Evo m₀ d₀ (Dev.broadcast s y u v row pos counts) := by
  unfold Dev.broadcast
  repeat' first
    | with_reducible assumption
    | with_reducible apply Dev.deliver_evo
    | with_reducible apply Evo.forL
    | (intro _; intros)

theorem Dev.fetchBad_evo {d₀ : Dev} {s : Dev} {y : Nat} {a : Nat} (ev : Evo true d₀ s) :
    Evo true d₀ (Dev.fetchBad s y a) := by
  unfold Dev.fetchBad
  repeat' first
    | with_reducible assumption
    | with_reducible apply Dev.cisLog2_evo
    | with_reducible apply Dev.setBits_evo
    | with_reducible apply Dev.raises_evo

theorem Dev.vectorStart_evo {d₀ : Dev} {s : Dev} {y : Nat} {pos : Nat} {c : Ecc} {w : Nat} (ev : Evo true d₀ s) :
    Evo true d₀ (Dev.vectorStart s y pos c w) := by
  unfold Dev.vectorStart
  repeat' first
    | with_reducible assumption
    | (extract_lets +onlyGivenNames z; refine Evo.cut (p := Evo true d₀ z) ?_ (fun e1 => ?_); (on_goal 2 => clear_value z); (on_goal 1 => (unfold z; try clear z)))
    | (extract_lets +onlyGivenNames z; refine Evo.cut (p := Evo true d₀ z.1) ?_ (fun e1 => ?_); (on_goal 2 => clear_value z); (on_goal 1 => (unfold z; try clear z)))
    | extract_lets +onlyGivenNames z
    | with_reducible apply Dev.onPly_evo
    | with_reducible apply Dev.vectorClaims_evo
    | with_reducible apply Dev.unitEnd_evo
    | with_reducible apply Dev.fireMarkers_evo
    | with_reducible apply Dev.holdDwell_evo
    | with_reducible apply Dev.fetchBad_evo
    | with_reducible apply Dev.broadcast_evo
    | with_reducible apply Dev.cisCorrected_evo
    | with_reducible apply Dev.lwmCheck_evo
    | (intro _; intros)
    | (with_reducible refine Evo.upd (by with_reducible assumption) ?_ ?_ ?_ ?_ ?_ ?_ ?_ ?_ ?_ ?_ <;> rfl)
    | split
    | clear_value *

theorem Dev.underVoid_evo {m₀ : Bool} {d₀ : Dev} {s : Dev} {y : Nat} (ev : Evo m₀ d₀ s) :
    Evo m₀ d₀ (Dev.underVoid s y) := by
  unfold Dev.underVoid
  repeat' first
    | with_reducible assumption
    | (extract_lets +onlyGivenNames z; refine Evo.cut (p := Evo m₀ d₀ z) ?_ (fun e1 => ?_); (on_goal 2 => clear_value z); (on_goal 1 => (unfold z; try clear z)))
    | (extract_lets +onlyGivenNames z; refine Evo.cut (p := Evo m₀ d₀ z.1) ?_ (fun e1 => ?_); (on_goal 2 => clear_value z); (on_goal 1 => (unfold z; try clear z)))
    | extract_lets +onlyGivenNames z
    | with_reducible apply Dev.onPly_evo
    | with_reducible apply Dev.voidSites_evo
    | (intro _; intros)
    | (with_reducible refine Evo.upd (by with_reducible assumption) ?_ ?_ ?_ ?_ ?_ ?_ ?_ ?_ ?_ ?_ <;> rfl)

theorem Dev.failedStart_evo {m₀ : Bool} {d₀ : Dev} {s : Dev} {y : Nat} (ev : Evo m₀ d₀ s) :
    Evo m₀ d₀ (Dev.failedStart s y) := by
  unfold Dev.failedStart
  repeat' first
    | with_reducible assumption
    | with_reducible apply Dev.enterDwell_evo
    | with_reducible apply Dev.underVoid_evo

theorem Dev.startFromDwell_evo {d₀ : Dev} {s : Dev} {y : Nat} {g : Placed} (ev : Evo true d₀ s) :
    Evo true d₀ (Dev.startFromDwell s y g) := by
  unfold Dev.startFromDwell
  repeat' first
    | with_reducible assumption
    | (extract_lets +onlyGivenNames z; refine Evo.cut (p := Evo true d₀ z) ?_ (fun e1 => ?_); (on_goal 2 => clear_value z); (on_goal 1 => (unfold z; try clear z)))
    | (extract_lets +onlyGivenNames z; refine Evo.cut (p := Evo true d₀ z.1) ?_ (fun e1 => ?_); (on_goal 2 => clear_value z); (on_goal 1 => (unfold z; try clear z)))
    | extract_lets +onlyGivenNames z
    | with_reducible apply Dev.onPly_evo
    | with_reducible apply Mi.next_evo
    | with_reducible apply Dev.claimNext_evo
    | with_reducible apply Dev.failedStart_evo
    | with_reducible apply Dev.startSeg_evo
    | (intro _; intros)
    | (with_reducible refine Evo.upd (by with_reducible assumption) ?_ ?_ ?_ ?_ ?_ ?_ ?_ ?_ ?_ ?_ <;> rfl)
    | split

theorem Dev.moveSeg_evo {d₀ : Dev} {s : Dev} {y : Nat} {g : Placed} (ev : Evo true d₀ s) :
    Evo true d₀ (Dev.moveSeg s y g) := by
  unfold Dev.moveSeg
  repeat' first
    | with_reducible assumption
    | with_reducible apply Dev.onPly_evo
    | with_reducible apply Dev.startFromDwell_evo
    | with_reducible apply Mi.next_evo
    | (intro _; intros)
    | (with_reducible refine Evo.upd (by with_reducible assumption) ?_ ?_ ?_ ?_ ?_ ?_ ?_ ?_ ?_ ?_ <;> rfl)
    | split

theorem Dev.jumpSeq_evo {d₀ : Dev} {s : Dev} {y : Nat} {g : Placed} (ev : Evo true d₀ s) :
    Evo true d₀ (Dev.jumpSeq s y g) := by
  unfold Dev.jumpSeq
  repeat' first
    | with_reducible assumption
    | (extract_lets +onlyGivenNames z; refine Evo.cut (p := Evo true d₀ z) ?_ (fun e1 => ?_); (on_goal 2 => clear_value z); (on_goal 1 => (unfold z; try clear z)))
    | (extract_lets +onlyGivenNames z; refine Evo.cut (p := Evo true d₀ z.1) ?_ (fun e1 => ?_); (on_goal 2 => clear_value z); (on_goal 1 => (unfold z; try clear z)))
    | extract_lets +onlyGivenNames z
    | with_reducible apply Dev.setPly_evo
    | with_reducible apply Mi.next_evo
    | with_reducible apply Dev.setBits_evo
    | (with_reducible refine Evo.upd (by with_reducible assumption) ?_ ?_ ?_ ?_ ?_ ?_ ?_ ?_ ?_ ?_ <;> rfl)
    | split
    | clear_value *

theorem Dev.jump_evo {d₀ : Dev} {s : Dev} {y : Nat} {id : Nat} (ev : Evo true d₀ s) :
    Evo true d₀ (Dev.jump s y id) := by
  unfold Dev.jump
  repeat' first
    | with_reducible assumption
    | (extract_lets +onlyGivenNames z; refine Evo.cut (p := Evo true d₀ z) ?_ (fun e1 => ?_); (on_goal 2 => clear_value z); (on_goal 1 => (unfold z; try clear z)))
    | (extract_lets +onlyGivenNames z; refine Evo.cut (p := Evo true d₀ z.1) ?_ (fun e1 => ?_); (on_goal 2 => clear_value z); (on_goal 1 => (unfold z; try clear z)))
    | extract_lets +onlyGivenNames z
    | with_reducible apply Dev.setBits_evo
    | with_reducible apply Dev.badSeg_evo
    | with_reducible apply Dev.plyFault_evo
    | with_reducible apply Dev.jumpSeq_evo
    | split

theorem Dev.waitingJump_evo {d₀ : Dev} {s : Dev} {y : Nat} {was : Ply} (ev : Evo true d₀ s) :
    Evo true d₀ (Dev.waitingJump s y was) := by
  unfold Dev.waitingJump
  repeat' first
    | with_reducible assumption
    | (extract_lets +onlyGivenNames z; refine Evo.cut (p := Evo true d₀ z) ?_ (fun e1 => ?_); (on_goal 2 => clear_value z); (on_goal 1 => (unfold z; try clear z)))
    | (extract_lets +onlyGivenNames z; refine Evo.cut (p := Evo true d₀ z.1) ?_ (fun e1 => ?_); (on_goal 2 => clear_value z); (on_goal 1 => (unfold z; try clear z)))
    | extract_lets +onlyGivenNames z
    | with_reducible apply Dev.onPly_evo
    | with_reducible apply Dev.startFromDwell_evo
    | with_reducible apply Dev.badSeg_evo
    | with_reducible apply Dev.jumpSeq_evo
    | (intro _; intros)
    | (with_reducible refine Evo.upd (by with_reducible assumption) ?_ ?_ ?_ ?_ ?_ ?_ ?_ ?_ ?_ ?_ <;> rfl)
    | split
    | clear_value *

theorem Dev.latchAtTick_evo {m₀ : Bool} {d₀ : Dev} {s : Dev} {y : Nat} (ev : Evo m₀ d₀ s) :
    Evo m₀ d₀ (Dev.latchAtTick s y) := by
  unfold Dev.latchAtTick
  repeat' first
    | with_reducible assumption
    | with_reducible apply Dev.onPly_evo
    | (intro _; intros)
    | (with_reducible refine Evo.upd (by with_reducible assumption) ?_ ?_ ?_ ?_ ?_ ?_ ?_ ?_ ?_ ?_ <;> rfl)
    | split

theorem Dev.fixSeq_evo {d₀ : Dev} {s : Dev} {y : Nat} (ev : Evo true d₀ s) :
    Evo true d₀ (Dev.fixSeq s y) := by
  unfold Dev.fixSeq
  repeat' first
    | with_reducible assumption
    | (extract_lets +onlyGivenNames z; refine Evo.cut (p := Evo true d₀ z) ?_ (fun e1 => ?_); (on_goal 2 => clear_value z); (on_goal 1 => (unfold z; try clear z)))
    | (extract_lets +onlyGivenNames z; refine Evo.cut (p := Evo true d₀ z.1) ?_ (fun e1 => ?_); (on_goal 2 => clear_value z); (on_goal 1 => (unfold z; try clear z)))
    | extract_lets +onlyGivenNames z
    | with_reducible apply Dev.onPly_evo
    | with_reducible apply Mi.next_evo
    | with_reducible apply Dev.claimNext_evo
    | (intro _; intros)
    | (with_reducible refine Evo.upd (by with_reducible assumption) ?_ ?_ ?_ ?_ ?_ ?_ ?_ ?_ ?_ ?_ <;> rfl)
    | split
    | clear_value *

theorem Dev.pausePly_evo {m₀ : Bool} {d₀ : Dev} {s : Dev} {y : Nat} (ev : Evo m₀ d₀ s) :
    Evo m₀ d₀ (Dev.pausePly s y) := by
  unfold Dev.pausePly
  repeat' first
    | with_reducible assumption
    | with_reducible apply Dev.onPly_evo
    | (intro _; intros)
    | (with_reducible refine Evo.upd (by with_reducible assumption) ?_ ?_ ?_ ?_ ?_ ?_ ?_ ?_ ?_ ?_ <;> rfl)
    | split

theorem Dev.resumePly_evo {d₀ : Dev} {s : Dev} {y : Nat} (ev : Evo true d₀ s) :
    Evo true d₀ (Dev.resumePly s y) := by
  unfold Dev.resumePly
  repeat' first
    | with_reducible assumption
    | (extract_lets +onlyGivenNames z; refine Evo.cut (p := Evo true d₀ z) ?_ (fun e1 => ?_); (on_goal 2 => clear_value z); (on_goal 1 => (unfold z; try clear z)))
    | (extract_lets +onlyGivenNames z; refine Evo.cut (p := Evo true d₀ z.1) ?_ (fun e1 => ?_); (on_goal 2 => clear_value z); (on_goal 1 => (unfold z; try clear z)))
    | extract_lets +onlyGivenNames z
    | with_reducible apply Dev.onPly_evo
    | with_reducible apply Dev.takeLink_evo
    | (intro _; intros)
    | (with_reducible refine Evo.upd (by with_reducible assumption) ?_ ?_ ?_ ?_ ?_ ?_ ?_ ?_ ?_ ?_ <;> rfl)
    | split
    | clear_value *


end Sys2Proof.Machine
end

