-- ==== Sys2Proof/Laws/Ev/Capture.lean ====
section
/-! SUPPORT. What the operations of Machine/Capture.lean can do to the whole device. -/

namespace Sys2Proof.Machine

theorem Dev.cmpFail_evo {m₀ : Bool} {d₀ : Dev} {s : Dev} {sclk : Nat} {m : Cmp} {h : Bool} {l : Bool} (ev : Evo m₀ d₀ s) :
    Evo m₀ d₀ (Dev.cmpFail s sclk m h l) := by
  unfold Dev.cmpFail
  repeat' first
    | with_reducible assumption
    | (extract_lets +onlyGivenNames z; refine Evo.cut (p := Evo m₀ d₀ z) ?_ (fun e1 => ?_); (on_goal 2 => clear_value z); (on_goal 1 => (unfold z; try clear z)))
    | (extract_lets +onlyGivenNames z; refine Evo.cut (p := Evo m₀ d₀ z.1) ?_ (fun e1 => ?_); (on_goal 2 => clear_value z); (on_goal 1 => (unfold z; try clear z)))
    | extract_lets +onlyGivenNames z
    | with_reducible apply Dev.incWord_evo
    | with_reducible apply Dev.onSite_evo
    | with_reducible apply Dev.satBit_evo
    | with_reducible apply Dev.holdOffer_evo
    | (intro _; intros)
    | (with_reducible refine Evo.upd (by with_reducible assumption) ?_ ?_ ?_ ?_ ?_ ?_ ?_ ?_ ?_ ?_ <;> rfl)
    | split
    | clear_value *

theorem Dev.watchPin_evo {m₀ : Bool} {d₀ : Dev} {s : Dev} {p : Nat} {differ : Bool} (ev : Evo m₀ d₀ s) :
    Evo m₀ d₀ (Dev.watchPin s p differ) := by
  unfold Dev.watchPin
  repeat' first
    | with_reducible assumption
    | (extract_lets +onlyGivenNames z; refine Evo.cut (p := Evo m₀ d₀ z) ?_ (fun e1 => ?_); (on_goal 2 => clear_value z); (on_goal 1 => (unfold z; try clear z)))
    | (extract_lets +onlyGivenNames z; refine Evo.cut (p := Evo m₀ d₀ z.1) ?_ (fun e1 => ?_); (on_goal 2 => clear_value z); (on_goal 1 => (unfold z; try clear z)))
    | extract_lets +onlyGivenNames z
    | with_reducible apply Dev.incWord_evo
    | with_reducible apply Dev.setQuad_evo
    | with_reducible apply Dev.note_evo
    | (with_reducible refine Evo.upd (by with_reducible assumption) ?_ ?_ ?_ ?_ ?_ ?_ ?_ ?_ ?_ ?_ <;> rfl)
    | split

theorem Dev.compareStrobe_evo {m₀ : Bool} {d₀ : Dev} {s : Dev} {sclk : Nat} {i : Nat} {t : Nat} {h : Bool} {l : Bool} {sh : Bool} {sl : Bool} {win : List (Bool × Bool)} (ev : Evo m₀ d₀ s) :
    Evo m₀ d₀ (Dev.compareStrobe s sclk i t h l sh sl win) := by
  unfold Dev.compareStrobe
  repeat' first
    | with_reducible assumption
    | (extract_lets +onlyGivenNames z; refine Evo.cut (p := Evo m₀ d₀ z) ?_ (fun e1 => ?_); (on_goal 2 => clear_value z); (on_goal 1 => (unfold z; try clear z)))
    | (extract_lets +onlyGivenNames z; refine Evo.cut (p := Evo m₀ d₀ z.1) ?_ (fun e1 => ?_); (on_goal 2 => clear_value z); (on_goal 1 => (unfold z; try clear z)))
    | extract_lets +onlyGivenNames z
    | with_reducible apply Dev.watchPin_evo
    | with_reducible apply Dev.incWord_evo
    | with_reducible apply Dev.cmpFail_evo
    | (with_reducible refine Evo.upd (by with_reducible assumption) ?_ ?_ ?_ ?_ ?_ ?_ ?_ ?_ ?_ ?_ <;> rfl)
    | split
    | clear_value *

theorem Dev.queueDrain_evo {d₀ : Dev} {s : Dev} {bad : List Nat} (ev : Evo true d₀ s) :
    Evo true d₀ (Dev.queueDrain s bad) := by
  unfold Dev.queueDrain
  repeat' first
    | with_reducible assumption
    | (extract_lets +onlyGivenNames z; refine Evo.cut (p := Evo true d₀ z) ?_ (fun e1 => ?_); (on_goal 2 => clear_value z); (on_goal 1 => (unfold z; try clear z)))
    | (extract_lets +onlyGivenNames z; refine Evo.cut (p := Evo true d₀ z.1) ?_ (fun e1 => ?_); (on_goal 2 => clear_value z); (on_goal 1 => (unfold z; try clear z)))
    | extract_lets +onlyGivenNames z
    | with_reducible apply Dev.flushOffers_evo
    | with_reducible apply Dev.settleLogs_evo
    | with_reducible apply Dev.raise_evo
    | (with_reducible refine Evo.upd (by with_reducible assumption) ?_ ?_ ?_ ?_ ?_ ?_ ?_ ?_ ?_ ?_ <;> rfl)
    | split

theorem Dev.snap_evo {m₀ : Bool} {d₀ : Dev} {s : Dev} {pos : Nat} (ev : Evo m₀ d₀ s) :
    Evo m₀ d₀ (Dev.snap s pos) := by
  unfold Dev.snap
  repeat' first
    | with_reducible assumption
    | (extract_lets +onlyGivenNames z; refine Evo.cut (p := Evo m₀ d₀ z) ?_ (fun e1 => ?_); (on_goal 2 => clear_value z); (on_goal 1 => (unfold z; try clear z)))
    | (extract_lets +onlyGivenNames z; refine Evo.cut (p := Evo m₀ d₀ z.1) ?_ (fun e1 => ?_); (on_goal 2 => clear_value z); (on_goal 1 => (unfold z; try clear z)))
    | extract_lets +onlyGivenNames z
    | with_reducible apply Dev.setBits_evo
    | with_reducible apply Dev.settleLogs_evo
    | with_reducible apply Dev.wr_evo
    | with_reducible apply Dev.wrFrame_evo
    | split


end Sys2Proof.Machine
end

