-- ==== Sys2Proof/Laws/Ev/Tdc.lean ====
section
/-! SUPPORT. What the operations of Machine/Tdc.lean can do to the whole device. -/

namespace Sys2Proof.Machine

theorem Dev.slotResult_evo {m₀ : Bool} {d₀ : Dev} {s : Dev} {i : Nat} {m : Nat} {owner : Option Nat} {v : W} (ev : Evo m₀ d₀ s) :
    Evo m₀ d₀ (Dev.slotResult s i m owner v) := by
  unfold Dev.slotResult
  repeat' first
    | with_reducible assumption
    | with_reducible apply Dev.onSite_evo
    | (intro _; intros)
    | split

theorem Dev.chFlag_evo {m₀ : Bool} {d₀ : Dev} {s : Dev} {c : Nat} {bit : Nat} (ev : Evo m₀ d₀ s) :
    Evo m₀ d₀ (Dev.chFlag s c bit) := by
  unfold Dev.chFlag
  repeat' first
    | with_reducible assumption
    | with_reducible apply Dev.setBits_evo

theorem Dev.tdcPush_evo {m₀ : Bool} {d₀ : Dev} {s : Dev} {ch : Nat} {e : Stamp} (ev : Evo m₀ d₀ s) :
    Evo m₀ d₀ (Dev.tdcPush s ch e) := by
  unfold Dev.tdcPush
  repeat' first
    | with_reducible assumption
    | (extract_lets +onlyGivenNames z; refine Evo.cut (p := Evo m₀ d₀ z) ?_ (fun e1 => ?_); (on_goal 2 => clear_value z); (on_goal 1 => (unfold z; try clear z)))
    | (extract_lets +onlyGivenNames z; refine Evo.cut (p := Evo m₀ d₀ z.1) ?_ (fun e1 => ?_); (on_goal 2 => clear_value z); (on_goal 1 => (unfold z; try clear z)))
    | extract_lets +onlyGivenNames z
    | with_reducible apply Dev.setBits_evo
    | with_reducible apply Dev.wr_evo
    | with_reducible apply Dev.setTdc_evo
    | (with_reducible refine Evo.upd (by with_reducible assumption) ?_ ?_ ?_ ?_ ?_ ?_ ?_ ?_ ?_ ?_ <;> rfl)
    | split

theorem Dev.tdcEmpty_evo {m₀ : Bool} {d₀ : Dev} {s : Dev} {ch : Nat} (ev : Evo m₀ d₀ s) :
    Evo m₀ d₀ (Dev.tdcEmpty s ch) := by
  unfold Dev.tdcEmpty
  repeat' first
    | with_reducible assumption
    | with_reducible apply Dev.wr_evo

theorem Dev.tdcClose_evo {m₀ : Bool} {d₀ : Dev} {s : Dev} {ch : Nat} {c : Int} {v : W} {st : TdcState} (ev : Evo m₀ d₀ s) :
    Evo m₀ d₀ (Dev.tdcClose s ch c v st) := by
  unfold Dev.tdcClose
  repeat' first
    | with_reducible assumption
    | (extract_lets +onlyGivenNames z; refine Evo.cut (p := Evo m₀ d₀ z) ?_ (fun e1 => ?_); (on_goal 2 => clear_value z); (on_goal 1 => (unfold z; try clear z)))
    | (extract_lets +onlyGivenNames z; refine Evo.cut (p := Evo m₀ d₀ z.1) ?_ (fun e1 => ?_); (on_goal 2 => clear_value z); (on_goal 1 => (unfold z; try clear z)))
    | extract_lets +onlyGivenNames z
    | with_reducible apply Dev.setTdc_evo
    | with_reducible apply Mi.close_evo
    | with_reducible apply Dev.produce_evo
    | (with_reducible refine Evo.upd (by with_reducible assumption) ?_ ?_ ?_ ?_ ?_ ?_ ?_ ?_ ?_ ?_ <;> rfl)

theorem Dev.tdcKill_evo {m₀ : Bool} {d₀ : Dev} {s : Dev} {ch : Nat} (ev : Evo m₀ d₀ s) :
    Evo m₀ d₀ (Dev.tdcKill s ch) := by
  unfold Dev.tdcKill
  repeat' first
    | with_reducible assumption
    | (extract_lets +onlyGivenNames z; refine Evo.cut (p := Evo m₀ d₀ z) ?_ (fun e1 => ?_); (on_goal 2 => clear_value z); (on_goal 1 => (unfold z; try clear z)))
    | (extract_lets +onlyGivenNames z; refine Evo.cut (p := Evo m₀ d₀ z.1) ?_ (fun e1 => ?_); (on_goal 2 => clear_value z); (on_goal 1 => (unfold z; try clear z)))
    | extract_lets +onlyGivenNames z
    | with_reducible apply Dev.setTdc_evo
    | with_reducible apply Dev.chFlag_evo
    | with_reducible apply Dev.slotResult_evo
    | (with_reducible refine Evo.upd (by with_reducible assumption) ?_ ?_ ?_ ?_ ?_ ?_ ?_ ?_ ?_ ?_ <;> rfl)
    | split
    | clear_value *

theorem Dev.tdcFinish_evo {m₀ : Bool} {d₀ : Dev} {s : Dev} {ch : Nat} {c : Int} (ev : Evo m₀ d₀ s) :
    Evo m₀ d₀ (Dev.tdcFinish s ch c) := by
  unfold Dev.tdcFinish
  repeat' first
    | with_reducible assumption
    | with_reducible apply Dev.tdcClose_evo

theorem Dev.tdcCut_evo {m₀ : Bool} {d₀ : Dev} {s : Dev} {ch : Nat} (ev : Evo m₀ d₀ s) :
    Evo m₀ d₀ (Dev.tdcCut s ch) := by
  unfold Dev.tdcCut
  repeat' first
    | with_reducible assumption
    | (extract_lets +onlyGivenNames z; refine Evo.cut (p := Evo m₀ d₀ z) ?_ (fun e1 => ?_); (on_goal 2 => clear_value z); (on_goal 1 => (unfold z; try clear z)))
    | (extract_lets +onlyGivenNames z; refine Evo.cut (p := Evo m₀ d₀ z.1) ?_ (fun e1 => ?_); (on_goal 2 => clear_value z); (on_goal 1 => (unfold z; try clear z)))
    | extract_lets +onlyGivenNames z
    | with_reducible apply Dev.tdcClose_evo
    | split

theorem Dev.tdcLost_evo {m₀ : Bool} {d₀ : Dev} {s : Dev} {ch : Nat} (ev : Evo m₀ d₀ s) :
    Evo m₀ d₀ (Dev.tdcLost s ch) := by
  unfold Dev.tdcLost
  repeat' first
    | with_reducible assumption
    | (extract_lets +onlyGivenNames z; refine Evo.cut (p := Evo m₀ d₀ z) ?_ (fun e1 => ?_); (on_goal 2 => clear_value z); (on_goal 1 => (unfold z; try clear z)))
    | (extract_lets +onlyGivenNames z; refine Evo.cut (p := Evo m₀ d₀ z.1) ?_ (fun e1 => ?_); (on_goal 2 => clear_value z); (on_goal 1 => (unfold z; try clear z)))
    | extract_lets +onlyGivenNames z
    | with_reducible apply Dev.chFlag_evo
    | with_reducible apply Dev.tdcClose_evo
    | split

theorem Dev.tdcBad_evo {m₀ : Bool} {d₀ : Dev} {s : Dev} {ch : Nat} {bit : Nat} {c : Int} (ev : Evo m₀ d₀ s) :
    Evo m₀ d₀ (Dev.tdcBad s ch bit c) := by
  unfold Dev.tdcBad
  repeat' first
    | with_reducible assumption
    | with_reducible apply Dev.setBits_evo
    | with_reducible apply Dev.tdcClose_evo

theorem Dev.attemptOver_evo {m₀ : Bool} {d₀ : Dev} {s : Dev} {ch : Nat} {c : Int} (ev : Evo m₀ d₀ s) :
    Evo m₀ d₀ (Dev.attemptOver s ch c) := by
  unfold Dev.attemptOver
  repeat' first
    | with_reducible assumption
    | (extract_lets +onlyGivenNames z; refine Evo.cut (p := Evo m₀ d₀ z) ?_ (fun e1 => ?_); (on_goal 2 => clear_value z); (on_goal 1 => (unfold z; try clear z)))
    | (extract_lets +onlyGivenNames z; refine Evo.cut (p := Evo m₀ d₀ z.1) ?_ (fun e1 => ?_); (on_goal 2 => clear_value z); (on_goal 1 => (unfold z; try clear z)))
    | extract_lets +onlyGivenNames z
    | with_reducible apply Dev.tdcFinish_evo
    | with_reducible apply Dev.setTdc_evo
    | (with_reducible refine Evo.upd (by with_reducible assumption) ?_ ?_ ?_ ?_ ?_ ?_ ?_ ?_ ?_ ?_ <;> rfl)
    | split

theorem Dev.acceptStop_evo {m₀ : Bool} {d₀ : Dev} {s : Dev} {ch : Nat} {t0 : Int} {k : KeptStop} (ev : Evo m₀ d₀ s) :
    Evo m₀ d₀ (Dev.acceptStop s ch t0 k) := by
  unfold Dev.acceptStop
  repeat' first
    | with_reducible assumption
    | (extract_lets +onlyGivenNames z; refine Evo.cut (p := Evo m₀ d₀ z) ?_ (fun e1 => ?_); (on_goal 2 => clear_value z); (on_goal 1 => (unfold z; try clear z)))
    | (extract_lets +onlyGivenNames z; refine Evo.cut (p := Evo m₀ d₀ z.1) ?_ (fun e1 => ?_); (on_goal 2 => clear_value z); (on_goal 1 => (unfold z; try clear z)))
    | extract_lets +onlyGivenNames z
    | with_reducible apply Dev.tdcPush_evo
    | with_reducible apply Dev.setBits_evo
    | with_reducible apply Dev.onTdc_evo
    | with_reducible apply Dev.attemptOver_evo
    | (intro _; intros)
    | (with_reducible refine Evo.upd (by with_reducible assumption) ?_ ?_ ?_ ?_ ?_ ?_ ?_ ?_ ?_ ?_ <;> rfl)
    | split

theorem Dev.missStop_evo {m₀ : Bool} {d₀ : Dev} {s : Dev} {ch : Nat} (ev : Evo m₀ d₀ s) :
    Evo m₀ d₀ (Dev.missStop s ch) := by
  unfold Dev.missStop
  repeat' first
    | with_reducible assumption
    | (extract_lets +onlyGivenNames z; refine Evo.cut (p := Evo m₀ d₀ z) ?_ (fun e1 => ?_); (on_goal 2 => clear_value z); (on_goal 1 => (unfold z; try clear z)))
    | (extract_lets +onlyGivenNames z; refine Evo.cut (p := Evo m₀ d₀ z.1) ?_ (fun e1 => ?_); (on_goal 2 => clear_value z); (on_goal 1 => (unfold z; try clear z)))
    | extract_lets +onlyGivenNames z
    | with_reducible apply Dev.tdcPush_evo
    | with_reducible apply Dev.setBits_evo
    | with_reducible apply Dev.onTdc_evo
    | with_reducible apply Dev.attemptOver_evo
    | (intro _; intros)
    | (with_reducible refine Evo.upd (by with_reducible assumption) ?_ ?_ ?_ ?_ ?_ ?_ ?_ ?_ ?_ ?_ <;> rfl)
    | split
    | clear_value *

theorem Dev.startAttempt_evo {m₀ : Bool} {d₀ : Dev} {s : Dev} {ch : Nat} {t : Int} {pol : Bool} (ev : Evo m₀ d₀ s) :
    Evo m₀ d₀ (Dev.startAttempt s ch t pol) := by
  unfold Dev.startAttempt
  repeat' first
    | with_reducible assumption
    | (extract_lets +onlyGivenNames z; refine Evo.cut (p := Evo m₀ d₀ z) ?_ (fun e1 => ?_); (on_goal 2 => clear_value z); (on_goal 1 => (unfold z; try clear z)))
    | (extract_lets +onlyGivenNames z; refine Evo.cut (p := Evo m₀ d₀ z.1) ?_ (fun e1 => ?_); (on_goal 2 => clear_value z); (on_goal 1 => (unfold z; try clear z)))
    | extract_lets +onlyGivenNames z
    | with_reducible apply Dev.tdcPush_evo
    | with_reducible apply Dev.setTdc_evo
    | with_reducible apply Dev.acceptStop_evo
    | (with_reducible refine Evo.upd (by with_reducible assumption) ?_ ?_ ?_ ?_ ?_ ?_ ?_ ?_ ?_ ?_ <;> rfl)
    | split
    | clear_value *

theorem Dev.discStop_evo {m₀ : Bool} {d₀ : Dev} {s : Dev} {ch : Nat} (ev : Evo m₀ d₀ s) :
    Evo m₀ d₀ (Dev.discStop s ch) := by
  unfold Dev.discStop
  repeat' first
    | with_reducible assumption
    | with_reducible apply Dev.incSat_evo

theorem Dev.keepStop_evo {m₀ : Bool} {d₀ : Dev} {s : Dev} {ch : Nat} {k : KeptStop} (ev : Evo m₀ d₀ s) :
    Evo m₀ d₀ (Dev.keepStop s ch k) := by
  unfold Dev.keepStop
  repeat' first
    | with_reducible assumption
    | with_reducible apply Dev.onTdc_evo
    | (intro _; intros)
    | (with_reducible refine Evo.upd (by with_reducible assumption) ?_ ?_ ?_ ?_ ?_ ?_ ?_ ?_ ?_ ?_ <;> rfl)
    | split

theorem Dev.stopEdge_evo {m₀ : Bool} {d₀ : Dev} {s : Dev} {ch : Nat} {t : Int} {pol : Bool} (ev : Evo m₀ d₀ s) :
    Evo m₀ d₀ (Dev.stopEdge s ch t pol) := by
  unfold Dev.stopEdge
  repeat' first
    | with_reducible assumption
    | (extract_lets +onlyGivenNames z; refine Evo.cut (p := Evo m₀ d₀ z) ?_ (fun e1 => ?_); (on_goal 2 => clear_value z); (on_goal 1 => (unfold z; try clear z)))
    | (extract_lets +onlyGivenNames z; refine Evo.cut (p := Evo m₀ d₀ z.1) ?_ (fun e1 => ?_); (on_goal 2 => clear_value z); (on_goal 1 => (unfold z; try clear z)))
    | extract_lets +onlyGivenNames z
    | with_reducible apply Dev.keepStop_evo
    | with_reducible apply Dev.discStop_evo
    | with_reducible apply Dev.acceptStop_evo
    | (with_reducible refine Evo.upd (by with_reducible assumption) ?_ ?_ ?_ ?_ ?_ ?_ ?_ ?_ ?_ ?_ <;> rfl)
    | split
    | clear_value *

theorem Dev.missBefore_evo {m₀ : Bool} {d₀ : Dev} {s : Dev} {ch : Nat} {t : Int} (ev : Evo m₀ d₀ s) :
    Evo m₀ d₀ (Dev.missBefore s ch t) := by
  unfold Dev.missBefore
  repeat' first
    | with_reducible assumption
    | (extract_lets +onlyGivenNames z; refine Evo.cut (p := Evo m₀ d₀ z) ?_ (fun e1 => ?_); (on_goal 2 => clear_value z); (on_goal 1 => (unfold z; try clear z)))
    | (extract_lets +onlyGivenNames z; refine Evo.cut (p := Evo m₀ d₀ z.1) ?_ (fun e1 => ?_); (on_goal 2 => clear_value z); (on_goal 1 => (unfold z; try clear z)))
    | extract_lets +onlyGivenNames z
    | with_reducible apply Dev.missStop_evo
    | (with_reducible refine Evo.upd (by with_reducible assumption) ?_ ?_ ?_ ?_ ?_ ?_ ?_ ?_ ?_ ?_ <;> rfl)
    | split
    | clear_value *

theorem Dev.countedEdge_evo {m₀ : Bool} {d₀ : Dev} {s : Dev} {ch : Nat} {t : Int} {pol : Bool} (ev : Evo m₀ d₀ s) :
    Evo m₀ d₀ (Dev.countedEdge s ch t pol) := by
  unfold Dev.countedEdge
  repeat' first
    | with_reducible assumption
    | (extract_lets +onlyGivenNames z; refine Evo.cut (p := Evo m₀ d₀ z) ?_ (fun e1 => ?_); (on_goal 2 => clear_value z); (on_goal 1 => (unfold z; try clear z)))
    | (extract_lets +onlyGivenNames z; refine Evo.cut (p := Evo m₀ d₀ z.1) ?_ (fun e1 => ?_); (on_goal 2 => clear_value z); (on_goal 1 => (unfold z; try clear z)))
    | extract_lets +onlyGivenNames z
    | with_reducible apply Dev.tdcPush_evo
    | with_reducible apply Dev.onTdc_evo
    | with_reducible apply Dev.setTdc_evo
    | with_reducible apply Dev.tdcFinish_evo
    | (intro _; intros)
    | (with_reducible refine Evo.upd (by with_reducible assumption) ?_ ?_ ?_ ?_ ?_ ?_ ?_ ?_ ?_ ?_ <;> rfl)
    | split
    | clear_value *

theorem Dev.startEdge_evo {m₀ : Bool} {d₀ : Dev} {s : Dev} {ch : Nat} {t : Int} {pol : Bool} (ev : Evo m₀ d₀ s) :
    Evo m₀ d₀ (Dev.startEdge s ch t pol) := by
  unfold Dev.startEdge
  repeat' first
    | with_reducible assumption
    | (extract_lets +onlyGivenNames z; refine Evo.cut (p := Evo m₀ d₀ z) ?_ (fun e1 => ?_); (on_goal 2 => clear_value z); (on_goal 1 => (unfold z; try clear z)))
    | (extract_lets +onlyGivenNames z; refine Evo.cut (p := Evo m₀ d₀ z.1) ?_ (fun e1 => ?_); (on_goal 2 => clear_value z); (on_goal 1 => (unfold z; try clear z)))
    | extract_lets +onlyGivenNames z
    | with_reducible apply Dev.setTdc_evo
    | with_reducible apply Dev.tdcBad_evo
    | with_reducible apply Dev.onTdc_evo
    | with_reducible apply Dev.startAttempt_evo
    | with_reducible apply Dev.countedEdge_evo
    | (intro _; intros)
    | (with_reducible refine Evo.upd (by with_reducible assumption) ?_ ?_ ?_ ?_ ?_ ?_ ?_ ?_ ?_ ?_ <;> rfl)
    | split

theorem Dev.tdcInput_evo {m₀ : Bool} {d₀ : Dev} {s : Dev} {ch : Nat} {src : Nat} {t : Int} {pol : Bool} (ev : Evo m₀ d₀ s) :
    Evo m₀ d₀ (Dev.tdcInput s ch src t pol) := by
  unfold Dev.tdcInput
  repeat' first
    | with_reducible assumption
    | (extract_lets +onlyGivenNames z; refine Evo.cut (p := Evo m₀ d₀ z) ?_ (fun e1 => ?_); (on_goal 2 => clear_value z); (on_goal 1 => (unfold z; try clear z)))
    | (extract_lets +onlyGivenNames z; refine Evo.cut (p := Evo m₀ d₀ z.1) ?_ (fun e1 => ?_); (on_goal 2 => clear_value z); (on_goal 1 => (unfold z; try clear z)))
    | extract_lets +onlyGivenNames z
    | with_reducible apply Dev.missBefore_evo
    | with_reducible apply Dev.startEdge_evo
    | with_reducible apply Dev.keepStop_evo
    | with_reducible apply Dev.stopEdge_evo
    | split

theorem Dev.tdcEdgeIn_evo {m₀ : Bool} {d₀ : Dev} {s : Dev} {ch : Nat} {src : Nat} {t : Int} (ev : Evo m₀ d₀ s) :
    Evo m₀ d₀ (Dev.tdcEdgeIn s ch src t) := by
  unfold Dev.tdcEdgeIn
  repeat' first
    | with_reducible assumption
    | (extract_lets +onlyGivenNames z; refine Evo.cut (p := Evo m₀ d₀ z) ?_ (fun e1 => ?_); (on_goal 2 => clear_value z); (on_goal 1 => (unfold z; try clear z)))
    | (extract_lets +onlyGivenNames z; refine Evo.cut (p := Evo m₀ d₀ z.1) ?_ (fun e1 => ?_); (on_goal 2 => clear_value z); (on_goal 1 => (unfold z; try clear z)))
    | extract_lets +onlyGivenNames z
    | with_reducible apply Dev.tdcInput_evo
    | with_reducible apply Dev.draw_evo
    | (with_reducible refine Evo.upd (by with_reducible assumption) ?_ ?_ ?_ ?_ ?_ ?_ ?_ ?_ ?_ ?_ <;> rfl)
    | split
    | clear_value *

theorem Dev.tdcOpenAt_evo {m₀ : Bool} {d₀ : Dev} {s : Dev} {ch : Nat} {q : Nat} {mode : Nat} {pre : Nat} {prof : Nat} {slot : Option (Nat × Nat × Option Nat)} (ev : Evo m₀ d₀ s) :
    Evo m₀ d₀ (Dev.tdcOpenAt s ch q mode pre prof slot) := by
  unfold Dev.tdcOpenAt
  repeat' first
    | with_reducible assumption
    | (extract_lets +onlyGivenNames z; refine Evo.cut (p := Evo m₀ d₀ z) ?_ (fun e1 => ?_); (on_goal 2 => clear_value z); (on_goal 1 => (unfold z; try clear z)))
    | (extract_lets +onlyGivenNames z; refine Evo.cut (p := Evo m₀ d₀ z.1) ?_ (fun e1 => ?_); (on_goal 2 => clear_value z); (on_goal 1 => (unfold z; try clear z)))
    | extract_lets +onlyGivenNames z
    | with_reducible apply Dev.tdcEmpty_evo
    | with_reducible apply Dev.setTdc_evo
    | with_reducible apply Mi.close_evo
    | (intro _; intros)
    | (with_reducible refine Evo.upd (by with_reducible assumption) ?_ ?_ ?_ ?_ ?_ ?_ ?_ ?_ ?_ ?_ <;> rfl)

theorem Dev.tdcWrite_evo {m₀ : Bool} {d₀ : Dev} {s : Dev} {ch : Nat} (ev : Evo m₀ d₀ s) :
    Evo m₀ d₀ (Dev.tdcWrite s ch) := by
  unfold Dev.tdcWrite
  repeat' first
    | with_reducible assumption
    | (extract_lets +onlyGivenNames z; refine Evo.cut (p := Evo m₀ d₀ z) ?_ (fun e1 => ?_); (on_goal 2 => clear_value z); (on_goal 1 => (unfold z; try clear z)))
    | (extract_lets +onlyGivenNames z; refine Evo.cut (p := Evo m₀ d₀ z.1) ?_ (fun e1 => ?_); (on_goal 2 => clear_value z); (on_goal 1 => (unfold z; try clear z)))
    | extract_lets +onlyGivenNames z
    | with_reducible apply Mi.close_evo
    | with_reducible apply Dev.setTdc_evo
    | with_reducible apply Dev.wr_evo
    | with_reducible apply Dev.slotResult_evo
    | with_reducible apply Evo.forL
    | (intro _; intros)
    | (with_reducible refine Evo.upd (by with_reducible assumption) ?_ ?_ ?_ ?_ ?_ ?_ ?_ ?_ ?_ ?_ <;> rfl)
    | split
    | clear_value *

theorem Dev.tdcMaxt_evo {m₀ : Bool} {d₀ : Dev} {s : Dev} {ch : Nat} (ev : Evo m₀ d₀ s) :
    Evo m₀ d₀ (Dev.tdcMaxt s ch) := by
  unfold Dev.tdcMaxt
  repeat' first
    | with_reducible assumption
    | (extract_lets +onlyGivenNames z; refine Evo.cut (p := Evo m₀ d₀ z) ?_ (fun e1 => ?_); (on_goal 2 => clear_value z); (on_goal 1 => (unfold z; try clear z)))
    | (extract_lets +onlyGivenNames z; refine Evo.cut (p := Evo m₀ d₀ z.1) ?_ (fun e1 => ?_); (on_goal 2 => clear_value z); (on_goal 1 => (unfold z; try clear z)))
    | extract_lets +onlyGivenNames z
    | with_reducible apply Dev.setTdc_evo
    | with_reducible apply Dev.tdcCut_evo
    | (with_reducible refine Evo.upd (by with_reducible assumption) ?_ ?_ ?_ ?_ ?_ ?_ ?_ ?_ ?_ ?_ <;> rfl)
    | split

theorem Dev.tdcTick_evo {m₀ : Bool} {d₀ : Dev} {s : Dev} {n : Nat} (ev : Evo m₀ d₀ s) :
    Evo m₀ d₀ (Dev.tdcTick s n) := by
  unfold Dev.tdcTick
  repeat' first
    | with_reducible assumption
    | (extract_lets +onlyGivenNames z; refine Evo.cut (p := Evo m₀ d₀ z) ?_ (fun e1 => ?_); (on_goal 2 => clear_value z); (on_goal 1 => (unfold z; try clear z)))
    | (extract_lets +onlyGivenNames z; refine Evo.cut (p := Evo m₀ d₀ z.1) ?_ (fun e1 => ?_); (on_goal 2 => clear_value z); (on_goal 1 => (unfold z; try clear z)))
    | extract_lets +onlyGivenNames z
    | with_reducible apply Dev.onTdc_evo
    | with_reducible apply Dev.tdcMaxt_evo
    | with_reducible apply Dev.tdcWrite_evo
    | with_reducible apply Evo.forL
    | (intro _; intros)


end Sys2Proof.Machine
end

