-- ==== Sys2Proof/Laws/Ev/Chan.lean ====
section
/-! SUPPORT. What the operations of Machine/Chan.lean can do to the whole device. -/

namespace Sys2Proof.Machine

theorem Dev.setFunc_evo {m₀ : Bool} {d₀ : Dev} {s : Dev} {fn : Nat} {range : Nat} {v : W} {p : Nat} (ev : Evo m₀ d₀ s) :
    Evo m₀ d₀ (Dev.setFunc s fn range v p) := by
  unfold Dev.setFunc
  repeat' first
    | with_reducible assumption
    | (extract_lets +onlyGivenNames z; refine Evo.cut (p := Evo m₀ d₀ z) ?_ (fun e1 => ?_); (on_goal 2 => clear_value z); (on_goal 1 => (unfold z; try clear z)))
    | (extract_lets +onlyGivenNames z; refine Evo.cut (p := Evo m₀ d₀ z.1) ?_ (fun e1 => ?_); (on_goal 2 => clear_value z); (on_goal 1 => (unfold z; try clear z)))
    | extract_lets +onlyGivenNames z
    | with_reducible apply Dev.wr_evo
    | split

theorem Dev.freeFollower_evo {m₀ : Bool} {d₀ : Dev} {s : Dev} {p : Nat} (ev : Evo m₀ d₀ s) :
    Evo m₀ d₀ (Dev.freeFollower s p) := by
  unfold Dev.freeFollower
  repeat' first
    | with_reducible assumption
    | with_reducible apply Dev.setFunc_evo
    | with_reducible apply Dev.onCirc_evo
    | (intro _; intros)
    | (with_reducible refine Evo.upd (by with_reducible assumption) ?_ ?_ ?_ ?_ ?_ ?_ ?_ ?_ ?_ ?_ <;> rfl)

theorem Dev.releaseGang_evo {m₀ : Bool} {d₀ : Dev} {s : Dev} {p : Nat} (ev : Evo m₀ d₀ s) :
    Evo m₀ d₀ (Dev.releaseGang s p) := by
  unfold Dev.releaseGang
  repeat' first
    | with_reducible assumption
    | (extract_lets +onlyGivenNames z; refine Evo.cut (p := Evo m₀ d₀ z) ?_ (fun e1 => ?_); (on_goal 2 => clear_value z); (on_goal 1 => (unfold z; try clear z)))
    | (extract_lets +onlyGivenNames z; refine Evo.cut (p := Evo m₀ d₀ z.1) ?_ (fun e1 => ?_); (on_goal 2 => clear_value z); (on_goal 1 => (unfold z; try clear z)))
    | extract_lets +onlyGivenNames z
    | with_reducible apply Dev.onCirc_evo
    | with_reducible apply Dev.freeFollower_evo
    | with_reducible apply Evo.forL
    | (intro _; intros)
    | (with_reducible refine Evo.upd (by with_reducible assumption) ?_ ?_ ?_ ?_ ?_ ?_ ?_ ?_ ?_ ?_ <;> rfl)
    | split
    | clear_value *

theorem Dev.copyCard_evo {m₀ : Bool} {d₀ : Dev} {s : Dev} {p : Nat} {r : Nat} {o : Nat} (ev : Evo m₀ d₀ s) :
    Evo m₀ d₀ (Dev.copyCard s p r o) := by
  unfold Dev.copyCard
  repeat' first
    | with_reducible assumption
    | with_reducible apply Dev.wr_evo

theorem Dev.copySlew_evo {m₀ : Bool} {d₀ : Dev} {s : Dev} {p : Nat} {r : Nat} (ev : Evo m₀ d₀ s) :
    Evo m₀ d₀ (Dev.copySlew s p r) := by
  unfold Dev.copySlew
  repeat' first
    | with_reducible assumption
    | with_reducible apply Dev.setFld_evo

theorem Dev.formGang_evo {m₀ : Bool} {d₀ : Dev} {s : Dev} {p : Nat} {mask : Nat} (ev : Evo m₀ d₀ s) :
    Evo m₀ d₀ (Dev.formGang s p mask) := by
  unfold Dev.formGang
  repeat' first
    | with_reducible assumption
    | (extract_lets +onlyGivenNames z; refine Evo.cut (p := Evo m₀ d₀ z) ?_ (fun e1 => ?_); (on_goal 2 => clear_value z); (on_goal 1 => (unfold z; try clear z)))
    | (extract_lets +onlyGivenNames z; refine Evo.cut (p := Evo m₀ d₀ z.1) ?_ (fun e1 => ?_); (on_goal 2 => clear_value z); (on_goal 1 => (unfold z; try clear z)))
    | extract_lets +onlyGivenNames z
    | with_reducible apply Dev.releaseGang_evo
    | with_reducible apply Dev.setFunc_evo
    | with_reducible apply Dev.copyCard_evo
    | with_reducible apply Dev.copySlew_evo
    | with_reducible apply Dev.onCirc_evo
    | with_reducible apply Evo.forL
    | (intro _; intros)
    | (with_reducible refine Evo.upd (by with_reducible assumption) ?_ ?_ ?_ ?_ ?_ ?_ ?_ ?_ ?_ ?_ <;> rfl)
    | split

theorem applyLevel_evo {m₀ : Bool} {d₀ : Dev} {lvl : Nat} {v : W} {p : Nat} {s : Dev} (ev : Evo m₀ d₀ s) :
    Evo m₀ d₀ (applyLevel lvl v p s) := by
  unfold applyLevel
  repeat' first
    | with_reducible assumption
    | with_reducible apply Dev.wr_evo

theorem applyEdge_evo {m₀ : Bool} {d₀ : Dev} {ts : Nat} {edge : Nat} {pos : Nat} {p : Nat} {s : Dev} (ev : Evo m₀ d₀ s) :
    Evo m₀ d₀ (applyEdge ts edge pos p s) := by
  unfold applyEdge
  repeat' first
    | with_reducible assumption
    | with_reducible apply Dev.wr_evo

theorem applyForce_evo {d₀ : Dev} {i : Nat} {fn : Nat} {range : Nat} {v : W} {p : Nat} {s : Dev} (ev : Evo true d₀ s) :
    Evo true d₀ (applyForce i fn range v p s) := by
  unfold applyForce
  repeat' first
    | with_reducible assumption
    | with_reducible apply Dev.raise_evo
    | with_reducible apply Dev.setFunc_evo
    | with_reducible apply Evo.forL
    | (intro _; intros)
    | split

theorem applyWinset_evo {m₀ : Bool} {d₀ : Dev} {mode : Nat} {n : Nat} {hi : Nat} {lo : Nat} {p : Nat} {s : Dev} (ev : Evo m₀ d₀ s) :
    Evo m₀ d₀ (applyWinset mode n hi lo p s) := by
  unfold applyWinset
  repeat' first
    | with_reducible assumption
    | (extract_lets +onlyGivenNames z; refine Evo.cut (p := Evo m₀ d₀ z) ?_ (fun e1 => ?_); (on_goal 2 => clear_value z); (on_goal 1 => (unfold z; try clear z)))
    | (extract_lets +onlyGivenNames z; refine Evo.cut (p := Evo m₀ d₀ z.1) ?_ (fun e1 => ?_); (on_goal 2 => clear_value z); (on_goal 1 => (unfold z; try clear z)))
    | extract_lets +onlyGivenNames z
    | with_reducible apply Dev.wr_evo
    | with_reducible apply Dev.onWeir_evo
    | (intro _; intros)
    | (with_reducible refine Evo.upd (by with_reducible assumption) ?_ ?_ ?_ ?_ ?_ ?_ ?_ ?_ ?_ ?_ <;> rfl)

theorem Dev.applyMeas_evo {m₀ : Bool} {d₀ s : Dev} {i slot t kind ap : Nat} {owner : Option Nat} (ev : Evo m₀ d₀ s) :
    Evo m₀ d₀ (s.applyMeas i slot t kind ap owner) := by
  unfold Dev.applyMeas
  split
  · exact ev
  · exact Dev.onCirc_evo (Dev.onChain_evo (Evo.updCircs ev))

theorem Dev.convDone_evo {m₀ : Bool} {d₀ : Dev} {s : Dev} {c : Nat} {r : Reading} (ev : Evo m₀ d₀ s) :
    Evo m₀ d₀ (Dev.convDone s c r) := by
  unfold Dev.convDone
  repeat' first
    | with_reducible assumption
    | (extract_lets +onlyGivenNames z; refine Evo.cut (p := Evo m₀ d₀ z) ?_ (fun e1 => ?_); (on_goal 2 => clear_value z); (on_goal 1 => (unfold z; try clear z)))
    | (extract_lets +onlyGivenNames z; refine Evo.cut (p := Evo m₀ d₀ z.1) ?_ (fun e1 => ?_); (on_goal 2 => clear_value z); (on_goal 1 => (unfold z; try clear z)))
    | extract_lets +onlyGivenNames z
    | with_reducible apply Dev.onCirc_evo
    | with_reducible apply Dev.chFlag_evo
    | (intro _; intros)
    | (with_reducible refine Evo.upd (by with_reducible assumption) ?_ ?_ ?_ ?_ ?_ ?_ ?_ ?_ ?_ ?_ <;> rfl)
    | split
    | clear_value *

theorem Dev.measWrite_evo {m₀ : Bool} {d₀ : Dev} {s : Dev} {c : Nat} {m : Meas} (ev : Evo m₀ d₀ s) :
    Evo m₀ d₀ (Dev.measWrite s c m) := by
  unfold Dev.measWrite
  repeat' first
    | with_reducible assumption
    | (extract_lets +onlyGivenNames z; refine Evo.cut (p := Evo m₀ d₀ z) ?_ (fun e1 => ?_); (on_goal 2 => clear_value z); (on_goal 1 => (unfold z; try clear z)))
    | (extract_lets +onlyGivenNames z; refine Evo.cut (p := Evo m₀ d₀ z.1) ?_ (fun e1 => ?_); (on_goal 2 => clear_value z); (on_goal 1 => (unfold z; try clear z)))
    | extract_lets +onlyGivenNames z
    | with_reducible apply Dev.onCirc_evo
    | with_reducible apply Dev.chFlag_evo
    | with_reducible apply Dev.slotResult_evo
    | with_reducible apply Dev.draw_evo
    | (intro _; intros)
    | (with_reducible refine Evo.upd (by with_reducible assumption) ?_ ?_ ?_ ?_ ?_ ?_ ?_ ?_ ?_ ?_ <;> rfl)
    | split
    | clear_value *

theorem Dev.measKill_evo {m₀ : Bool} {d₀ : Dev} {s : Dev} {c : Nat} (ev : Evo m₀ d₀ s) :
    Evo m₀ d₀ (Dev.measKill s c) := by
  unfold Dev.measKill
  repeat' first
    | with_reducible assumption
    | (extract_lets +onlyGivenNames z; refine Evo.cut (p := Evo m₀ d₀ z) ?_ (fun e1 => ?_); (on_goal 2 => clear_value z); (on_goal 1 => (unfold z; try clear z)))
    | (extract_lets +onlyGivenNames z; refine Evo.cut (p := Evo m₀ d₀ z.1) ?_ (fun e1 => ?_); (on_goal 2 => clear_value z); (on_goal 1 => (unfold z; try clear z)))
    | extract_lets +onlyGivenNames z
    | with_reducible apply Dev.onCirc_evo
    | with_reducible apply Dev.chFlag_evo
    | with_reducible apply Dev.slotResult_evo
    | (intro _; intros)
    | (with_reducible refine Evo.upd (by with_reducible assumption) ?_ ?_ ?_ ?_ ?_ ?_ ?_ ?_ ?_ ?_ <;> rfl)
    | split
    | clear_value *

theorem Dev.measTick_evo {m₀ : Bool} {d₀ : Dev} {s : Dev} {c : Nat} (ev : Evo m₀ d₀ s) :
    Evo m₀ d₀ (Dev.measTick s c) := by
  unfold Dev.measTick
  repeat' first
    | with_reducible assumption
    | with_reducible apply Dev.measWrite_evo
    | with_reducible apply Dev.onCirc_evo
    | (intro _; intros)
    | (with_reducible refine Evo.upd (by with_reducible assumption) ?_ ?_ ?_ ?_ ?_ ?_ ?_ ?_ ?_ ?_ <;> rfl)
    | split
    | clear_value *

theorem Dev.measYield_evo {m₀ : Bool} {d₀ : Dev} {s : Dev} (ev : Evo m₀ d₀ s) :
    Evo m₀ d₀ (Dev.measYield s) := by
  unfold Dev.measYield
  repeat' first
    | with_reducible assumption
    | (intro _; intros)
    | (with_reducible refine Evo.upd (by with_reducible assumption) ?_ ?_ ?_ ?_ ?_ ?_ ?_ ?_ ?_ ?_ <;> rfl)
    | (with_reducible refine Evo.updCircs (by with_reducible assumption))
    | split

theorem Dev.measTicksAll_evo {m₀ : Bool} {d₀ : Dev} {s : Dev} (ev : Evo m₀ d₀ s) :
    Evo m₀ d₀ (Dev.measTicksAll s) := by
  unfold Dev.measTicksAll
  repeat' first
    | with_reducible assumption
    | (extract_lets +onlyGivenNames z; refine Evo.cut (p := Evo m₀ d₀ z) ?_ (fun e1 => ?_); (on_goal 2 => clear_value z); (on_goal 1 => (unfold z; try clear z)))
    | (extract_lets +onlyGivenNames z; refine Evo.cut (p := Evo m₀ d₀ z.1) ?_ (fun e1 => ?_); (on_goal 2 => clear_value z); (on_goal 1 => (unfold z; try clear z)))
    | extract_lets +onlyGivenNames z
    | with_reducible apply Dev.measYield_evo
    | with_reducible apply Dev.measTick_evo
    | with_reducible apply Evo.forL
    | (intro _; intros)
    | split

theorem Dev.dpsScan_evo {m₀ : Bool} {d₀ : Dev} {s : Dev} {q : Nat} (ev : Evo m₀ d₀ s) :
    Evo m₀ d₀ (Dev.dpsScan s q) := by
  unfold Dev.dpsScan
  repeat' first
    | with_reducible assumption
    | (extract_lets +onlyGivenNames z; refine Evo.cut (p := Evo m₀ d₀ z) ?_ (fun e1 => ?_); (on_goal 2 => clear_value z); (on_goal 1 => (unfold z; try clear z)))
    | (extract_lets +onlyGivenNames z; refine Evo.cut (p := Evo m₀ d₀ z.1) ?_ (fun e1 => ?_); (on_goal 2 => clear_value z); (on_goal 1 => (unfold z; try clear z)))
    | extract_lets +onlyGivenNames z
    | with_reducible apply Dev.onCirc_evo
    | with_reducible apply Dev.setQuad_evo
    | with_reducible apply Evo.forL
    | (intro _; intros)
    | (with_reducible refine Evo.upd (by with_reducible assumption) ?_ ?_ ?_ ?_ ?_ ?_ ?_ ?_ ?_ ?_ <;> rfl)
    | split

theorem Dev.admitQuad_evo {m₀ : Bool} {d₀ : Dev} {s : Dev} {q : Nat} (ev : Evo m₀ d₀ s) :
    Evo m₀ d₀ (Dev.admitQuad s q) := by
  unfold Dev.admitQuad
  repeat' first
    | with_reducible assumption
    | (extract_lets +onlyGivenNames z; refine Evo.cut (p := Evo m₀ d₀ z) ?_ (fun e1 => ?_); (on_goal 2 => clear_value z); (on_goal 1 => (unfold z; try clear z)))
    | (extract_lets +onlyGivenNames z; refine Evo.cut (p := Evo m₀ d₀ z.1) ?_ (fun e1 => ?_); (on_goal 2 => clear_value z); (on_goal 1 => (unfold z; try clear z)))
    | extract_lets +onlyGivenNames z
    | with_reducible apply Dev.onCirc_evo
    | with_reducible apply Dev.setQuad_evo
    | with_reducible apply Evo.forL
    | (intro _; intros)
    | (with_reducible refine Evo.upd (by with_reducible assumption) ?_ ?_ ?_ ?_ ?_ ?_ ?_ ?_ ?_ ?_ <;> rfl)

theorem Dev.admitting_evo {m₀ : Bool} {d₀ s : Dev} {n : Nat} (ev : Evo m₀ d₀ s) : Evo m₀ d₀ (s.admitting n) := by
  induction n generalizing s with
  | zero => exact ev
  | succ n ih =>
    unfold Dev.admitting
    split
    · exact ev
    · exact ih (Dev.admitQuad_evo ev)

theorem Dev.queueDps_evo {m₀ : Bool} {d₀ s : Dev} (ev : Evo m₀ d₀ s) : Evo m₀ d₀ s.queueDps := by
  unfold Dev.queueDps
  extract_lets t s1
  have e1 : Evo m₀ d₀ s1 := Evo.forL ev (fun _ _ h => Evo.forL h (fun _ _ h => Dev.onCirc_evo h))
  exact Evo.updQuads e1

theorem Dev.dpsPhase_evo {m₀ : Bool} {d₀ : Dev} {s : Dev} (ev : Evo m₀ d₀ s) :
    Evo m₀ d₀ (Dev.dpsPhase s) := by
  unfold Dev.dpsPhase
  repeat' first
    | with_reducible assumption
    | with_reducible apply Dev.admitting_evo
    | with_reducible apply Dev.dpsScan_evo
    | with_reducible apply Dev.queueDps_evo
    | with_reducible apply Evo.forL
    | (intro _; intros)

theorem Dev.dpsTrip_evo {d₀ : Dev} {s : Dev} {c : Nat} (ev : Evo true d₀ s) :
    Evo true d₀ (Dev.dpsTrip s c) := by
  unfold Dev.dpsTrip
  repeat' first
    | with_reducible assumption
    | (extract_lets +onlyGivenNames z; refine Evo.cut (p := Evo true d₀ z) ?_ (fun e1 => ?_); (on_goal 2 => clear_value z); (on_goal 1 => (unfold z; try clear z)))
    | (extract_lets +onlyGivenNames z; refine Evo.cut (p := Evo true d₀ z.1) ?_ (fun e1 => ?_); (on_goal 2 => clear_value z); (on_goal 1 => (unfold z; try clear z)))
    | extract_lets +onlyGivenNames z
    | with_reducible apply Dev.setFunc_evo
    | with_reducible apply Dev.onCirc_evo
    | with_reducible apply Dev.chFlag_evo
    | with_reducible apply Dev.raise_evo
    | with_reducible apply Evo.forL
    | (intro _; intros)
    | (with_reducible refine Evo.upd (by with_reducible assumption) ?_ ?_ ?_ ?_ ?_ ?_ ?_ ?_ ?_ ?_ <;> rfl)
    | split
    | clear_value *

theorem Dev.currentLimit_evo {m₀ : Bool} {d₀ : Dev} {s : Dev} {c : Nat} {entering : Bool} (ev : Evo m₀ d₀ s) :
    Evo m₀ d₀ (Dev.currentLimit s c entering) := by
  unfold Dev.currentLimit
  repeat' first
    | with_reducible assumption
    | (extract_lets +onlyGivenNames z; refine Evo.cut (p := Evo m₀ d₀ z) ?_ (fun e1 => ?_); (on_goal 2 => clear_value z); (on_goal 1 => (unfold z; try clear z)))
    | (extract_lets +onlyGivenNames z; refine Evo.cut (p := Evo m₀ d₀ z.1) ?_ (fun e1 => ?_); (on_goal 2 => clear_value z); (on_goal 1 => (unfold z; try clear z)))
    | extract_lets +onlyGivenNames z
    | with_reducible apply Dev.onCirc_evo
    | with_reducible apply Dev.chFlag_evo
    | (intro _; intros)
    | (with_reducible refine Evo.upd (by with_reducible assumption) ?_ ?_ ?_ ?_ ?_ ?_ ?_ ?_ ?_ ?_ <;> rfl)
    | split

theorem Dev.pmuClamp_evo {m₀ : Bool} {d₀ : Dev} {s : Dev} {c : Nat} (ev : Evo m₀ d₀ s) :
    Evo m₀ d₀ (Dev.pmuClamp s c) := by
  unfold Dev.pmuClamp
  repeat' first
    | with_reducible assumption
    | with_reducible apply Dev.chFlag_evo
    | (intro _; intros)
    | (with_reducible refine Evo.upd (by with_reducible assumption) ?_ ?_ ?_ ?_ ?_ ?_ ?_ ?_ ?_ ?_ <;> rfl)
    | split
    | clear_value *

theorem Dev.dropout_evo {m₀ : Bool} {d₀ : Dev} {s : Dev} {x : DpsSample} (ev : Evo m₀ d₀ s) :
    Evo m₀ d₀ (Dev.dropout s x) := by
  unfold Dev.dropout
  repeat' first
    | with_reducible assumption
    | with_reducible apply Dev.chFlag_evo
    | (with_reducible refine Evo.upd (by with_reducible assumption) ?_ ?_ ?_ ?_ ?_ ?_ ?_ ?_ ?_ ?_ <;> rfl)
    | split
    | clear_value *


end Sys2Proof.Machine
end

