-- ==== Sys2Proof/Laws/Ev/Chain.lean ====
section
/-! SUPPORT. What the operations of Machine/Chain.lean can do to the whole device. -/

namespace Sys2Proof.Machine

theorem Dev.restartChain_evo {m₀ : Bool} {d₀ : Dev} {s : Dev} {c : Nat} (ev : Evo m₀ d₀ s) :
    Evo m₀ d₀ (Dev.restartChain s c) := by
  unfold Dev.restartChain
  repeat' first
    | with_reducible assumption
    | (extract_lets +onlyGivenNames z; refine Evo.cut (p := Evo m₀ d₀ z) ?_ (fun e1 => ?_); (on_goal 2 => clear_value z); (on_goal 1 => (unfold z; try clear z)))
    | (extract_lets +onlyGivenNames z; refine Evo.cut (p := Evo m₀ d₀ z.1) ?_ (fun e1 => ?_); (on_goal 2 => clear_value z); (on_goal 1 => (unfold z; try clear z)))
    | extract_lets +onlyGivenNames z
    | with_reducible apply Dev.setBits_evo
    | with_reducible apply Dev.onChain_evo

theorem Dev.moveOrigin_evo {m₀ : Bool} {d₀ : Dev} {s : Dev} (ev : Evo m₀ d₀ s) :
    Evo m₀ d₀ (Dev.moveOrigin s) := by
  unfold Dev.moveOrigin
  repeat' first
    | with_reducible assumption
    | (extract_lets +onlyGivenNames z; refine Evo.cut (p := Evo m₀ d₀ z) ?_ (fun e1 => ?_); (on_goal 2 => clear_value z); (on_goal 1 => (unfold z; try clear z)))
    | (extract_lets +onlyGivenNames z; refine Evo.cut (p := Evo m₀ d₀ z.1) ?_ (fun e1 => ?_); (on_goal 2 => clear_value z); (on_goal 1 => (unfold z; try clear z)))
    | extract_lets +onlyGivenNames z
    | with_reducible apply Dev.restartChain_evo
    | with_reducible apply Dev.onChain_evo
    | with_reducible apply Dev.wrFrame_evo
    | with_reducible apply Evo.forN
    | (intro _; intros)
    | (with_reducible refine Evo.upd (by with_reducible assumption) ?_ ?_ ?_ ?_ ?_ ?_ ?_ ?_ ?_ ?_ <;> rfl)

theorem Dev.recount_evo {m₀ : Bool} {d₀ : Dev} {s : Dev} {c : Nat} (ev : Evo m₀ d₀ s) :
    Evo m₀ d₀ (Dev.recount s c) := by
  unfold Dev.recount
  repeat' first
    | with_reducible assumption
    | with_reducible apply Dev.restartChain_evo
    | with_reducible apply Dev.onChain_evo
    | (intro _; intros)
    | (with_reducible refine Evo.upd (by with_reducible assumption) ?_ ?_ ?_ ?_ ?_ ?_ ?_ ?_ ?_ ?_ <;> rfl)

theorem Dev.acqEnd_evo {m₀ : Bool} {d₀ : Dev} {s : Dev} {q : Nat} {why : Nat} (ev : Evo m₀ d₀ s) :
    Evo m₀ d₀ (Dev.acqEnd s q why) := by
  unfold Dev.acqEnd
  repeat' first
    | with_reducible assumption
    | (extract_lets +onlyGivenNames z; refine Evo.cut (p := Evo m₀ d₀ z) ?_ (fun e1 => ?_); (on_goal 2 => clear_value z); (on_goal 1 => (unfold z; try clear z)))
    | (extract_lets +onlyGivenNames z; refine Evo.cut (p := Evo m₀ d₀ z.1) ?_ (fun e1 => ?_); (on_goal 2 => clear_value z); (on_goal 1 => (unfold z; try clear z)))
    | extract_lets +onlyGivenNames z
    | with_reducible apply Dev.onAcq_evo
    | with_reducible apply Dev.setBits_evo
    | with_reducible apply Dev.setFld_evo
    | (intro _; intros)
    | (with_reducible refine Evo.upd (by with_reducible assumption) ?_ ?_ ?_ ?_ ?_ ?_ ?_ ?_ ?_ ?_ <;> rfl)
    | split

theorem Dev.acqArmAt_evo {m₀ : Bool} {d₀ : Dev} {s : Dev} {q : Nat} {prof : Nat} {c : Nat} {post : Nat} (ev : Evo m₀ d₀ s) :
    Evo m₀ d₀ (Dev.acqArmAt s q prof c post) := by
  unfold Dev.acqArmAt
  repeat' first
    | with_reducible assumption
    | (extract_lets +onlyGivenNames z; refine Evo.cut (p := Evo m₀ d₀ z) ?_ (fun e1 => ?_); (on_goal 2 => clear_value z); (on_goal 1 => (unfold z; try clear z)))
    | (extract_lets +onlyGivenNames z; refine Evo.cut (p := Evo m₀ d₀ z.1) ?_ (fun e1 => ?_); (on_goal 2 => clear_value z); (on_goal 1 => (unfold z; try clear z)))
    | extract_lets +onlyGivenNames z
    | with_reducible apply Dev.setBits_evo
    | with_reducible apply Dev.setFld_evo
    | with_reducible apply Dev.acqEnd_evo
    | with_reducible apply Dev.setAcq_evo
    | with_reducible apply Dev.clrBits_evo
    | with_reducible apply Dev.wr_evo
    | (intro _; intros)
    | (with_reducible refine Evo.upd (by with_reducible assumption) ?_ ?_ ?_ ?_ ?_ ?_ ?_ ?_ ?_ ?_ <;> rfl)
    | split

theorem Dev.writeRecord_evo {m₀ : Bool} {d₀ : Dev} {s : Dev} {q : Nat} (ev : Evo m₀ d₀ s) :
    Evo m₀ d₀ (Dev.writeRecord s q) := by
  unfold Dev.writeRecord
  repeat' first
    | with_reducible assumption
    | (extract_lets +onlyGivenNames z; refine Evo.cut (p := Evo m₀ d₀ z) ?_ (fun e1 => ?_); (on_goal 2 => clear_value z); (on_goal 1 => (unfold z; try clear z)))
    | (extract_lets +onlyGivenNames z; refine Evo.cut (p := Evo m₀ d₀ z.1) ?_ (fun e1 => ?_); (on_goal 2 => clear_value z); (on_goal 1 => (unfold z; try clear z)))
    | extract_lets +onlyGivenNames z
    | with_reducible apply Dev.setWord_evo
    | with_reducible apply Dev.wr_evo
    | with_reducible apply Dev.setAcq_evo
    | (with_reducible refine Evo.upd (by with_reducible assumption) ?_ ?_ ?_ ?_ ?_ ?_ ?_ ?_ ?_ ?_ <;> rfl)
    | split

theorem Dev.acqTrigger_evo {m₀ : Bool} {d₀ : Dev} {s : Dev} {q : Nat} {pos : Nat} {cause : Nat} {o : Out} (ev : Evo m₀ d₀ s) :
    Evo m₀ d₀ (Dev.acqTrigger s q pos cause o) := by
  unfold Dev.acqTrigger
  repeat' first
    | with_reducible assumption
    | (extract_lets +onlyGivenNames z; refine Evo.cut (p := Evo m₀ d₀ z) ?_ (fun e1 => ?_); (on_goal 2 => clear_value z); (on_goal 1 => (unfold z; try clear z)))
    | (extract_lets +onlyGivenNames z; refine Evo.cut (p := Evo m₀ d₀ z.1) ?_ (fun e1 => ?_); (on_goal 2 => clear_value z); (on_goal 1 => (unfold z; try clear z)))
    | extract_lets +onlyGivenNames z
    | with_reducible apply Dev.setFld_evo
    | with_reducible apply Dev.wr_evo
    | with_reducible apply Dev.wrFrame_evo
    | with_reducible apply Dev.setAcq_evo
    | with_reducible apply Dev.produce_evo
    | (with_reducible refine Evo.upd (by with_reducible assumption) ?_ ?_ ?_ ?_ ?_ ?_ ?_ ?_ ?_ ?_ <;> rfl)
    | split

theorem Dev.acqFinish_evo {m₀ : Bool} {d₀ : Dev} {s : Dev} {q : Nat} {pos : Nat} (ev : Evo m₀ d₀ s) :
    Evo m₀ d₀ (Dev.acqFinish s q pos) := by
  unfold Dev.acqFinish
  repeat' first
    | with_reducible assumption
    | (extract_lets +onlyGivenNames z; refine Evo.cut (p := Evo m₀ d₀ z) ?_ (fun e1 => ?_); (on_goal 2 => clear_value z); (on_goal 1 => (unfold z; try clear z)))
    | (extract_lets +onlyGivenNames z; refine Evo.cut (p := Evo m₀ d₀ z.1) ?_ (fun e1 => ?_); (on_goal 2 => clear_value z); (on_goal 1 => (unfold z; try clear z)))
    | extract_lets +onlyGivenNames z
    | with_reducible apply Dev.setAcq_evo
    | with_reducible apply Dev.setBits_evo
    | with_reducible apply Dev.produce_evo
    | (with_reducible refine Evo.upd (by with_reducible assumption) ?_ ?_ ?_ ?_ ?_ ?_ ?_ ?_ ?_ ?_ <;> rfl)
    | split

theorem Dev.acqOutput_evo {m₀ : Bool} {d₀ : Dev} {s : Dev} {q : Nat} {pos : Nat} {o : Out} (ev : Evo m₀ d₀ s) :
    Evo m₀ d₀ (Dev.acqOutput s q pos o) := by
  unfold Dev.acqOutput
  repeat' first
    | with_reducible assumption
    | (extract_lets +onlyGivenNames z; refine Evo.cut (p := Evo m₀ d₀ z) ?_ (fun e1 => ?_); (on_goal 2 => clear_value z); (on_goal 1 => (unfold z; try clear z)))
    | (extract_lets +onlyGivenNames z; refine Evo.cut (p := Evo m₀ d₀ z.1) ?_ (fun e1 => ?_); (on_goal 2 => clear_value z); (on_goal 1 => (unfold z; try clear z)))
    | extract_lets +onlyGivenNames z
    | with_reducible apply Dev.acqFinish_evo
    | with_reducible apply Dev.setAcq_evo
    | with_reducible apply Dev.acqTrigger_evo
    | with_reducible apply Dev.onAcq_evo
    | with_reducible apply Dev.writeRecord_evo
    | (intro _; intros)
    | split

theorem Dev.measSample_evo {m₀ : Bool} {d₀ : Dev} {s : Dev} {c : Nat} {pos : Nat} {y : Option Int} (ev : Evo m₀ d₀ s) :
    Evo m₀ d₀ (Dev.measSample s c pos y) := by
  unfold Dev.measSample
  repeat' first
    | with_reducible assumption
    | (extract_lets +onlyGivenNames z; refine Evo.cut (p := Evo m₀ d₀ z) ?_ (fun e1 => ?_); (on_goal 2 => clear_value z); (on_goal 1 => (unfold z; try clear z)))
    | (extract_lets +onlyGivenNames z; refine Evo.cut (p := Evo m₀ d₀ z.1) ?_ (fun e1 => ?_); (on_goal 2 => clear_value z); (on_goal 1 => (unfold z; try clear z)))
    | extract_lets +onlyGivenNames z
    | with_reducible apply Dev.onCirc_evo
    | with_reducible apply Dev.onChain_evo
    | (intro _; intros)
    | (with_reducible refine Evo.upd (by with_reducible assumption) ?_ ?_ ?_ ?_ ?_ ?_ ?_ ?_ ?_ ?_ <;> rfl)
    | split
    | clear_value *

theorem Dev.toAcq_evo {m₀ : Bool} {d₀ : Dev} {s : Dev} {c : Nat} {pos : Nat} {o : Out} (ev : Evo m₀ d₀ s) :
    Evo m₀ d₀ (Dev.toAcq s c pos o) := by
  unfold Dev.toAcq
  repeat' first
    | with_reducible assumption
    | (extract_lets +onlyGivenNames z; refine Evo.cut (p := Evo m₀ d₀ z) ?_ (fun e1 => ?_); (on_goal 2 => clear_value z); (on_goal 1 => (unfold z; try clear z)))
    | (extract_lets +onlyGivenNames z; refine Evo.cut (p := Evo m₀ d₀ z.1) ?_ (fun e1 => ?_); (on_goal 2 => clear_value z); (on_goal 1 => (unfold z; try clear z)))
    | extract_lets +onlyGivenNames z
    | with_reducible apply Dev.acqOutput_evo
    | split

theorem Dev.chainOut_evo {m₀ : Bool} {d₀ : Dev} {s : Dev} {c : Nat} {pos : Nat} {h : Chain} {x : Int} {taken : Bool} {clip : Bool} {settled : Bool} (ev : Evo m₀ d₀ s) :
    Evo m₀ d₀ (Dev.chainOut s c pos h x taken clip settled) := by
  unfold Dev.chainOut
  repeat' first
    | with_reducible assumption
    | (extract_lets +onlyGivenNames z; refine Evo.cut (p := Evo m₀ d₀ z) ?_ (fun e1 => ?_); (on_goal 2 => clear_value z); (on_goal 1 => (unfold z; try clear z)))
    | (extract_lets +onlyGivenNames z; refine Evo.cut (p := Evo m₀ d₀ z.1) ?_ (fun e1 => ?_); (on_goal 2 => clear_value z); (on_goal 1 => (unfold z; try clear z)))
    | extract_lets +onlyGivenNames z
    | with_reducible apply Dev.setChain_evo
    | with_reducible apply Dev.setBits_evo
    | with_reducible apply Dev.measSample_evo
    | with_reducible apply Dev.toAcq_evo
    | (with_reducible refine Evo.upd (by with_reducible assumption) ?_ ?_ ?_ ?_ ?_ ?_ ?_ ?_ ?_ ?_ <;> rfl)
    | split

theorem Dev.adcSample_evo {m₀ : Bool} {d₀ : Dev} {s : Dev} {c : Nat} {pos : Nat} {code : BitVec 16} {clip : Bool} (ev : Evo m₀ d₀ s) :
    Evo m₀ d₀ (Dev.adcSample s c pos code clip) := by
  unfold Dev.adcSample
  repeat' first
    | with_reducible assumption
    | (extract_lets +onlyGivenNames z; refine Evo.cut (p := Evo m₀ d₀ z) ?_ (fun e1 => ?_); (on_goal 2 => clear_value z); (on_goal 1 => (unfold z; try clear z)))
    | (extract_lets +onlyGivenNames z; refine Evo.cut (p := Evo m₀ d₀ z.1) ?_ (fun e1 => ?_); (on_goal 2 => clear_value z); (on_goal 1 => (unfold z; try clear z)))
    | extract_lets +onlyGivenNames z
    | with_reducible apply Dev.setBits_evo
    | with_reducible apply Dev.chainOut_evo
    | with_reducible apply Dev.setChain_evo
    | with_reducible apply Dev.measSample_evo
    | (with_reducible refine Evo.upd (by with_reducible assumption) ?_ ?_ ?_ ?_ ?_ ?_ ?_ ?_ ?_ ?_ <;> rfl)
    | split

theorem Dev.firSwapAt_evo {m₀ : Bool} {d₀ : Dev} {s : Dev} {c : Nat} {xf : Nat} (ev : Evo m₀ d₀ s) :
    Evo m₀ d₀ (Dev.firSwapAt s c xf) := by
  unfold Dev.firSwapAt
  repeat' first
    | with_reducible assumption
    | (extract_lets +onlyGivenNames z; refine Evo.cut (p := Evo m₀ d₀ z) ?_ (fun e1 => ?_); (on_goal 2 => clear_value z); (on_goal 1 => (unfold z; try clear z)))
    | (extract_lets +onlyGivenNames z; refine Evo.cut (p := Evo m₀ d₀ z.1) ?_ (fun e1 => ?_); (on_goal 2 => clear_value z); (on_goal 1 => (unfold z; try clear z)))
    | extract_lets +onlyGivenNames z
    | with_reducible apply Dev.setChain_evo
    | with_reducible apply Dev.setBits_evo
    | (with_reducible refine Evo.upd (by with_reducible assumption) ?_ ?_ ?_ ?_ ?_ ?_ ?_ ?_ ?_ ?_ <;> rfl)
    | split

theorem Dev.acqCtl_evo {m₀ : Bool} {d₀ : Dev} {s : Dev} {q : Nat} {v : W} (ev : Evo m₀ d₀ s) :
    Evo m₀ d₀ (Dev.acqCtl s q v) := by
  unfold Dev.acqCtl
  repeat' first
    | with_reducible assumption
    | (extract_lets +onlyGivenNames z; refine Evo.cut (p := Evo m₀ d₀ z) ?_ (fun e1 => ?_); (on_goal 2 => clear_value z); (on_goal 1 => (unfold z; try clear z)))
    | (extract_lets +onlyGivenNames z; refine Evo.cut (p := Evo m₀ d₀ z.1) ?_ (fun e1 => ?_); (on_goal 2 => clear_value z); (on_goal 1 => (unfold z; try clear z)))
    | extract_lets +onlyGivenNames z
    | with_reducible apply Dev.acqEnd_evo
    | with_reducible apply Dev.acqArmAt_evo
    | with_reducible apply Dev.onAcq_evo
    | (intro _; intros)
    | (with_reducible refine Evo.upd (by with_reducible assumption) ?_ ?_ ?_ ?_ ?_ ?_ ?_ ?_ ?_ ?_ <;> rfl)
    | split
    | clear_value *

theorem Dev.syncAct_evo {m₀ : Bool} {d₀ : Dev} {s : Dev} (ev : Evo m₀ d₀ s) :
    Evo m₀ d₀ (Dev.syncAct s) := by
  unfold Dev.syncAct
  repeat' first
    | with_reducible assumption
    | (extract_lets +onlyGivenNames z; refine Evo.cut (p := Evo m₀ d₀ z) ?_ (fun e1 => ?_); (on_goal 2 => clear_value z); (on_goal 1 => (unfold z; try clear z)))
    | (extract_lets +onlyGivenNames z; refine Evo.cut (p := Evo m₀ d₀ z.1) ?_ (fun e1 => ?_); (on_goal 2 => clear_value z); (on_goal 1 => (unfold z; try clear z)))
    | extract_lets +onlyGivenNames z
    | with_reducible apply Dev.moveOrigin_evo
    | with_reducible apply Dev.setBits_evo
    | with_reducible apply Dev.acqEnd_evo
    | with_reducible apply Evo.forL
    | (intro _; intros)
    | split

theorem Dev.syncRequest_evo {m₀ : Bool} {d₀ : Dev} {s : Dev} {src : Nat} {pos : Nat} (ev : Evo m₀ d₀ s) :
    Evo m₀ d₀ (Dev.syncRequest s src pos) := by
  unfold Dev.syncRequest
  repeat' first
    | with_reducible assumption
    | (extract_lets +onlyGivenNames z; refine Evo.cut (p := Evo m₀ d₀ z) ?_ (fun e1 => ?_); (on_goal 2 => clear_value z); (on_goal 1 => (unfold z; try clear z)))
    | (extract_lets +onlyGivenNames z; refine Evo.cut (p := Evo m₀ d₀ z.1) ?_ (fun e1 => ?_); (on_goal 2 => clear_value z); (on_goal 1 => (unfold z; try clear z)))
    | extract_lets +onlyGivenNames z
    | with_reducible apply Dev.setBits_evo
    | with_reducible apply Dev.setFld_evo
    | (with_reducible refine Evo.upd (by with_reducible assumption) ?_ ?_ ?_ ?_ ?_ ?_ ?_ ?_ ?_ ?_ <;> rfl)
    | split


end Sys2Proof.Machine
end

