-- ==== Sys2Proof/Laws/Ev/Held.lean ====
section
/-! SUPPORT. What the operations of Machine/Held.lean can do to the whole device. -/

namespace Sys2Proof.Machine

theorem stepChunk1_evo {d₀ : Dev} {e : Nat} {s : Dev} {x : Ins} {i : Nat} (ev : Evo true d₀ s) :
    Evo true d₀ (stepChunk1 e s x i) := by
  unfold stepChunk1
  repeat' first
    | with_reducible assumption
    | with_reducible apply Dev.retire_evo
    | with_reducible apply Mi.retire_evo
    | with_reducible apply Dev.openStep_evo
    | split

theorem doStep_evo {d₀ : Dev} {e : Nat} {n : Option Nat} {s : Dev} {x : Ins} {i : Nat} (ev : Evo true d₀ s) :
    Evo true d₀ (doStep e n s x i) := by
  unfold doStep
  repeat' first
    | with_reducible assumption
    | with_reducible apply stepChunk1_evo
    | with_reducible apply Dev.trap_evo
    | with_reducible apply Mi.trap_evo
    | with_reducible apply Dev.yieldFor_evo
    | with_reducible apply Dev.endStep_evo
    | with_reducible apply Dev.onEng_evo
    | (intro _; intros)
    | split

theorem doLimit_evo {d₀ : Dev} {bad : Bool} {e : Nat} {s : Dev} {x : Ins} {i : Nat} (ev : Evo true d₀ s) :
    Evo true d₀ (doLimit bad e s x i) := by
  unfold doLimit
  repeat' first
    | with_reducible assumption
    | (extract_lets +onlyGivenNames z; refine Evo.cut (p := Evo true d₀ z) ?_ (fun e1 => ?_); (on_goal 2 => clear_value z); (on_goal 1 => (unfold z; try clear z)))
    | (extract_lets +onlyGivenNames z; refine Evo.cut (p := Evo true d₀ z.1) ?_ (fun e1 => ?_); (on_goal 2 => clear_value z); (on_goal 1 => (unfold z; try clear z)))
    | extract_lets +onlyGivenNames z
    | with_reducible apply Dev.check_evo
    | with_reducible apply Dev.setFlag_evo
    | with_reducible apply Dev.failStep_evo
    | with_reducible apply Dev.retire_evo
    | with_reducible apply Mi.retire_evo
    | split

theorem doBin_evo {d₀ : Dev} {e : Nat} {s : Dev} {x : Ins} {i : Nat} (ev : Evo true d₀ s) :
    Evo true d₀ (doBin e s x i) := by
  unfold doBin
  repeat' first
    | with_reducible assumption
    | with_reducible apply Dev.check_evo
    | with_reducible apply Dev.onSite_evo
    | with_reducible apply Dev.retire_evo
    | with_reducible apply Mi.retire_evo
    | (intro _; intros)
    | (with_reducible refine Evo.upd (by with_reducible assumption) ?_ ?_ ?_ ?_ ?_ ?_ ?_ ?_ ?_ ?_ <;> rfl)

theorem doLogf_evo {d₀ : Dev} {e : Nat} {s : Dev} {x : Ins} {i : Nat} (ev : Evo true d₀ s) :
    Evo true d₀ (doLogf e s x i) := by
  unfold doLogf
  repeat' first
    | with_reducible assumption
    | with_reducible apply Dev.check_evo
    | with_reducible apply Dev.stepFail_evo
    | with_reducible apply Dev.stepLog_evo
    | with_reducible apply Dev.retire_evo
    | with_reducible apply Mi.retire_evo
    | split

theorem doVoidh_evo {d₀ : Dev} {e : Nat} {s : Dev} {x : Ins} (ev : Evo true d₀ s) :
    Evo true d₀ (doVoidh e s x) := by
  unfold doVoidh
  repeat' first
    | with_reducible assumption
    | with_reducible apply Dev.check_evo
    | with_reducible apply Dev.setVoidh_evo
    | with_reducible apply Dev.retire_evo
    | with_reducible apply Mi.retire_evo

theorem doEmit_evo {d₀ : Dev} {e : Nat} {s : Dev} {x : Ins} {i : Nat} (ev : Evo true d₀ s) :
    Evo true d₀ (doEmit e s x i) := by
  unfold doEmit
  repeat' first
    | with_reducible assumption
    | with_reducible apply Dev.stageIns_evo
    | with_reducible apply Dev.check_evo
    | (with_reducible refine Evo.upd (by with_reducible assumption) ?_ ?_ ?_ ?_ ?_ ?_ ?_ ?_ ?_ ?_ <;> rfl)
    | split
    | clear_value *

theorem Dev.waitDone_evo {d₀ : Dev} {s : Dev} {e : Nat} {timedOut : Bool} (ev : Evo true d₀ s) :
    Evo true d₀ (Dev.waitDone s e timedOut) := by
  unfold Dev.waitDone
  repeat' first
    | with_reducible assumption
    | with_reducible apply Dev.onEng_evo
    | with_reducible apply Dev.setFlag_evo
    | with_reducible apply Dev.retire_evo
    | with_reducible apply Mi.retire_evo
    | (intro _; intros)
    | (with_reducible refine Evo.upd (by with_reducible assumption) ?_ ?_ ?_ ?_ ?_ ?_ ?_ ?_ ?_ ?_ <;> rfl)

theorem Dev.waitChunk_evo {d₀ : Dev} {s : Dev} {e : Nat} (ev : Evo true d₀ s) :
    Evo true d₀ (Dev.waitChunk s e) := by
  unfold Dev.waitChunk
  repeat' first
    | with_reducible assumption
    | (extract_lets +onlyGivenNames z; refine Evo.cut (p := Evo true d₀ z) ?_ (fun e1 => ?_); (on_goal 2 => clear_value z); (on_goal 1 => (unfold z; try clear z)))
    | (extract_lets +onlyGivenNames z; refine Evo.cut (p := Evo true d₀ z.1) ?_ (fun e1 => ?_); (on_goal 2 => clear_value z); (on_goal 1 => (unfold z; try clear z)))
    | extract_lets +onlyGivenNames z
    | with_reducible apply Dev.waitDone_evo
    | with_reducible apply Dev.onEng_evo
    | (intro _; intros)
    | (with_reducible refine Evo.upd (by with_reducible assumption) ?_ ?_ ?_ ?_ ?_ ?_ ?_ ?_ ?_ ?_ <;> rfl)
    | split

theorem doWaite_evo {d₀ : Dev} {e : Nat} {s : Dev} {x : Ins} {i : Nat} (ev : Evo true d₀ s) :
    Evo true d₀ (doWaite e s x i) := by
  unfold doWaite
  repeat' first
    | with_reducible assumption
    | with_reducible apply Dev.check_evo
    | with_reducible apply Dev.waitChunk_evo
    | with_reducible apply Dev.onEng_evo
    | (intro _; intros)
    | (with_reducible refine Evo.upd (by with_reducible assumption) ?_ ?_ ?_ ?_ ?_ ?_ ?_ ?_ ?_ ?_ <;> rfl)
    | split
    | clear_value *


end Sys2Proof.Machine
end

