-- ==== Sys2Proof/Laws/Ev/Sluice.lean ====
section
/-! SUPPORT. What the operations of Machine/Sluice.lean can do to the whole device. -/

namespace Sys2Proof.Machine

theorem Dev.engBit_evo {m₀ : Bool} {d₀ : Dev} {s : Dev} {o : Nat} {e : Nat} (ev : Evo m₀ d₀ s) :
    Evo m₀ d₀ (Dev.engBit s o e) := by
  unfold Dev.engBit
  repeat' first
    | with_reducible assumption
    | with_reducible apply Dev.setBits_evo

theorem Dev.flagLoop_evo {m₀ : Bool} {d₀ : Dev} {s : Dev} {c : Consumer} (ev : Evo m₀ d₀ s) :
    Evo m₀ d₀ (Dev.flagLoop s c) := by
  unfold Dev.flagLoop
  repeat' first
    | with_reducible assumption
    | with_reducible apply Dev.engBit_evo
    | with_reducible apply Dev.setBits_evo
    | with_reducible apply Dev.snap_evo
    | (with_reducible refine Evo.upd (by with_reducible assumption) ?_ ?_ ?_ ?_ ?_ ?_ ?_ ?_ ?_ ?_ <;> rfl)
    | split
    | clear_value *

theorem Dev.flagMerge_evo {m₀ : Bool} {d₀ : Dev} {s : Dev} {c : Consumer} (ev : Evo m₀ d₀ s) :
    Evo m₀ d₀ (Dev.flagMerge s c) := by
  unfold Dev.flagMerge
  repeat' first
    | with_reducible assumption
    | with_reducible apply Dev.engBit_evo
    | with_reducible apply Dev.setBits_evo
    | with_reducible apply Dev.snap_evo
    | (with_reducible refine Evo.upd (by with_reducible assumption) ?_ ?_ ?_ ?_ ?_ ?_ ?_ ?_ ?_ ?_ <;> rfl)
    | split
    | clear_value *

theorem Dev.setTbus_evo {m₀ : Bool} {d₀ : Dev} {s : Dev} {n : Nat} {x : Tbus} (ev : Evo m₀ d₀ s) :
    Evo m₀ d₀ (Dev.setTbus s n x) := by
  unfold Dev.setTbus
  repeat' first
    | with_reducible assumption
    | (intro _; intros)
    | (with_reducible refine Evo.upd (by with_reducible assumption) ?_ ?_ ?_ ?_ ?_ ?_ ?_ ?_ ?_ ?_ <;> rfl)

theorem Dev.flagBusy_evo {m₀ : Bool} {d₀ : Dev} {s : Dev} {c : Consumer} (ev : Evo m₀ d₀ s) :
    Evo m₀ d₀ (Dev.flagBusy s c) := by
  unfold Dev.flagBusy
  repeat' first
    | with_reducible assumption
    | with_reducible apply Dev.engBit_evo
    | with_reducible apply Dev.setBits_evo
    | with_reducible apply Dev.snap_evo
    | (with_reducible refine Evo.upd (by with_reducible assumption) ?_ ?_ ?_ ?_ ?_ ?_ ?_ ?_ ?_ ?_ <;> rfl)
    | split
    | clear_value *

theorem Dev.waitTakes_evo {d₀ : Dev} {s : Dev} {e : Nat} (ev : Evo true d₀ s) :
    Evo true d₀ (Dev.waitTakes s e) := by
  unfold Dev.waitTakes
  repeat' first
    | with_reducible assumption
    | (extract_lets +onlyGivenNames z; refine Evo.cut (p := Evo true d₀ z) ?_ (fun e1 => ?_); (on_goal 2 => clear_value z); (on_goal 1 => (unfold z; try clear z)))
    | (extract_lets +onlyGivenNames z; refine Evo.cut (p := Evo true d₀ z.1) ?_ (fun e1 => ?_); (on_goal 2 => clear_value z); (on_goal 1 => (unfold z; try clear z)))
    | extract_lets +onlyGivenNames z
    | with_reducible apply Dev.waitDone_evo
    | with_reducible apply Dev.setEng_evo
    | split

theorem Dev.act_evo {d₀ : Dev} {s : Dev} {c : Consumer} {d : Nat} {tag : Nat} {b : Block} (ev : Evo true d₀ s) :
    Evo true d₀ (Dev.act s c d tag b) := by
  unfold Dev.act
  repeat' first
    | with_reducible assumption
    | (extract_lets +onlyGivenNames z; refine Evo.cut (p := Evo true d₀ z) ?_ (fun e1 => ?_); (on_goal 2 => clear_value z); (on_goal 1 => (unfold z; try clear z)))
    | (extract_lets +onlyGivenNames z; refine Evo.cut (p := Evo true d₀ z.1) ?_ (fun e1 => ?_); (on_goal 2 => clear_value z); (on_goal 1 => (unfold z; try clear z)))
    | extract_lets +onlyGivenNames z
    | with_reducible apply Dev.waitTakes_evo
    | with_reducible apply Dev.draw_evo
    | with_reducible apply Dev.onTdc_evo
    | with_reducible apply Dev.startEdge_evo
    | with_reducible apply Dev.stopEdge_evo
    | with_reducible apply Dev.onAcq_evo
    | with_reducible apply Dev.snap_evo
    | with_reducible apply Dev.syncRequest_evo
    | with_reducible apply Dev.setTbus_evo
    | (intro _; intros)
    | (with_reducible refine Evo.upd (by with_reducible assumption) ?_ ?_ ?_ ?_ ?_ ?_ ?_ ?_ ?_ ?_ <;> rfl)
    | split
    | clear_value *

theorem Dev.consume_evo {d₀ : Dev} {s : Dev} {d : Nat} {fs : List Flight} {c : Consumer} (ev : Evo true d₀ s) :
    Evo true d₀ (Dev.consume s d fs c) := by
  unfold Dev.consume
  repeat' first
    | with_reducible assumption
    | (extract_lets +onlyGivenNames z; refine Evo.cut (p := Evo true d₀ z) ?_ (fun e1 => ?_); (on_goal 2 => clear_value z); (on_goal 1 => (unfold z; try clear z)))
    | (extract_lets +onlyGivenNames z; refine Evo.cut (p := Evo true d₀ z.1) ?_ (fun e1 => ?_); (on_goal 2 => clear_value z); (on_goal 1 => (unfold z; try clear z)))
    | extract_lets +onlyGivenNames z
    | with_reducible apply Mi.dest_evo
    | with_reducible apply Dev.flagLoop_evo
    | with_reducible apply Dev.flagMerge_evo
    | with_reducible apply Dev.flagBusy_evo
    | with_reducible apply Dev.act_evo
    | (intro _; intros)
    | (with_reducible refine Evo.upd (by with_reducible assumption) ?_ ?_ ?_ ?_ ?_ ?_ ?_ ?_ ?_ ?_ <;> rfl)
    | split
    | clear_value *

theorem Dev.deliverAt_evo {d₀ : Dev} {s : Dev} {d : Nat} {fs : List Flight} (ev : Evo true d₀ s) :
    Evo true d₀ (Dev.deliverAt s d fs) := by
  unfold Dev.deliverAt
  repeat' first
    | with_reducible assumption
    | (extract_lets +onlyGivenNames z; refine Evo.cut (p := Evo true d₀ z) ?_ (fun e1 => ?_); (on_goal 2 => clear_value z); (on_goal 1 => (unfold z; try clear z)))
    | (extract_lets +onlyGivenNames z; refine Evo.cut (p := Evo true d₀ z.1) ?_ (fun e1 => ?_); (on_goal 2 => clear_value z); (on_goal 1 => (unfold z; try clear z)))
    | extract_lets +onlyGivenNames z
    | with_reducible apply Dev.produce_evo
    | with_reducible apply Mi.dest_evo
    | with_reducible apply Dev.consume_evo
    | with_reducible apply Evo.forL
    | with_reducible apply Evo.foldl_fst
    | with_reducible apply Evo.foldl
    | (intro _; intros)
    | (with_reducible refine Evo.upd (by with_reducible assumption) ?_ ?_ ?_ ?_ ?_ ?_ ?_ ?_ ?_ ?_ <;> rfl)
    | split
    | clear_value *

theorem Dev.captureNext_evo {m₀ : Bool} {d₀ s : Dev} {n : Nat} (ev : Evo m₀ d₀ s) : Evo m₀ d₀ (s.captureNext n) := by
  induction n generalizing s with
  | zero => exact ev
  | succ n ih =>
    unfold Dev.captureNext
    repeat' first
      | with_reducible assumption
      | exact ih (Dev.capturesTo_evo ev)
      | split

theorem Dev.delivery_evo {d₀ : Dev} {s : Dev} (ev : Evo true d₀ s) :
    Evo true d₀ (Dev.delivery s) := by
  unfold Dev.delivery
  repeat' first
    | with_reducible assumption
    | (extract_lets +onlyGivenNames z; refine Evo.cut (p := Evo true d₀ z) ?_ (fun e1 => ?_); (on_goal 2 => clear_value z); (on_goal 1 => (unfold z; try clear z)))
    | (extract_lets +onlyGivenNames z; refine Evo.cut (p := Evo true d₀ z.1) ?_ (fun e1 => ?_); (on_goal 2 => clear_value z); (on_goal 1 => (unfold z; try clear z)))
    | extract_lets +onlyGivenNames z
    | with_reducible apply Dev.captureNext_evo
    | with_reducible apply Dev.capturesTo_evo
    | with_reducible apply Dev.deliverAt_evo
    | (intro _; intros)
    | (with_reducible refine Evo.upd (by with_reducible assumption) ?_ ?_ ?_ ?_ ?_ ?_ ?_ ?_ ?_ ?_ <;> rfl)
    | split
    | clear_value *

theorem Dev.tbusEdge_evo {m₀ : Bool} {d₀ : Dev} {s : Dev} {n : Nat} {pos : Nat} (ev : Evo m₀ d₀ s) :
    Evo m₀ d₀ (Dev.tbusEdge s n pos) := by
  unfold Dev.tbusEdge
  repeat' first
    | with_reducible assumption
    | (extract_lets +onlyGivenNames z; refine Evo.cut (p := Evo m₀ d₀ z) ?_ (fun e1 => ?_); (on_goal 2 => clear_value z); (on_goal 1 => (unfold z; try clear z)))
    | (extract_lets +onlyGivenNames z; refine Evo.cut (p := Evo m₀ d₀ z.1) ?_ (fun e1 => ?_); (on_goal 2 => clear_value z); (on_goal 1 => (unfold z; try clear z)))
    | extract_lets +onlyGivenNames z
    | with_reducible apply Dev.setTbus_evo
    | with_reducible apply Dev.produce_evo
    | (with_reducible refine Evo.upd (by with_reducible assumption) ?_ ?_ ?_ ?_ ?_ ?_ ?_ ?_ ?_ ?_ <;> rfl)
    | split
    | clear_value *

theorem Dev.slcPar_evo {d₀ : Dev} {s : Dev} {l : Line} (ev : Evo true d₀ s) :
    Evo true d₀ (Dev.slcPar s l) := by
  unfold Dev.slcPar
  repeat' first
    | with_reducible assumption
    | with_reducible apply Dev.setFld_evo
    | with_reducible apply Dev.raise_evo


end Sys2Proof.Machine
end

