-- ==== Sys2Proof/Laws/Ev/Nv.lean ====
section
/-! SUPPORT. What the operations of Machine/Nv.lean can do to the whole device. -/

namespace Sys2Proof.Machine

theorem Dev.requestSave_evo {m₀ : Bool} {d₀ : Dev} {s : Dev} {t : NvSet} {j : Option Job} (ev : Evo m₀ d₀ s) :
    Evo m₀ d₀ (Dev.requestSave s t j) := by
  unfold Dev.requestSave
  repeat' first
    | with_reducible assumption
    | (intro _; intros)
    | (with_reducible refine Evo.upd (by with_reducible assumption) ?_ ?_ ?_ ?_ ?_ ?_ ?_ ?_ ?_ ?_ <;> rfl)
    | split
    | clear_value *

theorem Dev.saveMap_evo {m₀ : Bool} {d₀ : Dev} {s : Dev} (ev : Evo m₀ d₀ s) :
    Evo m₀ d₀ (Dev.saveMap s) := by
  unfold Dev.saveMap
  repeat' first
    | with_reducible assumption
    | with_reducible apply Dev.requestSave_evo
    | with_reducible apply Dev.repair_evo

theorem Dev.fillSave_evo {m₀ : Bool} {d₀ : Dev} {s : Dev} {r : NvRun} (ev : Evo m₀ d₀ s) :
    Evo m₀ d₀ (Dev.fillSave s r) := by
  unfold Dev.fillSave
  repeat' first
    | with_reducible assumption
    | (extract_lets +onlyGivenNames z; refine Evo.cut (p := Evo m₀ d₀ z) ?_ (fun e1 => ?_); (on_goal 2 => clear_value z); (on_goal 1 => (unfold z; try clear z)))
    | (extract_lets +onlyGivenNames z; refine Evo.cut (p := Evo m₀ d₀ z.1) ?_ (fun e1 => ?_); (on_goal 2 => clear_value z); (on_goal 1 => (unfold z; try clear z)))
    | extract_lets +onlyGivenNames z
    | (with_reducible refine Evo.upd (by with_reducible assumption) ?_ ?_ ?_ ?_ ?_ ?_ ?_ ?_ ?_ ?_ <;> rfl)
    | split
    | clear_value *

theorem Dev.runSave_evo {m₀ : Bool} {d₀ : Dev} {s : Dev} {v : NvSave} (ev : Evo m₀ d₀ s) :
    Evo m₀ d₀ (Dev.runSave s v) := by
  unfold Dev.runSave
  repeat' first
    | with_reducible assumption
    | (extract_lets +onlyGivenNames z; refine Evo.cut (p := Evo m₀ d₀ z) ?_ (fun e1 => ?_); (on_goal 2 => clear_value z); (on_goal 1 => (unfold z; try clear z)))
    | (extract_lets +onlyGivenNames z; refine Evo.cut (p := Evo m₀ d₀ z.1) ?_ (fun e1 => ?_); (on_goal 2 => clear_value z); (on_goal 1 => (unfold z; try clear z)))
    | extract_lets +onlyGivenNames z
    | (with_reducible refine Evo.upd (by with_reducible assumption) ?_ ?_ ?_ ?_ ?_ ?_ ?_ ?_ ?_ ?_ <;> rfl)
    | split
    | clear_value *

theorem Dev.beginSave_evo {m₀ : Bool} {d₀ : Dev} {s : Dev} (ev : Evo m₀ d₀ s) :
    Evo m₀ d₀ (Dev.beginSave s) := by
  unfold Dev.beginSave
  repeat' first
    | with_reducible assumption
    | (extract_lets +onlyGivenNames z; refine Evo.cut (p := Evo m₀ d₀ z) ?_ (fun e1 => ?_); (on_goal 2 => clear_value z); (on_goal 1 => (unfold z; try clear z)))
    | (extract_lets +onlyGivenNames z; refine Evo.cut (p := Evo m₀ d₀ z.1) ?_ (fun e1 => ?_); (on_goal 2 => clear_value z); (on_goal 1 => (unfold z; try clear z)))
    | extract_lets +onlyGivenNames z
    | with_reducible apply Dev.runSave_evo
    | (intro _; intros)
    | (with_reducible refine Evo.upd (by with_reducible assumption) ?_ ?_ ?_ ?_ ?_ ?_ ?_ ?_ ?_ ?_ <;> rfl)
    | split
    | clear_value *

theorem Dev.flipSlot_evo {m₀ : Bool} {d₀ : Dev} {s : Dev} {n : Nat} (ev : Evo m₀ d₀ s) :
    Evo m₀ d₀ (Dev.flipSlot s n) := by
  unfold Dev.flipSlot
  repeat' first
    | with_reducible assumption
    | (intro _; intros)
    | (with_reducible refine Evo.upd (by with_reducible assumption) ?_ ?_ ?_ ?_ ?_ ?_ ?_ ?_ ?_ ?_ <;> rfl)
    | split

theorem Dev.calCount_evo {m₀ : Bool} {d₀ : Dev} {s : Dev} (ev : Evo m₀ d₀ s) : Evo m₀ d₀ (Dev.calCount s) := by
  unfold Dev.calCount
  exact Dev.setFld_evo ev

theorem Dev.inForce_evo {m₀ : Bool} {d₀ : Dev} {s : Dev} {t : NvSet} (ev : Evo m₀ d₀ s) :
    Evo m₀ d₀ (Dev.inForce s t) := by
  unfold Dev.inForce
  repeat' first
    | with_reducible assumption
    | (extract_lets +onlyGivenNames z; refine Evo.cut (p := Evo m₀ d₀ z) ?_ (fun e1 => ?_); (on_goal 2 => clear_value z); (on_goal 1 => (unfold z; try clear z)))
    | (extract_lets +onlyGivenNames z; refine Evo.cut (p := Evo m₀ d₀ z.1) ?_ (fun e1 => ?_); (on_goal 2 => clear_value z); (on_goal 1 => (unfold z; try clear z)))
    | extract_lets +onlyGivenNames z
    | with_reducible apply Dev.calCount_evo
    | with_reducible apply Dev.flipSlot_evo
    | with_reducible apply Evo.forN
    | (intro _; intros)
    | (with_reducible refine Evo.upd (by with_reducible assumption) ?_ ?_ ?_ ?_ ?_ ?_ ?_ ?_ ?_ ?_ <;> rfl)
    | split
    | clear_value *

theorem Dev.nvVerified_evo {d₀ : Dev} {s : Dev} {o : Nat} {v : W} {r : NvVerify} (ev : Evo true d₀ s) :
    Evo true d₀ (Dev.nvVerified s o v r).1 := by
  unfold Dev.nvVerified
  repeat' first
    | with_reducible assumption
    | (extract_lets +onlyGivenNames z; refine Evo.cut (p := Evo true d₀ z) ?_ (fun e1 => ?_); (on_goal 2 => clear_value z); (on_goal 1 => (unfold z; try clear z)))
    | (extract_lets +onlyGivenNames z; refine Evo.cut (p := Evo true d₀ z.1) ?_ (fun e1 => ?_); (on_goal 2 => clear_value z); (on_goal 1 => (unfold z; try clear z)))
    | extract_lets +onlyGivenNames z
    | with_reducible apply Dev.nvPut_evo
    | with_reducible apply Dev.raise_evo
    | with_reducible apply Dev.draw_evo
    | with_reducible apply Dev.note_evo
    | (with_reducible refine Evo.upd (by with_reducible assumption) ?_ ?_ ?_ ?_ ?_ ?_ ?_ ?_ ?_ ?_ <;> rfl)
    | split
    | dsimp only
    | clear_value *

theorem Dev.nvEcc1_evo {m₀ : Bool} {d₀ : Dev} {s : Dev} {o : Nat} (ev : Evo m₀ d₀ s) :
    Evo m₀ d₀ (Dev.nvEcc1 s o) := by
  unfold Dev.nvEcc1
  repeat' first
    | with_reducible assumption
    | with_reducible apply Dev.nvPut_evo
    | with_reducible apply Dev.note_evo

theorem Dev.nvEcc2_evo {d₀ : Dev} {s : Dev} {o : Nat} (ev : Evo true d₀ s) :
    Evo true d₀ (Dev.nvEcc2 s o) := by
  unfold Dev.nvEcc2
  repeat' first
    | with_reducible assumption
    | with_reducible apply Dev.raise_evo

theorem Dev.dropSlot_evo {m₀ : Bool} {d₀ : Dev} {s : Dev} {bad : List Nat} {n : Nat} {b : Nat} (ev : Evo m₀ d₀ s) :
    Evo m₀ d₀ (Dev.dropSlot s bad n b) := by
  unfold Dev.dropSlot
  repeat' first
    | with_reducible assumption
    | (extract_lets +onlyGivenNames z; refine Evo.cut (p := Evo m₀ d₀ z) ?_ (fun e1 => ?_); (on_goal 2 => clear_value z); (on_goal 1 => (unfold z; try clear z)))
    | (extract_lets +onlyGivenNames z; refine Evo.cut (p := Evo m₀ d₀ z.1) ?_ (fun e1 => ?_); (on_goal 2 => clear_value z); (on_goal 1 => (unfold z; try clear z)))
    | extract_lets +onlyGivenNames z
    | with_reducible apply Dev.nvPut_evo
    | split

theorem Dev.loadNv_evo {m₀ : Bool} {d₀ : Dev} {s : Dev} {bad : List Nat} (ev : Evo m₀ d₀ s) :
    Evo m₀ d₀ (Dev.loadNv s bad) := by
  unfold Dev.loadNv
  repeat' first
    | with_reducible assumption
    | (extract_lets +onlyGivenNames z; refine Evo.cut (p := Evo m₀ d₀ z) ?_ (fun e1 => ?_); (on_goal 2 => clear_value z); (on_goal 1 => (unfold z; try clear z)))
    | (extract_lets +onlyGivenNames z; refine Evo.cut (p := Evo m₀ d₀ z.1) ?_ (fun e1 => ?_); (on_goal 2 => clear_value z); (on_goal 1 => (unfold z; try clear z)))
    | extract_lets +onlyGivenNames z
    | with_reducible apply Dev.dropSlot_evo
    | with_reducible apply Dev.wr_evo
    | with_reducible apply Evo.forN
    | with_reducible apply Evo.foldl_fst
    | with_reducible apply Evo.foldl
    | (intro _; intros)
    | (with_reducible refine Evo.upd (by with_reducible assumption) ?_ ?_ ?_ ?_ ?_ ?_ ?_ ?_ ?_ ?_ <;> rfl)

theorem Dev.applyMap_evo {m₀ : Bool} {d₀ : Dev} {s : Dev} (ev : Evo m₀ d₀ s) :
    Evo m₀ d₀ (Dev.applyMap s) := by
  unfold Dev.applyMap
  repeat' first
    | with_reducible assumption
    | (extract_lets +onlyGivenNames z; refine Evo.cut (p := Evo m₀ d₀ z) ?_ (fun e1 => ?_); (on_goal 2 => clear_value z); (on_goal 1 => (unfold z; try clear z)))
    | (extract_lets +onlyGivenNames z; refine Evo.cut (p := Evo m₀ d₀ z.1) ?_ (fun e1 => ?_); (on_goal 2 => clear_value z); (on_goal 1 => (unfold z; try clear z)))
    | extract_lets +onlyGivenNames z
    | with_reducible apply Dev.onQuad_evo
    | with_reducible apply Dev.onEng_evo
    | with_reducible apply Dev.setSpareBank_evo
    | with_reducible apply Dev.onLane_evo
    | with_reducible apply Evo.forN
    | (intro _; intros)
    | (with_reducible refine Evo.upd (by with_reducible assumption) ?_ ?_ ?_ ?_ ?_ ?_ ?_ ?_ ?_ ?_ <;> rfl)
    | split

theorem Dev.applyThermal_evo {m₀ : Bool} {d₀ : Dev} {s : Dev} (ev : Evo m₀ d₀ s) :
    Evo m₀ d₀ (Dev.applyThermal s) := by
  unfold Dev.applyThermal
  repeat' first
    | with_reducible assumption
    | (extract_lets +onlyGivenNames z; refine Evo.cut (p := Evo m₀ d₀ z) ?_ (fun e1 => ?_); (on_goal 2 => clear_value z); (on_goal 1 => (unfold z; try clear z)))
    | (extract_lets +onlyGivenNames z; refine Evo.cut (p := Evo m₀ d₀ z.1) ?_ (fun e1 => ?_); (on_goal 2 => clear_value z); (on_goal 1 => (unfold z; try clear z)))
    | extract_lets +onlyGivenNames z
    | with_reducible apply Dev.wr_evo
    | with_reducible apply Dev.setBits_evo
    | with_reducible apply Evo.forN
    | (intro _; intros)
    | split

theorem Dev.installPatch_evo {m₀ : Bool} {d₀ : Dev} {s : Dev} (ev : Evo m₀ d₀ s) :
    Evo m₀ d₀ (Dev.installPatch s) := by
  unfold Dev.installPatch
  repeat' first
    | with_reducible assumption
    | (extract_lets +onlyGivenNames z; refine Evo.cut (p := Evo m₀ d₀ z) ?_ (fun e1 => ?_); (on_goal 2 => clear_value z); (on_goal 1 => (unfold z; try clear z)))
    | (extract_lets +onlyGivenNames z; refine Evo.cut (p := Evo m₀ d₀ z.1) ?_ (fun e1 => ?_); (on_goal 2 => clear_value z); (on_goal 1 => (unfold z; try clear z)))
    | extract_lets +onlyGivenNames z
    | with_reducible apply Dev.setBits_evo
    | with_reducible apply Dev.setFld_evo
    | with_reducible apply Dev.wr_evo
    | with_reducible apply Evo.forN
    | (intro _; intros)
    | (with_reducible refine Evo.upd (by with_reducible assumption) ?_ ?_ ?_ ?_ ?_ ?_ ?_ ?_ ?_ ?_ <;> rfl)
    | split


end Sys2Proof.Machine
end

