-- ==== Sys2Proof/Laws/Ev/Lanes.lean ====
section
/-! SUPPORT. What the operations of Machine/Lanes.lean can do to the whole device. -/

namespace Sys2Proof.Machine

theorem Dev.replay_evo {m₀ : Bool} {d₀ : Dev} {s : Dev} {l : Nat} (ev : Evo m₀ d₀ s) :
    Evo m₀ d₀ (Dev.replay s l) := by
  unfold Dev.replay
  repeat' first
    | with_reducible assumption
    | with_reducible apply Dev.onLink_evo
    | with_reducible apply Dev.note_evo
    | (intro _; intros)
    | (with_reducible refine Evo.upd (by with_reducible assumption) ?_ ?_ ?_ ?_ ?_ ?_ ?_ ?_ ?_ ?_ <;> rfl)
    | split

theorem Dev.linkDown_evo {m₀ : Bool} {d₀ : Dev} {s : Dev} {l : Nat} (ev : Evo m₀ d₀ s) :
    Evo m₀ d₀ (Dev.linkDown s l) := by
  unfold Dev.linkDown
  repeat' first
    | with_reducible assumption
    | (extract_lets +onlyGivenNames z; refine Evo.cut (p := Evo m₀ d₀ z) ?_ (fun e1 => ?_); (on_goal 2 => clear_value z); (on_goal 1 => (unfold z; try clear z)))
    | (extract_lets +onlyGivenNames z; refine Evo.cut (p := Evo m₀ d₀ z.1) ?_ (fun e1 => ?_); (on_goal 2 => clear_value z); (on_goal 1 => (unfold z; try clear z)))
    | extract_lets +onlyGivenNames z
    | with_reducible apply Dev.onLink_evo
    | with_reducible apply Dev.moveMsgs_evo
    | with_reducible apply Dev.note_evo
    | (intro _; intros)
    | (with_reducible refine Evo.upd (by with_reducible assumption) ?_ ?_ ?_ ?_ ?_ ?_ ?_ ?_ ?_ ?_ <;> rfl)

theorem Dev.moveAll_evo {m₀ : Bool} {d₀ : Dev} {s : Dev} (ev : Evo m₀ d₀ s) :
    Evo m₀ d₀ (Dev.moveAll s) := by
  unfold Dev.moveAll
  repeat' first
    | with_reducible assumption
    | with_reducible apply Dev.moveMsgs_evo
    | with_reducible apply Evo.forN
    | (intro _; intros)

theorem Dev.agree_evo {m₀ : Bool} {d₀ : Dev} {s : Dev} {l : Nat} (ev : Evo m₀ d₀ s) :
    Evo m₀ d₀ (Dev.agree s l) := by
  unfold Dev.agree
  repeat' first
    | with_reducible assumption
    | (extract_lets +onlyGivenNames z; refine Evo.cut (p := Evo m₀ d₀ z) ?_ (fun e1 => ?_); (on_goal 2 => clear_value z); (on_goal 1 => (unfold z; try clear z)))
    | (extract_lets +onlyGivenNames z; refine Evo.cut (p := Evo m₀ d₀ z.1) ?_ (fun e1 => ?_); (on_goal 2 => clear_value z); (on_goal 1 => (unfold z; try clear z)))
    | extract_lets +onlyGivenNames z
    | with_reducible apply Dev.linkDown_evo
    | with_reducible apply Dev.onLink_evo
    | with_reducible apply Dev.moveAll_evo
    | with_reducible apply Dev.replay_evo
    | (intro _; intros)
    | (with_reducible refine Evo.upd (by with_reducible assumption) ?_ ?_ ?_ ?_ ?_ ?_ ?_ ?_ ?_ ?_ <;> rfl)
    | split

theorem Dev.attempt_evo {m₀ : Bool} {d₀ : Dev} {s : Dev} {j : Nat} {n : Nat} (ev : Evo m₀ d₀ s) :
    Evo m₀ d₀ (Dev.attempt s j n) := by
  unfold Dev.attempt
  repeat' first
    | with_reducible assumption
    | (extract_lets +onlyGivenNames z; refine Evo.cut (p := Evo m₀ d₀ z) ?_ (fun e1 => ?_); (on_goal 2 => clear_value z); (on_goal 1 => (unfold z; try clear z)))
    | (extract_lets +onlyGivenNames z; refine Evo.cut (p := Evo m₀ d₀ z.1) ?_ (fun e1 => ?_); (on_goal 2 => clear_value z); (on_goal 1 => (unfold z; try clear z)))
    | extract_lets +onlyGivenNames z
    | with_reducible apply Dev.onLane_evo
    | (intro _; intros)
    | (with_reducible refine Evo.upd (by with_reducible assumption) ?_ ?_ ?_ ?_ ?_ ?_ ?_ ?_ ?_ ?_ <;> rfl)
    | split

theorem Dev.retrain_evo {m₀ : Bool} {d₀ : Dev} {s : Dev} {j : Nat} (ev : Evo m₀ d₀ s) :
    Evo m₀ d₀ (Dev.retrain s j) := by
  unfold Dev.retrain
  repeat' first
    | with_reducible assumption
    | (extract_lets +onlyGivenNames z; refine Evo.cut (p := Evo m₀ d₀ z) ?_ (fun e1 => ?_); (on_goal 2 => clear_value z); (on_goal 1 => (unfold z; try clear z)))
    | (extract_lets +onlyGivenNames z; refine Evo.cut (p := Evo m₀ d₀ z.1) ?_ (fun e1 => ?_); (on_goal 2 => clear_value z); (on_goal 1 => (unfold z; try clear z)))
    | extract_lets +onlyGivenNames z
    | with_reducible apply Dev.attempt_evo
    | with_reducible apply Dev.onLane_evo
    | with_reducible apply Dev.agree_evo
    | (intro _; intros)
    | (with_reducible refine Evo.upd (by with_reducible assumption) ?_ ?_ ?_ ?_ ?_ ?_ ?_ ?_ ?_ ?_ <;> rfl)
    | split

theorem Dev.startLane_evo {m₀ : Bool} {d₀ : Dev} {s : Dev} {j : Nat} (ev : Evo m₀ d₀ s) :
    Evo m₀ d₀ (Dev.startLane s j) := by
  unfold Dev.startLane
  repeat' first
    | with_reducible assumption
    | with_reducible apply Dev.attempt_evo
    | split

theorem Dev.laneUp_evo {m₀ : Bool} {d₀ : Dev} {s : Dev} {j : Nat} (ev : Evo m₀ d₀ s) :
    Evo m₀ d₀ (Dev.laneUp s j) := by
  unfold Dev.laneUp
  repeat' first
    | with_reducible assumption
    | (extract_lets +onlyGivenNames z; refine Evo.cut (p := Evo m₀ d₀ z) ?_ (fun e1 => ?_); (on_goal 2 => clear_value z); (on_goal 1 => (unfold z; try clear z)))
    | (extract_lets +onlyGivenNames z; refine Evo.cut (p := Evo m₀ d₀ z.1) ?_ (fun e1 => ?_); (on_goal 2 => clear_value z); (on_goal 1 => (unfold z; try clear z)))
    | extract_lets +onlyGivenNames z
    | with_reducible apply Dev.setLane_evo
    | with_reducible apply Dev.agree_evo
    | (with_reducible refine Evo.upd (by with_reducible assumption) ?_ ?_ ?_ ?_ ?_ ?_ ?_ ?_ ?_ ?_ <;> rfl)
    | split

theorem Dev.laneFail_evo {d₀ : Dev} {s : Dev} {j : Nat} (ev : Evo true d₀ s) :
    Evo true d₀ (Dev.laneFail s j) := by
  unfold Dev.laneFail
  repeat' first
    | with_reducible assumption
    | with_reducible apply Dev.raise_evo

theorem Dev.laneOff_evo {m₀ : Bool} {d₀ : Dev} {s : Dev} {j : Nat} (ev : Evo m₀ d₀ s) :
    Evo m₀ d₀ (Dev.laneOff s j) := by
  unfold Dev.laneOff
  repeat' first
    | with_reducible assumption
    | (extract_lets +onlyGivenNames z; refine Evo.cut (p := Evo m₀ d₀ z) ?_ (fun e1 => ?_); (on_goal 2 => clear_value z); (on_goal 1 => (unfold z; try clear z)))
    | (extract_lets +onlyGivenNames z; refine Evo.cut (p := Evo m₀ d₀ z.1) ?_ (fun e1 => ?_); (on_goal 2 => clear_value z); (on_goal 1 => (unfold z; try clear z)))
    | extract_lets +onlyGivenNames z
    | with_reducible apply Dev.setLane_evo
    | with_reducible apply Dev.agree_evo
    | (with_reducible refine Evo.upd (by with_reducible assumption) ?_ ?_ ?_ ?_ ?_ ?_ ?_ ?_ ?_ ?_ <;> rfl)
    | split

theorem Dev.narrow_evo {m₀ : Bool} {d₀ s : Dev} {n : Nat} (ev : Evo m₀ d₀ s) : Evo m₀ d₀ (s.narrow n) := by
  induction n with
  | zero => exact ev
  | succ n ih =>
    unfold Dev.narrow
    dsimp only
    split
    · exact Dev.agree_evo (Dev.setLane_evo ih)
    · exact ih

theorem Dev.lostFlit_evo {m₀ : Bool} {d₀ : Dev} {s : Dev} {l : Nat} (ev : Evo m₀ d₀ s) :
    Evo m₀ d₀ (Dev.lostFlit s l) := by
  unfold Dev.lostFlit
  repeat' first
    | with_reducible assumption
    | with_reducible apply Dev.onLink_evo
    | (intro _; intros)
    | (with_reducible refine Evo.upd (by with_reducible assumption) ?_ ?_ ?_ ?_ ?_ ?_ ?_ ?_ ?_ ?_ <;> rfl)

theorem Dev.uncorrectable_evo {d₀ : Dev} {s : Dev} {j : Nat} {hadData : Bool} (ev : Evo true d₀ s) :
    Evo true d₀ (Dev.uncorrectable s j hadData) := by
  unfold Dev.uncorrectable
  repeat' first
    | with_reducible assumption
    | (extract_lets +onlyGivenNames z; refine Evo.cut (p := Evo true d₀ z) ?_ (fun e1 => ?_); (on_goal 2 => clear_value z); (on_goal 1 => (unfold z; try clear z)))
    | (extract_lets +onlyGivenNames z; refine Evo.cut (p := Evo true d₀ z.1) ?_ (fun e1 => ?_); (on_goal 2 => clear_value z); (on_goal 1 => (unfold z; try clear z)))
    | extract_lets +onlyGivenNames z
    | with_reducible apply Dev.incSat_evo
    | with_reducible apply Dev.note_evo
    | with_reducible apply Dev.lostFlit_evo
    | with_reducible apply Dev.setLane_evo
    | with_reducible apply Dev.laneFail_evo
    | with_reducible apply Dev.retrain_evo
    | (intro _; intros)
    | (with_reducible refine Evo.upd (by with_reducible assumption) ?_ ?_ ?_ ?_ ?_ ?_ ?_ ?_ ?_ ?_ <;> rfl)
    | split

theorem Dev.replayed_evo {m₀ : Bool} {d₀ : Dev} {s : Dev} {l : Nat} (ev : Evo m₀ d₀ s) :
    Evo m₀ d₀ (Dev.replayed s l) := by
  unfold Dev.replayed
  repeat' first
    | with_reducible assumption
    | (extract_lets +onlyGivenNames z; refine Evo.cut (p := Evo m₀ d₀ z) ?_ (fun e1 => ?_); (on_goal 2 => clear_value z); (on_goal 1 => (unfold z; try clear z)))
    | (extract_lets +onlyGivenNames z; refine Evo.cut (p := Evo m₀ d₀ z.1) ?_ (fun e1 => ?_); (on_goal 2 => clear_value z); (on_goal 1 => (unfold z; try clear z)))
    | extract_lets +onlyGivenNames z
    | with_reducible apply Dev.replay_evo
    | with_reducible apply Dev.onLink_evo
    | with_reducible apply Dev.retrain_evo
    | with_reducible apply Evo.forN
    | (intro _; intros)
    | (with_reducible refine Evo.upd (by with_reducible assumption) ?_ ?_ ?_ ?_ ?_ ?_ ?_ ?_ ?_ ?_ <;> rfl)
    | split

theorem Dev.listed_evo {m₀ : Bool} {d₀ : Dev} {s : Dev} {l : Nat} {m : BitVec 4} (ev : Evo m₀ d₀ s) :
    Evo m₀ d₀ (Dev.listed s l m) := by
  unfold Dev.listed
  repeat' first
    | with_reducible assumption
    | (extract_lets +onlyGivenNames z; refine Evo.cut (p := Evo m₀ d₀ z) ?_ (fun e1 => ?_); (on_goal 2 => clear_value z); (on_goal 1 => (unfold z; try clear z)))
    | (extract_lets +onlyGivenNames z; refine Evo.cut (p := Evo m₀ d₀ z.1) ?_ (fun e1 => ?_); (on_goal 2 => clear_value z); (on_goal 1 => (unfold z; try clear z)))
    | extract_lets +onlyGivenNames z
    | with_reducible apply Dev.onLane_evo
    | with_reducible apply Dev.laneUp_evo
    | with_reducible apply Dev.retrain_evo
    | with_reducible apply Evo.forN
    | (intro _; intros)
    | (with_reducible refine Evo.upd (by with_reducible assumption) ?_ ?_ ?_ ?_ ?_ ?_ ?_ ?_ ?_ ?_ <;> rfl)
    | split

theorem Dev.ctrlFlit_evo {m₀ : Bool} {d₀ : Dev} {s : Dev} {l : Nat} {f : Ctrl} (ev : Evo m₀ d₀ s) :
    Evo m₀ d₀ (Dev.ctrlFlit s l f) := by
  unfold Dev.ctrlFlit
  repeat' first
    | with_reducible assumption
    | (extract_lets +onlyGivenNames z; refine Evo.cut (p := Evo m₀ d₀ z) ?_ (fun e1 => ?_); (on_goal 2 => clear_value z); (on_goal 1 => (unfold z; try clear z)))
    | (extract_lets +onlyGivenNames z; refine Evo.cut (p := Evo m₀ d₀ z.1) ?_ (fun e1 => ?_); (on_goal 2 => clear_value z); (on_goal 1 => (unfold z; try clear z)))
    | extract_lets +onlyGivenNames z
    | with_reducible apply Dev.onLane_evo
    | with_reducible apply Dev.onLink_evo
    | with_reducible apply Dev.listed_evo
    | with_reducible apply Dev.agree_evo
    | with_reducible apply Dev.replayed_evo
    | (intro _; intros)
    | (with_reducible refine Evo.upd (by with_reducible assumption) ?_ ?_ ?_ ?_ ?_ ?_ ?_ ?_ ?_ ?_ <;> rfl)
    | split


end Sys2Proof.Machine
end

