-- ==== Sys2Proof/Laws/Ev/Quads.lean ====
section
/-! SUPPORT. What the operations of Machine/Quads.lean can do to the whole device. -/

namespace Sys2Proof.Machine

theorem Dev.qRej_evo {m₀ : Bool} {d₀ : Dev} {s : Dev} {q : Nat} {tag : Nat} {why : Nat} (ev : Evo m₀ d₀ s) :
    Evo m₀ d₀ (Dev.qRej s q tag why) := by
  unfold Dev.qRej
  repeat' first
    | with_reducible assumption
    | (extract_lets +onlyGivenNames z; refine Evo.cut (p := Evo m₀ d₀ z) ?_ (fun e1 => ?_); (on_goal 2 => clear_value z); (on_goal 1 => (unfold z; try clear z)))
    | (extract_lets +onlyGivenNames z; refine Evo.cut (p := Evo m₀ d₀ z.1) ?_ (fun e1 => ?_); (on_goal 2 => clear_value z); (on_goal 1 => (unfold z; try clear z)))
    | extract_lets +onlyGivenNames z
    | with_reducible apply Dev.setBits_evo
    | with_reducible apply Dev.setFld_evo

theorem Dev.qDone_evo {m₀ : Bool} {d₀ : Dev} {s : Dev} {q : Nat} {tag : Nat} (ev : Evo m₀ d₀ s) :
    Evo m₀ d₀ (Dev.qDone s q tag) := by
  unfold Dev.qDone
  repeat' first
    | with_reducible assumption
    | (extract_lets +onlyGivenNames z; refine Evo.cut (p := Evo m₀ d₀ z) ?_ (fun e1 => ?_); (on_goal 2 => clear_value z); (on_goal 1 => (unfold z; try clear z)))
    | (extract_lets +onlyGivenNames z; refine Evo.cut (p := Evo m₀ d₀ z.1) ?_ (fun e1 => ?_); (on_goal 2 => clear_value z); (on_goal 1 => (unfold z; try clear z)))
    | extract_lets +onlyGivenNames z
    | with_reducible apply Dev.setBits_evo
    | with_reducible apply Dev.setFld_evo

theorem Dev.setCircs_evo {m₀ : Bool} {d₀ : Dev} {s : Dev} {q : Nat} (ev : Evo m₀ d₀ s) :
    Evo m₀ d₀ (Dev.setCircs s q) := by
  unfold Dev.setCircs
  repeat' first
    | with_reducible assumption
    | (extract_lets +onlyGivenNames z; refine Evo.cut (p := Evo m₀ d₀ z) ?_ (fun e1 => ?_); (on_goal 2 => clear_value z); (on_goal 1 => (unfold z; try clear z)))
    | (extract_lets +onlyGivenNames z; refine Evo.cut (p := Evo m₀ d₀ z.1) ?_ (fun e1 => ?_); (on_goal 2 => clear_value z); (on_goal 1 => (unfold z; try clear z)))
    | extract_lets +onlyGivenNames z
    | with_reducible apply Dev.onCirc_evo
    | with_reducible apply Evo.forN
    | (intro _; intros)

theorem Dev.weirsOn_evo {m₀ : Bool} {d₀ : Dev} {s : Dev} {q : Nat} (ev : Evo m₀ d₀ s) :
    Evo m₀ d₀ (Dev.weirsOn s q) := by
  unfold Dev.weirsOn
  repeat' first
    | with_reducible assumption
    | with_reducible apply Dev.setWeir_evo
    | with_reducible apply Evo.forN
    | (intro _; intros)

theorem Dev.quadUnits_evo {m₀ : Bool} {d₀ : Dev} {s : Dev} {q : Nat} {old : QState} {new : QState} (ev : Evo m₀ d₀ s) :
    Evo m₀ d₀ (Dev.quadUnits s q old new) := by
  unfold Dev.quadUnits
  repeat' first
    | with_reducible assumption
    | (extract_lets +onlyGivenNames z; refine Evo.cut (p := Evo m₀ d₀ z) ?_ (fun e1 => ?_); (on_goal 2 => clear_value z); (on_goal 1 => (unfold z; try clear z)))
    | (extract_lets +onlyGivenNames z; refine Evo.cut (p := Evo m₀ d₀ z.1) ?_ (fun e1 => ?_); (on_goal 2 => clear_value z); (on_goal 1 => (unfold z; try clear z)))
    | extract_lets +onlyGivenNames z
    | with_reducible apply Dev.tdcLost_evo
    | with_reducible apply Dev.acqEnd_evo
    | with_reducible apply Evo.forN
    | (intro _; intros)
    | split

theorem Dev.handOver_evo {m₀ : Bool} {d₀ : Dev} {s : Dev} {q : Nat} {p : Nat} {n : Nat} (ev : Evo m₀ d₀ s) :
    Evo m₀ d₀ (Dev.handOver s q p n) := by
  unfold Dev.handOver
  repeat' first
    | with_reducible assumption
    | (extract_lets +onlyGivenNames z; refine Evo.cut (p := Evo m₀ d₀ z) ?_ (fun e1 => ?_); (on_goal 2 => clear_value z); (on_goal 1 => (unfold z; try clear z)))
    | (extract_lets +onlyGivenNames z; refine Evo.cut (p := Evo m₀ d₀ z.1) ?_ (fun e1 => ?_); (on_goal 2 => clear_value z); (on_goal 1 => (unfold z; try clear z)))
    | extract_lets +onlyGivenNames z
    | with_reducible apply Dev.onCirc_evo
    | with_reducible apply Dev.onChain_evo
    | with_reducible apply Dev.restartChain_evo
    | with_reducible apply Dev.setWeir_evo
    | with_reducible apply Dev.tdcEmpty_evo
    | with_reducible apply Dev.wrFrame_evo
    | (intro _; intros)
    | (with_reducible refine Evo.upd (by with_reducible assumption) ?_ ?_ ?_ ?_ ?_ ?_ ?_ ?_ ?_ ?_ <;> rfl)

theorem Dev.serveRecord_evo {m₀ : Bool} {d₀ : Dev} {s : Dev} {q : Nat} {r : Nat × Bool} (ev : Evo m₀ d₀ s) :
    Evo m₀ d₀ (Dev.serveRecord s q r) := by
  unfold Dev.serveRecord
  repeat' first
    | with_reducible assumption
    | with_reducible apply Dev.handOver_evo
    | split

theorem Dev.quadTo_evo {m₀ : Bool} {d₀ : Dev} {s : Dev} {q : Nat} {t : QState} (ev : Evo m₀ d₀ s) :
    Evo m₀ d₀ (Dev.quadTo s q t) := by
  unfold Dev.quadTo
  repeat' first
    | with_reducible assumption
    | (extract_lets +onlyGivenNames z; refine Evo.cut (p := Evo m₀ d₀ z) ?_ (fun e1 => ?_); (on_goal 2 => clear_value z); (on_goal 1 => (unfold z; try clear z)))
    | (extract_lets +onlyGivenNames z; refine Evo.cut (p := Evo m₀ d₀ z.1) ?_ (fun e1 => ?_); (on_goal 2 => clear_value z); (on_goal 1 => (unfold z; try clear z)))
    | extract_lets +onlyGivenNames z
    | with_reducible apply Dev.quadUnits_evo
    | with_reducible apply Dev.setQuad_evo
    | with_reducible apply Dev.weirsOn_evo
    | with_reducible apply Dev.setCircs_evo
    | with_reducible apply Dev.serveRecord_evo
    | (with_reducible refine Evo.upd (by with_reducible assumption) ?_ ?_ ?_ ?_ ?_ ?_ ?_ ?_ ?_ ?_ <;> rfl)
    | split
    | clear_value *

theorem Dev.dwellPins_evo {m₀ : Bool} {d₀ : Dev} {s : Dev} {q : Nat} (ev : Evo m₀ d₀ s) :
    Evo m₀ d₀ (Dev.dwellPins s q) := by
  unfold Dev.dwellPins
  repeat' first
    | with_reducible assumption
    | (extract_lets +onlyGivenNames z; refine Evo.cut (p := Evo m₀ d₀ z) ?_ (fun e1 => ?_); (on_goal 2 => clear_value z); (on_goal 1 => (unfold z; try clear z)))
    | (extract_lets +onlyGivenNames z; refine Evo.cut (p := Evo m₀ d₀ z.1) ?_ (fun e1 => ?_); (on_goal 2 => clear_value z); (on_goal 1 => (unfold z; try clear z)))
    | extract_lets +onlyGivenNames z
    | with_reducible apply Dev.onSite_evo
    | with_reducible apply Evo.forL
    | (intro _; intros)
    | (with_reducible refine Evo.upd (by with_reducible assumption) ?_ ?_ ?_ ?_ ?_ ?_ ?_ ?_ ?_ ?_ <;> rfl)

theorem Dev.quadsTo_evo {d₀ : Dev} {s : Dev} {l : List (Nat × QState)} (ev : Evo true d₀ s) :
    Evo true d₀ (Dev.quadsTo s l) := by
  unfold Dev.quadsTo
  repeat' first
    | with_reducible assumption
    | (extract_lets +onlyGivenNames z; refine Evo.cut (p := Evo true d₀ z) ?_ (fun e1 => ?_); (on_goal 2 => clear_value z); (on_goal 1 => (unfold z; try clear z)))
    | (extract_lets +onlyGivenNames z; refine Evo.cut (p := Evo true d₀ z.1) ?_ (fun e1 => ?_); (on_goal 2 => clear_value z); (on_goal 1 => (unfold z; try clear z)))
    | extract_lets +onlyGivenNames z
    | with_reducible apply Dev.dwellPins_evo
    | with_reducible apply Dev.quadTo_evo
    | with_reducible apply Dev.raises_evo
    | with_reducible apply Evo.forL
    | (intro _; intros)
    | split

theorem Dev.qSupersede_evo {m₀ : Bool} {d₀ : Dev} {s : Dev} {q : Nat} (ev : Evo m₀ d₀ s) :
    Evo m₀ d₀ (Dev.qSupersede s q) := by
  unfold Dev.qSupersede
  repeat' first
    | with_reducible assumption
    | with_reducible apply Dev.qRej_evo
    | with_reducible apply Dev.onQuad_evo
    | (intro _; intros)
    | (with_reducible refine Evo.upd (by with_reducible assumption) ?_ ?_ ?_ ?_ ?_ ?_ ?_ ?_ ?_ ?_ <;> rfl)
    | split
    | clear_value *

theorem Dev.qRequest_evo {m₀ : Bool} {d₀ : Dev} {s : Dev} {q : Nat} {t : QState} {tag : Nat} (ev : Evo m₀ d₀ s) :
    Evo m₀ d₀ (Dev.qRequest s q t tag) := by
  unfold Dev.qRequest
  repeat' first
    | with_reducible assumption
    | (extract_lets +onlyGivenNames z; refine Evo.cut (p := Evo m₀ d₀ z) ?_ (fun e1 => ?_); (on_goal 2 => clear_value z); (on_goal 1 => (unfold z; try clear z)))
    | (extract_lets +onlyGivenNames z; refine Evo.cut (p := Evo m₀ d₀ z.1) ?_ (fun e1 => ?_); (on_goal 2 => clear_value z); (on_goal 1 => (unfold z; try clear z)))
    | extract_lets +onlyGivenNames z
    | with_reducible apply Dev.qRej_evo
    | with_reducible apply Dev.qSupersede_evo
    | with_reducible apply Dev.qDone_evo
    | with_reducible apply Dev.onQuad_evo
    | (intro _; intros)
    | (with_reducible refine Evo.upd (by with_reducible assumption) ?_ ?_ ?_ ?_ ?_ ?_ ?_ ?_ ?_ ?_ <;> rfl)
    | split

theorem Dev.qReqWrite_evo {m₀ : Bool} {d₀ : Dev} {s : Dev} {q : Nat} {v : W} (ev : Evo m₀ d₀ s) :
    Evo m₀ d₀ (Dev.qReqWrite s q v) := by
  unfold Dev.qReqWrite
  repeat' first
    | with_reducible assumption
    | with_reducible apply Dev.qRej_evo
    | with_reducible apply Dev.qRequest_evo
    | (with_reducible refine Evo.upd (by with_reducible assumption) ?_ ?_ ?_ ?_ ?_ ?_ ?_ ?_ ?_ ?_ <;> rfl)
    | split
    | clear_value *

theorem Dev.quadChanges_evo {d₀ s : Dev} (ev : Evo true d₀ s) : Evo true d₀ s.quadChanges := by
  unfold Dev.quadChanges
  extract_lets due s1 s2 ids
  have e2 : Evo true d₀ s2 := Evo.forL (Dev.quadsTo_evo ev) (fun _ _ h => Dev.qDone_evo h)
  exact Evo.updAtQuads e2

theorem Dev.quadPowered_evo {m₀ : Bool} {d₀ : Dev} {s : Dev} {q : Nat} (ev : Evo m₀ d₀ s) :
    Evo m₀ d₀ (Dev.quadPowered s q) := by
  unfold Dev.quadPowered
  repeat' first
    | with_reducible assumption
    | (extract_lets +onlyGivenNames z; refine Evo.cut (p := Evo m₀ d₀ z) ?_ (fun e1 => ?_); (on_goal 2 => clear_value z); (on_goal 1 => (unfold z; try clear z)))
    | (extract_lets +onlyGivenNames z; refine Evo.cut (p := Evo m₀ d₀ z.1) ?_ (fun e1 => ?_); (on_goal 2 => clear_value z); (on_goal 1 => (unfold z; try clear z)))
    | extract_lets +onlyGivenNames z
    | with_reducible apply Dev.onQuad_evo
    | with_reducible apply Dev.quadTo_evo
    | (intro _; intros)
    | (with_reducible refine Evo.upd (by with_reducible assumption) ?_ ?_ ?_ ?_ ?_ ?_ ?_ ?_ ?_ ?_ <;> rfl)
    | split

theorem Dev.retireMark_evo {d₀ : Dev} {s : Dev} {q : Nat} (ev : Evo true d₀ s) :
    Evo true d₀ (Dev.retireMark s q) := by
  unfold Dev.retireMark
  repeat' first
    | with_reducible assumption
    | with_reducible apply Dev.onQuad_evo
    | with_reducible apply Dev.retire_evo
    | with_reducible apply Mi.retire_evo
    | with_reducible apply Dev.saveMap_evo
    | (intro _; intros)
    | (with_reducible refine Evo.upd (by with_reducible assumption) ?_ ?_ ?_ ?_ ?_ ?_ ?_ ?_ ?_ ?_ <;> rfl)

theorem Dev.retireQuads_evo {d₀ : Dev} {s : Dev} {l : List Nat} (ev : Evo true d₀ s) :
    Evo true d₀ (Dev.retireQuads s l) := by
  unfold Dev.retireQuads
  repeat' first
    | with_reducible assumption
    | (extract_lets +onlyGivenNames z; refine Evo.cut (p := Evo true d₀ z) ?_ (fun e1 => ?_); (on_goal 2 => clear_value z); (on_goal 1 => (unfold z; try clear z)))
    | (extract_lets +onlyGivenNames z; refine Evo.cut (p := Evo true d₀ z.1) ?_ (fun e1 => ?_); (on_goal 2 => clear_value z); (on_goal 1 => (unfold z; try clear z)))
    | extract_lets +onlyGivenNames z
    | with_reducible apply Dev.quadsTo_evo
    | with_reducible apply Dev.retireMark_evo
    | with_reducible apply Evo.forL
    | (intro _; intros)

theorem Dev.substVoid_evo {m₀ : Bool} {d₀ : Dev} {s : Dev} {q : Nat} {c : Nat} (ev : Evo m₀ d₀ s) :
    Evo m₀ d₀ (Dev.substVoid s q c) := by
  unfold Dev.substVoid
  repeat' first
    | with_reducible assumption
    | with_reducible apply Dev.voidSite_evo
    | (with_reducible refine Evo.upd (by with_reducible assumption) ?_ ?_ ?_ ?_ ?_ ?_ ?_ ?_ ?_ ?_ <;> rfl)
    | split
    | clear_value *

theorem Dev.substBegin_evo {m₀ : Bool} {d₀ : Dev} {s : Dev} {q : Nat} {c : Nat} {restore : Bool} (ev : Evo m₀ d₀ s) :
    Evo m₀ d₀ (Dev.substBegin s q c restore) := by
  unfold Dev.substBegin
  repeat' first
    | with_reducible assumption
    | (extract_lets +onlyGivenNames z; refine Evo.cut (p := Evo m₀ d₀ z) ?_ (fun e1 => ?_); (on_goal 2 => clear_value z); (on_goal 1 => (unfold z; try clear z)))
    | (extract_lets +onlyGivenNames z; refine Evo.cut (p := Evo m₀ d₀ z.1) ?_ (fun e1 => ?_); (on_goal 2 => clear_value z); (on_goal 1 => (unfold z; try clear z)))
    | extract_lets +onlyGivenNames z
    | with_reducible apply Dev.measKill_evo
    | with_reducible apply Dev.tdcKill_evo
    | with_reducible apply Dev.onQuad_evo
    | with_reducible apply Dev.setCircs_evo
    | with_reducible apply Dev.onCirc_evo
    | with_reducible apply Dev.saveMap_evo
    | with_reducible apply Dev.substVoid_evo
    | (intro _; intros)
    | (with_reducible refine Evo.upd (by with_reducible assumption) ?_ ?_ ?_ ?_ ?_ ?_ ?_ ?_ ?_ ?_ <;> rfl)
    | split

theorem Dev.substRecord_evo {m₀ : Bool} {d₀ : Dev} {s : Dev} {q : Nat} {c : Nat} {restore : Bool} (ev : Evo m₀ d₀ s) :
    Evo m₀ d₀ (Dev.substRecord s q c restore) := by
  unfold Dev.substRecord
  repeat' first
    | with_reducible assumption
    | (extract_lets +onlyGivenNames z; refine Evo.cut (p := Evo m₀ d₀ z) ?_ (fun e1 => ?_); (on_goal 2 => clear_value z); (on_goal 1 => (unfold z; try clear z)))
    | (extract_lets +onlyGivenNames z; refine Evo.cut (p := Evo m₀ d₀ z.1) ?_ (fun e1 => ?_); (on_goal 2 => clear_value z); (on_goal 1 => (unfold z; try clear z)))
    | extract_lets +onlyGivenNames z
    | with_reducible apply Dev.onQuad_evo
    | with_reducible apply Dev.saveMap_evo
    | (intro _; intros)
    | (with_reducible refine Evo.upd (by with_reducible assumption) ?_ ?_ ?_ ?_ ?_ ?_ ?_ ?_ ?_ ?_ <;> rfl)
    | split

theorem Dev.substStart_evo {m₀ : Bool} {d₀ : Dev} {s : Dev} {q : Nat} {c : Nat} {restore : Bool} (ev : Evo m₀ d₀ s) :
    Evo m₀ d₀ (Dev.substStart s q c restore) := by
  unfold Dev.substStart
  repeat' first
    | with_reducible assumption
    | with_reducible apply Dev.substBegin_evo
    | with_reducible apply Dev.substRecord_evo
    | (with_reducible refine Evo.upd (by with_reducible assumption) ?_ ?_ ?_ ?_ ?_ ?_ ?_ ?_ ?_ ?_ <;> rfl)
    | split
    | clear_value *

theorem Dev.substWrite_evo {m₀ : Bool} {d₀ : Dev} {s : Dev} {q : Nat} {v : W} (ev : Evo m₀ d₀ s) :
    Evo m₀ d₀ (Dev.substWrite s q v) := by
  unfold Dev.substWrite
  repeat' first
    | with_reducible assumption
    | (extract_lets +onlyGivenNames z; refine Evo.cut (p := Evo m₀ d₀ z) ?_ (fun e1 => ?_); (on_goal 2 => clear_value z); (on_goal 1 => (unfold z; try clear z)))
    | (extract_lets +onlyGivenNames z; refine Evo.cut (p := Evo m₀ d₀ z.1) ?_ (fun e1 => ?_); (on_goal 2 => clear_value z); (on_goal 1 => (unfold z; try clear z)))
    | extract_lets +onlyGivenNames z
    | with_reducible apply Dev.qRej_evo
    | with_reducible apply Dev.substStart_evo
    | split

theorem Dev.quadFaults_evo {m₀ : Bool} {d₀ : Dev} {s : Dev} {q : Nat} (ev : Evo m₀ d₀ s) :
    Evo m₀ d₀ (Dev.quadFaults s q).1 := by
  unfold Dev.quadFaults
  repeat' first
    | with_reducible assumption
    | (extract_lets +onlyGivenNames z; refine Evo.cut (p := Evo m₀ d₀ z) ?_ (fun e1 => ?_); (on_goal 2 => clear_value z); (on_goal 1 => (unfold z; try clear z)))
    | (extract_lets +onlyGivenNames z; refine Evo.cut (p := Evo m₀ d₀ z.1) ?_ (fun e1 => ?_); (on_goal 2 => clear_value z); (on_goal 1 => (unfold z; try clear z)))
    | extract_lets +onlyGivenNames z
    | with_reducible apply Dev.onQuad_evo
    | with_reducible apply Dev.saveMap_evo
    | with_reducible apply Dev.setCircs_evo
    | with_reducible apply Dev.substStart_evo
    | with_reducible apply Evo.foldl_fst
    | with_reducible apply Evo.foldl
    | (intro _; intros)
    | (with_reducible refine Evo.upd (by with_reducible assumption) ?_ ?_ ?_ ?_ ?_ ?_ ?_ ?_ ?_ ?_ <;> rfl)
    | split
    | dsimp only
    | clear_value *

theorem Dev.spareServes_evo {m₀ : Bool} {d₀ : Dev} {s : Dev} {q : Nat} {c : Nat} (ev : Evo m₀ d₀ s) :
    Evo m₀ d₀ (Dev.spareServes s q c) := by
  unfold Dev.spareServes
  repeat' first
    | with_reducible assumption
    | (extract_lets +onlyGivenNames z; refine Evo.cut (p := Evo m₀ d₀ z) ?_ (fun e1 => ?_); (on_goal 2 => clear_value z); (on_goal 1 => (unfold z; try clear z)))
    | (extract_lets +onlyGivenNames z; refine Evo.cut (p := Evo m₀ d₀ z.1) ?_ (fun e1 => ?_); (on_goal 2 => clear_value z); (on_goal 1 => (unfold z; try clear z)))
    | extract_lets +onlyGivenNames z
    | with_reducible apply Dev.onQuad_evo
    | with_reducible apply Dev.setCircs_evo
    | with_reducible apply Dev.handOver_evo
    | (intro _; intros)
    | (with_reducible refine Evo.upd (by with_reducible assumption) ?_ ?_ ?_ ?_ ?_ ?_ ?_ ?_ ?_ ?_ <;> rfl)

theorem Dev.primaryServes_evo {m₀ : Bool} {d₀ : Dev} {s : Dev} {q : Nat} {c : Nat} (ev : Evo m₀ d₀ s) :
    Evo m₀ d₀ (Dev.primaryServes s q c) := by
  unfold Dev.primaryServes
  repeat' first
    | with_reducible assumption
    | (extract_lets +onlyGivenNames z; refine Evo.cut (p := Evo m₀ d₀ z) ?_ (fun e1 => ?_); (on_goal 2 => clear_value z); (on_goal 1 => (unfold z; try clear z)))
    | (extract_lets +onlyGivenNames z; refine Evo.cut (p := Evo m₀ d₀ z.1) ?_ (fun e1 => ?_); (on_goal 2 => clear_value z); (on_goal 1 => (unfold z; try clear z)))
    | extract_lets +onlyGivenNames z
    | with_reducible apply Dev.onQuad_evo
    | with_reducible apply Dev.setCircs_evo
    | with_reducible apply Dev.handOver_evo
    | with_reducible apply Dev.saveMap_evo
    | (intro _; intros)
    | (with_reducible refine Evo.upd (by with_reducible assumption) ?_ ?_ ?_ ?_ ?_ ?_ ?_ ?_ ?_ ?_ <;> rfl)
    | split

theorem Dev.substPath_evo {m₀ : Bool} {d₀ : Dev} {s : Dev} {q : Nat} (ev : Evo m₀ d₀ s) :
    Evo m₀ d₀ (Dev.substPath s q) := by
  unfold Dev.substPath
  repeat' first
    | with_reducible assumption
    | with_reducible apply Dev.onQuad_evo
    | (intro _; intros)
    | (with_reducible refine Evo.upd (by with_reducible assumption) ?_ ?_ ?_ ?_ ?_ ?_ ?_ ?_ ?_ ?_ <;> rfl)
    | split
    | clear_value *

theorem Dev.substServe_evo {m₀ : Bool} {d₀ : Dev} {s : Dev} {q : Nat} (ev : Evo m₀ d₀ s) :
    Evo m₀ d₀ (Dev.substServe s q) := by
  unfold Dev.substServe
  repeat' first
    | with_reducible assumption
    | with_reducible apply Dev.primaryServes_evo
    | with_reducible apply Dev.spareServes_evo
    | (with_reducible refine Evo.upd (by with_reducible assumption) ?_ ?_ ?_ ?_ ?_ ?_ ?_ ?_ ?_ ?_ <;> rfl)
    | split
    | clear_value *

theorem Dev.substTick_evo {m₀ : Bool} {d₀ : Dev} {s : Dev} {q : Nat} (ev : Evo m₀ d₀ s) :
    Evo m₀ d₀ (Dev.substTick s q) := by
  unfold Dev.substTick
  repeat' first
    | with_reducible assumption
    | (extract_lets +onlyGivenNames z; refine Evo.cut (p := Evo m₀ d₀ z) ?_ (fun e1 => ?_); (on_goal 2 => clear_value z); (on_goal 1 => (unfold z; try clear z)))
    | (extract_lets +onlyGivenNames z; refine Evo.cut (p := Evo m₀ d₀ z.1) ?_ (fun e1 => ?_); (on_goal 2 => clear_value z); (on_goal 1 => (unfold z; try clear z)))
    | extract_lets +onlyGivenNames z
    | with_reducible apply Dev.substVoid_evo
    | with_reducible apply Dev.substServe_evo
    | with_reducible apply Dev.onQuad_evo
    | (intro _; intros)
    | (with_reducible refine Evo.upd (by with_reducible assumption) ?_ ?_ ?_ ?_ ?_ ?_ ?_ ?_ ?_ ?_ <;> rfl)
    | split
    | clear_value *

theorem Dev.quadPhase_evo {d₀ : Dev} {s : Dev} (ev : Evo true d₀ s) :
    Evo true d₀ (Dev.quadPhase s) := by
  unfold Dev.quadPhase
  repeat' first
    | with_reducible assumption
    | (extract_lets +onlyGivenNames z; refine Evo.cut (p := Evo true d₀ z) ?_ (fun e1 => ?_); (on_goal 2 => clear_value z); (on_goal 1 => (unfold z; try clear z)))
    | (extract_lets +onlyGivenNames z; refine Evo.cut (p := Evo true d₀ z.1) ?_ (fun e1 => ?_); (on_goal 2 => clear_value z); (on_goal 1 => (unfold z; try clear z)))
    | extract_lets +onlyGivenNames z
    | with_reducible apply Dev.substTick_evo
    | with_reducible apply Dev.quadFaults_evo
    | with_reducible apply Dev.onQuad_evo
    | with_reducible apply Dev.retireQuads_evo
    | with_reducible apply Dev.retire_evo
    | with_reducible apply Mi.retire_evo
    | with_reducible apply Dev.quadChanges_evo
    | with_reducible apply Evo.forL
    | with_reducible apply Evo.foldl_fst
    | with_reducible apply Evo.foldl
    | (intro _; intros)
    | (with_reducible refine Evo.upd (by with_reducible assumption) ?_ ?_ ?_ ?_ ?_ ?_ ?_ ?_ ?_ ?_ <;> rfl)
    | split
    | clear_value *


end Sys2Proof.Machine
end

