-- ==== Sys2Proof/Laws/Ev/Weirs.lean ====
section
/-! SUPPORT. What the operations of Machine/Weirs.lean can do to the whole device. -/

namespace Sys2Proof.Machine

theorem Dev.weirFire_evo {m₀ : Bool} {d₀ : Dev} {s : Dev} {c : Nat} {pos : Nat} {lsb : Nat} {entered : Bool} (ev : Evo m₀ d₀ s) :
    Evo m₀ d₀ (Dev.weirFire s c pos lsb entered) := by
  unfold Dev.weirFire
  repeat' first
    | with_reducible assumption
    | (extract_lets +onlyGivenNames z; refine Evo.cut (p := Evo m₀ d₀ z) ?_ (fun e1 => ?_); (on_goal 2 => clear_value z); (on_goal 1 => (unfold z; try clear z)))
    | (extract_lets +onlyGivenNames z; refine Evo.cut (p := Evo m₀ d₀ z.1) ?_ (fun e1 => ?_); (on_goal 2 => clear_value z); (on_goal 1 => (unfold z; try clear z)))
    | extract_lets +onlyGivenNames z
    | with_reducible apply Dev.setBits_evo
    | with_reducible apply Dev.incSat_evo
    | with_reducible apply Dev.produce_evo
    | with_reducible apply Dev.tdcEdgeIn_evo
    | split

theorem Dev.weirJudge_evo {m₀ : Bool} {d₀ : Dev} {s : Dev} {c : Nat} {pos : Nat} {lsb : Nat} {level : Int} (ev : Evo m₀ d₀ s) :
    Evo m₀ d₀ (Dev.weirJudge s c pos lsb level) := by
  unfold Dev.weirJudge
  repeat' first
    | with_reducible assumption
    | (extract_lets +onlyGivenNames z; refine Evo.cut (p := Evo m₀ d₀ z) ?_ (fun e1 => ?_); (on_goal 2 => clear_value z); (on_goal 1 => (unfold z; try clear z)))
    | (extract_lets +onlyGivenNames z; refine Evo.cut (p := Evo m₀ d₀ z.1) ?_ (fun e1 => ?_); (on_goal 2 => clear_value z); (on_goal 1 => (unfold z; try clear z)))
    | extract_lets +onlyGivenNames z
    | with_reducible apply Dev.setWeir_evo
    | with_reducible apply Dev.weirFire_evo
    | (with_reducible refine Evo.upd (by with_reducible assumption) ?_ ?_ ?_ ?_ ?_ ?_ ?_ ?_ ?_ ?_ <;> rfl)
    | split

theorem Dev.weirSees_evo {m₀ : Bool} {d₀ : Dev} {s : Dev} {c : Nat} {pos : Nat} {lsb : Nat} {level : Int} (ev : Evo m₀ d₀ s) :
    Evo m₀ d₀ (Dev.weirSees s c pos lsb level) := by
  unfold Dev.weirSees
  repeat' first
    | with_reducible assumption
    | with_reducible apply Dev.weirJudge_evo
    | split

theorem Dev.wakeEval_evo {m₀ : Bool} {d₀ : Dev} {s : Dev} {q : Nat} (ev : Evo m₀ d₀ s) :
    Evo m₀ d₀ (Dev.wakeEval s q) := by
  unfold Dev.wakeEval
  repeat' first
    | with_reducible assumption
    | (extract_lets +onlyGivenNames z; refine Evo.cut (p := Evo m₀ d₀ z) ?_ (fun e1 => ?_); (on_goal 2 => clear_value z); (on_goal 1 => (unfold z; try clear z)))
    | (extract_lets +onlyGivenNames z; refine Evo.cut (p := Evo m₀ d₀ z.1) ?_ (fun e1 => ?_); (on_goal 2 => clear_value z); (on_goal 1 => (unfold z; try clear z)))
    | extract_lets +onlyGivenNames z
    | with_reducible apply Dev.setBits_evo
    | with_reducible apply Dev.setQuad_evo
    | (intro _; intros)
    | (with_reducible refine Evo.upd (by with_reducible assumption) ?_ ?_ ?_ ?_ ?_ ?_ ?_ ?_ ?_ ?_ <;> rfl)
    | split

theorem Dev.wakeAtTick_evo {m₀ : Bool} {d₀ : Dev} {s : Dev} {q : Nat} (ev : Evo m₀ d₀ s) :
    Evo m₀ d₀ (Dev.wakeAtTick s q) := by
  unfold Dev.wakeAtTick
  repeat' first
    | with_reducible assumption
    | with_reducible apply Dev.wakeEval_evo
    | (intro _; intros)
    | split

theorem Dev.wake_evo {m₀ : Bool} {d₀ : Dev} {s : Dev} {q : Nat} (ev : Evo m₀ d₀ s) :
    Evo m₀ d₀ (Dev.wake s q) := by
  unfold Dev.wake
  repeat' first
    | with_reducible assumption
    | (extract_lets +onlyGivenNames z; refine Evo.cut (p := Evo m₀ d₀ z) ?_ (fun e1 => ?_); (on_goal 2 => clear_value z); (on_goal 1 => (unfold z; try clear z)))
    | (extract_lets +onlyGivenNames z; refine Evo.cut (p := Evo m₀ d₀ z.1) ?_ (fun e1 => ?_); (on_goal 2 => clear_value z); (on_goal 1 => (unfold z; try clear z)))
    | extract_lets +onlyGivenNames z
    | with_reducible apply Dev.setQuad_evo
    | with_reducible apply Dev.qRequest_evo
    | with_reducible apply Dev.setBits_evo
    | with_reducible apply Dev.produce_evo
    | with_reducible apply Dev.notify_evo
    | (with_reducible refine Evo.upd (by with_reducible assumption) ?_ ?_ ?_ ?_ ?_ ?_ ?_ ?_ ?_ ?_ <;> rfl)
    | split


end Sys2Proof.Machine
end

