-- ==== Sys2Proof/Laws/Ev/Power.lean ====
section
/-! SUPPORT. What the operations of Machine/Power.lean can do to the whole device. -/

namespace Sys2Proof.Machine

theorem Dev.pwrRej_evo {m₀ : Bool} {d₀ : Dev} {s : Dev} {why : Nat} (ev : Evo m₀ d₀ s) :
    Evo m₀ d₀ (Dev.pwrRej s why) := by
  unfold Dev.pwrRej
  repeat' first
    | with_reducible assumption
    | with_reducible apply Dev.setBits_evo
    | with_reducible apply Dev.setFld_evo

theorem Dev.domCut_evo {m₀ : Bool} {d₀ : Dev} {s : Dev} {n : Nat} (ev : Evo m₀ d₀ s) :
    Evo m₀ d₀ (Dev.domCut s n) := by
  unfold Dev.domCut
  repeat' first
    | with_reducible assumption
    | (with_reducible refine Evo.upd (by with_reducible assumption) ?_ ?_ ?_ ?_ ?_ ?_ ?_ ?_ ?_ ?_ <;> rfl)

theorem Dev.domSwitch_evo {m₀ : Bool} {d₀ : Dev} {s : Dev} {n : Nat} (ev : Evo m₀ d₀ s) :
    Evo m₀ d₀ (Dev.domSwitch s n) := by
  unfold Dev.domSwitch
  repeat' first
    | with_reducible assumption
    | (with_reducible refine Evo.upd (by with_reducible assumption) ?_ ?_ ?_ ?_ ?_ ?_ ?_ ?_ ?_ ?_ <;> rfl)

theorem Dev.domWait_evo {m₀ : Bool} {d₀ : Dev} {s : Dev} {n : Nat} (ev : Evo m₀ d₀ s) :
    Evo m₀ d₀ (Dev.domWait s n) := by
  unfold Dev.domWait
  repeat' first
    | with_reducible assumption
    | (with_reducible refine Evo.upd (by with_reducible assumption) ?_ ?_ ?_ ?_ ?_ ?_ ?_ ?_ ?_ ?_ <;> rfl)
    | split

theorem Dev.clusterClear_evo {m₀ : Bool} {d₀ s : Dev} {k : Nat} (ev : Evo m₀ d₀ s) : Evo m₀ d₀ (s.clusterClear k) := by
  unfold Dev.clusterClear
  (refine Evo.all ev ?_ ?_ ?_ ?_ ?_ ?_ ?_ ?_ ?_ ?_ ?_ ?_ ?_ ?_ ?_ ?_ ?_ ?_ ?_ ?_ ?_ ?_ ?_ ?_ ?_ ?_ <;> first | exact id | rfl | exact fun k => Tab.wf_upd _ k | exact fun k => Tab.wf_updAt _ k | exact fun k => Tab.wf_filter _ k)

theorem Dev.enginesUp_evo {m₀ : Bool} {d₀ : Dev} {s : Dev} (ev : Evo m₀ d₀ s) :
    Evo m₀ d₀ (Dev.enginesUp s) := by
  unfold Dev.enginesUp
  repeat' first
    | with_reducible assumption
    | (extract_lets +onlyGivenNames z; refine Evo.cut (p := Evo m₀ d₀ z) ?_ (fun e1 => ?_); (on_goal 2 => clear_value z); (on_goal 1 => (unfold z; try clear z)))
    | (extract_lets +onlyGivenNames z; refine Evo.cut (p := Evo m₀ d₀ z.1) ?_ (fun e1 => ?_); (on_goal 2 => clear_value z); (on_goal 1 => (unfold z; try clear z)))
    | extract_lets +onlyGivenNames z
    | with_reducible apply Dev.setEng_evo
    | with_reducible apply Evo.forN
    | (intro _; intros)
    | (with_reducible refine Evo.upd (by with_reducible assumption) ?_ ?_ ?_ ?_ ?_ ?_ ?_ ?_ ?_ ?_ <;> rfl)
    | split

theorem Dev.groupClear_evo {m₀ : Bool} {d₀ : Dev} {s : Dev} {g : Nat} (ev : Evo m₀ d₀ s) :
    Evo m₀ d₀ (Dev.groupClear s g) := by
  unfold Dev.groupClear
  repeat' first
    | with_reducible assumption
    | (intro _; intros)
    | (with_reducible refine Evo.upd (by with_reducible assumption) ?_ ?_ ?_ ?_ ?_ ?_ ?_ ?_ ?_ ?_ <;> rfl)
    | (with_reducible refine Evo.filterMem (by with_reducible assumption))
    | split
    | clear_value *

theorem Dev.cisClear_evo {m₀ : Bool} {d₀ : Dev} {s : Dev} (ev : Evo m₀ d₀ s) :
    Evo m₀ d₀ (Dev.cisClear s) := by
  unfold Dev.cisClear
  repeat' first
    | with_reducible assumption
    | (extract_lets +onlyGivenNames z; refine Evo.cut (p := Evo m₀ d₀ z) ?_ (fun e1 => ?_); (on_goal 2 => clear_value z); (on_goal 1 => (unfold z; try clear z)))
    | (extract_lets +onlyGivenNames z; refine Evo.cut (p := Evo m₀ d₀ z.1) ?_ (fun e1 => ?_); (on_goal 2 => clear_value z); (on_goal 1 => (unfold z; try clear z)))
    | extract_lets +onlyGivenNames z
    | with_reducible apply Dev.clearMem_evo
    | with_reducible apply Dev.ringClear_evo
    | with_reducible apply Evo.forN
    | (intro _; intros)
    | (with_reducible refine Evo.upd (by with_reducible assumption) ?_ ?_ ?_ ?_ ?_ ?_ ?_ ?_ ?_ ?_ <;> rfl)
    | split

theorem Dev.domOff_evo {m₀ : Bool} {d₀ : Dev} {s : Dev} {n : Nat} (ev : Evo m₀ d₀ s) :
    Evo m₀ d₀ (Dev.domOff s n) := by
  unfold Dev.domOff
  repeat' first
    | with_reducible assumption
    | (extract_lets +onlyGivenNames z; refine Evo.cut (p := Evo m₀ d₀ z) ?_ (fun e1 => ?_); (on_goal 2 => clear_value z); (on_goal 1 => (unfold z; try clear z)))
    | (extract_lets +onlyGivenNames z; refine Evo.cut (p := Evo m₀ d₀ z.1) ?_ (fun e1 => ?_); (on_goal 2 => clear_value z); (on_goal 1 => (unfold z; try clear z)))
    | extract_lets +onlyGivenNames z
    | with_reducible apply Dev.domCut_evo
    | with_reducible apply Dev.laneOff_evo
    | with_reducible apply Dev.clusterClear_evo
    | with_reducible apply Dev.onQuad_evo
    | with_reducible apply Dev.dwellPins_evo
    | with_reducible apply Dev.quadTo_evo
    | (intro _; intros)
    | (with_reducible refine Evo.upd (by with_reducible assumption) ?_ ?_ ?_ ?_ ?_ ?_ ?_ ?_ ?_ ?_ <;> rfl)
    | split

theorem Dev.domAsk_evo {m₀ : Bool} {d₀ : Dev} {s : Dev} {n : Nat} {on : Bool} (ev : Evo m₀ d₀ s) :
    Evo m₀ d₀ (Dev.domAsk s n on).1 := by
  unfold Dev.domAsk
  repeat' first
    | with_reducible assumption
    | (extract_lets +onlyGivenNames z; refine Evo.cut (p := Evo m₀ d₀ z) ?_ (fun e1 => ?_); (on_goal 2 => clear_value z); (on_goal 1 => (unfold z; try clear z)))
    | (extract_lets +onlyGivenNames z; refine Evo.cut (p := Evo m₀ d₀ z.1) ?_ (fun e1 => ?_); (on_goal 2 => clear_value z); (on_goal 1 => (unfold z; try clear z)))
    | extract_lets +onlyGivenNames z
    | with_reducible apply Dev.pwrRej_evo
    | with_reducible apply Dev.domWait_evo
    | with_reducible apply Dev.domOff_evo
    | split
    | dsimp only

theorem Dev.setGroups_evo {m₀ : Bool} {d₀ : Dev} {s : Dev} {n : Nat} (ev : Evo m₀ d₀ s) :
    Evo m₀ d₀ (Dev.setGroups s n) := by
  unfold Dev.setGroups
  repeat' first
    | with_reducible assumption
    | (extract_lets +onlyGivenNames z; refine Evo.cut (p := Evo m₀ d₀ z) ?_ (fun e1 => ?_); (on_goal 2 => clear_value z); (on_goal 1 => (unfold z; try clear z)))
    | (extract_lets +onlyGivenNames z; refine Evo.cut (p := Evo m₀ d₀ z.1) ?_ (fun e1 => ?_); (on_goal 2 => clear_value z); (on_goal 1 => (unfold z; try clear z)))
    | extract_lets +onlyGivenNames z
    | with_reducible apply Dev.cisClear_evo
    | with_reducible apply Dev.domWait_evo
    | with_reducible apply Dev.domCut_evo
    | with_reducible apply Evo.forN
    | (intro _; intros)
    | (with_reducible refine Evo.upd (by with_reducible assumption) ?_ ?_ ?_ ?_ ?_ ?_ ?_ ?_ ?_ ?_ <;> rfl)
    | split

theorem Dev.greq_evo {m₀ : Bool} {d₀ : Dev} {s : Dev} (ev : Evo m₀ d₀ s) :
    Evo m₀ d₀ (Dev.greq s) := by
  unfold Dev.greq
  repeat' first
    | with_reducible assumption
    | (extract_lets +onlyGivenNames z; refine Evo.cut (p := Evo m₀ d₀ z) ?_ (fun e1 => ?_); (on_goal 2 => clear_value z); (on_goal 1 => (unfold z; try clear z)))
    | (extract_lets +onlyGivenNames z; refine Evo.cut (p := Evo m₀ d₀ z.1) ?_ (fun e1 => ?_); (on_goal 2 => clear_value z); (on_goal 1 => (unfold z; try clear z)))
    | extract_lets +onlyGivenNames z
    | with_reducible apply Dev.pwrRej_evo
    | with_reducible apply Dev.setGroups_evo
    | split

theorem Dev.askEntry_evo {m₀ : Bool} {d₀ : Dev} {s : Dev} {o : Nat} {m : W} (ev : Evo m₀ d₀ s) :
    Evo m₀ d₀ (Dev.askEntry s o m).1 := by
  unfold Dev.askEntry
  repeat' first
    | with_reducible assumption
    | (extract_lets +onlyGivenNames z; refine Evo.cut (p := Evo m₀ d₀ z) ?_ (fun e1 => ?_); (on_goal 2 => clear_value z); (on_goal 1 => (unfold z; try clear z)))
    | (extract_lets +onlyGivenNames z; refine Evo.cut (p := Evo m₀ d₀ z.1) ?_ (fun e1 => ?_); (on_goal 2 => clear_value z); (on_goal 1 => (unfold z; try clear z)))
    | extract_lets +onlyGivenNames z
    | with_reducible apply Dev.wr_evo
    | with_reducible apply Dev.greq_evo
    | with_reducible apply Dev.domAsk_evo
    | with_reducible apply Evo.foldl_fst
    | with_reducible apply Evo.foldl
    | (intro _; intros)
    | split
    | dsimp only

theorem Dev.askAll_evo {m₀ : Bool} {d₀ : Dev} {s : Dev} {l : List (Nat × W)} {j : Option Job} (ev : Evo m₀ d₀ s) :
    Evo m₀ d₀ (Dev.askAll s l j) := by
  unfold Dev.askAll
  repeat' first
    | with_reducible assumption
    | (extract_lets +onlyGivenNames z; refine Evo.cut (p := Evo m₀ d₀ z) ?_ (fun e1 => ?_); (on_goal 2 => clear_value z); (on_goal 1 => (unfold z; try clear z)))
    | (extract_lets +onlyGivenNames z; refine Evo.cut (p := Evo m₀ d₀ z.1) ?_ (fun e1 => ?_); (on_goal 2 => clear_value z); (on_goal 1 => (unfold z; try clear z)))
    | extract_lets +onlyGivenNames z
    | with_reducible apply Dev.askEntry_evo
    | with_reducible apply Dev.complete_evo
    | with_reducible apply Evo.foldl_fst
    | with_reducible apply Evo.foldl
    | (intro _; intros)
    | (with_reducible refine Evo.upd (by with_reducible assumption) ?_ ?_ ?_ ?_ ?_ ?_ ?_ ?_ ?_ ?_ <;> rfl)
    | split
    | clear_value *

theorem Dev.admitDoms_evo {m₀ : Bool} {d₀ : Dev} {s : Dev} (ev : Evo m₀ d₀ s) :
    Evo m₀ d₀ (Dev.admitDoms s) := by
  unfold Dev.admitDoms
  repeat' first
    | with_reducible assumption
    | (extract_lets +onlyGivenNames z; refine Evo.cut (p := Evo m₀ d₀ z) ?_ (fun e1 => ?_); (on_goal 2 => clear_value z); (on_goal 1 => (unfold z; try clear z)))
    | (extract_lets +onlyGivenNames z; refine Evo.cut (p := Evo m₀ d₀ z.1) ?_ (fun e1 => ?_); (on_goal 2 => clear_value z); (on_goal 1 => (unfold z; try clear z)))
    | extract_lets +onlyGivenNames z
    | with_reducible apply Dev.domSwitch_evo
    | with_reducible apply Evo.forL
    | with_reducible apply Evo.foldl_fst
    | with_reducible apply Evo.foldl
    | (intro _; intros)
    | (with_reducible refine Evo.upd (by with_reducible assumption) ?_ ?_ ?_ ?_ ?_ ?_ ?_ ?_ ?_ ?_ <;> rfl)
    | split

theorem Dev.retiredOff_evo {m₀ : Bool} {d₀ : Dev} {s : Dev} (ev : Evo m₀ d₀ s) :
    Evo m₀ d₀ (Dev.retiredOff s) := by
  unfold Dev.retiredOff
  repeat' first
    | with_reducible assumption
    | with_reducible apply Dev.domOff_evo
    | with_reducible apply Dev.onQuad_evo
    | with_reducible apply Dev.domCut_evo
    | with_reducible apply Evo.forL
    | (intro _; intros)
    | (with_reducible refine Evo.upd (by with_reducible assumption) ?_ ?_ ?_ ?_ ?_ ?_ ?_ ?_ ?_ ?_ <;> rfl)

theorem Dev.groupsDone_evo {m₀ : Bool} {d₀ : Dev} {s : Dev} (ev : Evo m₀ d₀ s) :
    Evo m₀ d₀ (Dev.groupsDone s) := by
  unfold Dev.groupsDone
  repeat' first
    | with_reducible assumption
    | with_reducible apply Dev.complete_evo
    | (intro _; intros)
    | (with_reducible refine Evo.upd (by with_reducible assumption) ?_ ?_ ?_ ?_ ?_ ?_ ?_ ?_ ?_ ?_ <;> rfl)
    | split
    | clear_value *

theorem Dev.powerPhase_evo {d₀ : Dev} {s : Dev} (ev : Evo true d₀ s) :
    Evo true d₀ (Dev.powerPhase s) := by
  unfold Dev.powerPhase
  repeat' first
    | with_reducible assumption
    | (extract_lets +onlyGivenNames z; refine Evo.cut (p := Evo true d₀ z) ?_ (fun e1 => ?_); (on_goal 2 => clear_value z); (on_goal 1 => (unfold z; try clear z)))
    | (extract_lets +onlyGivenNames z; refine Evo.cut (p := Evo true d₀ z.1) ?_ (fun e1 => ?_); (on_goal 2 => clear_value z); (on_goal 1 => (unfold z; try clear z)))
    | extract_lets +onlyGivenNames z
    | with_reducible apply Dev.retiredOff_evo
    | with_reducible apply Dev.askAll_evo
    | with_reducible apply Dev.raises_evo
    | with_reducible apply Dev.admitDoms_evo
    | with_reducible apply Dev.groupsDone_evo
    | with_reducible apply Evo.forL
    | (intro _; intros)
    | (with_reducible refine Evo.upd (by with_reducible assumption) ?_ ?_ ?_ ?_ ?_ ?_ ?_ ?_ ?_ ?_ <;> rfl)
    | split

theorem Dev.domainGood_evo {m₀ : Bool} {d₀ : Dev} {s : Dev} {n : Nat} (ev : Evo m₀ d₀ s) :
    Evo m₀ d₀ (Dev.domainGood s n) := by
  unfold Dev.domainGood
  repeat' first
    | with_reducible assumption
    | (extract_lets +onlyGivenNames z; refine Evo.cut (p := Evo m₀ d₀ z) ?_ (fun e1 => ?_); (on_goal 2 => clear_value z); (on_goal 1 => (unfold z; try clear z)))
    | (extract_lets +onlyGivenNames z; refine Evo.cut (p := Evo m₀ d₀ z.1) ?_ (fun e1 => ?_); (on_goal 2 => clear_value z); (on_goal 1 => (unfold z; try clear z)))
    | extract_lets +onlyGivenNames z
    | with_reducible apply Dev.domWait_evo
    | with_reducible apply Dev.startLane_evo
    | with_reducible apply Dev.groupClear_evo
    | with_reducible apply Dev.groupsDone_evo
    | with_reducible apply Dev.onQuad_evo
    | with_reducible apply Evo.forN
    | (intro _; intros)
    | (with_reducible refine Evo.upd (by with_reducible assumption) ?_ ?_ ?_ ?_ ?_ ?_ ?_ ?_ ?_ ?_ <;> rfl)
    | split

theorem Dev.quadsPowered_evo {m₀ : Bool} {d₀ : Dev} {s : Dev} (ev : Evo m₀ d₀ s) :
    Evo m₀ d₀ (Dev.quadsPowered s) := by
  unfold Dev.quadsPowered
  repeat' first
    | with_reducible assumption
    | with_reducible apply Dev.quadPowered_evo
    | with_reducible apply Evo.forL
    | (intro _; intros)

theorem Dev.domFault_evo {d₀ : Dev} {s : Dev} {n : Nat} (ev : Evo true d₀ s) :
    Evo true d₀ (Dev.domFault s n) := by
  unfold Dev.domFault
  repeat' first
    | with_reducible assumption
    | with_reducible apply Dev.raise_evo
    | split


end Sys2Proof.Machine
end

