-- ==== Sys2Proof/Laws/Ev/Boot.lean ====
section
/-! SUPPORT. What the operations of Machine/Boot.lean can do to the whole device. -/

namespace Sys2Proof.Machine

theorem Dev.nvCut_evo {m₀ : Bool} {d₀ : Dev} {s : Dev} (ev : Evo m₀ d₀ s) :
    Evo m₀ d₀ (Dev.nvCut s) := by
  unfold Dev.nvCut
  repeat' first
    | with_reducible assumption
    | (extract_lets +onlyGivenNames z; refine Evo.cut (p := Evo m₀ d₀ z) ?_ (fun e1 => ?_); (on_goal 2 => clear_value z); (on_goal 1 => (unfold z; try clear z)))
    | (extract_lets +onlyGivenNames z; refine Evo.cut (p := Evo m₀ d₀ z.1) ?_ (fun e1 => ?_); (on_goal 2 => clear_value z); (on_goal 1 => (unfold z; try clear z)))
    | extract_lets +onlyGivenNames z
    | with_reducible apply Dev.draw_evo
    | with_reducible apply Dev.nvPut_evo
    | (with_reducible refine Evo.upd (by with_reducible assumption) ?_ ?_ ?_ ?_ ?_ ?_ ?_ ?_ ?_ ?_ <;> rfl)
    | split
    | clear_value *

theorem Dev.railWarn_evo {d₀ : Dev} {s : Dev} {r : Rail} (ev : Evo true d₀ s) :
    Evo true d₀ (Dev.railWarn s r) := by
  unfold Dev.railWarn
  repeat' first
    | with_reducible assumption
    | (extract_lets +onlyGivenNames z; refine Evo.cut (p := Evo true d₀ z) ?_ (fun e1 => ?_); (on_goal 2 => clear_value z); (on_goal 1 => (unfold z; try clear z)))
    | (extract_lets +onlyGivenNames z; refine Evo.cut (p := Evo true d₀ z.1) ?_ (fun e1 => ?_); (on_goal 2 => clear_value z); (on_goal 1 => (unfold z; try clear z)))
    | extract_lets +onlyGivenNames z
    | with_reducible apply Dev.condOn_evo
    | (with_reducible refine Evo.upd (by with_reducible assumption) ?_ ?_ ?_ ?_ ?_ ?_ ?_ ?_ ?_ ?_ <;> rfl)
    | split

theorem Dev.railBack_evo {m₀ : Bool} {d₀ : Dev} {s : Dev} {r : Rail} (ev : Evo m₀ d₀ s) :
    Evo m₀ d₀ (Dev.railBack s r) := by
  unfold Dev.railBack
  repeat' first
    | with_reducible assumption
    | (extract_lets +onlyGivenNames z; refine Evo.cut (p := Evo m₀ d₀ z) ?_ (fun e1 => ?_); (on_goal 2 => clear_value z); (on_goal 1 => (unfold z; try clear z)))
    | (extract_lets +onlyGivenNames z; refine Evo.cut (p := Evo m₀ d₀ z.1) ?_ (fun e1 => ?_); (on_goal 2 => clear_value z); (on_goal 1 => (unfold z; try clear z)))
    | extract_lets +onlyGivenNames z
    | with_reducible apply Dev.setLive_evo
    | (intro _; intros)
    | (with_reducible refine Evo.upd (by with_reducible assumption) ?_ ?_ ?_ ?_ ?_ ?_ ?_ ?_ ?_ ?_ <;> rfl)
    | split

theorem Dev.idCheck_evo {m₀ : Bool} {d₀ : Dev} {s : Dev} {bad : List Nat} (ev : Evo m₀ d₀ s) :
    Evo m₀ d₀ (Dev.idCheck s bad) := by
  unfold Dev.idCheck
  repeat' first
    | with_reducible assumption
    | with_reducible apply Dev.setBits_evo
    | split

theorem Dev.nvFound_evo {d₀ : Dev} {s : Dev} {l : List (BitVec 16 × Bool)} (ev : Evo true d₀ s) :
    Evo true d₀ (Dev.nvFound s l) := by
  unfold Dev.nvFound
  repeat' first
    | with_reducible assumption
    | with_reducible apply Dev.nvEcc2_evo
    | with_reducible apply Dev.nvEcc1_evo
    | with_reducible apply Evo.forL
    | (intro _; intros)
    | split

theorem Dev.testFaults_evo {d₀ : Dev} {s : Dev} {t : SelfTest} (ev : Evo true d₀ s) :
    Evo true d₀ (Dev.testFaults s t) := by
  unfold Dev.testFaults
  repeat' first
    | with_reducible assumption
    | (extract_lets +onlyGivenNames z; refine Evo.cut (p := Evo true d₀ z) ?_ (fun e1 => ?_); (on_goal 2 => clear_value z); (on_goal 1 => (unfold z; try clear z)))
    | (extract_lets +onlyGivenNames z; refine Evo.cut (p := Evo true d₀ z.1) ?_ (fun e1 => ?_); (on_goal 2 => clear_value z); (on_goal 1 => (unfold z; try clear z)))
    | extract_lets +onlyGivenNames z
    | with_reducible apply Dev.domCut_evo
    | with_reducible apply Dev.raises_evo
    | with_reducible apply Evo.forL
    | (intro _; intros)
    | (with_reducible refine Evo.updSites (by with_reducible assumption))
    | split

theorem Dev.toggle_evo {m₀ : Bool} {d₀ : Dev} {s : Dev} (ev : Evo m₀ d₀ s) :
    Evo m₀ d₀ (Dev.toggle s) := by
  unfold Dev.toggle
  repeat' first
    | with_reducible assumption
    | (with_reducible refine Evo.upd (by with_reducible assumption) ?_ ?_ ?_ ?_ ?_ ?_ ?_ ?_ ?_ ?_ <;> rfl)

theorem Dev.aliveInterval_evo {d₀ : Dev} {s : Dev} {checkedIn : Bool} (ev : Evo true d₀ s) :
    Evo true d₀ (Dev.aliveInterval s checkedIn) := by
  unfold Dev.aliveInterval
  repeat' first
    | with_reducible assumption
    | (extract_lets +onlyGivenNames z; refine Evo.cut (p := Evo true d₀ z) ?_ (fun e1 => ?_); (on_goal 2 => clear_value z); (on_goal 1 => (unfold z; try clear z)))
    | (extract_lets +onlyGivenNames z; refine Evo.cut (p := Evo true d₀ z.1) ?_ (fun e1 => ?_); (on_goal 2 => clear_value z); (on_goal 1 => (unfold z; try clear z)))
    | extract_lets +onlyGivenNames z
    | with_reducible apply Dev.raise_evo
    | with_reducible apply Dev.toggle_evo
    | (with_reducible refine Evo.upd (by with_reducible assumption) ?_ ?_ ?_ ?_ ?_ ?_ ?_ ?_ ?_ ?_ <;> rfl)
    | split

theorem Dev.safeFault_evo {d₀ : Dev} {s : Dev} {f : Nat} (ev : Evo true d₀ s) :
    Evo true d₀ (Dev.safeFault s f) := by
  unfold Dev.safeFault
  repeat' first
    | with_reducible assumption
    | with_reducible apply Dev.raise_evo
    | split


end Sys2Proof.Machine
end

