-- ==== Sys2Proof/Laws/Ev/Channel.lean ====
section
/-! SUPPORT. What the operations of Machine/Channel.lean can do to the whole device. -/

namespace Sys2Proof.Machine

theorem doLevel_evo {d₀ : Dev} {e : Nat} {s : Dev} {x : Ins} {i : Nat} (ev : Evo true d₀ s) :
    Evo true d₀ (doLevel e s x i) := by
  unfold doLevel
  repeat' first
    | with_reducible assumption
    | with_reducible apply Dev.stageIns_evo

theorem doTset_evo {d₀ : Dev} {e : Nat} {s : Dev} {x : Ins} {i : Nat} (ev : Evo true d₀ s) :
    Evo true d₀ (doTset e s x i) := by
  unfold doTset
  repeat' first
    | with_reducible assumption
    | with_reducible apply Dev.stageIns_evo

theorem doForce_evo {d₀ : Dev} {e : Nat} {s : Dev} {x : Ins} {i : Nat} (ev : Evo true d₀ s) :
    Evo true d₀ (doForce e s x i) := by
  unfold doForce
  repeat' first
    | with_reducible assumption
    | with_reducible apply Dev.stageIns_evo

theorem doGang_evo {d₀ : Dev} {e : Nat} {s : Dev} {x : Ins} {i : Nat} (ev : Evo true d₀ s) :
    Evo true d₀ (doGang e s x i) := by
  unfold doGang
  repeat' first
    | with_reducible assumption
    | with_reducible apply Dev.stageIns_evo

theorem doMeas_evo {d₀ : Dev} {e : Nat} {s : Dev} {x : Ins} {i : Nat} (ev : Evo true d₀ s) :
    Evo true d₀ (doMeas e s x i) := by
  unfold doMeas
  repeat' first
    | with_reducible assumption
    | with_reducible apply Dev.slotBusy_evo
    | with_reducible apply Dev.stageIns_evo
    | with_reducible apply Dev.check_evo

theorem doGetm_evo {d₀ : Dev} {e : Nat} {s : Dev} {x : Ins} {i : Nat} (ev : Evo true d₀ s) :
    Evo true d₀ (doGetm e s x i) := by
  unfold doGetm
  repeat' first
    | with_reducible assumption
    | (extract_lets +onlyGivenNames z; refine Evo.cut (p := Evo true d₀ z) ?_ (fun e1 => ?_); (on_goal 2 => clear_value z); (on_goal 1 => (unfold z; try clear z)))
    | (extract_lets +onlyGivenNames z; refine Evo.cut (p := Evo true d₀ z.1) ?_ (fun e1 => ?_); (on_goal 2 => clear_value z); (on_goal 1 => (unfold z; try clear z)))
    | extract_lets +onlyGivenNames z
    | with_reducible apply Dev.check_evo
    | with_reducible apply Dev.onSite_evo
    | with_reducible apply Dev.setReg_evo
    | with_reducible apply Dev.setFlag_evo
    | with_reducible apply Dev.retire_evo
    | with_reducible apply Mi.retire_evo
    | (intro _; intros)
    | split

theorem doAcqarm_evo {d₀ : Dev} {e : Nat} {s : Dev} {x : Ins} {i : Nat} (ev : Evo true d₀ s) :
    Evo true d₀ (doAcqarm e s x i) := by
  unfold doAcqarm
  repeat' first
    | with_reducible assumption
    | with_reducible apply Dev.stageIns_evo

theorem doTdcopen_evo {d₀ : Dev} {e : Nat} {s : Dev} {x : Ins} {i : Nat} (ev : Evo true d₀ s) :
    Evo true d₀ (doTdcopen e s x i) := by
  unfold doTdcopen
  repeat' first
    | with_reducible assumption
    | (extract_lets +onlyGivenNames z; refine Evo.cut (p := Evo true d₀ z) ?_ (fun e1 => ?_); (on_goal 2 => clear_value z); (on_goal 1 => (unfold z; try clear z)))
    | (extract_lets +onlyGivenNames z; refine Evo.cut (p := Evo true d₀ z.1) ?_ (fun e1 => ?_); (on_goal 2 => clear_value z); (on_goal 1 => (unfold z; try clear z)))
    | extract_lets +onlyGivenNames z
    | with_reducible apply Dev.slotBusy_evo
    | with_reducible apply Dev.stageIns_evo
    | with_reducible apply Dev.check_evo
    | split

theorem doWinset_evo {d₀ : Dev} {e : Nat} {s : Dev} {x : Ins} {i : Nat} (ev : Evo true d₀ s) :
    Evo true d₀ (doWinset e s x i) := by
  unfold doWinset
  repeat' first
    | with_reducible assumption
    | with_reducible apply Dev.stageIns_evo


end Sys2Proof.Machine
end

