-- ==== Sys2Proof/Laws/Ev/Headgate.lean ====
section
/-! SUPPORT. What the operations of Machine/Headgate.lean can do to the whole device. -/

namespace Sys2Proof.Machine

theorem Dev.unbind_evo {m₀ : Bool} {d₀ : Dev} {s : Dev} {e : Nat} (ev : Evo m₀ d₀ s) :
    Evo m₀ d₀ (Dev.unbind s e) := by
  unfold Dev.unbind
  repeat' first
    | with_reducible assumption
    | with_reducible apply Dev.onEng_evo
    | (intro _; intros)
    | (with_reducible refine Evo.upd (by with_reducible assumption) ?_ ?_ ?_ ?_ ?_ ?_ ?_ ?_ ?_ ?_ <;> rfl)
    | split

theorem Dev.bindEng_evo {m₀ : Bool} {d₀ : Dev} {s : Dev} {i : Nat} {e : Nat} (ev : Evo m₀ d₀ s) :
    Evo m₀ d₀ (Dev.bindEng s i e) := by
  unfold Dev.bindEng
  repeat' first
    | with_reducible assumption
    | (extract_lets +onlyGivenNames z; refine Evo.cut (p := Evo m₀ d₀ z) ?_ (fun e1 => ?_); (on_goal 2 => clear_value z); (on_goal 1 => (unfold z; try clear z)))
    | (extract_lets +onlyGivenNames z; refine Evo.cut (p := Evo m₀ d₀ z.1) ?_ (fun e1 => ?_); (on_goal 2 => clear_value z); (on_goal 1 => (unfold z; try clear z)))
    | extract_lets +onlyGivenNames z
    | with_reducible apply Dev.onEng_evo
    | with_reducible apply Dev.wr_evo
    | (intro _; intros)
    | (with_reducible refine Evo.upd (by with_reducible assumption) ?_ ?_ ?_ ?_ ?_ ?_ ?_ ?_ ?_ ?_ <;> rfl)
    | split

theorem Dev.loadDwell_evo {m₀ : Bool} {d₀ : Dev} {s : Dev} {i : Nat} (ev : Evo m₀ d₀ s) :
    Evo m₀ d₀ (Dev.loadDwell s i) := by
  unfold Dev.loadDwell
  repeat' first
    | with_reducible assumption
    | (extract_lets +onlyGivenNames z; refine Evo.cut (p := Evo m₀ d₀ z) ?_ (fun e1 => ?_); (on_goal 2 => clear_value z); (on_goal 1 => (unfold z; try clear z)))
    | (extract_lets +onlyGivenNames z; refine Evo.cut (p := Evo m₀ d₀ z.1) ?_ (fun e1 => ?_); (on_goal 2 => clear_value z); (on_goal 1 => (unfold z; try clear z)))
    | extract_lets +onlyGivenNames z
    | with_reducible apply Dev.onSite_evo
    | with_reducible apply Evo.foldl_fst
    | with_reducible apply Evo.foldl
    | (intro _; intros)
    | (with_reducible refine Evo.upd (by with_reducible assumption) ?_ ?_ ?_ ?_ ?_ ?_ ?_ ?_ ?_ ?_ <;> rfl)

theorem Dev.recheck_evo {m₀ : Bool} {d₀ : Dev} {s : Dev} {i : Nat} {e0 : Nat} (ev : Evo m₀ d₀ s) :
    Evo m₀ d₀ (Dev.recheck s i e0) := by
  unfold Dev.recheck
  repeat' first
    | with_reducible assumption
    | (extract_lets +onlyGivenNames z; refine Evo.cut (p := Evo m₀ d₀ z) ?_ (fun e1 => ?_); (on_goal 2 => clear_value z); (on_goal 1 => (unfold z; try clear z)))
    | (extract_lets +onlyGivenNames z; refine Evo.cut (p := Evo m₀ d₀ z.1) ?_ (fun e1 => ?_); (on_goal 2 => clear_value z); (on_goal 1 => (unfold z; try clear z)))
    | extract_lets +onlyGivenNames z
    | with_reducible apply Dev.onSite_evo
    | with_reducible apply Dev.unbind_evo
    | with_reducible apply Dev.bindEng_evo
    | with_reducible apply Dev.loadDwell_evo
    | (intro _; intros)
    | (with_reducible refine Evo.upd (by with_reducible assumption) ?_ ?_ ?_ ?_ ?_ ?_ ?_ ?_ ?_ ?_ <;> rfl)
    | split

theorem Dev.recheckAll_evo {m₀ : Bool} {d₀ : Dev} {s : Dev} {l : List Nat} (ev : Evo m₀ d₀ s) :
    Evo m₀ d₀ (Dev.recheckAll s l) := by
  unfold Dev.recheckAll
  repeat' first
    | with_reducible assumption
    | with_reducible apply Dev.recheck_evo
    | with_reducible apply Evo.forL
    | (intro _; intros)

theorem Dev.hgtRej_evo {m₀ : Bool} {d₀ : Dev} {s : Dev} (ev : Evo m₀ d₀ s) :
    Evo m₀ d₀ (Dev.hgtRej s) := by
  unfold Dev.hgtRej
  repeat' first
    | with_reducible assumption
    | with_reducible apply Dev.setBits_evo

theorem Dev.hgtWrite_evo {m₀ : Bool} {d₀ : Dev} {s : Dev} {o : Nat} {v : W} (ev : Evo m₀ d₀ s) :
    Evo m₀ d₀ (Dev.hgtWrite s o v) := by
  unfold Dev.hgtWrite
  repeat' first
    | with_reducible assumption
    | (extract_lets +onlyGivenNames z; refine Evo.cut (p := Evo m₀ d₀ z) ?_ (fun e1 => ?_); (on_goal 2 => clear_value z); (on_goal 1 => (unfold z; try clear z)))
    | (extract_lets +onlyGivenNames z; refine Evo.cut (p := Evo m₀ d₀ z.1) ?_ (fun e1 => ?_); (on_goal 2 => clear_value z); (on_goal 1 => (unfold z; try clear z)))
    | extract_lets +onlyGivenNames z
    | with_reducible apply Dev.hgtRej_evo
    | with_reducible apply Dev.wr_evo
    | with_reducible apply Dev.recheckAll_evo
    | with_reducible apply Dev.recheck_evo
    | split

theorem Dev.mapClear_evo {m₀ : Bool} {d₀ : Dev} {s : Dev} (ev : Evo m₀ d₀ s) :
    Evo m₀ d₀ (Dev.mapClear s) := by
  unfold Dev.mapClear
  repeat' first
    | with_reducible assumption
    | (extract_lets +onlyGivenNames z; refine Evo.cut (p := Evo m₀ d₀ z) ?_ (fun e1 => ?_); (on_goal 2 => clear_value z); (on_goal 1 => (unfold z; try clear z)))
    | (extract_lets +onlyGivenNames z; refine Evo.cut (p := Evo m₀ d₀ z.1) ?_ (fun e1 => ?_); (on_goal 2 => clear_value z); (on_goal 1 => (unfold z; try clear z)))
    | extract_lets +onlyGivenNames z
    | with_reducible apply Dev.onSite_evo
    | with_reducible apply Dev.unbind_evo
    | with_reducible apply Evo.forL
    | with_reducible apply Evo.forN
    | (intro _; intros)
    | (with_reducible refine Evo.upd (by with_reducible assumption) ?_ ?_ ?_ ?_ ?_ ?_ ?_ ?_ ?_ ?_ <;> rfl)
    | (with_reducible refine Evo.filterRegs (by with_reducible assumption))
    | split
    | clear_value *


end Sys2Proof.Machine
end

