-- ==== Sys2Proof/Laws/Ev/Thermal.lean ====
section
/-! SUPPORT. What the operations of Machine/Thermal.lean can do to the whole device. -/

namespace Sys2Proof.Machine

theorem Dev.sensorChanged_evo {d₀ : Dev} {s : Dev} {n : Nat} {pos : Nat} (ev : Evo true d₀ s) :
    Evo true d₀ (Dev.sensorChanged s n pos) := by
  unfold Dev.sensorChanged
  repeat' first
    | with_reducible assumption
    | (extract_lets +onlyGivenNames z; refine Evo.cut (p := Evo true d₀ z) ?_ (fun e1 => ?_); (on_goal 2 => clear_value z); (on_goal 1 => (unfold z; try clear z)))
    | (extract_lets +onlyGivenNames z; refine Evo.cut (p := Evo true d₀ z.1) ?_ (fun e1 => ?_); (on_goal 2 => clear_value z); (on_goal 1 => (unfold z; try clear z)))
    | extract_lets +onlyGivenNames z
    | with_reducible apply Dev.produce_evo
    | with_reducible apply Dev.setLive_evo
    | with_reducible apply Dev.note_evo
    | with_reducible apply Dev.condOn_evo
    | (intro _; intros)
    | split

theorem Dev.cadence_evo {m₀ : Bool} {d₀ : Dev} {s : Dev} {n : Nat} (ev : Evo m₀ d₀ s) :
    Evo m₀ d₀ (Dev.cadence s n) := by
  unfold Dev.cadence
  repeat' first
    | with_reducible assumption
    | (extract_lets +onlyGivenNames z; refine Evo.cut (p := Evo m₀ d₀ z) ?_ (fun e1 => ?_); (on_goal 2 => clear_value z); (on_goal 1 => (unfold z; try clear z)))
    | (extract_lets +onlyGivenNames z; refine Evo.cut (p := Evo m₀ d₀ z.1) ?_ (fun e1 => ?_); (on_goal 2 => clear_value z); (on_goal 1 => (unfold z; try clear z)))
    | extract_lets +onlyGivenNames z
    | with_reducible apply Dev.setSensor_evo
    | (intro _; intros)
    | (with_reducible refine Evo.upd (by with_reducible assumption) ?_ ?_ ?_ ?_ ?_ ?_ ?_ ?_ ?_ ?_ <;> rfl)
    | split

theorem Dev.sensorReading_evo {d₀ : Dev} {s : Dev} {n : Nat} {pos : Nat} {r : SensorIn} (ev : Evo true d₀ s) :
    Evo true d₀ (Dev.sensorReading s n pos r) := by
  unfold Dev.sensorReading
  repeat' first
    | with_reducible assumption
    | (extract_lets +onlyGivenNames z; refine Evo.cut (p := Evo true d₀ z) ?_ (fun e1 => ?_); (on_goal 2 => clear_value z); (on_goal 1 => (unfold z; try clear z)))
    | (extract_lets +onlyGivenNames z; refine Evo.cut (p := Evo true d₀ z.1) ?_ (fun e1 => ?_); (on_goal 2 => clear_value z); (on_goal 1 => (unfold z; try clear z)))
    | extract_lets +onlyGivenNames z
    | with_reducible apply Dev.setSensor_evo
    | with_reducible apply Dev.cadence_evo
    | with_reducible apply Dev.setLive_evo
    | with_reducible apply Dev.raise_evo
    | with_reducible apply Dev.sensorChanged_evo
    | (intro _; intros)
    | split

theorem Dev.throttleWait_evo {d₀ : Dev} {s : Dev} {i : Nat} {d : Nat} (ev : Evo true d₀ s) :
    Evo true d₀ (Dev.throttleWait s i d) := by
  unfold Dev.throttleWait
  repeat' first
    | with_reducible assumption
    | (extract_lets +onlyGivenNames z; refine Evo.cut (p := Evo true d₀ z) ?_ (fun e1 => ?_); (on_goal 2 => clear_value z); (on_goal 1 => (unfold z; try clear z)))
    | (extract_lets +onlyGivenNames z; refine Evo.cut (p := Evo true d₀ z.1) ?_ (fun e1 => ?_); (on_goal 2 => clear_value z); (on_goal 1 => (unfold z; try clear z)))
    | extract_lets +onlyGivenNames z
    | with_reducible apply Dev.raise_evo
    | with_reducible apply Dev.onSite_evo
    | (intro _; intros)
    | (with_reducible refine Evo.upd (by with_reducible assumption) ?_ ?_ ?_ ?_ ?_ ?_ ?_ ?_ ?_ ?_ <;> rfl)

theorem Dev.waitCounts_evo {d₀ : Dev} {s : Dev} (ev : Evo true d₀ s) :
    Evo true d₀ (Dev.waitCounts s) := by
  unfold Dev.waitCounts
  repeat' first
    | with_reducible assumption
    | (extract_lets +onlyGivenNames z; refine Evo.cut (p := Evo true d₀ z) ?_ (fun e1 => ?_); (on_goal 2 => clear_value z); (on_goal 1 => (unfold z; try clear z)))
    | (extract_lets +onlyGivenNames z; refine Evo.cut (p := Evo true d₀ z.1) ?_ (fun e1 => ?_); (on_goal 2 => clear_value z); (on_goal 1 => (unfold z; try clear z)))
    | extract_lets +onlyGivenNames z
    | with_reducible apply Dev.setSite_evo
    | with_reducible apply Dev.throttleWait_evo
    | with_reducible apply Evo.forL
    | (intro _; intros)
    | (with_reducible refine Evo.upd (by with_reducible assumption) ?_ ?_ ?_ ?_ ?_ ?_ ?_ ?_ ?_ ?_ <;> rfl)
    | split

theorem Dev.demands_evo {m₀ : Bool} {d₀ : Dev} {s : Dev} (ev : Evo m₀ d₀ s) :
    Evo m₀ d₀ (Dev.demands s) := by
  unfold Dev.demands
  repeat' first
    | with_reducible assumption
    | with_reducible apply Dev.onSite_evo
    | with_reducible apply Evo.forL
    | (intro _; intros)
    | (with_reducible refine Evo.upd (by with_reducible assumption) ?_ ?_ ?_ ?_ ?_ ?_ ?_ ?_ ?_ ?_ <;> rfl)
    | split

theorem Dev.dpsPower_evo {m₀ : Bool} {d₀ : Dev} {s : Dev} {xs : List DpsSample} (ev : Evo m₀ d₀ s) :
    Evo m₀ d₀ (Dev.dpsPower s xs) := by
  unfold Dev.dpsPower
  repeat' first
    | with_reducible assumption
    | (extract_lets +onlyGivenNames z; refine Evo.cut (p := Evo m₀ d₀ z) ?_ (fun e1 => ?_); (on_goal 2 => clear_value z); (on_goal 1 => (unfold z; try clear z)))
    | (extract_lets +onlyGivenNames z; refine Evo.cut (p := Evo m₀ d₀ z.1) ?_ (fun e1 => ?_); (on_goal 2 => clear_value z); (on_goal 1 => (unfold z; try clear z)))
    | extract_lets +onlyGivenNames z
    | with_reducible apply Dev.dropout_evo
    | with_reducible apply Dev.wr_evo
    | with_reducible apply Dev.setBits_evo
    | with_reducible apply Evo.forL
    | (intro _; intros)
    | (with_reducible refine Evo.upd (by with_reducible assumption) ?_ ?_ ?_ ?_ ?_ ?_ ?_ ?_ ?_ ?_ <;> rfl)
    | split
    | clear_value *

theorem Dev.dpsMonitor_evo {d₀ : Dev} {s : Dev} {xs : List DpsSample} (ev : Evo true d₀ s) :
    Evo true d₀ (Dev.dpsMonitor s xs) := by
  unfold Dev.dpsMonitor
  repeat' first
    | with_reducible assumption
    | (extract_lets +onlyGivenNames z; refine Evo.cut (p := Evo true d₀ z) ?_ (fun e1 => ?_); (on_goal 2 => clear_value z); (on_goal 1 => (unfold z; try clear z)))
    | (extract_lets +onlyGivenNames z; refine Evo.cut (p := Evo true d₀ z.1) ?_ (fun e1 => ?_); (on_goal 2 => clear_value z); (on_goal 1 => (unfold z; try clear z)))
    | extract_lets +onlyGivenNames z
    | with_reducible apply Dev.raises_evo
    | (intro _; intros)
    | split


end Sys2Proof.Machine
end

