-- ==== Sys2Proof/Laws/Ev/Sequence.lean ====
section
/-! SUPPORT. What the operations of Machine/Sequence.lean can do to the whole device. -/

namespace Sys2Proof.Machine

theorem Dev.applyDwell_evo {m₀ : Bool} {d₀ : Dev} {s : Dev} {i : Nat} {code : Nat} {sel : Nat} (ev : Evo m₀ d₀ s) :
    Evo m₀ d₀ (Dev.applyDwell s i code sel) := by
  unfold Dev.applyDwell
  repeat' first
    | with_reducible assumption
    | (extract_lets +onlyGivenNames z; refine Evo.cut (p := Evo m₀ d₀ z) ?_ (fun e1 => ?_); (on_goal 2 => clear_value z); (on_goal 1 => (unfold z; try clear z)))
    | (extract_lets +onlyGivenNames z; refine Evo.cut (p := Evo m₀ d₀ z.1) ?_ (fun e1 => ?_); (on_goal 2 => clear_value z); (on_goal 1 => (unfold z; try clear z)))
    | extract_lets +onlyGivenNames z
    | with_reducible apply Dev.note_evo
    | with_reducible apply Dev.onSite_evo
    | with_reducible apply Evo.foldl_fst
    | with_reducible apply Evo.foldl
    | (intro _; intros)
    | (with_reducible refine Evo.upd (by with_reducible assumption) ?_ ?_ ?_ ?_ ?_ ?_ ?_ ?_ ?_ ?_ <;> rfl)
    | split

theorem Dev.applyJoin_evo {m₀ : Bool} {d₀ : Dev} {s : Dev} {e : Nat} {i : Nat} {seg : BitVec 16} {w : Nat} (ev : Evo m₀ d₀ s) :
    Evo m₀ d₀ (Dev.applyJoin s e i seg w) := by
  unfold Dev.applyJoin
  repeat' first
    | with_reducible assumption
    | with_reducible apply Dev.setFlag_evo
    | with_reducible apply Dev.onSite_evo
    | (intro _; intros)
    | (with_reducible refine Evo.upd (by with_reducible assumption) ?_ ?_ ?_ ?_ ?_ ?_ ?_ ?_ ?_ ?_ <;> rfl)
    | split

theorem Dev.unmask_evo {m₀ : Bool} {d₀ : Dev} {s : Dev} {i : Nat} (ev : Evo m₀ d₀ s) :
    Evo m₀ d₀ (Dev.unmask s i) := by
  unfold Dev.unmask
  repeat' first
    | with_reducible assumption
    | with_reducible apply Dev.onSite_evo
    | (intro _; intros)
    | (with_reducible refine Evo.upd (by with_reducible assumption) ?_ ?_ ?_ ?_ ?_ ?_ ?_ ?_ ?_ ?_ <;> rfl)

theorem Dev.exitSite_evo {m₀ : Bool} {d₀ : Dev} {s : Dev} {i : Nat} (ev : Evo m₀ d₀ s) :
    Evo m₀ d₀ (Dev.exitSite s i) := by
  unfold Dev.exitSite
  repeat' first
    | with_reducible assumption
    | with_reducible apply Dev.onSite_evo
    | (intro _; intros)
    | (with_reducible refine Evo.upd (by with_reducible assumption) ?_ ?_ ?_ ?_ ?_ ?_ ?_ ?_ ?_ ?_ <;> rfl)

theorem Dev.applyEng_evo {d₀ : Dev} {s : Dev} {x : EngEnt} (ev : Evo true d₀ s) :
    Evo true d₀ (Dev.applyEng s x) := by
  unfold Dev.applyEng
  repeat' first
    | with_reducible assumption
    | (extract_lets +onlyGivenNames z; refine Evo.cut (p := Evo true d₀ z) ?_ (fun e1 => ?_); (on_goal 2 => clear_value z); (on_goal 1 => (unfold z; try clear z)))
    | (extract_lets +onlyGivenNames z; refine Evo.cut (p := Evo true d₀ z.1) ?_ (fun e1 => ?_); (on_goal 2 => clear_value z); (on_goal 1 => (unfold z; try clear z)))
    | extract_lets +onlyGivenNames z
    | with_reducible apply Dev.onSite_evo
    | with_reducible apply Dev.applyJoin_evo
    | with_reducible apply Dev.applyDwell_evo
    | with_reducible apply applyLevel_evo
    | with_reducible apply applyEdge_evo
    | with_reducible apply applyForce_evo
    | with_reducible apply Dev.formGang_evo
    | with_reducible apply Dev.releaseGang_evo
    | with_reducible apply Dev.applyMeas_evo
    | with_reducible apply Dev.acqArmAt_evo
    | with_reducible apply Dev.chFlag_evo
    | with_reducible apply Dev.tdcOpenAt_evo
    | with_reducible apply applyWinset_evo
    | with_reducible apply Dev.exitSite_evo
    | with_reducible apply Evo.forL
    | (intro _; intros)
    | (with_reducible refine Evo.upd (by with_reducible assumption) ?_ ?_ ?_ ?_ ?_ ?_ ?_ ?_ ?_ ?_ <;> rfl)
    | split
    | clear_value *

theorem Dev.dwellSite_evo {m₀ : Bool} {d₀ : Dev} {s : Dev} {d : Nat} {i : Nat} (ev : Evo m₀ d₀ s) :
    Evo m₀ d₀ (Dev.dwellSite s d i) := by
  unfold Dev.dwellSite
  repeat' first
    | with_reducible assumption
    | with_reducible apply Dev.onSite_evo
    | (intro _; intros)
    | (with_reducible refine Evo.upd (by with_reducible assumption) ?_ ?_ ?_ ?_ ?_ ?_ ?_ ?_ ?_ ?_ <;> rfl)

theorem Dev.dropTpoint_evo {m₀ : Bool} {d₀ : Dev} {s : Dev} {i : Nat} (ev : Evo m₀ d₀ s) :
    Evo m₀ d₀ (Dev.dropTpoint s i) := by
  unfold Dev.dropTpoint
  repeat' first
    | with_reducible assumption
    | with_reducible apply Dev.onEng_evo
    | (intro _; intros)
    | (with_reducible refine Evo.upd (by with_reducible assumption) ?_ ?_ ?_ ?_ ?_ ?_ ?_ ?_ ?_ ?_ <;> rfl)
    | split
    | clear_value *

theorem Dev.tpointMask_evo {m₀ : Bool} {d₀ : Dev} {s : Dev} {y : Nat} (ev : Evo m₀ d₀ s) :
    Evo m₀ d₀ (Dev.tpointMask s y).1 := by
  unfold Dev.tpointMask
  repeat' first
    | with_reducible assumption
    | (extract_lets +onlyGivenNames z; refine Evo.cut (p := Evo m₀ d₀ z) ?_ (fun e1 => ?_); (on_goal 2 => clear_value z); (on_goal 1 => (unfold z; try clear z)))
    | (extract_lets +onlyGivenNames z; refine Evo.cut (p := Evo m₀ d₀ z.1) ?_ (fun e1 => ?_); (on_goal 2 => clear_value z); (on_goal 1 => (unfold z; try clear z)))
    | extract_lets +onlyGivenNames z
    | with_reducible apply Dev.dwellSite_evo
    | with_reducible apply Dev.dropTpoint_evo
    | with_reducible apply Evo.forL
    | (intro _; intros)
    | (with_reducible refine Evo.upd (by with_reducible assumption) ?_ ?_ ?_ ?_ ?_ ?_ ?_ ?_ ?_ ?_ <;> rfl)
    | split
    | dsimp only
    | clear_value *

theorem Dev.tpoints_evo {m₀ : Bool} {d₀ s : Dev} (ev : Evo m₀ d₀ s) : Evo m₀ d₀ s.tpoints.1 := by
  unfold Dev.tpoints
  split
  · exact ev
  · extract_lets l s1 r
    have e1 : Evo m₀ d₀ s1 := Evo.forL ev (fun _ _ h => Dev.dwellSite_evo h)
    have e2 : Evo m₀ d₀ r.1 := Evo.foldl_fst e1 (fun _ _ h => Dev.tpointMask_evo h)
    clear_value r
    exact Evo.updSites e2

theorem Dev.detachSite_evo {m₀ : Bool} {d₀ : Dev} {s : Dev} {alt : Bool} {i : Nat} (ev : Evo m₀ d₀ s) :
    Evo m₀ d₀ (Dev.detachSite s alt i) := by
  unfold Dev.detachSite
  repeat' first
    | with_reducible assumption
    | (extract_lets +onlyGivenNames z; refine Evo.cut (p := Evo m₀ d₀ z) ?_ (fun e1 => ?_); (on_goal 2 => clear_value z); (on_goal 1 => (unfold z; try clear z)))
    | (extract_lets +onlyGivenNames z; refine Evo.cut (p := Evo m₀ d₀ z.1) ?_ (fun e1 => ?_); (on_goal 2 => clear_value z); (on_goal 1 => (unfold z; try clear z)))
    | extract_lets +onlyGivenNames z
    | with_reducible apply Dev.onSite_evo
    | (intro _; intros)
    | (with_reducible refine Evo.upd (by with_reducible assumption) ?_ ?_ ?_ ?_ ?_ ?_ ?_ ?_ ?_ ?_ <;> rfl)
    | split

theorem Dev.maskExits_evo {m₀ : Bool} {d₀ : Dev} {s : Dev} (ev : Evo m₀ d₀ s) :
    Evo m₀ d₀ (Dev.maskExits s) := by
  unfold Dev.maskExits
  repeat' first
    | with_reducible assumption
    | (extract_lets +onlyGivenNames z; refine Evo.cut (p := Evo m₀ d₀ z) ?_ (fun e1 => ?_); (on_goal 2 => clear_value z); (on_goal 1 => (unfold z; try clear z)))
    | (extract_lets +onlyGivenNames z; refine Evo.cut (p := Evo m₀ d₀ z.1) ?_ (fun e1 => ?_); (on_goal 2 => clear_value z); (on_goal 1 => (unfold z; try clear z)))
    | extract_lets +onlyGivenNames z
    | with_reducible apply Dev.detachSite_evo
    | with_reducible apply Dev.exitSite_evo
    | with_reducible apply Evo.forL
    | (intro _; intros)

theorem Dev.failRdv_evo {m₀ : Bool} {d₀ : Dev} {s : Dev} {i : Nat} (ev : Evo m₀ d₀ s) :
    Evo m₀ d₀ (Dev.failRdv s i) := by
  unfold Dev.failRdv
  repeat' first
    | with_reducible assumption
    | with_reducible apply Dev.onSite_evo
    | (intro _; intros)
    | (with_reducible refine Evo.upd (by with_reducible assumption) ?_ ?_ ?_ ?_ ?_ ?_ ?_ ?_ ?_ ?_ <;> rfl)

theorem Dev.agePlay_evo {m₀ : Bool} {d₀ : Dev} {s : Dev} {i : Nat} (ev : Evo m₀ d₀ s) :
    Evo m₀ d₀ (Dev.agePlay s i) := by
  unfold Dev.agePlay
  repeat' first
    | with_reducible assumption
    | with_reducible apply Dev.onSite_evo
    | (intro _; intros)
    | (with_reducible refine Evo.upd (by with_reducible assumption) ?_ ?_ ?_ ?_ ?_ ?_ ?_ ?_ ?_ ?_ <;> rfl)
    | split

theorem SeqOut.move_evo {d₀ : Dev} {o : SeqOut} {y : Nat} {m : List Nat} {c : Nat} {seg : BitVec 16} {g : Placed} (ev : Evo true d₀ o.s) :
    Evo true d₀ (SeqOut.move o y m c seg g).s := by
  unfold SeqOut.move
  repeat' first
    | with_reducible assumption
    | (extract_lets +onlyGivenNames z; refine Evo.cut (p := Evo true d₀ z) ?_ (fun e1 => ?_); (on_goal 2 => clear_value z); (on_goal 1 => (unfold z; try clear z)))
    | (extract_lets +onlyGivenNames z; refine Evo.cut (p := Evo true d₀ z.1) ?_ (fun e1 => ?_); (on_goal 2 => clear_value z); (on_goal 1 => (unfold z; try clear z)))
    | extract_lets +onlyGivenNames z
    | with_reducible apply Dev.onSite_evo
    | with_reducible apply Dev.failRdv_evo
    | with_reducible apply Dev.moveSeg_evo
    | with_reducible apply Evo.forL
    | (intro _; intros)
    | (with_reducible refine Evo.upd (by with_reducible assumption) ?_ ?_ ?_ ?_ ?_ ?_ ?_ ?_ ?_ ?_ <;> rfl)
    | split
    | dsimp only

theorem SeqOut.wait_evo {m₀ : Bool} {d₀ : Dev} {o : SeqOut} {y : Nat} {m : List Nat} {free : Bool} (ev : Evo m₀ d₀ o.s) :
    Evo m₀ d₀ (SeqOut.wait o y m free).s := by
  unfold SeqOut.wait
  repeat' first
    | with_reducible assumption
    | (extract_lets +onlyGivenNames z; refine Evo.cut (p := Evo m₀ d₀ z) ?_ (fun e1 => ?_); (on_goal 2 => clear_value z); (on_goal 1 => (unfold z; try clear z)))
    | (extract_lets +onlyGivenNames z; refine Evo.cut (p := Evo m₀ d₀ z.1) ?_ (fun e1 => ?_); (on_goal 2 => clear_value z); (on_goal 1 => (unfold z; try clear z)))
    | extract_lets +onlyGivenNames z
    | with_reducible apply Dev.agePlay_evo
    | with_reducible apply Dev.failRdv_evo
    | with_reducible apply Evo.forL
    | (intro _; intros)
    | (with_reducible refine Evo.upd (by with_reducible assumption) ?_ ?_ ?_ ?_ ?_ ?_ ?_ ?_ ?_ ?_ <;> rfl)
    | split
    | dsimp only

theorem SeqOut.elect_evo {m₀ : Bool} {d₀ : Dev} {o : SeqOut} {y : Nat} (ev : Evo m₀ d₀ o.s) :
    Evo m₀ d₀ (SeqOut.elect o y).s := by
  unfold SeqOut.elect
  repeat' first
    | with_reducible assumption
    | with_reducible apply Dev.onPly_evo
    | (intro _; intros)
    | (with_reducible refine Evo.upd (by with_reducible assumption) ?_ ?_ ?_ ?_ ?_ ?_ ?_ ?_ ?_ ?_ <;> rfl)
    | dsimp only

theorem SeqOut.player_evo {d₀ : Dev} {o : SeqOut} {y : Nat} (ev : Evo true d₀ o.s) :
    Evo true d₀ (SeqOut.player o y).s := by
  unfold SeqOut.player
  repeat' first
    | with_reducible assumption
    | (extract_lets +onlyGivenNames z; refine Evo.cut (p := Evo true d₀ z) ?_ (fun e1 => ?_); (on_goal 2 => clear_value z); (on_goal 1 => (unfold z; try clear z)))
    | (extract_lets +onlyGivenNames z; refine Evo.cut (p := Evo true d₀ z.1) ?_ (fun e1 => ?_); (on_goal 2 => clear_value z); (on_goal 1 => (unfold z; try clear z)))
    | extract_lets +onlyGivenNames z
    | with_reducible apply SeqOut.elect_evo
    | with_reducible apply SeqOut.wait_evo
    | with_reducible apply SeqOut.move_evo
    | with_reducible apply Dev.badSeg_evo
    | (with_reducible refine Evo.upd (by with_reducible assumption) ?_ ?_ ?_ ?_ ?_ ?_ ?_ ?_ ?_ ?_ <;> rfl)
    | split
    | dsimp only
    | clear_value *

theorem Dev.ageAlone_evo {m₀ : Bool} {d₀ : Dev} {s : Dev} (ev : Evo m₀ d₀ s) :
    Evo m₀ d₀ (Dev.ageAlone s) := by
  unfold Dev.ageAlone
  repeat' first
    | with_reducible assumption
    | with_reducible apply Dev.agePlay_evo
    | with_reducible apply Evo.forL
    | (intro _; intros)

theorem Dev.joinLapse_evo {m₀ : Bool} {d₀ : Dev} {s : Dev} {i : Nat} (ev : Evo m₀ d₀ s) :
    Evo m₀ d₀ (Dev.joinLapse s i) := by
  unfold Dev.joinLapse
  repeat' first
    | with_reducible assumption
    | with_reducible apply Dev.onSite_evo
    | with_reducible apply Dev.setFlag_evo
    | (intro _; intros)
    | (with_reducible refine Evo.upd (by with_reducible assumption) ?_ ?_ ?_ ?_ ?_ ?_ ?_ ?_ ?_ ?_ <;> rfl)

theorem Dev.joinTick_evo {m₀ : Bool} {d₀ : Dev} {s : Dev} {moved : List (Nat × Nat)} {i : Nat} (ev : Evo m₀ d₀ s) :
    Evo m₀ d₀ (Dev.joinTick s moved i) := by
  unfold Dev.joinTick
  repeat' first
    | with_reducible assumption
    | with_reducible apply Dev.onSite_evo
    | with_reducible apply Dev.setFlag_evo
    | with_reducible apply Dev.joinLapse_evo
    | (intro _; intros)
    | (with_reducible refine Evo.upd (by with_reducible assumption) ?_ ?_ ?_ ?_ ?_ ?_ ?_ ?_ ?_ ?_ <;> rfl)
    | split
    | clear_value *

theorem Dev.joins_evo {m₀ : Bool} {d₀ : Dev} {s : Dev} {moved : List (Nat × Nat)} (ev : Evo m₀ d₀ s) :
    Evo m₀ d₀ (Dev.joins s moved) := by
  unfold Dev.joins
  repeat' first
    | with_reducible assumption
    | with_reducible apply Dev.joinTick_evo
    | with_reducible apply Evo.forL
    | (intro _; intros)

theorem Dev.finishPly_evo {d₀ : Dev} {s : Dev} {was : Dev} {jumps : List (Nat × Nat)} {y : Nat} (ev : Evo true d₀ s) :
    Evo true d₀ (Dev.finishPly s was jumps y) := by
  unfold Dev.finishPly
  repeat' first
    | with_reducible assumption
    | (extract_lets +onlyGivenNames z; refine Evo.cut (p := Evo true d₀ z) ?_ (fun e1 => ?_); (on_goal 2 => clear_value z); (on_goal 1 => (unfold z; try clear z)))
    | (extract_lets +onlyGivenNames z; refine Evo.cut (p := Evo true d₀ z.1) ?_ (fun e1 => ?_); (on_goal 2 => clear_value z); (on_goal 1 => (unfold z; try clear z)))
    | extract_lets +onlyGivenNames z
    | with_reducible apply Mi.next_evo
    | with_reducible apply Dev.cutDwell_evo
    | with_reducible apply Dev.waitingJump_evo
    | with_reducible apply Dev.jump_evo
    | with_reducible apply Dev.fixSeq_evo
    | with_reducible apply Dev.latchAtTick_evo
    | with_reducible apply Dev.edgeClamp_evo
    | (with_reducible refine Evo.upd (by with_reducible assumption) ?_ ?_ ?_ ?_ ?_ ?_ ?_ ?_ ?_ ?_ <;> rfl)
    | split
    | clear_value *

theorem Dev.quietPins_evo {m₀ : Bool} {d₀ : Dev} {s : Dev} (ev : Evo m₀ d₀ s) :
    Evo m₀ d₀ (Dev.quietPins s) := by
  unfold Dev.quietPins
  repeat' first
    | with_reducible assumption
    | with_reducible apply Dev.onSite_evo
    | with_reducible apply Evo.forL
    | (intro _; intros)
    | (with_reducible refine Evo.upd (by with_reducible assumption) ?_ ?_ ?_ ?_ ?_ ?_ ?_ ?_ ?_ ?_ <;> rfl)

theorem Dev.playersPhase_evo {d₀ s : Dev} {jumps : List (Nat × Nat)} (ev : Evo true d₀ s) : Evo true d₀ (s.playersPhase jumps) := by
  unfold Dev.playersPhase
  extract_lets was s1 t s2 o s3 s4
  have e1 : Evo true d₀ s1 := Evo.forN ev (fun _ _ h => by
    split
    · exact h
    · exact Dev.underVoid_evo h)
  clear_value s1
  have e2 : Evo true d₀ s2 := Evo.forL (Dev.tpoints_evo e1) (fun _ _ h => Dev.failRdv_evo h)
  clear_value s2 t
  have e3 : Evo true d₀ o.s := by
    refine Evo.foldlBy SeqOut.s ?_ (fun _ _ h => SeqOut.player_evo h)
    exact Dev.maskExits_evo e2
  clear_value o
  have e4 : Evo true d₀ s3 := Dev.joins_evo (Dev.ageAlone_evo e3)
  clear_value s3
  have e5 : Evo true d₀ s4 := by
    unfold s4
    split
    · exact e4
    · exact Dev.raise_evo e4
  clear_value s4
  exact Dev.quietPins_evo (Evo.forN e5 (fun _ _ h => Dev.finishPly_evo h))


end Sys2Proof.Machine
end

