-- ==== Sys2Proof/Laws/Ev/Commit.lean ====
section
/-! SUPPORT. What the operations of Machine/Commit.lean can do to the whole device. -/

namespace Sys2Proof.Machine

theorem Dev.overrunEng_evo {m₀ : Bool} {d₀ : Dev} {s : Dev} {e : Nat} (ev : Evo m₀ d₀ s) :
    Evo m₀ d₀ (Dev.overrunEng s e) := by
  unfold Dev.overrunEng
  repeat' first
    | with_reducible assumption
    | (extract_lets +onlyGivenNames z; refine Evo.cut (p := Evo m₀ d₀ z) ?_ (fun e1 => ?_); (on_goal 2 => clear_value z); (on_goal 1 => (unfold z; try clear z)))
    | (extract_lets +onlyGivenNames z; refine Evo.cut (p := Evo m₀ d₀ z.1) ?_ (fun e1 => ?_); (on_goal 2 => clear_value z); (on_goal 1 => (unfold z; try clear z)))
    | extract_lets +onlyGivenNames z
    | with_reducible apply Dev.onEng_evo
    | with_reducible apply Dev.onSite_evo
    | with_reducible apply Dev.setBits_evo
    | (intro _; intros)
    | (with_reducible refine Evo.upd (by with_reducible assumption) ?_ ?_ ?_ ?_ ?_ ?_ ?_ ?_ ?_ ?_ <;> rfl)
    | split
    | clear_value *

theorem Dev.overrunAll_evo {d₀ : Dev} {s : Dev} {l : List Nat} (ev : Evo true d₀ s) :
    Evo true d₀ (Dev.overrunAll s l) := by
  unfold Dev.overrunAll
  repeat' first
    | with_reducible assumption
    | (extract_lets +onlyGivenNames z; refine Evo.cut (p := Evo true d₀ z) ?_ (fun e1 => ?_); (on_goal 2 => clear_value z); (on_goal 1 => (unfold z; try clear z)))
    | (extract_lets +onlyGivenNames z; refine Evo.cut (p := Evo true d₀ z.1) ?_ (fun e1 => ?_); (on_goal 2 => clear_value z); (on_goal 1 => (unfold z; try clear z)))
    | extract_lets +onlyGivenNames z
    | with_reducible apply Dev.overrunEng_evo
    | with_reducible apply Dev.raises_evo
    | with_reducible apply Evo.forL
    | (intro _; intros)
    | split

theorem Dev.voidSlots_evo {m₀ : Bool} {d₀ s : Dev} {i n : Nat} (ev : Evo m₀ d₀ s) : Evo m₀ d₀ (s.voidSlots i n) := by
  unfold Dev.voidSlots
  extract_lets f g s1
  have e1 : Evo m₀ d₀ s1 := Dev.onSite_evo ev
  clear_value s1
  (refine Evo.all e1 ?_ ?_ ?_ ?_ ?_ ?_ ?_ ?_ ?_ ?_ ?_ ?_ ?_ ?_ ?_ ?_ ?_ ?_ ?_ ?_ ?_ ?_ ?_ ?_ ?_ ?_ <;> first | exact id | rfl | exact fun k => Tab.wf_upd _ k | exact fun k => Tab.wf_updAt _ k | exact fun k => Tab.wf_filter _ k)

theorem Dev.addDue_evo {m₀ : Bool} {d₀ : Dev} {s : Dev} {c : Closing} (ev : Evo m₀ d₀ s) :
    Evo m₀ d₀ (Dev.addDue s c) := by
  unfold Dev.addDue
  repeat' first
    | with_reducible assumption
    | (with_reducible refine Evo.upd (by with_reducible assumption) ?_ ?_ ?_ ?_ ?_ ?_ ?_ ?_ ?_ ?_ <;> rfl)

theorem Dev.closeStep_evo {m₀ : Bool} {d₀ : Dev} {s : Dev} {i : Nat} {p : Step} {st : Nat} (ev : Evo m₀ d₀ s) :
    Evo m₀ d₀ (Dev.closeStep s i p st) := by
  unfold Dev.closeStep
  repeat' first
    | with_reducible assumption
    | (extract_lets +onlyGivenNames z; refine Evo.cut (p := Evo m₀ d₀ z) ?_ (fun e1 => ?_); (on_goal 2 => clear_value z); (on_goal 1 => (unfold z; try clear z)))
    | (extract_lets +onlyGivenNames z; refine Evo.cut (p := Evo m₀ d₀ z.1) ?_ (fun e1 => ?_); (on_goal 2 => clear_value z); (on_goal 1 => (unfold z; try clear z)))
    | extract_lets +onlyGivenNames z
    | with_reducible apply Dev.voidSlots_evo
    | with_reducible apply Dev.onSite_evo
    | with_reducible apply Mi.close_evo
    | with_reducible apply Dev.addDue_evo
    | (intro _; intros)
    | (with_reducible refine Evo.upd (by with_reducible assumption) ?_ ?_ ?_ ?_ ?_ ?_ ?_ ?_ ?_ ?_ <;> rfl)
    | split

theorem Dev.cancelStep_evo {m₀ : Bool} {d₀ : Dev} {s : Dev} {i : Nat} {p : Step} (ev : Evo m₀ d₀ s) :
    Evo m₀ d₀ (Dev.cancelStep s i p) := by
  unfold Dev.cancelStep
  repeat' first
    | with_reducible assumption
    | with_reducible apply Dev.addDue_evo

theorem Dev.keepStep_evo {m₀ : Bool} {d₀ : Dev} {s : Dev} {i : Nat} {p : Step} (ev : Evo m₀ d₀ s) :
    Evo m₀ d₀ (Dev.keepStep s i p) := by
  unfold Dev.keepStep
  repeat' first
    | with_reducible assumption
    | (extract_lets +onlyGivenNames z; refine Evo.cut (p := Evo m₀ d₀ z) ?_ (fun e1 => ?_); (on_goal 2 => clear_value z); (on_goal 1 => (unfold z; try clear z)))
    | (extract_lets +onlyGivenNames z; refine Evo.cut (p := Evo m₀ d₀ z.1) ?_ (fun e1 => ?_); (on_goal 2 => clear_value z); (on_goal 1 => (unfold z; try clear z)))
    | extract_lets +onlyGivenNames z
    | with_reducible apply Dev.onSite_evo
    | (intro _; intros)
    | (with_reducible refine Evo.upd (by with_reducible assumption) ?_ ?_ ?_ ?_ ?_ ?_ ?_ ?_ ?_ ?_ <;> rfl)
    | split

theorem Dev.commitVoid_evo {m₀ : Bool} {d₀ : Dev} {s : Dev} {i : Nat} {cause : Nat} {ended : Option Step} {step : Option Step} (ev : Evo m₀ d₀ s) :
    Evo m₀ d₀ (Dev.commitVoid s i cause ended step) := by
  unfold Dev.commitVoid
  repeat' first
    | with_reducible assumption
    | with_reducible apply Dev.closeStep_evo
    | with_reducible apply Dev.onSite_evo
    | with_reducible apply Dev.cancelStep_evo
    | with_reducible apply Evo.forL
    | (intro _; intros)
    | (with_reducible refine Evo.upd (by with_reducible assumption) ?_ ?_ ?_ ?_ ?_ ?_ ?_ ?_ ?_ ?_ <;> rfl)
    | split

theorem Dev.commitEnded_evo {m₀ : Bool} {d₀ : Dev} {s : Dev} {i : Nat} {ended : Option Step} (ev : Evo m₀ d₀ s) :
    Evo m₀ d₀ (Dev.commitEnded s i ended) := by
  unfold Dev.commitEnded
  repeat' first
    | with_reducible assumption
    | with_reducible apply Dev.closeStep_evo
    | (with_reducible refine Evo.upd (by with_reducible assumption) ?_ ?_ ?_ ?_ ?_ ?_ ?_ ?_ ?_ ?_ <;> rfl)
    | split
    | clear_value *

theorem Dev.commitSite_evo {m₀ : Bool} {d₀ : Dev} {i : Nat} {s : Dev} (ev : Evo m₀ d₀ s) :
    Evo m₀ d₀ (Dev.commitSite i s) := by
  unfold Dev.commitSite
  repeat' first
    | with_reducible assumption
    | (extract_lets +onlyGivenNames z; refine Evo.cut (p := Evo m₀ d₀ z) ?_ (fun e1 => ?_); (on_goal 2 => clear_value z); (on_goal 1 => (unfold z; try clear z)))
    | (extract_lets +onlyGivenNames z; refine Evo.cut (p := Evo m₀ d₀ z.1) ?_ (fun e1 => ?_); (on_goal 2 => clear_value z); (on_goal 1 => (unfold z; try clear z)))
    | extract_lets +onlyGivenNames z
    | with_reducible apply Dev.setSite_evo
    | with_reducible apply Dev.commitVoid_evo
    | with_reducible apply Dev.commitEnded_evo
    | with_reducible apply Dev.keepStep_evo
    | (with_reducible refine Evo.upd (by with_reducible assumption) ?_ ?_ ?_ ?_ ?_ ?_ ?_ ?_ ?_ ?_ <;> rfl)
    | split
    | clear_value *

theorem Dev.closeTick_evo {m₀ : Bool} {d₀ : Dev} {s : Dev} (ev : Evo m₀ d₀ s) :
    Evo m₀ d₀ (Dev.closeTick s) := by
  unfold Dev.closeTick
  repeat' first
    | with_reducible assumption
    | with_reducible apply Dev.numberDue_evo
    | (intro _; intros)
    | (with_reducible refine Evo.upd (by with_reducible assumption) ?_ ?_ ?_ ?_ ?_ ?_ ?_ ?_ ?_ ?_ <;> rfl)
    | split

theorem Dev.commitAll_evo {m₀ : Bool} {d₀ : Dev} {s : Dev} (ev : Evo m₀ d₀ s) :
    Evo m₀ d₀ (Dev.commitAll s).1 := by
  unfold Dev.commitAll
  repeat' first
    | with_reducible assumption
    | (extract_lets +onlyGivenNames z; refine Evo.cut (p := Evo m₀ d₀ z) ?_ (fun e1 => ?_); (on_goal 2 => clear_value z); (on_goal 1 => (unfold z; try clear z)))
    | (extract_lets +onlyGivenNames z; refine Evo.cut (p := Evo m₀ d₀ z.1) ?_ (fun e1 => ?_); (on_goal 2 => clear_value z); (on_goal 1 => (unfold z; try clear z)))
    | extract_lets +onlyGivenNames z
    | with_reducible apply Dev.commitSite_evo
    | with_reducible apply Dev.closeTick_evo
    | with_reducible apply Evo.forL
    | (intro _; intros)
    | dsimp only

theorem Dev.retireEng_evo {m₀ : Bool} {d₀ : Dev} {s : Dev} {e : Nat} (ev : Evo m₀ d₀ s) :
    Evo m₀ d₀ (Dev.retireEng s e) := by
  unfold Dev.retireEng
  repeat' first
    | with_reducible assumption
    | with_reducible apply Dev.setEng_evo
    | with_reducible apply Dev.saveMap_evo
    | (with_reducible refine Evo.upd (by with_reducible assumption) ?_ ?_ ?_ ?_ ?_ ?_ ?_ ?_ ?_ ?_ <;> rfl)

theorem Dev.takeOver_evo {m₀ : Bool} {d₀ : Dev} {s : Dev} {i : Nat} {n : Nat} (ev : Evo m₀ d₀ s) :
    Evo m₀ d₀ (Dev.takeOver s i n) := by
  unfold Dev.takeOver
  repeat' first
    | with_reducible assumption
    | (extract_lets +onlyGivenNames z; refine Evo.cut (p := Evo m₀ d₀ z) ?_ (fun e1 => ?_); (on_goal 2 => clear_value z); (on_goal 1 => (unfold z; try clear z)))
    | (extract_lets +onlyGivenNames z; refine Evo.cut (p := Evo m₀ d₀ z.1) ?_ (fun e1 => ?_); (on_goal 2 => clear_value z); (on_goal 1 => (unfold z; try clear z)))
    | extract_lets +onlyGivenNames z
    | with_reducible apply Dev.setFld_evo
    | with_reducible apply Dev.wr_evo
    | with_reducible apply Dev.clearScr_evo
    | with_reducible apply Dev.setEng_evo
    | with_reducible apply Dev.repair_evo
    | (intro _; intros)
    | (with_reducible refine Evo.upd (by with_reducible assumption) ?_ ?_ ?_ ?_ ?_ ?_ ?_ ?_ ?_ ?_ <;> rfl)
    | (with_reducible refine Evo.filterRegs (by with_reducible assumption))
    | split
    | clear_value *

theorem Dev.repairEng_evo {m₀ : Bool} {d₀ : Dev} {s : Dev} {e : Nat} (ev : Evo m₀ d₀ s) :
    Evo m₀ d₀ (Dev.repairEng s e) := by
  unfold Dev.repairEng
  repeat' first
    | with_reducible assumption
    | (extract_lets +onlyGivenNames z; refine Evo.cut (p := Evo m₀ d₀ z) ?_ (fun e1 => ?_); (on_goal 2 => clear_value z); (on_goal 1 => (unfold z; try clear z)))
    | (extract_lets +onlyGivenNames z; refine Evo.cut (p := Evo m₀ d₀ z.1) ?_ (fun e1 => ?_); (on_goal 2 => clear_value z); (on_goal 1 => (unfold z; try clear z)))
    | extract_lets +onlyGivenNames z
    | with_reducible apply Dev.retireEng_evo
    | with_reducible apply Dev.voidSite_evo
    | with_reducible apply Dev.takeOver_evo
    | with_reducible apply Dev.onSite_evo
    | with_reducible apply Dev.note_evo
    | (intro _; intros)
    | (with_reducible refine Evo.upd (by with_reducible assumption) ?_ ?_ ?_ ?_ ?_ ?_ ?_ ?_ ?_ ?_ <;> rfl)
    | split
    | clear_value *

theorem Dev.engRepairs_evo {m₀ : Bool} {d₀ : Dev} {s : Dev} (ev : Evo m₀ d₀ s) :
    Evo m₀ d₀ (Dev.engRepairs s) := by
  unfold Dev.engRepairs
  repeat' first
    | with_reducible assumption
    | with_reducible apply Dev.repair_evo
    | with_reducible apply Dev.repairEng_evo
    | with_reducible apply Evo.forL
    | (intro _; intros)

theorem Dev.engRepairsSafe_evo {m₀ : Bool} {d₀ : Dev} {s : Dev} (ev : Evo m₀ d₀ s) :
    Evo m₀ d₀ (Dev.engRepairsSafe s) := by
  unfold Dev.engRepairsSafe
  repeat' first
    | with_reducible assumption
    | (extract_lets +onlyGivenNames z; refine Evo.cut (p := Evo m₀ d₀ z) ?_ (fun e1 => ?_); (on_goal 2 => clear_value z); (on_goal 1 => (unfold z; try clear z)))
    | (extract_lets +onlyGivenNames z; refine Evo.cut (p := Evo m₀ d₀ z.1) ?_ (fun e1 => ?_); (on_goal 2 => clear_value z); (on_goal 1 => (unfold z; try clear z)))
    | extract_lets +onlyGivenNames z
    | with_reducible apply Dev.repair_evo
    | with_reducible apply Dev.repairEng_evo
    | with_reducible apply Evo.forL
    | (intro _; intros)
    | (with_reducible refine Evo.upd (by with_reducible assumption) ?_ ?_ ?_ ?_ ?_ ?_ ?_ ?_ ?_ ?_ <;> rfl)
    | (with_reducible refine Evo.updEngs (by with_reducible assumption))
    | split

theorem Dev.releaseFlags_evo {m₀ : Bool} {d₀ : Dev} {s : Dev} {e : Nat} (ev : Evo m₀ d₀ s) :
    Evo m₀ d₀ (Dev.releaseFlags s e) := by
  unfold Dev.releaseFlags
  repeat' first
    | with_reducible assumption
    | (extract_lets +onlyGivenNames z; refine Evo.cut (p := Evo m₀ d₀ z) ?_ (fun e1 => ?_); (on_goal 2 => clear_value z); (on_goal 1 => (unfold z; try clear z)))
    | (extract_lets +onlyGivenNames z; refine Evo.cut (p := Evo m₀ d₀ z.1) ?_ (fun e1 => ?_); (on_goal 2 => clear_value z); (on_goal 1 => (unfold z; try clear z)))
    | extract_lets +onlyGivenNames z
    | with_reducible apply Dev.setFld_evo
    | (with_reducible refine Evo.upd (by with_reducible assumption) ?_ ?_ ?_ ?_ ?_ ?_ ?_ ?_ ?_ ?_ <;> rfl)
    | split
    | clear_value *

theorem Dev.enterVoidh_evo {m₀ : Bool} {d₀ : Dev} {s : Dev} {e : Nat} {i : Nat} {cause : Nat} (ev : Evo m₀ d₀ s) :
    Evo m₀ d₀ (Dev.enterVoidh s e i cause) := by
  unfold Dev.enterVoidh
  repeat' first
    | with_reducible assumption
    | (extract_lets +onlyGivenNames z; refine Evo.cut (p := Evo m₀ d₀ z) ?_ (fun e1 => ?_); (on_goal 2 => clear_value z); (on_goal 1 => (unfold z; try clear z)))
    | (extract_lets +onlyGivenNames z; refine Evo.cut (p := Evo m₀ d₀ z.1) ?_ (fun e1 => ?_); (on_goal 2 => clear_value z); (on_goal 1 => (unfold z; try clear z)))
    | extract_lets +onlyGivenNames z
    | with_reducible apply Dev.wr_evo
    | with_reducible apply Dev.repair_evo
    | with_reducible apply Dev.setEng_evo
    | with_reducible apply Dev.setPc_evo
    | with_reducible apply Dev.releaseFlags_evo
    | with_reducible apply Dev.exitSite_evo
    | (with_reducible refine Evo.upd (by with_reducible assumption) ?_ ?_ ?_ ?_ ?_ ?_ ?_ ?_ ?_ ?_ <;> rfl)
    | split

theorem Dev.releaseEng_evo {m₀ : Bool} {d₀ : Dev} {s : Dev} {e : Nat} (ev : Evo m₀ d₀ s) :
    Evo m₀ d₀ (Dev.releaseEng s e) := by
  unfold Dev.releaseEng
  repeat' first
    | with_reducible assumption
    | (extract_lets +onlyGivenNames z; refine Evo.cut (p := Evo m₀ d₀ z) ?_ (fun e1 => ?_); (on_goal 2 => clear_value z); (on_goal 1 => (unfold z; try clear z)))
    | (extract_lets +onlyGivenNames z; refine Evo.cut (p := Evo m₀ d₀ z.1) ?_ (fun e1 => ?_); (on_goal 2 => clear_value z); (on_goal 1 => (unfold z; try clear z)))
    | extract_lets +onlyGivenNames z
    | with_reducible apply Dev.onEng_evo
    | with_reducible apply Dev.enterVoidh_evo
    | with_reducible apply Dev.setEng_evo
    | with_reducible apply Dev.releaseFlags_evo
    | (intro _; intros)
    | (with_reducible refine Evo.upd (by with_reducible assumption) ?_ ?_ ?_ ?_ ?_ ?_ ?_ ?_ ?_ ?_ <;> rfl)
    | split
    | clear_value *

theorem Dev.releaseAll_evo {m₀ : Bool} {d₀ : Dev} {s : Dev} (ev : Evo m₀ d₀ s) :
    Evo m₀ d₀ (Dev.releaseAll s) := by
  unfold Dev.releaseAll
  repeat' first
    | with_reducible assumption
    | (extract_lets +onlyGivenNames z; refine Evo.cut (p := Evo m₀ d₀ z) ?_ (fun e1 => ?_); (on_goal 2 => clear_value z); (on_goal 1 => (unfold z; try clear z)))
    | (extract_lets +onlyGivenNames z; refine Evo.cut (p := Evo m₀ d₀ z.1) ?_ (fun e1 => ?_); (on_goal 2 => clear_value z); (on_goal 1 => (unfold z; try clear z)))
    | extract_lets +onlyGivenNames z
    | with_reducible apply Dev.releaseEng_evo
    | with_reducible apply Evo.forL
    | (intro _; intros)
    | (with_reducible refine Evo.upd (by with_reducible assumption) ?_ ?_ ?_ ?_ ?_ ?_ ?_ ?_ ?_ ?_ <;> rfl)
    | (with_reducible refine Evo.updSites (by with_reducible assumption))


end Sys2Proof.Machine
end

