-- ==== Sys2Proof/Laws/Ev/Run.lean ====
section
/-! SUPPORT. What the operations of Machine/Run.lean can do to the whole device. -/

namespace Sys2Proof.Machine

theorem Dev.startSite_evo {m₀ : Bool} {d₀ : Dev} {s : Dev} {entry : Nat} {i : Nat} (ev : Evo m₀ d₀ s) :
    Evo m₀ d₀ (Dev.startSite s entry i) := by
  unfold Dev.startSite
  repeat' first
    | with_reducible assumption
    | (extract_lets +onlyGivenNames z; refine Evo.cut (p := Evo m₀ d₀ z) ?_ (fun e1 => ?_); (on_goal 2 => clear_value z); (on_goal 1 => (unfold z; try clear z)))
    | (extract_lets +onlyGivenNames z; refine Evo.cut (p := Evo m₀ d₀ z.1) ?_ (fun e1 => ?_); (on_goal 2 => clear_value z); (on_goal 1 => (unfold z; try clear z)))
    | extract_lets +onlyGivenNames z
    | with_reducible apply Dev.onSite_evo
    | with_reducible apply Dev.clrBits_evo
    | with_reducible apply Dev.onEng_evo
    | with_reducible apply Dev.setPc_evo
    | (intro _; intros)

theorem Dev.runStart_evo {m₀ : Bool} {d₀ : Dev} {s : Dev} {entry : Nat} {l : List Nat} (ev : Evo m₀ d₀ s) :
    Evo m₀ d₀ (Dev.runStart s entry l).1 := by
  unfold Dev.runStart
  repeat' first
    | with_reducible assumption
    | with_reducible apply Dev.startSite_evo
    | with_reducible apply Evo.forL
    | (intro _; intros)
    | (with_reducible refine Evo.upd (by with_reducible assumption) ?_ ?_ ?_ ?_ ?_ ?_ ?_ ?_ ?_ ?_ <;> rfl)
    | split
    | dsimp only
    | clear_value *

theorem Dev.stopSite_evo {m₀ : Bool} {d₀ : Dev} {s : Dev} {i : Nat} (ev : Evo m₀ d₀ s) :
    Evo m₀ d₀ (Dev.stopSite s i) := by
  unfold Dev.stopSite
  repeat' first
    | with_reducible assumption
    | (extract_lets +onlyGivenNames z; refine Evo.cut (p := Evo m₀ d₀ z) ?_ (fun e1 => ?_); (on_goal 2 => clear_value z); (on_goal 1 => (unfold z; try clear z)))
    | (extract_lets +onlyGivenNames z; refine Evo.cut (p := Evo m₀ d₀ z.1) ?_ (fun e1 => ?_); (on_goal 2 => clear_value z); (on_goal 1 => (unfold z; try clear z)))
    | extract_lets +onlyGivenNames z
    | with_reducible apply Dev.onSite_evo
    | with_reducible apply Dev.onEng_evo
    | (intro _; intros)
    | (with_reducible refine Evo.upd (by with_reducible assumption) ?_ ?_ ?_ ?_ ?_ ?_ ?_ ?_ ?_ ?_ <;> rfl)

theorem Dev.runStop_evo {m₀ : Bool} {d₀ : Dev} {s : Dev} {l : List Nat} (ev : Evo m₀ d₀ s) :
    Evo m₀ d₀ (Dev.runStop s l).1 := by
  unfold Dev.runStop
  repeat' first
    | with_reducible assumption
    | (extract_lets +onlyGivenNames z; refine Evo.cut (p := Evo m₀ d₀ z) ?_ (fun e1 => ?_); (on_goal 2 => clear_value z); (on_goal 1 => (unfold z; try clear z)))
    | (extract_lets +onlyGivenNames z; refine Evo.cut (p := Evo m₀ d₀ z.1) ?_ (fun e1 => ?_); (on_goal 2 => clear_value z); (on_goal 1 => (unfold z; try clear z)))
    | extract_lets +onlyGivenNames z
    | with_reducible apply Dev.stopSite_evo
    | with_reducible apply Evo.forL
    | (intro _; intros)
    | dsimp only

theorem Dev.pauseSite_evo {m₀ : Bool} {d₀ : Dev} {s : Dev} {i : Nat} (ev : Evo m₀ d₀ s) :
    Evo m₀ d₀ (Dev.pauseSite s i) := by
  unfold Dev.pauseSite
  repeat' first
    | with_reducible assumption
    | with_reducible apply Dev.onEng_evo
    | (intro _; intros)
    | (with_reducible refine Evo.upd (by with_reducible assumption) ?_ ?_ ?_ ?_ ?_ ?_ ?_ ?_ ?_ ?_ <;> rfl)

theorem Dev.resumeSite_evo {m₀ : Bool} {d₀ : Dev} {s : Dev} {i : Nat} (ev : Evo m₀ d₀ s) :
    Evo m₀ d₀ (Dev.resumeSite s i) := by
  unfold Dev.resumeSite
  repeat' first
    | with_reducible assumption
    | with_reducible apply Dev.onEng_evo
    | (intro _; intros)
    | (with_reducible refine Evo.upd (by with_reducible assumption) ?_ ?_ ?_ ?_ ?_ ?_ ?_ ?_ ?_ ?_ <;> rfl)

theorem Dev.groupRun_evo {d₀ : Dev} {s : Dev} {pause : Bool} {y : Nat} (ev : Evo true d₀ s) :
    Evo true d₀ (Dev.groupRun s pause y) := by
  unfold Dev.groupRun
  repeat' first
    | with_reducible assumption
    | (extract_lets +onlyGivenNames z; refine Evo.cut (p := Evo true d₀ z) ?_ (fun e1 => ?_); (on_goal 2 => clear_value z); (on_goal 1 => (unfold z; try clear z)))
    | (extract_lets +onlyGivenNames z; refine Evo.cut (p := Evo true d₀ z.1) ?_ (fun e1 => ?_); (on_goal 2 => clear_value z); (on_goal 1 => (unfold z; try clear z)))
    | extract_lets +onlyGivenNames z
    | with_reducible apply Dev.pauseSite_evo
    | with_reducible apply Dev.pausePly_evo
    | with_reducible apply Dev.resumeSite_evo
    | with_reducible apply Dev.resumePly_evo
    | with_reducible apply Evo.forL
    | (intro _; intros)
    | split

theorem Dev.oneRun_evo {m₀ : Bool} {d₀ : Dev} {s : Dev} {pause : Bool} {i : Nat} (ev : Evo m₀ d₀ s) :
    Evo m₀ d₀ (Dev.oneRun s pause i).1 := by
  unfold Dev.oneRun
  repeat' first
    | with_reducible assumption
    | with_reducible apply Dev.pauseSite_evo
    | with_reducible apply Dev.resumeSite_evo
    | split
    | dsimp only


end Sys2Proof.Machine
end

