-- ==== Sys2Proof/Laws/Ev/Modes.lean ====
section
/-! SUPPORT. What the operations of Machine/Modes.lean can do to the whole device. -/

namespace Sys2Proof.Machine

theorem Dev.chanOff_evo {m₀ : Bool} {d₀ : Dev} {s : Dev} {p : Nat} (ev : Evo m₀ d₀ s) :
    Evo m₀ d₀ (Dev.chanOff s p) := by
  unfold Dev.chanOff
  repeat' first
    | with_reducible assumption
    | (extract_lets +onlyGivenNames z; refine Evo.cut (p := Evo m₀ d₀ z) ?_ (fun e1 => ?_); (on_goal 2 => clear_value z); (on_goal 1 => (unfold z; try clear z)))
    | (extract_lets +onlyGivenNames z; refine Evo.cut (p := Evo m₀ d₀ z.1) ?_ (fun e1 => ?_); (on_goal 2 => clear_value z); (on_goal 1 => (unfold z; try clear z)))
    | extract_lets +onlyGivenNames z
    | with_reducible apply Dev.onCirc_evo
    | with_reducible apply Dev.setFunc_evo
    | (intro _; intros)
    | (with_reducible refine Evo.upd (by with_reducible assumption) ?_ ?_ ?_ ?_ ?_ ?_ ?_ ?_ ?_ ?_ <;> rfl)
    | split

theorem Dev.chansTo_evo {m₀ : Bool} {d₀ : Dev} {s : Dev} {m : Mode} (ev : Evo m₀ d₀ s) :
    Evo m₀ d₀ (Dev.chansTo s m) := by
  unfold Dev.chansTo
  repeat' first
    | with_reducible assumption
    | with_reducible apply Dev.chanOff_evo
    | with_reducible apply Evo.forN
    | (intro _; intros)
    | split

theorem Dev.calEnter_evo {d₀ : Dev} {s : Dev} (ev : Evo true d₀ s) :
    Evo true d₀ (Dev.calEnter s) := by
  unfold Dev.calEnter
  repeat' first
    | with_reducible assumption
    | (extract_lets +onlyGivenNames z; refine Evo.cut (p := Evo true d₀ z) ?_ (fun e1 => ?_); (on_goal 2 => clear_value z); (on_goal 1 => (unfold z; try clear z)))
    | (extract_lets +onlyGivenNames z; refine Evo.cut (p := Evo true d₀ z.1) ?_ (fun e1 => ?_); (on_goal 2 => clear_value z); (on_goal 1 => (unfold z; try clear z)))
    | extract_lets +onlyGivenNames z
    | with_reducible apply Dev.qSupersede_evo
    | with_reducible apply Dev.quadsTo_evo
    | with_reducible apply Evo.forL
    | (intro _; intros)
    | (with_reducible refine Evo.upd (by with_reducible assumption) ?_ ?_ ?_ ?_ ?_ ?_ ?_ ?_ ?_ ?_ <;> rfl)

theorem Dev.calLeave_evo {d₀ : Dev} {s : Dev} (ev : Evo true d₀ s) :
    Evo true d₀ (Dev.calLeave s) := by
  unfold Dev.calLeave
  repeat' first
    | with_reducible assumption
    | (extract_lets +onlyGivenNames z; refine Evo.cut (p := Evo true d₀ z) ?_ (fun e1 => ?_); (on_goal 2 => clear_value z); (on_goal 1 => (unfold z; try clear z)))
    | (extract_lets +onlyGivenNames z; refine Evo.cut (p := Evo true d₀ z.1) ?_ (fun e1 => ?_); (on_goal 2 => clear_value z); (on_goal 1 => (unfold z; try clear z)))
    | extract_lets +onlyGivenNames z
    | with_reducible apply Dev.quadsTo_evo
    | (intro _; intros)
    | (with_reducible refine Evo.upd (by with_reducible assumption) ?_ ?_ ?_ ?_ ?_ ?_ ?_ ?_ ?_ ?_ <;> rfl)

theorem Dev.unitsTo_evo {m₀ : Bool} {d₀ : Dev} {s : Dev} {old : Mode} {new : Mode} (ev : Evo m₀ d₀ s) :
    Evo m₀ d₀ (Dev.unitsTo s old new) := by
  unfold Dev.unitsTo
  repeat' first
    | with_reducible assumption
    | (extract_lets +onlyGivenNames z; refine Evo.cut (p := Evo m₀ d₀ z) ?_ (fun e1 => ?_); (on_goal 2 => clear_value z); (on_goal 1 => (unfold z; try clear z)))
    | (extract_lets +onlyGivenNames z; refine Evo.cut (p := Evo m₀ d₀ z.1) ?_ (fun e1 => ?_); (on_goal 2 => clear_value z); (on_goal 1 => (unfold z; try clear z)))
    | extract_lets +onlyGivenNames z
    | with_reducible apply Dev.cutDwell_evo
    | with_reducible apply Dev.chansTo_evo
    | with_reducible apply Dev.tdcLost_evo
    | with_reducible apply Dev.acqEnd_evo
    | with_reducible apply Dev.moveOrigin_evo
    | with_reducible apply Evo.forL
    | with_reducible apply Evo.forN
    | (intro _; intros)
    | (with_reducible refine Evo.upd (by with_reducible assumption) ?_ ?_ ?_ ?_ ?_ ?_ ?_ ?_ ?_ ?_ <;> rfl)
    | (with_reducible refine Evo.updQuads (by with_reducible assumption))
    | split

theorem Dev.readThrough_evo {m₀ : Bool} {d₀ : Dev} {s : Dev} {bad : List (Fin 16)} (ev : Evo m₀ d₀ s) :
    Evo m₀ d₀ (Dev.readThrough s bad) := by
  unfold Dev.readThrough
  repeat' first
    | with_reducible assumption
    | with_reducible apply Dev.setFld_evo
    | with_reducible apply Evo.forN
    | (intro _; intros)


end Sys2Proof.Machine
end

