-- ==== Sys2Proof/Laws/Ev/Access.lean ====
section
/-! SUPPORT. What the operations of Machine/Access.lean can do to the whole device. -/

namespace Sys2Proof.Machine

theorem Dev.readLatch_evo {m₀ : Bool} {d₀ : Dev} {s : Dev} {a : Nat} (ev : Evo m₀ d₀ s) :
    Evo m₀ d₀ (Dev.readLatch s a) := by
  unfold Dev.readLatch
  repeat' first
    | with_reducible assumption
    | with_reducible apply Dev.wr_evo
    | (with_reducible refine Evo.upd (by with_reducible assumption) ?_ ?_ ?_ ?_ ?_ ?_ ?_ ?_ ?_ ?_ <;> rfl)
    | split
    | clear_value *

theorem Dev.readBad_evo {d₀ : Dev} {s : Dev} {a : Nat} (ev : Evo true d₀ s) :
    Evo true d₀ (Dev.readBad s a) := by
  unfold Dev.readBad
  repeat' first
    | with_reducible assumption
    | with_reducible apply Dev.cisHostBad_evo
    | with_reducible apply Dev.note_evo
    | with_reducible apply Dev.raise_evo
    | with_reducible apply Dev.nvEcc2_evo
    | (with_reducible refine Evo.upd (by with_reducible assumption) ?_ ?_ ?_ ?_ ?_ ?_ ?_ ?_ ?_ ?_ <;> rfl)
    | split
    | clear_value *

theorem Dev.readFixed_evo {d₀ : Dev} {s : Dev} {a : Nat} (ev : Evo true d₀ s) :
    Evo true d₀ (Dev.readFixed s a) := by
  unfold Dev.readFixed
  repeat' first
    | with_reducible assumption
    | with_reducible apply Dev.cisCorrected_evo
    | with_reducible apply Dev.note_evo
    | with_reducible apply Dev.nvEcc1_evo
    | (with_reducible refine Evo.upd (by with_reducible assumption) ?_ ?_ ?_ ?_ ?_ ?_ ?_ ?_ ?_ ?_ <;> rfl)
    | split
    | clear_value *

theorem Dev.readOne_evo {d₀ : Dev} {s : Dev} {a : Nat} {k : Nat} {fixed : List Nat} (ev : Evo true d₀ s) :
    Evo true d₀ (Dev.readOne s a k fixed) := by
  unfold Dev.readOne
  repeat' first
    | with_reducible assumption
    | with_reducible apply Dev.readFixed_evo
    | with_reducible apply Dev.readLatch_evo
    | split

theorem Dev.readFrom_evo {d₀ s : Dev} {a : Nat} {bad : Option Nat} {fixed : List Nat} {k n : Nat} (ev : Evo true d₀ s) :
    Evo true d₀ (s.readFrom a bad fixed k n).1 := by
  induction n generalizing s k with
  | zero => exact ev
  | succ n ih =>
    unfold Dev.readFrom
    repeat' first
      | exact Dev.readBad_evo ev
      | exact ih (Dev.readOne_evo ev)
      | split


end Sys2Proof.Machine
end

