-- ==== Sys2Proof/Laws/Ev/Write.lean ====
section
/-! SUPPORT. What the operations of Machine/Write.lean can do to the whole device. -/

namespace Sys2Proof.Machine

theorem Dev.putCard_evo {m₀ : Bool} {d₀ : Dev} {s : Dev} {a : Nat} {v : W} (ev : Evo m₀ d₀ s) :
    Evo m₀ d₀ (Dev.putCard s a v) := by
  unfold Dev.putCard
  repeat' first
    | with_reducible assumption
    | with_reducible apply Dev.wr_evo

theorem Dev.limWrite_evo {m₀ : Bool} {d₀ : Dev} {s : Dev} {o : Nat} {v : W} (ev : Evo m₀ d₀ s) :
    Evo m₀ d₀ (Dev.limWrite s o v) := by
  unfold Dev.limWrite
  repeat' first
    | with_reducible assumption
    | (extract_lets +onlyGivenNames z; refine Evo.cut (p := Evo m₀ d₀ z) ?_ (fun e1 => ?_); (on_goal 2 => clear_value z); (on_goal 1 => (unfold z; try clear z)))
    | (extract_lets +onlyGivenNames z; refine Evo.cut (p := Evo m₀ d₀ z.1) ?_ (fun e1 => ?_); (on_goal 2 => clear_value z); (on_goal 1 => (unfold z; try clear z)))
    | extract_lets +onlyGivenNames z
    | with_reducible apply Dev.setBits_evo
    | with_reducible apply Dev.putCard_evo
    | with_reducible apply Dev.setLimit_evo
    | with_reducible apply Dev.setFld_evo
    | split

theorem Dev.ldgCtrl_evo {m₀ : Bool} {d₀ s : Dev} {v : W} (ev : Evo m₀ d₀ s) : Evo m₀ d₀ (s.ldgCtrl v) := by
  unfold Dev.ldgCtrl
  extract_lets s1 s2 k s3
  have e1 : Evo m₀ d₀ s1 := Dev.putCard_evo ev
  have e2 : Evo m₀ d₀ s3 := by
    unfold s3
    split
    · exact Evo.upd (s := ((s1.wr 0x300 0).wr 0x304 0).wr 0x308 0) (Dev.wr_evo (Dev.wr_evo (Dev.wr_evo e1)))
        rfl rfl rfl rfl rfl rfl rfl rfl rfl rfl
    · exact e1
  exact Dev.hwmCheck_evo e2

theorem Dev.writeGlb_evo {m₀ : Bool} {d₀ : Dev} {s : Dev} {o : Nat} {v : W} (ev : Evo m₀ d₀ s) :
    Evo m₀ d₀ (Dev.writeGlb s o v) := by
  unfold Dev.writeGlb
  repeat' first
    | with_reducible assumption
    | with_reducible apply Dev.limWrite_evo
    | with_reducible apply Dev.putCard_evo
    | with_reducible apply Dev.hwmCheck_evo
    | with_reducible apply Dev.ldgCtrl_evo
    | split

theorem Dev.forceSrc_evo {m₀ : Bool} {d₀ : Dev} {s : Dev} {f : Nat} (ev : Evo m₀ d₀ s) :
    Evo m₀ d₀ (Dev.forceSrc s f) := by
  unfold Dev.forceSrc
  repeat' first
    | with_reducible assumption
    | with_reducible apply Dev.setBits_evo
    | split

theorem Dev.forced_evo {d₀ : Dev} {s : Dev} {ws : List (Nat × W)} (ev : Evo true d₀ s) :
    Evo true d₀ (Dev.forced s ws) := by
  unfold Dev.forced
  repeat' first
    | with_reducible assumption
    | (extract_lets +onlyGivenNames z; refine Evo.cut (p := Evo true d₀ z) ?_ (fun e1 => ?_); (on_goal 2 => clear_value z); (on_goal 1 => (unfold z; try clear z)))
    | (extract_lets +onlyGivenNames z; refine Evo.cut (p := Evo true d₀ z.1) ?_ (fun e1 => ?_); (on_goal 2 => clear_value z); (on_goal 1 => (unfold z; try clear z)))
    | extract_lets +onlyGivenNames z
    | with_reducible apply Dev.raises_evo
    | (intro _; intros)
    | (with_reducible refine Evo.updSites (by with_reducible assumption))
    | split

theorem Dev.srcWrite_evo {m₀ : Bool} {d₀ : Dev} {s : Dev} {f : Nat} {v : W} (ev : Evo m₀ d₀ s) :
    Evo m₀ d₀ (Dev.srcWrite s f v) := by
  unfold Dev.srcWrite
  repeat' first
    | with_reducible assumption
    | (extract_lets +onlyGivenNames z; refine Evo.cut (p := Evo m₀ d₀ z) ?_ (fun e1 => ?_); (on_goal 2 => clear_value z); (on_goal 1 => (unfold z; try clear z)))
    | (extract_lets +onlyGivenNames z; refine Evo.cut (p := Evo m₀ d₀ z.1) ?_ (fun e1 => ?_); (on_goal 2 => clear_value z); (on_goal 1 => (unfold z; try clear z)))
    | extract_lets +onlyGivenNames z
    | with_reducible apply Dev.putCard_evo
    | with_reducible apply Dev.ackHost_evo
    | with_reducible apply Dev.forceSrc_evo
    | split

theorem Dev.pendWrite_evo {m₀ : Bool} {d₀ : Dev} {s : Dev} {x : Nat} {v : W} (ev : Evo m₀ d₀ s) :
    Evo m₀ d₀ (Dev.pendWrite s x v) := by
  unfold Dev.pendWrite
  repeat' first
    | with_reducible assumption
    | with_reducible apply Dev.ackHost_evo
    | with_reducible apply Evo.forN
    | (intro _; intros)
    | split

theorem Dev.writeFlt_evo {m₀ : Bool} {d₀ : Dev} {s : Dev} {o : Nat} {v : W} (ev : Evo m₀ d₀ s) :
    Evo m₀ d₀ (Dev.writeFlt s o v) := by
  unfold Dev.writeFlt
  repeat' first
    | with_reducible assumption
    | with_reducible apply Dev.srcWrite_evo
    | with_reducible apply Dev.pendWrite_evo
    | with_reducible apply Dev.putCard_evo
    | split

theorem Dev.cfgRej_evo {m₀ : Bool} {d₀ : Dev} {s : Dev} (ev : Evo m₀ d₀ s) :
    Evo m₀ d₀ (Dev.cfgRej s) := by
  unfold Dev.cfgRej
  repeat' first
    | with_reducible assumption
    | with_reducible apply Dev.setBits_evo

theorem Dev.sclkCfg_evo {m₀ : Bool} {d₀ : Dev} {s : Dev} {v : W} (ev : Evo m₀ d₀ s) :
    Evo m₀ d₀ (Dev.sclkCfg s v) := by
  unfold Dev.sclkCfg
  repeat' first
    | with_reducible assumption
    | (extract_lets +onlyGivenNames z; refine Evo.cut (p := Evo m₀ d₀ z) ?_ (fun e1 => ?_); (on_goal 2 => clear_value z); (on_goal 1 => (unfold z; try clear z)))
    | (extract_lets +onlyGivenNames z; refine Evo.cut (p := Evo m₀ d₀ z.1) ?_ (fun e1 => ?_); (on_goal 2 => clear_value z); (on_goal 1 => (unfold z; try clear z)))
    | extract_lets +onlyGivenNames z
    | with_reducible apply Dev.cfgRej_evo
    | with_reducible apply Dev.putCard_evo
    | with_reducible apply Dev.startRelock_evo
    | split

theorem Dev.syncCfg_evo {m₀ : Bool} {d₀ : Dev} {s : Dev} {v : W} (ev : Evo m₀ d₀ s) :
    Evo m₀ d₀ (Dev.syncCfg s v) := by
  unfold Dev.syncCfg
  repeat' first
    | with_reducible assumption
    | (extract_lets +onlyGivenNames z; refine Evo.cut (p := Evo m₀ d₀ z) ?_ (fun e1 => ?_); (on_goal 2 => clear_value z); (on_goal 1 => (unfold z; try clear z)))
    | (extract_lets +onlyGivenNames z; refine Evo.cut (p := Evo m₀ d₀ z.1) ?_ (fun e1 => ?_); (on_goal 2 => clear_value z); (on_goal 1 => (unfold z; try clear z)))
    | extract_lets +onlyGivenNames z
    | with_reducible apply Dev.putCard_evo
    | with_reducible apply Dev.unsync_evo
    | split

theorem Dev.writeFrm_evo {m₀ : Bool} {d₀ : Dev} {s : Dev} {o : Nat} {v : W} (ev : Evo m₀ d₀ s) :
    Evo m₀ d₀ (Dev.writeFrm s o v) := by
  unfold Dev.writeFrm
  repeat' first
    | with_reducible assumption
    | with_reducible apply Dev.sclkCfg_evo
    | with_reducible apply Dev.syncCfg_evo
    | with_reducible apply Dev.putCard_evo
    | split

theorem Dev.writeThm_evo {m₀ : Bool} {d₀ : Dev} {s : Dev} {o : Nat} {v : W} (ev : Evo m₀ d₀ s) :
    Evo m₀ d₀ (Dev.writeThm s o v) := by
  unfold Dev.writeThm
  repeat' first
    | with_reducible assumption
    | with_reducible apply Dev.setBits_evo
    | with_reducible apply Dev.putCard_evo
    | split

theorem Dev.writeLnk_evo {m₀ : Bool} {d₀ : Dev} {s : Dev} {o : Nat} {v : W} (ev : Evo m₀ d₀ s) :
    Evo m₀ d₀ (Dev.writeLnk s o v) := by
  unfold Dev.writeLnk
  repeat' first
    | with_reducible assumption
    | with_reducible apply Dev.putCard_evo
    | (with_reducible refine Evo.upd (by with_reducible assumption) ?_ ?_ ?_ ?_ ?_ ?_ ?_ ?_ ?_ ?_ <;> rfl)
    | split

theorem Dev.writeEng_evo {m₀ : Bool} {d₀ : Dev} {s : Dev} {e : Nat} {o : Nat} {v : W} (ev : Evo m₀ d₀ s) :
    Evo m₀ d₀ (Dev.writeEng s e o v) := by
  unfold Dev.writeEng
  repeat' first
    | with_reducible assumption
    | (extract_lets +onlyGivenNames z; refine Evo.cut (p := Evo m₀ d₀ z) ?_ (fun e1 => ?_); (on_goal 2 => clear_value z); (on_goal 1 => (unfold z; try clear z)))
    | (extract_lets +onlyGivenNames z; refine Evo.cut (p := Evo m₀ d₀ z.1) ?_ (fun e1 => ?_); (on_goal 2 => clear_value z); (on_goal 1 => (unfold z; try clear z)))
    | extract_lets +onlyGivenNames z
    | with_reducible apply Dev.setBits_evo
    | with_reducible apply Dev.setPg_evo
    | with_reducible apply Dev.setVoidh_evo
    | with_reducible apply Dev.setScrWord_evo
    | with_reducible apply Dev.putCard_evo
    | split

theorem Dev.coefWrite_evo {m₀ : Bool} {d₀ : Dev} {s : Dev} {p : Nat} {o : Nat} {v : W} (ev : Evo m₀ d₀ s) :
    Evo m₀ d₀ (Dev.coefWrite s p o v) := by
  unfold Dev.coefWrite
  repeat' first
    | with_reducible assumption
    | (extract_lets +onlyGivenNames z; refine Evo.cut (p := Evo m₀ d₀ z) ?_ (fun e1 => ?_); (on_goal 2 => clear_value z); (on_goal 1 => (unfold z; try clear z)))
    | (extract_lets +onlyGivenNames z; refine Evo.cut (p := Evo m₀ d₀ z.1) ?_ (fun e1 => ?_); (on_goal 2 => clear_value z); (on_goal 1 => (unfold z; try clear z)))
    | extract_lets +onlyGivenNames z
    | with_reducible apply Dev.setBits_evo
    | with_reducible apply Dev.putCard_evo
    | split

theorem Dev.tdcRd_evo {m₀ : Bool} {d₀ : Dev} {s : Dev} {c : Nat} {v : W} (ev : Evo m₀ d₀ s) :
    Evo m₀ d₀ (Dev.tdcRd s c v) := by
  unfold Dev.tdcRd
  repeat' first
    | with_reducible assumption
    | (extract_lets +onlyGivenNames z; refine Evo.cut (p := Evo m₀ d₀ z) ?_ (fun e1 => ?_); (on_goal 2 => clear_value z); (on_goal 1 => (unfold z; try clear z)))
    | (extract_lets +onlyGivenNames z; refine Evo.cut (p := Evo m₀ d₀ z.1) ?_ (fun e1 => ?_); (on_goal 2 => clear_value z); (on_goal 1 => (unfold z; try clear z)))
    | extract_lets +onlyGivenNames z
    | with_reducible apply Dev.wr_evo
    | split

theorem Dev.writeCh_evo {m₀ : Bool} {d₀ : Dev} {s : Dev} {c : Nat} {o : Nat} {v : W} (ev : Evo m₀ d₀ s) :
    Evo m₀ d₀ (Dev.writeCh s c o v) := by
  unfold Dev.writeCh
  repeat' first
    | with_reducible assumption
    | with_reducible apply Dev.coefWrite_evo
    | with_reducible apply Dev.tdcRd_evo
    | with_reducible apply Dev.putCard_evo
    | split

theorem Dev.plyCfg_evo {m₀ : Bool} {d₀ : Dev} {s : Dev} {y : Nat} {v : W} (ev : Evo m₀ d₀ s) :
    Evo m₀ d₀ (Dev.plyCfg s y v) := by
  unfold Dev.plyCfg
  repeat' first
    | with_reducible assumption
    | (extract_lets +onlyGivenNames z; refine Evo.cut (p := Evo m₀ d₀ z) ?_ (fun e1 => ?_); (on_goal 2 => clear_value z); (on_goal 1 => (unfold z; try clear z)))
    | (extract_lets +onlyGivenNames z; refine Evo.cut (p := Evo m₀ d₀ z.1) ?_ (fun e1 => ?_); (on_goal 2 => clear_value z); (on_goal 1 => (unfold z; try clear z)))
    | extract_lets +onlyGivenNames z
    | with_reducible apply Dev.plyRej_evo
    | with_reducible apply Dev.wr_evo
    | with_reducible apply Dev.ringClear_evo
    | with_reducible apply Dev.onPly_evo
    | with_reducible apply Dev.recheckAll_evo
    | (intro _; intros)
    | (with_reducible refine Evo.upd (by with_reducible assumption) ?_ ?_ ?_ ?_ ?_ ?_ ?_ ?_ ?_ ?_ <;> rfl)
    | split

theorem Dev.ringCtrl_evo {m₀ : Bool} {d₀ : Dev} {s : Dev} {y : Nat} {v : W} (ev : Evo m₀ d₀ s) :
    Evo m₀ d₀ (Dev.ringCtrl s y v) := by
  unfold Dev.ringCtrl
  repeat' first
    | with_reducible assumption
    | (extract_lets +onlyGivenNames z; refine Evo.cut (p := Evo m₀ d₀ z) ?_ (fun e1 => ?_); (on_goal 2 => clear_value z); (on_goal 1 => (unfold z; try clear z)))
    | (extract_lets +onlyGivenNames z; refine Evo.cut (p := Evo m₀ d₀ z.1) ?_ (fun e1 => ?_); (on_goal 2 => clear_value z); (on_goal 1 => (unfold z; try clear z)))
    | extract_lets +onlyGivenNames z
    | with_reducible apply Dev.ringLwm_evo
    | with_reducible apply Dev.ringReset_evo
    | with_reducible apply Dev.ringArm_evo
    | split

theorem Dev.writePly_evo {m₀ : Bool} {d₀ : Dev} {s : Dev} {y : Nat} {o : Nat} {v : W} (ev : Evo m₀ d₀ s) :
    Evo m₀ d₀ (Dev.writePly s y o v) := by
  unfold Dev.writePly
  repeat' first
    | with_reducible assumption
    | with_reducible apply Dev.plyCfg_evo
    | with_reducible apply Dev.ringCtrl_evo
    | with_reducible apply Dev.putCard_evo
    | with_reducible apply Dev.plyRej_evo
    | split

theorem Dev.patchTouched_evo {m₀ : Bool} {d₀ : Dev} {s : Dev} (ev : Evo m₀ d₀ s) :
    Evo m₀ d₀ (Dev.patchTouched s) := by
  unfold Dev.patchTouched
  repeat' first
    | with_reducible assumption
    | with_reducible apply Dev.setFld_evo
    | split

theorem Dev.holdWord_evo {m₀ : Bool} {d₀ : Dev} {s : Dev} {k : Nat} {v : W} (ev : Evo m₀ d₀ s) :
    Evo m₀ d₀ (Dev.holdWord s k v) := by
  unfold Dev.holdWord
  repeat' first
    | with_reducible assumption
    | (intro _; intros)
    | (with_reducible refine Evo.upd (by with_reducible assumption) ?_ ?_ ?_ ?_ ?_ ?_ ?_ ?_ ?_ ?_ <;> rfl)

theorem Dev.pramWrite_evo {m₀ : Bool} {d₀ : Dev} {s : Dev} {w : Nat} {v : Nat} {x : W} (ev : Evo m₀ d₀ s) :
    Evo m₀ d₀ (Dev.pramWrite s w v x) := by
  unfold Dev.pramWrite
  repeat' first
    | with_reducible assumption
    | (extract_lets +onlyGivenNames z; refine Evo.cut (p := Evo m₀ d₀ z) ?_ (fun e1 => ?_); (on_goal 2 => clear_value z); (on_goal 1 => (unfold z; try clear z)))
    | (extract_lets +onlyGivenNames z; refine Evo.cut (p := Evo m₀ d₀ z.1) ?_ (fun e1 => ?_); (on_goal 2 => clear_value z); (on_goal 1 => (unfold z; try clear z)))
    | extract_lets +onlyGivenNames z
    | with_reducible apply Dev.patchTouched_evo
    | with_reducible apply Dev.holdWord_evo
    | (intro _; intros)
    | (with_reducible refine Evo.upd (by with_reducible assumption) ?_ ?_ ?_ ?_ ?_ ?_ ?_ ?_ ?_ ?_ <;> rfl)
    | split

theorem Dev.wcsStore_evo {m₀ : Bool} {d₀ : Dev} {s : Dev} {k : Nat} {n : Nat} {x : BitVec 160} (ev : Evo m₀ d₀ s) :
    Evo m₀ d₀ (Dev.wcsStore s k n x) := by
  unfold Dev.wcsStore
  repeat' first
    | with_reducible assumption
    | (intro _; intros)
    | (with_reducible refine Evo.upd (by with_reducible assumption) ?_ ?_ ?_ ?_ ?_ ?_ ?_ ?_ ?_ ?_ <;> rfl)

theorem Dev.wcsData_evo {m₀ : Bool} {d₀ : Dev} {s : Dev} {i : Nat} {v : W} (ev : Evo m₀ d₀ s) :
    Evo m₀ d₀ (Dev.wcsData s i v) := by
  unfold Dev.wcsData
  repeat' first
    | with_reducible assumption
    | (extract_lets +onlyGivenNames z; refine Evo.cut (p := Evo m₀ d₀ z) ?_ (fun e1 => ?_); (on_goal 2 => clear_value z); (on_goal 1 => (unfold z; try clear z)))
    | (extract_lets +onlyGivenNames z; refine Evo.cut (p := Evo m₀ d₀ z.1) ?_ (fun e1 => ?_); (on_goal 2 => clear_value z); (on_goal 1 => (unfold z; try clear z)))
    | extract_lets +onlyGivenNames z
    | with_reducible apply Dev.holdWord_evo
    | with_reducible apply Dev.wcsStore_evo
    | with_reducible apply Dev.setFld_evo
    | with_reducible apply Evo.forN
    | (intro _; intros)
    | split

theorem Dev.writeUcs_evo {m₀ : Bool} {d₀ : Dev} {s : Dev} {o : Nat} {v : W} (ev : Evo m₀ d₀ s) :
    Evo m₀ d₀ (Dev.writeUcs s o v) := by
  unfold Dev.writeUcs
  repeat' first
    | with_reducible assumption
    | with_reducible apply Dev.pramWrite_evo
    | with_reducible apply Dev.nvPut_evo
    | with_reducible apply Dev.putCard_evo
    | with_reducible apply Dev.wcsData_evo
    | with_reducible apply Dev.patchTouched_evo
    | split

theorem Dev.writeNow_evo {m₀ : Bool} {d₀ : Dev} {s : Dev} {a : Nat} {v : W} (ev : Evo m₀ d₀ s) :
    Evo m₀ d₀ (Dev.writeNow s a v) := by
  unfold Dev.writeNow
  repeat' first
    | with_reducible assumption
    | with_reducible apply Dev.routeWrite_evo
    | with_reducible apply Dev.writeGlb_evo
    | with_reducible apply Dev.writeFlt_evo
    | with_reducible apply Dev.writeFrm_evo
    | with_reducible apply Dev.writeThm_evo
    | with_reducible apply Dev.putCard_evo
    | with_reducible apply Dev.writeLnk_evo
    | with_reducible apply Dev.writeEng_evo
    | with_reducible apply Dev.writeCh_evo
    | with_reducible apply Dev.writePly_evo
    | with_reducible apply Dev.hgtWrite_evo
    | with_reducible apply Dev.writeUcs_evo
    | with_reducible apply Dev.setBits_evo
    | with_reducible apply Dev.setWord_evo
    | with_reducible apply Dev.cisFresh_evo
    | (with_reducible refine Evo.upd (by with_reducible assumption) ?_ ?_ ?_ ?_ ?_ ?_ ?_ ?_ ?_ ?_ <;> rfl)
    | split
    | clear_value *

theorem Dev.modeRej_evo {m₀ : Bool} {d₀ : Dev} {s : Dev} {a : Nat} (ev : Evo m₀ d₀ s) :
    Evo m₀ d₀ (Dev.modeRej s a) := by
  unfold Dev.modeRej
  repeat' first
    | with_reducible assumption
    | with_reducible apply Dev.setBits_evo
    | with_reducible apply Dev.cfgRej_evo
    | (with_reducible refine Evo.upd (by with_reducible assumption) ?_ ?_ ?_ ?_ ?_ ?_ ?_ ?_ ?_ ?_ <;> rfl)
    | split
    | clear_value *

theorem Dev.stageEnt_evo {m₀ : Bool} {d₀ : Dev} {s : Dev} {x : HostEnt} (ev : Evo m₀ d₀ s) :
    Evo m₀ d₀ (Dev.stageEnt s x).1 := by
  unfold Dev.stageEnt
  repeat' first
    | with_reducible assumption
    | (extract_lets +onlyGivenNames z; refine Evo.cut (p := Evo m₀ d₀ z) ?_ (fun e1 => ?_); (on_goal 2 => clear_value z); (on_goal 1 => (unfold z; try clear z)))
    | (extract_lets +onlyGivenNames z; refine Evo.cut (p := Evo m₀ d₀ z.1) ?_ (fun e1 => ?_); (on_goal 2 => clear_value z); (on_goal 1 => (unfold z; try clear z)))
    | extract_lets +onlyGivenNames z
    | with_reducible apply Dev.setBits_evo
    | (with_reducible refine Evo.upd (by with_reducible assumption) ?_ ?_ ?_ ?_ ?_ ?_ ?_ ?_ ?_ ?_ <;> rfl)
    | split
    | dsimp only

theorem WrOut.word_evo {m₀ : Bool} {d₀ : Dev} {r : WrOut} {a : Nat} {v : W} (ev : Evo m₀ d₀ r.s) :
    Evo m₀ d₀ (WrOut.word r a v).s := by
  unfold WrOut.word
  repeat' first
    | with_reducible assumption
    | (extract_lets +onlyGivenNames z; refine Evo.cut (p := Evo m₀ d₀ z) ?_ (fun e1 => ?_); (on_goal 2 => clear_value z); (on_goal 1 => (unfold z; try clear z)))
    | (extract_lets +onlyGivenNames z; refine Evo.cut (p := Evo m₀ d₀ z.1) ?_ (fun e1 => ?_); (on_goal 2 => clear_value z); (on_goal 1 => (unfold z; try clear z)))
    | extract_lets +onlyGivenNames z
    | with_reducible apply Dev.stageEnt_evo
    | with_reducible apply Dev.writeNow_evo
    | (with_reducible refine Evo.upd (by with_reducible assumption) ?_ ?_ ?_ ?_ ?_ ?_ ?_ ?_ ?_ ?_ <;> rfl)
    | split
    | dsimp only
    | clear_value *

theorem WrOut.run_evo {d₀ : Dev} {r : WrOut} {a : Nat} {l : List W} (ev : Evo true d₀ r.s) : Evo true d₀ (r.run a l).s := by
  induction l generalizing r a with
  | nil => exact ev
  | cons v l ih => exact ih (WrOut.word_evo ev)

theorem Dev.writeWords_evo {d₀ s : Dev} {via : Via} {a : Nat} {ws : List W} (ev : Evo true d₀ s) :
    Evo true d₀ (s.writeWords via a ws).s := by
  unfold Dev.writeWords
  dsimp only
  split
  · exact Evo.forL ev (fun _ _ h => Dev.modeRej_evo h)
  · split
    · exact ev
    · apply WrOut.run_evo; exact ev

theorem Dev.queueNv_evo {m₀ : Bool} {d₀ : Dev} {s : Dev} {nv : List (Nat × W)} {fin : Option NvFin} (ev : Evo m₀ d₀ s) :
    Evo m₀ d₀ (Dev.queueNv s nv fin) := by
  unfold Dev.queueNv
  repeat' first
    | with_reducible assumption
    | (extract_lets +onlyGivenNames z; refine Evo.cut (p := Evo m₀ d₀ z) ?_ (fun e1 => ?_); (on_goal 2 => clear_value z); (on_goal 1 => (unfold z; try clear z)))
    | (extract_lets +onlyGivenNames z; refine Evo.cut (p := Evo m₀ d₀ z.1) ?_ (fun e1 => ?_); (on_goal 2 => clear_value z); (on_goal 1 => (unfold z; try clear z)))
    | extract_lets +onlyGivenNames z
    | (intro _; intros)
    | (with_reducible refine Evo.upd (by with_reducible assumption) ?_ ?_ ?_ ?_ ?_ ?_ ?_ ?_ ?_ ?_ <;> rfl)
    | split
    | clear_value *

theorem Dev.askMode_evo {m₀ : Bool} {d₀ : Dev} {s : Dev} {tag : Nat} {target : Nat} {cmd : Option Job} (ev : Evo m₀ d₀ s) :
    Evo m₀ d₀ (Dev.askMode s tag target cmd) := by
  unfold Dev.askMode
  repeat' first
    | with_reducible assumption
    | (extract_lets +onlyGivenNames z; refine Evo.cut (p := Evo m₀ d₀ z) ?_ (fun e1 => ?_); (on_goal 2 => clear_value z); (on_goal 1 => (unfold z; try clear z)))
    | (extract_lets +onlyGivenNames z; refine Evo.cut (p := Evo m₀ d₀ z.1) ?_ (fun e1 => ?_); (on_goal 2 => clear_value z); (on_goal 1 => (unfold z; try clear z)))
    | extract_lets +onlyGivenNames z
    | with_reducible apply Dev.wr_evo
    | (with_reducible refine Evo.upd (by with_reducible assumption) ?_ ?_ ?_ ?_ ?_ ?_ ?_ ?_ ?_ ?_ <;> rfl)

theorem Dev.askPower_evo {m₀ : Bool} {d₀ : Dev} {s : Dev} {o : Nat} {v : W} (ev : Evo m₀ d₀ s) :
    Evo m₀ d₀ (Dev.askPower s o v) := by
  unfold Dev.askPower
  repeat' first
    | with_reducible assumption
    | (extract_lets +onlyGivenNames z; refine Evo.cut (p := Evo m₀ d₀ z) ?_ (fun e1 => ?_); (on_goal 2 => clear_value z); (on_goal 1 => (unfold z; try clear z)))
    | (extract_lets +onlyGivenNames z; refine Evo.cut (p := Evo m₀ d₀ z.1) ?_ (fun e1 => ?_); (on_goal 2 => clear_value z); (on_goal 1 => (unfold z; try clear z)))
    | extract_lets +onlyGivenNames z
    | with_reducible apply Dev.wr_evo
    | (with_reducible refine Evo.upd (by with_reducible assumption) ?_ ?_ ?_ ?_ ?_ ?_ ?_ ?_ ?_ ?_ <;> rfl)

theorem Dev.applyFlen_evo {m₀ : Bool} {d₀ : Dev} {s : Dev} {v : W} (ev : Evo m₀ d₀ s) :
    Evo m₀ d₀ (Dev.applyFlen s v) := by
  unfold Dev.applyFlen
  repeat' first
    | with_reducible assumption
    | with_reducible apply Dev.putCard_evo
    | with_reducible apply Dev.cfgRej_evo
    | split

theorem Dev.applyAdc_evo {m₀ : Bool} {d₀ : Dev} {s : Dev} {p : Nat} {v : W} (ev : Evo m₀ d₀ s) :
    Evo m₀ d₀ (Dev.applyAdc s p v) := by
  unfold Dev.applyAdc
  repeat' first
    | with_reducible assumption
    | (extract_lets +onlyGivenNames z; refine Evo.cut (p := Evo m₀ d₀ z) ?_ (fun e1 => ?_); (on_goal 2 => clear_value z); (on_goal 1 => (unfold z; try clear z)))
    | (extract_lets +onlyGivenNames z; refine Evo.cut (p := Evo m₀ d₀ z.1) ?_ (fun e1 => ?_); (on_goal 2 => clear_value z); (on_goal 1 => (unfold z; try clear z)))
    | extract_lets +onlyGivenNames z
    | with_reducible apply Dev.putCard_evo
    | with_reducible apply Dev.recount_evo
    | with_reducible apply Dev.acqEnd_evo
    | with_reducible apply Dev.restartChain_evo
    | with_reducible apply Evo.forL
    | (intro _; intros)
    | split

theorem Dev.applyTdc_evo {m₀ : Bool} {d₀ : Dev} {s : Dev} {p : Nat} {v : W} (ev : Evo m₀ d₀ s) :
    Evo m₀ d₀ (Dev.applyTdc s p v) := by
  unfold Dev.applyTdc
  repeat' first
    | with_reducible assumption
    | (extract_lets +onlyGivenNames z; refine Evo.cut (p := Evo m₀ d₀ z) ?_ (fun e1 => ?_); (on_goal 2 => clear_value z); (on_goal 1 => (unfold z; try clear z)))
    | (extract_lets +onlyGivenNames z; refine Evo.cut (p := Evo m₀ d₀ z.1) ?_ (fun e1 => ?_); (on_goal 2 => clear_value z); (on_goal 1 => (unfold z; try clear z)))
    | extract_lets +onlyGivenNames z
    | with_reducible apply Dev.putCard_evo
    | with_reducible apply Dev.tdcCut_evo
    | with_reducible apply Dev.chFlag_evo
    | with_reducible apply Dev.tdcOpenAt_evo
    | split

theorem Dev.applyCh_evo {m₀ : Bool} {d₀ : Dev} {s : Dev} {p : Nat} {o : Nat} {v : W} (ev : Evo m₀ d₀ s) :
    Evo m₀ d₀ (Dev.applyCh s p o v) := by
  unfold Dev.applyCh
  repeat' first
    | with_reducible assumption
    | (extract_lets +onlyGivenNames z; refine Evo.cut (p := Evo m₀ d₀ z) ?_ (fun e1 => ?_); (on_goal 2 => clear_value z); (on_goal 1 => (unfold z; try clear z)))
    | (extract_lets +onlyGivenNames z; refine Evo.cut (p := Evo m₀ d₀ z.1) ?_ (fun e1 => ?_); (on_goal 2 => clear_value z); (on_goal 1 => (unfold z; try clear z)))
    | extract_lets +onlyGivenNames z
    | with_reducible apply Dev.chFlag_evo
    | with_reducible apply Dev.putCard_evo
    | with_reducible apply Dev.copyCard_evo
    | with_reducible apply Dev.copySlew_evo
    | with_reducible apply Dev.onWeir_evo
    | with_reducible apply Dev.applyAdc_evo
    | with_reducible apply Dev.firSwapAt_evo
    | with_reducible apply Dev.applyTdc_evo
    | with_reducible apply Evo.forL
    | (intro _; intros)
    | (with_reducible refine Evo.upd (by with_reducible assumption) ?_ ?_ ?_ ?_ ?_ ?_ ?_ ?_ ?_ ?_ <;> rfl)
    | split

theorem Dev.applyWrite_evo {m₀ : Bool} {d₀ : Dev} {s : Dev} {a : Nat} {v : W} (ev : Evo m₀ d₀ s) :
    Evo m₀ d₀ (Dev.applyWrite s a v) := by
  unfold Dev.applyWrite
  repeat' first
    | with_reducible assumption
    | with_reducible apply Dev.askMode_evo
    | with_reducible apply Dev.applyFlen_evo
    | with_reducible apply Dev.askPower_evo
    | with_reducible apply Dev.applyCh_evo
    | with_reducible apply Dev.putCard_evo
    | with_reducible apply Dev.qReqWrite_evo
    | with_reducible apply Dev.substWrite_evo
    | with_reducible apply Dev.acqCtl_evo
    | (with_reducible refine Evo.upd (by with_reducible assumption) ?_ ?_ ?_ ?_ ?_ ?_ ?_ ?_ ?_ ?_ <;> rfl)
    | split
    | clear_value *


end Sys2Proof.Machine
end

