-- ==== Sys2Proof/Laws/Ev/Mem.lean ====
section
/-! SUPPORT. What the operations of Machine/Mem.lean can do to the whole device. -/

namespace Sys2Proof.Machine

theorem Dev.hostRead_evo {d₀ : Dev} {s : Dev} {h : Hdr} {a : Nat} {len : Nat} {bad : Option Nat} {fixed : List Nat} (ev : Evo true d₀ s) :
    Evo true d₀ (Dev.hostRead s h a len bad fixed) := by
  unfold Dev.hostRead
  repeat' first
    | with_reducible assumption
    | (extract_lets +onlyGivenNames z; refine Evo.cut (p := Evo true d₀ z) ?_ (fun e1 => ?_); (on_goal 2 => clear_value z); (on_goal 1 => (unfold z; try clear z)))
    | (extract_lets +onlyGivenNames z; refine Evo.cut (p := Evo true d₀ z.1) ?_ (fun e1 => ?_); (on_goal 2 => clear_value z); (on_goal 1 => (unfold z; try clear z)))
    | extract_lets +onlyGivenNames z
    | with_reducible apply Dev.settleLogs_evo
    | with_reducible apply Dev.received_evo
    | with_reducible apply Dev.memDone_evo
    | with_reducible apply Dev.readFrom_evo
    | split

theorem Dev.hostWrite_evo {d₀ : Dev} {s : Dev} {h : Hdr} {a : Nat} {len : Nat} {ws : List W} (ev : Evo true d₀ s) :
    Evo true d₀ (Dev.hostWrite s h a len ws) := by
  unfold Dev.hostWrite
  repeat' first
    | with_reducible assumption
    | (extract_lets +onlyGivenNames z; refine Evo.cut (p := Evo true d₀ z) ?_ (fun e1 => ?_); (on_goal 2 => clear_value z); (on_goal 1 => (unfold z; try clear z)))
    | (extract_lets +onlyGivenNames z; refine Evo.cut (p := Evo true d₀ z.1) ?_ (fun e1 => ?_); (on_goal 2 => clear_value z); (on_goal 1 => (unfold z; try clear z)))
    | extract_lets +onlyGivenNames z
    | with_reducible apply Dev.received_evo
    | with_reducible apply Dev.memDone_evo
    | with_reducible apply Dev.writeWords_evo
    | with_reducible apply Dev.forced_evo
    | with_reducible apply Dev.queueNv_evo
    | (with_reducible refine Evo.upd (by with_reducible assumption) ?_ ?_ ?_ ?_ ?_ ?_ ?_ ?_ ?_ ?_ <;> rfl)
    | split
    | clear_value *

theorem Dev.hostWord_evo {d₀ : Dev} {s : Dev} {h : Hdr} {a : Nat} {v : W} (ev : Evo true d₀ s) :
    Evo true d₀ (Dev.hostWord s h a v) := by
  unfold Dev.hostWord
  repeat' first
    | with_reducible assumption
    | with_reducible apply Dev.hostWrite_evo

theorem Dev.hostRoute_evo {m₀ : Bool} {d₀ : Dev} {s : Dev} {h : Hdr} {a : Nat} {v : W} {pos : Nat} (ev : Evo m₀ d₀ s) :
    Evo m₀ d₀ (Dev.hostRoute s h a v pos) := by
  unfold Dev.hostRoute
  repeat' first
    | with_reducible assumption
    | (extract_lets +onlyGivenNames z; refine Evo.cut (p := Evo m₀ d₀ z) ?_ (fun e1 => ?_); (on_goal 2 => clear_value z); (on_goal 1 => (unfold z; try clear z)))
    | (extract_lets +onlyGivenNames z; refine Evo.cut (p := Evo m₀ d₀ z.1) ?_ (fun e1 => ?_); (on_goal 2 => clear_value z); (on_goal 1 => (unfold z; try clear z)))
    | extract_lets +onlyGivenNames z
    | with_reducible apply Dev.received_evo
    | with_reducible apply Dev.memDone_evo
    | with_reducible apply Dev.modeRej_evo
    | with_reducible apply Dev.routeWriteAt_evo
    | split


end Sys2Proof.Machine
end

