-- ==== Sys2Proof/Laws/Ev/Commands.lean ====
section
/-! SUPPORT. What the operations of Machine/Commands.lean can do to the whole device. -/

namespace Sys2Proof.Machine

theorem Dev.retireUnit_evo {d₀ : Dev} {s : Dev} {v : W} (ev : Evo true d₀ s) :
    Evo true d₀ (Dev.retireUnit s v).1 := by
  unfold Dev.retireUnit
  repeat' first
    | with_reducible assumption
    | (extract_lets +onlyGivenNames z; refine Evo.cut (p := Evo true d₀ z) ?_ (fun e1 => ?_); (on_goal 2 => clear_value z); (on_goal 1 => (unfold z; try clear z)))
    | (extract_lets +onlyGivenNames z; refine Evo.cut (p := Evo true d₀ z.1) ?_ (fun e1 => ?_); (on_goal 2 => clear_value z); (on_goal 1 => (unfold z; try clear z)))
    | extract_lets +onlyGivenNames z
    | with_reducible apply Dev.onQuad_evo
    | with_reducible apply Dev.retire_evo
    | with_reducible apply Mi.retire_evo
    | with_reducible apply Dev.onEng_evo
    | with_reducible apply Dev.repair_evo
    | with_reducible apply Dev.retireEng_evo
    | with_reducible apply Dev.onSite_evo
    | with_reducible apply Dev.onLane_evo
    | with_reducible apply Dev.agree_evo
    | with_reducible apply Dev.saveMap_evo
    | with_reducible apply Dev.setCircs_evo
    | with_reducible apply Dev.substStart_evo
    | with_reducible apply Dev.replaceBank_evo
    | (intro _; intros)
    | (with_reducible refine Evo.upd (by with_reducible assumption) ?_ ?_ ?_ ?_ ?_ ?_ ?_ ?_ ?_ ?_ <;> rfl)
    | split
    | dsimp only
    | clear_value *

theorem Dev.clearUnit_evo {m₀ : Bool} {d₀ : Dev} {s : Dev} {v : W} (ev : Evo m₀ d₀ s) :
    Evo m₀ d₀ (Dev.clearUnit s v) := by
  unfold Dev.clearUnit
  repeat' first
    | with_reducible assumption
    | (extract_lets +onlyGivenNames z; refine Evo.cut (p := Evo m₀ d₀ z) ?_ (fun e1 => ?_); (on_goal 2 => clear_value z); (on_goal 1 => (unfold z; try clear z)))
    | (extract_lets +onlyGivenNames z; refine Evo.cut (p := Evo m₀ d₀ z.1) ?_ (fun e1 => ?_); (on_goal 2 => clear_value z); (on_goal 1 => (unfold z; try clear z)))
    | extract_lets +onlyGivenNames z
    | with_reducible apply Dev.onQuad_evo
    | with_reducible apply Dev.setEng_evo
    | with_reducible apply Dev.setLane_evo
    | with_reducible apply Dev.startLane_evo
    | with_reducible apply Dev.setCircs_evo
    | with_reducible apply Dev.setSpareBank_evo
    | with_reducible apply Dev.listed_evo
    | (intro _; intros)
    | (with_reducible refine Evo.upd (by with_reducible assumption) ?_ ?_ ?_ ?_ ?_ ?_ ?_ ?_ ?_ ?_ <;> rfl)
    | split
    | clear_value *

theorem Dev.pwrSet_evo {m₀ : Bool} {d₀ : Dev} {s : Dev} {j : Job} (ev : Evo m₀ d₀ s) :
    Evo m₀ d₀ (Dev.pwrSet s j) := by
  unfold Dev.pwrSet
  repeat' first
    | with_reducible assumption
    | (extract_lets +onlyGivenNames z; refine Evo.cut (p := Evo m₀ d₀ z) ?_ (fun e1 => ?_); (on_goal 2 => clear_value z); (on_goal 1 => (unfold z; try clear z)))
    | (extract_lets +onlyGivenNames z; refine Evo.cut (p := Evo m₀ d₀ z.1) ?_ (fun e1 => ?_); (on_goal 2 => clear_value z); (on_goal 1 => (unfold z; try clear z)))
    | extract_lets +onlyGivenNames z
    | with_reducible apply Dev.setBits_evo
    | with_reducible apply Dev.clrBits_evo
    | with_reducible apply Evo.forL
    | (intro _; intros)
    | (with_reducible refine Evo.upd (by with_reducible assumption) ?_ ?_ ?_ ?_ ?_ ?_ ?_ ?_ ?_ ?_ <;> rfl)
    | (with_reducible refine Evo.filterRegs (by with_reducible assumption))
    | split
    | clear_value *

theorem Dev.quadState_evo {m₀ : Bool} {d₀ : Dev} {s : Dev} {j : Job} (ev : Evo m₀ d₀ s) :
    Evo m₀ d₀ (Dev.quadState s j) := by
  unfold Dev.quadState
  repeat' first
    | with_reducible assumption
    | with_reducible apply Dev.putCard_evo
    | with_reducible apply Dev.qReqWrite_evo
    | with_reducible apply Evo.forL
    | (intro _; intros)

theorem Dev.applyCmd_evo {d₀ : Dev} {s : Dev} {j : Job} (ev : Evo true d₀ s) :
    Evo true d₀ (Dev.applyCmd s j) := by
  unfold Dev.applyCmd
  repeat' first
    | with_reducible assumption
    | (extract_lets +onlyGivenNames z; refine Evo.cut (p := Evo true d₀ z) ?_ (fun e1 => ?_); (on_goal 2 => clear_value z); (on_goal 1 => (unfold z; try clear z)))
    | (extract_lets +onlyGivenNames z; refine Evo.cut (p := Evo true d₀ z.1) ?_ (fun e1 => ?_); (on_goal 2 => clear_value z); (on_goal 1 => (unfold z; try clear z)))
    | extract_lets +onlyGivenNames z
    | with_reducible apply Dev.complete_evo
    | with_reducible apply Dev.askMode_evo
    | with_reducible apply Dev.runStart_evo
    | with_reducible apply Dev.runStop_evo
    | with_reducible apply Dev.oneRun_evo
    | with_reducible apply Dev.groupRun_evo
    | with_reducible apply Dev.retireUnit_evo
    | with_reducible apply Dev.pwrSet_evo
    | with_reducible apply Dev.quadState_evo
    | split

theorem Dev.stageCmd_evo {m₀ : Bool} {d₀ : Dev} {s : Dev} {j : Job} {tgt : Option (BitVec 48)} (ev : Evo m₀ d₀ s) :
    Evo m₀ d₀ (Dev.stageCmd s j tgt) := by
  unfold Dev.stageCmd
  repeat' first
    | with_reducible assumption
    | (extract_lets +onlyGivenNames z; refine Evo.cut (p := Evo m₀ d₀ z) ?_ (fun e1 => ?_); (on_goal 2 => clear_value z); (on_goal 1 => (unfold z; try clear z)))
    | (extract_lets +onlyGivenNames z; refine Evo.cut (p := Evo m₀ d₀ z.1) ?_ (fun e1 => ?_); (on_goal 2 => clear_value z); (on_goal 1 => (unfold z; try clear z)))
    | extract_lets +onlyGivenNames z
    | with_reducible apply Dev.stageEnt_evo
    | with_reducible apply Dev.complete_evo
    | split

theorem Dev.idGet_evo {m₀ : Bool} {d₀ : Dev} {s : Dev} {j : Job} (ev : Evo m₀ d₀ s) :
    Evo m₀ d₀ (Dev.idGet s j) := by
  unfold Dev.idGet
  repeat' first
    | with_reducible assumption
    | (extract_lets +onlyGivenNames z; refine Evo.cut (p := Evo m₀ d₀ z) ?_ (fun e1 => ?_); (on_goal 2 => clear_value z); (on_goal 1 => (unfold z; try clear z)))
    | (extract_lets +onlyGivenNames z; refine Evo.cut (p := Evo m₀ d₀ z.1) ?_ (fun e1 => ?_); (on_goal 2 => clear_value z); (on_goal 1 => (unfold z; try clear z)))
    | extract_lets +onlyGivenNames z
    | with_reducible apply Dev.idCheck_evo
    | with_reducible apply Dev.complete_evo
    | split

theorem Dev.fltAck_evo {m₀ : Bool} {d₀ : Dev} {s : Dev} {j : Job} (ev : Evo m₀ d₀ s) :
    Evo m₀ d₀ (Dev.fltAck s j) := by
  unfold Dev.fltAck
  repeat' first
    | with_reducible assumption
    | (extract_lets +onlyGivenNames z; refine Evo.cut (p := Evo m₀ d₀ z) ?_ (fun e1 => ?_); (on_goal 2 => clear_value z); (on_goal 1 => (unfold z; try clear z)))
    | (extract_lets +onlyGivenNames z; refine Evo.cut (p := Evo m₀ d₀ z.1) ?_ (fun e1 => ?_); (on_goal 2 => clear_value z); (on_goal 1 => (unfold z; try clear z)))
    | extract_lets +onlyGivenNames z
    | with_reducible apply Dev.pendWrite_evo
    | with_reducible apply Dev.complete_evo
    | with_reducible apply Evo.forN
    | (intro _; intros)
    | split

theorem Dev.thmSet_evo {m₀ : Bool} {d₀ : Dev} {s : Dev} {j : Job} (ev : Evo m₀ d₀ s) :
    Evo m₀ d₀ (Dev.thmSet s j) := by
  unfold Dev.thmSet
  repeat' first
    | with_reducible assumption
    | (extract_lets +onlyGivenNames z; refine Evo.cut (p := Evo m₀ d₀ z) ?_ (fun e1 => ?_); (on_goal 2 => clear_value z); (on_goal 1 => (unfold z; try clear z)))
    | (extract_lets +onlyGivenNames z; refine Evo.cut (p := Evo m₀ d₀ z.1) ?_ (fun e1 => ?_); (on_goal 2 => clear_value z); (on_goal 1 => (unfold z; try clear z)))
    | extract_lets +onlyGivenNames z
    | with_reducible apply Dev.complete_evo
    | with_reducible apply Dev.writeThm_evo
    | with_reducible apply Evo.forL
    | (intro _; intros)
    | (with_reducible refine Evo.upd (by with_reducible assumption) ?_ ?_ ?_ ?_ ?_ ?_ ?_ ?_ ?_ ?_ <;> rfl)
    | split
    | clear_value *

theorem Dev.epochCmd_evo {m₀ : Bool} {d₀ : Dev} {s : Dev} {j : Job} (ev : Evo m₀ d₀ s) :
    Evo m₀ d₀ (Dev.epochCmd s j) := by
  unfold Dev.epochCmd
  repeat' first
    | with_reducible assumption
    | (extract_lets +onlyGivenNames z; refine Evo.cut (p := Evo m₀ d₀ z) ?_ (fun e1 => ?_); (on_goal 2 => clear_value z); (on_goal 1 => (unfold z; try clear z)))
    | (extract_lets +onlyGivenNames z; refine Evo.cut (p := Evo m₀ d₀ z.1) ?_ (fun e1 => ?_); (on_goal 2 => clear_value z); (on_goal 1 => (unfold z; try clear z)))
    | extract_lets +onlyGivenNames z
    | with_reducible apply Dev.wr_evo
    | with_reducible apply Dev.setBits_evo
    | with_reducible apply Dev.complete_evo
    | (with_reducible refine Evo.upd (by with_reducible assumption) ?_ ?_ ?_ ?_ ?_ ?_ ?_ ?_ ?_ ?_ <;> rfl)
    | split

theorem Dev.dsyncCmd_evo {m₀ : Bool} {d₀ : Dev} {s : Dev} {j : Job} {t : Nat} (ev : Evo m₀ d₀ s) :
    Evo m₀ d₀ (Dev.dsyncCmd s j t) := by
  unfold Dev.dsyncCmd
  repeat' first
    | with_reducible assumption
    | (extract_lets +onlyGivenNames z; refine Evo.cut (p := Evo m₀ d₀ z) ?_ (fun e1 => ?_); (on_goal 2 => clear_value z); (on_goal 1 => (unfold z; try clear z)))
    | (extract_lets +onlyGivenNames z; refine Evo.cut (p := Evo m₀ d₀ z.1) ?_ (fun e1 => ?_); (on_goal 2 => clear_value z); (on_goal 1 => (unfold z; try clear z)))
    | extract_lets +onlyGivenNames z
    | with_reducible apply Dev.complete_evo
    | with_reducible apply Dev.wrFrame_evo
    | with_reducible apply Dev.setFld_evo
    | (with_reducible refine Evo.upd (by with_reducible assumption) ?_ ?_ ?_ ?_ ?_ ?_ ?_ ?_ ?_ ?_ <;> rfl)
    | split

theorem Dev.mapClearCmd_evo {m₀ : Bool} {d₀ : Dev} {s : Dev} {j : Job} (ev : Evo m₀ d₀ s) :
    Evo m₀ d₀ (Dev.mapClearCmd s j) := by
  unfold Dev.mapClearCmd
  repeat' first
    | with_reducible assumption
    | with_reducible apply Dev.hgtRej_evo
    | with_reducible apply Dev.complete_evo
    | with_reducible apply Dev.mapClear_evo
    | (with_reducible refine Evo.upd (by with_reducible assumption) ?_ ?_ ?_ ?_ ?_ ?_ ?_ ?_ ?_ ?_ <;> rfl)
    | split
    | clear_value *

theorem Dev.startJob_evo {m₀ : Bool} {d₀ : Dev} {s : Dev} {j : Job} (ev : Evo m₀ d₀ s) :
    Evo m₀ d₀ (Dev.startJob s j) := by
  unfold Dev.startJob
  repeat' first
    | with_reducible assumption
    | (with_reducible refine Evo.upd (by with_reducible assumption) ?_ ?_ ?_ ?_ ?_ ?_ ?_ ?_ ?_ ?_ <;> rfl)

theorem Dev.pwrGroups_evo {m₀ : Bool} {d₀ : Dev} {s : Dev} {j : Job} (ev : Evo m₀ d₀ s) :
    Evo m₀ d₀ (Dev.pwrGroups s j) := by
  unfold Dev.pwrGroups
  repeat' first
    | with_reducible assumption
    | (with_reducible refine Evo.upd (by with_reducible assumption) ?_ ?_ ?_ ?_ ?_ ?_ ?_ ?_ ?_ ?_ <;> rfl)

theorem Dev.calQuad_evo {m₀ : Bool} {d₀ : Dev} {s : Dev} {j : Job} (ev : Evo m₀ d₀ s) :
    Evo m₀ d₀ (Dev.calQuad s j) := by
  unfold Dev.calQuad
  repeat' first
    | with_reducible assumption
    | (extract_lets +onlyGivenNames z; refine Evo.cut (p := Evo m₀ d₀ z) ?_ (fun e1 => ?_); (on_goal 2 => clear_value z); (on_goal 1 => (unfold z; try clear z)))
    | (extract_lets +onlyGivenNames z; refine Evo.cut (p := Evo m₀ d₀ z.1) ?_ (fun e1 => ?_); (on_goal 2 => clear_value z); (on_goal 1 => (unfold z; try clear z)))
    | extract_lets +onlyGivenNames z
    | with_reducible apply Dev.complete_evo
    | with_reducible apply Dev.onQuad_evo
    | with_reducible apply Dev.startJob_evo
    | (intro _; intros)
    | (with_reducible refine Evo.upd (by with_reducible assumption) ?_ ?_ ?_ ?_ ?_ ?_ ?_ ?_ ?_ ?_ <;> rfl)
    | split

theorem Dev.endJob_evo {m₀ : Bool} {d₀ : Dev} {s : Dev} {j : Job} {status : Nat} {detail : Nat} {data : List W} (ev : Evo m₀ d₀ s) :
    Evo m₀ d₀ (Dev.endJob s j status detail data) := by
  unfold Dev.endJob
  repeat' first
    | with_reducible assumption
    | (extract_lets +onlyGivenNames z; refine Evo.cut (p := Evo m₀ d₀ z) ?_ (fun e1 => ?_); (on_goal 2 => clear_value z); (on_goal 1 => (unfold z; try clear z)))
    | (extract_lets +onlyGivenNames z; refine Evo.cut (p := Evo m₀ d₀ z.1) ?_ (fun e1 => ?_); (on_goal 2 => clear_value z); (on_goal 1 => (unfold z; try clear z)))
    | extract_lets +onlyGivenNames z
    | with_reducible apply Dev.onQuad_evo
    | with_reducible apply Dev.complete_evo
    | (intro _; intros)
    | (with_reducible refine Evo.upd (by with_reducible assumption) ?_ ?_ ?_ ?_ ?_ ?_ ?_ ?_ ?_ ?_ <;> rfl)
    | split

theorem Dev.crcReads_evo {d₀ s : Dev} {j : Job} {bad : Option Nat} {fixed : List Nat} (ev : Evo true d₀ s) :
    Evo true d₀ (s.crcReads j bad fixed) := by
  unfold Dev.crcReads
  extract_lets r
  have e1 : Evo true d₀ r.1 := Dev.readFrom_evo ev
  clear_value r
  split <;> exact Dev.endJob_evo e1

theorem Dev.loadCrcDone_evo {d₀ s : Dev} (ev : Evo true d₀ s) : Evo true d₀ s.loadCrcDone := by
  unfold Dev.loadCrcDone
  split
  · exact ev
  · exact Dev.crcReads_evo (Dev.drawErrors_evo (Dev.settleLogs_evo ev))

theorem Dev.cisFillDone_evo {m₀ : Bool} {d₀ : Dev} {s : Dev} (ev : Evo m₀ d₀ s) :
    Evo m₀ d₀ (Dev.cisFillDone s) := by
  unfold Dev.cisFillDone
  repeat' first
    | with_reducible assumption
    | (extract_lets +onlyGivenNames z; refine Evo.cut (p := Evo m₀ d₀ z) ?_ (fun e1 => ?_); (on_goal 2 => clear_value z); (on_goal 1 => (unfold z; try clear z)))
    | (extract_lets +onlyGivenNames z; refine Evo.cut (p := Evo m₀ d₀ z.1) ?_ (fun e1 => ?_); (on_goal 2 => clear_value z); (on_goal 1 => (unfold z; try clear z)))
    | extract_lets +onlyGivenNames z
    | with_reducible apply Dev.setWord_evo
    | with_reducible apply Dev.cisFresh_evo
    | with_reducible apply Dev.endJob_evo
    | with_reducible apply Evo.forN
    | (intro _; intros)
    | (with_reducible refine Evo.upd (by with_reducible assumption) ?_ ?_ ?_ ?_ ?_ ?_ ?_ ?_ ?_ ?_ <;> rfl)
    | split
    | clear_value *

theorem Dev.calQuadDone_evo {m₀ : Bool} {d₀ : Dev} {s : Dev} {fail : Option (Fin 720)} (ev : Evo m₀ d₀ s) :
    Evo m₀ d₀ (Dev.calQuadDone s fail) := by
  unfold Dev.calQuadDone
  repeat' first
    | with_reducible assumption
    | with_reducible apply Dev.endJob_evo
    | with_reducible apply Dev.requestSave_evo
    | (with_reducible refine Evo.upd (by with_reducible assumption) ?_ ?_ ?_ ?_ ?_ ?_ ?_ ?_ ?_ ?_ <;> rfl)
    | split
    | clear_value *

theorem Dev.calFullDone_evo {m₀ : Bool} {d₀ : Dev} {s : Dev} {fail : Option (Fin 720)} (ev : Evo m₀ d₀ s) :
    Evo m₀ d₀ (Dev.calFullDone s fail) := by
  unfold Dev.calFullDone
  repeat' first
    | with_reducible assumption
    | (extract_lets +onlyGivenNames z; refine Evo.cut (p := Evo m₀ d₀ z) ?_ (fun e1 => ?_); (on_goal 2 => clear_value z); (on_goal 1 => (unfold z; try clear z)))
    | (extract_lets +onlyGivenNames z; refine Evo.cut (p := Evo m₀ d₀ z.1) ?_ (fun e1 => ?_); (on_goal 2 => clear_value z); (on_goal 1 => (unfold z; try clear z)))
    | extract_lets +onlyGivenNames z
    | with_reducible apply Dev.endJob_evo
    | with_reducible apply Dev.requestSave_evo
    | with_reducible apply Evo.forL
    | (intro _; intros)
    | (with_reducible refine Evo.upd (by with_reducible assumption) ?_ ?_ ?_ ?_ ?_ ?_ ?_ ?_ ?_ ?_ <;> rfl)
    | split
    | clear_value *

theorem Dev.saveEnds_evo {m₀ : Bool} {d₀ : Dev} {s : Dev} {j : Job} {status : Nat} {data : List W} (ev : Evo m₀ d₀ s) :
    Evo m₀ d₀ (Dev.saveEnds s j status data) := by
  unfold Dev.saveEnds
  repeat' first
    | with_reducible assumption
    | with_reducible apply Dev.endJob_evo
    | with_reducible apply Dev.complete_evo
    | split

theorem Dev.saveFails_evo {m₀ : Bool} {d₀ : Dev} {s : Dev} {r : NvRun} (ev : Evo m₀ d₀ s) :
    Evo m₀ d₀ (Dev.saveFails s r) := by
  unfold Dev.saveFails
  repeat' first
    | with_reducible assumption
    | (extract_lets +onlyGivenNames z; refine Evo.cut (p := Evo m₀ d₀ z) ?_ (fun e1 => ?_); (on_goal 2 => clear_value z); (on_goal 1 => (unfold z; try clear z)))
    | (extract_lets +onlyGivenNames z; refine Evo.cut (p := Evo m₀ d₀ z.1) ?_ (fun e1 => ?_); (on_goal 2 => clear_value z); (on_goal 1 => (unfold z; try clear z)))
    | extract_lets +onlyGivenNames z
    | with_reducible apply Dev.saveEnds_evo
    | with_reducible apply Evo.forL
    | (intro _; intros)
    | (with_reducible refine Evo.upd (by with_reducible assumption) ?_ ?_ ?_ ?_ ?_ ?_ ?_ ?_ ?_ ?_ <;> rfl)
    | split
    | clear_value *

theorem Dev.saveDone_evo {m₀ : Bool} {d₀ : Dev} {s : Dev} {r : NvRun} (ev : Evo m₀ d₀ s) :
    Evo m₀ d₀ (Dev.saveDone s r) := by
  unfold Dev.saveDone
  repeat' first
    | with_reducible assumption
    | (extract_lets +onlyGivenNames z; refine Evo.cut (p := Evo m₀ d₀ z) ?_ (fun e1 => ?_); (on_goal 2 => clear_value z); (on_goal 1 => (unfold z; try clear z)))
    | (extract_lets +onlyGivenNames z; refine Evo.cut (p := Evo m₀ d₀ z.1) ?_ (fun e1 => ?_); (on_goal 2 => clear_value z); (on_goal 1 => (unfold z; try clear z)))
    | extract_lets +onlyGivenNames z
    | with_reducible apply Dev.inForce_evo
    | with_reducible apply Dev.repair_evo
    | with_reducible apply Dev.saveEnds_evo
    | (with_reducible refine Evo.upd (by with_reducible assumption) ?_ ?_ ?_ ?_ ?_ ?_ ?_ ?_ ?_ ?_ <;> rfl)
    | split
    | clear_value *

theorem Dev.setWordDone_evo {d₀ : Dev} {s : Dev} {r : NvRun} {v : NvVerify} (ev : Evo true d₀ s) :
    Evo true d₀ (Dev.setWordDone s r v) := by
  unfold Dev.setWordDone
  repeat' first
    | with_reducible assumption
    | (extract_lets +onlyGivenNames z; refine Evo.cut (p := Evo true d₀ z) ?_ (fun e1 => ?_); (on_goal 2 => clear_value z); (on_goal 1 => (unfold z; try clear z)))
    | (extract_lets +onlyGivenNames z; refine Evo.cut (p := Evo true d₀ z.1) ?_ (fun e1 => ?_); (on_goal 2 => clear_value z); (on_goal 1 => (unfold z; try clear z)))
    | extract_lets +onlyGivenNames z
    | with_reducible apply Dev.nvVerified_evo
    | with_reducible apply Dev.saveFails_evo
    | with_reducible apply Dev.saveDone_evo
    | with_reducible apply Dev.fillSave_evo
    | (with_reducible refine Evo.upd (by with_reducible assumption) ?_ ?_ ?_ ?_ ?_ ?_ ?_ ?_ ?_ ?_ <;> rfl)
    | split
    | clear_value *

theorem Dev.singleDone_evo {d₀ : Dev} {s : Dev} {x : NvWord} {rest : List NvWord} {v : NvVerify} (ev : Evo true d₀ s) :
    Evo true d₀ (Dev.singleDone s x rest v) := by
  unfold Dev.singleDone
  repeat' first
    | with_reducible assumption
    | (extract_lets +onlyGivenNames z; refine Evo.cut (p := Evo true d₀ z) ?_ (fun e1 => ?_); (on_goal 2 => clear_value z); (on_goal 1 => (unfold z; try clear z)))
    | (extract_lets +onlyGivenNames z; refine Evo.cut (p := Evo true d₀ z.1) ?_ (fun e1 => ?_); (on_goal 2 => clear_value z); (on_goal 1 => (unfold z; try clear z)))
    | extract_lets +onlyGivenNames z
    | with_reducible apply Dev.nvVerified_evo
    | with_reducible apply Dev.memDone_evo
    | (with_reducible refine Evo.upd (by with_reducible assumption) ?_ ?_ ?_ ?_ ?_ ?_ ?_ ?_ ?_ ?_ <;> rfl)
    | split
    | clear_value *


end Sys2Proof.Machine
end

