-- ==== Sys2Proof/Laws/Ev/Flow.lean ====
section
/-! SUPPORT. What the operations of Machine/Flow.lean can do to the whole device. -/

namespace Sys2Proof.Machine

theorem doBr_evo {d₀ : Dev} {e : Nat} {s : Dev} {x : Ins} (ev : Evo true d₀ s) :
    Evo true d₀ (doBr e s x) := by
  unfold doBr
  repeat' first
    | with_reducible assumption
    | with_reducible apply Dev.check_evo
    | with_reducible apply Dev.jumpTo_evo

theorem doBrc_evo {d₀ : Dev} {e : Nat} {s : Dev} {x : Ins} (ev : Evo true d₀ s) :
    Evo true d₀ (doBrc e s x) := by
  unfold doBrc
  repeat' first
    | with_reducible assumption
    | with_reducible apply Dev.trap_evo
    | with_reducible apply Mi.trap_evo
    | with_reducible apply Dev.check_evo
    | with_reducible apply Dev.jumpTo_evo
    | with_reducible apply Dev.retire_evo
    | with_reducible apply Mi.retire_evo
    | (with_reducible refine Evo.upd (by with_reducible assumption) ?_ ?_ ?_ ?_ ?_ ?_ ?_ ?_ ?_ ?_ <;> rfl)
    | split
    | clear_value *

theorem doCall_evo {d₀ : Dev} {e : Nat} {s : Dev} {x : Ins} (ev : Evo true d₀ s) :
    Evo true d₀ (doCall e s x) := by
  unfold doCall
  repeat' first
    | with_reducible assumption
    | with_reducible apply Dev.check_evo
    | with_reducible apply Dev.onEng_evo
    | with_reducible apply Dev.jumpTo_evo
    | (intro _; intros)
    | (with_reducible refine Evo.upd (by with_reducible assumption) ?_ ?_ ?_ ?_ ?_ ?_ ?_ ?_ ?_ ?_ <;> rfl)

theorem doRet_evo {d₀ : Dev} {e : Nat} {s : Dev} {x : Ins} (ev : Evo true d₀ s) :
    Evo true d₀ (doRet e s x) := by
  unfold doRet
  repeat' first
    | with_reducible assumption
    | with_reducible apply Dev.check_evo
    | with_reducible apply Dev.onEng_evo
    | with_reducible apply Dev.jumpTo_evo
    | (intro _; intros)
    | (with_reducible refine Evo.upd (by with_reducible assumption) ?_ ?_ ?_ ?_ ?_ ?_ ?_ ?_ ?_ ?_ <;> rfl)

theorem doLoop_evo {d₀ : Dev} {e : Nat} {s : Dev} {x : Ins} (ev : Evo true d₀ s) :
    Evo true d₀ (doLoop e s x) := by
  unfold doLoop
  repeat' first
    | with_reducible assumption
    | (extract_lets +onlyGivenNames z; refine Evo.cut (p := Evo true d₀ z) ?_ (fun e1 => ?_); (on_goal 2 => clear_value z); (on_goal 1 => (unfold z; try clear z)))
    | (extract_lets +onlyGivenNames z; refine Evo.cut (p := Evo true d₀ z.1) ?_ (fun e1 => ?_); (on_goal 2 => clear_value z); (on_goal 1 => (unfold z; try clear z)))
    | extract_lets +onlyGivenNames z
    | with_reducible apply Dev.setReg_evo
    | with_reducible apply Dev.check_evo
    | with_reducible apply Dev.jumpTo_evo
    | with_reducible apply Dev.retire_evo
    | with_reducible apply Mi.retire_evo
    | split

theorem doHalt_evo {d₀ : Dev} {e : Nat} {n : Option Nat} {s : Dev} {x : Ins} {i : Nat} (ev : Evo true d₀ s) :
    Evo true d₀ (doHalt e n s x i) := by
  unfold doHalt
  repeat' first
    | with_reducible assumption
    | with_reducible apply Dev.retire_evo
    | with_reducible apply Mi.retire_evo
    | with_reducible apply Dev.haltEng_evo
    | with_reducible apply Dev.trap_evo
    | with_reducible apply Mi.trap_evo
    | with_reducible apply Dev.yieldFor_evo
    | with_reducible apply Dev.endStep_evo
    | with_reducible apply Dev.onEng_evo
    | (intro _; intros)
    | split

theorem doYield_evo {d₀ : Dev} {e : Nat} {s : Dev} {x : Ins} (ev : Evo true d₀ s) :
    Evo true d₀ (doYield e s x) := by
  unfold doYield
  repeat' first
    | with_reducible assumption
    | with_reducible apply Dev.check_evo
    | with_reducible apply Dev.retire_evo
    | with_reducible apply Mi.retire_evo
    | with_reducible apply Dev.onEng_evo
    | (intro _; intros)
    | (with_reducible refine Evo.upd (by with_reducible assumption) ?_ ?_ ?_ ?_ ?_ ?_ ?_ ?_ ?_ ?_ <;> rfl)
    | split

theorem doTpoint_evo {d₀ : Dev} {e : Nat} {s : Dev} {x : Ins} {i : Nat} (ev : Evo true d₀ s) :
    Evo true d₀ (doTpoint e s x i) := by
  unfold doTpoint
  repeat' first
    | with_reducible assumption
    | with_reducible apply Dev.check_evo
    | with_reducible apply Dev.retire_evo
    | with_reducible apply Mi.retire_evo
    | with_reducible apply Dev.reqDwell_evo
    | with_reducible apply Dev.onEng_evo
    | with_reducible apply Dev.onSite_evo
    | (intro _; intros)
    | (with_reducible refine Evo.upd (by with_reducible assumption) ?_ ?_ ?_ ?_ ?_ ?_ ?_ ?_ ?_ ?_ <;> rfl)
    | split


end Sys2Proof.Machine
end

