-- ==== Sys2Proof/Laws/Ev/Mspi.lean ====
section
/-! SUPPORT. What the operations of Machine/Mspi.lean can do to the whole device. -/

namespace Sys2Proof.Machine

theorem Dev.mspiFault_evo {m₀ : Bool} {d₀ : Dev} {s : Dev} (ev : Evo m₀ d₀ s) :
    Evo m₀ d₀ (Dev.mspiFault s) := by
  unfold Dev.mspiFault
  repeat' first
    | with_reducible assumption
    | (with_reducible refine Evo.upd (by with_reducible assumption) ?_ ?_ ?_ ?_ ?_ ?_ ?_ ?_ ?_ ?_ <;> rfl)

theorem Dev.mspiReturn_evo {m₀ : Bool} {d₀ : Dev} {s : Dev} {l : List W} (ev : Evo m₀ d₀ s) :
    Evo m₀ d₀ (Dev.mspiReturn s l) := by
  unfold Dev.mspiReturn
  repeat' first
    | with_reducible assumption
    | (with_reducible refine Evo.upd (by with_reducible assumption) ?_ ?_ ?_ ?_ ?_ ?_ ?_ ?_ ?_ ?_ <;> rfl)

theorem Dev.mspiCpl_evo {m₀ : Bool} {d₀ : Dev} {s : Dev} (ev : Evo m₀ d₀ s) :
    Evo m₀ d₀ (Dev.mspiCpl s) := by
  unfold Dev.mspiCpl
  repeat' first
    | with_reducible assumption
    | (extract_lets +onlyGivenNames z; refine Evo.cut (p := Evo m₀ d₀ z) ?_ (fun e1 => ?_); (on_goal 2 => clear_value z); (on_goal 1 => (unfold z; try clear z)))
    | (extract_lets +onlyGivenNames z; refine Evo.cut (p := Evo m₀ d₀ z.1) ?_ (fun e1 => ?_); (on_goal 2 => clear_value z); (on_goal 1 => (unfold z; try clear z)))
    | extract_lets +onlyGivenNames z
    | with_reducible apply Dev.mspiReturn_evo
    | (with_reducible refine Evo.upd (by with_reducible assumption) ?_ ?_ ?_ ?_ ?_ ?_ ?_ ?_ ?_ ?_ <;> rfl)
    | split
    | clear_value *

theorem Dev.mspiWords_evo {d₀ s : Dev} {a : Nat} {bad : Option Nat} {fixed : List Nat} {k n : Nat} (ev : Evo true d₀ s) :
    Evo true d₀ (s.mspiWords a bad fixed k n).1 := by
  induction n generalizing s k with
  | zero => exact ev
  | succ n ih =>
    unfold Dev.mspiWords
    dsimp only
    split
    · exact ih (Dev.mspiFault_evo ev)
    · split
      · exact Dev.mspiFault_evo (Dev.readBad_evo ev)
      · exact ih (Dev.readOne_evo ev)

theorem Dev.mspiRd_evo {d₀ s : Dev} {a n : Nat} {bad : Option Nat} {fixed : List Nat} (ev : Evo true d₀ s) :
    Evo true d₀ (s.mspiRd a n bad fixed) := by
  unfold Dev.mspiRd
  split
  · exact ev
  · split
    · exact Dev.mspiFault_evo ev
    · exact Dev.mspiReturn_evo (Dev.mspiWords_evo (Dev.settleLogs_evo ev))

theorem WrOut.mspi_evo {d₀ : Dev} {r : WrOut} {a : Nat} {l : List W} (ev : Evo true d₀ r.s) : Evo true d₀ (r.mspi a l).s := by
  induction l generalizing r a with
  | nil => exact ev
  | cons v l ih =>
    unfold WrOut.mspi
    split
    · exact ev
    · split
      · exact Dev.modeRej_evo ev
      · split
        · exact ev
        · exact ih (WrOut.word_evo ev)

theorem Dev.mspiWr_evo {d₀ s : Dev} {a : Nat} {ws : List W} (ev : Evo true d₀ s) : Evo true d₀ (s.mspiWr a ws) := by
  unfold Dev.mspiWr
  split
  · exact ev
  · split
    · exact Dev.mspiFault_evo ev
    · extract_lets r s1
      have e1 : Evo true d₀ s1 := Dev.queueNv_evo (Dev.forced_evo (WrOut.mspi_evo ev))
      clear_value s1 r
      split
      · exact Dev.mspiFault_evo e1
      · exact e1

theorem Dev.mspiStat_evo {m₀ : Bool} {d₀ : Dev} {s : Dev} (ev : Evo m₀ d₀ s) :
    Evo m₀ d₀ (Dev.mspiStat s) := by
  unfold Dev.mspiStat
  repeat' first
    | with_reducible assumption
    | (extract_lets +onlyGivenNames z; refine Evo.cut (p := Evo m₀ d₀ z) ?_ (fun e1 => ?_); (on_goal 2 => clear_value z); (on_goal 1 => (unfold z; try clear z)))
    | (extract_lets +onlyGivenNames z; refine Evo.cut (p := Evo m₀ d₀ z.1) ?_ (fun e1 => ?_); (on_goal 2 => clear_value z); (on_goal 1 => (unfold z; try clear z)))
    | extract_lets +onlyGivenNames z
    | with_reducible apply Dev.mspiReturn_evo
    | (with_reducible refine Evo.upd (by with_reducible assumption) ?_ ?_ ?_ ?_ ?_ ?_ ?_ ?_ ?_ ?_ <;> rfl)
    | split


end Sys2Proof.Machine
end

