-- ==== Sys2Proof/Laws/Ev/Pattern.lean ====
section
/-! SUPPORT. What the operations of Machine/Pattern.lean can do to the whole device. -/

namespace Sys2Proof.Machine

theorem doPlay_evo {d₀ : Dev} {e : Nat} {s : Dev} {x : Ins} {i : Nat} (ev : Evo true d₀ s) :
    Evo true d₀ (doPlay e s x i) := by
  unfold doPlay
  repeat' first
    | with_reducible assumption
    | with_reducible apply Dev.stageIns_evo

theorem doJoin_evo {d₀ : Dev} {e : Nat} {s : Dev} {x : Ins} {i : Nat} (ev : Evo true d₀ s) :
    Evo true d₀ (doJoin e s x i) := by
  unfold doJoin
  repeat' first
    | with_reducible assumption
    | with_reducible apply Dev.stageIns_evo

theorem doDetach_evo {d₀ : Dev} {e : Nat} {s : Dev} {x : Ins} {i : Nat} (ev : Evo true d₀ s) :
    Evo true d₀ (doDetach e s x i) := by
  unfold doDetach
  repeat' first
    | with_reducible assumption
    | with_reducible apply Dev.stageIns_evo

theorem doSegjmp_evo {d₀ : Dev} {e : Nat} {s : Dev} {x : Ins} (ev : Evo true d₀ s) :
    Evo true d₀ (doSegjmp e s x) := by
  unfold doSegjmp
  repeat' first
    | with_reducible assumption
    | with_reducible apply Dev.trap_evo
    | with_reducible apply Mi.trap_evo
    | with_reducible apply Dev.stageIns_evo
    | with_reducible apply Dev.check_evo
    | with_reducible apply Dev.retire_evo
    | with_reducible apply Mi.retire_evo
    | (with_reducible refine Evo.upd (by with_reducible assumption) ?_ ?_ ?_ ?_ ?_ ?_ ?_ ?_ ?_ ?_ <;> rfl)
    | split
    | clear_value *

theorem doDwell_evo {d₀ : Dev} {e : Nat} {s : Dev} {x : Ins} {i : Nat} (ev : Evo true d₀ s) :
    Evo true d₀ (doDwell e s x i) := by
  unfold doDwell
  repeat' first
    | with_reducible assumption
    | with_reducible apply Dev.stageIns_evo


end Sys2Proof.Machine
end

