-- ==== Sys2Proof/Laws/Ev/Image.lean ====
section
/-! SUPPORT. What the operations of Machine/Image.lean can do to the whole device. -/

namespace Sys2Proof.Machine

theorem Dev.seal_evo {m₀ : Bool} {d₀ : Dev} {s : Dev} {h : Header} (ev : Evo m₀ d₀ s) :
    Evo m₀ d₀ (Dev.seal s h) := by
  unfold Dev.seal
  repeat' first
    | with_reducible assumption
    | (extract_lets +onlyGivenNames z; refine Evo.cut (p := Evo m₀ d₀ z) ?_ (fun e1 => ?_); (on_goal 2 => clear_value z); (on_goal 1 => (unfold z; try clear z)))
    | (extract_lets +onlyGivenNames z; refine Evo.cut (p := Evo m₀ d₀ z.1) ?_ (fun e1 => ?_); (on_goal 2 => clear_value z); (on_goal 1 => (unfold z; try clear z)))
    | extract_lets +onlyGivenNames z
    | with_reducible apply Dev.wr_evo
    | with_reducible apply Dev.notify_evo
    | with_reducible apply Evo.forL
    | (intro _; intros)
    | (with_reducible refine Evo.upd (by with_reducible assumption) ?_ ?_ ?_ ?_ ?_ ?_ ?_ ?_ ?_ ?_ <;> rfl)


end Sys2Proof.Machine
end

