-- ==== Sys2Proof/Laws/Ev/Tick.lean ====
section
/-! SUPPORT. What the operations of Machine/Tick.lean can do to the whole device. -/

namespace Sys2Proof.Machine

theorem Dev.dropTarget_evo {m₀ : Bool} {d₀ : Dev} {x : HostEnt} {s : Dev} (ev : Evo m₀ d₀ s) :
    Evo m₀ d₀ (Dev.dropTarget x s) := by
  unfold Dev.dropTarget
  repeat' first
    | with_reducible assumption
    | with_reducible apply Dev.setBits_evo
    | with_reducible apply Dev.complete_evo
    | (with_reducible refine Evo.upd (by with_reducible assumption) ?_ ?_ ?_ ?_ ?_ ?_ ?_ ?_ ?_ ?_ <;> rfl)
    | split
    | clear_value *

theorem Dev.clockVoids_evo {m₀ : Bool} {d₀ : Dev} {s : Dev} {moved : Bool} (ev : Evo m₀ d₀ s) :
    Evo m₀ d₀ (Dev.clockVoids s moved) := by
  unfold Dev.clockVoids
  repeat' first
    | with_reducible assumption
    | (extract_lets +onlyGivenNames z; refine Evo.cut (p := Evo m₀ d₀ z) ?_ (fun e1 => ?_); (on_goal 2 => clear_value z); (on_goal 1 => (unfold z; try clear z)))
    | (extract_lets +onlyGivenNames z; refine Evo.cut (p := Evo m₀ d₀ z.1) ?_ (fun e1 => ?_); (on_goal 2 => clear_value z); (on_goal 1 => (unfold z; try clear z)))
    | extract_lets +onlyGivenNames z
    | with_reducible apply Dev.voidSites_evo
    | split

theorem Dev.resetsAt_evo {m₀ : Bool} {d₀ : Dev} {s : Dev} {t : Nat} (ev : Evo m₀ d₀ s) :
    Evo m₀ d₀ (Dev.resetsAt s t) := by
  unfold Dev.resetsAt
  repeat' first
    | with_reducible assumption
    | with_reducible apply Dev.syncAct_evo
    | (intro _; intros)
    | (with_reducible refine Evo.upd (by with_reducible assumption) ?_ ?_ ?_ ?_ ?_ ?_ ?_ ?_ ?_ ?_ <;> rfl)
    | split

theorem Dev.bankSwitch_evo {m₀ : Bool} {d₀ : Dev} {n : Nat} {s : Dev} (ev : Evo m₀ d₀ s) :
    Evo m₀ d₀ (Dev.bankSwitch n s) := by
  unfold Dev.bankSwitch
  repeat' first
    | with_reducible assumption
    | (extract_lets +onlyGivenNames z; refine Evo.cut (p := Evo m₀ d₀ z) ?_ (fun e1 => ?_); (on_goal 2 => clear_value z); (on_goal 1 => (unfold z; try clear z)))
    | (extract_lets +onlyGivenNames z; refine Evo.cut (p := Evo m₀ d₀ z.1) ?_ (fun e1 => ?_); (on_goal 2 => clear_value z); (on_goal 1 => (unfold z; try clear z)))
    | extract_lets +onlyGivenNames z
    | with_reducible apply Dev.setSpareBank_evo
    | with_reducible apply Dev.listed_evo
    | with_reducible apply Dev.saveMap_evo
    | with_reducible apply Dev.replaceBank_evo
    | with_reducible apply Evo.forL
    | (intro _; intros)
    | (with_reducible refine Evo.upd (by with_reducible assumption) ?_ ?_ ?_ ?_ ?_ ?_ ?_ ?_ ?_ ?_ <;> rfl)
    | split

theorem Dev.unitsTick_evo {m₀ : Bool} {d₀ : Dev} {s : Dev} {len : Nat} (ev : Evo m₀ d₀ s) :
    Evo m₀ d₀ (Dev.unitsTick s len) := by
  unfold Dev.unitsTick
  repeat' first
    | with_reducible assumption
    | (extract_lets +onlyGivenNames z; refine Evo.cut (p := Evo m₀ d₀ z) ?_ (fun e1 => ?_); (on_goal 2 => clear_value z); (on_goal 1 => (unfold z; try clear z)))
    | (extract_lets +onlyGivenNames z; refine Evo.cut (p := Evo m₀ d₀ z.1) ?_ (fun e1 => ?_); (on_goal 2 => clear_value z); (on_goal 1 => (unfold z; try clear z)))
    | extract_lets +onlyGivenNames z
    | with_reducible apply Dev.measTicksAll_evo
    | with_reducible apply Dev.tdcTick_evo
    | with_reducible apply Dev.resetsAt_evo
    | with_reducible apply Dev.bankSwitch_evo
    | with_reducible apply Dev.narrow_evo
    | with_reducible apply Dev.saveMap_evo
    | with_reducible apply Dev.enginesUp_evo
    | with_reducible apply Evo.forN
    | (intro _; intros)
    | split

theorem Dev.wakePhase_evo {m₀ : Bool} {d₀ : Dev} {s : Dev} (ev : Evo m₀ d₀ s) :
    Evo m₀ d₀ (Dev.wakePhase s) := by
  unfold Dev.wakePhase
  repeat' first
    | with_reducible assumption
    | (extract_lets +onlyGivenNames z; refine Evo.cut (p := Evo m₀ d₀ z) ?_ (fun e1 => ?_); (on_goal 2 => clear_value z); (on_goal 1 => (unfold z; try clear z)))
    | (extract_lets +onlyGivenNames z; refine Evo.cut (p := Evo m₀ d₀ z.1) ?_ (fun e1 => ?_); (on_goal 2 => clear_value z); (on_goal 1 => (unfold z; try clear z)))
    | extract_lets +onlyGivenNames z
    | with_reducible apply Dev.wakeAtTick_evo
    | with_reducible apply Dev.wake_evo
    | with_reducible apply Evo.forL
    | (intro _; intros)

theorem Dev.applyHost_evo {d₀ : Dev} {x : HostEnt} {r : Dev × Bool} (ev : Evo true d₀ r.1) :
    Evo true d₀ (Dev.applyHost x r).1 := by
  unfold Dev.applyHost
  repeat' first
    | with_reducible assumption
    | (extract_lets +onlyGivenNames z; refine Evo.cut (p := Evo true d₀ z) ?_ (fun e1 => ?_); (on_goal 2 => clear_value z); (on_goal 1 => (unfold z; try clear z)))
    | (extract_lets +onlyGivenNames z; refine Evo.cut (p := Evo true d₀ z.1) ?_ (fun e1 => ?_); (on_goal 2 => clear_value z); (on_goal 1 => (unfold z; try clear z)))
    | extract_lets +onlyGivenNames z
    | with_reducible apply Dev.setBits_evo
    | with_reducible apply Dev.applyWrite_evo
    | with_reducible apply Dev.complete_evo
    | with_reducible apply Dev.applyCmd_evo
    | (with_reducible refine Evo.upd (by with_reducible assumption) ?_ ?_ ?_ ?_ ?_ ?_ ?_ ?_ ?_ ?_ <;> rfl)
    | split
    | dsimp only
    | clear_value *

theorem Dev.stagedPhase_evo {d₀ s : Dev} (ev : Evo true d₀ s) : Evo true d₀ s.stagedPhase.1 := by
  unfold Dev.stagedPhase
  extract_lets n now k1 s1 r s2 l jumps k2 s3
  have e1 : Evo true d₀ s1 := Evo.upd ev rfl rfl rfl rfl rfl rfl rfl rfl rfl rfl
  have e2 : Evo true d₀ r.1 := Evo.foldlBy (σ := Dev × Bool) Prod.fst e1 (fun _ _ h => Dev.applyHost_evo h)
  clear_value r
  have e3 : Evo true d₀ s3 := Evo.upd e2 rfl rfl rfl rfl rfl rfl rfl rfl rfl rfl
  exact Evo.forL e3 (fun _ _ h => Dev.unlessSafe_evo h (fun _ h => Dev.applyEng_evo h))

theorem Dev.sparesWatch_evo {m₀ : Bool} {d₀ : Dev} {s : Dev} (ev : Evo m₀ d₀ s) :
    Evo m₀ d₀ (Dev.sparesWatch s) := by
  unfold Dev.sparesWatch
  repeat' first
    | with_reducible assumption
    | with_reducible apply Dev.onQuad_evo
    | with_reducible apply Dev.setCircs_evo
    | with_reducible apply Evo.forL
    | (intro _; intros)
    | (with_reducible refine Evo.upd (by with_reducible assumption) ?_ ?_ ?_ ?_ ?_ ?_ ?_ ?_ ?_ ?_ <;> rfl)

theorem Dev.emits_evo {m₀ : Bool} {d₀ : Dev} {s : Dev} {l : List EngEnt} (ev : Evo m₀ d₀ s) :
    Evo m₀ d₀ (Dev.emits s l) := by
  unfold Dev.emits
  repeat' first
    | with_reducible assumption
    | with_reducible apply Dev.fireAhead_evo
    | with_reducible apply Evo.forL
    | (intro _; intros)
    | (with_reducible refine Evo.upd (by with_reducible assumption) ?_ ?_ ?_ ?_ ?_ ?_ ?_ ?_ ?_ ?_ <;> rfl)
    | split
    | clear_value *

theorem Dev.keepOcc_evo {m₀ : Bool} {d₀ : Dev} {s : Dev} {due : Tab Nat} (ev : Evo m₀ d₀ s) :
    Evo m₀ d₀ (Dev.keepOcc s due) := by
  unfold Dev.keepOcc
  repeat' first
    | with_reducible assumption
    | with_reducible apply Evo.forL
    | (intro _; intros)
    | (with_reducible refine Evo.upd (by with_reducible assumption) ?_ ?_ ?_ ?_ ?_ ?_ ?_ ?_ ?_ ?_ <;> rfl)

theorem Dev.queueNotes_evo {m₀ : Bool} {d₀ : Dev} {s : Dev} {old : List Ntfy} {notes : List Ntfy} (ev : Evo m₀ d₀ s) :
    Evo m₀ d₀ (Dev.queueNotes s old notes) := by
  unfold Dev.queueNotes
  repeat' first
    | with_reducible assumption
    | (extract_lets +onlyGivenNames z; refine Evo.cut (p := Evo m₀ d₀ z) ?_ (fun e1 => ?_); (on_goal 2 => clear_value z); (on_goal 1 => (unfold z; try clear z)))
    | (extract_lets +onlyGivenNames z; refine Evo.cut (p := Evo m₀ d₀ z.1) ?_ (fun e1 => ?_); (on_goal 2 => clear_value z); (on_goal 1 => (unfold z; try clear z)))
    | extract_lets +onlyGivenNames z
    | with_reducible apply Dev.notify_evo
    | with_reducible apply Evo.forL
    | (intro _; intros)
    | (with_reducible refine Evo.upd (by with_reducible assumption) ?_ ?_ ?_ ?_ ?_ ?_ ?_ ?_ ?_ ?_ <;> rfl)
    | split

theorem Dev.frameReset_evo {m₀ : Bool} {d₀ s : Dev} (ev : Evo m₀ d₀ s) : Evo m₀ d₀ s.frameReset := by
  unfold Dev.frameReset
  apply Dev.closeOccs_evo
  (refine Evo.all ev ?_ ?_ ?_ ?_ ?_ ?_ ?_ ?_ ?_ ?_ ?_ ?_ ?_ ?_ ?_ ?_ ?_ ?_ ?_ ?_ ?_ ?_ ?_ ?_ ?_ ?_ <;> first | exact id | rfl | exact fun k => Tab.wf_upd _ k | exact fun k => Tab.wf_updAt _ k | exact fun k => Tab.wf_filter _ k)

theorem Dev.releaseStep_evo {m₀ : Bool} {d₀ : Dev} {s : Dev} (ev : Evo m₀ d₀ s) :
    Evo m₀ d₀ (Dev.releaseStep s) := by
  unfold Dev.releaseStep
  repeat' first
    | with_reducible assumption
    | with_reducible apply Dev.releaseAll_evo
    | (intro _; intros)
    | (with_reducible refine Evo.upd (by with_reducible assumption) ?_ ?_ ?_ ?_ ?_ ?_ ?_ ?_ ?_ ?_ <;> rfl)
    | (with_reducible refine Evo.updSites (by with_reducible assumption))
    | split

theorem Dev.quadsOff_evo {m₀ : Bool} {d₀ : Dev} {s : Dev} (ev : Evo m₀ d₀ s) :
    Evo m₀ d₀ (Dev.quadsOff s) := by
  unfold Dev.quadsOff
  repeat' first
    | with_reducible assumption
    | with_reducible apply Dev.quadTo_evo
    | with_reducible apply Evo.forL
    | (intro _; intros)

theorem Dev.safeRepairs_evo {d₀ : Dev} {s : Dev} (ev : Evo true d₀ s) :
    Evo true d₀ (Dev.safeRepairs s) := by
  unfold Dev.safeRepairs
  repeat' first
    | with_reducible assumption
    | (extract_lets +onlyGivenNames z; refine Evo.cut (p := Evo true d₀ z) ?_ (fun e1 => ?_); (on_goal 2 => clear_value z); (on_goal 1 => (unfold z; try clear z)))
    | (extract_lets +onlyGivenNames z; refine Evo.cut (p := Evo true d₀ z.1) ?_ (fun e1 => ?_); (on_goal 2 => clear_value z); (on_goal 1 => (unfold z; try clear z)))
    | extract_lets +onlyGivenNames z
    | with_reducible apply Dev.bankSwitch_evo
    | with_reducible apply Dev.narrow_evo
    | with_reducible apply Dev.saveMap_evo
    | with_reducible apply Dev.engRepairsSafe_evo
    | with_reducible apply Dev.quadFaults_evo
    | with_reducible apply Dev.onQuad_evo
    | with_reducible apply Dev.retire_evo
    | with_reducible apply Mi.retire_evo
    | with_reducible apply Dev.retireQuads_evo
    | with_reducible apply Evo.forL
    | with_reducible apply Evo.forN
    | (intro _; intros)
    | (with_reducible refine Evo.upd (by with_reducible assumption) ?_ ?_ ?_ ?_ ?_ ?_ ?_ ?_ ?_ ?_ <;> rfl)
    | split

theorem Dev.safeTick_evo {d₀ : Dev} {s : Dev} {h : Header} (ev : Evo true d₀ s) :
    Evo true d₀ (Dev.safeTick s h) := by
  unfold Dev.safeTick
  repeat' first
    | with_reducible assumption
    | (extract_lets +onlyGivenNames z; refine Evo.cut (p := Evo true d₀ z) ?_ (fun e1 => ?_); (on_goal 2 => clear_value z); (on_goal 1 => (unfold z; try clear z)))
    | (extract_lets +onlyGivenNames z; refine Evo.cut (p := Evo true d₀ z.1) ?_ (fun e1 => ?_); (on_goal 2 => clear_value z); (on_goal 1 => (unfold z; try clear z)))
    | extract_lets +onlyGivenNames z
    | with_reducible apply Dev.safeRepairs_evo
    | with_reducible apply Dev.ringRun_evo
    | with_reducible apply Dev.voidSites_evo
    | with_reducible apply Dev.quadsOff_evo
    | with_reducible apply Dev.commitAll_evo
    | with_reducible apply Dev.seal_evo
    | (with_reducible refine Evo.upd (by with_reducible assumption) ?_ ?_ ?_ ?_ ?_ ?_ ?_ ?_ ?_ ?_ <;> rfl)
    | split

theorem Dev.tickOpens_evo {m₀ : Bool} {d₀ s : Dev} (ev : Evo m₀ d₀ s) : Evo m₀ d₀ s.tickOpens := by
  unfold Dev.tickOpens
  (refine Evo.all ev ?_ ?_ ?_ ?_ ?_ ?_ ?_ ?_ ?_ ?_ ?_ ?_ ?_ ?_ ?_ ?_ ?_ ?_ ?_ ?_ ?_ ?_ ?_ ?_ ?_ ?_ <;> first | exact id | rfl | exact fun k => Tab.wf_upd _ k | exact fun k => Tab.wf_updAt _ k | exact fun k => Tab.wf_filter _ k)

theorem Dev.tickNotes_evo {m₀ : Bool} {d₀ : Dev} {s : Dev} {old : List Ntfy} {due : Tab Nat} (ev : Evo m₀ d₀ s) :
    Evo m₀ d₀ (Dev.tickNotes s old due) := by
  unfold Dev.tickNotes
  repeat' first
    | with_reducible assumption
    | with_reducible apply Dev.queueNotes_evo
    | with_reducible apply Dev.keepOcc_evo
    | split


end Sys2Proof.Machine
end

