-- ==== Sys2Proof/Laws/Hold.lean ====
section
/-! SUPPORT. What any command but BOOT_START and the TAP's own can do to the whole device: the invariant stays,
SAFE and RESET are left only for RESET, the straps stand until a reset, the TAP stands, and the frame number
moves only with a tick. -/

namespace Sys2Proof.Machine

/-- What a command does to a device that meets the invariant; with `f`, the frame number may have moved. -/
structure Held (f : Bool) (s t : Dev) : Prop where
  inv    : t.Inv
  safe   : s.sys.mode = .safe → t.sys.mode = .safe ∨ t.sys.mode = .reset
  reset  : s.sys.mode = .reset → t.sys.mode = .reset
  straps : (t.sys.devid = s.sys.devid ∧ t.sys.master = s.sys.master ∧ t.sys.recov = s.sys.recov) ∨ t.sys.mode = .reset
  jtag   : t.jtag = s.jtag
  tdo    : t.tdo = s.tdo
  frame  : f = false → t.clk.frame = s.clk.frame ∨ t.sys.mode = .reset

theorem Held.refl {f : Bool} {s : Dev} (i : s.Inv) : Held f s s :=
  { inv := i, safe := .inl, reset := id, straps := .inl ⟨rfl, rfl, rfl⟩, jtag := rfl, tdo := rfl,
    frame := fun _ => .inl rfl }

theorem Held.trans {f : Bool} {s t u : Dev} (h : Held f s t) (k : Held f t u) : Held f s u where
  inv := k.inv
  safe m := (h.safe m).elim k.safe (fun r => .inr (k.reset r))
  reset m := k.reset (h.reset m)
  straps := by
    rcases h.straps with ⟨a, b, c⟩ | r
    · rcases k.straps with ⟨a', b', c'⟩ | r
      · exact .inl ⟨a'.trans a, b'.trans b, c'.trans c⟩
      · exact .inr r
    · exact .inr (k.reset r)
  jtag := k.jtag.trans h.jtag
  tdo := k.tdo.trans h.tdo
  frame e := by
    rcases h.frame e with a | r
    · rcases k.frame e with a' | r
      · exact .inl (a'.trans a)
      · exact .inr r
    · exact .inr (k.reset r)

theorem Held.any {f : Bool} {s t : Dev} (h : Held false s t) : Held f s t :=
  { h with frame := fun _ => h.frame rfl }

/-- The settled modes stay so. -/
theorem Evo.settled {b : Bool} {s t : Dev} (h : Evo b s t) (i : s.Settled) : t.Settled where
  quiet m := by
    rcases h.mode with e | e
    · rw [e.2]; exact i.quiet (e.1 ▸ m)
    · exact e.2.2.2
  path r e := by
    rcases h.mode with k | k
    · exact i.path r (k.2 ▸ e)
    · rw [k.2.2.2] at e; exact absurd e (by simp)
  boot m := by
    rcases h.mode with e | e
    · rw [h.boot]; exact i.boot (e.1 ▸ m)
    · rw [e.2.1] at m; exact absurd m (by decide)

/-- An operation that only evolves the device holds. -/
theorem Evo.held {b f : Bool} {s t : Dev} (h : Evo b s t) (i : s.Inv) : Held f s t where
  inv := ⟨h.canonical i.canon, h.settled i.settled⟩
  safe m := .inl (h.safe m)
  reset m := h.reset m
  straps := .inl ⟨h.devid, h.master, h.recov⟩
  jtag := h.jtag
  tdo := h.tdo
  frame _ := .inl h.frame

/-- Go on after an operation. -/
theorem Held.bind {f : Bool} {s t u : Dev} (h : Held f s t) (k : t.Inv → Held f t u) : Held f s u := h.trans (k h.inv)

/-! ### Resets -/

theorem Dev.reset_canonical : Dev.reset.Canonical := by
  constructor <;> rfl

theorem Dev.reset_inv : Dev.reset.Inv :=
  ⟨Dev.reset_canonical, ⟨fun _ => rfl, fun r h => (by simp [Dev.reset] at h), fun _ => rfl⟩⟩

theorem Dev.enterReset_mode (s : Dev) (c : Nat) : (s.enterReset c).sys.mode = .reset := rfl

theorem Dev.enterReset_inv {s : Dev} (c : Nat) (i : s.Canonical) : (s.enterReset c).Inv := by
  have e := (Dev.nvCut_evo (Evo.refl (b := false) s)).mem i.mem
  refine ⟨?_, ⟨fun _ => rfl, fun r h => ?_, fun _ => rfl⟩⟩
  · unfold Dev.enterReset
    exact ⟨Tab.wf_filter _ e, rfl, Tab.wf_set _ _ rfl, rfl, rfl, rfl, rfl, rfl, rfl, rfl, rfl, rfl, rfl, rfl, rfl, rfl⟩
  · exact absurd h (by simp [Dev.enterReset, Dev.reset, Dev.wr])

theorem Dev.enterReset_held {f : Bool} {s : Dev} (c : Nat) (i : s.Inv) : Held f s (s.enterReset c) where
  inv := Dev.enterReset_inv c i.canon
  safe _ := .inr rfl
  reset _ := rfl
  straps := .inr rfl
  jtag := (Dev.nvCut_evo (Evo.refl (b := false) s)).jtag
  tdo := (Dev.nvCut_evo (Evo.refl (b := false) s)).tdo
  frame _ := .inr rfl

/-! ### Mode requests and switches -/

/-- A mode request is refused in RESET and in SAFE, and none leads to RESET. -/
theorem modePath_ends {o n : Mode} (h : modePath o n = true) : o ≠ .reset ∧ o ≠ .safe ∧ n ≠ .reset := by
  revert h; cases o <;> cases n <;> decide

theorem Dev.switchTo_held {f : Bool} {s : Dev} {r : ModeReq} (i : s.Inv) (q : s.sys.req = some r) :
    Held f s (s.switchTo r) := by
  have hr : r.target ≠ .reset := i.settled.path r q
  have hs : s.sys.mode ≠ .safe := fun m => by rw [i.settled.quiet (.inr m)] at q; exact absurd q (by simp)
  have hz : s.sys.mode ≠ .reset := fun m => by rw [i.settled.quiet (.inl m)] at q; exact absurd q (by simp)
  unfold Dev.switchTo
  extract_lets old new s1 s2 s3 s4
  have e1 : Evo true s s1 := by
    unfold s1; split
    · exact Dev.clrBits_evo (Evo.refl s)
    · exact Evo.refl s
  have e2 : Evo true s s2 := by
    unfold s2; split
    · exact Dev.calLeave_evo e1
    · exact e1
  have e3 : Evo true s s3 := by
    unfold s3; split
    · exact Dev.calEnter_evo e2
    · exact e2
  have e4 : Evo true s s4 := Dev.unitsTo_evo e3
  clear_value s4
  split
  · exact e4.held i
  rename_i y s5 s6 _
  have h5 : Held f s s5 := {
    inv := ⟨(e4.canonical i.canon).1 |> fun _ => (by
        have c := e4.canonical i.canon
        exact ⟨c.mem, c.scratch, c.regs, c.engs, c.sites, c.plys, c.quads, c.circs, c.chains, c.acqs, c.tdcs, c.weirs,
          c.sensors, c.lanes, c.links, c.limits⟩),
      ⟨fun _ => rfl, fun r h => absurd h (by simp [s5]), fun m => absurd m hr⟩⟩
    safe := fun m => absurd m hs
    reset := fun m => absurd m hz
    straps := .inl ⟨e4.devid, e4.master, e4.recov⟩
    jtag := e4.jtag
    tdo := e4.tdo
    frame := fun _ => .inl e4.frame }
  clear_value s5
  refine h5.bind (fun i5 => ?_)
  have e6 : Evo true s5 s6 := Dev.wrFrame_evo (Dev.setFld_evo (Dev.setBits_evo (Evo.refl s5)))
  clear_value s6
  split
  · exact (Dev.complete_evo e6).held i5
  · exact e6.held i5

theorem Dev.noReq_held {f : Bool} {s : Dev} (i : s.Inv) : Held f s { s with sys := { s.sys with req := none } } where
  inv := ⟨⟨i.canon.mem, i.canon.scratch, i.canon.regs, i.canon.engs, i.canon.sites, i.canon.plys, i.canon.quads,
    i.canon.circs, i.canon.chains, i.canon.acqs, i.canon.tdcs, i.canon.weirs, i.canon.sensors, i.canon.lanes,
    i.canon.links, i.canon.limits⟩, ⟨fun _ => rfl, fun r h => (by simp at h), i.settled.boot⟩⟩
  safe := .inl
  reset := id
  straps := .inl ⟨rfl, rfl, rfl⟩
  jtag := rfl
  tdo := rfl
  frame _ := .inl rfl

theorem Dev.trySwitch_held {f : Bool} {s : Dev} {r : ModeReq} (i : s.Inv) (q : s.sys.req = some r) :
    Held f s (s.trySwitch r) := by
  unfold Dev.trySwitch
  dsimp only
  split
  · exact Dev.switchTo_held i q
  · exact (Dev.noReq_held i).bind (fun j => (Dev.endReq_evo (Evo.refl (b := false) _)).held j)

theorem Dev.takeReq_held {f : Bool} {s : Dev} {r : ModeReq} {bad : List (Fin 16)} (i : s.Inv) :
    Held f s (Dev.takeReq bad r s) := by
  unfold Dev.takeReq
  split
  · exact (Dev.endReq_evo (Evo.refl (b := false) s)).held i
  · rename_i hp
    have hp : modePath s.sys.mode r.target = true := by simpa using hp
    obtain ⟨h1, h2, h3⟩ := modePath_ends hp
    extract_lets s1 s2 y
    have e1 : Evo false s s1 := by
      unfold s1; split
      · exact Dev.endReq_evo (Evo.refl s)
      · exact Evo.refl s
    have e2 : Evo false s s2 := by
      unfold s2; split
      · exact Dev.readThrough_evo e1
      · exact e1
    clear_value s2
    have m := e2.calm
    refine (e2.held i).bind (fun j => ?_)
    exact {
      inv := ⟨⟨j.canon.mem, j.canon.scratch, j.canon.regs, j.canon.engs, j.canon.sites, j.canon.plys, j.canon.quads,
          j.canon.circs, j.canon.chains, j.canon.acqs, j.canon.tdcs, j.canon.weirs, j.canon.sensors, j.canon.lanes,
          j.canon.links, j.canon.limits⟩,
        ⟨fun k => absurd k (by rw [show ({ s2 with sys := _ } : Dev).sys.mode = s.sys.mode from m.1]; simp [h1, h2]),
         fun q h => (by simp only [Option.some.injEq] at h; subst h; exact h3), j.settled.boot⟩⟩
      safe := .inl
      reset := id
      straps := .inl ⟨rfl, rfl, rfl⟩
      jtag := rfl
      tdo := rfl
      frame := fun _ => .inl rfl }

/-- A fold of operations that hold. -/
theorem Held.forL {f : Bool} {β : Type} {s : Dev} {l : List β} {g : β → Dev → Dev} (i : s.Inv)
    (k : ∀ x t, t.Inv → Held f t (g x t)) : Held f s (forL l g s) := by
  unfold Machine.forL
  induction l generalizing s with
  | nil => exact Held.refl i
  | cons x r ih => exact (k x s i).bind (fun j => ih j)

theorem Dev.switchDue_held {f : Bool} {s : Dev} (i : s.Inv) : Held f s s.switchDue := by
  unfold Dev.switchDue
  split
  · rename_i r q
    split
    · exact Dev.trySwitch_held i q
    · exact Held.refl i
  · exact Held.refl i

theorem Dev.modePhase_held {f : Bool} {s : Dev} {bad : List (Fin 16)} (i : s.Inv) : Held f s (s.modePhase bad) := by
  unfold Dev.modePhase
  extract_lets l y s1
  have e1 : Evo false s s1 := Evo.upd (s := s) (Evo.refl s) rfl rfl rfl rfl rfl rfl rfl rfl rfl rfl
  clear_value s1
  refine (e1.held i).bind (fun j => ?_)
  exact (Held.forL j (fun r t k => Dev.takeReq_held k)).bind (fun k => Dev.switchDue_held k)

/-! ### Commands of the host -/

theorem Dev.toRecovery_held {f : Bool} {s : Dev} (i : s.Inv) (m : s.sys.mode = .boot) : Held f s s.toRecovery := by
  unfold Dev.toRecovery
  have h : Held f s { s with sys := { s.sys with mode := .recovery } } := {
    inv := ⟨⟨i.canon.mem, i.canon.scratch, i.canon.regs, i.canon.engs, i.canon.sites, i.canon.plys, i.canon.quads,
        i.canon.circs, i.canon.chains, i.canon.acqs, i.canon.tdcs, i.canon.weirs, i.canon.sensors, i.canon.lanes,
        i.canon.links, i.canon.limits⟩,
      ⟨fun k => absurd k (by simp), i.settled.path, fun k => absurd k (by simp)⟩⟩
    safe := fun k => absurd (m.symm.trans k) (by decide)
    reset := fun k => absurd (m.symm.trans k) (by decide)
    straps := .inl ⟨rfl, rfl, rfl⟩
    jtag := rfl
    tdo := rfl
    frame := fun _ => .inl rfl }
  exact h.bind (fun j => (Dev.nvCount_evo (Evo.refl (b := false) _)).held j)

/-- ENTER_RECOVERY passes its checks only in BOOT. -/
theorem Dev.cmdStatus_recovery {s : Dev} {c : Cmd} (h : s.cmdStatus 0x11 c = 0) : s.sys.mode = .boot := by
  unfold Dev.cmdStatus at h
  generalize cmdMasks 0x11 = ms at h
  cases ms with
  | none => exact absurd (show (8 : Nat) = 0 from h) (by decide)
  | some ms =>
    by_contra hm
    have hl : s.cmdLegal c.via 0x11 (cmdParam c 0) = false := by
      unfold Dev.cmdLegal
      simp [hm]
    dsimp only at h
    rw [hl, Bool.and_false, Bool.not_false, if_pos rfl] at h
    split at h <;> exact absurd h (by decide)

/-- A command whose checks pass is carried out. -/
theorem Dev.carryOut_held {f : Bool} {s : Dev} {j : Job} {tgt : Nat} (i : s.Inv)
    (r : j.code = 0x11 → s.sys.mode = .boot) : Held f s (s.carryOut j tgt) := by
  unfold Dev.carryOut
  extract_lets c
  have ev := Evo.refl (b := true) s
  by_cases h : c = 0x01
  · rw [if_pos h]; exact (Dev.idGet_evo ev).held i
  rw [if_neg h]; clear h
  by_cases h : c = 0x11
  · rw [if_pos h]; exact (Dev.toRecovery_held i (r h)).bind (fun k => (Dev.complete_evo (Evo.refl (b := true) _)).held k)
  rw [if_neg h]; clear h
  by_cases h : c = 0x30
  · rw [if_pos h]; exact (Dev.mapClearCmd_evo ev).held i
  rw [if_neg h]; clear h
  by_cases h : c = 0x50
  · rw [if_pos h]; exact (Dev.complete_evo ev).held i
  rw [if_neg h]; clear h
  by_cases h : c = 0x51
  · rw [if_pos h]; exact (Dev.fltAck_evo ev).held i
  rw [if_neg h]; clear h
  by_cases h : c = 0x60
  · rw [if_pos h]; exact (Dev.complete_evo ev).held i
  rw [if_neg h]; clear h
  by_cases h : c = 0x62
  · rw [if_pos h]; exact (Dev.requestSave_evo (Dev.clearUnit_evo ev)).held i
  rw [if_neg h]; clear h
  by_cases h : c = 0x70
  · rw [if_pos h]; exact (Dev.calQuad_evo ev).held i
  rw [if_neg h]; clear h
  by_cases h : c = 0x80
  · rw [if_pos h]; exact (Dev.complete_evo ev).held i
  rw [if_neg h]; clear h
  by_cases h : c = 0x90
  · rw [if_pos h]; exact (Dev.requestSave_evo ev).held i
  rw [if_neg h]; clear h
  by_cases h : c = 0x91
  · rw [if_pos h]; exact (Dev.requestSave_evo ev).held i
  rw [if_neg h]; clear h
  by_cases h : c = 0xA1
  · rw [if_pos h]; exact (Dev.pwrGroups_evo ev).held i
  rw [if_neg h]; clear h
  by_cases h : c = 0xB0
  · rw [if_pos h]; exact (Dev.thmSet_evo ev).held i
  rw [if_neg h]; clear h
  by_cases h : c = 0xB1
  · rw [if_pos h]; exact (Dev.requestSave_evo ev).held i
  rw [if_neg h]; clear h
  by_cases h : c = 0xC0
  · rw [if_pos h]; exact (Dev.epochCmd_evo ev).held i
  rw [if_neg h]; clear h
  by_cases h : c = 0xC1
  · rw [if_pos h]; exact (Dev.dsyncCmd_evo ev).held i
  rw [if_neg h]; clear h
  by_cases h : c = 0xFF
  · rw [if_pos h]; exact Dev.enterReset_held 3 i
  rw [if_neg h]; clear h
  exact (Dev.startJob_evo ev).held i

theorem Dev.take_held {f : Bool} {s : Dev} {code : Nat} {c : Cmd} (i : s.Inv) : Held f s (s.take code c) := by
  unfold Dev.take
  extract_lets j st
  split
  · exact (Dev.complete_evo (Evo.refl (b := true) s)).held i
  · rename_i h0
    split
    · exact (Dev.stageCmd_evo (Evo.refl (b := true) s)).held i
    · refine Dev.carryOut_held i (fun h => ?_)
      have hc : code = 0x11 := h
      subst hc
      exact Dev.cmdStatus_recovery (by simpa [st] using h0)

theorem Dev.takeAll_held {f : Bool} {s : Dev} {l : List (Nat × Cmd)} (i : s.Inv) : Held f s (Dev.takeAll l s) := by
  induction l generalizing s with
  | nil => exact (Evo.upd (s := s) (Evo.refl (b := true) s) rfl rfl rfl rfl rfl rfl rfl rfl rfl rfl).held i
  | cons x r ih =>
    unfold Dev.takeAll
    split
    · exact (Evo.upd (s := s) (Evo.refl (b := true) s) rfl rfl rfl rfl rfl rfl rfl rfl rfl rfl).held i
    · exact (Dev.take_held i).bind (fun k => ih k)

theorem Dev.drain_held {f : Bool} {s : Dev} (i : s.Inv) : Held f s s.drain := Dev.takeAll_held i

theorem Dev.receive_held {f : Bool} {s : Dev} {code : Nat} {c : Cmd} (i : s.Inv) : Held f s (s.receive code c) := by
  unfold Dev.receive
  split
  · exact Held.refl i
  · extract_lets s1 y
    have e1 : Evo true s s1 := Dev.received_evo (Evo.refl s)
    clear_value s1
    refine (e1.held i).bind (fun k => ?_)
    split
    · exact Dev.take_held k
    · split
      · exact (Dev.complete_evo (Evo.refl (b := true) s1)).held k
      · exact ((Evo.upd (s := s1) (Evo.refl (b := true) s1) rfl rfl rfl rfl rfl rfl rfl rfl rfl rfl).held k).bind
          (fun k => Dev.drain_held k)

theorem Dev.mspiCmd_held {f : Bool} {s : Dev} {ws : List W} (i : s.Inv) : Held f s (s.mspiCmd ws) := by
  unfold Dev.mspiCmd
  split
  · exact Held.refl i
  · split
    · exact (Dev.mspiFault_evo (Evo.refl (b := true) s)).held i
    · split
      · exact (Dev.mspiFault_evo (Evo.refl (b := true) s)).held i
      · extract_lets s1
        have e1 : Evo true s s1 := by
          unfold s1; split
          · exact Dev.mspiFault_evo (Evo.refl s)
          · exact Evo.refl s
        exact (e1.held i).bind (fun k => Dev.receive_held k)

theorem Dev.nvWriteDone_held {f : Bool} {s : Dev} {v : NvVerify} (i : s.Inv) : Held f s (s.nvWriteDone v) := by
  unfold Dev.nvWriteDone
  split
  · exact (Dev.singleDone_evo (Evo.refl (b := true) s)).held i
  · exact ((Dev.setWordDone_evo (Evo.refl (b := true) s)).held i).bind (fun k => Dev.drain_held k)
  · exact Held.refl i

/-! ### Boot -/

/-- A stage of boot ends; the mode may go on from BOOT. -/
theorem Dev.bootStage_held {f : Bool} {s t : Dev} (i : s.Inv) (c : t.Canonical) (hb : s.sys.boot ≠ .off)
    (hm : t.sys.mode = s.sys.mode ∨ (s.sys.mode = .boot ∧ t.sys.mode ≠ .reset ∧ t.sys.mode ≠ .safe))
    (hr : t.sys.req = s.sys.req) (h1 : t.sys.devid = s.sys.devid) (h2 : t.sys.master = s.sys.master)
    (h3 : t.sys.recov = s.sys.recov) (h4 : t.jtag = s.jtag) (h5 : t.tdo = s.tdo) (h6 : t.clk.frame = s.clk.frame) :
    Held f s t := by
  have hz : s.sys.mode ≠ .reset := fun m => hb (i.settled.boot m)
  have htz : t.sys.mode ≠ .reset := by
    rcases hm with h | h
    · rw [h]; exact hz
    · exact h.2.1
  exact {
    inv := ⟨c, ⟨fun k => by
        rcases hm with h | h
        · rw [hr]; exact i.settled.quiet (h ▸ k)
        · rcases k with k | k
          · exact absurd k htz
          · exact absurd k h.2.2,
      fun r q => i.settled.path r (hr ▸ q), fun k => absurd k htz⟩⟩
    safe := fun m => by
      rcases hm with h | h
      · exact .inl (h.trans m)
      · rw [h.1] at m; exact absurd m (by decide)
    reset := fun m => absurd m hz
    straps := .inl ⟨h1, h2, h3⟩
    jtag := h4
    tdo := h5
    frame := fun _ => .inl h6 }

theorem Dev.linkUp_held {f : Bool} {s : Dev} {us : W} (i : s.Inv) : Held f s (s.linkUp us) := by
  unfold Dev.linkUp
  split
  · exact Held.refl i
  · rename_i hb
    have hb : s.sys.boot = .training := by simpa using hb
    extract_lets m y z s1
    have c := i.canon
    have h1 : Held f s s1 := by
      refine Dev.bootStage_held i ⟨c.mem, c.scratch, c.regs, c.engs, c.sites, c.plys, c.quads, c.circs, c.chains, c.acqs,
        c.tdcs, c.weirs, c.sensors, c.lanes, c.links, c.limits⟩ (by simp [hb]) ?_ rfl rfl rfl rfl rfl rfl rfl
      show m = s.sys.mode ∨ (s.sys.mode = .boot ∧ m ≠ .reset ∧ m ≠ .safe)
      unfold m
      split
      · rename_i h; exact .inr ⟨h, by decide, by decide⟩
      · exact .inl rfl
    clear_value s1
    exact h1.bind (fun k => (Dev.wr_evo (Evo.refl (b := true) s1)).held k)

theorem Dev.selfTestEnd_held {f : Bool} {s : Dev} {t : SelfTest} (i : s.Inv) : Held f s (s.selfTestEnd t) := by
  unfold Dev.selfTestEnd
  split
  · exact Held.refl i
  · rename_i hb
    have hb : s.sys.boot = .selfTest := by simpa using hb
    extract_lets s1 s2 s3 s4 s5 s6 s7 y s8 s9
    have e1 : Evo true s s1 := Dev.clearMem_evo (Evo.refl s)
    clear_value s1
    refine (e1.held i).bind (fun k => ?_)
    split
    · exact (Dev.raise_evo (Evo.refl s1)).held k
    · exact (Dev.raise_evo (Evo.refl s1)).held k
    · have b2 : s2.sys.boot = .selfTest := by
        unfold s2
        split
        · exact ((Dev.nvCount_evo (Evo.refl (b := true) _)).boot).trans (e1.boot.trans hb)
        · exact e1.boot.trans hb
      have h2 : Held f s1 s2 := by
        unfold s2
        split
        · rename_i h
          exact Dev.toRecovery_held k (by simp at h; exact h.2)
        · exact Held.refl k
      clear_value s2
      refine h2.bind (fun k => ?_)
      have e5 : Evo true s2 s5 := Dev.applyThermal_evo (Dev.applyMap_evo (Dev.nvCount_evo (Dev.nvCount_evo (Dev.nvFound_evo
        (Dev.idCheck_evo (Dev.loadNv_evo (Evo.refl s2)))))))
      clear_value s5
      have e6 : Evo true s2 s6 := by
        unfold s6
        split
        · exact e5
        · exact Dev.installPatch_evo e5
      clear_value s6
      have e7 : Evo true s2 s7 := Dev.testFaults_evo e6
      clear_value s7
      refine (e7.held k).bind (fun k => ?_)
      have c := k.canon
      have h8 : Held f s7 s8 := Dev.bootStage_held k ⟨c.mem, c.scratch, c.regs, c.engs, c.sites, c.plys, c.quads, c.circs,
        c.chains, c.acqs, c.tdcs, c.weirs, c.sensors, c.lanes, c.links, c.limits⟩ (by rw [e7.boot, b2]; decide)
        (.inl rfl) rfl rfl rfl rfl rfl rfl rfl
      clear_value s8
      refine h8.bind (fun k => ?_)
      have e9 : Evo true s8 s9 := Evo.forN (Evo.refl s8) (fun _ _ h => Dev.domWait_evo h)
      clear_value s9
      refine Evo.held (b := true) (Evo.forN e9 (fun j t h => ?_)) k
      split
      · exact h
      · exact Dev.domWait_evo h

/-! ### Ticks -/

theorem Dev.renumber_held {s : Dev} {n : Nat} (i : s.Inv) : Held true s (s.renumber n) where
  inv := ⟨⟨i.canon.mem, i.canon.scratch, i.canon.regs, i.canon.engs, i.canon.sites, i.canon.plys, i.canon.quads,
    i.canon.circs, i.canon.chains, i.canon.acqs, i.canon.tdcs, i.canon.weirs, i.canon.sensors, i.canon.lanes,
    i.canon.links, i.canon.limits⟩, ⟨fun k => by simp [Dev.renumber, i.settled.quiet k], fun r q => by
      simp only [Dev.renumber, Option.map_eq_some_iff] at q
      obtain ⟨a, ha, rfl⟩ := q
      exact i.settled.path a ha, i.settled.boot⟩⟩
  safe := .inl
  reset := id
  straps := .inl ⟨rfl, rfl, rfl⟩
  jtag := rfl
  tdo := rfl
  frame e := absurd e (by decide)

/-- A change of the clock alone. -/
theorem Dev.clk_held {s : Dev} {c : Clk} (i : s.Inv) : Held true s { s with clk := c } where
  inv := ⟨⟨i.canon.mem, i.canon.scratch, i.canon.regs, i.canon.engs, i.canon.sites, i.canon.plys, i.canon.quads,
    i.canon.circs, i.canon.chains, i.canon.acqs, i.canon.tdcs, i.canon.weirs, i.canon.sensors, i.canon.lanes,
    i.canon.links, i.canon.limits⟩, ⟨i.settled.quiet, i.settled.path, i.settled.boot⟩⟩
  safe := .inl
  reset := id
  straps := .inl ⟨rfl, rfl, rfl⟩
  jtag := rfl
  tdo := rfl
  frame e := absurd e (by decide)

theorem Dev.epochTick_held {s : Dev} (i : s.Inv) : Held true s s.epochTick := by
  unfold Dev.epochTick
  extract_lets was n y s1 s2 gone z s3 s4
  have h1 : Held true s s1 := Dev.clk_held i
  clear_value s1
  refine h1.bind (fun k => ?_)
  have h2 : Held true s1 s2 := Dev.renumber_held k
  clear_value s2
  refine h2.bind (fun k => ?_)
  have e3 : Evo true s2 s3 := Evo.upd (s := s2) (Evo.refl s2) rfl rfl rfl rfl rfl rfl rfl rfl rfl rfl
  clear_value s3
  have e4 : Evo true s2 s4 := Evo.forL e3 (fun _ _ h => Dev.dropTarget_evo h)
  clear_value s4
  exact (Dev.clrBits_evo (Dev.setBits_evo e4)).held k

theorem Dev.advance_held {s : Dev} {n : Nat} (i : s.Inv) : Held true s (s.advance n) := by
  unfold Dev.advance
  extract_lets m y s1 z s2 w
  have h1 : Held true s s1 := Dev.clk_held i
  clear_value s1
  refine h1.bind (fun k => ?_)
  have h2 : Held true s1 s2 := by
    unfold s2
    split
    · exact Dev.clk_held k
    · exact Held.refl k
  clear_value s2
  refine h2.bind (fun k => ?_)
  split
  · exact Dev.epochTick_held k
  · exact Dev.clk_held k

theorem Dev.newFrame_held {s : Dev} (i : s.Inv) : Held true s s.newFrame := by
  unfold Dev.newFrame
  extract_lets s1 s2 y
  have h1 : Held true s s1 := Dev.advance_held i
  clear_value s1
  refine h1.bind (fun k => ?_)
  have e2 : Evo true s1 s2 := Dev.capturesTo_evo (Evo.refl s1)
  clear_value s2
  exact (e2.held k).bind (fun k => Dev.clk_held k)

theorem Dev.laterPhases_held {f : Bool} {s : Dev} {j : List (Nat × Nat)} {bad : List (Fin 16)} (i : s.Inv) :
    Held f s (s.laterPhases j bad) := by
  unfold Dev.laterPhases
  extract_lets s1 s2 s3
  have e1 : Evo true s s1 :=
    Dev.unlessSafe_evo (Dev.unlessSafe_evo (Evo.refl s) (fun _ h => Dev.powerPhase_evo h)) (fun _ h => Dev.engRepairs_evo h)
  clear_value s1
  have e2 : Evo true s s2 :=
    Dev.unlessSafe_evo (Dev.unlessSafe_evo e1 (fun _ h => Dev.quadPhase_evo (Dev.quadsPowered_evo h)))
      (fun _ h => Dev.sparesWatch_evo h)
  clear_value s2
  have e3 : Evo true s s3 :=
    Dev.unlessSafe_evo (Dev.unlessSafe_evo e2 (fun _ h => Dev.playersPhase_evo h)) (fun _ h => Dev.dpsPhase_evo h)
  clear_value s3
  refine (e3.held i).bind (fun k => ?_)
  unfold Dev.unlessSafe
  split
  · exact Held.refl k
  · exact Dev.modePhase_held k

theorem Dev.runTick_held {f : Bool} {s : Dev} {o : Mode} {n : Nat} {bad : List (Fin 16)} {h : Header} (i : s.Inv) :
    Held f s (s.runTick o n bad h) := by
  unfold Dev.runTick
  extract_lets p s1 c s2 m s3 s4
  have e1 : Evo true s p.1 := Dev.stagedPhase_evo (Dev.wakePhase_evo (Dev.unitsTick_evo (Evo.refl s)))
  clear_value p
  refine (e1.held i).bind (fun k => ?_)
  have h1 : Held f p.1 s1 := (Dev.laterPhases_held k).bind (fun k => (Dev.demands_evo (Evo.refl (b := true) _)).held k)
  clear_value s1
  refine h1.bind (fun k => ?_)
  have e2 : Evo true s1 s2 := Dev.commitAll_evo (Evo.refl s1)
  clear_value s2
  have e3 : Evo true s1 s3 := by
    unfold s3
    split
    · exact Dev.seal_evo e2
    · exact e2
  clear_value s3
  have e4 : Evo true s1 s4 := Dev.fireAhead_evo e3
  clear_value s4
  exact (Dev.emits_evo e4).held k

theorem Dev.frameTick_held {s : Dev} {bad : List (Fin 16)} (i : s.Inv) : Held true s (s.frameTick bad) := by
  unfold Dev.frameTick
  split
  · exact Held.refl i
  · extract_lets old len moved ntfy late s1 due y s2 h s3 s4
    have e1 : Evo true s s1 := Dev.overrunAll_evo (Dev.tickOpens_evo (Dev.settleLogs_evo (Evo.refl s)))
    clear_value s1
    have e2 : Evo true s s2 := Evo.upd (s := s1) e1 rfl rfl rfl rfl rfl rfl rfl rfl rfl rfl
    clear_value s2
    refine (e2.held i).bind (fun k => ?_)
    have h3 : Held true s2 s3 := Dev.newFrame_held k
    clear_value s3
    refine h3.bind (fun k => ?_)
    have h4 : Held true s3 s4 := by
      unfold s4
      split
      · exact (Dev.safeTick_evo (Evo.refl (b := true) s3)).held k
      · exact ((Dev.waitCounts_evo (Dev.clockVoids_evo (Evo.refl (b := true) s3))).held k).bind
          (fun k => Dev.runTick_held k)
    clear_value s4
    refine h4.bind (fun k => ?_)
    exact ((Dev.frameReset_evo (Dev.releaseStep_evo (Dev.tickNotes_evo (Evo.refl (b := true) s4)))).held k).bind
      (fun k => Dev.drain_held k)

end Sys2Proof.Machine
end

