-- ==== Sys2Proof/Laws/Ex/Arith.lean ====
section
/-! SUPPORT. What the commands of Machine/Arith.lean do to the whole device: each holds (Laws/Hold.lean). -/

namespace Sys2Proof.Machine

theorem execMovi_held {e : Fin 272} {f : Fetch} {s t₀ : State} (h₀ : execMovi e f s = .next t₀) (i₀ : s.toDev.Inv) :
    Held false s.toDev t₀.toDev := by
  cases h₀
  refine Evo.held (b := true) ?_ i₀
  have ev := Evo.refl (b := true) s.toDev
  dsimp only
  repeat' first
    | with_reducible assumption
    | with_reducible apply Dev.instrOp_evo
    | with_reducible apply doMovi_evo
    | (intro _; intros)

theorem execAdd_held {e : Fin 272} {f : Fetch} {s t₀ : State} (h₀ : execAdd e f s = .next t₀) (i₀ : s.toDev.Inv) :
    Held false s.toDev t₀.toDev := by
  cases h₀
  refine Evo.held (b := true) ?_ i₀
  have ev := Evo.refl (b := true) s.toDev
  dsimp only
  repeat' first
    | with_reducible assumption
    | with_reducible apply Dev.instrOp_evo
    | with_reducible apply doAlu_evo
    | (intro _; intros)

theorem execSub_held {e : Fin 272} {f : Fetch} {s t₀ : State} (h₀ : execSub e f s = .next t₀) (i₀ : s.toDev.Inv) :
    Held false s.toDev t₀.toDev := by
  cases h₀
  refine Evo.held (b := true) ?_ i₀
  have ev := Evo.refl (b := true) s.toDev
  dsimp only
  repeat' first
    | with_reducible assumption
    | with_reducible apply Dev.instrOp_evo
    | with_reducible apply doAlu_evo
    | (intro _; intros)

theorem execAnd_held {e : Fin 272} {f : Fetch} {s t₀ : State} (h₀ : execAnd e f s = .next t₀) (i₀ : s.toDev.Inv) :
    Held false s.toDev t₀.toDev := by
  cases h₀
  refine Evo.held (b := true) ?_ i₀
  have ev := Evo.refl (b := true) s.toDev
  dsimp only
  repeat' first
    | with_reducible assumption
    | with_reducible apply Dev.instrOp_evo
    | with_reducible apply doAlu_evo
    | (intro _; intros)

theorem execOr_held {e : Fin 272} {f : Fetch} {s t₀ : State} (h₀ : execOr e f s = .next t₀) (i₀ : s.toDev.Inv) :
    Held false s.toDev t₀.toDev := by
  cases h₀
  refine Evo.held (b := true) ?_ i₀
  have ev := Evo.refl (b := true) s.toDev
  dsimp only
  repeat' first
    | with_reducible assumption
    | with_reducible apply Dev.instrOp_evo
    | with_reducible apply doAlu_evo
    | (intro _; intros)

theorem execXor_held {e : Fin 272} {f : Fetch} {s t₀ : State} (h₀ : execXor e f s = .next t₀) (i₀ : s.toDev.Inv) :
    Held false s.toDev t₀.toDev := by
  cases h₀
  refine Evo.held (b := true) ?_ i₀
  have ev := Evo.refl (b := true) s.toDev
  dsimp only
  repeat' first
    | with_reducible assumption
    | with_reducible apply Dev.instrOp_evo
    | with_reducible apply doAlu_evo
    | (intro _; intros)

theorem execShl_held {e : Fin 272} {f : Fetch} {s t₀ : State} (h₀ : execShl e f s = .next t₀) (i₀ : s.toDev.Inv) :
    Held false s.toDev t₀.toDev := by
  cases h₀
  refine Evo.held (b := true) ?_ i₀
  have ev := Evo.refl (b := true) s.toDev
  dsimp only
  repeat' first
    | with_reducible assumption
    | with_reducible apply Dev.instrOp_evo
    | with_reducible apply doAlu_evo
    | (intro _; intros)

theorem execShr_held {e : Fin 272} {f : Fetch} {s t₀ : State} (h₀ : execShr e f s = .next t₀) (i₀ : s.toDev.Inv) :
    Held false s.toDev t₀.toDev := by
  cases h₀
  refine Evo.held (b := true) ?_ i₀
  have ev := Evo.refl (b := true) s.toDev
  dsimp only
  repeat' first
    | with_reducible assumption
    | with_reducible apply Dev.instrOp_evo
    | with_reducible apply doShr_evo
    | (intro _; intros)

theorem execCmp_held {e : Fin 272} {f : Fetch} {s t₀ : State} (h₀ : execCmp e f s = .next t₀) (i₀ : s.toDev.Inv) :
    Held false s.toDev t₀.toDev := by
  cases h₀
  refine Evo.held (b := true) ?_ i₀
  have ev := Evo.refl (b := true) s.toDev
  dsimp only
  repeat' first
    | with_reducible assumption
    | with_reducible apply Dev.instrOp_evo
    | with_reducible apply doTest_evo
    | (intro _; intros)

theorem execFcmp_held {e : Fin 272} {f : Fetch} {s t₀ : State} (h₀ : execFcmp e f s = .next t₀) (i₀ : s.toDev.Inv) :
    Held false s.toDev t₀.toDev := by
  cases h₀
  refine Evo.held (b := true) ?_ i₀
  have ev := Evo.refl (b := true) s.toDev
  dsimp only
  repeat' first
    | with_reducible assumption
    | with_reducible apply Dev.instrOp_evo
    | with_reducible apply doTest_evo
    | (intro _; intros)


end Sys2Proof.Machine
end

