-- ==== Sys2Proof/Laws/Ex/Cistern.lean ====
section
/-! SUPPORT. What the commands of Machine/Cistern.lean do to the whole device: each holds (Laws/Hold.lean). -/

namespace Sys2Proof.Machine

theorem execScrubStep_held {c : Ecc} {s t₀ : State} (h₀ : execScrubStep c s = .next t₀) (i₀ : s.toDev.Inv) :
    Held false s.toDev t₀.toDev := by
  cases h₀
  refine Evo.held (b := true) ?_ i₀
  have ev := Evo.refl (b := true) s.toDev
  dsimp only
  repeat' first
    | with_reducible assumption
    | with_reducible apply Dev.scrubStep_evo
    | (intro _; intros)

theorem execBankCopyDone_held {n : Fin 4} {bad : List (BitVec 23)} {s t₀ : State} (h₀ : execBankCopyDone n bad s = .next t₀) (i₀ : s.toDev.Inv) :
    Held false s.toDev t₀.toDev := by
  cases h₀
  refine Evo.held (b := true) ?_ i₀
  have ev := Evo.refl (b := true) s.toDev
  dsimp only
  repeat' first
    | with_reducible assumption
    | with_reducible apply Dev.copyDone_evo
    | (intro _; intros)

theorem execStreamRecord_held {l : Fin 4} {r : Record} {s t₀ : State} (h₀ : execStreamRecord l r s = .next t₀) (i₀ : s.toDev.Inv) :
    Held false s.toDev t₀.toDev := by
  cases h₀
  refine Evo.held (b := true) ?_ i₀
  have ev := Evo.refl (b := true) s.toDev
  dsimp only
  repeat' first
    | with_reducible assumption
    | with_reducible apply Dev.streamRecord_evo
    | (intro _; intros)


end Sys2Proof.Machine
end

