-- ==== Sys2Proof/Laws/Ex/Players.lean ====
section
/-! SUPPORT. What the commands of Machine/Players.lean do to the whole device: each holds (Laws/Hold.lean). -/

namespace Sys2Proof.Machine

theorem execUnitEnd_held {y : Fin 16} {pos : Pos} {s t₀ : State} (h₀ : execUnitEnd y pos s = .next t₀) (i₀ : s.toDev.Inv) :
    Held false s.toDev t₀.toDev := by
  cases h₀
  refine Evo.held (b := true) ?_ i₀
  have ev := Evo.refl (b := true) s.toDev
  dsimp only
  repeat' first
    | with_reducible assumption
    | (extract_lets +onlyGivenNames z; refine Evo.cut (p := Evo true s.toDev z) ?_ (fun e1 => ?_); (on_goal 2 => clear_value z); (on_goal 1 => (unfold z; try clear z)))
    | (extract_lets +onlyGivenNames z; refine Evo.cut (p := Evo true s.toDev z.1) ?_ (fun e1 => ?_); (on_goal 2 => clear_value z); (on_goal 1 => (unfold z; try clear z)))
    | extract_lets +onlyGivenNames z
    | with_reducible apply Dev.unitEnd_evo
    | with_reducible apply Dev.edgeClamp_evo
    | (intro _; intros)
    | split
    | clear_value *

theorem execVectorStart_held {y : Fin 16} {pos : Pos} {x : RowEcc} {s t₀ : State} (h₀ : execVectorStart y pos x s = .next t₀) (i₀ : s.toDev.Inv) :
    Held false s.toDev t₀.toDev := by
  cases h₀
  refine Evo.held (b := true) ?_ i₀
  have ev := Evo.refl (b := true) s.toDev
  dsimp only
  repeat' first
    | with_reducible assumption
    | with_reducible apply Dev.vectorStart_evo
    | (intro _; intros)


end Sys2Proof.Machine
end

