-- ==== Sys2Proof/Laws/Ex/Capture.lean ====
section
/-! SUPPORT. What the commands of Machine/Capture.lean do to the whole device: each holds (Laws/Hold.lean). -/

namespace Sys2Proof.Machine

theorem execCompareStrobe_held {i : Fin 256} {t : BitVec 7} {pos : Pos} {h : Trace} {l : Trace} {sh : Bool} {sl : Bool} {s t₀ : State} (h₀ : execCompareStrobe i t pos h l sh sl s = .next t₀) (i₀ : s.toDev.Inv) :
    Held false s.toDev t₀.toDev := by
  cases h₀
  refine Evo.held (b := true) ?_ i₀
  have ev := Evo.refl (b := true) s.toDev
  dsimp only
  repeat' first
    | with_reducible assumption
    | (extract_lets +onlyGivenNames z; refine Evo.cut (p := Evo true s.toDev z) ?_ (fun e1 => ?_); (on_goal 2 => clear_value z); (on_goal 1 => (unfold z; try clear z)))
    | (extract_lets +onlyGivenNames z; refine Evo.cut (p := Evo true s.toDev z.1) ?_ (fun e1 => ?_); (on_goal 2 => clear_value z); (on_goal 1 => (unfold z; try clear z)))
    | extract_lets +onlyGivenNames z
    | with_reducible apply Dev.flushOffers_evo
    | with_reducible apply Dev.settleFrame_evo
    | with_reducible apply Dev.compareStrobe_evo
    | (intro _; intros)
    | split
    | clear_value *

theorem execFailQueueDrain_held {bad : List (Fin 256)} {s t₀ : State} (h₀ : execFailQueueDrain bad s = .next t₀) (i₀ : s.toDev.Inv) :
    Held false s.toDev t₀.toDev := by
  cases h₀
  refine Evo.held (b := true) ?_ i₀
  have ev := Evo.refl (b := true) s.toDev
  dsimp only
  repeat' first
    | with_reducible assumption
    | with_reducible apply Dev.queueDrain_evo
    | (intro _; intros)


end Sys2Proof.Machine
end

