-- ==== Sys2Proof/Laws/Ex/Tdc.lean ====
section
/-! SUPPORT. What the commands of Machine/Tdc.lean do to the whole device: each holds (Laws/Hold.lean). -/

namespace Sys2Proof.Machine

theorem execTdcEdge_held {ch : Fin 720} {src : Fin 8} {pos : Pos} {lsb : Nat} {s t₀ : State} (h₀ : execTdcEdge ch src pos lsb s = .next t₀) (i₀ : s.toDev.Inv) :
    Held false s.toDev t₀.toDev := by
  cases h₀
  refine Evo.held (b := true) ?_ i₀
  have ev := Evo.refl (b := true) s.toDev
  dsimp only
  repeat' first
    | with_reducible assumption
    | with_reducible apply Dev.tdcEdgeIn_evo
    | (intro _; intros)
    | (with_reducible refine Evo.upd (by with_reducible assumption) ?_ ?_ ?_ ?_ ?_ ?_ ?_ ?_ ?_ ?_ <;> rfl)
    | split
    | clear_value *

theorem execTdcWindowClose_held {ch : Fin 720} {s t₀ : State} (h₀ : execTdcWindowClose ch s = .next t₀) (i₀ : s.toDev.Inv) :
    Held false s.toDev t₀.toDev := by
  cases h₀
  refine Evo.held (b := true) ?_ i₀
  have ev := Evo.refl (b := true) s.toDev
  dsimp only
  repeat' first
    | with_reducible assumption
    | with_reducible apply Dev.missStop_evo
    | (intro _; intros)

theorem execTdcNosig_held {ch : Fin 720} {pos : Pos} {s t₀ : State} (h₀ : execTdcNosig ch pos s = .next t₀) (i₀ : s.toDev.Inv) :
    Held false s.toDev t₀.toDev := by
  cases h₀
  refine Evo.held (b := true) ?_ i₀
  have ev := Evo.refl (b := true) s.toDev
  dsimp only
  repeat' first
    | with_reducible assumption
    | with_reducible apply Dev.tdcBad_evo
    | (intro _; intros)
    | split
    | clear_value *

theorem execTdcMaxt_held {ch : Fin 720} {s t₀ : State} (h₀ : execTdcMaxt ch s = .next t₀) (i₀ : s.toDev.Inv) :
    Held false s.toDev t₀.toDev := by
  cases h₀
  refine Evo.held (b := true) ?_ i₀
  have ev := Evo.refl (b := true) s.toDev
  dsimp only
  repeat' first
    | with_reducible assumption
    | with_reducible apply Dev.tdcCut_evo
    | (intro _; intros)
    | split
    | clear_value *


end Sys2Proof.Machine
end

