-- ==== Sys2Proof/Laws/Ex/Chan.lean ====
section
/-! SUPPORT. What the commands of Machine/Chan.lean do to the whole device: each holds (Laws/Hold.lean). -/

namespace Sys2Proof.Machine

theorem execMeasConversionEnd_held {ch : Fin 720} {r : Reading} {s t₀ : State} (h₀ : execMeasConversionEnd ch r s = .next t₀) (i₀ : s.toDev.Inv) :
    Held false s.toDev t₀.toDev := by
  cases h₀
  refine Evo.held (b := true) ?_ i₀
  have ev := Evo.refl (b := true) s.toDev
  dsimp only
  repeat' first
    | with_reducible assumption
    | with_reducible apply Dev.convDone_evo
    | (intro _; intros)

theorem execDpsTrip_held {ch : Fin 720} {s t₀ : State} (h₀ : execDpsTrip ch s = .next t₀) (i₀ : s.toDev.Inv) :
    Held false s.toDev t₀.toDev := by
  cases h₀
  refine Evo.held (b := true) ?_ i₀
  have ev := Evo.refl (b := true) s.toDev
  dsimp only
  repeat' first
    | with_reducible assumption
    | with_reducible apply Dev.dpsTrip_evo
    | (intro _; intros)
    | split
    | clear_value *

theorem execCurrentLimit_held {ch : Fin 720} {entering : Bool} {s t₀ : State} (h₀ : execCurrentLimit ch entering s = .next t₀) (i₀ : s.toDev.Inv) :
    Held false s.toDev t₀.toDev := by
  cases h₀
  refine Evo.held (b := true) ?_ i₀
  have ev := Evo.refl (b := true) s.toDev
  dsimp only
  repeat' first
    | with_reducible assumption
    | with_reducible apply Dev.currentLimit_evo
    | (intro _; intros)

theorem execPmuClamp_held {ch : Fin 720} {s t₀ : State} (h₀ : execPmuClamp ch s = .next t₀) (i₀ : s.toDev.Inv) :
    Held false s.toDev t₀.toDev := by
  cases h₀
  refine Evo.held (b := true) ?_ i₀
  have ev := Evo.refl (b := true) s.toDev
  dsimp only
  repeat' first
    | with_reducible assumption
    | with_reducible apply Dev.pmuClamp_evo
    | (intro _; intros)


end Sys2Proof.Machine
end

