-- ==== Sys2Proof/Laws/Ex/Chain.lean ====
section
/-! SUPPORT. What the commands of Machine/Chain.lean do to the whole device: each holds (Laws/Hold.lean). -/

namespace Sys2Proof.Machine

theorem execAdcSample_held {ch : Fin 720} {pos : Pos} {code : BitVec 16} {clip : Bool} {s t₀ : State} (h₀ : execAdcSample ch pos code clip s = .next t₀) (i₀ : s.toDev.Inv) :
    Held false s.toDev t₀.toDev := by
  cases h₀
  refine Evo.held (b := true) ?_ i₀
  have ev := Evo.refl (b := true) s.toDev
  dsimp only
  repeat' first
    | with_reducible assumption
    | with_reducible apply Dev.adcSample_evo
    | (intro _; intros)

theorem execAcqDone_held {q : Fin 144} {pos : Pos} {s t₀ : State} (h₀ : execAcqDone q pos s = .next t₀) (i₀ : s.toDev.Inv) :
    Held false s.toDev t₀.toDev := by
  cases h₀
  refine Evo.held (b := true) ?_ i₀
  have ev := Evo.refl (b := true) s.toDev
  dsimp only
  repeat' first
    | with_reducible assumption
    | with_reducible apply Dev.acqFinish_evo
    | (intro _; intros)

theorem execDsyncPinEdge_held {pos : Pos} {s t₀ : State} (h₀ : execDsyncPinEdge pos s = .next t₀) (i₀ : s.toDev.Inv) :
    Held false s.toDev t₀.toDev := by
  cases h₀
  refine Evo.held (b := true) ?_ i₀
  have ev := Evo.refl (b := true) s.toDev
  dsimp only
  repeat' first
    | with_reducible assumption
    | with_reducible apply Dev.syncRequest_evo
    | (intro _; intros)
    | split
    | clear_value *


end Sys2Proof.Machine
end

