-- ==== Sys2Proof/Laws/Ex/Held.lean ====
section
/-! SUPPORT. What the commands of Machine/Held.lean do to the whole device: each holds (Laws/Hold.lean). -/

namespace Sys2Proof.Machine

theorem execStep_held {e : Fin 272} {f : Fetch} {s t₀ : State} (h₀ : execStep e f s = .next t₀) (i₀ : s.toDev.Inv) :
    Held false s.toDev t₀.toDev := by
  cases h₀
  refine Evo.held (b := true) ?_ i₀
  have ev := Evo.refl (b := true) s.toDev
  dsimp only
  repeat' first
    | with_reducible assumption
    | with_reducible apply Dev.instrCut_evo
    | with_reducible apply doStep_evo
    | (intro _; intros)

theorem execLimit_held {e : Fin 272} {f : Fetch} {c : Ecc} {s t₀ : State} (h₀ : execLimit e f c s = .next t₀) (i₀ : s.toDev.Inv) :
    Held false s.toDev t₀.toDev := by
  cases h₀
  refine Evo.held (b := true) ?_ i₀
  have ev := Evo.refl (b := true) s.toDev
  dsimp only
  repeat' first
    | with_reducible assumption
    | with_reducible apply Dev.instrSite_evo
    | with_reducible apply doLimit_evo
    | with_reducible apply Dev.uncorrectable_evo
    | (intro _; intros)

theorem execBin_held {e : Fin 272} {f : Fetch} {s t₀ : State} (h₀ : execBin e f s = .next t₀) (i₀ : s.toDev.Inv) :
    Held false s.toDev t₀.toDev := by
  cases h₀
  refine Evo.held (b := true) ?_ i₀
  have ev := Evo.refl (b := true) s.toDev
  dsimp only
  repeat' first
    | with_reducible assumption
    | with_reducible apply Dev.instrSite_evo
    | with_reducible apply doBin_evo
    | (intro _; intros)

theorem execLogf_held {e : Fin 272} {f : Fetch} {s t₀ : State} (h₀ : execLogf e f s = .next t₀) (i₀ : s.toDev.Inv) :
    Held false s.toDev t₀.toDev := by
  cases h₀
  refine Evo.held (b := true) ?_ i₀
  have ev := Evo.refl (b := true) s.toDev
  dsimp only
  repeat' first
    | with_reducible assumption
    | with_reducible apply Dev.instrSite_evo
    | with_reducible apply doLogf_evo
    | (intro _; intros)

theorem execVoidh_held {e : Fin 272} {f : Fetch} {s t₀ : State} (h₀ : execVoidh e f s = .next t₀) (i₀ : s.toDev.Inv) :
    Held false s.toDev t₀.toDev := by
  cases h₀
  refine Evo.held (b := true) ?_ i₀
  have ev := Evo.refl (b := true) s.toDev
  dsimp only
  repeat' first
    | with_reducible assumption
    | with_reducible apply Dev.instrOp_evo
    | with_reducible apply doVoidh_evo
    | (intro _; intros)

theorem execEmit_held {e : Fin 272} {f : Fetch} {s t₀ : State} (h₀ : execEmit e f s = .next t₀) (i₀ : s.toDev.Inv) :
    Held false s.toDev t₀.toDev := by
  cases h₀
  refine Evo.held (b := true) ?_ i₀
  have ev := Evo.refl (b := true) s.toDev
  dsimp only
  repeat' first
    | with_reducible assumption
    | with_reducible apply Dev.instrSite_evo
    | with_reducible apply doEmit_evo
    | (intro _; intros)

theorem execWaite_held {e : Fin 272} {f : Fetch} {s t₀ : State} (h₀ : execWaite e f s = .next t₀) (i₀ : s.toDev.Inv) :
    Held false s.toDev t₀.toDev := by
  cases h₀
  refine Evo.held (b := true) ?_ i₀
  have ev := Evo.refl (b := true) s.toDev
  dsimp only
  repeat' first
    | with_reducible assumption
    | with_reducible apply Dev.instrSite_evo
    | with_reducible apply doWaite_evo
    | (intro _; intros)


end Sys2Proof.Machine
end

