-- ==== Sys2Proof/Laws/Ex/Quads.lean ====
section
/-! SUPPORT. What the commands of Machine/Quads.lean do to the whole device: each holds (Laws/Hold.lean). -/

namespace Sys2Proof.Machine

theorem execQuadWarmDone_held {q : Fin 144} {s t₀ : State} (h₀ : execQuadWarmDone q s = .next t₀) (i₀ : s.toDev.Inv) :
    Held false s.toDev t₀.toDev := by
  cases h₀
  refine Evo.held (b := true) ?_ i₀
  have ev := Evo.refl (b := true) s.toDev
  dsimp only
  repeat' first
    | with_reducible assumption
    | with_reducible apply Dev.quadsTo_evo
    | with_reducible apply Dev.qDone_evo
    | (intro _; intros)
    | (with_reducible refine Evo.upd (by with_reducible assumption) ?_ ?_ ?_ ?_ ?_ ?_ ?_ ?_ ?_ ?_ <;> rfl)
    | split
    | clear_value *

theorem execSubstPathClose_held {q : Fin 144} {s t₀ : State} (h₀ : execSubstPathClose q s = .next t₀) (i₀ : s.toDev.Inv) :
    Held false s.toDev t₀.toDev := by
  cases h₀
  refine Evo.held (b := true) ?_ i₀
  have ev := Evo.refl (b := true) s.toDev
  dsimp only
  repeat' first
    | with_reducible assumption
    | with_reducible apply Dev.substPath_evo
    | (intro _; intros)

theorem execSubstInService_held {q : Fin 144} {s t₀ : State} (h₀ : execSubstInService q s = .next t₀) (i₀ : s.toDev.Inv) :
    Held false s.toDev t₀.toDev := by
  cases h₀
  refine Evo.held (b := true) ?_ i₀
  have ev := Evo.refl (b := true) s.toDev
  dsimp only
  repeat' first
    | with_reducible assumption
    | with_reducible apply Dev.substServe_evo
    | (intro _; intros)

theorem execChHw_held {x : HwFaults} {s t₀ : State} (h₀ : execChHw x s = .next t₀) (i₀ : s.toDev.Inv) :
    Held false s.toDev t₀.toDev := by
  cases h₀
  refine Evo.held (b := true) ?_ i₀
  have ev := Evo.refl (b := true) s.toDev
  dsimp only
  repeat' first
    | with_reducible assumption
    | with_reducible apply Dev.raises_evo
    | (intro _; intros)

theorem execQuadHw_held {qs : List (Fin 144)} {s t₀ : State} (h₀ : execQuadHw qs s = .next t₀) (i₀ : s.toDev.Inv) :
    Held false s.toDev t₀.toDev := by
  cases h₀
  refine Evo.held (b := true) ?_ i₀
  have ev := Evo.refl (b := true) s.toDev
  dsimp only
  repeat' first
    | with_reducible assumption
    | with_reducible apply Dev.raises_evo
    | (intro _; intros)


end Sys2Proof.Machine
end

