-- ==== Sys2Proof/Laws/Ex/Boot.lean ====
section
/-! SUPPORT. What the commands of Machine/Boot.lean do to the whole device: each holds (Laws/Hold.lean). -/

namespace Sys2Proof.Machine

theorem execResetNLow_held {s t₀ : State} (h₀ : execResetNLow s = .next t₀) (i₀ : s.toDev.Inv) :
    Held false s.toDev t₀.toDev := by
  cases h₀
  dsimp only
  split
  · exact Held.refl i₀
  · refine (Dev.enterReset_held 1 i₀).bind (fun k => ?_)
    exact {
      inv := ⟨⟨k.canon.mem, k.canon.scratch, k.canon.regs, k.canon.engs, k.canon.sites, k.canon.plys, k.canon.quads,
        k.canon.circs, k.canon.chains, k.canon.acqs, k.canon.tdcs, k.canon.weirs, k.canon.sensors, k.canon.lanes,
        k.canon.links, k.canon.limits⟩, ⟨k.settled.quiet, k.settled.path, k.settled.boot⟩⟩
      safe := .inl
      reset := id
      straps := .inl ⟨rfl, rfl, rfl⟩
      jtag := rfl
      tdo := rfl
      frame := fun _ => .inl rfl }

theorem execSupplyReset_held {r : Rail} {s t₀ : State} (h₀ : execSupplyReset r s = .next t₀) (i₀ : s.toDev.Inv) :
    Held false s.toDev t₀.toDev := by
  cases h₀
  dsimp only
  split
  · exact Held.refl i₀
  · exact Dev.enterReset_held 2 i₀

theorem execRailWarn_held {r : Rail} {s t₀ : State} (h₀ : execRailWarn r s = .next t₀) (i₀ : s.toDev.Inv) :
    Held false s.toDev t₀.toDev := by
  cases h₀
  refine Evo.held (b := true) ?_ i₀
  have ev := Evo.refl (b := true) s.toDev
  dsimp only
  repeat' first
    | with_reducible assumption
    | with_reducible apply Dev.railWarn_evo
    | (intro _; intros)

theorem execVchFault_held {negative : Bool} {s t₀ : State} (h₀ : execVchFault negative s = .next t₀) (i₀ : s.toDev.Inv) :
    Held false s.toDev t₀.toDev := by
  cases h₀
  refine Evo.held (b := true) ?_ i₀
  have ev := Evo.refl (b := true) s.toDev
  dsimp only
  repeat' first
    | with_reducible assumption
    | (extract_lets +onlyGivenNames z; refine Evo.cut (p := Evo true s.toDev z) ?_ (fun e1 => ?_); (on_goal 2 => clear_value z); (on_goal 1 => (unfold z; try clear z)))
    | (extract_lets +onlyGivenNames z; refine Evo.cut (p := Evo true s.toDev z.1) ?_ (fun e1 => ?_); (on_goal 2 => clear_value z); (on_goal 1 => (unfold z; try clear z)))
    | extract_lets +onlyGivenNames z
    | with_reducible apply Dev.condOn_evo
    | (intro _; intros)
    | (with_reducible refine Evo.upd (by with_reducible assumption) ?_ ?_ ?_ ?_ ?_ ?_ ?_ ?_ ?_ ?_ <;> rfl)
    | split
    | clear_value *

theorem execVdpsLow_held {d : Fin 4} {s t₀ : State} (h₀ : execVdpsLow d s = .next t₀) (i₀ : s.toDev.Inv) :
    Held false s.toDev t₀.toDev := by
  cases h₀
  refine Evo.held (b := true) ?_ i₀
  have ev := Evo.refl (b := true) s.toDev
  dsimp only
  repeat' first
    | with_reducible assumption
    | (extract_lets +onlyGivenNames z; refine Evo.cut (p := Evo true s.toDev z) ?_ (fun e1 => ?_); (on_goal 2 => clear_value z); (on_goal 1 => (unfold z; try clear z)))
    | (extract_lets +onlyGivenNames z; refine Evo.cut (p := Evo true s.toDev z.1) ?_ (fun e1 => ?_); (on_goal 2 => clear_value z); (on_goal 1 => (unfold z; try clear z)))
    | extract_lets +onlyGivenNames z
    | with_reducible apply Dev.condOn_evo
    | (intro _; intros)
    | (with_reducible refine Evo.upd (by with_reducible assumption) ?_ ?_ ?_ ?_ ?_ ?_ ?_ ?_ ?_ ?_ <;> rfl)
    | split
    | clear_value *

theorem execRailInRange_held {r : Rail} {s t₀ : State} (h₀ : execRailInRange r s = .next t₀) (i₀ : s.toDev.Inv) :
    Held false s.toDev t₀.toDev := by
  cases h₀
  refine Evo.held (b := true) ?_ i₀
  have ev := Evo.refl (b := true) s.toDev
  dsimp only
  repeat' first
    | with_reducible assumption
    | with_reducible apply Dev.railBack_evo
    | (intro _; intros)

theorem execSelfTestEnd_held {t : SelfTest} {s t₀ : State} (h₀ : execSelfTestEnd t s = .next t₀) (i₀ : s.toDev.Inv) :
    Held false s.toDev t₀.toDev := by
  cases h₀
  have ev := Evo.refl (b := true) s.toDev
  dsimp only
  repeat' first
    | exact Held.refl i₀
    | with_reducible exact Dev.selfTestEnd_held i₀
    | split

theorem execLinkUp_held {us : W} {s t₀ : State} (h₀ : execLinkUp us s = .next t₀) (i₀ : s.toDev.Inv) :
    Held false s.toDev t₀.toDev := by
  cases h₀
  have ev := Evo.refl (b := true) s.toDev
  dsimp only
  repeat' first
    | exact Held.refl i₀
    | with_reducible exact Dev.linkUp_held i₀
    | split

theorem execAliveInterval_held {checkedIn : Bool} {s t₀ : State} (h₀ : execAliveInterval checkedIn s = .next t₀) (i₀ : s.toDev.Inv) :
    Held false s.toDev t₀.toDev := by
  cases h₀
  refine Evo.held (b := true) ?_ i₀
  have ev := Evo.refl (b := true) s.toDev
  dsimp only
  repeat' first
    | with_reducible assumption
    | with_reducible apply Dev.aliveInterval_evo
    | (intro _; intros)

theorem execFabricErr_held  {s t₀ : State} (h₀ : execFabricErr s = .next t₀) (i₀ : s.toDev.Inv) :
    Held false s.toDev t₀.toDev := by
  cases h₀
  refine Evo.held (b := true) ?_ i₀
  have ev := Evo.refl (b := true) s.toDev
  dsimp only
  repeat' first
    | with_reducible assumption
    | with_reducible apply Dev.safeFault_evo
    | (intro _; intros)

theorem execAonFail_held  {s t₀ : State} (h₀ : execAonFail s = .next t₀) (i₀ : s.toDev.Inv) :
    Held false s.toDev t₀.toDev := by
  cases h₀
  refine Evo.held (b := true) ?_ i₀
  have ev := Evo.refl (b := true) s.toDev
  dsimp only
  repeat' first
    | with_reducible assumption
    | with_reducible apply Dev.safeFault_evo
    | (intro _; intros)

theorem execFwAssert_held  {s t₀ : State} (h₀ : execFwAssert s = .next t₀) (i₀ : s.toDev.Inv) :
    Held false s.toDev t₀.toDev := by
  cases h₀
  refine Evo.held (b := true) ?_ i₀
  have ev := Evo.refl (b := true) s.toDev
  dsimp only
  repeat' first
    | with_reducible assumption
    | with_reducible apply Dev.safeFault_evo
    | (intro _; intros)


end Sys2Proof.Machine
end

