-- ==== Sys2Proof/Laws/Ex/Channel.lean ====
section
/-! SUPPORT. What the commands of Machine/Channel.lean do to the whole device: each holds (Laws/Hold.lean). -/

namespace Sys2Proof.Machine

theorem execLevel_held {e : Fin 272} {f : Fetch} {s t₀ : State} (h₀ : execLevel e f s = .next t₀) (i₀ : s.toDev.Inv) :
    Held false s.toDev t₀.toDev := by
  cases h₀
  refine Evo.held (b := true) ?_ i₀
  have ev := Evo.refl (b := true) s.toDev
  dsimp only
  repeat' first
    | with_reducible assumption
    | with_reducible apply Dev.instrSite_evo
    | with_reducible apply doLevel_evo
    | (intro _; intros)

theorem execTset_held {e : Fin 272} {f : Fetch} {s t₀ : State} (h₀ : execTset e f s = .next t₀) (i₀ : s.toDev.Inv) :
    Held false s.toDev t₀.toDev := by
  cases h₀
  refine Evo.held (b := true) ?_ i₀
  have ev := Evo.refl (b := true) s.toDev
  dsimp only
  repeat' first
    | with_reducible assumption
    | with_reducible apply Dev.instrSite_evo
    | with_reducible apply doTset_evo
    | (intro _; intros)

theorem execForce_held {e : Fin 272} {f : Fetch} {s t₀ : State} (h₀ : execForce e f s = .next t₀) (i₀ : s.toDev.Inv) :
    Held false s.toDev t₀.toDev := by
  cases h₀
  refine Evo.held (b := true) ?_ i₀
  have ev := Evo.refl (b := true) s.toDev
  dsimp only
  repeat' first
    | with_reducible assumption
    | with_reducible apply Dev.instrSite_evo
    | with_reducible apply doForce_evo
    | (intro _; intros)

theorem execGang_held {e : Fin 272} {f : Fetch} {s t₀ : State} (h₀ : execGang e f s = .next t₀) (i₀ : s.toDev.Inv) :
    Held false s.toDev t₀.toDev := by
  cases h₀
  refine Evo.held (b := true) ?_ i₀
  have ev := Evo.refl (b := true) s.toDev
  dsimp only
  repeat' first
    | with_reducible assumption
    | with_reducible apply Dev.instrSite_evo
    | with_reducible apply doGang_evo
    | (intro _; intros)

theorem execMeas_held {e : Fin 272} {f : Fetch} {s t₀ : State} (h₀ : execMeas e f s = .next t₀) (i₀ : s.toDev.Inv) :
    Held false s.toDev t₀.toDev := by
  cases h₀
  refine Evo.held (b := true) ?_ i₀
  have ev := Evo.refl (b := true) s.toDev
  dsimp only
  repeat' first
    | with_reducible assumption
    | with_reducible apply Dev.instrSite_evo
    | with_reducible apply doMeas_evo
    | (intro _; intros)

theorem execGetm_held {e : Fin 272} {f : Fetch} {s t₀ : State} (h₀ : execGetm e f s = .next t₀) (i₀ : s.toDev.Inv) :
    Held false s.toDev t₀.toDev := by
  cases h₀
  refine Evo.held (b := true) ?_ i₀
  have ev := Evo.refl (b := true) s.toDev
  dsimp only
  repeat' first
    | with_reducible assumption
    | with_reducible apply Dev.instrSite_evo
    | with_reducible apply doGetm_evo
    | (intro _; intros)

theorem execAcqarm_held {e : Fin 272} {f : Fetch} {s t₀ : State} (h₀ : execAcqarm e f s = .next t₀) (i₀ : s.toDev.Inv) :
    Held false s.toDev t₀.toDev := by
  cases h₀
  refine Evo.held (b := true) ?_ i₀
  have ev := Evo.refl (b := true) s.toDev
  dsimp only
  repeat' first
    | with_reducible assumption
    | with_reducible apply Dev.instrSite_evo
    | with_reducible apply doAcqarm_evo
    | (intro _; intros)

theorem execTdcopen_held {e : Fin 272} {f : Fetch} {s t₀ : State} (h₀ : execTdcopen e f s = .next t₀) (i₀ : s.toDev.Inv) :
    Held false s.toDev t₀.toDev := by
  cases h₀
  refine Evo.held (b := true) ?_ i₀
  have ev := Evo.refl (b := true) s.toDev
  dsimp only
  repeat' first
    | with_reducible assumption
    | with_reducible apply Dev.instrSite_evo
    | with_reducible apply doTdcopen_evo
    | (intro _; intros)

theorem execWinset_held {e : Fin 272} {f : Fetch} {s t₀ : State} (h₀ : execWinset e f s = .next t₀) (i₀ : s.toDev.Inv) :
    Held false s.toDev t₀.toDev := by
  cases h₀
  refine Evo.held (b := true) ?_ i₀
  have ev := Evo.refl (b := true) s.toDev
  dsimp only
  repeat' first
    | with_reducible assumption
    | with_reducible apply Dev.instrSite_evo
    | with_reducible apply doWinset_evo
    | (intro _; intros)


end Sys2Proof.Machine
end

