-- ==== Sys2Proof/Laws/Ex/Clock.lean ====
section
/-! SUPPORT. What the commands of Machine/Clock.lean do to the whole device: each holds (Laws/Hold.lean). -/

namespace Sys2Proof.Machine

theorem execSclkLock_held  {s t₀ : State} (h₀ : execSclkLock s = .next t₀) (i₀ : s.toDev.Inv) :
    Held false s.toDev t₀.toDev := by
  cases h₀
  refine Evo.held (b := true) ?_ i₀
  have ev := Evo.refl (b := true) s.toDev
  dsimp only
  repeat' first
    | with_reducible assumption
    | with_reducible apply Dev.sclkLock_evo
    | (intro _; intros)

theorem execRefLoss_held  {s t₀ : State} (h₀ : execRefLoss s = .next t₀) (i₀ : s.toDev.Inv) :
    Held false s.toDev t₀.toDev := by
  cases h₀
  refine Evo.held (b := true) ?_ i₀
  have ev := Evo.refl (b := true) s.toDev
  dsimp only
  repeat' first
    | with_reducible assumption
    | with_reducible apply Dev.refLoss_evo
    | (intro _; intros)

theorem execRefPresent_held  {s t₀ : State} (h₀ : execRefPresent s = .next t₀) (i₀ : s.toDev.Inv) :
    Held false s.toDev t₀.toDev := by
  cases h₀
  refine Evo.held (b := true) ?_ i₀
  have ev := Evo.refl (b := true) s.toDev
  dsimp only
  repeat' first
    | with_reducible assumption
    | with_reducible apply Dev.refPresent_evo
    | (intro _; intros)

theorem execSclkUnlock_held  {s t₀ : State} (h₀ : execSclkUnlock s = .next t₀) (i₀ : s.toDev.Inv) :
    Held false s.toDev t₀.toDev := by
  cases h₀
  refine Evo.held (b := true) ?_ i₀
  have ev := Evo.refl (b := true) s.toDev
  dsimp only
  repeat' first
    | with_reducible assumption
    | with_reducible apply Dev.sclkUnlock_evo
    | (intro _; intros)

theorem execFsyncEdge_held {off : Int} {mark : Bool} {s t₀ : State} (h₀ : execFsyncEdge off mark s = .next t₀) (i₀ : s.toDev.Inv) :
    Held false s.toDev t₀.toDev := by
  cases h₀
  refine Evo.held (b := true) ?_ i₀
  have ev := Evo.refl (b := true) s.toDev
  dsimp only
  repeat' first
    | with_reducible assumption
    | with_reducible apply Dev.fsyncEdge_evo
    | (intro _; intros)

theorem execFsyncMiss_held  {s t₀ : State} (h₀ : execFsyncMiss s = .next t₀) (i₀ : s.toDev.Inv) :
    Held false s.toDev t₀.toDev := by
  cases h₀
  refine Evo.held (b := true) ?_ i₀
  have ev := Evo.refl (b := true) s.toDev
  dsimp only
  repeat' first
    | with_reducible assumption
    | with_reducible apply Dev.fsyncMiss_evo
    | (intro _; intros)

theorem execEpochMark_held  {s t₀ : State} (h₀ : execEpochMark s = .next t₀) (i₀ : s.toDev.Inv) :
    Held false s.toDev t₀.toDev := by
  cases h₀
  refine Evo.held (b := true) ?_ i₀
  have ev := Evo.refl (b := true) s.toDev
  dsimp only
  repeat' first
    | with_reducible assumption
    | with_reducible apply Dev.epochMark_evo
    | (intro _; intros)


end Sys2Proof.Machine
end

