-- ==== Sys2Proof/Laws/Ex/Modes.lean ====
section
/-! SUPPORT. What the commands of Machine/Modes.lean do to the whole device: each holds (Laws/Hold.lean). -/

namespace Sys2Proof.Machine

theorem execModeSwitch_held {bad : List (Fin 16)} {s t₀ : State} (h₀ : execModeSwitch bad s = .next t₀)
    (i₀ : s.toDev.Inv) : Held false s.toDev t₀.toDev := by
  cases h₀
  dsimp only
  split
  · rename_i r q
    split
    · split
      · have e : Evo false s.toDev (s.toDev.readThrough bad) := Dev.readThrough_evo (Evo.refl _)
        exact (e.held i₀).bind (fun k => Dev.trySwitch_held k (e.calm.2.trans q))
      · exact Dev.trySwitch_held i₀ q
    · exact Held.refl i₀
  · exact Held.refl i₀


end Sys2Proof.Machine
end

