-- ==== Sys2Proof/Laws/Ex/Mem.lean ====
section
/-! SUPPORT. What the commands of Machine/Mem.lean do to the whole device: each holds (Laws/Hold.lean). -/

namespace Sys2Proof.Machine

theorem execMemRead_held {h : Hdr} {addr : BitVec 40} {len : Nat} {x : ReadEcc} {s t₀ : State} (h₀ : execMemRead h addr len x s = .next t₀) (i₀ : s.toDev.Inv) :
    Held false s.toDev t₀.toDev := by
  cases h₀
  refine Evo.held (b := true) ?_ i₀
  have ev := Evo.refl (b := true) s.toDev
  dsimp only
  repeat' first
    | with_reducible assumption
    | with_reducible apply Dev.hostRead_evo
    | (intro _; intros)

theorem execMemWrite_held {h : Hdr} {addr : BitVec 40} {len : Nat} {ws : List W} {s t₀ : State} (h₀ : execMemWrite h addr len ws s = .next t₀) (i₀ : s.toDev.Inv) :
    Held false s.toDev t₀.toDev := by
  cases h₀
  refine Evo.held (b := true) ?_ i₀
  have ev := Evo.refl (b := true) s.toDev
  dsimp only
  repeat' first
    | with_reducible assumption
    | with_reducible apply Dev.hostWrite_evo
    | (intro _; intros)

theorem execRegisterWrite_held {h : Hdr} {addr : BitVec 40} {v : W} {s t₀ : State} (h₀ : execRegisterWrite h addr v s = .next t₀) (i₀ : s.toDev.Inv) :
    Held false s.toDev t₀.toDev := by
  cases h₀
  refine Evo.held (b := true) ?_ i₀
  have ev := Evo.refl (b := true) s.toDev
  dsimp only
  repeat' first
    | with_reducible assumption
    | with_reducible apply Dev.hostWord_evo
    | (intro _; intros)

theorem execFrameLoRead_held {h : Hdr} {s t₀ : State} (h₀ : execFrameLoRead h s = .next t₀) (i₀ : s.toDev.Inv) :
    Held false s.toDev t₀.toDev := by
  cases h₀
  refine Evo.held (b := true) ?_ i₀
  have ev := Evo.refl (b := true) s.toDev
  dsimp only
  repeat' first
    | with_reducible assumption
    | with_reducible apply Dev.hostRead_evo
    | (intro _; intros)

theorem execSclkCfgWrite_held {h : Hdr} {v : W} {s t₀ : State} (h₀ : execSclkCfgWrite h v s = .next t₀) (i₀ : s.toDev.Inv) :
    Held false s.toDev t₀.toDev := by
  cases h₀
  refine Evo.held (b := true) ?_ i₀
  have ev := Evo.refl (b := true) s.toDev
  dsimp only
  repeat' first
    | with_reducible assumption
    | with_reducible apply Dev.hostWord_evo
    | (intro _; intros)

theorem execFlenWrite_held {h : Hdr} {v : W} {s t₀ : State} (h₀ : execFlenWrite h v s = .next t₀) (i₀ : s.toDev.Inv) :
    Held false s.toDev t₀.toDev := by
  cases h₀
  refine Evo.held (b := true) ?_ i₀
  have ev := Evo.refl (b := true) s.toDev
  dsimp only
  repeat' first
    | with_reducible assumption
    | with_reducible apply Dev.hostWord_evo
    | (intro _; intros)

theorem execSyncCfgWrite_held {h : Hdr} {v : W} {s t₀ : State} (h₀ : execSyncCfgWrite h v s = .next t₀) (i₀ : s.toDev.Inv) :
    Held false s.toDev t₀.toDev := by
  cases h₀
  refine Evo.held (b := true) ?_ i₀
  have ev := Evo.refl (b := true) s.toDev
  dsimp only
  repeat' first
    | with_reducible assumption
    | with_reducible apply Dev.hostWord_evo
    | (intro _; intros)

theorem execModeRequest_held {h : Hdr} {v : W} {s t₀ : State} (h₀ : execModeRequest h v s = .next t₀) (i₀ : s.toDev.Inv) :
    Held false s.toDev t₀.toDev := by
  cases h₀
  refine Evo.held (b := true) ?_ i₀
  have ev := Evo.refl (b := true) s.toDev
  dsimp only
  repeat' first
    | with_reducible assumption
    | with_reducible apply Dev.hostWord_evo
    | (intro _; intros)

theorem execHeadgateWrite_held {h : Hdr} {off : BitVec 16} {v : W} {s t₀ : State} (h₀ : execHeadgateWrite h off v s = .next t₀) (i₀ : s.toDev.Inv) :
    Held false s.toDev t₀.toDev := by
  cases h₀
  refine Evo.held (b := true) ?_ i₀
  have ev := Evo.refl (b := true) s.toDev
  dsimp only
  repeat' first
    | with_reducible assumption
    | with_reducible apply Dev.hostWord_evo
    | (intro _; intros)

theorem execEngineRegisterWrite_held {h : Hdr} {e : Fin 272} {off : BitVec 12} {v : W} {s t₀ : State} (h₀ : execEngineRegisterWrite h e off v s = .next t₀) (i₀ : s.toDev.Inv) :
    Held false s.toDev t₀.toDev := by
  cases h₀
  refine Evo.held (b := true) ?_ i₀
  have ev := Evo.refl (b := true) s.toDev
  dsimp only
  repeat' first
    | with_reducible assumption
    | with_reducible apply Dev.hostWord_evo
    | (intro _; intros)

theorem execPramWordWrite_held {h : Hdr} {w : BitVec 10} {v : W} {s t₀ : State} (h₀ : execPramWordWrite h w v s = .next t₀) (i₀ : s.toDev.Inv) :
    Held false s.toDev t₀.toDev := by
  cases h₀
  refine Evo.held (b := true) ?_ i₀
  have ev := Evo.refl (b := true) s.toDev
  dsimp only
  repeat' first
    | with_reducible assumption
    | with_reducible apply Dev.hostWord_evo
    | (intro _; intros)

theorem execMatchWrite_held {h : Hdr} {n : Option (Fin 64)} {v : W} {s t₀ : State} (h₀ : execMatchWrite h n v s = .next t₀) (i₀ : s.toDev.Inv) :
    Held false s.toDev t₀.toDev := by
  cases h₀
  refine Evo.held (b := true) ?_ i₀
  have ev := Evo.refl (b := true) s.toDev
  dsimp only
  repeat' first
    | with_reducible assumption
    | with_reducible apply Dev.hostWord_evo
    | (intro _; intros)
    | (with_reducible refine Evo.upd (by with_reducible assumption) ?_ ?_ ?_ ?_ ?_ ?_ ?_ ?_ ?_ ?_ <;> rfl)
    | split
    | clear_value *

theorem execWcsDataWrite_held {h : Hdr} {v : W} {s t₀ : State} (h₀ : execWcsDataWrite h v s = .next t₀) (i₀ : s.toDev.Inv) :
    Held false s.toDev t₀.toDev := by
  cases h₀
  refine Evo.held (b := true) ?_ i₀
  have ev := Evo.refl (b := true) s.toDev
  dsimp only
  repeat' first
    | with_reducible assumption
    | with_reducible apply Dev.hostWord_evo
    | (intro _; intros)

theorem execPlayerCfgWrite_held {h : Hdr} {y : Fin 16} {v : W} {s t₀ : State} (h₀ : execPlayerCfgWrite h y v s = .next t₀) (i₀ : s.toDev.Inv) :
    Held false s.toDev t₀.toDev := by
  cases h₀
  refine Evo.held (b := true) ?_ i₀
  have ev := Evo.refl (b := true) s.toDev
  dsimp only
  repeat' first
    | with_reducible assumption
    | with_reducible apply Dev.hostWord_evo
    | (intro _; intros)

theorem execRingReset_held {h : Hdr} {y : Fin 16} {v : W} {s t₀ : State} (h₀ : execRingReset h y v s = .next t₀) (i₀ : s.toDev.Inv) :
    Held false s.toDev t₀.toDev := by
  cases h₀
  refine Evo.held (b := true) ?_ i₀
  have ev := Evo.refl (b := true) s.toDev
  dsimp only
  repeat' first
    | with_reducible assumption
    | with_reducible apply Dev.hostWord_evo
    | (intro _; intros)

theorem execRingArm_held {h : Hdr} {y : Fin 16} {v : W} {s t₀ : State} (h₀ : execRingArm h y v s = .next t₀) (i₀ : s.toDev.Inv) :
    Held false s.toDev t₀.toDev := by
  cases h₀
  refine Evo.held (b := true) ?_ i₀
  have ev := Evo.refl (b := true) s.toDev
  dsimp only
  repeat' first
    | with_reducible assumption
    | with_reducible apply Dev.hostWord_evo
    | (intro _; intros)

theorem execRingLwmWrite_held {h : Hdr} {y : Fin 16} {v : W} {s t₀ : State} (h₀ : execRingLwmWrite h y v s = .next t₀) (i₀ : s.toDev.Inv) :
    Held false s.toDev t₀.toDev := by
  cases h₀
  refine Evo.held (b := true) ?_ i₀
  have ev := Evo.refl (b := true) s.toDev
  dsimp only
  repeat' first
    | with_reducible assumption
    | with_reducible apply Dev.hostWord_evo
    | (intro _; intros)

theorem execQuadRequest_held {h : Hdr} {q : Fin 144} {v : W} {s t₀ : State} (h₀ : execQuadRequest h q v s = .next t₀) (i₀ : s.toDev.Inv) :
    Held false s.toDev t₀.toDev := by
  cases h₀
  refine Evo.held (b := true) ?_ i₀
  have ev := Evo.refl (b := true) s.toDev
  dsimp only
  repeat' first
    | with_reducible assumption
    | with_reducible apply Dev.hostWord_evo
    | (intro _; intros)

theorem execSubstitutionRequest_held {h : Hdr} {q : Fin 144} {v : W} {s t₀ : State} (h₀ : execSubstitutionRequest h q v s = .next t₀) (i₀ : s.toDev.Inv) :
    Held false s.toDev t₀.toDev := by
  cases h₀
  refine Evo.held (b := true) ?_ i₀
  have ev := Evo.refl (b := true) s.toDev
  dsimp only
  repeat' first
    | with_reducible assumption
    | with_reducible apply Dev.hostWord_evo
    | (intro _; intros)

theorem execRestoreRequest_held {h : Hdr} {q : Fin 144} {v : W} {s t₀ : State} (h₀ : execRestoreRequest h q v s = .next t₀) (i₀ : s.toDev.Inv) :
    Held false s.toDev t₀.toDev := by
  cases h₀
  refine Evo.held (b := true) ?_ i₀
  have ev := Evo.refl (b := true) s.toDev
  dsimp only
  repeat' first
    | with_reducible assumption
    | with_reducible apply Dev.hostWord_evo
    | (intro _; intros)

theorem execFirSwap_held {h : Hdr} {q : Fin 144} {c : Fin 5} {v : W} {s t₀ : State} (h₀ : execFirSwap h q c v s = .next t₀) (i₀ : s.toDev.Inv) :
    Held false s.toDev t₀.toDev := by
  cases h₀
  refine Evo.held (b := true) ?_ i₀
  have ev := Evo.refl (b := true) s.toDev
  dsimp only
  repeat' first
    | with_reducible assumption
    | with_reducible apply Dev.hostWord_evo
    | (intro _; intros)

theorem execFirCoefWrite_held {h : Hdr} {q : Fin 144} {c : Fin 5} {bank : Fin 2} {n : Fin 64} {v : W} {s t₀ : State} (h₀ : execFirCoefWrite h q c bank n v s = .next t₀) (i₀ : s.toDev.Inv) :
    Held false s.toDev t₀.toDev := by
  cases h₀
  refine Evo.held (b := true) ?_ i₀
  have ev := Evo.refl (b := true) s.toDev
  dsimp only
  repeat' first
    | with_reducible assumption
    | with_reducible apply Dev.hostWord_evo
    | (intro _; intros)

theorem execAcqArm_held {h : Hdr} {q : Fin 144} {v : W} {s t₀ : State} (h₀ : execAcqArm h q v s = .next t₀) (i₀ : s.toDev.Inv) :
    Held false s.toDev t₀.toDev := by
  cases h₀
  refine Evo.held (b := true) ?_ i₀
  have ev := Evo.refl (b := true) s.toDev
  dsimp only
  repeat' first
    | with_reducible assumption
    | with_reducible apply Dev.hostWord_evo
    | (intro _; intros)

theorem execAcqAbort_held {h : Hdr} {q : Fin 144} {v : W} {s t₀ : State} (h₀ : execAcqAbort h q v s = .next t₀) (i₀ : s.toDev.Inv) :
    Held false s.toDev t₀.toDev := by
  cases h₀
  refine Evo.held (b := true) ?_ i₀
  have ev := Evo.refl (b := true) s.toDev
  dsimp only
  repeat' first
    | with_reducible assumption
    | with_reducible apply Dev.hostWord_evo
    | (intro _; intros)

theorem execAcqForce_held {h : Hdr} {q : Fin 144} {v : W} {s t₀ : State} (h₀ : execAcqForce h q v s = .next t₀) (i₀ : s.toDev.Inv) :
    Held false s.toDev t₀.toDev := by
  cases h₀
  refine Evo.held (b := true) ?_ i₀
  have ev := Evo.refl (b := true) s.toDev
  dsimp only
  repeat' first
    | with_reducible assumption
    | with_reducible apply Dev.hostWord_evo
    | (intro _; intros)

theorem execTdcOpen_held {h : Hdr} {q : Fin 144} {c : Fin 5} {v : W} {s t₀ : State} (h₀ : execTdcOpen h q c v s = .next t₀) (i₀ : s.toDev.Inv) :
    Held false s.toDev t₀.toDev := by
  cases h₀
  refine Evo.held (b := true) ?_ i₀
  have ev := Evo.refl (b := true) s.toDev
  dsimp only
  repeat' first
    | with_reducible assumption
    | with_reducible apply Dev.hostWord_evo
    | (intro _; intros)

theorem execTdcClose_held {h : Hdr} {q : Fin 144} {c : Fin 5} {v : W} {s t₀ : State} (h₀ : execTdcClose h q c v s = .next t₀) (i₀ : s.toDev.Inv) :
    Held false s.toDev t₀.toDev := by
  cases h₀
  refine Evo.held (b := true) ?_ i₀
  have ev := Evo.refl (b := true) s.toDev
  dsimp only
  repeat' first
    | with_reducible assumption
    | with_reducible apply Dev.hostWord_evo
    | (intro _; intros)

theorem execTdcRdWrite_held {h : Hdr} {q : Fin 144} {c : Fin 5} {v : W} {s t₀ : State} (h₀ : execTdcRdWrite h q c v s = .next t₀) (i₀ : s.toDev.Inv) :
    Held false s.toDev t₀.toDev := by
  cases h₀
  refine Evo.held (b := true) ?_ i₀
  have ev := Evo.refl (b := true) s.toDev
  dsimp only
  repeat' first
    | with_reducible assumption
    | with_reducible apply Dev.hostWord_evo
    | (intro _; intros)

theorem execLimitEntryWrite_held {h : Hdr} {v : W} {s t₀ : State} (h₀ : execLimitEntryWrite h v s = .next t₀) (i₀ : s.toDev.Inv) :
    Held false s.toDev t₀.toDev := by
  cases h₀
  refine Evo.held (b := true) ?_ i₀
  have ev := Evo.refl (b := true) s.toDev
  dsimp only
  repeat' first
    | with_reducible assumption
    | with_reducible apply Dev.hostWord_evo
    | (intro _; intros)

theorem execLedgerAck_held {h : Hdr} {v : W} {s t₀ : State} (h₀ : execLedgerAck h v s = .next t₀) (i₀ : s.toDev.Inv) :
    Held false s.toDev t₀.toDev := by
  cases h₀
  refine Evo.held (b := true) ?_ i₀
  have ev := Evo.refl (b := true) s.toDev
  dsimp only
  repeat' first
    | with_reducible assumption
    | with_reducible apply Dev.hostWord_evo
    | (intro _; intros)

theorem execLedgerClear_held {h : Hdr} {v : W} {s t₀ : State} (h₀ : execLedgerClear h v s = .next t₀) (i₀ : s.toDev.Inv) :
    Held false s.toDev t₀.toDev := by
  cases h₀
  refine Evo.held (b := true) ?_ i₀
  have ev := Evo.refl (b := true) s.toDev
  dsimp only
  repeat' first
    | with_reducible assumption
    | with_reducible apply Dev.hostWord_evo
    | (intro _; intros)

theorem execFaultAck_held {h : Hdr} {f : Fin 384} {v : W} {s t₀ : State} (h₀ : execFaultAck h f v s = .next t₀) (i₀ : s.toDev.Inv) :
    Held false s.toDev t₀.toDev := by
  cases h₀
  refine Evo.held (b := true) ?_ i₀
  have ev := Evo.refl (b := true) s.toDev
  dsimp only
  repeat' first
    | with_reducible assumption
    | with_reducible apply Dev.hostWord_evo
    | (intro _; intros)

theorem execFaultForce_held {h : Hdr} {f : Fin 384} {v : W} {s t₀ : State} (h₀ : execFaultForce h f v s = .next t₀) (i₀ : s.toDev.Inv) :
    Held false s.toDev t₀.toDev := by
  cases h₀
  refine Evo.held (b := true) ?_ i₀
  have ev := Evo.refl (b := true) s.toDev
  dsimp only
  repeat' first
    | with_reducible assumption
    | with_reducible apply Dev.hostWord_evo
    | (intro _; intros)

theorem execPowerRequest_held {h : Hdr} {off : BitVec 8} {v : W} {s t₀ : State} (h₀ : execPowerRequest h off v s = .next t₀) (i₀ : s.toDev.Inv) :
    Held false s.toDev t₀.toDev := by
  cases h₀
  refine Evo.held (b := true) ?_ i₀
  have ev := Evo.refl (b := true) s.toDev
  dsimp only
  repeat' first
    | with_reducible assumption
    | with_reducible apply Dev.hostWord_evo
    | (intro _; intros)

theorem execRouteWrite_held {h : Hdr} {addr : BitVec 40} {v : TimedWord} {s t₀ : State} (h₀ : execRouteWrite h addr v s = .next t₀) (i₀ : s.toDev.Inv) :
    Held false s.toDev t₀.toDev := by
  cases h₀
  refine Evo.held (b := true) ?_ i₀
  have ev := Evo.refl (b := true) s.toDev
  dsimp only
  repeat' first
    | with_reducible assumption
    | with_reducible apply Dev.hostRoute_evo
    | with_reducible apply Dev.hostWord_evo
    | (intro _; intros)
    | split
    | clear_value *


end Sys2Proof.Machine
end

