-- ==== Sys2Proof/Laws/Ex/Commands.lean ====
section
/-! SUPPORT. What the commands of Machine/Commands.lean do to the whole device: each holds (Laws/Hold.lean). -/

namespace Sys2Proof.Machine

theorem execIdGet_held {c : Cmd} {s t₀ : State} (h₀ : execIdGet c s = .next t₀) (i₀ : s.toDev.Inv) :
    Held false s.toDev t₀.toDev := by
  cases h₀
  have ev := Evo.refl (b := true) s.toDev
  dsimp only
  repeat' first
    | exact Held.refl i₀
    | with_reducible exact Dev.receive_held i₀
    | split

theorem execModeSet_held {c : Cmd} {s t₀ : State} (h₀ : execModeSet c s = .next t₀) (i₀ : s.toDev.Inv) :
    Held false s.toDev t₀.toDev := by
  cases h₀
  have ev := Evo.refl (b := true) s.toDev
  dsimp only
  repeat' first
    | exact Held.refl i₀
    | with_reducible exact Dev.receive_held i₀
    | split

theorem execEnterRecovery_held {c : Cmd} {s t₀ : State} (h₀ : execEnterRecovery c s = .next t₀) (i₀ : s.toDev.Inv) :
    Held false s.toDev t₀.toDev := by
  cases h₀
  have ev := Evo.refl (b := true) s.toDev
  dsimp only
  repeat' first
    | exact Held.refl i₀
    | with_reducible exact Dev.receive_held i₀
    | split

theorem execLoadCrc_held {c : Cmd} {s t₀ : State} (h₀ : execLoadCrc c s = .next t₀) (i₀ : s.toDev.Inv) :
    Held false s.toDev t₀.toDev := by
  cases h₀
  have ev := Evo.refl (b := true) s.toDev
  dsimp only
  repeat' first
    | exact Held.refl i₀
    | with_reducible exact Dev.receive_held i₀
    | split

theorem execCisFill_held {c : Cmd} {s t₀ : State} (h₀ : execCisFill c s = .next t₀) (i₀ : s.toDev.Inv) :
    Held false s.toDev t₀.toDev := by
  cases h₀
  have ev := Evo.refl (b := true) s.toDev
  dsimp only
  repeat' first
    | exact Held.refl i₀
    | with_reducible exact Dev.receive_held i₀
    | split

theorem execMapClear_held {c : Cmd} {s t₀ : State} (h₀ : execMapClear c s = .next t₀) (i₀ : s.toDev.Inv) :
    Held false s.toDev t₀.toDev := by
  cases h₀
  have ev := Evo.refl (b := true) s.toDev
  dsimp only
  repeat' first
    | exact Held.refl i₀
    | with_reducible exact Dev.receive_held i₀
    | split

theorem execRunStart_held {c : Cmd} {s t₀ : State} (h₀ : execRunStart c s = .next t₀) (i₀ : s.toDev.Inv) :
    Held false s.toDev t₀.toDev := by
  cases h₀
  have ev := Evo.refl (b := true) s.toDev
  dsimp only
  repeat' first
    | exact Held.refl i₀
    | with_reducible exact Dev.receive_held i₀
    | split

theorem execRunStop_held {c : Cmd} {s t₀ : State} (h₀ : execRunStop c s = .next t₀) (i₀ : s.toDev.Inv) :
    Held false s.toDev t₀.toDev := by
  cases h₀
  have ev := Evo.refl (b := true) s.toDev
  dsimp only
  repeat' first
    | exact Held.refl i₀
    | with_reducible exact Dev.receive_held i₀
    | split

theorem execRunPause_held {c : Cmd} {s t₀ : State} (h₀ : execRunPause c s = .next t₀) (i₀ : s.toDev.Inv) :
    Held false s.toDev t₀.toDev := by
  cases h₀
  have ev := Evo.refl (b := true) s.toDev
  dsimp only
  repeat' first
    | exact Held.refl i₀
    | with_reducible exact Dev.receive_held i₀
    | split

theorem execRunResume_held {c : Cmd} {s t₀ : State} (h₀ : execRunResume c s = .next t₀) (i₀ : s.toDev.Inv) :
    Held false s.toDev t₀.toDev := by
  cases h₀
  have ev := Evo.refl (b := true) s.toDev
  dsimp only
  repeat' first
    | exact Held.refl i₀
    | with_reducible exact Dev.receive_held i₀
    | split

theorem execFltRead_held {c : Cmd} {s t₀ : State} (h₀ : execFltRead c s = .next t₀) (i₀ : s.toDev.Inv) :
    Held false s.toDev t₀.toDev := by
  cases h₀
  have ev := Evo.refl (b := true) s.toDev
  dsimp only
  repeat' first
    | exact Held.refl i₀
    | with_reducible exact Dev.receive_held i₀
    | split

theorem execFltAck_held {c : Cmd} {s t₀ : State} (h₀ : execFltAck c s = .next t₀) (i₀ : s.toDev.Inv) :
    Held false s.toDev t₀.toDev := by
  cases h₀
  have ev := Evo.refl (b := true) s.toDev
  dsimp only
  repeat' first
    | exact Held.refl i₀
    | with_reducible exact Dev.receive_held i₀
    | split

theorem execRepairRead_held {c : Cmd} {s t₀ : State} (h₀ : execRepairRead c s = .next t₀) (i₀ : s.toDev.Inv) :
    Held false s.toDev t₀.toDev := by
  cases h₀
  have ev := Evo.refl (b := true) s.toDev
  dsimp only
  repeat' first
    | exact Held.refl i₀
    | with_reducible exact Dev.receive_held i₀
    | split

theorem execRepairRetire_held {c : Cmd} {s t₀ : State} (h₀ : execRepairRetire c s = .next t₀) (i₀ : s.toDev.Inv) :
    Held false s.toDev t₀.toDev := by
  cases h₀
  have ev := Evo.refl (b := true) s.toDev
  dsimp only
  repeat' first
    | exact Held.refl i₀
    | with_reducible exact Dev.receive_held i₀
    | split

theorem execRepairClear_held {c : Cmd} {s t₀ : State} (h₀ : execRepairClear c s = .next t₀) (i₀ : s.toDev.Inv) :
    Held false s.toDev t₀.toDev := by
  cases h₀
  have ev := Evo.refl (b := true) s.toDev
  dsimp only
  repeat' first
    | exact Held.refl i₀
    | with_reducible exact Dev.receive_held i₀
    | split

theorem execCalQuad_held {c : Cmd} {s t₀ : State} (h₀ : execCalQuad c s = .next t₀) (i₀ : s.toDev.Inv) :
    Held false s.toDev t₀.toDev := by
  cases h₀
  have ev := Evo.refl (b := true) s.toDev
  dsimp only
  repeat' first
    | exact Held.refl i₀
    | with_reducible exact Dev.receive_held i₀
    | split

theorem execCalFull_held {c : Cmd} {s t₀ : State} (h₀ : execCalFull c s = .next t₀) (i₀ : s.toDev.Inv) :
    Held false s.toDev t₀.toDev := by
  cases h₀
  have ev := Evo.refl (b := true) s.toDev
  dsimp only
  repeat' first
    | exact Held.refl i₀
    | with_reducible exact Dev.receive_held i₀
    | split

theorem execNvInfo_held {c : Cmd} {s t₀ : State} (h₀ : execNvInfo c s = .next t₀) (i₀ : s.toDev.Inv) :
    Held false s.toDev t₀.toDev := by
  cases h₀
  have ev := Evo.refl (b := true) s.toDev
  dsimp only
  repeat' first
    | exact Held.refl i₀
    | with_reducible exact Dev.receive_held i₀
    | split

theorem execPatchSave_held {c : Cmd} {s t₀ : State} (h₀ : execPatchSave c s = .next t₀) (i₀ : s.toDev.Inv) :
    Held false s.toDev t₀.toDev := by
  cases h₀
  have ev := Evo.refl (b := true) s.toDev
  dsimp only
  repeat' first
    | exact Held.refl i₀
    | with_reducible exact Dev.receive_held i₀
    | split

theorem execPatchErase_held {c : Cmd} {s t₀ : State} (h₀ : execPatchErase c s = .next t₀) (i₀ : s.toDev.Inv) :
    Held false s.toDev t₀.toDev := by
  cases h₀
  have ev := Evo.refl (b := true) s.toDev
  dsimp only
  repeat' first
    | exact Held.refl i₀
    | with_reducible exact Dev.receive_held i₀
    | split

theorem execPwrSet_held {c : Cmd} {s t₀ : State} (h₀ : execPwrSet c s = .next t₀) (i₀ : s.toDev.Inv) :
    Held false s.toDev t₀.toDev := by
  cases h₀
  have ev := Evo.refl (b := true) s.toDev
  dsimp only
  repeat' first
    | exact Held.refl i₀
    | with_reducible exact Dev.receive_held i₀
    | split

theorem execPwrGroups_held {c : Cmd} {s t₀ : State} (h₀ : execPwrGroups c s = .next t₀) (i₀ : s.toDev.Inv) :
    Held false s.toDev t₀.toDev := by
  cases h₀
  have ev := Evo.refl (b := true) s.toDev
  dsimp only
  repeat' first
    | exact Held.refl i₀
    | with_reducible exact Dev.receive_held i₀
    | split

theorem execQuadState_held {c : Cmd} {s t₀ : State} (h₀ : execQuadState c s = .next t₀) (i₀ : s.toDev.Inv) :
    Held false s.toDev t₀.toDev := by
  cases h₀
  have ev := Evo.refl (b := true) s.toDev
  dsimp only
  repeat' first
    | exact Held.refl i₀
    | with_reducible exact Dev.receive_held i₀
    | split

theorem execThmSet_held {c : Cmd} {s t₀ : State} (h₀ : execThmSet c s = .next t₀) (i₀ : s.toDev.Inv) :
    Held false s.toDev t₀.toDev := by
  cases h₀
  have ev := Evo.refl (b := true) s.toDev
  dsimp only
  repeat' first
    | exact Held.refl i₀
    | with_reducible exact Dev.receive_held i₀
    | split

theorem execThmSave_held {c : Cmd} {s t₀ : State} (h₀ : execThmSave c s = .next t₀) (i₀ : s.toDev.Inv) :
    Held false s.toDev t₀.toDev := by
  cases h₀
  have ev := Evo.refl (b := true) s.toDev
  dsimp only
  repeat' first
    | exact Held.refl i₀
    | with_reducible exact Dev.receive_held i₀
    | split

theorem execEpoch_held {c : Cmd} {s t₀ : State} (h₀ : execEpoch c s = .next t₀) (i₀ : s.toDev.Inv) :
    Held false s.toDev t₀.toDev := by
  cases h₀
  have ev := Evo.refl (b := true) s.toDev
  dsimp only
  repeat' first
    | exact Held.refl i₀
    | with_reducible exact Dev.receive_held i₀
    | split

theorem execDsync_held {c : Cmd} {s t₀ : State} (h₀ : execDsync c s = .next t₀) (i₀ : s.toDev.Inv) :
    Held false s.toDev t₀.toDev := by
  cases h₀
  have ev := Evo.refl (b := true) s.toDev
  dsimp only
  repeat' first
    | exact Held.refl i₀
    | with_reducible exact Dev.receive_held i₀
    | split

theorem execFullReset_held {c : Cmd} {s t₀ : State} (h₀ : execFullReset c s = .next t₀) (i₀ : s.toDev.Inv) :
    Held false s.toDev t₀.toDev := by
  cases h₀
  have ev := Evo.refl (b := true) s.toDev
  dsimp only
  repeat' first
    | exact Held.refl i₀
    | with_reducible exact Dev.receive_held i₀
    | split

theorem execUnknownCommand_held {code : BitVec 8} {c : Cmd} {s t₀ : State} (h₀ : execUnknownCommand code c s = .next t₀) (i₀ : s.toDev.Inv) :
    Held false s.toDev t₀.toDev := by
  cases h₀
  have ev := Evo.refl (b := true) s.toDev
  dsimp only
  repeat' first
    | exact Held.refl i₀
    | with_reducible exact Dev.receive_held i₀
    | split

theorem execLoadCrcDone_held {s t₀ : State} (h₀ : execLoadCrcDone s = .next t₀) (i₀ : s.toDev.Inv) :
    Held false s.toDev t₀.toDev := by
  cases h₀
  refine Evo.held (b := true) ?_ i₀
  have ev := Evo.refl (b := true) s.toDev
  dsimp only
  repeat' first
    | with_reducible assumption
    | with_reducible apply Dev.loadCrcDone_evo
    | (intro _; intros)

theorem execCisFillDone_held  {s t₀ : State} (h₀ : execCisFillDone s = .next t₀) (i₀ : s.toDev.Inv) :
    Held false s.toDev t₀.toDev := by
  cases h₀
  refine Evo.held (b := true) ?_ i₀
  have ev := Evo.refl (b := true) s.toDev
  dsimp only
  repeat' first
    | with_reducible assumption
    | with_reducible apply Dev.cisFillDone_evo
    | (intro _; intros)

theorem execCalQuadDone_held {fail : Option (Fin 720)} {s t₀ : State} (h₀ : execCalQuadDone fail s = .next t₀) (i₀ : s.toDev.Inv) :
    Held false s.toDev t₀.toDev := by
  cases h₀
  refine Evo.held (b := true) ?_ i₀
  have ev := Evo.refl (b := true) s.toDev
  dsimp only
  repeat' first
    | with_reducible assumption
    | with_reducible apply Dev.calQuadDone_evo
    | (intro _; intros)

theorem execCalFullDone_held {fail : Option (Fin 720)} {s t₀ : State} (h₀ : execCalFullDone fail s = .next t₀) (i₀ : s.toDev.Inv) :
    Held false s.toDev t₀.toDev := by
  cases h₀
  refine Evo.held (b := true) ?_ i₀
  have ev := Evo.refl (b := true) s.toDev
  dsimp only
  repeat' first
    | with_reducible assumption
    | with_reducible apply Dev.calFullDone_evo
    | (intro _; intros)

theorem execNvWriteDone_held {v : NvVerify} {s t₀ : State} (h₀ : execNvWriteDone v s = .next t₀) (i₀ : s.toDev.Inv) :
    Held false s.toDev t₀.toDev := by
  cases h₀
  have ev := Evo.refl (b := true) s.toDev
  dsimp only
  repeat' first
    | exact Held.refl i₀
    | with_reducible exact Dev.nvWriteDone_held i₀
    | split

theorem execNvSetSave_held  {s t₀ : State} (h₀ : execNvSetSave s = .next t₀) (i₀ : s.toDev.Inv) :
    Held false s.toDev t₀.toDev := by
  cases h₀
  refine Evo.held (b := true) ?_ i₀
  have ev := Evo.refl (b := true) s.toDev
  dsimp only
  repeat' first
    | with_reducible assumption
    | with_reducible apply Dev.beginSave_evo
    | (intro _; intros)

theorem execDomainGood_held {d : Domain} {s t₀ : State} (h₀ : execDomainGood d s = .next t₀) (i₀ : s.toDev.Inv) :
    Held false s.toDev t₀.toDev := by
  cases h₀
  exact ((Dev.domainGood_evo (Evo.refl (b := true) s.toDev)).held i₀).bind (fun k => Dev.drain_held k)


end Sys2Proof.Machine
end

