-- ==== Sys2Proof/Laws/Ex/Flow.lean ====
section
/-! SUPPORT. What the commands of Machine/Flow.lean do to the whole device: each holds (Laws/Hold.lean). -/

namespace Sys2Proof.Machine

theorem execBr_held {e : Fin 272} {f : Fetch} {s t₀ : State} (h₀ : execBr e f s = .next t₀) (i₀ : s.toDev.Inv) :
    Held false s.toDev t₀.toDev := by
  cases h₀
  refine Evo.held (b := true) ?_ i₀
  have ev := Evo.refl (b := true) s.toDev
  dsimp only
  repeat' first
    | with_reducible assumption
    | with_reducible apply Dev.instrOp_evo
    | with_reducible apply doBr_evo
    | (intro _; intros)

theorem execBrc_held {e : Fin 272} {f : Fetch} {s t₀ : State} (h₀ : execBrc e f s = .next t₀) (i₀ : s.toDev.Inv) :
    Held false s.toDev t₀.toDev := by
  cases h₀
  refine Evo.held (b := true) ?_ i₀
  have ev := Evo.refl (b := true) s.toDev
  dsimp only
  repeat' first
    | with_reducible assumption
    | with_reducible apply Dev.instrOp_evo
    | with_reducible apply doBrc_evo
    | (intro _; intros)

theorem execCall_held {e : Fin 272} {f : Fetch} {s t₀ : State} (h₀ : execCall e f s = .next t₀) (i₀ : s.toDev.Inv) :
    Held false s.toDev t₀.toDev := by
  cases h₀
  refine Evo.held (b := true) ?_ i₀
  have ev := Evo.refl (b := true) s.toDev
  dsimp only
  repeat' first
    | with_reducible assumption
    | with_reducible apply Dev.instrOp_evo
    | with_reducible apply doCall_evo
    | (intro _; intros)

theorem execRet_held {e : Fin 272} {f : Fetch} {s t₀ : State} (h₀ : execRet e f s = .next t₀) (i₀ : s.toDev.Inv) :
    Held false s.toDev t₀.toDev := by
  cases h₀
  refine Evo.held (b := true) ?_ i₀
  have ev := Evo.refl (b := true) s.toDev
  dsimp only
  repeat' first
    | with_reducible assumption
    | with_reducible apply Dev.instrOp_evo
    | with_reducible apply doRet_evo
    | (intro _; intros)

theorem execLoop_held {e : Fin 272} {f : Fetch} {s t₀ : State} (h₀ : execLoop e f s = .next t₀) (i₀ : s.toDev.Inv) :
    Held false s.toDev t₀.toDev := by
  cases h₀
  refine Evo.held (b := true) ?_ i₀
  have ev := Evo.refl (b := true) s.toDev
  dsimp only
  repeat' first
    | with_reducible assumption
    | with_reducible apply Dev.instrOp_evo
    | with_reducible apply doLoop_evo
    | (intro _; intros)

theorem execHalt_held {e : Fin 272} {f : Fetch} {s t₀ : State} (h₀ : execHalt e f s = .next t₀) (i₀ : s.toDev.Inv) :
    Held false s.toDev t₀.toDev := by
  cases h₀
  refine Evo.held (b := true) ?_ i₀
  have ev := Evo.refl (b := true) s.toDev
  dsimp only
  repeat' first
    | with_reducible assumption
    | with_reducible apply Dev.instrCut_evo
    | with_reducible apply doHalt_evo
    | (intro _; intros)

theorem execYield_held {e : Fin 272} {f : Fetch} {s t₀ : State} (h₀ : execYield e f s = .next t₀) (i₀ : s.toDev.Inv) :
    Held false s.toDev t₀.toDev := by
  cases h₀
  refine Evo.held (b := true) ?_ i₀
  have ev := Evo.refl (b := true) s.toDev
  dsimp only
  repeat' first
    | with_reducible assumption
    | with_reducible apply Dev.instrOp_evo
    | with_reducible apply doYield_evo
    | (intro _; intros)

theorem execTpoint_held {e : Fin 272} {f : Fetch} {s t₀ : State} (h₀ : execTpoint e f s = .next t₀) (i₀ : s.toDev.Inv) :
    Held false s.toDev t₀.toDev := by
  cases h₀
  refine Evo.held (b := true) ?_ i₀
  have ev := Evo.refl (b := true) s.toDev
  dsimp only
  repeat' first
    | with_reducible assumption
    | with_reducible apply Dev.instrSite_evo
    | with_reducible apply doTpoint_evo
    | (intro _; intros)

theorem execUndefinedOpcode_held {e : Fin 272} {f : Fetch} {s t₀ : State} (h₀ : execUndefinedOpcode e f s = .next t₀) (i₀ : s.toDev.Inv) :
    Held false s.toDev t₀.toDev := by
  cases h₀
  refine Evo.held (b := true) ?_ i₀
  have ev := Evo.refl (b := true) s.toDev
  dsimp only
  repeat' first
    | with_reducible assumption
    | with_reducible apply Dev.instr_evo
    | with_reducible apply Dev.trap_evo
    | with_reducible apply Mi.trap_evo
    | (intro _; intros)
    | split
    | clear_value *


end Sys2Proof.Machine
end

