-- ==== Sys2Proof/Laws/Ex/Mspi.lean ====
section
/-! SUPPORT. What the commands of Machine/Mspi.lean do to the whole device: each holds (Laws/Hold.lean). -/

namespace Sys2Proof.Machine

theorem execMspiCmd_held {ws : List W} {s t₀ : State} (h₀ : execMspiCmd ws s = .next t₀) (i₀ : s.toDev.Inv) :
    Held false s.toDev t₀.toDev := by
  cases h₀
  have ev := Evo.refl (b := true) s.toDev
  dsimp only
  repeat' first
    | exact Held.refl i₀
    | with_reducible exact Dev.mspiCmd_held i₀
    | split

theorem execMspiCpl_held  {s t₀ : State} (h₀ : execMspiCpl s = .next t₀) (i₀ : s.toDev.Inv) :
    Held false s.toDev t₀.toDev := by
  cases h₀
  refine Evo.held (b := true) ?_ i₀
  have ev := Evo.refl (b := true) s.toDev
  dsimp only
  repeat' first
    | with_reducible assumption
    | with_reducible apply Dev.mspiCpl_evo
    | (intro _; intros)

theorem execMspiRd_held {addr : BitVec 40} {count : BitVec 16} {x : ReadEcc} {s t₀ : State} (h₀ : execMspiRd addr count x s = .next t₀) (i₀ : s.toDev.Inv) :
    Held false s.toDev t₀.toDev := by
  cases h₀
  refine Evo.held (b := true) ?_ i₀
  have ev := Evo.refl (b := true) s.toDev
  dsimp only
  repeat' first
    | with_reducible assumption
    | with_reducible apply Dev.mspiRd_evo
    | (intro _; intros)

theorem execMspiWr_held {addr : BitVec 40} {ws : List W} {s t₀ : State} (h₀ : execMspiWr addr ws s = .next t₀) (i₀ : s.toDev.Inv) :
    Held false s.toDev t₀.toDev := by
  cases h₀
  refine Evo.held (b := true) ?_ i₀
  have ev := Evo.refl (b := true) s.toDev
  dsimp only
  repeat' first
    | with_reducible assumption
    | with_reducible apply Dev.mspiWr_evo
    | (intro _; intros)

theorem execMspiStat_held  {s t₀ : State} (h₀ : execMspiStat s = .next t₀) (i₀ : s.toDev.Inv) :
    Held false s.toDev t₀.toDev := by
  cases h₀
  refine Evo.held (b := true) ?_ i₀
  have ev := Evo.refl (b := true) s.toDev
  dsimp only
  repeat' first
    | with_reducible assumption
    | with_reducible apply Dev.mspiStat_evo
    | (intro _; intros)

theorem execMspiBadOpcode_held  {s t₀ : State} (h₀ : execMspiBadOpcode s = .next t₀) (i₀ : s.toDev.Inv) :
    Held false s.toDev t₀.toDev := by
  cases h₀
  refine Evo.held (b := true) ?_ i₀
  have ev := Evo.refl (b := true) s.toDev
  dsimp only
  repeat' first
    | with_reducible assumption
    | with_reducible apply Dev.mspiFault_evo
    | (intro _; intros)
    | split
    | clear_value *


end Sys2Proof.Machine
end

