-- ==== Sys2Proof/Laws/Ex/Pattern.lean ====
section
/-! SUPPORT. What the commands of Machine/Pattern.lean do to the whole device: each holds (Laws/Hold.lean). -/

namespace Sys2Proof.Machine

theorem execPlay_held {e : Fin 272} {f : Fetch} {s t₀ : State} (h₀ : execPlay e f s = .next t₀) (i₀ : s.toDev.Inv) :
    Held false s.toDev t₀.toDev := by
  cases h₀
  refine Evo.held (b := true) ?_ i₀
  have ev := Evo.refl (b := true) s.toDev
  dsimp only
  repeat' first
    | with_reducible assumption
    | with_reducible apply Dev.instrSite_evo
    | with_reducible apply doPlay_evo
    | (intro _; intros)

theorem execJoin_held {e : Fin 272} {f : Fetch} {s t₀ : State} (h₀ : execJoin e f s = .next t₀) (i₀ : s.toDev.Inv) :
    Held false s.toDev t₀.toDev := by
  cases h₀
  refine Evo.held (b := true) ?_ i₀
  have ev := Evo.refl (b := true) s.toDev
  dsimp only
  repeat' first
    | with_reducible assumption
    | with_reducible apply Dev.instrSite_evo
    | with_reducible apply doJoin_evo
    | (intro _; intros)

theorem execDetach_held {e : Fin 272} {f : Fetch} {s t₀ : State} (h₀ : execDetach e f s = .next t₀) (i₀ : s.toDev.Inv) :
    Held false s.toDev t₀.toDev := by
  cases h₀
  refine Evo.held (b := true) ?_ i₀
  have ev := Evo.refl (b := true) s.toDev
  dsimp only
  repeat' first
    | with_reducible assumption
    | with_reducible apply Dev.instrSite_evo
    | with_reducible apply doDetach_evo
    | (intro _; intros)

theorem execSegjmp_held {e : Fin 272} {f : Fetch} {s t₀ : State} (h₀ : execSegjmp e f s = .next t₀) (i₀ : s.toDev.Inv) :
    Held false s.toDev t₀.toDev := by
  cases h₀
  refine Evo.held (b := true) ?_ i₀
  have ev := Evo.refl (b := true) s.toDev
  dsimp only
  repeat' first
    | with_reducible assumption
    | with_reducible apply Dev.instrOp_evo
    | with_reducible apply doSegjmp_evo
    | (intro _; intros)

theorem execDwell_held {e : Fin 272} {f : Fetch} {s t₀ : State} (h₀ : execDwell e f s = .next t₀) (i₀ : s.toDev.Inv) :
    Held false s.toDev t₀.toDev := by
  cases h₀
  refine Evo.held (b := true) ?_ i₀
  have ev := Evo.refl (b := true) s.toDev
  dsimp only
  repeat' first
    | with_reducible assumption
    | with_reducible apply Dev.instrSite_evo
    | with_reducible apply doDwell_evo
    | (intro _; intros)


end Sys2Proof.Machine
end

