-- ==== Sys2Proof/Laws/Ex/Tick.lean ====
section
/-! SUPPORT. What the commands of Machine/Tick.lean do to the whole device: each holds (Laws/Hold.lean). -/

namespace Sys2Proof.Machine

theorem execSyncReset_held  {s t₀ : State} (h₀ : execSyncReset s = .next t₀) (i₀ : s.toDev.Inv) :
    Held false s.toDev t₀.toDev := by
  cases h₀
  refine Evo.held (b := true) ?_ i₀
  have ev := Evo.refl (b := true) s.toDev
  dsimp only
  repeat' first
    | with_reducible assumption
    | with_reducible apply Dev.resetsAt_evo
    | (intro _; intros)


end Sys2Proof.Machine
end

