-- ==== Sys2Proof/Laws/Word.lean ====
section
/-! SUPPORT. Laws of the fields of a word: what a field replaced reads as, and what it leaves alone. -/

namespace Sys2Proof

/-- A word with a field replaced, as a number: the bits above, the field, the bits below. -/
theorem W.toNat_put (v : W) {hi lo : Nat} (h : lo ≤ hi) (hb : hi < 32) (x : Nat) :
    (v.put hi lo x).toNat =
      2 ^ (hi + 1) * (v.toNat / 2 ^ (hi + 1)) + (2 ^ lo * (x % 2 ^ (hi + 1 - lo)) + v.toNat % 2 ^ lo) := by
  have hsplit : 2 ^ (hi + 1) = 2 ^ lo * 2 ^ (hi + 1 - lo) := by rw [← pow_add]; congr 1; omega
  have hv := v.isLt
  have hp : 0 < 2 ^ lo := by positivity
  have hq : 0 < 2 ^ (hi + 1 - lo) := by positivity
  have e1 : v.toNat = 2 ^ (hi + 1) * (v.toNat / 2 ^ (hi + 1)) + v.toNat % 2 ^ (hi + 1) := (Nat.div_add_mod _ _).symm
  have e2 : v.toNat % 2 ^ (hi + 1) = 2 ^ lo * (v.toNat / 2 ^ lo % 2 ^ (hi + 1 - lo)) + v.toNat % 2 ^ lo := by
    rw [hsplit, Nat.mod_mul]; ring
  have hx : x % 2 ^ (hi + 1 - lo) < 2 ^ (hi + 1 - lo) := Nat.mod_lt _ hq
  have hl : v.toNat % 2 ^ lo < 2 ^ lo := Nat.mod_lt _ hp
  have hxl : 2 ^ lo * (x % 2 ^ (hi + 1 - lo)) + v.toNat % 2 ^ lo < 2 ^ (hi + 1) := by
    rw [hsplit]
    calc 2 ^ lo * (x % 2 ^ (hi + 1 - lo)) + v.toNat % 2 ^ lo
        < 2 ^ lo * (x % 2 ^ (hi + 1 - lo)) + 2 ^ lo := by omega
      _ = 2 ^ lo * (x % 2 ^ (hi + 1 - lo) + 1) := by ring
      _ ≤ _ := Nat.mul_le_mul_left _ hx
  have hhi : 2 ^ (hi + 1) ≤ 2 ^ 32 := Nat.pow_le_pow_right (by omega) (by omega)
  have hdiv : 2 ^ (hi + 1) * (v.toNat / 2 ^ (hi + 1)) + 2 ^ (hi + 1) ≤ 2 ^ 32 := by
    have h32 : 2 ^ 32 = 2 ^ (hi + 1) * 2 ^ (32 - (hi + 1)) := by rw [← pow_add]; congr 1; omega
    have : v.toNat / 2 ^ (hi + 1) < 2 ^ (32 - (hi + 1)) := by
      rw [Nat.div_lt_iff_lt_mul (by positivity), mul_comm, ← h32]; exact hv
    calc 2 ^ (hi + 1) * (v.toNat / 2 ^ (hi + 1)) + 2 ^ (hi + 1) = 2 ^ (hi + 1) * (v.toNat / 2 ^ (hi + 1) + 1) := by ring
      _ ≤ 2 ^ (hi + 1) * 2 ^ (32 - (hi + 1)) := Nat.mul_le_mul_left _ this
      _ = 2 ^ 32 := h32.symm
  unfold W.put W.fld
  rw [BitVec.toNat_ofNat, Nat.shiftLeft_eq, Nat.shiftLeft_eq, Nat.shiftRight_eq_div_pow]
  have e3 : v.toNat - v.toNat / 2 ^ lo % 2 ^ (hi + 1 - lo) * 2 ^ lo =
      2 ^ (hi + 1) * (v.toNat / 2 ^ (hi + 1)) + v.toNat % 2 ^ lo := by
    rw [mul_comm (v.toNat / 2 ^ lo % 2 ^ (hi + 1 - lo))]; omega
  rw [e3, Nat.mod_eq_of_lt]
  · ring
  · rw [mul_comm (x % 2 ^ (hi + 1 - lo))]; omega

/-- Bits above and below a field are left alone. -/
theorem W.bit_put_of_gt (v : W) {hi lo i : Nat} (h : lo ≤ hi) (hb : hi < 32) (hi' : hi < i) (x : Nat) :
    (v.put hi lo x).bit i = v.bit i := by
  unfold W.bit
  rw [BitVec.getLsbD, BitVec.getLsbD, W.toNat_put v h hb]
  have hl : 2 ^ lo * (x % 2 ^ (hi + 1 - lo)) + v.toNat % 2 ^ lo < 2 ^ (hi + 1) := by
    have hsplit : 2 ^ (hi + 1) = 2 ^ lo * 2 ^ (hi + 1 - lo) := by rw [← pow_add]; congr 1; omega
    have hx : x % 2 ^ (hi + 1 - lo) < 2 ^ (hi + 1 - lo) := Nat.mod_lt _ (by positivity)
    have hl : v.toNat % 2 ^ lo < 2 ^ lo := Nat.mod_lt _ (by positivity)
    rw [hsplit]
    calc 2 ^ lo * (x % 2 ^ (hi + 1 - lo)) + v.toNat % 2 ^ lo
        < 2 ^ lo * (x % 2 ^ (hi + 1 - lo)) + 2 ^ lo := by omega
      _ = 2 ^ lo * (x % 2 ^ (hi + 1 - lo) + 1) := by ring
      _ ≤ _ := Nat.mul_le_mul_left _ hx
  rw [Nat.testBit_two_pow_mul_add _ hl, if_neg (by omega), Nat.testBit_div_two_pow]
  congr 1; omega

theorem W.bit_put_of_lt (v : W) {hi lo i : Nat} (h : lo ≤ hi) (hb : hi < 32) (hi' : i < lo) (x : Nat) :
    (v.put hi lo x).bit i = v.bit i := by
  unfold W.bit
  rw [BitVec.getLsbD, BitVec.getLsbD, W.toNat_put v h hb]
  have hsplit : 2 ^ (hi + 1) = 2 ^ lo * 2 ^ (hi + 1 - lo) := by rw [← pow_add]; congr 1; omega
  have : 2 ^ (hi + 1) * (v.toNat / 2 ^ (hi + 1)) + (2 ^ lo * (x % 2 ^ (hi + 1 - lo)) + v.toNat % 2 ^ lo) =
      2 ^ lo * (2 ^ (hi + 1 - lo) * (v.toNat / 2 ^ (hi + 1)) + x % 2 ^ (hi + 1 - lo)) + v.toNat % 2 ^ lo := by
    generalize v.toNat / 2 ^ (hi + 1) = a
    rw [hsplit]; ring
  rw [this, Nat.testBit_two_pow_mul_add _ (Nat.mod_lt _ (by positivity)), if_pos hi', Nat.testBit_mod_two_pow]
  simp [hi']

/-- A field replaced reads as what was put there. -/
theorem W.fld_put_self (v : W) {hi lo : Nat} (h : lo ≤ hi) (hb : hi < 32) (x : Nat) :
    (v.put hi lo x).fld hi lo = x % 2 ^ (hi + 1 - lo) := by
  unfold W.fld
  rw [W.toNat_put v h hb, Nat.shiftRight_eq_div_pow]
  have hsplit : 2 ^ (hi + 1) = 2 ^ lo * 2 ^ (hi + 1 - lo) := by rw [← pow_add]; congr 1; omega
  have : 2 ^ (hi + 1) * (v.toNat / 2 ^ (hi + 1)) + (2 ^ lo * (x % 2 ^ (hi + 1 - lo)) + v.toNat % 2 ^ lo) =
      2 ^ lo * (2 ^ (hi + 1 - lo) * (v.toNat / 2 ^ (hi + 1)) + x % 2 ^ (hi + 1 - lo)) + v.toNat % 2 ^ lo := by
    generalize v.toNat / 2 ^ (hi + 1) = a
    rw [hsplit]; ring
  rw [this, Nat.mul_add_div (by positivity), Nat.div_eq_of_lt (Nat.mod_lt _ (by positivity)), Nat.add_zero,
    Nat.mul_add_mod, Nat.mod_mod]

/-- A bit outside the field replaced. -/
theorem W.bit_put_of_ne (v : W) {hi lo i : Nat} (h : lo ≤ hi) (hb : hi < 32) (hi' : i < lo ∨ hi < i) (x : Nat) :
    (v.put hi lo x).bit i = v.bit i :=
  hi'.elim (fun g => W.bit_put_of_lt v h hb g x) (fun g => W.bit_put_of_gt v h hb g x)

end Sys2Proof
end

