-- ==== Sys2Proof/Laws/Raise.lean ====
section
/-! SUPPORT. What raising a fault does, said once: its source is STICKY afterwards, no other source loses
STICKY, and what it leaves alone (`Dev.FaultFrame`). -/

namespace Sys2Proof.Machine

/-- A fault's consequences: no source loses STICKY, and the frame. -/
structure Upset (s t : Dev) : Prop where
  stays : ∀ g, s.sticky g = true → t.sticky g = true
  rest  : s.FaultFrame t

theorem Dev.FaultFrame.trans {s t u : Dev} (a : s.FaultFrame t) (b : t.FaultFrame u) : s.FaultFrame u where
  cards := fun x h1 h2 h3 => (b.cards x h1 h2 h3).trans (a.cards x h1 h2 h3)
  bytes := fun x h => (b.bytes x h).trans (a.bytes x h)
  clk := b.clk.trans a.clk
  scratch := b.scratch.trans a.scratch
  chains := b.chains.trans a.chains
  weirs := b.weirs.trans a.weirs
  led := b.led.trans a.led
  ucs := b.ucs.trans a.ucs
  imgs := b.imgs.trans a.imgs
  staged := b.staged.trans a.staged
  power := ⟨b.power.1.trans a.power.1, b.power.2.1.trans a.power.2.1, b.power.2.2.1.trans a.power.2.2.1,
    b.power.2.2.2.1.trans a.power.2.2.2.1, b.power.2.2.2.2.1.trans a.power.2.2.2.2.1,
    b.power.2.2.2.2.2.trans a.power.2.2.2.2.2⟩
  straps := ⟨b.straps.1.trans a.straps.1, b.straps.2.1.trans a.straps.2.1, b.straps.2.2.trans a.straps.2.2⟩
  tap := ⟨b.tap.1.trans a.tap.1, b.tap.2.trans a.tap.2⟩
  mode := b.mode.elim (fun h => a.mode.elim (fun g => .inl (h.trans g)) (fun g => .inr (h.trans g))) .inr

/-- A change of fields the frame does not name. -/
theorem Dev.FaultFrame.upd {s t : Dev} (hr : t.regs = s.regs) (hm : t.mem = s.mem) (h1 : t.clk = s.clk)
    (h2 : t.scratch = s.scratch) (h3 : t.chains = s.chains) (h4 : t.weirs = s.weirs) (h5 : t.led = s.led)
    (h6 : t.ucs = s.ucs) (h7 : t.imgs = s.imgs) (h8 : t.stage.eng = s.stage.eng)
    (h9 : t.pwr.on = s.pwr.on ∧ t.pwr.good = s.pwr.good ∧ t.pwr.wait = s.pwr.wait ∧ t.pwr.fresh = s.pwr.fresh ∧
              t.pwr.sensors = s.pwr.sensors ∧ t.pwr.groups = s.pwr.groups)
    (h10 : t.sys.devid = s.sys.devid ∧ t.sys.master = s.sys.master ∧ t.sys.recov = s.sys.recov)
    (h11 : t.jtag = s.jtag ∧ t.tdo = s.tdo) (h12 : t.sys.mode = s.sys.mode ∨ t.sys.mode = .safe) : Upset s t where
  stays := fun g h => by
    have : t.sticky g = s.sticky g := by unfold Dev.sticky Dev.bit Dev.rd; rw [hr]
    rw [this]; exact h
  rest := ⟨fun a _ _ _ => by unfold Dev.rd; rw [hr], fun a _ => by unfold Dev.byte; rw [hm], h1, h2, h3, h4, h5, h6, h7,
    h8, h9, h10, h11, h12⟩

theorem Upset.refl (s : Dev) : Upset s s :=
  Dev.FaultFrame.upd rfl rfl rfl rfl rfl rfl rfl rfl rfl rfl ⟨rfl, rfl, rfl, rfl, rfl, rfl⟩ ⟨rfl, rfl, rfl⟩ ⟨rfl, rfl⟩ (.inl rfl)

theorem Upset.trans {s t u : Dev} (a : Upset s t) (b : Upset t u) : Upset s u :=
  ⟨fun g h => b.stays g (a.stays g h), a.rest.trans b.rest⟩

/-- A card of the fault page, GLB's status of the last mode request, or the STRESS arm, written with STICKY kept. -/
theorem Upset.wr (s : Dev) (a : Nat) (v : W) (h : (0x10000 ≤ a ∧ a < 0x20000) ∨ a = 0x108 ∨ a = 0x114)
    (hv : (s.rd a).bit 30 = true → v.bit 30 = true) : Upset s (s.wr a v) where
  stays := fun g hg => by
    unfold Dev.sticky Dev.bit at *
    by_cases hga : aSrc g = a
    · rw [hga] at hg ⊢; rw [Dev.rd_wr_self]; exact hv hg
    · rw [Dev.rd_wr_of_ne _ hga]; exact hg
  rest := ⟨fun b h1 h2 h3 => Dev.rd_wr_of_ne _ (by rintro rfl; exact h.elim h1 (fun k => k.elim h2 h3)) _, fun _ _ => rfl, rfl, rfl, rfl, rfl, rfl, rfl, rfl,
    rfl, ⟨rfl, rfl, rfl, rfl, rfl, rfl⟩, ⟨rfl, rfl, rfl⟩, ⟨rfl, rfl⟩, .inl rfl⟩

theorem Upset.setFld (s : Dev) {a hi lo : Nat} (x : Nat) (h : (0x10000 ≤ a ∧ a < 0x20000) ∨ a = 0x108 ∨ a = 0x114) (hl : lo ≤ hi)
    (hh : hi < 30) : Upset s (s.setFld a hi lo x) :=
  Upset.wr s a _ h (fun hb => by rw [W.bit_put_of_gt _ hl (by omega) hh]; exact hb)

theorem Upset.incSat (s : Dev) {a hi lo : Nat} (h : (0x10000 ≤ a ∧ a < 0x20000) ∨ a = 0x108 ∨ a = 0x114) (hl : lo ≤ hi)
    (hh : hi < 30) : Upset s (s.incSat a hi lo) := Upset.setFld s _ h hl hh

theorem Upset.setBits (s : Dev) {a : Nat} (m : W) (h : (0x10000 ≤ a ∧ a < 0x20000) ∨ a = 0x108 ∨ a = 0x114) : Upset s (s.setBits a m) :=
  Upset.wr s a _ h (fun hb => by unfold W.bit at *; rw [BitVec.getLsbD_or, hb]; rfl)

theorem Upset.forL {α : Type} (l : List α) (f : α → Dev → Dev) (h : ∀ a s, a ∈ l → Upset s (f a s)) (s : Dev) :
    Upset s (forL l f s) := by
  unfold Machine.forL
  induction l generalizing s with
  | nil => exact Upset.refl s
  | cons a r ih => exact (h a s (by simp)).trans (ih (fun b s hb => h b s (by simp [hb])) _)

theorem Upset.setEng (s : Dev) (e : Nat) (x : Eng) : Upset s (s.setEng e x) :=
  Dev.FaultFrame.upd rfl rfl rfl rfl rfl rfl rfl rfl rfl rfl ⟨rfl, rfl, rfl, rfl, rfl, rfl⟩ ⟨rfl, rfl, rfl⟩ ⟨rfl, rfl⟩ (.inl rfl)
theorem Upset.setSite (s : Dev) (e : Nat) (x : Site) : Upset s (s.setSite e x) :=
  Dev.FaultFrame.upd rfl rfl rfl rfl rfl rfl rfl rfl rfl rfl ⟨rfl, rfl, rfl, rfl, rfl, rfl⟩ ⟨rfl, rfl, rfl⟩ ⟨rfl, rfl⟩ (.inl rfl)
theorem Upset.setQuad (s : Dev) (e : Nat) (x : Quad) : Upset s (s.setQuad e x) :=
  Dev.FaultFrame.upd rfl rfl rfl rfl rfl rfl rfl rfl rfl rfl ⟨rfl, rfl, rfl, rfl, rfl, rfl⟩ ⟨rfl, rfl, rfl⟩ ⟨rfl, rfl⟩ (.inl rfl)
theorem Upset.setLane (s : Dev) (e : Nat) (x : Lane) : Upset s (s.setLane e x) :=
  Dev.FaultFrame.upd rfl rfl rfl rfl rfl rfl rfl rfl rfl rfl ⟨rfl, rfl, rfl, rfl, rfl, rfl⟩ ⟨rfl, rfl, rfl⟩ ⟨rfl, rfl⟩ (.inl rfl)
theorem Upset.setLink (s : Dev) (e : Nat) (x : Link) : Upset s (s.setLink e x) :=
  Dev.FaultFrame.upd rfl rfl rfl rfl rfl rfl rfl rfl rfl rfl ⟨rfl, rfl, rfl, rfl, rfl, rfl⟩ ⟨rfl, rfl, rfl⟩ ⟨rfl, rfl⟩ (.inl rfl)

/-! ### Raises -/

theorem aSrc_page {f : Nat} (h : f < 384) : 0x10000 ≤ aSrc f ∧ aSrc f < 0x20000 := by unfold aSrc aFlt; omega
theorem aCls_page {x : Nat} (h : x < 12) : 0x10000 ≤ aCls x ∧ aCls x < 0x20000 := by unfold aCls aFlt; omega

theorem Upset.markRaise (s : Dev) {f : Nat} (h : f < 384) : Upset s (s.markRaise f) :=
  (Upset.setBits s _ (.inl (aSrc_page h))).trans (Upset.incSat _ (.inl (aSrc_page h)) (by omega) (by omega))

theorem Dev.sticky_markRaise (s : Dev) (f : Nat) : (s.markRaise f).sticky f = true := by
  unfold Dev.markRaise Dev.incSat Dev.setFld Dev.sticky Dev.bit
  rw [Dev.rd_wr_self, W.bit_put_of_gt _ (by omega) (by omega) (by omega)]
  unfold Dev.setBits
  rw [Dev.rd_wr_self]
  unfold W.bit
  rw [BitVec.getLsbD_or]
  simp

theorem Upset.recordRaise (s : Dev) (e : Nat) {f : Nat} (h : f < 384) : Upset s (s.recordRaise e f) :=
  (Upset.markRaise s h).trans (Upset.setFld _ _ (.inl (aSrc_page h)) (by omega) (by omega))

theorem Dev.sticky_recordRaise (s : Dev) (e : Nat) {f : Nat} (h : f < 384) : (s.recordRaise e f).sticky f = true :=
  (Upset.setFld (s.markRaise f) _ (.inl (aSrc_page h)) (by omega) (by omega)).stays f (Dev.sticky_markRaise s f)

/-- A change of the fault unit's own fields. -/
theorem Upset.flt (s : Dev) (x : Flt) : Upset s { s with flt := x } :=
  Dev.FaultFrame.upd rfl rfl rfl rfl rfl rfl rfl rfl rfl rfl ⟨rfl, rfl, rfl, rfl, rfl, rfl⟩ ⟨rfl, rfl, rfl⟩ ⟨rfl, rfl⟩ (.inl rfl)

theorem Upset.countOcc (s : Dev) {x : Nat} (l e : Nat) (o : OccNow) (rs : List (Nat × List Nat)) (hx : x < 12) :
    Upset s (s.countOcc x l e o rs) := by
  unfold Dev.countOcc
  extract_lets s1 s2 k s3
  have h1 : Upset s s1 := Upset.forL _ _ (fun f s hf => by
    have hf : f / 32 = x := by simpa using (List.mem_filter.mp hf).2
    exact Upset.setFld s _ (.inl (aSrc_page (by omega))) (by omega) (by omega)) s
  have h2 : Upset s1 s2 := by
    unfold s2; split
    · exact Upset.incSat _ (.inl (aCls_page hx)) (by omega) (by omega)
    · exact Upset.refl _
  have h3 : Upset s s3 := (h1.trans h2).trans (Upset.flt _ _)
  refine h3.trans ?_
  split
  · exact Upset.flt _ _
  · split
    · exact Upset.incSat _ (.inl (aCls_page hx)) (by omega) (by omega)
    · exact Upset.refl _

theorem Upset.recordOcc (s : Dev) {x : Nat} (l e : Nat) (rs : List (Nat × List Nat)) (hx : x < 12)
    (hf : ∀ r ∈ rs, r.1 < 384) : Upset s (s.recordOcc x l e rs) := by
  have h : Upset s (Machine.forL (rs.map (·.1)) (fun f s => s.recordRaise e f) s) := Upset.forL _ _ (fun f s hm => by
    obtain ⟨r, hr, rfl⟩ := List.mem_map.mp hm
    exact Upset.recordRaise s e (hf r hr)) s
  unfold Dev.recordOcc
  exact h.trans (Upset.countOcc _ l e (s.occNow x) rs hx)

theorem Upset.note (s : Dev) {f : Nat} (h : f < 384) : Upset s (s.note f) := by
  unfold Dev.note
  split
  · exact Upset.recordOcc s _ _ [(f, [])] (by omega) (by simpa using h)
  · exact Upset.markRaise s h

/-- A raise among several that hold on to what is sticky. -/
theorem Dev.sticky_forL {α : Type} (l : List α) (f : α → Dev → Dev) (g : Nat)
    (hk : ∀ a s, a ∈ l → s.sticky g = true → (f a s).sticky g = true)
    {b : α} (hb : b ∈ l) (hs : ∀ s, (f b s).sticky g = true) (s : Dev) : (forL l f s).sticky g = true := by
  have keep : ∀ (l : List α), (∀ a s, a ∈ l → s.sticky g = true → (f a s).sticky g = true) →
      ∀ s : Dev, s.sticky g = true → (l.foldl (fun s k => f k s) s).sticky g = true := by
    intro l; induction l with
    | nil => intro _ s h; exact h
    | cons a r ih => intro hk s h; exact ih (fun a s ha => hk a s (List.mem_cons_of_mem _ ha)) _ (hk a s List.mem_cons_self h)
  unfold Machine.forL
  induction l generalizing s with
  | nil => cases hb
  | cons a r ih =>
    rw [List.foldl_cons]
    rcases List.mem_cons.mp hb with h | h
    · exact keep r (fun a s ha => hk a s (List.mem_cons_of_mem _ ha)) _ (by rw [← h]; exact hs s)
    · exact ih (fun a s ha => hk a s (List.mem_cons_of_mem _ ha)) h _

theorem Dev.sticky_forL_recordRaise (e : Nat) (fs : List Nat) (hf : ∀ f ∈ fs, f < 384) {f : Nat} (hm : f ∈ fs) (s : Dev) :
    (forL fs (fun f s => s.recordRaise e f) s).sticky f = true :=
  Dev.sticky_forL fs _ f (fun g s hg => (Upset.recordRaise s e (hf g hg)).stays f) hm (fun s => Dev.sticky_recordRaise s e (hf f hm)) s

theorem Dev.sticky_recordOcc (s : Dev) {x : Nat} (l e : Nat) (rs : List (Nat × List Nat)) (hx : x < 12)
    (hf : ∀ r ∈ rs, r.1 < 384) {r : Nat × List Nat} (hm : r ∈ rs) : (s.recordOcc x l e rs).sticky r.1 = true := by
  have h := Dev.sticky_forL_recordRaise e (rs.map (·.1)) (by simpa using fun a b h => hf (a, b) h)
    (List.mem_map.mpr ⟨r, hm, rfl⟩) s
  unfold Dev.recordOcc
  exact (Upset.countOcc _ l e (s.occNow x) rs hx).stays r.1 h

theorem Dev.sticky_note (s : Dev) {f : Nat} (h : f < 384) : (s.note f).sticky f = true := by
  unfold Dev.note
  split
  · have k := Dev.sticky_recordOcc s (s.judgeOcc (f / 32) 0).1 (s.judgeOcc (f / 32) 0).2 [(f, [])] (x := f / 32) (by omega)
      (by simpa using h) (List.mem_singleton.mpr rfl)
    exact k
  · exact Dev.sticky_markRaise s f

/-! ### Voids and repairs -/

theorem Upset.voidSite (s : Dev) (c i : Nat) : Upset s (s.voidSite c i) := by
  unfold Dev.voidSite; dsimp only
  split
  · exact (Upset.setSite s i _).trans (Upset.setEng _ _ _)
  · exact Upset.setSite s i _

theorem Upset.replaceBank (s : Dev) (b : Nat) : Upset s (s.replaceBank b) := by
  unfold Dev.replaceBank
  split
  · exact Upset.refl s
  · split
    · exact Dev.FaultFrame.upd rfl rfl rfl rfl rfl rfl rfl rfl rfl rfl ⟨rfl, rfl, rfl, rfl, rfl, rfl⟩ ⟨rfl, rfl, rfl⟩ ⟨rfl, rfl⟩ (.inl rfl)
    · split
      · exact Dev.FaultFrame.upd rfl rfl rfl rfl rfl rfl rfl rfl rfl rfl ⟨rfl, rfl, rfl, rfl, rfl, rfl⟩ ⟨rfl, rfl, rfl⟩ ⟨rfl, rfl⟩ (.inl rfl)
      · exact Upset.note s (by omega)

/-- A repair, but for the spare row of an NV word (f = 289), which writes that word. -/
theorem Upset.repair (s : Dev) {f : Nat} (u : Nat) (hf : f ≠ 289) : Upset s (s.repair f u) := by
  unfold Dev.repair
  split
  · exact Upset.setQuad s _ _
  · split
    · exact Upset.setQuad s _ _
    · split
      · exact Upset.setEng s _ _
      · split
        · exact Upset.replaceBank s u
        · split
          · exact Upset.setLane s _ _
          · exact Upset.refl s

/-! ### SAFE entry -/

theorem Upset.notify (s : Dev) (n : Ntfy) (h : Bool) : Upset s (s.notify n h) := by
  unfold Dev.notify
  split
  · exact Dev.FaultFrame.upd rfl rfl rfl rfl rfl rfl rfl rfl rfl rfl ⟨rfl, rfl, rfl, rfl, rfl, rfl⟩ ⟨rfl, rfl, rfl⟩ ⟨rfl, rfl⟩ (.inl rfl)
  · split
    · exact Dev.FaultFrame.upd rfl rfl rfl rfl rfl rfl rfl rfl rfl rfl ⟨rfl, rfl, rfl, rfl, rfl, rfl⟩ ⟨rfl, rfl, rfl⟩ ⟨rfl, rfl⟩ (.inl rfl)
    · exact Dev.FaultFrame.upd rfl rfl rfl rfl rfl rfl rfl rfl rfl rfl ⟨rfl, rfl, rfl, rfl, rfl, rfl⟩ ⟨rfl, rfl, rfl⟩ ⟨rfl, rfl⟩ (.inl rfl)

theorem Upset.complete (s : Dev) (j : Job) (a b : Nat) (d : List W) : Upset s (s.complete j a b d) := by
  unfold Dev.complete; dsimp only
  split
  · exact Dev.FaultFrame.upd rfl rfl rfl rfl rfl rfl rfl rfl rfl rfl ⟨rfl, rfl, rfl, rfl, rfl, rfl⟩ ⟨rfl, rfl, rfl⟩ ⟨rfl, rfl⟩ (.inl rfl)
  · exact Upset.setLink s _ _

theorem Upset.endReq (s : Dev) (r : ModeReq) (n : Nat) : Upset s (s.endReq r n) := by
  have h : Upset s (s.rejMode r.tag n) := by
    unfold Dev.rejMode; dsimp only
    exact ((Upset.setBits s _ (.inr (.inl rfl))).trans (Upset.setFld _ _ (.inr (.inl rfl)) (by omega) (by omega))).trans
      (Upset.setFld _ _ (.inr (.inl rfl)) (by omega) (by omega))
  unfold Dev.endReq; dsimp only
  split
  · exact h.trans (Upset.complete _ _ _ _ _)
  · exact h

theorem Upset.abortCmds (s : Dev) : Upset s s.abortCmds := by
  unfold Dev.abortCmds; dsimp only
  refine Upset.trans ?_ (Upset.forL _ _ (fun j s _ => Upset.complete s j 14 0 []) _)
  exact Dev.FaultFrame.upd rfl rfl rfl rfl rfl rfl rfl rfl rfl rfl ⟨rfl, rfl, rfl, rfl, rfl, rfl⟩ ⟨rfl, rfl, rfl⟩ ⟨rfl, rfl⟩ (.inl rfl)

theorem Dev.byte_setWord_of_ne (s : Dev) {a b : Nat} (v : W) (h : ¬(a ≤ b ∧ b < a + 4)) : (s.setWord a v).byte b = s.byte b := by
  unfold Dev.setWord
  rw [Dev.byte_setByte_of_ne _ (by omega), Dev.byte_setByte_of_ne _ (by omega), Dev.byte_setByte_of_ne _ (by omega),
    Dev.byte_setByte_of_ne _ (by omega)]

theorem Upset.setWord (s : Dev) (a : Nat) (v : W) (h : aNvr 0x400 ≤ a ∧ a + 4 ≤ aNvr 0x430) : Upset s (s.setWord a v) where
  stays := fun _ h => h
  rest := ⟨fun _ _ _ _ => rfl, fun b hb => Dev.byte_setWord_of_ne s v (by omega), rfl, rfl, rfl, rfl, rfl, rfl, rfl, rfl,
    ⟨rfl, rfl, rfl, rfl, rfl, rfl⟩, ⟨rfl, rfl, rfl⟩, ⟨rfl, rfl⟩, .inl rfl⟩

theorem Upset.nvPut (s : Dev) {o : Nat} (v : W) (h : 0x400 ≤ o ∧ o + 4 ≤ 0x430) : Upset s (s.nvPut o v) := by
  have hw : Upset s (s.setWord (aNvr o) v) := Upset.setWord s (aNvr o) v (by unfold aNvr; omega)
  unfold Dev.nvPut
  generalize s.setWord (aNvr o) v = s1 at hw ⊢
  have h1 : Upset s1 { s1 with nv := { s1.nv with wear := s1.nv.wear.set (fun _ => 0) (o / 4) (s.nv.wear.get (fun _ => 0) (o / 4) + 1) } } :=
    Dev.FaultFrame.upd rfl rfl rfl rfl rfl rfl rfl rfl rfl rfl ⟨rfl, rfl, rfl, rfl, rfl, rfl⟩ ⟨rfl, rfl, rfl⟩ ⟨rfl, rfl⟩ (.inl rfl)
  have h2 := hw.trans h1
  dsimp only
  generalize ({ s1 with nv := _ } : Dev) = s2 at h2 ⊢
  split
  · exact h2.trans (Upset.note _ (by omega))
  · exact h2

theorem Upset.nvCount (s : Dev) {o : Nat} (h : 0x400 ≤ o ∧ o + 4 ≤ 0x430) : Upset s (s.nvCount o) :=
  Upset.nvPut s _ h

theorem Upset.enterSafe (s : Dev) {x : Nat} (hx : x < 12) : Upset s (s.enterSafe x) := by
  unfold Dev.enterSafe
  split
  · exact Upset.refl s
  · extract_lets n s1 s2 s3 s4 s5
    have h1 : Upset s s1 := by
      unfold s1; split
      · exact Upset.notify s _ _
      · exact Upset.refl s
    have h2 : Upset s s2 := h1.trans (Upset.forL _ _ (fun r s _ => Upset.endReq s r 9) s1)
    have h4 : Upset s s4 := (h2.trans (Upset.abortCmds s2)).trans (Upset.nvCount _ (by omega))
    have h5 : Upset s s5 := by
      unfold s5; split
      · exact h4.trans (Upset.wr s4 0x114 _ (.inr (.inr rfl)) (fun hb => by
          unfold W.bit at *
          rw [BitVec.getLsbD_and, hb]
          decide))
      · exact h4
    clear_value s5
    exact h5.trans (Dev.FaultFrame.upd rfl rfl rfl rfl rfl rfl rfl rfl rfl rfl ⟨rfl, rfl, rfl, rfl, rfl, rfl⟩ ⟨rfl, rfl, rfl⟩ ⟨rfl, rfl⟩ (.inr rfl))

/-- A cause at SAFE leads to SAFE, but in RESET (R300). -/
theorem Dev.enterSafe_mode (s : Dev) (x : Nat) (h : s.sys.mode ≠ .reset) : (s.enterSafe x).sys.mode = .safe := by
  unfold Dev.enterSafe
  split
  · rename_i h1; simpa [h] using h1
  · rfl

/-! ### Occurrences -/

theorem Upset.voidSites (s : Dev) (c : Nat) (l : List Nat) : Upset s (s.voidSites c l) :=
  Upset.forL l _ (fun i s _ => Upset.voidSite s c i) s

theorem Upset.react (s : Dev) (e : Nat) {r : Raise} (hr : r.f ≠ 289) : Upset s (s.react e r) := by
  unfold Dev.react
  extract_lets s1
  have h1 : Upset s s1 := by
    unfold s1; split
    · exact Upset.voidSites s _ _
    · exact Upset.refl s
  clear_value s1
  split
  · exact h1.trans (Upset.repair _ _ hr)
  · exact h1

/-- A source whose raise writes only what the frame names: any but NV_ECC2, whose repair writes the word. -/
def Raise.plain (r : Raise) : Prop := r.f < 384 ∧ r.f ≠ 289

theorem Upset.reacts (s : Dev) {x : Nat} (e : Nat) (o : OccNow) (rs : List Raise) (hx : x < 12) (hf : ∀ r ∈ rs, r.plain) :
    Upset s (s.reacts x e o rs) := by
  unfold Dev.reacts
  split
  · exact Upset.enterSafe s hx
  · extract_lets s1
    have h1 : Upset s s1 := by
      unfold s1; split
      · exact Upset.forL _ _ (fun r s _ => Upset.voidSites s _ _) s
      · exact Upset.refl s
    exact h1.trans (Upset.forL rs (fun r s => s.react e r) (fun r s hr => Upset.react s e (hf r hr).2) s1)

theorem Upset.occur (s : Dev) {x : Nat} (rs : List Raise) (hx : x < 12) (hf : ∀ r ∈ rs, r.plain) : Upset s (s.occur x rs) :=
  (Upset.recordOcc s _ _ _ hx (by simpa using fun r hr => (hf r hr).1)).trans (Upset.reacts _ _ _ rs hx hf)

theorem Dev.sticky_occur (s : Dev) {x : Nat} (rs : List Raise) (hx : x < 12) (hf : ∀ r ∈ rs, r.plain) {r : Raise} (hr : r ∈ rs) :
    (s.occur x rs).sticky r.f = true := by
  have h := Dev.sticky_recordOcc s (s.judgeOcc x (rs.foldl (fun m r => max m r.lvl) 0)).1
    (s.judgeOcc x (rs.foldl (fun m r => max m r.lvl) 0)).2 (rs.map (fun r => (r.f, r.sites))) hx
    (by simpa using fun r hr => (hf r hr).1) (List.mem_map.mpr ⟨r, hr, rfl⟩)
  unfold Dev.occur
  exact (Upset.reacts _ _ _ rs hx hf).stays r.f h

theorem Dev.occur_safe (s : Dev) (x : Nat) (rs : List Raise) (h : s.sys.mode ≠ .reset)
    (h3 : ∃ r ∈ rs, 3 ≤ r.lvl) (hx : x < 12) (hf : ∀ r ∈ rs, r.f < 384) : (s.occur x rs).sys.mode = .safe := by
  unfold Dev.occur
  have hmono : ∀ (l : List Raise) (m : Nat), m ≤ l.foldl (fun m r => max m r.lvl) m := by
    intro l; induction l with
    | nil => intro m; exact Nat.le_refl m
    | cons a r ih => intro m; exact Nat.le_trans (Nat.le_max_left _ _) (ih _)
  have hmax : ∀ (l : List Raise) (m : Nat), ∀ r ∈ l, r.lvl ≤ l.foldl (fun m r => max m r.lvl) m := by
    intro l; induction l with
    | nil => intro m r hr; simp at hr
    | cons a t ih =>
      intro m r hr
      rcases List.mem_cons.mp hr with rfl | hr
      · exact Nat.le_trans (Nat.le_max_right _ _) (hmono t _)
      · exact ih _ r hr
  obtain ⟨r, hr, hl⟩ := h3
  extract_lets j
  have hL : r.lvl ≤ rs.foldl (fun m r => max m r.lvl) 0 := hmax rs 0 r hr
  have he : 3 ≤ j.2 := by
    show 3 ≤ effLevel (max (s.occNow x).lvl _) _
    unfold effLevel; split <;> omega
  have hm := (Upset.recordOcc s j.1 j.2 (rs.map (fun r => (r.f, r.sites))) hx (by simpa using hf)).rest.mode
  clear_value j
  unfold Dev.reacts
  rw [if_pos he]
  apply Dev.enterSafe_mode
  rcases hm with hm | hm
  · rw [hm]; exact h
  · rw [hm]; decide

theorem Upset.raises (s : Dev) (rs : List Raise) (hf : ∀ r ∈ rs, r.plain) : Upset s (s.raises rs) := by
  unfold Dev.raises
  extract_lets on off s1
  have h1 : Upset s s1 := Upset.forL off (fun (r : Raise) s => s.markRaise r.f) (fun r s hr => Upset.markRaise s (hf r (List.mem_filter.mp hr).1).1) s
  clear_value s1
  refine h1.trans ?_
  refine Upset.forL (List.range 12) _ (fun x s hx => ?_) _
  have hx : x < 12 := List.mem_range.mp hx
  extract_lets here
  split
  · exact Upset.refl _
  · exact Upset.occur _ _ hx (fun r hr => hf r (List.mem_filter.mp (List.mem_filter.mp hr).1).1)

/-- One raise, said once (R290-R301). -/
theorem Dev.raise_raised (s : Dev) (r : Raise) (h : r.plain) : s.Raised (s.raise r) r.f := by
  have hfl : Upset s (s.raise r) := Upset.raises s [r] (by simpa using h)
  refine ⟨?_, hfl.stays, hfl.rest⟩
  unfold Dev.raise Dev.raises; dsimp only
  by_cases hen : (r.forced || s.srcEn r.f) = true
  · have e1 : [r].filter (fun r => r.forced || s.srcEn r.f) = [r] := List.filter_eq_self.mpr (fun a ha => by rw [List.mem_singleton.mp ha]; exact hen)
    have e2 : [r].filter (fun r => !(r.forced || s.srcEn r.f)) = [] := List.filter_eq_nil_iff.mpr (fun a ha => by rw [List.mem_singleton.mp ha, hen]; simp)
    rw [e1, e2]
    have hx : r.f / 32 ∈ List.range 12 := by rw [List.mem_range]; have := h.1; omega
    have ho : ∀ (x : Nat) (s : Dev), x ∈ List.range 12 → Upset s (if ([r].filter (fun r => decide (r.f / 32 = x))).isEmpty = true
        then s else s.occur x ([r].filter (fun r => decide (r.f / 32 = x)))) := by
      intro x s hx
      split
      · exact Upset.refl _
      · exact Upset.occur _ _ (List.mem_range.mp hx) (fun q hq => by
          have := (List.mem_filter.mp hq).1; simp at this; rw [this]; exact h)
    exact Dev.sticky_forL (List.range 12) _ r.f (fun x s hx => (ho x s hx).stays r.f) hx (fun s => by
      have e3 : [r].filter (fun q => decide (q.f / 32 = r.f / 32)) = [r] := by simp
      beta_reduce
      rw [e3, if_neg (by simp)]
      exact Dev.sticky_occur s [r] (by have := h.1; omega) (by simpa using h) (List.mem_singleton.mpr rfl)) _
  · have hen : (r.forced || s.srcEn r.f) = false := by simpa using hen
    have e1 : [r].filter (fun r => r.forced || s.srcEn r.f) = [] := List.filter_eq_nil_iff.mpr (fun a ha => by rw [List.mem_singleton.mp ha, hen]; simp)
    have e2 : [r].filter (fun r => !(r.forced || s.srcEn r.f)) = [r] := List.filter_eq_self.mpr (fun a ha => by rw [List.mem_singleton.mp ha, hen]; rfl)
    rw [e1, e2]
    refine (Upset.forL _ _ (fun x s _ => ?_) _).stays r.f ?_
    · simp; exact Upset.refl _
    · exact Dev.sticky_markRaise s r.f

end Sys2Proof.Machine
end

