-- ==== Sys2Proof/WellFormed.lean ====
section
/-! DEFINITION. Well-formedness of commands: what an operand may hold beyond what its type says. A command that is
not well-formed is no event or request of the table's row; its meaning is total all the same. -/

namespace Sys2Proof

/-- Units named once each, in ascending order. -/
def ascending : List Nat → Bool
  | [] => true
  | [_] => true
  | x :: y :: l => decide (x < y) && ascending (y :: l)

/-- A word named as damaged lies inside the request. -/
def wordOk (bad : Option Nat) (n : Nat) : Bool :=
  match bad with
  | none => true
  | some k => decide (k < n)

/-- PLEN is a 12-bit field, and the parameters received are the words of PLEN bytes (R349). -/
def cmdOk (c : Cmd) : Bool := decide (c.plen < 2 ^ 12) && decide (c.params.length = (c.plen + 3) / 4)

/-- Codes of the catalogue (R363). -/
def catalogue : List Nat :=
  [0x01, 0x10, 0x11, 0x20, 0x21, 0x30, 0x40, 0x41, 0x42, 0x43, 0x50, 0x51, 0x60, 0x61, 0x62, 0x70, 0x71, 0x80, 0x90, 0x91,
   0xA0, 0xA1, 0xA2, 0xB0, 0xB1, 0xC0, 0xC1, 0xFF]

/-- A stream record carries whole words after its header (R167). -/
def recordOk (r : Record) : Bool := decide (r.data.length % 4 = 0)

/-- An address of the sluice's registers: the global lines, or a quad's (R276, R277). -/
def routeAddr (a : Nat) : Bool :=
  (decide (0x40000 ≤ a) && decide (a < 0x50000)) || (decide (0x2000000 ≤ a) && decide (a < 0x3000000))

/-- The operands are ones the row admits. Request bits that name a row are set: GO, ARM, ABORT, FORCE, CLOSE, RESET,
CLR and STICKY (R166, R200, R213, R228, R240-R245, R253, R261, R292, R296). -/
def Instr.wellFormed (i : Instr) : Bool :=
  match i with
  | .powerOn | .resetNLow | .supplyReset _ | .bootStart _ _ _ => true
  | .selfTestEnd t => ascending (t.badBanks.map (·.val)) && ascending (t.badClusters.map (·.val))
  | .linkUp _ | .sclkLock | .railWarn _ | .vchFault _
  | .vdpsLow _ | .refLoss | .refPresent | .fsyncEdge _ _
  | .fsyncMiss | .epochMark => true
  | .frameTick b => ascending (b.map (·.val))
  | .rendezvousTimeout _ | .joinLapse _ => true
  | .modeSwitch b => ascending (b.map (·.val))
  | .quadWarmDone _ | .substPathClose _ | .substInService _ | .syncReset => true
  | .dpsMonitor xs => ascending (xs.map (·.chan.val))
  | .throttleWait _ | .yieldRelease _ | .overrun _ | .wdog _
  | .waiteTimeout _ | .br _ _ | .brc _ _ | .call _ _
  | .ret _ _ | .loop _ _ | .halt _ _ | .yield _ _
  | .tpoint _ _ | .movi _ _ | .add _ _ | .sub _ _
  | .and _ _ | .or _ _ | .xor _ _ | .shl _ _
  | .shr _ _ | .cmp _ _ | .fcmp _ _ | .play _ _
  | .join _ _ | .detach _ _ | .segjmp _ _ | .dwell _ _
  | .level _ _ | .tset _ _ | .force _ _ | .gang _ _
  | .meas _ _ | .measConversionEnd _ _ | .getm _ _ | .acqarm _ _
  | .tdcopen _ _ | .winset _ _ | .step _ _ | .limit _ _ _
  | .bin _ _ | .logf _ _ | .voidh _ _ | .emit _ _
  | .waite _ _ | .undefinedOpcode _ _ | .vectorStart _ _ _ | .unitEnd _ _ => true
  | .compareStrobe _ _ _ h l _ _ => h.later.length = l.later.length
  | .failQueueDrain b => ascending (b.map (·.val))
  | .scrubStep _ => true
  | .bankCopyDone _ b => ascending (b.map (·.toNat))
  | .streamRecord _ r => recordOk r
  | .dpsTrip _ | .adcSample _ _ _ _ | .acqDone _ _ | .dsyncPinEdge _ => true
  | .tdcEdge _ src _ _ => !(4 ≤ src.val && src.val ≤ 6)
  | .tdcWindowClose _ | .tdcNosig _ _ | .tdcMaxt _ | .weirChange _ _ _
  | .weirSample _ _ _ | .weirSettled _ _ _ | .wake _ | .comparatorCrossing _ _ _
  | .sluiceDelivery | .tbusEdge _ _ | .tbusPulseEnd _ | .tbusStuck _
  | .sensorReading _ _ => true
  | .dpsPowerSum xs => ascending (xs.map (·.chan.val))
  | .domainGood _ | .domainTimeout _
  | .sclkUnlock | .fabricErr | .aonFail
  | .fwAssert | .slcPar _ _ | .aliveInterval _ | .nvWriteDone _
  | .nvSetSave => true
  | .chHw x => ascending (x.chs.map (·.val)) && ascending (x.qs.map (·.val))
  | .quadHw qs => ascending (qs.map (·.val))
  | .engHw es => ascending (es.map (·.val))
  | .memRead _ _ n x => n < 2 ^ 13 && wordOk x.bad (n / 4) && ascending x.fixed
  | .memWrite _ _ n ws => n < 2 ^ 13 && ws.length = (n + 3) / 4
  | .registerWrite _ a _ => a.toNat % 4 = 0
  | .frameLoRead _ | .sclkCfgWrite _ _ | .flenWrite _ _ | .syncCfgWrite _ _
  | .modeRequest _ _ => true
  | .headgateWrite _ o _ => o.toNat % 4 = 0
  | .engineRegisterWrite _ _ o _ => o.toNat % 4 = 0
  | .pramWordWrite _ _ _ | .matchWrite _ _ _ | .wcsDataWrite _ _ | .playerCfgWrite _ _ _ => true
  | .ringReset _ _ v => v.getLsbD 31
  | .ringArm _ _ v => v.getLsbD 30
  | .ringLwmWrite _ _ _ | .quadRequest _ _ _ => true
  | .substitutionRequest _ _ v => v.getLsbD 31 && !v.getLsbD 30
  | .restoreRequest _ _ v => v.getLsbD 31 && v.getLsbD 30
  | .firSwap _ _ _ v => v.getLsbD 31
  | .firCoefWrite _ _ _ _ _ _ => true
  | .acqArm _ _ v => v.getLsbD 31
  | .acqAbort _ _ v => v.getLsbD 30
  | .acqForce _ _ v => v.getLsbD 29
  | .tdcOpen _ _ _ v => v.getLsbD 31
  | .tdcClose _ _ _ v => v.getLsbD 30
  | .tdcRdWrite _ _ _ _ | .limitEntryWrite _ _ | .ledgerAck _ _ => true
  | .ledgerClear _ v => v.getLsbD 31
  | .faultAck _ _ v => v.getLsbD 30
  | .faultForce _ _ v => v.getLsbD 29
  | .powerRequest _ o _ => [0, 4, 8, 0xC, 0x10, 0x20, 0x24, 0x28, 0x2C].contains o.toNat
  | .routeWrite _ a _ => a.toNat % 4 = 0 && routeAddr a.toNat
  | .idGet c => cmdOk c
  | .modeSet c => cmdOk c
  | .enterRecovery c => cmdOk c
  | .loadCrc c => cmdOk c
  | .loadCrcDone => true
  | .cisFill c => cmdOk c
  | .cisFillDone => true
  | .mapClear c => cmdOk c
  | .runStart c => cmdOk c
  | .runStop c => cmdOk c
  | .runPause c => cmdOk c
  | .runResume c => cmdOk c
  | .fltRead c => cmdOk c
  | .fltAck c => cmdOk c
  | .repairRead c => cmdOk c
  | .repairRetire c => cmdOk c
  | .repairClear c => cmdOk c
  | .calQuad c => cmdOk c
  | .calQuadDone _ => true
  | .calFull c => cmdOk c
  | .calFullDone _ => true
  | .nvInfo c => cmdOk c
  | .patchSave c => cmdOk c
  | .patchErase c => cmdOk c
  | .pwrSet c => cmdOk c
  | .pwrGroups c => cmdOk c
  | .quadState c => cmdOk c
  | .thmSet c => cmdOk c
  | .thmSave c => cmdOk c
  | .epoch c => cmdOk c
  | .dsync c => cmdOk c
  | .fullReset c => cmdOk c
  | .unknownCommand k c => !catalogue.contains k.toNat && cmdOk c
  | .ctrlFlit _ _ | .replayTimeout _ | .codewordUncorrectable _ _ | .laneTrainDone _
  | .laneTrainTimeout _ | .laneLockLoss _ | .ntfySend | .mspiCmd _
  | .mspiCpl => true
  | .mspiRd _ n x => wordOk x.bad n.toNat && ascending x.fixed
  | .mspiWr _ _ | .mspiStat | .mspiBadOpcode | .bypass
  | .idcode | .samplePreload | .extest | .clamp
  | .highz | .extestPulse | .extestTrain | .powerLoss
  | .railInRange _ | .domainFail _ | .currentLimit _ _ | .pmuClamp _
  | .tbusRelease _ | .flitCrcFail _ _ | .proto _ _ => true

end Sys2Proof
end

