-- ==== Sys2Proof/Tests/Slice0.lean ====
section
/-! SUPPORT. The model's own tests: ill-formed commands are refused, the hypotheses of every statement are met by
a concrete state (at the bounds of their ranges), and single steps give what the spec's rules give by hand. -/



namespace Sys2Proof.Tests

set_option Elab.async false

open Sys2Proof Sys2Proof.Machine

/-! ### Small states -/

/-- The device of a step that answered a next state. -/
def aft (o : Host.Outcome State Fault Refusal) : Dev :=
  match o with
  | .next t => t.toDev
  | .fault _ => Dev.reset
  | .refused _ => Dev.reset

/-- A device as a state with no command waiting. -/
def st (d : Dev) : State := { toDev := d, pending := [] }

/-- Link-up is done, SCLK is locked, and the device stands in a mode. -/
def up (m : Mode) : Dev :=
  { Dev.reset with
    sys := { Dev.reset.sys with mode := m, boot := .done, mspi := true, resetLow := false },
    clk := { Dev.reset.clk with locked := true, ticked := true, ref := true } }

/-- Site 0 of pins 0 and 1, home player 0, served by engine 0, which runs: mode M7. -/
def rig : Dev :=
  let d := up .mixed
  let d := (d.wr (aHgt 0) 0x80000000).wr (aHgt 4) 0x80000001
  let d := d.wr (aSiteCfg 0) 0x80000002
  let d := d.onSite 0 (fun x => { x with mapped := true, member := .home })
  d.onEng 0 (fun g => { g with st := .running })

/-- The rig with an instruction at PC. -/
def ins (op a b fl : Nat) (imm : W) (d : Dev := rig) : State :=
  let o := 8 * d.pc 0
  st ((d.setWord (aPgm 0 o) imm).setWord (aPgm 0 (o + 4)) (wn (op * 2 ^ 24 + a * 2 ^ 16 + b * 2 ^ 8 + fl)))

/-- Every fetch is clean. -/
def ok : Fetch := { pgm := .clean, ucode := [], scr := false, upto := none, pos := 0 }

def runsB (s : Dev) (e : Nat) (f : Fetch) (o : Nat) : Bool :=
  s.executing e && decide (f.pgm = .clean) && decide (f.ucode = []) && decide (f.upto = none) && !(s.eng e).mid &&
    decide ((s.insAt e).op = o) && !s.altered o

theorem runs_of {s : Dev} {e : Nat} {f : Fetch} {o : Nat} (h : runsB s e f o = true) : s.Runs e f o := by
  simp only [runsB, Bool.and_eq_true, decide_eq_true_eq, Bool.not_eq_true'] at h
  exact ⟨h.1.1.1.1.1.1, h.1.1.1.1.1.2, h.1.1.1.1.2, h.1.1.1.2, h.1.1.2, h.1.2, h.2⟩

theorem runsClean_of {s : Dev} {e : Nat} {f : Fetch} {o : Nat} (h : (runsB s e f o && !(s.insAt e).mbz) = true) :
    s.RunsClean e f o := by
  rw [Bool.and_eq_true] at h
  exact ⟨runs_of h.1, by simpa using h.2⟩

theorem clean_of {s : Dev} {x : Nat} (h : (!s.unackAt x && decide (s.flt.joined = [])) = true) : s.Clean x := by
  simp only [Bool.and_eq_true, decide_eq_true_eq, Bool.not_eq_true'] at h
  exact ⟨h.1, h.2⟩

/-! ### Well-formedness refuses (one ill-formed term for each check) -/

def c0 : Cmd := { via := .mspi, tag := 0, tgt := none, plen := 0, params := [] }
def h0 : Hdr := { via := .link 0, tag := 0 }

theorem test_wellFormed_refuses :
    Instr.wellFormed (.selfTestEnd { romBad := false, badBanks := [3, 3], badClusters := [], fatal := none, nv := [] }) = false ∧
    Instr.wellFormed (.frameTick [2, 1]) = false ∧ Instr.wellFormed (.modeSwitch [0, 0]) = false ∧
    Instr.wellFormed (.dpsMonitor [⟨1, 0, 0, 0⟩, ⟨0, 0, 0, 0⟩]) = false ∧
    Instr.wellFormed (.dpsPowerSum [⟨1, 0, 0, 0⟩, ⟨1, 0, 0, 0⟩]) = false ∧
    Instr.wellFormed (.failQueueDrain [5, 4]) = false ∧ Instr.wellFormed (.bankCopyDone 0 [1, 1]) = false ∧
    Instr.wellFormed (.streamRecord 0 ⟨0, 0, 0, 0, false, [1]⟩) = false ∧
    Instr.wellFormed (.tdcEdge 0 6 0 0) = false ∧ Instr.wellFormed (.memRead h0 0 4 ⟨some 1, []⟩) = false ∧
    Instr.wellFormed (.memRead h0 0 8192 ⟨none, []⟩) = false ∧ Instr.wellFormed (.memWrite h0 0 8 [1]) = false ∧
    Instr.wellFormed (.mspiRd 0 2 ⟨some 2, []⟩) = false ∧ Instr.wellFormed (.headgateWrite h0 2 0) = false ∧
    Instr.wellFormed (.engineRegisterWrite h0 0 1 0) = false ∧ Instr.wellFormed (.registerWrite h0 2 0) = false ∧
    Instr.wellFormed (.routeWrite h0 0 ⟨0, 0⟩) = false ∧ Instr.wellFormed (.powerRequest h0 0x14 0) = false ∧
    Instr.wellFormed (.chHw ⟨[1, 0], []⟩) = false ∧ Instr.wellFormed (.chHw ⟨[], [2, 2]⟩) = false ∧ Instr.wellFormed (.quadHw [1, 0]) = false ∧
    Instr.wellFormed (.engHw [1, 0]) = false ∧ Instr.wellFormed (.memRead h0 0 8 ⟨none, [1, 0]⟩) = false ∧
    Instr.wellFormed (.mspiRd 0 2 ⟨none, [1, 1]⟩) = false ∧ Instr.wellFormed (.compareStrobe 0 0 0 ⟨true, []⟩ ⟨true, [true]⟩ true true) = false := by decide

theorem test_wellFormed_needs_the_request_bit :
    Instr.wellFormed (.ringReset h0 0 0) = false ∧ Instr.wellFormed (.ringArm h0 0 0) = false ∧
    Instr.wellFormed (.substitutionRequest h0 0 0xC0000000) = false ∧
    Instr.wellFormed (.restoreRequest h0 0 0x80000000) = false ∧ Instr.wellFormed (.firSwap h0 0 0 0) = false ∧
    Instr.wellFormed (.acqArm h0 0 0) = false ∧ Instr.wellFormed (.acqAbort h0 0 0) = false ∧
    Instr.wellFormed (.acqForce h0 0 0) = false ∧ Instr.wellFormed (.tdcOpen h0 0 0 0) = false ∧
    Instr.wellFormed (.tdcClose h0 0 0 0) = false ∧ Instr.wellFormed (.ledgerClear h0 0) = false ∧
    Instr.wellFormed (.faultAck h0 0 0) = false ∧ Instr.wellFormed (.faultForce h0 0 0) = false ∧
    Instr.wellFormed (.idGet { c0 with plen := 4 }) = false ∧ Instr.wellFormed (.idGet { c0 with plen := 4096 }) = false ∧
    Instr.wellFormed (.unknownCommand 0x10 c0) = false := by decide

theorem test_wellFormed_admits :
    Instr.wellFormed (.idGet c0) = true ∧ Instr.wellFormed (.unknownCommand 0x12 c0) = true ∧
    Instr.wellFormed (.memRead h0 0 4 ⟨some 0, []⟩) = true ∧ Instr.wellFormed (.memWrite h0 0 8 [1, 2]) = true ∧
    Instr.wellFormed (.faultForce h0 0 0x20000000) = true ∧ Instr.wellFormed (.frameTick [1, 2]) = true := by decide

/-! ### The table gives no word bits; the whole step -/

theorem test_table_words_spell_nothing : decodeTableWord 32 0xFFFFFFFF = none := by decide

theorem test_step_takes_the_front :
    (match step { State.reset with pending := [.powerOn, .refLoss] } with
      | .next t => t.pending
      | .fault _ => []
      | .refused _ => []) = [.refLoss] := by decide +kernel

theorem witness_EmptyQueueIdles : State.reset.pending = [] := by decide

/-- A state that meets the invariant, not the one after reset. -/
theorem witness_Inv : (st (up .idle)).Inv where
  canon := by constructor <;> decide +kernel
  settled := by
    constructor
    · intro _; rfl
    · intro r h
      have e : (st (up .idle)).sys.req = none := rfl
      rw [e] at h; cases h
    · intro h; exact absurd h (by decide +kernel)

theorem witness_EveryStepKeepsInvariant :
    ∃ s t : State, s.Inv ∧ step s = .next t :=
  ⟨st (up .idle), st (up .idle), witness_Inv, rfl⟩

theorem witness_ModesStrapsAndFrameMoveOnlyAsStated :
    ∃ (c : Instr) (s t : State), s.Inv ∧ exec c s = .next t ∧ t.sys.mode = .reset :=
  ⟨.powerOn, st (up .idle), _, witness_Inv, rfl, by decide +kernel⟩

/-! ### Engines: arithmetic and flow (R79-R81, R85) -/

/-- 0xFFFFFFFF + 1 in register 36, the last one an instruction writes, with register 45 the last one it reads. -/
def aluS (op fl : Nat) (a b : W) : State := ins op 31 30 fl b ((rig.wr (aEng 0 (0x40 + 4 * 31)) a).wr (aEng 0 (0x40 + 4 * 30)) b)

theorem witness_AddAndSubSetResultAndFlags :
    (aluS 0x11 0 0xFFFFFFFF 1).RunsClean 0 ok 0x11 ∧ (aluS 0x12 1 0 1).RunsClean 0 ok 0x12 ∧
    (ins 0x11 36 45 0 0).RunsClean 0 ok 0x11 ∧ (ins 0x11 36 45 0 0).pc 0 < 32767 := by
  refine ⟨runsClean_of ?_, runsClean_of ?_, runsClean_of ?_, ?_⟩ <;> decide +kernel

theorem test_add_and_sub :
    (aft (exec (.add 0 ok) (aluS 0x11 0 0xFFFFFFFF 1))).reg 0 31 = 0 ∧
    (aft (exec (.add 0 ok) (aluS 0x11 0 0xFFFFFFFF 1))).rd (aEng 0 0xC) = 5 ∧
    (aft (exec (.add 0 ok) (aluS 0x11 1 0x7FFFFFFF 1))).rd (aEng 0 0xC) = 0xA ∧
    (aft (exec (.sub 0 ok) (aluS 0x12 1 0 1))).reg 0 31 = 0xFFFFFFFF ∧
    (aft (exec (.sub 0 ok) (aluS 0x12 1 0 1))).rd (aEng 0 0xC) = 2 ∧
    (aft (exec (.sub 0 ok) (aluS 0x12 1 0x80000000 1))).rd (aEng 0 0xC) = 0xC := by decide +kernel

theorem witness_LogicalOpsAndShiftsSetResultAndFlags :
    (aluS 0x13 0 5 3).RunsClean 0 ok 0x13 ∧ (aluS 0x14 0 5 3).RunsClean 0 ok 0x14 ∧ (aluS 0x15 0 5 3).RunsClean 0 ok 0x15 ∧
    (aluS 0x16 1 5 31).RunsClean 0 ok 0x16 ∧ (aluS 0x17 3 0x80000000 32).RunsClean 0 ok 0x17 := by
  refine ⟨runsClean_of ?_, runsClean_of ?_, runsClean_of ?_, runsClean_of ?_, runsClean_of ?_⟩ <;> decide +kernel

theorem test_logic_and_shifts :
    (aft (exec (.and 0 ok) (aluS 0x13 0 5 3))).reg 0 31 = 1 ∧ (aft (exec (.or 0 ok) (aluS 0x14 0 5 3))).reg 0 31 = 7 ∧
    (aft (exec (.xor 0 ok) (aluS 0x15 0 5 3))).reg 0 31 = 6 ∧ (aft (exec (.shl 0 ok) (aluS 0x16 1 5 31))).reg 0 31 = 0x80000000 ∧
    (aft (exec (.shr 0 ok) (aluS 0x17 1 0x80000000 31))).reg 0 31 = 1 ∧
    (aft (exec (.shr 0 ok) (aluS 0x17 3 0x80000000 31))).reg 0 31 = 0xFFFFFFFF ∧
    (aft (exec (.shr 0 ok) (aluS 0x17 3 0x80000000 32))).reg 0 31 = 0x80000000 := by decide +kernel

theorem witness_ComparesSetOnlyFlags :
    (aluS 0x18 0 1 1).RunsClean 0 ok 0x18 ∧ (aluS 0x19 0 0x7FC00000 1).RunsClean 0 ok 0x19 ∧
    f32IsNaN 0x7FC00000 = true ∧ f32IsNaN 0x3F800000 = false := by
  refine ⟨runsClean_of ?_, runsClean_of ?_, ?_, ?_⟩ <;> decide +kernel

theorem test_compares :
    (aft (exec (.cmp 0 ok) (aluS 0x18 0 1 1))).rd (aEng 0 0xC) = 5 ∧
    (aft (exec (.fcmp 0 ok) (aluS 0x19 0 0x7FC00000 1))).rd (aEng 0 0xC) = 0x20 ∧
    (aft (exec (.fcmp 0 ok) (aluS 0x19 0 0xBF800000 0x3F800000))).rd (aEng 0 0xC) = 2 ∧
    (aft (exec (.fcmp 0 ok) (aluS 0x19 0 0x80000000 0))).rd (aEng 0 0xC) = 1 := by decide +kernel

theorem witness_MoviMovesItsFourForms :
    (ins 0x10 36 0 0 7).RunsClean 0 ok 0x10 ∧ (ins 0x10 36 45 1 7).RunsClean 0 ok 0x10 ∧
    (ins 0x10 0 1 2 16380).RunsClean 0 ok 0x10 ∧ (ins 0x10 45 1 3 16380).RunsClean 0 ok 0x10 := by
  refine ⟨runsClean_of ?_, runsClean_of ?_, runsClean_of ?_, runsClean_of ?_⟩ <;> decide +kernel

theorem test_movi :
    (aft (exec (.movi 0 ok) (ins 0x10 5 0 0 7))).reg 0 5 = 7 ∧
    (aft (exec (.movi 0 ok) (ins 0x10 5 6 1 7 (rig.wr (aEng 0 0x58) 3)))).reg 0 5 = 10 ∧
    (aft (exec (.movi 0 ok) (ins 0x10 6 7 3 8 (rig.wr (aEng 0 0x58) 3)))).scrWord 0 8 = 3 := by decide +kernel

theorem witness_FlowInstructionsSetPc :
    (ins 0x01 0 0 0 32767).RunsClean 0 ok 0x01 ∧ (ins 0x02 0 0 0 9).RunsClean 0 ok 0x02 ∧
    (condOf 0 ((ins 0x02 0 0 0 9).rd (aEng 0 0xC)) ((ins 0x02 0 0 0 9).lastStatus 0)).isSome = true ∧
    (ins 0x03 0 0 0 9).RunsClean 0 ok 0x03 ∧
    (ins 0x04 0 0 0 0 (rig.onEng 0 (fun g => { g with stack := [3] }))).RunsClean 0 ok 0x04 ∧
    (ins 0x05 3 0 0 9).RunsClean 0 ok 0x05 := by
  refine ⟨runsClean_of ?_, runsClean_of ?_, ?_, runsClean_of ?_, runsClean_of ?_, runsClean_of ?_⟩ <;> decide +kernel

theorem test_flow :
    (aft (exec (.br 0 ok) (ins 0x01 0 0 0 32767))).pc 0 = 32767 ∧
    (aft (exec (.call 0 ok) (ins 0x03 0 0 0 9))).pc 0 = 9 ∧ ((aft (exec (.call 0 ok) (ins 0x03 0 0 0 9))).eng 0).stack = [1] ∧
    (aft (exec (.ret 0 ok) (ins 0x04 0 0 0 0 (rig.onEng 0 (fun g => { g with stack := [3] }))))).pc 0 = 3 ∧
    (aft (exec (.loop 0 ok) (ins 0x05 0 0 0 9 (rig.wr (aEng 0 0xC0) 2)))).pc 0 = 9 ∧
    (aft (exec (.loop 0 ok) (ins 0x05 0 0 0 9 (rig.wr (aEng 0 0xC0) 1)))).pc 0 = 1 ∧
    (aft (exec (.brc 0 ok) (ins 0x02 0 0 0 9))).pc 0 ≤ 9 := by decide +kernel

/-- A step is open on site 0. -/
def stp : Step :=
  { id := 7, serial := 1, begun := true, fails := 0, drops := 0, limFail := false, quota := 4, logs := [], kept := [] }
def open0 : Dev := rig.onSite 0 (fun x => { x with step := some stp, serial := 1 })

theorem witness_YieldAndHaltLeaveTheFrame :
    (ins 0x07 0 0 0 0).RunsClean 0 ok 0x07 ∧ ((ins 0x07 0 0 0 0).eng 0).phase = .exec ∧
    (ins 0x06 0 0 0 0 open0).RunsClean 0 ok 0x06 ∧ (ins 0x06 0 0 0 0 open0).flag 0 13 = false ∧
    (ins 0x06 0 0 0 0 open0).siteOf 0 = some 0 ∧ ((ins 0x06 0 0 0 0 open0).eng 0).uchunk = 0 := by
  refine ⟨runsClean_of ?_, ?_, runsClean_of ?_, ?_⟩ <;> decide +kernel

theorem test_yield_and_halt :
    ((aft (exec (.yield 0 ok) (ins 0x07 0 0 0 0))).eng 0).phase = .yielded 1 ∧
    ((aft (exec (.yield 0 ok) (ins 0x07 0 0 0 65535))).eng 0).phase = .yielded 65535 ∧
    ((aft (exec (.halt 0 ok) (ins 0x06 0 0 0 0 open0))).eng 0).st = .halted ∧
    ((aft (exec (.halt 0 ok) (ins 0x06 0 0 0 0 open0))).site 0).ended.isSome = true := by decide +kernel

/-- Site 0 has a throttle demand of 3 and its player dwells. -/
def hot : Dev := rig.onSite 0 (fun x => { x with demand := 3 })

theorem witness_TpointDwellsOnDemand :
    (ins 0x08 0 0 0 0).RunsClean 0 ok 0x08 ∧ (ins 0x08 0 0 0 0).siteOf 0 = some 0 ∧ (ins 0x08 0 0 0 0).tpDemand 0 = 0 ∧
    (ins 0x08 0 0 0 0 hot).RunsClean 0 ok 0x08 ∧ (ins 0x08 0 0 0 0 hot).tpDemand 0 = 3 ∧
    (ins 0x08 0 0 0 0 hot).pDwell 0 = true ∧ ((ins 0x08 0 0 0 0 hot).eng 0).uchunk = 0 := by
  refine ⟨runsClean_of ?_, ?_, ?_, runsClean_of ?_, ?_, ?_, ?_⟩ <;> decide +kernel

theorem test_tpoint :
    ((aft (exec (.tpoint 0 ok) (ins 0x08 0 0 0 0 hot))).eng 0).phase = .yielded 4 ∧
    ((aft (exec (.tpoint 0 ok) (ins 0x08 0 0 0 0))).site 0).tpHit = true := by decide +kernel

/-! ### Engines: staged instructions, steps and results -/

/-- Staged, and its PC. -/
def stagedOf (t : Dev) : List EngOp × Nat := (t.stage.eng.map (·.op), t.pc 0)

theorem witness_PatternInstructionsStage :
    (ins 0x20 0 0 0 65535).RunsClean 0 ok 0x20 ∧ (ins 0x21 0 255 0 5).RunsClean 0 ok 0x21 ∧
    (ins 0x22 0 0 0 0).RunsClean 0 ok 0x22 ∧ (ins 0x23 0 0 0 5).RunsClean 0 ok 0x23 ∧ (ins 0x23 0 0 1 5).RunsClean 0 ok 0x23 ∧
    (ins 0x24 2 1 0 0).RunsClean 0 ok 0x24 ∧ (ins 0x20 0 0 0 65535).segModeIll 0 65535 = false ∧
    ((ins 0x20 0 0 0 65535).eng 0).staged < 16 ∧ (ins 0x24 2 1 0 0).npin 0 = 2 ∧ Mode.mixed.enables 3 = true ∧
    (condOf 0 ((ins 0x23 0 0 0 5).rd (aEng 0 0xC)) ((ins 0x23 0 0 0 5).lastStatus 0)).isSome = true := by
  refine ⟨runsClean_of ?_, runsClean_of ?_, runsClean_of ?_, runsClean_of ?_, runsClean_of ?_, runsClean_of ?_, ?_⟩ <;>
    decide +kernel

theorem test_pattern :
    stagedOf (aft (exec (.play 0 ok) (ins 0x20 0 0 0 65535))) = ([.play 65535], 1) ∧
    stagedOf (aft (exec (.join 0 ok) (ins 0x21 0 255 0 5))) = ([.join 5 255], 1) ∧
    stagedOf (aft (exec (.detach 0 ok) (ins 0x22 0 0 0 0))) = ([.detach false], 1) ∧
    stagedOf (aft (exec (.dwell 0 ok) (ins 0x24 2 1 0 0))) = ([.dwell 2 1], 1) ∧
    (aft (exec (.segjmp 0 ok) (ins 0x23 0 0 0 5))).pc 0 = 1 := by decide +kernel

theorem witness_ChannelInstructionsStage :
    (ins 0x30 4 128 0 0).RunsClean 0 ok 0x30 ∧ levelOk 0 = true ∧ (ins 0x31 0 1 0 255).RunsClean 0 ok 0x31 ∧
    (ins 0x32 0 0 0 0).RunsClean 0 ok 0x32 ∧ forceOk 0 0 0 = true ∧ forceIll .mixed 0 0 = false ∧
    (ins 0x33 1 1 0 2).RunsClean 0 ok 0x33 ∧ (ins 0x33 1 1 0 2).gangOk 0 1 2 = true ∧
    (ins 0x42 4 128 20 0x00010000).RunsClean 0 ok 0x42 ∧ Mode.mixed.enables 2 = true ∧ Mode.mixed.enables 6 = true ∧
    Mode.mixed.enables 9 = true := by
  refine ⟨runsClean_of ?_, ?_, runsClean_of ?_, runsClean_of ?_, ?_, ?_, runsClean_of ?_, ?_, runsClean_of ?_, ?_⟩ <;>
    decide +kernel

theorem test_channel :
    stagedOf (aft (exec (.level 0 ok) (ins 0x30 4 128 0 0))) = ([.level 4 128 0], 1) ∧
    stagedOf (aft (exec (.tset 0 ok) (ins 0x31 0 1 3 255))) = ([.tset 0 1 3 255], 1) ∧
    stagedOf (aft (exec (.force 0 ok) (ins 0x32 0 0 0 0))) = ([.force 0 0 0 0], 1) ∧
    stagedOf (aft (exec (.gang 0 ok) (ins 0x33 1 1 0 2))) = ([.gang true 1 2], 1) ∧
    stagedOf (aft (exec (.winset 0 ok) (ins 0x42 4 128 20 0x0FFF0FFE))) = ([.winset 4 128 20 0xFFF 0xFFE], 1) := by
  decide +kernel

theorem witness_MeasurementInstructionsStage :
    (ins 0x34 31 1 3 65535).RunsClean 0 ok 0x34 ∧ (ins 0x40 7 1 0 0).RunsClean 0 ok 0x40 ∧
    (ins 0x41 3 1 8 15).RunsClean 0 ok 0x41 ∧ (ins 0x41 3 1 8 15).pin? 0 1 = some 1 ∧ (ins 0x41 3 1 8 15).tdcOk 0 3 8 15 = true ∧
    Mode.mixed.enables 7 = true ∧ Mode.mixed.enables 8 = true ∧ Mode.mixed.enables 10 = true ∧ Mode.mixed.enables 4 = true := by
  refine ⟨runsClean_of ?_, runsClean_of ?_, runsClean_of ?_, ?_⟩ <;> decide +kernel

theorem test_measurement :
    stagedOf (aft (exec (.meas 0 ok) (ins 0x34 31 1 3 65535 open0))) = ([.meas 31 1 3 65535 (some 1)], 1) ∧
    ((aft (exec (.meas 0 ok) (ins 0x34 31 1 3 65535 open0))).site 0).slot 31 = { ((st open0).site 0).slot 31 with ready := false } ∧
    stagedOf (aft (exec (.acqarm 0 ok) (ins 0x40 7 1 0 0))) = ([.acqarm 7 1 0], 1) ∧
    stagedOf (aft (exec (.tdcopen 0 ok) (ins 0x41 3 1 8 15))) = ([.tdcopen 3 1 8 15 none], 1) := by decide +kernel

/-- Slot 31 of site 0 is ready with a value. -/
def slot31 : Dev := (aft (exec (.getm 0 ok) (ins 0x35 2 31 1 0 (rig.wr (aEng 0 0x48) 9)))).setPc 0 0

theorem witness_GetmReadsAndPutsSlots :
    (ins 0x35 36 31 0 0 slot31).RunsClean 0 ok 0x35 ∧ (((ins 0x35 36 31 0 0 slot31).site 0).slot 31).ready = true ∧
    (ins 0x35 45 31 1 0).RunsClean 0 ok 0x35 ∧
    (ins 0x35 2 30 0 0 (rig.onSite 0 (fun x => { x with slots := [(30, { value := 0, ready := false, owner := none })] }))).RunsClean 0 ok 0x35 := by
  refine ⟨runsClean_of ?_, ?_, runsClean_of ?_, runsClean_of ?_⟩ <;> decide +kernel

theorem test_getm :
    (aft (exec (.getm 0 ok) (ins 0x35 5 31 0 0 slot31))).reg 0 5 = 9 ∧
    (aft (exec (.getm 0 ok) (ins 0x35 5 30 0 0
      (rig.onSite 0 (fun x => { x with slots := [(30, { value := 0, ready := false, owner := none })] }))))).flag 0 6 = true := by
  decide +kernel

theorem witness_StepEndsAndOpensSteps :
    (ins 0x50 0 0 0 7).RunsClean 0 ok 0x50 ∧ (ins 0x50 0 0 1 0 open0).RunsClean 0 ok 0x50 ∧ (ins 0x50 0 0 0 7).flag 0 13 = false ∧
    (ins 0x50 0 0 0 7 (rig.setFlag 0 13 true)).RunsClean 0 ok 0x50 ∧ (ins 0x50 0 0 0 7 (rig.setFlag 0 13 true)).flag 0 13 = true ∧
    ((ins 0x50 0 0 0 7).eng 0).uchunk = 0 ∧ ((ins 0x50 0 0 1 0 open0).site 0).step = some stp := by
  refine ⟨runsClean_of ?_, runsClean_of ?_, ?_, runsClean_of ?_, ?_⟩ <;> decide +kernel

theorem test_step :
    (((aft (exec (.step 0 ok) (ins 0x50 0 0 0 65535))).site 0).step.map (·.id)) = some 65535 ∧
    ((aft (exec (.step 0 ok) (ins 0x50 0 0 1 0 open0))).site 0).step = none ∧
    ((aft (exec (.step 0 ok) (ins 0x50 0 0 1 0 open0))).site 0).ended = some stp ∧
    ((aft (exec (.step 0 ok) (ins 0x50 0 0 0 7 (rig.setFlag 0 13 true)))).eng 0).phase = .yielded 1 := by decide +kernel

/-- Limit entry 16383 is 0.0 to 1.0. -/
def lim : Dev := open0.setLimit 16383 (0, 0x3F800000)

theorem witness_LimitBinAndVoidhHold :
    (ins 0x51 45 0 1 16383 lim).RunsClean 0 ok 0x51 ∧ (ins 0x52 0 0 0 255).RunsClean 0 ok 0x52 ∧
    (ins 0x54 0 0 1 32767).RunsClean 0 ok 0x54 := by
  refine ⟨runsClean_of ?_, runsClean_of ?_, runsClean_of ?_⟩ <;> decide +kernel

theorem test_limit_bin_voidh :
    (aft (exec (.limit 0 ok .clean) (ins 0x51 2 0 1 16383 (lim.wr (aEng 0 0x48) 0x3F800000)))).flag 0 8 = false ∧
    (aft (exec (.limit 0 ok .clean) (ins 0x51 2 0 1 16383 (lim.wr (aEng 0 0x48) 0x3F800001)))).flag 0 8 = true ∧
    (aft (exec (.limit 0 ok .clean) (ins 0x51 2 0 1 16383 (lim.wr (aEng 0 0x48) 0x7FC00000)))).flag 0 8 = true ∧
    ((aft (exec (.bin 0 ok) (ins 0x52 0 0 0 255))).site 0).bin = some 255 ∧
    (aft (exec (.voidh 0 ok) (ins 0x54 0 0 1 32767))).rd (aEng 0 0x18) = 0x80007FFF := by decide +kernel

theorem witness_LogfCountsAndLogs :
    (ins 0x53 0 1 0 3).RunsClean 0 ok 0x53 ∧ (ins 0x53 0 1 7 3 open0).RunsClean 0 ok 0x53 ∧
    ((ins 0x53 0 1 7 3 open0).site 0).step = some stp ∧ (ins 0x53 0 1 7 3 open0).led.logs = 0 ∧
    (ins 0x53 0 1 7 3 open0).led.offers = [] := by
  refine ⟨runsClean_of ?_, runsClean_of ?_, ?_⟩ <;> decide +kernel

theorem test_logf :
    (((aft (exec (.logf 0 ok) (ins 0x53 0 1 7 3 open0))).site 0).step.map (fun p => (p.fails, p.logs.length))) = some (1, 1) := by
  decide +kernel

theorem witness_EmitAndWaiteUseLines :
    (ins 0x60 255 0 0 0).RunsClean 0 ok 0x60 ∧ (ins 0x60 15 1 1 0).RunsClean 0 ok 0x60 ∧ (ins 0x60 15 1 1 0).pin? 0 1 = some 1 ∧
    (ins 0x61 255 0 2 0xFFFFFF).RunsClean 0 ok 0x61 ∧ ((ins 0x61 255 0 2 0xFFFFFF).eng 0).uchunk = 0 := by
  refine ⟨runsClean_of ?_, runsClean_of ?_, ?_, runsClean_of ?_, ?_⟩ <;> decide +kernel

theorem test_emit_and_waite :
    stagedOf (aft (exec (.emit 0 ok) (ins 0x60 255 0 0 0))) = ([.emit (.global 255)], 1) ∧
    stagedOf (aft (exec (.emit 0 ok) (ins 0x60 15 1 1 0))) = ([.emit (.loc 0 15)], 1) ∧
    ((aft (exec (.waite 0 ok) (ins 0x61 255 0 0 9))).eng 0).phase = .waiting ∧
    ((aft (exec (.waite 0 ok) (ins 0x61 255 0 2 9))).eng 0).phase = .yielded 1 := by decide +kernel

theorem witness_IllegalInstructionsRaiseIllOp :
    (ins 0xFF 0 0 0 0).Runs 0 ok 0xFF ∧ formatOf 0xFF = none ∧ (ins 0x11 0 0 2 0).Runs 0 ok 0x11 ∧
    ((ins 0x11 0 0 2 0).insAt 0).mbz = true ∧ (ins 0x11 37 0 0 0).RunsClean 0 ok 0x11 ∧
    (ins 0x11 36 45 0 0 (rig.setPc 0 32767)).RunsClean 0 ok 0x11 ∧ (ins 0x11 36 45 0 0 (rig.setPc 0 32767)).pc 0 = 32767 ∧
    (ins 0x50 0 0 2 0).Runs 0 ok 0x50 ∧ ((ins 0x50 0 0 2 0).insAt 0).mbz = true ∧ (ins 0x50 0 0 2 0).siteOf 0 = some 0 ∧
    ((ins 0x50 0 0 2 0).eng 0).uchunk = 0 := by
  refine ⟨runs_of ?_, ?_, runs_of ?_, ?_, runsClean_of ?_, runsClean_of ?_, ?_, runs_of ?_, ?_⟩ <;> decide +kernel

theorem test_illegal :
    (aft (exec (.undefinedOpcode 0 ok) (ins 0xFF 0 0 0 0))).sticky srcIllOp = true ∧
    (aft (exec (.add 0 ok) (ins 0x11 37 0 0 0))).sticky srcIllOp = true ∧
    (aft (exec (.add 0 ok) (ins 0x11 37 0 0 0))).executing 0 = false ∧
    (aft (exec (.add 0 ok) (ins 0x11 3 0 0 0 (rig.setPc 0 32767)))).pc 0 = 0 := by decide +kernel

/-! ### Reset, supplies, boot, clock -/

/-- RESET with power: the always-on logic waits for RESET_N. -/
def cold0 : State := st { Dev.reset with sys := { Dev.reset.sys with resetLow := false } }
def booting (b : BootStage) (m : Mode) : State :=
  st { Dev.reset with sys := { Dev.reset.sys with mode := m, boot := b, resetLow := false } }

theorem witness_ResetCausesReset :
    (st (up .idle)).sys.unpowered = false ∧ hasThreshold .vddc = true ∧ (st (up .idle)).nvUnderWay = none ∧
    (aft (exec .powerLoss (st (up .idle)))).sys.unpowered = true := by decide +kernel

theorem test_reset :
    (aft (exec .resetNLow (st (up .idle)))).rd 0x900 = 1 ∧ (aft (exec (.supplyReset .vddc) (st (up .idle)))).rd 0x900 = 2 ∧
    (aft (exec (.supplyReset .vddc) (st (up .idle)))).sys.mode = .reset ∧ (aft (exec .powerOn (st (up .idle)))).rd 0x900 = 0 := by
  decide +kernel

theorem witness_BootStartSamplesStraps :
    cold0.sys.mode = .reset ∧ cold0.sys.unpowered = false ∧ (st (up .idle)).sys.mode ≠ .reset := by decide +kernel

theorem test_boot_start :
    (aft (exec (.bootStart 31 true false) cold0)).sys.mode = .boot ∧ (aft (exec (.bootStart 31 true false) cold0)).sys.devid = 31 ∧
    (aft (exec (.bootStart 31 true false) cold0)).domAsked 144 = true ∧
    (aft (exec (.bootStart 31 true false) cold0)).domAsked 176 = false := by decide +kernel

theorem witness_SelfTestEndsInTraining :
    (booting .selfTest .boot).sys.boot = .selfTest ∧ (booting .selfTest .boot).sys.mode ≠ .reset ∧
    (booting .selfTest .boot).flt.joined = [] ∧ (booting .training .boot).sys.boot ≠ .selfTest := by decide +kernel

theorem test_self_test_fatal :
    (aft (exec (.selfTestEnd { romBad := false, badBanks := [], badClusters := [], fatal := some .fabric, nv := [] })
      (booting .selfTest .boot))).sys.mode = .safe := by decide +kernel

theorem witness_LinkUpEndsBoot :
    (booting .training .boot).sys.boot = .training ∧ (booting .selfTest .boot).sys.boot ≠ .training := by decide +kernel

theorem test_link_up :
    (aft (exec (.linkUp 5) (booting .training .boot))).sys.mode = .idle ∧
    (aft (exec (.linkUp 5) (booting .training .recovery))).sys.mode = .recovery ∧
    (aft (exec (.linkUp 5) (booting .training .boot))).rd 0x914 = 5 := by decide +kernel

/-- VDDC is out of range and was reported. -/
def warned : State := st (aft (exec (.railWarn .vddc) (st (up .idle))))

theorem witness_RailsRaiseWhileOutOfRange :
    (st (up .idle)).sys.mode ≠ .reset ∧ (st (up .idle)).bit (aSrc 32) 31 = false ∧ (st (up .idle)).bit (aSrc 34) 31 = false ∧
    (st (up .idle)).bit (aSrc 33) 31 = false ∧ warned.bit (aSrc 32) 31 = true ∧
    (st { warned.toDev with sys := { warned.sys with vchBad := [true] } }).sys.warned = [.vddc] ∧ (st (up .idle)).Clean 1 ∧
    (st Dev.reset).sys.mode = .reset := by
  refine ⟨?_, ?_, ?_, ?_, ?_, ?_, clean_of ?_, ?_⟩ <;> decide +kernel

theorem test_rails :
    warned.sticky 32 = true ∧ (aft (exec (.railInRange .vddc) warned)).bit (aSrc 32) 31 = false ∧
    (aft (exec (.railInRange .vddc) warned)).sticky 32 = true ∧ (aft (exec (.vchFault true) (st (up .idle)))).sys.mode = .safe ∧
    (aft (exec (.vdpsLow 3) (st (up .idle)))).sticky 33 = true := by decide +kernel

/-- ALIVE runs. -/
def alive : State := st { up .idle with flt := { (up .idle).flt with running := true } }

theorem witness_SafeLevelFaultsEnterSafe :
    (st (up .idle)).sys.mode ≠ .reset ∧ (st (up .idle)).clk.locked = true ∧ (st (up .idle)).clk.holdover = false ∧
    alive.flt.running = true ∧ (st { up .idle with clk := { (up .idle).clk with holdover := true } }).clk.holdover = true := by decide +kernel

theorem test_safe_faults :
    (aft (exec .fabricErr (st (up .idle)))).sys.mode = .safe ∧ (aft (exec .aonFail (st (up .idle)))).sticky 354 = true ∧
    (aft (exec .fwAssert (st (up .idle)))).sticky 355 = true ∧ (aft (exec (.aliveInterval false) alive)).sys.mode = .safe ∧
    (aft (exec .sclkUnlock (st (up .idle)))).sys.mode = .safe ∧ (aft (exec (.aliveInterval true) alive)).flt.level = true := by
  decide +kernel

/-- SCLK relocks to REFCLK, in holdover. -/
def relocking (locked : Bool) : State :=
  st { up .idle with clk := { (up .idle).clk with locked := locked, relock := true, holdover := true } }

theorem witness_ReferenceLossBeginsHoldover :
    (relocking false).clk.locked = false ∧ (relocking false).sticky 0 = false ∧ (relocking false).clk.ref = true ∧
    (st (up .idle)).clk.holdover = false ∧ (st (up .idle)).bit (aSrc 0) 31 = false ∧ (relocking true).clk.holdover = true ∧
    (st ((up .idle).wr (aSrc 0) 0x80000000)).bit (aSrc 0) 31 = true ∧ (st (up .idle)).Clean 0 := by
  refine ⟨?_, ?_, ?_, ?_, ?_, ?_, ?_, clean_of ?_⟩ <;> decide +kernel

theorem test_reference :
    (aft (exec .sclkLock (relocking false))).clk.holdover = false ∧ (aft (exec .refLoss (st (up .idle)))).clk.holdover = true ∧
    (aft (exec .refLoss (st (up .idle)))).sticky 0 = true ∧ (aft (exec .refPresent (relocking true))).clk.holdover = true := by
  decide +kernel

/-- A slave with `g` good edges and `m` missed ones. -/
def slave (locked : Bool) (g m : Nat) : State :=
  st { up .idle with clk := { (up .idle).clk with captured := true, slocked := locked, good := g, miss := m } }
def master0 : State := st { up .idle with sys := { (up .idle).sys with master := true } }

theorem witness_SlaveLocksToTheCardTick :
    (slave false 3 0).sys.master = false ∧ (slave false 3 0).clk.captured = true ∧ (1 : Int).natAbs ≤ 1 ∧ 1 < (-2 : Int).natAbs ∧
    (slave true 4 3).clk.slocked = true ∧ master0.sys.master = true ∧
    (st ((up .idle).setBits (aFrm 0x10) 0x200)).bit (aFrm 0x10) 9 = true ∧ (st (up .idle)).bit (aFrm 0x10) 9 = false ∧
    (st (up .idle)).clk.captured = false ∧ (slave true 4 3).Clean 0 ∧ (slave true 4 3).srcEn 1 = true ∧ (slave true 4 2).clk.miss < 3 := by
  refine ⟨?_, ?_, ?_, ?_, ?_, ?_, ?_, ?_, ?_, clean_of ?_, ?_⟩ <;> decide +kernel

theorem test_card_tick :
    (aft (exec (.fsyncEdge 1 false) (slave false 3 0))).clk.slocked = true ∧
    (aft (exec (.fsyncEdge 1 false) (slave false 2 0))).clk.slocked = false ∧
    (aft (exec (.fsyncEdge (-2) false) (slave true 4 0))).clk.slocked = false ∧
    (aft (exec .fsyncMiss (slave true 4 3))).clk.slocked = false ∧ (aft (exec .fsyncMiss (slave true 4 2))).clk.slocked = true ∧
    (aft (exec .epochMark (st ((up .idle).setBits (aFrm 0x10) 0x200)))).clk.mark = true := by decide +kernel

/-! ### Domains, sensors, quads, supplies -/

/-- A domain is on, and good or not. -/
def dom (n : Nat) (good : Bool) : State :=
  st { up .idle with pwr := { (up .idle).pwr with on := [n], good := if good then [n] else [] } }

/-- A PWR_GROUPS of one group waits for it. -/
def lastGroup : State :=
  st { up .idle with pwr := { (up .idle).pwr with on := [160], groups := 1, job := some (jobOfCmd { c0 with plen := 4, params := [1] } 0xA1) } }

theorem witness_DomainsComeGood :
    (dom (domNum (.lane 15)) false).domOn (domNum (.lane 15)) = true ∧
    (dom (domNum (.lane 15)) false).domGood (domNum (.lane 15)) = false ∧ (dom 195 true).domGood 195 = true ∧
    domNum (.bias 3) = 195 ∧ (dom 0 false).host.waiting = [] ∧ ((dom 191 false).lane 15).st = .off ∧ (dom 0 false).domOn 1 = false ∧
    lastGroup.pwr.job.isSome = true ∧ lastGroup.pwr.asked = [] ∧ lastGroup.pwr.groups = 1 ∧ lastGroup.domOn 160 = true ∧
    lastGroup.domGood 160 = false ∧ lastGroup.host.waiting = [] := by
  decide +kernel

theorem test_domains_good :
    ((aft (exec (.domainGood (.lane 15)) (dom (domNum (.lane 15)) false))).lane 15).st = .train ∧
    ((aft (exec (.domainGood (.quad 143)) (dom 143 false))).quad 143).powering = some 0 ∧
    (aft (exec (.domainGood (.cluster 0)) (dom 144 false))).domGood 144 = true ∧
    (aft (exec (.domainGood (.group 0)) lastGroup)).host.mspiCpl.map (·.status) = [0] := by decide +kernel

theorem witness_DomainFaultsRaise :
    (dom 175 false).domOn (domNum (.group 15)) = true ∧ (dom 175 false).domGood (domNum (.group 15)) = false ∧
    (dom 160 true).domGood (domNum (.group 0)) = true ∧ (dom 175 false).sys.mode ≠ .reset ∧ domNum (.cluster 15) < 160 ∧
    (dom 0 false).Clean 1 := by
  refine ⟨?_, ?_, ?_, ?_, ?_, clean_of ?_⟩ <;> decide +kernel

theorem test_domain_faults :
    (aft (exec (.domainTimeout (.group 15)) (dom 175 false))).sys.mode = .safe ∧
    (aft (exec (.domainTimeout (.quad 0)) (dom 0 false))).sticky 35 = true ∧
    (aft (exec (.domainTimeout (.quad 0)) (dom 0 false))).sys.mode = .idle ∧
    (aft (exec (.domainFail (.bias 0)) (dom 192 true))).sys.mode = .safe ∧
    (aft (exec (.domainFail (.lane 0)) (dom 176 true))).domGood 176 = false := by decide +kernel

theorem witness_UnitFailuresRaise :
    (st (up .idle)).Clean 7 ∧ (st rig).Clean 5 ∧ (st rig).Clean 10 ∧ ((st rig).eng 0).st = .running ∧ ((st rig).eng 271).st = .off ∧
    ((st rig).tbusLine 3).pulse = none ∧ ((st (rig.setTbus 3 { tbusInit with pulse := some (0, 0, 0, .none) })).tbusLine 3).pulse ≠ none := by
  refine ⟨clean_of ?_, clean_of ?_, clean_of ?_, ?_⟩ <;> decide +kernel

theorem test_unit_failures :
    (aft (exec (.chHw ⟨[719], []⟩) (st (up .idle)))).sticky 224 = true ∧ 4 ∈ ((aft (exec (.chHw ⟨[719], []⟩) (st (up .idle)))).quad 143).faults ∧
    ((aft (exec (.quadHw [0]) (st (up .idle)))).quad 0).retire = true ∧ ((aft (exec (.engHw [0]) (st rig))).eng 0).repair = true ∧
    (aft (exec (.chHw ⟨[0, 719], [1]⟩) (st (up .idle)))).sys.mode = .idle ∧ ((aft (exec (.chHw ⟨[0, 719], [1]⟩) (st (up .idle)))).quad 1).retire = true ∧
    (aft (exec (.slcPar none 255) (st (up .idle)))).sticky 321 = true ∧ (aft (exec (.tbusStuck 3) (st (up .idle)))).sticky 320 = true := by
  decide +kernel

/-- Every domain is on and good. -/
def powered : Dev := { up .idle with pwr := { (up .idle).pwr with on := List.range 196, good := List.range 196 } }
def at25 : SensorIn := { temp := 0x41C80000, isOpen := false, isShort := false, isStuck := false, pos := 0 }

/-- Sensor 0 in a state of its own. -/
def sens (f : Sensor → Sensor) : State := st { powered with pwr := { powered.pwr with sensors := Tab.set (fun _ => sensorInit) 0 (f sensorInit) [] } }
def at110 : SensorIn := { at25 with temp := 0x42DC0000 }
def cut : SensorIn := { at25 with isOpen := true }

theorem witness_SensorsFollowTheirReadings :
    (st powered).sys.mode ≠ .reset ∧ (st powered).sensorOn 0 = true ∧ (st powered).criteria 0 at25 = [] ∧
    ((st powered).sensor 0).broken = false ∧ (st (up .idle)).sensorOn 64 = false ∧
    heldFour (((st powered).criteria 0 cut :: ((st powered).sensor 0).run).take 4) = false ∧
    (let s := sens (fun x => { x with run := [[1], [1], [1]] })
     heldFour ((s.criteria 0 cut :: (s.sensor 0).run).take 4) = true) ∧
    ((sens (fun x => { x with broken := true, clean := 14 })).sensor 0).clean < 15 ∧
    15 ≤ ((sens (fun x => { x with broken := true, clean := 15 })).sensor 0).clean ∧
    (st powered).indicates (zoneOf 0) 0 at25.temp = 0 ∧ (st powered).indicates (zoneOf 0) 0 at110.temp = 2 ∧
    (sens (fun x => { x with ind := [2, 2, 2] })).criteria 0 at110 = [] ∧
    (sens (fun x => { x with st := 1, ind := [0, 0] })).indicates (zoneOf 0) 1 at110.temp = 2 := by decide +kernel

theorem test_sensor_states :
    ((aft (exec (.sensorReading 0 at110) (sens (fun x => { x with ind := [2, 3, 1] })))).sensor 0).st = 1 ∧
    ((aft (exec (.sensorReading 0 at110) (sens (fun x => { x with ind := [2, 3] })))).sensor 0).st = 0 ∧
    ((aft (exec (.sensorReading 0 at110) (sens (fun x => { x with st := 1, ind := [0, 0] })))).sensor 0).ind = [2] ∧
    ((aft (exec (.sensorReading 0 cut) (sens (fun x => { x with run := [[1], [1], [1]] })))).sensor 0).why = 1 ∧
    ((aft (exec (.sensorReading 0 at25) (sens (fun x => { x with broken := true, clean := 15 })))).sensor 0).broken = false ∧
    ((aft (exec (.sensorReading 0 at25) (sens (fun x => { x with broken := true, clean := 14 })))).sensor 0).broken = true := by decide +kernel

theorem test_sensor : ((aft (exec (.sensorReading 0 at25) (st powered))).sensor 0).value = 0x41C80000 := by decide +kernel

/-- A DPS channel delivers and limits: circuit 0 serves pin 0, which trips after 1 unit. -/
def dps : State := st (((up .mixed).onCirc 0 (fun x => { x with dpsOn := true, limit := true, st := .inService })).wr (aPin 0 0x40) 0x100)
def watt : DpsSample := { chan := 0, volts := 0x3F800000, amps := 0x40000000, vdps := 0x40A00000 }

theorem witness_SupplyMonitorsReport :
    sumWatts ([watt].filter (fun x => (dps.circ x.chan).dpsOn)) = some (8 * 2 ^ 298) ∧ (dps.circ 0).dpsOn = true ∧
    dps.pinsOfCirc 0 = [0] ∧ dps.circOf 0 = 0 ∧ (dps.circ 0).gang = none ∧ (dps.circ 719).dpsOn = false ∧ dps.mayTrip 0 = true ∧
    (st (dps.wr (aPin 0 0x40) 0)).mayTrip 0 = false ∧ (st (dps.onCirc 0 (fun x => { x with limit := false }))).mayTrip 0 = false ∧
    dps.sys.mode ≠ .stress ∧ (st ((up .mixed).setFld (aPin 0 0x30) 2 0 1)).funcNow 0 = 1 ∧ (st (up .mixed)).funcNow 0 = 0 ∧ dps.Clean 7 := by
  refine ⟨?_, ?_, ?_, ?_, ?_, ?_, ?_, ?_, ?_, ?_, ?_, ?_, clean_of ?_⟩ <;> decide +kernel

theorem test_supply_monitors :
    (aft (exec (.dpsPowerSum [watt]) dps)).rd (aPwr 0x84) = 0x41000000 ∧ ((aft (exec (.dpsTrip 0) dps)).circ 0).dpsOn = false ∧
    (aft (exec (.dpsTrip 0) dps)).sticky 226 = true ∧ ((aft (exec (.dpsTrip 0) dps)).circ 0).bleed = true ∧
    ((aft (exec (.dpsTrip 0) (st (dps.wr (aPin 0 0x40) 0)))).circ 0).dpsOn = true ∧ ((aft (exec (.currentLimit 0 true) dps)).circ 0).limit = true ∧
    (aft (exec (.pmuClamp 0) (st ((up .mixed).setFld (aPin 0 0x30) 2 0 1)))).bit (aCh 0 4) 9 = true := by decide +kernel

/-- A STRESS frame that the monitor looks at, with circuit 0 outside its window. -/
def stressed : State :=
  st ((((up .stress).onCirc 0 (fun x => { x with dpsOn := true, st := .inService })).wr 0x114 0x401).wr (aPin 0 0x48) 0x3F000000 |>.wr (aPin 0 0x4C) 0x3F800000)

theorem witness_SupplyMonitorsReport_alarm :
    stressed.sys.mode = .stress ∧ stressed.bit 0x114 0 = true ∧
    stressed.clk.frame % 2 ^ max 4 (min 24 (stressed.fld 0x114 12 8)) = 0 ∧
    stressed.inAlarm { watt with amps := 0x7FC00000 } = false ∧ stressed.inAlarm { watt with volts := 0x3F000000, amps := 0 } = true ∧
    (stressed.circ 0).dpsOn = true ∧ stressed.Clean 7 := by
  refine ⟨?_, ?_, ?_, ?_, ?_, ?_, clean_of ?_⟩ <;> decide +kernel

/-- Quad 0 in a state of its own. -/
def quad0 (f : Quad → Quad) : State := st ((up .idle).onQuad 0 f)
def path0 (restore : Bool) : State :=
  quad0 (fun z => { z with st := .active, seq := some { c := 3, restore := restore, tick := 2, s := 3 },
                           subst := if restore then none else some 3 })

theorem witness_QuadsChangeStateAndServe :
    ((quad0 (fun z => { z with st := .parked, warm := some (.active, 255, 0) })).quad 0).warm = some (.active, 255, 0) ∧
    ((path0 false).quad 0).seq.isSome = true ∧ ((path0 true).quad 0).seq.isSome = true ∧ ((path0 false).quad 0).subst = some 3 ∧
    ((path0 false).quad 143).seq = none ∧ ((quad0 (fun z => { z with st := .parked, wakeReq := true })).quad 0).wakeReq = true ∧
    Mode.idle.permits .active = true ∧ (path0 false).host.ntfy.length < 256 ∧
    ((quad0 (fun z => { z with st := .watch, wakeReq := true })).quad 0).st ≠ .parked ∧ ((path0 false).quad 0).st = .active ∧
    ((path0 false).quad 0).wakeReq = false ∧ ((path0 false).quad 0).warm = none := by decide +kernel

theorem test_quads :
    ((aft (exec (.quadWarmDone 0) (quad0 (fun z => { z with st := .parked, warm := some (.active, 255, 0) })))).quad 0).st = .active ∧
    ((aft (exec (.substInService 0) (path0 false))).quad 0).spare = .subst ∧
    (aft (exec (.substInService 0) (path0 false))).circOf 3 = 4 ∧ (aft (exec (.substInService 0) (path0 true))).circOf 3 = 3 ∧
    ((aft (exec (.wake 0) (quad0 (fun z => { z with st := .parked, wakeReq := true })))).quad 0).wakeReq = false := by decide +kernel

/-- The weirs of quad 0 are powered; channel 0 in mode `m` (R268). -/
def weirs (w : Weir) (m : W) : State := st (((powered.onQuad 0 (fun z => { z with st := .parked })).onWeir 0 (fun _ => w)).wr (aPin 0 0x60) m)

theorem witness_WeirsJudgeTheirPins :
    ((weirs weirInit 0).weirPowered 0 = true ∧ (weirs weirInit 0).weirServes 0 = true ∧ (weirs weirInit 0).weirMode 0 ≤ 3 ∧
      ((weirs weirInit 0).weir 0).settling = false) ∧ (weirs weirInit 0).weirServes 4 = false ∧
    ((weirs { weirInit with settling := true } 0).weir 0).settling = true ∧ (weirs weirInit 0).weirSamples 0 = false := by
  decide +kernel

theorem witness_WeirsJudgeTheirPins_sampled :
    (weirs weirInit 4).weirSamples 0 = true ∧ 3 < (weirs weirInit 4).weirMode 0 := by decide +kernel

theorem test_weir_settled_and_spare :
    ((aft (exec (.weirSettled 0 ⟨0, 0⟩ (-1)) (weirs { weirInit with st := .inside, settling := true } 0))).weir 0) =
      { st := .below, unsettled := false, settling := false } ∧
    (aft (exec (.weirChange 4 ⟨0, 0⟩ 100) (weirs weirInit 0))).weir 4 = weirInit ∧
    ((aft (exec (.weirSample 0 ⟨0, 0⟩ (-1)) (weirs weirInit 4))).weir 0).unsettled = true := by decide +kernel

theorem test_weir :
    ((aft (exec (.weirChange 0 ⟨0, 0⟩ 100) (weirs weirInit 0))).weir 0).unsettled = true ∧
    ((aft (exec (.weirChange 0 ⟨0, 0⟩ (-1)) (weirs { weirInit with st := .inside } 0))).weir 0).st = .below ∧
    (aft (exec (.weirChange 0 ⟨0, 0⟩ (-1)) (weirs { weirInit with st := .inside } 0))).bit (aCh 0 0x68) 29 = true := by decide +kernel

/-! ### Sluice, chains, TDCs, players, cistern -/

/-- Global line 255 takes the High crossing of channel 719. -/
def line255 : Dev := rig.wr (aSlc 0xFF0) 0x112CF
def inFlight : State :=
  st { rig.onEng 0 (fun g => { g with phase := .waiting, wait := some (.global 255) }) with
    slc := { rig.slc with flights := [{ line := .global 255, edge := 9, tag := 288, by_ := .none, tbus := none, dest := [.wait 0] }] } }

/-- Bus line 3 rose at SCLK 0 and sources global line 255; and the device's own pulse of event 7 runs on it from edge 50 to 53. -/
def risen : State := st ((rig.wr (aSlc 0xFF0) 0x90003).setTbus 3 { tbusInit with rose := some 0 })
def pulsing : State := st ((rig.wr (aSlc 0xFF0) 0x90003).setTbus 3 { tbusInit with pulse := some (50, 4, 7, .none) })

theorem witness_EventsAreCaptured :
    (st line255).sys.mode ≠ .safe ∧ Line.global 255 ∈ (st line255).linesOf { kind := 1, sub := 1, index := 719 } ∧
    (st line255).gateOpen (.global 255) ((st line255).edgeAt 100) = true ∧ (st rig).linesOf { kind := 1, sub := 1, index := 0 } = [] ∧
    ((st rig).tbusLine 3).low = false ∧ ((st rig).setTbus 3 { tbusInit with low := true }).tbusLine 3 ≠ tbusInit ∧
    2 * risen.clk.eclk + (3 : Nat) < 0 + 4 ∧ ¬2 * risen.clk.eclk + (4 : Nat) < 0 + 4 ∧ (risen.tbusLine 3).rose = some 0 ∧
    (pulsing.tbusLine 3).pulse = some (50, 4, 7, .none) ∧ pulsing.edgeAt 100 = 50 ∧
    pulsing.linesOf { kind := 9, sub := 0, index := 3 } = [.global 255] := by
  decide +kernel

theorem test_capture :
    (aft (exec (.comparatorCrossing 719 1 100) (st line255))).slc.flights.map (fun f => (f.line, f.edge)) = [(.global 255, 50)] ∧
    ((aft (exec (.tbusEdge 3 100) (st rig))).tbusLine 3).low = true ∧ (aft (exec (.tbusEdge 3 3) risen)).slc.flights = [] ∧
    (aft (exec (.tbusEdge 3 4) risen)).slc.flights.map (fun f => (f.edge, f.tag)) = [(2, 296)] ∧
    (aft (exec (.tbusEdge 3 100) pulsing)).slc.flights.map (fun f => (f.edge, f.tag)) = [(50, 7)] ∧
    (aft (exec (.tbusEdge 3 106) pulsing)).slc.flights.map (fun f => (f.edge, f.tag)) = [(53, 7)] ∧
    (aft (exec (.tbusEdge 3 107) pulsing)).slc.flights.map (fun f => (f.edge, f.tag)) = [(54, 296)] := by decide +kernel

theorem witness_DeliveriesEndWaits :
    inFlight.slc.flights.length = 1 ∧ (inFlight.eng 0).phase = .waiting ∧ inFlight.pc 0 < 32767 ∧
    inFlight.linesOf { kind := 11, sub := 0, index := 255 } = [] ∧ (st rig).slc.flights = [] ∧ (st rig).slc.coming = [] ∧
    inFlight.slc.coming = [] ∧ (inFlight.eng 0).st = .running ∧ (inFlight.eng 0).mid = false ∧ (inFlight.eng 0).u = some uInit ∧
    uInit.sh = [] ∧ (inFlight.eng 0).wait = some (.global 255) ∧ (inFlight.eng 0).arrived = false ∧ (inFlight.eng 0).waitY = false := by
  decide +kernel

theorem test_delivery :
    (aft (exec .sluiceDelivery inFlight)).pc 0 = 1 ∧ ((aft (exec .sluiceDelivery inFlight)).eng 0).phase = .exec ∧
    ((aft (exec (.tbusPulseEnd 0) (st (rig.setTbus 0 { tbusInit with pulse := some (0, 0, 0, .none), low := true })))).tbusLine 0).pulse = none ∧
    ((aft (exec (.tbusRelease ⟨0, 9⟩) (st (rig.setTbus 0 { tbusInit with low := true })))).tbusLine 0).low = false := by decide +kernel

/-- The SYNC pin resets chains. -/
def pinSync (m : Mode) : State := st ((up m).wr (aFrm 0x80) 1)
def capt : State := st { up .mixed with acqs := Tab.set (fun _ => acqInit) 0 { acqInit with st := .post } [] }

def kind2 : Meas := { site := 0, slot := 0, kind := 2, ap := 1, owner := none, left := 1, fresh := false, n := 0, value := none }

theorem witness_SamplesEnterTheChains :
    Mode.mixed.enables 7 = true ∧ Mode.idle.enables 7 = false ∧ ((st rig).circ 719).meas = none ∧
    (pinSync .mixed).bit (aFrm 0x80) 0 = true ∧ (st rig).taking 719 0 = false ∧
    (st (rig.onCirc 719 (fun x => { x with meas := some kind2 }))).taking 719 0 = true ∧
    ((0 + 1) % (st rig).decim 719 ≠ 0 ∨ (0 + 1) % (st rig).decim 719 = 0) ∧ (st rig).bit (aFrm 0x80) 0 = false ∧
    (capt.acq 0).st = .post ∧ (capt.acq 0).left = 0 ∧ (capt.acq 143).st ≠ .post := by decide +kernel

theorem test_samples :
    ((aft (exec (.adcSample 719 0 0xFFFF false) (st rig))).chain 719).held = -1 ∧
    ((aft (exec (.adcSample 719 0 0xFFFF false) (st rig))).chain 719).n = 1 ∧
    ((aft (exec (.adcSample 719 0 0xFFFF true) (st rig))).chain 719).held = -32768 ∧
    ((aft (exec (.adcSample 719 0 0 true) (st rig))).chain 719).held = 32767 ∧
    ((aft (exec (.adcSample 719 0 5 false) (st (rig.onCirc 719 (fun x => { x with meas := some kind2 }))))).chain 719).held = 0 ∧
    (aft (exec (.dsyncPinEdge 16) (pinSync .mixed))).bit (aFrm 0x8C) 31 = true ∧
    (aft (exec (.dsyncPinEdge 17) (pinSync .mixed))).bit (aFrm 0x8C) 31 = false ∧
    (aft (exec (.acqDone 0 0) capt)).bit (aQuad 0 0x104) 27 = true ∧
    (aft (exec (.dsyncPinEdge 15) (pinSync .mixed))).clk.resets = [(2, 1)] ∧
    (aft (exec (.dsyncPinEdge 15) (pinSync .mixed))).bit (aFrm 0x8C) 31 = true ∧
    (aft (exec (.dsyncPinEdge 15) (pinSync .idle))).clk.resets = [] := by decide +kernel

/-- TDC 0 open in interval mode: start source 0, stop source 1, window 0 to 100 SCLK. -/
def tdc0 (f : Tdc → Tdc) : State :=
  st { up .mixed with tdcs := Tab.set (fun _ => tdcInit) 0 (f { tdcInit with prof := [0x04000000, 0, 100, 0] }) [] }
def starts : State := tdc0 (fun x => { x with st := .waitStart })
def stops : State := tdc0 (fun x => { x with st := .waitStop, start := some 0 })

/-- Circuit 0's driver turns on 5/256 SCLK after SCLK 7. -/
def owner : State := st (starts.onCirc 0 (fun x => { x with evs := [{ inst := 7 * 256 + 5, act := .on true }] }))

theorem witness_TdcsMeasureIntervals :
    (starts.tdc 0).st = .waitStart ∧ (starts.tdc 0).signed = false ∧ ((starts.tdc 0).prof.headD 0).fld 31 29 = 0 ∧
    (stops.tdc 0).st = .waitStop ∧ ((stops.tdc 0).prof.headD 0).fld 28 26 = 1 ∧ (stops.tdc 0).count1 = 1 ∧
    (stops.tdc 0).winLo * 32768 ≤ stops.tdcTime (stops.tdc 0) 50 0 ∧
    stops.tdcTime (stops.tdc 0) 50 0 ≤ (stops.tdc 0).winHi * 32768 ∧ (stops.mult : Int) ≤ stops.tdcTime (stops.tdc 0) 50 0 ∧
    ((tdc0 (fun x => { x with st := .counting, mode := 2 })).tdc 0).running = true ∧
    ((tdc0 (fun x => { x with st := .counting, maxt := 1 })).tdc 0).maxt ≠ 0 ∧ (starts.tdc 719).running = false ∧
    starts.tooFast (starts.tdc 0) 0 = false ∧ (let s := tdc0 (fun x => { x with st := .waitStart, prev := some 0 })
      s.tooFast (s.tdc 0) (512 * s.mult - 1) = true ∧ s.tooFast (s.tdc 0) (512 * s.mult) = false) ∧
    (stops.tdc 0).start = some 0 ∧ (stops.tdc 0).done + 1 + (stops.tdc 0).missed = (stops.tdc 0).count1 ∧
    (tdc0 (fun x => { x with st := .waitStop, start := some 0, prof := [0x04000003, 10, 100, 0] }) |> fun s =>
      s.tdcTime (s.tdc 0) 9 0 < (s.tdc 0).winLo * 32768 ∧ (s.tdc 0).done + 1 + (s.tdc 0).missed < (s.tdc 0).count1) ∧
    owner.ownEdge 0 7 = some (7 * 32768 + 128 * 5) ∧ owner.ownEdge 0 6 = none := by decide +kernel

theorem test_tdc :
    ((aft (exec (.tdcEdge 0 0 10 0) starts)).tdc 0).st = .waitStop ∧ ((aft (exec (.tdcEdge 0 1 50 0) stops)).tdc 0).st = .done ∧
    ((aft (exec (.tdcWindowClose 0) stops)).tdc 0).missed = 1 ∧
    ((aft (exec (.tdcEdge 0 0 5 0) (tdc0 (fun x => { x with st := .waitStart, prev := some 163840 })))).tdc 0).st = .closed ∧
    ((aft (exec (.tdcEdge 0 7 7 0) (st { owner.toDev with
        tdcs := Tab.set (fun _ => tdcInit) 0 { owner.tdc 0 with prof := [0xE4000000, 0, 100, 0] } [] }))).tdc 0).start = some (7 * 32768 + 640) ∧
    (aft (exec (.tdcEdge 0 4 10 0) starts)).tdc 0 = starts.tdc 0 ∧
    ((aft (exec (.tdcNosig 0 0) (tdc0 (fun x => { x with st := .counting, mode := 2 })))).tdc 0).st = .closed ∧
    ((aft (exec (.tdcMaxt 0) (tdc0 (fun x => { x with st := .counting, maxt := 1 })))).tdc 0).st = .closed := by decide +kernel

/-- A MEAS of a kind runs on circuit 0. -/
def meas0 (k : Nat) : State :=
  st ((up .mixed).onCirc 0 (fun x => { x with
    meas := some { site := 0, slot := 0, kind := k, ap := 1, owner := none, left := 1, fresh := false, n := 0, value := none } }))

theorem witness_ConversionsEndWithTheirReading :
    ((meas0 2).circ 0).meas.map (fun m => (m.kind, m.value)) = some (2, none) ∧ ((meas0 3).circ 0).meas.map (fun m => (m.kind, m.value)) = some (3, none) ∧
    f32Lt 0xC25C0001 0xC25C0000 = true ∧ f32Lt 0xC25C0000 0xC25C0000 = false ∧ f32Lt 0x43480000 0x43480001 = true ∧
    f32Lt 0x43480000 0x43480000 = false ∧ f32Lt 0 0xC25C0000 = false ∧ f32Lt 0x43480000 0 = false := by
  decide +kernel

theorem test_conversion :
    ((aft (exec (.measConversionEnd 0 { value := 5, ovl := none, fit := true }) (meas0 0))).circ 0).meas.map (·.value) = some (some 5) ∧
    ((aft (exec (.measConversionEnd 0 { value := 5, ovl := some true, fit := true }) (meas0 0))).circ 0).meas.map (·.value)
      = some (some 0xFF800000) ∧
    (aft (exec (.measConversionEnd 0 { value := 5, ovl := none, fit := false }) (meas0 2))).bit (aCh 0 4) 5 = true := by decide +kernel

/-- A compare of site 0, template pin 0, waits for its strobe. -/
def cmp0 : Cmp :=
  { site := 0, tpin := 0, code := 4, seg := 1, voff := 2, frame := 0, chan := 0, count := true, ply := 0, alt := false,
    window := false, begun := 0, opens := 0, closes := none }
def strobe (step : Option Step) : State :=
  st { rig.onSite 0 (fun x => { x with step := step }) with
    cmps := [cmp0] }
/-- Two compares that wait for a step each: one strobes in a window. -/
def windowed : State := st { strobe (some stp) with cmps := [{ cmp0 with window := true, closes := some 9 }] }
/-- A fail waits to be offered. -/
def offering (n : Nat) (d : Dev) : State :=
  st { d with led := { d.led with
    offers := [{ site := 0, begun := 0, serial := 1, cand := cmpCand cmp0 false false }]
    occ := Tab.set (fun _ => 0) (d.queueOf 0) n [] } }

/-- The spare of quad 0 watches channel 0. -/
def watched : State := st ((strobe (some stp)).onQuad 0 (fun z => { z with st := .active, spare := .watch }))

theorem witness_StrobesJudgeCompares :
    cmpPass 4 false false = false ∧ cmpPass 4 true false = true ∧ ((strobe (some stp)).site 0).credit.isSome = true ∧
    ((strobe none).site 0).credit = none ∧ (strobe none).rd 0x314 ≠ 0xFFFFFFFF ∧ (strobe none).led.logs = 0 ∧
    (strobe (some stp)).led.offers = [] ∧ takeCmp 0 0 (strobe (some stp)).cmps = some (cmp0, []) ∧
    takeCmp 1 0 (strobe (some stp)).cmps = none ∧ cmp0.observed false false [(true, false)] = (false, false) ∧
    ({ cmp0 with closes := some 9 } : Cmp).observed true false [(true, false), (false, true)] = (false, true) ∧
    (watched.quad 0).st = .active ∧ (watched.quad 0).spare = .watch ∧ watched.fld (aQuad 0 8) 1 0 = 0 ∧ watched.pin? 0 0 = some 0 ∧
    (offering 255 (strobe (some stp)).toDev).occ ((offering 255 (strobe (some stp)).toDev).queueOf 0) < 256 ∧
    256 ≤ (offering 256 (strobe (some stp)).toDev).occ ((offering 256 (strobe (some stp)).toDev).queueOf 0) ∧
    ((offering 0 (strobe (some stp)).toDev).site 0).step = some stp ∧ ((offering 0 (strobe (some stp)).toDev).site 0).ended = none ∧
    0 < stp.quota := by decide +kernel

theorem test_strobe :
    (((aft (exec (.compareStrobe 0 0 0 ⟨false, []⟩ ⟨false, []⟩ false false) (strobe (some stp)))).site 0).step.map (·.fails)) = some 1 ∧
    (((aft (exec (.compareStrobe 0 0 0 ⟨true, []⟩ ⟨false, []⟩ true false) (strobe (some stp)))).site 0).step.map (·.fails)) = some 0 ∧
    (aft (exec (.compareStrobe 0 0 0 ⟨false, []⟩ ⟨false, []⟩ false false) (strobe none))).rd 0x314 = 1 ∧
    (((aft (exec (.compareStrobe 0 0 0 ⟨true, [false]⟩ ⟨false, [false]⟩ true false) windowed)).site 0).step.map (·.fails)) = some 1 ∧
    ((aft (exec (.compareStrobe 0 0 0 ⟨true, []⟩ ⟨false, []⟩ false false) watched)).quad 0).mm = 1 ∧
    ((aft (exec (.failQueueDrain []) (offering 255 (strobe (some stp)).toDev))).site 0).step.map (fun p => (p.quota, p.kept.length)) = some (3, 1) ∧
    ((aft (exec (.failQueueDrain []) (offering 256 (strobe (some stp)).toDev))).site 0).step.map (fun p => (p.quota, p.drops)) = some (3, 1) ∧
    (aft (exec (.failQueueDrain []) (aft (exec (.compareStrobe 0 0 0 ⟨false, []⟩ ⟨false, []⟩ false false) (strobe (some stp))) |> st))).cmps = [] := by
  decide +kernel

def rec0 : Record := { player := 0, seq := 0, seg := 1, blk := 2, marks := false, data := [1, 2, 3, 4] }
def ring0 (z : RingState) : State := st (rig.onPly 0 (fun p => { p with ring := z }))

theorem witness_RecordsFillTheirRing :
    ((ring0 .filling).ply 0).ring = .filling ∧ rec0.seq.toNat = ((ring0 .filling).ply 0).fill ∧ ((ring0 .filling).ply 0).ahead = [] ∧
    ((ring0 .filling).ply 0).level < (ring0 .filling).ringSlots 0 ∧ ((ring0 .halted).ply 0).ring = .halted ∧
    (ring0 .run).ringSlots 0 - ((ring0 .run).ply 0).level ≤ dist24 16 ((ring0 .run).ply 0).fill ∧ (ring0 .run).sys.mode ≠ .safe ∧
    (st (up .safe)).sys.mode = .safe ∧ ((ring0 .off).ply 0).ring = .off := by decide +kernel

theorem test_record :
    ((aft (exec (.streamRecord 0 rec0) (ring0 .filling))).ply 0).fill = 1 ∧
    (aft (exec (.streamRecord 0 rec0) (ring0 .filling))).word (aCis 0) = 0x04030201 ∧
    (aft (exec (.streamRecord 0 rec0) (ring0 .halted))).fld (aPly 0 0x34) 15 0 = 1 ∧
    (aft (exec (.streamRecord 0 { rec0 with seq := 16 }) (ring0 .run))).fld (aPly 0 0x34) 31 16 = 1 := by decide +kernel

/-- A resident segment of 64 vectors and width 2, played once. -/
def seg0 : Placed := { seg := 1, d0 := 0x80000000, d1 := 0, d2 := 0, d3 := 1 }
def unit (b : Nat) (g : Placed) : Machine.PUnit := { seg := g, pass := 0, begun := b, k := 4, got := 0, edges := [] }
def plays (u : Machine.PUnit) (n : Option Placed) : State := st (rig.onPly 0 (fun p => { p with st := .playing, cur := some u, next := n }))

/-- The same, with circuit 0 in service; its row holds code 0 or another. -/
def driven : State := st ((plays (unit 63 seg0) none).onCirc 0 (fun x => { x with st := .inService }))
def coded (c : Nat) : State := st ((driven.toDev).setWord (aCis (driven.rowAt 0 (unit 63 seg0) 63)) (wn c))

theorem witness_VectorsPlayAndUnitsFollow :
    (unit 63 seg0).begun < seg0.len ∧ seg0.len ≤ (unit 64 seg0).begun ∧ seg0.strm = false ∧ seg0.mmask = 0 ∧ seg0.linkEn = false ∧
    seg0.lastPass = some 0 ∧ { seg0 with d2 := 0x00010000 }.lastPass = some 1 ∧ ((plays (unit 63 seg0) none).ply 0).next = none ∧
    ((plays (unit 63 seg0) none).ply 0).tail = false ∧ 0 ∈ (plays (unit 63 seg0) none).mask 0 ∧
    (plays (unit 63 seg0) none).cis.poison = [] ∧ ((plays (unit 63 seg0) none).mask 0).Nodup ∧
    (driven.circ (driven.circOf 0)).st = .inService ∧ driven.pmuDrives 0 = false ∧ driven.pin? 0 (driven.tpinOf 0) = some 0 ∧
    driven.tpinOf 0 < seg0.width ∧ 0 ∈ driven.pins 0 ∧
    resolveCode (driven.rowCode (driven.rowAt 0 (unit 63 seg0) 63) 0) 8 ≤ 6 ∧
    ((plays (unit 64 seg0) none).ply 0).pause ≠ some 0 ∧ ((plays (unit 64 seg0) none).ply 0).remaining (unit 64 seg0) = some 0 ∧
    ((plays (unit 64 { seg0 with d2 := 0x00010000 }) none).ply 0).remaining (unit 64 { seg0 with d2 := 0x00010000 }) ≠ some 0 := by decide +kernel

theorem test_vectors :
    ((aft (exec (.vectorStart 0 0 ⟨.clean, 0⟩) (plays (unit 63 seg0) none))).ply 0).cur.map (·.begun) = some 64 ∧
    ((aft (exec (.unitEnd 0 0) (plays (unit 64 seg0) none))).ply 0).st = .dwell ∧
    ((aft (exec (.unitEnd 0 0) (plays (unit 64 seg0) (some { seg0 with seg := 2 })))).ply 0).cur.map (·.seg.seg) = some 2 ∧
    ((aft (exec (.unitEnd 0 0) (plays (unit 64 { seg0 with d2 := 0x00010000 }) none))).ply 0).cur.map (·.pass) = some 1 := by
  decide +kernel

theorem test_vector_drives_and_compares :
    ((aft (exec (.vectorStart 0 0 ⟨.clean, 0⟩) (coded 1))).circ 0).evs = [{ inst := 0, act := .on true }] ∧
    ((aft (exec (.vectorStart 0 3 ⟨.clean, 0⟩) (st ((coded 1).setBits (aPin 0 0) 3)))).circ 0).evs.map (·.act) =
      [.level false, .on true, .level false] ∧
    ((aft (exec (.vectorStart 0 3 ⟨.clean, 0⟩) (st ((coded 1).setFld (aPin 0 0x5C) 11 0 0xFFF)))).circ 0).evs.map (·.inst) = [767] ∧
    (aft (exec (.vectorStart 0 0 ⟨.clean, 0⟩) (coded 3))).cmps.map (fun m => (m.code, m.voff, m.count)) = [(3, 63, true)] ∧
    ((aft (exec (.vectorStart 0 0 ⟨.uncorrectable, 0⟩) (coded 3))).site 0).last = [] := by decide +kernel

/-- The scrubber runs; spare bank 3 copies bank 5. -/
def scrub (n : Nat) : State :=
  st { (up .idle).wr (aCisReg 0x28) 0x80000000 with cis := { (up .idle).cis with scrub := n } }
def copies : State := st ((up .idle).setSpareBank 3 { spareBankInit with copying := true, bank := 5 })

theorem witness_ScrubAndCopiesAdvance :
    (scrub 0).bit (aCisReg 0x28) 31 = true ∧ (scrub 0).cisBytes ≠ 0 ∧ (scrub (2 ^ 23 - 1)).cis.scrub < 2 ^ 23 ∧
    (st ((up .idle).wr (aCisReg 0x28) 0)).bit (aCisReg 0x28) 31 = false ∧ (copies.spareBank 3).copying = true ∧ (copies.spareBank 0).copying = false := by
  decide +kernel

theorem test_scrub :
    (aft (exec (.scrubStep .clean) (scrub 0))).cis.scrub = 1 ∧ (aft (exec (.scrubStep .clean) (scrub (2 ^ 23 - 1)))).cis.scrub = 0 ∧
    (aft (exec (.scrubStep .corrected) (scrub 5))).fld (aCisReg 0x20) 22 0 = 5 ∧
    (aft (exec (.scrubStep .uncorrectable) (scrub 5))).sticky 130 = true ∧
    ((aft (exec (.bankCopyDone 3 []) copies)).spareBank 3).copied = true := by decide +kernel

/-! ### Ticks, timers, switches -/

def asks (m t : Mode) : State :=
  st { up m with sys := { (up m).sys with req := some { target := t, tag := 255, switchAt := 0, cmd := none } },
                 clk := { (up m).clk with slocked := true } }
def resets1 : State := st { up .mixed with clk := { (up .mixed).clk with frame := 5, resets := [(5, 3), (5, 1), (6, 3)] } }

/-- A request whose switch tick has not come; an epoch mark of the next tick; SAFE entry whose queues are not empty yet. -/
def early5 : State := st { asks .idle .mixed with clk := { (asks .idle .mixed).clk with frame := 5 } }
def marked : State := st { up .idle with clk := { (up .idle).clk with markIn := some 1 }, regs := ((up .idle).wr (aFrm 0x18) 9).regs }
def due : State := st { up .safe with sys := { (up .safe).sys with safeDue := true }, stage := { (up .safe).stage with host := [{ tgt := none, op := .write 0 0 }] } }

theorem witness_TicksAndSwitches :
    (st (up .idle)).tickRuns = true ∧ (st (up .idle)).marks = false ∧ (st Dev.reset).tickRuns = false ∧
    (asks .idle .stress).switchReason .stress ≠ 0 ∧ (asks .idle .mixed).switchReason .mixed = 0 ∧
    (asks .idle .mixed).sys.req.map (fun r => (r.switchAt, r.tag, r.cmd)) = some ((asks .idle .mixed).clk.frame, 255, none) ∧
    (st (up .idle)).sys.req = none ∧ (5, 3) ∈ resets1.clk.resets ∧ resets1.clk.frame = 5 ∧ (early5.sys.req.map (·.switchAt)) ≠ some early5.clk.frame ∧
    Mode.mixed.enables 7 = true ∧ Mode.idle.enables 7 = false ∧ (st (up .idle)).clk.resets = [] ∧ marked.marks = true ∧ marked.tickRuns = true ∧
    (st (up .safe)).tickRuns = true ∧ due.sys.safeDue = true ∧ due.tickRuns = true ∧ (st (up .idle)).host.waiting = [] ∧
    ((asks .recovery .idle).readThrough [3]).switchReason .idle = 10 ∧ (asks .calibrate .idle).switchReason .idle = 0 ∧
    ((asks .calibrate .idle).eng 0).live = false := by decide +kernel

theorem test_tick :
    (aft (exec (.frameTick []) (st (up .idle)))).clk.frame = 1 ∧ (aft (exec (.frameTick []) marked)).clk.frame = 9 ∧ (aft (exec (.frameTick []) due)).stage.host = [] := by decide +kernel

theorem test_switch_and_reset :
    (aft (exec (.modeSwitch []) early5)).sys.mode = .idle ∧
    (aft (exec (.modeSwitch [3]) (asks .recovery .idle))).bit (aUcs 0x862C) 30 = true ∧
    (aft (exec .syncReset resets1)).clk.resets = [(6, 3)] := by decide +kernel

theorem test_switch_refused :
    (aft (exec (.modeSwitch []) (asks .idle .stress))).sys.mode = .idle ∧
    (aft (exec (.modeSwitch []) (asks .idle .stress))).fld 0x108 11 8 = 6 ∧
    (aft (exec (.modeSwitch []) (asks .idle .stress))).fld 0x108 23 16 = 255 := by decide +kernel

/-- Engine 0 in a phase of its frame. -/
def phase0 (p : Phase) (w : Option Line) : State := st (rig.onEng 0 (fun g => { g with phase := p, wait := w }))

theorem witness_EngineTimersAct :
    ((phase0 (.yielded 0) none).eng 0).phase = .yielded 0 ∧ (phase0 .exec none).overruns 0 = true ∧
    (phase0 (.yielded 1) none).overruns 0 = false ∧ ((phase0 .waiting (some (.global 0))).eng 0).wait ≠ none ∧
    ((phase0 .waiting (some (.global 0))).eng 0).waitY = false ∧ (phase0 .waiting none).pc 0 < 32767 ∧
    (phase0 .exec none).Clean 5 ∧ ((phase0 .waiting (some (.global 0))).eng 0).mid = false ∧
    (st (rig.onEng 0 (fun g => { g with phase := .waiting, mid := true }))).pc 0 = 0 ∧ (phase0 (.yielded 0) none).siteOf 0 = some 0 ∧
    (phase0 .exec none).engAim 0 = [0] := by
  refine ⟨?_, ?_, ?_, ?_, ?_, ?_, clean_of ?_, ?_⟩ <;> decide +kernel

theorem test_timers :
    ((aft (exec (.yieldRelease 0) (phase0 (.yielded 0) none))).eng 0).phase = .exec ∧
    (aft (exec (.overrun 0) (phase0 .exec none))).sticky 160 = true ∧ (aft (exec (.wdog 0) (phase0 .exec none))).sticky 168 = true ∧
    (aft (exec (.waiteTimeout 0) (phase0 .waiting (some (.global 0))))).flag 0 7 = true ∧
    ((aft (exec (.waiteTimeout 0) (st ((phase0 .waiting (some (.global 0))).toDev.setPc 0 32767)))).eng 0).phase = .stopped ∧
    (((aft (exec (.waiteTimeout 0) (st (rig.onEng 0 (fun g => { g with phase := .waiting, mid := true }))))).eng 0).u.map (·.wto)) = some true ∧
    (aft (exec (.overrun 0) (phase0 .exec none))).clk.overran = 1 := by decide +kernel

/-- Site 0 waits for its player, which dwells. -/
def late0 (f : Site → Site) : State := st ((rig.onPly 0 (fun p => { p with st := .dwell })).onSite 0 f)
def waits : State := late0 (fun x => { x with play := some { seg := 1, age := 15 } })

/-- Every sensor reads THROTTLE; the demand has waited for `n` ticks. -/
def hot0 (n : Nat) : State :=
  st ((late0 (fun x => { x with demand := 1, waited := n })).toDev |> fun d =>
    { d with pwr := { d.pwr with sensors := (List.range 72).map (fun n => (n, { sensorInit with st := 2 })) } })

theorem witness_LateSitesLeaveTheirMask :
    waits.playerOf 0 = some 0 ∧ waits.slotFree 0 0xFFFF = true ∧ waits.fld (aHgt 0x2100) 3 0 ≤ 15 ∧ (waits.eng (waits.engOf 0)).st ≠ .paused ∧
    ((late0 (fun x => { x with join := some { seg := 1, left := 1 } })).site 0).join.map (·.left) = some 1 ∧
    ((late0 (fun x => { x with join := some { seg := 1, left := 2 } })).site 0).join.map (·.left) = some 2 ∧ waits.waitsNow 0 = false ∧
    (hot0 0).waitsNow 0 = true ∧ (hot0 0).twait 0 ≠ 0 ∧ (hot0 ((hot0 0).twait 0 - 1)).twait 0 ≤ ((hot0 ((hot0 0).twait 0 - 1)).site 0).waited + 1 ∧
    waits.Clean 5 ∧ (hot0 0).Clean 2 := by
  refine ⟨?_, ?_, ?_, ?_, ?_, ?_, ?_, ?_, ?_, ?_, clean_of ?_, clean_of ?_⟩ <;> decide +kernel

theorem test_late :
    ((aft (exec (.rendezvousTimeout 0) waits)).site 0).det = true ∧ (aft (exec (.rendezvousTimeout 0) waits)).sticky 166 = true ∧
    (aft (exec (.joinLapse 0) (late0 (fun x => { x with join := some { seg := 1, left := 1 } })))).flag 0 9 = true ∧
    (aft (exec (.throttleWait 0) (hot0 ((hot0 0).twait 0 - 1)))).sticky 68 = true ∧
    (aft (exec (.throttleWait 0) (hot0 ((hot0 0).twait 0 - 2)))).sticky 68 = false := by decide +kernel

/-! ### Requests of the host -/

/-- A request by link 0. -/
def hdr : Hdr := { via := .link 0, tag := 5 }
def idle0 : State := st (up .idle)
def admitsB (s : Dev) (h : Hdr) (a : Nat) (v : W) : Bool := s.linked && s.modeOk h.via a v && !s.wordInPlay a

theorem admits_of {s : Dev} {h : Hdr} {a : Nat} {v : W} (k : admitsB s h a v = true) : s.Admits h a v := by
  simp only [admitsB, Bool.and_eq_true, Bool.not_eq_true'] at k
  exact ⟨k.1.1, k.1.2, k.2⟩

/-- 1,024 writes wait for the next tick. -/
def full : State := st { up .idle with stage := { (up .idle).stage with host := List.replicate 1024 { tgt := none, op := .write 0 0 } } }

/-- STAGE_TGT names a frame. -/
def targets (n : W) : State := st (((up .idle).wr (aFrm 0x28) n).wr (aFrm 0x2C) 0x80000000)

theorem witness_StagedRegistersWaitForTheirTick :
    idle0.Admits hdr 0x104 0 ∧ idle0.Admits hdr (aFrm 4) 0 ∧ idle0.Admits hdr (aQuad 143 0) 0 ∧ idle0.Admits hdr (aQuad 0 0xC) 0 ∧
    idle0.Admits hdr (aPin 575 0x104) 0 ∧ idle0.Admits hdr (aQuad 0 0x100) 0 ∧ idle0.Admits hdr (aPin 0 0x128) 0 ∧
    idle0.Admits hdr (aPwr 0) 0 ∧ idle0.Admits hdr (aPwr 0x2C) 0 ∧ idle0.Admits hdr (aCh 719 0x104) 0 ∧
    idle0.stageTgt = none ∧ idle0.stagedFor idle0.nextTick < 1024 ∧
    1024 ≤ full.stagedFor full.nextTick ∧ idle0.linked = true ∧ (targets 9).stageTgt = some 9 ∧ (targets 9).stageStatus (some 9) 1 = 0 ∧
    idle0.stageStatus (some 0) 1 = 6 ∧ idle0.stageStatus (some (2 ^ 47)) 1 = 6 ∧ idle0.stageStatus (some (2 ^ 47 - 1)) 1 = 7 ∧
    idle0.stageStatus (some (2 ^ 20 + 1)) 1 = 7 ∧ idle0.stageStatus (some (2 ^ 20)) 1 = 0 := by
  refine ⟨admits_of ?_, admits_of ?_, admits_of ?_, admits_of ?_, admits_of ?_, admits_of ?_, admits_of ?_, admits_of ?_, admits_of ?_,
    admits_of ?_, ?_⟩ <;>
    decide +kernel

theorem test_staged_registers :
    (aft (exec (.quadRequest hdr 143 1) idle0)).stage.host = [{ tgt := none, op := .write (aQuad 143 0) 1 }] ∧
    (aft (exec (.modeRequest hdr 7) full)).stage.host.length = 1024 ∧
    (aft (exec (.quadRequest hdr 0 1) (targets 9))).stage.host.map (·.tgt) = [some 9] ∧
    (aft (exec (.quadRequest hdr 0 1) (targets 0))).bit (aFrm 0x10) 8 = true ∧
    (aft (exec (.tdcOpen hdr 0 4 0x80000000) idle0)).stage.host = [] := by decide +kernel

/-- Word 1 of the cistern is poisoned; player 0 plays the segment at address 0. -/
def poisoned : State := st { up .idle with cis := { (up .idle).cis with poison := [1] } }
def inPlay : State := plays (unit 0 seg0) none

theorem witness_MemoryRequestsReadAndWrite :
    framed (aPgm 0 0) 4096 = true ∧ framed (aPgm 0 2) 4 = false ∧ framed (aPgm 0 0) 4100 = false ∧ idle0.linked = true ∧
    idle0.cis.poison = [] ∧ idle0.anyEngLive = false ∧ aPgm 15 0x3FFFC + 4 ≤ aPgm 16 0 ∧ (st (up .safe)).linked = true ∧
    idle0.Admits hdr 0x200 0 ∧ (st Dev.reset).linked = false ∧ idle0.wordBad (aCis 0) 0 none = false ∧ poisoned.wordBad (aCis 16) 0 none = true ∧
    idle0.modeOk hdr.via (aPgm 15 0x3FFFC) 1 = true ∧ (st (up .safe)).modeOk hdr.via (aPgm 0 0) 1 = false ∧
    (st (up .mixed)).modeOk hdr.via (aFrm 0) 1 = false ∧ idle0.wordInPlay (aPgm 15 0x3FFFC) = false ∧ inPlay.wordInPlay (aCis 0) = true ∧
    inPlay.modeOk hdr.via (aCis 0) 1 = true ∧ (st (up .idle)).modeOk hdr.via (aNvr 0x3B000) 1 = true ∧
    assigned (aThm 0x1C0) = false ∧ stages (aThm 0x1C0) = false ∧ idle0.Admits hdr (aThm 0x1C0) 1 ∧ Tab.wf resetWord idle0.regs = true ∧
    0 < (up .idle).cisBytes := by
  refine ⟨?_, ?_, ?_, ?_, ?_, ?_, ?_, ?_, admits_of ?_, ?_, ?_, ?_, ?_, ?_, ?_, ?_, ?_, ?_, ?_, ?_, ?_, admits_of ?_, ?_⟩ <;> decide +kernel

theorem test_memory_requests :
    (aft (exec (.memWrite hdr (BitVec.ofNat 40 (aPgm 15 0x3FFFC)) 4 [0x04030201]) idle0)).word (aPgm 15 0x3FFFC) = 0x04030201 ∧
    (aft (exec (.memWrite hdr (BitVec.ofNat 40 (aPgm 0 0)) 4 [1]) (st (up .safe)))).word (aPgm 0 0) = 0 ∧
    (aft (exec (.frameLoRead hdr) (st { up .idle with clk := { (up .idle).clk with frame := 2 ^ 40 } }))).rd (aFrm 0xC) = 256 ∧
    (aft (exec (.registerWrite hdr 0x200 0xFFFFFFFF) idle0)).rd 0x200 = 0x80003FFF ∧
    ((aft (exec (.memRead hdr 2 4 ⟨none, []⟩) idle0)).link 0).queue.length = 1 ∧
    (aft (exec (.memRead hdr (BitVec.ofNat 40 (aCis 16)) 4 ⟨none, []⟩) poisoned)).sticky 129 = true ∧
    (aft (exec (.memRead hdr (BitVec.ofNat 40 (aCis 16)) 8 ⟨none, [1]⟩) idle0)).sticky 128 = true ∧
    (aft (exec (.memRead hdr (BitVec.ofNat 40 (aNvr 0)) 8 ⟨some 1, []⟩) idle0)).sticky 289 = true := by decide +kernel

theorem test_refused_writes :
    (aft (exec (.memWrite hdr (BitVec.ofNat 40 (aFrm 0)) 4 [16]) (st (up .safe)))).bit (aFrm 0x10) 6 = true ∧
    (aft (exec (.memWrite hdr (BitVec.ofNat 40 (aUcs 0x8000)) 4 [1]) (st (up .safe)))).bit (aUcs 0x8104) 31 = true ∧
    (aft (exec (.memWrite hdr (BitVec.ofNat 40 (aUcs 0x8104)) 4 [1]) (st (up .safe)))).bit (aUcs 0x8104) 31 = false ∧
    (aft (exec (.memWrite hdr (BitVec.ofNat 40 (aCis 0)) 4 [1]) inPlay)).word (aCis 0) = 0 ∧
    (aft (exec (.memWrite hdr (BitVec.ofNat 40 (aNvr 0x3B000)) 8 [1, 2]) idle0)).nv.singles.map (fun x => (x.off, x.fin.isSome)) =
      [(0x3B000, false), (0x3B004, true)] := by decide +kernel

/-- Player 0's ring runs and a streamed unit plays; site 0 is busy in DIAGNOSTIC. -/
def streams : State :=
  st { (plays (unit 0 { seg0 with d0 := 0xC0000000 }) none).toDev.onPly 0 (fun p => { p with ring := .filling, fill := 3 }) with
    regs := ((plays (unit 0 { seg0 with d0 := 0xC0000000 }) none).wr (aPly 0 0) 0xC0000001).regs, sys := (up .diagnostic).sys }
def diag : State := st { rig with sys := { rig.sys with mode := .diagnostic } }

theorem witness_ConfigurationWritesAct :
    idle0.Admits hdr (aFrm 0) 0 ∧ idle0.Admits hdr (aFrm 0x14) 0 ∧ idle0.Admits hdr (aHgt 0x8FC) 0 ∧ idle0.Admits hdr (aHgt 0x1FF0) 0 ∧
    idle0.Admits hdr (aHgt 0x213C) 0 ∧ idle0.Admits hdr (aPly 15 0) 0 ∧ idle0.Admits hdr (aPly 0 0x28) 0 ∧ idle0.Admits hdr 0x208 0 ∧
    idle0.Admits hdr 0x308 0 ∧ idle0.Admits hdr 0x30C 0 ∧ idle0.sys.mode ≠ .diagnostic ∧ (idle0.ply 15).st ≠ .playing ∧
    idle0.anyEngLive = false ∧ (st rig).anyEngLive = true ∧ (idle0.ply 0).streaming = false ∧
    (streams.ply 0).streaming = true ∧ streams.Admits hdr (aPly 0 0x28) 0 ∧ streams.Admits hdr (aPly 0 0) 0 ∧ diag.sys.mode = .diagnostic ∧
    diag.Admits hdr (aHgt 0) 0 ∧ (diag.hgtTouches 0 0).any diag.siteBusy = true ∧ (diag.hgtTouches 8 0).any diag.siteBusy = false ∧
    idle0.mult = 128 ∧ (st (up .mixed)).Admits hdr 0x30C 0 := by
  refine ⟨admits_of ?_, admits_of ?_, admits_of ?_, admits_of ?_, admits_of ?_, admits_of ?_, admits_of ?_, admits_of ?_,
    admits_of ?_, admits_of ?_, ?_, ?_, ?_, ?_, ?_, ?_, admits_of ?_, admits_of ?_, ?_, admits_of ?_, ?_, ?_, ?_, admits_of ?_⟩ <;> decide +kernel

theorem test_configuration_writes :
    (aft (exec (.sclkCfgWrite hdr 16) idle0)).mult = 16 ∧ (aft (exec (.sclkCfgWrite hdr 129) idle0)).bit (aFrm 0x10) 6 = true ∧
    (aft (exec (.syncCfgWrite hdr 5) idle0)).fld (aFrm 0x14) 8 0 = 5 ∧
    (aft (exec (.headgateWrite hdr 0x8FC 0x80000001) idle0)).rd (aHgt 0x8FC) = 0x80000001 ∧
    ((aft (exec (.playerCfgWrite hdr 15 0x80000000) idle0)).ply 15).st = .dwell ∧
    (aft (exec (.limitEntryWrite hdr 7) idle0)).limit 0 = (idle0.rd 0x204, 7) ∧
    (aft (exec (.ledgerAck hdr 9) idle0)).rd 0x308 = 9 ∧ (aft (exec (.ledgerClear hdr 0x80000000) idle0)).rd 0x304 = 0 := by
  decide +kernel

theorem test_guarded_writes :
    (aft (exec (.headgateWrite hdr 0 0) diag)).rd (aHgt 0) = 0x80000000 ∧ (aft (exec (.headgateWrite hdr 0 0) diag)).bit (aHgt 0x2000) 31 = true ∧
    (aft (exec (.ringReset hdr 0 0x80000000) streams)).bit (aPly 0 4) 24 = true ∧
    ((aft (exec (.ringReset hdr 0 0xC0000000) streams)).ply 0).ring = .run ∧
    (aft (exec (.playerCfgWrite hdr 0 0x80000001) streams)).bit (aPly 0 0) 30 = true ∧
    (aft (exec (.playerCfgWrite hdr 0 0) streams)).rd (aPly 0 0) = 0xC0000001 := by decide +kernel

theorem test_ring_writes :
    ((aft (exec (.ringReset hdr 0 0x80000000) (st ((up .idle).onPly 0 (fun p => { p with ring := .run, fill := 3 }))))).ply 0).fill = 0 ∧
    ((aft (exec (.ringArm hdr 0 0x40000000) (st ((up .idle).onPly 0 (fun p => { p with ring := .filling }))))).ply 0).ring = .run ∧
    (aft (exec (.ringArm hdr 0 0x40000000) idle0)).bit (aPly 0 4) 24 = true ∧
    (aft (exec (.ringLwmWrite hdr 0 0xFFFFFF) idle0)).fld (aPly 0 0x28) 23 0 = 0xFFFFFF := by decide +kernel

/-- A write of the source of line 255 took effect at the next edge, by the host (0) or by engine `r - 1`; REF_LOSS stands in holdover. -/
def wrote (r : Nat) : State :=
  st { up .idle with slc := { (up .idle).slc with wrote := [{ addr := aSlc 0xFF0, edge := 2, rank := r }] } }
def held (live : W) (n : Nat) : State :=
  st { (up .idle).wr (aSrc n) (0x40000000 + live * 0x80000000) with clk := { (up .idle).clk with holdover := true } }

theorem witness_UnitRegisterWritesAct :
    (st (rig.onEng 0 (fun g => { g with st := .ready }))).Admits hdr (aEng 0 0x40) 0 ∧ EngState.ready.hostMayWrite = true ∧
    EngState.running.hostMayWrite = false ∧ idle0.Admits hdr (aUcs 0x7FF0) 0 ∧
    idle0.Admits hdr (aUcs 0x80FC) 0 ∧ (st (up .recovery)).Admits hdr (aUcs 0x8614) 0 ∧
    idle0.Admits hdr (aCh 718 0x3FC) 0 ∧ idle0.Admits hdr (aPin 575 0x3FC) 0 ∧ idle0.Admits hdr (aCh 719 0x13C) 0 ∧ idle0.Admits hdr (aSrc 0) 0x40000000 ∧ (st (up .recovery)).Admits hdr (aSrc 0) 0x40000000 ∧
    idle0.Admits hdr (aSlc 0xFF0) 0 ∧ lineOfSrc (aSlc 0xFF0) = some (.global 255) ∧ fltNamed 0 = true ∧ fltNamed 383 = false ∧
    (idle0.chain (idle0.circOf 575)).bank ≠ 1 ∧ srcOk (.global 0) 0 = true ∧
    srcOk (.global 255) 0xF0000 = false ∧ (st (up .safe)).modeOk hdr.via (aSlc 0) 0 = false ∧ (st (up .calibrate)).modeOk hdr.via (aSlc 0) 0 = true ∧
    isRoute (aSlc 0xFF0) = true ∧ isRoute (aSlc 0x1024) = false ∧ (wrote 0).slc.wrote.map (·.edge) = [(wrote 0).edgeAfter 3] ∧
    (st Dev.reset).linked = false ∧ (held 0 0).sticky 0 = true ∧ (held 0 0).clk.holdover = true ∧ (held 0 0).bit (aSrc 0) 31 = false ∧
    idle0.Clean 7 ∧ idle0.slc.coming = [] := by
  repeat' apply And.intro
  all_goals first | exact admits_of (by decide +kernel) | exact clean_of (by decide +kernel) | decide +kernel

theorem test_unit_register_writes :
    (aft (exec (.engineRegisterWrite hdr 0 0x40 7) (st (rig.onEng 0 (fun g => { g with st := .ready }))))).rd (aEng 0 0x40) = 7 ∧
    (aft (exec (.engineRegisterWrite hdr 0 0x40 7) (st rig))).rd (aEng 0 0x40) = 0 ∧
    (aft (exec (.matchWrite hdr (some 63) 0x80000001) idle0)).rd (aUcs 0x80FC) = 0x80000001 ∧
    (aft (exec (.firCoefWrite hdr 143 3 1 63 5) idle0)).fld (aPin 575 0x3FC) 17 0 = 5 ∧
    (aft (exec (.tdcRdWrite hdr 143 4 0) idle0)).rd (aCh 719 0x13C) = 0 ∧
    (aft (exec (.faultForce hdr 0 0x20000000) idle0)).sticky 0 = true ∧
    (aft (exec (.faultAck hdr 0 0x40000000) (st (aft (exec (.faultForce hdr 0 0x20000000) idle0))))).sticky 0 = false ∧
    (aft (exec (.routeWrite hdr (BitVec.ofNat 40 (aSlc 0xFF0)) ⟨0x112CF, 3⟩) idle0)).rd (aSlc 0xFF0) = 0x112CF ∧
    (aft (exec (.routeWrite hdr (BitVec.ofNat 40 (aSlc 0xFF0)) ⟨0xF0000, 3⟩) idle0)).bit (aSlc 0x1024) 30 = true ∧
    (aft (exec (.routeWrite hdr (BitVec.ofNat 40 (aSlc 0xFF0)) ⟨0x112CF, 3⟩) (wrote 0))).fld (aSlc 0x1024) 15 0 = 0 ∧
    (aft (exec (.routeWrite hdr (BitVec.ofNat 40 (aSlc 0xFF0)) ⟨0x112CF, 3⟩) (wrote 1))).rd (aSlc 0xFF0) = 0 ∧
    (aft (exec (.faultAck hdr 0 0x40000000) (held 0 0))).clk.relock = true ∧
    (aft (exec (.faultAck hdr 0 0x40000000) (held 1 0))).bit (aFlt 0xA0C) 31 = true := by decide +kernel

theorem test_microcode_writes :
    (aft (exec (.pramWordWrite hdr 1023 5) idle0)).ucs.pram.length = 1 ∧
    (aft (exec (.wcsDataWrite hdr 5) (st (up .recovery)))).ucs.wcs.length = 1 := by decide +kernel

theorem test_other_requests :
    (aft (exec (.acqArm hdr 0 0x80000000) idle0)).stage.host.length = 1 ∧
    (aft (exec (.acqAbort hdr 0 0x40000000) idle0)).stage.host.length = 1 ∧
    (aft (exec (.acqForce hdr 0 0x20000000) idle0)).stage.host.length = 1 ∧
    (aft (exec (.tdcClose hdr 0 0 0x40000000) idle0)).stage.host.length = 1 ∧
    (aft (exec (.firSwap hdr 0 0 0x80000000) idle0)).stage.host.length = 1 ∧
    (aft (exec (.substitutionRequest hdr 0 0x80000000) idle0)).stage.host.length = 1 ∧
    (aft (exec (.restoreRequest hdr 0 0xC0000000) idle0)).stage.host.length = 1 ∧
    (aft (exec (.flenWrite hdr 1) idle0)).stage.host.length = 1 ∧
    (aft (exec (.powerRequest hdr 0 1) idle0)).stage.host.length = 1 := by decide +kernel

/-! ### The command set -/

/-- A command by link 0. -/
def cmd (n : Nat) (ps : List W) : Cmd := { via := .link 0, tag := 5, tgt := none, plen := n, params := ps }
def bare : Cmd := cmd 0 []
def aimed (c : Cmd) (t : BitVec 48) : Cmd := { c with tgt := some t }
def takesB (s : Dev) (code : Nat) (c : Cmd) : Bool :=
  s.pathOpen c.via && decide (s.host.waiting = []) && decide (s.awaiting < 256) && !s.scarabBusy && decide (s.cmdStatus code c = 0)

theorem takes_of {s : Dev} {code : Nat} {c : Cmd} (k : takesB s code c = true) : s.Takes code c := by
  simp only [takesB, Bool.and_eq_true, Bool.not_eq_true', decide_eq_true_eq] at k
  exact ⟨k.1.1.1.1, k.1.1.1.2, k.1.1.2, k.1.2, k.2⟩

def run8 : List W := [1, 0, 0, 0, 0, 0, 0, 0]
/-- Link-up has not come, and MSPI is open. -/
def early : State := st { up .boot with sys := { (up .boot).sys with boot := .selfTest } }
def busy : State := st { up .idle with pwr := { (up .idle).pwr with job := some (jobOfCmd bare 0xA1) } }
def crowd : State := st { busy.toDev with host := { busy.host with waiting := List.replicate 128 (0x01, bare) } }
/-- Both identity copies hold a serial number, with its CRC or with another one. -/
def copies2 (crc : W) : State :=
  let copy (o : Nat) : List (Nat × Byte) :=
    [1, 2, 3, 4, crc].zipIdx.flatMap (fun (x : W × Nat) => (List.range 4).map (fun k => (aNvr (o + 4 * x.2 + k), x.1.extractLsb' (8 * k) 8)))
  st { up .idle with mem := copy 0 ++ copy 0x200 }
def named : State := copies2 (crcWords [1, 2, 3, 4])

theorem witness_CommandsAreCheckedAndQueriesAnswer :
    named.Takes 0x01 bare ∧ named.idOk [] 0 = true ∧ (copies2 0).idOk [] 0 = false ∧ (copies2 0).idOk [] 1 = false ∧ (copies2 0).Takes 0x01 bare ∧
    idle0.Takes 0x50 bare ∧ idle0.Takes 0x60 bare ∧ idle0.Takes 0x80 bare ∧
    idle0.cmdStatus 0x12 bare = 8 ∧ idle0.cmdStatus 0x01 (cmd 4 [0]) = 1 ∧ idle0.cmdStatus 0x40 (cmd 36 (0 :: run8)) = 2 ∧
    idle0.cmdStatus 0x01 (aimed bare 0) = 7 ∧ idle0.cmdStatus 0xFF (cmd 4 [0]) = 9 ∧ idle0.pathOpen (.link 0) = true ∧
    busy.scarabBusy = true ∧ crowd.host.waiting.length = 128 ∧ early.pathOpen (.link 0) = false ∧ busy.host.waiting = [] := by
  refine ⟨takes_of ?_, ?_, ?_, ?_, takes_of ?_, takes_of ?_, takes_of ?_, takes_of ?_, ?_⟩ <;> decide +kernel

theorem test_checks :
    (aft (exec (.idGet bare) busy)).host.waiting = [(0x01, bare)] ∧ (aft (exec (.idGet bare) crowd)).host.waiting.length = 128 ∧
    (aft (exec (.unknownCommand 0x12 { bare with via := .mspi }) idle0)).host.mspiCpl.map (·.status) = [8] ∧
    (aft (exec (.fltRead { bare with via := .mspi }) idle0)).host.mspiCpl.map (fun c => (c.status, c.data.length)) = [(0, 25)] := by
  decide +kernel

theorem test_queries :
    (aft (exec (.repairRead { bare with via := .mspi }) idle0)).host.mspiCpl.map (fun c => (c.status, c.data.length)) = [(0, 256)] ∧
    (aft (exec (.nvInfo { bare with via := .mspi }) idle0)).host.mspiCpl.map (fun c => (c.status, c.data.length)) = [(0, 8)] := by
  decide +kernel

/-- 1,024 writes wait for the next tick in mode M7. -/
def fullRun : State := st { up .mixed with stage := { (up .mixed).stage with host := List.replicate 1024 { tgt := none, op := .write 0 0 } } }

theorem witness_StagedCommandsWait :
    idle0.Takes 0x10 (cmd 4 [0x0007]) ∧ (st rig).Takes 0x40 (cmd 36 (0 :: run8)) ∧ (st rig).Takes 0x41 (cmd 36 (0 :: run8)) ∧
    (st rig).Takes 0x42 (cmd 4 [0x80000000]) ∧ (st rig).Takes 0x43 (cmd 4 [0]) ∧ idle0.Takes 0x61 (cmd 4 [0x008F0000]) ∧
    idle0.Takes 0xA0 (cmd 24 [1, 1, 0, 0, 0, 0]) ∧ idle0.Takes 0xA2 (cmd 24 [1, 0, 0, 0, 0, 0x8000]) ∧
    idle0.Takes 0x10 (aimed (cmd 4 [7]) 1048576) ∧ idle0.Takes 0x10 (aimed (cmd 4 [7]) 0) ∧ full.Takes 0x10 (cmd 4 [7]) ∧
    (0 + 2 ^ 48 - idle0.clk.frame % 2 ^ 48) % 2 ^ 48 = 0 ∧ 1024 < full.stagedFor full.nextTick + 1 := by
  refine ⟨takes_of ?_, takes_of ?_, takes_of ?_, takes_of ?_, takes_of ?_, takes_of ?_, takes_of ?_, takes_of ?_, takes_of ?_,
    takes_of ?_, takes_of ?_, ?_⟩ <;> decide +kernel

theorem test_staged_commands :
    (aft (exec (.modeSet (cmd 4 [7])) idle0)).stage.host.length = 1 ∧ (aft (exec (.runStart (cmd 36 (0 :: run8))) (st rig))).stage.host.length = 1 ∧
    (aft (exec (.runStop (cmd 36 (0 :: run8))) (st rig))).stage.host.length = 1 ∧
    (aft (exec (.runPause (cmd 4 [0])) (st rig))).stage.host.length = 1 ∧ (aft (exec (.runResume (cmd 4 [0])) (st rig))).stage.host.length = 1 ∧
    (aft (exec (.repairRetire (cmd 4 [0])) idle0)).stage.host.length = 1 ∧
    (aft (exec (.pwrSet (cmd 24 [1, 1, 0, 0, 0, 0])) idle0)).stage.host.length = 1 ∧
    (aft (exec (.quadState (cmd 24 [1, 1, 0, 0, 0, 0])) idle0)).stage.host.length = 1 ∧
    (aft (exec (.modeSet (cmd 4 [7])) full)).stage.host.length = 1024 ∧
    (aft (exec (.modeSet (aimed (cmd 4 [7]) 0)) idle0)).bit (aFrm 0x10) 8 = true := by decide +kernel

def thm : Cmd := cmd 12 [0x08000001, 0x005A5550, 0]
def service0 : State := st ((up .idle).onQuad 143 (fun z => { z with st := .service }))

def saves0 : State := st { up .idle with nv := { (up .idle).nv with saves := [{ set_ := .thermal, job := none }] } }
/-- The word that counts recoveries is worn out; eight DSYNC requests wait. -/
def worn (s : State) : State := st { s.toDev with nv := { s.nv with wear := Tab.set (fun _ => 0) (0x454 / 4) (10 ^ 14) [] } }
def eight : State := st { up .mixed with clk := { (up .mixed).clk with resets := (List.range 8).map (fun n => (n + 9, 3)) } }

theorem witness_ImmediateCommandsAct :
    early.Takes 0x11 { bare with via := .mspi } ∧ idle0.Takes 0x30 bare ∧ idle0.Takes 0x51 (cmd 4 [0xFFF]) ∧ idle0.Takes 0x90 bare ∧
    idle0.Takes 0x91 bare ∧ idle0.Takes 0xB1 bare ∧ idle0.Takes 0x62 (cmd 4 [0x008F0000]) ∧ service0.Takes 0x70 (cmd 4 [143]) ∧
    idle0.Takes 0x70 (cmd 4 [143]) ∧ (st (up .calibrate)).Takes 0x71 bare ∧ idle0.Takes 0x20 (cmd 12 [0, 0, 4]) ∧
    idle0.Takes 0x21 (cmd 12 [0, 134217728, 5]) ∧ idle0.Takes 0xA1 (cmd 4 [4]) ∧ idle0.Takes 0xB0 thm ∧
    idle0.Takes 0xB0 (cmd 12 [1, 0, 0]) ∧ idle0.Takes 0xC0 (cmd 8 [1, 0xFFFF]) ∧ (st rig).Takes 0xC1 (aimed bare 2) ∧
    (st rig).Takes 0xC1 (aimed bare 1) ∧ idle0.cmdStatus 0xFF (cmd 4 [0xA5C3]) = 0 ∧ thrOk 0x005A5550 = true ∧ thrOk 0 = false ∧
    Mode.mixed.runs = true ∧ (st rig).farTarget 2 = false ∧ idle0.nv.saves = [] ∧ (service0.quad 143).st = .service ∧
    early.nv.wear.get (fun _ => 0) (0x454 / 4) ≠ 10 ^ 14 ∧ (worn early).nv.wear.get (fun _ => 0) (0x454 / 4) = 10 ^ 14 ∧
    (worn early).cmdStatus 0x11 { bare with via := .mspi } = 0 ∧ diag.clearBusy = [0] ∧ diag.cmdStatus 0x30 bare = 0 ∧ idle0.clearBusy = [] ∧
    (∃ x ∈ saves0.nv.saves, x.set_ = .thermal) ∧ saves0.scarabBusy = false ∧ (thm.params.getD 0 0).bit 0 = true ∧ (cmd 12 [0, 0, 0]).params.getD 0 0 = 0 ∧
    ((eight.clk.resets.filter (fun x => x.2 = 3)).length = 8) ∧ eight.sys.mode.runs = true ∧ eight.farTarget 2 = false := by
  refine ⟨takes_of ?_, takes_of ?_, takes_of ?_, takes_of ?_, takes_of ?_, takes_of ?_, takes_of ?_, takes_of ?_, takes_of ?_,
    takes_of ?_, takes_of ?_, takes_of ?_, takes_of ?_, takes_of ?_, takes_of ?_, takes_of ?_, takes_of ?_, takes_of ?_, ?_⟩ <;>
    decide +kernel

theorem test_immediate :
    (aft (exec (.enterRecovery { bare with via := .mspi }) early)).sys.mode = .recovery ∧
    (aft (exec (.fltAck (cmd 4 [1])) (st (aft (exec (.faultForce hdr 0 0x20000000) idle0))))).sticky 0 = false ∧
    (aft (exec (.patchSave bare) idle0)).nv.saves.length = 1 ∧ (aft (exec (.patchErase bare) idle0)).nv.saves.length = 1 ∧
    (aft (exec (.thmSave bare) idle0)).nv.saves.length = 1 ∧ (aft (exec (.repairClear (cmd 4 [0])) idle0)).nv.saves.length = 1 ∧
    ((aft (exec (.calQuad (cmd 4 [143])) service0)).quad 143).cal = true ∧
    (aft (exec (.calFull bare) (st (up .calibrate)))).host.jobs.length = 1 ∧ (aft (exec (.loadCrc (cmd 12 [0, 0, 4])) idle0)).host.jobs.length = 1 ∧
    (aft (exec (.cisFill (cmd 12 [0, 16, 5])) idle0)).host.jobs.length = 1 := by decide +kernel

theorem test_immediate_2 :
    (aft (exec (.pwrGroups (cmd 4 [4])) idle0)).pwr.groups = 16 ∧ (aft (exec (.pwrGroups (cmd 4 [4])) idle0)).pwr.asked = [([(0x2C, 4)], none)] ∧
    (aft (exec (.mapClear bare) diag)).bit (aHgt 0x2000) 31 = true ∧ (aft (exec (.enterRecovery { bare with via := .mspi }) (worn early))).sticky 291 = true ∧
    (aft (exec (.dsync (aimed bare 2)) eight)).clk.resets.length = 8 ∧ (aft (exec (.patchSave bare) saves0)).nv.saves.length = 2 ∧
    (aft (exec (.thmSave bare) saves0)).nv.saves.map (·.job.isSome) = [true] ∧ (aft (exec (.thmSet thm) idle0)).rd (aThm (16 * 27)) = 0x005A5550 ∧
    (aft (exec (.epoch (cmd 8 [1, 0xFFFF])) idle0)).rd (aFrm 0x1C) = 0xFFFF ∧
    (aft (exec (.dsync (aimed bare 2)) (st rig))).clk.resets = [(2, 3)] ∧ (aft (exec (.dsync (aimed bare 1)) (st rig))).clk.resets = [] ∧
    (aft (exec (.fullReset (cmd 4 [0xA5C3])) idle0)).rd 0x900 = 3 := by decide +kernel

theorem test_map_clear :
    (aft (exec (.mapClear bare) (st ((up .idle).wr (aHgt 4) 0x80000001)))).rd (aHgt 4) = 0 := by decide +kernel

/-- A job runs. -/
def jobs0 (code : Nat) (ps : List W) (m : Mode) : State :=
  st { up m with host := { (up m).host with jobs := [jobOfCmd (cmd 0 ps) code] } }
/-- The last word of a thermal save is being written, or the first of two. -/
def writing (l : List (Nat × W)) : State :=
  st { up .idle with nv := { (up .idle).nv with run := some { save := { set_ := .thermal, job := none }, left := l, gen := 1, filled := true, cut := false } } }
def single : State :=
  st { up .idle with nv := { (up .idle).nv with singles := [{ off := 0x30, val := 9, fin := some { hdr := hdr, words := 1, bad := false } }] } }

/-- The last word of a save that answers a command, with no spare row left. -/
def noSpare : State :=
  st { up .idle with nv := { (up .idle).nv with
    spare := 0, run := some { save := { set_ := .thermal, job := some (jobOfCmd { bare with via := .mspi } 0xB1) }, left := [(0x20, 1)], gen := 1,
                              filled := true, cut := false } } }
/-- The first word of that save, and the same with the save stopped. -/
def firstWord (cut : Bool) : State :=
  st { up .idle with nv := { (up .idle).nv with run := some { save := { set_ := .thermal, job := none }, left := [(0x20, 1)], gen := 1, filled := false, cut := cut } } }

theorem witness_JobsAndSavesEnd :
    (jobs0 0x20 [0xC000000, 0, 4] .idle).jobOf 0x20 ≠ none ∧ (jobs0 0x21 [0, 134217728, 5] .idle).cisBytes = 134217728 ∧
    (jobs0 0x70 [143] .idle).jobOf 0x70 ≠ none ∧ (jobs0 0x71 [] .calibrate).jobOf 0x71 ≠ none ∧ (jobs0 0x70 [143] .idle).jobSaves 0x70 = false ∧ (jobs0 0x71 [] .calibrate).jobSaves 0x71 = false ∧
    (jobs0 0x71 [] .calibrate).nv.calFull = none ∧ (jobs0 0x71 [] .calibrate).calLeft.2.head? = some 0 ∧ (jobs0 0x71 [] .calibrate).nv.run = none ∧
    (jobs0 0x20 [0xC000000, 0, 4] .idle).wordBad 0xC000000 0 none = false ∧ 0xC000000 ≠ aFrm 8 ∧
    saves0.nv.run = none ∧ saves0.nv.saves ≠ [] ∧ idle0.nv.saves = [] ∧ (writing [(0x20, 1)]).nv.singles = [] ∧
    single.nv.singles ≠ [] ∧ single.nv.wear.get (fun _ => 0) (0x30 / 4) ≠ 10 ^ 14 ∧ (writing [(0x20, 1), (0x24, 2)]).host.waiting = [] ∧
    (writing [(0x20, 1)]).nv.spare ≠ 0 ∧ (writing [(0x20, 1)]).Clean 9 ∧ noSpare.nv.spare = 0 ∧ noSpare.Clean 9 ∧ single.Clean 9 := by
  repeat' apply And.intro
  all_goals first | exact clean_of (by decide +kernel) | decide +kernel

theorem test_jobs_end :
    ((jobs0 0x20 [0xC000000, 0, 4] .idle).crcReads (jobOfCmd (cmd 0 [0xC000000, 0, 4]) 0x20) none []).host.jobs = [] ∧
    (aft (exec .loadCrcDone idle0)).host.jobs = idle0.host.jobs ∧
    (aft (exec .cisFillDone (jobs0 0x21 [0, 16, 5] .idle))).word (aCis 12) = 5 ∧
    (aft (exec (.calQuadDone none) (jobs0 0x70 [143] .idle))).nv.saves.length = 1 ∧
    (aft (exec (.calQuadDone (some 719)) (jobs0 0x70 [143] .idle))).host.jobs = [] ∧
    (aft (exec (.calFullDone none) (jobs0 0x71 [] .calibrate))).nv.saves.length = 145 := by decide +kernel

theorem test_saves_end :
    (aft (exec .nvSetSave saves0)).nv.saves = [] ∧ (aft (exec (.nvWriteDone .ok) (writing [(0x20, 1), (0x24, 2)]))).word (aNvr 0x20) = 1 ∧
    (aft (exec (.nvWriteDone .ok) (writing [(0x20, 1)]))).nv.run = none ∧ (aft (exec (.nvWriteDone .ok) (writing [(0x20, 1)]))).nvForce 1 ≠ 0 ∧
    (aft (exec (.nvWriteDone .ok) single)).nv.singles = [] ∧
    (aft (exec .nvSetSave (jobs0 0x71 [] .calibrate))).nv.calFull.map (·.2) = some 1 ∧
    ((aft (exec (.nvWriteDone .ok) (firstWord false))).nv.run.map (fun r => (r.filled, r.left.isEmpty))) = some (true, false) ∧
    (aft (exec (.nvWriteDone .ok) (firstWord true))).nv.run = none := by decide +kernel

/-- The last word of a quad's calibration: 143 quads are left on nominal values. -/
def lastCal : State :=
  st { up .idle with nv := { (up .idle).nv with run := some { save := { set_ := .cal 0 none, job := none }, left := [(0xD000, 0x1005A)], gen := 1,
                                                               filled := true, cut := false } } }

theorem test_cal_none :
    (aft (exec (.nvWriteDone .ok) lastCal)).fld 0x904 7 0 = 143 ∧ lastCal.nvForce 3 = 0 := by decide +kernel

theorem test_failed_words :
    (aft (exec (.nvWriteDone .failed) (writing [(0x20, 1)]))).sticky 290 = true ∧ (aft (exec (.nvWriteDone .failed) (writing [(0x20, 1)]))).word (aNvr 0x20) = 1 ∧
    (aft (exec (.nvWriteDone .failed) single)).word (aNvr 0x30) = 9 := by decide +kernel

/-- 256 staged commands wait; and a job runs. -/
def staged256 : State :=
  st { up .idle with stage := { (up .idle).stage with host := List.replicate 256 { tgt := some 9, op := .cmd (jobOfCmd bare 0x10) } } }

/-- A command that arrives while 256 staged ones await their tick is BUSY, whatever its kind. -/
theorem test_full_store :
    (aft (exec (.fltRead { bare with via := .mspi }) staged256)).host.mspiCpl.map (·.status) = [10] := by decide +kernel

theorem witness_BusyStores :
    idle0.awaiting = 0 ∧ busy.awaiting = 0 ∧
    staged256.awaiting = 256 ∧ staged256.cmdLegal (.link 0) 0x10 7 = true ∧ staged256.badTarget 0x10 none = false ∧
    cmdMasks 0x10 = some [0xFF0F] ∧ staged256.paramsOk 0x10 (jobOfCmd (cmd 4 [7]) 0x10) = true ∧
    staged256.cmdStatus 0x10 (cmd 4 [7]) = 10 ∧ (jobs0 0x20 [0, 0, 4] .idle).cmdStatus 0x20 (cmd 12 [0, 0, 4]) = 10 := by decide +kernel

/-! ### Links, MSPI, TAP -/

/-- Lane `j` of an idle device. -/
def lane0 (j : Nat) (f : Lane → Lane) : State := st ((up .idle).onLane j f)

/-- Lane 15 has been UP for 100 ms. -/
def aged : State := st { (lane0 15 (fun x => { x with st := .up, attempt := 3 })).toDev with clk := { (up .idle).clk with eclk := 625000 * 128 } }

theorem witness_LanesTrainAndBadFlitsComeAgain :
    ((lane0 15 (fun x => { x with st := .train, partner := true })).lane 15).st = .train ∧
    ((lane0 15 (fun x => { x with st := .train, attempt := 3 })).lane 15).attempt = 3 ∧ idle0.srcEn 96 = true ∧
    ((lane0 15 (fun x => { x with st := .up, row := 7 })).lane 15).row = 7 ∧ (idle0.lane 0).st ≠ .train ∧ (idle0.lane 0).st ≠ .up ∧
    (st ((up .idle).wr (aLnk (32 * 15 + 4)) 0)).fld (aLnk (32 * 15 + 4)) 27 16 = 0 ∧
    ([0] : List Nat).length < max 1 (idle0.fld (aLnk 4) 27 16) ∧ idle0.flt.joined = [] ∧ (lane0 15 (fun x => { x with st := .train, attempt := 2 })).lane 15 ≠ laneInit ∧
    625000 * aged.mult ≤ aged.clk.eclk - (aged.lane 15).upAt := by decide +kernel

theorem test_lanes :
    ((aft (exec (.laneTrainDone 15) (lane0 15 (fun x => { x with st := .train, partner := true })))).lane 15).st = .up ∧
    ((aft (exec (.laneTrainDone 15) (lane0 15 (fun x => { x with st := .train })))).lane 15).ready = true ∧
    ((aft (exec (.laneTrainTimeout 15) (lane0 15 (fun x => { x with st := .train, attempt := 2 })))).lane 15).attempt = 3 ∧
    ((aft (exec (.laneTrainTimeout 15) (lane0 15 (fun x => { x with st := .train, attempt := 3 })))).lane 15).st = .failed ∧
    ((aft (exec (.laneLockLoss 15) (lane0 15 (fun x => { x with st := .up })))).lane 15).st = .train ∧
    ((aft (exec (.laneLockLoss 15) aged)).lane 15).attempt = 1 ∧ ((aft (exec (.laneLockLoss 15) (lane0 15 (fun x => { x with st := .up, attempt := 3 })))).lane 15).attempt = 3 ∧
    ((aft (exec (.laneLockLoss 15) (st ((aged.wr (aLnk (32 * 15 + 4)) 1).wr (aLnk (32 * 15 + 8)) 7)))).lane 15).eq = some 7 := by decide +kernel

theorem test_bad_flits :
    (aft (exec (.codewordUncorrectable 0 true) idle0)).sticky 99 = true ∧
    ((aft (exec (.codewordUncorrectable 0 true) idle0)).link 0).nak = true ∧
    ((aft (exec (.codewordUncorrectable 0 false) (lane0 0 (fun x => { x with st := .up, row := 7 })))).lane 0).st ≠ .up ∧
    ((aft (exec (.flitCrcFail 15 true) idle0)).link 3).nak = true ∧ ((aft (exec (.proto 3 .badOp) idle0)).link 3).rx =
      ((idle0.link 3).rx + 1) % 4096 ∧ (aft (exec (.proto 3 .noCredit) idle0)).sticky 100 = true := by decide +kernel

def ctrl (m : BitVec 4) : Ctrl :=
  { nak := false, ackv := false, insvc := m, lane := 3, ack := 0, mem := 65, cmd := 16, ntfy := 4, strm := 0, align := 0 }
/-- The lanes of link 3 are UP. -/
def lanes4 (partner : Bool) : State :=
  st (forN 4 (fun i d => d.onLane (12 + i) (fun x => { x with st := .up, partner := partner })) (up .idle))
def sent3 (n : Nat) : State :=
  st ((lanes4 true).toDev.onLink 3 (fun k => { k with sent := [(0, .ntfy (idle0.ntfyNow 1 0 0))], same := n }))
def told : State :=
  st { (up .idle).onLink 3 (fun k => { k with inSvc := [0] }) with
    host := { (up .idle).host with ntfy := [idle0.ntfyNow 1 0 0], lostF := true } }

/-- The same link in service on its four lanes; and one that has replayed eight times and lost what it sent. -/
def served (n : Nat) : State := st ((sent3 n).toDev.onLink 3 (fun k => { k with inSvc := [0, 1, 2, 3], seq := 1 }))
def spent (n : Nat) : State := st ((lanes4 true).toDev.onLink 3 (fun k => { k with same := n }))

theorem witness_LinksGrantReplayAndNotify :
    (idle0.link 3).queue = [] ∧ widest (idle0.usable 3) = (idle0.link 3).inSvc ∧ ((lanes4 false).link 3).inSvc = [] ∧
    ((lanes4 false).lane 15).st = .up ∧ ((lanes4 true).lane 12).partner = true ∧ (idle0.link 3).sent = [] ∧ (idle0.link 3).same < 8 ∧
    ((sent3 6).link 3).sent ≠ [] ∧ ((sent3 7).link 3).same = 7 ∧ told.firstLink = some 3 ∧ told.host.ntfy ≠ [] ∧ idle0.host.ntfy = [] ∧ widest ((sent3 6).usable 3) = [0, 1, 2, 3] ∧ ((served 6).link 3).inSvc = [0, 1, 2, 3] ∧
    ((served 6).link 3).queue = [] ∧ ((served 6).link 3).unacked = 1 ∧ ((spent 8).link 3).same = 8 ∧ ((spent 8).link 3).sent = [] ∧
    Link.granted { (lanes4 false).link 3 with
      credMem := ((lanes4 false).link 3).credMem + 65, credCmd := ((lanes4 false).link 3).credCmd + 16,
      credNtfy := ((lanes4 false).link 3).credNtfy + 4 } = true := by decide +kernel

theorem test_links :
    ((aft (exec (.ctrlFlit 3 (ctrl 0xF)) (lanes4 false))).link 3).inSvc = [0, 1, 2, 3] ∧
    ((aft (exec (.ctrlFlit 3 (ctrl 0)) idle0)).link 3).credMem = (idle0.link 3).credMem + 65 ∧
    ((aft (exec (.ctrlFlit 3 (ctrl 0xE)) (lanes4 true))).lane 12).st = .train ∧
    ((aft (exec (.replayTimeout 3) (sent3 6))).link 3).same = 7 ∧ ((aft (exec (.replayTimeout 3) (sent3 7))).lane 15).st = .train ∧
    ((aft (exec (.replayTimeout 3) (spent 8))).lane 15).st = .train ∧ ((aft (exec (.ctrlFlit 3 { ctrl 0xF with nak := true }) (served 6))).link 3).same = 7 ∧
    ((aft (exec (.ctrlFlit 3 { ctrl 0xF with ackv := true }) (served 6))).link 3).sent = [] ∧
    ((aft (exec (.ctrlFlit 3 { ctrl 0xF with ackv := true, ack := 1 }) (served 6))).link 3).acked = 4095 ∧
    (aft (exec .ntfySend told)).host.ntfy = [] ∧ (aft (exec .ntfySend told)).host.lostF = false := by decide +kernel

/-- ID_GET by MSPI, without parameters. -/
def idWords : List W := [0x01005000, 0, 0]
def cpl1 : State :=
  st { up .idle with host := { (up .idle).host with
    mspiCpl := [{ code := 1, tag := 5, status := 0, detail := 0, frame := 0, frameV := true, data := [9] }], mspiErr := true } }

theorem witness_ServicePortsAnswer :
    (cmdOf idWords).isSome = true ∧ cmdOf [1] = none ∧ idle0.pathOpen .mspi = true ∧ (st Dev.reset).sys.mode = .reset ∧
    (booting .selfTest .boot).pathOpen .mspi = false ∧ crowd.pathOpen .mspi = true ∧ (BitVec.ofNat 40 1).toNat % 4 ≠ 0 ∧
    idle0.cis.poison = [] ∧ early.sys.boot ≠ .done ∧ cpl1.host.mspiCpl ≠ [] ∧ idle0.anyEngLive = false ∧
    (st Dev.reset).sys.resetLow = true ∧ idle0.sys.resetLow = false ∧ (aft (exec .powerLoss idle0)).sys.unpowered = true ∧
    idle0.mspiServed (aPgm 0 0) = true ∧ idle0.mspiServed (aCis 16) = true ∧ poisoned.wordBad (aCis 16) 0 none = true ∧ early.mspiServed (aPgm 0 0) = false ∧
    (st (up .safe)).modeOk .mspi (aPgm 0 0) 0 = false ∧ inPlay.modeOk .mspi (aCis 0) 0 = true ∧ inPlay.wordInPlay (aCis 0) = true := by
  decide +kernel

theorem test_mspi :
    (aft (exec (.mspiCmd [1]) idle0)).host.mspiErr = true ∧ (aft (exec (.mspiCmd idWords) crowd)).host.mspiCpl.map (·.status) = [10] ∧
    (aft (exec .mspiCpl cpl1)).host.mspiOut = [20, 0x01005000, 4, 0, 0x80000000, 9] ∧ (aft (exec .mspiCpl idle0)).host.mspiOut = [0] ∧
    (aft (exec (.mspiRd (BitVec.ofNat 40 (aPgm 0 0)) 2 ⟨none, []⟩) early)).host.mspiOut = [0, 0] ∧
    (aft (exec (.mspiRd (BitVec.ofNat 40 (aPgm 0 0)) 2 ⟨some 1, []⟩) idle0)).host.mspiOut = [0, 0] ∧
    (aft (exec (.mspiRd (BitVec.ofNat 40 (aNvr 0)) 2 ⟨some 1, []⟩) idle0)).sticky 289 = true ∧
    (aft (exec (.mspiRd (BitVec.ofNat 40 (aNvr 0)) 2 ⟨none, [1]⟩) idle0)).sticky 288 = true ∧
    (aft (exec (.mspiWr (BitVec.ofNat 40 (aFrm 0)) [16]) (st (up .safe)))).bit (aFrm 0x10) 6 = true ∧
    (aft (exec (.mspiWr (BitVec.ofNat 40 (aCis 0)) [16]) inPlay)).host.mspiErr = true ∧
    (aft (exec (.mspiWr (BitVec.ofNat 40 (aPgm 0 0)) [7, 8]) idle0)).word (aPgm 0 4) = 8 ∧
    (aft (exec .mspiStat cpl1)).host.mspiOut = [0x3D] ∧ (aft (exec .mspiStat cpl1)).host.mspiErr = false ∧
    (aft (exec .mspiBadOpcode idle0)).host.mspiErr = true := by decide +kernel

theorem test_tap :
    (aft (exec .bypass idle0)).jtag = .bypass ∧ (aft (exec .idcode idle0)).jtag = .idcode ∧
    (aft (exec .samplePreload idle0)).jtag = .samplePreload ∧ (aft (exec .extest idle0)).jtag = .bypass ∧
    (aft (exec .extest (st Dev.reset))).jtag = .extest ∧ (aft (exec .clamp (st Dev.reset))).jtag = .clamp ∧
    (aft (exec .highz (st Dev.reset))).jtag = .highz ∧ (aft (exec .extestPulse (st Dev.reset))).jtag = .extestPulse ∧
    (aft (exec .extestTrain idle0)).jtag = .bypass := by decide +kernel

end Sys2Proof.Tests
end

section
/-! PROOFS. The drain of the fail queues where no fail and no LOGF waits (R209), and the refutation of O42: the
statement also ranges over states whose table of occupancies lists a queue twice. -/

namespace Sys2Proof.Machine

/-! ### A table with every entry changed -/

/-- A table whose keys all lie above a key reads there as unlisted. -/
theorem Tab.get_of_above {α : Type} (d : Nat → α) {t : Tab α} {k : Nat} (h : t.above k = true) : t.get d k = d k := by
  induction t with
  | nil => rfl
  | cons p r ih =>
    obtain ⟨hk, hr⟩ := Bool.and_eq_true_iff.mp h
    have hk := of_decide_eq_true hk
    rw [Tab.get, if_neg (by omega), ih (above_of_le hk.le hr)]

/-- In a table with rising keys, a change of every entry changes what each key reads as. -/
theorem Tab.get_upd_of_rising {α : Type} [DecidableEq α] {d : α} {f : α → α} (hf : f d = d) {t : Tab α}
    (h : t.rising = true) (k : Nat) : (t.upd d f).get (fun _ => d) k = f (t.get (fun _ => d) k) := by
  induction t with
  | nil => exact hf.symm
  | cons p r ih =>
    obtain ⟨j, v⟩ := p
    have hr : Tab.rising r = true := by
      cases r with
      | nil => rfl
      | cons q r => exact (Bool.and_eq_true_iff.mp h).2
    have hcons : Tab.upd d f ((j, v) :: r) = if f v = d then Tab.upd d f r else (j, f v) :: Tab.upd d f r := by
      by_cases hv : f v = d <;> simp [Tab.upd, Tab.updAt, hv]
    rw [hcons, Tab.get]
    by_cases hk : j = k
    · subst hk
      split
      next hv => rw [if_pos rfl, ih hr, Tab.get_of_above _ h, hf, hv]
      next => simp [Tab.get]
    · rw [if_neg hk, ← ih hr]
      split
      next => rfl
      next => rw [Tab.get, if_neg hk]

/-! ### The drain -/

/-- Every cluster's queue passes its oldest entry to the holding store (R209). -/
def Dev.passQueues (s : Dev) : Dev := { s with led := { s.led with occ := s.led.occ.upd 0 (· - 1) } }

theorem Dev.flushOffers_of_nil {s : Dev} (h : s.led.offers = []) : s.flushOffers = s := by
  unfold Dev.flushOffers; rw [h]

theorem Dev.settleLogs_of_idle {s : Dev} (ho : s.led.offers = []) (hl : s.led.logs = 0) : s.settleLogs = s := by
  unfold Dev.settleLogs
  rw [Dev.flushOffers_of_nil ho, if_pos hl]

/-- Where no fail and no LOGF waits, a drain passes the queues' entries and raises LDG_ECC2 for the bad ones (R209, R308). -/
theorem Dev.queueDrain_of_idle {s : Dev} (ho : s.led.offers = []) (hl : s.led.logs = 0) (bad : List Nat) :
    s.queueDrain bad = if bad.isEmpty then s.passQueues else s.passQueues.raise (raiseAt 134 2 bad) := by
  have hlogs : s.led.logs ≠ 1 := by omega
  simp only [Dev.queueDrain, Dev.flushOffers_of_nil ho, if_neg hlogs, Dev.settleLogs_of_idle ho hl]
  rfl

theorem exec_failQueueDrain (bad : List (Fin 256)) (s : State) :
    exec (.failQueueDrain bad) s = .next { s with toDev := s.queueDrain (bad.map (·.val)) } := rfl

theorem Dev.occ_passQueues_of_rising {s : Dev} (h : s.led.occ.rising = true) (k : Nat) :
    s.passQueues.occ k = s.occ k - 1 :=
  Tab.get_upd_of_rising (f := (· - 1)) rfl h k

/-- The clause of O42 that the refutation breaks holds wherever the keys of the table of occupancies rise, as `Tab.set`
and `Tab.upd` keep them: what the statement lacks is that hypothesis. -/
theorem failQueueDrain_of_rising (s : State) (hl : s.led.logs = 0) (ho : s.led.offers = [])
    (h : s.led.occ.rising = true) (bad : List (Fin 256)) :
    ∃ t : Dev, exec (.failQueueDrain bad) s = .next { s with toDev := t } ∧ (∀ k, t.occ k = s.occ k - 1) ∧
      (bad ≠ [] → Dev.Raised { s.toDev with led := t.led } t 134) ∧ (bad = [] → { t with led := s.led } = s.toDev) := by
  refine ⟨_, exec_failQueueDrain bad s, ?_⟩
  rw [Dev.queueDrain_of_idle ho hl]
  by_cases hb : bad = []
  · subst hb
    exact ⟨Dev.occ_passQueues_of_rising h, fun hn => absurd rfl hn, fun _ => rfl⟩
  · rw [if_neg (by simpa using hb)]
    have hr := s.passQueues.raise_raised (raiseAt 134 2 (bad.map (·.val))) ⟨by simp [raiseAt], by simp [raiseAt]⟩
    have hled := hr.rest.led
    refine ⟨fun k => ?_, fun _ => ?_, fun hn => absurd hn hb⟩
    · rw [← Dev.occ_passQueues_of_rising h]
      exact congrArg (fun l : Led => l.occ.get (fun _ => 0) k) hled
    · rw [hled]; exact hr

/-! ### O42 -/

/-- The device at reset, with two entries listed for queue 0: the first, an occupancy of 1, hides the second. No run
from reset lists a queue twice. -/
def shadowedQueue : State :=
  { State.reset with led := { State.reset.led with occ := [(0, 1), (0, 2)] } }

/-- The invariant does not rule the shadowed queue out: it says nothing of the table of occupancies. -/
theorem shadowedQueue_inv : shadowedQueue.Inv :=
  ⟨{ Dev.reset_canonical with }, { Dev.reset_inv.settled with }⟩

/-- The first entry falls to 0 and is dropped, which uncovers the second, now 1: queue 0 reads 1 before and after. -/
theorem shadowedQueue_occ : shadowedQueue.occ 0 = 1 ∧ shadowedQueue.passQueues.occ 0 = 1 := by decide

/-- Refutes O42: the statement asks of every state that a drain lowers every queue's occupancy by one, and in
`shadowedQueue`, whose table is not canonical, queue 0 reads 1 before the drain and 1 after it. -/
theorem not_strobesJudgeCompares : ¬ Obligations.StrobesJudgeCompares := by
  unfold Obligations.StrobesJudgeCompares
  intro h
  obtain ⟨-, -, hdrain, -⟩ := h shadowedQueue rfl
  obtain ⟨t, ht, hocc, -⟩ := hdrain [] rfl
  have heq : t = shadowedQueue.passQueues := by
    rw [exec_failQueueDrain, Dev.queueDrain_of_idle rfl rfl] at ht
    injection ht with ht
    exact (congrArg State.toDev ht).symm
  obtain ⟨hbefore, hafter⟩ := shadowedQueue_occ
  have := hocc 0
  rw [heq, hbefore, hafter] at this
  omega

end Sys2Proof.Machine
end

section
/-! PROOFS. How a command arrives and is taken (R353, R355, R356, R360), and its completion (R350-R352): what the
statements about the command set share. -/

namespace Sys2Proof.Machine

/-! ### Completions -/

/-- No message is lost where a link sends what may go: each stays queued or stands in the replay window (R335, R343). -/
theorem Link.mem_pumpGo {m : Msg} (ms : List Msg) (held : List Nat) (k : Link)
    (h : m ∈ ms ∨ m ∈ k.sent.map (·.2)) :
    m ∈ (Link.pumpGo ms held k).queue ∨ m ∈ (Link.pumpGo ms held k).sent.map (·.2) := by
  induction ms generalizing held k with
  | nil => exact h.elim (fun hn => absurd hn (by simp)) .inr
  | cons x r ih =>
    unfold Link.pumpGo
    split
    · refine ih held (k.send x) ?_
      have hsent : (k.send x).sent.map (·.2) = k.sent.map (·.2) ++ [x] := by simp [Link.send]
      rw [hsent, List.mem_append, List.mem_singleton]
      rcases h with h | h
      · exact (List.mem_cons.mp h).elim (fun e => .inr (.inr e)) .inl
      · exact .inr (.inl h)
    · rcases h with h | h
      · rcases List.mem_cons.mp h with rfl | h
        · exact .inl List.mem_cons_self
        · exact (ih (x.cls :: held) k (.inl h)).imp_left (List.mem_cons_of_mem x)
      · exact (ih (x.cls :: held) k (.inr h)).imp_left (List.mem_cons_of_mem x)

theorem Dev.said_sendMsg (s : Dev) (l : Nat) (m : Msg) : (s.sendMsg l m).Said m := by
  refine ⟨if (s.link l).inSvc.isEmpty then s.firstLink.getD l else l, ?_⟩
  unfold Dev.sendMsg Dev.onLink
  dsimp only
  rw [Dev.link_setLink_self]
  exact Link.mem_pumpGo _ [] _ (.inl (by simp))

/-- A completion answers the command with the frame of the device that it began on. -/
theorem Dev.answersCmd_complete {s v : Dev} (j : Job) (status detail : Nat) (data : List W)
    (hticked : v.clk.ticked = s.clk.ticked) (hframe : v.clk.frame = s.clk.frame)
    (hcpl : v.host.mspiCpl = s.host.mspiCpl) :
    s.AnswersCmd (v.complete j status detail data) j status detail data := by
  unfold Dev.AnswersCmd Dev.complete
  rw [hticked, hframe]
  cases hvia : j.via with
  | mspi => exact congrArg (· ++ _) hcpl
  | link l => exact Dev.said_sendMsg v l.val _

/-- The scarab has taken the one command that waited. -/
def Dev.emptied (s : Dev) : Dev := { s with host := { s.host with waiting := [] } }

/-- The device as a completion leaves it once nothing waits: the MSPI completions and the links differ. -/
def Dev.done (s : Dev) (cpls : List CmdCpl) (links : Tab Link) : Dev :=
  { s with host := { s.host with waiting := [], mspiCpl := cpls }, links := links }

/-- A completion, said once: it differs in the MSPI completions and the links, and it answers. -/
theorem Dev.complete_done {s v : Dev} (j : Job) (status detail : Nat) (data : List W)
    (hticked : v.clk.ticked = s.clk.ticked) (hframe : v.clk.frame = s.clk.frame)
    (hcpl : v.host.mspiCpl = s.host.mspiCpl) :
    ∃ m l, (v.complete j status detail data).emptied = v.done m l ∧ s.AnswersCmd (v.done m l) j status detail data := by
  have hans := Dev.answersCmd_complete j status detail data hticked hframe hcpl
  cases hvia : j.via with
  | mspi =>
    have heq : (v.complete j status detail data).emptied =
        v.done (v.complete j status detail data).host.mspiCpl v.links := by
      simp only [Dev.complete, hvia]; rfl
    refine ⟨_, _, heq, ?_⟩
    rw [Dev.AnswersCmd, hvia] at hans ⊢
    exact hans
  | link l =>
    have heq : (v.complete j status detail data).emptied =
        v.done v.host.mspiCpl (v.complete j status detail data).links := by
      simp only [Dev.complete, hvia]; rfl
    refine ⟨_, _, heq, ?_⟩
    rw [Dev.AnswersCmd, hvia] at hans ⊢
    exact hans

/-! ### Arrival -/

/-- The device as the scarab looks at a command that arrived: the links and the store of commands differ. -/
def Dev.holding (s : Dev) (links : Tab Link) (waiting : List (Nat × Cmd)) : Dev :=
  { s with links := links, host := { s.host with waiting := waiting } }

theorem Dev.received_eq_holding (s : Dev) (v : Via) (n : Nat) :
    s.received v n = s.holding (s.received v n).links s.host.waiting := by
  cases v <;> rfl

@[simp] theorem Dev.cmdStatus_holding (s : Dev) (l : Tab Link) (w : List (Nat × Cmd)) (code : Nat) (c : Cmd) :
    (s.holding l w).cmdStatus code c = s.cmdStatus code c := rfl

@[simp] theorem Dev.scarabBusy_holding (s : Dev) (l : Tab Link) (w : List (Nat × Cmd)) :
    (s.holding l w).scarabBusy = s.scarabBusy := rfl

theorem Dev.storesFull_iff (s : Dev) : s.storesFull = true ↔ 128 ≤ s.host.waiting.length ∨ 256 ≤ s.awaiting := by
  simp [Dev.storesFull]

theorem Dev.receive_of_closed {s : Dev} {code : Nat} {c : Cmd} (hp : s.pathOpen c.via = false) : s.receive code c = s := by
  rw [Dev.receive, hp, Bool.not_false, if_pos rfl]

/-- FULL_RESET is taken ahead of every command that waits (R360). -/
theorem Dev.receive_fullReset {s : Dev} {c : Cmd} (hp : s.pathOpen c.via = true) :
    ∃ l, s.receive 0xFF c = (s.holding l s.host.waiting).take 0xFF c := by
  refine ⟨(s.received c.via (cmdFlits c.plen)).links, ?_⟩
  rw [Dev.receive, hp, Bool.not_true, if_neg Bool.false_ne_true, if_pos rfl, Dev.received_eq_holding]
  rfl

/-- A command that finds a store full is BUSY (R356). -/
theorem Dev.receive_of_full {s : Dev} {code : Nat} {c : Cmd} (hp : s.pathOpen c.via = true) (hc : code ≠ 0xFF)
    (hf : 128 ≤ s.host.waiting.length ∨ 256 ≤ s.awaiting) :
    ∃ l, s.receive code c = (s.holding l s.host.waiting).complete (jobOfCmd c code) 10 0 [] := by
  refine ⟨(s.received c.via (cmdFlits c.plen)).links, ?_⟩
  have hfull : (s.holding (s.received c.via (cmdFlits c.plen)).links s.host.waiting).storesFull = true :=
    s.storesFull_iff.mpr hf
  rw [Dev.receive, hp, Bool.not_true, if_neg Bool.false_ne_true, if_neg hc, Dev.received_eq_holding, hfull, if_pos rfl]
  rfl

/-- A command that finds room joins those that wait (R355, R356). -/
theorem Dev.receive_of_room {s : Dev} {code : Nat} {c : Cmd} (hp : s.pathOpen c.via = true) (hc : code ≠ 0xFF)
    (hw : s.host.waiting.length < 128) (ha : s.awaiting < 256) :
    s.receive code c =
      (s.holding (s.received c.via (cmdFlits c.plen)).links (s.host.waiting ++ [(code, c)])).drain := by
  have hfull : (s.holding (s.received c.via (cmdFlits c.plen)).links s.host.waiting).storesFull ≠ true :=
    fun h => by have := s.storesFull_iff.mp h; omega
  rw [Dev.receive, hp, Bool.not_true, if_neg Bool.false_ne_true, if_neg hc, Dev.received_eq_holding, if_neg hfull]
  rfl

/-- While a command keeps the scarab, those that wait stay (R355). -/
theorem Dev.takeAll_of_busy {s : Dev} (h : s.scarabBusy = true) (l : List (Nat × Cmd)) :
    Dev.takeAll l s = { s with host := { s.host with waiting := l } } := by
  cases l with
  | nil => rfl
  | cons x r => rw [Dev.takeAll, if_pos h]

/-- A command that came alone is taken at once. -/
theorem Dev.receive_of_idle {s : Dev} {code : Nat} {c : Cmd} (hp : s.pathOpen c.via = true) (hw : s.host.waiting = [])
    (ha : s.awaiting < 256) (hb : s.scarabBusy = false) (hc : code ≠ 0xFF) :
    ∃ l w, s.receive code c = ((s.holding l w).take code c).emptied := by
  refine ⟨(s.received c.via (cmdFlits c.plen)).links, [(code, c)], ?_⟩
  rw [Dev.receive_of_room hp hc (by rw [hw]; decide) ha, Dev.drain, hw, List.nil_append]
  show Dev.takeAll [(code, c)] _ = _
  rw [Dev.takeAll, Dev.scarabBusy_holding, hb, if_neg Bool.false_ne_true]
  rfl

/-! ### Taking -/

/-- A check refuses the command (R353). -/
theorem Dev.take_of_refused {s : Dev} {code : Nat} {c : Cmd} (h : s.cmdStatus code c ≠ 0) :
    s.take code c = s.complete (jobOfCmd c code) (s.cmdStatus code c) 0 [] := by
  rw [Dev.take, if_pos h]

/-- A command of kind I or J that passes the checks is carried out (R354). -/
theorem Dev.take_of_ok {s : Dev} {code : Nat} {c : Cmd} (h : s.cmdStatus code c = 0) (hs : isStagedCmd code = false) :
    ∃ tgt, s.take code c = s.carryOut (jobOfCmd c code) tgt ∧ ∀ T, c.tgt = some T → tgt = T.toNat := by
  refine ⟨_, by rw [Dev.take, h, if_neg (by simp), hs, if_neg Bool.false_ne_true], fun T hT => by rw [hT]⟩

/-- With nothing waiting, the store is as it was. -/
theorem Dev.with_no_waiting {s : Dev} (hw : s.host.waiting = []) :
    ({ s with host := { s.host with waiting := [] } } : Dev) = s := by
  rw [← hw]

/-- A completion that came from the device as it stood has only answered. -/
theorem Dev.answered_done {s : Dev} (hw : s.host.waiting = []) (l l' : Tab Link) (w : List (Nat × Cmd)) (m : List CmdCpl) :
    s.Answered ((s.holding l w).done m l') := Dev.with_no_waiting hw

/-- A completion of a command that waits with others has only answered. -/
theorem Dev.complete_holding (s : Dev) (l : Tab Link) (j : Job) (status detail : Nat) (data : List W) :
    s.Answered ((s.holding l s.host.waiting).complete j status detail data) ∧
      s.AnswersCmd ((s.holding l s.host.waiting).complete j status detail data) j status detail data := by
  refine ⟨?_, Dev.answersCmd_complete (s := s) j status detail data rfl rfl rfl⟩
  unfold Dev.Answered Dev.complete
  cases j.via <;> rfl

/-- An answer to a command that came alone has done nothing else. -/
theorem Dev.complete_emptied {s : Dev} (hw : s.host.waiting = []) (l : Tab Link) (w : List (Nat × Cmd)) (j : Job)
    (status detail : Nat) (data : List W) :
    s.Answered ((s.holding l w).complete j status detail data).emptied ∧
      s.AnswersCmd ((s.holding l w).complete j status detail data).emptied j status detail data := by
  obtain ⟨m, l', ht, ha⟩ := Dev.complete_done (s := s) (v := s.holding l w) j status detail data rfl rfl rfl
  rw [ht]
  exact ⟨Dev.answered_done hw l l' w m, ha⟩

end Sys2Proof.Machine
end

section
/-! PROOFS. The checks of a command, and the queries (R353, R355, R356, R361, R363-R370, R390): O53. -/

namespace Sys2Proof.Machine

/-! ### Rows and checks -/

/-- The rows of the catalogue, and the one for a code outside it, with the codes they bring. -/
def commandRows (k : BitVec 8) (c : Cmd) : List (Instr × Nat) :=
  [(.idGet c, 0x01), (.modeSet c, 0x10), (.enterRecovery c, 0x11), (.loadCrc c, 0x20), (.cisFill c, 0x21),
    (.mapClear c, 0x30), (.runStart c, 0x40), (.runStop c, 0x41), (.runPause c, 0x42), (.runResume c, 0x43),
    (.fltRead c, 0x50), (.fltAck c, 0x51), (.repairRead c, 0x60), (.repairRetire c, 0x61), (.repairClear c, 0x62),
    (.calQuad c, 0x70), (.calFull c, 0x71), (.nvInfo c, 0x80), (.patchSave c, 0x90), (.patchErase c, 0x91),
    (.pwrSet c, 0xA0), (.pwrGroups c, 0xA1), (.quadState c, 0xA2), (.thmSet c, 0xB0), (.thmSave c, 0xB1),
    (.epoch c, 0xC0), (.dsync c, 0xC1), (.fullReset c, 0xFF), (.unknownCommand k c, k.toNat)]

/-- Every row of the catalogue is the arrival of its code. -/
theorem exec_of_mem_commandRows {k : BitVec 8} {c : Cmd} {i : Instr} {code : Nat} (h : (i, code) ∈ commandRows k c)
    (s : State) : exec i s = .next { s with toDev := s.receive code c } := by
  have hall : ∀ x ∈ commandRows k c, exec x.1 s = .next { s with toDev := s.receive x.2 c } := by
    simp only [commandRows, List.forall_mem_cons, List.not_mem_nil, false_implies, implies_true, and_true]
    refine ⟨rfl, rfl, rfl, rfl, rfl, rfl, rfl, rfl, rfl, rfl, rfl, rfl, rfl, rfl, rfl, rfl, rfl, rfl, rfl, rfl, rfl, rfl,
      rfl, rfl, rfl, rfl, rfl, rfl, rfl⟩
  exact hall _ h

theorem cmdMasks_of_not_mem_catalogue {code : Nat} (h : code ∉ catalogue) : cmdMasks code = none := by
  have hne : ∀ n ∈ catalogue, code ≠ n := fun n hn e => h (e ▸ hn)
  have hlist : ¬([0x01, 0x11, 0x30, 0x50, 0x60, 0x71, 0x80, 0x90, 0x91, 0xB1, 0xC1] : List Nat).contains code = true :=
    fun hc => h ((by decide : ([0x01, 0x11, 0x30, 0x50, 0x60, 0x71, 0x80, 0x90, 0x91, 0xB1, 0xC1] : List Nat) ⊆ catalogue)
      (List.contains_iff_mem.mp hc))
  unfold cmdMasks
  dsimp only
  rw [if_neg hlist, if_neg (hne 0x10 (by decide)), if_neg (hne 0x20 (by decide)), if_neg (hne 0x21 (by decide)),
    if_neg (hne 0x40 (by decide)), if_neg (hne 0x41 (by decide)),
    if_neg (not_or.mpr ⟨hne 0x42 (by decide), hne 0x43 (by decide)⟩), if_neg (hne 0x51 (by decide)),
    if_neg (not_or.mpr ⟨hne 0x61 (by decide), hne 0x62 (by decide)⟩), if_neg (hne 0x70 (by decide)),
    if_neg (hne 0xA0 (by decide)), if_neg (hne 0xA1 (by decide)), if_neg (hne 0xA2 (by decide)),
    if_neg (hne 0xB0 (by decide)), if_neg (hne 0xC0 (by decide)), if_neg (hne 0xFF (by decide))]

/-- A code outside the catalogue is BAD_CODE (R353 check 1). -/
theorem Dev.cmdStatus_of_not_mem_catalogue (s : Dev) (c : Cmd) {code : Nat} (h : code ∉ catalogue) :
    s.cmdStatus code c = 8 := by
  rw [Dev.cmdStatus, cmdMasks_of_not_mem_catalogue h]

/-- A catalogue row has nine parameter words at most. -/
theorem cmdMasks_length_le {code : Nat} {ms : List W} (h : cmdMasks code = some ms) : ms.length ≤ 9 := by
  have hcat : code ∈ catalogue := by_contra (fun hn => by simp [cmdMasks_of_not_mem_catalogue hn] at h)
  have hall : ∀ n ∈ catalogue, (cmdMasks n).all (fun ms => ms.length ≤ 9) = true := by decide
  simpa [h] using hall code hcat

/-- The checks before BUSY pass (R353 checks 1 to 5). -/
structure Dev.Passes (s : Dev) (code : Nat) (c : Cmd) (ms : List W) : Prop where
  masks  : cmdMasks code = some ms
  plen   : c.plen = 4 * ms.length
  words  : c.params.length = ms.length
  path   : s.mspiTakes c.via code = true
  legal  : s.cmdLegal c.via code (cmdParam c 0) = true
  target : s.badTarget code c.tgt = false
  unused : ∀ x ∈ ms.zip c.params, x.2 &&& ~~~x.1 = 0
  params : s.paramsOk code (jobOfCmd c code) = true

/-- One that passes the checks before BUSY has the status of that check alone. -/
theorem Dev.Passes.cmdStatus {s : Dev} {code : Nat} {c : Cmd} {ms : List W} (h : s.Passes code c ms) :
    s.cmdStatus code c = if s.cmdBusy code then 10 else 0 := by
  have hms := cmdMasks_length_le h.masks
  have hlen : (c.plen % 4 ≠ 0 || 2048 < c.plen || c.plen ≠ 4 * ms.length || c.params.length ≠ ms.length) = false := by
    simp only [h.plen, h.words, ne_eq, not_true, decide_false, Bool.or_false, Bool.or_eq_false_iff,
      decide_eq_false_iff_not]
    omega
  have hany : (ms.zip c.params).any (fun x => x.2 &&& ~~~x.1 ≠ 0) = false := by
    simpa [List.any_eq_false] using fun a b hab => h.unused (a, b) hab
  simp only [Dev.cmdStatus, h.masks, hlen, h.path, h.legal, h.target, hany, h.params, Bool.and_self, Bool.not_true,
    Bool.or_self, Bool.false_eq_true, if_false]

/-- Check 6: the staged commands have no room, or a job of the code runs (R356). -/
theorem Dev.cmdBusy_of_staged_or_job {s : Dev} {code : Nat}
    (h : (isStagedCmd code = true ∧ 256 ≤ s.awaiting) ∨ (isJob code = true ∧ ∃ j ∈ s.host.jobs, j.code = code)) :
    s.cmdBusy code = true := by
  rcases h with ⟨hs, ha⟩ | ⟨hj, j, hmem, hcode⟩
  · simp [Dev.cmdBusy, hs, ha]
  · have hany : s.host.jobs.any (fun j => j.code = code) = true := List.any_eq_true.mpr ⟨j, hmem, by simpa using hcode⟩
    simp [Dev.cmdBusy, hj, hany]

/-! ### Commands that do nothing but answer -/

section
variable {s : State} {i : Instr} {code : Nat} {c : Cmd} (hi : exec i s = .next { s with toDev := s.receive code c })
include hi

/-- A refused command completes with the status of the check and does nothing else (R353). -/
theorem exec_of_refused (hp : s.pathOpen c.via = true) (hw : s.host.waiting = []) (ha : s.awaiting < 256 ∨ code = 0xFF)
    (hb : s.scarabBusy = false) (hst : s.cmdStatus code c ≠ 0) :
    ∃ t : Dev, exec i s = .next { s with toDev := t } ∧ s.Answered t ∧
      s.AnswersCmd t (jobOfCmd c code) (s.cmdStatus code c) 0 [] := by
  refine ⟨_, hi, ?_⟩
  by_cases hc : code = 0xFF
  · subst hc
    obtain ⟨l, hl⟩ := Dev.receive_fullReset hp
    rw [hl, Dev.take_of_refused (by simpa using hst), Dev.cmdStatus_holding]
    exact s.complete_holding l _ _ _ _
  · obtain ⟨l, w, hl⟩ := Dev.receive_of_idle hp hw (ha.resolve_right hc) hb hc
    rw [hl, Dev.take_of_refused (by simpa using hst), Dev.cmdStatus_holding]
    exact Dev.complete_emptied hw l w _ _ _ _

/-- A command that finds a store full completes BUSY and does nothing else (R356). -/
theorem exec_of_full (hp : s.pathOpen c.via = true) (hf : 128 ≤ s.host.waiting.length ∨ 256 ≤ s.awaiting)
    (hc : code ≠ 0xFF) :
    ∃ t : Dev, exec i s = .next { s with toDev := t } ∧ s.Answered t ∧ s.AnswersCmd t (jobOfCmd c code) 10 0 [] := by
  obtain ⟨l, hl⟩ := Dev.receive_of_full hp hc hf
  refine ⟨_, hi, ?_⟩
  rw [hl]
  exact s.complete_holding l _ _ _ _

/-- While a command keeps the scarab, a command joins those that wait (R355). -/
theorem exec_of_busy (hp : s.pathOpen c.via = true) (hw : s.host.waiting.length < 128) (ha : s.awaiting < 256)
    (hb : s.scarabBusy = true) (hc : code ≠ 0xFF) :
    ∃ t : Dev, exec i s = .next { s with toDev := t } ∧ t.host.waiting = s.host.waiting ++ [(code, c)] ∧
      { t with host := { t.host with waiting := s.host.waiting }, links := s.links } = s.toDev := by
  refine ⟨_, hi, ?_⟩
  rw [Dev.receive_of_room hp hc hw ha, Dev.drain, Dev.takeAll_of_busy (by simpa using hb)]
  exact ⟨rfl, rfl⟩

end

/-- A command that the scarab takes at once and carries out (R354, R355). -/
theorem exec_of_takes {s : State} {i : Instr} {code : Nat} {c : Cmd} {P : Dev → Prop}
    (hi : exec i s = .next { s with toDev := s.receive code c }) (hs : isStagedCmd code = false) (hc : code ≠ 0xFF)
    (hP : s.host.waiting = [] → ∀ l w tgt, (∀ T, c.tgt = some T → tgt = T.toNat) →
      P ((s.holding l w).carryOut (jobOfCmd c code) tgt).emptied) :
    s.Takes code c → ∃ t : Dev, exec i s = .next { s with toDev := t } ∧ P t := by
  intro h
  obtain ⟨l, w, hl⟩ := Dev.receive_of_idle h.path h.idle h.room h.free hc
  obtain ⟨tgt, htake, htgt⟩ := Dev.take_of_ok (s := s.holding l w) (by simpa using h.ok) hs
  refine ⟨_, hi, ?_⟩
  rw [hl, htake]
  exact hP h.idle l w tgt htgt

/-! ### The queries -/

/-- What ID_GET answers, with the two words of the serial number (R365). -/
def Dev.idReply (s : Dev) (lo hi : W) : List W :=
  [0xC0B50576, Config.fwVersion.setWidth 32 <<< 16 ||| Config.stepping.setWidth 32, lo, hi,
   at1 9 s.sys.recov ||| at1 8 s.sys.master ||| s.sys.devid.setWidth 32, Config.romVersion,
   s.readWord (aUcs 0x8104), s.readWord 0x100]

/-- UCS_STAT of the microcode store shows its card and whether two match registers name one address (R119). -/
theorem Dev.readWord_ucsStat (s : Dev) : s.readWord (aUcs 0x8104) = s.rd (aUcs 0x8104) ||| at1 30 s.dupMatch := rfl

theorem Dev.dupMatch_wr (s : Dev) {a : Nat} (v : W) (h : a < aUcs 0) : (s.wr a v).dupMatch = s.dupMatch := by
  have hrd : ∀ o, (s.wr a v).rd (aUcs o) = s.rd (aUcs o) :=
    fun o => Dev.rd_wr_of_ne s (by unfold aUcs at *; omega) v
  simp only [Dev.dupMatch, hrd]

/-- ID_BAD leaves what ID_GET reports else. -/
theorem Dev.idReply_setBits (s : Dev) (m lo hi : W) : (s.setBits 0x904 m).idReply lo hi = s.idReply lo hi := by
  have hucs : (s.setBits 0x904 m).readWord (aUcs 0x8104) = s.readWord (aUcs 0x8104) := by
    rw [Dev.readWord_ucsStat, Dev.readWord_ucsStat, Dev.setBits, Dev.dupMatch_wr _ _ (by decide),
      Dev.rd_wr_of_ne _ (by decide)]
  rw [Dev.idReply, hucs]
  rfl

theorem Dev.idReply_holding (s : Dev) (l : Tab Link) (w : List (Nat × Cmd)) (lo hi : W) :
    (s.holding l w).idReply lo hi = s.idReply lo hi := by
  have hucs : (s.holding l w).readWord (aUcs 0x8104) = s.readWord (aUcs 0x8104) := by
    rw [Dev.readWord_ucsStat, Dev.readWord_ucsStat]; rfl
  rw [Dev.idReply, hucs]
  rfl

/-- ID_GET with an identity copy that matches. -/
theorem Dev.idGet_of_ok {s : Dev} (j : Job) (h : s.idOk [] 0 = true ∨ s.idOk [] 1 = true) :
    s.idGet j = s.complete j 0 0
      (s.idReply (s.nvWord (if s.idOk [] 0 then 8 else 0x208)) (s.nvWord ((if s.idOk [] 0 then 8 else 0x208) + 4))) := by
  have hgood : (s.idOk [] 0 || s.idOk [] 1) = true := Bool.or_eq_true_iff.mpr h
  have hcheck : s.idCheck [] = s := if_pos hgood
  simp only [Dev.idGet, hcheck, hgood, if_true]
  rfl

/-- ID_GET with none: ID_BAD, and a serial number of zeros. -/
theorem Dev.idGet_of_bad {s : Dev} (j : Job) (h0 : s.idOk [] 0 = false) (h1 : s.idOk [] 1 = false) :
    s.idGet j = (s.setBits 0x904 0x40000000).complete j 0 0 (s.idReply 0 0) := by
  have hgood : (s.idOk [] 0 || s.idOk [] 1) = false := Bool.or_eq_false_iff.mpr ⟨h0, h1⟩
  have hcheck : s.idCheck [] = s.setBits 0x904 0x40000000 := if_neg (by rw [hgood]; exact Bool.false_ne_true)
  rw [← s.idReply_setBits 0x40000000]
  simp only [Dev.idGet, hcheck, hgood, Bool.false_eq_true, if_false]
  rfl

/-- Bits set in a card read back. -/
theorem Dev.bit_setBits_self (s : Dev) (a i : Nat) (m : W) (h : m.bit i = true) : (s.setBits a m).bit a i = true := by
  rw [Dev.bit, Dev.setBits, Dev.rd_wr_self, W.bit, BitVec.getLsbD_or, show m.getLsbD i = true from h, Bool.or_true]

/-- ID_GET where no copy matches: its answer, ID_BAD, and no other card. -/
theorem idGet_shows_idBad (s : State) (c : Cmd) (h0 : s.idOk [] 0 = false) (h1 : s.idOk [] 1 = false) :
    s.Takes 0x01 c → ∃ t : Dev, exec (.idGet c) s = .next { s with toDev := t } ∧
      (t.bit 0x904 30 = true ∧ s.Cards t [0x904] ∧ s.AnswersCmd t (jobOfCmd c 0x01) 0 0 (s.idReply 0 0) ∧
        s.Answered { t with regs := s.regs }) := by
  refine exec_of_takes rfl rfl (by decide) (fun hw l w tgt _ => ?_)
  have hget : (s.holding l w).carryOut (jobOfCmd c 0x01) tgt =
      ((s.holding l w).setBits 0x904 0x40000000).complete (jobOfCmd c 0x01) 0 0 (s.idReply 0 0) := by
    rw [← s.idReply_holding l w]
    exact Dev.idGet_of_bad (s := s.holding l w) _ h0 h1
  obtain ⟨m, l', ht, ha⟩ := Dev.complete_done (s := s.toDev) (v := (s.holding l w).setBits 0x904 0x40000000)
    (jobOfCmd c 0x01) 0 0 (s.idReply 0 0) rfl rfl rfl
  rw [hget, ht]
  refine ⟨Dev.bit_setBits_self (s.holding l w) 0x904 30 _ rfl, fun a ha => ?_, ha, Dev.with_no_waiting hw⟩
  exact Dev.rd_wr_of_ne (s.holding l w) (by simpa using ha) _

/-- A query that answers from the device as it stands: it does nothing else. -/
theorem exec_of_query {s : State} {i : Instr} {code : Nat} {c : Cmd} {data : List W}
    (hi : exec i s = .next { s with toDev := s.receive code c }) (hs : isStagedCmd code = false) (hc : code ≠ 0xFF)
    (hq : ∀ l w tgt, (s.holding l w).carryOut (jobOfCmd c code) tgt =
      (s.holding l w).complete (jobOfCmd c code) 0 0 data) :
    s.Takes code c → ∃ t : Dev, exec i s = .next { s with toDev := t } ∧ s.Answered t ∧
      s.AnswersCmd t (jobOfCmd c code) 0 0 data := by
  refine exec_of_takes hi hs hc (fun hw l w tgt _ => ?_)
  rw [hq]
  exact Dev.complete_emptied hw l w _ _ _ _

/-! ### O53 -/

/-- Settles O53: by how a command arrives (`Dev.receive_of_room` and its companions) and by the checks, in order. -/
theorem commandsAreCheckedAndQueriesAnswer : Obligations.CommandsAreCheckedAndQueriesAnswer := by
  unfold Obligations.CommandsAreCheckedAndQueriesAnswer
  intro s c
  refine ⟨fun k i code hmem => ?_, fun h hok => ?_, fun h h0 h1 => idGet_shows_idBad s c h0 h1 h, ?_, ?_, ?_⟩
  · have hi := exec_of_mem_commandRows (k := k) hmem s
    refine ⟨s.cmdStatus_of_not_mem_catalogue c, exec_of_refused hi, exec_of_full hi, exec_of_busy hi,
      fun hp hw ha hc => ?_, fun hp => ?_, fun ms hm hl hn hv hg ht hu hq hb => ?_⟩
    · rw [hi, Dev.receive_of_room hp hc hw ha, Dev.received_eq_holding]
      rfl
    · rw [hi, Dev.receive_of_closed hp]
    · rw [Dev.Passes.cmdStatus ⟨hm, hl, hn, hv, hg, ht, hu, hq⟩, Dev.cmdBusy_of_staged_or_job hb, if_pos rfl]
  · refine exec_of_query rfl rfl (by decide) (fun l w tgt => ?_) h
    exact (Dev.idGet_of_ok (s := s.holding l w) _ hok).trans (by rw [Dev.idReply_holding]; rfl)
  · exact exec_of_query rfl rfl (by decide) (fun l w tgt => rfl)
  · exact exec_of_query rfl rfl (by decide) (fun l w tgt => rfl)
  · exact exec_of_query rfl rfl (by decide) (fun l w tgt => rfl)

end Sys2Proof.Machine
end

section
/-! PROOFS. What the effects of the immediate commands need of folds, of NVR words, of notes, and of the headgate map
(R363, R379, R380, R386). -/

namespace Sys2Proof.Machine

/-! ### Folds -/

/-- What every step of a fold keeps, the fold keeps. -/
theorem forL_keeps {σ α : Type} {I : σ → Prop} {f : α → σ → σ} {l : List α}
    (hI : ∀ a ∈ l, ∀ s, I s → I (f a s)) {s : σ} (h : I s) : I (forL l f s) := by
  unfold forL
  induction l generalizing s with
  | nil => exact h
  | cons a r ih => exact ih (fun b hb => hI b (List.mem_cons_of_mem a hb)) (hI a List.mem_cons_self s h)

/-- What one step of a fold brings about, from what all keep, and no step undoes, holds after it. -/
theorem forL_reaches {σ α : Type} {I P : σ → Prop} {f : α → σ → σ} {l : List α} {b : α} (hb : b ∈ l)
    (hI : ∀ a ∈ l, ∀ s, I s → I (f a s)) (hstep : ∀ s, I s → P (f b s))
    (hP : ∀ a ∈ l, ∀ s, P s → P (f a s))
    {s : σ} (h : I s) : P (forL l f s) := by
  obtain ⟨l₁, l₂, rfl⟩ := List.append_of_mem hb
  have hsplit : forL (l₁ ++ b :: l₂) f s = forL l₂ f (f b (forL l₁ f s)) := by
    simp [forL, List.foldl_append]
  rw [hsplit]
  refine forL_keeps (fun a ha => hP a (by simp [ha])) (hstep _ ?_)
  exact forL_keeps (fun a ha => hI a (by simp [ha])) h

/-! ### Tables -/

theorem Tab.get_filter_of_drop {α : Type} (d : Nat → α) {q : Nat × α → Bool} {k : Nat} (h : ∀ v, q (k, v) = false)
    (t : Tab α) : Tab.get d (t.filter q) k = d k := by
  induction t with
  | nil => rfl
  | cons p r ih =>
    obtain ⟨j, v⟩ := p
    rw [List.filter_cons]
    split
    · have hj : j ≠ k := fun e => by simp_all
      rw [Tab.get, if_neg hj, ih]
    · exact ih

theorem Tab.get_filter_of_keep {α : Type} (d : Nat → α) {q : Nat × α → Bool} {k : Nat} (h : ∀ v, q (k, v) = true)
    (t : Tab α) : Tab.get d (t.filter q) k = t.get d k := by
  induction t with
  | nil => rfl
  | cons p r ih =>
    obtain ⟨j, v⟩ := p
    rw [List.filter_cons]
    by_cases hj : j = k
    · subst hj
      rw [if_pos (h v), Tab.get, Tab.get, if_pos rfl, if_pos rfl]
    · split <;> simp [Tab.get, hj, ih]

/-! ### Words of memory -/

/-- The four bytes of a word make it up again. -/
theorem append_bytes (v : W) :
    v.extractLsb' 24 8 ++ v.extractLsb' 16 8 ++ v.extractLsb' 8 8 ++ v.extractLsb' 0 8 = v := by
  ext i hi
  simp only [BitVec.getElem_append, BitVec.getElem_extractLsb']
  split_ifs <;> (rw [← BitVec.getLsbD_eq_getElem]; congr 1; omega)

@[simp] theorem Dev.word_setWord_self (s : Dev) (a : Nat) (v : W) : (s.setWord a v).word a = v := by
  have h0 : (s.setWord a v).byte a = v.extractLsb' 0 8 := by
    rw [Dev.setWord, Dev.byte_setByte_of_ne _ (by omega), Dev.byte_setByte_of_ne _ (by omega),
      Dev.byte_setByte_of_ne _ (by omega), Dev.byte_setByte_self]
  have h1 : (s.setWord a v).byte (a + 1) = v.extractLsb' 8 8 := by
    rw [Dev.setWord, Dev.byte_setByte_of_ne _ (by omega), Dev.byte_setByte_of_ne _ (by omega), Dev.byte_setByte_self]
  have h2 : (s.setWord a v).byte (a + 2) = v.extractLsb' 16 8 := by
    rw [Dev.setWord, Dev.byte_setByte_of_ne _ (by omega), Dev.byte_setByte_self]
  have h3 : (s.setWord a v).byte (a + 3) = v.extractLsb' 24 8 := Dev.byte_setByte_self _ _ _
  rw [Dev.word, wordOf, h0, h1, h2, h3, append_bytes]

/-! ### Notes -/

/-- Only cards and the fault unit differ. -/
def Dev.NoteFrame (s t : Dev) : Prop := ∃ r f, t = { s with regs := r, flt := f }

theorem Dev.NoteFrame.trans {s t u : Dev} (h : s.NoteFrame t) (k : t.NoteFrame u) : s.NoteFrame u := by
  obtain ⟨_, _, rfl⟩ := h
  obtain ⟨r, f, rfl⟩ := k
  exact ⟨r, f, rfl⟩

theorem Dev.noteFrame_refl (s : Dev) : s.NoteFrame s := ⟨s.regs, s.flt, rfl⟩

theorem Dev.noteFrame_wr (s : Dev) (a : Nat) (v : W) : s.NoteFrame (s.wr a v) := ⟨_, s.flt, rfl⟩

theorem Dev.noteFrame_markRaise (s : Dev) (f : Nat) : s.NoteFrame (s.markRaise f) :=
  (s.noteFrame_wr _ _).trans (Dev.noteFrame_wr _ _ _)

theorem Dev.noteFrame_forL {α : Type} {f : α → Dev → Dev} (h : ∀ a s, Dev.NoteFrame s (f a s)) (l : List α)
    (s : Dev) : s.NoteFrame (forL l f s) :=
  forL_keeps (I := s.NoteFrame) (fun a _ t ht => ht.trans (h a t)) s.noteFrame_refl

theorem Dev.noteFrame_countOcc (s : Dev) (x l e : Nat) (o : OccNow) (rs : List (Nat × List Nat)) :
    s.NoteFrame (s.countOcc x l e o rs) := by
  unfold Dev.countOcc
  extract_lets s1 s2 k s3
  have h1 : s.NoteFrame s1 := Dev.noteFrame_forL (fun f t => t.noteFrame_wr _ _) _ s
  have h2 : s.NoteFrame s2 := by
    unfold s2
    split
    · exact h1.trans (s1.noteFrame_wr _ _)
    · exact h1
  have h3 : s.NoteFrame s3 := h2.trans ⟨s2.regs, _, rfl⟩
  clear_value s3
  split
  · exact h3.trans ⟨s3.regs, _, rfl⟩
  · split
    · exact h3.trans (s3.noteFrame_wr _ _)
    · exact h3

/-- A NOTE raise writes cards and the fault unit's state, and nothing else (R292, R295). -/
theorem Dev.noteFrame_note (s : Dev) (f : Nat) : s.NoteFrame (s.note f) := by
  unfold Dev.note
  split
  · refine Dev.NoteFrame.trans (Dev.noteFrame_forL (fun g t => ?_) _ s) (Dev.noteFrame_countOcc _ _ _ _ _ _)
    exact (t.noteFrame_markRaise g).trans (Dev.noteFrame_wr _ _ _)
  · exact s.noteFrame_markRaise f

/-! ### A word of NVR -/

/-- An NVR word written, with its wear counted and not yet judged (R379). -/
def Dev.nvStored (s : Dev) (o : Nat) (v : W) : Dev :=
  { s.setWord (aNvr o) v with
    nv := { s.nv with wear := s.nv.wear.set (fun _ => 0) (o / 4) (s.nv.wear.get (fun _ => 0) (o / 4) + 1) } }

/-- The write that takes the wear past 10^14 notes NV_WEAR (R380). -/
theorem Dev.nvPut_eq (s : Dev) (o : Nat) (v : W) :
    s.nvPut o v = if s.nv.wear.get (fun _ => 0) (o / 4) = 10 ^ 14 then (s.nvStored o v).note 291 else s.nvStored o v := by
  unfold Dev.nvPut
  dsimp only
  by_cases h : s.nv.wear.get (fun _ => 0) (o / 4) = 10 ^ 14
  · rw [if_pos (by omega), if_pos h]; rfl
  · rw [if_neg (by omega), if_neg h]; rfl

/-! ### The headgate map -/

theorem locOf_aHgt {o : Nat} (h : o < 0x10000) : locOf (aHgt o) = .hgt o := by
  have hlt : aHgt o < 0x3110000 := by unfold aHgt; omega
  have hge : ∀ b, b ≤ 0x3100000 → ¬aHgt o < b := fun b hb => by unfold aHgt; omega
  have hsub : aHgt o - 0x3100000 = o := by unfold aHgt; omega
  simp only [locOf, hge, hlt, hsub, Nat.reduceLeDiff, if_false, if_true]

/-- The cards MAP_CLEAR resets: PIN, CFG and RDV (R363). -/
def mapOffset (o : Nat) : Prop :=
  o < 0x900 ∨ (0x1000 ≤ o ∧ o < 0x2000 ∧ o % 16 = 0) ∨ (0x2100 ≤ o ∧ o < 0x2140)

/-- MAP_CLEAR changes cards, sites and engines alone. -/
theorem Dev.mapClear_frame (s : Dev) : ∃ r i e, s.mapClear = { s with regs := r, sites := i, engs := e } := by
  unfold Dev.mapClear
  extract_lets bound s1 s2
  have h2 : ∃ r i e, s2 = { s with regs := r, sites := i, engs := e } := by
    refine forL_keeps (I := fun t : Dev => ∃ r i e, t = { s with regs := r, sites := i, engs := e })
      (fun n _ t ht => ?_) ⟨s1.regs, s.sites, s.engs, rfl⟩
    obtain ⟨r, i, e, rfl⟩ := ht
    exact ⟨r, _, e, rfl⟩
  refine forL_keeps (I := fun t : Dev => ∃ r i e, t = { s with regs := r, sites := i, engs := e }) (fun x _ t ht => ?_) h2
  obtain ⟨r, i, e, rfl⟩ := ht
  exact ⟨r, i, _, rfl⟩

theorem Dev.rd_mapClear (s : Dev) {o : Nat} (h : mapOffset o) : s.mapClear.rd (aHgt o) = resetWord (aHgt o) := by
  unfold Dev.mapClear
  extract_lets bound s1 s2
  have h1 : s1.rd (aHgt o) = resetWord (aHgt o) := by
    refine Tab.get_filter_of_drop resetWord (fun v => ?_) s.regs
    have ho : o < 0x10000 := by unfold mapOffset at h; omega
    simp only [locOf_aHgt ho]
    unfold mapOffset at h
    simp only [Bool.not_eq_false', Bool.or_eq_true, Bool.and_eq_true, decide_eq_true_eq]
    tauto
  have h2 : s2.rd (aHgt o) = resetWord (aHgt o) := by
    refine forL_keeps (I := fun t : Dev => t.rd (aHgt o) = resetWord (aHgt o)) (fun n _ t ht => ?_) h1
    exact ht
  refine forL_keeps (I := fun t : Dev => t.rd (aHgt o) = resetWord (aHgt o)) (fun x _ t ht => ?_) h2
  exact ht

/-- Every site is unmapped, with ERR 1. -/
theorem Dev.site_mapClear (s : Dev) {n : Nat} (h : n < 256) :
    (s.mapClear.site n).mapped = false ∧ (s.mapClear.site n).err = 1 := by
  unfold Dev.mapClear
  extract_lets bound s1 s2
  have h2 : (s2.site n).mapped = false ∧ (s2.site n).err = 1 := by
    refine forL_reaches (I := fun _ => True) (P := fun t : Dev => (t.site n).mapped = false ∧ (t.site n).err = 1)
      (List.mem_range.mpr h) (fun _ _ _ _ => trivial) (fun t _ => ?_) (fun i _ t ht => ?_) trivial
    · rw [Dev.onSite, Dev.site_setSite_self]
      exact ⟨rfl, rfl⟩
    · by_cases hi : n = i
      · subst hi
        rw [Dev.onSite, Dev.site_setSite_self]
        exact ⟨rfl, rfl⟩
      · rw [Dev.onSite, Dev.site_setSite_of_ne _ hi]
        exact ht
  refine forL_keeps (I := fun t : Dev => (t.site n).mapped = false ∧ (t.site n).err = 1) (fun x _ t ht => ?_) h2
  exact ht

end Sys2Proof.Machine
end

section
/-! PROOFS. What the effects of the immediate commands do, each said once: acknowledgements, saves, repairs, thresholds,
epochs and resets (R46, R233, R292, R302, R328, R363-R374, R383). -/

namespace Sys2Proof.Machine

/-! ### Acknowledgements (R292) -/

theorem aSrc_injective {f g : Nat} (h : aSrc f = aSrc g) : f = g := by unfold aSrc aFlt at h; omega

theorem W.bit_clear_31 (v : W) : (v &&& ~~~0x43000000).bit 31 = v.bit 31 := by
  simp [W.bit]

theorem W.bit_clear_30 (v : W) : (v &&& ~~~0x43000000).bit 30 = false := by
  simp [W.bit]

/-- An acknowledgement clears STICKY and LVL of its source, unless the source is LIVE; no other source's card changes. -/
theorem Dev.rd_ackHost_src (s : Dev) (f : Nat) {g : Nat} (hg : g < 384) :
    (s.ackHost f).rd (aSrc g) =
      if g = f ∧ s.bit (aSrc f) 31 = false then s.rd (aSrc g) &&& ~~~0x43000000 else s.rd (aSrc g) := by
  have hrelock : (s.ackHost f).rd (aSrc g) = (s.ackSrc f).rd (aSrc g) := by
    unfold Dev.ackHost
    dsimp only
    split <;> rfl
  rw [hrelock, Dev.ackSrc]
  by_cases hlive : s.bit (aSrc f) 31 = true
  · rw [if_pos hlive, if_neg (by simp [hlive])]
    exact Dev.rd_wr_of_ne _ (by unfold aSrc aFlt; omega) _
  · rw [if_neg hlive]
    by_cases hgf : g = f
    · subst hgf
      rw [if_pos ⟨rfl, by simpa using hlive⟩, Dev.clrBits, Dev.rd_wr_self]
    · rw [if_neg (fun h => hgf h.1)]
      exact Dev.rd_wr_of_ne _ (fun h => hgf (aSrc_injective h)) _

/-- What acknowledgements of any sources leave alone. -/
structure Dev.Acked (s t : Dev) : Prop where
  frame  : ∃ r c, t = { s with regs := r, clk := c }
  number : t.clk.frame = s.clk.frame
  ticked : t.clk.ticked = s.clk.ticked
  live   : ∀ g, g < 384 → t.bit (aSrc g) 31 = s.bit (aSrc g) 31
  clear  : ∀ g, g < 384 → s.sticky g = false → t.sticky g = false
  kept   : ∀ g, g < 384 → s.bit (aSrc g) 31 = true → t.rd (aSrc g) = s.rd (aSrc g)

theorem Dev.acked_refl (s : Dev) : s.Acked s :=
  ⟨⟨s.regs, s.clk, rfl⟩, rfl, rfl, fun _ _ => rfl, fun _ _ h => h, fun _ _ _ => rfl⟩

theorem Dev.Acked.trans {s t u : Dev} (h : s.Acked t) (k : t.Acked u) : s.Acked u where
  frame := by
    obtain ⟨_, _, rfl⟩ := h.frame
    obtain ⟨r, c, rfl⟩ := k.frame
    exact ⟨r, c, rfl⟩
  number := k.number.trans h.number
  ticked := k.ticked.trans h.ticked
  live := fun g hg => (k.live g hg).trans (h.live g hg)
  clear := fun g hg hs => k.clear g hg (h.clear g hg hs)
  kept := fun g hg hl => (k.kept g hg ((h.live g hg).trans hl)).trans (h.kept g hg hl)

theorem Dev.acked_ackHost (s : Dev) (f : Nat) : s.Acked (s.ackHost f) := by
  have hclk : ∃ r c, s.ackHost f = { s with regs := r, clk := c } ∧ c.frame = s.clk.frame ∧
      c.ticked = s.clk.ticked := by
    unfold Dev.ackHost Dev.ackSrc
    dsimp only
    split_ifs <;> exact ⟨_, _, rfl, rfl, rfl⟩
  obtain ⟨r, c, heq, hframe, hticked⟩ := hclk
  refine ⟨⟨r, c, heq⟩, by rw [heq]; exact hframe, by rw [heq]; exact hticked, fun g hg => ?_, fun g hg hs => ?_,
    fun g hg hl => ?_⟩
  · rw [Dev.bit, Dev.rd_ackHost_src s f hg]
    split
    · exact W.bit_clear_31 _
    · rfl
  · rw [Dev.sticky, Dev.bit, Dev.rd_ackHost_src s f hg]
    split
    · exact W.bit_clear_30 _
    · exact hs
  · rw [Dev.rd_ackHost_src s f hg, if_neg]
    rintro ⟨rfl, h⟩
    simp [hl] at h

theorem Dev.acked_pendWrite (s : Dev) (x : Nat) (v : W) : s.Acked (s.pendWrite x v) := by
  refine forL_keeps (I := s.Acked) (fun n _ t ht => ?_) s.acked_refl
  split
  · exact ht.trans (t.acked_ackHost _)
  · exact ht

/-- A write of PEND names the sources of its class alone. -/
theorem Dev.rd_pendWrite_of_ne (s : Dev) {x g : Nat} (v : W) (hg : g < 384) (h : g / 32 ≠ x) :
    (s.pendWrite x v).rd (aSrc g) = s.rd (aSrc g) := by
  refine forL_keeps (I := fun t : Dev => t.rd (aSrc g) = s.rd (aSrc g)) (fun n hn t ht => ?_) rfl
  have hn := List.mem_range.mp hn
  split
  · rw [Dev.rd_ackHost_src t _ hg, if_neg (by omega), ht]
  · exact ht

/-- A write of ones to PEND clears every source of the class that is not LIVE. -/
theorem Dev.sticky_pendWrite (s : Dev) {g : Nat} (hg : g < 384) (hn : fltNamed g = true)
    (hl : s.bit (aSrc g) 31 = false) :
    (s.pendWrite (g / 32) 0xFFFFFFFF).sticky g = false := by
  refine forL_reaches (I := fun t : Dev => t.bit (aSrc g) 31 = false) (P := fun t : Dev => t.sticky g = false)
    (b := g % 32) (List.mem_range.mpr (Nat.mod_lt _ (by decide))) (fun n _ t ht => ?_) (fun t ht => ?_)
    (fun n _ t ht => ?_) hl
  · split
    · rw [(t.acked_ackHost _).live g hg, ht]
    · exact ht
  · have hbit : (0xFFFFFFFF : W).bit (g % 32) = true := by
      have hall : ∀ n, n < 32 → (0xFFFFFFFF : W).bit n = true := by decide
      exact hall _ (Nat.mod_lt _ (by decide))
    rw [Nat.div_add_mod, hn, hbit, Bool.and_self, if_pos rfl, Dev.sticky, Dev.bit, Dev.rd_ackHost_src t g hg,
      if_pos ⟨rfl, ht⟩]
    exact W.bit_clear_30 _
  · split
    · exact (t.acked_ackHost _).clear g hg ht
    · exact ht

/-- The classes of a word are acknowledged (R363 FLT_ACK). -/
def Dev.ackClasses (s : Dev) (v : W) : Dev :=
  forN 12 (fun x s => if v.bit x then s.pendWrite x 0xFFFFFFFF else s) s

theorem Dev.fltAck_eq (s : Dev) (j : Job) :
    s.fltAck j = (s.ackClasses (j.p 0)).complete j 0 0 ((List.range 12).map (s.ackClasses (j.p 0)).pendWord) := rfl

theorem Dev.acked_ackClasses (s : Dev) (v : W) : s.Acked (s.ackClasses v) := by
  refine forL_keeps (I := s.Acked) (fun x _ t ht => ?_) s.acked_refl
  split
  · exact ht.trans (t.acked_pendWrite _ _)
  · exact ht

theorem Dev.sticky_ackClasses (s : Dev) {v : W} {g : Nat} (hg : g < 384) (hn : fltNamed g = true)
    (hv : v.bit (g / 32) = true) (hl : s.bit (aSrc g) 31 = false) : (s.ackClasses v).sticky g = false := by
  refine forL_reaches (I := fun t : Dev => t.bit (aSrc g) 31 = false) (P := fun t : Dev => t.sticky g = false)
    (b := g / 32) (List.mem_range.mpr (by omega)) (fun x _ t ht => ?_) (fun t ht => ?_) (fun x _ t ht => ?_) hl
  · split
    · rw [(t.acked_pendWrite _ _).live g hg, ht]
    · exact ht
  · rw [if_pos hv]
    exact t.sticky_pendWrite hg hn ht
  · split
    · exact (t.acked_pendWrite _ _).clear g hg ht
    · exact ht

theorem Dev.rd_ackClasses_of_not_named (s : Dev) {v : W} {g : Nat} (hg : g < 384) (hv : v.bit (g / 32) = false) :
    (s.ackClasses v).rd (aSrc g) = s.rd (aSrc g) := by
  refine forL_keeps (I := fun t : Dev => t.rd (aSrc g) = s.rd (aSrc g)) (fun x _ t ht => ?_) rfl
  split
  next hx => rw [t.rd_pendWrite_of_ne _ hg (fun e => by rw [e, hx] at hv; exact absurd hv (by decide)), ht]
  next => exact ht

/-! ### Saves (R383, R385) -/

/-- A save of a set that none waits for joins the queue. -/
theorem Dev.requestSave_of_new {s : Dev} {v : NvSet} (j : Option Job) (h : ∀ x ∈ s.nv.saves, x.set_ ≠ v) :
    s.requestSave v j = { s with nv := { s.nv with saves := s.nv.saves ++ [{ set_ := v, job := j }] } } := by
  have hany : s.nv.saves.any (fun x => x.set_ = v) = false := by simpa [List.any_eq_false] using h
  rw [Dev.requestSave, hany, if_neg Bool.false_ne_true]

/-- A save merges into the one of its set that waits. -/
theorem Dev.requestSave_of_waiting {s : Dev} {v : NvSet} (k : Job) (h : ∃ x ∈ s.nv.saves, x.set_ = v) :
    s.requestSave v (some k) = { s with nv := { s.nv with saves :=
      (s.nv.saves.map (fun x => if x.set_ = v then { x with job := some (x.job.getD k) } else x)) } } := by
  have hany : s.nv.saves.any (fun x => x.set_ = v) = true := by simpa [List.any_eq_true] using h
  rw [Dev.requestSave, hany, if_pos rfl]
  refine congrArg (fun l => { s with nv := { s.nv with saves := l } }) (List.map_congr_left (fun x _ => ?_))
  cases hx : x.job <;> rfl

/-- The queue of saves alone differs. -/
theorem Dev.requestSave_frame (s : Dev) (v : NvSet) (j : Option Job) :
    ∃ l, s.requestSave v j = { s with nv := { s.nv with saves := l } } := by
  unfold Dev.requestSave
  split <;> exact ⟨_, rfl⟩

/-- The set asked for waits, with a command to complete. -/
theorem Dev.requestSave_waits (s : Dev) (v : NvSet) (k : Job) :
    ∃ x ∈ (s.requestSave v (some k)).nv.saves, x.set_ = v ∧ x.job ≠ none := by
  by_cases h : ∃ x ∈ s.nv.saves, x.set_ = v
  · obtain ⟨x, hx, hv⟩ := h
    rw [Dev.requestSave_of_waiting k ⟨x, hx, hv⟩]
    exact ⟨_, List.mem_map.mpr ⟨x, hx, if_pos hv⟩, hv, by simp⟩
  · rw [Dev.requestSave_of_new (some k) (fun x hx hv => h ⟨x, hx, hv⟩)]
    exact ⟨_, List.mem_append_right _ (List.mem_singleton.mpr rfl), rfl, by simp⟩

/-! ### Repairs (R302, R368) -/

theorem Dev.setCircs_frame (s : Dev) (q : Nat) : ∃ c, s.setCircs q = { s with circs := c } := by
  unfold Dev.setCircs
  extract_lets z b s1
  have h1 : ∃ c, s1 = { s with circs := c } := by
    refine forL_keeps (I := fun t : Dev => ∃ c, t = { s with circs := c }) (fun c _ t ht => ?_) ⟨s.circs, rfl⟩
    obtain ⟨c, rfl⟩ := ht
    exact ⟨_, rfl⟩
  obtain ⟨c, hc⟩ := h1
  rw [hc]
  exact ⟨_, rfl⟩

theorem Dev.quad_setCircs (s : Dev) (q k : Nat) : (s.setCircs q).quad k = s.quad k := by
  obtain ⟨c, hc⟩ := s.setCircs_frame q
  rw [hc]; rfl

theorem Dev.startLane_frame (s : Dev) (j : Nat) : ∃ l, s.startLane j = { s with lanes := l } := by
  unfold Dev.startLane
  split
  · exact ⟨_, rfl⟩
  · exact ⟨s.lanes, rfl⟩

/-- A lane that starts from OFF trains; it is FAILED and marked no more than before. -/
theorem Dev.lane_startLane (s : Dev) {j : Nat} (h : (s.lane j).st = .off) (hm : (s.lane j).marked = false) :
    ((s.startLane j).lane j).st ≠ .failed ∧ ((s.startLane j).lane j).marked = false := by
  rw [Dev.startLane, if_pos h, Dev.attempt, Dev.onLane, Dev.lane_setLane_self]
  exact ⟨by simp, hm⟩

/-- REPAIR_CLEAR touches units, circuits and spare banks alone. -/
theorem Dev.clearUnit_frame (s : Dev) (v : W) :
    ∃ q e l c i, s.clearUnit v = { s with quads := q, engs := e, lanes := l, circs := c, cis := i } := by
  unfold Dev.clearUnit
  dsimp only
  split
  · split <;> exact ⟨_, s.engs, s.lanes, s.circs, s.cis, rfl⟩
  · split <;> exact ⟨s.quads, _, s.lanes, s.circs, s.cis, rfl⟩
  · split
    · exact ⟨s.quads, s.engs, s.lanes, s.circs, s.cis, rfl⟩
    · split
      · obtain ⟨l, hl⟩ := Dev.startLane_frame (s.setLane (v.fld 24 16)
          { laneInit with total := (s.lane (v.fld 24 16)).total, partner := (s.lane (v.fld 24 16)).partner }) (v.fld 24 16)
        rw [hl]
        exact ⟨s.quads, s.engs, l, s.circs, s.cis, rfl⟩
      · exact ⟨s.quads, s.engs, _, s.circs, s.cis, rfl⟩
  · obtain ⟨c, hc⟩ := Dev.setCircs_frame (s.onQuad (v.fld 24 16)
      (fun z => { z with sfail := false, spare := if z.spare = .failed then .off else z.spare })) (v.fld 24 16)
    rw [hc]
    exact ⟨_, s.engs, s.lanes, c, s.cis, rfl⟩
  · obtain ⟨c, hc⟩ := Dev.setCircs_frame (s.onQuad (v.fld 24 16)
      (fun z => { z with pfail := rmv (v.fld 1 0) z.pfail })) (v.fld 24 16)
    rw [hc]
    exact ⟨_, s.engs, s.lanes, c, s.cis, rfl⟩
  · split <;> exact ⟨s.quads, s.engs, s.lanes, s.circs, _, rfl⟩

section
variable {s : Dev} {v : W}

theorem Dev.clearUnit_quad (h : v.fld 31 28 = 0) (hr : (s.quad (v.fld 24 16)).st = .retired) :
    (s.clearUnit v).quad (v.fld 24 16) = { s.quad (v.fld 24 16) with st := .off } := by
  simp only [Dev.clearUnit, h, hr, if_true, Dev.onQuad, Dev.quad_setQuad_self]

theorem Dev.clearUnit_eng (h : v.fld 31 28 = 1) (hr : (s.eng (v.fld 24 16)).st = .retired) :
    (s.clearUnit v).eng (v.fld 24 16) = engOff := by
  simp only [Dev.clearUnit, h, hr, if_true, Dev.eng_setEng_self]

theorem Dev.clearUnit_lane (h : v.fld 31 28 = 2) (hf : (s.lane (v.fld 24 16)).st = .failed) :
    ((s.clearUnit v).lane (v.fld 24 16)).st ≠ .failed ∧ ((s.clearUnit v).lane (v.fld 24 16)).marked = false := by
  simp only [Dev.clearUnit, h, hf, ne_eq, not_true, if_false]
  split
  · exact Dev.lane_startLane _ (by rw [Dev.lane_setLane_self]; rfl) (by rw [Dev.lane_setLane_self]; rfl)
  · rw [Dev.lane_setLane_self]
    exact ⟨by simp [laneInit], rfl⟩

theorem Dev.clearUnit_spare (h : v.fld 31 28 = 3) :
    ((s.clearUnit v).quad (v.fld 24 16)).sfail = false ∧ ((s.clearUnit v).quad (v.fld 24 16)).spare ≠ .failed := by
  simp only [Dev.clearUnit, h, Dev.quad_setCircs, Dev.onQuad, Dev.quad_setQuad_self, true_and]
  split
  · decide
  · assumption

theorem Dev.clearUnit_primary (h : v.fld 31 28 = 4) : v.fld 1 0 ∉ ((s.clearUnit v).quad (v.fld 24 16)).pfail := by
  simp only [Dev.clearUnit, h, Dev.quad_setCircs, Dev.onQuad, Dev.quad_setQuad_self, rmv]
  simp

theorem Dev.clearUnit_bank (h : v.fld 31 28 = 5) {n : Nat} (hn : s.listedSpare (v.fld 24 16) = some n) :
    ((s.clearUnit v).spareBank n).listed = false := by
  simp only [Dev.clearUnit, h, hn]
  rw [Dev.spareBank, Dev.setSpareBank, Tab.get_set_self]

end

/-! ### Thresholds (R328) -/

/-- The zones a word names. -/
def zonesOf (v : W) : List Nat := (List.range 28).filter (fun z => v.bit z)

theorem mem_zonesOf {v : W} {z : Nat} : z ∈ zonesOf v ↔ z < 28 ∧ v.bit z = true := by
  simp [zonesOf]

/-- The two words of a zone's policy written to several zones. -/
def Dev.setZones (s : Dev) (l : List Nat) (a b : W) : Dev :=
  forL l (fun z s => (s.writeThm (16 * z) a).writeThm (16 * z + 4) b) s

theorem Dev.thmSet_of_none {s : Dev} {j : Job} (h : zonesOf (j.p 0) = []) : s.thmSet j = s.complete j 0 0 [] := by
  unfold zonesOf at h
  simp only [Dev.thmSet, h]

theorem Dev.thmSet_of_ordered {s : Dev} {j : Job} (h : thrOk (j.p 1) = true) :
    s.thmSet j = (s.setZones (zonesOf (j.p 0)) (j.p 1) (j.p 2)).complete j 0 0 [] := by
  unfold Dev.thmSet zonesOf
  dsimp only
  split
  next z r hz => rw [hz, h, Bool.not_true, if_neg Bool.false_ne_true]; rfl
  next hz => rw [hz]; rfl

theorem Dev.thmSet_of_disordered {s : Dev} {j : Job} {z : Nat} (h : thrOk (j.p 1) = false) (hz : z < 28)
    (hb : (j.p 0).bit z = true) (hy : ∀ y, y < z → (j.p 0).bit y = false) : s.thmSet j = s.complete j 3 z [] := by
  have hhead : (zonesOf (j.p 0)).head? = some z := by
    rw [zonesOf, List.head?_filter, List.find?_range_eq_some]
    exact ⟨hb, List.mem_range.mpr hz, fun y hlt => by simp [hy y hlt]⟩
  unfold zonesOf at hhead
  unfold Dev.thmSet
  dsimp only
  split
  next x r hx =>
    have hxz : x = z := by simpa [hx] using hhead
    rw [h, Bool.not_false, if_pos rfl, hxz]
  next hx => simp [hx] at hhead

theorem locOf_aThm {o : Nat} (h : o < 0x10000) : locOf (aThm o) = .thm o := by
  have hge : ∀ b, b ≤ 0x30000 → ¬aThm o < b := fun b hb => by unfold aThm; omega
  have hlt : aThm o < 0x40000 := by unfold aThm; omega
  have hsub : aThm o - 0x30000 = o := by unfold aThm; omega
  simp only [locOf, hge, hlt, hsub, Nat.reduceLeDiff, if_false, if_true]

/-- A word with its writable bits replaced. -/
def maskWrite (a : Nat) (old v : W) : W := (old &&& ~~~(rwMask a)) ||| (v &&& rwMask a)

theorem maskWrite_idem (a : Nat) (old v : W) : maskWrite a (maskWrite a old v) v = maskWrite a old v := by
  unfold maskWrite
  ext i hi
  simp only [BitVec.getElem_or, BitVec.getElem_and, BitVec.getElem_not]
  cases (rwMask a)[i] <;> simp

/-- A THM register below the status word stores its writable bits, but thresholds out of order (R328). -/
theorem Dev.writeThm_eq {s : Dev} {o : Nat} {v : W} (ho : o < 0x1C0) (h : o % 16 = 0 → thrOk v = true) :
    s.writeThm o v = s.wr (aThm o) (maskWrite (aThm o) (s.rd (aThm o)) v) := by
  have hw1c : w1cMask (aThm o) = 0 := by
    simp only [w1cMask, locOf_aThm (show o < 0x10000 by omega), show ¬o = 0x800 by omega, if_false]
  have hord : ¬(o < 0x1C0 ∧ o % 16 = 0 ∧ (!thrOk v) = true) := fun ⟨_, h0, hb⟩ => by simp [h h0] at hb
  rw [Dev.writeThm, if_neg hord, Dev.putCard, cardWrite, hw1c,
    show v &&& (0 : W) = 0 from BitVec.and_zero, show ~~~(0 : W) = BitVec.allOnes 32 from rfl, BitVec.and_allOnes, maskWrite]

/-- One zone's policy written: its two cards. -/
theorem Dev.writeZone_eq {s : Dev} {z : Nat} {a b : W} (hz : z < 28) (ha : thrOk a = true) :
    (s.writeThm (16 * z) a).writeThm (16 * z + 4) b =
      (s.wr (aThm (16 * z)) (maskWrite (aThm (16 * z)) (s.rd (aThm (16 * z))) a)).wr (aThm (16 * z + 4))
        (maskWrite (aThm (16 * z + 4)) (s.rd (aThm (16 * z + 4))) b) := by
  rw [Dev.writeThm_eq (by omega) (fun _ => ha), Dev.writeThm_eq (by omega) (fun h => by omega),
    Dev.rd_wr_of_ne _ (by unfold aThm; omega)]

theorem Dev.setZones_frame (s : Dev) (l : List Nat) (a b : W) : ∃ r, s.setZones l a b = { s with regs := r } := by
  refine forL_keeps (I := fun t : Dev => ∃ r, t = { s with regs := r }) (fun z _ t ht => ?_) ⟨s.regs, rfl⟩
  obtain ⟨r, rfl⟩ := ht
  have hthm : ∀ (t : Dev) (o : Nat) (v : W), ∃ r, t.writeThm o v = { t with regs := r } := by
    intro t o v
    unfold Dev.writeThm
    split <;> exact ⟨_, rfl⟩
  obtain ⟨r1, h1⟩ := hthm { s with regs := r } (16 * z) a
  obtain ⟨r2, h2⟩ := hthm { s with regs := r1 } (16 * z + 4) b
  exact ⟨r2, by rw [h1]; exact h2⟩

section
variable {l : List Nat} {a b : W} (hl : ∀ z ∈ l, z < 28) (ha : thrOk a = true)
include hl ha

/-- No card but those of the zones changes. -/
theorem Dev.rd_setZones_of_ne (s : Dev) {x : Nat} (hx : ∀ z ∈ l, x ≠ aThm (16 * z) ∧ x ≠ aThm (16 * z + 4)) :
    (s.setZones l a b).rd x = s.rd x := by
  refine forL_keeps (I := fun t : Dev => t.rd x = s.rd x) (fun z hz t ht => ?_) rfl
  obtain ⟨h1, h2⟩ := hx z hz
  rw [Dev.writeZone_eq (hl z hz) ha, Dev.rd_wr_of_ne _ h2, Dev.rd_wr_of_ne _ h1, ht]

/-- Each card of a zone named takes its word. -/
theorem Dev.rd_setZones (s : Dev) {z : Nat} (hz : z ∈ l) {x : Nat} {v : W}
    (hx : (x = aThm (16 * z) ∧ v = a) ∨ (x = aThm (16 * z + 4) ∧ v = b)) :
    (s.setZones l a b).rd x = maskWrite x (s.rd x) v := by
  have hstep : ∀ t : Dev, ((t.writeThm (16 * z) a).writeThm (16 * z + 4) b).rd x = maskWrite x (t.rd x) v := by
    intro t
    rw [Dev.writeZone_eq (hl z hz) ha]
    rcases hx with ⟨rfl, rfl⟩ | ⟨rfl, rfl⟩
    · rw [Dev.rd_wr_of_ne _ (by unfold aThm; omega), Dev.rd_wr_self]
    · rw [Dev.rd_wr_self]
  have hother : ∀ y ∈ l, y ≠ z → ∀ t : Dev, ((t.writeThm (16 * y) a).writeThm (16 * y + 4) b).rd x = t.rd x := by
    intro y hy hne t
    rw [Dev.writeZone_eq (hl y hy) ha, Dev.rd_wr_of_ne _ (by unfold aThm at *; omega),
      Dev.rd_wr_of_ne _ (by unfold aThm at *; omega)]
  refine forL_reaches (I := fun t : Dev => maskWrite x (t.rd x) v = maskWrite x (s.rd x) v)
    (P := fun t : Dev => t.rd x = maskWrite x (s.rd x) v) hz (fun y hy t ht => ?_) (fun t ht => (hstep t).trans ht)
    (fun y hy t ht => ?_) rfl
  · by_cases hyz : y = z
    · rw [hyz, hstep, maskWrite_idem, ht]
    · rw [hother y hy hyz, ht]
  · by_cases hyz : y = z
    · rw [hyz, hstep, ht, maskWrite_idem]
    · rw [hother y hy hyz, ht]

end

/-! ### Epochs and synchronised resets (R46, R233, R371, R372) -/

/-- The device armed for an epoch: the master counts three ticks to its mark. -/
def Dev.epochArmed (s : Dev) (lo hi : W) : Dev :=
  { ((s.wr (aFrm 0x18) lo).wr (aFrm 0x1C) hi).setBits (aFrm 0x10) 0x200 with
    clk := { s.clk with markIn := if s.sys.master then some 3 else s.clk.markIn } }

theorem Dev.epochCmd_eq (s : Dev) (j : Job) : s.epochCmd j = (s.epochArmed (j.p 0) (j.p 1)).complete j 0 0 [] := by
  rw [Dev.epochCmd, Dev.epochArmed]
  dsimp only
  split
  next h =>
    have hm : s.sys.master = true := h
    rw [if_pos hm]; rfl
  next h =>
    have hm : ¬s.sys.master = true := h
    rw [if_neg hm]; rfl

/-- The cards of a synchronised reset by command: its tick and its source (R233). -/
def Dev.resetCards (s : Dev) (t : Nat) : Dev := (s.wrFrame (aFrm 0x84) (aFrm 0x88) t).setFld (aFrm 0x8C) 25 24 3

theorem Dev.resetCards_frame (s : Dev) (t : Nat) : ∃ r, s.resetCards t = { s with regs := r } := ⟨_, rfl⟩

/-- The device with a synchronised reset by command scheduled for a tick. -/
def Dev.resetScheduled (s : Dev) (t : Nat) : Dev :=
  { s.resetCards t with clk := { (s.resetCards t).clk with resets := (s.resetCards t).clk.resets ++ [(t, 3)] } }

/-- How far ahead of the device's frame a target stands (R46). -/
def Dev.aheadBy (s : Dev) (t : Nat) : Nat := (t + 2 ^ 48 - s.clk.frame % 2 ^ 48) % 2 ^ 48

theorem Dev.dsyncCmd_of_late {s : Dev} (j : Job) {t : Nat} (h : s.aheadBy t < 2 ∨ 2 ^ 47 ≤ s.aheadBy t) :
    s.dsyncCmd j t = s.complete j 6 0 [] := by
  have hlate : (s.aheadBy t < 2 || 2 ^ 47 ≤ s.aheadBy t) = true := by simpa using h
  exact if_pos hlate

theorem Dev.dsyncCmd_of_ahead {s : Dev} (j : Job) {t : Nat} (h : ¬(s.aheadBy t < 2 ∨ 2 ^ 47 ≤ s.aheadBy t)) :
    s.dsyncCmd j t = (s.resetScheduled t).complete j 0 0 [] := by
  have hahead : ¬(s.aheadBy t < 2 || 2 ^ 47 ≤ s.aheadBy t) = true := by simpa using h
  exact if_neg hahead

/-- A frame number written to a pair of cards reads back. -/
theorem Dev.rdFrame_wrFrame (s : Dev) {lo hi n : Nat} (hne : lo ≠ hi) (hn : n < 2 ^ 48) :
    (s.wrFrame lo hi n).rdFrame lo hi = n := by
  have hlow : ((s.wrFrame lo hi n).rd lo).toNat = n % 2 ^ 32 := by
    rw [Dev.wrFrame, Dev.setFld, Dev.rd_wr_of_ne _ hne, Dev.rd_wr_self, wn, BitVec.toNat_ofNat]
  have hhigh : (s.wrFrame lo hi n).fld hi 15 0 = n / 2 ^ 32 % 2 ^ 16 := by
    rw [Dev.wrFrame, Dev.setFld, Dev.fld, Dev.rd_wr_self, W.fld_put_self _ (by omega) (by omega)]
  rw [Dev.rdFrame, hlow, hhigh]
  omega

end Sys2Proof.Machine
end

section
/-! PROOFS. Commands that complete as they are taken; ENTER_RECOVERY, MAP_CLEAR and FLT_ACK (R74, R292, R363, R386). -/

namespace Sys2Proof.Machine

/-- A command that the scarab takes as it arrives does what is stated. -/
def State.DoesWith (s : State) (c : Cmd) (i : Instr) (code : Nat) (P : Dev → Prop) : Prop :=
  s.Takes code c → ∃ t : Dev, exec i s = .next { s with toDev := t } ∧ P t

/-- A command that completes as it is taken, from the device `v` that its effect leaves: what it does is what `v` shows. -/
theorem doesWith_of_completes {s : State} {c : Cmd} {i : Instr} {code : Nat} (status detail : Nat) {P : Dev → Prop}
    (hi : exec i s = .next { s with toDev := s.receive code c }) (hs : isStagedCmd code = false) (hc : code ≠ 0xFF)
    (hP : s.host.waiting = [] → ∀ l w tgt, (∀ T, c.tgt = some T → tgt = T.toNat) → ∃ v : Dev, ∃ data,
      (s.holding l w).carryOut (jobOfCmd c code) tgt = v.complete (jobOfCmd c code) status detail data ∧
      (v.clk.ticked = s.clk.ticked ∧ v.clk.frame = s.clk.frame ∧ v.host.mspiCpl = s.host.mspiCpl) ∧
      ∀ m l', s.AnswersCmd (v.done m l') (jobOfCmd c code) status detail data → P (v.done m l')) :
    s.DoesWith c i code P := by
  refine exec_of_takes hi hs hc (fun hw l w tgt htgt => ?_)
  obtain ⟨v, data, heff, ⟨hticked, hframe, hcpl⟩, hall⟩ := hP hw l w tgt htgt
  obtain ⟨m, l', ht, ha⟩ := Dev.complete_done (s := s.toDev) (jobOfCmd c code) status detail data hticked hframe hcpl
  rw [heff, ht]
  exact hall m l' ha

/-- A command that only answers. -/
theorem doesWith_of_answers {s : State} {c : Cmd} {i : Instr} {code status detail : Nat}
    (hi : exec i s = .next { s with toDev := s.receive code c }) (hs : isStagedCmd code = false) (hc : code ≠ 0xFF)
    (heff : ∀ l w tgt, (∀ T, c.tgt = some T → tgt = T.toNat) → (s.holding l w).carryOut (jobOfCmd c code) tgt =
      (s.holding l w).complete (jobOfCmd c code) status detail []) :
    s.DoesWith c i code (fun t => s.AnswersCmd t (jobOfCmd c code) status detail [] ∧ s.Answered t) := by
  refine doesWith_of_completes status detail hi hs hc (fun hw l w tgt htgt =>
    ⟨_, _, heff l w tgt htgt, ⟨rfl, rfl, rfl⟩, fun m l' ha => ?_⟩)
  exact ⟨ha, Dev.answered_done hw l l' w m⟩

/-! ### ENTER_RECOVERY (R363, R386) -/

/-- The device in RECOVERY, its entry not yet counted. -/
def Dev.inRecovery (s : Dev) : Dev := { s with sys := { s.sys with mode := .recovery } }

/-- The count of entries to RECOVERY after one more. -/
def Dev.nextRecovery (s : Dev) : W :=
  if s.word (aNvr 0x454) = 0xFFFFFFFF then s.word (aNvr 0x454) else s.word (aNvr 0x454) + 1

/-- The device in RECOVERY, its entry counted and the wear not yet judged. -/
def Dev.recovering (s : Dev) : Dev := s.inRecovery.nvStored 0x454 s.inRecovery.nextRecovery

theorem Dev.toRecovery_of_worn {s : Dev} (h : s.nv.wear.get (fun _ => 0) (0x454 / 4) = 10 ^ 14) :
    s.toRecovery = s.recovering.note 291 := by
  have hwear : s.inRecovery.nv.wear.get (fun _ => 0) (0x454 / 4) = 10 ^ 14 := h
  rw [Dev.toRecovery, ← Dev.inRecovery, Dev.nvCount, ← Dev.nextRecovery, Dev.nvPut_eq, if_pos hwear, ← Dev.recovering]

theorem Dev.toRecovery_of_not_worn {s : Dev} (h : s.nv.wear.get (fun _ => 0) (0x454 / 4) ≠ 10 ^ 14) :
    s.toRecovery = s.recovering := by
  have hwear : s.inRecovery.nv.wear.get (fun _ => 0) (0x454 / 4) ≠ 10 ^ 14 := h
  rw [Dev.toRecovery, ← Dev.inRecovery, Dev.nvCount, ← Dev.nextRecovery, Dev.nvPut_eq, if_neg hwear, ← Dev.recovering]

/-- The entry writes no byte outside its count. -/
theorem Dev.byte_recovering (s : Dev) {b : Nat} (h : b < aNvr 0x454 ∨ aNvr 0x458 ≤ b) :
    s.recovering.byte b = s.byte b := by
  have hb : ¬(aNvr 0x454 ≤ b ∧ b < aNvr 0x454 + 4) := by unfold aNvr at *; omega
  have hset := s.inRecovery.byte_setWord_of_ne s.inRecovery.nextRecovery hb
  exact hset

theorem Dev.word_recovering (s : Dev) : s.recovering.word (aNvr 0x454) =
    if s.word (aNvr 0x454) = 0xFFFFFFFF then 0xFFFFFFFF else s.word (aNvr 0x454) + 1 := by
  have hword := Dev.word_setWord_self s.inRecovery (aNvr 0x454) s.inRecovery.nextRecovery
  have hnext : s.inRecovery.nextRecovery = s.nextRecovery := rfl
  refine (hword.trans hnext).trans ?_
  rw [Dev.nextRecovery]
  split
  next h => exact h
  next => rfl

theorem Dev.mapClearCmd_of_free {s : Dev} (j : Job) (h : s.sys.mode = .idle ∨ s.clearBusy = []) :
    s.mapClearCmd j = s.mapClear.complete j 0 0 [] := by
  have hnone : (if s.sys.mode = .diagnostic then s.clearBusy else []) = [] := by
    rcases h with h | h
    · exact if_neg (by rw [h]; decide)
    · rw [h, ite_self]
  simp only [Dev.mapClearCmd, hnone]

theorem Dev.mapClearCmd_of_busy {s : Dev} (j : Job) {n : Nat} {r : List Nat} (hm : s.sys.mode = .diagnostic)
    (hb : s.clearBusy = n :: r) : s.mapClearCmd j = s.hgtRej.complete j 3 n [] := by
  simp only [Dev.mapClearCmd, hm, hb, if_true]

theorem resetWord_aHgt {o : Nat} (h : o < 0x10000) :
    resetWord (aHgt o) = if 0x2100 ≤ o ∧ o < 0x2140 ∧ o % 4 = 0 then 2 else 0 := by
  simp only [resetWord, locOf_aHgt h]

theorem resetWord_aHgt_of_low {o : Nat} (h : o < 0x900) : resetWord (aHgt o) = 0 := by
  rw [resetWord_aHgt (by omega), if_neg (by omega)]

theorem resetWord_aHgt_of_cfg {n : Nat} (h : n < 256) : resetWord (aHgt (0x1000 + 16 * n)) = 0 := by
  rw [resetWord_aHgt (by omega), if_neg (by omega)]

theorem resetWord_aHgt_of_rdv {y : Nat} (h : y < 16) : resetWord (aHgt (0x2100 + 4 * y)) = 2 := by
  rw [resetWord_aHgt (by omega), if_pos (by omega)]

section
variable (s : State) (c : Cmd)

/-- The entry that takes the wear past its limit notes NV_WEAR. -/
theorem enterRecovery_of_worn (h : s.nv.wear.get (fun _ => 0) (0x454 / 4) = 10 ^ 14) :
    s.DoesWith c (.enterRecovery c) 0x11 (fun t => s.AnswersCmd t (jobOfCmd c 0x11) 0 0 [] ∧
      t.sys = { s.sys with mode := .recovery } ∧ t.sticky 291 = true ∧
      (∀ b, b < aNvr 0x454 ∨ aNvr 0x458 ≤ b → t.byte b = s.byte b)) := by
  refine doesWith_of_completes 0 0 rfl rfl (by decide) (fun hw l w tgt _ => ?_)
  have hsticky := Dev.sticky_note (s.holding l w).recovering (f := 291) (by decide)
  obtain ⟨r, f, hnote⟩ := (s.holding l w).recovering.noteFrame_note 291
  rw [hnote] at hsticky
  refine ⟨_, [], congrArg (fun v : Dev => v.complete (jobOfCmd c 0x11) 0 0 [])
    ((Dev.toRecovery_of_worn (s := s.holding l w) h).trans hnote), ⟨rfl, rfl, rfl⟩,
    fun m l' ha => ⟨ha, rfl, hsticky, ?_⟩⟩
  exact fun b hb => (s.holding l w).byte_recovering hb

theorem enterRecovery_of_not_worn (h : s.nv.wear.get (fun _ => 0) (0x454 / 4) ≠ 10 ^ 14) :
    s.DoesWith c (.enterRecovery c) 0x11 (fun t => s.AnswersCmd t (jobOfCmd c 0x11) 0 0 [] ∧
      t.sys = { s.sys with mode := .recovery } ∧
      t.word (aNvr 0x454) = (if s.word (aNvr 0x454) = 0xFFFFFFFF then 0xFFFFFFFF else s.word (aNvr 0x454) + 1) ∧
      (∀ b, b < aNvr 0x454 ∨ aNvr 0x458 ≤ b → t.byte b = s.byte b) ∧
      s.Answered { t with sys := s.sys, mem := s.mem, nv := s.nv }) := by
  refine doesWith_of_completes 0 0 rfl rfl (by decide) (fun hw l w tgt _ => ?_)
  refine ⟨(s.holding l w).recovering, [], congrArg (fun v : Dev => v.complete (jobOfCmd c 0x11) 0 0 [])
    (Dev.toRecovery_of_not_worn (s := s.holding l w) h), ⟨rfl, rfl, rfl⟩, fun m l' ha => ⟨ha, rfl, ?_, ?_, ?_⟩⟩
  · exact (s.holding l w).word_recovering
  · exact fun b hb => (s.holding l w).byte_recovering hb
  · exact Dev.with_no_waiting hw

/-! ### MAP_CLEAR (R74, R363) -/

theorem mapClear_of_free (h : s.sys.mode = .idle ∨ s.clearBusy = []) :
    s.DoesWith c (.mapClear c) 0x30 (fun t => s.AnswersCmd t (jobOfCmd c 0x30) 0 0 [] ∧
      (∀ o, o < 0x900 → t.rd (aHgt o) = 0) ∧
      (∀ n, n < 256 → t.rd (aSiteCfg n) = 0) ∧ (∀ y, y < 16 → t.rd (aHgt (0x2100 + 4 * y)) = 2) ∧
      (∀ n, n < 256 → (t.site n).mapped = false ∧ (t.site n).err = 1) ∧
      s.Answered { t with regs := s.regs, sites := s.sites, engs := s.engs }) := by
  refine doesWith_of_completes 0 0 rfl rfl (by decide) (fun hw l w tgt _ => ?_)
  have hrd := fun o => (s.holding l w).rd_mapClear (o := o)
  have hsite := fun n => (s.holding l w).site_mapClear (n := n)
  have hframe := (s.holding l w).mapClear_frame
  have hclear : (s.holding l w).mapClearCmd (jobOfCmd c 0x30) =
      (s.holding l w).mapClear.complete (jobOfCmd c 0x30) 0 0 [] := Dev.mapClearCmd_of_free (s := s.holding l w) _ h
  generalize (s.holding l w).mapClear = v at hrd hsite hframe hclear
  obtain ⟨r, i, e, rfl⟩ := hframe
  refine ⟨_, [], hclear, ⟨rfl, rfl, rfl⟩, fun m l' ha => ⟨ha, fun o ho => ?_, fun n hn => ?_, fun y hy => ?_, hsite,
    Dev.with_no_waiting hw⟩⟩
  · exact (hrd o (.inl ho)).trans (resetWord_aHgt_of_low ho)
  · exact (hrd (0x1000 + 16 * n) (.inr (.inl (by omega)))).trans (resetWord_aHgt_of_cfg hn)
  · exact (hrd (0x2100 + 4 * y) (.inr (.inr (by omega)))).trans (resetWord_aHgt_of_rdv hy)

/-- A busy site refuses the command, and HGT.STATUS shows it. -/
theorem mapClear_of_busy {n : Nat} {r : List Nat} (hm : s.sys.mode = .diagnostic) (hb : s.clearBusy = n :: r) :
    s.DoesWith c (.mapClear c) 0x30 (fun t => s.AnswersCmd t (jobOfCmd c 0x30) 3 n [] ∧
      t.bit (aHgt 0x2000) 31 = true ∧ s.Cards t [aHgt 0x2000] ∧ s.Answered { t with regs := s.regs }) := by
  refine doesWith_of_completes 3 n rfl rfl (by decide) (fun hw l w tgt _ =>
    ⟨(s.holding l w).hgtRej, [], ?_, ⟨rfl, rfl, rfl⟩, fun m l' ha => ⟨ha, ?_, fun a hne => ?_, Dev.with_no_waiting hw⟩⟩)
  · exact Dev.mapClearCmd_of_busy (s := s.holding l w) _ hm hb
  · exact Dev.bit_setBits_self (s.holding l w) (aHgt 0x2000) 31 _ rfl
  · exact Dev.rd_wr_of_ne (s.holding l w) (by simpa using hne) _

/-! ### FLT_ACK (R292, R363) -/

theorem fltAck_acknowledges (p : Nat → W) (hp : p = fun k => c.params.getD k 0) :
    s.DoesWith c (.fltAck c) 0x51 (fun t => s.AnswersCmd t (jobOfCmd c 0x51) 0 0 ((List.range 12).map t.pendWord) ∧
      (∀ f, f < 384 → fltNamed f = true → (p 0).bit (f / 32) = true → s.bit (aSrc f) 31 = false →
        t.sticky f = false) ∧
      (∀ f, f < 384 → s.bit (aSrc f) 31 = true ∨ (p 0).bit (f / 32) = false → t.rd (aSrc f) = s.rd (aSrc f)) ∧
      s.Answered { t with regs := s.regs, clk := s.clk }) := by
  subst hp
  refine doesWith_of_completes 0 0 rfl rfl (by decide) (fun hw l w tgt _ => ?_)
  have hacked := (s.holding l w).acked_ackClasses ((jobOfCmd c 0x51).p 0)
  have hclear := fun f hf hn hv hl => (s.holding l w).sticky_ackClasses (v := (jobOfCmd c 0x51).p 0) (g := f) hf hn hv hl
  have hother := fun f hf hv => (s.holding l w).rd_ackClasses_of_not_named (v := (jobOfCmd c 0x51).p 0) (g := f) hf hv
  have heq := (s.holding l w).fltAck_eq (jobOfCmd c 0x51)
  generalize (s.holding l w).ackClasses ((jobOfCmd c 0x51).p 0) = v at hacked hclear hother heq
  obtain ⟨⟨r, k, rfl⟩, hnumber, hticked, -, -, hkept⟩ := hacked
  refine ⟨_, _, heq, ⟨hticked, hnumber, rfl⟩, fun m l' ha => ⟨ha, hclear, fun f hf h => ?_,
    Dev.with_no_waiting hw⟩⟩
  exact h.elim (hkept f hf) (hother f hf)

end

end Sys2Proof.Machine
end

section
/-! PROOFS. Saves, repairs, the start of jobs, PWR_GROUPS and thresholds as they are taken (R160, R302, R328, R356,
R363-R369, R383). -/

namespace Sys2Proof.Machine

/-! ### Saves (R363, R383) -/

/-- The commands that save a set. -/
def saveRows (c : Cmd) : List (Instr × Nat × NvSet) :=
  [(.patchSave c, 0x90, .patch false), (.patchErase c, 0x91, .patch true), (.thmSave c, 0xB1, .thermal)]

/-- A row of them, said once: its arrival, its kind and its effect. -/
theorem saves_of_mem_saveRows {c : Cmd} {i : Instr} {code : Nat} {v : NvSet} (h : (i, code, v) ∈ saveRows c) (s : State) :
    exec i s = .next { s with toDev := s.receive code c } ∧ isStagedCmd code = false ∧ code ≠ 0xFF ∧
      ∀ (d : Dev) (tgt : Nat), d.carryOut (jobOfCmd c code) tgt = d.requestSave v (some (jobOfCmd c code)) := by
  have hall : ∀ x ∈ saveRows c, exec x.1 s = .next { s with toDev := s.receive x.2.1 c } ∧
      isStagedCmd x.2.1 = false ∧ x.2.1 ≠ 0xFF ∧ ∀ (d : Dev) (tgt : Nat),
        d.carryOut (jobOfCmd c x.2.1) tgt = d.requestSave x.2.2 (some (jobOfCmd c x.2.1)) := by
    simp only [saveRows, List.forall_mem_cons, List.not_mem_nil, false_implies, implies_true, and_true]
    exact ⟨⟨rfl, rfl, by decide, fun _ _ => rfl⟩, ⟨rfl, rfl, by decide, fun _ _ => rfl⟩,
      ⟨rfl, rfl, by decide, fun _ _ => rfl⟩⟩
  exact hall _ h

/-- The device with a calibration of a quad begun. -/
def Dev.calibrating (s : Dev) (j : Job) (q : Nat) : Dev :=
  { s with quads := s.quads.set (fun _ => quadInit) q { s.quad q with cal := true }
           host := { s.host with jobs := s.host.jobs ++ [j] } }

theorem Dev.calQuad_of_service {s : Dev} {j : Job} {q : Nat} (hq : (j.p 0).toNat = q) (h : (s.quad q).st = .service) :
    s.calQuad j = s.calibrating j q := by
  simp only [Dev.calQuad, hq, h, ne_eq, not_true, if_false]
  rfl

theorem Dev.calQuad_of_not_service {s : Dev} {j : Job} {q : Nat} (hq : (j.p 0).toNat = q) (h : (s.quad q).st ≠ .service) :
    s.calQuad j = s.complete j 11 q [] := by
  rw [Dev.calQuad, hq, if_pos h]

theorem Dev.carryOut_pwrGroups (s : Dev) {j : Job} (h : j.code = 0xA1) (tgt : Nat) : s.carryOut j tgt = s.pwrGroups j := by
  simp only [Dev.carryOut, h, Nat.reduceEqDiff, if_false, if_true]

theorem jobOfCmd_p (c : Cmd) (code k : Nat) : (jobOfCmd c code).p k = c.params.getD k 0 := rfl

theorem Dev.carryOut_calQuad (s : Dev) {j : Job} (h : j.code = 0x70) (tgt : Nat) : s.carryOut j tgt = s.calQuad j := by
  simp only [Dev.carryOut, h, Nat.reduceEqDiff, if_false, if_true]

section
variable (s : State) (c : Cmd)

theorem save_of_new {i : Instr} {code : Nat} {v : NvSet} (hmem : (i, code, v) ∈ saveRows c)
    (hv : ∀ x ∈ s.nv.saves, x.set_ ≠ v) :
    s.DoesWith c i code (fun t => t.nv.saves = s.nv.saves ++ [{ set_ := v, job := some (jobOfCmd c code) }] ∧
      { t with nv := { t.nv with saves := s.nv.saves }, links := s.links } = s.toDev) := by
  obtain ⟨hi, hs, hc, heff⟩ := saves_of_mem_saveRows hmem s
  refine exec_of_takes hi hs hc (fun hw l w tgt _ => ?_)
  rw [heff, Dev.requestSave_of_new (s := s.holding l w) _ hv]
  exact ⟨rfl, Dev.with_no_waiting hw⟩

theorem save_of_waiting {i : Instr} {code : Nat} {v : NvSet} (hmem : (i, code, v) ∈ saveRows c)
    (hv : ∃ x ∈ s.nv.saves, x.set_ = v) :
    s.DoesWith c i code (fun t =>
      t.nv.saves = s.nv.saves.map (fun x =>
        if x.set_ = v then { x with job := some (x.job.getD (jobOfCmd c code)) } else x) ∧
      { t with nv := { t.nv with saves := s.nv.saves }, links := s.links } = s.toDev) := by
  obtain ⟨hi, hs, hc, heff⟩ := saves_of_mem_saveRows hmem s
  refine exec_of_takes hi hs hc (fun hw l w tgt _ => ?_)
  rw [heff, Dev.requestSave_of_waiting (s := s.holding l w) _ hv]
  exact ⟨rfl, Dev.with_no_waiting hw⟩

/-! ### REPAIR_CLEAR (R302, R368) -/

theorem repairClear_clears (p : Nat → W) (hp : p = fun k => c.params.getD k 0) :
    let k := (p 0).fld 24 16
    s.DoesWith c (.repairClear c) 0x62 (fun t =>
      ((∀ x ∈ s.nv.saves, x.set_ ≠ .repair) →
        t.nv.saves = s.nv.saves ++ [{ set_ := .repair, job := some (jobOfCmd c 0x62) }]) ∧
      ((∃ x ∈ s.nv.saves, x.set_ = .repair) → ∃ x ∈ t.nv.saves, x.set_ = .repair ∧ x.job ≠ none) ∧
      ((p 0).fld 31 28 = 0 → (s.quad k).st = .retired → t.quad k = { s.quad k with st := .off }) ∧
      ((p 0).fld 31 28 = 1 → (s.eng k).st = .retired → t.eng k = engOff) ∧
      ((p 0).fld 31 28 = 2 → (s.lane k).st = .failed → (t.lane k).st ≠ .failed ∧ (t.lane k).marked = false) ∧
      ((p 0).fld 31 28 = 3 → (t.quad k).sfail = false ∧ (t.quad k).spare ≠ .failed) ∧
      ((p 0).fld 31 28 = 4 → (p 0).fld 1 0 ∉ (t.quad k).pfail) ∧
      (∀ n, (p 0).fld 31 28 = 5 → s.listedSpare k = some n → (t.spareBank n).listed = false) ∧
      t.clk = s.clk ∧ t.mem = s.mem ∧ t.sys = s.sys ∧ t.regs = s.regs) := by
  subst hp
  refine exec_of_takes rfl rfl (by decide) (fun hw l w tgt _ => ?_)
  have hquad := Dev.clearUnit_quad (s := s.holding l w) (v := (jobOfCmd c 0x62).p 0)
  have heng := Dev.clearUnit_eng (s := s.holding l w) (v := (jobOfCmd c 0x62).p 0)
  have hlane := Dev.clearUnit_lane (s := s.holding l w) (v := (jobOfCmd c 0x62).p 0)
  have hspare := Dev.clearUnit_spare (s := s.holding l w) (v := (jobOfCmd c 0x62).p 0)
  have hprimary := Dev.clearUnit_primary (s := s.holding l w) (v := (jobOfCmd c 0x62).p 0)
  have hbank := fun h n => Dev.clearUnit_bank (s := s.holding l w) (v := (jobOfCmd c 0x62).p 0) h (n := n)
  have heff : (s.holding l w).carryOut (jobOfCmd c 0x62) tgt =
    ((s.holding l w).clearUnit ((jobOfCmd c 0x62).p 0)).requestSave .repair (some (jobOfCmd c 0x62)) := rfl
  have hframe := (s.holding l w).clearUnit_frame ((jobOfCmd c 0x62).p 0)
  generalize (s.holding l w).clearUnit ((jobOfCmd c 0x62).p 0) = u
    at hquad heng hlane hspare hprimary hbank heff hframe
  have hnew := fun h => congrArg (fun v : Dev => v.nv.saves)
    (Dev.requestSave_of_new (s := u) (v := .repair) (some (jobOfCmd c 0x62)) h)
  have hwaits := u.requestSave_waits .repair (jobOfCmd c 0x62)
  obtain ⟨v, hv⟩ := u.requestSave_frame .repair (some (jobOfCmd c 0x62))
  rw [hv] at heff hnew hwaits
  rw [heff]
  obtain ⟨q, e, n, k, i, rfl⟩ := hframe
  exact ⟨hnew, fun _ => hwaits, hquad, heng, hlane, hspare, hprimary, fun n h hn => hbank h n hn, rfl, rfl, rfl, rfl⟩

/-! ### Jobs and PWR_GROUPS (R160, R356, R369) -/

/-- The commands whose job only starts. -/
def jobRows (c : Cmd) : List (Instr × Nat) := [(.calFull c, 0x71), (.loadCrc c, 0x20), (.cisFill c, 0x21)]

theorem starts_of_mem_jobRows {i : Instr} {code : Nat} (h : (i, code) ∈ jobRows c) :
    exec i s = .next { s with toDev := s.receive code c } ∧ isStagedCmd code = false ∧ code ≠ 0xFF ∧
      ∀ (d : Dev) (tgt : Nat), d.carryOut (jobOfCmd c code) tgt = d.startJob (jobOfCmd c code) := by
  have hall : ∀ x ∈ jobRows c, exec x.1 s = .next { s with toDev := s.receive x.2 c } ∧ isStagedCmd x.2 = false ∧
      x.2 ≠ 0xFF ∧ ∀ (d : Dev) (tgt : Nat), d.carryOut (jobOfCmd c x.2) tgt = d.startJob (jobOfCmd c x.2) := by
    simp only [jobRows, List.forall_mem_cons, List.not_mem_nil, false_implies, implies_true, and_true]
    exact ⟨⟨rfl, rfl, by decide, fun _ _ => rfl⟩, ⟨rfl, rfl, by decide, fun _ _ => rfl⟩,
      ⟨rfl, rfl, by decide, fun _ _ => rfl⟩⟩
  exact hall _ h

theorem job_starts {i : Instr} {code : Nat} (hmem : (i, code) ∈ jobRows c) :
    s.DoesWith c i code (fun t => t.host.jobs = s.host.jobs ++ [jobOfCmd c code] ∧
      { t with host := { t.host with jobs := s.host.jobs }, links := s.links } = s.toDev) := by
  obtain ⟨hi, hs, hc, heff⟩ := starts_of_mem_jobRows s c hmem
  refine exec_of_takes hi hs hc (fun hw l w tgt _ => ?_)
  rw [heff]
  exact ⟨rfl, Dev.with_no_waiting hw⟩

theorem calQuad_of_service (p : Nat → W) (hp : p = fun k => c.params.getD k 0)
    (h : (s.quad (p 0).toNat).st = .service) :
    s.DoesWith c (.calQuad c) 0x70 (fun t => t.host.jobs = s.host.jobs ++ [jobOfCmd c 0x70] ∧
      t.quad (p 0).toNat = { s.quad (p 0).toNat with cal := true } ∧
      { t with host := { t.host with jobs := s.host.jobs }, quads := s.quads, links := s.links } = s.toDev) := by
  have hq : ((jobOfCmd c 0x70).p 0).toNat = (p 0).toNat := by rw [hp, jobOfCmd_p]
  refine exec_of_takes rfl rfl (by decide) (fun hw l w tgt _ => ?_)
  rw [Dev.carryOut_calQuad _ rfl, Dev.calQuad_of_service (s := s.holding l w) hq h]
  exact ⟨rfl, Tab.get_set_self _ _ _ _, Dev.with_no_waiting (s := s.toDev) hw⟩

theorem calQuad_of_not_service (p : Nat → W) (hp : p = fun k => c.params.getD k 0)
    (h : (s.quad (p 0).toNat).st ≠ .service) :
    s.DoesWith c (.calQuad c) 0x70
      (fun t => s.AnswersCmd t (jobOfCmd c 0x70) 11 (p 0).toNat [] ∧ s.Answered t) := by
  have hq : ((jobOfCmd c 0x70).p 0).toNat = (p 0).toNat := by rw [hp, jobOfCmd_p]
  refine doesWith_of_answers rfl rfl (by decide) (fun l w tgt _ => ?_)
  rw [Dev.carryOut_calQuad _ rfl]
  exact Dev.calQuad_of_not_service (s := s.holding l w) hq h

theorem pwrGroups_asks (p : Nat → W) (hp : p = fun k => c.params.getD k 0) :
    s.DoesWith c (.pwrGroups c) 0xA1 (fun t =>
      t.pwr = { s.pwr with job := some (jobOfCmd c 0xA1), asked := s.pwr.asked ++ [([(0x2C, p 0)], none)] } ∧
      { t with pwr := s.pwr, links := s.links } = s.toDev) := by
  subst hp
  refine exec_of_takes rfl rfl (by decide) (fun hw l w tgt _ => ?_)
  rw [Dev.carryOut_pwrGroups _ rfl]
  dsimp only [Dev.pwrGroups, Dev.holding, Dev.emptied, jobOfCmd_p]
  exact ⟨rfl, Dev.with_no_waiting (s := s.toDev) hw⟩

/-! ### THM_SET (R328) -/

theorem thmSet_of_no_zone (p : Nat → W) (hp : p = fun k => c.params.getD k 0) (h : ∀ z, z < 28 → (p 0).bit z = false) :
    s.DoesWith c (.thmSet c) 0xB0 (fun t => s.AnswersCmd t (jobOfCmd c 0xB0) 0 0 [] ∧ s.Answered t) := by
  subst hp
  have hnone : zonesOf ((jobOfCmd c 0xB0).p 0) = [] :=
    List.eq_nil_iff_forall_not_mem.mpr (fun z hz => by
      obtain ⟨hlt, hbit⟩ := mem_zonesOf.mp hz
      exact absurd ((h z hlt).symm.trans hbit) Bool.false_ne_true)
  exact doesWith_of_answers rfl rfl (by decide) (fun l w tgt _ => Dev.thmSet_of_none (s := s.holding l w) hnone)

theorem thmSet_of_refused (p : Nat → W) (hp : p = fun k => c.params.getD k 0) {z : Nat} (hz : z < 28)
    (ho : thrOk (p 1) = false) (hb : (p 0).bit z = true) (hy : ∀ y, y < z → (p 0).bit y = false) :
    s.DoesWith c (.thmSet c) 0xB0 (fun t => s.AnswersCmd t (jobOfCmd c 0xB0) 3 z [] ∧ s.Answered t) := by
  subst hp
  exact doesWith_of_answers rfl rfl (by decide)
    (fun l w tgt _ => Dev.thmSet_of_disordered (s := s.holding l w) (j := jobOfCmd c 0xB0) ho hz hb hy)

theorem thmSet_of_accepted (p : Nat → W) (hp : p = fun k => c.params.getD k 0) (ho : thrOk (p 1) = true) :
    s.DoesWith c (.thmSet c) 0xB0 (fun t => s.AnswersCmd t (jobOfCmd c 0xB0) 0 0 [] ∧
      (∀ z, z < 28 → (p 0).bit z = true → ∀ a v, (a, v) ∈ [(aThm (16 * z), p 1), (aThm (16 * z + 4), p 2)] →
        t.rd a = (s.rd a &&& ~~~(rwMask a)) ||| (v &&& rwMask a)) ∧
      (∀ a, (∀ z, z < 28 → (p 0).bit z = true → a ≠ aThm (16 * z) ∧ a ≠ aThm (16 * z + 4)) →
        t.rd a = s.rd a) ∧
      s.Answered { t with regs := s.regs }) := by
  subst hp
  refine doesWith_of_completes 0 0 rfl rfl (by decide) (fun hw l w tgt _ => ?_)
  have hlt : ∀ z ∈ zonesOf ((jobOfCmd c 0xB0).p 0), z < 28 := fun z hz => (mem_zonesOf.mp hz).1
  have hset := fun z hz x v hx =>
    (s.holding l w).rd_setZones (b := (jobOfCmd c 0xB0).p 2) hlt ho (z := z) hz (x := x) (v := v) hx
  have hother := fun x hx => (s.holding l w).rd_setZones_of_ne (b := (jobOfCmd c 0xB0).p 2) hlt ho (x := x) hx
  have heq := Dev.thmSet_of_ordered (s := s.holding l w) (j := jobOfCmd c 0xB0) ho
  obtain ⟨r, hr⟩ := (s.holding l w).setZones_frame (zonesOf ((jobOfCmd c 0xB0).p 0)) ((jobOfCmd c 0xB0).p 1)
    ((jobOfCmd c 0xB0).p 2)
  change ∀ z _ x v _, Dev.rd (Dev.setZones _ _ ((jobOfCmd c 0xB0).p 1) _) x = _ at hset
  change ∀ x _, Dev.rd (Dev.setZones _ _ ((jobOfCmd c 0xB0).p 1) _) x = _ at hother
  rw [hr] at heq
  simp only [hr] at hset hother
  refine ⟨_, [], heq, ⟨rfl, rfl, rfl⟩, fun m l' ha => ⟨ha, fun z hz hb a v hav => ?_, fun a hne => ?_,
    Dev.with_no_waiting hw⟩⟩
  · simp only [List.mem_cons, Prod.ext_iff, List.not_mem_nil, or_false] at hav
    exact hset z (mem_zonesOf.mpr ⟨hz, hb⟩) a v hav
  · exact hother a (fun z hz => hne z (mem_zonesOf.mp hz).1 (mem_zonesOf.mp hz).2)

end

end Sys2Proof.Machine
end

section
/-! PROOFS. EPOCH, DSYNC and FULL_RESET as they are taken; O55 (R46, R233, R353, R360, R371, R372). -/

namespace Sys2Proof.Machine

/-! ### EPOCH (R46, R371) -/

/-- An armed device: its three cards, and the mark that the master counts to. -/
theorem Dev.epochArmed_shows (s : Dev) (lo hi : W) : ∃ r, s.epochArmed lo hi =
      { s with regs := r, clk := { s.clk with markIn := if s.sys.master then some 3 else s.clk.markIn } } ∧
    (s.epochArmed lo hi).rd (aFrm 0x18) = lo ∧ (s.epochArmed lo hi).rd (aFrm 0x1C) = hi ∧
    (s.epochArmed lo hi).bit (aFrm 0x10) 9 = true ∧ s.Cards (s.epochArmed lo hi) [aFrm 0x18, aFrm 0x1C, aFrm 0x10] := by
  have hrd : ∀ a, (s.epochArmed lo hi).rd a = (((s.wr (aFrm 0x18) lo).wr (aFrm 0x1C) hi).setBits (aFrm 0x10) 0x200).rd a :=
    fun _ => rfl
  refine ⟨_, rfl, ?_, ?_, ?_, fun a ha => ?_⟩
  · rw [hrd, Dev.setBits, Dev.rd_wr_of_ne _ (by decide), Dev.rd_wr_of_ne _ (by decide), Dev.rd_wr_self]
  · rw [hrd, Dev.setBits, Dev.rd_wr_of_ne _ (by decide), Dev.rd_wr_self]
  · rw [Dev.bit, hrd]
    exact Dev.bit_setBits_self _ (aFrm 0x10) 9 _ rfl
  · simp only [List.mem_cons, List.not_mem_nil, or_false, not_or] at ha
    obtain ⟨h18, h1c, h10⟩ := ha
    rw [hrd, Dev.setBits, Dev.rd_wr_of_ne _ h10, Dev.rd_wr_of_ne _ h1c, Dev.rd_wr_of_ne _ h18]

section
variable (s : State) (c : Cmd)

theorem epoch_arms (p : Nat → W) (hp : p = fun k => c.params.getD k 0) :
    s.DoesWith c (.epoch c) 0xC0 (fun t => s.AnswersCmd t (jobOfCmd c 0xC0) 0 0 [] ∧
      t.rd (aFrm 0x18) = p 0 ∧ t.rd (aFrm 0x1C) = p 1 ∧
      t.bit (aFrm 0x10) 9 = true ∧ t.clk.markIn = (if s.sys.master then some 3 else s.clk.markIn) ∧
      { t.clk with markIn := s.clk.markIn } = s.clk ∧ s.Cards t [aFrm 0x18, aFrm 0x1C, aFrm 0x10] ∧
      s.Answered { t with regs := s.regs, clk := s.clk }) := by
  subst hp
  refine doesWith_of_completes 0 0 rfl rfl (by decide) (fun hw l w tgt _ => ?_)
  have heq := (s.holding l w).epochCmd_eq (jobOfCmd c 0xC0)
  obtain ⟨r, hr, hlo, hhi, harmed, hcards⟩ :=
    (s.holding l w).epochArmed_shows ((jobOfCmd c 0xC0).p 0) ((jobOfCmd c 0xC0).p 1)
  rw [hr] at heq hlo hhi harmed hcards
  exact ⟨_, [], heq, ⟨rfl, rfl, rfl⟩, fun m l' ha =>
    ⟨ha, hlo, hhi, harmed, rfl, rfl, hcards, Dev.with_no_waiting hw⟩⟩

end

/-! ### DSYNC (R233, R372) -/

/-- A scheduled reset: its tick and source stand in their cards, and it waits with the others. -/
theorem Dev.resetScheduled_shows (s : Dev) {t : Nat} (ht : t < 2 ^ 48) : ∃ r, s.resetScheduled t =
      { s with regs := r, clk := { s.clk with resets := s.clk.resets ++ [(t, 3)] } } ∧
    ({ s with regs := r }).rdFrame (aFrm 0x84) (aFrm 0x88) = t ∧ ({ s with regs := r }).fld (aFrm 0x8C) 25 24 = 3 ∧
    s.Cards { s with regs := r } [aFrm 0x84, aFrm 0x88, aFrm 0x8C] := by
  have hother : ∀ a, a ≠ aFrm 0x8C → (s.resetCards t).rd a = (s.wrFrame (aFrm 0x84) (aFrm 0x88) t).rd a := by
    intro a ha
    rw [Dev.resetCards, Dev.setFld, Dev.rd_wr_of_ne _ ha]
  have hframe : (s.resetCards t).rdFrame (aFrm 0x84) (aFrm 0x88) = t := by
    rw [Dev.rdFrame, Dev.fld, hother _ (by decide), hother _ (by decide), ← Dev.fld, ← Dev.rdFrame,
      Dev.rdFrame_wrFrame _ (by decide) ht]
  have hsource : (s.resetCards t).fld (aFrm 0x8C) 25 24 = 3 := by
    rw [Dev.resetCards, Dev.setFld, Dev.fld, Dev.rd_wr_self]
    exact W.fld_put_self _ (by decide) (by decide) 3
  have hcards : s.Cards (s.resetCards t) [aFrm 0x84, aFrm 0x88, aFrm 0x8C] := by
    intro a ha
    simp only [List.mem_cons, List.not_mem_nil, or_false, not_or] at ha
    obtain ⟨h84, h88, h8c⟩ := ha
    rw [hother a h8c, Dev.wrFrame, Dev.setFld, Dev.rd_wr_of_ne _ h88, Dev.rd_wr_of_ne _ h84]
  obtain ⟨r, hr⟩ := s.resetCards_frame t
  rw [hr] at hframe hsource hcards
  exact ⟨r, by rw [Dev.resetScheduled, hr], hframe, hsource, hcards⟩

/-- Eight resets by command wait, and a ninth is BUSY. -/
theorem Dev.cmdStatus_dsync_of_eight {s : Dev} {c : Cmd} (hm : s.sys.mode.runs = true)
    (hv : c.via = .mspi → s.sys.boot = .done) (hl : c.plen = 0) (hn : c.params = []) {T : BitVec 48} (hT : c.tgt = some T)
    (hfar : s.farTarget T.toNat = false) (h8 : 8 ≤ (s.clk.resets.filter (fun x => x.2 = 3)).length) :
    s.cmdStatus 0xC1 c = 10 := by
  have hpath : s.mspiTakes c.via 0xC1 = true := by
    cases hvia : c.via with
    | mspi => simp [Dev.mspiTakes, hv hvia]
    | link k => rfl
  have hlegal : s.cmdLegal c.via 0xC1 (cmdParam c 0) = true := by simpa [Dev.cmdLegal] using hm
  have htarget : s.badTarget 0xC1 c.tgt = false := by simpa [Dev.badTarget, hT] using hfar
  have hpass : s.Passes 0xC1 c [] :=
    ⟨rfl, hl, by rw [hn], hpath, hlegal, htarget, fun x hx => by simp at hx, rfl⟩
  have hbusy : s.cmdBusy 0xC1 = true := by simp only [Dev.cmdBusy, decide_true, h8, Bool.and_self, Bool.or_true]
  rw [hpass.cmdStatus, if_pos hbusy]

theorem Dev.carryOut_dsync (s : Dev) {j : Job} (h : j.code = 0xC1) (tgt : Nat) : s.carryOut j tgt = s.dsyncCmd j tgt := by
  simp only [Dev.carryOut, h, Nat.reduceEqDiff, if_false, if_true]

section
variable (s : State) (c : Cmd)

theorem dsync_of_ahead {T : BitVec 48} (hT : c.tgt = some T) (h : 2 ≤ s.aheadBy T.toNat)
    (h' : s.aheadBy T.toNat < 2 ^ 47) :
    s.DoesWith c (.dsync c) 0xC1 (fun t => s.AnswersCmd t (jobOfCmd c 0xC1) 0 0 [] ∧
      t.clk.resets = s.clk.resets ++ [(T.toNat, 3)] ∧
      t.rdFrame (aFrm 0x84) (aFrm 0x88) = T.toNat ∧ t.fld (aFrm 0x8C) 25 24 = 3 ∧
      s.Cards t [aFrm 0x84, aFrm 0x88, aFrm 0x8C] ∧
      s.Answered { t with regs := s.regs, clk := { t.clk with resets := s.clk.resets } }) := by
  refine doesWith_of_completes 0 0 rfl rfl (by decide) (fun hw l w tgt htgt => ?_)
  obtain rfl := htgt T hT
  rw [Dev.carryOut_dsync _ rfl]
  have heq := Dev.dsyncCmd_of_ahead (s := s.holding l w) (jobOfCmd c 0xC1) (t := T.toNat)
    (not_or.mpr ⟨not_lt.mpr h, not_le.mpr h'⟩)
  obtain ⟨r, hr, hframe, hsource, hcards⟩ := (s.holding l w).resetScheduled_shows T.isLt
  rw [hr] at heq
  exact ⟨_, [], heq, ⟨rfl, rfl, rfl⟩, fun m l' ha =>
    ⟨ha, rfl, hframe, hsource, hcards, Dev.with_no_waiting hw⟩⟩

theorem dsync_of_late {T : BitVec 48} (hT : c.tgt = some T) (h : s.aheadBy T.toNat < 2 ∨ 2 ^ 47 ≤ s.aheadBy T.toNat) :
    s.DoesWith c (.dsync c) 0xC1 (fun t => s.AnswersCmd t (jobOfCmd c 0xC1) 6 0 [] ∧ s.Answered t) := by
  refine doesWith_of_answers rfl rfl (by decide) (fun l w tgt htgt => ?_)
  obtain rfl := htgt T hT
  rw [Dev.carryOut_dsync _ rfl]
  exact Dev.dsyncCmd_of_late (s := s.holding l w) (jobOfCmd c 0xC1) h

/-- With a full store the command is BUSY as it arrives, else as it is taken. -/
theorem dsync_of_eight (hp : s.pathOpen c.via = true) (hw : s.host.waiting = []) (hb : s.scarabBusy = false)
    (hm : s.sys.mode.runs = true) (hv : c.via = .mspi → s.sys.boot = .done) (hl : c.plen = 0) (hn : c.params = [])
    (hT : ∃ T : BitVec 48, c.tgt = some T ∧ s.farTarget T.toNat = false)
    (h8 : 8 ≤ (s.clk.resets.filter (fun x => x.2 = 3)).length) :
    ∃ t : Dev, exec (.dsync c) s = .next { s with toDev := t } ∧ s.AnswersCmd t (jobOfCmd c 0xC1) 10 0 [] ∧
      s.Answered t := by
  obtain ⟨T, hT, hfar⟩ := hT
  have hstatus := Dev.cmdStatus_dsync_of_eight hm hv hl hn hT hfar h8
  by_cases ha : s.awaiting < 256
  · obtain ⟨t, ht, hans, hcmd⟩ := exec_of_refused (i := .dsync c) rfl hp hw (.inl ha) hb (by rw [hstatus]; decide)
    rw [hstatus] at hcmd
    exact ⟨t, ht, hcmd, hans⟩
  · obtain ⟨t, ht, hans, hcmd⟩ := exec_of_full (i := .dsync c) (code := 0xC1) rfl hp (.inr (not_lt.mp ha)) (by decide)
    exact ⟨t, ht, hcmd, hans⟩

end

/-! ### FULL_RESET (R13, R353, R360) -/

/-- A command that passes the checks is legal in its mode (R353 check 2). -/
theorem Dev.cmdLegal_of_cmdStatus {s : Dev} {code : Nat} {c : Cmd} (h : s.cmdStatus code c = 0) :
    s.cmdLegal c.via code (cmdParam c 0) = true := by
  rw [Dev.cmdStatus] at h
  split at h
  · exact absurd h (by decide)
  · split_ifs at h with h1 h2
    exact (Bool.and_eq_true_iff.mp (by simpa using h2)).2

theorem Dev.sys_nvPut (s : Dev) (o : Nat) (v : W) : (s.nvPut o v).sys = s.sys := by
  rw [Dev.nvPut_eq]
  split
  · obtain ⟨r, f, h⟩ := (s.nvStored o v).noteFrame_note 291
    rw [h]; rfl
  · rfl

theorem Dev.sys_nvCut (s : Dev) : s.nvCut.sys = s.sys := by
  unfold Dev.nvCut
  split
  · dsimp only
    split
    · exact Dev.sys_nvPut _ _ _
    · rfl
  · rfl

theorem Dev.nvCut_of_none {s : Dev} (h : s.nvUnderWay = none) : s.nvCut = s := by
  rw [Dev.nvCut, h]

/-- Out of RESET the cause recorded is that of this reset. -/
theorem Dev.rd_enterReset_cause {s : Dev} (h : s.sys.mode ≠ .reset) (cause : Nat) :
    (s.enterReset cause).rd 0x900 = wn cause := by
  have hmode : s.nvCut.sys.mode ≠ .reset := by rw [s.sys_nvCut]; exact h
  simp only [Dev.enterReset, hmode, if_false, Dev.rd_wr_self]

theorem Dev.rd_enterReset_of_ne (s : Dev) (cause : Nat) {a : Nat} (h : a ≠ 0x900) :
    (s.enterReset cause).rd a = resetWord a :=
  Dev.rd_wr_of_ne _ h _

/-- NVR keeps its bytes where no word is under way. -/
theorem Dev.byte_enterReset {s : Dev} (h : s.nvUnderWay = none) (cause : Nat) {a o : Nat} (hloc : locOf a = .nvr o) :
    (s.enterReset cause).byte a = s.byte a := by
  unfold Dev.enterReset
  rw [Dev.nvCut_of_none h]
  exact Tab.get_filter_of_keep memByte (fun _ => by rw [hloc]) s.mem

theorem fullReset_resets (s : State) (c : Cmd) (hp : s.pathOpen c.via = true) (hst : s.cmdStatus 0xFF c = 0) :
    ∃ t : Dev, exec (.fullReset c) s = .next { s with toDev := t } ∧ t.sys.mode = .reset ∧
      t.rd 0x900 = 3 ∧
      (∀ a, a ≠ 0x900 → t.rd a = resetWord a) ∧ t.host = Dev.reset.host ∧ t.links = [] ∧ t.flt.running = false ∧
      (s.nvUnderWay = none → ∀ a o, locOf a = .nvr o → t.byte a = s.byte a) := by
  have hmode : s.sys.mode ≠ .reset := by simpa [Dev.cmdLegal] using Dev.cmdLegal_of_cmdStatus hst
  obtain ⟨l, hl⟩ := Dev.receive_fullReset hp
  obtain ⟨tgt, htake, -⟩ :=
    Dev.take_of_ok (s := s.holding l s.host.waiting) (code := 0xFF) (c := c) (by simpa using hst) rfl
  have heff : s.receive 0xFF c = (s.holding l s.host.waiting).enterReset 3 := (hl.trans htake).trans rfl
  have hexec : exec (.fullReset c) s = .next { s with toDev := s.receive 0xFF c } := rfl
  rw [heff] at hexec
  refine ⟨_, hexec, rfl, ?_, fun a ha => Dev.rd_enterReset_of_ne _ 3 ha, rfl, rfl, rfl, fun hn a o hloc => ?_⟩
  · exact Dev.rd_enterReset_cause (s := s.holding l s.host.waiting) hmode 3
  · exact Dev.byte_enterReset (s := s.holding l s.host.waiting) hn 3 hloc

/-! ### O55 -/

/-- Settles O55: command by command, each by its effect (`doesWith_of_completes`, `exec_of_takes`). -/
theorem immediateCommandsAct : Obligations.ImmediateCommandsAct := by
  unfold Obligations.ImmediateCommandsAct
  intro s c p hp
  exact ⟨enterRecovery_of_worn s c, enterRecovery_of_not_worn s c, mapClear_of_free s c,
    fun _ _ hm hb => mapClear_of_busy s c hm hb, fltAck_acknowledges s c p hp,
    fun _ _ _ hmem hv => save_of_new s c hmem hv, fun _ _ _ hmem hv => save_of_waiting s c hmem hv,
    repairClear_clears s c p hp, calQuad_of_service s c p hp, calQuad_of_not_service s c p hp,
    fun _ _ hmem => job_starts s c hmem, pwrGroups_asks s c p hp, thmSet_of_no_zone s c p hp,
    thmSet_of_accepted s c p hp, fun _ hz ho hb hy => thmSet_of_refused s c p hp hz ho hb hy, epoch_arms s c p hp,
    fun _ hT => ⟨dsync_of_ahead s c hT, dsync_of_late s c hT⟩, dsync_of_eight s c, fullReset_resets s c⟩

end Sys2Proof.Machine
end

section
/-! PROOFS. Fields and bits of the register cards: what a read of one shows after a write of another (R5, R8). -/

namespace Sys2Proof

/-! ### Bits and fields of a word -/

theorem W.bit_eq_testBit (v : W) (i : Nat) : v.bit i = v.toNat.testBit i := rfl

theorem W.testBit_fld (v : W) {hi lo i : Nat} (h : i < hi + 1 - lo) : (v.fld hi lo).testBit i = v.bit (lo + i) := by
  simp [W.fld, W.bit_eq_testBit, Nat.testBit_mod_two_pow, Nat.testBit_shiftRight, h]

theorem W.fld_lt (v : W) (hi lo : Nat) : v.fld hi lo < 2 ^ (hi + 1 - lo) := Nat.mod_lt _ (by positivity)

/-- Words that agree on a field's bits agree on the field. -/
theorem W.fld_congr {v w : W} {hi lo : Nat} (h : ∀ i, lo ≤ i → i ≤ hi → v.bit i = w.bit i) : v.fld hi lo = w.fld hi lo := by
  refine Nat.eq_of_testBit_eq (fun i => ?_)
  by_cases hi' : i < hi + 1 - lo
  · rw [W.testBit_fld v hi', W.testBit_fld w hi']
    exact h _ (by omega) (by omega)
  · have hle : 2 ^ (hi + 1 - lo) ≤ 2 ^ i := Nat.pow_le_pow_right (by omega) (by omega)
    rw [Nat.testBit_lt_two_pow (lt_of_lt_of_le (W.fld_lt v hi lo) hle),
      Nat.testBit_lt_two_pow (lt_of_lt_of_le (W.fld_lt w hi lo) hle)]

theorem W.bit_put_self (v : W) {hi lo i : Nat} (h : lo ≤ i) (h' : i ≤ hi) (hb : hi < 32) (x : Nat) :
    (v.put hi lo x).bit i = x.testBit (i - lo) := by
  have hfld := W.fld_put_self v (Nat.le_trans h h') hb x
  have hbit := W.testBit_fld (v.put hi lo x) (hi := hi) (lo := lo) (i := i - lo) (by omega)
  rw [Nat.add_sub_cancel' h] at hbit
  rw [← hbit, hfld, Nat.testBit_mod_two_pow]
  simp [show i - lo < hi + 1 - lo by omega]

/-- A field apart from the one replaced. -/
theorem W.fld_put_of_ne (v : W) {hi lo hi' lo' : Nat} (h : lo ≤ hi) (hb : hi < 32) (hd : hi < lo' ∨ hi' < lo) (x : Nat) :
    (v.put hi lo x).fld hi' lo' = v.fld hi' lo' :=
  W.fld_congr (fun i hl hh => W.bit_put_of_ne v h hb (by omega) x)

@[simp] theorem W.bit_or (v w : W) (i : Nat) : (v ||| w).bit i = (v.bit i || w.bit i) := BitVec.getLsbD_or

@[simp] theorem W.bit_and (v w : W) (i : Nat) : (v &&& w).bit i = (v.bit i && w.bit i) := BitVec.getLsbD_and

theorem W.bit_not (v : W) {i : Nat} (h : i < 32) : (~~~v).bit i = !v.bit i := by
  simp [W.bit, h]

theorem W.ext_bit {v w : W} (h : ∀ i, i < 32 → v.bit i = w.bit i) : v = w :=
  BitVec.eq_of_getLsbD_eq h

end Sys2Proof

namespace Sys2Proof.Machine

/-! ### Cards after a write -/

theorem Dev.rd_setFld_of_ne (s : Dev) {a hi lo x n : Nat} (h : n ≠ a) : (s.setFld a hi lo x).rd n = s.rd n :=
  Dev.rd_wr_of_ne _ h _

@[simp] theorem Dev.rd_setFld_self (s : Dev) (a hi lo x : Nat) : (s.setFld a hi lo x).rd a = (s.rd a).put hi lo x :=
  Dev.rd_wr_self _ _ _

theorem Dev.rd_setBits_of_ne (s : Dev) {a n : Nat} (m : W) (h : n ≠ a) : (s.setBits a m).rd n = s.rd n :=
  Dev.rd_wr_of_ne _ h _

@[simp] theorem Dev.rd_setBits_self (s : Dev) (a : Nat) (m : W) : (s.setBits a m).rd a = s.rd a ||| m :=
  Dev.rd_wr_self _ _ _

theorem Dev.rd_clrBits_of_ne (s : Dev) {a n : Nat} (m : W) (h : n ≠ a) : (s.clrBits a m).rd n = s.rd n :=
  Dev.rd_wr_of_ne _ h _

@[simp] theorem Dev.rd_clrBits_self (s : Dev) (a : Nat) (m : W) : (s.clrBits a m).rd a = s.rd a &&& ~~~m :=
  Dev.rd_wr_self _ _ _

theorem Dev.fld_setFld_self (s : Dev) {a hi lo : Nat} (h : lo ≤ hi) (hb : hi < 32) (x : Nat) :
    (s.setFld a hi lo x).fld a hi lo = x % 2 ^ (hi + 1 - lo) := by
  rw [Dev.fld, Dev.rd_setFld_self, W.fld_put_self _ h hb]

/-- One bit put as a field of its own. -/
theorem Dev.bit_setFld_self (s : Dev) {a i : Nat} (hb : i < 32) (b : Bool) : (s.setFld a i i (b2n b)).bit a i = b := by
  rw [Dev.bit, Dev.rd_setFld_self, W.bit_put_self _ (Nat.le_refl i) (Nat.le_refl i) hb, Nat.sub_self]
  cases b <;> rfl

theorem Dev.bit_setFld_of_ne (s : Dev) {a hi lo i : Nat} (h : lo ≤ hi) (hb : hi < 32) (hi' : i < lo ∨ hi < i) (x : Nat) :
    (s.setFld a hi lo x).bit a i = s.bit a i := by
  rw [Dev.bit, Dev.rd_setFld_self, W.bit_put_of_ne _ h hb hi']
  rfl

theorem Dev.fld_setFld_of_ne (s : Dev) {a hi lo hi' lo' : Nat} (h : lo ≤ hi) (hb : hi < 32) (hd : hi < lo' ∨ hi' < lo) (x : Nat) :
    (s.setFld a hi lo x).fld a hi' lo' = s.fld a hi' lo' := by
  rw [Dev.fld, Dev.rd_setFld_self, W.fld_put_of_ne _ h hb hd]
  rfl

/-- Cards that agree show the same bits and fields. -/
theorem Dev.bit_congr {s t : Dev} {a : Nat} (h : t.rd a = s.rd a) (i : Nat) : t.bit a i = s.bit a i := by
  rw [Dev.bit, h, Dev.bit]

theorem Dev.fld_congr {s t : Dev} {a : Nat} (h : t.rd a = s.rd a) (hi lo : Nat) : t.fld a hi lo = s.fld a hi lo := by
  rw [Dev.fld, h, Dev.fld]

theorem Dev.flag_setFlag_self (s : Dev) (e : Nat) {i : Nat} (hi : i < 32) (b : Bool) : (s.setFlag e i b).flag e i = b :=
  Dev.bit_setFld_self s hi b

/-! ### Which cards may differ -/

theorem Dev.Cards.setFld {s t : Dev} {l : List Nat} (h : s.Cards t l) {a : Nat} (ha : a ∈ l) (hi lo x : Nat) :
    s.Cards (t.setFld a hi lo x) l := h.wr ha _

theorem Dev.Cards.setBits {s t : Dev} {l : List Nat} (h : s.Cards t l) {a : Nat} (ha : a ∈ l) (m : W) :
    s.Cards (t.setBits a m) l := h.wr ha _

theorem Dev.Cards.clrBits {s t : Dev} {l : List Nat} (h : s.Cards t l) {a : Nat} (ha : a ∈ l) (m : W) :
    s.Cards (t.clrBits a m) l := h.wr ha _

theorem Dev.Cards.trans {s t u : Dev} {l : List Nat} (h : s.Cards t l) (k : t.Cards u l) : s.Cards u l :=
  fun a ha => (k a ha).trans (h a ha)

/-- A change that touches no card. -/
theorem Dev.Cards.of_regs {s t : Dev} (h : t.regs = s.regs) (l : List Nat) : s.Cards t l :=
  fun a _ => by unfold Dev.rd; rw [h]

end Sys2Proof.Machine
end

section
/-! PROOFS. What holds of every command and of every step: totality (O3), the invariant (O5), and how modes, straps,
frame number and TAP move (O60). -/

namespace Sys2Proof.Machine

/-! ### The step (O1, O2, O3, O4) -/

/-- Settles O1, by unfolding the step. -/
theorem stepRunsFrontCommand : Obligations.StepRunsFrontCommand := by
  unfold Obligations.StepRunsFrontCommand
  intro c s
  rw [step]

/-- Settles O2, by unfolding the step. -/
theorem emptyQueueIdles : Obligations.EmptyQueueIdles := by
  unfold Obligations.EmptyQueueIdles
  intro s h
  rw [step, h]

/-- Every meaning is a run: the queue of commands stands. -/
theorem exec_total (c : Instr) (s : State) : ∃ t : Dev, exec c s = .next { s with toDev := t } := by
  cases c <;> exact ⟨_, rfl⟩

/-- Settles O3: every meaning is a run. -/
theorem everyCommandCompletes : Obligations.EveryCommandCompletes := by
  unfold Obligations.EveryCommandCompletes
  intro c s
  obtain ⟨t, ht⟩ := exec_total c s
  exact ⟨_, ht, rfl⟩

/-- Settles O4, by `Dev.reset_inv`. -/
theorem resetMeetsInvariant : Obligations.ResetMeetsInvariant := by
  unfold Obligations.ResetMeetsInvariant
  exact Dev.reset_inv

/-! ### What a command may do to modes, straps, frame number and TAP (R43, R53, R57, R67, R418) -/

/-- The commands that change the TAP, beside BOOT_START: its own instructions, and the supply (R375, R418). -/
def tapMovers : List Instr :=
  [.bypass, .idcode, .samplePreload, .extest, .clamp, .highz, .extestPulse, .extestTrain, .powerOn, .powerLoss]

/-- What a command keeps of a device that meets the invariant. -/
structure Kept (c : Instr) (s t : Dev) : Prop where
  inv    : t.Inv
  safe   : s.sys.mode = .safe → t.sys.mode = .safe ∨ t.sys.mode = .reset
  reset  : s.sys.mode = .reset → t.sys.mode = .reset ∨ ∃ d m r, c = .bootStart d m r
  straps : (t.sys.devid = s.sys.devid ∧ t.sys.master = s.sys.master ∧ t.sys.recov = s.sys.recov) ∨
             t.sys.mode = .reset ∨ ∃ d m r, c = .bootStart d m r
  frame  : t.clk.frame = s.clk.frame ∨ t.sys.mode = .reset ∨ ∃ b, c = .frameTick b
  tap    : (t.jtag = s.jtag ∧ t.tdo = s.tdo) ∨ (∃ d m r, c = .bootStart d m r) ∨ c ∈ tapMovers

/-- A command that holds (Laws/Hold.lean) keeps all of it. -/
theorem Held.kept {c : Instr} {s t : Dev} (h : Held false s t) : Kept c s t where
  inv := h.inv
  safe := h.safe
  reset m := .inl (h.reset m)
  straps := h.straps.imp_right .inl
  frame := (h.frame rfl).imp_right .inl
  tap := .inl ⟨h.jtag, h.tdo⟩

/-- A tick moves the frame number too. -/
theorem Held.kept_of_tick {b : List (Fin 16)} {s t : Dev} (h : Held true s t) : Kept (.frameTick b) s t where
  inv := h.inv
  safe := h.safe
  reset m := .inl (h.reset m)
  straps := h.straps.imp_right .inl
  frame := .inr (.inr ⟨b, rfl⟩)
  tap := .inl ⟨h.jtag, h.tdo⟩

theorem Dev.tap_inv {s : Dev} (i : s.Inv) (x : Jtag) : (s.tap x).Inv := by
  unfold Dev.tap
  split
  · exact i
  · obtain ⟨⟨h1, h2, h3, h4, h5, h6, h7, h8, h9, h10, h11, h12, h13, h14, h15, h16⟩, ⟨h17, h18, h19⟩⟩ := i
    exact ⟨⟨h1, h2, h3, h4, h5, h6, h7, h8, h9, h10, h11, h12, h13, h14, h15, h16⟩, ⟨h17, h18, h19⟩⟩

@[simp] theorem Dev.tap_sys (s : Dev) (x : Jtag) : (s.tap x).sys = s.sys := by
  unfold Dev.tap; split <;> rfl

@[simp] theorem Dev.tap_clk (s : Dev) (x : Jtag) : (s.tap x).clk = s.clk := by
  unfold Dev.tap; split <;> rfl

/-- A TAP instruction moves the TAP alone. -/
theorem Dev.tap_kept {c : Instr} (hc : c ∈ tapMovers) {s : Dev} (i : s.Inv) (x : Jtag) : Kept c s (s.tap x) where
  inv := Dev.tap_inv i x
  safe m := .inl (by simpa using m)
  reset m := .inl (by simpa using m)
  straps := .inl (by simp)
  frame := .inl (by simp)
  tap := .inr (.inr hc)

theorem Dev.cold_inv {s : Dev} (i : s.Inv) (u : Bool) : (s.cold u).Inv := by
  obtain ⟨⟨h1, h2, h3, h4, h5, h6, h7, h8, h9, h10, h11, h12, h13, h14, h15, h16⟩, ⟨h17, h18, h19⟩⟩ :=
    Dev.enterReset_inv 0 i.canon
  exact ⟨⟨h1, h2, h3, h4, h5, h6, h7, h8, h9, h10, h11, h12, h13, h14, h15, h16⟩, ⟨h17, h18, h19⟩⟩

/-- The supply, as it comes or goes, leads to RESET and moves the TAP. -/
theorem Dev.cold_kept {c : Instr} (hc : c ∈ tapMovers) {s : Dev} (i : s.Inv) (u : Bool) : Kept c s (s.cold u) where
  inv := Dev.cold_inv i u
  safe _ := .inr rfl
  reset _ := .inl rfl
  straps := .inr (.inl rfl)
  frame := .inr (.inl rfl)
  tap := .inr (.inr hc)

/-- The device as BOOT_START leaves RESET, before it asks for domains (R377). -/
def Dev.leaveReset (s : Dev) (devid : BitVec 5) (master recov : Bool) : Dev :=
  { s with
    sys := { s.sys with mode := .boot, resetLow := false, devid := devid, master := master, recov := recov, boot := .selfTest }
    jtag := if s.jtag.drives then .bypass else s.jtag }

theorem Dev.bootStart_of_elsewhere {s : Dev} (h : s.sys.mode ≠ .reset ∨ s.sys.unpowered = true) (d : BitVec 5) (m r : Bool) :
    s.bootStart d m r = s := by
  unfold Dev.bootStart
  rw [if_pos (by simpa using h)]

theorem Dev.bootStart_of_reset {s : Dev} (hm : s.sys.mode = .reset) (hp : s.sys.unpowered = false) (d : BitVec 5) (m r : Bool) :
    s.bootStart d m r = forN 32 (fun n s => s.domWait (144 + n)) (s.leaveReset d m r) := by
  unfold Dev.bootStart
  rw [if_neg (by simp [hm, hp])]
  rfl

/-- No request stands in RESET, so none stands as BOOT begins. -/
theorem Dev.leaveReset_inv {s : Dev} (i : s.Inv) (hm : s.sys.mode = .reset) (d : BitVec 5) (m r : Bool) :
    (s.leaveReset d m r).Inv := by
  obtain ⟨⟨h1, h2, h3, h4, h5, h6, h7, h8, h9, h10, h11, h12, h13, h14, h15, h16⟩, ⟨quiet, path, _⟩⟩ := i
  have hreq : (s.leaveReset d m r).sys.req = none := quiet (.inl hm)
  exact ⟨⟨h1, h2, h3, h4, h5, h6, h7, h8, h9, h10, h11, h12, h13, h14, h15, h16⟩,
    ⟨fun _ => hreq, path, fun h => by simp [Dev.leaveReset] at h⟩⟩

theorem Dev.bootStart_kept {s : Dev} (i : s.Inv) (d : BitVec 5) (m r : Bool) :
    Kept (.bootStart d m r) s (s.bootStart d m r) := by
  have hc : ∃ d' m' r', Instr.bootStart d m r = .bootStart d' m' r' := ⟨d, m, r, rfl⟩
  by_cases h : s.sys.mode ≠ .reset ∨ s.sys.unpowered = true
  · rw [Dev.bootStart_of_elsewhere h]
    exact (Held.refl i).kept
  · obtain ⟨hm, hp⟩ : s.sys.mode = .reset ∧ s.sys.unpowered = false := by simpa using h
    rw [Dev.bootStart_of_reset hm hp]
    have hev : Evo false (s.leaveReset d m r) (forN 32 (fun n s => s.domWait (144 + n)) (s.leaveReset d m r)) :=
      Evo.forN (Evo.refl _) (fun _ _ e => Dev.domWait_evo e)
    have hheld : Held false (s.leaveReset d m r) _ := hev.held (Dev.leaveReset_inv i hm d m r)
    exact {
      inv := hheld.inv
      safe := fun hs => absurd (hm.symm.trans hs) (by decide)
      reset := fun _ => .inr hc
      straps := .inr (.inr hc)
      frame := .inl hev.frame
      tap := .inr (.inl hc) }

/-- What every command keeps: one law of Laws/Ex for each, and the commands that none of those covers. -/
theorem exec_kept {c : Instr} {s t : State} (i : s.toDev.Inv) (h : exec c s = .next t) : Kept c s.toDev t.toDev := by
  cases c with
  | powerOn => cases h; exact Dev.cold_kept (by simp [tapMovers]) i false
  | powerLoss => cases h; exact Dev.cold_kept (by simp [tapMovers]) i true
  | bootStart d m r => cases h; exact Dev.bootStart_kept i d m r
  | frameTick b => cases h; exact (Dev.frameTick_held i).kept_of_tick
  | bypass => cases h; exact Dev.tap_kept (by simp [tapMovers]) i .bypass
  | idcode => cases h; exact Dev.tap_kept (by simp [tapMovers]) i .idcode
  | samplePreload => cases h; exact Dev.tap_kept (by simp [tapMovers]) i .samplePreload
  | extest => cases h; exact Dev.tap_kept (by simp [tapMovers]) i .extest
  | clamp => cases h; exact Dev.tap_kept (by simp [tapMovers]) i .clamp
  | highz => cases h; exact Dev.tap_kept (by simp [tapMovers]) i .highz
  | extestPulse => cases h; exact Dev.tap_kept (by simp [tapMovers]) i .extestPulse
  | extestTrain => cases h; exact Dev.tap_kept (by simp [tapMovers]) i .extestTrain
  | resetNLow => exact (execResetNLow_held h i).kept
  | supplyReset => exact (execSupplyReset_held h i).kept
  | selfTestEnd => exact (execSelfTestEnd_held h i).kept
  | linkUp => exact (execLinkUp_held h i).kept
  | sclkLock => exact (execSclkLock_held h i).kept
  | railWarn => exact (execRailWarn_held h i).kept
  | vchFault => exact (execVchFault_held h i).kept
  | vdpsLow => exact (execVdpsLow_held h i).kept
  | refLoss => exact (execRefLoss_held h i).kept
  | refPresent => exact (execRefPresent_held h i).kept
  | fsyncEdge => exact (execFsyncEdge_held h i).kept
  | fsyncMiss => exact (execFsyncMiss_held h i).kept
  | epochMark => exact (execEpochMark_held h i).kept
  | rendezvousTimeout => exact (execRendezvousTimeout_held h i).kept
  | joinLapse => exact (execJoinLapse_held h i).kept
  | modeSwitch => exact (execModeSwitch_held h i).kept
  | quadWarmDone => exact (execQuadWarmDone_held h i).kept
  | substPathClose => exact (execSubstPathClose_held h i).kept
  | substInService => exact (execSubstInService_held h i).kept
  | syncReset => exact (execSyncReset_held h i).kept
  | dpsMonitor => exact (execDpsMonitor_held h i).kept
  | throttleWait => exact (execThrottleWait_held h i).kept
  | yieldRelease => exact (execYieldRelease_held h i).kept
  | overrun => exact (execOverrun_held h i).kept
  | wdog => exact (execWdog_held h i).kept
  | waiteTimeout => exact (execWaiteTimeout_held h i).kept
  | br => exact (execBr_held h i).kept
  | brc => exact (execBrc_held h i).kept
  | call => exact (execCall_held h i).kept
  | ret => exact (execRet_held h i).kept
  | loop => exact (execLoop_held h i).kept
  | halt => exact (execHalt_held h i).kept
  | yield => exact (execYield_held h i).kept
  | tpoint => exact (execTpoint_held h i).kept
  | movi => exact (execMovi_held h i).kept
  | add => exact (execAdd_held h i).kept
  | sub => exact (execSub_held h i).kept
  | and => exact (execAnd_held h i).kept
  | or => exact (execOr_held h i).kept
  | xor => exact (execXor_held h i).kept
  | shl => exact (execShl_held h i).kept
  | shr => exact (execShr_held h i).kept
  | cmp => exact (execCmp_held h i).kept
  | fcmp => exact (execFcmp_held h i).kept
  | play => exact (execPlay_held h i).kept
  | join => exact (execJoin_held h i).kept
  | detach => exact (execDetach_held h i).kept
  | segjmp => exact (execSegjmp_held h i).kept
  | dwell => exact (execDwell_held h i).kept
  | level => exact (execLevel_held h i).kept
  | tset => exact (execTset_held h i).kept
  | force => exact (execForce_held h i).kept
  | gang => exact (execGang_held h i).kept
  | meas => exact (execMeas_held h i).kept
  | measConversionEnd => exact (execMeasConversionEnd_held h i).kept
  | getm => exact (execGetm_held h i).kept
  | acqarm => exact (execAcqarm_held h i).kept
  | tdcopen => exact (execTdcopen_held h i).kept
  | winset => exact (execWinset_held h i).kept
  | step => exact (execStep_held h i).kept
  | limit => exact (execLimit_held h i).kept
  | bin => exact (execBin_held h i).kept
  | logf => exact (execLogf_held h i).kept
  | voidh => exact (execVoidh_held h i).kept
  | emit => exact (execEmit_held h i).kept
  | waite => exact (execWaite_held h i).kept
  | undefinedOpcode => exact (execUndefinedOpcode_held h i).kept
  | vectorStart => exact (execVectorStart_held h i).kept
  | unitEnd => exact (execUnitEnd_held h i).kept
  | compareStrobe => exact (execCompareStrobe_held h i).kept
  | failQueueDrain => exact (execFailQueueDrain_held h i).kept
  | scrubStep => exact (execScrubStep_held h i).kept
  | bankCopyDone => exact (execBankCopyDone_held h i).kept
  | streamRecord => exact (execStreamRecord_held h i).kept
  | dpsTrip => exact (execDpsTrip_held h i).kept
  | adcSample => exact (execAdcSample_held h i).kept
  | acqDone => exact (execAcqDone_held h i).kept
  | dsyncPinEdge => exact (execDsyncPinEdge_held h i).kept
  | tdcEdge => exact (execTdcEdge_held h i).kept
  | tdcWindowClose => exact (execTdcWindowClose_held h i).kept
  | tdcNosig => exact (execTdcNosig_held h i).kept
  | tdcMaxt => exact (execTdcMaxt_held h i).kept
  | weirChange => exact (execWeirChange_held h i).kept
  | weirSample => exact (execWeirSample_held h i).kept
  | weirSettled => exact (execWeirSettled_held h i).kept
  | wake => exact (execWake_held h i).kept
  | comparatorCrossing => exact (execComparatorCrossing_held h i).kept
  | sluiceDelivery => exact (execSluiceDelivery_held h i).kept
  | tbusEdge => exact (execTbusEdge_held h i).kept
  | tbusPulseEnd => exact (execTbusPulseEnd_held h i).kept
  | tbusStuck => exact (execTbusStuck_held h i).kept
  | sensorReading => exact (execSensorReading_held h i).kept
  | dpsPowerSum => exact (execDpsPowerSum_held h i).kept
  | domainGood => exact (execDomainGood_held h i).kept
  | domainTimeout => exact (execDomainTimeout_held h i).kept
  | chHw => exact (execChHw_held h i).kept
  | quadHw => exact (execQuadHw_held h i).kept
  | engHw => exact (execEngHw_held h i).kept
  | sclkUnlock => exact (execSclkUnlock_held h i).kept
  | fabricErr => exact (execFabricErr_held h i).kept
  | aonFail => exact (execAonFail_held h i).kept
  | fwAssert => exact (execFwAssert_held h i).kept
  | slcPar => exact (execSlcPar_held h i).kept
  | aliveInterval => exact (execAliveInterval_held h i).kept
  | nvWriteDone => exact (execNvWriteDone_held h i).kept
  | nvSetSave => exact (execNvSetSave_held h i).kept
  | memRead => exact (execMemRead_held h i).kept
  | memWrite => exact (execMemWrite_held h i).kept
  | registerWrite => exact (execRegisterWrite_held h i).kept
  | frameLoRead => exact (execFrameLoRead_held h i).kept
  | sclkCfgWrite => exact (execSclkCfgWrite_held h i).kept
  | flenWrite => exact (execFlenWrite_held h i).kept
  | syncCfgWrite => exact (execSyncCfgWrite_held h i).kept
  | modeRequest => exact (execModeRequest_held h i).kept
  | headgateWrite => exact (execHeadgateWrite_held h i).kept
  | engineRegisterWrite => exact (execEngineRegisterWrite_held h i).kept
  | pramWordWrite => exact (execPramWordWrite_held h i).kept
  | matchWrite => exact (execMatchWrite_held h i).kept
  | wcsDataWrite => exact (execWcsDataWrite_held h i).kept
  | playerCfgWrite => exact (execPlayerCfgWrite_held h i).kept
  | ringReset => exact (execRingReset_held h i).kept
  | ringArm => exact (execRingArm_held h i).kept
  | ringLwmWrite => exact (execRingLwmWrite_held h i).kept
  | quadRequest => exact (execQuadRequest_held h i).kept
  | substitutionRequest => exact (execSubstitutionRequest_held h i).kept
  | restoreRequest => exact (execRestoreRequest_held h i).kept
  | firSwap => exact (execFirSwap_held h i).kept
  | firCoefWrite => exact (execFirCoefWrite_held h i).kept
  | acqArm => exact (execAcqArm_held h i).kept
  | acqAbort => exact (execAcqAbort_held h i).kept
  | acqForce => exact (execAcqForce_held h i).kept
  | tdcOpen => exact (execTdcOpen_held h i).kept
  | tdcClose => exact (execTdcClose_held h i).kept
  | tdcRdWrite => exact (execTdcRdWrite_held h i).kept
  | limitEntryWrite => exact (execLimitEntryWrite_held h i).kept
  | ledgerAck => exact (execLedgerAck_held h i).kept
  | ledgerClear => exact (execLedgerClear_held h i).kept
  | faultAck => exact (execFaultAck_held h i).kept
  | faultForce => exact (execFaultForce_held h i).kept
  | powerRequest => exact (execPowerRequest_held h i).kept
  | routeWrite => exact (execRouteWrite_held h i).kept
  | idGet => exact (execIdGet_held h i).kept
  | modeSet => exact (execModeSet_held h i).kept
  | enterRecovery => exact (execEnterRecovery_held h i).kept
  | loadCrc => exact (execLoadCrc_held h i).kept
  | loadCrcDone => exact (execLoadCrcDone_held h i).kept
  | cisFill => exact (execCisFill_held h i).kept
  | cisFillDone => exact (execCisFillDone_held h i).kept
  | mapClear => exact (execMapClear_held h i).kept
  | runStart => exact (execRunStart_held h i).kept
  | runStop => exact (execRunStop_held h i).kept
  | runPause => exact (execRunPause_held h i).kept
  | runResume => exact (execRunResume_held h i).kept
  | fltRead => exact (execFltRead_held h i).kept
  | fltAck => exact (execFltAck_held h i).kept
  | repairRead => exact (execRepairRead_held h i).kept
  | repairRetire => exact (execRepairRetire_held h i).kept
  | repairClear => exact (execRepairClear_held h i).kept
  | calQuad => exact (execCalQuad_held h i).kept
  | calQuadDone => exact (execCalQuadDone_held h i).kept
  | calFull => exact (execCalFull_held h i).kept
  | calFullDone => exact (execCalFullDone_held h i).kept
  | nvInfo => exact (execNvInfo_held h i).kept
  | patchSave => exact (execPatchSave_held h i).kept
  | patchErase => exact (execPatchErase_held h i).kept
  | pwrSet => exact (execPwrSet_held h i).kept
  | pwrGroups => exact (execPwrGroups_held h i).kept
  | quadState => exact (execQuadState_held h i).kept
  | thmSet => exact (execThmSet_held h i).kept
  | thmSave => exact (execThmSave_held h i).kept
  | epoch => exact (execEpoch_held h i).kept
  | dsync => exact (execDsync_held h i).kept
  | fullReset => exact (execFullReset_held h i).kept
  | unknownCommand => exact (execUnknownCommand_held h i).kept
  | ctrlFlit => exact (execCtrlFlit_held h i).kept
  | replayTimeout => exact (execReplayTimeout_held h i).kept
  | codewordUncorrectable => exact (execCodewordUncorrectable_held h i).kept
  | laneTrainDone => exact (execLaneTrainDone_held h i).kept
  | laneTrainTimeout => exact (execLaneTrainTimeout_held h i).kept
  | laneLockLoss => exact (execLaneLockLoss_held h i).kept
  | ntfySend => exact (execNtfySend_held h i).kept
  | mspiCmd => exact (execMspiCmd_held h i).kept
  | mspiCpl => exact (execMspiCpl_held h i).kept
  | mspiRd => exact (execMspiRd_held h i).kept
  | mspiWr => exact (execMspiWr_held h i).kept
  | mspiStat => exact (execMspiStat_held h i).kept
  | mspiBadOpcode => exact (execMspiBadOpcode_held h i).kept
  | railInRange => exact (execRailInRange_held h i).kept
  | domainFail => exact (execDomainFail_held h i).kept
  | currentLimit => exact (execCurrentLimit_held h i).kept
  | pmuClamp => exact (execPmuClamp_held h i).kept
  | tbusRelease => exact (execTbusRelease_held h i).kept
  | flitCrcFail => exact (execFlitCrcFail_held h i).kept
  | proto => exact (execProto_held h i).kept

/-- Settles O60, by `exec_kept`. -/
theorem modesStrapsAndFrameMoveOnlyAsStated : Obligations.ModesStrapsAndFrameMoveOnlyAsStated := by
  unfold Obligations.ModesStrapsAndFrameMoveOnlyAsStated
  intro c s t i h
  obtain ⟨-, safe, reset, straps, frame, tap⟩ := exec_kept i h
  exact ⟨safe, reset, straps, frame, tap⟩

/-- Settles O5: an empty queue idles, and each command keeps the invariant (`exec_kept`). -/
theorem everyStepKeepsInvariant : Obligations.EveryStepKeepsInvariant := by
  unfold Obligations.EveryStepKeepsInvariant
  intro s t i h
  unfold step at h
  split at h
  · cases h; exact i
  next c rest _ => exact (exec_kept (s := { s with pending := rest }) i h).inv

end Sys2Proof.Machine
end

section
/-! PROOFS. The arithmetic of the engines (R79-R81, R85): O6, O7, O8, O9. -/

namespace Sys2Proof.Machine

/-! ### Meanings that run to a device -/

/-- A meaning reaches the device its function gives. -/
theorem State.run_reaches {s : State} {f : Dev → Dev} {P : Dev → Prop} (hP : P (f s.toDev)) :
    ∃ t : Dev, s.run f = .next { s with toDev := t } ∧ P t := ⟨_, rfl, hP⟩

/-- A meaning whose function leaves the device alone does nothing. -/
theorem State.run_idle {s : State} {f : Dev → Dev} (h : f s.toDev = s.toDev) : s.run f = .next s := by
  rw [State.run, h]

/-- An instruction that runs reaches what its body gives (R79, R118, R119). -/
theorem instrOp_reaches {s : State} {e : Nat} {f : Fetch} {o : Nat} (h : s.Runs e f o) {body : Dev → Ins → Dev}
    {P : Dev → Prop} (hP : P (body s.toDev (s.insAt e))) :
    ∃ t : Dev, s.run (fun s => s.instrOp e f o body) = .next { s with toDev := t } ∧ P t :=
  State.run_reaches (by rwa [Dev.instrOp_run h])

theorem instrSite_reaches {s : State} {e : Nat} {f : Fetch} {o i : Nat} (h : s.Runs e f o) (hi : s.siteOf e = some i)
    {body : Dev → Ins → Nat → Dev} {P : Dev → Prop} (hP : P (body s.toDev (s.insAt e) i)) :
    ∃ t : Dev, s.run (fun s => s.instrSite e f o body) = .next { s with toDev := t } ∧ P t :=
  State.run_reaches (by rwa [Dev.instrSite_run h hi])

theorem instrCut_reaches {s : State} {e : Nat} {f : Fetch} {o i : Nat} (h : s.Runs e f o) (hi : s.siteOf e = some i)
    {body : Option Nat → Dev → Ins → Nat → Dev} {P : Dev → Prop} (hP : P (body none s.toDev (s.insAt e) i)) :
    ∃ t : Dev, s.run (fun s => s.instrCut e f o body) = .next { s with toDev := t } ∧ P t :=
  State.run_reaches (by rwa [Dev.instrCut_run h hi])

/-! ### Flags (R85) -/

theorem fbit_or (z n c v : Bool) : fbit 0 z ||| fbit 1 n ||| fbit 2 c ||| fbit 3 v = nzcv z n c v := by
  cases z <;> cases n <;> cases c <;> cases v <;> decide

theorem zn_eq (v : W) : zn v = fbit 0 (decide (v = 0)) ||| fbit 1 v.msb := by
  rw [zn, BitVec.msb_eq_getLsbD_last]

theorem nzcv_and_mask (z n c v : Bool) : nzcv z n c v &&& 0xF = nzcv z n c v := by
  cases z <;> cases n <;> cases c <;> cases v <;> decide

/-- Where two numbers of one sign add up to the other sign, the sum has overflowed (R85). -/
theorem add_overflow_iff (a b : W) :
    (a.msb == b.msb && (a + b).msb != a.msb) = decide ((a + b).toInt ≠ a.toInt + b.toInt) := by
  rw [Bool.eq_iff_iff]
  simp only [BitVec.msb_eq_decide, BitVec.toInt_eq_toNat_cond, BitVec.toNat_add, Bool.and_eq_true, beq_iff_eq,
    bne_iff_ne, decide_eq_decide, ne_eq, decide_eq_true_eq]
  have ha := a.isLt
  have hb := b.isLt
  omega

theorem sub_overflow_iff (a b : W) :
    (a.msb != b.msb && (a - b).msb != a.msb) = decide ((a - b).toInt ≠ a.toInt - b.toInt) := by
  rw [Bool.eq_iff_iff]
  simp only [BitVec.msb_eq_decide, BitVec.toInt_eq_toNat_cond, BitVec.toNat_sub, Bool.and_eq_true, 
    bne_iff_ne, decide_eq_decide, ne_eq, decide_eq_true_eq]
  have ha := a.isLt
  have hb := b.isLt
  omega

theorem aluAdd_flags (a b : W) : (aluAdd a b).flags =
    ⟨0xF, nzcv (a + b = 0) ((a + b).msb) (2 ^ 32 ≤ a.toNat + b.toNat) ((a + b).toInt ≠ a.toInt + b.toInt)⟩ := by
  rw [← add_overflow_iff, ← fbit_or, ← zn_eq]
  simp only [aluAdd, BitVec.msb_eq_getLsbD_last, Nat.add_one_sub_one]

theorem aluSub_flags (a b : W) : (aluSub a b).flags =
    ⟨0xF, nzcv (a - b = 0) ((a - b).msb) (b.toNat ≤ a.toNat) ((a - b).toInt ≠ a.toInt - b.toInt)⟩ := by
  rw [← sub_overflow_iff, ← fbit_or, ← zn_eq]
  simp only [aluSub, BitVec.msb_eq_getLsbD_last, Nat.add_one_sub_one]

theorem aluLogic_flags (v : W) : (aluLogic v).flags = ⟨0xB, nzcv (v = 0) v.msb false false⟩ := by
  rw [← fbit_or, ← zn_eq]
  simp [aluLogic, fbit]

/-! ### An operation on A and S -/

/-- The operands of an instruction that may write A, as R81 allows them. -/
theorem aluBad_of_ok {x : Ins} (hm : x.mbz = false) {wr : Bool} (ha : x.a < if wr then 37 else 46)
    (hb : x.flag 0 = true ∨ x.b < 46) : aluBad x wr = false := by
  have h46 : x.a < 46 := by split at ha <;> omega
  have hwr : (wr && !regRw x.a) = false := by cases wr <;> simp_all [regRw]
  have hsecond : (!x.flag 0 && !regOk x.b) = false := by rcases hb with hb | hb <;> simp [hb, regOk]
  have ha' : regOk x.a = true := by simp [regOk, h46]
  simp only [aluBad, hm, hwr, hsecond, ha', Bool.not_true, Bool.or_self]

theorem doAlu_computes {op : W → W → AluOut} {s : Dev} {e : Nat} {x : Ins} {v m b : W} (he : e < 272)
    (hm : x.mbz = false) (ha : x.a < 37) (hb : x.flag 0 = true ∨ x.b < 46) (hp : s.pc e < 32767)
    (hv : (op (s.reg e x.a) (s.second e x)).value = v) (hf : (op (s.reg e x.a) (s.second e x)).flags = ⟨m, b⟩)
    (hmask : b &&& m = b) : s.Computes (doAlu op e s x) e x.a v m b := by
  have hbad : aluBad x true = false := aluBad_of_ok hm (by simpa using ha) hb
  have heq : doAlu op e s x = ((s.setReg e x.a v).putFlags e ⟨m, b⟩).retire e := by
    rw [doAlu, hv, hf, Dev.check_ok (by simp [hbad])]
  rw [heq]
  simpa [hmask] using Dev.computes s v ⟨m, b⟩ he ha hp

theorem doTest_tests {op : W → W → AluOut} {s : Dev} {e : Nat} {x : Ins} {m b : W}
    (hm : x.mbz = false) (ha : x.a < 46) (hb : x.flag 0 = true ∨ x.b < 46) (hp : s.pc e < 32767)
    (hf : (op (s.reg e x.a) (s.second e x)).flags = ⟨m, b⟩) (hmask : b &&& m = b) :
    s.Tests (doTest op e s x) e m b := by
  have hbad : aluBad x false = false := aluBad_of_ok hm (by simpa using ha) hb
  have heq : doTest op e s x = (s.putFlags e ⟨m, b⟩).retire e := by
    rw [doTest, hf, Dev.check_ok (by simp [hbad])]
  rw [heq]
  simpa [hmask] using Dev.tests s ⟨m, b⟩ hp

/-! ### O6, O7 -/

/-- Settles O6, by `doAlu_computes` and the flags of ADD and SUB. -/
theorem addAndSubSetResultAndFlags : Obligations.AddAndSubSetResultAndFlags := by
  unfold Obligations.AddAndSubSetResultAndFlags
  rintro e f s x a b rfl hA hB hp rfl rfl
  constructor <;> intro h <;> refine instrOp_reaches h.toRuns ?_
  · exact doAlu_computes e.isLt h.mbz hA hB hp rfl (aluAdd_flags _ _) (nzcv_and_mask _ _ _ _)
  · exact doAlu_computes e.isLt h.mbz hA hB hp rfl (aluSub_flags _ _) (nzcv_and_mask _ _ _ _)

theorem nzcv_and_logicMask (z n : Bool) : nzcv z n false false &&& 0xB = nzcv z n false false := by
  cases z <;> cases n <;> decide

/-- An operation whose flags are those of a logical result. -/
theorem doAlu_logic {op : W → W → AluOut} {s : Dev} {e : Nat} {x : Ins} {v : W} (he : e < 272)
    (hm : x.mbz = false) (ha : x.a < 37) (hb : x.flag 0 = true ∨ x.b < 46) (hp : s.pc e < 32767)
    (hop : op (s.reg e x.a) (s.second e x) = aluLogic v) :
    s.Computes (doAlu op e s x) e x.a v 0xB (nzcv (v = 0) v.msb false false) :=
  doAlu_computes he hm ha hb hp (by rw [hop]; rfl) (by rw [hop]; exact aluLogic_flags v) (nzcv_and_logicMask _ _)

theorem toNat_shl (a : W) (k : Nat) : (a <<< k).toNat = a.toNat * 2 ^ k % 2 ^ 32 := by
  rw [BitVec.toNat_shiftLeft, Nat.shiftLeft_eq]

theorem toNat_shr (a : W) (k : Nat) : (a >>> k).toNat = a.toNat / 2 ^ k := by
  rw [BitVec.toNat_ushiftRight, Nat.shiftRight_eq_div_pow]

theorem toInt_sar (a : W) (k : Nat) : (a.sshiftRight k).toInt = a.toInt / 2 ^ k := by
  rw [BitVec.toInt_sshiftRight, Int.shiftRight_eq_div_pow]; rfl

/-- Settles O7, by `doAlu_logic`. -/
theorem logicalOpsAndShiftsSetResultAndFlags : Obligations.LogicalOpsAndShiftsSetResultAndFlags := by
  unfold Obligations.LogicalOpsAndShiftsSetResultAndFlags
  rintro e f s x a b rfl hA hB hp rfl rfl
  refine ⟨?and, ?or, ?xor, ?shl, ?shr⟩ <;> intro h <;> refine instrOp_reaches h.toRuns ?_
  case and => exact doAlu_logic e.isLt h.mbz hA hB hp rfl
  case or => exact doAlu_logic e.isLt h.mbz hA hB hp rfl
  case xor => exact doAlu_logic e.isLt h.mbz hA hB hp rfl
  case shl => exact ⟨_, toNat_shl _ _, doAlu_logic e.isLt h.mbz hA hB hp rfl⟩
  case shr =>
    refine ⟨_, ?_, doAlu_logic e.isLt h.mbz hA hB hp rfl⟩
    cases (s.insAt e).flag 1 with
    | true => exact toInt_sar _ _
    | false => exact toNat_shr _ _

/-! ### O8 -/

theorem f32IsNaN_iff (a : W) : f32IsNaN a = true ↔ f32Key a = none := by
  rw [f32IsNaN, Option.isNone_iff_eq_none]

theorem aluFcmp_flags_of_nan {a b : W} (h : f32IsNaN a = true ∨ f32IsNaN b = true) : (aluFcmp a b).flags = ⟨0x2B, 0x20⟩ := by
  rw [f32IsNaN_iff, f32IsNaN_iff] at h
  unfold aluFcmp
  cases ha : f32Key a <;> cases hb : f32Key b <;> simp_all [fbit, wn]

theorem aluFcmp_flags {a b : W} (ha : f32IsNaN a = false) (hb : f32IsNaN b = false) :
    (aluFcmp a b).flags = ⟨0x2B, nzcv (f32Le a b && f32Le b a) (f32Lt a b) false false⟩ := by
  obtain ⟨x, hx⟩ : ∃ x, f32Key a = some x := Option.isSome_iff_exists.mp (by simpa [f32IsNaN] using ha)
  obtain ⟨y, hy⟩ : ∃ y, f32Key b = some y := Option.isSome_iff_exists.mp (by simpa [f32IsNaN] using hb)
  have heq : (f32Le a b && f32Le b a) = decide (x = y) := by
    rw [Bool.eq_iff_iff]
    simp only [f32Le, hx, hy, Bool.and_eq_true, decide_eq_true_eq]
    omega
  rw [heq, ← fbit_or]
  simp [aluFcmp, f32Lt, hx, hy, fbit]

theorem nzcv_and_fcmpMask (z n : Bool) : nzcv z n false false &&& 0x2B = nzcv z n false false := by
  cases z <;> cases n <;> decide

/-- Settles O8, by `doTest_tests`. -/
theorem comparesSetOnlyFlags : Obligations.ComparesSetOnlyFlags := by
  unfold Obligations.ComparesSetOnlyFlags
  rintro e f s x a b rfl hA hB hp rfl rfl
  constructor <;> intro h <;> refine instrOp_reaches h.toRuns ?_
  · exact doTest_tests h.mbz hA hB hp (aluSub_flags _ _) (nzcv_and_mask _ _ _ _)
  · refine ⟨fun hnan => ?_, fun ha hb => ?_⟩
    · exact doTest_tests h.mbz hA hB hp (aluFcmp_flags_of_nan hnan) (by decide)
    · exact doTest_tests h.mbz hA hB hp (aluFcmp_flags ha hb) (nzcv_and_fcmpMask _ _)

/-! ### O9 -/

/-- A register that can be written shows its card. -/
theorem Dev.reg_congr {s t : Dev} {e d : Nat} (hd : d < 37) (h : t.rd (regCard e d) = s.rd (regCard e d)) :
    t.reg e d = s.reg e d := by
  unfold regCard at h
  unfold Dev.reg
  by_cases h1 : d < 32
  · simpa [h1] using h
  · by_cases h2 : d < 36
    · simpa [h1, h2] using h
    · have h36 : d = 36 := by omega
      subst h36
      simp only [h1, h2, if_false, if_true, Dev.fld] at h ⊢
      rw [h]

theorem noFlags (w : W) : (w &&& ~~~0) ||| 0 = w := by
  rw [show ~~~(0 : W) = BitVec.allOnes 32 by decide, BitVec.and_allOnes]
  exact BitVec.or_zero

/-- A register written and the instruction retired, with no flags (R85 MOVI). -/
theorem Dev.computes_noFlags (s : Dev) {e d : Nat} (v : W) (he : e < 272) (hd : d < 37) (hp : s.pc e < 32767) :
    s.Computes ((s.setReg e d v).retire e) e d v 0 0 := by
  have hcards := Dev.setReg_cards s v he hd
  obtain ⟨hrest, hengs⟩ := Dev.setReg_frame s e d v
  have heng : ∀ k, (s.setReg e d v).eng k = s.eng k := fun k => by unfold Dev.eng; rw [hengs]
  have hpc : (s.setReg e d v).pc e = s.pc e := by
    unfold Dev.pc Dev.fld
    rw [hcards _ (Dev.not_mem_regCards he hd (.inl rfl))]
  rw [Dev.retire_eq_jump _ (by rwa [hpc]), hpc]
  obtain ⟨jpc, jeng, jothers⟩ := Dev.jumpTo_jumps (s.setReg e d v) (e := e) (n := s.pc e + 1) (by omega)
  have jcards := Dev.jumpTo_cards (s.setReg e d v) e (s.pc e + 1)
  obtain ⟨o, -, h4, -, hcard⟩ := regCard_spec hd
  constructor
  · rw [← Dev.reg_setReg s v he hd]
    exact Dev.reg_congr hd (jcards _ (by rw [hcard, List.mem_singleton]; exact aEng_ne h4))
  · rw [jcards _ (by simpa using aEng_ne (by omega)), hcards _ (Dev.not_mem_regCards he hd (.inr rfl)), noFlags]
  · exact ⟨jpc, by rw [jeng, heng], fun k hk => by rw [jothers k hk, heng]⟩
  · intro a ha
    simp only [List.mem_cons, not_or] at ha
    obtain ⟨hreg, hpc4, -, hmirror⟩ := ha
    rw [jcards a (by simpa using hpc4)]
    exact hcards a (by simp only [List.mem_cons, not_or]; exact ⟨hreg, hmirror⟩)
  · exact hrest.jumpTo e _

theorem Dev.scrByte_setScrByte (s : Dev) (e a k n : Nat) (b : Byte) :
    (s.setScrByte e a b).scrByte k n = if 16384 * k + n = 16384 * e + a then b else s.scrByte k n := by
  unfold Dev.scrByte Dev.setScrByte
  split
  · next h => rw [h]; exact Tab.get_set_self _ _ _ _
  · next h => exact Tab.get_set_of_ne _ h _ _

@[simp] theorem Dev.setScrWord_eng (s : Dev) (e a : Nat) (v : W) (k : Nat) : (s.setScrWord e a v).eng k = s.eng k := rfl
@[simp] theorem Dev.setScrWord_rd (s : Dev) (e a : Nat) (v : W) (k : Nat) : (s.setScrWord e a v).rd k = s.rd k := rfl
@[simp] theorem Dev.setScrWord_pc (s : Dev) (e a : Nat) (v : W) (k : Nat) : (s.setScrWord e a v).pc k = s.pc k := rfl

@[simp] theorem Dev.jumpTo_scrByte (s : Dev) (e n k a : Nat) : (s.jumpTo e n).scrByte k a = s.scrByte k a := rfl
@[simp] theorem Dev.jumpTo_scrWord (s : Dev) (e n k a : Nat) : (s.jumpTo e n).scrWord k a = s.scrWord k a := rfl

/-- Nothing but register cards, engine states and scratch differs. -/
def Dev.ScrFrame (s t : Dev) : Prop := { t with regs := s.regs, engs := s.engs, scratch := s.scratch } = s

theorem Dev.ScrFrame.refl (s : Dev) : s.ScrFrame s := rfl
theorem Dev.ScrFrame.setScrByte {s t : Dev} (h : s.ScrFrame t) (e a : Nat) (b : Byte) : s.ScrFrame (t.setScrByte e a b) := h
theorem Dev.ScrFrame.jumpTo {s t : Dev} (h : s.ScrFrame t) (e n : Nat) : s.ScrFrame (t.jumpTo e n) := h
theorem Dev.ScrFrame.setScrWord {s t : Dev} (h : s.ScrFrame t) (e a : Nat) (v : W) : s.ScrFrame (t.setScrWord e a v) :=
  (((h.setScrByte _ _ _).setScrByte _ _ _).setScrByte _ _ _).setScrByte _ _ _

/-- The word a store writes reads back (R8). -/
theorem Dev.scrWord_setScrWord (s : Dev) (e a : Nat) (v : W) : (s.setScrWord e a v).scrWord e a = v := by
  unfold Dev.scrWord Dev.setScrWord wordOf
  simp [Dev.scrByte_setScrByte, append_bytes]

/-- A store writes the four bytes of its word. -/
theorem Dev.scrByte_setScrWord_of_ne (s : Dev) {e a k n : Nat} (v : W) (hn : n < 16384)
    (h : k ≠ e ∨ n / 4 ≠ a % 16384 / 4) : (s.setScrWord e a v).scrByte k n = s.scrByte k n := by
  unfold Dev.setScrWord
  simp only [Dev.scrByte_setScrByte]
  rw [if_neg (by omega), if_neg (by omega), if_neg (by omega), if_neg (by omega)]

/-- A store to scratch, and the instruction retired (R85 MOVI): the four bytes of its word. -/
theorem Dev.storesScratch (s : Dev) {e : Nat} (a : Nat) (v : W) (hp : s.pc e < 32767) :
    let t := (s.setScrWord e a v).retire e
    t.scrWord e a = v ∧
      (∀ k n, (k ≠ e ∨ n / 4 ≠ a % 16384 / 4) → n < 16384 → t.scrByte k n = s.scrByte k n) ∧
      s.Retires t e ∧ s.Cards t [aEng e 4] ∧ s.ScrFrame t := by
  intro t
  have ht : t = (s.setScrWord e a v).jumpTo e (s.pc e + 1) := Dev.retire_eq_jump _ hp
  obtain ⟨jpc, jeng, jothers⟩ := Dev.jumpTo_jumps (s.setScrWord e a v) (e := e) (n := s.pc e + 1) (by omega)
  have jcards := Dev.jumpTo_cards (s.setScrWord e a v) e (s.pc e + 1)
  rw [ht]
  refine ⟨?_, fun k n hne hlt => ?_, ⟨jpc, jeng, jothers⟩, jcards, ((Dev.ScrFrame.refl s).setScrWord e a v).jumpTo e _⟩
  · rw [Dev.jumpTo_scrWord, Dev.scrWord_setScrWord]
  · rw [Dev.jumpTo_scrByte]
    exact Dev.scrByte_setScrWord_of_ne s v hlt hne

/-- Settles O9, form by form: the checks of the form pass, and it has its effect. -/
theorem moviMovesItsFourForms : Obligations.MoviMovesItsFourForms := by
  unfold Obligations.MoviMovesItsFourForms
  rintro e f s x rfl h hp hscr
  have hm := h.mbz
  refine ⟨fun hfl ha hb => ?_, fun hfl ha hb => ?_, fun hfl ha hb => ?_, fun hfl ha hb => ?_⟩ <;>
    refine instrOp_reaches h.toRuns ?_ <;> simp only [doMovi, hfl]
  · rw [Dev.check_ok (by simp [hm, regRw, ha, hb])]
    exact Dev.computes_noFlags _ _ e.isLt ha hp
  · rw [Dev.check_ok (by simp [hm, regRw, regOk, ha, hb])]
    exact Dev.computes_noFlags _ _ e.isLt ha hp
  · rw [Dev.check_ok (by simp [hm, regRw, regOk, ha, hb, hscr])]
    exact Dev.computes_noFlags _ _ e.isLt ha hp
  · rw [Dev.check_ok (by simp [hm, regOk, ha, hb])]
    obtain ⟨hword, hother, hdone, hcards, hrest⟩ := Dev.storesScratch s.toDev _ _ hp
    exact ⟨hword, fun k a hne hlt => hother k a (hne.imp_left Fin.val_ne_of_ne) hlt, hdone, hcards, hrest⟩

end Sys2Proof.Machine
end

section
/-! PROOFS. Flow and staging of the engines (R26, R75, R76, R80, R84-R87, R98-R102): O10 to O15. -/

namespace Sys2Proof.Machine

/-! ### Flow of an engine -/

theorem Dev.executing_of_yielded {t : Dev} {e n : Nat} (h : (t.eng e).phase = .yielded n) : t.executing e = false := by
  simp [Dev.executing, h]

theorem Dev.executing_of_not_running {t : Dev} {e : Nat} (h : (t.eng e).st ≠ .running) : t.executing e = false := by
  simp [Dev.executing, h]

/-- An engine that begins an instruction is in its work window (R50, R76). -/
theorem Dev.Runs.phase {s : Dev} {e : Nat} {f : Fetch} {o : Nat} (h : s.Runs e f o) : (s.eng e).phase = .exec := by
  have hexec := h.exec
  simp only [Dev.executing, h.mid, Bool.and_false, Bool.or_false, Bool.and_eq_true, decide_eq_true_eq] at hexec
  exact hexec.2

/-- A jump changes no engine but its own, whose micro state is as after a retirement. -/
theorem Dev.jumpTo_onEng (s : Dev) (e n : Nat) (g : Eng → Eng) :
    ((s.onEng e g).jumpTo e n).eng e = (g (s.eng e)).retired ∧
      ∀ k, k ≠ e → ((s.onEng e g).jumpTo e n).eng k = s.eng k := by
  obtain ⟨-, jeng, jothers⟩ := Dev.jumpTo_jumps (s.onEng e g) (e := e) (n := n % 32768) (by omega)
  have hmod : (s.onEng e g).jumpTo e (n % 32768) = (s.onEng e g).jumpTo e n := by
    simp [Dev.jumpTo, Dev.setPc]
  rw [hmod] at jeng jothers
  exact ⟨by rw [jeng, Dev.onEng, Dev.eng_setEng_self],
    fun k hk => by rw [jothers k hk, Dev.onEng, Dev.eng_setEng_of_ne _ hk]⟩

theorem Dev.jumpTo_pc (s : Dev) {e n : Nat} (h : n < 32768) : (s.jumpTo e n).pc e = n := (Dev.jumpTo_jumps s h).pc

/-- An immediate of 15 bits names an instruction. -/
theorem Ins.im_lt (x : Ins) : x.im 14 0 < 32768 := Nat.mod_lt _ (by decide)

/-- A card of the engine written before the jump changes no engine. -/
theorem Dev.jumps_of_wr (s : Dev) (a : Nat) {e n : Nat} {v : W} (h : n < 32768) : s.Jumps ((s.wr a v).jumpTo e n) e n := by
  obtain ⟨jpc, jeng, jothers⟩ := Dev.jumpTo_jumps (s.wr a v) (e := e) h
  exact ⟨jpc, jeng, jothers⟩

theorem Dev.jumpTo_wr_cards (s : Dev) {a e n : Nat} (v : W) : s.Cards ((s.wr a v).jumpTo e n) [aEng e 4, a] := by
  intro k hk
  simp only [List.mem_cons, List.not_mem_nil, or_false, not_or] at hk
  rw [Dev.jumpTo_cards _ e n k (by simpa using hk.1), Dev.rd_wr_of_ne _ hk.2]

/-! ### O10 -/

theorem doBr_jumps (s : Dev) (e : Nat) {x : Ins} (hm : x.mbz = false) : doBr e s x = s.jumpTo e (x.im 14 0) :=
  Dev.check_ok (by simp [hm])

theorem doBrc_eq {s : Dev} {e : Nat} {x : Ins} {c : Bool} (hm : x.mbz = false)
    (hc : condOf x.a (s.rd (aEng e 0xC)) (s.lastStatus e) = some c) (hp : s.pc e < 32767) :
    doBrc e s x = s.jumpTo e (if c != x.flag 0 then x.im 14 0 else s.pc e + 1) := by
  have hcheck := Dev.check_ok (s := s) (e := e) (bad := [(x.mbz, srcIllOp)])
    (ok := if c != x.flag 0 then s.jumpTo e (x.im 14 0) else s.retire e) (by simp [hm])
  rw [doBrc, hc]
  dsimp only
  rw [hcheck, Dev.retire_eq_jump s hp]
  split <;> rfl

theorem doCall_eq {s : Dev} {e : Nat} {x : Ins} (hm : x.mbz = false) (h : (s.eng e).stack.length < 8) :
    doCall e s x = (s.onEng e (fun g => { g with stack := BitVec.ofNat 15 (s.pc e + 1) :: g.stack })).jumpTo e (x.im 14 0) :=
  Dev.check_ok (by simp [hm]; omega)

theorem doRet_eq {s : Dev} {e : Nat} {x : Ins} {p : BitVec 15} {r : List (BitVec 15)} (hm : x.mbz = false)
    (h : (s.eng e).stack = p :: r) :
    doRet e s x = (s.onEng e (fun g => { g with stack := g.stack.drop 1 })).jumpTo e p.toNat := by
  rw [doRet, h]
  exact Dev.check_ok (by simp [hm])

theorem doLoop_eq {s : Dev} {e : Nat} {x : Ins} (hm : x.mbz = false) (ha : x.a < 4) (hp : s.pc e < 32767) :
    doLoop e s x = (s.wr (aEng e (0xC0 + 4 * x.a)) (wn ((s.reg e (32 + x.a)).toNat - 1) &&& 0xFFFFFF)).jumpTo e
      (if (s.reg e (32 + x.a)).toNat ≤ 1 then s.pc e + 1 else x.im 14 0) := by
  have hset : s.setReg e (32 + x.a) (wn ((s.reg e (32 + x.a)).toNat - 1)) =
      s.wr (aEng e (0xC0 + 4 * x.a)) (wn ((s.reg e (32 + x.a)).toNat - 1) &&& 0xFFFFFF) := by
    rw [Dev.setReg, if_neg (by omega), if_pos (by omega), Nat.add_sub_cancel_left]
  have hpc : (s.wr (aEng e (0xC0 + 4 * x.a)) (wn ((s.reg e (32 + x.a)).toNat - 1) &&& 0xFFFFFF)).pc e = s.pc e := by
    unfold Dev.pc Dev.fld
    rw [Dev.rd_wr_of_ne _ (aEng_ne (by omega))]
  unfold doLoop
  dsimp only
  rw [Dev.check_ok (by simp [hm]; omega), hset, Dev.retire_eq_jump _ (by rwa [hpc]), hpc]
  by_cases hv : (s.reg e (32 + x.a)).toNat ≤ 1
  · rw [if_pos hv, if_neg (by omega)]
  · rw [if_neg hv, if_pos (by omega)]

/-- Settles O10: each instruction of flow is a jump, with the stack or the loop counter changed. -/
theorem flowInstructionsSetPc : Obligations.FlowInstructionsSetPc := by
  unfold Obligations.FlowInstructionsSetPc
  rintro e f s x rfl
  refine ⟨fun h => ?br, fun c h hc hp => ?brc, fun h hlen => ?call, fun p r h hst => ?ret, fun h ha hp => ?loop⟩ <;>
    refine instrOp_reaches h.toRuns ?_
  case br =>
    rw [doBr_jumps s.toDev e h.mbz]
    exact ⟨Dev.jumpTo_jumps _ (Ins.im_lt _), Dev.jumpTo_cards _ _ _, Dev.jumpTo_rest _ _ _⟩
  case brc =>
    rw [doBrc_eq h.mbz hc hp]
    refine ⟨Dev.jumpTo_jumps _ ?_, Dev.jumpTo_cards _ _ _, Dev.jumpTo_rest _ _ _⟩
    split
    · exact Ins.im_lt _
    · omega
  case call =>
    rw [doCall_eq h.mbz hlen]
    obtain ⟨heng, hothers⟩ := Dev.jumpTo_onEng s.toDev e ((s.insAt e).im 14 0)
      (fun g => { g with stack := BitVec.ofNat 15 (s.pc e + 1) :: g.stack })
    exact ⟨Dev.jumpTo_pc _ (Ins.im_lt _), heng, hothers, Dev.jumpTo_cards _ _ _,
      ((Dev.RegFrame.refl _).onEng e _).jumpTo e _⟩
  case ret =>
    rw [doRet_eq h.mbz hst]
    obtain ⟨heng, hothers⟩ := Dev.jumpTo_onEng s.toDev e p.toNat (fun g => { g with stack := g.stack.drop 1 })
    rw [hst] at heng
    exact ⟨Dev.jumpTo_pc _ p.isLt, heng, hothers, Dev.jumpTo_cards _ _ _, ((Dev.RegFrame.refl _).onEng e _).jumpTo e _⟩
  case loop =>
    rw [doLoop_eq h.mbz ha hp]
    have hlt : (if (s.reg e (32 + (s.insAt e).a)).toNat ≤ 1 then s.pc e + 1 else (s.insAt e).im 14 0) < 32768 := by
      split
      · omega
      · exact Ins.im_lt _
    refine ⟨?_, (Dev.jumps_of_wr _ _ hlt), ?_, ((Dev.RegFrame.refl _).wr _ _).jumpTo e _⟩
    · rw [Dev.reg, if_neg (by omega), if_pos (by omega), Nat.add_sub_cancel_left,
        Dev.jumpTo_cards _ _ _ _ (by simpa using aEng_ne (by omega)), Dev.rd_wr_self]
      rfl
    · exact Dev.jumpTo_wr_cards _ _

/-! ### O11 -/

theorem doYield_eq {s : Dev} {e : Nat} {x : Ins} (hm : x.mbz = false) (hphase : (s.eng e).phase = .exec) (hp : s.pc e < 32767) :
    doYield e s x = (s.jumpTo e (s.pc e + 1)).onEng e (fun g => { g with phase := .yielded (max (x.im 15 0) 1) }) := by
  have hexec : ((s.jumpTo e (s.pc e + 1)).eng e).phase = .exec := by
    rw [(Dev.jumpTo_jumps s (by omega)).eng]
    exact hphase
  rw [doYield, Dev.check_ok (by simp [hm]), Dev.retire_eq_jump s hp]
  simp only [Dev.onEng, hexec, if_true]

/-- HALT of a site that has ended no step in the frame (R99, R420). -/
theorem doHalt_eq {s : Dev} {e : Nat} {x : Ins} {i : Nat} (hm : x.mbz = false) (hu : (s.eng e).uchunk = 0)
    (hstep : s.flag e 13 = false) : doHalt e none s x i = ((s.endStep e i).retire e).haltEng e := by
  simp [doHalt, hu, hm, issues, Dev.stepped, hstep]

theorem Dev.endStep_of_none {s : Dev} {e i : Nat} (h : (s.site i).step = none) : s.endStep e i = s := by
  simp [Dev.endStep, h]

theorem Dev.endStep_of_some {s : Dev} {e i : Nat} {p : Step} (h : (s.site i).step = some p) :
    s.endStep e i = (s.setSite i { s.site i with ended := some p, step := none }).setFlag e 13 true := by
  simp [Dev.endStep, h]

@[simp] theorem Dev.endStep_eng (s : Dev) (e i k : Nat) : (s.endStep e i).eng k = s.eng k := by
  cases hstep : (s.site i).step with
  | none => rw [Dev.endStep_of_none hstep]
  | some p => rw [Dev.endStep_of_some hstep, Dev.setFlag, Dev.setFld, Dev.wr_eng, Dev.setSite_eng]

/-- Ending a step changes its site, and STEPPED of the engine. -/
theorem Dev.endStep_cards (s : Dev) (e i : Nat) : s.Cards (s.endStep e i) [aEng e 0xC] := by
  cases hstep : (s.site i).step with
  | none => rw [Dev.endStep_of_none hstep]; exact Dev.Cards.refl _ _
  | some p =>
    rw [Dev.endStep_of_some hstep]
    exact (Dev.Cards.of_regs (t := s.setSite i _) rfl _).setFld (by simp) _ _ _

theorem Dev.endStep_site_of_ne (s : Dev) (e : Nat) {i j : Nat} (h : j ≠ i) : (s.endStep e i).site j = s.site j := by
  cases hstep : (s.site i).step with
  | none => rw [Dev.endStep_of_none hstep]
  | some p =>
    rw [Dev.endStep_of_some hstep, Dev.setFlag, Dev.setFld, Dev.wr_site, Dev.site_setSite_of_ne s h]

theorem Dev.endStep_site_of_some {s : Dev} {e i : Nat} {p : Step} (h : (s.site i).step = some p) :
    (s.endStep e i).site i = { s.site i with step := none, ended := some p } := by
  rw [Dev.endStep_of_some h, Dev.setFlag, Dev.setFld, Dev.wr_site, Dev.site_setSite_self]

theorem Dev.endStep_flag {s : Dev} {e i : Nat} (h : s.flag e 13 = false) :
    (s.endStep e i).flag e 13 = (s.site i).step.isSome := by
  cases hstep : (s.site i).step with
  | none => rw [Dev.endStep_of_none hstep, h]; rfl
  | some p => rw [Dev.endStep_of_some hstep]; exact Dev.flag_setFlag_self _ e (by omega) true

/-- Nothing but register cards, engine states and sites differs. -/
def Dev.SiteFrame (s t : Dev) : Prop := { t with regs := s.regs, engs := s.engs, sites := s.sites } = s

theorem Dev.SiteFrame.refl (s : Dev) : s.SiteFrame s := rfl
theorem Dev.SiteFrame.wr {s t : Dev} (h : s.SiteFrame t) (a : Nat) (v : W) : s.SiteFrame (t.wr a v) := h
theorem Dev.SiteFrame.setSite {s t : Dev} (h : s.SiteFrame t) (i : Nat) (x : Site) : s.SiteFrame (t.setSite i x) := h
theorem Dev.SiteFrame.setEng {s t : Dev} (h : s.SiteFrame t) (e : Nat) (x : Eng) : s.SiteFrame (t.setEng e x) := h
theorem Dev.SiteFrame.jumpTo {s t : Dev} (h : s.SiteFrame t) (e n : Nat) : s.SiteFrame (t.jumpTo e n) := h

theorem Dev.SiteFrame.endStep {s t : Dev} (h : s.SiteFrame t) (e i : Nat) : s.SiteFrame (t.endStep e i) := by
  cases hstep : (t.site i).step with
  | none => rwa [Dev.endStep_of_none hstep]
  | some p => rw [Dev.endStep_of_some hstep]; exact (h.setSite i _).wr _ _

theorem Dev.haltEng_eng (s : Dev) (e : Nat) :
    (s.haltEng e).eng e =
      { (s.eng e).retired with st := .halted, cause := 1, phase := .exec, wait := none, arrived := false } :=
  Dev.eng_setEng_self _ _ _

/-- The step of a site ended, the instruction retired, and its engine halted (R76, R98). -/
theorem Dev.halts (s : Dev) {e i : Nat} (hp : s.pc e < 32767) (hf : s.flag e 13 = false) :
    let t := ((s.endStep e i).retire e).haltEng e
    t.pc e = s.pc e + 1 ∧ t.executing e = false ∧
      t.eng e = { (s.eng e).retired with st := .halted, cause := 1, phase := .exec, wait := none, arrived := false } ∧
      (∀ p, (s.site i).step = some p → t.site i = { s.site i with step := none, ended := some p }) ∧
      ((s.site i).step = none → t.site i = s.site i) ∧ t.flag e 13 = (s.site i).step.isSome ∧
      (∀ j, j ≠ i → t.site j = s.site j) ∧ (∀ k, k ≠ e → t.eng k = s.eng k) ∧ s.Cards t [aEng e 4, aEng e 0xC] ∧
      s.SiteFrame t := by
  intro t
  have hcards := Dev.endStep_cards s e i
  have hpc : (s.endStep e i).pc e = s.pc e := Dev.fld_congr (hcards _ (by simpa using aEng_ne (by omega))) 14 0
  obtain ⟨jpc, jeng, jothers⟩ := Dev.jumpTo_jumps (s.endStep e i) (e := e) (n := s.pc e + 1) (by omega)
  have jcards := Dev.jumpTo_cards (s.endStep e i) e (s.pc e + 1)
  have ht : t = ((s.endStep e i).jumpTo e (s.pc e + 1)).haltEng e := by
    rw [← hpc, ← Dev.retire_eq_jump _ (by rwa [hpc])]
  have heng : t.eng e =
      { (s.eng e).retired with st := .halted, cause := 1, phase := .exec, wait := none, arrived := false } := by
    rw [ht, Dev.haltEng_eng, jeng, Dev.endStep_eng]
    rfl
  have hsite : ∀ j, t.site j = (s.endStep e i).site j := fun j => by rw [ht]; rfl
  have hrd : ∀ a, t.rd a = ((s.endStep e i).jumpTo e (s.pc e + 1)).rd a := fun a => by rw [ht]; rfl
  refine ⟨?_, ?_, heng, fun p hstep => ?_, fun hstep => ?_, ?_, fun j hj => ?_, fun k hk => ?_, fun a ha => ?_, ?_⟩
  · rw [← jpc]
    exact Dev.fld_congr (hrd _) 14 0
  · exact Dev.executing_of_not_running (by rw [heng]; exact EngState.noConfusion)
  · rw [hsite, Dev.endStep_site_of_some hstep]
  · rw [hsite, Dev.endStep_of_none hstep]
  · rw [← Dev.endStep_flag hf]
    exact Dev.bit_congr ((hrd _).trans (jcards _ (by simpa using aEng_ne (by omega)))) 13
  · rw [hsite, Dev.endStep_site_of_ne s e hj]
  · rw [ht, Dev.haltEng, Dev.onEng, Dev.eng_setEng_of_ne _ hk, jothers k hk, Dev.endStep_eng]
  · simp only [List.mem_cons, List.not_mem_nil, or_false, not_or] at ha
    rw [hrd, jcards a (by simpa using ha.1), hcards a (by simpa using ha.2)]
  · rw [ht]
    exact (((Dev.SiteFrame.refl s).endStep e i).jumpTo e _).setEng e _

/-- Settles O11: YIELD retires and yields; HALT ends the step, retires and halts. -/
theorem yieldAndHaltLeaveTheFrame : Obligations.YieldAndHaltLeaveTheFrame := by
  unfold Obligations.YieldAndHaltLeaveTheFrame
  rintro e f s x rfl hp
  refine ⟨fun h => ?yield, fun i h hi hu hstep => ?halt⟩
  case yield =>
    refine instrOp_reaches h.toRuns ?_
    rw [doYield_eq h.mbz h.phase hp]
    obtain ⟨jpc, jeng, jothers⟩ := Dev.jumpTo_jumps s.toDev (e := e) (n := s.pc e + 1) (by omega)
    have heng := Dev.eng_setEng_self (s.jumpTo e (s.pc e + 1)) e
      { (s.jumpTo e (s.pc e + 1)).eng e with phase := .yielded (max ((s.insAt e).im 15 0) 1) }
    refine ⟨jpc, ?_, Dev.executing_of_yielded (by rw [Dev.onEng, heng]), fun k hk => ?_, Dev.jumpTo_cards _ _ _,
      ((Dev.RegFrame.refl _).jumpTo e _).onEng e _⟩
    · rw [Dev.onEng, heng, jeng]
    · rw [Dev.onEng, Dev.eng_setEng_of_ne _ hk, jothers k hk]
  case halt =>
    refine instrCut_reaches h.toRuns hi ?_
    rw [doHalt_eq h.mbz hu hstep]
    exact Dev.halts s.toDev hp hstep

/-! ### O12 -/

theorem doTpoint_of_no_dwell {s : Dev} {e : Nat} {x : Ins} {i : Nat} (hm : x.mbz = false) (hu : (s.eng e).uchunk = 0)
    (h : s.tpDemand i = 0 ∨ s.pDwell i = false) :
    doTpoint e s x i = (s.onSite i (fun z => { z with tpHit := true })).retire e := by
  have hdwell : (s.tpDemand i ≠ 0 && s.pDwell i) = false := by rcases h with h | h <;> simp [h]
  rw [doTpoint, Dev.check_ok (by simp [hm]), if_neg (by simp [hu]), if_neg (by rw [hdwell]; exact Bool.false_ne_true)]

theorem doTpoint_of_dwell {s : Dev} {e : Nat} {x : Ins} {i : Nat} (hm : x.mbz = false) (hu : (s.eng e).uchunk = 0)
    (hd : s.tpDemand i ≠ 0) (hp : s.pDwell i = true) :
    doTpoint e s x i = (s.reqDwell i).onEng e (fun g => g.chunk (s.tpDemand i + 1)) := by
  rw [doTpoint, Dev.check_ok (by simp [hm]), if_neg (by simp [hu]), if_pos (by simp [hd, hp])]

/-- A site written, and the instruction retired. -/
theorem Dev.setSite_retires (s : Dev) {e : Nat} (i : Nat) (x : Site) (hp : s.pc e < 32767) :
    let t := (s.setSite i x).retire e
    t.site i = x ∧ (∀ j, j ≠ i → t.site j = s.site j) ∧ s.Retires t e ∧ s.Cards t [aEng e 4] ∧ s.SiteFrame t := by
  intro t
  have hpc : (s.setSite i x).pc e = s.pc e := rfl
  have ht : t = (s.setSite i x).jumpTo e (s.pc e + 1) := Dev.retire_eq_jump _ (by rwa [hpc])
  obtain ⟨jpc, jeng, jothers⟩ := Dev.jumpTo_jumps (s.setSite i x) (e := e) (n := s.pc e + 1) (by omega)
  have hsite : ∀ j, t.site j = (s.setSite i x).site j := fun j => by rw [ht]; rfl
  refine ⟨?_, fun j hj => ?_, ?_, ?_, ?_⟩
  · rw [hsite, Dev.site_setSite_self]
  · rw [hsite, Dev.site_setSite_of_ne s hj]
  · rw [ht]
    exact ⟨jpc, jeng, jothers⟩
  · rw [ht]
    exact Dev.jumpTo_cards (s.setSite i x) e _
  · rw [ht]
    exact ((Dev.SiteFrame.refl s).setSite i x).jumpTo e _

/-- Settles O12, by the two ways TPOINT goes (R102). -/
theorem tpointDwellsOnDemand : Obligations.TpointDwellsOnDemand := by
  unfold Obligations.TpointDwellsOnDemand
  rintro e f s i h hi hp hu
  refine ⟨fun hd => instrSite_reaches h.toRuns hi ?mark, fun hd hdwell => instrSite_reaches h.toRuns hi ?dwell⟩
  case mark =>
    rw [doTpoint_of_no_dwell h.mbz hu hd]
    obtain ⟨hsite, hothers, hdone, hcards, hrest⟩ :=
      Dev.setSite_retires s.toDev i { s.site i with tpHit := true } hp
    exact ⟨hsite, hdone, hothers, hcards, hrest⟩
  case dwell =>
    rw [doTpoint_of_dwell h.mbz hu hd hdwell]
    generalize hg : (fun g : Eng => g.chunk (s.tpDemand i + 1)) = g
    have heng : ((s.reqDwell i).onEng e g).eng e = (s.eng e).chunk (s.tpDemand i + 1) := by
      rw [Dev.onEng, Dev.eng_setEng_self, ← hg]
      rfl
    have hsite : ∀ j, ((s.reqDwell i).onEng e g).site j = (s.reqDwell i).site j := fun j => Dev.setEng_site _ _ _ _
    refine ⟨?_, by rw [heng]; rfl, rfl, Dev.executing_of_yielded (by rw [heng]; rfl), fun j hj => ?_, fun k hk => ?_, rfl⟩
    · rw [hsite, Dev.reqDwell, Dev.onSite, Dev.site_setSite_self]
    · rw [hsite, Dev.reqDwell, Dev.onSite, Dev.site_setSite_of_ne _ hj]
    · rw [Dev.onEng, Dev.eng_setEng_of_ne _ hk, Dev.reqDwell, Dev.onSite, Dev.setSite_eng]

/-! ### O13, O14 -/

theorem selBad_of_ok {b n : Nat} (h : b = 128 ∨ b < min 128 n) : selBad b = false := by
  simp only [selBad, decide_eq_false_iff_not]
  omega

/-- A selector that names the whole site, or a template pin the site has (R82). -/
theorem Dev.selOut_of_ok {s : Dev} {i b : Nat} (h : b = 128 ∨ b < min 128 (s.npin i)) : s.selOut i b = false := by
  rcases h with h | h
  · simp [Dev.selOut, h]
  · simp [Dev.selOut]
    omega

theorem doSegjmp_of_holds {s : Dev} {e : Nat} {x : Ins} {c : Bool}
    (hc : condOf x.a (s.rd (aEng e 0xC)) (s.lastStatus e) = some c) (h : (c != x.flag 0) = true) :
    doSegjmp e s x = s.stageIns e x.mbz false (!s.sys.mode.enables 1) (.segjmp (BitVec.ofNat 16 (x.im 15 0))) := by
  rw [doSegjmp, hc]
  exact if_pos h

theorem doSegjmp_of_fails {s : Dev} {e : Nat} {x : Ins} {c : Bool} (hm : x.mbz = false) (hen : s.sys.mode.enables 1 = true)
    (hc : condOf x.a (s.rd (aEng e 0xC)) (s.lastStatus e) = some c) (h : ¬(c != x.flag 0) = true) :
    doSegjmp e s x = s.retire e := by
  rw [doSegjmp, hc]
  exact (if_neg h).trans (Dev.check_ok (by simp [hm, hen]))

/-- Settles O13: every check of the instruction passes, and it stages (`Dev.stageIns_stages`). -/
theorem patternInstructionsStage : Obligations.PatternInstructionsStage := by
  unfold Obligations.PatternInstructionsStage
  rintro e f s x i rfl hi hp hs
  refine ⟨fun h hill => instrSite_reaches h.toRuns hi ?play, fun h hill => instrSite_reaches h.toRuns hi ?join,
    fun h halt => instrSite_reaches h.toRuns hi ?detach, fun c h hc hen => instrOp_reaches h.toRuns ?segjmp,
    fun h ha hb hen => instrSite_reaches h.toRuns hi ?dwell⟩
  case play => exact Dev.stageIns_stages s.toDev _ hp h.mbz rfl hill hs
  case join => exact Dev.stageIns_stages s.toDev _ hp h.mbz rfl hill hs
  case detach =>
    have halt' : ((s.insAt e).flag 0 && !s.altEn i) = false := by rcases halt with halt | halt <;> simp [halt]
    exact Dev.stageIns_stages s.toDev _ hp h.mbz halt' rfl hs
  case segjmp =>
    by_cases hjump : (c != (s.insAt e).flag 0) = true
    · rw [doSegjmp_of_holds hc hjump]
      obtain ⟨hstages, hrest⟩ := Dev.stageIns_stages s.toDev (.segjmp (BitVec.ofNat 16 ((s.insAt e).im 15 0))) hp
        h.mbz rfl (show (!s.sys.mode.enables 1) = false by rw [hen]; rfl) hs
      exact ⟨hrest, fun _ => hstages, fun heq => absurd hjump (by simp [heq])⟩
    · rw [doSegjmp_of_fails h.mbz hen hc hjump, Dev.retire_eq_jump s.toDev hp]
      exact ⟨rfl, fun hj => absurd hj hjump, fun _ => ⟨Dev.jumpTo_jumps _ (by omega), rfl, Dev.jumpTo_cards _ _ _⟩⟩
  case dwell =>
    exact Dev.stageIns_stages s.toDev _ hp (by simp [h.mbz, selBad_of_ok hb, ha]) (Dev.selOut_of_ok hb) (by simp [hen]) hs

/-- Settles O14: every check of the instruction passes, and it stages (`Dev.stageIns_stages`). -/
theorem channelInstructionsStage : Obligations.ChannelInstructionsStage := by
  unfold Obligations.ChannelInstructionsStage
  rintro e f s x i rfl hi hp hs
  refine ⟨fun h ha hb hv hen => instrSite_reaches h.toRuns hi ?level, fun h hb hts hpos hen => instrSite_reaches h.toRuns hi ?tset,
    fun h ha hb hv hill => instrSite_reaches h.toRuns hi ?force, fun h ha hb hg hen => instrSite_reaches h.toRuns hi ?gang,
    fun h ha hb hn hlt hen => instrSite_reaches h.toRuns hi ?winset⟩
  case level =>
    have hmode : (!(s.sys.mode.enables 3 || (3 ≤ (s.insAt e).a && s.sys.mode.enables 8))) = false := by
      rcases hen with hen | ⟨h3, hen⟩
      · simp [hen]
      · simp [hen, h3]
    exact Dev.stageIns_stages s.toDev _ hp (by simp [h.mbz, selBad_of_ok hb, ha]) (by simp [Dev.selOut_of_ok hb, hv]) hmode hs
  case tset =>
    have hok : s.tsetOk (s.insAt e).a ((s.insAt e).im 23 0) = true := by simp [Dev.tsetOk, hts, hpos]
    exact Dev.stageIns_stages s.toDev _ hp (by simp [h.mbz, selBad_of_ok hb]) (by simp [Dev.selOut_of_ok hb, hok])
      (by simp [hen]) hs
  case force =>
    exact Dev.stageIns_stages s.toDev _ hp (by simp [h.mbz, selBad_of_ok hb, ha]) (by simp [Dev.selOut_of_ok hb, hv]) hill hs
  case gang =>
    have hgang : ((s.insAt e).a = 1 && !s.gangOk i (s.insAt e).b ((s.insAt e).im 3 0)) = false := by
      rcases hg with hg | hg <;> simp [hg]
    exact Dev.stageIns_stages s.toDev _ hp (by simp [h.mbz, ha])
      (by rw [hgang, Bool.or_false, decide_eq_false_iff_not]; omega) (by simp [hen]) hs
  case winset =>
    have hok : winOk ((s.insAt e).fl % 32) ((s.insAt e).im 27 16) ((s.insAt e).im 11 0) = true := by
      simp [winOk, hn, hlt]
    exact Dev.stageIns_stages s.toDev _ hp (by simp [h.mbz, selBad_of_ok hb, ha]) (by simp [Dev.selOut_of_ok hb, hok])
      (by simp [hen]) hs

/-! ### O15 -/

theorem Site.slot_setSlot_self (x : Site) (m : Nat) (v : Slot) : (x.setSlot m v).slot m = v := Tab.get_set_self _ _ _ _

theorem Site.slot_setSlot_of_ne (x : Site) {m n : Nat} (h : n ≠ m) (v : Slot) : (x.setSlot m v).slot n = x.slot n :=
  Tab.get_set_of_ne _ h _ _

theorem Dev.StageFrame.sites {s t : Dev} (h : s.StageFrame t) : t.sites = s.sites := by
  have h' := congrArg Dev.sites h
  exact h'

theorem Dev.StageFrame.withSites {s t : Dev} (h : s.StageFrame t) : s.StageFrame { t with sites := s.sites } := by
  have h' := congrArg (fun d : Dev => { d with sites := s.sites }) h
  exact h'

theorem Dev.StageFrame.site {s t : Dev} (h : s.StageFrame t) (j : Nat) : t.site j = s.site j := by
  unfold Dev.site; rw [h.sites]

/-- A staged write whose slot is marked not-ready at once (R84, R253). -/
theorem Dev.stageIns_slotBusy (s : Dev) {e : Nat} (i m : Nat) (op : EngOp) (hp : s.pc e < 32767) (hs : (s.eng e).staged < 16) :
    let t := (s.slotBusy i m).stageIns e false false false op
    s.Stages t e op ∧ (t.site i).slot m = { (s.site i).slot m with ready := false } ∧
      (∀ n, n ≠ m → (t.site i).slot n = (s.site i).slot n) ∧ { t.site i with slots := (s.site i).slots } = s.site i ∧
      (∀ j, j ≠ i → t.site j = s.site j) ∧ Dev.StageFrame s { t with sites := s.sites } := by
  intro t
  obtain ⟨⟨hqueue, hhost, hpc, heng, hothers, hcards⟩, hrest⟩ :=
    Dev.stageIns_stages (s.slotBusy i m) op (e := e) hp rfl rfl rfl hs
  have hsites : t.sites = (s.slotBusy i m).sites := by
    have := congrArg Dev.sites hrest
    exact this
  have hsite : ∀ j, t.site j = (s.slotBusy i m).site j := fun j => by unfold Dev.site; rw [hsites]
  have hself : t.site i = (s.site i).setSlot m { (s.site i).slot m with ready := false } := by
    rw [hsite, Dev.slotBusy, Dev.onSite, Dev.site_setSite_self]
  refine ⟨⟨hqueue, hhost, hpc, heng, hothers, hcards⟩, ?_, fun n hn => ?_, ?_, fun j hj => ?_, ?_⟩
  · rw [hself, Site.slot_setSlot_self]
  · rw [hself, Site.slot_setSlot_of_ne _ hn]
  · rw [hself]
    rfl
  · rw [hsite, Dev.slotBusy, Dev.onSite, Dev.site_setSite_of_ne _ hj]
  · exact congrArg (fun d : Dev => { d with sites := s.sites }) hrest

/-- Settles O15: every check passes, the slot is marked, and the instruction stages. -/
theorem measurementInstructionsStage : Obligations.MeasurementInstructionsStage := by
  unfold Obligations.MeasurementInstructionsStage
  rintro e f s x i rfl hi hp hs hb
  have hfull : s.stageFull e = false := by simp [Dev.stageFull]; omega
  refine ⟨fun h ha hfl hap hen hkind => instrSite_reaches h.toRuns hi ?meas,
    fun h ha hen hen' => instrSite_reaches h.toRuns hi ?acqarm,
    fun p w h hpin hw ha hok hen => instrSite_reaches h.toRuns hi ?tdcopen⟩
  case meas =>
    have hmod : (s.insAt e).fl % 16 = (s.insAt e).fl := by omega
    have hmode : ((s.insAt e).fl = 2 && !s.sys.mode.enables 4) = false := by rcases hkind with hk | hk <;> simp [hk]
    rw [doMeas, Dev.check_ok (by simp [h.mbz, hmod, hfl, hfull, hen, hmode, hap]; omega), hmod]
    exact Dev.stageIns_slotBusy s.toDev i _ _ hp hs
  case acqarm =>
    exact Dev.stageIns_stages s.toDev _ hp h.mbz (by simp; omega) (by simp [hen, hen']) hs
  case tdcopen =>
    have hquad : ((s.pin? i (s.insAt e).b).getD 0) / 4 = p / 4 := by rw [hpin]; rfl
    rw [doTdcopen, hquad, Dev.check_ok (by simp [h.mbz, hok, hfull, hen]; omega), ← hw]
    cases hslot : w.bit 24 with
    | true =>
      obtain ⟨hstages, hself, hother, -, hsites, hrest⟩ := Dev.stageIns_slotBusy s.toDev i (w.fld 20 16)
        (.tdcopen (s.insAt e).a (s.insAt e).b ((s.insAt e).fl % 16) ((s.insAt e).im 3 0) (s.owner i)) hp hs
      exact ⟨hstages, by simpa using hself, hother, hsites, hrest⟩
    | false =>
      obtain ⟨hstages, hrest⟩ := Dev.stageIns_stages s.toDev
        (.tdcopen (s.insAt e).a (s.insAt e).b ((s.insAt e).fl % 16) ((s.insAt e).im 3 0) (s.owner i)) hp rfl rfl rfl hs
      exact ⟨hstages, by simp [hrest.site], fun m _ => by simp [hrest.site], fun j _ => hrest.site j,
        hrest.withSites⟩

end Sys2Proof.Machine
end

section
/-! PROOFS. Slots, steps and results of the engines (R84, R85, R98-R100, R204, R207, R215-R218): O16 to O20. -/

namespace Sys2Proof.Machine

/-! ### An instruction that retires after a change of cards and sites -/

/-- A device whose PC and engines are those of another retires as it does. -/
theorem Dev.retire_retires {s d : Dev} {e : Nat} (hpc : d.pc e = s.pc e) (heng : ∀ k, d.eng k = s.eng k)
    (hp : s.pc e < 32767) :
    s.Retires (d.retire e) e ∧ d.Cards (d.retire e) [aEng e 4] ∧ (∀ j, (d.retire e).site j = d.site j) := by
  have ht : d.retire e = d.jumpTo e (s.pc e + 1) := by rw [Dev.retire_eq_jump d (by omega), hpc]
  obtain ⟨jpc, jeng, jothers⟩ := Dev.jumpTo_jumps d (e := e) (n := s.pc e + 1) (by omega)
  rw [ht]
  exact ⟨⟨jpc, by rw [jeng, heng], fun k hk => by rw [jothers k hk, heng]⟩, Dev.jumpTo_cards d e _, fun _ => rfl⟩

theorem Dev.SiteFrame.retire {s d : Dev} (h : s.SiteFrame d) {e : Nat} (hp : d.pc e < 32767) : s.SiteFrame (d.retire e) := by
  rw [Dev.retire_eq_jump d hp]
  exact h.jumpTo e _

theorem Dev.pc_congr {s t : Dev} {e : Nat} (h : t.rd (aEng e 4) = s.rd (aEng e 4)) : t.pc e = s.pc e := Dev.fld_congr h 14 0

/-! ### O16 -/

/-- A flag bit put alone. -/
theorem Dev.setFlag_eq_putFlags (s : Dev) (e : Nat) {i : Nat} (hi : i < 32) (b : Bool) :
    s.setFlag e i b = s.putFlags e ⟨wn (2 ^ i), fbit i b⟩ := by
  have hpow : ∀ j, j < 32 → W.bit (wn (2 ^ i)) j = decide (i = j) := fun j hj => by
    rw [W.bit, wn, BitVec.getLsbD_ofNat, Nat.testBit_two_pow]
    simp [hj]
  have hfbit : ∀ j, j < 32 → W.bit (fbit i b) j = (b && decide (i = j)) := fun j hj => by
    cases b with
    | false => simp [fbit, W.bit]
    | true => simpa [fbit] using hpow j hj
  unfold Dev.setFlag Dev.setFld Dev.putFlags FlagSet.apply
  congr 1
  refine W.ext_bit (fun j hj => ?_)
  rw [W.bit_or, W.bit_and, W.bit_not _ hj, W.bit_and, hpow j hj, hfbit j hj]
  by_cases h : i = j
  · subst h
    rw [W.bit_put_self _ (Nat.le_refl i) (Nat.le_refl i) hi]
    cases b <;> simp [b2n]
  · rw [W.bit_put_of_ne _ (Nat.le_refl i) hi (by omega)]
    simp [h]

/-- Settles O16, by the three ways GETM goes (R85). -/
theorem getmReadsAndPutsSlots : Obligations.GetmReadsAndPutsSlots := by
  unfold Obligations.GetmReadsAndPutsSlots
  rintro e f s x i rfl hi hp h hb
  refine ⟨fun hput ha hready => instrSite_reaches h.toRuns hi ?ready,
    fun hput ha hready => instrSite_reaches h.toRuns hi ?busy, fun hput ha => instrSite_reaches h.toRuns hi ?put⟩
  case ready =>
    rw [doGetm, Dev.check_ok (by simp [h.mbz, hput, regOk, regRw]; omega), if_neg (by simp [hput]), if_pos hready,
      Dev.setFlag_eq_putFlags _ _ (by omega)]
    exact Dev.computes s.toDev _ ⟨wn (2 ^ 6), fbit 6 false⟩ e.isLt ha hp
  case busy =>
    rw [doGetm, Dev.check_ok (by simp [h.mbz, hput, regOk, regRw]; omega), if_neg (by simp [hput]), if_neg (by simp [hready]),
      Dev.setFlag_eq_putFlags _ _ (by omega)]
    exact Dev.tests s.toDev ⟨wn (2 ^ 6), fbit 6 true⟩ hp
  case put =>
    rw [doGetm, Dev.check_ok (by simp [h.mbz, hput, regOk]; omega), if_pos hput]
    obtain ⟨hsite, hothers, hdone, hcards, hrest⟩ := Dev.setSite_retires s.toDev i
      ((s.site i).setSlot (s.insAt e).b
        { value := s.reg e (s.insAt e).a, ready := true, owner := (s.site i).step.map (·.serial) }) hp
    exact ⟨by rw [Dev.onSite, hsite, Site.slot_setSlot_self],
      fun m hm => by rw [Dev.onSite, hsite, Site.slot_setSlot_of_ne _ hm], hothers, hdone, hcards, hrest⟩

/-! ### O17 -/

/-- A second end of a step in a frame yields and leaves the rest alone (R99). -/
theorem doStep_of_stepped {s : Dev} {e : Nat} {x : Ins} {i : Nat} (hm : x.mbz = false) (hu : (s.eng e).uchunk = 0)
    (hstep : s.flag e 13 = true) : doStep e none s x i = s.yieldFor e 1 := by
  simp [doStep, hu, hm, issues, Dev.stepped, hstep]

theorem doStep_of_first {s : Dev} {e : Nat} {x : Ins} {i : Nat} (hm : x.mbz = false) (hu : (s.eng e).uchunk = 0)
    (hstep : s.flag e 13 = false) : doStep e none s x i = stepChunk1 e (s.endStep e i) x i := by
  simp [doStep, hu, hm, issues, Dev.stepped, hstep]

theorem Dev.endStep_serial (s : Dev) (e i : Nat) : ((s.endStep e i).site i).serial = (s.site i).serial := by
  cases hstep : (s.site i).step with
  | none => rw [Dev.endStep_of_none hstep]
  | some p => rw [Dev.endStep_site_of_some hstep]

theorem Dev.endStep_ended (s : Dev) (e i : Nat) : ((s.endStep e i).site i).ended =
    (match (s.site i).step with | some p => some p | none => (s.site i).ended) := by
  cases hstep : (s.site i).step with
  | none => rw [Dev.endStep_of_none hstep]
  | some p => rw [Dev.endStep_site_of_some hstep]

theorem Dev.endStep_step (s : Dev) (e i : Nat) : ((s.endStep e i).site i).step = none := by
  cases hstep : (s.site i).step with
  | none => rw [Dev.endStep_of_none hstep, hstep]
  | some p => rw [Dev.endStep_site_of_some hstep]

/-- The device STEP retires from: the open step ended and, without E, the next one open (R98). -/
def Dev.stepNext (s : Dev) (e : Nat) (x : Ins) (i : Nat) : Dev :=
  if x.flag 0 then s.endStep e i else (s.endStep e i).openStep i (x.im 15 0)

theorem stepChunk1_endStep (e : Nat) (s : Dev) (x : Ins) (i : Nat) :
    stepChunk1 e (s.endStep e i) x i = (s.stepNext e x i).retire e := by
  unfold stepChunk1 Dev.stepNext
  split <;> rfl

theorem Dev.stepNext_cards (s : Dev) (e : Nat) (x : Ins) (i : Nat) : s.Cards (s.stepNext e x i) [aEng e 0xC] := by
  unfold Dev.stepNext
  split
  · exact Dev.endStep_cards s e i
  · exact (Dev.endStep_cards s e i).trans (Dev.Cards.of_regs rfl _)

theorem Dev.stepNext_eng (s : Dev) (e : Nat) (x : Ins) (i k : Nat) : (s.stepNext e x i).eng k = s.eng k := by
  unfold Dev.stepNext
  split
  · exact Dev.endStep_eng s e i k
  · rw [Dev.openStep, Dev.onSite, Dev.setSite_eng, Dev.endStep_eng]

theorem Dev.stepNext_site_of_ne (s : Dev) (e : Nat) (x : Ins) {i j : Nat} (h : j ≠ i) :
    (s.stepNext e x i).site j = s.site j := by
  unfold Dev.stepNext
  split
  · exact Dev.endStep_site_of_ne s e h
  · rw [Dev.openStep, Dev.onSite, Dev.site_setSite_of_ne _ h, Dev.endStep_site_of_ne s e h]

theorem Dev.stepNext_ended (s : Dev) (e : Nat) (x : Ins) (i : Nat) : ((s.stepNext e x i).site i).ended =
    (match (s.site i).step with | some p => some p | none => (s.site i).ended) := by
  rw [← Dev.endStep_ended s e i]
  unfold Dev.stepNext
  split
  · rfl
  · rw [Dev.openStep, Dev.onSite, Dev.site_setSite_self]

/-- Without E a step of the id given is open, of the next serial (R98). -/
theorem Dev.stepNext_opens (s : Dev) (e : Nat) {x : Ins} (i : Nat) (h : x.flag 0 = false) :
    ∃ p, ((s.stepNext e x i).site i).step = some p ∧ p.id.toNat = x.im 15 0 ∧ p.begun = false ∧
      p.fails = 0 ∧ p.drops = 0 ∧ p.limFail = false ∧ p.serial = (s.site i).serial + 1 := by
  have hid : x.im 15 0 < 2 ^ 16 := Nat.mod_lt _ (by decide)
  rw [Dev.stepNext, if_neg (by simp [h]), Dev.openStep, Dev.onSite, Dev.site_setSite_self]
  exact ⟨_, rfl, by simpa using hid, rfl, rfl, rfl, rfl, by rw [Dev.endStep_serial]⟩

theorem Dev.SiteFrame.stepNext {s t : Dev} (h : s.SiteFrame t) (e : Nat) (x : Ins) (i : Nat) :
    s.SiteFrame (t.stepNext e x i) := by
  unfold Dev.stepNext
  split
  · exact h.endStep e i
  · exact (h.endStep e i).setSite i _

/-- Settles O17: a second end yields; the first one ends the step and opens the next. -/
theorem stepEndsAndOpensSteps : Obligations.StepEndsAndOpensSteps := by
  unfold Obligations.StepEndsAndOpensSteps
  rintro e f s x i rfl hi hp h hu
  refine ⟨fun hstep => instrCut_reaches h.toRuns hi ?second, fun hstep => instrCut_reaches h.toRuns hi ?first⟩
  case second =>
    rw [doStep_of_stepped h.mbz hu hstep, Dev.yieldFor, Dev.onEng]
    exact ⟨Dev.eng_setEng_self _ _ _, Dev.executing_of_yielded (n := 1) (by rw [Dev.eng_setEng_self]; rfl), rfl,
      fun k hk => Dev.eng_setEng_of_ne _ hk _, rfl⟩
  case first =>
    rw [doStep_of_first h.mbz hu hstep, stepChunk1_endStep]
    have hcards := Dev.stepNext_cards s.toDev e (s.insAt e) i
    have hpc : (s.stepNext e (s.insAt e) i).pc e = s.pc e := Dev.pc_congr (hcards _ (by simpa using aEng_ne (by omega)))
    obtain ⟨hdone, hjump, hsite⟩ := Dev.retire_retires hpc (Dev.stepNext_eng s.toDev e (s.insAt e) i) hp
    refine ⟨hdone, ?_, ?_, fun hE => ?_, fun hE => ?_, fun j hj => ?_, fun a ha => ?_, ?_⟩
    · rw [hsite]
      exact Dev.stepNext_ended s.toDev e _ i
    · have hflag : (s.stepNext e (s.insAt e) i).flag e 13 = (s.endStep e i).flag e 13 := by
        unfold Dev.stepNext
        split <;> rfl
      rw [← Dev.endStep_flag hstep, ← hflag]
      exact Dev.bit_congr (hjump _ (by simpa using aEng_ne (by omega))) 13
    · rw [hsite, Dev.stepNext, if_pos hE, Dev.endStep_step]
    · rw [hsite]
      exact Dev.stepNext_opens s.toDev e i hE
    · rw [hsite, Dev.stepNext_site_of_ne _ _ _ hj]
    · simp only [List.mem_cons, List.not_mem_nil, or_false, not_or] at ha
      rw [hjump a (by simpa using ha.1), hcards a (by simpa using ha.2)]
    · exact ((Dev.SiteFrame.refl s.toDev).stepNext e _ i).retire (by omega)

/-! ### O18 -/

/-- The device LIMIT retires from: LF set, and with FAILSTEP the open step failed (R215, R216). -/
def Dev.limitDone (s : Dev) (e i : Nat) (out failStep : Bool) : Dev :=
  if out && failStep then (s.setFlag e 8 out).failStep i else s.setFlag e 8 out

theorem Dev.limitDone_cards (s : Dev) (e i : Nat) (out b : Bool) : s.Cards (s.limitDone e i out b) [aEng e 0xC] := by
  have h := (Dev.Cards.refl s [aEng e 0xC]).setFld (a := aEng e 0xC) (by simp) 8 8 (b2n out)
  unfold Dev.limitDone
  split
  · exact h.trans (Dev.Cards.of_regs rfl _)
  · exact h

theorem Dev.limitDone_flag (s : Dev) (e i : Nat) (out b : Bool) :
    (s.limitDone e i out b).flag e 8 = out ∧ ∀ n, n < 32 → n ≠ 8 → (s.limitDone e i out b).flag e n = s.flag e n := by
  have hrd : (s.limitDone e i out b).rd (aEng e 0xC) = (s.setFlag e 8 out).rd (aEng e 0xC) := by
    unfold Dev.limitDone
    split <;> rfl
  refine ⟨?_, fun n hn h8 => ?_⟩
  · exact (Dev.bit_congr hrd 8).trans (Dev.flag_setFlag_self s e (by omega) out)
  · have hset : (s.setFlag e 8 out).flag e n = s.flag e n := Dev.bit_setFld_of_ne s (by omega) (by omega) (by omega) _
    rw [← hset]
    exact Dev.bit_congr hrd n

theorem Dev.limitDone_eng (s : Dev) (e i : Nat) (out b : Bool) (k : Nat) : (s.limitDone e i out b).eng k = s.eng k := by
  unfold Dev.limitDone
  split <;> rfl

theorem Dev.limitDone_step (s : Dev) (e i : Nat) (out b : Bool) :
    ((s.limitDone e i out b).site i).step = (s.site i).step.map (fun p => { p with limFail := p.limFail || (out && b) }) := by
  have hflag : ∀ v, (s.setFlag e 8 v).site i = s.site i := fun v => Dev.wr_site s _ _ i
  unfold Dev.limitDone
  split
  case isTrue h => rw [Dev.failStep, Dev.onSite, Dev.site_setSite_self, hflag]; simp [h]
  case isFalse h =>
    rw [Bool.not_eq_true] at h
    rw [hflag, h]
    cases (s.site i).step <;> simp

theorem Dev.limitDone_site_of_ne (s : Dev) (e : Nat) {i j : Nat} (out b : Bool) (h : j ≠ i) :
    (s.limitDone e i out b).site j = s.site j := by
  unfold Dev.limitDone
  split
  · exact Dev.site_setSite_of_ne _ h _
  · rfl

theorem Dev.SiteFrame.limitDone {s t : Dev} (h : s.SiteFrame t) (e i : Nat) (out b : Bool) :
    s.SiteFrame (t.limitDone e i out b) := by
  unfold Dev.limitDone
  split
  · exact (h.wr _ _).setSite i _
  · exact h.wr _ _

/-- The fields of a VOIDH word, and of its MIRROR (R85, R112). -/
theorem voidhWord_fields (n : Nat) (en : Bool) :
    (wn (n % 32768 + 2 ^ 31 * b2n en)).fld 14 0 = n % 32768 ∧ (wn (n % 32768 + 2 ^ 31 * b2n en)).bit 31 = en := by
  have hle : b2n en ≤ 1 := by cases en <;> decide
  have hnat : (wn (n % 32768 + 2 ^ 31 * b2n en)).toNat = n % 32768 + 2 ^ 31 * b2n en := by
    rw [wn, BitVec.toNat_ofNat]
    omega
  refine ⟨?_, ?_⟩
  · rw [W.fld, hnat, Nat.shiftRight_zero]
    omega
  · rw [W.bit_eq_testBit, hnat, Nat.testBit_eq_decide_div_mod_eq]
    have hdiv : (n % 32768 + 2 ^ 31 * b2n en) / 2 ^ 31 = b2n en := by omega
    rw [hdiv]
    cases en <;> rfl

theorem voidhField_fields {v : W} {n : Nat} {en : Bool} (h : v.fld 15 0 = n % 32768 + 32768 * b2n en) :
    v.fld 14 0 = n % 32768 ∧ v.bit 15 = en := by
  have hle : b2n en ≤ 1 := by cases en <;> decide
  refine ⟨?_, ?_⟩
  · simp only [W.fld, Nat.shiftRight_zero, Nat.sub_zero, Nat.reduceAdd] at h ⊢
    omega
  · have hbit := W.testBit_fld v (hi := 15) (lo := 0) (i := 15) (by omega)
    rw [Nat.zero_add] at hbit
    have hdiv : (n % 32768 + 32768 * b2n en) / 2 ^ 15 = b2n en := by omega
    rw [← hbit, h, Nat.testBit_eq_decide_div_mod_eq, hdiv]
    cases en <;> rfl

theorem aEng_ne_siteCfg {e o i : Nat} (he : e < 272) (ho : o < 0x1000) : aEng e o ≠ aSiteCfg i := by
  unfold aEng aSiteCfg aHgt; omega

theorem Dev.RegFrame.retire {s d : Dev} (h : s.RegFrame d) {e : Nat} (hp : d.pc e < 32767) : s.RegFrame (d.retire e) := by
  rw [Dev.retire_eq_jump d hp]
  exact h.jumpTo e _

/-- VOIDH sets the card of its engine, and the MIRROR of its site (R85, R112). -/
theorem Dev.setVoidh_of_site {s : Dev} {e i : Nat} (he : e < 272) (hi : s.siteOf e = some i) (en : Bool) (n : Nat) :
    s.setVoidh e en n = (s.wr (aEng e 0x18) (wn (n % 32768 + 2 ^ 31 * b2n en))).setFld (aSiteCfg i + 8) 15 0
      (n % 32768 + 32768 * b2n en) := by
  have hcfg : ∀ j, (s.wr (aEng e 0x18) (wn (n % 32768 + 2 ^ 31 * b2n en))).rd (aSiteCfg j) = s.rd (aSiteCfg j) :=
    fun j => Dev.rd_wr_of_ne s (aEng_ne_siteCfg he (by omega)).symm _
  have hsite : (s.wr (aEng e 0x18) (wn (n % 32768 + 2 ^ 31 * b2n en))).siteOf e = some i :=
    (Dev.siteOf_congr (t := s.wr (aEng e 0x18) (wn (n % 32768 + 2 ^ 31 * b2n en))) (Dev.wr_sites s _ _) hcfg e).trans hi
  rw [Dev.setVoidh, hsite]

/-- VOIDH writes the card of its engine and the MIRROR of its site, and retires (R85, R112). -/
theorem Dev.setVoidh_retires {s : Dev} {e i n : Nat} (he : e < 272) (hi : s.siteOf e = some i) (en : Bool)
    (hlt : n < 32768) (hp : s.pc e < 32767) :
    let t := (s.setVoidh e en n).retire e
    s.Retires t e ∧ t.fld (aEng e 0x18) 14 0 = n ∧ t.bit (aEng e 0x18) 31 = en ∧
      t.fld (aSiteCfg i + 8) 14 0 = n ∧ t.bit (aSiteCfg i + 8) 15 = en ∧
      t.fld (aSiteCfg i + 8) 31 16 = s.fld (aSiteCfg i + 8) 31 16 ∧
      s.Cards t [aEng e 4, aEng e 0x18, aSiteCfg i + 8] ∧ s.RegFrame t := by
  rw [Dev.setVoidh_of_site he hi]
  generalize hu : wn (n % 32768 + 2 ^ 31 * b2n en) = u
  have hvoidh := voidhWord_fields n en
  rw [hu, Nat.mod_eq_of_lt hlt] at hvoidh
  have hmir : n % 32768 + 32768 * b2n en < 2 ^ 16 := by
    have hle : b2n en ≤ 1 := by cases en <;> decide
    omega
  generalize hd : (s.wr (aEng e 0x18) u).setFld (aSiteCfg i + 8) 15 0 (n % 32768 + 32768 * b2n en) = d
  have hrd : ∀ a, a ≠ aSiteCfg i + 8 → a ≠ aEng e 0x18 → d.rd a = s.rd a := fun a ha ha' => by
    rw [← hd, Dev.rd_setFld_of_ne _ ha, Dev.rd_wr_of_ne _ ha']
  have hown : d.rd (aEng e 0x18) = u := by
    rw [← hd, Dev.rd_setFld_of_ne _ (aEng_ne_mirror he (by omega)), Dev.rd_wr_self]
  have hlow : d.fld (aSiteCfg i + 8) 15 0 = n % 32768 + 32768 * b2n en := by
    rw [← hd, Dev.fld_setFld_self _ (by omega) (by omega), Nat.mod_eq_of_lt hmir]
  have hhigh : d.fld (aSiteCfg i + 8) 31 16 = s.fld (aSiteCfg i + 8) 31 16 := by
    rw [← hd, Dev.fld_setFld_of_ne _ (by omega) (by omega) (by omega)]
    exact Dev.fld_congr (Dev.rd_wr_of_ne _ (aEng_ne_mirror he (by omega)).symm _) 31 16
  obtain ⟨hmirLow, hmirBit⟩ := voidhField_fields (v := d.rd (aSiteCfg i + 8)) hlow
  rw [Nat.mod_eq_of_lt hlt] at hmirLow
  have hpc : d.pc e = s.pc e := Dev.pc_congr (hrd _ (aEng_ne_mirror he (by omega)) (aEng_ne (by omega)))
  have heng : ∀ k, d.eng k = s.eng k := fun k => by rw [← hd]; rfl
  have hframe : s.RegFrame d := by
    rw [← hd]
    exact ((Dev.RegFrame.refl _).wr _ _).setFld _ _ _ _
  obtain ⟨hdone, hjump, -⟩ := Dev.retire_retires hpc heng hp
  have hmirEq := hjump (aSiteCfg i + 8) (by simpa using (aEng_ne_mirror he (by omega)).symm)
  have hownEq := (hjump (aEng e 0x18) (by simpa using aEng_ne (by omega))).trans hown
  refine ⟨hdone, ?_, ?_, (Dev.fld_congr hmirEq 14 0).trans hmirLow, (Dev.bit_congr hmirEq 15).trans hmirBit,
    (Dev.fld_congr hmirEq 31 16).trans hhigh, fun a ha => ?_, hframe.retire (by omega)⟩
  · rw [Dev.fld, hownEq, hvoidh.1]
  · rw [Dev.bit, hownEq, hvoidh.2]
  · simp only [List.mem_cons, List.not_mem_nil, or_false, not_or] at ha
    rw [hjump a (by simpa using ha.1), hrd a ha.2.2 ha.2.1]

/-- Settles O18: each of the three retires after its own change. -/
theorem limitBinAndVoidhHold : Obligations.LimitBinAndVoidhHold := by
  unfold Obligations.LimitBinAndVoidhHold
  rintro e f s x i out rfl hi hp hout
  refine ⟨fun c hc h ha => instrSite_reaches h.toRuns hi ?limit, fun h => instrSite_reaches h.toRuns hi ?bin,
    fun h => instrOp_reaches h.toRuns ?voidh⟩
  case limit =>
    have heq : doLimit (c = .uncorrectable) e s.toDev (s.insAt e) i = (s.limitDone e i out ((s.insAt e).flag 0)).retire e := by
      rw [doLimit, Dev.check_ok (by simp [h.mbz, hc, regOk]; omega), hout]
      rfl
    rw [heq]
    generalize hb : (s.insAt e).flag 0 = b
    have hcards := Dev.limitDone_cards s.toDev e i out b
    have hpc : (s.limitDone e i out b).pc e = s.pc e := Dev.pc_congr (hcards _ (by simpa using aEng_ne (by omega)))
    obtain ⟨hlf, hflags⟩ := Dev.limitDone_flag s.toDev e i out b
    obtain ⟨hdone, hjump, hsite⟩ := Dev.retire_retires hpc (Dev.limitDone_eng s.toDev e i out b) hp
    have hflagsEq := hjump (aEng e 0xC) (by simpa using aEng_ne (by omega))
    refine ⟨hdone, (Dev.bit_congr hflagsEq 8).trans hlf, fun n hn h8 => (Dev.bit_congr hflagsEq n).trans (hflags n hn h8),
      fun a ha => ?_, by rw [hsite, Dev.limitDone_step], fun j hj => by rw [hsite, Dev.limitDone_site_of_ne _ _ _ _ hj],
      ((Dev.SiteFrame.refl s.toDev).limitDone e i out b).retire (by omega)⟩
    simp only [List.mem_cons, List.not_mem_nil, or_false, not_or] at ha
    rw [hjump a (by simpa using ha.1), hcards a (by simpa using ha.2)]
  case bin =>
    rw [doBin, Dev.check_ok (by simp [h.mbz]), Dev.onSite]
    obtain ⟨hsite, hothers, hdone, hcards, hrest⟩ := Dev.setSite_retires s.toDev i
      { s.site i with bin := some ((s.insAt e).im 7 0) } hp
    exact ⟨hdone, hcards, hsite, hothers, hrest⟩
  case voidh =>
    rw [doVoidh, Dev.check_ok (by simp [h.mbz])]
    exact Dev.setVoidh_retires e.isLt hi _ (Ins.im_lt _) hp

/-! ### O19 -/

/-- A site index so large that its bit of CNT_SAT would stand in the PC card of engine 0; no run from reset maps such a
site. -/
def strayIndex : Nat := 0x7FFC020

theorem satCard_strayIndex : 0x800 + 4 * (strayIndex / 32) = aEng 0 4 := by decide

/-- A step one fail below the top of its counter. -/
def fullStep : Step :=
  { id := 0, serial := 0, begun := true, fails := 0xFFFFFFFE, drops := 0, limFail := false, quota := 0, logs := [], kept := [] }

/-- Engine 0 runs a LOGF for the stray site, with that step open. -/
def strayLogf : State :=
  { State.reset with
    sys := { State.reset.sys with mode := .functional }
    regs := [(aSiteCfg strayIndex, 1)]
    mem := [(aPgm 0 7, 0x53)]
    engs := [(0, { engOff with st := .running, u := none })]
    sites := [(strayIndex, { siteInit with mapped := true, step := some fullStep })] }

def cleanFetch : Fetch := { pgm := .clean, ucode := [], scr := false, upto := none, pos := 0 }

theorem strayLogf_runs : strayLogf.RunsClean 0 cleanFetch 0x53 :=
  { exec := by decide, pgm := rfl, ucode := rfl, whole := rfl, mid := by decide, op := by decide, rom := by decide,
    mbz := by decide }

theorem strayLogf_site : strayLogf.siteOf 0 = some strayIndex := by decide

/-- The counter saturates, its bit of CNT_SAT falls on the PC, and the LOGF retires one instruction too far. -/
theorem strayLogf_pc : strayLogf.pc 0 = 0 ∧ (doLogf 0 strayLogf.toDev (strayLogf.insAt 0) strayIndex).pc 0 = 2 := by
  decide +kernel

/-- Refutes O19: the statement asks of every site index a site table may list that LOGF advances PC by one, and in
`strayLogf` the index is so large that the site's saturation bit stands in the card of PC. -/
theorem not_logfCountsAndLogs : ¬ Obligations.LogfCountsAndLogs := by
  unfold Obligations.LogfCountsAndLogs
  intro h
  obtain ⟨-, hstep⟩ := h 0 cleanFetch strayLogf _ strayIndex rfl strayLogf_site (by decide) strayLogf_runs (by decide)
  obtain ⟨t, ht, hretires, -⟩ := hstep fullStep (by decide) rfl rfl
  obtain ⟨hbefore, hafter⟩ := strayLogf_pc
  have heq : t = doLogf 0 strayLogf.toDev (strayLogf.insAt 0) strayIndex := by
    have hrun := Dev.instrSite_run (body := doLogf 0) strayLogf_runs.toRuns strayLogf_site
    rw [← hrun]
    injection ht with ht
    exact (congrArg State.toDev ht).symm
  have hpc : t.pc 0 = strayLogf.pc 0 + 1 := hretires.pc
  rw [heq, hbefore, hafter] at hpc
  omega

/-! ### O20 -/

/-- The line an instruction names in order (R85). -/
theorem lineArg_of_named {s : Dev} {i : Nat} {x : Ins} {l : Line} (h : (x.flag 0 = false ∧ l = .global x.a) ∨
    (x.flag 0 = true ∧ x.b < s.npin i ∧ ∃ p, s.pin? i x.b = some p ∧ l = .loc (p / 4) (x.a % 16))) :
    s.lineArg i x = some l ∧ (x.flag 0 && s.npin i ≤ x.b) = false := by
  rcases h with ⟨hfl, rfl⟩ | ⟨hfl, hb, p, hp, rfl⟩
  · simp [Dev.lineArg, hfl]
  · simp [Dev.lineArg, hfl, hp, hb]

/-- An engine written, and nothing else. -/
theorem Dev.onEng_only (s : Dev) (e : Nat) (g : Eng → Eng) :
    (s.onEng e g).eng e = g (s.eng e) ∧ (∀ k, k ≠ e → (s.onEng e g).eng k = s.eng k) ∧
      { s.onEng e g with engs := s.engs } = s :=
  ⟨Dev.eng_setEng_self _ _ _, fun _ hk => Dev.eng_setEng_of_ne _ hk _, rfl⟩

/-- Settles O20: EMIT stages, and WAITE arms its line with or without Y. -/
theorem emitAndWaiteUseLines : Obligations.EmitAndWaiteUseLines := by
  unfold Obligations.EmitAndWaiteUseLines
  rintro e f s x i l rfl hi hp hl
  obtain ⟨harg, hpin⟩ := lineArg_of_named hl
  refine ⟨fun h hs => instrSite_reaches h.toRuns hi ?emit, fun h hu => instrSite_reaches h.toRuns hi ?waite⟩
  case emit =>
    rw [doEmit, harg]
    exact Dev.stageIns_stages s.toDev _ hp h.mbz hpin rfl hs
  case waite =>
    rw [doWaite, harg]
    dsimp only
    rw [Dev.check_ok (by simp [h.mbz, hpin]), if_neg (by simp [hu])]
    cases hy : (s.insAt e).flag 1 with
    | true =>
      rw [if_pos rfl]
      obtain ⟨heng, hothers, hrest⟩ := Dev.onEng_only s.toDev e (fun g =>
        { (g.chunk 1) with wait := some l, waitY := true, arrived := false, wrem := BitVec.ofNat 24 ((s.insAt e).im 23 0) })
      have hlt : (s.insAt e).im 23 0 < 2 ^ 24 := Nat.mod_lt _ (by decide)
      refine ⟨by rw [heng], by rw [heng], by rw [heng], by rw [heng]; rfl, fun _ => ?_, ?_, hothers, hrest⟩
      · rw [heng]
        simpa using hlt
      · exact Dev.executing_of_yielded (n := 1) (by rw [heng]; rfl)
    | false =>
      rw [if_neg Bool.false_ne_true]
      obtain ⟨heng, hothers, hrest⟩ := Dev.onEng_only s.toDev e (fun g =>
        { g with wait := some l, waitY := false, arrived := false, phase := .waiting })
      refine ⟨by rw [heng], by rw [heng], by rw [heng], by rw [heng]; rfl, fun h => absurd h Bool.false_ne_true, ?_,
        hothers, hrest⟩
      simp [Dev.executing, heng, h.mid]

end Sys2Proof.Machine
end

section
/-! PROOFS. Traps of the engines (R80, R81, R85, R87, R88, R115): O21. -/

namespace Sys2Proof.Machine

/-! ### A trap -/

/-- A trap with ILL_OP raises the fault and stops the engine, with PC and the staging queue as they were (R87, R88). -/
theorem Dev.trap_illOp (s : Dev) (e : Nat) :
    let t := s.trap e srcIllOp
    t.sticky srcIllOp = true ∧ t.executing e = false ∧ t.pc e = s.pc e ∧ t.stage.eng = s.stage.eng := by
  intro t
  obtain ⟨hnow, -, hrest⟩ := s.raise_raised (raiseAt srcIllOp 2 (s.engAim e)) ⟨by simp [raiseAt, srcIllOp], by simp [raiseAt, srcIllOp]⟩
  refine ⟨hnow, ?_, Dev.pc_congr (hrest.cards _ ?_ ?_ ?_), hrest.staged⟩
  · simp only [t, Dev.trap, Dev.executing, Dev.onEng, Dev.eng_setEng_self]
    split
    · simp [Eng.abandon]
    · simp [*]
  all_goals unfold aEng; omega

/-- What the statement asks of a command that traps. -/
def State.IllOp (s : State) (e : Nat) (c : Instr) : Prop :=
  ∃ t : Dev, exec c s = .next { s with toDev := t } ∧ t.sticky srcIllOp = true ∧ t.executing e = false ∧
    t.pc e = s.pc e ∧ t.stage.eng = s.stage.eng

section
variable {s : State} {e : Nat} {f : Fetch} {o : Nat} {c : Instr}

theorem State.illOp_of_op (h : s.Runs e f o) {body : Dev → Ins → Dev}
    (hc : exec c s = s.run (fun s => s.instrOp e f o body)) (hb : body s.toDev (s.insAt e) = s.trap e srcIllOp) :
    s.IllOp e c := by
  unfold State.IllOp
  rw [hc]
  exact instrOp_reaches h (hb ▸ Dev.trap_illOp s.toDev e)

theorem State.illOp_of_site (h : s.Runs e f o) {i : Nat} (hi : s.siteOf e = some i) {body : Dev → Ins → Nat → Dev}
    (hc : exec c s = s.run (fun s => s.instrSite e f o body)) (hb : body s.toDev (s.insAt e) i = s.trap e srcIllOp) :
    s.IllOp e c := by
  unfold State.IllOp
  rw [hc]
  exact instrSite_reaches h hi (hb ▸ Dev.trap_illOp s.toDev e)

theorem State.illOp_of_cut (h : s.Runs e f o) {i : Nat} (hi : s.siteOf e = some i) {body : Option Nat → Dev → Ins → Nat → Dev}
    (hc : exec c s = s.run (fun s => s.instrCut e f o body)) (hb : body none s.toDev (s.insAt e) i = s.trap e srcIllOp) :
    s.IllOp e c := by
  unfold State.IllOp
  rw [hc]
  exact instrCut_reaches h hi (hb ▸ Dev.trap_illOp s.toDev e)

end

/-! ### Bad fields -/

/-- A field that must be 0 and is not is the first condition of a check (R85, R87). -/
theorem Dev.check_ill {s ok : Dev} {e : Nat} {b : Bool} {l : List (Bool × Nat)} (h : b = true) :
    s.check e ((b, srcIllOp) :: l) ok = s.trap e srcIllOp := by
  subst h
  exact Dev.check_bad

theorem aluBad_of_mbz {x : Ins} (hm : x.mbz = true) (wr : Bool) : aluBad x wr = true := by simp [aluBad, hm]

theorem aluBad_of_unwritable {x : Ins} (ha : 37 ≤ x.a) : aluBad x true = true := by
  have hrw : regRw x.a = false := by simpa [regRw] using ha
  simp [aluBad, hrw]

theorem doMovi_ill {b : Bool} {e : Nat} {s : Dev} {x : Ins} (hm : x.mbz = true) : doMovi b e s x = s.trap e srcIllOp := by
  unfold doMovi
  dsimp only
  split <;> exact Dev.check_ill (by simp [hm])

theorem doBrc_ill {e : Nat} {s : Dev} {x : Ins} (hm : x.mbz = true) : doBrc e s x = s.trap e srcIllOp := by
  unfold doBrc
  split
  · rfl
  · exact Dev.check_ill hm

theorem doSegjmp_ill {e : Nat} {s : Dev} {x : Ins} (hm : x.mbz = true) : doSegjmp e s x = s.trap e srcIllOp := by
  unfold doSegjmp
  split
  · rfl
  · split <;> exact Dev.check_ill hm

theorem doEmit_ill {e : Nat} {s : Dev} {x : Ins} {i : Nat} (hm : x.mbz = true) : doEmit e s x i = s.trap e srcIllOp := by
  unfold doEmit
  split <;> exact Dev.check_ill hm

theorem doWaite_ill {e : Nat} {s : Dev} {x : Ins} {i : Nat} (hm : x.mbz = true) : doWaite e s x i = s.trap e srcIllOp := by
  unfold doWaite
  split <;> exact Dev.check_ill hm

theorem doHalt_ill {e : Nat} {s : Dev} {x : Ins} {i : Nat} (hm : x.mbz = true) (hu : (s.eng e).uchunk = 0) :
    doHalt e none s x i = s.trap e srcIllOp := by
  simp [doHalt, hm, hu, issues]

theorem doStep_ill {e : Nat} {s : Dev} {x : Ins} {i : Nat} (hm : x.mbz = true) (hu : (s.eng e).uchunk = 0) :
    doStep e none s x i = s.trap e srcIllOp := by
  simp [doStep, hm, hu, issues]

/-! ### Past the last instruction -/

/-- An instruction at address 32,767 retires to PC 0 and raises ILL_OP after its effect (R80). -/
theorem Dev.retire_last {s : Dev} {e : Nat} (hp : s.pc e = 32767) :
    let t := s.retire e
    t.sticky srcIllOp = true ∧ t.executing e = false ∧ t.pc e = 0 := by
  intro t
  have ht : t = (s.jumpTo e 32768).trap e srcIllOp := by
    simp only [t, Dev.retire, hp, if_true]
  obtain ⟨hnow, hexec, hpc, -⟩ := Dev.trap_illOp (s.jumpTo e 32768) e
  rw [ht]
  exact ⟨hnow, hexec, by rw [hpc, Dev.jumpTo, Dev.pc_setPc]⟩

theorem Dev.pc_setReg_putFlags (s : Dev) {e d : Nat} (v : W) (fs : FlagSet) (he : e < 272) (hd : d < 37) :
    ((s.setReg e d v).putFlags e fs).pc e = s.pc e := by
  refine Dev.pc_congr ?_
  rw [Dev.putFlags, Dev.rd_wr_of_ne _ (aEng_ne (by omega)), Dev.setReg_cards s v he hd _ (Dev.not_mem_regCards he hd (.inl rfl))]

theorem doAlu_last {op : W → W → AluOut} {s : Dev} {e : Nat} {x : Ins} (he : e < 272) (hm : x.mbz = false)
    (ha : x.a < 37) (hb : x.flag 0 = true ∨ x.b < 46) (hp : s.pc e = 32767) :
    let t := doAlu op e s x
    t.sticky srcIllOp = true ∧ t.executing e = false ∧ t.pc e = 0 := by
  have hbad : aluBad x true = false := aluBad_of_ok hm (by simpa using ha) hb
  rw [doAlu, Dev.check_ok (by simp [hbad])]
  exact Dev.retire_last ((Dev.pc_setReg_putFlags s _ _ he ha).trans hp)

/-! ### O21 -/

/-- The commands that write A and its flags, with their opcodes (R85). -/
def aluInstrs (e : Fin 272) (f : Fetch) : List (Instr × Nat) :=
  [(.add e f, 0x11), (.sub e f, 0x12), (.and e f, 0x13), (.or e f, 0x14), (.xor e f, 0x15), (.shl e f, 0x16), (.shr e f, 0x17)]

/-- Each of them runs `doAlu`. -/
theorem exec_aluInstrs {e : Fin 272} {f : Fetch} {c : Instr} {o : Nat} (h : (c, o) ∈ aluInstrs e f) :
    ∃ op : Ins → W → W → AluOut, ∀ s : State,
      exec c s = s.run (fun s => s.instrOp e f o (fun s x => doAlu (op x) e s x)) := by
  simp only [aluInstrs, List.mem_cons, List.not_mem_nil, or_false] at h
  rcases h with ⟨rfl, rfl⟩ | ⟨rfl, rfl⟩ | ⟨rfl, rfl⟩ | ⟨rfl, rfl⟩ | ⟨rfl, rfl⟩ | ⟨rfl, rfl⟩ | ⟨rfl, rfl⟩
  · exact ⟨fun _ => aluAdd, fun _ => rfl⟩
  · exact ⟨fun _ => aluSub, fun _ => rfl⟩
  · exact ⟨fun _ a b => aluLogic (a &&& b), fun _ => rfl⟩
  · exact ⟨fun _ a b => aluLogic (a ||| b), fun _ => rfl⟩
  · exact ⟨fun _ a b => aluLogic (a ^^^ b), fun _ => rfl⟩
  · exact ⟨fun _ => aluShl, fun _ => rfl⟩
  · exact ⟨fun x => aluShr (x.flag 1), fun _ => rfl⟩

/-- Settles O21, by what each body does with a bad field (`Dev.trap_illOp`). -/
theorem illegalInstructionsRaiseIllOp : Obligations.IllegalInstructionsRaiseIllOp := by
  unfold Obligations.IllegalInstructionsRaiseIllOp
  intro e f s Ill alu
  refine ⟨fun o h ho => ?undefined, fun c o hmem h hm => ?op, fun k c o i hmem h hi hu hm => ?site,
    fun c o hmem h ha => ?unwritable, fun c o hmem h ha hb hp => ?last⟩
  case undefined =>
    have hrun : s.instr e f (fun n => (formatOf n).isNone) (fun n s _ => if issues n 1 then s.trap e srcIllOp else s) =
        s.trap e srcIllOp := by
      rw [Dev.instr_run h (by simp [ho])]
      rfl
    exact ⟨_, rfl, by dsimp only; rw [hrun]; exact Dev.trap_illOp s.toDev e⟩
  case op =>
    rcases List.mem_append.mp hmem with hmem | hmem
    · obtain ⟨op, hexec⟩ := exec_aluInstrs hmem
      exact State.illOp_of_op h (hexec s) (Dev.check_ill (aluBad_of_mbz hm _))
    · simp only [List.mem_cons, List.not_mem_nil, or_false] at hmem
      rcases hmem with ⟨rfl, rfl⟩ | ⟨rfl, rfl⟩ | ⟨rfl, rfl⟩ | ⟨rfl, rfl⟩ | ⟨rfl, rfl⟩ | ⟨rfl, rfl⟩ | ⟨rfl, rfl⟩ | ⟨rfl, rfl⟩ |
        ⟨rfl, rfl⟩ | ⟨rfl, rfl⟩ | ⟨rfl, rfl⟩
      · exact State.illOp_of_op h rfl (Dev.check_ill hm)
      · exact State.illOp_of_op h rfl (doBrc_ill hm)
      · exact State.illOp_of_op h rfl (Dev.check_ill hm)
      · exact State.illOp_of_op h rfl (Dev.check_ill hm)
      · exact State.illOp_of_op h rfl (Dev.check_ill (by simp [hm]))
      · exact State.illOp_of_op h rfl (Dev.check_ill hm)
      · exact State.illOp_of_op h rfl (doMovi_ill hm)
      · exact State.illOp_of_op h rfl (Dev.check_ill (aluBad_of_mbz hm _))
      · exact State.illOp_of_op h rfl (Dev.check_ill (aluBad_of_mbz hm _))
      · exact State.illOp_of_op h rfl (doSegjmp_ill hm)
      · exact State.illOp_of_op h rfl (Dev.check_ill hm)
  case site =>
    simp only [List.mem_cons, List.not_mem_nil, or_false] at hmem
    rcases hmem with ⟨rfl, rfl⟩ | ⟨rfl, rfl⟩ | ⟨rfl, rfl⟩ | ⟨rfl, rfl⟩ | ⟨rfl, rfl⟩ | ⟨rfl, rfl⟩ | ⟨rfl, rfl⟩ | ⟨rfl, rfl⟩ |
      ⟨rfl, rfl⟩ | ⟨rfl, rfl⟩ | ⟨rfl, rfl⟩ | ⟨rfl, rfl⟩ | ⟨rfl, rfl⟩ | ⟨rfl, rfl⟩ | ⟨rfl, rfl⟩ | ⟨rfl, rfl⟩ | ⟨rfl, rfl⟩ |
      ⟨rfl, rfl⟩ | ⟨rfl, rfl⟩ | ⟨rfl, rfl⟩ | ⟨rfl, rfl⟩
    · exact State.illOp_of_cut h hi rfl (doHalt_ill hm hu)
    · exact State.illOp_of_site h hi rfl (Dev.check_ill hm)
    · exact State.illOp_of_site h hi rfl (Dev.check_ill hm)
    · exact State.illOp_of_site h hi rfl (Dev.check_ill hm)
    · exact State.illOp_of_site h hi rfl (Dev.check_ill hm)
    · exact State.illOp_of_site h hi rfl (Dev.check_ill (by simp [hm]))
    · exact State.illOp_of_site h hi rfl (Dev.check_ill (by simp [hm]))
    · exact State.illOp_of_site h hi rfl (Dev.check_ill (by simp [hm]))
    · exact State.illOp_of_site h hi rfl (Dev.check_ill (by simp [hm]))
    · exact State.illOp_of_site h hi rfl (Dev.check_ill (by simp [hm]))
    · exact State.illOp_of_site h hi rfl (Dev.check_ill (by simp [hm]))
    · exact State.illOp_of_site h hi rfl (Dev.check_ill (by simp [hm]))
    · exact State.illOp_of_site h hi rfl (Dev.check_ill hm)
    · exact State.illOp_of_site h hi rfl (Dev.check_ill (by simp [hm]))
    · exact State.illOp_of_site h hi rfl (Dev.check_ill (by simp [hm]))
    · exact State.illOp_of_cut h hi rfl (doStep_ill hm hu)
    · exact State.illOp_of_site h hi rfl (Dev.check_ill (by simp [hm]))
    · exact State.illOp_of_site h hi rfl (Dev.check_ill hm)
    · exact State.illOp_of_site h hi rfl (Dev.check_ill hm)
    · exact State.illOp_of_site h hi rfl (doEmit_ill hm)
    · exact State.illOp_of_site h hi rfl (doWaite_ill hm)
  case unwritable =>
    obtain ⟨op, hexec⟩ := exec_aluInstrs hmem
    exact State.illOp_of_op h.toRuns (hexec s) (Dev.check_ill (aluBad_of_unwritable ha))
  case last =>
    obtain ⟨op, hexec⟩ := exec_aluInstrs hmem
    rw [hexec]
    exact instrOp_reaches h.toRuns (doAlu_last e.isLt h.mbz ha hb hp)

end Sys2Proof.Machine
end

section
/-! PROOFS. Reset, boot and the supplies (R53, R373-R378, R400): O22 to O26. -/

namespace Sys2Proof.Machine

/-- A meaning that reaches a device. -/
theorem State.run_to {s : State} {f : Dev → Dev} {t : Dev} (h : f s.toDev = t) : s.run f = .next { s with toDev := t } :=
  h ▸ rfl

/-! ### ALIVE under a note -/

theorem Dev.setFld_flt (s : Dev) (a hi lo x : Nat) : (s.setFld a hi lo x).flt = s.flt := rfl

theorem Dev.incSat_flt (s : Dev) (a hi lo : Nat) : (s.incSat a hi lo).flt = s.flt := rfl

theorem Dev.level_countOcc (s : Dev) (x l e : Nat) (o : OccNow) (rs : List (Nat × List Nat)) :
    (s.countOcc x l e o rs).flt.level = s.flt.level := by
  unfold Dev.countOcc
  extract_lets s1 s2 k s3
  have h1 : s1.flt = s.flt :=
    forL_keeps (I := fun t : Dev => t.flt = s.flt) (fun f _ t h => (t.setFld_flt _ _ _ _).trans h) rfl
  have h2 : s2.flt = s.flt := by
    unfold s2
    split
    · rw [Dev.incSat_flt, h1]
    · exact h1
  have h3 : s3.flt.level = s.flt.level := by
    rw [← h2]
  clear_value s3
  split
  · exact h3
  · split
    · rw [Dev.incSat_flt, h3]
    · exact h3

/-- A NOTE raise leaves the level of ALIVE alone. -/
theorem Dev.level_note (s : Dev) (f : Nat) : (s.note f).flt.level = s.flt.level := by
  unfold Dev.note
  split
  · exact Dev.level_countOcc _ _ _ _ _ _
  · rfl

/-! ### A word of NV under way at a reset -/

/-- What a cut NV write leaves of the device: its memory and wear, and what a note writes. -/
structure Dev.CutFrame (s t : Dev) : Prop where
  cause : t.rd 0x900 = s.rd 0x900
  level : t.flt.level = s.flt.level
  sys   : t.sys = s.sys
  tap   : t.jtag = s.jtag ∧ t.tdo = s.tdo

theorem Dev.nvStored_only (s : Dev) (o : Nat) (v : W) : ∃ m n, s.nvStored o v = { s with mem := m, nv := n } := by
  simp only [Dev.nvStored, Dev.setWord, Dev.setByte]
  exact ⟨_, _, rfl⟩

theorem Dev.cutFrame_nvPut (s : Dev) (o : Nat) (v : W) : s.CutFrame (s.nvPut o v) := by
  obtain ⟨m, n, hstored⟩ := s.nvStored_only o v
  rw [Dev.nvPut_eq, hstored]
  generalize hd : ({ s with mem := m, nv := n } : Dev) = d
  have hcause : d.rd 0x900 = s.rd 0x900 := by rw [← hd]; rfl
  have hlevel : d.flt.level = s.flt.level := by rw [← hd]
  have hsys : d.sys = s.sys := by rw [← hd]
  have htap : d.jtag = s.jtag ∧ d.tdo = s.tdo := by rw [← hd]; exact ⟨rfl, rfl⟩
  split
  · have h := (Upset.note d (f := 291) (by decide)).rest
    obtain ⟨r, f, hnote⟩ := d.noteFrame_note 291
    exact ⟨(h.cards 0x900 (by decide) (by decide) (by decide)).trans hcause, (Dev.level_note _ _).trans hlevel,
      by rw [hnote, ← hsys], by rw [hnote]; exact htap⟩
  · exact ⟨hcause, hlevel, hsys, htap⟩

theorem Dev.cutFrame_nvCut (s : Dev) : s.CutFrame s.nvCut := by
  unfold Dev.nvCut
  split
  · dsimp only
    split
    · obtain ⟨cause, level, sys, tap⟩ := s.draw.2.cutFrame_nvPut _ _
      exact ⟨cause, level, sys, tap⟩
    · exact ⟨rfl, rfl, rfl, rfl, rfl⟩
  · exact ⟨rfl, rfl, rfl, rfl, rfl⟩

/-! ### O22 -/

/-- What a reset leaves (R373, R374), whatever its cause. -/
structure Dev.Reset (s t : Dev) : Prop where
  cards : ∀ a, a ≠ 0x900 → t.rd a = resetWord a
  bytes : ∀ a, (∀ o, locOf a ≠ .nvr o) → t.byte a = memByte a
  nvr   : s.nvUnderWay = none → ∀ a o, locOf a = .nvr o → t.byte a = s.byte a

theorem Dev.enterReset_reset (s : Dev) (cause : Nat) : s.Reset (s.enterReset cause) where
  cards := fun _ ha => Dev.rd_enterReset_of_ne s cause ha
  bytes := fun a ha => by
    refine Tab.get_filter_of_drop memByte (fun v => ?_) s.nvCut.mem
    cases hloc : locOf a with
    | nvr o => exact absurd hloc (ha o)
    | _ => rfl
  nvr := fun hn _ _ hloc => Dev.byte_enterReset hn cause hloc

/-- The lowest cause of one reset is recorded (R374). -/
theorem Dev.rd_enterReset (s : Dev) (cause : Nat) :
    (s.enterReset cause).rd 0x900 = wn (if s.sys.mode = .reset then min cause (s.rd 0x900).toNat else cause) := by
  have h := s.cutFrame_nvCut
  rw [Dev.enterReset, Dev.rd_wr_self, h.cause, h.sys]

theorem Dev.enterReset_tap (s : Dev) (cause : Nat) : (s.enterReset cause).jtag = s.jtag ∧
    (s.enterReset cause).tdo = s.tdo ∧ (s.enterReset cause).flt.level = s.flt.level := by
  obtain ⟨-, level, -, tap⟩ := s.cutFrame_nvCut
  exact ⟨tap.1, tap.2, level⟩

/-- The device with RESET_N driven low (R373). -/
def Dev.heldLow (s : Dev) : Dev :=
  { s.enterReset 1 with sys := { (s.enterReset 1).sys with resetLow := true } }

theorem exec_resetNLow {s : State} (h : s.sys.unpowered = false) :
    exec .resetNLow s = .next { s with toDev := s.heldLow } :=
  State.run_to (f := fun s => if s.sys.unpowered then s else s.heldLow) (if_neg (by simp [h]))

theorem exec_supplyReset {s : State} {r : Rail} (h : s.sys.unpowered = false) (hr : hasThreshold r = true) :
    exec (.supplyReset r) s = .next { s with toDev := s.enterReset 2 } :=
  State.run_to (f := fun s => if s.sys.unpowered || !hasThreshold r then s else s.enterReset 2) (if_neg (by simp [h, hr]))

/-- Settles O22: each of the four enters RESET (`Dev.enterReset_reset`) with its cause. -/
theorem resetCausesReset : Obligations.ResetCausesReset := by
  unfold Obligations.ResetCausesReset
  intro s Cleared
  have hreset := s.enterReset_reset
  refine ⟨fun hp => ⟨_, exec_resetNLow hp, ?low⟩, fun r hp hr => ⟨_, exec_supplyReset hp hr, ?supply⟩, ⟨_, rfl, ?on⟩, ⟨_, rfl, ?loss⟩, fun r hp => ?off⟩
  case low =>
    obtain ⟨jtag, tdo, level⟩ := s.enterReset_tap 1
    obtain ⟨cards, bytes, nvr⟩ := hreset 1
    exact ⟨⟨rfl, s.rd_enterReset 1, cards, bytes, nvr, fun _ => rfl, fun _ => rfl, fun _ => rfl, fun _ => rfl, rfl, rfl, rfl,
      rfl, rfl, rfl, rfl⟩, rfl, jtag, tdo, level⟩
  case supply =>
    obtain ⟨jtag, tdo, level⟩ := s.enterReset_tap 2
    obtain ⟨cards, bytes, nvr⟩ := hreset 2
    exact ⟨⟨rfl, s.rd_enterReset 2, cards, bytes, nvr, fun _ => rfl, fun _ => rfl, fun _ => rfl, fun _ => rfl, rfl, rfl, rfl,
      rfl, rfl, rfl, rfl⟩, jtag, tdo, level⟩
  case off =>
    exact ⟨State.run_idle (f := fun s => if s.sys.unpowered then s else s.heldLow) (if_pos hp),
      State.run_idle (f := fun s => if s.sys.unpowered || !hasThreshold r then s else s.enterReset 2) (if_pos (by simp [hp]))⟩
  case on =>
    obtain ⟨cards, bytes, nvr⟩ := hreset 0
    refine ⟨⟨rfl, (s.rd_enterReset 0).trans ?_, cards, bytes, nvr, fun _ => rfl, fun _ => rfl, fun _ => rfl, fun _ => rfl, rfl,
      rfl, rfl, rfl, rfl, rfl, rfl⟩, rfl, rfl, rfl, rfl⟩
    simp
  case loss =>
    obtain ⟨cards, bytes, nvr⟩ := hreset 0
    refine ⟨⟨rfl, (s.rd_enterReset 0).trans ?_, cards, bytes, nvr, fun _ => rfl, fun _ => rfl, fun _ => rfl, fun _ => rfl, rfl,
      rfl, rfl, rfl, rfl, rfl, rfl⟩, rfl, rfl, rfl⟩
    simp

/-! ### O23 -/

theorem mem_insAsc {x y : Nat} {l : List Nat} : y ∈ insAsc x l ↔ y = x ∨ y ∈ l := by
  induction l with
  | nil => simp [insAsc]
  | cons z r ih =>
    unfold insAsc
    split
    · simp
    · split
      next h => simp [h]
      next => simp only [List.mem_cons, ih]; tauto

/-- Asking for a domain asks for that one (R323). -/
theorem Dev.domAsked_domWait (s : Dev) (m n : Nat) : (s.domWait m).domAsked n = (decide (n = m) || s.domAsked n) := by
  unfold Dev.domWait
  split
  next h =>
    by_cases hn : n = m
    · simp [hn, h]
    · simp [hn]
  next h =>
    have hmem : (insAsc m s.pwr.fresh).contains n = (decide (n = m) || s.pwr.fresh.contains n) := by
      rw [Bool.eq_iff_iff]
      simp [mem_insAsc]
    simp only [Dev.domAsked, Dev.domOn, hmem, Bool.or_left_comm]

/-- Nothing but the power domains differs. -/
def Dev.PwrFrame (s t : Dev) : Prop := { t with pwr := s.pwr } = s

theorem Dev.PwrFrame.exists_pwr {s t : Dev} (h : s.PwrFrame t) : ∃ p, t = { s with pwr := p } := by
  refine ⟨t.pwr, ?_⟩
  unfold Dev.PwrFrame at h
  rw [← h]

theorem Dev.pwrFrame_domWait (s : Dev) (n : Nat) : s.PwrFrame (s.domWait n) := by
  unfold Dev.domWait
  split <;> rfl

theorem Dev.PwrFrame.trans {s t u : Dev} (h : s.PwrFrame t) (k : t.PwrFrame u) : s.PwrFrame u := by
  unfold Dev.PwrFrame at *
  rw [← h, ← k]

/-- Several domains asked for. -/
theorem Dev.domAsked_forL_domWait (g : Nat → Nat) (l : List Nat) (s : Dev) :
    s.PwrFrame (forL l (fun n t => t.domWait (g n)) s) ∧
      ∀ n, (forL l (fun n t => t.domWait (g n)) s).domAsked n = (l.any (fun m => n = g m) || s.domAsked n) := by
  induction l generalizing s with
  | nil => exact ⟨rfl, fun n => rfl⟩
  | cons m r ih =>
    obtain ⟨hframe, hasked⟩ := ih (s.domWait (g m))
    refine ⟨(s.pwrFrame_domWait _).trans hframe, fun n => (hasked n).trans ?_⟩
    rw [Dev.domAsked_domWait, List.any_cons, Bool.or_left_comm, Bool.or_assoc]

theorem Dev.domAsked_forN_domWait (b n : Nat) (s : Dev) :
    s.PwrFrame (forN n (fun m t => t.domWait (b + m)) s) ∧
      ∀ k, (forN n (fun m t => t.domWait (b + m)) s).domAsked k = (decide (b ≤ k ∧ k < b + n) || s.domAsked k) := by
  obtain ⟨hframe, hasked⟩ := Dev.domAsked_forL_domWait (b + ·) (List.range n) s
  refine ⟨hframe, fun k => (hasked k).trans ?_⟩
  congr 1
  rw [Bool.eq_iff_iff]
  simp only [List.any_eq_true, List.mem_range, decide_eq_true_eq]
  constructor
  · rintro ⟨m, hm, rfl⟩
    omega
  · intro h
    exact ⟨k - b, by omega, by omega⟩

theorem exec_bootStart_of_reset {s : State} (hm : s.sys.mode = .reset) (hp : s.sys.unpowered = false) (d : BitVec 5) (m r : Bool) :
    exec (.bootStart d m r) s = .next { s with toDev := forN 32 (fun n t => t.domWait (144 + n)) (s.leaveReset d m r) } :=
  State.run_to (f := fun s => s.bootStart d m r) (Dev.bootStart_of_reset hm hp d m r)

/-- Settles O23: BOOT_START leaves RESET and asks for its domains (`Dev.bootStart_of_reset`). -/
theorem bootStartSamplesStraps : Obligations.BootStartSamplesStraps := by
  unfold Obligations.BootStartSamplesStraps
  intro s devid master recov
  refine ⟨fun hm hp => ⟨_, exec_bootStart_of_reset hm hp devid master recov, ?_⟩,
    fun h => State.run_idle (f := fun s => s.bootStart devid master recov) (Dev.bootStart_of_elsewhere h devid master recov)⟩
  obtain ⟨hframe, hasked⟩ := Dev.domAsked_forN_domWait 144 32 (s.leaveReset devid master recov)
  generalize forN 32 (fun m t => t.domWait (144 + m)) (s.leaveReset devid master recov) = t at hframe hasked ⊢
  have hpwr : (s.leaveReset devid master recov).domAsked = s.domAsked := rfl
  rw [hpwr] at hasked
  obtain ⟨p, rfl⟩ := hframe.exists_pwr
  refine ⟨rfl, rfl, rfl, rfl, rfl, rfl, fun n h1 h2 => ?_, fun n hn => ?_, rfl, rfl, rfl, rfl, rfl, rfl⟩
  · rw [hasked, decide_eq_true (by omega)]
    rfl
  · rw [hasked, decide_eq_false (by omega)]
    rfl

/-! ### O25 -/

/-- The device as the link's coming up leaves it after the training (R378). -/
def Dev.bootLinked (s : Dev) (us : W) : Dev :=
  let m := if s.sys.mode = .boot then Mode.idle else s.sys.mode
  { s.wr 0x914 us with
    sys := { s.sys with boot := .done, mspi := true, mode := m }
    flt := { s.flt with running := decide (m ≠ Mode.safe) } }

theorem Dev.linkUp_of_training {s : Dev} (h : s.sys.boot = .training) (us : W) : s.linkUp us = s.bootLinked us :=
  if_neg (by simp [h])

theorem exec_linkUp_of_training {s : State} (h : s.sys.boot = .training) (us : W) :
    exec (.linkUp us) s = .next { s with toDev := s.bootLinked us } :=
  State.run_to (f := fun s => s.linkUp us) (Dev.linkUp_of_training h us)

/-- ALIVE runs where the mode that the link leaves is not SAFE. -/
theorem Dev.bootLinked_running (s : Dev) (us : W) : (s.bootLinked us).flt.running = true ↔ s.sys.mode ≠ .safe := by
  have hrun : (s.bootLinked us).flt.running = decide ((if s.sys.mode = .boot then Mode.idle else s.sys.mode) ≠ .safe) := rfl
  rw [hrun, decide_eq_true_iff]
  split
  next h => simp [h]
  next => rfl

/-- Settles O25: LINK_UP after the training gives `Dev.bootLinked`. -/
theorem linkUpEndsBoot : Obligations.LinkUpEndsBoot := by
  unfold Obligations.LinkUpEndsBoot
  intro s us
  refine ⟨fun h => ⟨_, exec_linkUp_of_training h us, rfl, rfl, s.bootLinked_running us, rfl, Dev.rd_wr_self _ _ _,
      (Dev.Cards.refl s.toDev _).wr (by simp) us, rfl⟩,
    fun h => State.run_idle (f := fun s => s.linkUp us) (if_pos h)⟩

end Sys2Proof.Machine
end

section
/-! PROOFS. An occurrence of a clean class, said once (R88, R291, R293, R297-R300): what it records, whom it voids,
what it repairs. -/

namespace Sys2Proof.Machine

/-! ### Voids -/

/-- A site that a void has reached (R88, R103). -/
def Site.voided (x : Site) (cause : Nat) : Site :=
  { x with voids := some (x.voids.getD 0 ||| cause), toVoidh := true, play := none, join := none }

theorem Site.voided_voided (x : Site) (cause : Nat) : (x.voided cause).voided cause = x.voided cause := by
  simp [Site.voided]

/-- An engine that a void has stopped, if it ran. -/
def Eng.halted (g : Eng) : Eng := if g.live then g.abandon else g

theorem Eng.abandon_abandon (g : Eng) : g.abandon.abandon = g.abandon := by
  have hu : (g.u.map UCtx.rest).map UCtx.rest = g.u.map UCtx.rest := by
    rw [Option.map_map]
    rfl
  simp only [Eng.abandon, hu]

theorem Eng.halted_halted (g : Eng) : g.halted.halted = g.halted := by
  unfold Eng.halted
  by_cases h : g.live
  · have hlive : g.abandon.live = true := h
    rw [if_pos h, if_pos hlive, Eng.abandon_abandon]
  · rw [if_neg h, if_neg h]

/-- The engine a void of a site stops: that of a mapped site. -/
def Dev.stops (s : Dev) (i e : Nat) : Bool := (s.site i).mapped && s.engOf i = e

theorem Dev.voidSite_site (s : Dev) (c i j : Nat) :
    (s.voidSite c i).site j = if j = i then (s.site i).voided c else s.site j := by
  have hset : (s.setSite i ((s.site i).voided c)).site j = if j = i then (s.site i).voided c else s.site j := by
    by_cases h : j = i
    · subst h
      rw [Dev.site_setSite_self, if_pos rfl]
    · rw [Dev.site_setSite_of_ne s h, if_neg h]
  rw [← hset]
  unfold Dev.voidSite
  dsimp only
  split <;> rfl

theorem Dev.voidSite_eng (s : Dev) (c i e : Nat) :
    (s.voidSite c i).eng e = if s.stops i e then (s.eng e).halted else s.eng e := by
  unfold Dev.voidSite Dev.stops
  dsimp only
  split
  next hm =>
    by_cases he : s.engOf i = e
    · subst he
      simp only [hm, decide_true, Bool.and_self, if_true]
      exact Dev.eng_setEng_self _ _ _
    · simp only [hm, he, decide_false, Bool.and_false, Bool.false_eq_true, if_false]
      exact Dev.eng_setEng_of_ne _ (Ne.symm he) _
  next hm => simp [hm]

/-- Nothing but sites and engines differs. -/
def Dev.VoidFrame (s t : Dev) : Prop := { t with sites := s.sites, engs := s.engs } = s

theorem Dev.VoidFrame.exists {s t : Dev} (h : s.VoidFrame t) : ∃ x y, t = { s with sites := x, engs := y } := by
  refine ⟨t.sites, t.engs, ?_⟩
  unfold Dev.VoidFrame at h
  rw [← h]

theorem Dev.voidFrame_voidSite (s : Dev) (c i : Nat) : s.VoidFrame (s.voidSite c i) := by
  unfold Dev.voidSite
  dsimp only
  split <;> rfl

theorem Dev.VoidFrame.trans {s t u : Dev} (h : s.VoidFrame t) (k : t.VoidFrame u) : s.VoidFrame u := by
  obtain ⟨_, _, rfl⟩ := h.exists
  obtain ⟨_, _, rfl⟩ := k.exists
  rfl

theorem Dev.voidFrame_voidSites (s : Dev) (c : Nat) (l : List Nat) : s.VoidFrame (s.voidSites c l) :=
  forL_keeps (I := s.VoidFrame) (fun i _ t h => h.trans (t.voidFrame_voidSite c i)) rfl

theorem Dev.voidSite_stops (s : Dev) (c i j e : Nat) : (s.voidSite c i).stops j e = s.stops j e := by
  have hmapped : ((s.voidSite c i).site j).mapped = (s.site j).mapped := by
    rw [Dev.voidSite_site]
    split
    next h => rw [h]; rfl
    next => rfl
  have heng : (s.voidSite c i).engOf j = s.engOf j := by
    obtain ⟨_, _, h⟩ := (s.voidFrame_voidSite c i).exists
    rw [h]
    rfl
  rw [Dev.stops, hmapped, heng, Dev.stops]

/-- What a void of several sites leaves of each site (R88, R298). -/
theorem Dev.voidSites_site (s : Dev) (c : Nat) (l : List Nat) (j : Nat) :
    (s.voidSites c l).site j = if j ∈ l then (s.site j).voided c else s.site j := by
  induction l generalizing s with
  | nil => simp [Dev.voidSites, forL]
  | cons i r ih =>
    have hstep : s.voidSites c (i :: r) = (s.voidSite c i).voidSites c r := rfl
    rw [hstep, ih, Dev.voidSite_site]
    by_cases hj : j = i
    · subst hj
      simp [Site.voided_voided]
    · simp [hj]

/-- What it leaves of each engine. -/
theorem Dev.voidSites_eng (s : Dev) (c : Nat) (l : List Nat) (e : Nat) :
    (s.voidSites c l).eng e = if l.any (s.stops · e) then (s.eng e).halted else s.eng e := by
  induction l generalizing s with
  | nil => simp [Dev.voidSites, forL]
  | cons i r ih =>
    have hstep : s.voidSites c (i :: r) = (s.voidSite c i).voidSites c r := rfl
    have hstops : (fun j => (s.voidSite c i).stops j e) = (s.stops · e) := funext (fun j => s.voidSite_stops c i j e)
    rw [hstep, ih, hstops, Dev.voidSite_eng, List.any_cons]
    cases s.stops i e <;> cases r.any (s.stops · e) <;> simp [Eng.halted_halted]

/-! ### The record of an occurrence -/

theorem Dev.noteFrame_recordOcc (s : Dev) (x l e : Nat) (rs : List (Nat × List Nat)) : s.NoteFrame (s.recordOcc x l e rs) := by
  refine Dev.NoteFrame.trans (Dev.noteFrame_forL (fun g t => ?_) _ s) (Dev.noteFrame_countOcc _ _ _ _ _ _)
  exact (t.noteFrame_markRaise g).trans (Dev.noteFrame_wr _ _ _)

/-- The occurrence that no raise of a tick has begun (R291). -/
def noOcc (x : Nat) : OccNow := { cls := x, lvl := 0, eff := 0, srcs := [] }

/-- In a clean class an occurrence takes its raised level (R291). -/
theorem Dev.Clean.judgeOcc {s : Dev} {x : Nat} (h : s.Clean x) (l : Nat) : s.occNow x = noOcc x ∧ s.judgeOcc x l = (l, l) := by
  have hnow : s.occNow x = noOcc x := by
    rw [Dev.occNow, h.alone]
    rfl
  refine ⟨hnow, ?_⟩
  rw [Dev.judgeOcc, hnow, h.acked]
  simp [noOcc, effLevel]

/-- Only the card of its class counts a clean occurrence (R301). -/
theorem Dev.countOcc_cards (s : Dev) (x l e : Nat) (rs : List (Nat × List Nat)) :
    s.Cards (s.countOcc x l e (noOcc x) rs) [aCls x] := by
  have h : s.Cards (s.incSat (aCls x) 15 0) [aCls x] := (Dev.Cards.refl s _).setFld (by simp) _ _ _
  simp only [Dev.countOcc, noOcc, List.map_nil, List.filter_nil, forL, List.foldl_nil, List.isEmpty_nil, if_true]
  generalize s.incSat (aCls x) 15 0 = d at h ⊢
  split
  · exact h.trans (Dev.Cards.of_regs rfl _)
  · split
    · exact Dev.Cards.setFld (h.trans (Dev.Cards.of_regs rfl _)) (by simp) _ _ _
    · exact h.trans (Dev.Cards.of_regs rfl _)

theorem Dev.Clean.recordOcc_eq {s : Dev} {x : Nat} (h : s.Clean x) (l e f : Nat) (a : List Nat) :
    s.recordOcc x l e [(f, a)] = (s.recordRaise e f).countOcc x l e (noOcc x) [(f, a)] := by
  rw [Dev.recordOcc, (h.judgeOcc 0).1]
  rfl

theorem Dev.recordRaise_cards (s : Dev) (e f : Nat) : s.Cards (s.recordRaise e f) [aSrc f] := by
  have h1 : s.Cards (s.setBits (aSrc f) 0x40000000) [aSrc f] := (Dev.Cards.refl s _).setBits (by simp) _
  have h2 : s.Cards (s.markRaise f) [aSrc f] := h1.setFld (by simp) _ _ _
  exact h2.setFld (by simp) _ _ _

/-- Only the cards of a source and of its class record a clean occurrence (R290, R301). -/
theorem Dev.Clean.recordOcc_cards {s : Dev} {x : Nat} (h : s.Clean x) (l e f : Nat) (a : List Nat) :
    s.Cards (s.recordOcc x l e [(f, a)]) [aSrc f, aCls x] := by
  rw [h.recordOcc_eq]
  exact ((s.recordRaise_cards e f).mono (by simp)).trans ((Dev.countOcc_cards _ x l e _).mono (by simp))

/-! ### One raise in a clean class -/

/-- A fold over the numbers below `n` in which one of them alone acts. -/
theorem forN_of_only {σ : Type} {f : Nat → σ → σ} {k n : Nat} (hk : k < n) (h : ∀ x, x ≠ k → ∀ t, f x t = t) (s : σ) :
    forN n f s = f k s := by
  have hsucc : ∀ m, forN (m + 1) f s = f m (forN m f s) := fun m => by
    simp [forN, List.range_succ]
  have hbelow : ∀ m, m ≤ k → forN m f s = s := fun m => by
    induction m with
    | zero => intro _; rfl
    | succ m ih =>
      intro hm
      rw [hsucc, ih (by omega), h m (by omega)]
  induction n with
  | zero => omega
  | succ n ih =>
    rw [hsucc]
    by_cases hn : k = n
    · rw [← hn, hbelow k (Nat.le_refl k)]
    · rw [h n (Ne.symm hn), ih (by omega)]

/-- A raise of a source that is enabled is one occurrence of its class (R291, R295). -/
theorem Dev.raise_eq_occur {s : Dev} {r : Raise} (hf : r.f < 384) (hen : (r.forced || s.srcEn r.f) = true) :
    s.raise r = s.occur (r.f / 32) [r] := by
  have hon : [r].filter (fun r => r.forced || s.srcEn r.f) = [r] := by simp [hen]
  have hoff : [r].filter (fun r => !(r.forced || s.srcEn r.f)) = [] :=
    List.filter_eq_nil_iff.mpr (fun q hq => by rw [List.mem_singleton.mp hq, hen]; exact Bool.false_ne_true)
  unfold Dev.raise Dev.raises
  dsimp only
  rw [hon, hoff, forN_of_only (k := r.f / 32) (by omega)]
  · simp [forL]
  · intro x hx t
    have hother : [r].filter (fun r => decide (r.f / 32 = x)) = [] := by simp [Ne.symm hx]
    rw [hother]
    rfl

/-- In a clean class it is recorded at its level and reacted to (R290, R291). -/
theorem Dev.raise_of_clean {s : Dev} {r : Raise} (hf : r.f < 384) (hen : (r.forced || s.srcEn r.f) = true)
    (hc : s.Clean (r.f / 32)) :
    s.raise r = (s.recordOcc (r.f / 32) r.lvl r.lvl [(r.f, r.sites)]).reacts (r.f / 32) r.lvl (noOcc (r.f / 32)) [r] := by
  obtain ⟨hnow, hjudge⟩ := hc.judgeOcc r.lvl
  have hmax : [r].foldl (fun m r => max m r.lvl) 0 = r.lvl := by simp
  rw [Dev.raise_eq_occur hf hen, Dev.occur, hmax, hjudge, hnow]
  rfl

/-- A source that cannot be masked is enabled (R295). -/
theorem Dev.srcEn_of_unmaskable {s : Dev} {f : Nat} (h : fltMaskable f = false) : s.srcEn f = true := by
  rw [Dev.srcEn, h]
  rfl

/-- At VOID a clean occurrence voids the sites of its aim (R88, R298). -/
theorem Dev.raise_of_void {s : Dev} {r : Raise} (hf : r.f < 384) (hen : (r.forced || s.srcEn r.f) = true)
    (hc : s.Clean (r.f / 32)) (hl : r.lvl = 2) :
    s.raise r = (s.recordOcc (r.f / 32) 2 2 [(r.f, r.sites)]).voidSites (causeBit r.f) r.sites := by
  rw [Dev.raise_of_clean hf hen hc, hl]
  simp [Dev.reacts, Dev.react, noOcc, forL, hl]

/-- At DEGRADE it asks for the repair of its unit (R299, R302). -/
theorem Dev.raise_of_degrade {s : Dev} {r : Raise} (hf : r.f < 384) (hen : s.srcEn r.f = true) (hc : s.Clean (r.f / 32))
    (hl : r.lvl = 1) (hforced : r.forced = false) :
    s.raise r = (s.recordOcc (r.f / 32) 1 1 [(r.f, r.sites)]).repair r.f r.unit := by
  rw [Dev.raise_of_clean hf (by simp [hen]) hc, hl]
  simp [Dev.reacts, Dev.react, noOcc, forL, hl, hforced]

/-- At SAFE level the device is in SAFE after it, but from RESET (R300). -/
theorem Dev.raise_safe {s : Dev} {r : Raise} (hf : r.f < 384) (hen : (r.forced || s.srcEn r.f) = true) (hl : 3 ≤ r.lvl)
    (hm : s.sys.mode ≠ .reset) : (s.raise r).sys.mode = .safe := by
  rw [Dev.raise_eq_occur hf hen]
  exact Dev.occur_safe s _ [r] hm ⟨r, by simp, hl⟩ (by omega) (by simpa using hf)

/-! ### An occurrence at VOID -/

theorem Dev.NoteFrame.site {s t : Dev} (h : s.NoteFrame t) (i : Nat) : t.site i = s.site i := by
  obtain ⟨_, _, rfl⟩ := h
  rfl

theorem Dev.NoteFrame.eng {s t : Dev} (h : s.NoteFrame t) (e : Nat) : t.eng e = s.eng e := by
  obtain ⟨_, _, rfl⟩ := h
  rfl

theorem Dev.NoteFrame.sys {s t : Dev} (h : s.NoteFrame t) : t.sys = s.sys := by
  obtain ⟨_, _, rfl⟩ := h
  rfl

/-- A clean occurrence at VOID: its sites go to their handlers, others stand, and the mode is kept (R88, R103, R298). -/
theorem Dev.raise_voids {s : Dev} {r : Raise} (hf : r.f < 384) (hen : (r.forced || s.srcEn r.f) = true)
    (hc : s.Clean (r.f / 32)) (hl : r.lvl = 2) : s.Voids (s.raise r) (causeBit r.f) r.sites := by
  have hnote := s.noteFrame_recordOcc (r.f / 32) 2 2 [(r.f, r.sites)]
  have hvoid := Dev.voidFrame_voidSites (s.recordOcc (r.f / 32) 2 2 [(r.f, r.sites)]) (causeBit r.f) r.sites
  rw [Dev.raise_of_void hf hen hc hl]
  refine ⟨?_, fun i hi => ?_, fun i hi => ?_⟩
  · obtain ⟨_, _, h⟩ := hvoid.exists
    rw [h]
    exact congrArg Sys.mode hnote.sys
  · rw [Dev.voidSites_site, if_pos hi, hnote.site]
    exact ⟨rfl, rfl⟩
  · rw [Dev.voidSites_site, if_neg hi, hnote.site]

end Sys2Proof.Machine
end

section
/-! PROOFS. What no raise touches, whatever it leads to (R290-R303): LIVE, the supplies' notes and the stage of boot,
the NV slots in force,
the scrubber's place and the poisoned words, and, short of SAFE, the units that SAFE entry stops. -/

namespace Sys2Proof.Machine

/-- The units that SAFE entry stops, and no other reaction touches. -/
structure Units where
  circs : Tab Circ
  plys : Tab Ply
  acqs : Tab Acq
  tdcs : Tab Tdc
  slc : Slc
  cmps : List Cmp

def Dev.units (s : Dev) : Units := ⟨s.circs, s.plys, s.acqs, s.tdcs, s.slc, s.cmps⟩

/-- SAFE entry has stopped them (R67). -/
structure Dev.Stopped (t : Dev) : Prop where
  mode : t.sys.mode = .safe
  circs : ∃ c, t.circs = Tab.upd circInit circStop c
  plys : ∃ y, t.plys = Tab.upd plyInit plyStop y
  acqs : ∃ a, t.acqs = Tab.upd acqInit (fun a => { a with st := AcqState.idle }) a
  tdcs : ∃ d, t.tdcs = Tab.upd tdcInit (fun a => { a with st := TdcState.closed, pend := [] }) d
  sluice : t.slc.flights = [] ∧ t.slc.coming = []
  cmps : t.cmps = []

/-- What a raise keeps besides what `Dev.FaultFrame` names: bit 31 of every card but the STRESS arm, the parts of `sys`
that SAFE entry leaves alone, the NV slots in force, the scrubber's place and the poisoned words, and, unless SAFE is entered, the units that it stops. -/
structure Dev.Steady (s t : Dev) : Prop where
  live : ∀ a, a ≠ 0x114 → t.bit a 31 = s.bit a 31
  sys  : ∃ m r a d, t.sys = { s.sys with mode := m, req := r, asked := a, safeDue := d }
  slot : t.nv.slot = s.nv.slot
  scrub : t.cis.scrub = s.cis.scrub
  poison : t.cis.poison = s.cis.poison
  stop : (t.units = s.units ∧ t.sys.mode = s.sys.mode) ∨ t.Stopped

theorem Dev.Stopped.of_units {t u : Dev} (h : t.Stopped) (hu : u.units = t.units) (hm : u.sys.mode = t.sys.mode) : u.Stopped := by
  have hcircs : u.circs = t.circs := congrArg Units.circs hu
  have hplys : u.plys = t.plys := congrArg Units.plys hu
  have hacqs : u.acqs = t.acqs := congrArg Units.acqs hu
  have htdcs : u.tdcs = t.tdcs := congrArg Units.tdcs hu
  have hslc : u.slc = t.slc := congrArg Units.slc hu
  have hcmps : u.cmps = t.cmps := congrArg Units.cmps hu
  exact ⟨hm.trans h.mode, hcircs ▸ h.circs, hplys ▸ h.plys, hacqs ▸ h.acqs, htdcs ▸ h.tdcs, hslc ▸ h.sluice,
    hcmps.trans h.cmps⟩

/-- The mode and the units as SAFE entry leaves them (R67, R68). -/
def Dev.safeStopped (s : Dev) : Dev :=
  { s with
    sys := { s.sys with mode := .safe, req := none, asked := [], safeDue := true }
    engs := s.engs.upd engOff (fun g => if g.st = .running then g.endIns else g)
    plys := s.plys.upd plyInit plyStop
    cmps := []
    circs := s.circs.upd circInit circStop
    quads := s.quads.upd quadInit (fun q => { q with pendOn := [], ticket := 0, cal := false })
    acqs := s.acqs.upd acqInit (fun a => { a with st := AcqState.idle })
    tdcs := s.tdcs.upd tdcInit (fun a => { a with st := TdcState.closed, pend := [] })
    slc := { s.slc with flights := [], coming := [] }
    flt := { s.flt with running := false } }

namespace Dev.Steady

theorem refl (s : Dev) : s.Steady s := ⟨fun _ _ => rfl, ⟨_, _, _, _, rfl⟩, rfl, rfl, rfl, .inl ⟨rfl, rfl⟩⟩

theorem trans {s t u : Dev} (a : s.Steady t) (b : t.Steady u) : s.Steady u := by
  refine ⟨fun x hx => (b.live x hx).trans (a.live x hx), ?_, b.slot.trans a.slot, b.scrub.trans a.scrub,
    b.poison.trans a.poison, ?_⟩
  · obtain ⟨m, r, w, d, ha⟩ := a.sys
    obtain ⟨m', r', w', d', hb⟩ := b.sys
    exact ⟨m', r', w', d', by rw [hb, ha]⟩
  · rcases b.stop with ⟨hu, hm⟩ | hb
    · rcases a.stop with ⟨ku, km⟩ | ha
      · exact .inl ⟨hu.trans ku, hm.trans km⟩
      · exact .inr (ha.of_units hu hm)
    · exact .inr hb

/-- A change that touches no card. -/
theorem upd {s t : Dev} (hr : t.regs = s.regs) (hs : t.sys = s.sys) (hn : t.nv.slot = s.nv.slot)
    (hu : t.units = s.units) (hc : t.cis.scrub = s.cis.scrub := by rfl)
    (hp : t.cis.poison = s.cis.poison := by rfl) : s.Steady t :=
  ⟨fun a _ => Dev.bit_congr (by unfold Dev.rd; rw [hr]) 31, ⟨_, _, _, _, hs⟩, hn, hc, hp, .inl ⟨hu, congrArg Sys.mode hs⟩⟩

/-- A card written with its bit 31 kept. -/
theorem wr (s : Dev) {a : Nat} {v : W} (h : v.bit 31 = (s.rd a).bit 31) : s.Steady (s.wr a v) := by
  refine ⟨fun x _ => ?_, ⟨_, _, _, _, rfl⟩, rfl, rfl, rfl, .inl ⟨rfl, rfl⟩⟩
  by_cases hx : x = a
  · subst hx
    rw [Dev.bit, Dev.rd_wr_self, h]
    rfl
  · exact Dev.bit_congr (Dev.rd_wr_of_ne _ hx _) 31

theorem setFld (s : Dev) (a : Nat) {hi lo : Nat} (x : Nat) (hl : lo ≤ hi) (hh : hi < 31) : s.Steady (s.setFld a hi lo x) :=
  wr s (W.bit_put_of_gt _ hl (by omega) hh x)

theorem incSat (s : Dev) (a : Nat) {hi lo : Nat} (hl : lo ≤ hi) (hh : hi < 31) : s.Steady (s.incSat a hi lo) :=
  setFld s a _ hl hh

theorem setBits (s : Dev) (a : Nat) {m : W} (hm : m.bit 31 = false) : s.Steady (s.setBits a m) :=
  wr s (by rw [W.bit_or, hm, Bool.or_false])

theorem forL {α : Type} (l : List α) {f : α → Dev → Dev} (h : ∀ a s, a ∈ l → Dev.Steady s (f a s)) (s : Dev) :
    s.Steady (Machine.forL l f s) :=
  forL_keeps (I := s.Steady) (fun a ha t ht => ht.trans (h a t ha)) (refl s)

theorem markRaise (s : Dev) (f : Nat) : s.Steady (s.markRaise f) :=
  (setBits s _ (by decide)).trans (incSat _ _ (by omega) (by omega))

theorem recordRaise (s : Dev) (e f : Nat) : s.Steady (s.recordRaise e f) :=
  (markRaise s f).trans (setFld _ _ _ (by omega) (by omega))

theorem flt (s : Dev) (x : Flt) : s.Steady { s with flt := x } := upd rfl rfl rfl rfl

theorem countOcc (s : Dev) (x l e : Nat) (o : OccNow) (rs : List (Nat × List Nat)) : s.Steady (s.countOcc x l e o rs) := by
  unfold Dev.countOcc
  extract_lets s1 s2 k s3
  have h1 : s.Steady s1 := forL _ (fun f t _ => setFld t _ _ (by omega) (by omega)) s
  have h2 : s.Steady s2 := by
    unfold s2
    split
    · exact h1.trans (incSat _ _ (by omega) (by omega))
    · exact h1
  have h3 : s.Steady s3 := h2.trans (flt s2 _)
  clear_value s3
  split
  · exact h3.trans (flt s3 _)
  · split
    · exact h3.trans (incSat _ _ (by omega) (by omega))
    · exact h3

theorem recordOcc (s : Dev) (x l e : Nat) (rs : List (Nat × List Nat)) : s.Steady (s.recordOcc x l e rs) :=
  (forL _ (fun f t _ => recordRaise t e f) s).trans (countOcc _ _ _ _ _ _)

theorem note (s : Dev) (f : Nat) : s.Steady (s.note f) := by
  unfold Dev.note
  split
  · exact recordOcc _ _ _ _ _
  · exact markRaise s f

theorem voidSites (s : Dev) (c : Nat) (l : List Nat) : s.Steady (s.voidSites c l) := by
  obtain ⟨_, _, h⟩ := (s.voidFrame_voidSites c l).exists
  rw [h]
  exact upd rfl rfl rfl rfl

theorem nvPut (s : Dev) (o : Nat) (v : W) : s.Steady (s.nvPut o v) := by
  have hstored : s.Steady (s.nvStored o v) := by
    refine upd ?_ ?_ rfl ?_ ?_ ?_ <;> (obtain ⟨m, n, h⟩ := s.nvStored_only o v; rw [h])
    rfl
  rw [Dev.nvPut_eq]
  split
  · exact hstored.trans (note _ _)
  · exact hstored

theorem nvRowSpare (s : Dev) (o : Nat) : s.Steady (s.nvRowSpare o) := by
  unfold Dev.nvRowSpare
  split
  · exact note s _
  · have hdraw : s.Steady s.draw.2 := upd rfl rfl rfl rfl
    exact (hdraw.trans (nvPut _ _ _)).trans (upd rfl rfl rfl rfl)

theorem replaceBank (s : Dev) (b : Nat) : s.Steady (s.replaceBank b) := by
  unfold Dev.replaceBank
  split
  · exact refl s
  · split
    · exact upd rfl rfl rfl rfl
    · split
      · exact upd rfl rfl rfl rfl
      · exact note s _

theorem repair (s : Dev) (f u : Nat) : s.Steady (s.repair f u) := by
  unfold Dev.repair
  split
  · exact upd rfl rfl rfl rfl
  · split
    · exact upd rfl rfl rfl rfl
    · split
      · exact upd rfl rfl rfl rfl
      · split
        · exact replaceBank s u
        · split
          · exact nvRowSpare s u
          · split
            · exact upd rfl rfl rfl rfl
            · exact refl s

theorem notify (s : Dev) (n : Ntfy) (h : Bool) : s.Steady (s.notify n h) := by
  unfold Dev.notify
  split
  · exact upd rfl rfl rfl rfl
  · split <;> exact upd rfl rfl rfl rfl

theorem complete (s : Dev) (j : Job) (a b : Nat) (d : List W) : s.Steady (s.complete j a b d) := by
  unfold Dev.complete
  dsimp only
  split <;> exact upd rfl rfl rfl rfl

theorem endReq (s : Dev) (r : ModeReq) (n : Nat) : s.Steady (s.endReq r n) := by
  have h : s.Steady (s.rejMode r.tag n) :=
    ((setBits s _ (by decide)).trans (setFld _ _ _ (by omega) (by omega))).trans (setFld _ _ _ (by omega) (by omega))
  unfold Dev.endReq
  dsimp only
  split
  · exact h.trans (complete _ _ _ _ _)
  · exact h

theorem abortCmds (s : Dev) : s.Steady s.abortCmds := by
  unfold Dev.abortCmds
  dsimp only
  refine Dev.Steady.trans ?_ (forL _ (fun j t _ => complete t j 14 0 []) _)
  exact upd rfl rfl rfl rfl

theorem safeStopped (s : Dev) : s.Steady s.safeStopped :=
  ⟨fun _ _ => rfl, ⟨_, _, _, _, rfl⟩, rfl, rfl, rfl, .inr ⟨rfl, ⟨_, rfl⟩, ⟨_, rfl⟩, ⟨_, rfl⟩, ⟨_, rfl⟩, ⟨rfl, rfl⟩, rfl⟩⟩

/-- The STRESS arm is the card whose bit 31 may end. -/
theorem clrArm (s : Dev) (m : W) : s.Steady (s.clrBits 0x114 m) :=
  ⟨fun _ ha => Dev.bit_congr (Dev.rd_clrBits_of_ne s m ha) 31, ⟨_, _, _, _, rfl⟩, rfl, rfl, rfl, .inl ⟨rfl, rfl⟩⟩

theorem enterSafe (s : Dev) (x : Nat) : s.Steady (s.enterSafe x) := by
  unfold Dev.enterSafe
  split
  · exact refl s
  · extract_lets n s1 s2 s3 s4 s5
    have h1 : s.Steady s1 := by
      unfold s1
      split
      · exact notify s _ _
      · exact refl s
    have h2 : s.Steady s2 := h1.trans (forL _ (fun r t _ => endReq t r 9) s1)
    have h4 : s.Steady s4 := (h2.trans (abortCmds s2)).trans (nvPut _ _ _)
    clear_value s4
    have h5 : s.Steady s5 := by
      unfold s5
      split
      · exact h4.trans (clrArm s4 _)
      · exact h4
    clear_value s5
    exact h5.trans (safeStopped s5)

theorem react (s : Dev) (e : Nat) (r : Raise) : s.Steady (s.react e r) := by
  unfold Dev.react
  extract_lets s1
  have h1 : s.Steady s1 := by
    unfold s1
    split
    · exact voidSites s _ _
    · exact refl s
  clear_value s1
  split
  · exact h1.trans (repair _ _ _)
  · exact h1

theorem reacts (s : Dev) (x e : Nat) (o : OccNow) (rs : List Raise) : s.Steady (s.reacts x e o rs) := by
  unfold Dev.reacts
  split
  · exact enterSafe s x
  · extract_lets s1
    have h1 : s.Steady s1 := by
      unfold s1
      split
      · exact forL _ (fun r t _ => voidSites t _ _) s
      · exact refl s
    exact h1.trans (forL rs (fun r t _ => react t e r) s1)

theorem occur (s : Dev) (x : Nat) (rs : List Raise) : s.Steady (s.occur x rs) :=
  (recordOcc s _ _ _ _).trans (reacts _ _ _ _ _)

theorem raises (s : Dev) (rs : List Raise) : s.Steady (s.raises rs) := by
  unfold Dev.raises
  extract_lets on off s1
  have h1 : s.Steady s1 := forL off (fun r t _ => markRaise t r.f) s
  clear_value s1
  refine h1.trans (forL (List.range 12) (fun x t _ => ?_) s1)
  extract_lets here
  split
  · exact refl t
  · exact occur t x here

theorem raise (s : Dev) (r : Raise) : s.Steady (s.raise r) := raises s [r]

end Dev.Steady

end Sys2Proof.Machine
end

section
/-! PROOFS. Supply rails and the faults at SAFE level (R307, R308, R378, R400): O26 and O27. -/

namespace Sys2Proof.Machine

/-! ### LIVE -/

theorem Dev.bit_setLive_self (s : Dev) (f : Nat) (b : Bool) : (s.setLive f b).bit (aSrc f) 31 = b :=
  Dev.bit_setFld_self s (by omega) b

theorem aSrc_inj {f g : Nat} (h : aSrc f = aSrc g) : f = g := by
  unfold aSrc aFlt at h
  omega

theorem Dev.bit_setLive_of_ne (s : Dev) {f a : Nat} (b : Bool) (i : Nat) (h : a ≠ aSrc f) :
    (s.setLive f b).bit a i = s.bit a i := Dev.bit_congr (Dev.rd_setFld_of_ne s h) i

/-- LIVE says nothing of STICKY and LVL (R290). -/
theorem Dev.setLive_sticky_lvl (s : Dev) (f : Nat) (b : Bool) (g : Nat) :
    (s.setLive f b).sticky g = s.sticky g ∧ (s.setLive f b).lvlOf g = s.lvlOf g := by
  by_cases h : g = f
  · subst h
    exact ⟨Dev.bit_setFld_of_ne s (by omega) (by omega) (by omega) _, Dev.fld_setFld_of_ne s (by omega) (by omega) (by omega) _⟩
  · have hrd : (s.setLive f b).rd (aSrc g) = s.rd (aSrc g) := Dev.rd_setFld_of_ne s (fun he => h (aSrc_inj he))
    exact ⟨Dev.bit_congr hrd 30, Dev.fld_congr hrd 25 24⟩

/-- A class stays clean where its sources read the same STICKY and LVL. -/
theorem Dev.Clean.congr {s t : Dev} {x : Nat} (h : s.Clean x) (hflt : t.flt = s.flt)
    (hsrc : ∀ f, t.sticky f = s.sticky f ∧ t.lvlOf f = s.lvlOf f) : t.Clean x := by
  have hunack : t.unack x = s.unack x := by
    unfold Dev.unack
    congr 1
    exact funext (fun n => by rw [(hsrc _).1, (hsrc _).2])
  refine ⟨?_, by rw [hflt, h.alone]⟩
  rw [← h.acked]
  unfold Dev.unackAt
  rw [hflt, hunack]

theorem Upset.setLive (s : Dev) {f : Nat} (b : Bool) (hf : f < 384) : Upset s (s.setLive f b) :=
  Upset.wr s _ _ (.inl (aSrc_page hf)) (fun h => by rw [W.bit_put_of_lt _ (by omega) (by omega) (by omega)]; exact h)

/-! ### O26 -/

/-- A void's facts speak of sites and the mode alone. -/
theorem Dev.Voids.of_same {s u t : Dev} {c : Nat} {l : List Nat} (h : u.Voids t c l) (hm : u.sys.mode = s.sys.mode)
    (hs : ∀ i, u.site i = s.site i) : s.Voids t c l :=
  ⟨h.mode.trans hm, fun i hi => by rw [← hs]; exact h.noted i hi, fun i hi => by rw [← hs]; exact h.others i hi⟩

/-- A condition that is present shows LIVE and raises nothing (R290). -/
theorem Dev.condOn_of_live {s : Dev} {r : Raise} (h : s.bit (aSrc r.f) 31 = true) : s.condOn r = s := if_pos h

theorem Dev.condOn_of_not_live {s : Dev} {r : Raise} (h : s.bit (aSrc r.f) 31 = false) :
    s.condOn r = (s.setLive r.f true).raise r := if_neg (by rw [h]; exact Bool.false_ne_true)

theorem Dev.srcEn_setLive (s : Dev) (f : Nat) (b : Bool) : (s.setLive f b).srcEn f = s.srcEn f := by
  rw [Dev.srcEn, Dev.srcEn, Dev.setLive, Dev.bit_setFld_of_ne _ (by omega) (by omega) (by omega)]

theorem aSrc_ne_stress (f : Nat) : aSrc f ≠ 0x114 := by
  unfold aSrc aFlt
  omega

/-- LIVE is a bit of a card. -/
theorem Dev.setLive_only (s : Dev) (f : Nat) (b : Bool) : ∃ r, s.setLive f b = { s with regs := r } := ⟨_, rfl⟩

theorem Dev.setLive_sys (s : Dev) (f : Nat) (b : Bool) : (s.setLive f b).sys = s.sys := by
  obtain ⟨r, h⟩ := s.setLive_only f b
  rw [h]

theorem Dev.setLive_flt (s : Dev) (f : Nat) (b : Bool) : (s.setLive f b).flt = s.flt := by
  obtain ⟨r, h⟩ := s.setLive_only f b
  rw [h]

theorem Dev.setLive_site (s : Dev) (f : Nat) (b : Bool) (i : Nat) : (s.setLive f b).site i = s.site i := by
  obtain ⟨r, h⟩ := s.setLive_only f b
  rw [h]
  rfl

theorem Dev.condOn_steady (s : Dev) (r : Raise) :
    (s.condOn r).bit (aSrc r.f) 31 = true ∧ ∃ m q a d, (s.condOn r).sys = { s.sys with mode := m, req := q, asked := a, safeDue := d } := by
  cases h : s.bit (aSrc r.f) 31 with
  | true =>
    rw [Dev.condOn_of_live h]
    exact ⟨h, _, _, _, _, rfl⟩
  | false =>
    obtain ⟨live, ⟨m, q, a, d, sys⟩, -⟩ := Dev.Steady.raise (s.setLive r.f true) r
    rw [Dev.condOn_of_not_live h, live _ (aSrc_ne_stress _), Dev.bit_setLive_self, sys, Dev.setLive_sys]
    exact ⟨rfl, _, _, _, _, rfl⟩

/-- A condition that begins raises its source (R290, R299, R300). -/
theorem Dev.condOn_raises {s : Dev} {r : Raise} (hr : r.plain) (hen : s.srcEn r.f = true) (h : s.bit (aSrc r.f) 31 = false) :
    s.Raised (s.condOn r) r.f ∧ (3 ≤ r.lvl → s.sys.mode ≠ .reset → (s.condOn r).sys.mode = .safe) ∧
      (s.Clean (r.f / 32) → r.lvl = 2 → s.Voids (s.condOn r) (causeBit r.f) r.sites) := by
  rw [Dev.condOn_of_not_live h]
  have hset := Upset.setLive s true hr.1
  obtain ⟨now, stays, rest⟩ := (s.setLive r.f true).raise_raised r hr
  have hen' : (r.forced || (s.setLive r.f true).srcEn r.f) = true := by rw [Dev.srcEn_setLive, hen, Bool.or_true]
  refine ⟨⟨now, fun g hg => stays g (hset.stays g hg), hset.rest.trans rest⟩, fun hl hm => ?_, fun hc hl => ?_⟩
  · exact Dev.raise_safe hr.1 hen' hl (by rwa [Dev.setLive_sys])
  · have hclean := hc.congr (s.setLive_flt r.f true) (Dev.setLive_sticky_lvl s r.f true)
    exact (Dev.raise_voids hr.1 hen' hclean hl).of_same (congrArg Sys.mode (s.setLive_sys r.f true)) (s.setLive_site r.f true)

/-- The supplies' notes, in place of those of a device. -/
def Dev.withSys (s : Dev) (y : Sys) : Dev := { s with sys := y }

theorem Dev.Clean.withSys {s : Dev} {x : Nat} (h : s.Clean x) (y : Sys) : (s.withSys y).Clean x :=
  h.congr rfl (fun _ => ⟨rfl, rfl⟩)

theorem Upset.withSys (s : Dev) {y : Sys} (hm : y.mode = s.sys.mode)
    (hy : y.devid = s.sys.devid ∧ y.master = s.sys.master ∧ y.recov = s.sys.recov) : Upset s (s.withSys y) :=
  Dev.FaultFrame.upd rfl rfl rfl rfl rfl rfl rfl rfl rfl rfl ⟨rfl, rfl, rfl, rfl, rfl, rfl⟩ hy ⟨rfl, rfl⟩ (.inl hm)

/-- A condition noted in `y` shows LIVE; where it was not present it raises its source (R290). -/
theorem Dev.condOn_withSys {s : Dev} {y : Sys} {r : Raise} (hr : r.plain) (hen : s.srcEn r.f = true)
    (hm : y.mode = s.sys.mode) (hy : y.devid = s.sys.devid ∧ y.master = s.sys.master ∧ y.recov = s.sys.recov) :
    (s.bit (aSrc r.f) 31 = true → (s.withSys y).condOn r = s.withSys y) ∧
      (s.bit (aSrc r.f) 31 = false → s.Raised ((s.withSys y).condOn r) r.f ∧
        (3 ≤ r.lvl → s.sys.mode ≠ .reset → ((s.withSys y).condOn r).sys.mode = .safe) ∧
        (s.Clean (r.f / 32) → r.lvl = 2 → s.Voids ((s.withSys y).condOn r) (causeBit r.f) r.sites)) := by
  have hnote := Upset.withSys s hm hy
  refine ⟨fun h => Dev.condOn_of_live h, fun h => ?_⟩
  obtain ⟨⟨now, stays, rest⟩, safe, voids⟩ := Dev.condOn_raises (s := s.withSys y) hr hen h
  exact ⟨⟨now, fun g hg => stays g (hnote.stays g hg), hnote.rest.trans rest⟩,
    fun hl hn => safe hl (fun he => hn (hm.symm.trans he)), fun hc hl => (voids (hc.withSys y) hl).of_same hm (fun _ => rfl)⟩

/-- What the statement asks of a command that notes a supply's condition. -/
theorem exec_condOn {s : State} {c : Instr} {y : Sys} {f l : Nat} {a : List Nat}
    (hexec : exec c s = .next { s with toDev := (s.withSys y).condOn (raiseAt f l a) })
    (hf : f < 384) (hne : f ≠ 289) (hen : fltMaskable f = false) (hm : y.mode = s.sys.mode)
    (hy : y.devid = s.sys.devid ∧ y.master = s.sys.master ∧ y.recov = s.sys.recov) (hreset : s.sys.mode ≠ .reset)
    (h34 : f = 34 → 3 ≤ l) (h32 : f = 32 → l = 2 ∧ a = s.deviceAim) (h33 : f = 33 → l = 2 ∧ a = s.dpsAim) :
    ∃ t : Dev, exec c s = .next { s with toDev := t } ∧
      t.bit (aSrc f) 31 = true ∧ t.sys.warned = y.warned ∧ t.sys.vchBad = y.vchBad ∧ t.sys.vdpsLow = y.vdpsLow ∧
      (s.bit (aSrc f) 31 = true → { t with sys := s.sys } = s.toDev ∧ t.sys = y) ∧
      (s.bit (aSrc f) 31 = false → s.Raised t f ∧ (f = 34 → t.sys.mode = .safe) ∧
        (s.Clean 1 → f = 32 → s.Voids t 4 s.deviceAim) ∧ (s.Clean 1 → f = 33 → s.Voids t 4 s.dpsAim)) := by
  obtain ⟨hlive, m, q, w, d, hsys⟩ := (s.withSys y).condOn_steady (raiseAt f l a)
  obtain ⟨hsame, hraise⟩ :=
    Dev.condOn_withSys (s := s.toDev) (r := raiseAt f l a) ⟨hf, hne⟩ (Dev.srcEn_of_unmaskable hen) hm hy
  refine ⟨_, hexec, hlive, by rw [hsys]; rfl, by rw [hsys]; rfl, by rw [hsys]; rfl, fun h => ?_, fun h => ?_⟩
  · rw [hsame h]
    exact ⟨rfl, rfl⟩
  · obtain ⟨hraised, hsafe, hvoids⟩ := hraise h
    have hclass : f = 32 ∨ f = 33 → s.Clean 1 → l = 2 → s.Voids ((s.withSys y).condOn (raiseAt f l a)) 4 a := by
      intro hor hc hl
      have hx : (raiseAt f l a).f / 32 = 1 := by rcases hor with rfl | rfl <;> simp [raiseAt]
      have hcause : causeBit (raiseAt f l a).f = 4 := by rcases hor with rfl | rfl <;> simp [raiseAt, causeBit]
      rw [hx, hcause] at hvoids
      exact hvoids hc hl
    refine ⟨hraised, fun h => hsafe (h34 h) hreset, fun hc h => ?_, fun hc h => ?_⟩
    · obtain ⟨hl, ha⟩ := h32 h
      exact ha ▸ hclass (.inl h) hc hl
    · obtain ⟨hl, ha⟩ := h33 h
      exact ha ▸ hclass (.inr h) hc hl

theorem exec_railWarn_of_noted {s : State} {r : Rail} (hm : s.sys.mode ≠ .reset) (hp : r ≠ .vchp) (hn : r ≠ .vchn) :
    exec (.railWarn r) s = .next { s with toDev :=
      (s.withSys { s.sys with warned := r :: s.sys.warned.filter (· ≠ r) }).condOn (raiseAt 32 2 s.deviceAim) } :=
  State.run_to (f := fun s => s.railWarn r) (if_neg (by simp [hm, hp, hn]))

theorem exec_vchFault {s : State} {n : Bool} (hm : s.sys.mode ≠ .reset) :
    exec (.vchFault n) s = .next { s with toDev :=
      (s.withSys { s.sys with vchBad := n :: s.sys.vchBad.filter (· ≠ n) }).condOn (raiseAt 34 3 []) } :=
  State.run_to (f := fun s => if s.sys.mode = .reset then s
    else (s.withSys { s.sys with vchBad := n :: s.sys.vchBad.filter (· ≠ n) }).condOn (raiseAt 34 3 [])) (if_neg hm)

theorem exec_vdpsLow {s : State} {d : Fin 4} (hm : s.sys.mode ≠ .reset) :
    exec (.vdpsLow d) s = .next { s with toDev :=
      (s.withSys { s.sys with vdpsLow := d :: s.sys.vdpsLow.filter (· ≠ d) }).condOn (raiseAt 33 2 s.dpsAim) } :=
  State.run_to (f := fun s => if s.sys.mode = .reset then s
    else (s.withSys { s.sys with vdpsLow := d :: s.sys.vdpsLow.filter (· ≠ d) }).condOn (raiseAt 33 2 s.dpsAim)) (if_neg hm)

/-- LIVE of a source ends where nothing of it is left. -/
def Dev.liveUnless (s : Dev) (f : Nat) (empty : Bool) : Dev := if empty then s.setLive f false else s

/-- LIVE is a bit of a card, where it ends and where it does not. -/
theorem Dev.liveUnless_only (s : Dev) (f : Nat) (b : Bool) : ∃ r, s.liveUnless f b = { s with regs := r } := by
  cases b with
  | true => exact s.setLive_only f false
  | false => exact ⟨_, rfl⟩

theorem Dev.liveUnless_bit (s : Dev) (f : Nat) (b : Bool) : (s.liveUnless f b).bit (aSrc f) 31 = (s.bit (aSrc f) 31 && !b) := by
  cases b with
  | true => exact (s.bit_setLive_self f false).trans (by simp)
  | false => simp [Dev.liveUnless]

theorem Dev.liveUnless_bit_of_ne (s : Dev) {f a : Nat} (b : Bool) (i : Nat) (h : a ≠ aSrc f) :
    (s.liveUnless f b).bit a i = s.bit a i := by
  cases b with
  | true => exact s.bit_setLive_of_ne false i h
  | false => rfl

theorem Dev.liveUnless_sticky (s : Dev) (f : Nat) (b : Bool) (g : Nat) : (s.liveUnless f b).sticky g = s.sticky g := by
  cases b with
  | true => exact (s.setLive_sticky_lvl f false g).1
  | false => rfl

theorem Dev.Cards.liveUnless {s t : Dev} {l : List Nat} (h : s.Cards t l) {f : Nat} (hf : aSrc f ∈ l) (b : Bool) :
    s.Cards (t.liveUnless f b) l := by
  cases b with
  | true => exact h.setFld hf _ _ _
  | false => exact h

theorem Dev.liveUnless_sys (s : Dev) (f : Nat) (b : Bool) : (s.liveUnless f b).sys = s.sys := by
  obtain ⟨r, h⟩ := s.liveUnless_only f b
  rw [h]

/-- The supplies' notes once a rail is back in its range (R400). -/
def Sys.railBack (y : Sys) (r : Rail) : Sys :=
  { y with
    warned := y.warned.filter (· ≠ r)
    vchBad := y.vchBad.filter (fun n => decide (r ≠ if n then .vchn else .vchp))
    vdpsLow := y.vdpsLow.filter (fun d => decide (r ≠ .vdps d)) }

theorem exec_railInRange {s : State} (hm : s.sys.mode ≠ .reset) (r : Rail) :
    exec (.railInRange r) s = .next { s with toDev :=
      (((s.withSys (s.sys.railBack r)).liveUnless 32 (s.sys.railBack r).warned.isEmpty).liveUnless 34
        (s.sys.railBack r).vchBad.isEmpty).liveUnless 33 (s.sys.railBack r).vdpsLow.isEmpty } := by
  refine State.run_to (f := fun s => s.railBack r) ?_
  have hvch : (fun b : Bool => !decide (r = if b then Rail.vchn else Rail.vchp)) =
      fun n => decide (r ≠ if n then .vchn else .vchp) := funext (fun b => (decide_not).symm)
  rw [Dev.railBack, if_neg hm]
  simp only [hvch]
  rfl

/-- LIVE of the three sources, and nothing else of their cards, follows what is left of them (R290, R294). -/
theorem Dev.railBack_back (s : Dev) (y : Sys) :
    let t := (((s.withSys y).liveUnless 32 y.warned.isEmpty).liveUnless 34 y.vchBad.isEmpty).liveUnless 33 y.vdpsLow.isEmpty
    t.sys = y ∧ t.bit (aSrc 32) 31 = (s.bit (aSrc 32) 31 && !t.sys.warned.isEmpty) ∧
      t.bit (aSrc 34) 31 = (s.bit (aSrc 34) 31 && !t.sys.vchBad.isEmpty) ∧
      t.bit (aSrc 33) 31 = (s.bit (aSrc 33) 31 && !t.sys.vdpsLow.isEmpty) ∧
      (∀ f, t.sticky f = s.sticky f) ∧ s.Cards t [aSrc 32, aSrc 33, aSrc 34] ∧
      { t with sys := s.sys, regs := s.regs } = s := by
  intro t
  have hsys : t.sys = y := by simp only [t, Dev.liveUnless_sys, Dev.withSys]
  have hne : ∀ {f g}, f ≠ g → aSrc f ≠ aSrc g := fun h he => h (aSrc_inj he)
  have hbit : ∀ f, (s.withSys y).bit (aSrc f) 31 = s.bit (aSrc f) 31 := fun _ => rfl
  rw [hsys]
  refine ⟨rfl, ?_, ?_, ?_, fun f => ?_, ?_, ?_⟩
  · simp only [t]
    rw [Dev.liveUnless_bit_of_ne _ _ _ (hne (by omega)), Dev.liveUnless_bit_of_ne _ _ _ (hne (by omega)), Dev.liveUnless_bit, hbit]
  · simp only [t]
    rw [Dev.liveUnless_bit_of_ne _ _ _ (hne (by omega)), Dev.liveUnless_bit, Dev.liveUnless_bit_of_ne _ _ _ (hne (by omega)), hbit]
  · simp only [t]
    rw [Dev.liveUnless_bit, Dev.liveUnless_bit_of_ne _ _ _ (hne (by omega)), Dev.liveUnless_bit_of_ne _ _ _ (hne (by omega)), hbit]
  · simp only [t, Dev.liveUnless_sticky]
    rfl
  · have h : s.Cards (s.withSys y) [aSrc 32, aSrc 33, aSrc 34] := Dev.Cards.of_regs rfl _
    exact ((h.liveUnless (by simp) _).liveUnless (by simp) _).liveUnless (by simp) _
  · obtain ⟨r₁, h₁⟩ := (s.withSys y).liveUnless_only 32 y.warned.isEmpty
    obtain ⟨r₂, h₂⟩ := ((s.withSys y).liveUnless 32 y.warned.isEmpty).liveUnless_only 34 y.vchBad.isEmpty
    obtain ⟨r₃, h₃⟩ := (((s.withSys y).liveUnless 32 y.warned.isEmpty).liveUnless 34 y.vchBad.isEmpty).liveUnless_only 33
      y.vdpsLow.isEmpty
    simp only [t]
    rw [h₃, h₂, h₁]
    rfl

/-- Settles O26: three conditions that begin (`exec_condOn`), and the end of each. -/
theorem railsRaiseWhileOutOfRange : Obligations.RailsRaiseWhileOutOfRange := by
  unfold Obligations.RailsRaiseWhileOutOfRange
  intro s Warns
  refine ⟨fun hm => ⟨fun r hp hn => ?warn, fun n => ?vch, fun d => ?vdps, fun r => ⟨_, exec_railInRange hm r, ?back⟩⟩,
    fun hm r n d => ?reset, fun r hr => ?own⟩
  case warn =>
    exact exec_condOn (exec_railWarn_of_noted hm hp hn) (by decide) (by decide) (by decide) rfl ⟨rfl, rfl, rfl⟩ hm
      (fun h => absurd h (by decide)) (fun _ => ⟨rfl, rfl⟩) (fun h => absurd h (by decide))
  case vch =>
    exact exec_condOn (exec_vchFault hm) (by decide) (by decide) (by decide) rfl ⟨rfl, rfl, rfl⟩ hm
      (fun _ => by decide) (fun h => absurd h (by decide)) (fun h => absurd h (by decide))
  case vdps =>
    exact exec_condOn (exec_vdpsLow hm) (by decide) (by decide) (by decide) rfl ⟨rfl, rfl, rfl⟩ hm
      (fun h => absurd h (by decide)) (fun h => absurd h (by decide)) (fun _ => ⟨rfl, rfl⟩)
  case back =>
    exact Dev.railBack_back s.toDev (s.sys.railBack r)
  case reset =>
    exact ⟨State.run_idle (f := fun s => s.railWarn r) (if_pos (by simp [hm])),
      State.run_idle (f := fun s => if s.sys.mode = .reset then s
        else (s.withSys { s.sys with vchBad := n :: s.sys.vchBad.filter (· ≠ n) }).condOn (raiseAt 34 3 [])) (if_pos hm),
      State.run_idle (f := fun s => if s.sys.mode = .reset then s
        else (s.withSys { s.sys with vdpsLow := d :: s.sys.vdpsLow.filter (· ≠ d) }).condOn (raiseAt 33 2 s.dpsAim)) (if_pos hm),
      State.run_idle (f := fun s => s.railBack r) (if_pos hm)⟩
  case own => exact State.run_idle (f := fun s => s.railWarn r) (if_pos (by rcases hr with rfl | rfl <;> simp))

end Sys2Proof.Machine
end

section
/-! PROOFS. Faults that are SAFE by their level (R300, R307, R308, R378): O27. -/

namespace Sys2Proof.Machine

/-- An occurrence whose highest level is SAFE enters SAFE (R299, R300). -/
theorem Dev.raise_enterSafe {s : Dev} {r : Raise} (hf : r.f < 384) (hen : (r.forced || s.srcEn r.f) = true)
    (hl : 3 ≤ r.lvl) : ∃ l e rs, s.raise r = (s.recordOcc (r.f / 32) l e rs).enterSafe (r.f / 32) := by
  have hmax : [r].foldl (fun m r => max m r.lvl) 0 = r.lvl := by simp
  have he : 3 ≤ (s.judgeOcc (r.f / 32) r.lvl).2 := by
    show 3 ≤ effLevel (max (s.occNow (r.f / 32)).lvl _) _
    unfold effLevel
    split <;> omega
  refine ⟨(s.judgeOcc (r.f / 32) r.lvl).1, (s.judgeOcc (r.f / 32) r.lvl).2, [(r.f, r.sites)], ?_⟩
  rw [Dev.raise_eq_occur hf hen, Dev.occur, hmax, Dev.reacts, if_pos he]
  rfl

/-- SAFE entry ends the mode request that stood (R57). -/
theorem Dev.enterSafe_req (s : Dev) (x : Nat) (hs : s.sys.mode ≠ .safe) (hr : s.sys.mode ≠ .reset) :
    (s.enterSafe x).sys.req = none := by
  rw [Dev.enterSafe, if_neg (by simp [hs, hr])]

/-- A plain raise at SAFE level of a source that cannot be masked, outside RESET. -/
theorem Dev.raiseOf_safe {s : Dev} {f : Nat} (hf : f < 384) (hne : f ≠ 289) (hen : fltMaskable f = false)
    (hm : s.sys.mode ≠ .reset) :
    (s.raise (raiseOf f 3)).sys.mode = .safe ∧ (s.sys.mode ≠ .safe → (s.raise (raiseOf f 3)).sys.req = none) ∧
      s.Raised (s.raise (raiseOf f 3)) f := by
  have hen' : ((raiseOf f 3).forced || s.srcEn (raiseOf f 3).f) = true := Dev.srcEn_of_unmaskable hen
  refine ⟨Dev.raise_safe hf hen' (Nat.le_refl 3) hm, fun hs => ?_, s.raise_raised _ ⟨hf, hne⟩⟩
  obtain ⟨l, e, rs, h⟩ := Dev.raise_enterSafe hf hen' (Nat.le_refl 3)
  have hsys := (s.noteFrame_recordOcc ((raiseOf f 3).f / 32) l e rs).sys
  rw [h]
  exact Dev.enterSafe_req _ _ (by rwa [hsys]) (by rwa [hsys])

theorem Dev.raise_mspi (s : Dev) (r : Raise) : (s.raise r).sys.mspi = s.sys.mspi := by
  obtain ⟨-, ⟨m, q, a, d, sys⟩, -⟩ := Dev.Steady.raise s r
  rw [sys]

theorem exec_safeFault {s : State} {c : Instr} {f : Nat} (hc : (c, f) ∈ [(Instr.fabricErr, 353), (.aonFail, 354), (.fwAssert, 355)])
    (hm : s.sys.mode ≠ .reset) : exec c s = .next { s with toDev := s.raise (raiseOf f 3) } := by
  have hrun : s.run (fun s => s.safeFault f) = .next { s with toDev := s.raise (raiseOf f 3) } :=
    State.run_to (f := fun s => s.safeFault f) (if_neg hm)
  simp only [List.mem_cons, List.not_mem_nil, or_false] at hc
  rcases hc with hc | hc | hc <;> cases hc <;> exact hrun

theorem exec_missedCheckIn {s : State} (hm : s.sys.mode ≠ .reset) :
    exec (.aliveInterval false) s = .next { s with toDev := (s.withSys { s.sys with mspi := true }).raise (raiseOf 352 3) } :=
  State.run_to (f := fun s => s.aliveInterval false) (if_neg hm)

theorem exec_checkIn {s : State} (hm : s.sys.mode ≠ .reset) :
    exec (.aliveInterval true) s = .next { s with toDev :=
      if s.flt.running then (s.withSys { s.sys with mspi := true }).toggle else s.withSys { s.sys with mspi := true } } :=
  State.run_to (f := fun s => s.aliveInterval true) (if_neg hm)

theorem exec_sclkUnlock {s : State} (hm : s.sys.mode ≠ .reset) (hl : s.clk.locked = true) (hh : s.clk.holdover = false) :
    exec .sclkUnlock s = .next { s with toDev :=
      ({ s.toDev with clk := { s.clk with locked := false } } : Dev).raise (raiseOf 4 3) } :=
  State.run_to (f := fun s => s.sclkUnlock) (if_neg (by simp [hm, hl, hh]))

/-- Settles O27, the faults by `raiseOf_safe`. -/
theorem safeLevelFaultsEnterSafe : Obligations.SafeLevelFaultsEnterSafe := by
  unfold Obligations.SafeLevelFaultsEnterSafe
  intro s
  refine ⟨fun hm => ⟨fun c f hc => ?fault, fun hl hh => ?unlock, ⟨_, exec_checkIn hm, ?toggle⟩⟩, fun h => ?kept, fun hm c hc => ?reset⟩
  case fault =>
    have hsplit : (c, f) ∈ [(Instr.fabricErr, 353), (.aonFail, 354), (.fwAssert, 355)] ∨ (c, f) = (.aliveInterval false, 352) := by
      simp only [List.mem_cons, List.not_mem_nil, or_false] at hc ⊢
      exact or_assoc.mpr (hc.imp_right or_assoc.mpr)
    rcases hsplit with hc | hc
    · have hlim : f < 384 ∧ f ≠ 289 ∧ fltMaskable f = false ∧ c ≠ .aliveInterval false := by
        simp only [List.mem_cons, List.not_mem_nil, or_false] at hc
        rcases hc with hc | hc | hc <;> cases hc <;> decide
      obtain ⟨hf, hne, hen, hca⟩ := hlim
      obtain ⟨safe, req, raised⟩ := Dev.raiseOf_safe hf hne hen hm
      exact ⟨_, exec_safeFault hc hm, safe, req, raised, fun h => absurd h hca⟩
    · cases hc
      have hnote := Upset.withSys s.toDev (y := { s.sys with mspi := true }) rfl ⟨rfl, rfl, rfl⟩
      obtain ⟨safe, req, now, stays, rest⟩ := Dev.raiseOf_safe (s := s.withSys { s.sys with mspi := true }) (f := 352)
        (by decide) (by decide) (by decide) hm
      exact ⟨_, exec_missedCheckIn hm, safe, req,
        ⟨now, fun g hg => stays g (hnote.stays g hg), hnote.rest.trans rest⟩, fun _ => Dev.raise_mspi _ _⟩
  case unlock =>
    obtain ⟨safe, req, raised⟩ := Dev.raiseOf_safe (s := { s.toDev with clk := { s.clk with locked := false } }) (f := 4)
      (by decide) (by decide) (by decide) hm
    exact ⟨_, exec_sclkUnlock hm hl hh, safe, req, raised⟩
  case toggle => cases s.flt.running <;> exact ⟨rfl, rfl, rfl⟩
  case kept =>
    exact State.run_idle (f := fun s => s.sclkUnlock) (if_pos (by rcases h with h | h <;> simp [h]))
  case reset =>
    simp only [List.mem_cons, List.not_mem_nil, or_false] at hc
    rcases hc with rfl | rfl | rfl | rfl | rfl | rfl
    · exact State.run_idle (f := fun s => s.safeFault 353) (if_pos hm)
    · exact State.run_idle (f := fun s => s.safeFault 354) (if_pos hm)
    · exact State.run_idle (f := fun s => s.safeFault 355) (if_pos hm)
    · exact State.run_idle (f := fun s => s.sclkUnlock) (if_pos (by simp [hm]))
    · exact State.run_idle (f := fun s => s.aliveInterval false) (if_pos hm)
    · exact State.run_idle (f := fun s => s.aliveInterval true) (if_pos hm)

end Sys2Proof.Machine
end

section
/-! PROOFS. The loss of the reference clock (R265, R290): O28. -/

namespace Sys2Proof.Machine

/-- A number so large that the source of that number would stand in the card of the frame that began holdover; the
table of sources ends at 383. -/
def straySource : Nat := 0x4029

theorem aSrc_straySource : aSrc straySource = aFrm 0xA4 := by decide

/-- REF_LOSS is LIVE already, holdover is not, and bit 30 of the frame number is 1. -/
def lateFrame : State :=
  { State.reset with
    sys := { State.reset.sys with mode := .idle }
    clk := { State.reset.clk with holdover := false, frame := 2 ^ 30 }
    regs := [(aSrc 0, 0x80000000)] }

/-- Holdover begins, and bit 30 of its frame falls where that source's STICKY would stand. -/
theorem lateFrame_refLoss : lateFrame.refLoss.sticky straySource = true ∧ lateFrame.sticky straySource = false := by
  decide +kernel

/-- Refutes O28: the statement asks of every number that its STICKY stands, the numbers past the source table too, and in
`lateFrame` one of these reads bit 30 of the card that names holdover's frame. -/
theorem not_referenceLossBeginsHoldover : ¬ Obligations.ReferenceLossBeginsHoldover := by
  unfold Obligations.ReferenceLossBeginsHoldover
  intro h
  obtain ⟨houtside, -, -⟩ := h lateFrame
  obtain ⟨-, ⟨t, hexec, -, -, -, -, hbegins⟩, -⟩ := houtside (by decide)
  obtain ⟨-, -, hlive, -⟩ := hbegins rfl
  have hkeep := (hlive (by decide)).1 straySource
  have hdev : t = lateFrame.refLoss := by
    have hstate := Host.Outcome.next.inj (hexec.symm.trans (State.run_to (s := lateFrame) (f := fun s => s.refLoss) rfl))
    exact congrArg State.toDev hstate
  rw [hdev, lateFrame_refLoss.1, lateFrame_refLoss.2] at hkeep
  exact Bool.noConfusion hkeep

end Sys2Proof.Machine
end

section
/-! PROOFS. Raises of one class, and what a clean raise leaves alone (R290-R299). -/

namespace Sys2Proof.Machine

/-! ### What a clean raise at VOID leaves alone -/

/-- Nothing but cards, sites, engines and the occurrences differs. -/
def Dev.OccFrame (s t : Dev) : Prop := ∃ r x g f, t = { s with regs := r, sites := x, engs := g, flt := f }

/-- At VOID a clean occurrence changes the cards of its source and class, and what it voids (R88, R290, R301). -/
theorem Dev.raise_void_frame {s : Dev} {r : Raise} (hf : r.f < 384) (hen : (r.forced || s.srcEn r.f) = true)
    (hc : s.Clean (r.f / 32)) (hl : r.lvl = 2) :
    s.Cards (s.raise r) [aSrc r.f, aCls (r.f / 32)] ∧ s.OccFrame (s.raise r) := by
  have hcards := hc.recordOcc_cards 2 2 r.f r.sites
  obtain ⟨x, y, hvoid⟩ := (Dev.voidFrame_voidSites (s.recordOcc (r.f / 32) 2 2 [(r.f, r.sites)]) (causeBit r.f) r.sites).exists
  obtain ⟨g, f, hnote⟩ := s.noteFrame_recordOcc (r.f / 32) 2 2 [(r.f, r.sites)]
  rw [Dev.raise_of_void hf hen hc hl, hvoid]
  exact ⟨hcards.trans (Dev.Cards.of_regs rfl _), g, x, y, f, by rw [hnote]⟩

/-- A class stays clean where the cards of its sources stand. -/
theorem Dev.Clean.of_cards {s t : Dev} {x : Nat} (h : s.Clean x) (hflt : t.flt = s.flt)
    (hsame : ∀ n, n < 32 → t.rd (aSrc (32 * x + n)) = s.rd (aSrc (32 * x + n))) : t.Clean x := by
  refine ⟨?_, by rw [hflt, h.alone]⟩
  have hunack : t.unack x = s.unack x := by
    unfold Dev.unack Dev.sticky Dev.lvlOf
    rw [Bool.eq_iff_iff, List.any_eq_true, List.any_eq_true]
    refine exists_congr (fun n => and_congr_right (fun hn => ?_))
    rw [Dev.bit_congr (hsame n (List.mem_range.mp hn)), Dev.fld_congr (hsame n (List.mem_range.mp hn))]
  rw [← h.acked, Dev.unackAt, Dev.unackAt, hunack, hflt]

/-- A card past the fault page is no source's. -/
theorem Dev.Clean.setBits {s : Dev} {x : Nat} (h : s.Clean x) {a : Nat} (ha : 0x20000 ≤ a) (hx : x < 12) (m : W) :
    (s.setBits a m).Clean x :=
  h.of_cards rfl (fun n hn => Dev.rd_setBits_of_ne s m (by unfold aSrc aFlt; omega))

/-! ### Raises of one class -/

/-- Enabled raises of one class are one occurrence of it (R291, R295). -/
theorem Dev.raises_eq_occur {s : Dev} {rs : List Raise} {x : Nat} (hne : rs ≠ []) (hx : x < 12)
    (hen : ∀ r ∈ rs, (r.forced || s.srcEn r.f) = true) (hcls : ∀ r ∈ rs, r.f / 32 = x) : s.raises rs = s.occur x rs := by
  have hon : rs.filter (fun r => r.forced || s.srcEn r.f) = rs := List.filter_eq_self.mpr hen
  have hoff : rs.filter (fun r => !(r.forced || s.srcEn r.f)) = [] :=
    List.filter_eq_nil_iff.mpr (fun q hq => by rw [hen q hq]; exact Bool.false_ne_true)
  have hhere : rs.filter (fun r => decide (r.f / 32 = x)) = rs :=
    List.filter_eq_self.mpr (fun r hr => decide_eq_true (hcls r hr))
  unfold Dev.raises
  dsimp only
  rw [hon, hoff, forN_of_only (k := x) hx]
  · rw [hhere, if_neg (by simpa using hne)]
    rfl
  · intro y hy t
    have hother : rs.filter (fun r => decide (r.f / 32 = y)) = [] :=
      List.filter_eq_nil_iff.mpr (fun r hr => by simp [hcls r hr, Ne.symm hy])
    rw [hother]
    rfl

/-- In a clean class they take their highest level (R291). -/
theorem Dev.Clean.occur_eq {s : Dev} {x l : Nat} (h : s.Clean x) {rs : List Raise}
    (hl : rs.foldl (fun m r => max m r.lvl) 0 = l) :
    s.occur x rs = (s.recordOcc x l l (rs.map (fun r => (r.f, r.sites)))).reacts x l (noOcc x) rs := by
  obtain ⟨hnow, hjudge⟩ := h.judgeOcc l
  rw [Dev.occur, hl, hjudge, hnow]

/-- The occurrence of class x among the raises that are enabled. -/
def Dev.occurOf (on : List Raise) (x : Nat) (s : Dev) : Dev :=
  if (on.filter (fun r => decide (r.f / 32 = x))).isEmpty then s else s.occur x (on.filter (fun r => decide (r.f / 32 = x)))

theorem Dev.raises_eq_occurOf (s : Dev) (rs : List Raise) :
    s.raises rs = forL (List.range 12) (Dev.occurOf (rs.filter (fun r => r.forced || s.srcEn r.f)))
      (forL (rs.filter (fun r => !(r.forced || s.srcEn r.f))) (fun r s => s.markRaise r.f) s) := rfl

theorem Upset.occurOf {on : List Raise} (hp : ∀ r ∈ on, r.plain) {x : Nat} (hx : x < 12) (s : Dev) :
    Upset s (Dev.occurOf on x s) := by
  unfold Dev.occurOf
  split
  · exact Upset.refl _
  · exact Upset.occur _ _ hx (fun r hr => hp r (List.mem_filter.mp hr).1)

theorem Dev.sticky_occurOf {on : List Raise} (hp : ∀ r ∈ on, r.plain) {r : Raise} (hr : r ∈ on) (s : Dev) :
    (Dev.occurOf on (r.f / 32) s).sticky r.f = true := by
  have hhere : r ∈ on.filter (fun q => decide (q.f / 32 = r.f / 32)) := List.mem_filter.mpr ⟨hr, by simp⟩
  have hcls : r.f / 32 < 12 := by have := (hp r hr).1; omega
  rw [Dev.occurOf, if_neg (by simpa using List.ne_nil_of_mem hhere)]
  exact Dev.sticky_occur s _ hcls (fun q hq => hp q (List.mem_filter.mp hq).1) hhere

/-- Every source raised is STICKY, masked or not (R290, R295). -/
theorem Dev.raises_sticky (s : Dev) {rs : List Raise} (hp : ∀ r ∈ rs, r.plain) {r : Raise} (hr : r ∈ rs) :
    (s.raises rs).sticky r.f = true := by
  have hcls : r.f / 32 < 12 := by have := (hp r hr).1; omega
  have hon : ∀ q ∈ rs.filter (fun r => r.forced || s.srcEn r.f), q.plain := fun q hq => hp q (List.mem_filter.mp hq).1
  have hstay : ∀ x t, x ∈ List.range 12 → t.sticky r.f = true →
      (Dev.occurOf (rs.filter (fun r => r.forced || s.srcEn r.f)) x t).sticky r.f = true :=
    fun x t hx => (Upset.occurOf hon (List.mem_range.mp hx) t).stays r.f
  rw [Dev.raises_eq_occurOf]
  cases hen : r.forced || s.srcEn r.f with
  | true =>
    exact Dev.sticky_forL _ _ r.f hstay (List.mem_range.mpr hcls)
      (Dev.sticky_occurOf hon (List.mem_filter.mpr ⟨hr, hen⟩)) _
  | false =>
    refine forL_keeps (I := fun t : Dev => t.sticky r.f = true) (fun x hx t ht => hstay x t hx ht) ?_
    have hin : r ∈ rs.filter (fun r => !(r.forced || s.srcEn r.f)) := List.mem_filter.mpr ⟨hr, by rw [hen]; rfl⟩
    exact Dev.sticky_forL _ (fun (q : Raise) t => t.markRaise q.f) r.f
      (fun q t hq => (Upset.markRaise t (hp q (List.mem_filter.mp hq).1).1).stays r.f) (b := r) hin
      (fun t => t.sticky_markRaise r.f) s

end Sys2Proof.Machine
end

section
/-! PROOFS. The card tick of a slave (R42-R46, R308): O29. -/

namespace Sys2Proof.Machine

/-- A clean raise at VOID after a card of another page was marked. -/
theorem Dev.raiseAt_void_after {s u : Dev} {f a x c : Nat} {l : List Nat} (hf : f < 384) (hen : u.srcEn f = true)
    (hx : f / 32 = x) (hcause : causeBit f = c) (hc : u.Clean x) (hm : u.sys.mode = s.sys.mode) (hs : ∀ i, u.site i = s.site i)
    (hcards : s.Cards u [a]) :
    s.Voids (u.raise (raiseAt f 2 l)) c l ∧ s.Cards (u.raise (raiseAt f 2 l)) [a, aSrc f, aCls x] ∧
      u.OccFrame (u.raise (raiseAt f 2 l)) := by
  subst hx hcause
  have hen' : ((raiseAt f 2 l).forced || u.srcEn (raiseAt f 2 l).f) = true := hen
  obtain ⟨hcards', hframe⟩ := Dev.raise_void_frame hf hen' hc rfl
  exact ⟨(Dev.raise_voids hf hen' hc rfl).of_same hm hs, (hcards.mono (by simp)).trans (hcards'.mono (by simp [raiseAt])), hframe⟩

theorem Dev.raiseAt_raised (s : Dev) {f : Nat} (hf : f < 384) (hne : f ≠ 289) (l : Nat) (a : List Nat) :
    s.Raised (s.raise (raiseAt f l a)) f := s.raise_raised (raiseAt f l a) ⟨hf, hne⟩

/-- A slip: FSYNC_SLIP shows and the slave relocks (R43, R44). -/
def Dev.slipped (s : Dev) : Dev := (s.setBits (aFrm 0x10) 0x20).unsync

/-- A missing edge of a locked slave shows FSYNC_MISS (R43). -/
def Dev.missed (s : Dev) : Dev := s.setBits (aFrm 0x10) 0x10

theorem Dev.Clean.slipped {s : Dev} (h : s.Clean 0) : s.slipped.Clean 0 :=
  (h.setBits (a := aFrm 0x10) (by decide) (by decide) 0x20).of_cards rfl (fun _ _ => rfl)

/-- What an edge does to a slave, its mark apart (R42-R45). -/
def Dev.edge (s : Dev) (off : Int) : Dev :=
  if !s.clk.captured then s.firstEdge off
  else if s.clk.slocked then
    (if decide (off.natAbs ≤ 1) then { s with clk := { s.clk with miss := 0 } }
     else s.slipped.raise (raiseAt 3 2 s.deviceAim))
  else if decide (off.natAbs ≤ 1) then
    { s with clk := { s.clk with good := s.clk.good + 1, slocked := decide (4 ≤ s.clk.good + 1)
                                 again := s.clk.again && decide (s.clk.good + 1 < 4), miss := 0 } }
  else s.firstEdge off

theorem Dev.fsyncEdge_of_slave {s : Dev} {off : Int} {m : Bool} (hr : s.sys.mode ≠ .reset) (hm : s.sys.master = false) :
    s.fsyncEdge off m = if m then (s.edge off).epochMark else s.edge off := by
  rw [Dev.fsyncEdge, if_neg (by simp [hr, hm])]
  rfl

theorem Dev.fsyncMiss_of_locked {s : Dev} (hr : s.sys.mode ≠ .reset) (hm : s.sys.master = false) (hl : s.clk.slocked = true) :
    s.fsyncMiss = if 3 ≤ s.clk.miss then s.missed.unsync.raises [raiseOf 1 0, raiseAt 2 2 s.deviceAim]
      else ({ s.missed with clk := { s.clk with miss := s.clk.miss + 1 } }).raise (raiseOf 1 0) := by
  rw [Dev.fsyncMiss, if_neg (by simp [hr, hm]), if_neg (by simp [hl])]
  rfl

/-- The edge leaves the tick where it is (R42 step 2, R44 step 2). -/
def Dev.keepsTick (s : Dev) (off : Int) : Bool := if s.clk.again then decide (off.natAbs ≤ 1) else decide (off = 0)

theorem Dev.keepsTick_iff (s : Dev) (off : Int) :
    s.keepsTick off = true ↔ (s.clk.again = true ∧ off.natAbs ≤ 1) ∨ (s.clk.again = false ∧ off = 0) := by
  unfold Dev.keepsTick
  cases s.clk.again <;> simp

/-- The clock once the tick is taken from an edge. -/
def Dev.edgeTaken (s : Dev) (off : Int) : Dev :=
  { s with clk := { s.clk with captured := true, good := 0, moved := if s.keepsTick off then s.clk.moved else some off } }

theorem Dev.firstEdge_eq (s : Dev) (off : Int) :
    s.firstEdge off = if s.clk.again && !s.keepsTick off then (s.edgeTaken off).setBits (aFrm 0x10) 0x800 else s.edgeTaken off :=
  rfl

/-- The edge the tick is taken from (R42 step 2, R44 step 2). -/
theorem Dev.firstEdge_moves (s : Dev) (off : Int) :
    (s.firstEdge off).clk = { s.clk with
      captured := true, good := 0
      moved := if (s.clk.again = true ∧ off.natAbs ≤ 1) ∨ (s.clk.again = false ∧ off = 0) then s.clk.moved else some off } ∧
    (s.firstEdge off).bit (aFrm 0x10) 11 = (s.bit (aFrm 0x10) 11 || (s.clk.again && decide (1 < off.natAbs))) ∧
    s.Cards (s.firstEdge off) [aFrm 0x10] ∧ { s.firstEdge off with clk := s.clk, regs := s.regs } = s := by
  have hclk : (s.edgeTaken off).clk = { s.clk with
      captured := true, good := 0
      moved := if (s.clk.again = true ∧ off.natAbs ≤ 1) ∨ (s.clk.again = false ∧ off = 0) then s.clk.moved else some off } := by
    rw [← if_congr (s.keepsTick_iff off) rfl rfl]
    rfl
  have hbit : (s.clk.again && !s.keepsTick off) = (s.clk.again && decide (1 < off.natAbs)) := by
    unfold Dev.keepsTick
    cases s.clk.again with
    | false => rfl
    | true => simp [← decide_not]
  have hcards : s.Cards (s.edgeTaken off) [aFrm 0x10] := Dev.Cards.of_regs rfl _
  rw [Dev.firstEdge_eq, hbit]
  cases hmove : s.clk.again && decide (1 < off.natAbs) with
  | false => exact ⟨hclk, (Bool.or_false _).symm, hcards, rfl⟩
  | true =>
    refine ⟨hclk, ?_, hcards.setBits (by simp) _, rfl⟩
    rw [if_pos rfl, Dev.bit, Dev.rd_setBits_self, W.bit_or, show W.bit 0x800 11 = true by decide, Bool.or_true, Bool.or_true]

/-- A locked slave's edge off its place (R43, R44, R308). -/
theorem Dev.slip_raises (s : Dev) (a : List Nat) :
    (s.slipped.raise (raiseAt 3 2 a)).clk = s.unsync.clk ∧ (s.slipped.raise (raiseAt 3 2 a)).sticky 3 = true ∧
      (s.slipped.raise (raiseAt 3 2 a)).bit (aFrm 0x10) 5 = true ∧
      (s.Clean 0 → s.Voids (s.slipped.raise (raiseAt 3 2 a)) 64 a ∧
        s.Cards (s.slipped.raise (raiseAt 3 2 a)) [aFrm 0x10, aSrc 3, aCls 0] ∧
        s.slipped.OccFrame (s.slipped.raise (raiseAt 3 2 a))) := by
  obtain ⟨now, -, rest⟩ := s.slipped.raiseAt_raised (f := 3) (by decide) (by decide) 2 a
  have hcards : s.Cards s.slipped [aFrm 0x10] := ((Dev.Cards.refl s _).setBits (by simp) _).trans (Dev.Cards.of_regs rfl _)
  have hbit : s.slipped.bit (aFrm 0x10) 5 = true := by
    rw [Dev.bit, show s.slipped.rd (aFrm 0x10) = s.rd (aFrm 0x10) ||| 0x20 from Dev.rd_setBits_self _ _ _, W.bit_or,
      show W.bit 0x20 5 = true by decide, Bool.or_true]
  refine ⟨rest.clk, now, (Dev.bit_congr (rest.cards _ (by decide) (by decide) (by decide)) 5).trans hbit, fun hc => ?_⟩
  exact Dev.raiseAt_void_after (by decide) (Dev.srcEn_of_unmaskable (by decide)) (by decide) (by decide) hc.slipped rfl
    (fun _ => rfl) hcards

/-! ### Missing edges -/

/-- An occurrence's void, whatever its record (R88, R103, R298). -/
theorem Dev.recordOcc_voids (s : Dev) (x l e : Nat) (rs : List (Nat × List Nat)) (c : Nat) (a : List Nat) :
    s.Voids ((s.recordOcc x l e rs).voidSites c a) c a := by
  have hnote := s.noteFrame_recordOcc x l e rs
  obtain ⟨_, _, hvoid⟩ := (Dev.voidFrame_voidSites (s.recordOcc x l e rs) c a).exists
  refine ⟨?_, fun i hi => ?_, fun i hi => ?_⟩
  · rw [hvoid]
    exact congrArg Sys.mode hnote.sys
  · rw [Dev.voidSites_site, if_pos hi, hnote.site]
    exact ⟨rfl, rfl⟩
  · rw [Dev.voidSites_site, if_neg hi, hnote.site]

/-- A masked source that is raised with an enabled one is marked first (R295). -/
theorem Dev.raises_of_masked {s : Dev} {q r : Raise} (hq : (q.forced || s.srcEn q.f) = false)
    (hr : (r.forced || s.srcEn r.f) = true) (hr' : (r.forced || (s.markRaise q.f).srcEn r.f) = true) :
    s.raises [q, r] = (s.markRaise q.f).raise r := by
  have hon : [q, r].filter (fun r => r.forced || s.srcEn r.f) = [r] := by simp [hq, hr]
  have hoff : [q, r].filter (fun r => !(r.forced || s.srcEn r.f)) = [q] := by
    rw [List.filter_cons_of_pos (by rw [hq]; rfl), List.filter_cons_of_neg (by rw [hr]; decide), List.filter_nil]
  have hon' : [r].filter (fun r => r.forced || (s.markRaise q.f).srcEn r.f) = [r] := by simp [hr']
  have hoff' : [r].filter (fun r => !(r.forced || (s.markRaise q.f).srcEn r.f)) = [] := by
    rw [List.filter_cons_of_neg (by rw [hr']; decide), List.filter_nil]
  rw [Dev.raise, Dev.raises_eq_occurOf, Dev.raises_eq_occurOf, hon, hoff, hon', hoff']
  rfl

/-- A source of level 0 leaves its class clean (R291). -/
theorem Dev.Clean.markRaise {s : Dev} {x f : Nat} (h : s.Clean x) (hl : s.lvlOf f = 0) : (s.markRaise f).Clean x := by
  refine ⟨?_, h.alone⟩
  have hsrc : ∀ g, (s.markRaise f).lvlOf g = s.lvlOf g ∧ (g ≠ f → (s.markRaise f).sticky g = s.sticky g) := by
    intro g
    by_cases hg : g = f
    · subst hg
      refine ⟨?_, fun h => absurd rfl h⟩
      rw [Dev.lvlOf, Dev.markRaise, Dev.incSat, Dev.fld_setFld_of_ne _ (by omega) (by omega) (by omega), Dev.fld,
        Dev.rd_setBits_self]
      exact W.fld_congr (fun i hlo hhi => by
        rw [W.bit_or, show W.bit 0x40000000 i = false by obtain rfl | rfl : i = 24 ∨ i = 25 := by omega
                                                         all_goals decide, Bool.or_false])
    · have hrd : (s.markRaise f).rd (aSrc g) = s.rd (aSrc g) := by
        have hne : aSrc g ≠ aSrc f := fun he => hg (aSrc_inj he)
        rw [Dev.markRaise, Dev.incSat, Dev.rd_setFld_of_ne _ hne, Dev.rd_setBits_of_ne _ _ hne]
      exact ⟨Dev.fld_congr hrd 25 24, fun _ => Dev.bit_congr hrd 30⟩
  have hunack : (s.markRaise f).unack x = s.unack x := by
    unfold Dev.unack
    congr 1
    refine funext (fun n => ?_)
    rw [(hsrc _).1]
    by_cases hn : 32 * x + n = f
    · rw [hn, hl]
      simp
    · rw [(hsrc _).2 hn]
  rw [← h.acked, Dev.unackAt, Dev.unackAt, hunack]
  rfl

/-- The fourth missing edge in a row, of a clean class that FSYNC_MISS leaves clean: the sites are voided (R43, R298). -/
theorem Dev.fsyncLost_voids {u : Dev} (a : List Nat) (hc : u.Clean 0) (hmiss : u.srcEn 1 = true ∨ u.lvlOf 1 = 0) :
    u.Voids (u.raises [raiseOf 1 0, raiseAt 2 2 a]) 64 a := by
  cases hen : u.srcEn 1 with
  | true =>
    have hall : ∀ r ∈ [raiseOf 1 0, raiseAt 2 2 a], (r.forced || u.srcEn r.f) = true ∧ r.f / 32 = 0 := by
      intro r hr
      simp only [List.mem_cons, List.not_mem_nil, or_false] at hr
      rcases hr with rfl | rfl
      · exact ⟨hen, by simp [raiseOf]⟩
      · exact ⟨Dev.srcEn_of_unmaskable (s := u) (f := 2) (by decide), by simp [raiseAt]⟩
    rw [Dev.raises_eq_occur (by simp) (by decide) (fun r hr => (hall r hr).1) (fun r hr => (hall r hr).2),
      hc.occur_eq (l := 2) (by simp [raiseOf, raiseAt])]
    have hreact : ∀ t : Dev, t.reacts 0 2 (noOcc 0) [raiseOf 1 0, raiseAt 2 2 a] = t.voidSites 64 a := fun t => by
      simp [Dev.reacts, Dev.react, noOcc, forL, raiseOf, raiseAt, causeBit, Dev.voidSites]
    rw [hreact]
    exact Dev.recordOcc_voids _ _ _ _ _ _ _
  | false =>
    have hlvl : u.lvlOf 1 = 0 := hmiss.resolve_left (by rw [hen]; exact Bool.false_ne_true)
    have hen2 : ∀ t : Dev, ((raiseAt 2 2 a).forced || t.srcEn (raiseAt 2 2 a).f) = true := fun t =>
      Dev.srcEn_of_unmaskable (s := t) (f := 2) (by decide)
    rw [Dev.raises_of_masked (q := raiseOf 1 0) hen (hen2 _) (hen2 _)]
    have hvoids := Dev.raise_voids (r := raiseAt 2 2 a) (by simp [raiseAt]) (hen2 (u.markRaise 1))
      (by simpa [raiseAt] using hc.markRaise hlvl) rfl
    exact hvoids.of_same rfl (fun _ => rfl)

/-- What a missing edge of a locked slave leaves (R43, R308). -/
theorem Dev.missed_raises {s u t : Dev} (h : u.Raised t 1) (hu : u.regs = s.missed.regs) :
    t.clk = u.clk ∧ t.sticky 1 = true ∧ t.bit (aFrm 0x10) 4 = true := by
  refine ⟨h.rest.clk, h.now, ?_⟩
  rw [Dev.bit, h.rest.cards _ (by decide) (by decide) (by decide), show u.rd (aFrm 0x10) = s.missed.rd (aFrm 0x10) by rw [Dev.rd, hu, Dev.rd],
    Dev.missed, Dev.rd_setBits_self, W.bit_or,
    show W.bit 0x10 4 = true by decide, Bool.or_true]

theorem Dev.fsyncLost_raised (u : Dev) (a : List Nat) {f : Nat} (hf : f = 1 ∨ f = 2) :
    u.Raised (u.raises [raiseOf 1 0, raiseAt 2 2 a]) f := by
  have hp : ∀ r ∈ [raiseOf 1 0, raiseAt 2 2 a], r.plain := by
    intro r hr
    simp only [List.mem_cons, List.not_mem_nil, or_false] at hr
    rcases hr with rfl | rfl <;> exact ⟨by simp [raiseOf, raiseAt], by simp [raiseOf, raiseAt]⟩
  have hup := Upset.raises u _ hp
  refine ⟨?_, hup.stays, hup.rest⟩
  rcases hf with rfl | rfl
  · exact Dev.raises_sticky u hp (r := raiseOf 1 0) (by simp)
  · exact Dev.raises_sticky u hp (r := raiseAt 2 2 a) (by simp)

/-! ### O29 -/

theorem exec_fsyncEdge_of_slave {s : State} {off : Int} {m : Bool} (hr : s.sys.mode ≠ .reset) (hm : s.sys.master = false) :
    exec (.fsyncEdge off m) s = .next { s with toDev := if m then (s.edge off).epochMark else s.edge off } :=
  State.run_to (f := fun s => s.fsyncEdge off m) (Dev.fsyncEdge_of_slave hr hm)

/-- Settles O29, by the branches of `Dev.edge` and `Dev.fsyncMiss`. -/
theorem slaveLocksToTheCardTick : Obligations.SlaveLocksToTheCardTick := by
  unfold Obligations.SlaveLocksToTheCardTick
  intro s off lost
  refine ⟨fun h => ?ignored, fun hr hm => ⟨⟨s.edge off, exec_fsyncEdge_of_slave hr hm, ?mark, ?first, ?good, ?slip⟩, ?waits, ?locked⟩,
    fun h => ?armed, fun h => ?idle⟩
  case ignored =>
    have hidle : (s.sys.mode = .reset || s.sys.master) = true := by rcases h with h | h <;> simp [h]
    exact ⟨fun m => State.run_idle (f := fun s => s.fsyncEdge off m) (if_pos hidle),
      State.run_idle (f := fun s => s.fsyncMiss) (if_pos hidle)⟩
  case mark => exact exec_fsyncEdge_of_slave hr hm
  case first =>
    intro h
    have hedge : s.edge off = s.firstEdge off := by
      unfold Dev.edge
      rcases h with h | ⟨hl, hfar⟩
      · rw [h]
        rfl
      · have hnear : ¬ off.natAbs ≤ 1 := by omega
        cases s.clk.captured <;> simp [hl, hnear]
    rw [hedge]
    exact s.firstEdge_moves off
  case good =>
    intro hcap hnear
    rw [Dev.edge, hcap]
    cases s.clk.slocked <;> simp [hnear]
  case slip =>
    intro hcap hl hfar
    have hedge : s.edge off = s.slipped.raise (raiseAt 3 2 s.deviceAim) := by
      rw [Dev.edge, if_neg (by simp [hcap]), if_pos hl, if_neg (by simp; omega)]
    rw [hedge]
    obtain ⟨clk, sticky, bit, clean⟩ := Dev.slip_raises s.toDev s.deviceAim
    refine ⟨clk, sticky, bit, fun hc => ?_⟩
    obtain ⟨voids, cards, r, x, g, f, frame⟩ := clean hc
    exact ⟨voids, cards, by rw [frame]; rfl⟩
  case waits =>
    intro hl
    exact State.run_to (f := fun s => s.fsyncMiss) (by rw [Dev.fsyncMiss, if_neg (by simp [hr, hm]), if_pos (by simp [hl])])
  case locked =>
    intro hl
    refine ⟨_, State.run_to (f := fun s => s.fsyncMiss) (Dev.fsyncMiss_of_locked hr hm hl), ?_⟩
    by_cases h3 : 3 ≤ s.clk.miss
    · rw [if_pos h3]
      obtain ⟨clk, sticky, bit⟩ := Dev.missed_raises (s := s.toDev) (s.missed.unsync.fsyncLost_raised s.deviceAim (.inl rfl)) rfl
      refine ⟨sticky, bit, fun h => absurd h (by omega), fun _ => ⟨clk,
        (s.missed.unsync.fsyncLost_raised s.deviceAim (.inr rfl)).now, fun hc hmiss => ?_⟩⟩
      have hclean : s.missed.unsync.Clean 0 := (hc.setBits (a := aFrm 0x10) (by decide) (by decide) 0x10).of_cards rfl (fun _ _ => rfl)
      have hrd : s.missed.unsync.rd (aSrc 1) = s.rd (aSrc 1) := Dev.rd_setBits_of_ne s.toDev 0x10 (by decide)
      have hvoids := Dev.fsyncLost_voids s.deviceAim hclean
        (hmiss.imp (fun h => by rw [← h, Dev.srcEn, Dev.srcEn, Dev.bit_congr hrd])
          (fun h => by rw [← h, Dev.lvlOf, Dev.lvlOf, Dev.fld_congr hrd]))
      exact hvoids.of_same rfl (fun _ => rfl)
    · rw [if_neg h3]
      have hraised := ({ s.missed with clk := { s.clk with miss := s.clk.miss + 1 } } : Dev).raiseAt_raised (f := 1)
        (by decide) (by decide) 0 []
      obtain ⟨clk, sticky, bit⟩ := Dev.missed_raises (s := s.toDev) hraised rfl
      exact ⟨sticky, bit, fun _ => clk, fun h => absurd h h3⟩
  case armed => exact State.run_to (f := fun s => s.epochMark) (if_pos h)
  case idle => exact State.run_idle (f := fun s => s.epochMark) (if_neg (by rw [h]; exact Bool.false_ne_true))

end Sys2Proof.Machine
end

section
/-! PROOFS. Power domains that come good (R160, R193, R322-R325): O30. -/

namespace Sys2Proof.Machine

/-- With none waiting the scarab takes nothing. -/
theorem Dev.drain_of_none {s : Dev} (h : s.host.waiting = []) : s.drain = s := by
  have hhost : ({ s.host with waiting := [] } : HostIf) = s.host := by rw [← h]
  rw [Dev.drain, h, Dev.takeAll, hhost]

/-- A domain is GOOD (R322). -/
def Dev.madeGood (s : Dev) (n : Nat) : Dev := { s with pwr := { s.pwr with good := insAsc n s.pwr.good } }

theorem Dev.domGood_madeGood (s : Dev) (n m : Nat) : (s.madeGood n).domGood m = (decide (m = n) || s.domGood m) := by
  rw [Bool.eq_iff_iff]
  simp [Dev.domGood, Dev.madeGood, mem_insAsc]

/-- GOOD of the domains is kept with `pwr.good`. -/
theorem Dev.domGood_congr {s t : Dev} (h : t.pwr.good = s.pwr.good) (m : Nat) : t.domGood m = s.domGood m := by
  rw [Dev.domGood, h, Dev.domGood]

theorem Dev.domGood_of_madeGood {s t : Dev} {n : Nat} (h : t.pwr.good = (s.madeGood n).pwr.good) :
    t.domGood n = true ∧ ∀ m, m ≠ n → t.domGood m = s.domGood m :=
  ⟨by rw [Dev.domGood_congr h, Dev.domGood_madeGood]; simp,
   fun m hm => by rw [Dev.domGood_congr h, Dev.domGood_madeGood]; simp [hm]⟩

/-! ### A bank group -/

theorem locOf_aCis {o : Nat} (h : o < 2 ^ 27) : locOf (aCis o) = .cis o := by
  have hlt : aCis o < 0x108000000 := by unfold aCis; omega
  have hge : ∀ b, b ≤ 0x100000000 → ¬aCis o < b := fun b hb => by unfold aCis; omega
  have hsub : aCis o - 0x100000000 = o := by unfold aCis; omega
  simp only [locOf, hge, hlt, hsub, Nat.reduceLeDiff, if_false, if_true]

/-- The cistern bytes of a group are 0, and no other byte differs (R160). -/
theorem Dev.byte_groupClear (s : Dev) (g : Nat) :
    (∀ o, o < 2 ^ 27 → s.bankOf o / 4 = g → (s.groupClear g).byte (aCis o) = 0) ∧
      ∀ a, (∀ o, locOf a = .cis o → s.bankOf o / 4 ≠ g) → (s.groupClear g).byte a = s.byte a := by
  refine ⟨fun o ho hg => ?_, fun a ha => ?_⟩
  · have hloc := locOf_aCis ho
    have hzero : memByte (aCis o) = 0 := by rw [memByte, hloc]
    rw [← hzero]
    exact Tab.get_filter_of_drop memByte (fun _ => by simp [hloc, hg]) s.mem
  · refine Tab.get_filter_of_keep memByte (fun _ => ?_) s.mem
    cases hloc : locOf a <;> simp
    exact ha _ hloc

/-- Every bank group that the request waits for is good (R323). -/
def Dev.groupsGood (s : Dev) : Bool :=
  !s.pwr.asked.any (fun a => a.1.any (fun x => x.1 = 0x2C)) && (List.range s.pwr.groups).all (fun g => s.domGood (160 + g))

/-- A PWR_GROUPS completes, or nothing happens (R323). -/
theorem Dev.groupsDone_cases (s : Dev) :
    (∀ j, s.pwr.job = some j → s.groupsGood = true →
      s.groupsDone = ({ s with pwr := { s.pwr with job := none } } : Dev).complete j 0 0 []) ∧
    (s.pwr.job = none ∨ s.groupsGood = false → s.groupsDone = s) := by
  unfold Dev.groupsDone
  refine ⟨fun j hj hg => ?_, fun h => ?_⟩
  · rw [hj]
    exact if_pos hg
  · cases hj : s.pwr.job with
    | none => rfl
    | some j =>
      have hfalse : s.groupsGood = false := h.resolve_left (by simp [hj])
      exact if_neg (show ¬ s.groupsGood = true by rw [hfalse]; decide)

/-- A completion changes the MSPI completions and the links. -/
theorem Dev.complete_only (s : Dev) (j : Job) (a b : Nat) (d : List W) :
    ∃ m l, s.complete j a b d = { s with host := { s.host with mspiCpl := m }, links := l } := by
  unfold Dev.complete
  dsimp only
  split
  · exact ⟨_, _, rfl⟩
  · exact ⟨_, _, rfl⟩

/-- It completes or not, the power table but its job, the cards and the engines stand. -/
theorem Dev.groupsDone_only (s : Dev) :
    ∃ j m l, s.groupsDone = { s with pwr := { s.pwr with job := j }, host := { s.host with mspiCpl := m }, links := l } := by
  obtain ⟨hdone, hkept⟩ := s.groupsDone_cases
  have hidle : s.pwr.job = none ∨ s.groupsGood = false →
      ∃ j m l, s.groupsDone = { s with pwr := { s.pwr with job := j }, host := { s.host with mspiCpl := m }, links := l } :=
    fun h => ⟨s.pwr.job, s.host.mspiCpl, s.links, hkept h⟩
  cases hj : s.pwr.job with
  | none => exact hidle (.inl hj)
  | some j =>
    cases hg : s.groupsGood with
    | false => exact hidle (.inr hg)
    | true =>
      obtain ⟨m, l, h⟩ := Dev.complete_only { s with pwr := { s.pwr with job := none } } j 0 0 []
      exact ⟨none, m, l, (hdone j hj hg).trans h⟩

/-! ### A bias domain -/

/-- A quad that is not retired is asked for (R325). -/
def Dev.askQuad (q : Nat) (s : Dev) : Dev := if (s.quad q).st = .retired then s else s.domWait q

/-- The quads of a die. -/
def Dev.askQuads (s : Dev) (l : List Nat) : Dev := forL l Dev.askQuad s

theorem Dev.askQuads_die (s : Dev) (b : Nat) :
    s.askQuads ((List.range 36).map (36 * b + ·)) = forN 36 (fun i s => Dev.askQuad (36 * b + i) s) s := by
  unfold Dev.askQuads Machine.forN Machine.forL
  rw [List.foldl_map]

theorem Dev.domWait_good (s : Dev) (n : Nat) : (s.domWait n).pwr.good = s.pwr.good ∧ (s.domWait n).pwr.on = s.pwr.on := by
  unfold Dev.domWait
  split <;> exact ⟨rfl, rfl⟩

theorem Dev.askQuads_asks (l : List Nat) (s : Dev) :
    s.PwrFrame (s.askQuads l) ∧ (s.askQuads l).pwr.good = s.pwr.good ∧ (s.askQuads l).pwr.on = s.pwr.on ∧
      (∀ n, s.domAsked n = true → (s.askQuads l).domAsked n = true) ∧
      ∀ q, q ∈ l → (s.quad q).st ≠ .retired → (s.askQuads l).domAsked q = true := by
  induction l generalizing s with
  | nil => exact ⟨rfl, rfl, rfl, fun n h => h, fun q hq => absurd hq (List.not_mem_nil)⟩
  | cons m r ih =>
    have hcons : s.askQuads (m :: r) = Dev.askQuads (if (s.quad m).st = .retired then s else s.domWait m) r := rfl
    rw [hcons]
    by_cases hm : (s.quad m).st = .retired
    · rw [if_pos hm]
      obtain ⟨frame, good, on, keep, asks⟩ := ih s
      refine ⟨frame, good, on, keep, fun q hq hs => ?_⟩
      rcases List.mem_cons.mp hq with rfl | hq
      · exact absurd hm hs
      · exact asks q hq hs
    · rw [if_neg hm]
      obtain ⟨frame, good, on, keep, asks⟩ := ih (s.domWait m)
      have hsame : ∀ q, (s.domWait m).quad q = s.quad q := fun q => by
        obtain ⟨p, hp⟩ := (s.pwrFrame_domWait m).exists_pwr
        rw [hp]
        rfl
      refine ⟨(s.pwrFrame_domWait m).trans frame, good.trans (s.domWait_good m).1, on.trans (s.domWait_good m).2,
        fun n hn => keep n (by rw [Dev.domAsked_domWait, hn, Bool.or_true]), fun q hq hs => ?_⟩
      rcases List.mem_cons.mp hq with rfl | hq
      · exact keep _ (by rw [Dev.domAsked_domWait]; simp)
      · exact asks q hq (by rw [hsame]; exact hs)

/-! ### O30 -/

/-- What follows in each kind of domain once it is GOOD. -/
def Dev.goodActs (s : Dev) : Domain → Dev
  | .quad q => s.onQuad q (fun z => { z with powering := some 0 })
  | .cluster _ => s
  | .group g => (s.groupClear g).groupsDone
  | .lane j => s.startLane j
  | .bias b => if s.sys.boot = .training then s.askQuads ((List.range 36).map (36 * b.val + ·)) else s

theorem Dev.domainGood_eq {s : Dev} {d : Domain} (hon : s.domOn (domNum d) = true) (hg : s.domGood (domNum d) = false) :
    s.domainGood (domNum d) = (s.madeGood (domNum d)).goodActs d := by
  rw [Dev.domainGood, if_neg (by rw [hon, hg]; decide)]
  cases d with
  | quad q =>
    have hq : (domNum (.quad q)) = q.val := rfl
    rw [hq, if_neg (by omega), if_neg (by omega), if_neg (by omega), if_neg (by omega)]
    rfl
  | cluster k =>
    have hk : (domNum (.cluster k)) = 144 + k.val := rfl
    rw [hk, if_neg (by omega), if_neg (by omega), if_neg (by omega), if_pos (by omega)]
    rfl
  | group g =>
    have hk : (domNum (.group g)) = 160 + g.val := rfl
    rw [hk, if_neg (by omega), if_neg (by omega), if_pos (by omega), Nat.add_sub_cancel_left]
    rfl
  | lane j =>
    have hk : (domNum (.lane j)) = 176 + j.val := rfl
    rw [hk, if_neg (by omega), if_pos (by omega), Nat.add_sub_cancel_left]
    rfl
  | bias b =>
    have hk : (domNum (.bias b)) = 192 + b.val := rfl
    rw [hk, if_pos (by omega), Nat.add_sub_cancel_left]
    refine if_congr Iff.rfl ?_ rfl
    exact (Dev.askQuads_die _ _).symm

theorem exec_domainGood {s : State} {d : Domain} {t : Dev} (hon : s.domOn (domNum d) = true)
    (hg : s.domGood (domNum d) = false) (ht : (s.madeGood (domNum d)).goodActs d = t) (hw : t.host.waiting = []) :
    exec (.domainGood d) s = .next { s with toDev := t } := by
  refine State.run_to (f := fun s => (s.domainGood (domNum d)).drain) ?_
  rw [Dev.domainGood_eq hon hg, ht, Dev.drain_of_none hw]

/-- A clean lane that is powered begins its first attempt (R340). -/
theorem Dev.startLane_begins {s : Dev} {j : Nat} (h : (s.lane j).st = .off) :
    ((s.startLane j).lane j).st = .train ∧ ((s.startLane j).lane j).attempt = 1 ∧
      ((s.startLane j).lane j).total = min 255 ((s.lane j).total + 1) ∧ (∀ k, k ≠ j → (s.startLane j).lane k = s.lane k) ∧
      { s.startLane j with lanes := s.lanes } = s := by
  rw [Dev.startLane, if_pos h, Dev.attempt, Dev.onLane]
  refine ⟨?_, ?_, ?_, fun k hk => Dev.lane_setLane_of_ne _ hk _, rfl⟩
  all_goals rw [Dev.lane_setLane_self]

/-- Settles O30, by the kind of domain (`Dev.goodActs`). -/
theorem domainsComeGood : Obligations.DomainsComeGood := by
  unfold Obligations.DomainsComeGood
  intro s d hw
  refine ⟨fun hon hg => ?good, fun h => ?idle⟩
  case idle =>
    refine State.run_idle (f := fun s => (s.domainGood (domNum d)).drain) ?_
    have hidle : s.domainGood (domNum d) = s.toDev := if_pos (by rcases h with h | h <;> simp [h])
    rw [hidle, Dev.drain_of_none hw]
  case good =>
    cases d with
    | quad q =>
      obtain ⟨hgood, hothers⟩ := Dev.domGood_of_madeGood (s := s.toDev) (t := (s.madeGood q).onQuad q (fun z => { z with powering := some 0 }))
        (n := q) rfl
      refine ⟨_, exec_domainGood hon hg rfl hw, hgood, hothers, rfl, rfl, rfl, rfl, ?_, nofun, nofun, nofun, nofun, nofun, nofun⟩
      intro p hp
      cases hp
      exact ⟨rfl, rfl⟩
    | cluster k =>
      obtain ⟨hgood, hothers⟩ := Dev.domGood_of_madeGood (s := s.toDev) (t := s.madeGood (144 + k.val)) rfl
      exact ⟨_, exec_domainGood hon hg rfl hw, hgood, hothers, rfl, rfl, rfl, rfl, nofun, nofun, nofun, fun _ _ => rfl,
        nofun, nofun, nofun⟩
    | group g =>
      obtain ⟨hgood, hothers⟩ := Dev.domGood_of_madeGood (s := s.toDev) (t := ((s.madeGood (160 + g.val)).groupClear g).groupsDone)
        (n := 160 + g.val) (by obtain ⟨j, m, l, h⟩ := ((s.madeGood (160 + g.val)).groupClear g).groupsDone_only; rw [h]; rfl)
      obtain ⟨zero, bytes⟩ := (s.madeGood (160 + g.val)).byte_groupClear g
      obtain ⟨done, kept⟩ := ((s.madeGood (160 + g.val)).groupClear g).groupsDone_cases
      obtain ⟨j, m, l, hframe⟩ := ((s.madeGood (160 + g.val)).groupClear g).groupsDone_only
      have hexec : exec (.domainGood (.group g)) s =
          .next { s with toDev := ((s.madeGood (160 + g.val)).groupClear g).groupsDone } :=
        exec_domainGood hon hg rfl (by rw [hframe]; exact hw)
      refine ⟨_, hexec, hgood, hothers, by rw [hframe]; rfl, by rw [hframe]; rfl, by rw [hframe]; rfl, by rw [hframe]; rfl, nofun, nofun, nofun, nofun, ?_, nofun, nofun⟩
      intro i hi
      cases hi
      refine ⟨fun o ho hb => ?_, fun a ha => ?_, fun hj => ?_, fun j hj hasked hall => ?_⟩
      · rw [hframe]
        exact zero o ho hb
      · rw [hframe]
        exact bytes a ha
      · rw [kept (.inl hj)]
        rfl
      · have hgroups : ((s.madeGood (160 + g.val)).groupClear g).groupsGood = true := by
          have hnone : ((s.madeGood (160 + g.val)).groupClear g).pwr.asked = [] := hasked
          rw [Dev.groupsGood, hnone, List.any_nil, Bool.not_false, Bool.true_and, List.all_eq_true]
          intro h hh
          have hmade : ((s.madeGood (160 + g.val)).groupClear g).domGood (160 + h) = (s.madeGood (160 + g.val)).domGood (160 + h) := rfl
          rw [hmade, Dev.domGood_madeGood]
          by_cases he : h = g.val
          · simp [he]
          · rw [hall h (List.mem_range.mp hh) he, Bool.or_true]
        rw [done j hj hgroups]
        exact ⟨by obtain ⟨m, l, h⟩ := Dev.complete_only _ j 0 0 []; rw [h], Dev.answersCmd_complete j 0 0 [] rfl rfl rfl⟩
    | lane j =>
      have hoff : ∀ u : Dev, (u.lane j).st ≠ .off → u.startLane j = u := fun u h => if_neg h
      have hframe : ∃ l, (s.madeGood (176 + j.val)).startLane j = { s.madeGood (176 + j.val) with lanes := l } := by
        unfold Dev.startLane
        split <;> exact ⟨_, rfl⟩
      obtain ⟨l, hframe⟩ := hframe
      obtain ⟨hgood, hothers⟩ := Dev.domGood_of_madeGood (s := s.toDev) (t := (s.madeGood (176 + j.val)).startLane j)
        (n := 176 + j.val) (by rw [hframe])
      have hexec : exec (.domainGood (.lane j)) s = .next { s with toDev := (s.madeGood (176 + j.val)).startLane j } :=
        exec_domainGood hon hg rfl (by rw [hframe]; exact hw)
      refine ⟨_, hexec, hgood, hothers, by rw [hframe]; rfl, by rw [hframe]; rfl, by rw [hframe]; rfl, by rw [hframe]; rfl, nofun, ?_, ?_, nofun, nofun, nofun, nofun⟩
      · intro i hi hst
        cases hi
        obtain ⟨st, attempt, total, others, -⟩ := Dev.startLane_begins (s := s.madeGood (176 + j.val)) hst
        exact ⟨st, attempt, total, others, by rw [hframe]; rfl⟩
      · intro i hi hst
        cases hi
        rw [hoff (s.madeGood (176 + j.val)) hst]
        rfl
    | bias b =>
      have hacts : (s.madeGood (192 + b.val)).PwrFrame ((s.madeGood (192 + b.val)).goodActs (.bias b)) ∧
          ((s.madeGood (192 + b.val)).goodActs (.bias b)).pwr.good = (s.madeGood (192 + b.val)).pwr.good ∧
          ((s.madeGood (192 + b.val)).goodActs (.bias b)).pwr.on = s.pwr.on := by
        rw [Dev.goodActs]
        split
        · obtain ⟨frame, good, on, -⟩ := Dev.askQuads_asks ((List.range 36).map (36 * b.val + ·)) (s.madeGood (192 + b.val))
          exact ⟨frame, good, on⟩
        · exact ⟨rfl, rfl, rfl⟩
      obtain ⟨hpwr, hsame, honn⟩ := hacts
      obtain ⟨hgood, hothers⟩ := Dev.domGood_of_madeGood (s := s.toDev) hsame
      obtain ⟨p, hframe⟩ := hpwr.exists_pwr
      have hexec : exec (.domainGood (.bias b)) s = .next { s with toDev := (s.madeGood (192 + b.val)).goodActs (.bias b) } :=
        exec_domainGood hon hg rfl (by rw [hframe]; exact hw)
      refine ⟨_, hexec, hgood, hothers, honn, by rw [hframe]; rfl, by rw [hframe]; rfl, by rw [hframe]; rfl, nofun, nofun, nofun, nofun, nofun, ?_, ?_⟩
      · intro i hi hboot q h1 h2 hst
        cases hi
        obtain ⟨-, -, -, -, asks⟩ := Dev.askQuads_asks ((List.range 36).map (36 * b.val + ·)) (s.madeGood (192 + b.val))
        have hacts : (s.madeGood (192 + b.val)).goodActs (.bias b) =
            (s.madeGood (192 + b.val)).askQuads ((List.range 36).map (36 * b.val + ·)) := if_pos hboot
        rw [hacts]
        exact asks q (List.mem_map.mpr ⟨q - 36 * b.val, List.mem_range.mpr (by omega), by omega⟩) hst
      · intro i hi
        cases hi
        rw [hframe]
        rfl

end Sys2Proof.Machine
end

section
/-! PROOFS. Domains and units that fail (R302, R308): O31 and O32. -/

namespace Sys2Proof.Machine

/-! ### O31 -/

/-- What the statement asks of a domain's fault, raised on `u` and clean on `s`. -/
def DomainFails (s u t : Dev) (d : Domain) : Prop :=
  u.Raised t (match d with | .quad _ => 35 | .cluster _ => 36 | .group _ => 37 | .lane _ => 38 | .bias _ => 39) ∧
    ((match d with | .group _ | .bias _ => True | _ => False) → u.sys.mode ≠ .reset → t.sys.mode = .safe) ∧
      (s.Clean 1 → (∀ k, d = .cluster k → u.Voids t 4 (u.clusterAim k)) ∧
        (∀ q, d = .quad q → t.sys.mode = u.sys.mode ∧ (t.quad q).retire = true) ∧
        (∀ j, d = .lane j → t.sys.mode = u.sys.mode ∧ (t.lane j).st = .failed ∧ (t.lane j).failed = true))

/-- A raise at DEGRADE that asks for the repair of a unit (R302). -/
def repairOf (f u : Nat) (l : List Nat) : Raise := { f := f, lvl := 1, sites := l, unit := u, forced := false }

/-- A clean repair: the repair acts on the recorded state (R299, R302). -/
theorem Dev.raise_repairOf {s : Dev} {f x : Nat} (hf : f < 384) (hen : fltMaskable f = false) (hx : f / 32 = x) (hc : s.Clean x)
    (u : Nat) (l : List Nat) : ∃ v, s.NoteFrame v ∧ s.raise (repairOf f u l) = v.repair f u := by
  subst hx
  exact ⟨_, s.noteFrame_recordOcc _ _ _ _, Dev.raise_of_degrade (r := repairOf f u l) hf (Dev.srcEn_of_unmaskable hen) hc rfl rfl⟩

theorem Dev.repairOf_raised (s : Dev) {f : Nat} (hf : f < 384) (hne : f ≠ 289) (u : Nat) (l : List Nat) :
    s.Raised (s.raise (repairOf f u l)) f := s.raise_raised (repairOf f u l) ⟨hf, hne⟩

/-- The fault of each kind of domain (R308). -/
theorem Dev.domFault_eq (s : Dev) (d : Domain) : s.domFault (domNum d) =
    match d with
    | .quad q => s.raise (repairOf 35 q (s.quadAim q))
    | .cluster k => s.raise (raiseAt 36 2 (s.clusterAim k))
    | .group _ => s.raise (raiseOf 37 3)
    | .lane j => s.raise (repairOf 38 j [])
    | .bias _ => s.raise (raiseOf 39 3) := by
  cases d with
  | quad q =>
    show s.domFault q.val = _
    rw [Dev.domFault, if_neg (by omega), if_neg (by omega), if_neg (by omega), if_neg (by omega)]
    rfl
  | cluster k =>
    show s.domFault (144 + k.val) = _
    rw [Dev.domFault, if_neg (by omega), if_neg (by omega), if_neg (by omega), if_pos (by omega), Nat.add_sub_cancel_left]
  | group g =>
    show s.domFault (160 + g.val) = _
    rw [Dev.domFault, if_neg (by omega), if_neg (by omega), if_pos (by omega)]
  | lane j =>
    show s.domFault (176 + j.val) = _
    rw [Dev.domFault, if_neg (by omega), if_pos (by omega), Nat.add_sub_cancel_left]
    rfl
  | bias b =>
    show s.domFault (192 + b.val) = _
    rw [Dev.domFault, if_pos (by omega)]

theorem domFault_fails {s u : Dev} (d : Domain) (hc : s.Clean 1 → u.Clean 1) : DomainFails s u (u.domFault (domNum d)) d := by
  rw [Dev.domFault_eq]
  cases d with
  | quad q =>
    refine ⟨u.repairOf_raised (by decide) (by decide) _ _, False.elim, fun hcl => ⟨nofun, fun p hp => ?_, nofun⟩⟩
    cases hp
    obtain ⟨v, hnote, hraise⟩ := Dev.raise_repairOf (f := 35) (by decide) (by decide) (by decide) (hc hcl) q.val (u.quadAim q)
    have hquad : v.repair 35 q.val = v.onQuad q.val (fun x => { x with retire := true }) := rfl
    dsimp only
    rw [hraise, hquad]
    exact ⟨congrArg Sys.mode hnote.sys, by rw [Dev.onQuad, Dev.quad_setQuad_self]⟩
  | cluster k =>
    refine ⟨u.raiseAt_raised (by decide) (by decide) _ _, False.elim, fun hcl => ⟨fun i hi => ?_, nofun, nofun⟩⟩
    cases hi
    exact (Dev.raiseAt_void_after (a := 0) (by decide) (Dev.srcEn_of_unmaskable (by decide)) (by decide) (by decide) (hc hcl)
      rfl (fun _ => rfl) (Dev.Cards.refl u _)).1
  | group g =>
    exact ⟨u.raise_raised (raiseOf 37 3) ⟨by decide, by decide⟩,
      fun _ hm => (Dev.raiseOf_safe (by decide) (by decide) (by decide) hm).1, fun _ => ⟨nofun, nofun, nofun⟩⟩
  | lane j =>
    refine ⟨u.repairOf_raised (by decide) (by decide) _ _, False.elim, fun hcl => ⟨nofun, nofun, fun p hp => ?_⟩⟩
    cases hp
    obtain ⟨v, hnote, hraise⟩ := Dev.raise_repairOf (f := 38) (by decide) (by decide) (by decide) (hc hcl) j.val []
    have hlane : v.repair 38 j.val = v.onLane j.val (fun x => { x with st := .failed, failed := true, ready := false }) := rfl
    dsimp only
    rw [hraise, hlane]
    exact ⟨congrArg Sys.mode hnote.sys, by rw [Dev.onLane, Dev.lane_setLane_self], by rw [Dev.onLane, Dev.lane_setLane_self]⟩
  | bias b =>
    exact ⟨u.raise_raised (raiseOf 39 3) ⟨by decide, by decide⟩,
      fun _ hm => (Dev.raiseOf_safe (by decide) (by decide) (by decide) hm).1, fun _ => ⟨nofun, nofun, nofun⟩⟩

/-- GOOD of a domain ends (R308). -/
def Dev.madeBad (s : Dev) (n : Nat) : Dev := { s with pwr := { s.pwr with good := rmv n s.pwr.good } }

theorem exec_domainTimeout {s : State} {d : Domain} (hon : s.domOn (domNum d) = true) (hg : s.domGood (domNum d) = false) :
    exec (.domainTimeout d) s = .next { s with toDev := s.domFault (domNum d) } :=
  State.run_to (f := fun s => if s.domOn (domNum d) && !s.domGood (domNum d) then s.domFault (domNum d) else s)
    (if_pos (by rw [hon, hg]; rfl))

theorem exec_domainFail {s : State} {d : Domain} (hg : s.domGood (domNum d) = true) (hn : 160 ≤ domNum d) :
    exec (.domainFail d) s = .next { s with toDev := (s.madeBad (domNum d)).domFault (domNum d) } :=
  State.run_to (f := fun s => if s.domGood (domNum d) && 160 ≤ domNum d then (s.madeBad (domNum d)).domFault (domNum d) else s)
    (if_pos (by simp [hg, hn]))

theorem Dev.domGood_madeBad (s : Dev) (n : Nat) : (s.madeBad n).domGood n = false := by
  simp [Dev.domGood, Dev.madeBad, rmv]

/-- Settles O31, by the fault of each kind of domain (`domFault_fails`). -/
theorem domainFaultsRaise : Obligations.DomainFaultsRaise := by
  unfold Obligations.DomainFaultsRaise
  intro s d f Safe Fails
  refine ⟨fun hon hg => ⟨_, exec_domainTimeout hon hg, ?fails⟩, fun h => ?idle, fun hg hn => ⟨_, exec_domainFail hg hn, ?failsBad, ?bad⟩,
    fun h => ?kept⟩
  case fails =>
    have h := domFault_fails (s := s.toDev) d id
    cases d <;> exact h
  case idle =>
    exact State.run_idle (f := fun s => if s.domOn (domNum d) && !s.domGood (domNum d) then s.domFault (domNum d) else s)
      (if_neg (by rcases h with h | h <;> simp [h]))
  case failsBad =>
    have h := domFault_fails (s := s.toDev) (u := s.madeBad (domNum d)) d (fun hc => hc.congr rfl (fun _ => ⟨rfl, rfl⟩))
    cases d <;> exact h
  case bad =>
    have hraised := (domFault_fails (s := s.toDev) (u := s.madeBad (domNum d)) d (fun hc => hc.congr rfl (fun _ => ⟨rfl, rfl⟩))).1
    obtain ⟨-, good, -⟩ := hraised.rest.power
    exact (Dev.domGood_congr good _).trans (s.domGood_madeBad _)
  case kept =>
    exact State.run_idle (f := fun s => if s.domGood (domNum d) && 160 ≤ domNum d then (s.madeBad (domNum d)).domFault (domNum d)
      else s) (if_neg (by rcases h with h | h <;> simp [h]))

/-! ### O32 -/

/-- What an element's action brings about, and none ends, holds after them all. -/
theorem forL_attains {σ α : Type} {P : σ → Prop} {l : List α} {f : α → σ → σ} (hkeep : ∀ a s, a ∈ l → P s → P (f a s))
    {b : α} (hb : b ∈ l) (hact : ∀ s, P (f b s)) (s : σ) : P (forL l f s) := by
  induction l generalizing s with
  | nil => exact absurd hb List.not_mem_nil
  | cons a r ih =>
    have htail : ∀ c t, c ∈ r → P t → P (f c t) := fun c t hc => hkeep c t (List.mem_cons_of_mem a hc)
    rcases List.mem_cons.mp hb with rfl | hb
    · exact forL_keeps (I := P) (fun c hc t => htail c t hc) (hact s)
    · exact ih htail hb (f a s)

theorem Dev.raises_nil (s : Dev) : s.raises [] = s := by
  have hoff : ∀ t : Dev, forL (List.range 12) (Dev.occurOf []) t = t := fun t =>
    forL_keeps (I := fun u => u = t) (fun _ _ u hu => hu) rfl
  exact hoff s

/-- The raises of failed units, all at DEGRADE, of sources that are not masked. -/
def Repairs (x : Nat) (rs : List Raise) : Prop :=
  ∀ r ∈ rs, r = repairOf r.f r.unit r.sites ∧ fltMaskable r.f = false ∧ r.f / 32 = x ∧ r.plain

/-- In a clean class each unit's repair follows the record (R299, R302). -/
theorem Dev.raises_repairs {s : Dev} {x : Nat} {rs : List Raise} (hrs : Repairs x rs) (hx : x < 12) (hc : s.Clean x) :
    ∃ v, s.NoteFrame v ∧ s.raises rs = forL rs (fun r t => t.repair r.f r.unit) v := by
  cases hne : rs with
  | nil => exact ⟨s, s.noteFrame_refl, s.raises_nil⟩
  | cons q l =>
    rw [← hne]
    have hlvl : ∀ r ∈ rs, r.lvl = 1 ∧ r.forced = false := fun r hr => by rw [(hrs r hr).1]; exact ⟨rfl, rfl⟩
    have hmax : rs.foldl (fun m r => max m r.lvl) 0 = 1 := by
      have hone : ∀ l : List Raise, (∀ r ∈ l, r.lvl = 1) → l.foldl (fun m r => max m r.lvl) 1 = 1 := by
        intro l hl
        induction l with
        | nil => rfl
        | cons a r ih => rw [List.foldl_cons, hl a (by simp)]; exact ih (fun b hb => hl b (List.mem_cons_of_mem a hb))
      rw [hne, List.foldl_cons, (hlvl q (by rw [hne]; simp)).1]
      exact hone l (fun r hr => (hlvl r (by rw [hne]; exact List.mem_cons_of_mem q hr)).1)
    refine ⟨_, s.noteFrame_recordOcc x 1 1 (rs.map (fun r => (r.f, r.sites))), ?_⟩
    rw [Dev.raises_eq_occur (by rw [hne]; simp) hx (fun r hr => by rw [Dev.srcEn_of_unmaskable (hrs r hr).2.1, Bool.or_true])
      (fun r hr => (hrs r hr).2.2.1), hc.occur_eq hmax]
    have hreact : ∀ v : Dev, v.reacts x 1 (noOcc x) rs = forL rs (fun r t => t.react 1 r) v := fun v => rfl
    rw [hreact]
    have hstep : ∀ (l : List Raise) (v : Dev), (∀ r ∈ l, r.lvl = 1 ∧ r.forced = false) →
        forL l (fun r t => t.react 1 r) v = forL l (fun r t => t.repair r.f r.unit) v := by
      intro l v hl
      induction l generalizing v with
      | nil => rfl
      | cons a r ih =>
        have hact : v.react 1 a = v.repair a.f a.unit := by
          obtain ⟨h1, h2⟩ := hl a (by simp)
          simp [Dev.react, h1, h2]
        show forL r _ (v.react 1 a) = forL r _ (v.repair a.f a.unit)
        rw [hact]
        exact ih _ (fun b hb => hl b (List.mem_cons_of_mem a hb))
    exact hstep rs _ hlvl

/-- The sources of units whose repair notes it on the unit. -/
def unitSource (f : Nat) : Prop := f = 224 ∨ f = 229 ∨ f = 170

/-- What the repair of a unit notes on it (R302). -/
def Dev.Notes (t : Dev) (r : Raise) : Prop :=
  (r.f = 224 → r.unit % 5 ∈ (t.quad (r.unit / 5)).faults) ∧ (r.f = 229 → (t.quad r.unit).retire = true) ∧
    (r.f = 170 → (t.eng r.unit).repair = true)

theorem Dev.quad_onQuad (s : Dev) (q k : Nat) (f : Quad → Quad) :
    (s.onQuad q f).quad k = if k = q then f (s.quad k) else s.quad k := by
  by_cases h : k = q
  · subst h
    rw [if_pos rfl, Dev.onQuad, Dev.quad_setQuad_self]
  · rw [if_neg h, Dev.onQuad, Dev.quad_setQuad_of_ne _ h]

theorem Dev.eng_onEng (s : Dev) (e k : Nat) (f : Eng → Eng) :
    (s.onEng e f).eng k = if k = e then f (s.eng k) else s.eng k := by
  by_cases h : k = e
  · subst h
    rw [if_pos rfl, Dev.onEng, Dev.eng_setEng_self]
  · rw [if_neg h, Dev.onEng, Dev.eng_setEng_of_ne _ h]

/-- These repairs, each once. -/
theorem Dev.repair_cases (s : Dev) (u : Nat) :
    s.repair 224 u = s.onQuad (u / 5) (fun q => { q with faults := insAsc (u % 5) q.faults }) ∧
      s.repair 229 u = s.onQuad u (fun q => { q with retire := true }) ∧
      s.repair 170 u = s.onEng u (fun g => { g with repair := true }) := ⟨rfl, rfl, rfl⟩

/-- Each of these repairs notes its own. -/
theorem Dev.notes_repair {r : Raise} (hr : unitSource r.f) (s : Dev) : (s.repair r.f r.unit).Notes r := by
  obtain ⟨hch, hquad, heng⟩ := s.repair_cases r.unit
  rcases hr with h | h | h <;> rw [Dev.Notes, h] <;>
    refine ⟨fun hf => ?_, fun hf => ?_, fun hf => ?_⟩ <;> first | exact absurd hf (by decide) | skip
  · rw [hch, Dev.quad_onQuad, if_pos rfl]
    exact mem_insAsc.mpr (.inl rfl)
  · rw [hquad, Dev.quad_onQuad, if_pos rfl]
  · rw [heng, Dev.eng_onEng, if_pos rfl]

/-- None of them ends a note, and the mode stands. -/
theorem Dev.repair_keeps {f : Nat} (hf : unitSource f) (s : Dev) (u : Nat) :
    (s.repair f u).sys = s.sys ∧ ∀ r, s.Notes r → (s.repair f u).Notes r := by
  obtain ⟨hch, hquad, heng⟩ := s.repair_cases u
  rcases hf with rfl | rfl | rfl
  · rw [hch]
    refine ⟨rfl, fun r ⟨h1, h2, h3⟩ => ⟨fun hr => ?_, fun hr => ?_, h3⟩⟩
    · rw [Dev.quad_onQuad]
      split
      next heq => exact mem_insAsc.mpr (.inr (h1 hr))
      next => exact h1 hr
    · rw [Dev.quad_onQuad]
      split <;> exact h2 hr
  · rw [hquad]
    refine ⟨rfl, fun r ⟨h1, h2, h3⟩ => ⟨fun hr => ?_, fun hr => ?_, h3⟩⟩
    · rw [Dev.quad_onQuad]
      split <;> exact h1 hr
    · rw [Dev.quad_onQuad]
      split
      next => rfl
      next => exact h2 hr
  · rw [heng]
    refine ⟨rfl, fun r ⟨h1, h2, h3⟩ => ⟨h1, h2, fun hr => ?_⟩⟩
    rw [Dev.eng_onEng]
    split
    next => rfl
    next => exact h3 hr

/-- Failed units in a clean class: the mode is kept and each unit waits for its repair (R299, R302). -/
theorem Dev.raises_note {s : Dev} {x : Nat} {rs : List Raise} (hrs : Repairs x rs) (hu : ∀ r ∈ rs, unitSource r.f) (hx : x < 12)
    (hc : s.Clean x) : (s.raises rs).sys.mode = s.sys.mode ∧ ∀ r ∈ rs, (s.raises rs).Notes r := by
  obtain ⟨v, hnote, hraises⟩ := Dev.raises_repairs hrs hx hc
  rw [hraises]
  refine ⟨?_, fun r hr => ?_⟩
  · refine forL_keeps (I := fun t : Dev => t.sys.mode = s.sys.mode) (fun r hr t ht => ?_) (congrArg Sys.mode hnote.sys)
    rw [(Dev.repair_keeps (hu r hr) t r.unit).1]
    exact ht
  · exact forL_attains (P := fun t : Dev => t.Notes r) (fun q t hq ht => (Dev.repair_keeps (hu q hq) t q.unit).2 r ht) hr
      (fun t => Dev.notes_repair (hu r hr) t) v

/-- What the statement asks of the faults of one ECLK. -/
theorem Dev.raises_frame {s : Dev} {rs : List Raise} (hp : ∀ r ∈ rs, r.plain) {fs : List (Nat × Bool)}
    (hfs : ∀ x ∈ fs, x.2 = true → ∃ r ∈ rs, r.f = x.1) :
    s.FaultFrame (s.raises rs) ∧ (∀ g, s.sticky g = true → (s.raises rs).sticky g = true) ∧
      ∀ x, x ∈ fs → x.2 = true → (s.raises rs).sticky x.1 = true := by
  have hup := Upset.raises s rs hp
  refine ⟨hup.rest, hup.stays, fun x hx hb => ?_⟩
  obtain ⟨r, hr, hf⟩ := hfs x hx hb
  rw [← hf]
  exact s.raises_sticky hp hr

/-- The raises of circuits and quads that fail together. -/
def Dev.hwRaises (s : Dev) (cs : List (Fin 720)) (qs : List (Fin 144)) : List Raise :=
  cs.map (fun c => s.chRaise c.val) ++ qs.map (fun q => s.quadRaise q.val)

theorem Dev.hwRaises_repairs (s : Dev) (cs : List (Fin 720)) (qs : List (Fin 144)) :
    Repairs 7 (s.hwRaises cs qs) ∧ ∀ r ∈ s.hwRaises cs qs, unitSource r.f := by
  have hall : ∀ r ∈ s.hwRaises cs qs, (r.f = 224 ∨ r.f = 229) ∧ r = repairOf r.f r.unit r.sites := by
    intro r hr
    rcases List.mem_append.mp hr with hr | hr
    · obtain ⟨c, -, rfl⟩ := List.mem_map.mp hr
      exact ⟨.inl rfl, rfl⟩
    · obtain ⟨q, -, rfl⟩ := List.mem_map.mp hr
      exact ⟨.inr rfl, rfl⟩
  refine ⟨fun r hr => ?_, fun r hr => (hall r hr).1.imp id .inl⟩
  obtain ⟨hf, hform⟩ := hall r hr
  refine ⟨hform, ?_⟩
  unfold Raise.plain
  rcases hf with h | h <;> rw [h] <;> decide

theorem Dev.hwRaises_sources (s : Dev) (cs : List (Fin 720)) (qs : List (Fin 144)) (x : Nat × Bool)
    (hx : x ∈ [(224, !cs.isEmpty), (229, !qs.isEmpty)]) (hb : x.2 = true) : ∃ r ∈ s.hwRaises cs qs, r.f = x.1 := by
  simp only [List.mem_cons, List.not_mem_nil, or_false] at hx
  rcases hx with rfl | rfl
  · obtain ⟨c, hc⟩ := List.exists_mem_of_ne_nil cs (by rintro rfl; exact Bool.noConfusion hb)
    exact ⟨_, List.mem_append_left _ (List.mem_map.mpr ⟨c, hc, rfl⟩), rfl⟩
  · obtain ⟨q, hq⟩ := List.exists_mem_of_ne_nil qs (by rintro rfl; exact Bool.noConfusion hb)
    exact ⟨_, List.mem_append_right _ (List.mem_map.mpr ⟨q, hq, rfl⟩), rfl⟩

/-- The raises of engines that fail together. -/
def Dev.engRaises (s : Dev) (l : List Nat) : List Raise := l.map (fun e => repairOf 170 e (s.engAim e))

theorem Dev.engRaises_repairs (s : Dev) (l : List Nat) : Repairs 5 (s.engRaises l) ∧ ∀ r ∈ s.engRaises l, unitSource r.f := by
  have hall : ∀ r ∈ s.engRaises l, r.f = 170 ∧ r = repairOf r.f r.unit r.sites := by
    intro r hr
    obtain ⟨c, -, rfl⟩ := List.mem_map.mp hr
    exact ⟨rfl, rfl⟩
  refine ⟨fun r hr => ?_, fun r hr => .inr (.inr (hall r hr).1)⟩
  obtain ⟨hf, hform⟩ := hall r hr
  refine ⟨hform, ?_⟩
  unfold Raise.plain
  rw [hf]
  decide

/-- The engines of a list that can fail. -/
def Dev.engsIn (s : Dev) (es : List (Fin 272)) : List Nat :=
  (es.map (·.val)).filter (fun e => (s.eng e).st ≠ .off && (s.eng e).st ≠ .retired)

theorem Dev.mem_engsIn {s : Dev} {es : List (Fin 272)} {e : Fin 272} (he : e ∈ es)
    (hhit : (s.eng e).st ≠ .off ∧ (s.eng e).st ≠ .retired) : e.val ∈ s.engsIn es :=
  List.mem_filter.mpr ⟨List.mem_map.mpr ⟨e, he, rfl⟩, by simp [hhit.1, hhit.2]⟩

theorem Dev.engsIn_nil {s : Dev} {es : List (Fin 272)} (h : ∀ e, e ∈ es → ¬((s.eng e).st ≠ .off ∧ (s.eng e).st ≠ .retired)) :
    s.engsIn es = [] := by
  refine List.filter_eq_nil_iff.mpr (fun n hn => ?_)
  obtain ⟨e, he, rfl⟩ := List.mem_map.mp hn
  have hnot := h e he
  simpa using hnot

/-- A field of a card past the fault page is no source's. -/
theorem Dev.Clean.setFld {s : Dev} {x : Nat} (h : s.Clean x) {a : Nat} (ha : 0x20000 ≤ a) (hx : x < 12) (hi lo v : Nat) :
    (s.setFld a hi lo v).Clean x :=
  h.of_cards (Dev.setFld_flt s a hi lo v) (fun n hn => Dev.rd_setFld_of_ne s (by unfold aSrc aFlt; omega))

/-- A parity error of the route register at `a` (R308). -/
theorem parity_raises {s : State} {c : Instr} {a : Nat}
    (hexec : exec c s = .next { s with toDev := (s.setFld a 19 16 0).raise (raiseAt 321 2 s.deviceAim) }) (ha : 0x40000 ≤ a) :
    ∃ t : Dev, exec c s = .next { s with toDev := t } ∧ (s.setFld a 19 16 0).FaultFrame t ∧
      (∀ g, (s.setFld a 19 16 0).sticky g = true → t.sticky g = true) ∧
      (∀ x, x ∈ [(321, true)] → x.2 = true → t.sticky x.1 = true) ∧
      t.fld a 19 16 = 0 ∧ (s.Clean 10 → s.Voids t 4 s.deviceAim) := by
  obtain ⟨now, stays, rest⟩ := (s.setFld a 19 16 0).raiseAt_raised (f := 321) (by decide) (by decide) 2 s.deviceAim
  refine ⟨_, hexec, rest, stays, fun x hx _ => ?_, ?_, fun hc => ?_⟩
  · rw [List.mem_singleton.mp hx]
    exact now
  · rw [Dev.fld_congr (rest.cards a (by omega) (by omega) (by omega)), Dev.fld_setFld_self _ (by decide) (by decide)]
    rfl
  · have hclean : (s.setFld a 19 16 0).Clean 10 := Dev.Clean.setFld hc (by omega) (by decide) _ _ _
    have hcards : s.toDev.Cards (s.setFld a 19 16 0) [a] := (Dev.Cards.refl s.toDev [a]).setFld (by simp) _ _ _
    obtain ⟨hvoids, -, -⟩ := Dev.raiseAt_void_after (s := s.toDev) (u := s.setFld a 19 16 0) (f := 321) (x := 10) (c := 4)
      (l := s.deviceAim) (by decide) (Dev.srcEn_of_unmaskable (by decide)) (by decide) (by decide) hclean rfl
      (fun i => Dev.wr_site s.toDev _ _ i) hcards
    exact hvoids

/-- Settles O32: repairs at DEGRADE (`Dev.raises_note`), a void (`Dev.raiseAt_void_after`) and a note. -/
theorem unitFailuresRaise : Obligations.UnitFailuresRaise := by
  unfold Obligations.UnitFailuresRaise
  intro s Raises
  refine ⟨fun cs qs => ?ch, fun qs => ?quad, fun es => ⟨?eng, fun h => ?none⟩, fun q n => ?par, fun n hn => ?stuck, fun n hn => ?driven⟩
  case ch =>
    obtain ⟨hrep, hunit⟩ := s.hwRaises_repairs cs qs
    have hexec : exec (.chHw ⟨cs, qs⟩) s = .next { s with toDev := s.raises (s.hwRaises cs qs) } :=
      State.run_to (f := fun s => s.raises (s.hwRaises cs qs)) rfl
    obtain ⟨frame, stays, sticky⟩ := Dev.raises_frame (s := s.toDev) (fun r hr => (hrep r hr).2.2.2)
      (fs := [(224, !cs.isEmpty), (229, !qs.isEmpty)]) (s.hwRaises_sources cs qs)
    refine ⟨_, hexec, frame, stays, sticky, fun hc => ?_⟩
    obtain ⟨mode, notes⟩ := Dev.raises_note hrep hunit (by decide) hc
    refine ⟨mode, fun c hc => ?_, fun q hq => ?_⟩
    · exact (notes _ (List.mem_append_left _ (List.mem_map.mpr ⟨c, hc, rfl⟩))).1 rfl
    · exact (notes _ (List.mem_append_right _ (List.mem_map.mpr ⟨q, hq, rfl⟩))).2.1 rfl
  case quad =>
    obtain ⟨hrep, hunit⟩ := s.hwRaises_repairs [] qs
    have hexec : exec (.quadHw qs) s = .next { s with toDev := s.raises (s.hwRaises [] qs) } :=
      State.run_to (f := fun s => s.raises (s.hwRaises [] qs)) rfl
    obtain ⟨frame, stays, sticky⟩ := Dev.raises_frame (s := s.toDev) (fun r hr => (hrep r hr).2.2.2)
      (fs := [(229, !qs.isEmpty)]) (fun x hx => s.hwRaises_sources [] qs x (List.mem_cons_of_mem _ hx))
    refine ⟨_, hexec, frame, stays, sticky, fun hc => ?_⟩
    obtain ⟨mode, notes⟩ := Dev.raises_note hrep hunit (by decide) hc
    exact ⟨mode, fun q hq => (notes _ (List.mem_append_right _ (List.mem_map.mpr ⟨q, hq, rfl⟩))).2.1 rfl⟩
  case eng =>
    obtain ⟨hrep, hunit⟩ := s.engRaises_repairs (s.engsIn es)
    have hexec : exec (.engHw es) s = .next { s with toDev := s.raises (s.engRaises (s.engsIn es)) } :=
      State.run_to (f := fun s => s.raises (s.engRaises (s.engsIn es))) rfl
    obtain ⟨frame, stays, sticky⟩ := Dev.raises_frame (s := s.toDev) (fun r hr => (hrep r hr).2.2.2)
      (fs := []) (fun x hx => absurd hx List.not_mem_nil)
    refine ⟨_, hexec, frame, stays, sticky, fun e he hhit => ?_, fun hc => ?_⟩
    · exact s.raises_sticky (r := repairOf 170 e.val (s.engAim e.val)) (fun r hr => (hrep r hr).2.2.2) (List.mem_map.mpr ⟨e.val, Dev.mem_engsIn he hhit, rfl⟩)
    · obtain ⟨mode, notes⟩ := Dev.raises_note hrep hunit (by decide) hc
      exact ⟨mode, fun e he hhit => (notes _ (List.mem_map.mpr ⟨e.val, Dev.mem_engsIn he hhit, rfl⟩)).2.2 rfl⟩
  case none =>
    refine State.run_idle (f := fun s => s.raises (s.engRaises (s.engsIn es))) ?_
    rw [Dev.engsIn_nil h]
    exact s.raises_nil
  case par =>
    cases q with
    | some k =>
      exact parity_raises (State.run_to (f := fun s => s.slcPar (.loc k.val (n.toNat % 16))) rfl) (by simp only [aQuad]; omega)
    | none => exact parity_raises (State.run_to (f := fun s => s.slcPar (.global n.toNat)) rfl) (by simp only [aSlc]; omega)
  case stuck =>
    have hexec : exec (.tbusStuck n) s = .next { s with toDev := s.note 320 } :=
      State.run_to (f := fun s => if (s.tbusLine n).pulse.isSome then s else s.note 320) (if_neg (by simp [hn]))
    have hup := Upset.note s.toDev (f := 320) (by decide)
    refine ⟨_, hexec, hup.rest, hup.stays, fun x hx _ => ?_, congrArg Sys.mode (s.noteFrame_note 320).sys, ?_⟩
    · rw [List.mem_singleton.mp hx]
      exact s.sticky_note (by decide)
    · obtain ⟨r, f, h⟩ := s.noteFrame_note 320
      rw [h]
  case driven =>
    exact State.run_idle (f := fun s => if (s.tbusLine n).pulse.isSome then s else s.note 320)
      (if_pos (Option.isSome_iff_ne_none.mpr hn))

end Sys2Proof.Machine
end

section
/-! PROOFS. A sensor's reading: its value, its state and the faults (R312-R318): O33. -/

namespace Sys2Proof.Machine

/-! ### What a state change leaves of a reading -/

/-- The sensors, the clock and SENSOR_BAD are kept. -/
structure Dev.Aside (s t : Dev) : Prop where
  sensors : t.pwr.sensors = s.pwr.sensors
  clk     : t.clk = s.clk
  sticky  : s.sticky 67 = true → t.sticky 67 = true
  live    : t.bit (aSrc 67) 31 = s.bit (aSrc 67) 31

namespace Dev.Aside

theorem refl (s : Dev) : s.Aside s := ⟨rfl, rfl, id, rfl⟩

theorem trans {s t u : Dev} (h : s.Aside t) (k : t.Aside u) : s.Aside u :=
  ⟨k.sensors.trans h.sensors, k.clk.trans h.clk, k.sticky ∘ h.sticky, k.live.trans h.live⟩

/-- Any fault's consequences. -/
theorem of_upset {s t : Dev} (h : Upset s t) (k : s.Steady t) : s.Aside t := by
  obtain ⟨-, -, -, -, sensors, -⟩ := h.rest.power
  exact ⟨sensors, h.rest.clk, h.stays 67, k.live _ (aSrc_ne_stress 67)⟩

theorem setLive (s : Dev) {f : Nat} (h : f ≠ 67) (b : Bool) : s.Aside (s.setLive f b) := by
  obtain ⟨r, hr⟩ := s.setLive_only f b
  have hlive := s.bit_setLive_of_ne (f := f) b 31 (fun he => h (aSrc_inj he).symm)
  have hsticky := (s.setLive_sticky_lvl f b 67).1
  exact ⟨by rw [hr], by rw [hr], fun hs => hsticky.trans hs, hlive⟩

theorem condOn (s : Dev) {r : Raise} (hr : r.plain) (h : r.f ≠ 67) : s.Aside (s.condOn r) := by
  cases hl : s.bit (aSrc r.f) 31 with
  | true => rw [Dev.condOn_of_live hl]; exact refl s
  | false =>
    rw [Dev.condOn_of_not_live hl]
    exact (setLive s h true).trans (of_upset (Upset.raises _ [r] (by simpa using hr)) (Dev.Steady.raise _ r))

end Dev.Aside

/-- A producer changes the sluice's cards and flights alone. -/
structure Dev.SlcFrame (s t : Dev) : Prop where
  only  : ∃ r x, t = { s with regs := r, slc := x }
  cards : ∀ a, a < 0x40000 ∨ 0x41000 ≤ a → t.rd a = s.rd a

theorem Dev.SlcFrame.refl (s : Dev) : s.SlcFrame s := ⟨⟨_, _, rfl⟩, fun _ _ => rfl⟩

theorem Dev.SlcFrame.trans {s t u : Dev} (h : s.SlcFrame t) (k : t.SlcFrame u) : s.SlcFrame u := by
  obtain ⟨⟨_, _, rfl⟩, hc⟩ := h
  obtain ⟨⟨_, _, rfl⟩, kc⟩ := k
  exact ⟨⟨_, _, rfl⟩, fun a ha => (kc a ha).trans (hc a ha)⟩

/-- A line that a register may source. -/
def Line.real (l : Line) : Prop := ∀ n, l = .global n → n < 256

theorem lineOfSrc_real {a : Nat} {l : Line} (h : lineOfSrc a = some l) : l.real := by
  rintro n rfl
  unfold lineOfSrc at h
  split at h
  next o _ =>
    split at h
    next hc =>
      cases h
      simp only [Bool.and_eq_true, decide_eq_true_eq] at hc
      omega
    next => cases h
  next => split at h <;> cases h
  next => cases h

theorem Dev.linesOf_real {s : Dev} {p : Prod} {l : Line} (h : l ∈ s.linesOf p) : l.real := by
  obtain ⟨x, -, hx⟩ := List.mem_filterMap.mp h
  split at hx
  next k hk =>
    split at hx
    · cases hx; exact lineOfSrc_real hk
    · cases hx
  next => cases hx

theorem Dev.SlcFrame.countLine (s : Dev) {l : Line} (hl : l.real) (passed : Bool) : s.SlcFrame (s.countLine l passed) := by
  cases l with
  | global n =>
    have hn := hl n rfl
    have hne : ∀ a, a < 0x40000 ∨ 0x41000 ≤ a → a ≠ aSlc (16 * n + 8) := fun a ha => by unfold aSlc; omega
    cases passed with
    | true => exact ⟨⟨_, _, rfl⟩, fun a ha => Dev.rd_setFld_of_ne s (hne a ha)⟩
    | false => exact ⟨⟨_, _, rfl⟩, fun a ha => Dev.rd_setFld_of_ne s (hne a ha)⟩
  | loc q n => exact Dev.SlcFrame.refl s

theorem Dev.SlcFrame.fireLine (s : Dev) {l : Line} (hl : l.real) (edge tag : Nat) (b : Block) (tb : Option Nat) :
    s.SlcFrame (s.fireLine l edge tag b tb) := by
  unfold Dev.fireLine
  split
  · exact Dev.SlcFrame.refl s
  · split
    · exact Dev.SlcFrame.countLine s hl false
    · split
      · exact ⟨⟨_, _, rfl⟩, fun _ _ => rfl⟩
      · have hslc : ∀ u : Dev, ∀ x, u.SlcFrame { u with slc := x } := fun u x => ⟨⟨_, _, rfl⟩, fun _ _ => rfl⟩
        exact (Dev.SlcFrame.countLine s hl true).trans (hslc _ _)

theorem Dev.SlcFrame.produce (s : Dev) (p : Prod) (edge tag : Nat) (b : Block) (tb : Option Nat) :
    s.SlcFrame (s.produce p edge tag b tb) :=
  forL_keeps (I := s.SlcFrame) (fun _ hl t ht => ht.trans (Dev.SlcFrame.fireLine t (Dev.linesOf_real hl) edge tag b tb))
    (Dev.SlcFrame.refl s)

theorem Dev.Aside.of_slc {s t : Dev} (h : s.SlcFrame t) : s.Aside t := by
  obtain ⟨⟨r, x, only⟩, cards⟩ := h
  have hrd : t.rd (aSrc 67) = s.rd (aSrc 67) := cards _ (.inl (by decide))
  exact ⟨by rw [only], by rw [only], fun hs => (Dev.bit_congr hrd 30).trans hs, Dev.bit_congr hrd 31⟩

theorem Dev.Aside.sensorChanged (s : Dev) (n pos : Nat) : s.Aside (s.sensorChanged n pos) := by
  unfold Dev.sensorChanged
  extract_lets t p q
  have hp : s.Aside p := Dev.Aside.of_slc (Dev.SlcFrame.produce s _ _ _ _ _)
  have hq : s.Aside q := by
    simp only [q]
    split
    · exact hp.trans (Dev.Aside.setLive p (by decide) false)
    · exact hp
  have hnote : ∀ f, f < 384 → s.Aside (q.note f) := fun f hf => hq.trans (Dev.Aside.of_upset (Upset.note q hf) (Dev.Steady.note q f))
  split
  · exact hnote 64 (by decide)
  · split
    · exact hnote 65 (by decide)
    · split
      · exact hq.trans (Dev.Aside.condOn q ⟨by decide, by decide⟩ (by decide))
      · exact hq

/-! ### A reading judged -/

/-- A reading of a sensor counts, with the criteria it meets (R316, R317). -/
def Sensor.counted (x : Sensor) (c : List Nat) : Sensor :=
  { x with reads := min (x.reads + 1) 65535, run := (c :: x.run).take 4, clean := if c.isEmpty then x.clean + 1 else 0 }

theorem Dev.judgeSensor_eq (s : Dev) (n : Nat) (r : SensorIn) :
    let x := s.sensor n
    let c := s.criteria n r
    s.judgeSensor n r =
      if x.broken then
        if 16 ≤ (x.counted c).clean then
          ({ x.counted c with broken := false, held := false, run := [], good := r.temp, value := r.temp }, false)
        else ({ x.counted c with value := (s.substitute n).1, median := (s.substitute n).2 }, false)
      else if heldFour ((c :: x.run).take 4) then
        ({ x.counted c with broken := true, why := c.headD 0, held := 2 ≤ x.st, clean := 0, value := (s.substitute n).1,
                            median := (s.substitute n).2 }, true)
      else if c.isEmpty then ({ x.counted c with good := r.temp, value := r.temp }, false)
      else ({ x.counted c with value := x.good }, false) := rfl

/-- A broken sensor is mended by the sixteenth clean reading in a row (R317). -/
theorem Sensor.counted_clean (x : Sensor) (c : List Nat) : 16 ≤ (x.counted c).clean ↔ c = [] ∧ 15 ≤ x.clean := by
  cases c with
  | nil => simp [Sensor.counted]
  | cons a r => simp [Sensor.counted]

/-- Whatever a reading shows, it counts; the state and its indications wait (R314), and SENSOR_BAD begins only where the
sensor breaks. -/
theorem Dev.judgeSensor_counts (s : Dev) (n : Nat) (r : SensorIn) :
    (s.judgeSensor n r).1.reads = min ((s.sensor n).reads + 1) 65535 ∧ (s.judgeSensor n r).1.st = (s.sensor n).st ∧
      (s.judgeSensor n r).1.ind = (s.sensor n).ind ∧
      ((s.judgeSensor n r).1.broken = (s.sensor n).broken → (s.judgeSensor n r).2 = false) := by
  rw [Dev.judgeSensor_eq]
  cases hb : (s.sensor n).broken with
  | true =>
    rw [if_pos rfl]
    split <;> exact ⟨rfl, rfl, rfl, fun _ => rfl⟩
  | false =>
    rw [if_neg Bool.false_ne_true]
    split
    · exact ⟨rfl, rfl, rfl, fun h => Bool.noConfusion h⟩
    · split <;> exact ⟨rfl, rfl, rfl, fun _ => rfl⟩

/-! ### The state's step -/

/-- The state indicated before lies on the side that k does. -/
def Sensor.side (x : Sensor) (k m : Nat) : Prop := if x.st < k then x.st < m else m < x.st

/-- A step changes the state and its indications, and says whether it changed. -/
theorem Sensor.step_only (x : Sensor) (k : Nat) :
    (∃ t l, (x.step k).1 = { x with st := t, ind := l }) ∧ ((x.step k).1.st = x.st → (x.step k).2 = false) := by
  unfold Sensor.step
  extract_lets up kept l t t'
  split
  · exact ⟨⟨x.st, [], rfl⟩, fun _ => rfl⟩
  · split
    · exact ⟨⟨x.st, l, rfl⟩, fun _ => rfl⟩
    · exact ⟨⟨t', [], rfl⟩, fun h => by simpa using h⟩

theorem Sensor.step_same {x : Sensor} {k : Nat} (h : k = x.st) : (x.step k).1 = { x with ind := [] } := by
  rw [Sensor.step, if_pos h]

/-- The indications kept are all, where all lie on the side. -/
theorem Sensor.kept_iff (x : Sensor) (k : Nat) :
    (x.ind.filter (fun m => if decide (x.st < k) then decide (x.st < m) else decide (m < x.st))).length = x.ind.length ↔
      ∀ m, m ∈ x.ind → x.side k m := by
  rw [List.length_filter_eq_length_iff]
  refine forall₂_congr (fun m _ => ?_)
  unfold Sensor.side
  by_cases h : x.st < k <;> simp [h]

theorem Sensor.step_other {x : Sensor} {k : Nat} (hk : k ≠ x.st) (hb : x.broken = false) :
    ((∀ m, m ∈ x.ind → x.side k m) → x.ind.length < 3 → (x.step k).1 = { x with ind := k :: x.ind }) ∧
      ((∃ m, m ∈ x.ind ∧ ¬x.side k m) → (x.step k).1 = { x with ind := [k] }) ∧
      ((∀ m, m ∈ x.ind → x.side k m) → 3 ≤ x.ind.length → (x.step k).1 =
        { x with st := if x.st < k then (k :: x.ind).foldl min 3 else (k :: x.ind).foldl max 0, ind := [] }) := by
  have hkept := x.kept_iff k
  unfold Sensor.step
  dsimp only
  simp only [if_neg hk, hb, Bool.false_and, Bool.false_eq_true, if_false, decide_eq_true_eq] at hkept ⊢
  refine ⟨fun hall hl => ?_, fun hnot => ?_, fun hall hl => ?_⟩
  · rw [if_pos (hkept.mpr hall), if_pos (by simp; omega)]
  · obtain ⟨m, hm, hside⟩ := hnot
    have hne := mt hkept.mp (fun h => hside (h m hm))
    rw [if_neg hne, if_pos (by simp)]
  · rw [if_pos (hkept.mpr hall), if_neg (by simp; omega)]

/-! ### O33 -/

/-- The sensor after a reading, its cadence apart. -/
def Dev.sensorNext (s : Dev) (n : Nat) (r : SensorIn) : Sensor :=
  ((s.judgeSensor n r).1.step (s.indicates (zoneOf n) (s.judgeSensor n r).1.st (s.judgeSensor n r).1.value)).1

/-- The device once the sensor and its zone's cadence stand (R312). -/
def Dev.sensed (s : Dev) (n : Nat) (r : SensorIn) : Dev := (s.setSensor n (s.sensorNext n r)).cadence n

/-- SENSOR_BAD follows the sensors (R317). -/
def Dev.sensorBad (s : Dev) (broke : Bool) : Dev :=
  if broke then (s.setLive 67 true).raise (raiseOf 67 1)
  else if s.pwr.sensors.any (fun x => x.2.broken) then s else s.setLive 67 false

theorem Dev.sensorReading_eq {s : Dev} {n : Nat} (hm : s.sys.mode ≠ .reset) (hon : s.sensorOn n = true) (pos : Nat) (r : SensorIn) :
    s.sensorReading n pos r =
      if ((s.judgeSensor n r).1.step (s.indicates (zoneOf n) (s.judgeSensor n r).1.st (s.judgeSensor n r).1.value)).2
      then ((s.sensed n r).sensorBad (s.judgeSensor n r).2).sensorChanged n pos
      else (s.sensed n r).sensorBad (s.judgeSensor n r).2 := by
  rw [Dev.sensorReading, if_neg (by simp [hm, hon])]
  rfl

theorem Dev.sensor_setSensor (s : Dev) (n m : Nat) (x : Sensor) :
    (s.setSensor n x).sensor m = if m = n then x else s.sensor m := by
  by_cases h : m = n
  · subst h
    rw [if_pos rfl]
    exact Tab.get_set_self _ _ _ _
  · rw [if_neg h]
    exact Tab.get_set_of_ne _ h _ _

/-- The cadence counts on its sensor and touches the power table alone (R312). -/
theorem Dev.cadence_only (s : Dev) (n : Nat) :
    (∃ p, s.cadence n = { s with pwr := p }) ∧
      ∃ c, ∀ m, (s.cadence n).sensor m = if m = n then { s.sensor n with cool := c } else s.sensor m := by
  unfold Dev.cadence
  extract_lets z x hot t
  have ht : ∀ m, t.sensor m = if m = n then { s.sensor n with cool := if hot then 0 else min 4 (x.cool + 1) } else s.sensor m :=
    fun m => Dev.sensor_setSensor s n m _
  split
  · exact ⟨⟨_, rfl⟩, _, ht⟩
  · split
    · exact ⟨⟨_, rfl⟩, _, ht⟩
    · exact ⟨⟨_, rfl⟩, _, ht⟩

theorem Dev.sensed_only (s : Dev) (n : Nat) (r : SensorIn) :
    (∃ p, s.sensed n r = { s with pwr := p }) ∧ (∃ c, (s.sensed n r).sensor n = { s.sensorNext n r with cool := c }) ∧
      ∀ m, m ≠ n → (s.sensed n r).sensor m = s.sensor m := by
  obtain ⟨⟨p, hp⟩, c, hc⟩ := (s.setSensor n (s.sensorNext n r)).cadence_only n
  refine ⟨⟨p, hp⟩, ⟨c, ?_⟩, fun m hm => ?_⟩
  · rw [Dev.sensed, hc, if_pos rfl, Dev.sensor_setSensor, if_pos rfl]
  · rw [Dev.sensed, hc, if_neg hm, Dev.sensor_setSensor, if_neg hm]

theorem Dev.raiseOf_raised (s : Dev) {f : Nat} (hf : f < 384) (hne : f ≠ 289) (l : Nat) :
    s.Raised (s.raise (raiseOf f l)) f := s.raise_raised (raiseOf f l) ⟨hf, hne⟩

/-- A sensor that breaks is STICKY and LIVE; the sensors and the clock stand (R290, R317). -/
theorem Dev.sensorBad_of_broke (s : Dev) :
    (s.sensorBad true).pwr.sensors = s.pwr.sensors ∧ (s.sensorBad true).clk = s.clk ∧
      (s.sensorBad true).sticky 67 = true ∧ (s.sensorBad true).bit (aSrc 67) 31 = true := by
  have heq : s.sensorBad true = (s.setLive 67 true).raise (raiseOf 67 1) := if_pos rfl
  have hlive := s.bit_setLive_self 67 true
  obtain ⟨g, hset⟩ := s.setLive_only 67 true
  have hkept : (s.setLive 67 true).pwr = s.pwr ∧ (s.setLive 67 true).clk = s.clk := by rw [hset]; exact ⟨rfl, rfl⟩
  obtain ⟨hpwr, hclk⟩ := hkept
  rw [heq]
  generalize s.setLive 67 true = u at hlive hpwr hclk ⊢
  obtain ⟨now, -, rest⟩ := u.raiseOf_raised (f := 67) (by decide) (by decide) 1
  obtain ⟨-, -, -, -, sensors, -⟩ := rest.power
  exact ⟨by rw [sensors, hpwr], by rw [rest.clk, hclk], now,
    ((Dev.Steady.raise u (raiseOf 67 1)).live _ (aSrc_ne_stress 67)).trans hlive⟩

theorem Dev.sensorBad_of_not (s : Dev) :
    s.Cards (s.sensorBad false) [aSrc 67] ∧ ∃ r, s.sensorBad false = { s with regs := r } := by
  unfold Dev.sensorBad
  rw [if_neg Bool.false_ne_true]
  split
  · exact ⟨Dev.Cards.refl s _, _, rfl⟩
  · exact ⟨(Dev.Cards.refl s _).setFld (by simp) _ _ _, s.setLive_only 67 false⟩

/-- A reading, said once: the sensor is `sensorNext`, the others and the clock stand; a sensor that breaks is SENSOR_BAD, and
without a change of either kind the cards of SENSOR_BAD and the power table alone may differ. -/
theorem Dev.sensorReading_reads {s : Dev} {n : Nat} (hm : s.sys.mode ≠ .reset) (hon : s.sensorOn n = true) (pos : Nat) (r : SensorIn) :
    (∃ c, (s.sensorReading n pos r).sensor n = { s.sensorNext n r with cool := c }) ∧
      (∀ m, m ≠ n → (s.sensorReading n pos r).sensor m = s.sensor m) ∧ (s.sensorReading n pos r).clk = s.clk ∧
      ((s.judgeSensor n r).2 = true → (s.sensorReading n pos r).sticky 67 = true ∧
        (s.sensorReading n pos r).bit (aSrc 67) 31 = true) ∧
      ((s.judgeSensor n r).2 = false → (s.sensorNext n r).st = (s.judgeSensor n r).1.st →
        s.Cards (s.sensorReading n pos r) [aSrc 67] ∧ { s.sensorReading n pos r with regs := s.regs, pwr := s.pwr } = s) := by
  obtain ⟨⟨p, hp⟩, ⟨c, hself⟩, hothers⟩ := s.sensed_only n r
  have hstep := ((s.judgeSensor n r).1.step_only (s.indicates (zoneOf n) (s.judgeSensor n r).1.st (s.judgeSensor n r).1.value)).2
  have hbad : ∀ b, ((s.sensed n r).sensorBad b).pwr.sensors = (s.sensed n r).pwr.sensors ∧
      ((s.sensed n r).sensorBad b).clk = (s.sensed n r).clk := by
    intro b
    cases b with
    | true =>
      obtain ⟨sensors, clk, -⟩ := (s.sensed n r).sensorBad_of_broke
      exact ⟨sensors, clk⟩
    | false =>
      obtain ⟨-, g, h⟩ := (s.sensed n r).sensorBad_of_not
      rw [h]
      exact ⟨rfl, rfl⟩
  have haside : ((s.sensed n r).sensorBad (s.judgeSensor n r).2).Aside (s.sensorReading n pos r) := by
    rw [Dev.sensorReading_eq hm hon]
    split
    · exact Dev.Aside.sensorChanged _ n pos
    · exact Dev.Aside.refl _
  have hsensor : ∀ m, (s.sensorReading n pos r).sensor m = (s.sensed n r).sensor m := fun m => by
    rw [Dev.sensor, haside.sensors, (hbad _).1, Dev.sensor]
  refine ⟨⟨c, (hsensor n).trans hself⟩, fun m hne => (hsensor m).trans (hothers m hne), ?_, fun hb => ?_, fun hb hst => ?_⟩
  · rw [haside.clk, (hbad _).2, hp]
  · rw [hb] at haside
    obtain ⟨-, -, sticky, live⟩ := (s.sensed n r).sensorBad_of_broke
    exact ⟨haside.sticky sticky, haside.live.trans live⟩
  · rw [Dev.sensorReading_eq hm hon, hstep hst, if_neg Bool.false_ne_true, hb]
    obtain ⟨cards, g, h⟩ := (s.sensed n r).sensorBad_of_not
    exact ⟨(Dev.Cards.of_regs (by rw [hp]) _).trans cards, by rw [h, hp]⟩

/-- The step touches the state and its indications alone. -/
theorem Dev.sensorNext_keeps (s : Dev) (n : Nat) (r : SensorIn) :
    (s.sensorNext n r).reads = (s.judgeSensor n r).1.reads ∧ (s.sensorNext n r).broken = (s.judgeSensor n r).1.broken ∧
      (s.sensorNext n r).why = (s.judgeSensor n r).1.why ∧ (s.sensorNext n r).good = (s.judgeSensor n r).1.good ∧
      (s.sensorNext n r).value = (s.judgeSensor n r).1.value := by
  obtain ⟨⟨t, l, h⟩, -⟩ := (s.judgeSensor n r).1.step_only (s.indicates (zoneOf n) (s.judgeSensor n r).1.st (s.judgeSensor n r).1.value)
  rw [Dev.sensorNext, h]
  exact ⟨rfl, rfl, rfl, rfl, rfl⟩

theorem heldFour_nil (l : List (List Nat)) : heldFour (([] :: l).take 4) = false := by
  rcases l with _ | ⟨a, _ | ⟨b, _ | ⟨c, l⟩⟩⟩ <;> rfl

/-- A clean reading of a working sensor. -/
theorem Dev.judgeSensor_of_clean {s : Dev} {n : Nat} {r : SensorIn} (hb : (s.sensor n).broken = false)
    (hc : s.criteria n r = []) :
    (s.judgeSensor n r).1 = { (s.sensor n).counted [] with good := r.temp, value := r.temp } := by
  rw [Dev.judgeSensor_eq]
  simp only [hb, hc, heldFour_nil, Bool.false_eq_true, if_false, List.isEmpty_nil, if_true]

theorem exec_sensorReading {s : State} {n : Fin 72} {r : SensorIn} :
    exec (.sensorReading n r) s = .next { s with toDev := s.sensorReading n r.pos.toNat r } :=
  State.run_to (f := fun s => s.sensorReading n r.pos.toNat r) rfl

/-- Settles O33: the reading is judged (`Dev.judgeSensor_eq`), then the state steps (`Sensor.step_other`). -/
theorem sensorsFollowTheirReadings : Obligations.SensorsFollowTheirReadings := by
  unfold Obligations.SensorsFollowTheirReadings
  intro s n r x c
  refine ⟨fun hm hon => ⟨_, exec_sensorReading, ?_⟩, fun h => ?_⟩
  · obtain ⟨⟨q, hself⟩, hothers, hclk, hbroke, hkept⟩ := Dev.sensorReading_reads hm hon r.pos.toNat r
    obtain ⟨hreads, hst, hind, hnotnew⟩ := s.judgeSensor_counts n r
    obtain ⟨reads, broken, why, good, value⟩ := s.sensorNext_keeps n r
    have hjudge := s.judgeSensor_eq n r
    rw [hself]
    refine ⟨reads.trans hreads, hothers, hclk, fun h1 h2 => ?unmoved, fun hb hne hheld => ?bad, fun hb hheld => ?breaks,
      fun hb h => ?broken, fun hb hc h => ?mends, fun hb hc => ?clean⟩
    case unmoved => exact hkept (hnotnew (broken.symm.trans h2)) (h1.trans hst.symm)
    case bad =>
      have hnil : c.isEmpty = false := by simpa using hne
      have hj : (s.judgeSensor n r).1 = { x.counted c with value := x.good } := by
        rw [hjudge, if_neg (by rw [hb]; decide), if_neg (by rw [hheld]; decide), if_neg (by rw [hnil]; decide)]
      rw [hj] at broken good value
      exact ⟨value, good, broken.trans hb⟩
    case breaks =>
      have hj : s.judgeSensor n r = ({ x.counted c with broken := true, why := c.headD 0, held := 2 ≤ x.st, clean := 0
                                                        value := (s.substitute n).1, median := (s.substitute n).2 }, true) := by
        rw [hjudge, if_neg (by rw [hb]; decide), if_pos hheld]
      have hnew : (s.judgeSensor n r).2 = true := by rw [hj]
      rw [hj] at broken why value
      exact ⟨broken, why, value, hbroke hnew⟩
    case broken =>
      have hfew : ¬16 ≤ (x.counted c).clean := by
        rw [Sensor.counted_clean]
        rintro ⟨hnil, hl⟩
        exact h.elim (fun h => h hnil) (fun h => by omega)
      have hj : (s.judgeSensor n r).1 = { x.counted c with value := (s.substitute n).1, median := (s.substitute n).2 } := by
        rw [hjudge, if_pos hb, if_neg hfew]
      rw [hj] at broken value
      exact ⟨broken.trans hb, value⟩
    case mends =>
      have hj : (s.judgeSensor n r).1 =
          { x.counted c with broken := false, held := false, run := [], good := r.temp, value := r.temp } := by
        rw [hjudge, if_pos hb, if_pos ((x.counted_clean c).mpr ⟨hc, h⟩)]
      rw [hj] at broken good value
      exact ⟨broken, value, good⟩
    case clean =>
      intro k side
      have hj := Dev.judgeSensor_of_clean hb hc
      have hnext : s.sensorNext n r = ((s.judgeSensor n r).1.step k).1 := by rw [Dev.sensorNext, hj]; rfl
      have hjb : (s.judgeSensor n r).1.broken = false := by rw [hj]; exact hb
      have hside : ∀ m, (s.judgeSensor n r).1.side k m ↔ side m := fun m => by rw [Sensor.side, hst]
      refine ⟨by rw [value, hj], by rw [good, hj], broken.trans hjb, fun hk => ?_, fun hk hall hl => ?_, fun hk hnot => ?_, fun hk hall hl => ?_⟩
      · rw [hnext, Sensor.step_same (hk.trans hst.symm)]
        exact ⟨hst, rfl⟩
      all_goals obtain ⟨collect, again, move⟩ := Sensor.step_other (x := (s.judgeSensor n r).1) (k := k) (by rw [hst]; exact hk) hjb
      · rw [hnext, collect (fun m hm => (hside m).mpr (hall m (hind ▸ hm))) (by rw [hind]; exact hl)]
        exact ⟨hst, by rw [hind]⟩
      · obtain ⟨m, hm, hnotside⟩ := hnot
        rw [hnext, again ⟨m, by rw [hind]; exact hm, fun h => hnotside ((hside m).mp h)⟩]
        exact ⟨hst, rfl⟩
      · rw [hnext, move (fun m hm => (hside m).mpr (hall m (hind ▸ hm))) (by rw [hind]; exact hl)]
        exact ⟨rfl, by rw [hst, hind]⟩
  · exact State.run_idle (f := fun s => s.sensorReading n r.pos.toNat r) (if_pos (by rcases h with h | h <;> simp [h]))

end Sys2Proof.Machine
end

section
/-! PROOFS. The supplies' monitors: power sum, alarms, trips, limits and clamps (R65, R183-R191, R327): O34. -/

namespace Sys2Proof.Machine

/-- What every changed entry and the unlisted one satisfy, every entry satisfies. -/
theorem Tab.get_upd_of {α : Type} [DecidableEq α] {P : α → Prop} {d : α} {f : α → α} (hf : ∀ v, P (f v)) (hd : P d)
    (t : Tab α) (k : Nat) : P ((t.upd d f).get (fun _ => d) k) := by
  have hget : ∀ l : Tab α, (∀ p ∈ l, P p.2) → P (l.get (fun _ => d) k) := by
    intro l hl
    induction l with
    | nil => exact hd
    | cons p r ih =>
      unfold Tab.get
      split
      · exact hl p (by simp)
      · exact ih (fun q hq => hl q (List.mem_cons_of_mem p hq))
  refine hget _ (fun p hp => ?_)
  obtain ⟨q, -, rfl⟩ := List.mem_map.mp (List.mem_filter.mp hp).1
  exact hf q.2

/-- An output that is off, with its bleeder. -/
def Circ.quiet (x : Circ) : Prop := x.dpsOn = false ∧ x.bleed = true

/-- No raise switches an output on. -/
theorem Dev.Steady.quiet {s t : Dev} (h : s.Steady t) {k : Nat} (hq : (s.circ k).quiet) : (t.circ k).quiet := by
  rcases h.stop with ⟨hu, -⟩ | hs
  · rw [Dev.circ, show t.circs = s.circs from congrArg Units.circs hu]
    exact hq
  · obtain ⟨c, hc⟩ := hs.circs
    rw [Dev.circ, hc]
    exact Tab.get_upd_of (fun v => ⟨rfl, rfl⟩) ⟨rfl, rfl⟩ c k

/-! ### The channel's flags -/

theorem aCh_page (c o : Nat) : 0x2000000 ≤ aCh c o := by
  unfold aCh
  omega

/-- Only cards of channels differ. -/
def Dev.ChFrame (s t : Dev) : Prop := (∃ r, t = { s with regs := r }) ∧ ∀ a, a < 0x2000000 → t.rd a = s.rd a

theorem Dev.ChFrame.refl (s : Dev) : s.ChFrame s := ⟨⟨_, rfl⟩, fun _ _ => rfl⟩

theorem Dev.ChFrame.trans {s t u : Dev} (h : s.ChFrame t) (k : t.ChFrame u) : s.ChFrame u := by
  obtain ⟨⟨_, rfl⟩, hc⟩ := h
  obtain ⟨⟨_, rfl⟩, kc⟩ := k
  exact ⟨⟨_, rfl⟩, fun a ha => (kc a ha).trans (hc a ha)⟩

theorem Dev.ChFrame.chFlag (s : Dev) (c i : Nat) : s.ChFrame (s.chFlag c i) :=
  ⟨⟨_, rfl⟩, fun a ha => Dev.rd_setBits_of_ne s _ (by have := aCh_page c 4; omega)⟩

theorem Dev.ChFrame.dropout (s : Dev) (x : DpsSample) : s.ChFrame (s.dropout x) := by
  unfold Dev.dropout
  split
  · split
    · exact Dev.ChFrame.chFlag s _ _
    · exact Dev.ChFrame.refl s
  · exact Dev.ChFrame.refl s

/-! ### The power sum -/

/-- The dropouts of the samples of enabled outputs (R186). -/
def Dev.dropouts (s : Dev) (xs : List DpsSample) : Dev := forL (xs.filter (fun x => (s.circ x.chan).dpsOn)) (fun x s => s.dropout x) s

theorem Dev.ChFrame.dropouts (s : Dev) (xs : List DpsSample) : s.ChFrame (s.dropouts xs) :=
  forL_keeps (I := s.ChFrame) (fun x _ t ht => ht.trans (Dev.ChFrame.dropout t x)) (Dev.ChFrame.refl s)

/-- The sum as the register shows it (R327). -/
def wattsWord (w : Option Int) : W := match w with | some n => f32OfScaled n (2 ^ 149) | none => qNaN

/-- How often in a row the sum has stood above its limit. -/
def Dev.overCount (s : Dev) (v : W) : Nat := if f32Lt (s.rd (aPwr 0x88)) v then min 4 (s.pwr.overN + 1) else 0

/-- The sum is shown and counted (R327). -/
def Dev.showWatts (s : Dev) (v : W) : Dev :=
  let u := s.wr (aPwr 0x84) v
  { u with pwr := { u.pwr with overN := s.overCount v } }

/-- At the fourth sum in a row above its limit the flag is set (R327). -/
def Dev.flagWatts (s : Dev) (v : W) : Dev :=
  if 4 ≤ s.overCount v then (s.showWatts v).setBits (aPwr 0x80) 0x40000000 else s.showWatts v

theorem exec_dpsPowerSum {s : State} {xs : List DpsSample} {w : Option Int}
    (hw : sumWatts (xs.filter (fun x => (s.circ x.chan).dpsOn)) = w) :
    exec (.dpsPowerSum xs) s = .next { s with toDev := (s.dropouts xs).flagWatts (wattsWord w) } := by
  subst hw
  refine State.run_to (f := fun s => s.dpsPower xs) ?_
  have hlim : ((s.dropouts xs).wr (aPwr 0x84) (wattsWord (sumWatts (xs.filter (fun x => (s.circ x.chan).dpsOn))))).rd (aPwr 0x88) =
      (s.dropouts xs).rd (aPwr 0x88) := Dev.rd_wr_of_ne _ (by decide) _
  unfold Dev.flagWatts Dev.showWatts Dev.overCount
  rw [← hlim]
  rfl

/-- What the sum leaves (R327). -/
theorem Dev.flagWatts_shows (s : Dev) (v : W) :
    (s.flagWatts v).rd (aPwr 0x84) = v ∧ (s.flagWatts v).pwr.overN = s.overCount v ∧
      (4 ≤ s.overCount v → (s.flagWatts v).bit (aPwr 0x80) 30 = true) ∧
      (s.overCount v < 4 → (s.flagWatts v).rd (aPwr 0x80) = s.rd (aPwr 0x80)) ∧
      ∃ r, s.flagWatts v = { s with regs := r, pwr := { s.pwr with overN := s.overCount v } } := by
  have hsum : (s.showWatts v).rd (aPwr 0x84) = v := Dev.rd_wr_self _ _ _
  have hflag : (s.showWatts v).rd (aPwr 0x80) = s.rd (aPwr 0x80) := Dev.rd_wr_of_ne _ (by decide) _
  unfold Dev.flagWatts
  split
  next h =>
    refine ⟨(Dev.rd_setBits_of_ne _ _ (by decide)).trans hsum, rfl, fun _ => ?_, fun hlt => absurd hlt (by omega), _, rfl⟩
    rw [Dev.bit, Dev.rd_setBits_self, W.bit_or, show W.bit 0x40000000 30 = true by decide, Bool.or_true]
  next h => exact ⟨hsum, rfl, fun h' => absurd h' h, fun _ => hflag, _, rfl⟩

/-! ### Alarms -/

/-- Sites voided together are voided (R88). -/
theorem Dev.forL_voidSites {α : Type} (c : Nat) (g : α → List Nat) (l : List α) (s : Dev) :
    (∃ x y, forL l (fun a t => t.voidSites c (g a)) s = { s with sites := x, engs := y }) ∧
      ∀ i, (forL l (fun a t => t.voidSites c (g a)) s).site i = if ∃ a ∈ l, i ∈ g a then (s.site i).voided c else s.site i := by
  induction l generalizing s with
  | nil => exact ⟨⟨_, _, rfl⟩, fun i => by simp [forL]⟩
  | cons a r ih =>
    have hcons : forL (a :: r) (fun a t => t.voidSites c (g a)) s = forL r (fun a t => t.voidSites c (g a)) (s.voidSites c (g a)) := rfl
    obtain ⟨⟨x, y, hframe⟩, hsite⟩ := ih (s.voidSites c (g a))
    obtain ⟨x', y', hvoid⟩ := (s.voidFrame_voidSites c (g a)).exists
    rw [hcons]
    refine ⟨⟨x, y, by rw [hframe, hvoid]⟩, fun i => ?_⟩
    rw [hsite, Dev.voidSites_site]
    by_cases h1 : i ∈ g a <;> by_cases h2 : ∃ b ∈ r, i ∈ g b <;> simp [h1, h2, Site.voided_voided]

/-- Raises at VOID of one source in a clean class: the mode is kept, and the sites of every aim are voided (R88, R298). -/
theorem Dev.raises_voids {s : Dev} {f x c : Nat} {α : Type} {l : List α} (g : α → List Nat) (hne : l ≠ []) (hf : f < 384)
    (hen : fltMaskable f = false) (hx : f / 32 = x) (hcause : causeBit f = c) (hc : s.Clean x) :
    (s.raises (l.map (fun a => raiseAt f 2 (g a)))).sys.mode = s.sys.mode ∧
      ∀ a ∈ l, ∀ i ∈ g a, ((s.raises (l.map (fun a => raiseAt f 2 (g a)))).site i).voids = some ((s.site i).voids.getD 0 ||| c) := by
  subst hx hcause
  have hall : ∀ r ∈ l.map (fun a => raiseAt f 2 (g a)), r.f = f ∧ r.lvl = 2 := by
    intro r hr
    obtain ⟨a, -, rfl⟩ := List.mem_map.mp hr
    exact ⟨rfl, rfl⟩
  have hmax : (l.map (fun a => raiseAt f 2 (g a))).foldl (fun m r => max m r.lvl) 0 = 2 := by
    have htwo : ∀ k : List α, (k.map (fun a => raiseAt f 2 (g a))).foldl (fun m r => max m r.lvl) 2 = 2 := by
      intro k
      induction k with
      | nil => rfl
      | cons a r ih => exact ih
    cases l with
    | nil => exact absurd rfl hne
    | cons a r => exact htwo r
  have heq : s.raises (l.map (fun a => raiseAt f 2 (g a))) =
      (s.recordOcc (f / 32) 2 2 ((l.map (fun a => raiseAt f 2 (g a))).map (fun r => (r.f, r.sites)))).reacts (f / 32) 2
        (noOcc (f / 32)) (l.map (fun a => raiseAt f 2 (g a))) := by
    rw [Dev.raises_eq_occur (x := f / 32) (by simpa using hne) (by omega)
      (fun r hr => by rw [(hall r hr).1, Dev.srcEn_of_unmaskable hen, Bool.or_true]) (fun r hr => by rw [(hall r hr).1]),
      hc.occur_eq hmax]
  have hreact : ∀ t : Dev, t.reacts (f / 32) 2 (noOcc (f / 32)) (l.map (fun a => raiseAt f 2 (g a))) =
      forL l (fun a t => t.voidSites (causeBit f) (g a)) t := by
    intro t
    rw [Dev.reacts, if_neg (by omega)]
    simp only [noOcc, forL, List.foldl_map]
    rfl
  rw [heq, hreact]
  have hnote := s.noteFrame_recordOcc (f / 32) 2 2 ((l.map (fun a => raiseAt f 2 (g a))).map (fun r => (r.f, r.sites)))
  obtain ⟨⟨x, y, hframe⟩, hsite⟩ := Dev.forL_voidSites (causeBit f) g l
    (s.recordOcc (f / 32) 2 2 ((l.map (fun a => raiseAt f 2 (g a))).map (fun r => (r.f, r.sites))))
  refine ⟨by rw [hframe]; exact congrArg Sys.mode hnote.sys, fun a ha i hi => ?_⟩
  rw [hsite, if_pos ⟨a, ha, hi⟩, hnote.site]
  rfl

/-! ### Trips -/

/-- A pin of a gang that trips: FUNC Off, the output off with its bleeder, and the flag (R187). -/
def Dev.tripPin (s : Dev) (r : Nat) : Dev :=
  ((s.setFunc 0 (s.range r) 0 r).onCirc (s.circOf r) (dpsOff true)).chFlag (s.circOf r) 7

theorem Dev.rd_tripPin (s : Dev) (r a : Nat) :
    (s.tripPin r).rd a = if a = aCh (s.circOf r) 4 then (if a = aPin r 0x30 then wn (s.range r % 8 * 16) else s.rd a) ||| wn (2 ^ 7)
      else if a = aPin r 0x30 then wn (s.range r % 8 * 16) else s.rd a := by
  have hset : ∀ b, ((s.setFunc 0 (s.range r) 0 r).onCirc (s.circOf r) (dpsOff true)).rd b =
      if b = aPin r 0x30 then wn (s.range r % 8 * 16) else s.rd b := by
    intro b
    show (s.wr (aPin r 0x30) (wn (s.range r % 8 * 16 + 0 % 8))).rd b = _
    split
    next h => rw [h, Dev.rd_wr_self]; rfl
    next h => rw [Dev.rd_wr_of_ne _ h]
  rw [Dev.tripPin, Dev.chFlag]
  split
  next h => rw [h, Dev.rd_setBits_self, hset]
  next h => rw [Dev.rd_setBits_of_ne _ _ h, hset]

/-- Configuration cards and flag cards of channels lie apart. -/
theorem aPin_ne_flag (r c : Nat) : aPin r 0x30 ≠ aCh c 4 := by
  unfold aPin aCh
  omega

theorem Dev.range_lt (s : Dev) (r : Nat) : s.range r < 8 := W.fld_lt _ 6 4

theorem fld_rangeWord {x : Nat} (h : x < 8) : (wn (x % 8 * 16)).fld 6 4 = x ∧ (wn (x % 8 * 16)).fld 2 0 = 0 := by
  unfold wn W.fld
  rw [BitVec.toNat_ofNat, Nat.shiftRight_eq_div_pow, Nat.shiftRight_eq_div_pow]
  omega

/-- A trip leaves every RANGE, and FUNC Off where it was. -/
theorem Dev.tripPin_func (s : Dev) (r k : Nat) :
    (s.tripPin r).range k = s.range k ∧ (s.tripPin r).func k = if aPin k 0x30 = aPin r 0x30 then 0 else s.func k := by
  obtain ⟨hrange, hfunc⟩ := fld_rangeWord (s.range_lt r)
  rw [Dev.range, Dev.fld, Dev.func, Dev.fld, Dev.rd_tripPin, if_neg (aPin_ne_flag _ _)]
  split
  next h => exact ⟨by rw [hrange, Dev.range, Dev.range, h], hfunc⟩
  next => exact ⟨rfl, rfl⟩

theorem Dev.tripPin_flag (s : Dev) (r c : Nat) :
    (s.tripPin r).bit (aCh c 4) 7 = (s.bit (aCh c 4) 7 || decide (aCh c 4 = aCh (s.circOf r) 4)) := by
  rw [Dev.bit, Dev.rd_tripPin]
  have hne : aCh c 4 ≠ aPin r 0x30 := (aPin_ne_flag r c).symm
  by_cases h : aCh c 4 = aCh (s.circOf r) 4
  · rw [if_pos h, if_neg hne, W.bit_or, show W.bit (wn (2 ^ 7)) 7 = true by decide, decide_eq_true h, Bool.or_true, Bool.or_true]
  · rw [if_neg h, if_neg hne, decide_eq_false h, Bool.or_false]
    rfl

theorem Dev.tripPin_circ (s : Dev) (r c : Nat) :
    (s.tripPin r).circ c = if c = s.circOf r then dpsOff true (s.circ c) else s.circ c := by
  show ((s.setFunc 0 (s.range r) 0 r).onCirc (s.circOf r) (dpsOff true)).circ c = _
  by_cases h : c = s.circOf r
  · subst h
    rw [if_pos rfl, Dev.onCirc, Dev.circ_setCirc_self]
    rfl
  · rw [if_neg h, Dev.onCirc, Dev.circ_setCirc_of_ne _ h]
    rfl

theorem Dev.tripPin_only (s : Dev) (r : Nat) : ∃ g x, s.tripPin r = { s with regs := g, circs := x } := ⟨_, _, rfl⟩

/-- The gang once it has tripped. -/
def Dev.tripped (s : Dev) (l : List Nat) : Dev := forL l (fun r s => s.tripPin r) s

/-- Cards and circuits alone differ, RANGE stands, and so does a card of the headgate of the same quad's pins. -/
theorem Dev.tripped_frame {s : Dev} {l : List Nat} :
    (∃ g x, s.tripped l = { s with regs := g, circs := x }) ∧ (∀ k, (s.tripped l).range k = s.range k) ∧
      (∀ a, a < 0x2000000 → (s.tripped l).rd a = s.rd a) ∧
      ∀ p, (∀ r ∈ l, r / 4 = p / 4) → (s.tripped l).rd (aHgt (4 * p)) = s.rd (aHgt (4 * p)) := by
  have hall : ∀ (I : Dev → Prop), I s → (∀ r ∈ l, ∀ t, I t → I (t.tripPin r)) → I (s.tripped l) := fun I h0 h =>
    forL_keeps (I := I) h h0
  refine ⟨hall (fun t => ∃ g x, t = { s with regs := g, circs := x }) ⟨_, _, rfl⟩ (fun r _ t ht => ?_),
    hall (fun t => ∀ k, t.range k = s.range k) (fun _ => rfl) (fun r _ t ht k => (t.tripPin_func r k).1.trans (ht k)),
    hall (fun t => ∀ a, a < 0x2000000 → t.rd a = s.rd a) (fun _ _ => rfl) (fun r _ t ht a ha => ?_), fun p hp => ?_⟩
  · obtain ⟨g, x, rfl⟩ := ht
    exact ⟨_, _, rfl⟩
  · have h1 := aCh_page (t.circOf r) 4
    have h2 := aCh_page (5 * (r / 4) + r % 4) 0x30
    rw [Dev.rd_tripPin, if_neg (by omega), if_neg (by unfold aPin; omega)]
    exact ht a ha
  · refine hall (fun t => t.rd (aHgt (4 * p)) = s.rd (aHgt (4 * p))) rfl (fun r hr t ht => ?_)
    have hq := hp r hr
    have hcirc : t.circOf r / 5 = p / 4 := by
      unfold Dev.circOf
      dsimp only
      split <;> omega
    have hapart : aHgt (4 * p) ≠ aCh (t.circOf r) 4 ∧ aHgt (4 * p) ≠ aPin r 0x30 := by
      unfold aPin aHgt aCh
      omega
    rw [Dev.rd_tripPin, if_neg hapart.1, if_neg hapart.2]
    exact ht

/-- A pin of the gang: its output off with the bleeder, FUNC Off, and the flag (R187). -/
theorem Dev.tripped_pin {s : Dev} {l : List Nat} {r : Nat} (hr : r ∈ l) :
    ((s.tripped l).circ (s.circOf r)).quiet ∧ (s.tripped l).func r = 0 ∧ (s.tripped l).bit (aCh (s.circOf r) 4) 7 = true := by
  have hquads : ∀ t : Dev, t.quads = s.quads → ∀ k, t.circOf k = s.circOf k := fun t ht k => by
    unfold Dev.circOf Dev.quad
    rw [ht]
  have hat := forL_attains (P := fun t : Dev => t.quads = s.quads → (t.circ (s.circOf r)).quiet ∧ t.func r = 0 ∧
      t.bit (aCh (s.circOf r) 4) 7 = true) (l := l) (f := fun r s => s.tripPin r) ?_ hr ?_ s
  · obtain ⟨⟨g, x, h⟩, -⟩ := Dev.tripped_frame (s := s) (l := l)
    have hq : (s.tripped l).quads = s.quads := by rw [h]
    exact hat hq
  · intro k t _ ht hq
    obtain ⟨hquiet, hfunc, hflag⟩ := ht hq
    refine ⟨?_, ?_, ?_⟩
    · rw [Dev.tripPin_circ]
      split
      · exact ⟨rfl, rfl⟩
      · exact hquiet
    · rw [(t.tripPin_func k r).2]
      split
      · rfl
      · exact hfunc
    · rw [Dev.tripPin_flag, hflag]
      rfl
  · intro t hq
    have hc := hquads t hq r
    refine ⟨?_, ?_, ?_⟩
    · rw [Dev.tripPin_circ, if_pos hc.symm]
      exact ⟨rfl, rfl⟩
    · rw [(t.tripPin_func r r).2, if_pos rfl]
    · rw [Dev.tripPin_flag, hc]
      simp

/-- The pins of a gang lie in one quad. -/
theorem Dev.gangPins_quad {s : Dev} {p r : Nat} (h : r ∈ s.gangPins p) : r / 4 = p / 4 := by
  unfold Dev.gangPins at h
  split at h
  next m _ =>
    obtain ⟨c, hc, rfl⟩ := List.mem_map.mp h
    have hlt : c < 4 := List.mem_range.mp (List.mem_filter.mp hc).1
    omega
  next => rw [List.mem_singleton.mp h]

/-- A circuit serves one pin at most. -/
theorem Dev.pinsOfCirc_one {s : Dev} {c p : Nat} {l : List Nat} (h : s.pinsOfCirc c = p :: l) : l = [] := by
  unfold Dev.pinsOfCirc at h
  split at h
  · split at h
    · cases h; rfl
    · cases h
  · split at h
    · split at h
      · cases h; rfl
      · cases h
    · cases h

/-- The aim of a circuit stands where its pin's card of the headgate does. -/
theorem Dev.circAim_congr {s t : Dev} {c p : Nat} (hp : s.pinsOfCirc c = [p]) (hq : t.quads = s.quads) (hs : t.sites = s.sites)
    (hrd : t.rd (aHgt (4 * p)) = s.rd (aHgt (4 * p))) : t.circAim c = s.circAim c := by
  have hpins : t.pinsOfCirc c = s.pinsOfCirc c := by
    unfold Dev.pinsOfCirc Dev.circOf Dev.quad
    rw [hq]
  have hsite : t.siteOfPin p = s.siteOfPin p := by
    unfold Dev.siteOfPin
    rw [Dev.bit_congr hrd, Dev.fld_congr hrd]
  unfold Dev.circAim Dev.site
  rw [hpins, hp, hs, List.filterMap_cons, List.filterMap_cons, hsite]
  rfl

theorem exec_dpsTrip {s : State} {c : Fin 720} {p : Nat} {l : List Nat} (hmay : s.mayTrip c = true) (hp : s.pinsOfCirc c = p :: l) :
    exec (.dpsTrip c) s = .next { s with
      toDev := (s.tripped (s.gangPins p)).raise (raiseAt 226 2 ((s.tripped (s.gangPins p)).circAim c)) } := by
  refine State.run_to (f := fun s => if s.mayTrip c then s.dpsTrip c else s) ?_
  rw [if_pos hmay, Dev.dpsTrip, hp]
  rfl

theorem Dev.bit_chFlag (s : Dev) (c : Nat) {i : Nat} (h : i < 32) : (s.chFlag c i).bit (aCh c 4) i = true := by
  have hpow : (wn (2 ^ i)).bit i = true := by
    unfold wn W.bit
    rw [BitVec.getLsbD_ofNat, decide_eq_true h, Nat.testBit_two_pow_self]
    rfl
  rw [Dev.bit, Dev.chFlag, Dev.rd_setBits_self, W.bit_or, hpow, Bool.or_true]

/-- The condition that DPS_MONITOR acts on (R65). -/
def Dev.monitors (s : Dev) : Bool :=
  decide (s.sys.mode = .stress) && s.bit 0x114 0 && decide (s.clk.frame % 2 ^ max 4 (min 24 (s.fld 0x114 12 8)) = 0)

theorem Dev.dpsMonitor_eq (s : Dev) (xs : List DpsSample) :
    s.dpsMonitor xs = if s.monitors = true ∧ xs.filter (fun x => (s.circ x.chan).dpsOn && !s.inAlarm x) ≠ [] then
      s.raises ((xs.filter (fun x => (s.circ x.chan).dpsOn && !s.inAlarm x)).map (fun x => raiseAt 227 2 (s.circAim x.chan))) else s := by
  unfold Dev.dpsMonitor Dev.monitors
  dsimp only
  generalize xs.filter (fun x => (s.circ x.chan).dpsOn && !s.inAlarm x) = bad
  by_cases h1 : s.sys.mode = .stress <;> by_cases h2 : s.bit 0x114 0 = true <;>
    by_cases h3 : s.clk.frame % 2 ^ max 4 (min 24 (s.fld 0x114 12 8)) = 0 <;> simp [h1, h2, h3]

/-- Settles O34, by part: sum (`Dev.flagWatts_shows`), alarm (`Dev.raises_voids`), trip (`Dev.tripped_pin`), limit and clamp. -/
theorem supplyMonitorsReport : Obligations.SupplyMonitorsReport := by
  unfold Obligations.SupplyMonitorsReport
  intro s monitors
  refine ⟨fun xs w hw => ?sum, fun xs x hmon hx hon hal => ?alarm, fun xs h => ?quiet, fun c p l hmay hp => ?trip, fun c h => ?safe,
    fun c b hon => ?limit, fun c b hoff => ?noLimit, fun c p hp hf => ?clamp, fun c h => ?noClamp⟩
  case sum =>
    obtain ⟨⟨r, hframe⟩, hcards⟩ := Dev.ChFrame.dropouts s.toDev xs
    obtain ⟨shown, count, flagged, kept, g, only⟩ := (s.dropouts xs).flagWatts_shows (wattsWord w)
    have hcount : (s.dropouts xs).overCount (wattsWord w) = if f32Lt (s.rd (aPwr 0x88)) (wattsWord w) then min 4 (s.pwr.overN + 1) else 0 := by
      have hover : (s.dropouts xs).pwr.overN = s.pwr.overN := by rw [hframe]
      rw [Dev.overCount, hcards _ (by decide), hover]
    refine ⟨_, exec_dpsPowerSum hw, ?_⟩
    refine ⟨shown, count.trans hcount, fun h => flagged (by rw [← count]; exact h),
      fun h => (kept (by rw [← count]; exact h)).trans (hcards _ (by decide)), ?_⟩
    rw [only, hframe]
  case alarm =>
    have hbad : x ∈ xs.filter (fun x => (s.circ x.chan).dpsOn && !s.inAlarm x) :=
      List.mem_filter.mpr ⟨hx, by rw [hon, hal]; rfl⟩
    have hexec : exec (.dpsMonitor xs) s = .next { s with
        toDev := s.raises ((xs.filter (fun x => (s.circ x.chan).dpsOn && !s.inAlarm x)).map
          (fun x => raiseAt 227 2 (s.circAim x.chan))) } :=
      State.run_to (f := fun s => s.dpsMonitor xs)
        ((s.dpsMonitor_eq xs).trans (if_pos ⟨hmon, List.ne_nil_of_mem hbad⟩))
    generalize xs.filter (fun x => (s.circ x.chan).dpsOn && !s.inAlarm x) = bad at hbad hexec
    have hplain : ∀ r ∈ bad.map (fun x => raiseAt 227 2 (s.circAim x.chan)), r.plain := by
      intro r hr
      obtain ⟨a, -, rfl⟩ := List.mem_map.mp hr
      exact ⟨by simp [raiseAt], by simp [raiseAt]⟩
    have hup := Upset.raises s.toDev _ hplain
    refine ⟨_, hexec, ⟨?_, hup.stays, hup.rest⟩, fun hc => ?_⟩
    · exact s.raises_sticky hplain (r := raiseAt 227 2 (s.circAim x.chan)) (List.mem_map.mpr ⟨x, hbad, rfl⟩)
    · obtain ⟨mode, voids⟩ := Dev.raises_voids (f := 227) (c := 4) (fun x : DpsSample => s.circAim x.chan) (List.ne_nil_of_mem hbad) (by decide)
        (by decide) (by decide) (by decide) hc
      exact ⟨mode, voids x hbad⟩
  case quiet =>
    refine State.run_idle (f := fun s => s.dpsMonitor xs) ?_
    rw [Dev.dpsMonitor_eq, if_neg]
    rintro ⟨hmon, hne⟩
    rcases h with h | h
    · exact Bool.false_ne_true (h.symm.trans hmon)
    · refine hne (List.filter_eq_nil_iff.mpr (fun x hx => ?_))
      cases hon : (s.circ x.chan).dpsOn
      · simp
      · simp [h x hx hon]
  case trip =>
    obtain ⟨⟨g, y, hframe⟩, hrange, hcards, hhgt⟩ := Dev.tripped_frame (s := s.toDev) (l := s.gangPins p)
    have hpins := fun r hr => Dev.tripped_pin (s := s.toDev) (l := s.gangPins p) (r := r) hr
    have haim : (s.tripped (s.gangPins p)).circAim c = s.circAim c := by
      have hl := Dev.pinsOfCirc_one hp
      subst hl
      exact Dev.circAim_congr hp (by rw [hframe]) (by rw [hframe]) (hhgt p (fun r hr => Dev.gangPins_quad hr))
    have hclean : s.Clean 7 → (s.tripped (s.gangPins p)).Clean 7 := fun hc =>
      hc.of_cards (by rw [hframe]) (fun n hn => hcards _ (by unfold aSrc aFlt; omega))
    have hclk : (s.tripped (s.gangPins p)).clk = s.clk := by rw [hframe]
    have hexec := exec_dpsTrip hmay hp
    rw [haim] at hexec
    have hmode : (s.tripped (s.gangPins p)).sys.mode = s.sys.mode := by rw [hframe]
    have hsite : ∀ i, (s.tripped (s.gangPins p)).site i = s.site i := fun i => by rw [hframe]; rfl
    generalize s.tripped (s.gangPins p) = u at hrange hcards hpins hclean hclk hexec hmode hsite
    obtain ⟨now, -, rest⟩ := u.raiseAt_raised (f := 226) (by decide) (by decide) 2 (s.circAim c)
    have hcard : ∀ a, 0x2000000 ≤ a → (u.raise (raiseAt 226 2 (s.circAim c))).rd a = u.rd a := fun a ha =>
      rest.cards a (by omega) (by omega) (by omega)
    refine ⟨_, hexec, fun r hr => ?_, now, rest.clk.trans hclk, fun hc => ?_⟩
    · obtain ⟨hquiet, hfunc, hflag⟩ := hpins r hr
      obtain ⟨hoff, hbleed⟩ := (Dev.Steady.raise u (raiseAt 226 2 (s.circAim c))).quiet hquiet
      have hpin := hcard (aPin r 0x30) (aCh_page _ _)
      exact ⟨hoff, hbleed, (Dev.fld_congr hpin 2 0).trans hfunc, (Dev.fld_congr hpin 6 4).trans (hrange r),
        (Dev.bit_congr (hcard _ (aCh_page _ _)) 7).trans hflag⟩
    · obtain ⟨hvoids, -, -⟩ := Dev.raiseAt_void_after (s := u) (u := u) (f := 226) (a := 0) (x := 7) (c := 4) (l := s.circAim c)
        (by decide) (Dev.srcEn_of_unmaskable (by decide)) (by decide) (by decide) (hclean hc) rfl (fun _ => rfl) (Dev.Cards.refl u _)
      exact hvoids.of_same hmode hsite
  case safe => exact State.run_idle (f := fun s => if s.mayTrip c then s.dpsTrip c else s) (if_neg (by rw [h]; exact Bool.false_ne_true))
  case limit =>
    have hexec : exec (.currentLimit c b) s = .next { s with
        toDev := if b then (s.onCirc c (fun x => { x with limit := b })).chFlag c 8 else s.onCirc c (fun x => { x with limit := b }) } :=
      State.run_to (f := fun s => s.currentLimit c b) (if_neg (by rw [hon]; decide))
    have hself : (s.onCirc c (fun x => { x with limit := b })).circ c = { s.circ c with limit := b } := by
      rw [Dev.onCirc, Dev.circ_setCirc_self]
    have hothers : ∀ k, k ≠ c.val → (s.onCirc c (fun x => { x with limit := b })).circ k = s.circ k := fun k hk => by
      rw [Dev.onCirc, Dev.circ_setCirc_of_ne _ hk]
    refine ⟨_, hexec, ?_⟩
    cases b with
    | true =>
      exact ⟨hself, hothers, fun _ => ⟨Dev.bit_chFlag _ _ (by decide),
        (Dev.Cards.of_regs rfl _).setBits (by simp) _⟩, fun h => Bool.noConfusion h, rfl⟩
    | false => exact ⟨hself, hothers, fun h => Bool.noConfusion h, fun _ => rfl, rfl⟩
  case noLimit => exact State.run_idle (f := fun s => s.currentLimit c b) (if_pos (by rw [hoff]; rfl))
  case clamp =>
    have hexec : exec (.pmuClamp c) s = .next { s with toDev := s.chFlag c 9 } := by
      refine State.run_to (f := fun s => s.pmuClamp c) ?_
      rw [Dev.pmuClamp, hp]
      exact if_pos (by rcases hf with h | h <;> simp [h])
    exact ⟨_, hexec, Dev.rd_setBits_self _ _ _, (Dev.Cards.refl _ _).setBits (by simp) _, rfl⟩
  case noClamp =>
    refine State.run_idle (f := fun s => s.pmuClamp c) ?_
    unfold Dev.pmuClamp
    split
    next p l hp => exact if_neg (by have := h p (by rw [hp]; simp); simpa using this)
    next => rfl

end Sys2Proof.Machine
end

section
/-! PROOFS. A quad that leaves ACTIVE (R72, R193): O35. -/

namespace Sys2Proof.Machine

/-- Quad 0 is ACTIVE with a request for OFF due, an engine of a site in it runs, and class 7 is not acknowledged. The table
of quads lists the quad a second time, as no run from reset leaves it. -/
def twiceListed : State :=
  { State.reset with
    sys := { State.reset.sys with mode := .functional }
    regs := [(aSrc 224, 0x41000000), (aHgt 0, 0x80000000)]
    sites := [(0, { siteInit with mapped := true })]
    engs := [(0, { engOff with st := .running })]
    quads := [(0, { quadInit with st := .active, warm := some (.off, 0, 0), ticket := 1 }), (0, { quadInit with st := .parked })] }

/-- The change as the command makes it. -/
def Dev.warmDone (s : Dev) (q tag : Nat) (t : QState) : Dev := (s.quadsTo [(q, t)]).qDone q tag

/-- QUAD_LEFT enters SAFE, which drops the entry that has become that of an unlisted quad; the second one shows. -/
theorem twiceListed_warmDone : ((twiceListed.warmDone 0 0 .off).quad 0).st = .parked := by
  decide +kernel

/-- Refutes O35: the statement asks of every table of quads that the quad shows the state asked for, and in `twiceListed` it
shows an entry that the table holds behind its first. -/
theorem not_quadsChangeStateAndServe : ¬ Obligations.QuadsChangeStateAndServe := by
  unfold Obligations.QuadsChangeStateAndServe
  intro h
  obtain ⟨hwarm, -⟩ := h twiceListed 0
  obtain ⟨t, hexec, hst, -⟩ := hwarm .off 0 0 rfl (by decide)
  have hrun : exec (.quadWarmDone 0) twiceListed = .next { twiceListed with toDev := twiceListed.warmDone 0 0 .off } :=
    State.run_to (s := twiceListed) (f := fun s => match (s.quad 0).warm with
      | some (t, tag, _) => s.warmDone 0 tag t
      | none => s) rfl
  have hdev : t = twiceListed.warmDone 0 0 .off := congrArg State.toDev (Host.Outcome.next.inj (hexec.symm.trans hrun))
  have hparked : (t.quad 0).st = .parked := hdev ▸ twiceListed_warmDone
  exact QState.noConfusion (hparked.symm.trans hst)

end Sys2Proof.Machine
end

section
/-! PROOFS. What a TDC's edges touch (R251-R264): the TDC, its channel's cards and queue, and the sluice. -/

namespace Sys2Proof.Machine

/-- A TDC's work: its own entry, cards but the low ones and the weirs', the sluice, and the free values. -/
structure Dev.TdcFrame (ch : Nat) (s t : Dev) : Prop where
  only   : ∃ d r x f, t = { s with tdcs := d, regs := r, slc := x, freeIx := f }
  others : ∀ k, k ≠ ch → t.tdc k = s.tdc k
  cards  : ∀ a, (a < 0x40000 ∨ ∃ c, a = aCh c 0x68) → t.rd a = s.rd a

namespace Dev.TdcFrame

theorem refl (ch : Nat) (s : Dev) : Dev.TdcFrame ch s s := ⟨⟨_, _, _, _, rfl⟩, fun _ _ => rfl, fun _ _ => rfl⟩

theorem trans {ch : Nat} {s t u : Dev} (h : Dev.TdcFrame ch s t) (k : Dev.TdcFrame ch t u) : Dev.TdcFrame ch s u := by
  obtain ⟨⟨_, _, _, _, rfl⟩, ho, hw⟩ := h
  obtain ⟨⟨_, _, _, _, rfl⟩, ko, kw⟩ := k
  exact ⟨⟨_, _, _, _, rfl⟩, fun n hn => (ko n hn).trans (ho n hn), fun a ha => (kw a ha).trans (hw a ha)⟩

theorem setTdc (s : Dev) (ch : Nat) (d : Tdc) : Dev.TdcFrame ch s (s.setTdc ch d) :=
  ⟨⟨_, _, _, _, rfl⟩, fun _ hn => Dev.tdc_setTdc_of_ne s hn d, fun _ _ => rfl⟩

theorem onTdc (s : Dev) (ch : Nat) (f : Tdc → Tdc) : Dev.TdcFrame ch s (s.onTdc ch f) := setTdc s ch _

/-- A card written that is neither low nor a weir's. -/
theorem wr (s : Dev) (ch : Nat) {a : Nat} (v : W) (hl : 0x40000 ≤ a) (h : ∀ c, aCh c 0x68 ≠ a) : Dev.TdcFrame ch s (s.wr a v) :=
  ⟨⟨_, _, _, _, rfl⟩, fun _ _ => rfl, fun n hn => Dev.rd_wr_of_ne s (by
    rcases hn with hn | ⟨c, rfl⟩
    · omega
    · exact h c) v⟩

/-- A card of the channel but its weir's. -/
theorem wrCh (s : Dev) (ch : Nat) {o : Nat} (v : W) (h : o < 0x800) (h' : o ≠ 0x68) : Dev.TdcFrame ch s (s.wr (aCh ch o) v) :=
  wr s ch v (by have := aCh_page ch o; omega) (fun c => by unfold aCh; omega)

theorem setBits (s : Dev) (ch : Nat) (m : W) : Dev.TdcFrame ch s (s.setBits (aCh ch 0x12C) m) := wrCh s ch _ (by omega) (by omega)

theorem produce (s : Dev) (ch : Nat) (p : Prod) (edge tag : Nat) (b : Block) (tb : Option Nat) :
    Dev.TdcFrame ch s (s.produce p edge tag b tb) := by
  obtain ⟨⟨r, x, h⟩, hc⟩ := Dev.SlcFrame.produce s p edge tag b tb
  exact ⟨⟨s.tdcs, r, x, s.freeIx, h⟩, fun n _ => by rw [h]; rfl, fun a ha => hc a (by
    rcases ha with ha | ⟨c, rfl⟩
    · exact .inl ha
    · exact .inr (by have := aCh_page c 0x68; omega))⟩

theorem push (s : Dev) (ch : Nat) (e : Stamp) : Dev.TdcFrame ch s (s.tdcPush ch e) := by
  have hpage : ∀ n k, 0x40000 ≤ aQuad (ch / 5) (0x400 + ch % 5 * 0x200 + n % 64 * 8) + k := fun n k => by
    unfold aQuad
    omega
  have hqueue : ∀ c n k : Nat, k ≤ 4 → aCh c 0x68 ≠ aQuad (ch / 5) (0x400 + ch % 5 * 0x200 + n % 64 * 8) + k :=
    fun c n k hk => by
      unfold aQuad aCh
      omega
  unfold Dev.tdcPush
  extract_lets n d
  split
  · exact ((setBits s ch _).trans (wrCh _ ch _ (by omega) (by omega))).trans (setTdc _ ch _)
  · exact (((wr s ch _ (hpage _ 0) (fun c => hqueue c _ 0 (by omega))).trans (wr _ ch _ (hpage _ 4) (fun c => hqueue c _ 4 (by omega)))).trans
      (wrCh _ ch _ (by omega) (by omega))).trans (setTdc _ ch _)

theorem close (s : Dev) (ch : Nat) (c : Int) (v : W) (st : TdcState) : Dev.TdcFrame ch s (s.tdcClose ch c v st) :=
  (setTdc s ch _).trans (produce _ ch _ _ _ _ _)

theorem finish (s : Dev) (ch : Nat) (c : Int) : Dev.TdcFrame ch s (s.tdcFinish ch c) := close s ch c _ _

theorem cut (s : Dev) (ch : Nat) : Dev.TdcFrame ch s (s.tdcCut ch) := by
  unfold Dev.tdcCut
  dsimp only
  split
  · exact close s ch _ _ _
  · exact refl ch s

theorem bad (s : Dev) (ch bit : Nat) (c : Int) : Dev.TdcFrame ch s (s.tdcBad ch bit c) := (setBits s ch _).trans (close _ ch _ _ _)

theorem attemptOver (s : Dev) (ch : Nat) (c : Int) : Dev.TdcFrame ch s (s.attemptOver ch c) := by
  unfold Dev.attemptOver
  dsimp only
  split
  · exact finish s ch c
  · exact setTdc s ch _

theorem acceptStop (s : Dev) (ch : Nat) (t0 : Int) (k : KeptStop) : Dev.TdcFrame ch s (s.acceptStop ch t0 k) := by
  unfold Dev.acceptStop
  extract_lets t co s1 s2 s3
  have h1 : Dev.TdcFrame ch s s1 := push s ch _
  have h2 : Dev.TdcFrame ch s s2 := by
    unfold s2
    split
    · exact h1.trans (setBits s1 ch _)
    · exact h1
  exact (h2.trans (onTdc s2 ch _)).trans (attemptOver s3 ch _)

theorem missStop (s : Dev) (ch : Nat) : Dev.TdcFrame ch s (s.missStop ch) := by
  unfold Dev.missStop
  dsimp only
  split
  · exact refl ch s
  · split
    · exact refl ch s
    · exact (((push s ch _).trans (setBits _ ch _)).trans (onTdc _ ch _)).trans (attemptOver _ ch _)

theorem startAttempt (s : Dev) (ch : Nat) (t : Int) (pol : Bool) : Dev.TdcFrame ch s (s.startAttempt ch t pol) := by
  unfold Dev.startAttempt
  extract_lets s1 d s2
  have h2 : Dev.TdcFrame ch s s2 := (push s ch _).trans (setTdc s1 ch _)
  split
  · split
    · exact h2.trans (acceptStop s2 ch _ _)
    · exact h2
  · exact h2

theorem keepStop (s : Dev) (ch : Nat) (k : KeptStop) : Dev.TdcFrame ch s (s.keepStop ch k) := onTdc s ch _

theorem discStop (s : Dev) (ch : Nat) : Dev.TdcFrame ch s (s.discStop ch) := wrCh s ch _ (by omega) (by omega)

theorem stopEdge (s : Dev) (ch : Nat) (t : Int) (pol : Bool) : Dev.TdcFrame ch s (s.stopEdge ch t pol) := by
  unfold Dev.stopEdge
  extract_lets d k s1
  have h1 : Dev.TdcFrame ch s s1 := keepStop s ch k
  have hdisc : Dev.TdcFrame ch s (if d.signed then s1 else s1.discStop ch) := by
    split
    · exact h1
    · exact h1.trans (discStop s1 ch)
  split
  · exact hdisc
  · split
    · exact hdisc
    · exact h1.trans (acceptStop s1 ch _ _)
  · exact h1

theorem missBefore (s : Dev) (ch : Nat) (t : Int) : Dev.TdcFrame ch s (s.missBefore ch t) := by
  unfold Dev.missBefore
  dsimp only
  split
  · split
    · exact missStop s ch
    · exact refl ch s
  · exact refl ch s

theorem countedEdge (s : Dev) (ch : Nat) (t : Int) (pol : Bool) : Dev.TdcFrame ch s (s.countedEdge ch t pol) := by
  have hpush : ∀ e f, Dev.TdcFrame ch s ((s.tdcPush ch e).onTdc ch f) := fun e f => (push s ch e).trans (onTdc _ ch f)
  unfold Dev.countedEdge
  dsimp only
  split
  · split
    · exact hpush _ _
    · split
      · exact ((setTdc s ch _).trans (push _ ch _)).trans (finish _ ch t)
      · exact setTdc s ch _
  · split
    · exact hpush _ _
    · split
      · exact setTdc s ch _
      · split
        · exact (hpush _ _).trans (finish _ ch t)
        · exact hpush _ _
  · split
    · exact (hpush _ _).trans (finish _ ch t)
    · exact hpush _ _

theorem startEdge (s : Dev) (ch : Nat) (t : Int) (pol : Bool) : Dev.TdcFrame ch s (s.startEdge ch t pol) := by
  unfold Dev.startEdge
  extract_lets d s1 s2
  have h1 : Dev.TdcFrame ch s s1 := setTdc s ch _
  have h2 : Dev.TdcFrame ch s s2 := h1.trans (onTdc s1 ch _)
  split
  · exact h1
  · split
    · exact h1.trans (bad s1 ch 29 t)
    · split
      · exact h2.trans (startAttempt s2 ch t pol)
      · exact h2.trans (countedEdge s2 ch t pol)

theorem input (s : Dev) (ch src : Nat) (t : Int) (pol : Bool) : Dev.TdcFrame ch s (s.tdcInput ch src t pol) := by
  unfold Dev.tdcInput
  extract_lets s1 d w s2
  have h1 : Dev.TdcFrame ch s s1 := missBefore s ch t
  split
  · exact h1
  · split
    · have h2 : Dev.TdcFrame ch s s2 := h1.trans (startEdge s1 ch t pol)
      split
      · exact h2.trans (keepStop s2 ch _)
      · exact h2
    · split
      · exact h1.trans (stopEdge s1 ch t pol)
      · exact h1

theorem edgeIn (s : Dev) (ch src : Nat) (t : Int) : Dev.TdcFrame ch s (s.tdcEdgeIn ch src t) := by
  unfold Dev.tdcEdgeIn
  split
  · exact refl ch s
  · split
    · exact input s ch src t _
    · extract_lets d
      have hdraw : Dev.TdcFrame ch s d.2 := ⟨⟨_, _, _, _, rfl⟩, fun _ _ => rfl, fun _ _ => rfl⟩
      exact hdraw.trans (input d.2 ch src t _)

/-- The weirs' cards are kept. -/
theorem weirs {ch : Nat} {s t : Dev} (h : Dev.TdcFrame ch s t) (c : Nat) : t.rd (aCh c 0x68) = s.rd (aCh c 0x68) :=
  h.cards _ (.inr ⟨c, rfl⟩)

/-- The clock's units are kept. -/
theorem mult {ch : Nat} {s t : Dev} (h : Dev.TdcFrame ch s t) : t.mult = s.mult :=
  Dev.fld_congr (h.cards _ (.inl (by decide))) 7 0

end Dev.TdcFrame

end Sys2Proof.Machine
end

section
/-! PROOFS. O36: the weir judges its pin (R267-R273). -/

namespace Sys2Proof.Machine

/-- A count in a field of its card, one more. -/
theorem Dev.fld_incSat_self (s : Dev) {a hi lo : Nat} (h : lo ≤ hi) (hb : hi < 32) :
    (s.incSat a hi lo).fld a hi lo = min (s.fld a hi lo + 1) (2 ^ (hi + 1 - lo) - 1) := by
  have hpos : 0 < 2 ^ (hi + 1 - lo) := by positivity
  rw [Dev.incSat, Dev.fld_setFld_self s h hb, Nat.mod_eq_of_lt (by omega)]

/-- What a weir's judgement of a level leaves (R269-R271). -/
structure Dev.Judged (s : Dev) (c : Nat) (st : WeirState) (t : Dev) : Prop where
  weir   : t.weir c = { st := st, unsettled := decide ((s.weir c).st = .unknown), settling := false }
  others : ∀ k, k ≠ c → t.weir k = s.weir k
  clk    : t.clk = s.clk
  mem    : t.mem = s.mem
  sys    : t.sys = s.sys
  sites  : t.sites = s.sites
  fires  : (s.weir c).st ≠ .unknown → ((s.weir c).st = .inside ↔ st ≠ .inside) →
    t.bit (aCh c 0x68) (if st = .inside then 30 else 29) = true ∧
    t.fld (aCh c 0x68) 15 0 = min (s.fld (aCh c 0x68) 15 0 + 1) 65535
  rests  : (s.weir c).st = .unknown ∨ ((s.weir c).st = .inside ↔ st = .inside) → t.rd (aCh c 0x68) = s.rd (aCh c 0x68)

/-- The state a level gives the weir of a circuit (R269). -/
def Dev.weirSt (s : Dev) (c : Nat) (level : Int) : WeirState :=
  weirNext (s.weir c).st (s.fld (aPin (s.cfgPin c) 0x64) 11 0) (s.fld (aPin (s.cfgPin c) 0x64) 27 16)
    (s.fld (aPin (s.cfgPin c) 0x60) 7 4) level

/-- ENTER or EXIT latched and counted (R269). -/
def Dev.weirCount (s : Dev) (c : Nat) (entered : Bool) : Dev :=
  (s.setBits (aCh c 0x68) (if entered then 0x40000000 else 0x20000000)).incSat (aCh c 0x68) 15 0

theorem Dev.bit_weirCount (s : Dev) (c : Nat) (entered : Bool) :
    (s.weirCount c entered).bit (aCh c 0x68) (if entered then 30 else 29) = true := by
  unfold Dev.weirCount Dev.incSat
  rw [Dev.bit_setFld_of_ne _ (by omega) (by omega) (by cases entered <;> simp), Dev.bit, Dev.rd_setBits_self, W.bit_or]
  cases entered <;> simp <;> exact .inr (by decide)

theorem Dev.fld_weirCount (s : Dev) (c : Nat) (entered : Bool) :
    (s.weirCount c entered).fld (aCh c 0x68) 15 0 = min (s.fld (aCh c 0x68) 15 0 + 1) 65535 := by
  have hlow : (s.rd (aCh c 0x68) ||| (if entered then 0x40000000 else 0x20000000)).fld 15 0 = (s.rd (aCh c 0x68)).fld 15 0 :=
    W.fld_congr fun i _ hi => by
      have hm : (if entered then 0x40000000 else 0x20000000 : W).bit i = false := by
        cases entered <;> interval_cases i <;> rfl
      rw [W.bit_or, hm, Bool.or_false]
  rw [Dev.weirCount, Dev.fld_incSat_self _ (by omega) (by omega), Dev.fld, Dev.rd_setBits_self, hlow]
  rfl

/-- A change fires at the weir's event and at its TDC (R271). -/
theorem Dev.weirFire_frame (s : Dev) (c pos lsb : Nat) (entered : Bool) :
    Dev.TdcFrame c (s.weirCount c entered) (s.weirFire c pos lsb entered) :=
  (Dev.TdcFrame.produce _ c _ _ _ _ _).trans (Dev.TdcFrame.edgeIn _ c _ _)

/-- The weir with its judged state, before anything fires. -/
theorem Dev.judged_setWeir (s : Dev) (c : Nat) (st : WeirState) (x : Weir)
    (hx : x = { st := st, unsettled := decide ((s.weir c).st = .unknown), settling := false })
    (hrest : (s.weir c).st = .unknown ∨ ((s.weir c).st = .inside ↔ st = .inside)) : s.Judged c st (s.setWeir c x) where
  weir := (Dev.weir_setWeir_self s c x).trans hx
  others _ hk := Dev.weir_setWeir_of_ne s hk x
  clk := rfl
  mem := rfl
  sys := rfl
  sites := rfl
  fires hne hiff := by
    rcases hrest with h | h
    · exact absurd h hne
    · by_cases h' : st = .inside
      · exact absurd h' (hiff.mp (h.mpr h'))
      · exact absurd (h.mp (hiff.mpr h')) h'
  rests _ := rfl

/-- The weir with its judged state, after ENTER or EXIT has fired. -/
theorem Dev.judged_weirFire (s : Dev) (c pos lsb : Nat) (st : WeirState) (x : Weir)
    (hx : x = { st := st, unsettled := decide ((s.weir c).st = .unknown), settling := false })
    (hne : (s.weir c).st ≠ .unknown) (hiff : ¬((s.weir c).st = .inside ↔ st = .inside)) :
    s.Judged c st ((s.setWeir c x).weirFire c pos lsb (decide (st = .inside))) := by
  have hframe := (s.setWeir c x).weirFire_frame c pos lsb (decide (st = .inside))
  have hbit := (s.setWeir c x).bit_weirCount c (decide (st = .inside))
  have hfld := (s.setWeir c x).fld_weirCount c (decide (st = .inside))
  generalize (s.setWeir c x).weirFire c pos lsb (decide (st = .inside)) = t at hframe ⊢
  have hw := hframe.weirs
  obtain ⟨⟨d, r, y, f, honly⟩, -, -⟩ := hframe
  have hweir : ∀ k, t.weir k = (s.setWeir c x).weir k := fun k => by rw [honly]; rfl
  constructor
  case weir => exact (hweir c).trans ((Dev.weir_setWeir_self s c x).trans hx)
  case others => exact fun k hk => (hweir k).trans (Dev.weir_setWeir_of_ne s hk x)
  case clk => rw [honly]; rfl
  case mem => rw [honly]; rfl
  case sys => rw [honly]; rfl
  case sites => rw [honly]; rfl
  case fires =>
    intro _ _
    refine ⟨(Dev.bit_congr (hw c) _).trans ?_, (Dev.fld_congr (hw c) 15 0).trans hfld⟩
    simpa using hbit
  case rests => exact fun h => (h.elim hne hiff).elim

/-- A weir whose DACs have settled judges (R269-R271). -/
theorem Dev.judged_weirJudge (s : Dev) (c pos lsb : Nat) (level : Int) (hset : (s.weir c).settling = false) :
    s.Judged c (s.weirSt c level) (s.weirJudge c pos lsb level) := by
  have hx : { s.weir c with st := s.weirSt c level, unsettled := decide ((s.weir c).st = .unknown) } =
      ({ st := s.weirSt c level, unsettled := decide ((s.weir c).st = .unknown), settling := false } : Weir) := by rw [← hset]
  by_cases hun : (s.weir c).st = .unknown
  · have h : s.weirJudge c pos lsb level = s.setWeir c { s.weir c with
        st := s.weirSt c level, unsettled := decide ((s.weir c).st = .unknown) } :=
      if_neg (by simp [hun])
    rw [h]
    exact s.judged_setWeir c _ _ hx (.inl hun)
  · by_cases hin : (s.weir c).st = .inside ↔ s.weirSt c level = .inside
    · have h : s.weirJudge c pos lsb level = s.setWeir c { s.weir c with
          st := s.weirSt c level, unsettled := decide ((s.weir c).st = .unknown) } :=
        if_neg (fun hc => by
          have hne := (Bool.and_eq_true_iff.mp hc).2
          simp only [bne_iff_ne, ne_eq, decide_eq_decide] at hne
          exact hne hin)
      rw [h]
      exact s.judged_setWeir c _ _ hx (.inr hin)
    · have h : s.weirJudge c pos lsb level = (s.setWeir c { s.weir c with
          st := s.weirSt c level, unsettled := decide ((s.weir c).st = .unknown) }).weirFire c pos lsb
            (decide (s.weirSt c level = .inside)) :=
        if_pos (by
          have hne : (!decide ((s.weir c).st = .unknown)) = true := by simp [hun]
          exact Bool.and_eq_true_iff.mpr ⟨hne, by
            simp only [bne_iff_ne, ne_eq, decide_eq_decide]
            exact hin⟩)
      rw [h]
      exact s.judged_weirFire c pos lsb _ _ hx hun hin

/-- The evaluation of a quad's wake logic after a judgement. -/
theorem Dev.wakeEval_only (s : Dev) (q : Nat) :
    (∃ z r, s.wakeEval q = { s with quads := z, regs := r }) ∧ s.Cards (s.wakeEval q) [aQuad q 0x24] := by
  have hself : (∃ z r, s = { s with quads := z, regs := r }) ∧ s.Cards s [aQuad q 0x24] := ⟨⟨_, _, rfl⟩, Dev.Cards.refl s _⟩
  have hquad : ∀ z, (∃ z' r, s.setQuad q z = { s with quads := z', regs := r }) ∧ s.Cards (s.setQuad q z) [aQuad q 0x24] :=
    fun z => ⟨⟨_, _, rfl⟩, Dev.Cards.of_regs rfl _⟩
  unfold Dev.wakeEval
  dsimp only
  split
  · exact hself
  · split
    · split
      · exact ⟨⟨_, _, rfl⟩, (Dev.Cards.refl s _).setBits (by simp) _⟩
      · exact hself
    · split
      · exact hquad _
      · exact hquad _

theorem Dev.Judged.wakeEval {s t : Dev} {c q : Nat} {st : WeirState} (h : s.Judged c st t) : s.Judged c st (t.wakeEval q) := by
  obtain ⟨⟨z, r, honly⟩, hcards⟩ := t.wakeEval_only q
  have hcard : (t.wakeEval q).rd (aCh c 0x68) = t.rd (aCh c 0x68) := hcards _ (by
    simp only [List.mem_singleton]
    unfold aCh aQuad
    omega)
  generalize t.wakeEval q = u at honly hcard ⊢
  have hweirs : u.weirs = t.weirs := by rw [honly]
  have hweir : ∀ k, u.weir k = t.weir k := fun k => by rw [Dev.weir, hweirs, Dev.weir]
  refine ⟨(hweir c).trans h.weir, fun k hk => (hweir k).trans (h.others k hk), ?_, ?_, ?_, ?_, fun h1 h2 => ?_,
    fun hr => hcard.trans (h.rests hr)⟩
  · rw [honly]; exact h.clk
  · rw [honly]; exact h.mem
  · rw [honly]; exact h.sys
  · rw [honly]; exact h.sites
  · obtain ⟨hb, hf⟩ := h.fires h1 h2
    exact ⟨(Dev.bit_congr hcard _).trans hb, (Dev.fld_congr hcard 15 0).trans hf⟩

/-- A judgement after the settling has been noted is one of the state before. -/
theorem Dev.Judged.of_settled {s t : Dev} {c : Nat} {st : WeirState}
    (h : (s.onWeir c (fun w => { w with settling := false })).Judged c st t) : s.Judged c st t := by
  have hst : ((s.onWeir c (fun w => { w with settling := false })).weir c).st = (s.weir c).st := by
    rw [Dev.onWeir, Dev.weir_setWeir_self]
  obtain ⟨hw, ho, hclk, hmem, hsys, hsites, hf, hr⟩ := h
  rw [hst] at hw hf hr
  exact ⟨hw, fun k hk => (ho k hk).trans (Dev.weir_setWeir_of_ne s hk _), hclk, hmem, hsys, hsites, hf, hr⟩

theorem Dev.weirSt_settled (s : Dev) (c : Nat) (level : Int) :
    (s.onWeir c (fun w => { w with settling := false })).weirSt c level = s.weirSt c level := by
  have hst : ((s.onWeir c (fun w => { w with settling := false })).weir c).st = (s.weir c).st := by
    rw [Dev.onWeir, Dev.weir_setWeir_self]
  unfold Dev.weirSt
  rw [hst]
  rfl

theorem Dev.weirSees_of_sees {s : Dev} {c : Nat} (h : (s.weirPowered c && s.weirServes c) = true)
    (hset : (s.weir c).settling = false) (pos lsb : Nat) (level : Int) :
    s.weirSees c pos lsb level = s.weirJudge c pos lsb level := if_pos (by rw [h, hset]; rfl)

theorem Dev.weirSees_of_blind {s : Dev} {c : Nat}
    (h : (s.weirPowered c && s.weirServes c) = false ∨ (s.weir c).settling = true) (pos lsb : Nat) (level : Int) :
    s.weirSees c pos lsb level = s := if_neg (by rcases h with h | h <;> simp [h])

theorem exec_weirChange {s : State} {c : Fin 720} (h : s.weirMode c ≤ 3) (x : Instant) (level : Int) :
    exec (.weirChange c x level) s = .next { s with toDev := s.weirSees c x.pos.toNat x.lsb level } :=
  State.run_to (f := fun s => if s.weirMode c ≤ 3 then s.weirSees c x.pos.toNat x.lsb level else s) (if_pos h)

theorem exec_weirChange_of_sampling {s : State} {c : Fin 720} (h : 3 < s.weirMode c) (x : Instant) (level : Int) :
    exec (.weirChange c x level) s = .next s :=
  State.run_to (f := fun s => if s.weirMode c ≤ 3 then s.weirSees c x.pos.toNat x.lsb level else s)
    (if_neg (Nat.not_le_of_lt h))

theorem exec_weirSettled {s : State} {c : Fin 720} (h : s.weirMode c ≤ 3) (x : Instant) (level : Int) :
    exec (.weirSettled c x level) s = .next { s with
      toDev := (s.onWeir c (fun w => { w with settling := false })).weirSees c x.pos.toNat x.lsb level } :=
  State.run_to (f := fun s =>
    let s := s.onWeir c (fun w => { w with settling := false })
    if s.weirMode c ≤ 3 then s.weirSees c x.pos.toNat x.lsb level else s) (if_pos h)

theorem exec_weirSettled_of_sampling {s : State} {c : Fin 720} (h : 3 < s.weirMode c) (x : Instant) (level : Int) :
    exec (.weirSettled c x level) s = .next { s with toDev := s.onWeir c (fun w => { w with settling := false }) } :=
  State.run_to (f := fun s =>
    let s := s.onWeir c (fun w => { w with settling := false })
    if s.weirMode c ≤ 3 then s.weirSees c x.pos.toNat x.lsb level else s) (if_neg (Nat.not_le_of_lt h))

/-- The sample of a weir, and the wake logic's evaluation at the quad's last (R272). -/
def Dev.weirSampled (s : Dev) (c pos lsb : Nat) (level : Int) : Dev :=
  let s := s.weirSees c pos lsb level
  if s.lastSampler (c / 5) = some c then s.wakeEval (c / 5) else s

theorem exec_weirSample {s : State} {c : Fin 720} (h : s.weirSamples c = true) (x : Instant) (level : Int) :
    exec (.weirSample c x level) s = .next { s with toDev := s.weirSampled c x.pos.toNat x.lsb level } :=
  State.run_to (f := fun s => if !s.weirSamples c then s
    else
      let s := s.weirSees c x.pos.toNat x.lsb level
      if s.lastSampler (c.val / 5) = some c.val then s.wakeEval (c.val / 5) else s) (if_neg (by rw [h]; decide))

theorem exec_weirSample_of_other_frame {s : State} {c : Fin 720} (h : s.weirSamples c = false) (x : Instant) (level : Int) :
    exec (.weirSample c x level) s = .next s :=
  State.run_to (f := fun s => if !s.weirSamples c then s
    else
      let s := s.weirSees c x.pos.toNat x.lsb level
      if s.lastSampler (c.val / 5) = some c.val then s.wakeEval (c.val / 5) else s) (if_pos (by rw [h]; rfl))

theorem Dev.Judged.sampled {s : Dev} {c : Nat} {st : WeirState} {pos lsb : Nat} {level : Int}
    (h : s.Judged c st (s.weirSees c pos lsb level)) : s.Judged c st (s.weirSampled c pos lsb level) := by
  unfold Dev.weirSampled
  dsimp only
  split
  · exact h.wakeEval
  · exact h

/-- Settles O36: through the weir's judgement, which a frame of the TDC's work keeps, and the wake logic after it. -/
theorem weirsJudgeTheirPins : Obligations.WeirsJudgeTheirPins := by
  intro s ch x level sees p old st Judged
  have hJ : ∀ t : Dev, s.Judged ch st t → Judged t := fun t ⟨h1, h2, h3, h4, h5, h6, h7, h8⟩ =>
    ⟨h1, h2, h3, h4, h5, h6, h7, h8⟩
  refine ⟨fun hsees => ⟨fun hmode hset => ?_, fun hmode => ?_, fun hsamp hset => ?_⟩, fun hblind => ?_, fun hsamp => ?_,
    fun hblind hsamp => ?_, fun hblind => ?_⟩
  · refine ⟨_, exec_weirChange hmode x level, hJ _ ?_⟩
    rw [Dev.weirSees_of_sees hsees hset]
    exact s.judged_weirJudge ch _ _ level hset
  · refine ⟨_, exec_weirSettled hmode x level, hJ _ ?_⟩
    have hset : ((s.onWeir ch (fun w => { w with settling := false })).weir ch).settling = false := by
      rw [Dev.onWeir, Dev.weir_setWeir_self]
    rw [Dev.weirSees_of_sees (s := s.onWeir ch (fun w => { w with settling := false })) hsees hset]
    have h := Dev.judged_weirJudge _ ch x.pos.toNat x.lsb level hset
    rw [Dev.weirSt_settled] at h
    exact h.of_settled
  · refine ⟨_, exec_weirSample hsamp x level, hJ _ (Dev.Judged.sampled ?_)⟩
    rw [Dev.weirSees_of_sees hsees hset]
    exact s.judged_weirJudge ch _ _ level hset
  · by_cases hmode : 3 < s.weirMode ch
    · exact exec_weirChange_of_sampling hmode x level
    · refine (exec_weirChange (Nat.le_of_not_lt hmode) x level).trans ?_
      rw [Dev.weirSees_of_blind (hblind.imp_right (fun h => h.resolve_right hmode))]
  · exact exec_weirSample_of_other_frame hsamp x level
  · refine ⟨_, exec_weirSample hsamp x level, ?_⟩
    have hb := Dev.weirSees_of_blind hblind x.pos.toNat x.lsb level
    unfold Dev.weirSampled
    rw [hb]
    dsimp only
    split
    · obtain ⟨⟨z, r, honly⟩, hcards⟩ := s.wakeEval_only (ch.val / 5)
      exact ⟨by rw [honly], hcards, by rw [honly]⟩
    · exact ⟨rfl, Dev.Cards.refl _ _, rfl⟩
  · by_cases hmode : 3 < s.weirMode ch
    · exact exec_weirSettled_of_sampling hmode x level
    · refine (exec_weirSettled (Nat.le_of_not_lt hmode) x level).trans ?_
      have hsees : ((s.onWeir ch (fun w => { w with settling := false })).weirPowered ch &&
          (s.onWeir ch (fun w => { w with settling := false })).weirServes ch) = false := hblind.resolve_right hmode
      rw [Dev.weirSees_of_blind (.inl hsees)]

end Sys2Proof.Machine
end

section
/-! PROOFS. O40: interval mode of a TDC (R255-R262). -/

namespace Sys2Proof.Machine

/-! ### What each step leaves of the TDC and its channel's status -/

theorem Dev.tdc_produce (s : Dev) (p : Prod) (edge tag : Nat) (b : Block) (tb : Option Nat) (k : Nat) :
    (s.produce p edge tag b tb).tdc k = s.tdc k := by
  obtain ⟨⟨r, x, h⟩, -⟩ := Dev.SlcFrame.produce s p edge tag b tb
  rw [h]
  rfl

theorem Dev.rd_produce (s : Dev) (p : Prod) (edge tag : Nat) (b : Block) (tb : Option Nat) {a : Nat} (h : 0x41000 ≤ a) :
    (s.produce p edge tag b tb).rd a = s.rd a := (Dev.SlcFrame.produce s p edge tag b tb).cards a (.inr h)

/-- A measurement of d has become x by closing: its state, and the result that waits (R261, R262). -/
def Tdc.Closes (d x : Tdc) (st : TdcState) (at_ : Int) (v : W) (n m : Nat) : Prop :=
  x.st = st ∧
  ∃ p : TdcPend, x.pend = d.pend ++ [p] ∧ p.value = v ∧ p.close = at_ ∧ p.slot = d.slotOut ∧ p.done = n ∧ p.missed = m

theorem Tdc.Closes.of_same {d d' x : Tdc} {st : TdcState} {at_ : Int} {v : W} {n m : Nat} (h : d'.Closes x st at_ v n m)
    (hp : d'.pend = d.pend) (hs : d'.slotOut = d.slotOut) : d.Closes x st at_ v n m := by
  obtain ⟨hst, p, hpend, hv, hc, hslot, hd, hm⟩ := h
  exact ⟨hst, p, hp ▸ hpend, hv, hc, hs ▸ hslot, hd, hm⟩

theorem Dev.tdc_tdcClose (s : Dev) (ch : Nat) (c : Int) (v : W) (st : TdcState) :
    (s.tdcClose ch c v st).tdc ch = { s.tdc ch with
      st := st,
      pend := (s.tdc ch).pend ++
        [{ value := v, close := c, slot := (s.tdc ch).slotOut, done := (s.tdc ch).done, missed := (s.tdc ch).missed }] } :=
  (Dev.tdc_produce _ _ _ _ _ _ ch).trans (Dev.tdc_setTdc_self s ch _)

theorem Dev.tdcClose_closes (s : Dev) (ch : Nat) (c : Int) (v : W) (st : TdcState) :
    (s.tdc ch).Closes ((s.tdcClose ch c v st).tdc ch) st c v (s.tdc ch).done (s.tdc ch).missed := by
  rw [Dev.tdc_tdcClose]
  exact ⟨rfl, _, rfl, rfl, rfl, rfl, rfl, rfl⟩

theorem Dev.rd_tdcClose (s : Dev) (ch o : Nat) (c : Int) (v : W) (st : TdcState) :
    (s.tdcClose ch c v st).rd (aCh ch o) = s.rd (aCh ch o) :=
  Dev.rd_produce _ _ _ _ _ _ (by have := aCh_page ch o; omega)

theorem Dev.tdc_tdcPush (s : Dev) (ch : Nat) (e : Stamp) : ∃ b, (s.tdcPush ch e).tdc ch = { s.tdc ch with dropped := b } := by
  unfold Dev.tdcPush
  dsimp only
  split
  · exact ⟨true, Dev.tdc_setTdc_self _ ch _⟩
  · exact ⟨false, Dev.tdc_setTdc_self _ ch _⟩

theorem Dev.tdc_onTdc_self (s : Dev) (ch : Nat) (f : Tdc → Tdc) : (s.onTdc ch f).tdc ch = f (s.tdc ch) :=
  Dev.tdc_setTdc_self s ch _

theorem Dev.tdcBad_closes (s : Dev) (ch bit : Nat) (c : Int) :
    (s.tdc ch).Closes ((s.tdcBad ch bit c).tdc ch) .closed c qNaN (s.tdc ch).done (s.tdc ch).missed :=
  Dev.tdcClose_closes (s.setBits (aCh ch 0x12C) (wn (2 ^ bit))) ch c qNaN .closed

theorem Dev.bit_tdcBad (s : Dev) (ch bit : Nat) (c : Int) (h : (wn (2 ^ bit)).bit bit = true) :
    (s.tdcBad ch bit c).bit (aCh ch 0x12C) bit = true :=
  (Dev.bit_congr (Dev.rd_tdcClose _ ch 0x12C c qNaN .closed) bit).trans (Dev.bit_setBits_self s _ bit _ h)

theorem Dev.tdcValue_of_mult {s t : Dev} (h : t.mult = s.mult) (d : Tdc) : t.tdcValue d = s.tdcValue d := by
  unfold Dev.tdcValue Dev.unitHz
  rw [h]

/-! ### The end of an attempt -/

/-- Another attempt follows (R257). -/
theorem Dev.attemptOver_of_more {s : Dev} {ch : Nat} (h : (s.tdc ch).done + (s.tdc ch).missed < (s.tdc ch).count1) (c : Int) :
    s.attemptOver ch c = s.setTdc ch { s.tdc ch with st := .waitStart, start := none } := if_neg (Nat.not_le_of_lt h)

/-- The last of COUNT (R257). -/
theorem Dev.attemptOver_of_last {s : Dev} {ch : Nat} (h : (s.tdc ch).count1 ≤ (s.tdc ch).done + (s.tdc ch).missed) (c : Int) :
    s.attemptOver ch c = s.tdcClose ch c (s.tdcValue (s.tdc ch)) .done := if_pos h

theorem Dev.rd_attemptOver (s : Dev) (ch o : Nat) (c : Int) : (s.attemptOver ch c).rd (aCh ch o) = s.rd (aCh ch o) := by
  unfold Dev.attemptOver
  dsimp only
  split
  · exact Dev.rd_tdcClose s ch o c _ .done
  · rfl

/-- The window has passed: the attempt counts as missed (R257). -/
def Dev.stopMissed (s : Dev) (ch : Nat) (c : Int) : Dev :=
  ((s.tdcPush ch { t := c, coinc := false, pol := false, window := true, unref := s.clk.holdover }).setBits (aCh ch 0x12C)
    0x80000000).onTdc ch (fun d => { d with missed := d.missed + 1 })

theorem Dev.missStop_of_waiting {s : Dev} {ch : Nat} {b : Int} (hst : (s.tdc ch).st = .waitStop) (hb : (s.tdc ch).start = some b) :
    s.missStop ch = (s.stopMissed ch (b + (s.tdc ch).winHi * 32768)).attemptOver ch (b + (s.tdc ch).winHi * 32768) := by
  unfold Dev.missStop
  simp only [hb, hst, ne_eq, not_true_eq_false, if_false]
  rfl

theorem Dev.missStop_of_idle {s : Dev} {ch : Nat} (h : (s.tdc ch).st ≠ .waitStop ∨ (s.tdc ch).start = none) : s.missStop ch = s := by
  unfold Dev.missStop
  dsimp only
  split
  · rfl
  next b hb => exact if_pos (h.resolve_right (by simp [hb]))

theorem Dev.stopMissed_tdc (s : Dev) (ch : Nat) (c : Int) :
    ∃ b, (s.stopMissed ch c).tdc ch = { s.tdc ch with dropped := b, missed := (s.tdc ch).missed + 1 } := by
  obtain ⟨b, hb⟩ := Dev.tdc_tdcPush s ch { t := c, coinc := false, pol := false, window := true, unref := s.clk.holdover }
  refine ⟨b, (Dev.tdc_onTdc_self _ ch _).trans ?_⟩
  exact congrArg (fun d : Tdc => { d with missed := d.missed + 1 }) hb

theorem Dev.stopMissed_frame (s : Dev) (ch : Nat) (c : Int) : Dev.TdcFrame ch s (s.stopMissed ch c) :=
  ((Dev.TdcFrame.push s ch _).trans (Dev.TdcFrame.setBits _ ch _)).trans (Dev.TdcFrame.onTdc _ ch _)

theorem Dev.bit_stopMissed (s : Dev) (ch : Nat) (c : Int) : (s.stopMissed ch c).bit (aCh ch 0x12C) 31 = true :=
  Dev.bit_setBits_self (s.tdcPush ch { t := c, coinc := false, pol := false, window := true, unref := s.clk.holdover }) _ 31 _
    (by decide)

/-- A stop has been accepted with its offset (R257). -/
def Dev.stopTaken (s : Dev) (ch : Nat) (t0 : Int) (k : KeptStop) : Dev :=
  (s.tdcPush ch { t := k.t, coinc := false, pol := k.pol, window := false, unref := k.unref }).onTdc ch
    (fun d => { d with done := d.done + 1, sum := d.sum + (k.t - t0) })

theorem Dev.acceptStop_of_apart {s : Dev} {ch : Nat} {t0 : Int} {k : KeptStop} (h : (s.mult : Int) ≤ k.t - t0) :
    s.acceptStop ch t0 k = (s.stopTaken ch t0 k).attemptOver ch (max k.t t0) := by
  have hco : decide (-(s.mult : Int) < k.t - t0 ∧ k.t - t0 < s.mult) = false := decide_eq_false (fun hc => by omega)
  unfold Dev.acceptStop
  simp only [hco, Bool.false_eq_true, if_false]
  rfl

theorem Dev.stopTaken_tdc (s : Dev) (ch : Nat) (t0 : Int) (k : KeptStop) :
    ∃ b, (s.stopTaken ch t0 k).tdc ch =
      { s.tdc ch with dropped := b, done := (s.tdc ch).done + 1, sum := (s.tdc ch).sum + (k.t - t0) } := by
  obtain ⟨b, hb⟩ := Dev.tdc_tdcPush s ch { t := k.t, coinc := false, pol := k.pol, window := false, unref := k.unref }
  refine ⟨b, (Dev.tdc_onTdc_self _ ch _).trans ?_⟩
  exact congrArg (fun d : Tdc => { d with done := d.done + 1, sum := d.sum + (k.t - t0) }) hb

theorem Dev.stopTaken_frame (s : Dev) (ch : Nat) (t0 : Int) (k : KeptStop) : Dev.TdcFrame ch s (s.stopTaken ch t0 k) :=
  (Dev.TdcFrame.push s ch _).trans (Dev.TdcFrame.onTdc _ ch _)

/-! ### A start edge -/

/-- What a start edge at instant a leaves of a TDC in interval mode (R256, R257). -/
structure Dev.Started (s : Dev) (ch : Nat) (a : Int) (t : Dev) : Prop where
  edges  : (t.tdc ch).edges = (s.tdc ch).edges + 1
  skips  : (s.tdc ch).edges % 2 ^ (s.tdc ch).pre ≠ 0 → (t.tdc ch).st = .waitStart ∧ (t.tdc ch).pend = (s.tdc ch).pend
  fast   : (s.tdc ch).edges % 2 ^ (s.tdc ch).pre = 0 → s.tooFast (s.tdc ch) a = true →
    t.bit (aCh ch 0x12C) 29 = true ∧
    (s.tdc ch).Closes (t.tdc ch) .closed a qNaN (s.tdc ch).done (s.tdc ch).missed
  begins : (s.tdc ch).edges % 2 ^ (s.tdc ch).pre = 0 → s.tooFast (s.tdc ch) a = false →
    ((s.tdc ch).signed = false ∨ (s.tdc ch).stop = none) →
    (t.tdc ch).st = .waitStop ∧ (t.tdc ch).start = some a ∧ (t.tdc ch).prev = some a ∧
    (t.tdc ch).done = (s.tdc ch).done ∧ (t.tdc ch).pend = (s.tdc ch).pend

/-- A stop that is kept changes nothing of it. -/
theorem Dev.Started.keepStop {s t : Dev} {ch : Nat} {a : Int} (h : s.Started ch a t) (k : KeptStop) :
    s.Started ch a (t.keepStop ch k) := by
  have hx : ∃ p, (t.keepStop ch k).tdc ch = { t.tdc ch with stop := p } := by
    rw [Dev.keepStop, Dev.tdc_onTdc_self]
    split
    · exact ⟨_, rfl⟩
    · exact ⟨_, rfl⟩
  have hbit : (t.keepStop ch k).bit (aCh ch 0x12C) 29 = t.bit (aCh ch 0x12C) 29 := rfl
  obtain ⟨p, hp⟩ := hx
  generalize t.keepStop ch k = u at hp hbit ⊢
  refine ⟨by rw [hp]; exact h.edges, fun h1 => by rw [hp]; exact h.skips h1, fun h1 h2 => ?_,
    fun h1 h2 h3 => by rw [hp]; exact h.begins h1 h2 h3⟩
  obtain ⟨hb, hc⟩ := h.fast h1 h2
  exact ⟨hbit.trans hb, by rw [hp]; exact hc⟩

theorem Dev.edges_attemptOver (s : Dev) (ch : Nat) (c : Int) : ((s.attemptOver ch c).tdc ch).edges = (s.tdc ch).edges := by
  unfold Dev.attemptOver
  dsimp only
  split
  · rw [Dev.tdcFinish, Dev.tdc_tdcClose]
  · rw [Dev.tdc_setTdc_self]

theorem Dev.edges_acceptStop (s : Dev) (ch : Nat) (t0 : Int) (k : KeptStop) :
    ((s.acceptStop ch t0 k).tdc ch).edges = (s.tdc ch).edges := by
  have hpush : ∀ e, ((s.tdcPush ch e).tdc ch).edges = (s.tdc ch).edges := fun e => by
    obtain ⟨b, hb⟩ := Dev.tdc_tdcPush s ch e
    rw [hb]
  unfold Dev.acceptStop
  dsimp only
  rw [Dev.edges_attemptOver, Dev.tdc_onTdc_self]
  split
  · exact hpush _
  · exact hpush _

/-- The attempt that a start edge begins (R257). -/
def Dev.attemptBegun (s : Dev) (ch : Nat) (t : Int) (pol : Bool) : Dev :=
  let s := s.tdcPush ch { t := t, coinc := false, pol := pol, window := false, unref := s.clk.holdover }
  s.setTdc ch { s.tdc ch with st := .waitStop, start := some t }

theorem Dev.attemptBegun_tdc (s : Dev) (ch : Nat) (t : Int) (pol : Bool) :
    ∃ b, (s.attemptBegun ch t pol).tdc ch = { s.tdc ch with dropped := b, st := .waitStop, start := some t } := by
  obtain ⟨b, hb⟩ := Dev.tdc_tdcPush s ch { t := t, coinc := false, pol := pol, window := false, unref := s.clk.holdover }
  refine ⟨b, (Dev.tdc_setTdc_self _ ch _).trans ?_⟩
  rw [hb]

/-- It may find its stop already kept, which needs a signed measurement with one. -/
theorem Dev.startAttempt_cases (s : Dev) (ch : Nat) (t : Int) (pol : Bool) :
    s.startAttempt ch t pol = s.attemptBegun ch t pol ∨
    ∃ k, (s.tdc ch).signed = true ∧ (s.tdc ch).stop = some k ∧
      s.startAttempt ch t pol = (s.attemptBegun ch t pol).acceptStop ch t k := by
  obtain ⟨b, hb⟩ := Dev.tdc_tdcPush s ch { t := t, coinc := false, pol := pol, window := false, unref := s.clk.holdover }
  have hstop := congrArg Tdc.stop hb
  have hsigned := congrArg Tdc.signed hb
  unfold Dev.startAttempt
  dsimp only
  split
  next k hk =>
    split
    next hc =>
      have hsig := (Bool.and_eq_true_iff.mp (Bool.and_eq_true_iff.mp hc).1).1
      exact .inr ⟨k, hsigned.symm.trans hsig, hstop.symm.trans hk, rfl⟩
    · exact .inl rfl
  · exact .inl rfl

theorem Dev.edges_startAttempt (s : Dev) (ch : Nat) (t : Int) (pol : Bool) :
    ((s.startAttempt ch t pol).tdc ch).edges = (s.tdc ch).edges := by
  obtain ⟨b, hb⟩ := s.attemptBegun_tdc ch t pol
  rcases s.startAttempt_cases ch t pol with h | ⟨k, -, -, h⟩
  · rw [h, hb]
  · rw [h, Dev.edges_acceptStop, hb]

/-- The edge has been counted by the prescaler. -/
def Dev.edgeSeen (s : Dev) (ch : Nat) : Dev := s.setTdc ch { s.tdc ch with edges := (s.tdc ch).edges + 1 }

theorem Dev.edgeSeen_tdc (s : Dev) (ch : Nat) : (s.edgeSeen ch).tdc ch = { s.tdc ch with edges := (s.tdc ch).edges + 1 } :=
  Dev.tdc_setTdc_self s ch _

/-- The edge is a counted one. -/
def Dev.edgeCounted (s : Dev) (ch : Nat) (t : Int) : Dev := (s.edgeSeen ch).onTdc ch (fun d => { d with prev := some t })

theorem Dev.edgeCounted_tdc (s : Dev) (ch : Nat) (t : Int) :
    (s.edgeCounted ch t).tdc ch = { s.tdc ch with edges := (s.tdc ch).edges + 1, prev := some t } := by
  rw [Dev.edgeCounted, Dev.tdc_onTdc_self, Dev.edgeSeen_tdc]

theorem Dev.startEdge_of_skipped {s : Dev} {ch : Nat} (h : (s.tdc ch).edges % 2 ^ (s.tdc ch).pre ≠ 0) (t : Int) (pol : Bool) :
    s.startEdge ch t pol = s.edgeSeen ch := if_pos h

theorem Dev.startEdge_of_fast {s : Dev} {ch : Nat} {t : Int} (h : (s.tdc ch).edges % 2 ^ (s.tdc ch).pre = 0)
    (hf : s.tooFast (s.tdc ch) t = true) (pol : Bool) : s.startEdge ch t pol = (s.edgeSeen ch).tdcBad ch 29 t :=
  (if_neg (not_not.mpr h)).trans (if_pos hf)

theorem Dev.startEdge_of_counted {s : Dev} {ch : Nat} {t : Int} (hm : (s.tdc ch).mode = 0)
    (h : (s.tdc ch).edges % 2 ^ (s.tdc ch).pre = 0) (hf : s.tooFast (s.tdc ch) t = false) (pol : Bool) :
    s.startEdge ch t pol = (s.edgeCounted ch t).startAttempt ch t pol :=
  (if_neg (not_not.mpr h)).trans ((if_neg (Bool.eq_false_iff.mp (show (s.edgeSeen ch).tooFast (s.tdc ch) t = false from hf))).trans
    (if_pos hm))

theorem Dev.started_startEdge {s : Dev} {ch : Nat} (hm : (s.tdc ch).mode = 0) (hst : (s.tdc ch).st = .waitStart) (t : Int)
    (pol : Bool) : s.Started ch t (s.startEdge ch t pol) := by
  by_cases hskip : (s.tdc ch).edges % 2 ^ (s.tdc ch).pre = 0
  · cases hfast : s.tooFast (s.tdc ch) t with
    | true =>
      rw [Dev.startEdge_of_fast hskip hfast]
      have hc := Dev.tdcBad_closes (s.edgeSeen ch) ch 29 t
      have hedges : (((s.edgeSeen ch).tdcBad ch 29 t).tdc ch).edges = (s.tdc ch).edges + 1 := by
        rw [Dev.tdcBad, Dev.tdc_tdcClose]
        exact congrArg Tdc.edges (s.edgeSeen_tdc ch)
      rw [s.edgeSeen_tdc ch] at hc
      exact ⟨hedges, fun h => absurd hskip h, fun _ _ => ⟨Dev.bit_tdcBad _ ch 29 t (by decide), hc.of_same rfl rfl⟩,
        fun _ h => absurd (hfast.symm.trans h) (by decide)⟩
    | false =>
      rw [Dev.startEdge_of_counted hm hskip hfast]
      refine ⟨?_, fun h => absurd hskip h, fun _ h => absurd (hfast.symm.trans h) (by decide), fun _ _ hno => ?_⟩
      · rw [Dev.edges_startAttempt, Dev.edgeCounted_tdc]
      · have hrun : (s.edgeCounted ch t).startAttempt ch t pol = (s.edgeCounted ch t).attemptBegun ch t pol := by
          rcases (s.edgeCounted ch t).startAttempt_cases ch t pol with h | ⟨k, hsig, hk, -⟩
          · exact h
          · rw [Dev.edgeCounted_tdc] at hsig hk
            rcases hno with hno | hno
            · exact absurd (hno.symm.trans hsig) (by decide)
            · exact absurd (hno.symm.trans hk) (by simp)
        obtain ⟨b, hb⟩ := (s.edgeCounted ch t).attemptBegun_tdc ch t pol
        rw [hrun, hb, Dev.edgeCounted_tdc]
        exact ⟨rfl, rfl, rfl, rfl, rfl⟩
  · rw [Dev.startEdge_of_skipped hskip]
    refine ⟨congrArg Tdc.edges (s.edgeSeen_tdc ch), fun _ => ?_, fun h => absurd h hskip, fun h => absurd h hskip⟩
    rw [s.edgeSeen_tdc ch]
    exact ⟨hst, rfl⟩

/-! ### A stop edge -/

/-- What a stop edge at instant a leaves of an attempt that started at b (R257). -/
structure Dev.StopSeen (s : Dev) (ch : Nat) (a b : Int) (t : Dev) : Prop where
  early : a - b < (s.tdc ch).winLo * 32768 → (s.tdc ch).signed = false →
    (t.tdc ch).st = .waitStop ∧ (t.tdc ch).pend = (s.tdc ch).pend ∧
    t.fld (aCh ch 0x12C) 15 0 = min (s.fld (aCh ch 0x12C) 15 0 + 1) 65535
  done  : (s.tdc ch).winLo * 32768 ≤ a - b → (s.mult : Int) ≤ a - b →
    (t.tdc ch).done = (s.tdc ch).done + 1 ∧ (t.tdc ch).sum = (s.tdc ch).sum + (a - b)
  more  : (s.tdc ch).winLo * 32768 ≤ a - b → (s.mult : Int) ≤ a - b →
    (s.tdc ch).done + 1 + (s.tdc ch).missed < (s.tdc ch).count1 →
    (t.tdc ch).st = .waitStart ∧ (t.tdc ch).start = none ∧ (t.tdc ch).pend = (s.tdc ch).pend
  last  : (s.tdc ch).winLo * 32768 ≤ a - b → (s.mult : Int) ≤ a - b →
    (s.tdc ch).count1 ≤ (s.tdc ch).done + 1 + (s.tdc ch).missed →
    (s.tdc ch).Closes (t.tdc ch) .done (max a b)
      (f32OfRatio ((s.tdc ch).sum + (a - b)) (((s.tdc ch).done + 1) * s.unitHz)) ((s.tdc ch).done + 1) (s.tdc ch).missed

/-- The stop, kept by a signed measurement. -/
theorem Dev.keepStop_tdc (s : Dev) (ch : Nat) (k : KeptStop) : ∃ p, (s.keepStop ch k).tdc ch = { s.tdc ch with stop := p } := by
  rw [Dev.keepStop, Dev.tdc_onTdc_self]
  split
  · exact ⟨_, rfl⟩
  · exact ⟨_, rfl⟩

/-- A stop before the window. -/
theorem Dev.stopEdge_of_early {s : Dev} {ch : Nat} {a b : Int} (hst : (s.tdc ch).st = .waitStop) (hb : (s.tdc ch).start = some b)
    (h : a - b < (s.tdc ch).winLo * 32768) (hs : (s.tdc ch).signed = false) (pol : Bool) :
    s.stopEdge ch a pol = (s.keepStop ch { t := a, pol := pol, unref := s.clk.holdover }).discStop ch := by
  unfold Dev.stopEdge
  simp only [hst, hb, h, hs, if_true, Bool.false_eq_true, if_false]

/-- A stop in the window. -/
theorem Dev.stopEdge_of_window {s : Dev} {ch : Nat} {a b : Int} (hst : (s.tdc ch).st = .waitStop) (hb : (s.tdc ch).start = some b)
    (h : (s.tdc ch).winLo * 32768 ≤ a - b) (pol : Bool) :
    s.stopEdge ch a pol = (s.keepStop ch { t := a, pol := pol, unref := s.clk.holdover }).acceptStop ch b
      { t := a, pol := pol, unref := s.clk.holdover } := by
  unfold Dev.stopEdge
  simp only [hst, hb, Int.not_lt.mpr h, if_false]

theorem Dev.stopSeen_stopEdge {s : Dev} {ch : Nat} {a b : Int} (hm : (s.tdc ch).mode = 0) (hst : (s.tdc ch).st = .waitStop)
    (hb : (s.tdc ch).start = some b) (pol : Bool) : s.StopSeen ch a b (s.stopEdge ch a pol) := by
  obtain ⟨p, hp⟩ := s.keepStop_tdc ch { t := a, pol := pol, unref := s.clk.holdover }
  have hearly : a - b < (s.tdc ch).winLo * 32768 → (s.tdc ch).signed = false →
      ((s.stopEdge ch a pol).tdc ch).st = .waitStop ∧ ((s.stopEdge ch a pol).tdc ch).pend = (s.tdc ch).pend ∧
      (s.stopEdge ch a pol).fld (aCh ch 0x12C) 15 0 = min (s.fld (aCh ch 0x12C) 15 0 + 1) 65535 := fun h hs => by
    rw [Dev.stopEdge_of_early hst hb h hs]
    have htdc : ((s.keepStop ch { t := a, pol := pol, unref := s.clk.holdover }).discStop ch).tdc ch = { s.tdc ch with stop := p } := hp
    rw [htdc]
    exact ⟨hst, rfl, Dev.fld_incSat_self _ (by omega) (by omega)⟩
  by_cases hin : (s.tdc ch).winLo * 32768 ≤ a - b ∧ (s.mult : Int) ≤ a - b
  · obtain ⟨hwin, hco⟩ := hin
    have hacc := Dev.acceptStop_of_apart (s := s.keepStop ch { t := a, pol := pol, unref := s.clk.holdover }) (ch := ch) (t0 := b)
      (k := { t := a, pol := pol, unref := s.clk.holdover }) hco
    obtain ⟨x, hx⟩ := Dev.stopTaken_tdc (s.keepStop ch { t := a, pol := pol, unref := s.clk.holdover }) ch b
      { t := a, pol := pol, unref := s.clk.holdover }
    have hmult := ((Dev.TdcFrame.keepStop s ch { t := a, pol := pol, unref := s.clk.holdover }).trans
      (Dev.stopTaken_frame _ ch b { t := a, pol := pol, unref := s.clk.holdover })).mult
    rw [hp] at hx
    rw [Dev.stopEdge_of_window hst hb hwin, hacc] at hearly ⊢
    generalize (s.keepStop ch { t := a, pol := pol, unref := s.clk.holdover }).stopTaken ch b
      { t := a, pol := pol, unref := s.clk.holdover } = u at hx hmult hearly ⊢
    by_cases hmore : (s.tdc ch).done + 1 + (s.tdc ch).missed < (s.tdc ch).count1
    · have hover := Dev.attemptOver_of_more (s := u) (ch := ch) (by rw [hx]; exact hmore) (max a b)
      have htdc : (u.attemptOver ch (max a b)).tdc ch = { u.tdc ch with st := .waitStart, start := none } := by
        rw [hover, Dev.tdc_setTdc_self]
      exact ⟨hearly, fun _ _ => by rw [htdc, hx]; exact ⟨rfl, rfl⟩, fun _ _ _ => by rw [htdc, hx]; exact ⟨rfl, rfl, rfl⟩,
        fun _ _ h => absurd hmore (Nat.not_lt_of_le h)⟩
    · have hover := Dev.attemptOver_of_last (s := u) (ch := ch) (by rw [hx]; exact Nat.le_of_not_lt hmore) (max a b)
      have hval : u.tdcValue (u.tdc ch) = f32OfRatio ((s.tdc ch).sum + (a - b)) (((s.tdc ch).done + 1) * s.unitHz) := by
        rw [Dev.tdcValue_of_mult hmult, hx]
        unfold Dev.tdcValue
        simp only [hm]
        exact if_neg (Nat.succ_ne_zero _)
      have hclose := u.tdcClose_closes ch (max a b) (u.tdcValue (u.tdc ch)) .done
      have htdc := u.tdc_tdcClose ch (max a b) (u.tdcValue (u.tdc ch)) .done
      rw [← hover] at hclose htdc
      refine ⟨hearly, fun _ _ => by rw [htdc, hx]; exact ⟨rfl, rfl⟩, fun _ _ h => absurd h hmore, fun _ _ _ => ?_⟩
      rw [hval] at hclose
      generalize (u.attemptOver ch (max a b)).tdc ch = x at hclose
      rw [hx] at hclose
      exact hclose.of_same rfl rfl
  · exact ⟨hearly, fun h1 h2 => absurd ⟨h1, h2⟩ hin, fun h1 h2 => absurd ⟨h1, h2⟩ hin, fun h1 h2 => absurd ⟨h1, h2⟩ hin⟩

/-! ### A window that passes -/

/-- What the end of the window leaves of an attempt that started at b (R257). -/
structure Dev.Missed (s : Dev) (ch : Nat) (b : Int) (t : Dev) : Prop where
  count : (t.tdc ch).missed = (s.tdc ch).missed + 1
  shows : t.bit (aCh ch 0x12C) 31 = true
  more  : (s.tdc ch).done + (s.tdc ch).missed + 1 < (s.tdc ch).count1 →
    (t.tdc ch).st = .waitStart ∧ (t.tdc ch).start = none ∧ (t.tdc ch).pend = (s.tdc ch).pend
  last  : (s.tdc ch).count1 ≤ (s.tdc ch).done + (s.tdc ch).missed + 1 →
    (s.tdc ch).Closes (t.tdc ch) .done (b + (s.tdc ch).winHi * 32768) (s.tdcValue (s.tdc ch)) (s.tdc ch).done ((s.tdc ch).missed + 1)

theorem Dev.missed_missStop {s : Dev} {ch : Nat} {b : Int} (hst : (s.tdc ch).st = .waitStop) (hb : (s.tdc ch).start = some b) :
    s.Missed ch b (s.missStop ch) := by
  obtain ⟨x, hx⟩ := s.stopMissed_tdc ch (b + (s.tdc ch).winHi * 32768)
  have hmult := (s.stopMissed_frame ch (b + (s.tdc ch).winHi * 32768)).mult
  have hbit := s.bit_stopMissed ch (b + (s.tdc ch).winHi * 32768)
  rw [Dev.missStop_of_waiting hst hb]
  generalize s.stopMissed ch (b + (s.tdc ch).winHi * 32768) = u at hx hmult hbit ⊢
  generalize he : b + (s.tdc ch).winHi * 32768 = e
  have hshow : (u.attemptOver ch e).bit (aCh ch 0x12C) 31 = true := (Dev.bit_congr (u.rd_attemptOver ch 0x12C e) 31).trans hbit
  by_cases hmore : (s.tdc ch).done + (s.tdc ch).missed + 1 < (s.tdc ch).count1
  · have hover := Dev.attemptOver_of_more (s := u) (ch := ch) (by rw [hx]; exact hmore) e
    have htdc : (u.attemptOver ch e).tdc ch = { u.tdc ch with st := .waitStart, start := none } := by
      rw [hover, Dev.tdc_setTdc_self]
    exact ⟨by rw [htdc, hx], hshow, fun _ => by rw [htdc, hx]; exact ⟨rfl, rfl, rfl⟩, fun h => absurd hmore (Nat.not_lt_of_le h)⟩
  · have hover := Dev.attemptOver_of_last (s := u) (ch := ch) (by rw [hx]; exact Nat.le_of_not_lt hmore) e
    have hval : u.tdcValue (u.tdc ch) = s.tdcValue (s.tdc ch) := by
      rw [Dev.tdcValue_of_mult hmult, hx]
      rfl
    have hclose := u.tdcClose_closes ch e (u.tdcValue (u.tdc ch)) .done
    have htdc := u.tdc_tdcClose ch e (u.tdcValue (u.tdc ch)) .done
    rw [← hover] at hclose htdc
    refine ⟨by rw [htdc, hx], hshow, fun h => absurd h hmore, fun _ => ?_⟩
    rw [hval] at hclose
    generalize (u.attemptOver ch e).tdc ch = y at hclose
    rw [he]
    rw [hx] at hclose
    exact hclose.of_same rfl rfl

/-! ### An edge at its input -/

theorem Dev.missBefore_of_waitStart {s : Dev} {ch : Nat} (hst : (s.tdc ch).st = .waitStart) (t : Int) : s.missBefore ch t = s := by
  unfold Dev.missBefore
  dsimp only
  split
  · exact if_neg (by simp [hst])
  · rfl

theorem Dev.missBefore_of_window {s : Dev} {ch : Nat} {t b : Int} (hb : (s.tdc ch).start = some b)
    (h : t - b ≤ (s.tdc ch).winHi * 32768) : s.missBefore ch t = s := by
  unfold Dev.missBefore
  simp only [hb]
  exact if_neg (by simp [Int.not_lt.mpr h])

theorem Dev.started_tdcInput {s : Dev} {ch src : Nat} (hm : (s.tdc ch).mode = 0) (hst : (s.tdc ch).st = .waitStart)
    (hsrc : ((s.tdc ch).prof.headD 0).fld 31 29 = src) (t : Int) (pol : Bool) : s.Started ch t (s.tdcInput ch src t pol) := by
  have hrun : (s.tdc ch).running = true := by rw [Tdc.running, hst]
  have hstart := Dev.started_startEdge hm hst t pol
  unfold Dev.tdcInput
  rw [Dev.missBefore_of_waitStart hst]
  simp only [hrun, hst, hsrc, hm, Bool.not_true, Bool.false_eq_true, if_false, decide_true, Bool.or_true, Bool.and_true, if_true,
    Bool.true_and]
  split
  · exact hstart.keepStop _
  · exact hstart

theorem Dev.stopSeen_tdcInput {s : Dev} {ch src : Nat} {a b : Int} (hm : (s.tdc ch).mode = 0) (hst : (s.tdc ch).st = .waitStop)
    (hsrc : ((s.tdc ch).prof.headD 0).fld 28 26 = src) (hb : (s.tdc ch).start = some b) (h : a - b ≤ (s.tdc ch).winHi * 32768)
    (pol : Bool) : s.StopSeen ch a b (s.tdcInput ch src a pol) := by
  have hrun : (s.tdc ch).running = true := by rw [Tdc.running, hst]
  have hin : s.tdcInput ch src a pol = s.stopEdge ch a pol := by
    unfold Dev.tdcInput
    rw [Dev.missBefore_of_window hb h]
    simp only [hrun, hst, hsrc, hm, ne_eq, reduceCtorEq, not_true_eq_false, decide_false, decide_true, Bool.or_self,
      Bool.and_false, Bool.not_true, Bool.false_eq_true, if_false, if_true, Bool.and_self]
  rw [hin]
  exact Dev.stopSeen_stopEdge hm hst hb pol

/-- An edge that reaches a running TDC comes with the polarity of its source, or a free one (log 12). -/
theorem Dev.tdcEdgeIn_input {s : Dev} {ch src : Nat} (hrun : (s.tdc ch).running = true) (t : Int) :
    ∃ f pol, s.tdcEdgeIn ch src t = { s with freeIx := f }.tdcInput ch src t pol := by
  unfold Dev.tdcEdgeIn
  simp only [hrun, Bool.not_true, Bool.false_eq_true, if_false]
  split
  next p _ => exact ⟨s.freeIx, p, rfl⟩
  · exact ⟨_, _, rfl⟩

theorem Dev.tdcEdgeIn_of_idle {s : Dev} {ch : Nat} (h : (s.tdc ch).running = false) (src : Nat) (t : Int) :
    s.tdcEdgeIn ch src t = s := if_pos (by rw [h]; rfl)

/-! ### The row's commands -/

/-- The rule of TDC_EDGE. -/
def Dev.edgeRow (c src pos lsb : Nat) (s : Dev) : Dev :=
  match src with
  | 4 | 5 | 6 => s
  | 7 =>
    match s.ownEdge c pos with
    | some t => s.tdcEdgeIn c 7 t
    | none => s
  | k => s.tdcEdgeIn c k (s.tdcTime (s.tdc c) pos lsb)

theorem exec_tdcEdge (s : State) (c : Fin 720) (src : Fin 8) (pos : Pos) (lsb : Nat) :
    exec (.tdcEdge c src pos lsb) s = .next { s with toDev := s.edgeRow c src pos.toNat lsb } := rfl

theorem Dev.edgeRow_of_measured {s : Dev} {c src : Nat} (h : src ≤ 3) (pos lsb : Nat) :
    s.edgeRow c src pos lsb = s.tdcEdgeIn c src (s.tdcTime (s.tdc c) pos lsb) := by
  interval_cases src <;> rfl

theorem Dev.edgeRow_of_own {s : Dev} {c pos : Nat} {a : Int} (h : s.ownEdge c pos = some a) (lsb : Nat) :
    s.edgeRow c 7 pos lsb = s.tdcEdgeIn c 7 a := by
  unfold Dev.edgeRow
  simp only [h]

theorem Dev.edgeRow_input {s : Dev} {c : Nat} {src : Fin 8} {pos lsb : Nat} {a : Int} (hrun : (s.tdc c).running = true)
    (h : (src.val ≤ 3 ∧ a = s.tdcTime (s.tdc c) pos lsb) ∨ (src.val = 7 ∧ s.ownEdge c pos = some a)) :
    ∃ f pol, s.edgeRow c src pos lsb = { s with freeIx := f }.tdcInput c src a pol := by
  rcases h with ⟨hk, ha⟩ | ⟨hk, ha⟩
  · rw [Dev.edgeRow_of_measured hk, ← ha]
    exact Dev.tdcEdgeIn_input hrun a
  · rw [hk, Dev.edgeRow_of_own ha]
    exact Dev.tdcEdgeIn_input hrun a

theorem Dev.edgeRow_of_none {s : Dev} {c : Nat} {src : Fin 8} {pos lsb : Nat}
    (h : src.val = 4 ∨ src.val = 5 ∨ src.val = 6 ∨ (s.tdc c).running = false ∨ (src.val = 7 ∧ s.ownEdge c pos = none)) :
    s.edgeRow c src pos lsb = s := by
  rcases h with h | h | h | h | ⟨h, hown⟩
  · rw [h]; rfl
  · rw [h]; rfl
  · rw [h]; rfl
  · unfold Dev.edgeRow
    split
    · rfl
    · rfl
    · rfl
    · split
      · exact Dev.tdcEdgeIn_of_idle h _ _
      · rfl
    · exact Dev.tdcEdgeIn_of_idle h _ _
  · rw [h]
    unfold Dev.edgeRow
    simp only [hown]

theorem exec_tdcWindowClose (s : State) (c : Fin 720) :
    exec (.tdcWindowClose c) s = .next { s with toDev := s.missStop c } := rfl

/-- The rule of TDC_NOSIG. -/
def Dev.nosigRow (c pos : Nat) (s : Dev) : Dev :=
  if (s.tdc c).running && (s.tdc c).mode = 2 then s.tdcBad c 30 (s.tdcTime (s.tdc c) pos 0) else s

theorem exec_tdcNosig (s : State) (c : Fin 720) (pos : Pos) :
    exec (.tdcNosig c pos) s = .next { s with toDev := s.nosigRow c pos.toNat } := rfl

/-- The rule of TDC_MAXT. -/
def Dev.maxtRow (c : Nat) (s : Dev) : Dev := if (s.tdc c).maxt = 0 then s else s.tdcCut c

theorem Dev.nosigRow_of_running {s : Dev} {c : Nat} (h : (s.tdc c).running = true) (hm : (s.tdc c).mode = 2) (pos : Nat) :
    s.nosigRow c pos = s.tdcBad c 30 (s.tdcTime (s.tdc c) pos 0) := if_pos (by rw [h, hm]; rfl)

theorem Dev.nosigRow_of_none {s : Dev} {c : Nat} (h : (s.tdc c).running = false ∨ (s.tdc c).mode ≠ 2) (pos : Nat) :
    s.nosigRow c pos = s := if_neg (by rcases h with h | h <;> simp [h])

theorem exec_tdcMaxt (s : State) (c : Fin 720) : exec (.tdcMaxt c) s = .next { s with toDev := s.maxtRow c } := rfl

theorem Dev.maxtRow_of_running {s : Dev} {c : Nat} (h : (s.tdc c).running = true) (hm : (s.tdc c).maxt ≠ 0) :
    s.maxtRow c = s.tdcClose c ((s.tdc c).base * 32768) (s.tdcValue (s.tdc c)) .closed :=
  (if_neg hm).trans (if_pos h)

theorem Dev.maxtRow_of_none {s : Dev} {c : Nat} (h : (s.tdc c).running = false ∨ (s.tdc c).maxt = 0) : s.maxtRow c = s := by
  by_cases hm : (s.tdc c).maxt = 0
  · exact if_pos hm
  · exact (if_neg hm).trans (if_neg (by rw [h.resolve_right hm]; decide))

/-- What is left apart from the TDC's own parts. -/
theorem Dev.TdcFrame.rest {c : Nat} {s t : Dev} (h : Dev.TdcFrame c s t) :
    (∀ k, k ≠ c → t.tdc k = s.tdc k) ∧ { t with tdcs := s.tdcs, regs := s.regs, slc := s.slc, freeIx := s.freeIx } = s := by
  obtain ⟨⟨_, _, _, _, rfl⟩, ho, -⟩ := h
  exact ⟨ho, rfl⟩

/-- A free value drawn. -/
theorem Dev.TdcFrame.draw (c : Nat) (s : Dev) (f : Nat) : Dev.TdcFrame c s { s with freeIx := f } :=
  ⟨⟨_, _, _, _, rfl⟩, fun _ _ => rfl, fun _ _ => rfl⟩

/-- Settles O40: each edge through the TDC's input, by what a start, a stop, the end of an attempt and a close leave. -/
theorem tdcsMeasureIntervals : Obligations.TdcsMeasureIntervals := by
  intro s c d Rest Closes
  have hclose : ∀ (t : Dev) st a v n m, d.Closes (t.tdc c) st a v n m → Closes t st a v n m := fun _ _ _ _ _ _ h => h
  refine ⟨fun src pos lsb a hm hin => ⟨fun hst hsrc => ?_, fun b hst hsrc hb hwin => ?_⟩, fun src pos lsb hno => ?_,
    fun b hst hb => ?_, fun hno => ?_, fun pos hrun hm => ?_, fun pos hno => ?_, fun hrun hmaxt => ?_, fun hno => ?_⟩
  · obtain ⟨f, pol, hrow⟩ := Dev.edgeRow_input (s := s.toDev) (by rw [Tdc.running, hst]) hin
    have hs : Dev.Started { s.toDev with freeIx := f } c a _ := 
      Dev.started_tdcInput (s := { s.toDev with freeIx := f }) hm hst hsrc a pol
    have hf := (Dev.TdcFrame.draw c s.toDev f).trans (Dev.TdcFrame.input _ c src a pol)
    rw [exec_tdcEdge, hrow]
    exact ⟨_, rfl, hf.rest, hs.edges, hs.skips, hs.fast, hs.begins⟩
  · obtain ⟨f, pol, hrow⟩ := Dev.edgeRow_input (s := s.toDev) (by rw [Tdc.running, hst]) hin
    have hs : Dev.StopSeen { s.toDev with freeIx := f } c a b _ := 
      Dev.stopSeen_tdcInput (s := { s.toDev with freeIx := f }) hm hst hsrc hb hwin pol
    have hf := (Dev.TdcFrame.draw c s.toDev f).trans (Dev.TdcFrame.input _ c src a pol)
    rw [exec_tdcEdge, hrow]
    refine ⟨_, rfl, hf.rest, hs.early, fun h1 h2 => ?_⟩
    obtain ⟨hdone, hsum⟩ := hs.done h1 h2
    exact ⟨hdone, hsum, hs.more h1 h2, hs.last h1 h2⟩
  · rw [exec_tdcEdge, Dev.edgeRow_of_none hno]
  · have h := Dev.missed_missStop hst hb
    exact ⟨_, exec_tdcWindowClose s c, (Dev.TdcFrame.missStop s.toDev c).rest, h.count, h.shows, h.more, h.last⟩
  · rw [exec_tdcWindowClose, Dev.missStop_of_idle hno]
  · refine ⟨_, exec_tdcNosig s c pos, ?_⟩
    rw [Dev.nosigRow_of_running hrun hm]
    exact ⟨(Dev.TdcFrame.bad s.toDev c 30 _).rest, s.bit_tdcBad c 30 _ (by decide), s.tdcBad_closes c 30 _⟩
  · rw [exec_tdcNosig, Dev.nosigRow_of_none hno]
  · refine ⟨_, exec_tdcMaxt s c, ?_⟩
    rw [Dev.maxtRow_of_running hrun hmaxt]
    exact ⟨(Dev.TdcFrame.close s.toDev c _ _ _).rest, s.tdcClose_closes c _ _ _⟩
  · rw [exec_tdcMaxt, Dev.maxtRow_of_none hno]

end Sys2Proof.Machine
end

section
/-! PROOFS. O41, O43 and O45: conversions, stream records, and the cistern's scrubber and copies (R162-R168, R185). -/

namespace Sys2Proof.Machine

/-! ### The end of a conversion (R185, R321) -/

/-- The circuit with a measurement's value. -/
def Dev.measured (s : Dev) (c : Nat) (m : Meas) (v : W) : Dev :=
  s.onCirc c (fun x => { x with meas := some { m with value := some v } })

theorem exec_measConversionEnd (s : State) (c : Fin 720) (r : Reading) :
    exec (.measConversionEnd c r) s = .next { s with toDev := s.convDone c r } := rfl

theorem Dev.convDone_of_mean {s : Dev} {c : Nat} {m : Meas} (hm : (s.circ c).meas = some m) (hv : m.value = none)
    (h : m.kind = 3) (r : Reading) : s.convDone c r = s.measured c m (s.chainMean c) := by
  unfold Dev.convDone
  rw [hm]
  exact (if_neg (by rw [hv]; decide)).trans (if_pos h)

/-- A conversion that sets no STATUS bit. -/
theorem Dev.convDone_of_value {s : Dev} {c : Nat} {m : Meas} {r : Reading} {v : W} (hm : (s.circ c).meas = some m)
    (hv : m.value = none) (h : m.kind ≠ 3) (hend : convEnd m.kind r = (v, none)) : s.convDone c r = s.measured c m v := by
  unfold Dev.convDone
  simp only [hm, hv, h, hend, Option.isSome_none, Bool.false_eq_true, if_false]
  rfl

/-- A conversion that sets a STATUS bit. -/
theorem Dev.convDone_of_flag {s : Dev} {c : Nat} {m : Meas} {r : Reading} {v : W} {b : Nat} (hm : (s.circ c).meas = some m)
    (hv : m.value = none) (h : m.kind ≠ 3) (hend : convEnd m.kind r = (v, some b)) :
    s.convDone c r = (s.measured c m v).chFlag c b := by
  unfold Dev.convDone
  simp only [hm, hv, h, hend, Option.isSome_none, Bool.false_eq_true, if_false]
  rfl

theorem Dev.convDone_of_none {s : Dev} {c : Nat} (h : ∀ m : Meas, (s.circ c).meas = some m → m.value ≠ none) (r : Reading) :
    s.convDone c r = s := by
  unfold Dev.convDone
  split
  · rfl
  next m hm => exact if_pos (Option.isSome_iff_ne_none.mpr (h m hm))

/-- The junction temperature of a fit that was not refused (R321). -/
theorem convEnd_of_fit {r : Reading} (ho : r.ovl = none) (hf : r.fit = true) :
    convEnd 2 r = if f32Lt r.value 0xC25C0000 then (0xFF800000, some 6)
      else if f32Lt 0x43480000 r.value then (0x7F800000, some 6) else (r.value, none) := by
  unfold convEnd
  rw [ho]
  exact (if_pos rfl).trans (if_neg (by rw [hf]; decide))

/-- Settles O41: each kind's end of the conversion, with the STATUS bit it sets or none. -/
theorem conversionsEndWithTheirReading : Obligations.ConversionsEndWithTheirReading := by
  intro s c r
  refine ⟨fun m hm hv => ?_, fun h => ?_⟩
  · intro Ends
    have hplain : ∀ v, s.convDone c r = s.measured c m v → Ends v [] := fun v h =>
      ⟨s.measured c m v, (exec_measConversionEnd s c r).trans (by rw [h]), Dev.circ_setCirc_self _ _ _,
        fun k hk => Dev.circ_setCirc_of_ne _ hk _, fun b hb => absurd hb (by simp), fun _ => rfl, Dev.Cards.refl _ _, rfl⟩
    have hflag : ∀ v b, b < 32 → s.convDone c r = (s.measured c m v).chFlag c b → Ends v [b] :=
      fun v b hbit h => ⟨(s.measured c m v).chFlag c b, (exec_measConversionEnd s c r).trans (by rw [h]), Dev.circ_setCirc_self _ _ _,
        fun k hk => Dev.circ_setCirc_of_ne _ hk _, fun b' hb => by
          obtain rfl := List.mem_singleton.mp hb
          exact Dev.bit_chFlag _ _ hbit,
        fun h => absurd h (by simp), (Dev.Cards.of_regs (t := s.measured c m v) rfl _).setBits (by simp) _, rfl⟩
    have hvalue : ∀ v, m.kind ≠ 3 → convEnd m.kind r = (v, none) → Ends v [] := fun v hk h =>
      hplain v (Dev.convDone_of_value hm hv hk h)
    have hshow : ∀ v b, b < 32 → m.kind ≠ 3 → convEnd m.kind r = (v, some b) → Ends v [b] :=
      fun v b hbit hk h => hflag v b hbit (Dev.convDone_of_flag hm hv hk h)
    refine ⟨fun hk => hplain _ (Dev.convDone_of_mean hm hv hk r), fun neg hk ho => ?_, fun h2 h3 ho => ?_, fun h2 ho hf => ?_,
      fun h2 ho hf => ⟨fun hlow => ?_, fun hlow hhigh => ?_, fun hlow hhigh => ?_⟩⟩
    · exact hshow _ 6 (by decide) hk (by simp [convEnd, ho])
    · exact hvalue _ h3 (by simp [convEnd, ho, h2])
    · exact hshow _ 5 (by decide) (by omega) (by simp [convEnd, ho, h2, hf])
    · exact hshow _ 6 (by decide) (by omega) (by rw [h2, convEnd_of_fit ho hf, if_pos hlow])
    · exact hshow _ 6 (by decide) (by omega) (by
        rw [h2, convEnd_of_fit ho hf, if_neg (Bool.eq_false_iff.mp hlow), if_pos hhigh])
    · exact hvalue _ (by omega) (by
        rw [h2, convEnd_of_fit ho hf, if_neg (Bool.eq_false_iff.mp hlow), if_neg (Bool.eq_false_iff.mp hhigh)])
  · rw [exec_measConversionEnd, Dev.convDone_of_none h]

/-! ### Bytes written in a row -/

theorem Dev.byte_setBytes (s : Dev) (a : Nat) (l : List Byte) (n : Nat) :
    (s.setBytes a l).byte n = if a ≤ n ∧ n < a + l.length then l.getD (n - a) 0 else s.byte n := by
  induction l generalizing s a with
  | nil => exact (if_neg (by simp)).symm
  | cons b r ih =>
    have hcons : s.setBytes a (b :: r) = (s.setByte a b).setBytes (a + 1) r := rfl
    rw [hcons, ih]
    by_cases hn : n = a
    · subst hn
      rw [if_neg (by omega), if_pos (by simp), Dev.byte_setByte_self, Nat.sub_self]
      rfl
    · rw [Dev.byte_setByte_of_ne _ hn]
      by_cases hin : a + 1 ≤ n ∧ n < a + 1 + r.length
      · have hsub : n - a = (n - (a + 1)) + 1 := by omega
        rw [if_pos hin, if_pos (by simp only [List.length_cons]; omega), hsub]
        rfl
      · rw [if_neg hin, if_neg (by simp only [List.length_cons]; omega)]

/-- Bytes written change the memory alone. -/
theorem Dev.setBytes_only (s : Dev) (a : Nat) (l : List Byte) : ∃ m, s.setBytes a l = { s with mem := m } := by
  induction l generalizing s a with
  | nil => exact ⟨_, rfl⟩
  | cons b r ih =>
    obtain ⟨m, hm⟩ := ih (s.setByte a b) (a + 1)
    exact ⟨m, hm⟩

/-! ### Stream records (R168) -/

/-- The record has been received on its link. -/
def Dev.recordIn (s : Dev) (l : Nat) (r : Record) : Dev := s.received (.link (Fin.ofNat 4 l)) (1 + (r.data.length + 63) / 64)

theorem exec_streamRecord (s : State) (l : Fin 4) (r : Record) :
    exec (.streamRecord l r) s = .next { s with toDev := s.streamRecord l r } := rfl

theorem Dev.recordIn_only (s : Dev) (l : Nat) (r : Record) : ∃ k, s.recordIn l r = { s with links := k } := ⟨_, rfl⟩

theorem Dev.recordIn_link (s : Dev) (l : Fin 4) (r : Record) :
    ((s.recordIn l r).link l).rx = ((s.link l).rx + 1 + (r.data.length + 63) / 64) % 4096 := by
  have hl : (Fin.ofNat 4 l.val).val = l.val := Nat.mod_eq_of_lt l.isLt
  unfold Dev.recordIn Dev.received Dev.onLink
  dsimp only
  rw [hl, Dev.link_setLink_self, Nat.add_assoc]

/-- What receiving a record leaves of the rest. -/
structure Dev.RecordTaken (s : Dev) (l : Fin 4) (r : Record) (t : Dev) : Prop where
  rx    : (t.link l).rx = ((s.link l).rx + 1 + (r.data.length + 63) / 64) % 4096
  plys  : ∀ k, k ≠ r.player.val → t.ply k = s.ply k
  sites : t.sites = s.sites
  clk   : t.clk = s.clk

theorem Dev.recordTaken_in (s : Dev) (l : Fin 4) (r : Record) : s.RecordTaken l r (s.recordIn l r) :=
  ⟨s.recordIn_link l r, fun _ _ => rfl, rfl, rfl⟩

theorem Dev.streamRecord_of_safe {s : Dev} (h : s.sys.mode = .safe) (l : Nat) (r : Record) : s.streamRecord l r = s.recordIn l r :=
  if_pos h

theorem Dev.streamRecord_of_halted {s : Dev} {r : Record} (h : s.sys.mode ≠ .safe) (hr : (s.ply r.player.val).ring = .halted) (l : Nat) :
    s.streamRecord l r = (s.recordIn l r).incSat (aPly r.player.val 0x34) 15 0 := (if_neg h).trans (if_pos hr)

theorem Dev.streamRecord_of_off {s : Dev} {r : Record} (h : s.sys.mode ≠ .safe) (hr : (s.ply r.player.val).ring = .off) (l : Nat) :
    s.streamRecord l r = (s.recordIn l r).incSat (aPly r.player.val 0x34) 31 16 :=
  (if_neg h).trans ((if_neg (fun hh => absurd (hr.symm.trans hh) (by decide))).trans (if_pos hr))

theorem Dev.streamRecord_of_window {s : Dev} {r : Record} (h : s.sys.mode ≠ .safe) (hr : (s.ply r.player.val).ring ≠ .halted)
    (hr' : (s.ply r.player.val).ring ≠ .off)
    (hw : dist24 r.seq.toNat (s.ply r.player.val).fill < s.ringSlots r.player.val - (s.ply r.player.val).level) (l : Nat) :
    s.streamRecord l r = (s.recordIn l r).placeRecord r.player.val r :=
  (if_neg h).trans ((if_neg hr).trans ((if_neg hr').trans (if_pos hw)))

theorem Dev.streamRecord_of_outside {s : Dev} {r : Record} (h : s.sys.mode ≠ .safe) (hr : (s.ply r.player.val).ring ≠ .halted)
    (hr' : (s.ply r.player.val).ring ≠ .off)
    (hw : s.ringSlots r.player.val - (s.ply r.player.val).level ≤ dist24 r.seq.toNat (s.ply r.player.val).fill) (l : Nat) :
    s.streamRecord l r = (s.recordIn l r).incSat (aPly r.player.val 0x34) 31 16 :=
  (if_neg h).trans ((if_neg hr).trans ((if_neg hr').trans (if_neg (Nat.not_lt_of_le hw))))

/-- The check of a low-water mark changes the player's mark and may notify. -/
theorem Dev.lwmCheck_only (s : Dev) (y : Nat) : ∃ b h, s.lwmCheck y = { s.setPly y { s.ply y with lwm := b } with host := h } ∨
    s.lwmCheck y = s := by
  unfold Dev.lwmCheck
  dsimp only
  split
  · exact ⟨true, s.host, .inr rfl⟩
  · split
    · exact ⟨true, s.host, .inl rfl⟩
    · split
      · unfold Dev.notify
        split
        · exact ⟨false, _, .inl rfl⟩
        · exact ⟨false, _, .inl rfl⟩
      · exact ⟨true, s.host, .inr rfl⟩

/-- What the check leaves of the player, and what it keeps. -/
theorem Dev.lwmCheck_ply (s : Dev) (y : Nat) :
    (∃ b, (s.lwmCheck y).ply y = { s.ply y with lwm := b }) ∧ (∀ k, k ≠ y → (s.lwmCheck y).ply k = s.ply k) ∧
    ∃ p h, s.lwmCheck y = { s with plys := p, host := h } := by
  obtain ⟨b, h, hs | hs⟩ := s.lwmCheck_only y
  · rw [hs]
    exact ⟨⟨b, Dev.ply_setPly_self s y _⟩, fun k hk => Dev.ply_setPly_of_ne s hk _, _, _, rfl⟩
  · rw [hs]
    exact ⟨⟨_, rfl⟩, fun _ _ => rfl, _, _, rfl⟩

theorem fillUp_one (f : Nat) : fillUp 1 f [f] = ((f + 1) % 2 ^ 24, []) := by
  simp [fillUp, rmv]

theorem dist24_self {n : Nat} (h : n < 2 ^ 24) : dist24 n n = 0 := by
  rw [dist24, Nat.mod_eq_of_lt h, Nat.add_sub_cancel_left, Nat.mod_self]

/-- What a record placed at FILL, with none ahead, leaves (R168). -/
structure Dev.Placed (s : Dev) (y : Nat) (r : Record) (t : Dev) : Prop where
  fill  : (t.ply y).fill = ((s.ply y).fill + 1) % 2 ^ 24
  ahead : (t.ply y).ahead = []
  drain : (t.ply y).drain = (s.ply y).drain
  tag   : (t.ply y).tags.get (fun _ => (0, 0)) (r.seq.toNat % s.ringSlots y) = (r.seg.toNat, r.blk.toNat)
  slot  : ∀ k, k < min r.data.length (s.slotBytes y) → t.byte (aCis (s.slotAt y r.seq.toNat + k)) = r.data.getD k 0
  bytes : ∀ a, a < aCis (s.slotAt y r.seq.toNat) ∨ aCis (s.slotAt y r.seq.toNat) + min r.data.length (s.slotBytes y) ≤ a →
    t.byte a = s.byte a
  plys  : ∀ k, k ≠ y → t.ply k = s.ply k
  rest  : ∃ p h m c, t = { s with plys := p, host := h, mem := m, cis := c }

/-- The record's bytes, its tags and FILL, before the low-water mark is checked. -/
def Dev.recordPut (s : Dev) (y : Nat) (r : Record) : Dev :=
  let s := s.setBytes (aCis (s.slotAt y r.seq.toNat)) (r.data.take (s.slotBytes y))
  let s := s.cisFresh (s.slotAt y r.seq.toNat) (min r.data.length (s.slotBytes y))
  let p := s.ply y
  let g := fillUp (p.ahead.length + 1) p.fill (insAsc r.seq.toNat p.ahead)
  s.setPly y { p with
    tags := p.tags.set (fun _ => (0, 0)) (r.seq.toNat % s.ringSlots y) (r.seg.toNat, r.blk.toNat), fill := g.1, ahead := g.2 }

theorem Dev.placeRecord_eq (s : Dev) (y : Nat) (r : Record) : s.placeRecord y r = (s.recordPut y r).lwmCheck y := rfl

/-- The record's bytes, written. -/
def Dev.recordBytes (s : Dev) (y : Nat) (r : Record) : Dev :=
  s.setBytes (aCis (s.slotAt y r.seq.toNat)) (r.data.take (s.slotBytes y))

/-- With FILL at the record and none ahead of it. -/
theorem Dev.recordPut_of_next {s : Dev} {y : Nat} {r : Record} (hf : r.seq.toNat = (s.ply y).fill) (ha : (s.ply y).ahead = []) :
    ∃ c, s.recordPut y r = { s.setPly y { s.ply y with
      tags := (s.ply y).tags.set (fun _ => (0, 0)) (r.seq.toNat % s.ringSlots y) (r.seg.toNat, r.blk.toNat),
      fill := ((s.ply y).fill + 1) % 2 ^ 24, ahead := [] } with mem := (s.recordBytes y r).mem, cis := c } := by
  obtain ⟨m, hm⟩ := s.setBytes_only (aCis (s.slotAt y r.seq.toNat)) (r.data.take (s.slotBytes y))
  have hg : fillUp ((s.ply y).ahead.length + 1) (s.ply y).fill (insAsc r.seq.toNat (s.ply y).ahead) =
      (((s.ply y).fill + 1) % 2 ^ 24, []) := by
    rw [ha, hf]
    exact fillUp_one _
  unfold Dev.recordPut Dev.recordBytes
  rw [hm]
  dsimp only
  refine ⟨(({ s with mem := m } : Dev).cisFresh (s.slotAt y r.seq.toNat) (min r.data.length (s.slotBytes y))).cis, ?_⟩
  exact congrArg (fun g : Nat × List Nat => ({ s with
    mem := m, cis := (({ s with mem := m } : Dev).cisFresh (s.slotAt y r.seq.toNat) (min r.data.length (s.slotBytes y))).cis } : Dev).setPly
      y { s.ply y with
        tags := (s.ply y).tags.set (fun _ => (0, 0)) (r.seq.toNat % s.ringSlots y) (r.seg.toNat, r.blk.toNat), fill := g.1, ahead := g.2 }) hg

theorem Dev.placed_placeRecord {s : Dev} {y : Nat} {r : Record} (hf : r.seq.toNat = (s.ply y).fill) (ha : (s.ply y).ahead = []) :
    s.Placed y r (s.placeRecord y r) := by
  obtain ⟨c, hput⟩ := Dev.recordPut_of_next hf ha
  obtain ⟨⟨b, hy⟩, hk, p, h, honly⟩ := (s.recordPut y r).lwmCheck_ply y
  have hmem : ∀ a, ((s.recordPut y r).lwmCheck y).byte a = (s.recordBytes y r).byte a := fun a => by
    rw [honly, hput]
    rfl
  have hbyte := s.byte_setBytes (aCis (s.slotAt y r.seq.toNat)) (r.data.take (s.slotBytes y))
  have hlen : (r.data.take (s.slotBytes y)).length = min r.data.length (s.slotBytes y) := by
    rw [List.length_take, Nat.min_comm]
  rw [hlen] at hbyte
  rw [Dev.placeRecord_eq]
  have hself : (s.recordPut y r).ply y = { s.ply y with
      tags := (s.ply y).tags.set (fun _ => (0, 0)) (r.seq.toNat % s.ringSlots y) (r.seg.toNat, r.blk.toNat),
      fill := ((s.ply y).fill + 1) % 2 ^ 24, ahead := [] } := by
    rw [hput]
    exact Dev.ply_setPly_self s y _
  refine ⟨?_, ?_, ?_, ?_, fun k hk => ?_, fun a ha => ?_, fun k hne => ?_, ?_⟩
  · rw [hy, hself]
  · rw [hy, hself]
  · rw [hy, hself]
  · rw [hy, hself]
    exact Tab.get_set_self _ _ _ _
  · rw [hmem]
    refine (hbyte _).trans ((if_pos ?_).trans ?_)
    · unfold aCis
      omega
    · have hsub : aCis (s.slotAt y r.seq.toNat + k) - aCis (s.slotAt y r.seq.toNat) = k := by unfold aCis; omega
      rw [hsub, List.getD_eq_getElem?_getD, List.getElem?_take_of_lt (by omega), ← List.getD_eq_getElem?_getD]
  · rw [hmem]
    exact (hbyte a).trans (if_neg (by omega))
  · rw [hk k hne, hput]
    exact Dev.ply_setPly_of_ne s hne _
  · rw [honly, hput]
    exact ⟨_, _, _, _, rfl⟩

/-- A record that is not placed counts in its field, and nothing more changes. -/
theorem Dev.recordIn_incSat (s : Dev) (l : Fin 4) (r : Record) (y hi lo : Nat) (h : lo ≤ hi) (h' : hi < 32) :
    s.RecordTaken l r ((s.recordIn l r).incSat (aPly y 0x34) hi lo) ∧
    (∀ k, ((s.recordIn l r).incSat (aPly y 0x34) hi lo).ply k = s.ply k) ∧
    ((s.recordIn l r).incSat (aPly y 0x34) hi lo).mem = s.mem ∧
    ((s.recordIn l r).incSat (aPly y 0x34) hi lo).fld (aPly y 0x34) hi lo =
      min (s.fld (aPly y 0x34) hi lo + 1) (2 ^ (hi + 1 - lo) - 1) ∧
    s.Cards ((s.recordIn l r).incSat (aPly y 0x34) hi lo) [aPly y 0x34] := by
  obtain ⟨k, hk⟩ := s.recordIn_only l r
  have hrx := s.recordIn_link l r
  rw [hk] at hrx ⊢
  exact ⟨⟨hrx, fun _ _ => rfl, rfl, rfl⟩, fun _ => rfl, rfl, Dev.fld_incSat_self _ h h',
    (Dev.Cards.of_regs (t := { s with links := k }) rfl _).setFld (by simp) _ _ _⟩

theorem Dev.recordTaken_placeRecord {s : Dev} {l : Fin 4} {r : Record}
    (h : (s.recordIn l r).Placed r.player.val r ((s.recordIn l r).placeRecord r.player.val r)) :
    s.RecordTaken l r ((s.recordIn l r).placeRecord r.player.val r) := by
  have hplys := h.plys
  obtain ⟨p, x, m, c, hrest⟩ := h.rest
  refine ⟨?_, hplys, by rw [hrest]; rfl, by rw [hrest]; rfl⟩
  rw [hrest]
  exact s.recordIn_link l r

/-- Settles O43: each case of the record's ring, after the record was received on its link. -/
theorem recordsFillTheirRing : Obligations.RecordsFillTheirRing := by
  intro s l r y Taken
  have htaken : ∀ t, s.RecordTaken l r t → Taken t := fun t ⟨h1, h2, h3, h4⟩ => ⟨h1, h2, h3, h4⟩
  have hexec : ∀ u, s.streamRecord l r = u → exec (.streamRecord l r) s = .next { s with toDev := u } := fun u h => by
    rw [exec_streamRecord, h]
  refine ⟨fun hm => ?_, fun hm hring hseq hahead hlevel => ?_, fun hm hring => ?_, fun hm hring => ?_⟩
  · exact ⟨_, hexec _ (Dev.streamRecord_of_safe hm l r), htaken _ (s.recordTaken_in l r), rfl, rfl, rfl⟩
  · have hne : (s.ply r.player.val).ring ≠ .halted ∧ (s.ply r.player.val).ring ≠ .off := by
      constructor <;> intro hh <;> rw [hh] at hring <;> simp at hring
    have hlt : (s.ply y).fill < 2 ^ 24 := hseq ▸ r.seq.isLt
    have hplaced := Dev.placed_placeRecord (s := s.recordIn l r) (y := y) (r := r) hseq hahead
    have htake := htaken _ (Dev.recordTaken_placeRecord hplaced)
    refine ⟨_, hexec _ (Dev.streamRecord_of_window hm hne.1 hne.2 ?_ l), htake, hplaced.fill, hplaced.ahead, hplaced.drain,
      hplaced.tag, hplaced.slot, hplaced.bytes, ?_⟩
    · rw [hseq, dist24_self hlt]
      exact Nat.sub_pos_of_lt hlevel
    · obtain ⟨p, x, m, c, hrest⟩ := hplaced.rest
      rw [hrest]
      rfl
  · obtain ⟨htake, hply, hmem, hfld, hcards⟩ := s.recordIn_incSat l r y 15 0 (by omega) (by omega)
    exact ⟨_, hexec _ (Dev.streamRecord_of_halted hm hring l), htaken _ htake, hply y, hmem, hfld, hcards⟩
  · have hrun : s.streamRecord l r = (s.recordIn l r).incSat (aPly y 0x34) 31 16 := by
      by_cases hoff : (s.ply y).ring = .off
      · exact Dev.streamRecord_of_off hm hoff l
      · obtain ⟨hh, hw⟩ := hring.resolve_left hoff
        exact Dev.streamRecord_of_outside hm hh hoff hw l
    obtain ⟨htake, hply, hmem, hfld, hcards⟩ := s.recordIn_incSat l r y 31 16 (by omega) (by omega)
    exact ⟨_, hexec _ hrun, htaken _ htake, hply y, hmem, hfld, hcards⟩

end Sys2Proof.Machine
end

section
/-! PROOFS. O45: the cistern's scrubber and the copies of its banks (R162-R164). -/

namespace Sys2Proof.Machine

/-- The scrubber's place, its card and the cistern's size are kept, and no source loses STICKY. -/
structure Dev.ScrubFrame (s t : Dev) : Prop where
  scrub  : t.cis.scrub = s.cis.scrub
  groups : t.pwr.groups = s.pwr.groups
  card   : t.rd (aCisReg 0x28) = s.rd (aCisReg 0x28)
  stays  : ∀ g, g < 384 → s.sticky g = true → t.sticky g = true

namespace Dev.ScrubFrame

theorem refl (s : Dev) : Dev.ScrubFrame s s := ⟨rfl, rfl, rfl, fun _ _ h => h⟩

theorem trans {s t u : Dev} (h : Dev.ScrubFrame s t) (k : Dev.ScrubFrame t u) : Dev.ScrubFrame s u :=
  ⟨k.scrub.trans h.scrub, k.groups.trans h.groups, k.card.trans h.card, fun g hg hs => k.stays g hg (h.stays g hg hs)⟩

theorem raises (s : Dev) (rs : List Raise) (h : ∀ r ∈ rs, r.plain) : Dev.ScrubFrame s (s.raises rs) := by
  have hu := Upset.raises s rs h
  obtain ⟨-, -, -, -, -, hgroups⟩ := hu.rest.power
  exact ⟨(Dev.Steady.raises s rs).scrub, hgroups, hu.rest.cards _ (by decide) (by decide) (by decide), fun g _ hs => hu.stays g hs⟩

/-- A card of the cistern but the scrubber's. -/
theorem wr (s : Dev) {o : Nat} (v : W) (h : o ≠ 0x28) : Dev.ScrubFrame s (s.wr (aCisReg o) v) :=
  ⟨rfl, rfl, Dev.rd_wr_of_ne s (by unfold aCisReg; omega) v, fun g hg hs =>
    (Dev.bit_congr (Dev.rd_wr_of_ne s (by unfold aSrc aFlt aCisReg; omega) v) 30).trans hs⟩

end Dev.ScrubFrame

/-- BANK_WEAK of a bank. -/
def weakOf (b : Nat) : Raise := { f := 130, lvl := 1, sites := [], unit := b, forced := false }

theorem weakOf_plain (b : Nat) : (weakOf b).plain := ⟨show 130 < 384 by decide, show 130 ≠ 289 by decide⟩

/-- The cistern's unit with other fields. -/
def Dev.withCis (s : Dev) (x : Cis) : Dev := { s with cis := x }

theorem Dev.ScrubFrame.withCis (s : Dev) {x : Cis} (h : x.scrub = s.cis.scrub) : Dev.ScrubFrame s (s.withCis x) :=
  ⟨h, rfl, rfl, fun _ _ hs => hs⟩

theorem Dev.fld_withCis (s : Dev) (x : Cis) (a hi lo : Nat) : (s.withCis x).fld a hi lo = s.fld a hi lo := rfl

/-- The note of a corrected word, before it raises (R162). -/
def Dev.cisNoted (s : Dev) (a : Nat) : Dev := (s.incSat (aCisReg 0x20) 31 24).setFld (aCisReg 0x20) 22 0 (a / 16)

/-- The instants of a bank's corrected words, with this one (R164). -/
def Dev.cisTimes (s : Dev) (a : Nat) : List Nat :=
  (s.clk.frame :: (s.cis.ecc1.get (fun _ => []) (s.bankOf a)).filter
    (fun f => (s.clk.frame + 2 ^ 48 - f) % 2 ^ 48 < 2 ^ 20)).take 16

/-- The raises of a corrected word (R162, R164). -/
def Dev.cisRaises (s : Dev) (a : Nat) : List Raise :=
  raiseOf 128 0 :: (if 16 ≤ (s.cisTimes a).length then [weakOf (s.bankOf a)] else [])

theorem Dev.cisRaises_plain (s : Dev) (a : Nat) : ∀ r ∈ s.cisRaises a, r.plain := by
  intro r hr
  rcases List.mem_cons.mp hr with rfl | hr
  · exact ⟨by decide, by decide⟩
  · split at hr
    · rw [List.mem_singleton.mp hr]
      exact weakOf_plain _
    · exact absurd hr (by simp)

/-- The cistern's fields with the instants of the word's bank. -/
def Dev.cisCounted (s : Dev) (a : Nat) : Cis := { s.cis with ecc1 := s.cis.ecc1.set (fun _ => []) (s.bankOf a) (s.cisTimes a) }

theorem Dev.cisCorrected_eq (s : Dev) (a : Nat) :
    s.cisCorrected a = ((s.cisNoted a).withCis (s.cisCounted a)).raises (s.cisRaises a) := by
  unfold Dev.cisCorrected Dev.cisRaises
  exact congrArg₂ Dev.raises rfl rfl

/-- A corrected word: its source, its place, and the frame (R162). -/
theorem Dev.cisCorrected_seen (s : Dev) (a : Nat) (ha : a / 16 < 2 ^ 23) :
    s.ScrubFrame (s.cisCorrected a) ∧ (s.cisCorrected a).sticky 128 = true ∧
    (s.cisCorrected a).fld (aCisReg 0x20) 22 0 = a / 16 := by
  have hnoted : s.ScrubFrame (s.cisNoted a) := (Dev.ScrubFrame.wr s _ (by decide)).trans (Dev.ScrubFrame.wr _ _ (by decide))
  have hplace : (s.cisNoted a).fld (aCisReg 0x20) 22 0 = a / 16 :=
    (Dev.fld_setFld_self _ (by omega) (by omega) _).trans (Nat.mod_eq_of_lt ha)
  have hcis := hnoted.trans (Dev.ScrubFrame.withCis (s.cisNoted a) (x := s.cisCounted a) rfl)
  have hkept := (Dev.fld_withCis (s.cisNoted a) (s.cisCounted a) (aCisReg 0x20) 22 0).trans hplace
  rw [Dev.cisCorrected_eq]
  generalize (s.cisNoted a).withCis (s.cisCounted a) = u at hcis hkept ⊢
  have hu := Upset.raises u _ (s.cisRaises_plain a)
  exact ⟨hcis.trans (Dev.ScrubFrame.raises u _ (s.cisRaises_plain a)),
    u.raises_sticky (r := raiseOf 128 0) (s.cisRaises_plain a) (List.mem_cons_self (a := raiseOf 128 0)),
    (Dev.fld_congr (hu.rest.cards _ (by decide) (by decide) (by decide)) 22 0).trans hkept⟩

/-- Bit 31 of the log of a double-bit word (R162). -/
theorem Dev.bit_cisLog2 (s : Dev) (a : Nat) (ha : a / 16 < 2 ^ 23) : (s.cisLog2 a).bit (aCisReg 0x24) 31 = true := by
  unfold Dev.cisLog2
  dsimp only
  rw [Dev.bit, Dev.rd_wr_self, W.bit_eq_testBit, wn, BitVec.toNat_ofNat, Nat.testBit_mod_two_pow]
  have hb : b2n (s.cis.poison.contains (a / 16)) ≤ 1 := by
    cases s.cis.poison.contains (a / 16) <;> decide
  rw [show 2 ^ 31 + 2 ^ 30 * b2n (s.cis.poison.contains (a / 16)) + a / 16 =
    2 ^ 31 * 1 + (2 ^ 30 * b2n (s.cis.poison.contains (a / 16)) + a / 16) by omega, Nat.testBit_two_pow_mul_add _ (by omega)]
  rfl

/-- A double-bit word: BANK_WEAK, its log, and the frame (R162, R164). -/
theorem Dev.cisBad_seen (s : Dev) (a : Nat) (ha : a / 16 < 2 ^ 23) :
    s.ScrubFrame (s.cisBad a) ∧ (s.cisBad a).sticky 130 = true ∧ (s.cisBad a).bit (aCisReg 0x24) 31 = true := by
  have hlog : s.ScrubFrame (s.cisLog2 a) := Dev.ScrubFrame.wr s _ (by decide)
  have hbit := s.bit_cisLog2 a ha
  unfold Dev.cisBad Dev.bankWeak
  generalize s.cisLog2 a = u at hlog hbit ⊢
  have hr := u.raise_raised (weakOf (s.bankOf a)) (weakOf_plain _)
  exact ⟨hlog.trans (Dev.ScrubFrame.raises u _ (fun r hr => by
      rw [List.mem_singleton.mp hr]
      exact weakOf_plain _)), hr.now,
    (Dev.bit_congr (hr.rest.cards _ (by decide) (by decide) (by decide)) 31).trans hbit⟩

/-- The scrubber goes on to the next word; a finished pass counts (R163). -/
def Dev.scrubOn (s : Dev) : Dev :=
  if s.cisBytes ≤ 16 * (s.cis.scrub + 1) then { s.incSat (aCisReg 0x28) 15 0 with cis := { s.cis with scrub := 0 } }
  else { s with cis := { s.cis with scrub := s.cis.scrub + 1 } }

/-- What the scrubber finds at a word. -/
def Dev.scrubWord (s : Dev) : Ecc → Dev
  | .clean => s
  | .corrected => s.cisCorrected (16 * s.cis.scrub)
  | .uncorrectable => s.cisBad (16 * s.cis.scrub)

theorem Dev.scrubStep_of_on {s : Dev} (h : s.bit (aCisReg 0x28) 31 = true) (hb : s.cisBytes ≠ 0) (c : Ecc) :
    s.scrubStep c = (s.scrubWord c).scrubOn :=
  (if_neg (by simp [h, hb])).trans (by cases c <;> rfl)

theorem Dev.scrubStep_of_off {s : Dev} (h : s.bit (aCisReg 0x28) 31 = false ∨ s.cisBytes = 0) (c : Ecc) :
    s.scrubStep c = s := if_pos (by rcases h with h | h <;> simp [h])

theorem Dev.scrubOn_scrub (s : Dev) :
    s.scrubOn.cis.scrub = if s.cisBytes ≤ 16 * (s.cis.scrub + 1) then 0 else s.cis.scrub + 1 := by
  unfold Dev.scrubOn
  split <;> rfl

theorem Dev.fld_scrubOn (s : Dev) :
    s.scrubOn.fld (aCisReg 0x28) 15 0 =
      if s.cisBytes ≤ 16 * (s.cis.scrub + 1) then min (s.fld (aCisReg 0x28) 15 0 + 1) 65535 else s.fld (aCisReg 0x28) 15 0 := by
  unfold Dev.scrubOn
  split
  · exact Dev.fld_incSat_self s (by omega) (by omega)
  · rfl

/-- Going on changes the scrubber's card and the cistern's fields alone. -/
theorem Dev.scrubOn_rd (s : Dev) {a : Nat} (h : a ≠ aCisReg 0x28) : s.scrubOn.rd a = s.rd a := by
  unfold Dev.scrubOn
  split
  · exact Dev.rd_setFld_of_ne s h
  · rfl

theorem Dev.scrubOn_only (s : Dev) : ∃ r x, s.scrubOn = { s with regs := r, cis := x } := by
  unfold Dev.scrubOn
  split
  · exact ⟨_, _, rfl⟩
  · exact ⟨_, _, rfl⟩

theorem exec_scrubStep (s : State) (c : Ecc) : exec (.scrubStep c) s = .next { s with toDev := s.scrubStep c } := rfl

/-- The word found keeps what the scrubber goes on by. -/
theorem Dev.scrubWord_frame (s : Dev) (c : Ecc) (h : s.cis.scrub < 2 ^ 23) : s.ScrubFrame (s.scrubWord c) := by
  cases c with
  | clean => exact Dev.ScrubFrame.refl s
  | corrected => exact (s.cisCorrected_seen _ (by omega)).1
  | uncorrectable => exact (s.cisBad_seen _ (by omega)).1

/-! ### Copies of a bank (R164) -/

/-- The poisoned words with those of a copy. -/
theorem mem_foldl_insAsc {x : Nat} {ws l : List Nat} : x ∈ ws.foldl (fun l w => insAsc w l) l ↔ x ∈ ws ∨ x ∈ l := by
  induction ws generalizing l with
  | nil => simp
  | cons w r ih =>
    rw [List.foldl_cons, ih, mem_insAsc, List.mem_cons]
    tauto

theorem exec_bankCopyDone (s : State) (n : Fin 4) (bad : List (BitVec 23)) :
    exec (.bankCopyDone n bad) s = .next { s with toDev := s.copyDone n bad } := rfl

/-- The copy is noted done, with the words that it leaves poisoned. -/
def Dev.copied (s : Dev) (n : Nat) (bad : List (BitVec 23)) : Dev :=
  s.withCis { s.cis with
    spares := s.cis.spares.set (fun _ => spareBankInit) n { s.spareBank n with copied := true },
    poison := ((bad.map (·.toNat)).filter (fun w => s.bankOf (16 * w) = (s.spareBank n).bank)).foldl
      (fun l w => insAsc w l) s.cis.poison }

theorem Dev.copyDone_of_copying {s : Dev} {n : Nat} (h : (s.spareBank n).copying = true) (bad : List (BitVec 23)) :
    s.copyDone n bad = s.copied n bad := if_pos h

/-- Settles O45: the word found, then the scrubber's next place; and the copy's words, inserted among those poisoned. -/
theorem scrubAndCopiesAdvance : Obligations.ScrubAndCopiesAdvance := by
  intro s
  refine ⟨fun c hon hbytes hlt => ?_, fun c hoff => ?_, fun n bad hcopy => ?_, fun n bad hcopy => ?_⟩
  · have hframe := s.scrubWord_frame c hlt
    have hsize : (s.scrubWord c).cisBytes = s.cisBytes := congrArg (· * 2 ^ 23) hframe.groups
    have hplace : 16 * s.cis.scrub / 16 = s.cis.scrub := by omega
    refine ⟨_, (exec_scrubStep s c).trans (by rw [Dev.scrubStep_of_on hon hbytes]), ?_, ?_, fun hc => ?_, fun hc => ?_,
      fun g hg hs => ?_, fun hc => ?_⟩
    · rw [Dev.scrubOn_scrub, hsize, hframe.scrub]
    · rw [Dev.fld_scrubOn, hsize, hframe.scrub, Dev.fld_congr hframe.card]
    · subst hc
      obtain ⟨-, hsticky, hfld⟩ := s.cisCorrected_seen (16 * s.cis.scrub) (by omega)
      exact ⟨(Dev.bit_congr (Dev.scrubOn_rd _ (by decide)) 30).trans hsticky,
        (Dev.fld_congr (Dev.scrubOn_rd _ (by decide)) 22 0).trans (hfld.trans hplace)⟩
    · subst hc
      obtain ⟨-, hsticky, hbit⟩ := s.cisBad_seen (16 * s.cis.scrub) (by omega)
      exact ⟨(Dev.bit_congr (Dev.scrubOn_rd _ (by decide)) 30).trans hsticky,
        (Dev.bit_congr (Dev.scrubOn_rd _ (by decide)) 31).trans hbit⟩
    · have hne : aSrc g ≠ aCisReg 0x28 := by unfold aSrc aFlt aCisReg; omega
      exact (Dev.bit_congr (Dev.scrubOn_rd _ hne) 30).trans (hframe.stays g hg hs)
    · subst hc
      obtain ⟨r, x, h⟩ := s.scrubOn_only
      exact (congrArg (fun u : Dev => { u with cis := s.cis, regs := s.regs }) h)
  · rw [exec_scrubStep, Dev.scrubStep_of_off hoff]
  · refine ⟨s.copied n bad, (exec_bankCopyDone s n bad).trans (by rw [Dev.copyDone_of_copying hcopy]), Tab.get_set_self _ _ _ _,
      fun k hk => Tab.get_set_of_ne _ hk _ _, fun w hw hbank => ?_, fun w hw => mem_foldl_insAsc.mpr (.inr hw), rfl⟩
    exact mem_foldl_insAsc.mpr (.inl (List.mem_filter.mpr ⟨List.mem_map.mpr ⟨w, hw, rfl⟩, decide_eq_true hbank⟩))
  · rw [exec_bankCopyDone, show s.copyDone n bad = s.toDev from if_neg (by rw [hcopy]; decide)]

end Sys2Proof.Machine
end

section
/-! PROOFS. O38: the delivery that ends a WAITE, and the trigger bus (R278-R284). -/

namespace Sys2Proof.Machine

/-! ### The end of a wait (R139) -/

/-- What the end of a WAITE's wait leaves, before instruction 32,767. -/
structure Dev.WaitEnds (s : Dev) (e : Nat) (late : Bool) (t : Dev) : Prop where
  pc     : t.pc e = s.pc e + 1
  flag   : t.flag e 7 = late
  eng    : t.eng e = { (s.eng e).retired with wait := none, waitY := false, arrived := false, phase := .exec }
  others : ∀ k, k ≠ e → t.eng k = s.eng k
  cards  : s.Cards t [aEng e 4, aEng e 0xC]
  rest   : s.RegFrame t

/-- The wait disarmed, with TO written. -/
def Dev.waitOver (s : Dev) (e : Nat) (late : Bool) : Dev :=
  (s.onEng e (fun g => { g with wait := none, waitY := false, arrived := false, phase := .exec })).setFlag e 7 late

theorem Dev.waitOver_eng (s : Dev) (e : Nat) (late : Bool) :
    (s.waitOver e late).eng e = { s.eng e with wait := none, waitY := false, arrived := false, phase := .exec } :=
  Dev.eng_setEng_self s e _

theorem Dev.waitOver_others (s : Dev) {e k : Nat} (hk : k ≠ e) (late : Bool) : (s.waitOver e late).eng k = s.eng k :=
  Dev.eng_setEng_of_ne s hk _

theorem Dev.waitOver_cards (s : Dev) (e : Nat) (late : Bool) : s.Cards (s.waitOver e late) [aEng e 0xC] :=
  (Dev.Cards.of_regs (t := s.onEng e (fun g => { g with wait := none, waitY := false, arrived := false, phase := .exec })) rfl
    _).setFld (by simp) _ _ _

theorem Dev.waitOver_pc (s : Dev) (e : Nat) (late : Bool) : (s.waitOver e late).pc e = s.pc e :=
  Dev.pc_congr (s.waitOver_cards e late _ (by simpa using aEng_ne (by omega)))

theorem Dev.waitOver_to (s : Dev) (e : Nat) (late : Bool) : (s.waitOver e late).flag e 7 = late :=
  Dev.flag_setFlag_self _ e (by omega) late

theorem Dev.waitDone_ends {s : Dev} {e : Nat} (hp : s.pc e < 32767) (late : Bool) : s.WaitEnds e late (s.waitDone e late) := by
  have hpc := s.waitOver_pc e late
  have hdone : s.waitDone e late = (s.waitOver e late).jumpTo e (s.pc e + 1) := by
    rw [← hpc]
    exact Dev.retire_eq_jump (s.waitOver e late) (by omega)
  obtain ⟨jpc, jeng, jothers⟩ := Dev.jumpTo_jumps (s.waitOver e late) (e := e) (n := s.pc e + 1) (by omega)
  have hcards := Dev.jumpTo_cards (s.waitOver e late) e (s.pc e + 1)
  have hrest : s.RegFrame (s.waitDone e late) :=
    Dev.RegFrame.retire (d := s.waitOver e late) (((Dev.RegFrame.refl s).onEng e _).setFld _ _ _ _) (by omega)
  rw [hdone] at hrest ⊢
  refine ⟨jpc, ?_, ?_, fun k hk => (jothers k hk).trans (s.waitOver_others hk late), fun a ha => ?_, hrest⟩
  · exact (Dev.bit_congr (hcards _ (by simpa using aEng_ne (by omega))) 7).trans (s.waitOver_to e late)
  · rw [jeng, Dev.waitOver_eng]
    rfl
  · simp only [List.mem_cons, List.not_mem_nil, or_false, not_or] at ha
    exact (hcards a (by simpa using ha.1)).trans (s.waitOver_cards e late a (by simpa using ha.2))

/-- A wait without Y that no event reached is already disarmed but for its line. -/
theorem Eng.disarmed {g : Eng} (hy : g.waitY = false) (ha : g.arrived = false) :
    { g.retired with wait := none, waitY := false, arrived := false, phase := .exec } =
      { g.retired with wait := none, phase := .exec } := by
  simp only [Eng.retired, hy, ha]

/-! ### One event in flight (R278) -/

/-- The sluice with other fields. -/
def Dev.withSlc (s : Dev) (x : Slc) : Dev := { s with slc := x }

/-- The sluice as its one event is delivered. -/
def Slc.delivered (x : Slc) (f : Flight) : Slc :=
  { x with coming := [], flights := [], gates := x.gates.set (fun _ => 0) (lineKey f.line) (f.edge + 2 + 1) }

/-- The producers that the line of an event is. -/
def Flight.prod (f : Flight) : Prod :=
  match f.line with
  | .loc q l => { kind := 10, sub := l, index := q }
  | .global n => { kind := 11, sub := 0, index := n }

theorem Dev.produce_of_unused {s : Dev} {p : Prod} (h : s.linesOf p = []) (edge tag : Nat) (b : Block) (tb : Option Nat) :
    s.produce p edge tag b tb = s := by
  unfold Dev.produce
  rw [h]
  rfl

theorem Dev.delivery_of_one {s : Dev} {f : Flight} {c : Consumer} (hf : s.slc.flights = [f]) (hc : s.slc.coming = [])
    (hd : f.dest = [c]) (hlines : s.linesOf f.prod = []) :
    s.delivery = (s.withSlc (s.slc.delivered f)).consume (f.edge + 2) [f] c := by
  have hnext : Dev.captureNext s.slc.coming.length s = s := by rw [hc]; rfl
  have hto : s.capturesTo (f.edge + 2) = s.withSlc { s.slc with coming := [] } := by
    unfold Dev.capturesTo
    rw [hc]
    simp only [List.filter_nil, List.mergeSort_nil]
    rfl
  have hleast : leastEdge (s.slc.flights.map (·.edge)) = some f.edge := by rw [hf]; rfl
  have hdue : (s.withSlc { s.slc with coming := [] }).slc.flights.filter (fun g => g.edge = f.edge) = [f] := by
    rw [show (s.withSlc { s.slc with coming := [] }).slc.flights = [f] from hf]
    simp
  have hleft : (s.withSlc { s.slc with coming := [] }).slc.flights.filter (fun g => g.edge ≠ f.edge) = [] := by
    rw [show (s.withSlc { s.slc with coming := [] }).slc.flights = [f] from hf]
    simp
  have hdests : ([f].flatMap (·.dest)).eraseDups = [c] := by
    rw [List.flatMap_cons, hd]
    rfl
  have hprod : ∀ t : Dev, t.regs = s.regs →
      (match f.line with
        | .loc q l => t.produce { kind := 10, sub := l, index := q } (f.edge + 2) f.tag f.by_ f.tbus
        | .global n => t.produce { kind := 11, sub := 0, index := n } (f.edge + 2) f.tag f.by_ f.tbus) = t := fun t ht => by
    have hnone : t.linesOf f.prod = [] := by
      unfold Dev.linesOf at hlines ⊢
      rw [ht]
      exact hlines
    unfold Flight.prod at hnone
    cases hline : f.line with
    | loc q l =>
      rw [hline] at hnone
      exact Dev.produce_of_unused hnone _ _ _ _
    | global n =>
      rw [hline] at hnone
      exact Dev.produce_of_unused hnone _ _ _ _
  unfold Dev.delivery
  dsimp only
  rw [hnext, hleast]
  dsimp only
  rw [hto, hdue, hleft]
  unfold Dev.deliverAt
  dsimp only
  rw [hdests]
  exact congrArg (fun t : Dev => t.consume (f.edge + 2) [f] c) (hprod (s.withSlc (s.slc.delivered f)) rfl)

theorem Dev.delivery_of_none {s : Dev} (hf : s.slc.flights = []) (hc : s.slc.coming = []) : s.delivery = s := by
  have hnext : Dev.captureNext s.slc.coming.length s = s := by rw [hc]; rfl
  unfold Dev.delivery
  dsimp only
  rw [hnext, hf]
  rfl

/-- An engine's WAITE without Y takes the one event (R277, R280, R283). -/
theorem Dev.consume_of_wait {s : Dev} {e : Nat} {f : Flight} {l : Line} (hd : f.dest = [.wait e]) (ht : f.tag ≠ e)
    (hb : f.by_ ≠ .eng e) (hr : (s.eng e).st = .running) (hph : (s.eng e).phase = .waiting) (hm : (s.eng e).mid = false)
    (hu : ∀ c, (s.eng e).u = some c → c.sh = []) (hy : (s.eng e).waitY = false) (hw : (s.eng e).wait = some l)
    (ha : (s.eng e).arrived = false) (d : Nat) : s.consume d [f] (.wait e) = s.waitDone e false := by
  have hnow : (s.eng e).waitNow = (some l, false) := by
    unfold Eng.waitNow
    cases hue : (s.eng e).u with
    | none => rw [← hw, ← ha]; rfl
    | some c =>
      rw [Option.bind_some, hu c hue, ← hw, ← ha]
      rfl
  have hmine : [f].filter (fun f => f.dest.contains (Consumer.wait e)) = [f] := by simp [hd]
  have hdrop : loopDrop (.wait e) f = false := by simp [loopDrop, ht, hb]
  have hkept : [f].filter (fun f => !loopDrop (.wait e) f) = [f] := by simp [hdrop]
  have hpresent : s.present (.wait e) = true := by
    show (s.eng e).waitNow.1.isSome = true
    rw [hnow]
    rfl
  have hfree : s.busy (.wait e) = false := by
    show (s.eng e).waitNow.2 = false
    rw [hnow]
  have htakes : s.waitTakes e = s.waitDone e false := if_pos (by simp [hr, hph, hm, hy])
  unfold Dev.consume
  dsimp only
  rw [hmine, hkept, if_neg (by rw [hpresent]; decide), if_neg (by simp), if_neg (by simp)]
  exact (if_neg (by rw [hfree]; decide)).trans htakes

/-! ### The trigger bus (R284) -/

theorem Dev.tbusLine_setTbus_self (s : Dev) (n : Nat) (x : Tbus) : (s.setTbus n x).tbusLine n = x := Tab.get_set_self _ _ _ _

theorem Dev.tbusLine_setTbus_of_ne (s : Dev) {n m : Nat} (h : m ≠ n) (x : Tbus) : (s.setTbus n x).tbusLine m = s.tbusLine m :=
  Tab.get_set_of_ne _ h _ _

/-- Settles O38: the one event reaches the wait it ends; a pulse's end and the line's rise write that line alone. -/
theorem deliveriesEndWaits : Obligations.DeliveriesEndWaits := by
  intro s
  refine ⟨fun f e hf hc hd ht hb hr hph hm hu hy hw ha hp hglob hloc => ?_, fun hf hc => ?_, fun n => ⟨?_, fun pos => ?_⟩⟩
  · have hlines : s.linesOf f.prod = [] := by
      unfold Flight.prod
      cases hline : f.line with
      | global n => exact hglob n hline
      | loc q n => exact hloc q n hline
    have hrun : s.delivery = (s.withSlc (s.slc.delivered f)).waitDone e false :=
      (Dev.delivery_of_one hf hc hd hlines).trans 
        (Dev.consume_of_wait (s := s.withSlc (s.slc.delivered f)) hd ht hb hr hph hm hu hy hw ha (f.edge + 2))
    have hends := Dev.waitDone_ends (s := s.withSlc (s.slc.delivered f)) (e := e) hp false
    have hslc : ((s.withSlc (s.slc.delivered f)).waitDone e false).slc = s.slc.delivered f := by
      have := hends.rest
      unfold Dev.RegFrame at this
      exact congrArg Dev.slc this
    refine ⟨_, State.run_to (f := Dev.delivery) hrun, by rw [hslc]; rfl, ?_, hends.pc, hends.flag, ?_, hends.others, hends.cards, ?_⟩
    · rw [hslc]
      exact Tab.get_set_self (fun _ => 0) (lineKey f.line) (f.edge + 2 + 1) s.slc.gates
    · rw [hends.eng]
      exact Eng.disarmed hy ha
    · have := hends.rest
      unfold Dev.RegFrame at this
      exact congrArg (fun t : Dev => { t with slc := s.slc }) this
  · exact State.run_to (f := Dev.delivery) (Dev.delivery_of_none hf hc)
  · exact ⟨_, rfl, Dev.tbusLine_setTbus_self _ _ _, fun m hm => Dev.tbusLine_setTbus_of_ne _ hm _, rfl⟩
  · exact ⟨_, rfl, Dev.tbusLine_setTbus_self _ _ _, fun m hm => Dev.tbusLine_setTbus_of_ne _ hm _, rfl⟩

end Sys2Proof.Machine
end

section
/-! PROOFS. O39: samples in the chains, captures that end, and the synchronising pin (R221-R247). -/

namespace Sys2Proof.Machine

/-! ### The acquisition unit's work -/

/-- An acquisition unit's work: its entry, memory, cards but the chains' STATUS, and the sluice. -/
structure Dev.AcqFrame (s t : Dev) : Prop where
  only   : ∃ r m a x, t = { s with regs := r, mem := m, acqs := a, slc := x }
  status : ∀ k, t.rd (aCh k 0x114) = s.rd (aCh k 0x114)

theorem aCh_status_ne_aQuad (k q : Nat) {o : Nat} (h : o < 0x1000) : aCh k 0x114 ≠ aQuad q o := by
  unfold aCh aQuad
  omega

namespace Dev.AcqFrame

theorem refl (s : Dev) : Dev.AcqFrame s s := ⟨⟨_, _, _, _, rfl⟩, fun _ => rfl⟩

theorem trans {s t u : Dev} (h : Dev.AcqFrame s t) (k : Dev.AcqFrame t u) : Dev.AcqFrame s u := by
  obtain ⟨⟨_, _, _, _, rfl⟩, hc⟩ := h
  obtain ⟨⟨_, _, _, _, rfl⟩, kc⟩ := k
  exact ⟨⟨_, _, _, _, rfl⟩, fun n => (kc n).trans (hc n)⟩

theorem setAcq (s : Dev) (q : Nat) (a : Acq) : Dev.AcqFrame s (s.setAcq q a) := ⟨⟨_, _, _, _, rfl⟩, fun _ => rfl⟩

theorem wr (s : Dev) (q : Nat) {o : Nat} (v : W) (h : o < 0x1000) : Dev.AcqFrame s (s.wr (aQuad q o) v) :=
  ⟨⟨_, _, _, _, rfl⟩, fun k => Dev.rd_wr_of_ne s (aCh_status_ne_aQuad k q h) v⟩

theorem setFld (s : Dev) (q : Nat) {o : Nat} (hi lo x : Nat) (h : o < 0x1000) : Dev.AcqFrame s (s.setFld (aQuad q o) hi lo x) :=
  wr s q _ h

theorem setWord (s : Dev) (a : Nat) (v : W) : Dev.AcqFrame s (s.setWord a v) := ⟨⟨_, _, _, _, rfl⟩, fun _ => rfl⟩

theorem produce (s : Dev) (p : Prod) (edge tag : Nat) (b : Block) (tb : Option Nat) :
    Dev.AcqFrame s (s.produce p edge tag b tb) := by
  obtain ⟨⟨r, x, h⟩, hc⟩ := Dev.SlcFrame.produce s p edge tag b tb
  exact ⟨⟨r, s.mem, s.acqs, x, h⟩, fun k => hc _ (.inr (by have := aCh_page k 0x114; omega))⟩

theorem finish (s : Dev) (q pos : Nat) : Dev.AcqFrame s (s.acqFinish q pos) := by
  unfold Dev.acqFinish
  dsimp only
  split
  · exact ((setAcq s q _).trans (wr _ q _ (by omega))).trans (produce _ _ _ _ _ _)
  · exact refl s

theorem trigger (s : Dev) (q pos cause : Nat) (o : Out) : Dev.AcqFrame s (s.acqTrigger q pos cause o) := by
  unfold Dev.acqTrigger Dev.wrFrame
  extract_lets a pre t s1 early s2 s3 s4 s5 c s6 s7 tag s8
  have h1 : Dev.AcqFrame s s1 := (setFld s q _ _ _ (by omega)).trans (setFld _ q _ _ _ (by omega))
  have h2 : Dev.AcqFrame s s2 := h1.trans (wr s1 q _ (by omega))
  have h3 : Dev.AcqFrame s s3 := (h2.trans (wr s2 q _ (by omega))).trans (wr _ q _ (by omega))
  have h4 : Dev.AcqFrame s s4 := (h3.trans (wr s3 q _ (by omega))).trans (setFld _ q _ _ _ (by omega))
  have h5 : Dev.AcqFrame s s5 := h4.trans (wr s4 q _ (by omega))
  have h6 : Dev.AcqFrame s s6 := (h5.trans (wr s5 q _ (by omega))).trans (wr _ q _ (by omega))
  have h7 : Dev.AcqFrame s s7 := h6.trans (wr s6 q _ (by omega))
  exact (h7.trans (setAcq s7 q _)).trans (produce s8 _ _ _ _ _)

theorem record (s : Dev) (q : Nat) : Dev.AcqFrame s (s.writeRecord q) := by
  unfold Dev.writeRecord
  extract_lets a w s1 i s2
  have h1 : Dev.AcqFrame s s1 := (setWord s _ _).trans (setWord _ _ _)
  exact (h1.trans (wr s1 q _ (by omega))).trans (setAcq s2 q _)

theorem output (s : Dev) (q pos : Nat) (o : Out) : Dev.AcqFrame s (s.acqOutput q pos o) := by
  unfold Dev.acqOutput
  extract_lets s1 a here r cause s2 s3 s4
  have h1 : Dev.AcqFrame s s1 := finish s q pos
  have h2 : Dev.AcqFrame s s2 := h1.trans (setAcq s1 q _)
  have h3 : Dev.AcqFrame s s3 := by
    unfold s3
    split
    · exact h2.trans (trigger s2 q pos cause o)
    · exact h2
  have h4 : Dev.AcqFrame s s4 := h3.trans (setAcq s3 q _)
  split
  · exact h1
  · split
    · exact h3
    · split
      · exact h4.trans (record s4 q)
      · exact h4

theorem toAcq (s : Dev) (c pos : Nat) (o : Out) : Dev.AcqFrame s (s.toAcq c pos o) := by
  unfold Dev.toAcq
  dsimp only
  split
  · exact output s _ pos o
  · exact refl s

theorem chain {s t : Dev} (h : Dev.AcqFrame s t) (k : Nat) : t.chain k = s.chain k := by
  obtain ⟨⟨_, _, _, _, rfl⟩, -⟩ := h
  rfl

end Dev.AcqFrame

/-! ### The chain of a sample -/

/-- What a chain counts and integrates. -/
structure Chain.SameCounts (h k : Chain) : Prop where
  n     : k.n = h.n
  held  : k.held = h.held
  integ : k.integ = h.integ
  j     : k.j = h.j

theorem Chain.SameCounts.trans {h k l : Chain} (a : h.SameCounts k) (b : k.SameCounts l) : h.SameCounts l :=
  ⟨b.n.trans a.n, b.held.trans a.held, b.integ.trans a.integ, b.j.trans a.j⟩

theorem Chain.endFade_counts (h : Chain) : h.SameCounts h.endFade := by
  have hfade : ∀ g : Chain, g.SameCounts (match g.fade, g.pendXf with
      | none, some x => { g with fade := some (0, 16 * 2 ^ x), pendXf := none }
      | _, _ => g) := fun g => by
    split <;> exact ⟨rfl, rfl, rfl, rfl⟩
  unfold Chain.endFade
  refine Chain.SameCounts.trans ?_ (hfade _)
  split
  · split <;> exact ⟨rfl, rfl, rfl, rfl⟩
  · exact ⟨rfl, rfl, rfl, rfl⟩

theorem Dev.firOut_counts (s : Dev) (c : Nat) (h : Chain) : h.SameCounts (s.firOut c h).2.2 := by
  unfold Dev.firOut
  dsimp only
  split <;> exact ⟨rfl, rfl, rfl, rfl⟩

theorem Dev.chain_onChain_self (s : Dev) (c : Nat) (f : Chain → Chain) : (s.onChain c f).chain c = f (s.chain c) :=
  Dev.chain_setChain_self s c _

/-- A kind 3 MEAS at a sample: the circuit and, with an output, the chain's sum. -/
structure Dev.MeasFrame (c : Nat) (s t : Dev) : Prop where
  only   : ∃ h x, t = { s with chains := h, circs := x }
  others : ∀ k, k ≠ c → t.chain k = s.chain k
  counts : (s.chain c).SameCounts (t.chain c)
  outF   : (t.chain c).outF = (s.chain c).outF

theorem Dev.MeasFrame.refl (c : Nat) (s : Dev) : Dev.MeasFrame c s s := ⟨⟨_, _, rfl⟩, fun _ _ => rfl, ⟨rfl, rfl, rfl, rfl⟩, rfl⟩

theorem Dev.MeasFrame.measSample (c : Nat) (s : Dev) (pos : Nat) (y : Option Int) : Dev.MeasFrame c s (s.measSample c pos y) := by
  have hcirc : ∀ x, Dev.MeasFrame c s (s.setCirc c x) := fun x => ⟨⟨_, _, rfl⟩, fun _ _ => rfl, ⟨rfl, rfl, rfl, rfl⟩, rfl⟩
  unfold Dev.measSample
  split
  · exact Dev.MeasFrame.refl c s
  · split
    · exact Dev.MeasFrame.refl c s
    · extract_lets s1
      split
      next v =>
        split
        · have hself := s1.chain_onChain_self c (fun h => { h with acc := h.acc + v, accN := h.accN + 1 })
          refine ⟨⟨_, _, rfl⟩, fun k hk => Dev.chain_setChain_of_ne s1 hk _, ?_, (congrArg Chain.outF hself).trans rfl⟩
          exact ⟨(congrArg Chain.n hself).trans rfl, (congrArg Chain.held hself).trans rfl, (congrArg Chain.integ hself).trans rfl,
            (congrArg Chain.j hself).trans rfl⟩
        · exact hcirc _
      · exact hcirc _

/-- With no output the chain's sums stand. -/
theorem Dev.measSample_none_only (s : Dev) (c pos : Nat) : ∃ x, s.measSample c pos none = { s with circs := x } := by
  unfold Dev.measSample
  split
  · exact ⟨_, rfl⟩
  · split
    · exact ⟨_, rfl⟩
    · exact ⟨_, rfl⟩

/-- What a sample of a chain leaves, with h the chain that took it. -/
structure Dev.SampleIn (c : Nat) (h : Chain) (s t : Dev) : Prop where
  only   : ∃ r m a x g i, t = { s with regs := r, mem := m, acqs := a, slc := x, chains := g, circs := i }
  others : ∀ k, k ≠ c → t.chain k = s.chain k
  n      : (t.chain c).n = h.n
  held   : (t.chain c).held = h.held
  integ  : (t.chain c).integ = h.integ
  status : ∀ i, i < 31 → s.bit (aCh c 0x114) i = true → t.bit (aCh c 0x114) i = true

/-- An output that the sample completes (R225). -/
theorem Dev.sampleIn_chainOut (s : Dev) (c pos : Nat) (h : Chain) (x : Int) (taken clip settled : Bool) :
    Dev.SampleIn c h s (s.chainOut c pos h x taken clip settled) ∧
    ((s.chainOut c pos h x taken clip settled).chain c).j = h.j + 1 := by
  unfold Dev.chainOut
  extract_lets p h1 xf f d valid sat o h2 s1 s2
  have hcounts : h.SameCounts f.2.2 :=
    Chain.SameCounts.trans (Chain.SameCounts.trans (k := { h with line := (x :: h.line).take 64 }) ⟨rfl, rfl, rfl, rfl⟩
      (Chain.endFade_counts _)) (s.firOut_counts c h1)
  have hj : h1.j = h.j := (Chain.endFade_counts { h with line := (x :: h.line).take 64 }).j
  have hself : s1.chain c = { h2 with
      m := d.2.2, outF := f.1, outY := d.1, valid := valid, sat := sat, taken := taken, xf := xf, j := h1.j + 1, restarted := false } :=
    Dev.chain_setChain_self s c _
  have hothers : ∀ k, k ≠ c → s1.chain k = s.chain k := fun k hk => Dev.chain_setChain_of_ne s hk _
  have honly : ∃ g, s1 = { s with chains := g } := ⟨_, rfl⟩
  have hs : (∃ r, s2 = { s1 with regs := r }) ∧
      (∀ i, i < 31 → s1.bit (aCh c 0x114) i = true → s2.bit (aCh c 0x114) i = true) := by
    unfold s2
    split
    · refine ⟨⟨_, rfl⟩, fun i _ hb => ?_⟩
      rw [Dev.bit, Dev.rd_setBits_self, W.bit_or]
      exact Bool.or_eq_true_iff.mpr (.inl hb)
    · exact ⟨⟨_, rfl⟩, fun _ _ hb => hb⟩
  have hmeas := Dev.MeasFrame.measSample c s2 pos (if valid then some d.1 else none)
  generalize s2.measSample c pos (if valid then some d.1 else none) = s3 at hmeas
  have hacq := Dev.AcqFrame.toAcq s3 c pos o
  generalize s3.toAcq c pos o = t at hacq
  clear_value s1 s2
  obtain ⟨g, rfl⟩ := honly
  obtain ⟨⟨r, hs2⟩, hbits⟩ := hs
  have hchain2 : ∀ k, s2.chain k = ({ s with chains := g } : Dev).chain k := fun k => by rw [hs2]; rfl
  have hmine : t.chain c = s3.chain c := hacq.chain c
  have hc3 := hmeas.counts
  rw [hchain2 c, hself] at hc3
  refine ⟨⟨?_, fun k hk => ?_, ?_, ?_, ?_, fun i hi hb => ?_⟩, ?_⟩
  · obtain ⟨⟨_, _, _, _, rfl⟩, -⟩ := hacq
    obtain ⟨⟨_, _, rfl⟩, -, -, -⟩ := hmeas
    rw [hs2]
    exact ⟨_, _, _, _, _, _, rfl⟩
  · exact ((hacq.chain k).trans (hmeas.others k hk)).trans ((hchain2 k).trans (hothers k hk))
  · rw [hmine]
    exact hc3.n.trans hcounts.n
  · rw [hmine]
    exact hc3.held.trans hcounts.held
  · rw [hmine]
    exact hc3.integ.trans hcounts.integ
  · have hkeep : t.rd (aCh c 0x114) = s2.rd (aCh c 0x114) := by
      rw [hacq.status c]
      obtain ⟨⟨_, _, rfl⟩, -, -, -⟩ := hmeas
      rfl
    exact (Dev.bit_congr hkeep i).trans (hbits i hi hb)
  · rw [hmine]
    exact hc3.j.trans (congrArg (· + 1) hj)

/-- The code that enters the chain (R224). -/
def Dev.sampleOf (s : Dev) (c pos : Nat) (code : BitVec 16) (clip : Bool) : Int :=
  if s.taking c pos then (s.chain c).held else if clip then (if code.toInt < 0 then -32768 else 32767) else code.toInt

/-- CLIP and TAKEN of a sample shown (R224). -/
def Dev.sampleShown (s : Dev) (c : Nat) (clip taking : Bool) : Dev :=
  let s := if clip && !taking then s.setBits (aCh c 0x114) 0x40000000 else s
  if taking then s.setBits (aCh c 0x114) 0x20000000 else s

theorem Dev.sampleShown_only (s : Dev) (c : Nat) (clip taking : Bool) : ∃ r, s.sampleShown c clip taking = { s with regs := r } := by
  cases clip <;> cases taking <;> exact ⟨_, rfl⟩

theorem Dev.bit_sampleShown (s : Dev) (c : Nat) (clip taking : Bool) :
    (clip = true → taking = false → (s.sampleShown c clip taking).bit (aCh c 0x114) 30 = true) ∧
    (taking = true → (s.sampleShown c clip taking).bit (aCh c 0x114) 29 = true) := by
  refine ⟨fun hc ht => ?_, fun ht => ?_⟩
  · subst hc ht
    exact Dev.bit_setBits_self s _ 30 _ (by decide)
  · subst ht
    exact Dev.bit_setBits_self _ _ 29 _ (by decide)

/-- The chain that has taken a sample, before any output. -/
def Dev.sampledChain (s : Dev) (c : Nat) (x : Int) (tl cl : Nat) : Chain :=
  { s.chain c with
    integ := integrate (BitVec.ofInt 56 x) (s.chain c).integ, n := (s.chain c).n + 1, since := min 69632 ((s.chain c).since + 1),
    takenLeft := tl - 1, clipLeft := cl - 1, held := x }

/-- A conversion that completes an output, and one that does not. -/
theorem Dev.adcSample_eq {s : Dev} (h : s.sys.mode.enables 7 = true) (c pos : Nat) (code : BitVec 16) (clip : Bool) :
    ∃ tl cl y x b₁ b₂ b₃,
      s.adcSample c pos code clip =
        if ((s.chain c).n + 1) % s.decim c = 0 then
          (s.sampleShown c clip (s.taking c pos)).chainOut c pos
            { s.sampledChain c (s.sampleOf c pos code clip) tl cl with comb := y } x b₁ b₂ b₃
        else ((s.sampleShown c clip (s.taking c pos)).setChain c (s.sampledChain c (s.sampleOf c pos code clip) tl cl)).measSample
          c pos none := by
  let x := s.sampleOf c pos code clip
  let y := combs ((integrate (BitVec.ofInt 56 x) (s.chain c).integ).getLastD 0) (s.chain c).comb
  let tl := if s.taking c pos then 68 * s.decim c else (s.chain c).takenLeft
  let cl := if clip && !s.taking c pos then 68 * s.decim c else (s.chain c).clipLeft
  exact ⟨tl, cl, y.1, y.2.toInt / 2 ^ (4 * clog2 (s.decim c)), decide (0 < tl), decide (0 < cl),
    decide (68 * s.decim c ≤ (s.chain c).since), if_neg (by rw [h]; decide)⟩

/-- What a sample leaves of its chain and the rest (R221-R225). -/
theorem Dev.adcSample_in {s : Dev} (h : s.sys.mode.enables 7 = true) (c pos : Nat) (code : BitVec 16) (clip : Bool) :
    (∃ tl cl, Dev.SampleIn c (s.sampledChain c (s.sampleOf c pos code clip) tl cl) (s.sampleShown c clip (s.taking c pos))
      (s.adcSample c pos code clip)) ∧
    (((s.chain c).n + 1) % s.decim c = 0 → ((s.adcSample c pos code clip).chain c).j = (s.chain c).j + 1) ∧
    (((s.chain c).n + 1) % s.decim c ≠ 0 → ((s.adcSample c pos code clip).chain c).j = (s.chain c).j ∧
      ((s.adcSample c pos code clip).chain c).outF = (s.chain c).outF ∧
      ∃ g r x, s.adcSample c pos code clip = { s with chains := g, regs := r, circs := x }) := by
  obtain ⟨tl, cl, y, x, b₁, b₂, b₃, hrun⟩ := Dev.adcSample_eq h c pos code clip
  obtain ⟨r, hshown⟩ := s.sampleShown_only c clip (s.taking c pos)
  by_cases hout : ((s.chain c).n + 1) % s.decim c = 0
  · rw [if_pos hout] at hrun
    obtain ⟨hin, hj⟩ := (s.sampleShown c clip (s.taking c pos)).sampleIn_chainOut c pos
      { s.sampledChain c (s.sampleOf c pos code clip) tl cl with comb := y } x b₁ b₂ b₃
    rw [hrun]
    exact ⟨⟨tl, cl, hin.only, hin.others, hin.n, hin.held, hin.integ, hin.status⟩, fun _ => hj, fun hne => absurd hout hne⟩
  · rw [if_neg hout] at hrun
    obtain ⟨z, hmeas⟩ := ((s.sampleShown c clip (s.taking c pos)).setChain c
      (s.sampledChain c (s.sampleOf c pos code clip) tl cl)).measSample_none_only c pos
    have hself : (s.adcSample c pos code clip).chain c = s.sampledChain c (s.sampleOf c pos code clip) tl cl := by
      rw [hrun, hmeas]
      exact Dev.chain_setChain_self _ c _
    refine ⟨⟨tl, cl, ?_, fun k hk => ?_, congrArg Chain.n hself, congrArg Chain.held hself, congrArg Chain.integ hself,
      fun i _ hb => ?_⟩, fun he => absurd he hout, fun _ => ⟨(congrArg Chain.j hself).trans rfl,
      (congrArg Chain.outF hself).trans rfl, ?_⟩⟩
    · rw [hrun, hmeas]
      exact ⟨_, _, _, _, _, _, rfl⟩
    · rw [hrun, hmeas]
      exact Dev.chain_setChain_of_ne _ hk _
    · rw [hrun, hmeas]
      exact hb
    · rw [hrun, hmeas, hshown]
      exact ⟨_, _, _, rfl⟩

theorem exec_adcSample (s : State) (c : Fin 720) (pos : Pos) (code : BitVec 16) (clip : Bool) :
    exec (.adcSample c pos code clip) s = .next { s with toDev := s.adcSample c pos.toNat code clip } := rfl

/-! ### A capture that ends, and the synchronising pin -/

theorem exec_acqDone (s : State) (q : Fin 144) (pos : Pos) :
    exec (.acqDone q pos) s = .next { s with toDev := s.acqFinish q pos.toNat } := rfl

/-- The capture reads DONE. -/
def Dev.acqEnded (s : Dev) (q : Nat) : Dev := (s.setAcq q { s.acq q with st := .done }).setBits (aQuad q 0x104) 0x08000000

theorem Dev.acqFinish_of_last {s : Dev} {q : Nat} (hp : (s.acq q).st = .post) (hl : (s.acq q).left = 0) (pos : Nat) :
    s.acqFinish q pos = (s.acqEnded q).produce { kind := 4, sub := 1, index := q } (s.edgeAt pos) (s.acq q).tagTrig (.acq q) none :=
  if_pos (by rw [hp, hl]; rfl)

theorem Dev.acqFinish_of_running {s : Dev} {q : Nat} (h : (s.acq q).st ≠ .post ∨ (s.acq q).left ≠ 0) (pos : Nat) :
    s.acqFinish q pos = s := if_neg (by rcases h with h | h <;> simp [h])

/-- The request of the synchronising pin, noted with its source and position (R233, R234). -/
def Dev.pinNoted (s : Dev) (pos : Nat) : Dev :=
  let u := (s.setFld (aFrm 0x8C) 25 24 1).setFld (aFrm 0x8C) 19 0 pos
  if pos ≤ 16 || u.flen - pos ≤ 16 then u.setBits (aFrm 0x8C) 0x80000000 else u

/-- The row of the synchronising pin. -/
def Dev.pinRow (s : Dev) (pos : Nat) : Dev := if s.bit (aFrm 0x80) 0 then s.syncRequest 1 pos else s

theorem exec_dsyncPinEdge (s : State) (pos : Pos) :
    exec (.dsyncPinEdge pos) s = .next { s with toDev := s.pinRow pos.toNat } := rfl

/-- Only cards differ. -/
def Dev.CardsOnly (s t : Dev) : Prop := ∃ r, t = { s with regs := r }

theorem Dev.CardsOnly.refl (s : Dev) : s.CardsOnly s := ⟨_, rfl⟩

theorem Dev.CardsOnly.wr {s t : Dev} (h : s.CardsOnly t) (a : Nat) (v : W) : s.CardsOnly (t.wr a v) := by
  obtain ⟨r, rfl⟩ := h
  exact ⟨_, rfl⟩

theorem Dev.CardsOnly.setFld {s t : Dev} (h : s.CardsOnly t) (a hi lo x : Nat) : s.CardsOnly (t.setFld a hi lo x) := h.wr a _

theorem Dev.CardsOnly.setBits {s t : Dev} (h : s.CardsOnly t) (a : Nat) (m : W) : s.CardsOnly (t.setBits a m) := h.wr a _

theorem Dev.pinNoted_regs (s : Dev) (pos : Nat) : s.CardsOnly (s.pinNoted pos) := by
  have h := ((Dev.CardsOnly.refl s).setFld (aFrm 0x8C) 25 24 1).setFld (aFrm 0x8C) 19 0 pos
  unfold Dev.pinNoted
  dsimp only
  split
  · exact h.setBits _ _
  · exact h

/-- The request of the pin stands for its tick (R233, R234). -/
def Dev.pinAsked (s : Dev) (pos : Nat) : Dev :=
  { s.pinNoted pos with clk := { s.clk with resets := s.clk.resets ++ [(frameMod (s.clk.frame + 2), 1)] } }

theorem Dev.pinRow_of_on {s : Dev} (hb : s.bit (aFrm 0x80) 0 = true) (hm : s.sys.mode.enables 7 = true) (pos : Nat) :
    s.pinRow pos = s.pinAsked pos := by
  obtain ⟨r, hr⟩ := s.pinNoted_regs pos
  have hclk : (s.pinNoted pos).clk = s.clk := by rw [hr]
  have hrow : s.pinRow pos = { s.pinNoted pos with clk := { (s.pinNoted pos).clk with
      resets := (s.pinNoted pos).clk.resets ++ [(frameMod ((s.pinNoted pos).clk.frame + 2), 1)] } } :=
    (if_pos hb).trans (if_neg (by rw [hm]; decide))
  rw [hrow, hclk]
  rfl

/-- The request's source, position and NEAR (R234). -/
theorem Dev.pinNoted_shows (s : Dev) {pos : Nat} (h : pos < 2 ^ 20) :
    (s.pinNoted pos).fld (aFrm 0x8C) 25 24 = 1 ∧ (s.pinNoted pos).fld (aFrm 0x8C) 19 0 = pos ∧
    (pos ≤ 16 ∨ s.flen - pos ≤ 16 → (s.pinNoted pos).bit (aFrm 0x8C) 31 = true) ∧ s.Cards (s.pinNoted pos) [aFrm 0x8C] := by
  have hsrc : ((s.setFld (aFrm 0x8C) 25 24 1).setFld (aFrm 0x8C) 19 0 pos).fld (aFrm 0x8C) 25 24 = 1 := by
    rw [Dev.fld_setFld_of_ne _ (by omega) (by omega) (by omega), Dev.fld_setFld_self _ (by omega) (by omega)]
    rfl
  have hpos : ((s.setFld (aFrm 0x8C) 25 24 1).setFld (aFrm 0x8C) 19 0 pos).fld (aFrm 0x8C) 19 0 = pos := by
    rw [Dev.fld_setFld_self _ (by omega) (by omega)]
    exact Nat.mod_eq_of_lt h
  have hcards : s.Cards ((s.setFld (aFrm 0x8C) 25 24 1).setFld (aFrm 0x8C) 19 0 pos) [aFrm 0x8C] :=
    ((Dev.Cards.refl s _).setFld (by simp) _ _ _).setFld (by simp) _ _ _
  have hflen : ((s.setFld (aFrm 0x8C) 25 24 1).setFld (aFrm 0x8C) 19 0 pos).flen = s.flen := by
    unfold Dev.flen
    rw [Dev.fld_congr (hcards (aFrm 4) (by decide))]
  have hmask : ∀ (u : Dev) hi lo, hi < 31 → (u.setBits (aFrm 0x8C) 0x80000000).fld (aFrm 0x8C) hi lo = u.fld (aFrm 0x8C) hi lo :=
    fun u hi lo hh => by
      rw [Dev.fld, Dev.rd_setBits_self]
      refine W.fld_congr fun i _ hi' => ?_
      have hm : (0x80000000 : W).bit i = false := by
        have : i < 31 := by omega
        interval_cases i <;> rfl
      rw [W.bit_or, hm, Bool.or_false]
  unfold Dev.pinNoted
  dsimp only
  rw [hflen]
  split
  · exact ⟨(hmask _ 25 24 (by omega)).trans hsrc, (hmask _ 19 0 (by omega)).trans hpos,
      fun _ => Dev.bit_setBits_self _ _ 31 _ (by decide), hcards.setBits (by simp) _⟩
  next hnear =>
    exact ⟨hsrc, hpos, fun h => absurd h (by simpa using hnear), hcards⟩

/-- Settles O39: the chain through its output, the capture's end, and the pin's request. -/
theorem samplesEnterTheChains : Obligations.SamplesEnterTheChains := by
  intro s
  refine ⟨fun c pos code clip hm => ?_, fun c pos code clip hm => ?_, fun q pos hp hl => ?_, fun q pos h => ?_,
    fun pos hb hm => ?_, fun pos hb hm => ?_, fun pos hb => ?_⟩
  · obtain ⟨⟨tl, cl, hin⟩, hout, hno⟩ := Dev.adcSample_in hm c pos.toNat code clip
    obtain ⟨hclip, htaken⟩ := s.bit_sampleShown c clip (s.taking c pos.toNat)
    obtain ⟨r, hshown⟩ := s.sampleShown_only c clip (s.taking c pos.toNat)
    obtain ⟨r', m, a, x, g, i, honly⟩ := hin.only
    rw [hshown] at honly
    refine ⟨_, exec_adcSample s c pos code clip, hin.n, hin.held, hin.integ, fun k hk => ?_,
      fun h h' => hin.status 30 (by omega) (hclip h h'), fun h => hin.status 29 (by omega) (htaken h), hout, fun h => ?_,
      by rw [honly], by rw [honly], by rw [honly], by rw [honly]⟩
    · rw [hin.others k hk, hshown]
      rfl
    · obtain ⟨hj, hf, g', r'', x', hrest⟩ := hno h
      exact ⟨hj, hf, by rw [hrest]⟩
  · exact (exec_adcSample s c pos code clip).trans (by rw [show s.adcSample c pos.toNat code clip = s.toDev from
      if_pos (by rw [hm]; rfl)])
  · have hrun := Dev.acqFinish_of_last hp hl pos.toNat
    obtain ⟨⟨r, x, honly⟩, hcards⟩ := Dev.SlcFrame.produce (s.acqEnded q) { kind := 4, sub := 1, index := q } (s.edgeAt pos.toNat)
      (s.acq q).tagTrig (.acq q) none
    rw [← hrun] at honly hcards
    refine ⟨_, exec_acqDone s q pos, ?_, ?_, fun k hk => ?_, ?_⟩
    · rw [honly]
      exact Dev.acq_setAcq_self s.toDev q { s.acq q with st := .done }
    · exact (Dev.bit_congr (hcards _ (.inr (by unfold aQuad; omega))) 27).trans (Dev.bit_setBits_self _ _ 27 _ (by decide))
    · rw [honly]
      exact Dev.acq_setAcq_of_ne s.toDev hk { s.acq q with st := .done }
    · rw [honly]
      rfl
  · rw [exec_acqDone, Dev.acqFinish_of_running h]
  · obtain ⟨hsrc, hpos, hnear, hcards⟩ := s.pinNoted_shows pos.isLt
    obtain ⟨r, hr⟩ := s.pinNoted_regs pos.toNat
    refine ⟨s.pinAsked pos.toNat, (exec_dsyncPinEdge s pos).trans (by rw [Dev.pinRow_of_on hb hm]), rfl, hsrc, hpos, hnear,
      hcards, ?_⟩
    unfold Dev.pinAsked
    rw [hr]
  · exact (exec_dsyncPinEdge s pos).trans (by
      rw [show s.pinRow pos.toNat = s.setBits (aFrm 0x8C) 0x40000000 from (if_pos hb).trans (if_pos (by rw [hm]; rfl))])
  · exact (exec_dsyncPinEdge s pos).trans (by
      rw [show s.pinRow pos.toNat = s.toDev from if_neg (by rw [hb]; decide)])

end Sys2Proof.Machine
end

section
/-! PROOFS. The overrun of an engine (R27, R28): O47. -/

namespace Sys2Proof.Machine

/-- Engine 0 runs and has not yielded, and site 0 is bound to it. The table of sites lists site 0 a second time, behind an
entry that equals that of an unlisted site, as no run from reset leaves it. -/
def sitesTwice : State :=
  { State.reset with
    sys := { State.reset.sys with mode := .functional }
    sites := [(0, siteInit), (0, { siteInit with mapped := true })]
    engs := [(0, { engOff with st := .running })] }

/-- Discarding the site's bin writes the entry of an unlisted site, which drops both: the raise of OVERRUN has no aim. -/
theorem sitesTwice_overrun : ((sitesTwice.overrunAll [0]).site 0).voids = none := by decide +kernel

/-- The statement's hypotheses hold of it. -/
theorem sitesTwice_clean : sitesTwice.Clean 5 := ⟨by decide +kernel, rfl⟩

/-- The overrun of an engine, counted (R27, R28). -/
def Dev.overrunCounted (s : Dev) (e : Nat) : Dev :=
  { s.overrunAll [e] with clk := { (s.overrunAll [e]).clk with overran := (s.overrunAll [e]).clk.overran + 1 } }

theorem Dev.overrunCounted_site (s : Dev) (e i : Nat) : (s.overrunCounted e).site i = (s.overrunAll [e]).site i := rfl

theorem exec_overrun {s : State} {e : Fin 272} (h : s.overruns e = true) :
    exec (.overrun e) s = .next { s with toDev := s.overrunCounted e } :=
  State.run_to (f := fun s =>
    if s.overruns e then
      let s := s.overrunAll [e.val]
      { s with clk := { s.clk with overran := s.clk.overran + 1 } }
    else s) (if_pos h)

/-- Refutes O47: the statement asks of every table of sites that the site of the engine's aim is voided, and in `sitesTwice`
its entry is dropped before the raise looks for the aim. -/
theorem not_engineTimersAct : ¬ Obligations.EngineTimersAct := by
  unfold Obligations.EngineTimersAct
  intro h
  obtain ⟨-, -, hover, -⟩ := h sitesTwice 0
  obtain ⟨t, hexec, -, -, -, -, -, -, -, hclean⟩ := hover (by decide)
  obtain ⟨hvoids, -⟩ := hclean sitesTwice_clean
  have hrun := exec_overrun (s := sitesTwice) (e := 0) (by decide)
  have hdev : t = sitesTwice.overrunCounted 0 := congrArg State.toDev (Host.Outcome.next.inj (hexec.symm.trans hrun))
  have haim : 0 ∈ sitesTwice.engAim 0 := by decide
  have hnoted := (hvoids.noted 0 haim).1
  rw [hdev, Dev.overrunCounted_site, sitesTwice_overrun] at hnoted
  exact absurd hnoted (by simp)

end Sys2Proof.Machine
end

section
/-! PROOFS. The rendezvous time-out (R91, R93): O48. -/

namespace Sys2Proof.Machine

/-- Site 0 waits with a PLAY that is as old as its player's window lets it be, and an occurrence of class 5 at DEGRADE, with
site 1 in its aim, stands for the tick under way. -/
def joinedAtDegrade : State :=
  { State.reset with
    sys := { State.reset.sys with mode := .functional }
    sites := [(0, { siteInit with mapped := true, member := .home, play := some { seg := 0, age := 15 } }),
      (1, { siteInit with mapped := true })]
    plys := [(0, { plyInit with st := .dwell })]
    flt := { State.reset.flt with joined := [{ cls := 5, lvl := 1, eff := 1, srcs := [(163, [1])] }] } }

/-- The rule of RENDEZVOUS_TIMEOUT. -/
def Dev.rendezvousRow (s : Dev) (i : Nat) : Dev :=
  match s.playerOf i with
  | some y => if s.slotFree y 0xFFFF && (s.agePlay i).tooOld y i then (s.failRdv i).raise (raiseAt srcRdv 2 [i]) else s
  | none => s

theorem exec_rendezvousTimeout (s : State) (i : Fin 256) :
    exec (.rendezvousTimeout i) s = .next { s with toDev := s.rendezvousRow i } := rfl

/-- RDV lifts the occurrence to VOID, and with it the aim of its earlier source: site 1 is voided too (R293). -/
theorem joinedAtDegrade_voids : ((joinedAtDegrade.rendezvousRow 0).site 1).toVoidh = true := by decide +kernel

/-- Refutes O48: the statement asks of every state that the void reaches the one site alone, and in `joinedAtDegrade` an
occurrence of the tick that the raise joins brings its own aim. -/
theorem not_lateSitesLeaveTheirMask : ¬ Obligations.LateSitesLeaveTheirMask := by
  unfold Obligations.LateSitesLeaveTheirMask
  intro h
  obtain ⟨hlate, -⟩ := h joinedAtDegrade 0
  obtain ⟨t, ⟨hexec, -, -, -, -, hothers, -⟩, -⟩ := hlate 0 { seg := 0, age := 15 } (by decide) (by decide) rfl (by decide) (by decide)
  have hdev : t = joinedAtDegrade.rendezvousRow 0 :=
    congrArg State.toDev (Host.Outcome.next.inj (hexec.symm.trans (exec_rendezvousTimeout joinedAtDegrade 0)))
  have hkept : (t.site 1).toVoidh = false := congrArg Site.toVoidh (hothers 1 (by decide))
  rw [hdev, joinedAtDegrade_voids] at hkept
  exact Bool.noConfusion hkept

end Sys2Proof.Machine
end

section
/-! PROOFS. A word of a refused request (R121, R339): O50. A unit that ends (R152, R291): O44. -/

namespace Sys2Proof.Machine

/-- A device in SAFE after link-up. -/
def safeLinked : State :=
  { State.reset with sys := { State.reset.sys with mode := .safe, boot := .done } }

/-- A host request over MSPI. -/
def mspiHdr : Hdr := { via := .mspi, tag := 0 }

/-- The gap behind W4 of PRAM[0]: no register stands there. -/
theorem assigned_pramGap : assigned (aUcs 20) = false := by decide

/-- In SAFE a write of the gap is refused, and leaves no mark: the gap is no register whose refusal UCS.STATUS shows. -/
theorem safeLinked_write : ((safeLinked.toDev.hostWrite mspiHdr (aUcs 20) 4 [0]).bit (aUcs 0x8104) 31) = false := by
  decide +kernel

theorem exec_memWrite (s : State) (h : Hdr) (a : BitVec 40) (n : Nat) (ws : List W) :
    exec (.memWrite h a n ws) s = .next { s with toDev := s.hostWrite h a.toNat n ws } := rfl

/-- Refutes O50: the statement asks WR_REJ for every refused word that lies in the class and the range of PRAM, assigned or
not; in `safeLinked` the write of the unassigned word behind W4 of PRAM[0] is refused and sets nothing. -/
theorem not_memoryRequestsReadAndWrite : ¬ Obligations.MemoryRequestsReadAndWrite := by
  unfold Obligations.MemoryRequestsReadAndWrite
  intro h
  obtain ⟨-, hlinked, -⟩ := h safeLinked mspiHdr (BitVec.ofNat 40 (aUcs 20)) 4
  obtain ⟨-, -, -, -, hwrite⟩ := hlinked (by decide)
  obtain ⟨hrefused, -⟩ := hwrite [0] (by decide) rfl
  obtain ⟨t, hexec, -, hword, -⟩ := hrefused (fun hall => absurd (hall 0 (by decide)) (by decide))
  obtain ⟨-, hmark⟩ := hword 0 (by decide) (by decide)
  have hbit : t.bit (aUcs 0x8104) 31 = true := hmark (by decide) (by decide)
  have hdev : t = safeLinked.toDev.hostWrite mspiHdr (aUcs 20) 4 [0] :=
    congrArg State.toDev (Host.Outcome.next.inj (hexec.symm.trans (exec_memWrite safeLinked mspiHdr _ 4 [0])))
  rw [hdev, safeLinked_write] at hbit
  exact Bool.noConfusion hbit

/-- The unit in play of `linkBroken`: its only pass is over, and a segment with a LINK waits in the next slot. -/
def lastUnit : Machine.PUnit :=
  { seg := { seg := 0, d0 := 0, d1 := 0, d2 := 0, d3 := 0 }, pass := 0, begun := 0x10000, k := 0, got := 0, edges := [] }

/-- Player 0 is at the end of a unit; the LINK of the segment that follows names a descriptor that is not valid, and the class of
the fault it raises is unacknowledged. -/
def linkBroken : State :=
  { State.reset with
    sys := { State.reset.sys with mode := .functional, boot := .done }
    plys := [(0, { plyInit with
      st := .playing, cur := some lastUnit, limit := some 0
      next := some { seg := 1, d0 := 0, d1 := 0, d2 := 0, d3 := 0x80000000 } })]
    regs := [(aSrc 257, 0x51000000)] }

theorem exec_unitEnd_zero (s : State) (y : Fin 16) : exec (.unitEnd y 0) s = .next { s with toDev := s.toDev.unitEnd y 0 } := rfl

/-- BAD_SEG of an unacknowledged class goes one level up: to SAFE (R291). -/
theorem linkBroken_unitEnd : (linkBroken.toDev.unitEnd 0 0).sys.mode = .safe := by decide +kernel

/-- Refutes O44: the statement asks of the end of every unit that the mode stands, and in `linkBroken` the segment that follows
has a LINK that raises BAD_SEG, which enters SAFE. -/
theorem not_vectorsPlayAndUnitsFollow : ¬ Obligations.VectorsPlayAndUnitsFollow := by
  unfold Obligations.VectorsPlayAndUnitsFollow
  intro h
  obtain ⟨-, hend⟩ := h linkBroken 0 0 lastUnit (by decide) (by decide) (by decide)
  obtain ⟨t, hexec, -, -, hsys, -⟩ := hend (by decide)
  have hdev : t = linkBroken.toDev.unitEnd 0 0 :=
    congrArg State.toDev (Host.Outcome.next.inj (hexec.symm.trans (exec_unitEnd_zero linkBroken 0)))
  have hmode : t.sys.mode = .functional := congrArg Sys.mode hsys
  rw [hdev, linkBroken_unitEnd] at hmode
  exact Mode.noConfusion hmode

end Sys2Proof.Machine
end

section
/-! PROOFS. What reading words does (R162, R339, R340, R380), and what is settled before it (R208-R212). -/

namespace Sys2Proof.Machine

/-! ### What is settled before a read -/

/-- Settling the fail queues touches cards, memory, sites, the ledger, the host's queues and the images (R208-R212). -/
def Dev.LogFrame (s t : Dev) : Prop :=
  ∃ r m i l h g, t = { s with regs := r, mem := m, sites := i, led := l, host := h, imgs := g }

namespace Dev.LogFrame

theorem refl (s : Dev) : Dev.LogFrame s s := ⟨_, _, _, _, _, _, rfl⟩

theorem trans {s t u : Dev} (h : Dev.LogFrame s t) (k : Dev.LogFrame t u) : Dev.LogFrame s u := by
  obtain ⟨_, _, _, _, _, _, rfl⟩ := h
  obtain ⟨_, _, _, _, _, _, rfl⟩ := k
  exact ⟨_, _, _, _, _, _, rfl⟩

theorem foldl {α : Type} (l : List α) {f : Dev → α → Dev} (h : ∀ s a, Dev.LogFrame s (f s a)) (s : Dev) :
    Dev.LogFrame s (l.foldl f s) := by
  induction l generalizing s with
  | nil => exact refl s
  | cons a r ih => exact (h s a).trans (ih _)

theorem forL {α : Type} (l : List α) {f : α → Dev → Dev} (h : ∀ a s, Dev.LogFrame s (f a s)) (s : Dev) :
    Dev.LogFrame s (Machine.forL l f s) := foldl l (fun s a => h a s) s

/-- A fold that carries something beside the device. -/
theorem foldl_fst {α β : Type} (l : List α) {f : Dev × β → α → Dev × β} (h : ∀ r a, Dev.LogFrame r.1 (f r a).1)
    (r : Dev × β) : Dev.LogFrame r.1 (l.foldl f r).1 := by
  induction l generalizing r with
  | nil => exact refl r.1
  | cons a l ih => exact (h r a).trans (ih _)

theorem wr (s : Dev) (a : Nat) (v : W) : Dev.LogFrame s (s.wr a v) := ⟨_, _, _, _, _, _, rfl⟩
theorem led (s : Dev) (l : Led) : Dev.LogFrame s { s with led := l } := ⟨_, _, _, _, _, _, rfl⟩
theorem onSite (s : Dev) (i : Nat) (f : Site → Site) : Dev.LogFrame s (s.onSite i f) := ⟨_, _, _, _, _, _, rfl⟩

theorem offer (s : Dev) (k : Nat) (p : Step) (c : Cand) : Dev.LogFrame s (s.offer k p c).1 := by
  unfold Dev.offer
  split
  · exact refl s
  · extract_lets p'
    split
    · exact led s _
    · exact wr s _ _

theorem offers (s : Dev) (k : Nat) (p : Step) (l : List Cand) : Dev.LogFrame s (s.offers k p l).1 :=
  foldl_fst l (fun r c => offer r.1 k r.2 c) (s, p)

theorem offerLogs (s : Dev) (i : Nat) (p : Step) : Dev.LogFrame s (s.offerLogs i p).1 := offers s _ p p.logs

theorem offerOne (o : Offer) (s : Dev) : Dev.LogFrame s (Dev.offerOne o s) := by
  unfold Dev.offerOne
  extract_lets put
  have hput : ∀ p, Dev.LogFrame s (put p).1 := fun p => offer s _ p o.cand
  clear_value put
  split
  · split
    · exact (hput _).trans (onSite _ _ _)
    · exact refl s
  · split
    · exact (hput _).trans (onSite _ _ _)
    · exact refl s
  · exact refl s

theorem flushOffers (s : Dev) : Dev.LogFrame s s.flushOffers := by
  unfold Dev.flushOffers
  split
  · exact refl s
  · exact (led s _).trans (forL _ (fun o t => offerOne o t) _)

theorem offerSite (r : Dev × List Closing) (i : Nat) : Dev.LogFrame r.1 (Dev.offerSite r i).1 := by
  unfold Dev.offerSite
  extract_lets q
  have hq : Dev.LogFrame r.1 q.1 :=
    foldl_fst (β := List Closing) _ (f := fun x (c : Closing) => ((x.1.offerLogs i c.step).1, x.2 ++ [{ c with step := (x.1.offerLogs i c.step).2 }]))
      (fun x (c : Closing) => offerLogs x.1 i c.step) r
  clear_value q
  split
  case h_1 p _ =>
    split
    · exact hq
    · exact (hq.trans (offerLogs q.1 i p)).trans (onSite (q.1.offerLogs i p).1 i (fun x => { x with step := some (q.1.offerLogs i p).2 }))
  case h_2 => exact hq

theorem offerFrame (s : Dev) : Dev.LogFrame s s.offerFrame := by
  unfold Dev.offerFrame
  extract_lets r
  have hr : Dev.LogFrame s r.1 := foldl_fst _ (fun x i => offerSite x i) (s, [])
  clear_value r
  exact hr.trans (led r.1 _)

theorem setWords (s : Dev) (a : Nat) (l : List W) : Dev.LogFrame s (s.setWords a l) := by
  induction l generalizing s a with
  | nil => exact refl s
  | cons v r ih => exact Dev.LogFrame.trans (t := s.setWord a v) ⟨_, _, _, _, _, _, rfl⟩ (ih _ _)

theorem ringPut (x : Nat × List W) (s : Dev) : Dev.LogFrame s (Dev.ringPut x s) := by
  unfold Dev.ringPut
  extract_lets lost t
  have ht : Dev.LogFrame s t := (setWords s _ _).trans (wr _ _ _)
  clear_value t
  split
  · exact ht.trans (wr _ _ _)
  · exact ht

theorem notify (s : Dev) (n : Ntfy) (h : Bool) : Dev.LogFrame s (s.notify n h) := by
  unfold Dev.notify
  split
  · exact ⟨_, _, _, _, _, _, rfl⟩
  · split <;> exact ⟨_, _, _, _, _, _, rfl⟩

theorem hwmCheck (s : Dev) : Dev.LogFrame s s.hwmCheck := by
  unfold Dev.hwmCheck
  dsimp only
  split
  · exact (led s _).trans (notify _ _ _)
  · exact led s _

theorem ringRun (s : Dev) : Dev.LogFrame s s.ringRun :=
  ((led s _).trans (forL _ (fun x t => ringPut x t) _)).trans (hwmCheck _)

theorem numberEntry (s : Dev) (i id : Nat) (c : Cand) : Dev.LogFrame s (s.numberEntry i id c) := ⟨_, _, _, _, _, _, rfl⟩

theorem numberEntries (s : Dev) (l : List Closing) :
    Dev.LogFrame s (Machine.forL l (fun c s => Machine.forL c.step.kept (fun k s => s.numberEntry c.site c.step.id.toNat k) s) s) :=
  forL l (fun c u => forL c.step.kept (fun k v => numberEntry v c.site c.step.id.toNat k) u) s

theorem numberDue (s : Dev) : Dev.LogFrame s s.numberDue :=
  ((led s _).trans (numberEntries _ _)).trans (ringRun _)

theorem patchImage (s : Dev) (l : List Closing) : Dev.LogFrame s (s.patchImage l) := by
  unfold Dev.patchImage
  extract_lets n
  split
  · exact refl s
  · exact ⟨_, _, _, _, _, _, rfl⟩

theorem settleFrame (s : Dev) : Dev.LogFrame s s.settleFrame := by
  unfold Dev.settleFrame
  extract_lets t l u
  have ht : Dev.LogFrame s t := offerFrame s
  split
  · exact ht
  · have hu : Dev.LogFrame s u := ht.trans (forL _ (fun c v => onSite v _ _) t)
    clear_value u
    exact (hu.trans (numberDue u)).trans (patchImage _ _)

theorem settleLogs (s : Dev) : Dev.LogFrame s s.settleLogs := by
  unfold Dev.settleLogs
  extract_lets t
  have ht : Dev.LogFrame s t := flushOffers s
  clear_value t
  split
  · exact ht
  · exact ht.trans (settleFrame t)

end Dev.LogFrame

/-! ### Locations -/

theorem ite_loc_ne {c : Prop} [Decidable c] {x y z : Loc} (hx : c → x ≠ z) (hy : ¬c → y ≠ z) :
    (if c then x else y) ≠ z := by
  split
  case isTrue h => exact hx h
  case isFalse h => exact hy h

/-- Only FRAME_LO reads as FRAME_LO. -/
theorem locOf_ne_frm {a o : Nat} (h : a ≠ aFrm o) : locOf a ≠ .frm o := by
  unfold locOf aFrm at *
  dsimp only
  repeat' refine ite_loc_ne (fun _ => ?_) (fun _ => ?_)
  all_goals intro hloc
  all_goals injection hloc
  omega

end Sys2Proof.Machine
end

section
/-! PROOFS. What reading words does to the device (R162, R339, R340, R380). -/

namespace Sys2Proof.Machine

/-! ### A raise marks its source, whatever it leads to -/

theorem Dev.sticky_congr {s t : Dev} (h : t.regs = s.regs) (g : Nat) : t.sticky g = s.sticky g :=
  Dev.bit_congr (by unfold Dev.rd; rw [h]) 30

theorem Dev.sticky_nvPut {s : Dev} (o : Nat) (v : W) {g : Nat} (h : s.sticky g = true) : (s.nvPut o v).sticky g = true := by
  have hstored : (s.nvStored o v).sticky g = true := by
    rw [Dev.sticky_congr (s := s) (by obtain ⟨m, n, heq⟩ := s.nvStored_only o v; rw [heq]) g]
    exact h
  rw [Dev.nvPut_eq]
  split
  · exact (Upset.note _ (by decide)).stays g hstored
  · exact hstored

theorem Dev.sticky_nvRowSpare {s : Dev} (o : Nat) {g : Nat} (h : s.sticky g = true) : (s.nvRowSpare o).sticky g = true := by
  unfold Dev.nvRowSpare
  split
  · exact (Upset.note s (by decide)).stays g h
  · have hdraw : s.draw.2.sticky g = true := (Dev.sticky_congr (s := s) rfl g).trans h
    have hput := Dev.sticky_nvPut (s := s.draw.2) o s.draw.1 hdraw
    dsimp only
    generalize s.draw.2.nvPut o s.draw.1 = t at hput ⊢
    exact (Dev.sticky_congr (s := t) rfl g).trans hput

theorem Dev.sticky_repair {s : Dev} (f u : Nat) {g : Nat} (h : s.sticky g = true) : (s.repair f u).sticky g = true := by
  by_cases hf : f = 289
  · subst hf
    have heq : s.repair 289 u = s.nvRowSpare u := by
      unfold Dev.repair
      rw [if_neg (by decide), if_neg (by decide), if_neg (by decide), if_neg (by decide), if_pos rfl]
    rw [heq]
    exact Dev.sticky_nvRowSpare u h
  · exact (Upset.repair s u hf).stays g h

theorem Dev.sticky_react {s : Dev} (e : Nat) (r : Raise) {g : Nat} (h : s.sticky g = true) : (s.react e r).sticky g = true := by
  unfold Dev.react
  extract_lets s1
  have h1 : s1.sticky g = true := by
    unfold s1
    split
    · exact (Upset.voidSites s _ _).stays g h
    · exact h
  clear_value s1
  split
  · exact Dev.sticky_repair r.f r.unit h1
  · exact h1

theorem Dev.sticky_reacts {s : Dev} {x : Nat} (e : Nat) (o : OccNow) (rs : List Raise) (hx : x < 12) {g : Nat}
    (h : s.sticky g = true) : (s.reacts x e o rs).sticky g = true := by
  unfold Dev.reacts
  split
  · exact (Upset.enterSafe s hx).stays g h
  · extract_lets s1
    have h1 : s1.sticky g = true := by
      unfold s1
      split
      · exact (Upset.forL _ _ (fun r s _ => Upset.voidSites s _ _) s).stays g h
      · exact h
    exact forL_keeps (I := fun t : Dev => t.sticky g = true) (fun r _ t ht => Dev.sticky_react e r ht) h1

/-- The source of a raise is STICKY after it, masked or not, and with any repair (R290, R295). -/
theorem Dev.sticky_raise (s : Dev) {r : Raise} (hf : r.f < 384) : (s.raise r).sticky r.f = true := by
  by_cases hen : (r.forced || s.srcEn r.f) = true
  · rw [Dev.raise_eq_occur hf hen, Dev.occur]
    have hx : r.f / 32 < 12 := by omega
    exact Dev.sticky_reacts (x := r.f / 32) _ _ _ hx (Dev.sticky_recordOcc s _ _ (r := (r.f, r.sites)) _ hx
      (List.forall_mem_map.mpr (List.forall_mem_singleton.mpr hf)) (List.mem_map_of_mem (List.mem_singleton_self r)))
  · have hon : [r].filter (fun r => r.forced || s.srcEn r.f) = [] :=
      List.filter_eq_nil_iff.mpr (fun q hq => by rw [List.mem_singleton.mp hq]; exact hen)
    have hoff : [r].filter (fun r => !(r.forced || s.srcEn r.f)) = [r] :=
      List.filter_eq_self.mpr (fun q hq => by rw [List.mem_singleton.mp hq]; simpa using hen)
    rw [Dev.raise, Dev.raises_eq_occurOf, hon, hoff]
    exact forL_keeps (I := fun t : Dev => t.sticky r.f = true) (fun x _ t ht => ht) (s.sticky_markRaise r.f)

/-! ### A word with an error -/

/-- The raise of an NV word that cannot be corrected (R380). -/
def nvBadRaise (o : Nat) : Raise := { f := 289, lvl := 1, sites := [], unit := o, forced := false }

/-- A double-bit error is the fault of its memory (R162, R380). -/
theorem Dev.readBad_sticky (s : Dev) (a : Nat) :
    (∀ o, locOf a = .cis o → (s.readBad a).sticky 129 = true) ∧ (∀ o, locOf a = .nvr o → (s.readBad a).sticky 289 = true) := by
  refine ⟨fun o h => ?_, fun o h => ?_⟩ <;> (rw [Dev.readBad, h]; dsimp only)
  · exact Dev.raises_sticky _ (rs := [raiseOf 129 0, weakOf (s.bankOf o)]) (r := raiseOf 129 0)
      (by
        intro q hq
        rcases List.mem_cons.mp hq with rfl | hq
        · exact ⟨by decide, by decide⟩
        · rw [List.mem_singleton.mp hq]
          exact weakOf_plain _)
      List.mem_cons_self
  · exact s.sticky_raise (r := nvBadRaise o) (show 289 < 384 by decide)

/-- A corrected word is noted by its memory (R162, R380). -/
theorem Dev.readFixed_sticky (s : Dev) (a : Nat) :
    (∀ o, locOf a = .cis o → o < s.cisBytes → (s.readFixed a).sticky 128 = true) ∧
      (∀ o, locOf a = .nvr o → (s.readFixed a).sticky 288 = true) := by
  refine ⟨fun o h hb => ?_, fun o h => ?_⟩ <;> (rw [Dev.readFixed, h]; dsimp only)
  · rw [if_pos hb, Dev.cisCorrected_eq]
    exact Dev.raises_sticky _ (r := raiseOf 128 0) (s.cisRaises_plain o) (List.mem_cons_self (a := raiseOf 128 0))
  · exact Dev.sticky_note _ (by decide)

theorem Dev.withCis_sys (s : Dev) (x : Cis) : (s.withCis x).sys = s.sys := rfl

theorem Dev.withCis_cis (s : Dev) (x : Cis) : (s.withCis x).cis = x := rfl

theorem Dev.cisNoted_kept (s : Dev) (a : Nat) :
    ((s.cisNoted a).withCis (s.cisCounted a)).sys = s.sys ∧
      ((s.cisNoted a).withCis (s.cisCounted a)).cis.poison = s.cis.poison := by
  rw [Dev.withCis_sys, Dev.withCis_cis, Dev.cisNoted, Dev.setFld, Dev.incSat, Dev.setFld, Dev.wr_sys, Dev.wr_sys]
  exact ⟨rfl, rfl⟩

/-- Noting a corrected word moves neither the stage of boot nor a poisoned word. -/
theorem Dev.readFixed_keeps (s : Dev) (a : Nat) :
    (s.readFixed a).sys.boot = s.sys.boot ∧ (s.readFixed a).cis.poison = s.cis.poison := by
  have of_steady : ∀ {u t : Dev}, u.Steady t → u.sys = s.sys → u.cis.poison = s.cis.poison →
      t.sys.boot = s.sys.boot ∧ t.cis.poison = s.cis.poison := fun h hu hp => by
    obtain ⟨m, r, w, d, hsys⟩ := h.sys
    exact ⟨by rw [hsys, hu], h.poison.trans hp⟩
  unfold Dev.readFixed
  split
  case h_1 o _ =>
    split
    · rw [Dev.cisCorrected_eq]
      obtain ⟨hsys, hpoison⟩ := s.cisNoted_kept o
      exact of_steady (Dev.Steady.raises _ (s.cisRaises o)) hsys hpoison
    · exact ⟨rfl, rfl⟩
  case h_2 => exact of_steady (Dev.Steady.note s 132) rfl rfl
  case h_3 o _ => exact of_steady ((Dev.Steady.nvPut s o (s.nvWord o)).trans (Dev.Steady.note _ 288)) rfl rfl
  case h_4 => exact ⟨rfl, rfl⟩

/-! ### Words of a transfer -/

theorem Dev.readLatch_of_ne (s : Dev) {a : Nat} (h : a ≠ aFrm 8) : s.readLatch a = s := by
  unfold Dev.readLatch
  split
  case h_1 hloc => exact absurd hloc (locOf_ne_frm h)
  case h_2 => rfl

theorem Dev.readOne_of_clean (s : Dev) {a k : Nat} {fixed : List Nat} (ha : a ≠ aFrm 8) (hk : k ∉ fixed) :
    s.readOne a k fixed = s := by
  rw [Dev.readOne, if_neg (by simpa using hk), s.readLatch_of_ne ha]

theorem Dev.wordBad_of_ne (s : Dev) {a k : Nat} {bad : Option Nat} (h : bad ≠ some k) :
    s.wordBad a k bad = s.wordBad a k none := by
  simp [Dev.wordBad, h]

theorem Dev.wordBad_congr {s t : Dev} (h : t.cis.poison = s.cis.poison) (a k : Nat) (bad : Option Nat) :
    t.wordBad a k bad = s.wordBad a k bad := by
  unfold Dev.wordBad Dev.poisoned
  rw [h]

theorem Dev.mspiServed_congr {s t : Dev} (h : t.sys.boot = s.sys.boot) (a : Nat) : t.mspiServed a = s.mspiServed a := by
  unfold Dev.mspiServed
  rw [h]

/-- A word that an RD serves, without an error. -/
structure Dev.RdGood (s : Dev) (a k : Nat) : Prop where
  served : s.mspiServed (a + 4 * k) = true
  clean  : s.wordBad (a + 4 * k) k none = false
  plain  : a + 4 * k ≠ aFrm 8

theorem Dev.RdGood.congr {s t : Dev} {a k : Nat} (h : s.RdGood a k) (hb : t.sys.boot = s.sys.boot)
    (hp : t.cis.poison = s.cis.poison) : t.RdGood a k :=
  ⟨(Dev.mspiServed_congr hb _).trans h.served, (Dev.wordBad_congr hp _ _ _).trans h.clean, h.plain⟩

/-- The words of a transfer before the first that has an error leave the device as it was. -/
theorem Dev.mspiWords_of_good {s : Dev} {a : Nat} {bad : Option Nat} {fixed : List Nat} (n : Nat) :
    ∀ (m k : Nat), (∀ j, k ≤ j → j < k + m → s.RdGood a j ∧ bad ≠ some j ∧ j ∉ fixed) →
      s.mspiWords a bad fixed k (m + n) = ((s.mspiWords a bad fixed (k + m) n).1,
        (List.range' k m).map (fun j => s.readWord (a + 4 * j)) ++ (s.mspiWords a bad fixed (k + m) n).2) := by
  intro m
  induction m with
  | zero =>
    intro k _
    rw [Nat.zero_add]
    rfl
  | succ m ih =>
    intro k h
    obtain ⟨hgood, hbad, hfixed⟩ := h k (Nat.le_refl k) (by omega)
    rw [show m + 1 + n = (m + n) + 1 by omega, Dev.mspiWords]
    dsimp only
    rw [hgood.served, Bool.not_true, if_neg Bool.false_ne_true, s.wordBad_of_ne hbad, hgood.clean,
      if_neg Bool.false_ne_true, s.readOne_of_clean hgood.plain hfixed,
      ih (k + 1) (fun j hj hm => h j (by omega) (by omega)), List.range'_succ, show k + 1 + m = k + (m + 1) by omega]
    rfl

/-- Words that RD does not serve read 0 and set ERR. -/
theorem Dev.mspiWords_unserved {a : Nat} {bad : Option Nat} {fixed : List Nat} :
    ∀ (n k : Nat) (s : Dev), (∀ j, k ≤ j → j < k + n → s.mspiServed (a + 4 * j) = false) →
      (s.mspiWords a bad fixed k n).2 = List.replicate n 0 ∧
        (s.mspiWords a bad fixed k n).1 = if n = 0 then s else s.mspiFault := by
  intro n
  induction n with
  | zero => intro k s _; exact ⟨rfl, rfl⟩
  | succ n ih =>
    intro k s h
    have hnext := ih (k + 1) s.mspiFault (fun j hj hm => h j (by omega) (by omega))
    rw [Dev.mspiWords]
    dsimp only
    rw [h k (Nat.le_refl k) (by omega), Bool.not_false, if_pos rfl, if_neg (Nat.succ_ne_zero n)]
    refine ⟨congrArg (0 :: ·) hnext.1, hnext.2.trans ?_⟩
    split <;> rfl

end Sys2Proof.Machine
end

section
/-! PROOFS. MSPI and the TAP (R361, R416-R418). -/

namespace Sys2Proof.Machine

/-! ### Commands and completions (R361) -/

theorem cmdOf_via {ws : List W} {code : Nat} {c : Cmd} (h : cmdOf ws = some (code, c)) : c.via = .mspi := by
  unfold cmdOf at h
  split at h
  case h_1 =>
    dsimp only at h
    split at h
    · exact absurd h (by simp)
    · exact (congrArg (fun x : Nat × Cmd => x.2.via) (Option.some.inj h)).symm
  case h_2 => exact absurd h (by simp)

theorem exec_mspiCmd (s : State) (ws : List W) : exec (.mspiCmd ws) s = .next { s with toDev := s.mspiCmd ws } := rfl

theorem Dev.mspiCmd_of_none {s : Dev} {ws : List W} (hm : s.sys.mode ≠ .reset) (h : cmdOf ws = none) :
    s.mspiCmd ws = s.mspiFault := by
  rw [Dev.mspiCmd, if_neg hm, h]

theorem Dev.mspiCmd_of_closed {s : Dev} {ws : List W} {code : Nat} {c : Cmd} (hm : s.sys.mode ≠ .reset)
    (h : cmdOf ws = some (code, c)) (hp : s.pathOpen .mspi = false) : s.mspiCmd ws = s.mspiFault := by
  rw [Dev.mspiCmd, if_neg hm, h]
  dsimp only
  rw [hp, Bool.not_false, if_pos rfl]

theorem Dev.mspiCmd_of_open {s : Dev} {ws : List W} {code : Nat} {c : Cmd} (hm : s.sys.mode ≠ .reset)
    (h : cmdOf ws = some (code, c)) (hp : s.pathOpen .mspi = true) :
    s.mspiCmd ws = (if code ≠ 0xFF && s.storesFull then s.mspiFault else s).receive code c := by
  rw [Dev.mspiCmd, if_neg hm, h]
  dsimp only
  rw [hp, Bool.not_true, if_neg Bool.false_ne_true]

/-- A command for which there is room is taken as its row takes it. -/
theorem Dev.mspiCmd_of_room {s : Dev} {ws : List W} {code : Nat} {c : Cmd} (hm : s.sys.mode ≠ .reset)
    (h : cmdOf ws = some (code, c)) (hp : s.pathOpen .mspi = true)
    (hr : (s.host.waiting.length < 128 ∧ s.awaiting < 256) ∨ code = 0xFF) : s.mspiCmd ws = s.receive code c := by
  rw [Dev.mspiCmd_of_open hm h hp, if_neg]
  intro hfull
  obtain ⟨hcode, hstores⟩ := Bool.and_eq_true_iff.mp hfull
  have := s.storesFull_iff.mp hstores
  have := of_decide_eq_true hcode
  omega

/-- With a store full a command is refused, and ERR is set. -/
theorem Dev.mspiCmd_of_full {s : Dev} {ws : List W} {code : Nat} {c : Cmd} (hm : s.sys.mode ≠ .reset)
    (h : cmdOf ws = some (code, c)) (hc : code ≠ 0xFF) (hp : s.pathOpen .mspi = true)
    (hf : 128 ≤ s.host.waiting.length ∨ 256 ≤ s.awaiting) :
    (s.mspiCmd ws).host.mspiErr = true ∧ s.AnswersCmd (s.mspiCmd ws) (jobOfCmd c code) 10 0 [] ∧
      (s.mspiCmd ws).host.waiting = s.host.waiting := by
  have hfull : (code ≠ 0xFF && s.storesFull) = true := by simp [hc, s.storesFull_iff.mpr hf]
  have hvia := cmdOf_via h
  obtain ⟨l, hl⟩ := Dev.receive_of_full (s := s.mspiFault) (c := c) (code := code) (by rw [hvia]; exact hp) hc hf
  rw [Dev.mspiCmd_of_open hm h hp, if_pos hfull, hl]
  refine ⟨?_, (s.mspiFault.complete_holding l (jobOfCmd c code) 10 0 []).2, ?_⟩ <;>
  · unfold Dev.complete
    dsimp only
    split <;> rfl

theorem exec_mspiCpl (s : State) : exec .mspiCpl s = .next { s with toDev := s.toDev.mspiCpl } := rfl

theorem Dev.mspiCpl_of_nil {s : Dev} (hm : s.sys.mode ≠ .reset) (h : s.host.mspiCpl = []) :
    s.mspiCpl = { s with host := { s.host with mspiOut := [0] } } := by
  rw [Dev.mspiCpl, if_neg hm, h]
  rfl

theorem Dev.mspiCpl_of_cons {s : Dev} {c : CmdCpl} {r : List CmdCpl} (hm : s.sys.mode ≠ .reset)
    (h : s.host.mspiCpl = c :: r) :
    s.mspiCpl = { s with host := { s.host with
      mspiCpl := r, mspiOut := wn (16 + 4 * c.data.length) ::
        wn (c.code * 2 ^ 24 + c.tag.toNat * 2 ^ 12 + c.status) :: wn (c.detail * 2 ^ 16 + 4 * c.data.length) :: wn c.frame ::
        wn (b2n c.frameV * 2 ^ 31 + c.frame / 2 ^ 32 % 2 ^ 16) :: c.data } } := by
  have hlen : 4 * c.words.length = 16 + 4 * c.data.length := by
    show 4 * (c.data.length + 4) = _
    omega
  rw [Dev.mspiCpl, if_neg hm, h]
  dsimp only
  rw [hlen]
  rfl

/-! ### Reads -/

theorem exec_mspiRd (s : State) (a : BitVec 40) (n : BitVec 16) (x : ReadEcc) :
    exec (.mspiRd a n x) s = .next { s with toDev := s.mspiRd a.toNat n.toNat x.bad x.fixed } := rfl

theorem Dev.mspiRd_of_aligned {s : Dev} {a : Nat} (hm : s.sys.mode ≠ .reset) (ha : a % 4 = 0) (n : Nat)
    (bad : Option Nat) (fixed : List Nat) :
    s.mspiRd a n bad fixed = (s.settleLogs.mspiWords a bad fixed 0 n).1.mspiReturn (s.settleLogs.mspiWords a bad fixed 0 n).2 := by
  rw [Dev.mspiRd, if_neg hm, if_neg (by omega)]

/-- What is settled before a read changes no word's service and no error. -/
theorem Dev.RdGood.settle {s : Dev} {a k : Nat} (h : s.RdGood a k) : s.settleLogs.RdGood a k := by
  obtain ⟨_, _, _, _, _, _, heq⟩ := Dev.LogFrame.settleLogs s
  rw [heq]
  exact h.congr rfl rfl

theorem Dev.mspiServed_settle (s : Dev) (a : Nat) : s.settleLogs.mspiServed a = s.mspiServed a := by
  obtain ⟨_, _, _, _, _, _, heq⟩ := Dev.LogFrame.settleLogs s
  rw [heq]
  rfl

theorem Dev.cisBytes_settle (s : Dev) : s.settleLogs.cisBytes = s.cisBytes := by
  obtain ⟨_, _, _, _, _, _, heq⟩ := Dev.LogFrame.settleLogs s
  rw [heq]
  rfl

/-- Words without an error are returned, and the device is as it was. -/
theorem Dev.mspiWords_all {s : Dev} {a m : Nat} (h : ∀ k, k < m → s.RdGood a k) :
    s.mspiWords a none [] 0 m = (s, (List.range m).map (fun k => s.readWord (a + 4 * k))) := by
  have hwords := Dev.mspiWords_of_good (s := s) (a := a) (bad := none) (fixed := []) 0 m 0
    (fun j _ hj => ⟨h j (by omega), by simp, by simp⟩)
  rw [Nat.add_zero, Dev.mspiWords, List.append_nil, ← List.range_eq_range'] at hwords
  exact hwords

/-- A word with a double-bit error ends the transfer with 0 and sets ERR. -/
theorem Dev.mspiWords_stop {s : Dev} {a m : Nat} (n : Nat) (h : ∀ k, k < m → s.RdGood a k)
    (hm : s.mspiServed (a + 4 * m) = true) :
    s.mspiWords a (some m) [] 0 (m + (n + 1)) =
      ((s.readBad (a + 4 * m)).mspiFault, (List.range m).map (fun k => s.readWord (a + 4 * k)) ++ [0]) := by
  have hbad : s.wordBad (a + 4 * m) m (some m) = true := by simp [Dev.wordBad]
  rw [Dev.mspiWords_of_good (s := s) (a := a) (bad := some m) (fixed := []) (n + 1) m 0
    (fun j _ hj => ⟨h j (by omega), by simp; omega, by simp⟩), Nat.zero_add, Dev.mspiWords]
  dsimp only
  rw [hm, hbad, Bool.not_true, if_neg Bool.false_ne_true, if_pos rfl, List.range_eq_range']

/-- A corrected word is returned with those that follow it; what noting it changed stands. -/
theorem Dev.mspiWords_fixed {s : Dev} {a m k : Nat} (h : ∀ j, j < m → s.RdGood a j) (hk : k < m) :
    (s.mspiWords a none [k] 0 m).1 = s.readFixed (a + 4 * k) ∧ (s.mspiWords a none [k] 0 m).2.length = m := by
  obtain ⟨hboot, hpoison⟩ := s.readFixed_keeps (a + 4 * k)
  have hgood := h k hk
  have hone : s.readOne (a + 4 * k) k [k] = s.readFixed (a + 4 * k) := by
    rw [Dev.readOne, if_pos (by simp), Dev.readLatch_of_ne _ hgood.plain]
  have hrest := Dev.mspiWords_of_good (s := s.readFixed (a + 4 * k)) (a := a) (bad := none) (fixed := [k]) 0 (m - (k + 1)) (k + 1)
    (fun j hj hm => ⟨(h j (by omega)).congr hboot hpoison, by simp, by simp; omega⟩)
  simp only [Nat.add_zero, Dev.mspiWords, List.append_nil] at hrest
  have hsplit : m = k + ((m - (k + 1)) + 1) := by omega
  rw [hsplit, Dev.mspiWords_of_good (s := s) (a := a) (bad := none) (fixed := [k]) _ k 0
    (fun j _ hj => ⟨h j (by omega), by simp, by simp; omega⟩), Nat.zero_add, Dev.mspiWords]
  dsimp only
  rw [hgood.served, hgood.clean, Bool.not_true, if_neg Bool.false_ne_true, if_neg Bool.false_ne_true, hone, ← hsplit, hrest]
  refine ⟨rfl, ?_⟩
  simp
  omega

end Sys2Proof.Machine
end

section
/-! PROOFS. MSPI writes and the TAP (R361, R416-R418). -/

namespace Sys2Proof.Machine

/-! ### Words written in a row -/

theorem Dev.word_of_bytes {s t : Dev} {a : Nat} (h : ∀ b, b < a + 4 → t.byte b = s.byte b) : t.word a = s.word a := by
  unfold Dev.word wordOf
  simp only [h (a + 3) (by omega), h (a + 2) (by omega), h (a + 1) (by omega), h a (by omega)]

theorem Dev.byte_setWords_of_out (l : List W) :
    ∀ (s : Dev) (a b : Nat), b < a ∨ a + 4 * l.length ≤ b → (s.setWords a l).byte b = s.byte b := by
  induction l with
  | nil => intro s a b _; rfl
  | cons v r ih =>
    intro s a b hb
    rw [List.length_cons] at hb
    rw [Dev.setWords, ih _ _ _ (by omega), Dev.byte_setWord_of_ne _ _ (by omega)]

theorem Dev.word_setWords (l : List W) :
    ∀ (s : Dev) (a k : Nat), k < l.length → (s.setWords a l).word (a + 4 * k) = l.getD k 0 := by
  induction l with
  | nil => intro s a k hk; exact absurd hk (Nat.not_lt_zero k)
  | cons v r ih =>
    intro s a k hk
    rw [Dev.setWords]
    cases k with
    | zero =>
      exact (Dev.word_of_bytes (fun b hb => Dev.byte_setWords_of_out r (s.setWord a v) _ b (.inl hb))).trans
        (Dev.word_setWord_self s a v)
    | succ k =>
      rw [show a + 4 * (k + 1) = a + 4 + 4 * k by omega]
      exact ih _ _ _ (by rw [List.length_cons] at hk; omega)

theorem Dev.setWord_only (s : Dev) (a : Nat) (v : W) : ∃ m, s.setWord a v = { s with mem := m } := by
  simp only [Dev.setWord, Dev.setByte]
  exact ⟨_, rfl⟩

theorem Dev.setWords_only (l : List W) : ∀ (s : Dev) (a : Nat), ∃ m, s.setWords a l = { s with mem := m } := by
  induction l with
  | nil => intro s a; exact ⟨s.mem, rfl⟩
  | cons v r ih =>
    intro s a
    obtain ⟨m, hm⟩ := s.setWord_only a v
    obtain ⟨n, hn⟩ := ih (s.setWord a v) (a + 4)
    exact ⟨n, by rw [Dev.setWords, hn, hm]⟩

/-! ### Program memory (R59, R79) -/

theorem locOf_pgm {x : Nat} (hlo : aPgm 0 0 ≤ x) (hhi : x < aPgm 16 0) : ∃ k o, locOf x = .pgm k o := by
  have hle : 0xC000000 ≤ x := hlo
  have hlt : x < 0xC400000 := hhi
  have hge : ∀ b, b ≤ 0xC000000 → ¬x < b := fun b hb => by omega
  exact ⟨_, _, by simp only [locOf, hge, hlt, Nat.reduceLeDiff, if_false, if_true]; rfl⟩

/-- The host may write program memory: IDLE or a running mode, and no engine under way. -/
structure Dev.Loads (s : Dev) : Prop where
  mode : s.sys.mode = .idle ∨ s.sys.mode.running = true
  still : s.anyEngLive = false

theorem Dev.clusterLive_of_still {s : Dev} (h : s.anyEngLive = false) (k : Nat) : s.clusterLive k = false := by
  unfold Dev.anyEngLive at h
  unfold Dev.clusterLive
  rw [List.any_eq_false] at h ⊢
  intro x hx
  simp [h x hx]

/-- A word of program memory is in order, and nothing of the device but its bytes changes. -/
theorem WrOut.mspi_cons_pgm {r : WrOut} {a : Nat} {v : W} {l : List W} (hload : r.s.Loads) (hst : r.status = 0)
    {k o : Nat} (hloc : locOf a = .pgm k o) :
    r.mspi a (v :: l) = WrOut.mspi { r with s := r.s.setWord a v, words := r.words + 1 } (a + 4) l := by
  have hclass : wclass a = .load := by rw [wclass, hloc]
  have hcanon : canonAddr a = a := by rw [canonAddr, hloc]
  have hroute : isRoute a = false := by rw [isRoute, hloc]
  have hmode : r.s.modeOk .mspi a v = true := by
    unfold Dev.modeOk
    dsimp only
    rw [hclass]
    rcases hload.mode with h | h
    · rw [h]
      cases assigned a <;> simp [WClass.mayWrite]
    · cases hm : r.s.sys.mode <;> rw [hm] at h <;> first | exact absurd h (by decide) | (cases assigned a <;> simp [WClass.mayWrite, Mode.running])
  have hplay : r.s.wordInPlay a = false := by
    rw [Dev.wordInPlay, hloc]
    exact Dev.clusterLive_of_still hload.still k
  have hword : r.word a v = { r with s := r.s.setWord a v, words := r.words + 1 } := by
    have huser : userNv a = none := by rw [userNv, hloc]
    have hstage : stages a = false := by rw [stages, hcanon, isStaged, hloc]; rfl
    unfold WrOut.word
    rw [if_neg (by omega), huser]
    dsimp only
    rw [hstage, if_neg Bool.false_ne_true, hcanon, Dev.writeNow, hroute, if_neg Bool.false_ne_true, hloc]
  rw [WrOut.mspi, if_neg (by omega), hmode, hplay, hword, Bool.not_true, if_neg Bool.false_ne_true, if_neg Bool.false_ne_true]

theorem WrOut.mspi_pgm (l : List W) : ∀ (r : WrOut) (a : Nat), r.s.Loads → r.status = 0 → aPgm 0 0 ≤ a →
    a + 4 * l.length ≤ aPgm 16 0 → r.mspi a l = { r with s := r.s.setWords a l, words := r.words + l.length } := by
  induction l with
  | nil => intro r a _ _ _ _; rfl
  | cons v l ih =>
    intro r a hload hst hlo hhi
    rw [List.length_cons] at hhi ⊢
    obtain ⟨k, o, hloc⟩ := locOf_pgm (x := a) hlo (by omega)
    have hrest := ih { r with s := r.s.setWord a v, words := r.words + 1 } (a + 4) ⟨hload.mode, hload.still⟩ hst (by omega) (by omega)
    rw [WrOut.mspi_cons_pgm hload hst hloc, hrest, Dev.setWords, Nat.add_right_comm, ← Nat.add_assoc]

/-- Words outside the fault registers force nothing. -/
theorem forcedBy_pgm (l : List W) : ∀ a, aPgm 0 0 ≤ a → a + 4 * l.length ≤ aPgm 16 0 →
    (wordsAt a l).filterMap (fun x => forcedBy x.1 x.2) = [] := by
  induction l with
  | nil => intro a _ _; rfl
  | cons v l ih =>
    intro a hlo hhi
    rw [List.length_cons] at hhi
    obtain ⟨k, o, hloc⟩ := locOf_pgm (x := a) hlo (by omega)
    have hnone : forcedBy a v = none := by rw [forcedBy, hloc]
    rw [wordsAt, List.filterMap_cons, hnone]
    exact ih (a + 4) (by omega) (by omega)

theorem Dev.forced_of_none {s : Dev} {ws : List (Nat × W)} (h : ws.filterMap (fun x => forcedBy x.1 x.2) = []) :
    s.forced ws = s := by
  unfold Dev.forced
  dsimp only
  rw [h]
  rfl

/-! ### WR -/

theorem exec_mspiWr (s : State) (a : BitVec 40) (ws : List W) :
    exec (.mspiWr a ws) s = .next { s with toDev := s.mspiWr a.toNat ws } := rfl

/-- A write request before its first word. -/
def Dev.wrStart (s : Dev) : WrOut := { s := s, status := 0, words := 0, tick := 0, nv := [] }

/-- What a WR has done once its words are taken, none of them an NV word. -/
theorem Dev.mspiWr_of_words {s : Dev} {a : Nat} {ws : List W} (hm : s.sys.mode ≠ .reset) (ha : a % 4 = 0)
    {r : WrOut} (hr : s.wrStart.mspi a ws = r) (hnv : r.nv = []) :
    s.mspiWr a ws = if r.status ≠ 0 then (r.s.forced (wordsAt a (ws.take r.words))).mspiFault
      else r.s.forced (wordsAt a (ws.take r.words)) := by
  unfold Dev.wrStart at hr
  rw [Dev.mspiWr, if_neg hm, if_neg (by omega), hr]
  dsimp only
  rw [hnv]
  rfl

theorem Dev.mspiWr_pgm {s : Dev} {a : Nat} {ws : List W} (hm : s.sys.mode ≠ .reset) (ha : a % 4 = 0) (hload : s.Loads)
    (hlo : aPgm 0 0 ≤ a) (hhi : a + 4 * ws.length ≤ aPgm 16 0) : s.mspiWr a ws = s.setWords a ws := by
  have hwords : s.wrStart.words = 0 := rfl
  rw [Dev.mspiWr_of_words hm ha (WrOut.mspi_pgm ws s.wrStart a hload rfl hlo hhi) rfl, if_neg (by exact fun h => h rfl)]
  dsimp only
  rw [hwords, Nat.zero_add, List.take_length, Dev.forced_of_none (forcedBy_pgm ws a hlo hhi)]
  rfl

theorem Dev.mspiWr_nil {s : Dev} {a : Nat} (ha : a % 4 = 0) : s.mspiWr a [] = s := by
  by_cases hm : s.sys.mode = .reset
  · rw [Dev.mspiWr, if_pos hm]
  · rw [Dev.mspiWr_of_words hm ha (r := s.wrStart) rfl rfl]
    exact Dev.forced_of_none (s := s) (ws := []) rfl

/-- A first word that the mode forbids ends the transfer (R18, R121). -/
theorem Dev.mspiWr_of_refused {s : Dev} {a : Nat} {v : W} {ws : List W} (hm : s.sys.mode ≠ .reset) (ha : a % 4 = 0)
    (h : s.modeOk .mspi a v = false) : s.mspiWr a (v :: ws) = (s.modeRej a).mspiFault := by
  have hr : s.wrStart.mspi a (v :: ws) = { s.wrStart with s := s.modeRej a, status := 2 } := by
    rw [WrOut.mspi, if_neg (by exact fun h => h rfl), show s.wrStart.s = s from rfl, h, Bool.not_false, if_pos rfl]
  rw [Dev.mspiWr_of_words hm ha hr rfl, if_pos (by simp)]
  exact congrArg Dev.mspiFault (Dev.forced_of_none (ws := []) rfl)

/-- So does one of a region in play. -/
theorem Dev.mspiWr_of_inPlay {s : Dev} {a : Nat} {v : W} {ws : List W} (hm : s.sys.mode ≠ .reset) (ha : a % 4 = 0)
    (h : s.modeOk .mspi a v = true) (hp : s.wordInPlay a = true) : s.mspiWr a (v :: ws) = s.mspiFault := by
  have hr : s.wrStart.mspi a (v :: ws) = { s.wrStart with status := 3 } := by
    rw [WrOut.mspi, if_neg (by exact fun h => h rfl), show s.wrStart.s = s from rfl, h, Bool.not_true,
      if_neg Bool.false_ne_true, hp, if_pos rfl]
    rfl
  rw [Dev.mspiWr_of_words hm ha hr rfl, if_pos (by simp)]
  exact congrArg Dev.mspiFault (Dev.forced_of_none (ws := []) rfl)

/-- What a refused word leaves behind is CFG_REJ or WR_REJ alone (R18, R121). -/
theorem Dev.modeRej_only (s : Dev) (a : Nat) :
    s.Cards (s.modeRej a) [aFrm 0x10, aUcs 0x8104] ∧ { s.modeRej a with regs := s.regs } = s := by
  have hset : ∀ b m, b ∈ [aFrm 0x10, aUcs 0x8104] →
      s.Cards (s.setBits b m) [aFrm 0x10, aUcs 0x8104] ∧ ({ s.setBits b m with regs := s.regs } : Dev) = s :=
    fun b m hb => ⟨(Dev.Cards.refl s _).setBits hb m, rfl⟩
  have hkeep : s.Cards s [aFrm 0x10, aUcs 0x8104] ∧ ({ s with regs := s.regs } : Dev) = s := ⟨Dev.Cards.refl s _, rfl⟩
  unfold Dev.modeRej
  split
  · exact hkeep
  · split
    · split
      · exact hset _ _ (by simp)
      · exact hkeep
    · exact hset _ _ (by simp)
    · exact hkeep

/-! ### The TAP (R418) -/

/-- The instructions of the TAP with the encodings they take. -/
def tapRows : List (Instr × Jtag) :=
  [(.bypass, .bypass), (.idcode, .idcode), (.samplePreload, .samplePreload), (.extest, .extest),
    (.clamp, .clamp), (.highz, .highz), (.extestPulse, .extestPulse), (.extestTrain, .extestTrain)]

theorem exec_of_mem_tapRows {i : Instr} {x : Jtag} (h : (i, x) ∈ tapRows) (s : State) :
    exec i s = .next { s with toDev := s.tap x } := by
  have hall : ∀ y ∈ tapRows, exec y.1 s = .next { s with toDev := s.tap y.2 } := by
    simp only [tapRows, List.forall_mem_cons, List.not_mem_nil, false_implies, implies_true, and_true]
    exact ⟨rfl, rfl, rfl, rfl, rfl, rfl, rfl, rfl⟩
  exact hall _ h

theorem Dev.tap_of_unpowered {s : Dev} (h : s.sys.unpowered = true) (x : Jtag) : s.tap x = s := by
  rw [Dev.tap, if_pos h]

/-- The instructions that drive balls. -/
theorem Jtag.drives_iff (x : Jtag) :
    x.drives = true ↔ x ∈ ([.extest, .clamp, .highz, .extestPulse, .extestTrain] : List Jtag) := by
  cases x <;> decide

theorem Dev.tap_of_powered {s : Dev} (h : s.sys.unpowered = false) (x : Jtag) :
    (s.tap x).jtag =
        (if x ∈ ([.extest, .clamp, .highz, .extestPulse, .extestTrain] : List Jtag) ∧ s.sys.resetLow = false then .bypass else x) ∧
      (s.tap x).tdo = (if x = .idcode then Config.stepping.setWidth 32 <<< 28 ||| 0x00576B67 else 0) ∧
      ({ s.tap x with jtag := s.jtag, tdo := s.tdo } : Dev) = s := by
  have htap : s.tap x = { s with
      jtag := (if (x.drives && !s.sys.resetLow) = true then Jtag.bypass else x),
      tdo := if (if (x.drives && !s.sys.resetLow) = true then Jtag.bypass else x) = .idcode then idcodeWord else 0 } := by
    rw [Dev.tap, if_neg (by rw [h]; exact Bool.false_ne_true)]
  have hcond : (x.drives && !s.sys.resetLow) = true ↔
      x ∈ ([.extest, .clamp, .highz, .extestPulse, .extestTrain] : List Jtag) ∧ s.sys.resetLow = false := by
    rw [Bool.and_eq_true_iff, x.drives_iff, Bool.not_eq_true']
  have hcode : (if (x.drives && !s.sys.resetLow) = true then Jtag.bypass else x) = .idcode ↔ x = .idcode := by
    constructor
    · intro he
      split at he
      · exact absurd he (by decide)
      · exact he
    · rintro rfl
      rfl
  rw [htap]
  refine ⟨?_, ?_, rfl⟩
  · dsimp only
    simp only [hcond]
  · dsimp only
    simp only [hcode]
    rfl

/-! ### The ports -/

theorem exec_mspiStat (s : State) : exec .mspiStat s = .next { s with toDev := s.mspiStat } := rfl

theorem exec_mspiBadOpcode (s : State) :
    exec .mspiBadOpcode s = .next { s with toDev := if s.sys.mode = .reset then s.toDev else s.toDev.mspiFault } := rfl

/-- In RESET the port serves no opcode (log 43). -/
theorem exec_mspi_of_reset {s : State} (h : s.sys.mode = .reset) (ws : List W) (a : BitVec 40) (n : BitVec 16) (x : ReadEcc) :
    ∀ i ∈ ([.mspiCmd ws, .mspiCpl, .mspiRd a n x, .mspiWr a ws, .mspiStat, .mspiBadOpcode] : List Instr),
      exec i s = .next s := by
  have hcmd : s.mspiCmd ws = s.toDev := if_pos h
  have hcpl : s.mspiCpl = s.toDev := if_pos h
  have hrd : s.mspiRd a.toNat n.toNat x.bad x.fixed = s.toDev := if_pos h
  have hwr : s.mspiWr a.toNat ws = s.toDev := if_pos h
  have hstat : s.mspiStat = s.toDev := if_pos h
  have hbad : (if s.sys.mode = .reset then s.toDev else s.toDev.mspiFault) = s.toDev := if_pos h
  simp only [List.forall_mem_cons, List.not_mem_nil, false_implies, implies_true, and_true]
  exact ⟨by rw [exec_mspiCmd, hcmd], by rw [exec_mspiCpl, hcpl], by rw [exec_mspiRd, hrd], by rw [exec_mspiWr, hwr],
    by rw [exec_mspiStat, hstat], by rw [exec_mspiBadOpcode, hbad]⟩

/-- Settles O59, opcode by opcode: the words of an RD before the first that has an error leave the device as it was, a
WR is its words in order, and a command is taken as its row takes it. -/
theorem servicePortsAnswer : Obligations.ServicePortsAnswer := by
  unfold Obligations.ServicePortsAnswer
  intro s Err u
  refine ⟨fun h => exec_mspi_of_reset h, fun hm => ⟨fun ws hws => ?_, fun ws code c hws hp => ?_,
    fun ws i code c k hws hi hp hr => ?_, fun ws code c hws hc hp hf => ?_, fun hnil => ?_, fun c r hcons => ?_,
    fun a n x ws ha => ⟨?_, ?_⟩, fun a n m ha hgood => ⟨fun hmn => ?_, fun hmn hserved => ?_, fun hmn k hk => ?_⟩,
    fun a n x ha hn hun => ?_, fun x hboot hlo hhi => ?_, fun a ws ha hlo hhi hstill hmode => ?_,
    fun a v ws ha => ⟨fun hok => ?_, fun hok hplay => ?_⟩, fun a ha => ?_, ?_, ?_⟩, fun i x hi => ⟨fun hu => ?_, fun hu => ?_⟩⟩
  · rw [exec_mspiCmd, Dev.mspiCmd_of_none hm hws]
    rfl
  · rw [exec_mspiCmd, Dev.mspiCmd_of_closed hm hws hp]
    rfl
  · rw [exec_mspiCmd, Dev.mspiCmd_of_room hm hws hp hr, exec_of_mem_commandRows (k := k) hi]
  · obtain ⟨herr, hans, hwait⟩ := Dev.mspiCmd_of_full hm hws hc hp hf
    exact ⟨_, exec_mspiCmd s ws, herr, hans, hwait⟩
  · rw [exec_mspiCpl, Dev.mspiCpl_of_nil hm hnil]
  · rw [exec_mspiCpl, Dev.mspiCpl_of_cons hm hcons]
  · rw [exec_mspiRd, Dev.mspiRd, if_neg hm, if_pos ha]
    rfl
  · rw [exec_mspiWr, Dev.mspiWr, if_neg hm, if_pos ha]
    rfl
  · have hu : ∀ k, k < m → u.RdGood a.toNat k := fun k hk => (Dev.RdGood.mk (hgood k hk).1 (hgood k hk).2.1 (hgood k hk).2.2).settle
    rw [exec_mspiRd, Dev.mspiRd_of_aligned hm ha, ← hmn, Dev.mspiWords_all hu]
    rfl
  · have hu : ∀ k, k < m → u.RdGood a.toNat k := fun k hk => (Dev.RdGood.mk (hgood k hk).1 (hgood k hk).2.1 (hgood k hk).2.2).settle
    have hlen : n.toNat = m + (n.toNat - m - 1 + 1) := by omega
    have hwords := Dev.mspiWords_stop (n.toNat - m - 1) hu ((Dev.mspiServed_settle s.toDev _).trans hserved)
    rw [← hlen] at hwords
    obtain ⟨hcis, hnvr⟩ := u.readBad_sticky (a.toNat + 4 * m)
    rw [exec_mspiRd, Dev.mspiRd_of_aligned hm ha, hwords]
    exact ⟨_, rfl, rfl, rfl, hcis, hnvr⟩
  · have hu : ∀ j, j < m → u.RdGood a.toNat j := fun j hj => (Dev.RdGood.mk (hgood j hj).1 (hgood j hj).2.1 (hgood j hj).2.2).settle
    obtain ⟨hstate, hlen⟩ := Dev.mspiWords_fixed hu hk
    obtain ⟨hcis, hnvr⟩ := u.readFixed_sticky (a.toNat + 4 * k)
    rw [exec_mspiRd, Dev.mspiRd_of_aligned hm ha, ← hmn, hstate]
    exact ⟨_, rfl, hlen, fun o ho hb => hcis o ho (by rw [Dev.cisBytes_settle]; exact hb), hnvr⟩
  · obtain ⟨hwords, hstate⟩ := Dev.mspiWords_unserved (a := a.toNat) (bad := x.bad) (fixed := x.fixed) n.toNat 0 u
      (fun j _ hj => (Dev.mspiServed_settle s.toDev _).trans (hun j (by omega)))
    rw [exec_mspiRd, Dev.mspiRd_of_aligned hm ha, hwords, hstate, if_neg (by omega)]
    rfl
  · obtain ⟨k, o, hloc⟩ := locOf_pgm hlo hhi
    rw [Dev.mspiServed, hloc, decide_eq_false hboot]
    rfl
  · obtain ⟨mem, hmem⟩ := s.toDev.setWords_only ws a.toNat
    rw [exec_mspiWr, Dev.mspiWr_pgm hm ha ⟨hmode, hstill⟩ hlo hhi]
    exact ⟨_, rfl, fun k hk => Dev.word_setWords ws _ _ k hk, fun b hb => Dev.byte_setWords_of_out ws _ _ b hb, by rw [hmem]⟩
  · obtain ⟨hcards, honly⟩ := s.toDev.modeRej_only a.toNat
    have hhost : (s.toDev.modeRej a.toNat).host = s.host := by
      have h := congrArg Dev.host honly
      exact h
    rw [exec_mspiWr, Dev.mspiWr_of_refused hm ha hok]
    refine ⟨_, rfl, ?_, hcards, ?_⟩
    · show ({ (s.toDev.modeRej a.toNat).host with mspiErr := true } : HostIf) = _
      rw [hhost]
    · exact congrArg (fun d : Dev => ({ d with host := s.host } : Dev)) honly
  · rw [exec_mspiWr, Dev.mspiWr_of_inPlay hm ha hok hplay]
    rfl
  · rw [exec_mspiWr, Dev.mspiWr_nil ha]
  · rw [exec_mspiStat, Dev.mspiStat, if_neg hm]
    rfl
  · rw [exec_mspiBadOpcode, if_neg hm]
    rfl
  · rw [exec_of_mem_tapRows hi, Dev.tap_of_unpowered hu]
  · obtain ⟨hjtag, htdo, hrest⟩ := Dev.tap_of_powered hu x
    exact ⟨_, exec_of_mem_tapRows hi s, hjtag, htdo, hrest⟩

end Sys2Proof.Machine
end

section
/-! PROOFS. Links and lanes (R302, R303, R330-R347): what a link's change leaves, the width it takes, and a lane's
attempts. -/

namespace Sys2Proof.Machine

/-! ### What a change of links and lanes leaves -/

/-- Nothing but cards of faults, the fault unit, lanes and links differs. -/
structure Dev.Wired (s t : Dev) : Prop where
  up   : Upset s t
  only : ∃ r f n l, t = { s with regs := r, flt := f, lanes := n, links := l }

namespace Dev.Wired

theorem refl (s : Dev) : Dev.Wired s s := ⟨Upset.refl s, _, _, _, _, rfl⟩

theorem trans {s t u : Dev} (h : Dev.Wired s t) (k : Dev.Wired t u) : Dev.Wired s u := by
  refine ⟨h.up.trans k.up, ?_⟩
  obtain ⟨_, _, _, _, rfl⟩ := h.only
  obtain ⟨_, _, _, _, hk⟩ := k.only
  exact ⟨_, _, _, _, hk⟩

theorem setLane (s : Dev) (n : Nat) (x : Lane) : Dev.Wired s (s.setLane n x) := ⟨Upset.setLane s n x, _, _, _, _, rfl⟩
theorem setLink (s : Dev) (n : Nat) (x : Link) : Dev.Wired s (s.setLink n x) := ⟨Upset.setLink s n x, _, _, _, _, rfl⟩
theorem onLane (s : Dev) (n : Nat) (f : Lane → Lane) : Dev.Wired s (s.onLane n f) := setLane s n _
theorem onLink (s : Dev) (n : Nat) (f : Link → Link) : Dev.Wired s (s.onLink n f) := setLink s n _

theorem note (s : Dev) {f : Nat} (h : f < 384) : Dev.Wired s (s.note f) := by
  obtain ⟨r, g, hnote⟩ := s.noteFrame_note f
  exact ⟨Upset.note s h, r, g, s.lanes, s.links, hnote⟩

theorem forN {n : Nat} {f : Nat → Dev → Dev} (h : ∀ i s, Dev.Wired s (f i s)) (s : Dev) : Dev.Wired s (Machine.forN n f s) :=
  forL_keeps (I := Dev.Wired s) (fun i _ t ht => ht.trans (h i t)) (refl s)

theorem sys {s t : Dev} (h : Dev.Wired s t) : t.sys = s.sys := by
  obtain ⟨_, _, _, _, rfl⟩ := h.only
  rfl

theorem mem {s t : Dev} (h : Dev.Wired s t) : t.mem = s.mem := by
  obtain ⟨_, _, _, _, rfl⟩ := h.only
  rfl

theorem back {s t : Dev} (h : Dev.Wired s t) :
    ({ t with regs := s.regs, flt := s.flt, lanes := s.lanes, links := s.links } : Dev) = s := by
  obtain ⟨_, _, _, _, rfl⟩ := h.only
  rfl

end Dev.Wired

/-! ### Lanes and links of tables -/

theorem Dev.lane_onLane (s : Dev) (n k : Nat) (f : Lane → Lane) :
    (s.onLane n f).lane k = if k = n then f (s.lane n) else s.lane k := by
  unfold Dev.onLane
  split
  · next h => rw [h, Dev.lane_setLane_self]
  · next h => exact Dev.lane_setLane_of_ne s h _

theorem Dev.link_onLink (s : Dev) (n k : Nat) (f : Link → Link) :
    (s.onLink n f).link k = if k = n then f (s.link n) else s.link k := by
  unfold Dev.onLink
  split
  · next h => rw [h, Dev.link_setLink_self]
  · next h => exact Dev.link_setLink_of_ne s h _

@[simp] theorem Dev.lane_onLink (s : Dev) (n k : Nat) (f : Link → Link) : (s.onLink n f).lane k = s.lane k := rfl
@[simp] theorem Dev.link_onLane (s : Dev) (n k : Nat) (f : Lane → Lane) : (s.onLane n f).link k = s.link k := rfl
@[simp] theorem Dev.link_setLane (s : Dev) (n k : Nat) (x : Lane) : (s.setLane n x).link k = s.link k := rfl
@[simp] theorem Dev.lane_setLink (s : Dev) (n k : Nat) (x : Link) : (s.setLink n x).lane k = s.lane k := rfl

@[simp] theorem Dev.link_note (s : Dev) (f k : Nat) : (s.note f).link k = s.link k := by
  obtain ⟨_, _, h⟩ := s.noteFrame_note f
  rw [h]
  rfl

@[simp] theorem Dev.lane_note (s : Dev) (f k : Nat) : (s.note f).lane k = s.lane k := by
  obtain ⟨_, _, h⟩ := s.noteFrame_note f
  rw [h]
  rfl

/-! ### What is sent (R335, R347) -/

@[simp] theorem Link.pumpGo_inSvc (ms : List Msg) : ∀ (held : List Nat) (k : Link), (Link.pumpGo ms held k).inSvc = k.inSvc := by
  induction ms with
  | nil => intro held k; rfl
  | cons m r ih =>
    intro held k
    have hsend : (k.send m).inSvc = k.inSvc := by
      unfold Link.send Link.spend
      dsimp only
      split
      · rfl
      · split <;> rfl
    rw [Link.pumpGo]
    split
    · rw [ih, hsend]
    · exact ih _ k

@[simp] theorem Link.pump_inSvc (k : Link) : k.pump.inSvc = k.inSvc := Link.pumpGo_inSvc _ _ _

/-- With nothing queued nothing is sent. -/
theorem Link.pump_of_empty {k : Link} (h : k.queue = []) : k.pump = k := by
  rw [Link.pump, h, Link.pumpGo, ← h]

theorem Dev.moveMsgs_wired (s : Dev) (l : Nat) :
    Dev.Wired s (s.moveMsgs l) ∧ (s.moveMsgs l).lanes = s.lanes ∧ ∀ k, ((s.moveMsgs l).link k).inSvc = (s.link k).inSvc := by
  unfold Dev.moveMsgs
  dsimp only
  split
  case h_1 t hdown _ =>
    refine ⟨(Dev.Wired.setLink s _ _).trans (Dev.Wired.onLink _ _ _), rfl, fun k => ?_⟩
    have hset : ∀ n, ((s.setLink l { s.link l with queue := [], sent := [], acked := ((s.link l).seq + 4095) % 4096 }).link n).inSvc =
        (s.link n).inSvc := fun n => by
      by_cases hn : n = l
      · subst hn
        rw [Dev.link_setLink_self]
      · rw [Dev.link_setLink_of_ne _ hn]
    rw [Dev.link_onLink]
    split
    · next hk => rw [hk]; exact (Link.pump_inSvc _).trans (hset t)
    · exact hset k
  case h_2 => exact ⟨Dev.Wired.refl s, rfl, fun _ => rfl⟩

theorem Dev.moveAll_wired (s : Dev) :
    Dev.Wired s s.moveAll ∧ s.moveAll.lanes = s.lanes ∧ ∀ k, (s.moveAll.link k).inSvc = (s.link k).inSvc :=
  forL_keeps (I := fun t : Dev => Dev.Wired s t ∧ t.lanes = s.lanes ∧ ∀ k, (t.link k).inSvc = (s.link k).inSvc)
    (fun l _ t ht => by
      obtain ⟨hw, hlanes, hsvc⟩ := t.moveMsgs_wired l
      exact ⟨ht.1.trans hw, hlanes.trans ht.2.1, fun k => (hsvc k).trans (ht.2.2 k)⟩)
    ⟨Dev.Wired.refl s, rfl, fun _ => rfl⟩

/-- A replay counts, and is noted where something is sent again (R343). -/
theorem Dev.replay_wired (s : Dev) (l : Nat) :
    Dev.Wired s (s.replay l) ∧ (s.replay l).lanes = s.lanes ∧ ∀ k, ((s.replay l).link k).inSvc = (s.link k).inSvc := by
  unfold Dev.replay
  split
  · exact ⟨Dev.Wired.refl s, rfl, fun _ => rfl⟩
  · refine ⟨(Dev.Wired.onLink s _ _).trans (Dev.Wired.note _ (by decide)), ?_, fun k => ?_⟩
    · obtain ⟨_, _, h⟩ := (s.onLink l (fun k => { k with replays := min (k.replays + 1) 65535, same := k.same + 1 })).noteFrame_note 98
      rw [h]
      rfl
    · rw [Dev.link_note, Dev.link_onLink]
      split
      · next h => rw [h]
      · rfl

theorem Dev.linkDown_wired (s : Dev) (l : Nat) :
    Dev.Wired s (s.linkDown l) ∧ (s.linkDown l).lanes = s.lanes ∧ ((s.linkDown l).link l).inSvc = [] := by
  unfold Dev.linkDown
  extract_lets u
  have hu : Dev.Wired s u ∧ u.lanes = s.lanes ∧ (u.link l).inSvc = [] :=
    ⟨Dev.Wired.onLink s _ _, rfl, by unfold u; rw [Dev.link_onLink, if_pos rfl]⟩
  clear_value u
  obtain ⟨hw, hlanes, hsvc⟩ := u.moveMsgs_wired l
  obtain ⟨_, _, hnote⟩ := (u.moveMsgs l).noteFrame_note 97
  refine ⟨(hu.1.trans hw).trans (Dev.Wired.note _ (by decide)), ?_, ?_⟩
  · rw [hnote]
    exact hlanes.trans hu.2.1
  · rw [Dev.link_note, hsvc, hu.2.2]

/-! ### The width of a link (R330, R345) -/

/-- The lanes a link may take, by their four answers. -/
def picked (p : Nat → Bool) : List Nat := (List.range 4).filter p

theorem picked_congr {p q : Nat → Bool} (h : ∀ i, i < 4 → p i = q i) : picked p = picked q :=
  List.filter_congr (fun i hi => h i (List.mem_range.mp hi))

/-- Dropping lanes that the widest set left out does not change it. -/
theorem widest_picked {p q : Nat → Bool} (hle : ∀ i, i < 4 → q i = true → p i = true)
    (hge : ∀ i, i < 4 → p i = true → i ∈ widest (picked p) → q i = true) : widest (picked q) = widest (picked p) := by
  have hcases : ∀ a b : Fin 4 → Bool, (∀ i, b i = true → a i = true) →
      (∀ i, a i = true → i.val ∈ widest (picked (fun n => a (Fin.ofNat 4 n))) → b i = true) →
      widest (picked (fun n => b (Fin.ofNat 4 n))) = widest (picked (fun n => a (Fin.ofNat 4 n))) := by
    decide
  have hfin : ∀ r : Nat → Bool, picked (fun n => r (Fin.ofNat 4 n).val) = picked r :=
    fun r => picked_congr (fun i hi => by rw [Fin.val_ofNat, Nat.mod_eq_of_lt hi])
  have h := hcases (fun i => p i.val) (fun i => q i.val) (fun i => hle i.val i.isLt)
    (fun i hi hm => hge i.val i.isLt hi (by rw [hfin p] at hm; exact hm))
  rw [hfin p, hfin q] at h
  exact h

/-- What makes a lane of a link usable. -/
def Dev.offers? (s : Dev) (l i : Nat) : Bool :=
  (s.lane (4 * l + i)).usable || ((s.lane (4 * l + i)).failed && (s.lane (4 * l + i)).partner && (s.link l).inSvc.contains i)

theorem Dev.usable_eq (s : Dev) (l : Nat) : s.usable l = picked (s.offers? l) := rfl

theorem Dev.usable_congr {s t : Dev} {l : Nat} (hk : (t.link l).inSvc = (s.link l).inSvc)
    (hl : ∀ i, i < 4 → (t.lane (4 * l + i)).st = (s.lane (4 * l + i)).st ∧
      (t.lane (4 * l + i)).partner = (s.lane (4 * l + i)).partner ∧ (t.lane (4 * l + i)).failed = (s.lane (4 * l + i)).failed) :
    t.usable l = s.usable l := by
  rw [Dev.usable_eq, Dev.usable_eq]
  refine picked_congr (fun i hi => ?_)
  obtain ⟨hst, hpartner, hfailed⟩ := hl i hi
  unfold Dev.offers? Lane.usable
  rw [hk, hst, hpartner, hfailed]

theorem Dev.lane_of_lanes {s t : Dev} (h : t.lanes = s.lanes) (n : Nat) : t.lane n = s.lane n := by
  unfold Dev.lane
  rw [h]

/-- Once the link has the widest set, that set stays the widest (R303). -/
theorem Dev.widest_usable_of_taken {s t : Dev} {l : Nat} (hlanes : t.lanes = s.lanes)
    (hk : (t.link l).inSvc = widest (s.usable l)) : widest (t.usable l) = widest (s.usable l) := by
  have hsub : ∀ i, i ∈ widest (s.usable l) → i < 4 → s.offers? l i = true := by
    have hmem : ∀ u : List Nat, ∀ i ∈ widest u, i ∈ u := by
      intro u i hi
      unfold widest at hi
      dsimp only at hi
      split_ifs at hi
      all_goals simp_all
      · rcases hi with rfl | rfl | rfl | rfl <;> tauto
      · rcases hi with rfl | rfl <;> tauto
      · rcases hi with rfl | rfl <;> tauto
      · exact List.mem_of_mem_take hi
    intro i hi hlt
    have := hmem _ i hi
    rw [Dev.usable_eq] at this
    exact (List.mem_filter.mp this).2
  rw [Dev.usable_eq t, Dev.usable_eq s]
  refine widest_picked (fun i hi hq => ?_) (fun i hi hp hm => ?_)
  · unfold Dev.offers? at hq
    rw [hk, Dev.lane_of_lanes hlanes] at hq
    rcases Bool.or_eq_true_iff.mp hq with hu | hf
    · unfold Dev.offers?
      rw [hu, Bool.true_or]
    · exact hsub i (by simpa using (Bool.and_eq_true_iff.mp hf).2) hi
  · unfold Dev.offers? at hp ⊢
    rw [hk, Dev.lane_of_lanes hlanes]
    rcases Bool.or_eq_true_iff.mp hp with hu | hf
    · rw [hu, Bool.true_or]
    · rw [(Bool.and_eq_true_iff.mp hf).1, Bool.true_and, show (widest (s.usable l)).contains i = true by
        rw [Dev.usable_eq]; simpa using hm, Bool.or_true]

end Sys2Proof.Machine
end

section
/-! PROOFS. The width a link takes, and how its lanes train (R303, R343-R345). -/

namespace Sys2Proof.Machine

theorem widest_eq_nil {u : List Nat} (h : widest u = []) : u = [] := by
  unfold widest at h
  dsimp only at h
  split_ifs at h
  exact (List.take_eq_nil_iff.mp h).resolve_left Nat.one_ne_zero

/-- A link takes the widest set its usable lanes fill, unless it is DOWN and not granted (R336, R345). -/
theorem Dev.agree_wired (s : Dev) (l : Nat) :
    Dev.Wired s (s.agree l) ∧ (s.agree l).lanes = s.lanes ∧
      ((s.agree l).link l).inSvc =
        if (s.link l).inSvc = [] ∧ (s.link l).granted = false then [] else widest (s.usable l) := by
  unfold Dev.agree
  extract_lets k w u
  split
  case isTrue hsame =>
    refine ⟨Dev.Wired.refl s, rfl, ?_⟩
    show k.inSvc = _
    split
    case isTrue h => exact h.1
    case isFalse => exact hsame.symm
  split
  case isTrue hnone =>
    have hw : w = [] := List.isEmpty_iff.mp hnone
    obtain ⟨hwired, hlanes, hsvc⟩ := s.linkDown_wired l
    refine ⟨hwired, hlanes, hsvc.trans ?_⟩
    split
    · rfl
    · exact hw.symm
  split
  case isTrue hshut =>
    have hshut : k.inSvc = [] ∧ k.granted = false := by simpa using hshut
    refine ⟨Dev.Wired.refl s, rfl, ?_⟩
    rw [if_pos hshut]
    exact hshut.1
  case isFalse hopen =>
    have hopen : ¬(k.inSvc = [] ∧ k.granted = false) := by simpa using hopen
    have hu : Dev.Wired s u ∧ u.lanes = s.lanes ∧ (u.link l).inSvc = w :=
      ⟨Dev.Wired.onLink s _ _, rfl, by unfold u; rw [Dev.link_onLink, if_pos rfl]⟩
    have hpump : ∀ t : Dev, Dev.Wired u t ∧ t.lanes = u.lanes ∧ (∀ n, (t.link n).inSvc = (u.link n).inSvc) →
        Dev.Wired s (t.onLink l Link.pump) ∧ (t.onLink l Link.pump).lanes = s.lanes ∧
          ((t.onLink l Link.pump).link l).inSvc = widest (s.usable l) := by
      intro t ht
      refine ⟨(hu.1.trans ht.1).trans (Dev.Wired.onLink t _ _), ht.2.1.trans hu.2.1, ?_⟩
      rw [Dev.link_onLink, if_pos rfl, Link.pump_inSvc, ht.2.2, hu.2.2]
    clear_value u
    rw [if_neg hopen]
    split
    · exact hpump _ u.moveAll_wired
    · exact hpump _ (u.replay_wired l)

theorem Dev.lane_agree (s : Dev) (l n : Nat) : (s.agree l).lane n = s.lane n := Dev.lane_of_lanes (s.agree_wired l).2.1 n

/-- Where its lanes fill just the set in service nothing changes. -/
theorem Dev.agree_of_same {s : Dev} {l : Nat} (h : widest (s.usable l) = (s.link l).inSvc) : s.agree l = s := by
  unfold Dev.agree
  dsimp only
  rw [if_pos h]

/-- What a link is after it took its width: none where it is DOWN and not granted (R345). -/
theorem Dev.agree_agreed (s : Dev) (l : Nat) :
    ((s.agree l).link l).inSvc =
      if (s.link l).inSvc = [] ∧ (s.link l).granted = false then [] else widest ((s.agree l).usable l) := by
  obtain ⟨-, hlanes, hsvc⟩ := s.agree_wired l
  split
  case isTrue h => rw [hsvc, if_pos h]
  case isFalse h =>
    have hsvc' : ((s.agree l).link l).inSvc = widest (s.usable l) := by rw [hsvc, if_neg h]
    rw [hsvc', Dev.widest_usable_of_taken hlanes hsvc']

/-! ### Training (R344, R348) -/

/-- The lane as an attempt takes it. -/
def Dev.trained (s : Dev) (j n : Nat) : Lane :=
  { s.lane j with
    st := .train, attempt := n, total := min 255 ((s.lane j).total + 1), ready := false
    eq := if (s.rd (aLnk (32 * j + 4))).bit 0 then some (s.rd (aLnk (32 * j + 8))) else none
    pat := if s.sys.mode = .diagnostic then (s.rd (aLnk (32 * j + 4))).fld 9 8 % 3 else 0 }

theorem Dev.attempt_eq (s : Dev) (j n : Nat) : s.attempt j n = s.setLane j (s.trained j n) := rfl

/-- The number of the attempt that follows a loss of lock. -/
def Dev.nextAttempt (s : Dev) (j : Nat) : Nat :=
  if 625000 * s.mult ≤ s.clk.eclk - (s.lane j).upAt then 1 else min 3 ((s.lane j).attempt + 1)

/-- A lane that leaves UP. -/
def Dev.lostLane (s : Dev) (j : Nat) : Lane := { s.trained j (s.nextAttempt j) with row := 0, errAt := [] }

theorem Dev.retrain_of_down {s : Dev} {j : Nat} (h : (s.lane j).st ≠ .up) : s.retrain j = s := by
  unfold Dev.retrain
  dsimp only
  rw [if_pos h]

theorem Dev.retrain_of_up {s : Dev} {j : Nat} (h : (s.lane j).st = .up) :
    ∃ u, s.retrain j = u.agree (j / 4) ∧ Dev.Wired s u ∧ u.links = s.links ∧
      ∀ n, u.lane n = if n = j then s.lostLane j else s.lane n := by
  refine ⟨(s.attempt j (s.nextAttempt j)).onLane j (fun x => { x with row := 0, errAt := [] }), ?_,
    (Dev.Wired.setLane s _ _).trans (Dev.Wired.onLane _ _ _), rfl, fun n => ?_⟩
  · unfold Dev.retrain
    dsimp only
    rw [if_neg (by simp [h])]
    rfl
  · rw [Dev.lane_onLane, Dev.attempt_eq, Dev.lane_setLane_self]
    split
    · rfl
    · next hn => exact Dev.lane_setLane_of_ne s hn _

theorem Dev.retrain_wired (s : Dev) (j : Nat) : Dev.Wired s (s.retrain j) := by
  by_cases h : (s.lane j).st = .up
  · obtain ⟨u, heq, hw, -, -⟩ := Dev.retrain_of_up h
    rw [heq]
    exact hw.trans (u.agree_wired _).1
  · rw [Dev.retrain_of_down h]
    exact Dev.Wired.refl s

/-- A lane that is UP trains again, and no other lane differs. -/
theorem Dev.lane_retrain (s : Dev) (j n : Nat) :
    (s.retrain j).lane n = if n = j ∧ (s.lane j).st = .up then s.lostLane j else s.lane n := by
  by_cases h : (s.lane j).st = .up
  · obtain ⟨u, heq, -, -, hlane⟩ := Dev.retrain_of_up h
    rw [heq, Dev.lane_agree, hlane]
    simp only [h, and_true]
  · rw [Dev.retrain_of_down h, if_neg (by tauto)]

theorem Dev.lostLane_st (s : Dev) (j : Nat) : (s.lostLane j).st = .train ∧ (s.lostLane j).partner = (s.lane j).partner := ⟨rfl, rfl⟩

/-- Training again lists no other lanes of the partner (R344). -/
theorem Dev.lane_retrain_partner (s : Dev) (j n : Nat) : ((s.retrain j).lane n).partner = (s.lane n).partner := by
  rw [Dev.lane_retrain]
  split
  · next h => rw [h.1]; exact (s.lostLane_st j).2
  · rfl

/-- The lane as it comes UP (R344). -/
def Dev.raisedLane (s : Dev) (j : Nat) : Lane :=
  { s.lane j with st := .up, ready := false, row := 0, errAt := [], upAt := s.clk.eclk }

theorem Dev.laneUp_of_idle {s : Dev} {j : Nat} (h : ¬((s.lane j).st = .train ∧ (s.lane j).ready = true ∧ (s.lane j).partner = true)) :
    s.laneUp j = s := by
  unfold Dev.laneUp
  dsimp only
  rw [if_neg]
  intro hc
  simp only [Bool.and_eq_true, decide_eq_true_eq] at hc
  exact h ⟨hc.1.1, hc.1.2, hc.2⟩

theorem Dev.laneUp_of_ready {s : Dev} {j : Nat} (h : (s.lane j).st = .train ∧ (s.lane j).ready = true ∧ (s.lane j).partner = true) :
    s.laneUp j = (s.setLane j (s.raisedLane j)).agree (j / 4) := by
  unfold Dev.laneUp
  dsimp only
  rw [if_pos (by simp [h.1, h.2.1, h.2.2])]
  rfl

theorem Dev.laneUp_wired (s : Dev) (j : Nat) : Dev.Wired s (s.laneUp j) := by
  by_cases h : (s.lane j).st = .train ∧ (s.lane j).ready = true ∧ (s.lane j).partner = true
  · rw [Dev.laneUp_of_ready h]
    exact (Dev.Wired.setLane s _ _).trans (Dev.agree_wired _ _).1
  · rw [Dev.laneUp_of_idle h]
    exact Dev.Wired.refl s

theorem Dev.lane_laneUp (s : Dev) (j n : Nat) :
    (s.laneUp j).lane n =
      if n = j ∧ (s.lane j).st = .train ∧ (s.lane j).ready = true ∧ (s.lane j).partner = true then s.raisedLane j else s.lane n := by
  by_cases h : (s.lane j).st = .train ∧ (s.lane j).ready = true ∧ (s.lane j).partner = true
  · rw [Dev.laneUp_of_ready h, Dev.lane_agree]
    by_cases hn : n = j
    · rw [hn, Dev.lane_setLane_self, if_pos ⟨rfl, h⟩]
    · rw [Dev.lane_setLane_of_ne s hn, if_neg (fun hc => hn hc.1)]
  · rw [Dev.laneUp_of_idle h, if_neg (fun hc => h hc.2)]

/-! ### LANE_FAIL (R303, R344) -/

/-- The occurrence that a repair of class x joins stays below SAFE and voids no site. -/
structure Dev.Low (s : Dev) (x : Nat) : Prop where
  lvl  : (s.occNow x).lvl ≤ 1
  srcs : ∀ r ∈ (s.occNow x).srcs, r.2 = []

theorem Dev.low_of_alone {s : Dev} (h : s.flt.joined = []) (x : Nat) : s.Low x := by
  have hnow : s.occNow x = noOcc x := by rw [Dev.occNow, h]; rfl
  constructor
  · rw [hnow]; exact Nat.zero_le 1
  · rw [hnow]; exact fun r hr => absurd hr List.not_mem_nil

theorem Dev.Low.congr {s t : Dev} {x : Nat} (h : s.Low x) (hf : t.flt = s.flt) : t.Low x := by
  have hnow : t.occNow x = s.occNow x := by unfold Dev.occNow; rw [hf]
  exact ⟨hnow ▸ h.lvl, hnow ▸ h.srcs⟩

theorem Dev.recordRaise_flt (s : Dev) (e f : Nat) : (s.recordRaise e f).flt = s.flt := by
  simp only [Dev.recordRaise, Dev.markRaise, Dev.incSat, Dev.setFld, Dev.setBits, Dev.wr_flt]

theorem Dev.markRaise_flt (s : Dev) (f : Nat) : (s.markRaise f).flt = s.flt := by
  simp only [Dev.markRaise, Dev.incSat, Dev.setFld, Dev.setBits, Dev.wr_flt]

/-- A note leaves only itself in the tick's occurrences (R291, R292). -/
theorem Dev.low_note {s : Dev} (h : s.flt.joined = []) (f x : Nat) : (s.note f).Low x := by
  have hnow : s.occNow (f / 32) = noOcc (f / 32) := by rw [Dev.occNow, h]; rfl
  have hjudge : s.judgeOcc (f / 32) 0 = (0, 0) := by rw [Dev.judgeOcc, hnow]; rfl
  unfold Dev.note
  split
  · rw [hjudge]
    dsimp only
    rw [Dev.recordOcc, hnow]
    have hrec := s.recordRaise_flt 0 f
    show (Dev.countOcc (s.recordRaise 0 f) (f / 32) 0 0 (noOcc (f / 32)) [(f, [])]).Low x
    generalize s.recordRaise 0 f = u at hrec ⊢
    simp only [Dev.countOcc, noOcc, List.map_nil, List.filter_nil, forL, List.foldl_nil, List.isEmpty_nil, if_true]
    have hinc : (u.incSat (aCls (f / 32)) 15 0).flt.joined = [] := by rw [Dev.incSat_flt, hrec, h]
    generalize u.incSat (aCls (f / 32)) 15 0 = d at hinc ⊢
    split
    · have hone : ∀ t : Dev, t.flt.joined = [{ cls := f / 32, lvl := 0, eff := 0, srcs := [(f, [])] }] → t.Low x := by
        intro t ht
        unfold Dev.occNow at *
        constructor
        all_goals
          unfold Dev.occNow
          rw [ht, List.find?_cons]
          split
          · simp
          · simp
      apply hone
      simp [hinc]
    · rw [if_neg (by decide)]
      exact Dev.low_of_alone (by exact hinc) x
  · exact Dev.low_of_alone (by rw [Dev.markRaise_flt, h]) x

/-- A repair of one unit with no aim, in a class that stays below SAFE (R299, R302). -/
theorem Dev.Low.raise_repairOf {s : Dev} {f x : Nat} (hlow : s.Low x) (hf : f < 384) (hen : fltMaskable f = false)
    (hx : f / 32 = x) (u : Nat) : ∃ v, s.NoteFrame v ∧ s.raise (repairOf f u []) = v.repair f u := by
  subst hx
  have hen' : ((repairOf f u []).forced || s.srcEn (repairOf f u []).f) = true := Dev.srcEn_of_unmaskable (s := s) (f := f) hen
  have hvoid : ∀ (c : Nat) (t : Dev), t.voidSites c [] = t := fun _ _ => rfl
  have hjudge : (s.judgeOcc (f / 32) 1).2 < 3 := by
    have := hlow.lvl
    unfold Dev.judgeOcc effLevel
    dsimp only
    split <;> omega
  refine ⟨_, s.noteFrame_recordOcc (f / 32) (s.judgeOcc (f / 32) 1).1 (s.judgeOcc (f / 32) 1).2 [(f, [])], ?_⟩
  rw [Dev.raise_eq_occur (r := repairOf f u []) hf hen', Dev.occur]
  show Dev.reacts (s.recordOcc (f / 32) (s.judgeOcc (f / 32) 1).1 (s.judgeOcc (f / 32) 1).2 [(f, [])]) (f / 32)
    (s.judgeOcc (f / 32) 1).2 (s.occNow (f / 32)) [repairOf f u []] = _
  generalize s.recordOcc (f / 32) (s.judgeOcc (f / 32) 1).1 (s.judgeOcc (f / 32) 1).2 [(f, [])] = v
  have hearlier : forL (s.occNow (f / 32)).srcs (fun r t => t.voidSites (causeBit r.1) r.2) v = v :=
    forL_keeps (I := fun t => t = v) (fun r hr t ht => by rw [hlow.srcs r hr, ht, hvoid]) rfl
  rw [Dev.reacts, if_neg (by omega)]
  dsimp only
  rw [hearlier, ite_self]
  show v.react _ (repairOf f u []) = _
  unfold Dev.react
  dsimp only
  have hnone : v.voidSites (causeBit (repairOf f u []).f) (repairOf f u []).sites = v := rfl
  rw [hnone, ite_self]
  rfl

/-- A lane that fails. -/
def Lane.broken (x : Lane) : Lane := { x with st := .failed, failed := true, ready := false }

theorem Dev.laneFail_raised (s : Dev) (j : Nat) : s.Raised (s.laneFail j) 96 :=
  s.repairOf_raised (f := 96) (by decide) (by decide) j []

/-- LANE_FAIL below SAFE: the lane fails, and no other lane differs (R303). -/
theorem Dev.laneFail_wired {s : Dev} (h : s.Low 3) (j : Nat) :
    Dev.Wired s (s.laneFail j) ∧ ∀ n, (s.laneFail j).lane n = if n = j then (s.lane j).broken else s.lane n := by
  obtain ⟨v, hnote, hraise⟩ := h.raise_repairOf (f := 96) (by decide) (by decide) (by decide) j
  have hfail : s.laneFail j = v.onLane j Lane.broken := hraise
  have hup : Upset s (s.laneFail j) := ⟨(s.laneFail_raised j).stays, (s.laneFail_raised j).rest⟩
  obtain ⟨r, f, rfl⟩ := hnote
  refine ⟨⟨hup, ?_⟩, fun n => ?_⟩
  · rw [hfail]
    exact ⟨_, _, _, _, rfl⟩
  · rw [hfail, Dev.lane_onLane]
    rfl

end Sys2Proof.Machine
end

section
/-! PROOFS. Lane training, codewords and flits that are lost, and CTRL flits (R332, R336, R342-R347). -/

namespace Sys2Proof.Machine

/-! ### Training and its timeouts -/

theorem exec_laneTrainDone (s : State) (j : Fin 16) : exec (.laneTrainDone j) s =
    .next { s with toDev := if (s.lane j).st = .train then (s.setLane j { s.lane j with ready := true }).laneUp j else s.toDev } := rfl

theorem exec_laneTrainTimeout (s : State) (j : Fin 16) : exec (.laneTrainTimeout j) s =
    .next { s with toDev := if (s.lane j).st ≠ .train then s.toDev
      else if 3 ≤ (s.lane j).attempt then s.laneFail j else s.attempt j ((s.lane j).attempt + 1) } := rfl

theorem exec_laneLockLoss (s : State) (j : Fin 16) : exec (.laneLockLoss j) s = .next { s with toDev := s.retrain j } := rfl

/-- An attempt that completes with the lane listed brings it UP (R344). -/
theorem Dev.laneUp_of_listed {s : Dev} {j : Nat} (ht : (s.lane j).st = .train) (hp : (s.lane j).partner = true) :
    (s.setLane j { s.lane j with ready := true }).laneUp j =
      ((s.setLane j { s.lane j with ready := true }).setLane j (s.raisedLane j)).agree (j / 4) := by
  rw [Dev.laneUp_of_ready (by rw [Dev.lane_setLane_self]; exact ⟨ht, rfl, hp⟩), Dev.raisedLane, Dev.lane_setLane_self]
  rfl

/-! ### Uncorrectable codewords (R342, R344) -/

theorem exec_codewordUncorrectable (s : State) (j : Fin 16) (d : Bool) :
    exec (.codewordUncorrectable j d) s = .next { s with toDev := s.uncorrectable j d } := rfl

theorem exec_flitCrcFail (s : State) (j : Fin 16) (d : Bool) : exec (.flitCrcFail j d) s =
    .next { s with toDev := if d then (s.onLane j (fun x => { x with row := 0 })).lostFlit (j.val / 4)
      else s.onLane j (fun x => { x with row := 0 }) } := rfl

/-- The link after a flit that carried data, or not, was lost. -/
def Link.asked (k : Link) (d : Bool) : Link := { k with nak := d || k.nak }

theorem Dev.lost_eq (s : Dev) (l : Nat) (d : Bool) :
    Dev.Wired s (if d then s.lostFlit l else s) ∧ (∀ n, (if d then s.lostFlit l else s).lane n = s.lane n) ∧
      (if d then s.lostFlit l else s).link l = (s.link l).asked d ∧
      ∀ n, n ≠ l → (if d then s.lostFlit l else s).link n = s.link n := by
  cases d with
  | true =>
    rw [if_pos rfl, Dev.lostFlit]
    refine ⟨Dev.Wired.onLink s _ _, fun _ => rfl, ?_, fun n hn => ?_⟩
    · rw [Dev.link_onLink, if_pos rfl]
      rfl
    · rw [Dev.link_onLink, if_neg hn]
  | false => exact ⟨Dev.Wired.refl s, fun _ => rfl, rfl, fun _ _ => rfl⟩

/-- FEC_UNCORR and its note. -/
def Dev.fecNoted (s : Dev) (j : Nat) : Dev := (s.incSat (aLnk (32 * j + 12)) 31 16).note 99

/-- What every uncorrectable codeword brings: FEC_UNCORR, its note, and NAK where data was lost. -/
def Dev.fecMet (s : Dev) (j : Nat) (d : Bool) : Dev :=
  if d then (s.fecNoted j).lostFlit (j / 4) else s.fecNoted j

/-- The lane with one more codeword in a row, and those inside the window of ERR_LIM. -/
def Dev.fecLane (s : Dev) (j : Nat) : Lane :=
  { s.lane j with
    row := (s.lane j).row + 1
    errAt := s.clk.eclk :: (s.lane j).errAt.filter (fun t => s.clk.eclk < t + 2 ^ 24 * 17 * s.mult / 28) }

/-- ERR_LIM of a lane. -/
def Dev.errLim (s : Dev) (j : Nat) : Nat := max 1 (s.fld (aLnk (32 * j + 4)) 27 16)

theorem Dev.uncorrectable_eq (s : Dev) (j : Nat) (d : Bool) : s.uncorrectable j d =
    if ((s.fecMet j d).lane j).st ≠ .up then s.fecMet j d
    else if (s.fecMet j d).errLim j ≤ ((s.fecMet j d).fecLane j).errAt.length then
      ((s.fecMet j d).setLane j ((s.fecMet j d).fecLane j)).laneFail j
    else if 8 ≤ ((s.fecMet j d).lane j).row + 1 then ((s.fecMet j d).setLane j ((s.fecMet j d).fecLane j)).retrain j
    else (s.fecMet j d).setLane j ((s.fecMet j d).fecLane j) := rfl

/-- The state of the device as every codeword leaves it. -/
structure Dev.FecMet (s : Dev) (j : Nat) (d : Bool) (u : Dev) : Prop where
  up     : Upset (s.fecNoted j) u
  only   : ∃ r f l, u = { s with regs := r, flt := f, links := l }
  link   : u.link (j / 4) = (s.link (j / 4)).asked d
  low    : s.flt.joined = [] → u.Low 3
  lim    : u.errLim j = s.errLim j
  mult   : u.mult = s.mult

theorem aLnk_page (o : Nat) : ¬(0x10000 ≤ aLnk o ∧ aLnk o < 0x20000) ∧ aLnk o ≠ 0x108 ∧ aLnk o ≠ 0x114 := by
  unfold aLnk
  omega

/-- The note of a codeword moves no card but FEC_UNCORR and the faults'. -/
theorem Dev.fecNoted_rd (s : Dev) (j : Nat) {a : Nat} (hne : a ≠ aLnk (32 * j + 12)) (hp : ¬(0x10000 ≤ a ∧ a < 0x20000))
    (h1 : a ≠ 0x108) (h2 : a ≠ 0x114) : (s.fecNoted j).rd a = s.rd a :=
  ((Upset.note (s.incSat (aLnk (32 * j + 12)) 31 16) (f := 99) (by decide)).rest.cards a hp h1 h2).trans
    (Dev.rd_wr_of_ne _ hne _)

theorem Dev.fecNoted_only (s : Dev) (j : Nat) : ∃ r f, s.fecNoted j = { s with regs := r, flt := f } := by
  have hinc : ∃ r, s.incSat (aLnk (32 * j + 12)) 31 16 = { s with regs := r } := ⟨_, rfl⟩
  obtain ⟨r, hr⟩ := hinc
  obtain ⟨r', f, h⟩ := (s.incSat (aLnk (32 * j + 12)) 31 16).noteFrame_note 99
  exact ⟨r', f, by rw [Dev.fecNoted, h, hr]⟩

theorem Dev.fecMet_met (s : Dev) (j : Nat) (d : Bool) : s.FecMet j d (s.fecMet j d) := by
  obtain ⟨r, f, honly⟩ := s.fecNoted_only j
  have hlow : s.flt.joined = [] → (s.fecNoted j).Low 3 := fun h =>
    Dev.low_note (s := s.incSat (aLnk (32 * j + 12)) 31 16) (by rw [Dev.incSat_flt, h]) 99 3
  obtain ⟨hp4, h4a, h4b⟩ := aLnk_page (32 * j + 4)
  have hlim : (s.fecNoted j).rd (aLnk (32 * j + 4)) = s.rd (aLnk (32 * j + 4)) :=
    s.fecNoted_rd j (by unfold aLnk; omega) hp4 h4a h4b
  have hmult : (s.fecNoted j).rd (aFrm 0) = s.rd (aFrm 0) :=
    s.fecNoted_rd j (by unfold aLnk aFrm; omega) (by decide) (by decide) (by decide)
  obtain ⟨hw, -, hlink, -⟩ := (s.fecNoted j).lost_eq (j / 4) d
  have hnoted : (s.fecNoted j).link (j / 4) = s.link (j / 4) := by rw [honly]; rfl
  have hflt : (s.fecMet j d).flt = (s.fecNoted j).flt ∧ (s.fecMet j d).regs = (s.fecNoted j).regs := by
    cases d <;> exact ⟨rfl, rfl⟩
  have hrd : ∀ a, (s.fecMet j d).rd a = (s.fecNoted j).rd a := fun a => by unfold Dev.rd; rw [hflt.2]
  refine ⟨hw.up, ?_, hlink.trans (by rw [hnoted]), fun h => (hlow h).congr hflt.1, ?_, ?_⟩
  · cases d with
    | true => exact ⟨r, f, _, by rw [Dev.fecMet, if_pos rfl, Dev.lostFlit, honly]; rfl⟩
    | false => exact ⟨r, f, s.links, by rw [Dev.fecMet, if_neg Bool.false_ne_true, honly]⟩
  · unfold Dev.errLim Dev.fld
    rw [hrd, hlim]
  · unfold Dev.mult Dev.fld
    rw [hrd, hmult]

/-! ### Flits that break the protocol (R336, R338) -/

theorem exec_proto (s : State) (l : Fin 4) (why : ProtoWhy) : exec (.proto l why) s =
    .next { s with toDev := (s.note 100).onLink l (fun k => { k with
      rx := (k.rx + 1) % 4096, nak := (match why with | .noCredit => k.nak | .badOp => false) }) } := by
  cases why <;> rfl

/-! ### O57 -/

/-- What an uncorrectable codeword leads to, by the lane's state and its counts (R342, R344). -/
theorem Dev.uncorrectable_ends (s : Dev) (j : Nat) (d : Bool) :
    let u := s.fecMet j d
    let t := s.uncorrectable j d
    Upset (s.fecNoted j) t ∧ (s.flt.joined = [] → t.mem = s.mem ∧ t.sys = s.sys) ∧
      ((s.lane j).st ≠ .up → t = u) ∧
      ((s.lane j).st = .up → (s.fecLane j).errAt.length < s.errLim j → (s.lane j).row < 7 → t = u.setLane j (s.fecLane j)) ∧
      ((s.lane j).st = .up → s.errLim j ≤ (s.fecLane j).errAt.length → s.flt.joined = [] →
        (t.lane j).st = .failed ∧ t.sticky 96 = true) ∧
      ((s.lane j).st = .up → (s.fecLane j).errAt.length < s.errLim j → 7 ≤ (s.lane j).row → (t.lane j).st = .train) := by
  intro u t
  have ht : t = s.uncorrectable j d := rfl
  have hmet : s.FecMet j d u := s.fecMet_met j d
  rw [Dev.uncorrectable_eq] at ht
  change t = if (u.lane j).st ≠ .up then u
    else if u.errLim j ≤ (u.fecLane j).errAt.length then (u.setLane j (u.fecLane j)).laneFail j
    else if 8 ≤ (u.lane j).row + 1 then (u.setLane j (u.fecLane j)).retrain j
    else u.setLane j (u.fecLane j) at ht
  clear_value u t
  obtain ⟨r, f, l, honly⟩ := hmet.only
  have hlane : u.lane j = s.lane j := by rw [honly]; rfl
  have hclk : u.clk = s.clk := by rw [honly]
  have hfec : u.fecLane j = s.fecLane j := by unfold Dev.fecLane; rw [hlane, hclk, hmet.mult]
  have hkept : u.mem = s.mem ∧ u.sys = s.sys := by rw [honly]; exact ⟨rfl, rfl⟩
  rw [hlane, hfec, hmet.lim] at ht
  have hset : Dev.Wired u (u.setLane j (s.fecLane j)) := Dev.Wired.setLane u _ _
  have hself : (u.setLane j (s.fecLane j)).lane j = s.fecLane j := Dev.lane_setLane_self u j _
  by_cases hst : (s.lane j).st = .up
  · rw [if_neg (by simpa using hst)] at ht
    by_cases hlim : s.errLim j ≤ (s.fecLane j).errAt.length
    · rw [if_pos hlim] at ht
      have hraised := (u.setLane j (s.fecLane j)).laneFail_raised j
      have hup : Upset (s.fecNoted j) t := by
        rw [ht]
        exact (hmet.up.trans hset.up).trans ⟨hraised.stays, hraised.rest⟩
      have hfail : s.flt.joined = [] → Dev.Wired (u.setLane j (s.fecLane j)) t ∧ (t.lane j).st = .failed := fun h => by
        obtain ⟨hw, hl⟩ := Dev.laneFail_wired (s := u.setLane j (s.fecLane j)) ((hmet.low h).congr rfl) j
        rw [ht, hl, if_pos rfl]
        exact ⟨hw, rfl⟩
      refine ⟨hup, fun h => ?_, fun h => absurd hst h, fun _ h => absurd hlim (by omega), fun _ _ h => ?_, fun _ h => absurd hlim (by omega)⟩
      · exact ⟨(hfail h).1.mem.trans hkept.1, (hfail h).1.sys.trans hkept.2⟩
      · exact ⟨(hfail h).2, by rw [ht]; exact hraised.now⟩
    · rw [if_neg hlim] at ht
      by_cases hrow : 8 ≤ (s.lane j).row + 1
      · rw [if_pos hrow] at ht
        have hw : Dev.Wired u t := by rw [ht]; exact hset.trans (Dev.retrain_wired _ j)
        refine ⟨hmet.up.trans hw.up, fun _ => ⟨hw.mem.trans hkept.1, hw.sys.trans hkept.2⟩, fun h => absurd hst h,
          fun _ _ h => absurd hrow (by omega), fun _ h => absurd h hlim, fun _ _ _ => ?_⟩
        have hup' : ((u.setLane j (s.fecLane j)).lane j).st = .up := by rw [hself]; exact hst
        rw [ht, Dev.lane_retrain, if_pos ⟨rfl, hup'⟩]
        exact (Dev.lostLane_st _ j).1
      · rw [if_neg hrow] at ht
        have hw : Dev.Wired u t := by rw [ht]; exact hset
        exact ⟨hmet.up.trans hw.up, fun _ => ⟨hw.mem.trans hkept.1, hw.sys.trans hkept.2⟩, fun h => absurd hst h,
          fun _ _ _ => ht, fun _ h => absurd h hlim, fun _ _ h => absurd hrow (by omega)⟩
  · rw [if_pos hst] at ht
    subst ht
    exact ⟨hmet.up, fun _ => hkept, fun _ => rfl, fun h => absurd h hst, fun h => absurd h hst, fun h => absurd h hst⟩

/-- Settles O57: a lane's attempts by `lane_retrain` and `laneUp`, its link's width by `agree_agreed`, and a codeword by
`uncorrectable_ends`. -/
theorem lanesTrainAndBadFlitsComeAgain : Obligations.LanesTrainAndBadFlitsComeAgain := by
  unfold Obligations.LanesTrainAndBadFlitsComeAgain
  intro s j x Others Agreed cfg taken
  refine ⟨fun ht hp => ?_, fun ht hp => ?_, fun ht ha => ?_, fun ht ha hj => ?_, fun ht => ⟨?_, ?_⟩, fun hu => ?_, fun hu => ?_,
    fun d l => ⟨?_, ?_, fun why => ?_⟩⟩
  · rw [exec_laneTrainDone, if_pos ht, Dev.laneUp_of_listed ht hp]
    refine ⟨_, rfl, ?_, fun k hk => ?_, ?_⟩
    · rw [Dev.lane_agree, Dev.lane_setLane_self]
      rfl
    · rw [Dev.lane_agree, Dev.lane_setLane_of_ne _ hk, Dev.lane_setLane_of_ne _ hk]
    · exact Dev.agree_agreed _ _
  · have hidle : (s.setLane j { s.lane j with ready := true }).laneUp j = s.setLane j { s.lane j with ready := true } :=
      Dev.laneUp_of_idle (by rw [Dev.lane_setLane_self]; exact fun h => Bool.false_ne_true (hp.symm.trans h.2.2))
    rw [exec_laneTrainDone, if_pos ht, hidle]
    exact ⟨_, rfl, Dev.lane_setLane_self _ _ _, fun k hk => Dev.lane_setLane_of_ne _ hk _, rfl⟩
  · rw [exec_laneTrainTimeout, if_neg (by simpa using ht), if_neg (Nat.not_le.mpr ha), Dev.attempt_eq]
    refine ⟨_, rfl, ?_, fun k hk => Dev.lane_setLane_of_ne _ hk _, rfl⟩
    rw [Dev.lane_setLane_self, Dev.trained]
    show _ = _
    rw [← ht]
  · rw [exec_laneTrainTimeout, if_neg (by simpa using ht), if_pos ha]
    obtain ⟨-, hlane⟩ := Dev.laneFail_wired (Dev.low_of_alone hj 3) j.val
    refine ⟨_, rfl, s.toDev.laneFail_raised j, ?_, ?_, fun k hk => ?_⟩
    · rw [hlane, if_pos rfl]
      rfl
    · rw [hlane, if_pos rfl]
      rfl
    · rw [hlane, if_neg hk]
  · rw [exec_laneTrainDone, if_neg ht]
  · rw [exec_laneTrainTimeout, if_pos ht]
  · obtain ⟨u, heq, -, hlinks, hlane⟩ := Dev.retrain_of_up hu
    have hlink : ∀ k, u.link k = s.link k := fun k => by unfold Dev.link; rw [hlinks]
    rw [exec_laneLockLoss, heq]
    refine ⟨_, rfl, ?_, fun k hk => ?_, ?_⟩
    · rw [Dev.lane_agree, hlane, if_pos rfl]
      rfl
    · rw [Dev.lane_agree, hlane, if_neg hk]
    · have h := u.agree_agreed (j.val / 4)
      rw [hlink] at h
      exact h
  · rw [exec_laneLockLoss, Dev.retrain_of_down hu]
  · obtain ⟨hup, hjoined, hdown, hcount, hfail, htrain⟩ := s.toDev.uncorrectable_ends j d
    have hmet := s.toDev.fecMet_met j d
    obtain ⟨r, f, lk, honly⟩ := hmet.only
    have hlane : ∀ k, (s.toDev.fecMet j d).lane k = s.lane k := fun k => by rw [honly]; rfl
    have hcard := aLnk_page (32 * j.val + 12)
    refine ⟨_, exec_codewordUncorrectable s j d, hup.stays 99 (Dev.sticky_note _ (by decide)), ?_, ?_, hjoined,
      fun h => ?_, fun h hw hr => ?_, hfail, htrain⟩
    · have hnote := Upset.note (s.toDev.incSat (aLnk (32 * j.val + 12)) 31 16) (f := 99) (by decide)
      rw [Dev.fld_congr ((hup.rest.cards _ hcard.1 hcard.2.1 hcard.2.2).trans (hnote.rest.cards _ hcard.1 hcard.2.1 hcard.2.2)),
        Dev.fld_incSat_self _ (by omega) (by omega)]
      rfl
    · obtain ⟨r', f', hnoted⟩ := s.toDev.fecNoted_only j
      rw [hup.rest.clk, hnoted]
    · rw [hdown h]
      exact ⟨hmet.link, hlane⟩
    · rw [hcount h hw hr]
      exact ⟨hmet.link, Dev.lane_setLane_self _ _ _, fun k hk => (Dev.lane_setLane_of_ne _ hk _).trans (hlane k)⟩
  · obtain ⟨hw, hlane, hlink, hother⟩ := (s.toDev.onLane j (fun x => { x with row := 0 })).lost_eq (j.val / 4) d
    refine ⟨_, exec_flitCrcFail s j d, ?_, fun k hk => ?_, hlink, hother, ?_⟩
    · rw [hlane, Dev.lane_onLane, if_pos rfl]
    · rw [hlane, Dev.lane_onLane, if_neg hk]
    · cases d <;> rfl
  · refine ⟨_, exec_proto s l why, ?_, ?_, fun k hk => ?_, ?_⟩
    · exact (Upset.setLink (s.note 100) l.val _).stays 100 (Dev.sticky_note _ (by decide))
    · rw [Dev.link_onLink, if_pos rfl, Dev.link_note] <;> rfl
    · rw [Dev.link_onLink, if_neg hk, Dev.link_note]
    · obtain ⟨r, f, hnote⟩ := s.toDev.noteFrame_note 100
      rw [hnote]
      rfl

end Sys2Proof.Machine
end

section
/-! PROOFS. CTRL flits, replay and notifications (R332, R336, R341-R347). -/

namespace Sys2Proof.Machine

/-! ### Lanes one after another -/

theorem forN_succ {σ : Type} (n : Nat) (f : Nat → σ → σ) (s : σ) : forN (n + 1) f s = f n (forN n f s) := by
  simp [forN, forL, List.range_succ]

/-- Where each step acts on its own entry, an entry is as its step leaves it. -/
theorem forN_at {σ α : Type} {get : σ → Nat → α} {f : Nat → σ → σ} (hne : ∀ i s k, k ≠ i → get (f i s) k = get s k)
    {n k : Nat} (hk : k < n) (s : σ) : ∃ t, get t k = get s k ∧ get (forN n f s) k = get (f k t) k := by
  have hlater : ∀ m, m ≤ k → get (forN m f s) k = get s k := by
    intro m
    induction m with
    | zero => intro _; rfl
    | succ m ih => intro hm; rw [forN_succ, hne m _ k (by omega)]; exact ih (by omega)
  induction n with
  | zero => exact absurd hk (Nat.not_lt_zero k)
  | succ n ih =>
    rw [forN_succ]
    by_cases hn : k = n
    · subst hn
      exact ⟨forN k f s, hlater k (Nat.le_refl k), rfl⟩
    · obtain ⟨t, hget, hend⟩ := ih (by omega)
      exact ⟨t, hget, (hne n _ k hn).trans hend⟩

/-- The lanes of a link. -/
def Dev.lanesOf (s : Dev) (l i : Nat) : Lane := s.lane (4 * l + i)

/-- An action on the lane `i` of a link leaves the others of it, and those of other links. -/
def OnLane (l : Nat) (f : Nat → Dev → Dev) : Prop := ∀ i s n, n ≠ 4 * l + i → (f i s).lane n = s.lane n

theorem OnLane.at {l : Nat} {f : Nat → Dev → Dev} (h : OnLane l f) {i : Nat} (hi : i < 4) (s : Dev) :
    ∃ t : Dev, t.lane (4 * l + i) = s.lane (4 * l + i) ∧ (forN 4 f s).lane (4 * l + i) = (f i t).lane (4 * l + i) :=
  forN_at (get := fun (s : Dev) i => s.lane (4 * l + i)) (fun i s k hk => h i s _ (by omega)) hi s

theorem OnLane.other {l : Nat} {f : Nat → Dev → Dev} (h : OnLane l f) {n : Nat} (hn : n / 4 ≠ l) (s : Dev) :
    (forN 4 f s).lane n = s.lane n :=
  forL_keeps (I := fun t : Dev => t.lane n = s.lane n)
    (fun i hi t ht => (h i t n (by have := List.mem_range.mp hi; omega)).trans ht) rfl

/-! ### The partner's list (R332, R344) -/

/-- One lane is listed, or no longer. -/
def Dev.listLane (s : Dev) (j : Nat) (b : Bool) : Dev :=
  if b then (s.onLane j (fun x => { x with partner := b })).laneUp j
  else if (s.lane j).partner then (s.onLane j (fun x => { x with partner := b })).retrain j
  else s.onLane j (fun x => { x with partner := b })

theorem Dev.listed_eq (s : Dev) (l : Nat) (m : BitVec 4) :
    s.listed l m = forN 4 (fun i s => s.listLane (4 * l + i) (m.getLsbD i)) s := rfl

theorem Dev.listLane_wired (s : Dev) (j : Nat) (b : Bool) : Dev.Wired s (s.listLane j b) := by
  have h := Dev.Wired.onLane s j (fun x => { x with partner := b })
  unfold Dev.listLane
  split
  · exact h.trans (Dev.laneUp_wired _ j)
  · split
    · exact h.trans (Dev.retrain_wired _ j)
    · exact h

theorem Dev.listed_wired (s : Dev) (l : Nat) (m : BitVec 4) : Dev.Wired s (s.listed l m) :=
  Dev.Wired.forN (fun i t => t.listLane_wired (4 * l + i) (m.getLsbD i)) s

theorem Dev.listLane_other (s : Dev) (j : Nat) (b : Bool) {n : Nat} (hn : n ≠ j) : (s.listLane j b).lane n = s.lane n := by
  have h : (s.onLane j (fun x => { x with partner := b })).lane n = s.lane n := by rw [Dev.lane_onLane, if_neg hn]
  unfold Dev.listLane
  split
  · rw [Dev.lane_laneUp, if_neg (fun hc => hn hc.1), h]
  · split
    · rw [Dev.lane_retrain, if_neg (fun hc => hn hc.1), h]
    · exact h

theorem Dev.onLane_listLane (l : Nat) (m : BitVec 4) : OnLane l (fun i s => Dev.listLane s (4 * l + i) (m.getLsbD i)) :=
  fun _ s _ hn => s.listLane_other _ _ hn

theorem Dev.listLane_partner (s : Dev) (j : Nat) (b : Bool) : ((s.listLane j b).lane j).partner = b := by
  have h : ((s.onLane j (fun x => { x with partner := b })).lane j).partner = b := by rw [Dev.lane_onLane, if_pos rfl]
  unfold Dev.listLane
  split
  · rw [Dev.lane_laneUp]
    split
    · exact h
    · exact h
  · split
    · rw [Dev.lane_retrain_partner, h]
    · exact h

/-- An UP lane that is no longer listed trains again (R344). -/
theorem Dev.listLane_drops {s : Dev} {j : Nat} (hp : (s.lane j).partner = true) (hu : (s.lane j).st = .up) :
    ((s.listLane j false).lane j).st = .train := by
  have h : ((s.onLane j (fun x => { x with partner := false })).lane j).st = .up := by rw [Dev.lane_onLane, if_pos rfl, hu]
  rw [Dev.listLane, if_neg Bool.false_ne_true, if_pos hp, Dev.lane_retrain, if_pos ⟨rfl, h⟩]
  exact (Dev.lostLane_st _ j).1

/-- A list that brings no lane UP and drops none. -/
structure Lane.Quiet (x : Lane) (b : Bool) : Prop where
  drops : b = false → x.partner = false
  rises : b = true → ¬(x.st = .train ∧ x.ready = true)

theorem Dev.listLane_of_quiet {s : Dev} {j : Nat} {b : Bool} (h : (s.lane j).Quiet b) :
    s.listLane j b = s.onLane j (fun x => { x with partner := b }) := by
  unfold Dev.listLane
  split
  case isTrue hb =>
    refine Dev.laneUp_of_idle (fun hc => h.rises hb ?_)
    rw [Dev.lane_onLane, if_pos rfl] at hc
    exact ⟨hc.1, hc.2.1⟩
  case isFalse hb =>
    rw [if_neg]
    rw [h.drops (by simpa using hb)]
    exact Bool.false_ne_true

/-- A quiet list changes the lanes' `partner` alone. -/
theorem Dev.listed_of_quiet {s : Dev} {l : Nat} {m : BitVec 4} (h : ∀ i, i < 4 → (s.lane (4 * l + i)).Quiet (m.getLsbD i)) :
    (∃ n, s.listed l m = { s with lanes := n }) ∧
      ∀ i, i < 4 → (s.listed l m).lane (4 * l + i) = { s.lane (4 * l + i) with partner := m.getLsbD i } := by
  constructor
  · have hall : ∀ k, k ≤ 4 → (∃ n, forN k (fun i s => Dev.listLane s (4 * l + i) (m.getLsbD i)) s = { s with lanes := n }) ∧
        ∀ i, k ≤ i → (forN k (fun i s => Dev.listLane s (4 * l + i) (m.getLsbD i)) s).lane (4 * l + i) = s.lane (4 * l + i) := by
      intro k
      induction k with
      | zero => intro _; exact ⟨⟨s.lanes, rfl⟩, fun _ _ => rfl⟩
      | succ k ih =>
        intro hk
        obtain ⟨⟨n, hn⟩, hlane⟩ := ih (by omega)
        rw [forN_succ]
        constructor
        · rw [Dev.listLane_of_quiet (by rw [hlane k (Nat.le_refl k)]; exact h k (by omega)), hn]
          exact ⟨_, rfl⟩
        · intro i hi
          rw [Dev.listLane_other _ _ _ (by omega), hlane i (by omega)]
    exact (hall 4 (Nat.le_refl 4)).1
  · intro i hi
    obtain ⟨t, ht, heq⟩ := (Dev.onLane_listLane l m).at hi s
    rw [Dev.listed_eq, heq, Dev.listLane_of_quiet (by rw [ht]; exact h i hi), Dev.lane_onLane, if_pos rfl, ht]

/-! ### Replays (R343) -/

theorem Dev.replay_of_empty {s : Dev} {l : Nat} (h : (s.link l).sent = []) : s.replay l = s := by
  rw [Dev.replay, h]
  rfl

/-- The link after one more replay. -/
def Link.replayed (k : Link) : Link := { k with replays := min (k.replays + 1) 65535, same := k.same + 1 }

theorem Dev.replay_of_sent {s : Dev} {l : Nat} (h : (s.link l).sent ≠ []) : s.replay l = (s.onLink l Link.replayed).note 98 := by
  have hne : ¬(s.link l).sent.isEmpty = true := by rw [List.isEmpty_iff]; exact h
  rw [Dev.replay, if_neg hne]
  rfl

theorem Dev.replay_sticky {s : Dev} {l : Nat} (h : (s.link l).sent ≠ []) : (s.replay l).sticky 98 = true := by
  rw [Dev.replay_of_sent h]
  exact Dev.sticky_note _ (by decide)

theorem Dev.replay_link {s : Dev} {l : Nat} (h : (s.link l).sent ≠ []) (n : Nat) :
    (s.replay l).link n = if n = l then (s.link l).replayed else s.link n := by
  rw [Dev.replay_of_sent h, Dev.link_note, Dev.link_onLink]

theorem Dev.replayed_of_few {s : Dev} {l : Nat} (h : ((s.replay l).link l).same < 8) : s.replayed l = s.replay l := by
  unfold Dev.replayed
  dsimp only
  rw [if_pos h]

theorem Dev.onLane_retrain (l : Nat) : OnLane l (fun i s => Dev.retrain s (4 * l + i)) :=
  fun _ s _ hn => by rw [Dev.lane_retrain, if_neg (fun hc => hn hc.1)]

theorem Dev.replayed_of_eight {s : Dev} {l : Nat} (h : 8 ≤ ((s.replay l).link l).same) :
    s.replayed l = forN 4 (fun i s => Dev.retrain s (4 * l + i)) ((s.replay l).onLink l (fun k => { k with same := 0 })) := by
  unfold Dev.replayed
  dsimp only
  rw [if_neg (by omega)]

theorem Dev.lane_replay (s : Dev) (l n : Nat) : (s.replay l).lane n = s.lane n := Dev.lane_of_lanes (s.replay_wired l).2.1 n

theorem Dev.replayed_wired (s : Dev) (l : Nat) : Dev.Wired (s.replay l) (s.replayed l) := by
  by_cases h : ((s.replay l).link l).same < 8
  · rw [Dev.replayed_of_few h]
    exact Dev.Wired.refl _
  · rw [Dev.replayed_of_eight (by omega)]
    exact (Dev.Wired.onLink _ _ _).trans (Dev.Wired.forN (fun i t => t.retrain_wired (4 * l + i)) _)

/-- A lane the replays train again keeps its place in the partner's list; no lane of another link differs. -/
theorem Dev.replayed_lanes (s : Dev) (l : Nat) :
    (∀ n, ((s.replayed l).lane n).partner = (s.lane n).partner) ∧ (∀ n, n / 4 ≠ l → (s.replayed l).lane n = s.lane n) ∧
      ∀ n, (s.lane n).st ≠ .up → (s.replayed l).lane n = s.lane n := by
  by_cases h : ((s.replay l).link l).same < 8
  · rw [Dev.replayed_of_few h]
    exact ⟨fun n => by rw [Dev.lane_replay], fun n _ => s.lane_replay l n, fun n _ => s.lane_replay l n⟩
  · rw [Dev.replayed_of_eight (by omega)]
    refine ⟨fun n => ?_, fun n hn => ?_, fun n hn => ?_⟩
    · refine forL_keeps (I := fun t : Dev => (t.lane n).partner = (s.lane n).partner)
        (fun i _ t ht => (t.lane_retrain_partner (4 * l + i) n).trans ht) ?_
      rw [Dev.lane_onLink, Dev.lane_replay]
    · rw [(Dev.onLane_retrain l).other hn, Dev.lane_onLink, Dev.lane_replay]
    · refine forL_keeps (I := fun t : Dev => t.lane n = s.lane n) (fun i _ t ht => ?_) (by rw [Dev.lane_onLink, Dev.lane_replay])
      rw [Dev.lane_retrain, if_neg, ht]
      rintro ⟨rfl, hup⟩
      rw [ht] at hup
      exact hn hup

/-- Eight replays of one flit train every UP lane of the link again (R343). -/
theorem Dev.replayed_trains {s : Dev} {l i : Nat} (h : 8 ≤ ((s.replay l).link l).same) (hi : i < 4)
    (hu : (s.lane (4 * l + i)).st = .up) : ((s.replayed l).lane (4 * l + i)).st = .train := by
  rw [Dev.replayed_of_eight h]
  obtain ⟨t, ht, heq⟩ := (Dev.onLane_retrain l).at hi ((s.replay l).onLink l (fun k => { k with same := 0 }))
  have hup : (t.lane (4 * l + i)).st = .up := by rw [ht, Dev.lane_onLink, Dev.lane_replay, hu]
  rw [heq, Dev.lane_retrain, if_pos ⟨rfl, hup⟩]
  exact (t.lostLane_st _).1

/-! ### CTRL flits -/

theorem exec_ctrlFlit (s : State) (l : Fin 4) (f : Ctrl) : exec (.ctrlFlit l f) s = .next { s with toDev := s.ctrlFlit l f } := rfl

theorem exec_replayTimeout (s : State) (l : Fin 4) : exec (.replayTimeout l) s = .next { s with toDev := s.replayed l } := rfl

/-- The link with the flit's credits. -/
def Link.credit (k : Link) (f : Ctrl) : Link :=
  { k with credMem := k.credMem + f.mem.toNat, credCmd := k.credCmd + f.cmd.toNat, credNtfy := k.credNtfy + f.ntfy.toNat }

/-- The link with the flit's credits and its acknowledgement. -/
def Link.told (k : Link) (f : Ctrl) : Link := if f.ackv then (k.credit f).ackTo f.ack.toNat else k.credit f

/-- A codeword ends a run of uncorrectable ones, and the credits are granted. -/
def Dev.ctrlGranted (s : Dev) (l : Nat) (f : Ctrl) : Dev :=
  (s.onLane (4 * l + f.lane) (fun x => { x with row := 0 })).onLink l (fun k => k.credit f)

/-- A CTRL flit before its list. -/
def Dev.ctrlTold (s : Dev) (l : Nat) (f : Ctrl) : Dev :=
  if f.ackv then (s.ctrlGranted l f).onLink l (fun k => k.ackTo f.ack.toNat) else s.ctrlGranted l f

/-- A CTRL flit before its NAK. -/
def Dev.ctrlListed (s : Dev) (l : Nat) (f : Ctrl) : Dev := ((s.ctrlTold l f).listed l f.insvc).agree l

theorem Dev.ctrlFlit_eq (s : Dev) (l : Nat) (f : Ctrl) : s.ctrlFlit l f =
    (if f.nak then (s.ctrlListed l f).replayed l else s.ctrlListed l f).onLink l Link.pump := rfl

theorem Dev.ctrlTold_told (s : Dev) (l : Nat) (f : Ctrl) :
    (∃ n k, s.ctrlTold l f = { s with lanes := n, links := k }) ∧ Dev.Wired s (s.ctrlTold l f) ∧
      (s.ctrlTold l f).link l = (s.link l).told f ∧ (∀ n, n ≠ l → (s.ctrlTold l f).link n = s.link n) ∧
      ∀ n, (s.ctrlTold l f).lane n = if n = 4 * l + f.lane then { s.lane (4 * l + f.lane) with row := 0 } else s.lane n := by
  have hw : Dev.Wired s (s.ctrlGranted l f) := (Dev.Wired.onLane s _ _).trans (Dev.Wired.onLink _ _ _)
  have hlane : ∀ n, (s.ctrlGranted l f).lane n = if n = 4 * l + f.lane then { s.lane (4 * l + f.lane) with row := 0 } else s.lane n :=
    fun n => by rw [Dev.ctrlGranted, Dev.lane_onLink, Dev.lane_onLane]
  have hlink : ∀ n, (s.ctrlGranted l f).link n = if n = l then (s.link l).credit f else s.link n :=
    fun n => by rw [Dev.ctrlGranted, Dev.link_onLink, Dev.link_onLane, Dev.link_onLane]
  unfold Dev.ctrlTold Link.told
  split
  · refine ⟨⟨_, _, rfl⟩, hw.trans (Dev.Wired.onLink _ _ _), ?_, fun n hn => ?_, fun n => (Dev.lane_onLink _ _ _ _).trans (hlane n)⟩
    · rw [Dev.link_onLink, if_pos rfl, hlink, if_pos rfl]
    · rw [Dev.link_onLink, if_neg hn, hlink, if_neg hn]
  · refine ⟨⟨_, _, rfl⟩, hw, ?_, fun n hn => ?_, hlane⟩
    · rw [hlink, if_pos rfl]
    · rw [hlink, if_neg hn]

/-- Credits and acknowledgements change neither the width of a link nor what it queues. -/
theorem Link.told_keeps (k : Link) (f : Ctrl) : (k.told f).inSvc = k.inSvc ∧ (k.told f).queue = k.queue := by
  unfold Link.told Link.ackTo
  split
  · dsimp only
    split <;> exact ⟨rfl, rfl⟩
  · exact ⟨rfl, rfl⟩

/-- The acknowledgement of a flit that is ahead, and not past what was sent (R343). -/
theorem Link.told_eq (k : Link) (f : Ctrl) : k.told f =
    if f.ackv = true ∧ (f.ack.toNat + 4096 - k.acked) % 4096 ≠ 0 ∧ (f.ack.toNat + 4096 - k.acked) % 4096 ≤ k.unacked then
      { k.credit f with
        acked := f.ack.toNat, same := 0
        sent := k.sent.filter (fun m => (f.ack.toNat + 4096 - k.acked) % 4096 < (m.1 + 4096 - k.acked) % 4096) }
    else k.credit f := by
  have hacked : (k.credit f).acked = k.acked ∧ (k.credit f).unacked = k.unacked := ⟨rfl, rfl⟩
  unfold Link.told
  by_cases hv : f.ackv = true
  · rw [if_pos hv, Link.ackTo]
    dsimp only
    rw [hacked.1, hacked.2]
    by_cases hskip : (f.ack.toNat + 4096 - k.acked) % 4096 = 0 ∨ k.unacked < (f.ack.toNat + 4096 - k.acked) % 4096
    · rw [if_pos (by simpa using hskip), if_neg (by omega)]
    · rw [if_neg (by simpa using hskip), if_pos ⟨hv, by omega, by omega⟩]
      rfl
  · rw [if_neg hv, if_neg (fun hc => hv hc.1)]

theorem Dev.ctrlListed_wired (s : Dev) (l : Nat) (f : Ctrl) : Dev.Wired s (s.ctrlListed l f) :=
  ((s.ctrlTold_told l f).2.1.trans (Dev.listed_wired _ l f.insvc)).trans (Dev.agree_wired _ l).1

theorem Dev.ctrlListed_lanes (s : Dev) (l : Nat) (f : Ctrl) :
    (∀ i, i < 4 → ((s.ctrlListed l f).lane (4 * l + i)).partner = f.insvc.getLsbD i) ∧
      ∀ n, n / 4 ≠ l → (s.ctrlListed l f).lane n = s.lane n := by
  obtain ⟨-, -, -, -, hlane⟩ := s.ctrlTold_told l f
  constructor
  · intro i hi
    obtain ⟨t, -, heq⟩ := (Dev.onLane_listLane l f.insvc).at hi (s.ctrlTold l f)
    rw [Dev.ctrlListed, Dev.lane_agree, Dev.listed_eq, heq, Dev.listLane_partner]
  · intro n hn
    have hne : n ≠ 4 * l + f.lane := by have := f.lane.isLt; omega
    rw [Dev.ctrlListed, Dev.lane_agree, Dev.listed_eq, (Dev.onLane_listLane l f.insvc).other hn, hlane, if_neg hne]

/-- A list that changes nothing leaves the credits, the acknowledgement and the end of a run of bad codewords (R332). -/
theorem Dev.ctrlListed_of_same {s : Dev} {l : Nat} {f : Ctrl} (hw : widest (s.usable l) = (s.link l).inSvc)
    (h : ∀ i, i < 4 → f.insvc.getLsbD i = (s.lane (4 * l + i)).partner ∧
      ¬((s.lane (4 * l + i)).st = .train ∧ (s.lane (4 * l + i)).ready = true ∧ f.insvc.getLsbD i = true)) :
    (∃ n k, s.ctrlListed l f = { s with lanes := n, links := k }) ∧
      (s.ctrlListed l f).link l = (s.link l).told f ∧ (∀ n, n ≠ l → (s.ctrlListed l f).link n = s.link n) ∧
      ∀ n, (s.ctrlListed l f).lane n = if n = 4 * l + f.lane then { s.lane (4 * l + f.lane) with row := 0 } else s.lane n := by
  obtain ⟨⟨n, k, honly⟩, -, hlink, hother, hlane⟩ := s.ctrlTold_told l f
  have hst : ∀ m, ((s.ctrlTold l f).lane m).st = (s.lane m).st ∧ ((s.ctrlTold l f).lane m).partner = (s.lane m).partner ∧
      ((s.ctrlTold l f).lane m).failed = (s.lane m).failed ∧ ((s.ctrlTold l f).lane m).ready = (s.lane m).ready := fun m => by
    rw [hlane]
    split
    · next hm => rw [hm]; exact ⟨rfl, rfl, rfl, rfl⟩
    · exact ⟨rfl, rfl, rfl, rfl⟩
  have hquiet : ∀ i, i < 4 → ((s.ctrlTold l f).lane (4 * l + i)).Quiet (f.insvc.getLsbD i) := fun i hi => by
    obtain ⟨hb, hr⟩ := h i hi
    obtain ⟨h1, h2, -, h4⟩ := hst (4 * l + i)
    exact ⟨fun hf => by rw [h2, ← hb, hf], fun ht hc => hr ⟨h1 ▸ hc.1, h4 ▸ hc.2, ht⟩⟩
  obtain ⟨⟨m, hm⟩, hlisted⟩ := Dev.listed_of_quiet hquiet
  have hlanes : ∀ j, ((s.ctrlTold l f).listed l f.insvc).lane j = (s.ctrlTold l f).lane j := fun j => by
    by_cases hj : j / 4 = l
    · obtain ⟨i, hi, rfl⟩ : ∃ i, i < 4 ∧ j = 4 * l + i := ⟨j % 4, by omega, by omega⟩
      rw [hlisted i hi, (h i hi).1, ← (hst (4 * l + i)).2.1]
    · rw [Dev.listed_eq, (Dev.onLane_listLane l f.insvc).other hj]
  have hlinks : ∀ j, ((s.ctrlTold l f).listed l f.insvc).link j = (s.ctrlTold l f).link j := fun j => by rw [hm]; rfl
  have hsame : s.ctrlListed l f = (s.ctrlTold l f).listed l f.insvc := by
    refine Dev.agree_of_same ?_
    rw [hlinks, hlink, (Link.told_keeps _ f).1, ← hw]
    refine congrArg widest (Dev.usable_congr ?_ (fun i _ => ?_))
    · rw [hlinks, hlink, (Link.told_keeps _ f).1]
    · rw [hlanes]
      obtain ⟨h1, h2, h3, -⟩ := hst (4 * l + i)
      exact ⟨h1, h2, h3⟩
  rw [hsame]
  refine ⟨⟨m, k, by rw [hm, honly]⟩, (hlinks l).trans hlink, fun j hj => (hlinks j).trans (hother j hj), fun j => (hlanes j).trans (hlane j)⟩

/-- A link whose lanes are UP, and all listed, comes up where its credits suffice (R336, R345). -/
theorem Dev.ctrlListed_comesUp {s : Dev} {l : Nat} {f : Ctrl} (hdown : (s.link l).inSvc = []) (hg : ((s.link l).credit f).granted = true)
    (hv : f.ackv = false) (hall : f.insvc = 0xF) (hup : ∀ i, i < 4 → (s.lane (4 * l + i)).st = .up) :
    ((s.ctrlListed l f).link l).inSvc = [0, 1, 2, 3] := by
  obtain ⟨-, -, hlink, -, hlane⟩ := s.ctrlTold_told l f
  have hst : ∀ i, i < 4 → ((s.ctrlTold l f).lane (4 * l + i)).st = .up := fun i hi => by
    rw [hlane]
    split
    · next hm => rw [← hm]; exact hup i hi
    · exact hup i hi
  have hbit : ∀ i, i < 4 → f.insvc.getLsbD i = true := fun i hi => by
    rw [hall]
    interval_cases i <;> rfl
  have hquiet : ∀ i, i < 4 → ((s.ctrlTold l f).lane (4 * l + i)).Quiet (f.insvc.getLsbD i) := fun i hi =>
    ⟨fun hf => absurd ((hbit i hi).symm.trans hf) (by decide), fun _ hc => absurd ((hst i hi).symm.trans hc.1) (by decide)⟩
  obtain ⟨⟨m, hm⟩, hlisted⟩ := Dev.listed_of_quiet hquiet
  have hlinks : ((s.ctrlTold l f).listed l f.insvc).link l = (s.link l).credit f := by
    rw [hm]
    show (s.ctrlTold l f).link l = _
    rw [hlink, Link.told, hv, if_neg Bool.false_ne_true]
  have husable : ((s.ctrlTold l f).listed l f.insvc).usable l = [0, 1, 2, 3] := by
    rw [Dev.usable_eq, show ([0, 1, 2, 3] : List Nat) = picked (fun _ => true) from by decide]
    refine picked_congr (fun i hi => ?_)
    unfold Dev.offers? Lane.usable
    rw [hlisted i hi, hbit i hi, hst i hi]
    rfl
  rw [Dev.ctrlListed, (Dev.agree_wired _ l).2.2, hlinks, if_neg (fun hc => absurd (hg.symm.trans hc.2) (by decide)), husable]
  rfl

/-! ### O58 -/

/-- The oldest notification leaves the queue. -/
def Dev.ntfyTaken (s : Dev) (r : List Ntfy) : Dev := { s with host := { s.host with ntfy := r, lostF := false } }

theorem exec_ntfySend (s : State) : exec .ntfySend s = .next { s with toDev :=
    match s.host.ntfy, s.firstLink with
    | n :: r, some l => (s.toDev.ntfyTaken r).sendMsg l (.ntfy { n with lost := s.host.lostF })
    | _, _ => s.toDev } := rfl

theorem exec_ntfySend_of_none {s : State} (h : s.host.ntfy = [] ∨ s.firstLink = none) : exec .ntfySend s = .next s := by
  rw [exec_ntfySend]
  split
  case h_1 hn hl =>
    rcases h with h | h
    · exact absurd (hn.symm.trans h) (List.cons_ne_nil _ _)
    · exact absurd (hl.symm.trans h) (Option.some_ne_none _)
  case h_2 => rfl

theorem Dev.ctrlFlit_wired (s : Dev) (l : Nat) (f : Ctrl) : Dev.Wired s (s.ctrlFlit l f) := by
  rw [Dev.ctrlFlit_eq]
  refine Dev.Wired.trans ?_ (Dev.Wired.onLink _ _ _)
  have h := s.ctrlListed_wired l f
  split
  · exact (h.trans (Dev.replay_wired _ l).1).trans (Dev.replayed_wired _ l)
  · exact h

theorem Dev.ctrlFlit_lanes (s : Dev) (l : Nat) (f : Ctrl) :
    (∀ i, i < 4 → ((s.ctrlFlit l f).lane (4 * l + i)).partner = f.insvc.getLsbD i) ∧
      (∀ n, n / 4 ≠ l → (s.ctrlFlit l f).lane n = s.lane n) ∧
      ∀ n, ((s.ctrlListed l f).lane n).st ≠ .up → (s.ctrlFlit l f).lane n = (s.ctrlListed l f).lane n := by
  obtain ⟨hpartner, hother⟩ := s.ctrlListed_lanes l f
  obtain ⟨rpartner, rother, rdown⟩ := (s.ctrlListed l f).replayed_lanes l
  simp only [Dev.ctrlFlit_eq, Dev.lane_onLink]
  split
  · exact ⟨fun i hi => (rpartner _).trans (hpartner i hi), fun n hn => (rother n hn).trans (hother n hn), rdown⟩
  · exact ⟨hpartner, hother, fun _ _ => rfl⟩

/-- Settles O58: the list of a CTRL flit lane by lane (`listed_of_quiet`, `listLane_partner`), its replay by `replay_link`. -/
theorem linksGrantReplayAndNotify : Obligations.LinksGrantReplayAndNotify := by
  unfold Obligations.LinksGrantReplayAndNotify
  intro s l f k granted ahead same
  refine ⟨?_, fun hq hn hv hs hk ⟨hw, hl⟩ => ?_, fun hq hn ⟨hw, hl⟩ => ?_, fun hd hg hn hv ha hu => ?_, fun i hi hb hp hu => ?_,
    fun hs hk => ?_, fun hs hk => ?_, fun h => ?_, fun n r m hn hm => ?_, fun h => exec_ntfySend_of_none h⟩
  · obtain ⟨hpartner, hother, -⟩ := s.toDev.ctrlFlit_lanes l f
    exact ⟨_, exec_ctrlFlit s l f, hpartner, hother, (s.toDev.ctrlFlit_wired l f).back⟩
  · obtain ⟨-, hlink, hother, -⟩ := Dev.ctrlListed_of_same hw hl
    have htold : (s.toDev.ctrlListed l f).link l = k.credit f := by
      rw [hlink, Link.told, hv, if_neg Bool.false_ne_true]
    have hsent : ((s.toDev.ctrlListed l f).link l).sent ≠ [] := by rw [htold]; exact hs
    have hone : ((s.toDev.ctrlListed l f).replay l).link l = (k.credit f).replayed := by
      rw [Dev.replay_link hsent, if_pos rfl, htold]
    have hfew : (((s.toDev.ctrlListed l f).replay l).link l).same < 8 := by
      rw [hone]
      show k.same + 1 < 8
      omega
    refine ⟨_, exec_ctrlFlit s l f, ?_, ?_, fun n hne => ?_⟩ <;> rw [Dev.ctrlFlit_eq, if_pos hn, Dev.replayed_of_few hfew]
    · exact (Upset.setLink _ _ _).stays 98 (Dev.replay_sticky hsent)
    · rw [Dev.link_onLink, if_pos rfl, hone, Link.pump_of_empty (by exact hq)]
      rfl
    · rw [Dev.link_onLink, if_neg hne, Dev.replay_link hsent, if_neg hne, hother n hne]
  · obtain ⟨⟨ln, lk, honly⟩, hlink, hother, hlane⟩ := Dev.ctrlListed_of_same hw hl
    refine ⟨_, exec_ctrlFlit s l f, ?_, ?_, fun n hne => ?_, fun n hne => ?_, ?_⟩ <;>
      rw [Dev.ctrlFlit_eq, if_neg (by rw [hn]; exact Bool.false_ne_true)]
    · rw [Dev.link_onLink, if_pos rfl, hlink, Link.pump_of_empty ((Link.told_keeps _ f).2.trans hq), Link.told_eq]
      rfl
    · rw [Dev.lane_onLink, hlane, if_pos rfl]
    · rw [Dev.lane_onLink, hlane, if_neg hne]
    · rw [Dev.link_onLink, if_neg hne, hother n hne]
    · rw [honly]
      rfl
  · obtain ⟨hpartner, -, -⟩ := s.toDev.ctrlFlit_lanes l f
    refine ⟨_, exec_ctrlFlit s l f, ?_, fun i hi => ?_⟩
    · rw [Dev.ctrlFlit_eq, if_neg (by rw [hn]; exact Bool.false_ne_true), Dev.link_onLink, if_pos rfl, Link.pump_inSvc]
      exact Dev.ctrlListed_comesUp hd hg hv ha hu
    · rw [hpartner i hi, ha]
      interval_cases i <;> rfl
  · obtain ⟨hpartner, -, hdown⟩ := s.toDev.ctrlFlit_lanes l f
    obtain ⟨-, -, -, -, hlane⟩ := s.toDev.ctrlTold_told l f
    have htold : ((s.toDev.ctrlTold l f).lane (4 * l + i)).partner = true ∧ ((s.toDev.ctrlTold l f).lane (4 * l + i)).st = .up := by
      rw [hlane]
      split
      · next hi' => rw [← hi']; exact ⟨hp, hu⟩
      · exact ⟨hp, hu⟩
    have htrain : ((s.toDev.ctrlListed l f).lane (4 * l + i)).st = .train := by
      obtain ⟨t, ht, heq⟩ := (Dev.onLane_listLane l f.insvc).at hi (s.toDev.ctrlTold l f)
      rw [Dev.ctrlListed, Dev.lane_agree, Dev.listed_eq, heq, hb]
      exact Dev.listLane_drops (by rw [ht]; exact htold.1) (by rw [ht]; exact htold.2)
    refine ⟨_, exec_ctrlFlit s l f, ?_, by rw [hpartner i hi, hb]⟩
    rw [hdown _ (by rw [htrain]; decide), htrain]
  · rw [exec_replayTimeout, Dev.replayed_of_few (by rw [Dev.replay_of_empty hs]; exact hk), Dev.replay_of_empty hs]
  · have hone : (s.toDev.replay l).link l = k.replayed := by rw [Dev.replay_link hs, if_pos rfl]
    have hfew : ((s.toDev.replay l).link l).same < 8 := by
      rw [hone]
      show k.same + 1 < 8
      omega
    refine ⟨_, exec_replayTimeout s l, ?_, ?_, fun n hne => ?_, ?_⟩ <;> rw [Dev.replayed_of_few hfew]
    · exact Dev.replay_sticky hs
    · exact hone
    · rw [Dev.replay_link hs, if_neg hne]
    · obtain ⟨r, g, hnote⟩ := (s.toDev.onLink l Link.replayed).noteFrame_note 98
      rw [Dev.replay_of_sent hs, hnote]
      rfl
  · have hmany : 8 ≤ ((s.toDev.replay l).link l).same := by
      rcases h with ⟨hs, hk⟩ | ⟨hs, hk⟩
      · rw [Dev.replay_link hs, if_pos rfl]
        show 8 ≤ k.same + 1
        omega
      · rw [Dev.replay_of_empty hs]
        exact hk
    exact ⟨_, exec_replayTimeout s l, fun hs => (s.toDev.replayed_wired l).up.stays 98 (Dev.replay_sticky hs),
      fun i hi hu => Dev.replayed_trains hmany hi hu⟩
  · have hexec : exec .ntfySend s = .next { s with toDev := (s.toDev.ntfyTaken r).sendMsg m (.ntfy { n with lost := s.host.lostF }) } := by
      rw [exec_ntfySend, hn, hm]
    exact ⟨_, hexec, Dev.said_sendMsg _ _ _, rfl, rfl⟩

end Sys2Proof.Machine
end

section
/-! PROOFS. Staged commands (R26, R354, R355). -/

namespace Sys2Proof.Machine

/-! ### Staging (R12, R23, R40) -/

/-- How far a target lies ahead of the frame (R41). -/
def Dev.ahead (s : Dev) (t : Nat) : Nat := (t + 2 ^ 48 - s.clk.frame % 2 ^ 48) % 2 ^ 48

theorem Dev.stageStatus_next (s : Dev) (w : Nat) :
    s.stageStatus none w = if 1024 < s.stagedFor s.nextTick + w then 5 else 0 := rfl

theorem Dev.stageStatus_at (s : Dev) (t w : Nat) : s.stageStatus (some t) w =
    if s.ahead t = 0 || 2 ^ 47 ≤ s.ahead t then 6 else if 2 ^ 20 < s.ahead t then 7
    else if 1024 < s.stagedFor t + w then 5 else 0 := rfl

/-- An entry joins the end of the queue. -/
def Dev.staged (s : Dev) (x : HostEnt) : Dev := { s with stage := { s.stage with host := s.stage.host ++ [x] } }

theorem Dev.stageEnt_of_ok {s : Dev} {x : HostEnt} (h : s.stageStatus x.tgt x.weight = 0) : s.stageEnt x = (s.staged x, 0) := by
  rw [Dev.stageEnt, h]
  rfl

/-- A late entry sets LATE_TARGET. -/
theorem Dev.stageEnt_of_late {s : Dev} {x : HostEnt} (h : s.stageStatus x.tgt x.weight = 6) :
    s.stageEnt x = (s.setBits (aFrm 0x10) 0x100, 6) := by
  rw [Dev.stageEnt, h]
  rfl

theorem Dev.stageEnt_of_refused {s : Dev} {x : HostEnt} (h : s.stageStatus x.tgt x.weight ≠ 0)
    (h6 : s.stageStatus x.tgt x.weight ≠ 6) : s.stageEnt x = (s, s.stageStatus x.tgt x.weight) := by
  unfold Dev.stageEnt
  dsimp only
  rw [if_neg h, if_neg h6]

/-! ### A staged command -/

/-- The staging entry of a command. -/
def cmdEntry (c : Cmd) (code : Nat) : HostEnt := { tgt := c.tgt.map (·.toNat), op := .cmd (jobOfCmd c code) }

theorem Dev.stageCmd_of_ok {s : Dev} {c : Cmd} {code : Nat} (h : s.stageStatus (cmdEntry c code).tgt (cmdEntry c code).weight = 0) :
    s.stageCmd (jobOfCmd c code) c.tgt = s.staged (cmdEntry c code) := by
  have hent : s.stageEnt { tgt := c.tgt.map (·.toNat), op := .cmd (jobOfCmd c code) } = (s.staged (cmdEntry c code), 0) :=
    Dev.stageEnt_of_ok h
  rw [Dev.stageCmd, hent]
  rfl

theorem Dev.stageCmd_of_late {s : Dev} {c : Cmd} {code : Nat} (h : s.stageStatus (cmdEntry c code).tgt (cmdEntry c code).weight = 6) :
    s.stageCmd (jobOfCmd c code) c.tgt = (s.setBits (aFrm 0x10) 0x100).complete (jobOfCmd c code) 6 0 [] := by
  have hent : s.stageEnt { tgt := c.tgt.map (·.toNat), op := .cmd (jobOfCmd c code) } = (s.setBits (aFrm 0x10) 0x100, 6) :=
    Dev.stageEnt_of_late h
  rw [Dev.stageCmd, hent]
  rfl

theorem Dev.stageCmd_of_full {s : Dev} {c : Cmd} {code : Nat} (h : s.stageStatus (cmdEntry c code).tgt (cmdEntry c code).weight = 5) :
    s.stageCmd (jobOfCmd c code) c.tgt = s.complete (jobOfCmd c code) 5 0 [] := by
  have hent : s.stageEnt { tgt := c.tgt.map (·.toNat), op := .cmd (jobOfCmd c code) } = (s, 5) := by
    have hfull := Dev.stageEnt_of_refused (s := s) (x := cmdEntry c code) (by rw [h]; decide) (by rw [h]; decide)
    rw [h] at hfull
    exact hfull
  rw [Dev.stageCmd, hent]
  rfl

/-- The staged commands with their codes. -/
def stagedRows (c : Cmd) : List (Instr × Nat) :=
  [(.modeSet c, 0x10), (.runStart c, 0x40), (.runStop c, 0x41), (.runPause c, 0x42), (.runResume c, 0x43),
    (.repairRetire c, 0x61), (.pwrSet c, 0xA0), (.quadState c, 0xA2)]

theorem stagedRows_staged {c : Cmd} {i : Instr} {code : Nat} (h : (i, code) ∈ stagedRows c) :
    (i, code) ∈ commandRows 0 c ∧ isStagedCmd code = true ∧ code ≠ 0xFF := by
  have hall : ∀ x ∈ stagedRows c, x ∈ commandRows 0 c ∧ isStagedCmd x.2 = true ∧ x.2 ≠ 0xFF := by
    simp only [stagedRows, List.forall_mem_cons, List.not_mem_nil, false_implies, implies_true, and_true]
    simp [commandRows, isStagedCmd]
  exact hall _ h

/-- A staged command that the scarab takes at once reaches the staging point (R354). -/
theorem exec_of_staged {s : State} {c : Cmd} {i : Instr} {code : Nat} (h : (i, code) ∈ stagedRows c) (ht : s.Takes code c) :
    ∃ l w, exec i s = .next { s with toDev := ((s.holding l w).stageCmd (jobOfCmd c code) c.tgt).emptied } := by
  obtain ⟨hrow, hstaged, hc⟩ := stagedRows_staged h
  obtain ⟨l, w, hl⟩ := Dev.receive_of_idle ht.path ht.idle ht.room ht.free hc
  refine ⟨l, w, ?_⟩
  rw [exec_of_mem_commandRows hrow, hl, Dev.take]
  dsimp only
  rw [if_neg (by simp [ht.ok]), if_pos hstaged]

/-- Settles O54, by the status of the entry (`stageStatus_next`, `stageStatus_at`). -/
theorem stagedCommandsWait : Obligations.StagedCommandsWait := by
  unfold Obligations.StagedCommandsWait
  intro s c i code hi ht x ahead
  obtain ⟨l, w, hexec⟩ := exec_of_staged (c := c) hi ht
  have hahead : ∀ T : BitVec 48, s.ahead T.toNat = ahead T := fun _ => rfl
  have hstatus : (s.holding l w).stageStatus (cmdEntry c code).tgt (cmdEntry c code).weight = s.stageStatus x.tgt x.weight := rfl
  have hnext : c.tgt = none → s.stageStatus x.tgt x.weight = if 1024 < s.stagedFor s.nextTick + x.weight then 5 else 0 := fun h => by
    rw [show x.tgt = none from by simp [x, h], Dev.stageStatus_next]
  have hat : ∀ T, c.tgt = some T → s.stageStatus x.tgt x.weight =
      if ahead T = 0 || 2 ^ 47 ≤ ahead T then 6 else if 2 ^ 20 < ahead T then 7
      else if 1024 < s.stagedFor T.toNat + x.weight then 5 else 0 := fun T h => by
    rw [show x.tgt = some T.toNat from by simp [x, h], Dev.stageStatus_at, hahead]
  have hnear : ∀ T, c.tgt = some T → 0 < ahead T → ahead T ≤ 2 ^ 20 → s.stageStatus x.tgt x.weight =
      if 1024 < s.stagedFor T.toNat + x.weight then 5 else 0 := fun T h h0 h1 => by
    rw [hat T h, if_neg (by simp; omega), if_neg (by omega)]
  refine ⟨fun h => ?_, fun h => ?_, fun T hT hlate => ?_⟩
  · have hok : s.stageStatus x.tgt x.weight = 0 := by
      rcases h with ⟨hn, hroom⟩ | ⟨T, hT, h0, h1, hroom⟩
      · rw [hnext hn, if_neg (by omega)]
      · rw [hnear T hT h0 h1, if_neg (by omega)]
    rw [Dev.stageCmd_of_ok (hstatus.trans hok)] at hexec
    refine ⟨_, hexec, rfl, ?_⟩
    have hwait := ht.idle
    show ({ s.toDev with host := { s.host with waiting := [] } } : Dev) = s.toDev
    exact Dev.with_no_waiting hwait
  · have hfull : s.stageStatus x.tgt x.weight = 5 := by
      rcases h with ⟨hn, hroom⟩ | ⟨T, hT, h0, h1, hroom⟩
      · rw [hnext hn, if_pos hroom]
      · rw [hnear T hT h0 h1, if_pos hroom]
    rw [Dev.stageCmd_of_full (hstatus.trans hfull)] at hexec
    exact ⟨_, hexec, Dev.complete_emptied ht.idle l w _ _ _ _⟩
  · have hsix : s.stageStatus x.tgt x.weight = 6 := by
      rw [hat T hT, if_pos (by simpa using hlate)]
    rw [Dev.stageCmd_of_late (hstatus.trans hsix)] at hexec
    obtain ⟨hans, hcpl⟩ := Dev.complete_emptied (s := s.setBits (aFrm 0x10) 0x100) ht.idle l w (jobOfCmd c code) 6 0 []
    have hregs := congrArg Dev.regs hans
    have hrd : ∀ a, (((s.setBits (aFrm 0x10) 0x100).holding l w).complete (jobOfCmd c code) 6 0 []).emptied.rd a =
        (s.setBits (aFrm 0x10) 0x100).rd a := fun a => congrArg (fun r : Tab W => Tab.get resetWord r a) hregs
    refine ⟨_, hexec, hcpl, ?_, fun a ha => ?_, ?_⟩
    · exact (Dev.bit_congr (hrd _) 8).trans (Dev.bit_setBits_self s.toDev (aFrm 0x10) (m := 0x100) 8 (by decide))
    · exact (hrd a).trans (Dev.rd_wr_of_ne _ (by simpa using ha) _)
    · exact congrArg (fun d : Dev => ({ d with regs := s.regs } : Dev)) hans

end Sys2Proof.Machine
end

section
/-! PROOFS. A WRITE of one word (R339, R340): where its address lies, and what it leaves beside its card. -/

namespace Sys2Proof.Machine

/-! ### Addresses of the register blocks (R6) -/

theorem locOf_glb {o : Nat} (h : o < 0x10000) : locOf o = .glb o := by rw [locOf, if_pos h]

theorem locOf_aFlt {o : Nat} (h : o < 0x10000) : locOf (aFlt o) = .flt o := by
  unfold aFlt
  rw [locOf, if_neg (by omega), if_pos (by omega), Nat.add_sub_cancel_left]

theorem locOf_aFrm {o : Nat} (h : o < 0x10000) : locOf (aFrm o) = .frm o := by
  unfold aFrm
  rw [locOf, if_neg (by omega), if_neg (by omega), if_pos (by omega), Nat.add_sub_cancel_left]

theorem locOf_aPwr {o : Nat} (h : o < 0x10000) : locOf (aPwr o) = .pwr o := by
  have hlt : aPwr o < 0x70000 := by unfold aPwr; omega
  have hge : ∀ b, b ≤ 0x60000 → ¬aPwr o < b := fun b hb => by unfold aPwr; omega
  have hsub : aPwr o - 0x60000 = o := by unfold aPwr; omega
  simp only [locOf, hge, hlt, hsub, Nat.reduceLeDiff, if_false, if_true]

theorem locOf_aEng {e o : Nat} (he : e < 272) (h : o < 0x1000) : locOf (aEng e o) = .eng e o := by
  have hlt : aEng e o < 0x1110000 := by unfold aEng; omega
  have hge : ∀ b, b ≤ 0x1000000 → ¬aEng e o < b := fun b hb => by unfold aEng; omega
  have hdiv : (aEng e o - 0x1000000) / 0x1000 = e := by unfold aEng; omega
  have hmod : aEng e o % 0x1000 = o := by unfold aEng; omega
  simp only [locOf, hge, hlt, hdiv, hmod, Nat.reduceLeDiff, if_false, if_true]

theorem locOf_aCh {c o : Nat} (hc : c < 720) (h : o < 0x800) : locOf (aCh c o) = .ch c o := by
  have hlt : aCh c o < 0x2240000 := by unfold aCh; omega
  have hge : ∀ b, b ≤ 0x2000000 → ¬aCh c o < b := fun b hb => by unfold aCh; omega
  have hdiv : (aCh c o - 0x2000000) / 0x4000 = c / 5 := by unfold aCh; omega
  have hmod : aCh c o % 0x4000 = c % 5 * 0x800 + o := by unfold aCh; omega
  have hin : c % 5 * 0x800 + o < 0x2800 := by omega
  have hch : 5 * (c / 5) + (c % 5 * 0x800 + o) / 0x800 = c := by omega
  have hoff : (c % 5 * 0x800 + o) % 0x800 = o := by omega
  simp only [locOf, hge, hlt, hdiv, hmod, hin, hch, hoff, Nat.reduceLeDiff, if_false, if_true]

theorem locOf_aQuad {q o : Nat} (hq : q < 144) (h : o < 0x1800) : locOf (aQuad q o) = .quad q o := by
  have hlt : aQuad q o < 0x2240000 := by unfold aQuad; omega
  have hge : ∀ b, b ≤ 0x2000000 → ¬aQuad q o < b := fun b hb => by unfold aQuad; omega
  have hdiv : (aQuad q o - 0x2000000) / 0x4000 = q := by unfold aQuad; omega
  have hmod : aQuad q o % 0x4000 = 0x2800 + o := by unfold aQuad; omega
  have hin : ¬(0x2800 + o < 0x2800) := by omega
  have hoff : 0x2800 + o - 0x2800 = o := by omega
  simp only [locOf, hge, hlt, hdiv, hmod, hin, hoff, Nat.reduceLeDiff, if_false, if_true]

theorem locOf_aPly {y o : Nat} (hy : y < 16) (h : o < 0xC00) : locOf (aPly y o) = .ply y o := by
  have hlt : aPly y o < 0x3010000 := by unfold aPly; omega
  have hge : ∀ b, b ≤ 0x3000000 → ¬aPly y o < b := fun b hb => by unfold aPly; omega
  have hdiv : (aPly y o - 0x3000000) / 0x1000 = y := by unfold aPly; omega
  have hmod : aPly y o % 0x1000 = o := by unfold aPly; omega
  have hts : ¬(0xC00 ≤ o ∧ o < 0xD00) := by omega
  have hcis : ¬(0xE00 ≤ o ∧ o < 0xF00) := by omega
  simp only [locOf, hge, hlt, hdiv, hmod, hts, hcis, Nat.reduceLeDiff, if_false, if_true]

theorem locOf_aUcs {o : Nat} (h : o < 0x10000) : locOf (aUcs o) = .ucs o := by
  have hlt : aUcs o < 0x4010000 := by unfold aUcs; omega
  have hge : ∀ b, b ≤ 0x4000000 → ¬aUcs o < b := fun b hb => by unfold aUcs; omega
  have hsub : aUcs o - 0x4000000 = o := by unfold aUcs; omega
  simp only [locOf, hge, hlt, hsub, Nat.reduceLeDiff, if_false, if_true]

/-! ### Receiving and completing a request -/

/-- The device with other link queues. -/
def Dev.relinked (s : Dev) (l : Tab Link) : Dev := { s with links := l }

theorem Dev.received_relinked (s : Dev) (v : Via) (n : Nat) : s.received v n = s.relinked (s.received v n).links := by
  cases v <;> rfl

/-- A completion touches the links alone, and answers the request (R340). -/
theorem Dev.memDone_relinked (s : Dev) (h : Hdr) (read : Bool) (status words tick : Nat) (data : List W) :
    s.memDone h read status words tick data = s.relinked (s.memDone h read status words tick data).links ∧
      (s.memDone h read status words tick data).AnswersMem h read status words tick data := by
  unfold Dev.memDone Dev.AnswersMem
  cases h.via with
  | mspi => exact ⟨rfl, fun l hl => absurd hl (by simp)⟩
  | link l =>
    refine ⟨rfl, fun k hk => ?_⟩
    cases hk
    exact Dev.said_sendMsg _ _ _

theorem Dev.AnswersMem.congr {t u : Dev} {h : Hdr} {read : Bool} {status words tick : Nat} {data : List W}
    (ht : t.AnswersMem h read status words tick data) (hl : u.links = t.links) : u.AnswersMem h read status words tick data := by
  intro l hv
  obtain ⟨k, hk⟩ := ht l hv
  have hlink : u.link k = t.link k := by unfold Dev.link; rw [hl]
  exact ⟨k, by rw [hlink]; exact hk⟩

/-! ### The one word of a request -/

theorem Dev.writeWords_one {s : Dev} {via : Via} {a : Nat} {v : W} (hm : s.modeOk via a v = true) (hp : s.wordInPlay a = false) :
    s.writeWords via a [v] = s.wrStart.word a v := by
  have hrange : (List.range [v].length).map (fun k => a + 4 * k) = [a] := rfl
  unfold Dev.writeWords
  dsimp only
  rw [hrange]
  have hfilter : (([a].zip [v]).filter (fun x => !s.modeOk via x.1 x.2)).map (·.1) = [] := by
    show (List.filter (fun x => !s.modeOk via x.1 x.2) [(a, v)]).map (·.1) = []
    rw [List.filter_cons_of_neg (by rw [hm]; decide)]
    rfl
  have hany : [a].any s.wordInPlay = false := by rw [List.any_cons, hp]; rfl
  rw [hfilter, hany]
  rfl

theorem Dev.forced_of_one {s : Dev} {a : Nat} {v : W} (h : forcedBy a v = none) (n : Nat) :
    s.forced (wordsAt a ([v].take n)) = s := by
  refine Dev.forced_of_none ?_
  cases n with
  | zero => rfl
  | succ n =>
    rw [List.take_succ_cons, List.take_nil]
    show [(a, v)].filterMap _ = []
    rw [List.filterMap_cons, h]
    rfl

/-- An admitted write of one word, that is no NV word: its completion follows what the word did, then what it forces. -/
theorem Dev.hostWord_admitted {s : Dev} {h : Hdr} {a : Nat} {v : W} (hadm : s.Admits h a v) (ha : a % 4 = 0)
    {r : Tab Link → WrOut} (hr : ∀ l, (s.relinked l).wrStart.word a v = r l) (hnv : ∀ l, (r l).nv = []) :
    ∃ l, s.hostWord h a v = ((r l).s.memDone h false (r l).status (r l).words (r l).tick []).forced (wordsAt a ([v].take (r l).words)) := by
  obtain ⟨l, hrec⟩ : ∃ l, s.received h.via 2 = s.relinked l := ⟨_, s.received_relinked h.via 2⟩
  refine ⟨l, ?_⟩
  have hframed : framed a 4 = true := by simp [framed, ha]
  have hwords : (s.relinked l).writeWords h.via a ([v].take (4 / 4)) = r l :=
    (Dev.writeWords_one (s := s.relinked l) hadm.mode hadm.free).trans (hr _)
  unfold Dev.hostWord Dev.hostWrite
  rw [hadm.linked, Bool.not_true, if_neg Bool.false_ne_true]
  show (if (!framed a 4) = true then (s.received h.via 2).memDone h false 1 0 0 [] else _) = _
  rw [hframed, Bool.not_true, if_neg Bool.false_ne_true, hrec]
  simp only [hwords, hnv]

/-- One word that takes effect at once, outside the fault registers: what it wrote, with other link queues. -/
theorem Dev.hostWord_now {s : Dev} {h : Hdr} {a : Nat} {v : W} (hadm : s.Admits h a v) (ha : a % 4 = 0)
    (huser : userNv a = none) (hstage : Machine.stages a = false) (hcanon : canonAddr a = a) (hforced : forcedBy a v = none) :
    ∃ l m, s.hostWord h a v = ((s.relinked l).writeNow a v).relinked m ∧ (s.hostWord h a v).AnswersMem h false 0 1 0 [] := by
  have hword : ∀ l, (s.relinked l).wrStart.word a v =
      { s := (s.relinked l).writeNow a v, status := 0, words := 1, tick := 0, nv := [] } := fun l => by
    unfold WrOut.word
    rw [if_neg (fun h => h rfl), huser]
    dsimp only
    rw [hstage, if_neg Bool.false_ne_true, hcanon]
    rfl
  obtain ⟨l, hl⟩ := Dev.hostWord_admitted hadm ha hword (fun _ => rfl)
  rw [Dev.forced_of_one hforced] at hl
  obtain ⟨hlinks, hans⟩ := ((s.relinked l).writeNow a v).memDone_relinked h false 0 1 0 []
  exact ⟨l, _, hl.trans hlinks, hl ▸ hans⟩

/-- A staged word that is refused: one that is late sets LATE_TARGET (R40). -/
def Dev.lateNoted (s : Dev) : Dev := if s.stageStatus s.stageTgt 1 = 6 then s.setBits (aFrm 0x10) 0x100 else s

theorem Dev.lateNoted_relinked (s : Dev) (l m : Tab Link) : (s.relinked l).lateNoted.relinked m = s.lateNoted.relinked m := by
  have hstatus : (s.relinked l).stageStatus (s.relinked l).stageTgt 1 = s.stageStatus s.stageTgt 1 := rfl
  unfold Dev.lateNoted
  rw [hstatus]
  split <;> rfl

/-- One staged word: it waits, or it is refused (R23, R26). -/
theorem Dev.hostWord_staged {s : Dev} {h : Hdr} {a : Nat} {v : W} (hadm : s.Admits h a v) (ha : a % 4 = 0)
    (huser : userNv a = none) (hstage : Machine.stages a = true) (hcanon : canonAddr a = a) (hforced : forcedBy a v = none) :
    let x : HostEnt := { tgt := s.stageTgt, op := .write a v }
    (s.stageStatus s.stageTgt 1 = 0 → ∃ m, s.hostWord h a v = (s.staged x).relinked m ∧
      (s.hostWord h a v).AnswersMem h false 0 1 (s.stageTgt.getD s.nextTick) []) ∧
    (s.stageStatus s.stageTgt 1 ≠ 0 → ∃ m,
      s.hostWord h a v = s.lateNoted.relinked m ∧
      (s.hostWord h a v).AnswersMem h false (s.stageStatus s.stageTgt 1) 0 0 []) := by
  intro x
  have hword : ∀ l, (s.relinked l).wrStart.word a v =
      if ((s.relinked l).stageEnt x).2 = 0 then
        { s := ((s.relinked l).stageEnt x).1, status := 0, words := 1, tick := s.stageTgt.getD s.nextTick, nv := [] }
      else { s := ((s.relinked l).stageEnt x).1, status := ((s.relinked l).stageEnt x).2, words := 0, tick := 0, nv := [] } := fun l => by
    unfold WrOut.word
    rw [if_neg (fun h => h rfl), huser]
    dsimp only
    rw [hstage, if_pos rfl, hcanon]
    rfl
  have hstatus : ∀ l, (s.relinked l).stageStatus x.tgt x.weight = s.stageStatus s.stageTgt 1 := fun _ => rfl
  constructor
  · intro hok
    have hone : ∀ l, (s.relinked l).wrStart.word a v =
        { s := (s.relinked l).staged x, status := 0, words := 1, tick := s.stageTgt.getD s.nextTick, nv := [] } := fun l => by
      rw [hword, Dev.stageEnt_of_ok ((hstatus l).trans hok), if_pos rfl]
    obtain ⟨l, hl⟩ := Dev.hostWord_admitted hadm ha hone (fun _ => rfl)
    rw [Dev.forced_of_one hforced] at hl
    obtain ⟨hlinks, hans⟩ := ((s.relinked l).staged x).memDone_relinked h false 0 1 (s.stageTgt.getD s.nextTick) []
    exact ⟨_, hl.trans hlinks, hl ▸ hans⟩
  · intro hno
    have hent : ∀ l, (s.relinked l).stageEnt x = ((s.relinked l).lateNoted, s.stageStatus s.stageTgt 1) := fun l => by
      unfold Dev.lateNoted
      by_cases h6 : s.stageStatus s.stageTgt 1 = 6
      · rw [Dev.stageEnt_of_late ((hstatus l).trans h6), if_pos (by exact h6), h6]
      · rw [Dev.stageEnt_of_refused (by rw [hstatus]; exact hno) (by rw [hstatus]; exact h6), if_neg (by exact h6), hstatus]
    have hone : ∀ l, (s.relinked l).wrStart.word a v =
        { s := (s.relinked l).lateNoted, status := s.stageStatus s.stageTgt 1, words := 0, tick := 0, nv := [] } := fun l => by
      rw [hword, hent, if_neg hno]
    obtain ⟨l, hl⟩ := Dev.hostWord_admitted hadm ha hone (fun _ => rfl)
    rw [Dev.forced_of_one hforced] at hl
    obtain ⟨hlinks, hans⟩ := (s.relinked l).lateNoted.memDone_relinked h false (s.stageStatus s.stageTgt 1) 0 0 []
    exact ⟨_, (hl.trans hlinks).trans (s.lateNoted_relinked l _), hl ▸ hans⟩

end Sys2Proof.Machine
end

section
/-! PROOFS. Writes of staged registers (R12, R23, R26, R40). -/

namespace Sys2Proof.Machine

/-- A staged card of its own: its one address, no NV word and no source that a write forces. -/
structure StagedCard (a : Nat) : Prop where
  aligned : a % 4 = 0
  user    : userNv a = none
  stages  : stages a = true
  canon   : canonAddr a = a
  quiet   : ∀ v, forcedBy a v = none

theorem stagedCard_mode : StagedCard 0x104 := ⟨by decide, by decide, by decide, by decide, fun _ => rfl⟩

theorem stagedCard_flen : StagedCard (aFrm 4) := ⟨by decide, by decide, by decide, by decide, fun _ => rfl⟩

theorem stagedCard_quad {q o : Nat} (hq : q < 144) (ho : o = 0 ∨ o = 0xC ∨ o = 0x100) : StagedCard (aQuad q o) := by
  have hloc := locOf_aQuad hq (o := o) (by omega)
  have hcanon : canonAddr (aQuad q o) = aQuad q o := by rw [canonAddr, hloc]
  refine ⟨by unfold aQuad; omega, by rw [userNv, hloc], ?_, hcanon, fun v => by rw [forcedBy, hloc]⟩
  rw [stages, hcanon, isStaged, hloc]
  rcases ho with rfl | rfl | rfl <;> rfl

theorem stagedCard_power {o : Nat} (ho : o ∈ [0, 4, 8, 0xC, 0x10, 0x20, 0x24, 0x28, 0x2C]) : StagedCard (aPwr o) := by
  have hall : ∀ n ∈ [0, 4, 8, 0xC, 0x10, 0x20, 0x24, 0x28, 0x2C], n % 4 = 0 ∧ n < 0x10000 ∧
      (n ≤ 0x10 || n = 0x20 || n = 0x24 || n = 0x28 || n = 0x2C : Bool) = true := by decide
  obtain ⟨h4, hlt, hst⟩ := hall o ho
  have hloc := locOf_aPwr hlt
  have hcanon : canonAddr (aPwr o) = aPwr o := by rw [canonAddr, hloc]
  refine ⟨by unfold aPwr; omega, by rw [userNv, hloc], ?_, hcanon, fun v => by rw [forcedBy, hloc]⟩
  rw [stages, hcanon, isStaged, hloc]
  simpa using hst

theorem stagedCard_ch {q k o : Nat} (hq : q < 144) (hk : k < 4) (ho : o = 0x104 ∨ o = 0x128) :
    StagedCard (aCh (5 * q + k) o) := by
  have hloc := locOf_aCh (c := 5 * q + k) (o := o) (by omega) (by omega)
  have hcanon : canonAddr (aCh (5 * q + k) o) = aCh (5 * q + k) o := by rw [canonAddr, hloc]
  refine ⟨by unfold aCh; omega, by rw [userNv, hloc], ?_, hcanon, fun v => by rw [forcedBy, hloc]⟩
  rw [stages, hcanon, isStaged, hloc]
  rcases ho with rfl | rfl <;> (simp; omega)

/-- The rows that write a staged register. -/
theorem stagedRegister_row {s : State} {h : Hdr} {v : W} {q : Fin 144} {k : Fin 5} {o : BitVec 8} {c : Instr} {a : Nat}
    (ho : o.toNat ∈ [0, 4, 8, 0xC, 0x10, 0x20, 0x24, 0x28, 0x2C])
    (hrow : (c, a) ∈ [(.modeRequest h v, 0x104), (.flenWrite h v, aFrm 4), (.quadRequest h q v, aQuad q 0),
        (.substitutionRequest h q v, aQuad q 0xC), (.restoreRequest h q v, aQuad q 0xC), (.acqArm h q v, aQuad q 0x100),
        (.acqAbort h q v, aQuad q 0x100), (.acqForce h q v, aQuad q 0x100), (.powerRequest h o v, aPwr o.toNat)] ∨
      (k.val < 4 ∧ (c, a) ∈ [(.firSwap h q k v, aCh (5 * q.val + k.val) 0x104),
        (.tdcOpen h q k v, aCh (5 * q.val + k.val) 0x128), (.tdcClose h q k v, aCh (5 * q.val + k.val) 0x128)])) :
    exec c s = .next { s with toDev := s.hostWord h a v } ∧ StagedCard a := by
  rcases hrow with hrow | ⟨hk, hrow⟩
  · have hall : ∀ x ∈ ([(.modeRequest h v, 0x104), (.flenWrite h v, aFrm 4), (.quadRequest h q v, aQuad q 0),
        (.substitutionRequest h q v, aQuad q 0xC), (.restoreRequest h q v, aQuad q 0xC), (.acqArm h q v, aQuad q 0x100),
        (.acqAbort h q v, aQuad q 0x100), (.acqForce h q v, aQuad q 0x100), (.powerRequest h o v, aPwr o.toNat)] : List (Instr × Nat)),
        exec x.1 s = .next { s with toDev := s.hostWord h x.2 v } ∧ StagedCard x.2 := by
      simp only [List.forall_mem_cons, List.not_mem_nil, false_implies, implies_true, and_true]
      exact ⟨⟨rfl, stagedCard_mode⟩, ⟨rfl, stagedCard_flen⟩, ⟨rfl, stagedCard_quad q.isLt (by simp)⟩,
        ⟨rfl, stagedCard_quad q.isLt (by simp)⟩, ⟨rfl, stagedCard_quad q.isLt (by simp)⟩, ⟨rfl, stagedCard_quad q.isLt (by simp)⟩,
        ⟨rfl, stagedCard_quad q.isLt (by simp)⟩, ⟨rfl, stagedCard_quad q.isLt (by simp)⟩, ⟨rfl, stagedCard_power ho⟩⟩
    exact hall _ hrow
  · have hall : ∀ x ∈ ([(.firSwap h q k v, aCh (5 * q.val + k.val) 0x104),
        (.tdcOpen h q k v, aCh (5 * q.val + k.val) 0x128), (.tdcClose h q k v, aCh (5 * q.val + k.val) 0x128)] : List (Instr × Nat)),
        exec x.1 s = .next { s with toDev := s.hostWord h x.2 v } ∧ StagedCard x.2 := by
      simp only [List.forall_mem_cons, List.not_mem_nil, false_implies, implies_true, and_true]
      exact ⟨⟨rfl, stagedCard_ch q.isLt hk (by simp)⟩, ⟨rfl, stagedCard_ch q.isLt hk (by simp)⟩, ⟨rfl, stagedCard_ch q.isLt hk (by simp)⟩⟩
    exact hall _ hrow

/-- The configuration registers of a spare take no write (R176). -/
theorem spareRegister_row {s : State} {h : Hdr} {v : W} {q : Fin 144} {k : Fin 5} {c : Instr} {a : Nat} (hk : k.val = 4)
    (hrow : (c, a) ∈ [(.firSwap h q k v, aCh (5 * q.val + 4) 0x104), (.tdcOpen h q k v, aCh (5 * q.val + 4) 0x128),
        (.tdcClose h q k v, aCh (5 * q.val + 4) 0x128)]) :
    exec c s = .next { s with toDev := s.hostWord h a v } ∧ ∃ o, a = aCh (5 * q.val + 4) o ∧ (o = 0x104 ∨ o = 0x128) := by
  have hall : ∀ x ∈ ([(.firSwap h q k v, aCh (5 * q.val + k.val) 0x104),
      (.tdcOpen h q k v, aCh (5 * q.val + k.val) 0x128), (.tdcClose h q k v, aCh (5 * q.val + k.val) 0x128)] : List (Instr × Nat)),
      exec x.1 s = .next { s with toDev := s.hostWord h x.2 v } ∧
        ∃ o, x.2 = aCh (5 * q.val + k.val) o ∧ (o = 0x104 ∨ o = 0x128) := by
    simp only [List.forall_mem_cons, List.not_mem_nil, false_implies, implies_true, and_true]
    exact ⟨⟨rfl, _, rfl, .inl rfl⟩, ⟨rfl, _, rfl, .inr rfl⟩, ⟨rfl, _, rfl, .inr rfl⟩⟩
  rw [hk] at hall
  exact hall _ hrow

theorem Dev.hostWord_spare {s : Dev} {h : Hdr} {q o : Nat} {v : W} (hq : q < 144) (ho : o = 0x104 ∨ o = 0x128)
    (hadm : s.Admits h (aCh (5 * q + 4) o) v) :
    ∃ m, s.hostWord h (aCh (5 * q + 4) o) v = s.relinked m ∧ (s.hostWord h (aCh (5 * q + 4) o) v).AnswersMem h false 0 1 0 [] := by
  have hloc := locOf_aCh (c := 5 * q + 4) (o := o) (by omega) (by omega)
  have hcanon : canonAddr (aCh (5 * q + 4) o) = aCh (5 * q + 4) o := by rw [canonAddr, hloc]
  have hmod : (5 * q + 4) % 5 = 4 := by omega
  have hstage : Machine.stages (aCh (5 * q + 4) o) = false := by
    rw [Machine.stages, hcanon, hloc]
    simp [hmod]
  have hroute : isRoute (aCh (5 * q + 4) o) = false := by
    rw [isRoute, hloc]
    simp [hmod]
  have hnow : ∀ l, (s.relinked l).writeNow (aCh (5 * q + 4) o) v = s.relinked l := fun l => by
    have hcfg : isPinCfg o = true := by rcases ho with rfl | rfl <;> rfl
    rw [Dev.writeNow, hroute, if_neg Bool.false_ne_true, hloc]
    dsimp only
    rw [Dev.writeCh, hcfg, if_pos (by simp [hmod])]
  obtain ⟨l, m, heq, hans⟩ := Dev.hostWord_now hadm (by unfold aCh; omega) (by rw [userNv, hloc]) hstage hcanon (by rw [forcedBy, hloc])
  rw [hnow] at heq
  exact ⟨m, heq, hans⟩

/-- The status of a staged word with no target (R26). -/
theorem Dev.stageStatus_word_next (s : Dev) : s.stageStatus none 1 = if s.stagedFor s.nextTick < 1024 then 0 else 5 := by
  rw [Dev.stageStatus_next]
  split_ifs <;> first | rfl | omega

/-- The status of a staged word with a target (R40). -/
theorem Dev.stageStatus_word_at (s : Dev) (n : Nat) : s.stageStatus (some n) 1 =
    if s.ahead n = 0 ∨ 2 ^ 47 ≤ s.ahead n then 6 else if 2 ^ 20 < s.ahead n then 7 else if s.stagedFor n < 1024 then 0 else 5 := by
  rw [Dev.stageStatus_at]
  simp only [Bool.or_eq_true, decide_eq_true_eq]
  split_ifs <;> first | rfl | omega

/-- Settles O49: each row is the WRITE of one staged card (`stagedRegister_row`), which waits or is refused
(`hostWord_staged`). -/
theorem stagedRegistersWaitForTheirTick : Obligations.StagedRegistersWaitForTheirTick := by
  unfold Obligations.StagedRegistersWaitForTheirTick
  intro s h v q k o c a
  refine ⟨fun ho hrow hadm => ?_, fun hn => ?_, ?_, fun hk hrow hadm => ?_⟩
  · obtain ⟨hexec, hcard⟩ := stagedRegister_row (s := s) ho hrow
    obtain ⟨hwaits, hrefused⟩ := Dev.hostWord_staged hadm hcard.aligned hcard.user hcard.stages hcard.canon (hcard.quiet v)
    refine ⟨fun hok => ?_, fun hno => ?_⟩
    · obtain ⟨m, heq, hans⟩ := hwaits hok
      rw [heq] at hexec hans
      exact ⟨_, hexec, rfl, hans, rfl⟩
    · obtain ⟨m, heq, hans⟩ := hrefused hno
      rw [heq] at hexec hans
      refine ⟨_, hexec, hans, ?_, ?_, fun h6 => ?_, ?_⟩
      · show s.toDev.lateNoted.bit (aFrm 0x10) 8 = _
        unfold Dev.lateNoted
        by_cases h6 : s.stageStatus s.stageTgt 1 = 6
        · rw [if_pos h6, Dev.bit_setBits_self _ (aFrm 0x10) (m := 0x100) 8 (by decide), decide_eq_true h6, Bool.or_true]
        · rw [if_neg h6, decide_eq_false h6, Bool.or_false]
      · show s.Cards s.toDev.lateNoted _
        unfold Dev.lateNoted
        split
        · exact (Dev.Cards.refl _ _).setBits (by simp) _
        · exact Dev.Cards.refl _ _
      · show s.toDev.lateNoted.regs = _
        rw [Dev.lateNoted, if_neg h6]
      · unfold Dev.lateNoted
        split <;> rfl
  · rw [hn, Dev.stageStatus_word_next]
  · intro n hn d
    rw [hn]
    exact s.toDev.stageStatus_word_at n
  · obtain ⟨hexec, o', rfl, ho'⟩ := spareRegister_row (s := s) hk hrow
    obtain ⟨m, heq, hans⟩ := Dev.hostWord_spare q.isLt ho' hadm
    rw [heq] at hexec hans
    exact ⟨_, hexec, hans, rfl⟩

end Sys2Proof.Machine
end

section
/-! PROOFS. Writes of clock, headgate, player, ring, limit and ledger registers (R16-R21, R42-R44, R70-R76, R166, R172,
R212-R217). -/

namespace Sys2Proof.Machine

/-! ### Registers that take a write at once -/

/-- A register that takes a write at once: its one address, no NV word. -/
structure DirectCard (a : Nat) : Prop where
  aligned : a % 4 = 0
  user    : userNv a = none
  direct  : stages a = false
  canon   : canonAddr a = a
  noRoute : isRoute a = false

/-- A row that writes such a register: what it wrote, with other link queues, and its completion. -/
theorem exec_directWrite {s : State} {h : Hdr} {a : Nat} {v : W} {c : Instr} (hc : DirectCard a) (hf : forcedBy a v = none)
    (hexec : exec c s = .next { s with toDev := s.hostWord h a v }) (hadm : s.Admits h a v) :
    ∃ l m, exec c s = .next { s with toDev := ((s.relinked l).writeNow a v).relinked m } ∧
      (((s.relinked l).writeNow a v).relinked m).AnswersMem h false 0 1 0 [] := by
  obtain ⟨l, m, heq, hans⟩ := Dev.hostWord_now hadm hc.aligned hc.user hc.direct hc.canon hf
  rw [heq] at hexec hans
  exact ⟨l, m, hexec, hans⟩

theorem directCard_frm {o : Nat} (h : o = 0 ∨ o = 0x14) :
    DirectCard (aFrm o) ∧ (∀ v, forcedBy (aFrm o) v = none) ∧ ∀ (s : Dev) (v : W), s.writeNow (aFrm o) v = s.writeFrm o v := by
  have hloc := locOf_aFrm (o := o) (by omega)
  have hcanon : canonAddr (aFrm o) = aFrm o := by rw [canonAddr, hloc]
  have hroute : isRoute (aFrm o) = false := by rw [isRoute, hloc]
  refine ⟨⟨by unfold aFrm; omega, by rw [userNv, hloc], ?_, hcanon, hroute⟩, fun v => by rw [forcedBy, hloc], fun s v => ?_⟩
  · rw [stages, hcanon, isStaged, hloc]
    rcases h with rfl | rfl <;> rfl
  · rw [Dev.writeNow, hroute, if_neg Bool.false_ne_true, hloc]

theorem directCard_glb {o : Nat} (h : o = 0x208 ∨ o = 0x308 ∨ o = 0x30C) :
    DirectCard o ∧ (∀ v, forcedBy o v = none) ∧ ∀ (s : Dev) (v : W), s.writeNow o v = s.writeGlb o v := by
  have hloc := locOf_glb (o := o) (by omega)
  have hcanon : canonAddr o = o := by rw [canonAddr, hloc]
  have hroute : isRoute o = false := by rw [isRoute, hloc]
  refine ⟨⟨by omega, by rw [userNv, hloc], ?_, hcanon, hroute⟩, fun v => by rw [forcedBy, hloc], fun s v => ?_⟩
  · rw [stages, hcanon, isStaged, hloc]
    rcases h with rfl | rfl | rfl <;> rfl
  · rw [Dev.writeNow, hroute, if_neg Bool.false_ne_true, hloc]

theorem directCard_ply {y o : Nat} (hy : y < 16) (h : o = 0 ∨ o = 0x28) :
    DirectCard (aPly y o) ∧ (∀ v, forcedBy (aPly y o) v = none) ∧
      ∀ (s : Dev) (v : W), s.writeNow (aPly y o) v = s.writePly y o v := by
  have hloc := locOf_aPly hy (o := o) (by omega)
  have hcanon : canonAddr (aPly y o) = aPly y o := by rw [canonAddr, hloc]
  have hroute : isRoute (aPly y o) = false := by rw [isRoute, hloc]
  refine ⟨⟨by unfold aPly; omega, by rw [userNv, hloc], ?_, hcanon, hroute⟩, fun v => by rw [forcedBy, hloc], fun s v => ?_⟩
  · rw [stages, hcanon, isStaged, hloc]
    rfl
  · rw [Dev.writeNow, hroute, if_neg Bool.false_ne_true, hloc]

/-- The words of the headgate that the host writes. -/
def hgtWord (o : Nat) : Prop := o < 0x900 ∨ (0x1000 ≤ o ∧ o < 0x2000 ∧ o % 16 = 0) ∨ (0x2100 ≤ o ∧ o < 0x2140)

theorem directCard_hgt {o : Nat} (h : hgtWord o) (h4 : o % 4 = 0) :
    DirectCard (aHgt o) ∧ (∀ v, forcedBy (aHgt o) v = none) ∧ ∀ (s : Dev) (v : W), s.writeNow (aHgt o) v = s.hgtWrite o v := by
  have hlt : o < 0x10000 := by unfold hgtWord at h; omega
  have hloc := locOf_aHgt hlt
  have hcanon : canonAddr (aHgt o) = aHgt o := by rw [canonAddr, hloc]
  have hroute : isRoute (aHgt o) = false := by rw [isRoute, hloc]
  have hmask : rwMask (aHgt o) ≠ 0 := by
    rw [rwMask, hloc]
    dsimp only
    unfold hgtWord at h
    split_ifs <;> first | decide | (exfalso; omega)
  refine ⟨⟨by unfold aHgt; omega, by rw [userNv, hloc], ?_, hcanon, hroute⟩, fun v => by rw [forcedBy, hloc], fun s v => ?_⟩
  · rw [stages, hcanon, isStaged, hloc]
    rfl
  · rw [Dev.writeNow, hroute, if_neg Bool.false_ne_true, hloc]
    dsimp only
    rw [if_neg hmask]

/-! ### A plain card (R10) -/

/-- A bit that a card lets a write set takes the value. -/
theorem bit_cardWrite {a : Nat} (old v : W) {i : Nat} (hrw : (rwMask a).bit i = true) (hw1c : (w1cMask a).bit i = false) :
    (cardWrite a old v).bit i = v.bit i := by
  have hi : i < 32 := by
    by_contra h
    rw [W.bit, BitVec.getLsbD_of_ge _ _ (by omega)] at hrw
    cases hrw
  rw [cardWrite, W.bit_and, W.bit_or, W.bit_and, W.bit_and, W.bit_not _ hi, W.bit_not _ hi, W.bit_and, hrw, hw1c]
  simp

/-- A field of such bits takes the value. -/
theorem fld_cardWrite {a : Nat} (old v : W) {hi lo : Nat}
    (h : ∀ i, lo ≤ i → i ≤ hi → (rwMask a).bit i = true ∧ (w1cMask a).bit i = false) :
    (cardWrite a old v).fld hi lo = v.fld hi lo :=
  W.fld_congr (fun i hlo hhi => bit_cardWrite old v (h i hlo hhi).1 (h i hlo hhi).2)

/-- A card all of whose bits the host writes holds the value. -/
theorem cardWrite_full {a : Nat} (hrw : rwMask a = 0xFFFFFFFF) (hw1c : w1cMask a = 0) (old v : W) : cardWrite a old v = v :=
  W.ext_bit (fun i hi => bit_cardWrite old v
    (by rw [hrw]; revert hi i; decide) (by rw [hw1c]; exact BitVec.getLsbD_zero))

@[simp] theorem Dev.rd_putCard_self (s : Dev) (a : Nat) (v : W) : (s.putCard a v).rd a = cardWrite a (s.rd a) v :=
  Dev.rd_wr_self _ _ _

theorem Dev.rd_putCard_of_ne (s : Dev) {a n : Nat} (v : W) (h : n ≠ a) : (s.putCard a v).rd n = s.rd n :=
  Dev.rd_wr_of_ne _ h _

theorem Dev.Cards.putCard {s t : Dev} {l : List Nat} (h : s.Cards t l) {a : Nat} (ha : a ∈ l) (v : W) :
    s.Cards (t.putCard a v) l := h.wr ha _

/-! ### SCLK_CFG and SYNC_CFG (R16, R21, R44) -/

theorem mult_bits : ∀ i, 0 ≤ i → i ≤ 7 → (rwMask (aFrm 0)).bit i = true ∧ (w1cMask (aFrm 0)).bit i = false := by decide

theorem trim_bits : ∀ i, 0 ≤ i → i ≤ 8 → (rwMask (aFrm 0x14)).bit i = true ∧ (w1cMask (aFrm 0x14)).bit i = false := by decide

/-- A MULT in range that differs relocks SCLK. -/
theorem Dev.sclkCfg_change {s : Dev} {v : W} (hlo : 16 ≤ v.fld 7 0) (hhi : v.fld 7 0 ≤ 128) (hne : v.fld 7 0 ≠ s.mult) :
    s.writeFrm 0 v = (s.putCard (aFrm 0) v).startRelock := by
  rw [Dev.writeFrm, if_pos rfl, Dev.sclkCfg, if_neg (by omega), if_neg hne]

/-- The MULT in force changes nothing. -/
theorem Dev.sclkCfg_same {s : Dev} {v : W} (hlo : 16 ≤ s.mult) (hhi : s.mult ≤ 128) (heq : v.fld 7 0 = s.mult) :
    s.writeFrm 0 v = s := by
  rw [Dev.writeFrm, if_pos rfl, Dev.sclkCfg, if_neg (by omega), if_pos heq]

/-- A MULT out of range is refused. -/
theorem Dev.sclkCfg_refused {s : Dev} {v : W} (hout : v.fld 7 0 < 16 ∨ 128 < v.fld 7 0) :
    s.writeFrm 0 v = s.setBits (aFrm 0x10) 0x40 := by
  rw [Dev.writeFrm, if_pos rfl, Dev.sclkCfg, if_pos hout, Dev.cfgRej]

/-- A write of SYNC_CFG that moves TRIM on a slave unlocks it. -/
theorem Dev.syncCfg_moved {s : Dev} {v : W} (hm : s.sys.master = false) (hne : v.fld 7 0 ≠ s.fld (aFrm 0x14) 7 0) :
    s.writeFrm 0x14 v = (s.putCard (aFrm 0x14) v).unsync := by
  have hcond : (decide (v.fld 7 0 ≠ s.fld (aFrm 0x14) 7 0) && !(s.putCard (aFrm 0x14) v).sys.master) = true := by
    have hm' : (s.putCard (aFrm 0x14) v).sys.master = false := hm
    simp [hne, hm']
  rw [Dev.writeFrm, if_neg (by decide), if_pos rfl]
  exact if_pos hcond

/-- Any other write of SYNC_CFG is a plain one. -/
theorem Dev.syncCfg_kept {s : Dev} {v : W} (h : s.sys.master = true ∨ v.fld 7 0 = s.fld (aFrm 0x14) 7 0) :
    s.writeFrm 0x14 v = s.putCard (aFrm 0x14) v := by
  have hcond : ¬(decide (v.fld 7 0 ≠ s.fld (aFrm 0x14) 7 0) && !(s.putCard (aFrm 0x14) v).sys.master) = true := by
    rcases h with h | h
    · have : (s.putCard (aFrm 0x14) v).sys.master = true := h
      simp [this]
    · simp [h]
  rw [Dev.writeFrm, if_neg (by decide), if_pos rfl]
  exact if_neg hcond

theorem sclkCfgWrite_acts {s : State} {h : Hdr} {v : W} (hadm : s.Admits h (aFrm 0) v) :
    ∃ t : Dev, (exec (.sclkCfgWrite h v) s = .next { s with toDev := t } ∧ t.AnswersMem h false 0 1 0 []) ∧
      (16 ≤ v.fld 7 0 → v.fld 7 0 ≤ 128 → v.fld 7 0 ≠ s.mult →
        t.mult = v.fld 7 0 ∧ s.Cards t [aFrm 0] ∧
        t.clk = { s.clk with
          locked := false, relock := true, slocked := false, captured := false, again := false, good := 0, miss := 0
          synced := false } ∧ { t with clk := s.clk, regs := s.regs, links := s.links } = s.toDev) ∧
      (v.fld 7 0 = s.mult → 16 ≤ s.mult → s.mult ≤ 128 → { t with links := s.links } = s.toDev) ∧
      (v.fld 7 0 < 16 ∨ 128 < v.fld 7 0 → t.bit (aFrm 0x10) 6 = true ∧ s.Cards t [aFrm 0x10] ∧
        { t with regs := s.regs, links := s.links } = s.toDev) := by
  obtain ⟨hcard, hforce, hnow⟩ := directCard_frm (o := 0) (Or.inl rfl)
  obtain ⟨l, m, hexec, hans⟩ := exec_directWrite hcard (hforce v) (c := .sclkCfgWrite h v) rfl hadm
  rw [hnow] at hexec hans
  refine ⟨_, ⟨hexec, hans⟩, fun hlo hhi hne => ?_, fun heq hlo hhi => ?_, fun hout => ?_⟩
  · rw [Dev.sclkCfg_change (s := s.relinked l) hlo hhi hne]
    refine ⟨?_, (Dev.Cards.refl s.toDev _).putCard (List.mem_singleton_self _) v, rfl, rfl⟩
    exact (congrArg (fun w : W => w.fld 7 0) (Dev.rd_putCard_self s.toDev (aFrm 0) v)).trans (fld_cardWrite _ v mult_bits)
  · rw [Dev.sclkCfg_same (s := s.relinked l) hlo hhi heq]
    rfl
  · rw [Dev.sclkCfg_refused (s := s.relinked l) hout]
    exact ⟨Dev.bit_setBits_self s.toDev (aFrm 0x10) (m := 0x40) 6 (by decide), (Dev.Cards.refl s.toDev _).setBits (List.mem_singleton_self _) _, rfl⟩

theorem syncCfgWrite_acts {s : State} {h : Hdr} {v : W} (hadm : s.Admits h (aFrm 0x14) v) :
    ∃ t : Dev, (exec (.syncCfgWrite h v) s = .next { s with toDev := t } ∧ t.AnswersMem h false 0 1 0 []) ∧
      t.fld (aFrm 0x14) 8 0 = v.fld 8 0 ∧ s.Cards t [aFrm 0x14] ∧
      (s.sys.master = false → v.fld 7 0 ≠ s.fld (aFrm 0x14) 7 0 → t.clk = { s.clk with
        slocked := false, captured := false, again := true, good := 0, miss := 0, synced := false }) ∧
      (s.sys.master = true ∨ v.fld 7 0 = s.fld (aFrm 0x14) 7 0 → t.clk = s.clk) ∧
      { t with clk := s.clk, regs := s.regs, links := s.links } = s.toDev := by
  obtain ⟨hcard, hforce, hnow⟩ := directCard_frm (o := 0x14) (Or.inr rfl)
  obtain ⟨l, m, hexec, hans⟩ := exec_directWrite hcard (hforce v) (c := .syncCfgWrite h v) rfl hadm
  rw [hnow] at hexec hans
  have hfld : (s.toDev.putCard (aFrm 0x14) v).fld (aFrm 0x14) 8 0 = v.fld 8 0 :=
    (congrArg (fun w : W => w.fld 8 0) (Dev.rd_putCard_self s.toDev (aFrm 0x14) v)).trans (fld_cardWrite _ v trim_bits)
  have hcards : s.Cards (s.toDev.putCard (aFrm 0x14) v) [aFrm 0x14] := (Dev.Cards.refl s.toDev _).putCard (List.mem_singleton_self _) v
  refine ⟨_, ⟨hexec, hans⟩, ?_⟩
  by_cases h : s.sys.master = true ∨ v.fld 7 0 = s.fld (aFrm 0x14) 7 0
  · rw [Dev.syncCfg_kept (s := s.relinked l) h]
    refine ⟨hfld, hcards, fun hm hne => ?_, fun _ => rfl, rfl⟩
    rcases h with h | h
    · rw [hm] at h
      cases h
    · exact absurd h hne
  · obtain ⟨hm, hne⟩ := not_or.mp h
    rw [Dev.syncCfg_moved (s := s.relinked l) (Bool.eq_false_iff.mpr hm) hne]
    exact ⟨hfld, hcards, fun _ _ => rfl, fun hk => absurd hk h, rfl⟩

end Sys2Proof.Machine
end

section
/-! PROOFS. The headgate under a write: what a re-check changes and what it judges (R70-R76, R156). -/

namespace Sys2Proof.Machine

/-! ### Tables -/

/-- A listing that leaves a key out does not see what is put there. -/
theorem Tab.filter_put_of_drop {α : Type} {q : Nat × α → Bool} {k : Nat} (h : ∀ v, q (k, v) = false) (v : α) (t : Tab α) :
    (t.put k v).filter q = t.filter q := by
  induction t with
  | nil => simp [Tab.put, h]
  | cons p r ih =>
    obtain ⟨j, w⟩ := p
    rw [Tab.put]
    split
    · simp [h]
    · split
      · subst j
        simp [h]
      · simp [List.filter_cons, ih]

theorem Tab.filter_set_of_drop {α : Type} [DecidableEq α] {d : Nat → α} {q : Nat × α → Bool} {k : Nat} (h : ∀ v, q (k, v) = false)
    (v : α) (t : Tab α) : (t.set d k v).filter q = t.filter q := by
  unfold Tab.set
  split
  · rw [Tab.del_eq_filter, List.filter_filter]
    refine List.filter_congr (fun p _ => ?_)
    by_cases hp : p.1 = k
    · obtain ⟨j, w⟩ := p
      subst hp
      simp [h]
    · simp [hp]
  · exact Tab.filter_put_of_drop h v t

/-! ### What a site's ERR reads (R73) -/

/-- The mirrors of the sites. -/
def siteMirrors : List Nat := (List.range 256).map (fun i => aSiteCfg i + 8)

theorem mem_siteMirrors {i : Nat} (h : i < 256) : aSiteCfg i + 8 ∈ siteMirrors := List.mem_map_of_mem (List.mem_range.mpr h)

theorem not_mirror_of_mod {a : Nat} (h : a % 16 = 0) : a ∉ siteMirrors := by
  intro hm
  obtain ⟨i, _, rfl⟩ := List.mem_map.mp hm
  unfold aSiteCfg aHgt at h
  omega

theorem not_mirror_pin {p : Nat} (h : p < 576) : aHgt (4 * p) ∉ siteMirrors := by
  intro hm
  obtain ⟨i, _, hi⟩ := List.mem_map.mp hm
  unfold aSiteCfg aHgt at hi
  omega

/-- A re-check of site `i` and the bindings it moves: the mirrors, the site and the engines, of the other sites and of
which engines are RETIRED nothing. -/
structure Dev.Rebound (i : Nat) (s t : Dev) : Prop where
  only    : { t with regs := s.regs, sites := s.sites, engs := s.engs } = s
  cards   : s.Cards t siteMirrors
  others  : t.sites.filter (fun x => x.1 ≠ i && x.2.mapped) = s.sites.filter (fun x => x.1 ≠ i && x.2.mapped)
  retired : ∀ e, (t.eng e).st = .retired ↔ (s.eng e).st = .retired

namespace Dev.Rebound

variable {i : Nat} {s t u : Dev}

theorem refl (i : Nat) (s : Dev) : Dev.Rebound i s s := ⟨rfl, Dev.Cards.refl s _, rfl, fun _ => Iff.rfl⟩

theorem trans (h : Dev.Rebound i s t) (k : Dev.Rebound i t u) : Dev.Rebound i s u where
  only := by
    have hu := congrArg (fun w : Dev => { w with regs := s.regs, sites := s.sites, engs := s.engs }) k.only
    exact hu.trans h.only
  cards := h.cards.trans k.cards
  others := k.others.trans h.others
  retired := fun e => (k.retired e).trans (h.retired e)

theorem onEng (i : Nat) (s : Dev) (e : Nat) {f : Eng → Eng} (hf : ∀ g, (f g).st = .retired ↔ g.st = .retired) :
    Dev.Rebound i s (s.onEng e f) where
  only := rfl
  cards := Dev.Cards.of_regs rfl _
  others := rfl
  retired := fun k => by
    rw [Dev.eng_onEng]
    split
    · exact hf _
    · exact Iff.rfl

theorem onSite (i : Nat) (s : Dev) (f : Site → Site) : Dev.Rebound i s (s.onSite i f) where
  only := rfl
  cards := Dev.Cards.of_regs rfl _
  others := Tab.filter_set_of_drop (k := i) (d := fun _ => siteInit) (q := fun x : Nat × Site => decide (x.1 ≠ i) && x.2.mapped) (fun v => by simp) _ _
  retired := fun _ => Iff.rfl

theorem unbind (i : Nat) (s : Dev) (e : Nat) : Dev.Rebound i s (s.unbind e) :=
  onEng i s e (fun g => by
    split_ifs with h
    · have hne : g.st ≠ .retired := fun hr => by
        rw [hr] at h
        revert h
        decide
      simp [hne]
    · exact Iff.rfl)

theorem bindEng (hi : i < 256) (s : Dev) (e : Nat) : Dev.Rebound i s (s.bindEng i e) := by
  have hon : Dev.Rebound i s (s.onEng e (fun g => if g.st = .spare then { g with st := .ready, cause := 0 } else g)) :=
    onEng i s e (fun g => by
      split_ifs with h
      · simp [h]
      · exact Iff.rfl)
  exact hon.trans ⟨rfl, (Dev.Cards.refl _ _).wr (mem_siteMirrors hi) _, rfl, fun _ => Iff.rfl⟩

theorem recheck (hi : i < 256) (s : Dev) (e0 : Nat) : Dev.Rebound i s (s.recheck i e0) := by
  unfold Dev.recheck
  dsimp only
  split
  · have hon : Dev.Rebound i s (s.onSite i (fun x => { x with mapped := true, err := 0 })) := onSite i s _
    have hun : ∀ b : Bool, Dev.Rebound i s ((if b then (s.onSite i (fun x => { x with mapped := true, err := 0 })).unbind e0
        else s.onSite i (fun x => { x with mapped := true, err := 0 })).bindEng i (s.engOf i)) := fun b => by
      cases b
      · exact hon.trans (bindEng hi _ _)
      · exact (hon.trans (unbind i _ _)).trans (bindEng hi _ _)
    have hload : ∀ d : Dev, Dev.Rebound i s d → Dev.Rebound i s (d.loadDwell i) := fun d h => by
      unfold Dev.loadDwell
      exact h.trans (onSite i d _)
    split
    · exact hun _
    · exact hload _ (hun _)
  · split
    · exact (onSite i s _).trans (unbind i _ _)
    · exact onSite i s _

end Dev.Rebound

/-- ERR of a site is judged by the headgate, the players' CFG, the other mapped sites, the engines and the quads. -/
theorem Dev.Rebound.siteErr {i : Nat} {s t : Dev} (h : Dev.Rebound i s t) : t.siteErr i = s.siteErr i := by
  obtain ⟨honly, hcards, hothers, hretired⟩ := h
  have hcfg : ∀ j, t.rd (aSiteCfg j) = s.rd (aSiteCfg j) := fun j =>
    hcards _ (not_mirror_of_mod (by unfold aSiteCfg aHgt; omega))
  have hply : ∀ y, t.rd (aPly y 0) = s.rd (aPly y 0) := fun y => hcards _ (not_mirror_of_mod (by unfold aPly; omega))
  have hpin : ∀ p < 576, t.rd (aHgt (4 * p)) = s.rd (aHgt (4 * p)) := fun p hp => hcards _ (not_mirror_pin hp)
  have hpins : t.pins i = s.pins i := List.filter_congr (fun p hp => by
    rw [Dev.pinOfSite, Dev.pinOfSite, Dev.bit_congr (hpin p (List.mem_range.mp hp)), Dev.fld_congr (hpin p (List.mem_range.mp hp))])
  have hts : (s.pins i).map t.tpinOf = (s.pins i).map s.tpinOf := List.map_congr_left (fun p hp =>
    Dev.fld_congr (hpin p (List.mem_range.mp (List.mem_filter.mp hp).1)) 6 0)
  have hengOf : t.engOf = s.engOf := funext (fun j => Dev.fld_congr (hcfg j) 24 16)
  have hengine : t.engineOk i = s.engineOk i := by
    simp only [Dev.engineOk, hothers, hengOf, ne_eq, hretired]
  have hwidth : t.width = s.width := funext (fun y => by rw [Dev.width, Dev.width, Dev.bit_congr (hply y), Dev.fld_congr (hply y)])
  have hquad : t.quad = s.quad := funext (fun q => by
    have hq := congrArg Dev.quads honly
    exact congrArg (fun x : Tab Quad => x.get (fun _ => quadInit) q) hq)
  simp only [Dev.siteErr, Dev.npin, Dev.homeOf, Dev.altOf, Dev.altEn, Dev.bit_congr (hcfg i), Dev.fld_congr (hcfg i),
    hpins, hts, hengine, hwidth, hquad]
  rfl

/-! ### A re-check -/

theorem Dev.unbind_site (s : Dev) (e i : Nat) : (s.unbind e).site i = s.site i := rfl

theorem Dev.bindEng_site (s : Dev) (j e i : Nat) : (s.bindEng j e).site i = s.site i := rfl

/-- A site is mapped after a re-check where no check fails. -/
theorem Dev.recheck_mapped (s : Dev) (i e0 : Nat) : ((s.recheck i e0).site i).mapped = true ↔ s.siteErr i = 0 := by
  unfold Dev.recheck
  dsimp only
  split
  next herr =>
    simp only [herr, iff_true]
    have hbound : ∀ d : Dev, (d.site i).mapped = true → ((d.bindEng i (s.engOf i)).site i).mapped = true := fun _ h => h
    have hloaded : ∀ d : Dev, (d.site i).mapped = true → ((d.loadDwell i).site i).mapped = true := fun d h => by
      rw [Dev.loadDwell, Dev.onSite, Dev.site_setSite_self]
      exact h
    have hset : ((s.onSite i (fun x => { x with mapped := true, err := 0 })).site i).mapped = true := by
      rw [Dev.onSite, Dev.site_setSite_self]
    have hun : ∀ b : Bool, (((if b then (s.onSite i (fun x => { x with mapped := true, err := 0 })).unbind e0
        else s.onSite i (fun x => { x with mapped := true, err := 0 })).site i)).mapped = true := fun b => by
      cases b
      · exact hset
      · exact hset
    split
    · exact hbound _ (hun _)
    · exact hloaded _ (hbound _ (hun _))
  next herr =>
    simp only [herr, iff_false, Bool.not_eq_true]
    have hset : ((s.onSite i (fun x => { x with mapped := false, err := s.siteErr i, member := .none, last := [] })).site i).mapped = false := by
      rw [Dev.onSite, Dev.site_setSite_self]
    split
    · exact hset
    · exact hset

/-- The re-check of a list of sites: the mirrors, sites and engines alone. -/
structure Dev.Regated (s t : Dev) : Prop where
  only  : { t with regs := s.regs, sites := s.sites, engs := s.engs } = s
  cards : s.Cards t siteMirrors

theorem Dev.recheckAll_regated {l : List Nat} (hl : ∀ i ∈ l, i < 256) (s : Dev) : Dev.Regated s (s.recheckAll l) := by
  refine forL_keeps (I := Dev.Regated s) (fun i hi u hu => ?_) ⟨rfl, Dev.Cards.refl s _⟩
  have hre := Dev.Rebound.recheck (hl i hi) u (u.engOf i)
  refine ⟨?_, hu.cards.trans hre.cards⟩
  have h := congrArg (fun w : Dev => { w with regs := s.regs, sites := s.sites, engs := s.engs }) hre.only
  exact h.trans hu.only

/-! ### A write of the headgate (R73, R74) -/

/-- What a write of a headgate word that is not refused leaves. -/
structure Dev.Gated (s t : Dev) (o : Nat) (w : W) : Prop where
  word   : t.rd (aHgt o) = w
  cards  : s.Cards t (aHgt o :: siteMirrors)
  mapped : ∀ i, i < 256 → o = 0x1000 + 16 * i → ((t.site i).mapped = true ↔ t.siteErr i = 0)
  only   : { t with regs := s.regs, sites := s.sites, engs := s.engs } = s

theorem pinNames_lt {v : W} {i : Nat} (h : i ∈ pinNames v) : i < 256 := by
  unfold pinNames at h
  split at h
  · rw [List.mem_singleton.mp h]
    exact W.fld_lt v 15 8
  · cases h

theorem Dev.hgtWrite_refused {s : Dev} {o : Nat} {v : W} (hm : s.sys.mode = .diagnostic)
    (hb : (s.hgtTouches o (v &&& rwMask (aHgt o))).any s.siteBusy = true) : s.hgtWrite o v = s.setBits (aHgt 0x2000) 0x80000000 := by
  unfold Dev.hgtWrite
  dsimp only
  rw [hm, hb]
  rfl

theorem Dev.Regated.gated {s t : Dev} {o : Nat} {w : W} (h : Dev.Regated (s.wr (aHgt o) w) t) (ho : aHgt o ∉ siteMirrors)
    (hmapped : ∀ i, i < 256 → o = 0x1000 + 16 * i → ((t.site i).mapped = true ↔ t.siteErr i = 0)) : Dev.Gated s t o w where
  word := (h.cards _ ho).trans (Dev.rd_wr_self _ _ _)
  cards := ((Dev.Cards.refl s _).wr List.mem_cons_self w).trans (h.cards.mono (List.subset_cons_self _ _))
  mapped := hmapped
  only := congrArg (fun d : Dev => { d with regs := s.regs }) h.only

theorem Dev.hgtWrite_gated {s : Dev} {o : Nat} {v : W} (ho : hgtWord o) (h4 : o % 4 = 0)
    (h : s.sys.mode ≠ .diagnostic ∨ (s.hgtTouches o (v &&& rwMask (aHgt o))).any s.siteBusy = false) :
    Dev.Gated s (s.hgtWrite o v) o (v &&& rwMask (aHgt o)) := by
  have hcond : ¬(decide (s.sys.mode = .diagnostic) && (s.hgtTouches o (v &&& rwMask (aHgt o))).any s.siteBusy) = true := by
    rcases h with h | h
    · simp [h]
    · rw [h, Bool.and_false]
      exact Bool.false_ne_true
  have hmirror : aHgt o ∉ siteMirrors := by
    intro hm
    obtain ⟨i, hi, heq⟩ := List.mem_map.mp hm
    have := List.mem_range.mp hi
    unfold aSiteCfg aHgt at heq
    unfold hgtWord at ho
    omega
  have hred : s.hgtWrite o v =
      if o < 0x900 then (s.wr (aHgt o) (v &&& rwMask (aHgt o))).recheckAll
        ((pinNames (s.rd (aHgt o)) ++ pinNames (v &&& rwMask (aHgt o))).eraseDups)
      else if 0x1000 ≤ o ∧ o < 0x2000 ∧ o % 16 = 0 then
        (s.wr (aHgt o) (v &&& rwMask (aHgt o))).recheck ((o - 0x1000) / 16) (s.engOf ((o - 0x1000) / 16))
      else s.wr (aHgt o) (v &&& rwMask (aHgt o)) := by
    unfold Dev.hgtWrite
    exact if_neg hcond
  rw [hred]
  split_ifs with hpin hsite
  · refine Dev.Regated.gated (Dev.recheckAll_regated (fun i hi => ?_) _) hmirror (fun i _ hi => by omega)
    rcases List.mem_append.mp (List.mem_eraseDups.mp hi) with h | h
    · exact pinNames_lt h
    · exact pinNames_lt h
  · have hre := Dev.Rebound.recheck (i := (o - 0x1000) / 16) (by omega) (s.wr (aHgt o) (v &&& rwMask (aHgt o))) (s.engOf ((o - 0x1000) / 16))
    refine Dev.Regated.gated ⟨hre.only, hre.cards⟩ hmirror (fun i _ hi => ?_)
    obtain rfl : (o - 0x1000) / 16 = i := by omega
    rw [hre.siteErr]
    exact Dev.recheck_mapped _ _ _
  · refine Dev.Regated.gated ⟨rfl, Dev.Cards.refl _ _⟩ hmirror (fun i _ hi => ?_)
    unfold hgtWord at ho
    omega

theorem headgateWrite_acts {s : State} {h : Hdr} {v : W} {o : BitVec 16} (hadm : s.Admits h (aHgt o.toNat) v)
    (h4 : o.toNat % 4 = 0) (ho : hgtWord o.toNat) :
    ((s.sys.mode ≠ .diagnostic ∨ (s.hgtTouches o.toNat (v &&& rwMask (aHgt o.toNat))).any s.siteBusy = false) →
      ∃ t : Dev, (exec (.headgateWrite h o v) s = .next { s with toDev := t } ∧ t.AnswersMem h false 0 1 0 []) ∧
        t.rd (aHgt o.toNat) = v &&& rwMask (aHgt o.toNat) ∧ s.Cards t (aHgt o.toNat :: siteMirrors) ∧
        (∀ i, i < 256 → o.toNat = 0x1000 + 16 * i → ((t.site i).mapped = true ↔ t.siteErr i = 0)) ∧
        { t with regs := s.regs, links := s.links, sites := s.sites, engs := s.engs } = s.toDev) ∧
    (s.sys.mode = .diagnostic → (s.hgtTouches o.toNat (v &&& rwMask (aHgt o.toNat))).any s.siteBusy = true →
      ∃ t : Dev, (exec (.headgateWrite h o v) s = .next { s with toDev := t } ∧ t.AnswersMem h false 0 1 0 []) ∧
        t.bit (aHgt 0x2000) 31 = true ∧ s.Cards t [aHgt 0x2000] ∧ { t with regs := s.regs, links := s.links } = s.toDev) := by
  obtain ⟨hcard, hforce, hnow⟩ := directCard_hgt ho h4
  obtain ⟨l, m, hexec, hans⟩ := exec_directWrite hcard (hforce v) (c := .headgateWrite h o v) rfl hadm
  rw [hnow] at hexec hans
  refine ⟨fun hfree => ⟨_, ⟨hexec, hans⟩, ?_⟩, fun hm hb => ⟨_, ⟨hexec, hans⟩, ?_⟩⟩
  · obtain ⟨hword, hcards, hmapped, honly⟩ := Dev.hgtWrite_gated (s := s.relinked l) ho h4 hfree
    have honly' := congrArg (fun d : Dev => { d with links := s.links }) honly
    exact ⟨hword, hcards, hmapped, honly'⟩
  · rw [Dev.hgtWrite_refused (s := s.relinked l) hm hb]
    exact ⟨Dev.bit_setBits_self s.toDev (aHgt 0x2000) (m := 0x80000000) 31 (by decide),
      (Dev.Cards.refl s.toDev _).setBits (List.mem_singleton_self _) _, rfl⟩

end Sys2Proof.Machine
end

section
/-! PROOFS. PLY.CFG and RING_CTRL under a write (R166, R172, R174). -/

namespace Sys2Proof.Machine

/-! ### What stays with one player -/

theorem Dev.ply_onPly_self (s : Dev) (y : Nat) (f : Ply → Ply) : (s.onPly y f).ply y = f (s.ply y) := Dev.ply_setPly_self s y _

theorem Dev.ply_onPly_of_ne (s : Dev) {y k : Nat} (h : k ≠ y) (f : Ply → Ply) : (s.onPly y f).ply k = s.ply k :=
  Dev.ply_setPly_of_ne s h _

/-- Only player `y`, the cards listed and the notifications may differ. -/
structure Dev.PlyOnly (y : Nat) (l : List Nat) (s t : Dev) : Prop where
  only   : { t with regs := s.regs, plys := s.plys, host := s.host } = s
  others : ∀ k, k ≠ y → t.ply k = s.ply k
  cards  : s.Cards t l

namespace Dev.PlyOnly

variable {y : Nat} {l : List Nat} {s t u : Dev}

theorem refl (y : Nat) (l : List Nat) (s : Dev) : Dev.PlyOnly y l s s := ⟨rfl, fun _ _ => rfl, Dev.Cards.refl s l⟩

theorem trans (h : Dev.PlyOnly y l s t) (k : Dev.PlyOnly y l t u) : Dev.PlyOnly y l s u where
  only := by
    have hu := congrArg (fun w : Dev => { w with regs := s.regs, plys := s.plys, host := s.host }) k.only
    exact hu.trans h.only
  others := fun n hn => (k.others n hn).trans (h.others n hn)
  cards := h.cards.trans k.cards

theorem onPly (y : Nat) (l : List Nat) (s : Dev) (f : Ply → Ply) : Dev.PlyOnly y l s (s.onPly y f) :=
  ⟨rfl, fun _ hk => Dev.ply_onPly_of_ne s hk f, Dev.Cards.of_regs rfl l⟩

theorem wr (y : Nat) (s : Dev) {a : Nat} (ha : a ∈ l) (v : W) : Dev.PlyOnly y l s (s.wr a v) :=
  ⟨rfl, fun _ _ => rfl, (Dev.Cards.refl s l).wr ha v⟩

theorem lwmCheck (y : Nat) (l : List Nat) (s : Dev) : Dev.PlyOnly y l s (s.lwmCheck y) := by
  obtain ⟨_, hk, p, h, heq⟩ := s.lwmCheck_ply y
  refine ⟨?_, hk, Dev.Cards.of_regs ?_ l⟩
  · rw [heq]
  · rw [heq]

theorem ringClear (h : aPly y 0x34 ∈ l) (s : Dev) (r : RingState) : Dev.PlyOnly y l s (s.ringClear y r) :=
  ((onPly y l s _).trans (wr y _ h 0)).trans (lwmCheck y l _)

theorem ringReset (hrej : aPly y 4 ∈ l) (h : aPly y 0x34 ∈ l) (s : Dev) : Dev.PlyOnly y l s (s.ringReset y) := by
  unfold Dev.ringReset
  dsimp only
  split
  · exact wr y s hrej _
  · exact ringClear h s _

theorem ringArm (hrej : aPly y 4 ∈ l) (s : Dev) : Dev.PlyOnly y l s (s.ringArm y) := by
  unfold Dev.ringArm
  split
  · exact onPly y l s _
  · exact refl y l s
  · exact wr y s hrej _

end Dev.PlyOnly

/-! ### The ring -/

/-- A cleared ring: its state, its pointers and its counts of what was discarded. -/
theorem Dev.ringClear_ply (s : Dev) (y : Nat) (r : RingState) :
    ∃ b, (s.ringClear y r).ply y = { s.ply y with ring := r, fill := 0, drain := 0, claim := 0, ahead := [], tags := [], lwm := b } := by
  obtain ⟨⟨b, hb⟩, _⟩ := ((s.onPly y (fun p => { p with ring := r, fill := 0, drain := 0, claim := 0, ahead := [], tags := [] })).wr
    (aPly y 0x34) 0).lwmCheck_ply y
  refine ⟨b, hb.trans ?_⟩
  have h := Dev.ply_onPly_self s y (fun p => { p with ring := r, fill := 0, drain := 0, claim := 0, ahead := [], tags := [] })
  exact congrArg (fun p : Ply => { p with lwm := b }) h

theorem Dev.ringClear_counts (s : Dev) (y : Nat) (r : RingState) : (s.ringClear y r).rd (aPly y 0x34) = 0 :=
  ((Dev.PlyOnly.lwmCheck y [] _).cards _ List.not_mem_nil).trans (Dev.rd_wr_self _ _ _)

/-- A level at the mark or above that falls to 0 notifies once (R172). -/
theorem Dev.ringClear_notifies {s : Dev} {y : Nat} (r : RingState) (hm : 0 < s.fld (aPly y 0x28) 23 0) (hl : (s.ply y).lwm = true)
    (hn : s.host.ntfy.length < 256) :
    (s.ringClear y r).host = { s.host with ntfy := s.host.ntfy ++ [s.ntfyNow 2 y 0] } := by
  set d : Dev := (s.onPly y (fun p => { p with ring := r, fill := 0, drain := 0, claim := 0, ahead := [], tags := [] })).wr
    (aPly y 0x34) 0 with hd
  have hp : d.ply y = { s.ply y with ring := r, fill := 0, drain := 0, claim := 0, ahead := [], tags := [] } :=
    Dev.ply_onPly_self s y (fun p => { p with ring := r, fill := 0, drain := 0, claim := 0, ahead := [], tags := [] })
  have hlevel : (d.ply y).level = 0 := by
    rw [hp]
    exact dist24_self (n := 0) (by decide)
  have hmark : d.fld (aPly y 0x28) 23 0 = s.fld (aPly y 0x28) 23 0 :=
    Dev.fld_congr (Dev.rd_wr_of_ne _ (by unfold aPly; omega) _) 23 0
  have hlwm : (d.ply y).lwm = true := by
    rw [hp]
    exact hl
  have hcheck : d.lwmCheck y = (d.setPly y { d.ply y with lwm := false }).notify (d.ntfyNow 2 y (wn (d.ply y).level)) false := by
    rw [Dev.lwmCheck, if_neg (by omega), if_neg (by omega), if_pos hlwm]
  have hlen : ¬256 ≤ (d.setPly y { d.ply y with lwm := false }).host.ntfy.length := Nat.not_le_of_lt hn
  rw [Dev.ringClear, ← hd, hcheck, Dev.notify, if_neg hlen, if_neg Bool.false_ne_true, hlevel]
  rfl

theorem Dev.ringArm_filling {s : Dev} {y : Nat} (h : (s.ply y).ring = .filling) :
    s.ringArm y = s.onPly y (fun p => { p with ring := .run }) := by
  rw [Dev.ringArm, h]

theorem Dev.ringArm_running {s : Dev} {y : Nat} (h : (s.ply y).ring = .run) : s.ringArm y = s := by
  rw [Dev.ringArm, h]

theorem Dev.ringArm_refused {s : Dev} {y : Nat} (h : (s.ply y).ring = .off ∨ (s.ply y).ring = .halted) :
    s.ringArm y = s.plyRej y := by
  rcases h with h | h
  · rw [Dev.ringArm, h]
  · rw [Dev.ringArm, h]

/-- ARM: a ring that fills runs; its pointers stand. -/
theorem Dev.ringArm_ply (s : Dev) (y : Nat) :
    (s.ringArm y).ply y = { s.ply y with ring := if (s.ply y).ring = .filling then .run else (s.ply y).ring } := by
  cases h : (s.ply y).ring with
  | filling =>
    rw [Dev.ringArm_filling h, Dev.ply_onPly_self]
    rfl
  | run =>
    rw [Dev.ringArm_running h, if_neg (by decide), ← h]
  | off =>
    rw [Dev.ringArm_refused (.inl h), if_neg (by decide), ← h]
    rfl
  | halted =>
    rw [Dev.ringArm_refused (.inr h), if_neg (by decide), ← h]
    rfl

theorem Dev.ringArm_host (s : Dev) (y : Nat) : (s.ringArm y).host = s.host := by
  unfold Dev.ringArm
  split <;> rfl

theorem Dev.bit_plyRej (s : Dev) (y : Nat) : (s.plyRej y).bit (aPly y 4) 24 = true :=
  Dev.bit_setBits_self s (aPly y 4) (m := 0x01000000) 24 (by decide)

/-! ### RING_CTRL -/

/-- The player and cards under a write of LWM. -/
theorem Dev.ringLwm_ply (s : Dev) (y v : Nat) :
    (s.ringLwm y v).ply y = { s.ply y with lwm := decide (v % 2 ^ 24 ≤ (s.ply y).level) } :=
  Dev.ply_onPly_self (s.setFld (aPly y 0x28) 23 0 v) y _

theorem Dev.ringLwm_only {l : List Nat} {y : Nat} (h : aPly y 0x28 ∈ l) (s : Dev) (v : Nat) : Dev.PlyOnly y l s (s.ringLwm y v) := by
  unfold Dev.ringLwm
  exact (Dev.PlyOnly.wr y s h _).trans (Dev.PlyOnly.onPly y l _ _)

theorem Dev.ringLwm_mark (s : Dev) (y : Nat) (v : W) : (s.ringLwm y (v.fld 23 0)).fld (aPly y 0x28) 23 0 = v.fld 23 0 :=
  (Dev.fld_setFld_self s (by decide) (by decide) _).trans (Nat.mod_eq_of_lt (W.fld_lt v 23 0))

/-- ARM where its bit is set. -/
def Dev.armIf (s : Dev) (y : Nat) (b : Bool) : Dev := if b then s.ringArm y else s

theorem Dev.ringCtrl_eq (s : Dev) (y : Nat) (v : W) : s.ringCtrl y v =
    (if v.bit 31 then (s.ringLwm y (v.fld 23 0)).ringReset y else s.ringLwm y (v.fld 23 0)).armIf y (v.bit 30) := rfl

/-- What a write of RING_CTRL leaves. -/
structure Dev.RingWritten (s : Dev) (y : Nat) (v : W) (t : Dev) : Prop where
  mark    : t.fld (aPly y 0x28) 23 0 = v.fld 23 0
  others  : ∀ k, k ≠ y → t.ply k = s.ply k
  cards   : s.Cards t [aPly y 0x28, aPly y 4, aPly y 0x34]
  reset   : v.bit 31 = true → (s.ply y).streaming = false →
    (t.ply y).fill = 0 ∧ (t.ply y).drain = 0 ∧ (t.ply y).claim = 0 ∧ t.rd (aPly y 0x34) = 0 ∧
    (t.ply y).ring = (if (s.ply y).ring = .off then .off else if v.bit 30 then .run else .filling) ∧
    (v.bit 30 = true → (s.ply y).ring = .off → t.bit (aPly y 4) 24 = true) ∧
    (0 < v.fld 23 0 → v.fld 23 0 ≤ (s.ply y).level → s.host.ntfy.length < 256 →
      t.host = { s.host with ntfy := s.host.ntfy ++ [s.ntfyNow 2 y 0] })
  refused : v.bit 31 = true → (s.ply y).streaming = true → t.bit (aPly y 4) 24 = true ∧ (t.ply y).fill = (s.ply y).fill ∧
    (t.ply y).drain = (s.ply y).drain ∧ (t.ply y).claim = (s.ply y).claim ∧
    (t.ply y).ring = (if v.bit 30 = true ∧ (s.ply y).ring = .filling then .run else (s.ply y).ring)
  armed   : v.bit 31 = false → v.bit 30 = true →
    (t.ply y).ring = (if (s.ply y).ring = .filling then .run else (s.ply y).ring) ∧ (t.ply y).fill = (s.ply y).fill ∧
    ((s.ply y).ring = .off ∨ (s.ply y).ring = .halted → t.bit (aPly y 4) 24 = true)
  marked  : v.bit 31 = false → v.bit 30 = false → t.ply y = { s.ply y with lwm := decide (v.fld 23 0 ≤ (s.ply y).level) } ∧
    s.Cards t [aPly y 0x28]
  host    : v.bit 31 = false ∨ (s.ply y).streaming = true → t.host = s.host
  only    : { t with regs := s.regs, plys := s.plys, host := s.host } = s

/-- RESET after LWM, where a streamed unit is neither current nor fixed next. -/
theorem Dev.ringCtrl_reset {s : Dev} {y : Nat} {v : W} (hr : v.bit 31 = true) (hs : (s.ply y).streaming = false) :
    s.ringCtrl y v = ((s.ringLwm y (v.fld 23 0)).ringClear y (if (s.ply y).ring = .off then .off else .filling)).armIf y (v.bit 30) := by
  have hstr : ((s.ringLwm y (v.fld 23 0)).ply y).streaming = false := by
    rw [Dev.ringLwm_ply]
    exact hs
  have hring : ((s.ringLwm y (v.fld 23 0)).ply y).ring = (s.ply y).ring := by rw [Dev.ringLwm_ply]
  have hreset : (s.ringLwm y (v.fld 23 0)).ringReset y =
      (s.ringLwm y (v.fld 23 0)).ringClear y (if (s.ply y).ring = .off then .off else .filling) := by
    rw [Dev.ringReset, hstr, hring]
    exact if_neg Bool.false_ne_true
  rw [Dev.ringCtrl_eq, hr, if_pos rfl, hreset]

theorem Dev.ringCtrl_busy {s : Dev} {y : Nat} {v : W} (hr : v.bit 31 = true) (hs : (s.ply y).streaming = true) :
    s.ringCtrl y v = ((s.ringLwm y (v.fld 23 0)).plyRej y).armIf y (v.bit 30) := by
  have hstr : ((s.ringLwm y (v.fld 23 0)).ply y).streaming = true := by
    rw [Dev.ringLwm_ply]
    exact hs
  have hreset : (s.ringLwm y (v.fld 23 0)).ringReset y = (s.ringLwm y (v.fld 23 0)).plyRej y := by
    rw [Dev.ringReset]
    exact if_pos hstr
  rw [Dev.ringCtrl_eq, hr, if_pos rfl, hreset]

theorem Dev.ringCtrl_unreset {s : Dev} {y : Nat} {v : W} (hr : v.bit 31 = false) :
    s.ringCtrl y v = (s.ringLwm y (v.fld 23 0)).armIf y (v.bit 30) := by
  rw [Dev.ringCtrl_eq, hr, if_neg Bool.false_ne_true]

/-- Where ARM follows, a ring that fills runs. -/
theorem Dev.armed_ply (s : Dev) (y : Nat) (b : Bool) : (s.armIf y b).ply y =
    { s.ply y with ring := if b = true ∧ (s.ply y).ring = .filling then .run else (s.ply y).ring } := by
  cases b
  · rw [if_neg (fun h => Bool.false_ne_true h.1)]
    rfl
  · simp only [true_and]
    exact Dev.ringArm_ply s y

theorem Dev.armed_only (s : Dev) (y : Nat) (b : Bool) : Dev.PlyOnly y [aPly y 4] s (s.armIf y b) := by
  cases b
  · exact Dev.PlyOnly.refl y _ s
  · exact Dev.PlyOnly.ringArm (by simp) s

theorem Dev.armed_host (s : Dev) (y : Nat) (b : Bool) : (s.armIf y b).host = s.host := by
  cases b
  · rfl
  · exact Dev.ringArm_host s y

/-- WR_REJ stands through ARM. -/
theorem Dev.armed_rej {s : Dev} {y : Nat} (h : s.bit (aPly y 4) 24 = true) (b : Bool) :
    (s.armIf y b).bit (aPly y 4) 24 = true := by
  cases b
  · exact h
  · unfold Dev.armIf Dev.ringArm
    rw [if_pos rfl]
    split
    · exact h
    · exact h
    · exact Dev.bit_plyRej s y

/-- What follows LWM in a write of RING_CTRL. -/
theorem Dev.ringCtrl_only (s : Dev) (y : Nat) (v : W) :
    Dev.PlyOnly y [aPly y 4, aPly y 0x34] (s.ringLwm y (v.fld 23 0)) (s.ringCtrl y v) := by
  have harm : ∀ d : Dev, Dev.PlyOnly y [aPly y 4, aPly y 0x34] d (d.armIf y (v.bit 30)) := fun d =>
    ⟨(d.armed_only y _).only, (d.armed_only y _).others, (d.armed_only y _).cards.mono (by simp)⟩
  rw [Dev.ringCtrl_eq]
  split
  · exact (Dev.PlyOnly.ringReset (by simp) (by simp) _).trans (harm _)
  · exact harm _

theorem Dev.ringCtrl_written (s : Dev) (y : Nat) (v : W) : Dev.RingWritten s y v (s.ringCtrl y v) := by
  have hlwm := Dev.ringLwm_only (l := [aPly y 0x28, aPly y 4, aPly y 0x34]) (y := y) (by simp) s (v.fld 23 0)
  have hrest := s.ringCtrl_only y v
  have hmark := s.ringLwm_mark y v
  have hply := s.ringLwm_ply y (v.fld 23 0)
  have hall : Dev.PlyOnly y [aPly y 0x28, aPly y 4, aPly y 0x34] s (s.ringCtrl y v) :=
    hlwm.trans ⟨hrest.only, hrest.others, hrest.cards.mono (by simp)⟩
  have hlow : decide (v.fld 23 0 % 2 ^ 24 ≤ (s.ply y).level) = decide (v.fld 23 0 ≤ (s.ply y).level) := by
    rw [Nat.mod_eq_of_lt (W.fld_lt v 23 0)]
  refine
    { mark := (Dev.fld_congr (hrest.cards _ (by simp [aPly])) 23 0).trans hmark
      others := hall.others
      cards := hall.cards
      only := hall.only
      reset := fun hr hs => ?_
      refused := fun hr hs => ?_
      armed := fun hr ha => ?_
      marked := fun hr ha => ?_
      host := fun h => ?_ }
  · rw [Dev.ringCtrl_reset hr hs]
    set d := (s.ringLwm y (v.fld 23 0)).ringClear y (if (s.ply y).ring = .off then .off else .filling) with hd
    obtain ⟨b, hb⟩ := (s.ringLwm y (v.fld 23 0)).ringClear_ply y (if (s.ply y).ring = .off then .off else .filling)
    have hp := d.armed_ply y (v.bit 30)
    have hring : (d.ply y).ring = if (s.ply y).ring = .off then .off else .filling := by rw [hd, hb]
    refine ⟨?_, ?_, ?_, ?_, ?_, fun ha hoff => ?_, fun hm hl hn => ?_⟩
    · rw [hp, hd, hb]
    · rw [hp, hd, hb]
    · rw [hp, hd, hb]
    · exact ((d.armed_only y (v.bit 30)).cards _ (by simp [aPly])).trans (Dev.ringClear_counts _ _ _)
    · rw [hp]
      dsimp only
      rw [hring]
      by_cases hoff : (s.ply y).ring = .off
      · simp [hoff]
      · simp [hoff]
    · rw [ha, Dev.armIf, if_pos rfl, Dev.ringArm_refused (.inl (by rw [hring, if_pos hoff]))]
      exact Dev.bit_plyRej d y
    · rw [Dev.armed_host]
      refine Dev.ringClear_notifies _ (by rw [hmark]; exact hm) ?_ hn
      rw [hply]
      exact hlow.trans (decide_eq_true hl)
  · rw [Dev.ringCtrl_busy hr hs]
    have hp := ((s.ringLwm y (v.fld 23 0)).plyRej y).armed_ply y (v.bit 30)
    have hrej : ((s.ringLwm y (v.fld 23 0)).plyRej y).ply y = (s.ringLwm y (v.fld 23 0)).ply y := rfl
    rw [hrej, hply] at hp
    exact ⟨Dev.armed_rej (Dev.bit_plyRej _ y) _, by rw [hp], by rw [hp], by rw [hp], by rw [hp]⟩
  · rw [Dev.ringCtrl_unreset hr, ha, Dev.armIf, if_pos rfl]
    have hp := (s.ringLwm y (v.fld 23 0)).ringArm_ply y
    rw [hply] at hp
    refine ⟨by rw [hp], by rw [hp], fun h => ?_⟩
    rw [Dev.ringArm_refused (by rw [hply]; exact h)]
    exact Dev.bit_plyRej _ y
  · rw [Dev.ringCtrl_unreset hr, ha, Dev.armIf, if_neg Bool.false_ne_true]
    refine ⟨?_, (Dev.ringLwm_only (List.mem_singleton_self _) s _).cards⟩
    rw [hply, hlow]
  · rcases hr : v.bit 31 with _ | _
    · rw [Dev.ringCtrl_unreset hr, Dev.armed_host]
      rfl
    · have hs : (s.ply y).streaming = true := h.resolve_left (by rw [hr]; decide)
      rw [Dev.ringCtrl_busy hr hs, Dev.armed_host]
      rfl

end Sys2Proof.Machine
end

section
/-! PROOFS. PLY.CFG, the limits and the ledger under a write (R166, R174, R212-R217). -/

namespace Sys2Proof.Machine

/-! ### PLY.CFG -/

theorem rwMask_plyCfg {y : Nat} (hy : y < 16) : rwMask (aPly y 0) = 0xC000007F := by
  rw [rwMask, locOf_aPly hy (by decide)]
  rfl

/-- The ring under a change of RING_EN. -/
def Dev.cfgRing (s : Dev) (y : Nat) (was on : Bool) : Dev :=
  if on && !was then s.ringClear y .filling else if !on && was then s.onPly y (fun p => { p with ring := .off }) else s

/-- The player under EN. -/
def Dev.cfgEn (s : Dev) (y : Nat) (en : Bool) : Dev :=
  if en then s.onPly y (fun p => if p.st = .disabled then { p with st := .dwell } else p)
  else s.onPly y (fun p => { plyStop p with st := .disabled })

/-- A streamed unit in play keeps its ring: RING_EN stays and WR_REJ shows. -/
def Dev.cfgWord (s : Dev) (y : Nat) (w : W) (stays : Bool) : Dev :=
  (if stays then s.plyRej y else s).wr (aPly y 0) (if stays then w ||| 0x40000000 else w)

/-- EN or WIDTH would change while PLAYING. -/
def Dev.cfgBad (s : Dev) (y : Nat) (v : W) : Prop :=
  (s.ply y).st = .playing ∧ (v.bit 31 = false ∨ (v &&& 0xC000007F).fld 6 0 ≠ (s.rd (aPly y 0)).fld 6 0)

/-- RING_EN would be cleared while a streamed unit is in play. -/
def Dev.cfgStays (s : Dev) (y : Nat) (v : W) : Bool := (s.rd (aPly y 0)).bit 30 && !v.bit 30 && (s.ply y).streaming

/-- A write of PLY.CFG that is taken, before the re-checks. -/
def Dev.cfgTaken (s : Dev) (y : Nat) (v : W) : Dev :=
  ((s.cfgWord y (v &&& 0xC000007F) (s.cfgStays y v)).cfgRing y ((s.rd (aPly y 0)).bit 30) (v.bit 30 || s.cfgStays y v)).cfgEn y (v.bit 31)

theorem bit_cfgWord (v : W) : (v &&& 0xC000007F).bit 31 = v.bit 31 ∧ (v &&& 0xC000007F).bit 30 = v.bit 30 := by
  rw [W.bit_and, W.bit_and]
  exact ⟨Bool.and_true _, Bool.and_true _⟩

theorem Dev.plyCfg_refused {s : Dev} {y : Nat} (hy : y < 16) {v : W} (h : s.cfgBad y v) : s.plyCfg y v = s.plyRej y := by
  obtain ⟨hst, hch⟩ := h
  have hcond : (decide ((s.ply y).st = .playing) && (!(v &&& 0xC000007F).bit 31 ||
      decide ((v &&& 0xC000007F).fld 6 0 ≠ (s.rd (aPly y 0)).fld 6 0))) = true := by
    rw [(bit_cfgWord v).1]
    rcases hch with hch | hch
    · rw [decide_eq_true hst, hch]
      rfl
    · rw [decide_eq_true hst, decide_eq_true hch, Bool.or_true]
      rfl
  unfold Dev.plyCfg
  rw [rwMask_plyCfg hy]
  exact if_pos hcond

theorem Dev.plyCfg_taken {s : Dev} {y : Nat} (hy : y < 16) {v : W} (h : ¬s.cfgBad y v) :
    s.plyCfg y v = (s.cfgTaken y v).recheckAll ((s.cfgTaken y v).sitesNaming y) := by
  have hcond : ¬(decide ((s.ply y).st = .playing) && (!(v &&& 0xC000007F).bit 31 ||
      decide ((v &&& 0xC000007F).fld 6 0 ≠ (s.rd (aPly y 0)).fld 6 0))) = true := by
    rw [(bit_cfgWord v).1]
    intro hc
    apply h
    simpa [Dev.cfgBad] using hc
  have hstays : ((s.rd (aPly y 0)).bit 30 && !(v &&& 0xC000007F).bit 30 && (s.ply y).streaming) = s.cfgStays y v := by
    rw [(bit_cfgWord v).2]
    rfl
  have hen : ∀ b : Bool, (if b then (v &&& 0xC000007F) ||| 0x40000000 else v &&& 0xC000007F).bit 31 = (v &&& 0xC000007F).bit 31 := by
    rintro ⟨⟩
    · rfl
    · rw [if_pos rfl, W.bit_or]
      exact Bool.or_false _
  have hring : ∀ b : Bool, (if b then (v &&& 0xC000007F) ||| 0x40000000 else v &&& 0xC000007F).bit 30 =
      ((v &&& 0xC000007F).bit 30 || b) := by
    rintro ⟨⟩
    · exact (Bool.or_false _).symm
    · rw [if_pos rfl, W.bit_or]
      rfl
  unfold Dev.plyCfg
  rw [rwMask_plyCfg hy]
  refine (if_neg hcond).trans ?_
  dsimp only
  rw [hstays, hring, hen, (bit_cfgWord v).1, (bit_cfgWord v).2]
  rfl

/-- What a write of PLY.CFG that is taken leaves of the player and its cards. -/
structure Dev.PlyCfgd (s : Dev) (y : Nat) (v : W) (t : Dev) : Prop where
  kept   : s.cfgStays y v = true → t.rd (aPly y 0) = v &&& 0xC000007F ||| 0x40000000 ∧ t.bit (aPly y 4) 24 = true
  word   : s.cfgStays y v = false → t.rd (aPly y 0) = v &&& 0xC000007F
  others : ∀ k, k ≠ y → t.ply k = s.ply k
  st     : (t.ply y).st = (if v.bit 31 = false then .disabled else if (s.ply y).st = .disabled then .dwell else (s.ply y).st)
  opened : v.bit 30 = true → (s.rd (aPly y 0)).bit 30 = false →
    (t.ply y).ring = .filling ∧ (t.ply y).fill = 0 ∧ (t.ply y).drain = 0 ∧ (t.ply y).claim = 0
  closed : v.bit 30 = false → (s.rd (aPly y 0)).bit 30 = true → s.cfgStays y v = false → (t.ply y).ring = .off
  ring   : v.bit 30 = (s.rd (aPly y 0)).bit 30 ∨ s.cfgStays y v = true → (t.ply y).ring = (s.ply y).ring

theorem Dev.cfgEn_only (s : Dev) (y : Nat) (l : List Nat) (en : Bool) : Dev.PlyOnly y l s (s.cfgEn y en) := by
  unfold Dev.cfgEn
  split
  · exact Dev.PlyOnly.onPly y l s _
  · exact Dev.PlyOnly.onPly y l s _

theorem Dev.cfgRing_only {y : Nat} {l : List Nat} (h : aPly y 0x34 ∈ l) (s : Dev) (was on : Bool) :
    Dev.PlyOnly y l s (s.cfgRing y was on) := by
  unfold Dev.cfgRing
  split
  · exact Dev.PlyOnly.ringClear h s _
  · split
    · exact Dev.PlyOnly.onPly y l s _
    · exact Dev.PlyOnly.refl y l s

theorem Dev.cfgWord_only {y : Nat} {l : List Nat} (h0 : aPly y 0 ∈ l) (h4 : aPly y 4 ∈ l) (s : Dev) (w : W) (stays : Bool) :
    Dev.PlyOnly y l s (s.cfgWord y w stays) := by
  unfold Dev.cfgWord
  split
  · exact (Dev.PlyOnly.wr y s h4 _).trans (Dev.PlyOnly.wr y _ h0 _)
  · exact Dev.PlyOnly.wr y s h0 _

/-- EN leaves the ring and its FILL and CLAIM; DRAIN falls back to CLAIM where it stops the player. -/
theorem Dev.cfgEn_ply (s : Dev) (y : Nat) (en : Bool) :
    ((s.cfgEn y en).ply y).st = (if en = false then .disabled else if (s.ply y).st = .disabled then .dwell else (s.ply y).st) ∧
    ((s.cfgEn y en).ply y).ring = (s.ply y).ring ∧ ((s.cfgEn y en).ply y).fill = (s.ply y).fill ∧
    ((s.cfgEn y en).ply y).claim = (s.ply y).claim ∧
    (((s.cfgEn y en).ply y).drain = (s.ply y).drain ∨ ((s.cfgEn y en).ply y).drain = (s.ply y).claim) := by
  cases en with
  | false =>
    have h : (s.cfgEn y false).ply y = { plyStop (s.ply y) with st := .disabled } :=
      Dev.ply_onPly_self s y (fun p => { plyStop p with st := .disabled })
    rw [h]
    exact ⟨rfl, rfl, rfl, rfl, .inr rfl⟩
  | true =>
    have h : (s.cfgEn y true).ply y = if (s.ply y).st = .disabled then { s.ply y with st := .dwell } else s.ply y :=
      Dev.ply_onPly_self s y (fun p => if p.st = .disabled then { p with st := .dwell } else p)
    rw [h]
    split
    · exact ⟨rfl, rfl, rfl, rfl, .inl rfl⟩
    · exact ⟨rfl, rfl, rfl, rfl, .inl rfl⟩

theorem Dev.cfgWord_ply (s : Dev) (y k : Nat) (w : W) (stays : Bool) : (s.cfgWord y w stays).ply k = s.ply k := by
  cases stays <;> rfl

theorem Dev.cfgRing_opens (s : Dev) (y : Nat) :
    ∃ b, (s.cfgRing y false true).ply y =
      { s.ply y with ring := .filling, fill := 0, drain := 0, claim := 0, ahead := [], tags := [], lwm := b } :=
  s.ringClear_ply y .filling

theorem Dev.cfgRing_closes (s : Dev) (y : Nat) : (s.cfgRing y true false).ply y = { s.ply y with ring := .off } :=
  Dev.ply_onPly_self s y (fun p => { p with ring := .off })

theorem Dev.cfgRing_same (s : Dev) (y : Nat) (b : Bool) : s.cfgRing y b b = s := by cases b <;> rfl

/-- The ring leaves the player's state. -/
theorem Dev.cfgRing_st (s : Dev) (y : Nat) (was on : Bool) : ((s.cfgRing y was on).ply y).st = (s.ply y).st := by
  cases was <;> cases on
  · rfl
  · obtain ⟨b, hb⟩ := s.cfgRing_opens y
    rw [hb]
  · rw [Dev.cfgRing_closes]
  · rfl

/-- The cards a write of PLY.CFG may change, but the mirrors. -/
def cfgCards (y : Nat) : List Nat := [aPly y 0, aPly y 4, aPly y 0x34]

theorem Dev.cfgTaken_only (s : Dev) (y : Nat) (v : W) : Dev.PlyOnly y (cfgCards y) s (s.cfgTaken y v) :=
  ((Dev.cfgWord_only (by simp [cfgCards]) (by simp [cfgCards]) s _ _).trans (Dev.cfgRing_only (by simp [cfgCards]) _ _ _)).trans
    (Dev.cfgEn_only _ y _ _)

/-- CFG and STATUS stand as the word's write left them. -/
theorem Dev.cfgTaken_cards (s : Dev) (y : Nat) (v : W) {a : Nat} (ha : a ≠ aPly y 0x34) :
    (s.cfgTaken y v).rd a = (s.cfgWord y (v &&& 0xC000007F) (s.cfgStays y v)).rd a :=
  ((Dev.cfgRing_only (y := y) (List.mem_singleton_self _) _ _ _).trans
    (Dev.cfgEn_only _ y _ _)).cards a (by simpa using ha)

theorem Dev.cfgTaken_cfgd (s : Dev) (y : Nat) (v : W) : Dev.PlyCfgd s y v (s.cfgTaken y v) := by
  have hcfg := s.cfgTaken_cards y v (a := aPly y 0) (by unfold aPly; omega)
  have hstatus := s.cfgTaken_cards y v (a := aPly y 4) (by unfold aPly; omega)
  have hothers := (s.cfgTaken_only y v).others
  have hply := s.cfgWord_ply y y (v &&& 0xC000007F) (s.cfgStays y v)
  have htaken : s.cfgTaken y v = ((s.cfgWord y (v &&& 0xC000007F) (s.cfgStays y v)).cfgRing y ((s.rd (aPly y 0)).bit 30)
    (v.bit 30 || s.cfgStays y v)).cfgEn y (v.bit 31) := rfl
  generalize s.cfgTaken y v = t at hcfg hstatus hothers htaken ⊢
  have hword : s.cfgStays y v = true → (s.cfgWord y (v &&& 0xC000007F) (s.cfgStays y v)).rd (aPly y 0) = v &&& 0xC000007F ||| 0x40000000 ∧
      (s.cfgWord y (v &&& 0xC000007F) (s.cfgStays y v)).bit (aPly y 4) 24 = true := fun h => by
    rw [h]
    exact ⟨Dev.rd_wr_self _ _ _, (Dev.bit_congr (Dev.rd_wr_of_ne (s.plyRej y) (by unfold aPly; omega) _) 24).trans (Dev.bit_plyRej s y)⟩
  have hplain : s.cfgStays y v = false → (s.cfgWord y (v &&& 0xC000007F) (s.cfgStays y v)).rd (aPly y 0) = v &&& 0xC000007F := fun h => by
    rw [h]
    exact Dev.rd_wr_self _ _ _
  generalize s.cfgWord y (v &&& 0xC000007F) (s.cfgStays y v) = d at hcfg hstatus hply htaken hword hplain
  obtain ⟨hst, hring, hfill, hclaim, hdrain⟩ := Dev.cfgEn_ply (d.cfgRing y ((s.rd (aPly y 0)).bit 30) (v.bit 30 || s.cfgStays y v))
    y (v.bit 31)
  rw [← htaken] at hst hring hfill hclaim hdrain
  have hclosed : s.cfgStays y v = true → v.bit 30 = false ∧ (s.rd (aPly y 0)).bit 30 = true := fun h => by
    simp only [Dev.cfgStays, Bool.and_eq_true, Bool.not_eq_true'] at h
    exact ⟨h.1.2, h.1.1⟩
  refine
    { kept := fun h => ⟨hcfg.trans (hword h).1, (Dev.bit_congr hstatus 24).trans (hword h).2⟩
      word := fun h => hcfg.trans (hplain h), others := hothers, st := ?_, opened := fun hon hwas => ?_
      closed := fun hoff hwas h => ?_, ring := fun h => ?_ }
  · rw [hst, Dev.cfgRing_st, hply]
  · obtain ⟨b, hb⟩ := d.cfgRing_opens y
    rw [hon, hwas, Bool.true_or, hb] at hring hfill hclaim hdrain
    exact ⟨hring, hfill, hdrain.elim id id, hclaim⟩
  · rw [hoff, hwas, h, Bool.false_or, Dev.cfgRing_closes] at hring
    exact hring
  · have hsame : (v.bit 30 || s.cfgStays y v) = (s.rd (aPly y 0)).bit 30 := by
      rcases h with h | h
      · cases hv : v.bit 30 with
        | true => rw [← h, hv, Bool.true_or]
        | false =>
          have hstay : s.cfgStays y v = false := by
            rw [Dev.cfgStays, ← h, hv]
            rfl
          rw [← h, hv, hstay, Bool.or_false]
      · rw [h, Bool.or_true, (hclosed h).2]
    rw [hsame, Dev.cfgRing_same, hply] at hring
    exact hring

end Sys2Proof.Machine
end

section
/-! PROOFS. The writes of players' rings, limits and ledger as commands, and the registers of configuration together (R16-R21,
R42-R44, R70-R76, R166, R172, R212-R217). -/

namespace Sys2Proof.Machine

/-! ### PLY.CFG and RING_CTRL as commands -/

theorem Dev.PlyCfgd.congr {s t u : Dev} {y : Nat} {v : W} (h : Dev.PlyCfgd s y v t) (hply : ∀ k, u.ply k = t.ply k)
    (h0 : u.rd (aPly y 0) = t.rd (aPly y 0)) (h4 : u.rd (aPly y 4) = t.rd (aPly y 4)) : Dev.PlyCfgd s y v u where
  kept := fun hk => ⟨h0.trans (h.kept hk).1, (Dev.bit_congr h4 24).trans (h.kept hk).2⟩
  word := fun hk => h0.trans (h.word hk)
  others := fun k hk => (hply k).trans (h.others k hk)
  st := (congrArg Ply.st (hply y)).trans h.st
  opened := fun hon hwas => by
    rw [hply]
    exact h.opened hon hwas
  closed := fun hoff hwas hk => (congrArg Ply.ring (hply y)).trans (h.closed hoff hwas hk)
  ring := fun hk => (congrArg Ply.ring (hply y)).trans (h.ring hk)

theorem sitesNaming_lt {s : Dev} {y i : Nat} (h : i ∈ s.sitesNaming y) : i < 256 := List.mem_range.mp (List.mem_filter.mp h).1

/-- A write of PLY.CFG that is taken. -/
theorem Dev.plyCfg_cfgd {s : Dev} {y : Nat} (hy : y < 16) {v : W} (h : ¬s.cfgBad y v) :
    Dev.PlyCfgd s y v (s.plyCfg y v) ∧ s.Cards (s.plyCfg y v) (cfgCards y ++ siteMirrors) ∧
    { s.plyCfg y v with regs := s.regs, plys := s.plys, sites := s.sites, engs := s.engs, host := s.host } = s := by
  rw [Dev.plyCfg_taken hy h]
  have hcfgd := s.cfgTaken_cfgd y v
  have honly := s.cfgTaken_only y v
  have hgate := Dev.recheckAll_regated (fun i hi => sitesNaming_lt hi) (s.cfgTaken y v) (l := (s.cfgTaken y v).sitesNaming y)
  generalize (s.cfgTaken y v).recheckAll ((s.cfgTaken y v).sitesNaming y) = u at hgate ⊢
  generalize s.cfgTaken y v = t at hcfgd honly hgate
  have hplys := congrArg Dev.plys hgate.only
  have h4 : aPly y 4 ∉ siteMirrors := fun hm => by
    obtain ⟨i, _, hi⟩ := List.mem_map.mp hm
    unfold aSiteCfg aHgt aPly at hi
    omega
  refine ⟨hcfgd.congr (fun k => ?_) (hgate.cards _ (not_mirror_of_mod (by unfold aPly; omega))) (hgate.cards _ h4), ?_, ?_⟩
  · exact congrArg (fun p : Tab Ply => p.get (fun _ => plyInit) k) hplys
  · exact (honly.cards.mono (List.subset_append_left _ _)).trans (hgate.cards.mono (List.subset_append_right _ _))
  · have hu := congrArg (fun w : Dev => { w with regs := s.regs, plys := s.plys, sites := s.sites, engs := s.engs, host := s.host })
      hgate.only
    have ht := congrArg (fun w : Dev => { w with sites := s.sites, engs := s.engs }) honly.only
    exact hu.trans ht

/-- The words a write of a player's CFG and RING_CTRL reaches. -/
theorem Dev.writePly_cfg (s : Dev) (y : Nat) (v : W) : s.writePly y 0 v = s.plyCfg y v := rfl

theorem Dev.writePly_ring (s : Dev) (y : Nat) (v : W) : s.writePly y 0x28 v = s.ringCtrl y v := rfl

theorem playerCfgWrite_acts {s : State} {h : Hdr} {v : W} {y : Fin 16} (hadm : s.Admits h (aPly y 0) v) :
    ∃ l m, exec (.playerCfgWrite h y v) s = .next { s with toDev := ((s.relinked l).plyCfg y v).relinked m } ∧
      (((s.relinked l).plyCfg y v).relinked m).AnswersMem h false 0 1 0 [] := by
  obtain ⟨hcard, hforce, hnow⟩ := directCard_ply (o := 0) y.isLt (Or.inl rfl)
  obtain ⟨l, m, hexec, hans⟩ := exec_directWrite hcard (hforce v) (c := .playerCfgWrite h y v) rfl hadm
  rw [hnow, Dev.writePly_cfg] at hexec hans
  exact ⟨l, m, hexec, hans⟩

theorem ringWrite_acts {s : State} {h : Hdr} {v : W} {y : Fin 16} {c : Instr}
    (hc : c ∈ [.ringReset h y v, .ringArm h y v, .ringLwmWrite h y v]) (hadm : s.Admits h (aPly y 0x28) v) :
    ∃ l m, exec c s = .next { s with toDev := ((s.relinked l).ringCtrl y v).relinked m } ∧
      (((s.relinked l).ringCtrl y v).relinked m).AnswersMem h false 0 1 0 [] := by
  obtain ⟨hcard, hforce, hnow⟩ := directCard_ply (o := 0x28) y.isLt (Or.inr rfl)
  have hrow : exec c s = .next { s with toDev := s.hostWord h (aPly y 0x28) v } := by
    simp only [List.mem_cons, List.not_mem_nil, or_false] at hc
    obtain rfl | rfl | rfl := hc
    · rfl
    · rfl
    · rfl
  obtain ⟨l, m, hexec, hans⟩ := exec_directWrite hcard (hforce v) hrow hadm
  rw [hnow, Dev.writePly_ring] at hexec hans
  exact ⟨l, m, hexec, hans⟩

/-! ### The limits (R217) -/

/-- What LIM_HI leaves where it stores an entry. -/
theorem Dev.limWrite_stored {s : Dev} {v : W} (h : s.anyEngLive = false) :
    s.writeGlb 0x208 v = (if s.bit 0x200 31 then
      (s.setLimit (s.fld 0x200 13 0) (s.rd 0x204, v)).setFld 0x200 13 0 ((s.fld 0x200 13 0 + 1) % 16384)
      else s.setLimit (s.fld 0x200 13 0) (s.rd 0x204, v)) := by
  rw [Dev.writeGlb, if_pos (.inr rfl), Dev.limWrite, h, if_neg Bool.false_ne_true, if_neg (by decide)]
  rfl

theorem Dev.limWrite_refused {s : Dev} {v : W} (h : s.anyEngLive = true) : s.writeGlb 0x208 v = s.setBits 0x20C 0x80000000 := by
  rw [Dev.writeGlb, if_pos (.inr rfl), Dev.limWrite, h, if_pos rfl]

theorem Dev.limWrite_leaves {s : Dev} {v : W} (h : s.anyEngLive = false) :
    (s.writeGlb 0x208 v).limit (s.fld 0x200 13 0) = (s.rd 0x204, v) ∧
    (∀ n, n ≠ s.fld 0x200 13 0 → (s.writeGlb 0x208 v).limit n = s.limit n) ∧
    (s.writeGlb 0x208 v).fld 0x200 13 0 = (if s.bit 0x200 31 then (s.fld 0x200 13 0 + 1) % 16384 else s.fld 0x200 13 0) ∧
    s.Cards (s.writeGlb 0x208 v) [0x200] ∧ { s.writeGlb 0x208 v with regs := s.regs, led := s.led } = s := by
  rw [Dev.limWrite_stored h]
  cases s.bit 0x200 31 with
  | true =>
    refine ⟨Dev.limit_setLimit_self s _ _, fun n hn => Dev.limit_setLimit_of_ne s hn _, ?_,
      (Dev.Cards.of_regs rfl _).setFld (List.mem_singleton_self _) _ _ _, rfl⟩
    exact (Dev.fld_setFld_self _ (by decide) (by decide) _).trans (Nat.mod_eq_of_lt (Nat.mod_lt _ (by decide)))
  | false =>
    exact ⟨Dev.limit_setLimit_self s _ _, fun n hn => Dev.limit_setLimit_of_ne s hn _, rfl, Dev.Cards.of_regs rfl _, rfl⟩

theorem limitEntryWrite_acts {s : State} {h : Hdr} {v : W} (hadm : s.Admits h 0x208 v) :
    (s.anyEngLive = false →
      ∃ t : Dev, (exec (.limitEntryWrite h v) s = .next { s with toDev := t } ∧ t.AnswersMem h false 0 1 0 []) ∧
        t.limit (s.fld 0x200 13 0) = (s.rd 0x204, v) ∧ (∀ n, n ≠ s.fld 0x200 13 0 → t.limit n = s.limit n) ∧
        t.fld 0x200 13 0 = (if s.bit 0x200 31 then (s.fld 0x200 13 0 + 1) % 16384 else s.fld 0x200 13 0) ∧
        s.Cards t [0x200] ∧ { t with regs := s.regs, links := s.links, led := s.led } = s.toDev) ∧
    (s.anyEngLive = true →
      ∃ t : Dev, (exec (.limitEntryWrite h v) s = .next { s with toDev := t } ∧ t.AnswersMem h false 0 1 0 []) ∧
        t.bit 0x20C 31 = true ∧ s.Cards t [0x20C] ∧ { t with regs := s.regs, links := s.links } = s.toDev) := by
  obtain ⟨hcard, hforce, hnow⟩ := directCard_glb (o := 0x208) (.inl rfl)
  obtain ⟨l, m, hexec, hans⟩ := exec_directWrite hcard (hforce v) (c := .limitEntryWrite h v) rfl hadm
  rw [hnow] at hexec hans
  refine ⟨fun hidle => ⟨_, ⟨hexec, hans⟩, ?_⟩, fun hlive => ⟨_, ⟨hexec, hans⟩, ?_⟩⟩
  · obtain ⟨hself, hother, hnext, hcards, honly⟩ := Dev.limWrite_leaves (s := s.relinked l) (v := v) hidle
    have honly' := congrArg (fun d : Dev => { d with links := s.links }) honly
    exact ⟨hself, hother, hnext, hcards, honly'⟩
  · rw [Dev.limWrite_refused (s := s.relinked l) hlive]
    exact ⟨Dev.bit_setBits_self s.toDev 0x20C (m := 0x80000000) 31 (by decide),
      (Dev.Cards.refl s.toDev _).setBits (List.mem_singleton_self _) _, rfl⟩

/-! ### The ledger (R212, R213) -/

/-- The check of the high-water mark changes the mark and the notifications alone. -/
theorem Dev.hwmCheck_only (s : Dev) : ∃ x, s.hwmCheck = { s with
    led := { s.led with high := decide (s.hwm ≤ (s.rd 0x304 - s.rd 0x308).toNat) }, host := x } := by
  unfold Dev.hwmCheck
  dsimp only
  split
  · unfold Dev.notify
    split
    · exact ⟨_, rfl⟩
    · exact ⟨_, rfl⟩
  · exact ⟨_, rfl⟩

theorem ack_full (old v : W) : cardWrite 0x308 old v = v := cardWrite_full (by decide) (by decide) old v

theorem Dev.ledgerAck_leaves (s : Dev) (v : W) :
    (s.writeGlb 0x308 v).rd 0x308 = v ∧ s.Cards (s.writeGlb 0x308 v) [0x308] ∧
    ((s.writeGlb 0x308 v).led.high = true ↔ s.hwm ≤ (s.rd 0x304 - v).toNat) ∧
    { s.writeGlb 0x308 v with regs := s.regs, led := s.led, host := s.host } = s := by
  have heq : s.writeGlb 0x308 v = (s.putCard 0x308 v).hwmCheck := rfl
  have hack : (s.putCard 0x308 v).rd 0x308 = v := (Dev.rd_putCard_self s 0x308 v).trans (ack_full _ v)
  have hhwm : (s.putCard 0x308 v).hwm = s.hwm := by
    rw [Dev.hwm, Dev.hwm, Dev.fld_congr (Dev.rd_putCard_of_ne s (a := 0x308) (n := 0x30C) v (by decide))]
  have hseq : (s.putCard 0x308 v).rd 0x304 = s.rd 0x304 := Dev.rd_putCard_of_ne s v (by decide)
  obtain ⟨x, hx⟩ := (s.putCard 0x308 v).hwmCheck_only
  rw [heq, hx]
  refine ⟨hack, (Dev.Cards.refl s _).putCard (List.mem_singleton_self _) v, ?_, rfl⟩
  rw [hack, hhwm, hseq]
  exact decide_eq_true_iff

theorem ledgerAck_acts {s : State} {h : Hdr} {v : W} (hadm : s.Admits h 0x308 v) :
    ∃ t : Dev, (exec (.ledgerAck h v) s = .next { s with toDev := t } ∧ t.AnswersMem h false 0 1 0 []) ∧
      t.rd 0x308 = v ∧ s.Cards t [0x308] ∧ (t.led.high = true ↔ s.hwm ≤ (s.rd 0x304 - v).toNat) ∧
      { t with regs := s.regs, links := s.links, led := s.led, host := s.host } = s.toDev := by
  obtain ⟨hcard, hforce, hnow⟩ := directCard_glb (o := 0x308) (.inr (.inl rfl))
  obtain ⟨l, m, hexec, hans⟩ := exec_directWrite hcard (hforce v) (c := .ledgerAck h v) rfl hadm
  rw [hnow] at hexec hans
  have hleaves := (s.relinked l).ledgerAck_leaves v
  generalize (s.relinked l).writeGlb 0x308 v = t at hexec hans hleaves
  obtain ⟨hack, hcards, hhigh, honly⟩ := hleaves
  have honly' := congrArg (fun d : Dev => { d with links := s.links }) honly
  exact ⟨_, ⟨hexec, hans⟩, hack, hcards, hhigh, honly'⟩

/-- The ledger's pointers at 0, with no copy under way. -/
def Dev.ledCleared (s : Dev) : Dev := { ((s.wr 0x300 0).wr 0x304 0).wr 0x308 0 with led := { s.led with ring := [] } }

theorem Dev.ledCleared_cards (s : Dev) : s.ledCleared.rd 0x300 = 0 ∧ s.ledCleared.rd 0x304 = 0 ∧ s.ledCleared.rd 0x308 = 0 ∧
    s.Cards s.ledCleared [0x300, 0x304, 0x308] := by
  have hrd : ∀ a, s.ledCleared.rd a = (((s.wr 0x300 0).wr 0x304 0).wr 0x308 0).rd a := fun _ => rfl
  refine ⟨?_, ?_, ?_, fun a ha => ?_⟩
  · rw [hrd, Dev.rd_wr_of_ne _ (by decide), Dev.rd_wr_of_ne _ (by decide), Dev.rd_wr_self]
  · rw [hrd, Dev.rd_wr_of_ne _ (by decide), Dev.rd_wr_self]
  · rw [hrd, Dev.rd_wr_self]
  · rw [hrd]
    exact ((((Dev.Cards.refl s _).wr (by simp) 0).wr (by simp) 0).wr (by simp) 0) a ha

theorem Dev.ledCleared_only (s : Dev) : { s.ledCleared with regs := s.regs, led := s.led } = s := rfl

theorem Dev.ledgerCtrl_eq (s : Dev) (v : W) : s.writeGlb 0x30C v =
    (if (v.bit 31 && decide (s.sys.mode = .idle)) = true then (s.putCard 0x30C v).ledCleared else s.putCard 0x30C v).hwmCheck := rfl

theorem hwm_bits : ∀ i, 0 ≤ i → i ≤ 16 → (rwMask 0x30C).bit i = true ∧ (w1cMask 0x30C).bit i = false := by decide

/-- What a write of LDG_CTRL leaves. -/
structure Dev.LedgerSet (s : Dev) (v : W) (t : Dev) : Prop where
  hwm   : t.fld 0x30C 16 0 = v.fld 16 0
  en    : t.bit 0x30C 29 = v.bit 29
  clear : s.sys.mode = .idle → v.bit 31 = true → t.rd 0x300 = 0 ∧ t.rd 0x304 = 0 ∧ t.rd 0x308 = 0 ∧ t.led.ring = []
  kept  : s.sys.mode ≠ .idle ∨ v.bit 31 = false → s.Cards t [0x30C] ∧ t.led.ring = s.led.ring
  cards : s.Cards t [0x300, 0x304, 0x308, 0x30C]
  only  : { t with regs := s.regs, led := s.led, host := s.host } = s

theorem Dev.LedgerSet.hwmCheck {s t : Dev} {v : W} (h : Dev.LedgerSet s v t) : Dev.LedgerSet s v t.hwmCheck := by
  obtain ⟨x, hx⟩ := t.hwmCheck_only
  rw [hx]
  exact ⟨h.hwm, h.en, h.clear, h.kept, h.cards, h.only⟩

theorem Dev.ledgerCtrl_leaves (s : Dev) (v : W) : Dev.LedgerSet s v (s.writeGlb 0x30C v) := by
  have hself := Dev.rd_putCard_self s 0x30C v
  have hfld : (s.putCard 0x30C v).fld 0x30C 16 0 = v.fld 16 0 :=
    (congrArg (fun w : W => w.fld 16 0) hself).trans (fld_cardWrite _ v hwm_bits)
  have hbit : (s.putCard 0x30C v).bit 0x30C 29 = v.bit 29 :=
    (congrArg (fun w : W => w.bit 29) hself).trans (bit_cardWrite _ v (by decide) (by decide))
  rw [Dev.ledgerCtrl_eq]
  refine Dev.LedgerSet.hwmCheck ?_
  split
  next hc =>
    rw [Bool.and_eq_true, decide_eq_true_eq] at hc
    obtain ⟨h300, h304, h308, hrest⟩ := (s.putCard 0x30C v).ledCleared_cards
    have hctrl := hrest 0x30C (by decide)
    have honly := (s.putCard 0x30C v).ledCleared_only
    have hring : (s.putCard 0x30C v).ledCleared.led.ring = [] := rfl
    have hput : s.Cards (s.putCard 0x30C v) [0x300, 0x304, 0x308, 0x30C] := (Dev.Cards.refl s _).putCard (by simp) v
    generalize (s.putCard 0x30C v).ledCleared = t at h300 h304 h308 hrest hctrl honly hring
    exact
      { hwm := (Dev.fld_congr hctrl 16 0).trans hfld, en := (Dev.bit_congr hctrl 29).trans hbit
        clear := fun _ _ => ⟨h300, h304, h308, hring⟩
        kept := fun hk => absurd hk (by simp [hc])
        cards := hput.trans (hrest.mono (by simp))
        only := congrArg (fun w : Dev => { w with regs := s.regs, led := s.led, host := s.host }) honly }
  next hc =>
    refine
      { hwm := hfld, en := hbit, clear := fun hm hv => absurd ?_ hc
        kept := fun _ => ⟨(Dev.Cards.refl s _).putCard (List.mem_singleton_self _) v, rfl⟩
        cards := (Dev.Cards.refl s _).putCard (by simp) v, only := rfl }
    rw [hv, decide_eq_true hm]
    rfl

theorem ledgerClear_acts {s : State} {h : Hdr} {v : W} (hadm : s.Admits h 0x30C v) :
    ∃ t : Dev, (exec (.ledgerClear h v) s = .next { s with toDev := t } ∧ t.AnswersMem h false 0 1 0 []) ∧
      t.fld 0x30C 16 0 = v.fld 16 0 ∧ t.bit 0x30C 29 = v.bit 29 ∧
      (s.sys.mode = .idle → v.bit 31 = true → t.rd 0x300 = 0 ∧ t.rd 0x304 = 0 ∧ t.rd 0x308 = 0 ∧ t.led.ring = []) ∧
      (s.sys.mode ≠ .idle ∨ v.bit 31 = false → s.Cards t [0x30C] ∧ t.led.ring = s.led.ring) ∧
      s.Cards t [0x300, 0x304, 0x308, 0x30C] ∧
      { t with regs := s.regs, links := s.links, led := s.led, host := s.host } = s.toDev := by
  obtain ⟨hcard, hforce, hnow⟩ := directCard_glb (o := 0x30C) (.inr (.inr rfl))
  obtain ⟨l, m, hexec, hans⟩ := exec_directWrite hcard (hforce v) (c := .ledgerClear h v) rfl hadm
  rw [hnow] at hexec hans
  have hset := (s.relinked l).ledgerCtrl_leaves v
  generalize (s.relinked l).writeGlb 0x30C v = t at hexec hans hset
  obtain ⟨hhwm, hen, hclear, hkept, hcards, honly⟩ := hset
  have honly' := congrArg (fun d : Dev => { d with links := s.links }) honly
  exact ⟨_, ⟨hexec, hans⟩, hhwm, hen, hclear, hkept, hcards, honly'⟩

/-- Settles O51, register by register: the write acts on the device with its links aside, and the row only adds the request's
receipt and its completion. -/
theorem configurationWritesAct : Obligations.ConfigurationWritesAct := by
  unfold Obligations.ConfigurationWritesAct
  intro s h v
  refine ⟨sclkCfgWrite_acts, syncCfgWrite_acts, fun o hadm h4 ho => headgateWrite_acts hadm h4 ho, fun y hadm => ⟨fun hbad => ?_,
    fun hbad => ?_⟩, fun y c hc hadm => ?_, limitEntryWrite_acts, ledgerAck_acts, ledgerClear_acts⟩
  · obtain ⟨l, m, hexec, hans⟩ := playerCfgWrite_acts hadm
    refine ⟨_, ⟨hexec, hans⟩, ?_⟩
    rw [Dev.plyCfg_refused (s := s.relinked l) y.isLt hbad]
    exact ⟨Dev.bit_plyRej s.toDev y, (Dev.Cards.refl s.toDev _).setBits (List.mem_singleton_self _) _, rfl⟩
  · obtain ⟨l, m, hexec, hans⟩ := playerCfgWrite_acts hadm
    obtain ⟨hcfgd, hcards, honly⟩ := Dev.plyCfg_cfgd (s := s.relinked l) y.isLt hbad
    have honly' := congrArg (fun d : Dev => { d with links := s.links }) honly
    have hstays : (s.relinked l).cfgStays y v = true ↔
        ((s.rd (aPly y 0)).bit 30 = true ∧ v.bit 30 = false ∧ (s.ply y).streaming = true) := by
      change ((s.rd (aPly y 0)).bit 30 && !v.bit 30 && (s.ply y).streaming) = true ↔ _
      simp [and_assoc]
    have hnot : ∀ {p : Prop}, ((s.relinked l).cfgStays y v = true ↔ p) → ¬p → (s.relinked l).cfgStays y v = false :=
      fun hp hn => Bool.eq_false_iff.mpr (fun hk => hn (hp.mp hk))
    refine ⟨_, ⟨hexec, hans⟩, fun hk => hcfgd.kept (hstays.mpr hk), fun hk => hcfgd.word (hnot hstays hk), hcfgd.others,
      hcfgd.st, hcfgd.opened, fun hoff hwas hk => hcfgd.closed hoff hwas (hnot hstays hk),
      fun hk => hcfgd.ring (hk.imp_right hstays.mpr), hcards, honly'⟩
  · obtain ⟨l, m, hexec, hans⟩ := ringWrite_acts hc hadm
    obtain ⟨hmark, hothers, hcards, hreset, hrefused, harmed, hmarked, hhost, honly⟩ := (s.relinked l).ringCtrl_written y v
    have honly' := congrArg (fun d : Dev => { d with links := s.links }) honly
    exact ⟨_, ⟨hexec, hans⟩, hmark, hothers, hcards, hreset, hrefused, harmed, hmarked, hhost, honly'⟩

end Sys2Proof.Machine
end

section
/-! PROOFS. An engine's registers and scratch under a write of the host (R78, R81, R85). -/

namespace Sys2Proof.Machine

theorem directCard_eng {e o : Nat} (he : e < 272) (ho : o < 0x1000) (h4 : o % 4 = 0) :
    DirectCard (aEng e o) ∧ (∀ v, forcedBy (aEng e o) v = none) ∧ ∀ (s : Dev) (v : W), s.writeNow (aEng e o) v = s.writeEng e o v := by
  have hloc := locOf_aEng he ho
  have hcanon : canonAddr (aEng e o) = aEng e o := by rw [canonAddr, hloc]
  have hroute : isRoute (aEng e o) = false := by rw [isRoute, hloc]
  refine ⟨⟨by unfold aEng; omega, by rw [userNv, hloc], ?_, hcanon, hroute⟩, fun v => by rw [forcedBy, hloc], fun s v => ?_⟩
  · rw [stages, hcanon, isStaged, hloc]
    rfl
  · rw [Dev.writeNow, hroute, if_neg Bool.false_ne_true, hloc]

/-! ### PG, VOIDH and scratch -/

theorem Dev.CardsOnly.eq {s t : Dev} (h : s.CardsOnly t) : { t with regs := s.regs } = s := by
  obtain ⟨r, rfl⟩ := h
  rfl

theorem Dev.CardsOnly.scratch {s t : Dev} (h : s.CardsOnly t) :
    t.scratch = s.scratch ∧ { t with regs := s.regs, scratch := s.scratch } = s := by
  obtain ⟨r, rfl⟩ := h
  exact ⟨rfl, rfl⟩

/-- PG: the engine's card and the MIRROR of its site. -/
theorem Dev.setPg_leaves (s : Dev) {e : Nat} (he : e < 272) (v : W) :
    (s.setPg e (v.fld 31 16)).fld (aEng e 8) 31 16 = v.fld 31 16 ∧ s.Cards (s.setPg e (v.fld 31 16)) (aEng e 8 :: s.mirror e) ∧
    s.CardsOnly (s.setPg e (v.fld 31 16)) := by
  have hpg : (s.setFld (aEng e 8) 31 16 (v.fld 31 16)).fld (aEng e 8) 31 16 = v.fld 31 16 :=
    (Dev.fld_setFld_self s (by decide) (by decide) _).trans (Nat.mod_eq_of_lt (W.fld_lt v 31 16))
  rw [Dev.setPg_eq s he, Dev.mirror]
  cases s.siteOf e with
  | none => exact ⟨hpg, (Dev.Cards.refl s _).setFld (by simp) _ _ _, (Dev.CardsOnly.refl s).setFld _ _ _ _⟩
  | some i =>
    refine ⟨?_, ((Dev.Cards.refl s _).setFld (by simp) _ _ _).setFld (by simp) _ _ _,
      ((Dev.CardsOnly.refl s).setFld _ _ _ _).setFld _ _ _ _⟩
    exact (Dev.fld_congr (Dev.rd_setFld_of_ne (s.setFld (aEng e 8) 31 16 (v.fld 31 16)) (aEng_ne_mirror he (by decide))) 31 16).trans hpg

/-- VOIDH: the engine's card and the MIRROR of its site. -/
theorem Dev.setVoidh_leaves (s : Dev) {e n : Nat} (he : e < 272) (en : Bool) (hn : n < 32768) :
    (s.setVoidh e en n).bit (aEng e 0x18) 31 = en ∧ (s.setVoidh e en n).fld (aEng e 0x18) 14 0 = n ∧
    s.Cards (s.setVoidh e en n) (aEng e 0x18 :: s.mirror e) ∧ s.CardsOnly (s.setVoidh e en n) := by
  obtain ⟨hlow, hbit⟩ := voidhWord_fields n en
  replace hlow := hlow.trans (Nat.mod_eq_of_lt hn)
  have hself := Dev.rd_wr_self s (aEng e 0x18) (wn (n % 32768 + 2 ^ 31 * b2n en))
  have hsite : (s.wr (aEng e 0x18) (wn (n % 32768 + 2 ^ 31 * b2n en))).siteOf e = s.siteOf e :=
    Dev.siteOf_wr_eng s he (by decide) _ e
  rw [Dev.setVoidh, hsite, Dev.mirror]
  cases s.siteOf e with
  | none =>
    exact ⟨(congrArg (fun w : W => w.bit 31) hself).trans hbit, (congrArg (fun w : W => w.fld 14 0) hself).trans hlow,
      (Dev.Cards.refl s _).wr (by simp) _, (Dev.CardsOnly.refl s).wr _ _⟩
  | some i =>
    have hkept := Dev.rd_setFld_of_ne (s.wr (aEng e 0x18) (wn (n % 32768 + 2 ^ 31 * b2n en))) (a := aSiteCfg i + 8) (hi := 15) (lo := 0)
      (x := n % 32768 + 32768 * b2n en) (aEng_ne_mirror (i := i) he (show 0x18 < 0x1000 by decide))
    rw [hself] at hkept
    exact ⟨(congrArg (fun w : W => w.bit 31) hkept).trans hbit, (congrArg (fun w : W => w.fld 14 0) hkept).trans hlow,
      ((Dev.Cards.refl s _).wr (by simp) _).setFld (by simp) _ _ _, ((Dev.CardsOnly.refl s).wr _ _).setFld _ _ _ _⟩

/-- A word of scratch after a store: the one stored, or the one that stood. -/
theorem Dev.scrWord_setScrWord_at (s : Dev) (e k a b : Nat) (v : W) :
    (s.setScrWord e a v).scrWord k b = if k = e ∧ b % 16384 / 4 = a % 16384 / 4 then v else s.scrWord k b := by
  split
  next h =>
    obtain ⟨rfl, hb⟩ := h
    have hself := s.scrWord_setScrWord k a v
    rw [Dev.scrWord] at hself ⊢
    rw [hb]
    exact hself
  next h =>
    have hbyte : ∀ j, j < 4 → (s.setScrWord e a v).scrByte k (b % 16384 / 4 * 4 + j) = s.scrByte k (b % 16384 / 4 * 4 + j) := fun j hj =>
      s.scrByte_setScrWord_of_ne v (by omega) (by omega)
    unfold Dev.scrWord wordOf
    rw [hbyte 3 (by decide), hbyte 2 (by decide), hbyte 1 (by decide)]
    have h0 := hbyte 0 (by decide)
    rw [Nat.add_zero] at h0
    rw [h0]

theorem Dev.setScrWord_only (s : Dev) (e a : Nat) (v : W) : ∃ x, s.setScrWord e a v = { s with scratch := x } := by
  simp only [Dev.setScrWord, Dev.setScrByte]
  exact ⟨_, rfl⟩

/-! ### The write (R78) -/

theorem Dev.writeEng_unassigned {s : Dev} {e o : Nat} {v : W} (h : assigned (aEng e o) = false) : s.writeEng e o v = s := by
  rw [Dev.writeEng, h]
  rfl

theorem Dev.writeEng_refused {s : Dev} {e o : Nat} {v : W} (h : assigned (aEng e o) = true) (hst : (s.eng e).st.hostMayWrite = false) :
    s.writeEng e o v = s.setBits (aEng e 0) 0x80000000 := by
  rw [Dev.writeEng, h, hst]
  rfl

/-- What a write of an engine's register that is taken leaves. -/
structure Dev.EngWritten (s : Dev) (e o : Nat) (v : W) (t : Dev) : Prop where
  only    : { t with regs := s.regs, scratch := s.scratch } = s
  pg      : o = 8 → t.fld (aEng e o) 31 16 = v.fld 31 16 ∧ s.Cards t (aEng e o :: s.mirror e) ∧ t.scratch = s.scratch
  voidh   : o = 0x18 → t.bit (aEng e o) 31 = v.bit 31 ∧ t.fld (aEng e o) 14 0 = v.fld 14 0 ∧
    s.Cards t (aEng e o :: s.mirror e) ∧ t.scratch = s.scratch
  scratch : 0x800 ≤ o → t.regs = s.regs ∧
    ∀ k n, t.scrWord k (4 * n) = if k = e ∧ n % 4096 = 512 * s.fld (aEng e 0x100) 2 0 + (o - 0x800) / 4 then v
      else s.scrWord k (4 * n)
  plain   : o ≠ 8 → o ≠ 0x18 → o < 0x800 → t.rd (aEng e o) = cardWrite (aEng e o) (s.rd (aEng e o)) v ∧ s.Cards t [aEng e o] ∧
    t.scratch = s.scratch

theorem Dev.writeEng_taken {s : Dev} {e o : Nat} {v : W} (he : e < 272) (ho : o < 0x1000) (h4 : o % 4 = 0)
    (h : assigned (aEng e o) = true) (hst : (s.eng e).st.hostMayWrite = true) : Dev.EngWritten s e o v (s.writeEng e o v) := by
  have heq : s.writeEng e o v =
      if o = 8 then s.setPg e (v.fld 31 16)
      else if o = 0x18 then s.setVoidh e (v.bit 31) (v.fld 14 0)
      else if 0x800 ≤ o then s.setScrWord e (0x800 * s.fld (aEng e 0x100) 2 0 + (o - 0x800)) v
      else s.putCard (aEng e o) v := by
    rw [Dev.writeEng, h, hst]
    rfl
  rw [heq]
  by_cases h8 : o = 8
  · subst h8
    obtain ⟨hpg, hcards, honly⟩ := s.setPg_leaves he v
    rw [if_pos rfl]
    obtain ⟨hscr, honly'⟩ := honly.scratch
    exact
      { only := honly', pg := fun _ => ⟨hpg, hcards, hscr⟩, voidh := fun h => absurd h (by decide)
        scratch := fun h => absurd h (by decide), plain := fun h => absurd rfl h }
  rw [if_neg h8]
  by_cases h18 : o = 0x18
  · subst h18
    obtain ⟨hbit, hfld, hcards, honly⟩ := s.setVoidh_leaves he (v.bit 31) (W.fld_lt v 14 0)
    rw [if_pos rfl]
    obtain ⟨hscr, honly'⟩ := honly.scratch
    exact
      { only := honly', pg := fun h => absurd h (by decide), voidh := fun _ => ⟨hbit, hfld, hcards, hscr⟩
        scratch := fun h => absurd h (by decide), plain := fun _ h => absurd rfl h }
  rw [if_neg h18]
  by_cases hscr : 0x800 ≤ o
  · rw [if_pos hscr]
    obtain ⟨x, hx⟩ := s.setScrWord_only e (0x800 * s.fld (aEng e 0x100) 2 0 + (o - 0x800)) v
    refine
      { only := by rw [hx], pg := fun h => absurd h h8, voidh := fun h => absurd h h18
        scratch := fun _ => ⟨by rw [hx], fun k n => ?_⟩, plain := fun _ _ h => absurd h (by omega) }
    rw [Dev.scrWord_setScrWord_at]
    have hbank := W.fld_lt (s.rd (aEng e 0x100)) 2 0
    have hfld : s.fld (aEng e 0x100) 2 0 < 8 := hbank
    have hiff : 4 * n % 16384 / 4 = (0x800 * s.fld (aEng e 0x100) 2 0 + (o - 0x800)) % 16384 / 4 ↔
        n % 4096 = 512 * s.fld (aEng e 0x100) 2 0 + (o - 0x800) / 4 := by omega
    simp only [hiff]
  · rw [if_neg hscr]
    exact
      { only := rfl, pg := fun h => absurd h h8, voidh := fun h => absurd h h18, scratch := fun h => absurd h hscr
        plain := fun _ _ _ => ⟨Dev.rd_putCard_self s _ v, (Dev.Cards.refl s _).putCard (List.mem_singleton_self _) v, rfl⟩ }

theorem engineRegisterWrite_acts {s : State} {h : Hdr} {v : W} {e : Fin 272} {o : BitVec 12} (hadm : s.Admits h (aEng e o.toNat) v)
    (h4 : o.toNat % 4 = 0) :
    ∃ l m, exec (.engineRegisterWrite h e o v) s = .next { s with toDev := ((s.relinked l).writeEng e o.toNat v).relinked m } ∧
      (((s.relinked l).writeEng e o.toNat v).relinked m).AnswersMem h false 0 1 0 [] := by
  obtain ⟨hcard, hforce, hnow⟩ := directCard_eng e.isLt o.isLt h4
  obtain ⟨l, m, hexec, hans⟩ := exec_directWrite hcard (hforce v) (c := .engineRegisterWrite h e o v) rfl hadm
  rw [hnow] at hexec hans
  exact ⟨l, m, hexec, hans⟩

end Sys2Proof.Machine
end

section
/-! PROOFS. The microcode's registers under a write of the host (R121-R125). -/

namespace Sys2Proof.Machine

theorem directCard_ucs {o : Nat} (ho : o < 0x10000) (h4 : o % 4 = 0) :
    DirectCard (aUcs o) ∧ (∀ v, forcedBy (aUcs o) v = none) ∧ ∀ (s : Dev) (v : W), s.writeNow (aUcs o) v = s.writeUcs o v := by
  have hloc := locOf_aUcs ho
  have hcanon : canonAddr (aUcs o) = aUcs o := by rw [canonAddr, hloc]
  have hroute : isRoute (aUcs o) = false := by rw [isRoute, hloc]
  refine ⟨⟨by unfold aUcs; omega, by rw [userNv, hloc], ?_, hcanon, hroute⟩, fun v => by rw [forcedBy, hloc], fun s v => ?_⟩
  · rw [stages, hcanon, isStaged, hloc]
    rfl
  · rw [Dev.writeNow, hroute, if_neg Bool.false_ne_true, hloc]

/-! ### SRC after a change of the installed patch (R123) -/

theorem Dev.patchTouched_cards (s : Dev) : s.Cards s.patchTouched [aUcs 0x8104] := by
  unfold Dev.patchTouched
  split
  · exact (Dev.Cards.refl s _).setFld (by simp) _ _ _
  · exact Dev.Cards.refl s _

theorem Dev.patchTouched_only (s : Dev) : s.CardsOnly s.patchTouched := by
  unfold Dev.patchTouched
  split
  · exact (Dev.CardsOnly.refl s).setFld _ _ _ _
  · exact Dev.CardsOnly.refl s

theorem Dev.patchTouched_src {s : Dev} (h : s.bit (aUcs 0x8104) 27 = true) : s.patchTouched.fld (aUcs 0x8104) 29 28 = 2 := by
  unfold Dev.patchTouched
  rw [if_pos h]
  exact Dev.fld_setFld_self s (by decide) (by decide) 2

/-! ### PRAM and MATCH -/

/-- The five words held are the microcode's own. -/
theorem Dev.heldWord_congr {s t : Dev} (h : t.ucs = s.ucs) (base : Nat) (v : W) : t.heldWord base v = s.heldWord base v := by
  rw [Dev.heldWord, h, Dev.heldWord]

/-- The fifth word of a patch word stores the five held (R122). -/
def Dev.pramStored (s : Dev) (w : Nat) (v : W) : Dev :=
  { s with ucs := { s.ucs with pram := s.ucs.pram.set (fun _ => trapWord) w (s.heldWord 0 v) } }

theorem Dev.pramStored_table (s : Dev) (w : Nat) (v : W) : ∃ p : Tab (BitVec 160),
    s.pramStored w v = { s with ucs := { s.ucs with pram := p } } ∧ p.get (fun _ => trapWord) w = s.heldWord 0 v ∧
    ∀ k, k ≠ w → p.get (fun _ => trapWord) k = s.ucs.pram.get (fun _ => trapWord) k :=
  ⟨_, rfl, Tab.get_set_self _ _ _ _, fun _ hk => Tab.get_set_of_ne _ hk _ _⟩

theorem Dev.pramWrite_last (s : Dev) (w : Nat) (v : W) : s.pramWrite w 4 v = s.patchTouched.pramStored w v := by
  unfold Dev.pramWrite
  exact if_neg (Nat.lt_irrefl 4)

theorem Dev.writeUcs_pram (s : Dev) {o w : Nat} (hlt : o < 0x8000) (hword : o % 32 = 16) (hdiv : o / 32 = w) (v : W) :
    s.writeUcs o v = s.patchTouched.pramStored w v := by
  rw [Dev.writeUcs, if_pos hlt, hword, hdiv, if_pos (Nat.le_refl 16)]
  exact Dev.pramWrite_last s w v

theorem pramWordWrite_acts {s : State} {h : Hdr} {v : W} {w : BitVec 10} (hadm : s.Admits h (aUcs (32 * w.toNat + 16)) v) :
    ∃ t : Dev, (exec (.pramWordWrite h w v) s = .next { s with toDev := t } ∧ t.AnswersMem h false 0 1 0 []) ∧
      t.ucs.pram.get (fun _ => trapWord) w.toNat = s.heldWord 0 v ∧
      (∀ k, k ≠ w.toNat → t.ucs.pram.get (fun _ => trapWord) k = s.ucs.pram.get (fun _ => trapWord) k) ∧
      (s.bit (aUcs 0x8104) 27 = true → t.fld (aUcs 0x8104) 29 28 = 2) ∧ s.Cards t [aUcs 0x8104] ∧
      { t.ucs with pram := s.ucs.pram } = s.ucs ∧ { t with regs := s.regs, links := s.links, ucs := s.ucs } = s.toDev := by
  have hw := w.isLt
  obtain ⟨hcard, hforce, hnow⟩ := directCard_ucs (o := 32 * w.toNat + 16) (by omega) (by omega)
  obtain ⟨l, m, hexec, hans⟩ := exec_directWrite hcard (hforce v) (c := .pramWordWrite h w v) rfl hadm
  rw [hnow, Dev.writeUcs_pram _ (w := w.toNat) (by omega) (by omega) (by omega)] at hexec hans
  have hsrc := Dev.patchTouched_src (s := s.relinked l)
  have hcards := (s.relinked l).patchTouched_cards
  obtain ⟨r, hr⟩ := (s.relinked l).patchTouched_only
  have hheld : (s.relinked l).patchTouched.heldWord 0 v = s.heldWord 0 v := Dev.heldWord_congr (by rw [hr]; rfl) 0 v
  obtain ⟨p, hp, hself, hother⟩ := (s.relinked l).patchTouched.pramStored_table w.toNat v
  rw [hheld] at hself
  rw [hp, hr] at hexec hans
  rw [hr] at hsrc hcards hother
  exact ⟨_, ⟨hexec, hans⟩, hself, hother, hsrc, hcards, rfl, rfl⟩

/-- The card a row of MATCH or CTRL writes. -/
def matchCard (n : Option (Fin 64)) : Nat := match n with | some n => aUcs (0x8000 + 4 * n.val) | none => aUcs 0x8100

theorem matchCard_spec (n : Option (Fin 64)) : ∃ o, matchCard n = aUcs o ∧ o < 0x8104 ∧ 0x8000 ≤ o ∧ o % 4 = 0 ∧
    (rwMask (aUcs o) = 0x80FFFFFF ∨ rwMask (aUcs o) = 1) := by
  cases n with
  | none => exact ⟨0x8100, rfl, by decide, by decide, by decide, .inr (by decide)⟩
  | some n =>
    have hn := n.isLt
    refine ⟨0x8000 + 4 * n.val, rfl, by omega, by omega, by omega, .inl ?_⟩
    rw [rwMask, locOf_aUcs (by omega)]
    exact if_pos (by omega)

theorem Dev.writeUcs_match (s : Dev) {o : Nat} (hlo : 0x8000 ≤ o) (hhi : o < 0x8104)
    (hrw : rwMask (aUcs o) = 0x80FFFFFF ∨ rwMask (aUcs o) = 1) (v : W) : s.writeUcs o v = (s.putCard (aUcs o) v).patchTouched := by
  have hne : rwMask (aUcs o) ≠ 0 := by
    rcases hrw with h | h
    · rw [h]; decide
    · rw [h]; decide
  rw [Dev.writeUcs, if_neg (by omega), if_neg (by omega), if_neg (by omega), if_neg (by omega), if_neg (by omega), if_neg hne]

theorem w1cMask_ucs {o : Nat} (h : o < 0x8104) : w1cMask (aUcs o) = 0 := by
  rw [w1cMask, locOf_aUcs (by omega)]
  dsimp only
  rw [if_neg (by omega), if_neg (by omega)]

theorem matchWrite_acts {s : State} {h : Hdr} {v : W} {n : Option (Fin 64)} (hadm : s.Admits h (matchCard n) v) :
    ∃ t : Dev, (exec (.matchWrite h n v) s = .next { s with toDev := t } ∧ t.AnswersMem h false 0 1 0 []) ∧
      t.rd (matchCard n) = (s.rd (matchCard n) &&& ~~~(rwMask (matchCard n))) ||| (v &&& rwMask (matchCard n)) ∧
      (s.bit (aUcs 0x8104) 27 = true → t.fld (aUcs 0x8104) 29 28 = 2) ∧ s.Cards t [matchCard n, aUcs 0x8104] ∧
      { t with regs := s.regs, links := s.links } = s.toDev := by
  have hrow : exec (.matchWrite h n v) s = .next { s with toDev := s.hostWord h (matchCard n) v } := by
    cases n <;> rfl
  obtain ⟨o, ho, hhi, hlo, h4, hrw⟩ := matchCard_spec n
  rw [ho] at hadm hrow ⊢
  obtain ⟨hcard, hforce, hnow⟩ := directCard_ucs (o := o) (by omega) h4
  obtain ⟨l, m, hexec, hans⟩ := exec_directWrite hcard (hforce v) hrow hadm
  rw [hnow, Dev.writeUcs_match _ hlo hhi hrw] at hexec hans
  have hself := Dev.rd_putCard_self (s.relinked l) (aUcs o) v
  have hput : s.Cards ((s.relinked l).putCard (aUcs o) v) [aUcs o, aUcs 0x8104] :=
    (Dev.Cards.refl s.toDev _).putCard (List.mem_cons_self) v
  have hctrl : ((s.relinked l).putCard (aUcs o) v).rd (aUcs 0x8104) = s.rd (aUcs 0x8104) :=
    Dev.rd_putCard_of_ne _ v (by unfold aUcs; omega)
  have hputOnly : (s.relinked l).CardsOnly ((s.relinked l).putCard (aUcs o) v) := (Dev.CardsOnly.refl _).wr _ _
  have hsrc := Dev.patchTouched_src (s := (s.relinked l).putCard (aUcs o) v)
  have hcards := ((s.relinked l).putCard (aUcs o) v).patchTouched_cards
  obtain ⟨r, hr⟩ := ((s.relinked l).putCard (aUcs o) v).patchTouched_only
  obtain ⟨r', hr'⟩ := hputOnly
  have hword : cardWrite (aUcs o) (s.rd (aUcs o)) v = (s.rd (aUcs o) &&& ~~~(rwMask (aUcs o))) ||| (v &&& rwMask (aUcs o)) := by
    have hnone : v &&& (0 : W) = 0 := BitVec.and_zero
    have hall : ~~~(0 : W) = BitVec.allOnes 32 := rfl
    rw [cardWrite, w1cMask_ucs hhi, hnone, hall, BitVec.and_allOnes]
  have honly : { ((s.relinked l).putCard (aUcs o) v).patchTouched with regs := s.regs, links := s.links } = s.toDev := by
    rw [hr, hr']
    rfl
  generalize ((s.relinked l).putCard (aUcs o) v).patchTouched = t at hexec hans hsrc hcards honly
  refine ⟨_, ⟨hexec, hans⟩, ?_, fun hb => hsrc ((Dev.bit_congr hctrl 27).trans hb), hput.trans (hcards.mono (by simp)), honly⟩
  exact (hcards _ (by rw [List.mem_singleton]; unfold aUcs; omega)).trans (hself.trans hword)

/-! ### The writable store (R125) -/

theorem Dev.wcsStore_only (s : Dev) (k n : Nat) (x : BitVec 160) : ∃ u, s.wcsStore k n x = { s with ucs := u } := ⟨_, rfl⟩

theorem Dev.wcsStore_get (s : Dev) (k n j : Nat) (x : BitVec 160) : (s.wcsStore k n x).ucs.wcs.get (fun _ => 0) j =
    if j = 16384 * k + n then x else s.ucs.wcs.get (fun _ => 0) j := by
  split
  next h =>
    subst h
    exact Tab.get_set_self _ _ _ _
  next h => exact Tab.get_set_of_ne _ h _ _

/-- A word stored in all copies. -/
def Dev.wcsAll (s : Dev) (n : Nat) (x : BitVec 160) : Dev := forN 16 (fun k s => s.wcsStore k n x) s

theorem Dev.wcsAll_only (s : Dev) (n : Nat) (x : BitVec 160) : ∃ u, s.wcsAll n x = { s with ucs := u } := by
  refine forL_keeps (I := fun t => ∃ u, t = { s with ucs := u }) (fun k _ t ht => ?_) ⟨s.ucs, rfl⟩
  obtain ⟨u, rfl⟩ := ht
  obtain ⟨w, hw⟩ := Dev.wcsStore_only { s with ucs := u } k n x
  exact ⟨w, hw⟩

theorem Dev.forN_wcsStore_get (s : Dev) {n k j : Nat} (hn : n < 16384) (hj : j < 16384) (x : BitVec 160) (m : Nat) :
    (forN m (fun k s => s.wcsStore k n x) s).ucs.wcs.get (fun _ => 0) (16384 * k + j) =
      if j = n ∧ k < m then x else s.ucs.wcs.get (fun _ => 0) (16384 * k + j) := by
  induction m with
  | zero => rw [if_neg (by omega)]; rfl
  | succ m ih =>
    rw [forN_succ, Dev.wcsStore_get, ih]
    by_cases hkey : 16384 * k + j = 16384 * m + n
    · rw [if_pos hkey, if_pos (by omega)]
    · rw [if_neg hkey]
      have hiff : (j = n ∧ k < m) ↔ (j = n ∧ k < m + 1) := by omega
      simp only [hiff]

/-- The copies WCS_ADDR names take the word. -/
def Dev.wcsStored (s : Dev) (x : BitVec 160) : Dev :=
  if s.bit (aUcs 0x8600) 31 then s.wcsAll (s.fld (aUcs 0x8600) 13 0) x
  else s.wcsStore (s.fld (aUcs 0x8600) 19 16) (s.fld (aUcs 0x8600) 13 0) x

theorem Dev.wcsStored_only (s : Dev) (x : BitVec 160) : ∃ u, s.wcsStored x = { s with ucs := u } := by
  unfold Dev.wcsStored
  split
  · exact s.wcsAll_only _ x
  · exact s.wcsStore_only _ _ x

theorem Dev.wcsStored_get (s : Dev) (x : BitVec 160) {k j : Nat} (hk : k < 16) (hj : j < 16384) :
    (s.wcsStored x).ucs.wcs.get (fun _ => 0) (16384 * k + j) =
      if j = s.fld (aUcs 0x8600) 13 0 ∧ (s.bit (aUcs 0x8600) 31 = true ∨ k = s.fld (aUcs 0x8600) 19 16) then x
      else s.ucs.wcs.get (fun _ => 0) (16384 * k + j) := by
  have hn : s.fld (aUcs 0x8600) 13 0 < 16384 := W.fld_lt (s.rd (aUcs 0x8600)) 13 0
  unfold Dev.wcsStored
  cases hb : s.bit (aUcs 0x8600) 31 with
  | true =>
    rw [if_pos rfl, Dev.wcsAll, s.forN_wcsStore_get hn hj x 16]
    simp only [hk, and_true, true_or]
  | false =>
    rw [if_neg Bool.false_ne_true, Dev.wcsStore_get]
    have hiff : 16384 * k + j = 16384 * s.fld (aUcs 0x8600) 19 16 + s.fld (aUcs 0x8600) 13 0 ↔
        j = s.fld (aUcs 0x8600) 13 0 ∧ (false = true ∨ k = s.fld (aUcs 0x8600) 19 16) := by
      simp only [Bool.false_eq_true, false_or]
      omega
    simp only [hiff]

/-- The address after the word: the next one with INC. -/
def Dev.wcsNext (s : Dev) (n : Nat) : Dev :=
  if s.bit (aUcs 0x8600) 30 then s.setFld (aUcs 0x8600) 13 0 ((n + 1) % 16384) else s

theorem Dev.writeUcs_wcs {s : Dev} (hm : s.sys.mode = .recovery) (v : W) :
    s.writeUcs 0x8614 v = (s.wcsStored (s.heldWord 8 v)).wcsNext (s.fld (aUcs 0x8600) 13 0) := by
  have hlast : ¬((0x8614 - 0x8604) / 4 < 4) := by decide
  rw [Dev.writeUcs, if_neg (by decide), if_neg (by decide), if_neg (by decide), if_neg (by decide), if_pos (by decide),
    Dev.wcsData, if_neg (by rw [hm]; decide), if_neg hlast]
  rfl

theorem Dev.writeUcs_wcs_elsewhere {s : Dev} (hm : s.sys.mode ≠ .recovery) (v : W) : s.writeUcs 0x8614 v = s := by
  rw [Dev.writeUcs, if_neg (by decide), if_neg (by decide), if_neg (by decide), if_neg (by decide), if_pos (by decide),
    Dev.wcsData, if_pos hm]

theorem Dev.wcsNext_only (s : Dev) (n : Nat) : s.CardsOnly (s.wcsNext n) ∧ s.Cards (s.wcsNext n) [aUcs 0x8600] := by
  unfold Dev.wcsNext
  split
  · exact ⟨(Dev.CardsOnly.refl s).setFld _ _ _ _, (Dev.Cards.refl s _).setFld (by simp) _ _ _⟩
  · exact ⟨Dev.CardsOnly.refl s, Dev.Cards.refl s _⟩

theorem Dev.wcsNext_addr (s : Dev) {n : Nat} (hn : s.fld (aUcs 0x8600) 13 0 = n) :
    (s.wcsNext n).fld (aUcs 0x8600) 13 0 = (if s.bit (aUcs 0x8600) 30 then (n + 1) % 16384 else n) := by
  unfold Dev.wcsNext
  split
  · exact (Dev.fld_setFld_self s (by decide) (by decide) _).trans (Nat.mod_eq_of_lt (Nat.mod_lt _ (by decide)))
  · exact hn

theorem wcsDataWrite_acts {s : State} {h : Hdr} {v : W} (hadm : s.Admits h (aUcs 0x8614) v) :
    (s.sys.mode = .recovery →
      ∃ t : Dev, (exec (.wcsDataWrite h v) s = .next { s with toDev := t } ∧ t.AnswersMem h false 0 1 0 []) ∧
        (∀ k m, k < 16 → m < 16384 → t.ucs.wcs.get (fun _ => 0) (16384 * k + m) =
          if m = s.fld (aUcs 0x8600) 13 0 ∧ (s.bit (aUcs 0x8600) 31 = true ∨ k = s.fld (aUcs 0x8600) 19 16) then s.heldWord 8 v
          else s.ucs.wcs.get (fun _ => 0) (16384 * k + m)) ∧
        t.fld (aUcs 0x8600) 13 0 =
          (if s.bit (aUcs 0x8600) 30 then (s.fld (aUcs 0x8600) 13 0 + 1) % 16384 else s.fld (aUcs 0x8600) 13 0) ∧
        s.Cards t [aUcs 0x8600] ∧ { t with regs := s.regs, links := s.links, ucs := s.ucs } = s.toDev) ∧
    (s.sys.mode ≠ .recovery →
      ∃ t : Dev, (exec (.wcsDataWrite h v) s = .next { s with toDev := t } ∧ t.AnswersMem h false 0 1 0 []) ∧
        { t with links := s.links } = s.toDev) := by
  obtain ⟨hcard, hforce, hnow⟩ := directCard_ucs (o := 0x8614) (by decide) (by decide)
  obtain ⟨l, m, hexec, hans⟩ := exec_directWrite hcard (hforce v) (c := .wcsDataWrite h v) rfl hadm
  rw [hnow] at hexec hans
  refine ⟨fun hm => ?_, fun hm => ?_⟩
  · have hheld : (s.relinked l).heldWord 8 v = s.heldWord 8 v := Dev.heldWord_congr rfl 8 v
    rw [Dev.writeUcs_wcs (s := s.relinked l) hm, hheld] at hexec hans
    generalize s.heldWord 8 v = x at hexec hans ⊢
    have hget := fun k j hk hj => (s.relinked l).wcsStored_get x (k := k) (j := j) hk hj
    obtain ⟨u, hu⟩ := (s.relinked l).wcsStored_only x
    rw [hu] at hexec hans hget
    have haddr := Dev.wcsNext_addr { s.relinked l with ucs := u } (n := s.fld (aUcs 0x8600) 13 0) rfl
    obtain ⟨⟨r, hr⟩, hcards⟩ := Dev.wcsNext_only { s.relinked l with ucs := u } (s.fld (aUcs 0x8600) 13 0)
    replace hexec : exec (.wcsDataWrite h v) s =
      .next { s with toDev := (Dev.wcsNext { s.relinked l with ucs := u } (s.fld (aUcs 0x8600) 13 0)).relinked m } := hexec
    replace hans : ((Dev.wcsNext { s.relinked l with ucs := u } (s.fld (aUcs 0x8600) 13 0)).relinked m).AnswersMem h false 0 1 0 [] := hans
    rw [hr] at hexec hans haddr hcards
    exact ⟨_, ⟨hexec, hans⟩, fun k j hk hj => hget k j hk hj, haddr, hcards, rfl⟩
  · rw [Dev.writeUcs_wcs_elsewhere (s := s.relinked l) hm] at hexec hans
    exact ⟨_, ⟨hexec, hans⟩, rfl⟩

end Sys2Proof.Machine
end

section
/-! PROOFS. FIR coefficients and TDC queues under a write of the host (R229, R263). -/

namespace Sys2Proof.Machine

theorem directCard_ch {c o : Nat} (hc : c < 720) (ho : o = 0x13C ∨ (0x200 ≤ o ∧ o < 0x400 ∧ o % 4 = 0)) :
    DirectCard (aCh c o) ∧ (∀ v, forcedBy (aCh c o) v = none) ∧ ∀ (s : Dev) (v : W), s.writeNow (aCh c o) v = s.writeCh c o v := by
  have hloc := locOf_aCh hc (o := o) (by omega)
  have hcanon : canonAddr (aCh c o) = aCh c o := by rw [canonAddr, hloc]
  have hroute : isRoute (aCh c o) = false := by
    rw [isRoute, hloc]
    dsimp only
    rw [decide_eq_false (show ¬(o = 0x180) by omega), decide_eq_false (show ¬(o = 0x184) by omega), Bool.or_false, Bool.and_false]
  refine ⟨⟨by unfold aCh; omega, by rw [userNv, hloc], ?_, hcanon, hroute⟩, fun v => by rw [forcedBy, hloc], fun s v => ?_⟩
  · rw [stages, hcanon, isStaged, hloc]
    dsimp only
    rcases ho with rfl | ho
    · rfl
    · simp only [Bool.and_eq_false_iff, Bool.or_eq_false_iff, decide_eq_false_iff_not]
      omega
  · rw [Dev.writeNow, hroute, if_neg Bool.false_ne_true, hloc]

/-! ### FIR_COEF -/

/-- The bank is the active one, or a swap runs or waits. -/
def Dev.coefShut (s : Dev) (k b : Nat) : Prop := (s.chain k).bank = b ∨ (s.chain k).fade ≠ none ∨ (s.chain k).pendXf ≠ none

theorem aPin_eq {q c o : Nat} (hc : c < 4) : aPin (4 * q + c) o = aCh (5 * q + c) o := by
  have hdiv : (4 * q + c) / 4 = q := by omega
  have hmod : (4 * q + c) % 4 = c := by omega
  rw [aPin, hdiv, hmod]

/-- A write of FIR_COEF of a pin's circuit reaches the coefficients of the circuit that stands on the pin. -/
theorem Dev.writeCh_coef (s : Dev) {q c o : Nat} (hc : c < 4) (hlo : 0x200 ≤ o) (hhi : o < 0x400) (v : W) :
    s.writeCh (5 * q + c) o v = s.coefWrite (4 * q + c) o v := by
  have hmod : (5 * q + c) % 5 = c := by omega
  have hdiv : (5 * q + c) / 5 = q := by omega
  have hspare : ¬(isPinCfg o && decide (c = 4)) = true := by
    rw [decide_eq_false (show ¬(c = 4) by omega), Bool.and_false]
    exact Bool.false_ne_true
  rw [Dev.writeCh, hmod, hdiv, if_neg hspare, if_pos ⟨hlo, hhi⟩]

theorem coefShut_iff (s : Dev) (k b o : Nat) (ho : (o - 0x200) / 0x100 = b) :
    (decide ((s.chain k).bank = (o - 0x200) / 0x100) || (s.chain k).fade.isSome || (s.chain k).pendXf.isSome) = true ↔ s.coefShut k b := by
  rw [ho, Dev.coefShut]
  simp [Option.isSome_iff_ne_none, or_assoc]

theorem Dev.coefWrite_open {s : Dev} {p o b : Nat} (ho : (o - 0x200) / 0x100 = b) (h : ¬s.coefShut (s.circOf p) b) (v : W) :
    s.coefWrite p o v = s.putCard (aPin p o) v := by
  unfold Dev.coefWrite
  exact if_neg (fun hc => h ((coefShut_iff s _ b o ho).mp hc))

theorem Dev.coefWrite_shut {s : Dev} {p o b : Nat} (ho : (o - 0x200) / 0x100 = b) (h : s.coefShut (s.circOf p) b) (v : W) :
    s.coefWrite p o v = s.setBits (aCh (s.circOf p) 0x108) 0x80000000 := by
  unfold Dev.coefWrite
  exact if_pos ((coefShut_iff s _ b o ho).mpr h)

/-- The spare has no coefficients of its own. -/
theorem Dev.writeCh_spare (s : Dev) (q : Nat) {o : Nat} (hlo : 0x200 ≤ o) (v : W) : s.writeCh (5 * q + 4) o v = s := by
  have hmod : (5 * q + 4) % 5 = 4 := by omega
  have hcfg : isPinCfg o = true := by
    rw [isPinCfg, decide_eq_true hlo, Bool.or_true]
  rw [Dev.writeCh, hmod, hcfg]
  exact if_pos rfl

theorem coef_bits {c o : Nat} (hc : c < 720) (hlo : 0x200 ≤ o) (hhi : o < 0x400) :
    ∀ i, 0 ≤ i → i ≤ 17 → (rwMask (aCh c o)).bit i = true ∧ (w1cMask (aCh c o)).bit i = false := by
  have hrw : rwMask (aCh c o) = 0x3FFFF := by
    rw [rwMask, locOf_aCh hc (by omega)]
    dsimp only
    iterate 15 rw [if_neg (by omega)]
    rw [if_pos ⟨hlo, hhi⟩]
  have hw1c : w1cMask (aCh c o) = 0 := by
    rw [w1cMask, locOf_aCh hc (by omega)]
    dsimp only
    iterate 6 rw [if_neg (by omega)]
  rw [hrw, hw1c]
  decide

theorem firCoefWrite_acts {s : State} {h : Hdr} {v : W} {q : Fin 144} {c : Fin 5} {b : Fin 2} {n : Fin 64}
    (hadm : s.Admits h (aCh (5 * q.val + c.val) (0x200 + 0x100 * b.val + 4 * n.val)) v) :
    (c.val < 4 → ¬s.coefShut (s.circOf (4 * q.val + c.val)) b.val →
      ∃ t : Dev, (exec (.firCoefWrite h q c b n v) s = .next { s with toDev := t } ∧ t.AnswersMem h false 0 1 0 []) ∧
        t.fld (aCh (5 * q.val + c.val) (0x200 + 0x100 * b.val + 4 * n.val)) 17 0 = v.fld 17 0 ∧
        s.Cards t [aCh (5 * q.val + c.val) (0x200 + 0x100 * b.val + 4 * n.val)] ∧
        { t with regs := s.regs, links := s.links } = s.toDev) ∧
    (c.val < 4 → s.coefShut (s.circOf (4 * q.val + c.val)) b.val →
      ∃ t : Dev, (exec (.firCoefWrite h q c b n v) s = .next { s with toDev := t } ∧ t.AnswersMem h false 0 1 0 []) ∧
        t.bit (aCh (s.circOf (4 * q.val + c.val)) 0x108) 31 = true ∧ s.Cards t [aCh (s.circOf (4 * q.val + c.val)) 0x108] ∧
        { t with regs := s.regs, links := s.links } = s.toDev) ∧
    (c.val = 4 → ∃ t : Dev, (exec (.firCoefWrite h q c b n v) s = .next { s with toDev := t } ∧ t.AnswersMem h false 0 1 0 []) ∧
      { t with links := s.links } = s.toDev) := by
  have hq := q.isLt
  have hb := b.isLt
  have hn := n.isLt
  have hcircuit : 5 * q.val + c.val < 720 := by omega
  generalize ho : 0x200 + 0x100 * b.val + 4 * n.val = o at hadm ⊢
  have hlo : 0x200 ≤ o := by omega
  have hhi : o < 0x400 := by omega
  have hbank : (o - 0x200) / 0x100 = b.val := by omega
  have hrow : exec (.firCoefWrite h q c b n v) s = .next { s with toDev := s.hostWord h (aCh (5 * q.val + c.val) o) v } := by
    rw [← ho]
    rfl
  obtain ⟨hcard, hforce, hnow⟩ := directCard_ch hcircuit (.inr ⟨hlo, hhi, by omega⟩)
  obtain ⟨l, m, hexec, hans⟩ := exec_directWrite hcard (hforce v) hrow hadm
  rw [hnow] at hexec hans
  refine ⟨fun hc hopen => ⟨_, ⟨hexec, hans⟩, ?_⟩, fun hc hshut => ⟨_, ⟨hexec, hans⟩, ?_⟩, fun hc => ⟨_, ⟨hexec, hans⟩, ?_⟩⟩
  · rw [Dev.writeCh_coef _ hc hlo hhi, Dev.coefWrite_open (s := s.relinked l) hbank hopen, aPin_eq hc]
    have hself := Dev.rd_putCard_self (s.relinked l) (aCh (5 * q.val + c.val) o) v
    exact ⟨(congrArg (fun w : W => w.fld 17 0) hself).trans (fld_cardWrite _ v (coef_bits hcircuit hlo hhi)),
      (Dev.Cards.refl s.toDev _).putCard (List.mem_singleton_self _) v, rfl⟩
  · have hcirc : (s.relinked l).circOf (4 * q.val + c.val) = s.circOf (4 * q.val + c.val) := rfl
    rw [Dev.writeCh_coef _ hc hlo hhi, Dev.coefWrite_shut (s := s.relinked l) hbank hshut, hcirc]
    generalize s.circOf (4 * q.val + c.val) = k
    have hset := Dev.bit_setBits_self (s.relinked l) (aCh k 0x108) (m := 0x80000000) 31 (by decide)
    have hcards := (Dev.Cards.refl (s.relinked l) [aCh k 0x108]).setBits (List.mem_singleton_self _) 0x80000000
    obtain ⟨r, hr⟩ := (Dev.CardsOnly.refl (s.relinked l)).setBits (aCh k 0x108) 0x80000000
    generalize (s.relinked l).setBits (aCh k 0x108) 0x80000000 = t at hset hcards hr
    refine ⟨hset, hcards, ?_⟩
    rw [hr]
    rfl
  · rw [hc, Dev.writeCh_spare _ _ hlo]
    rfl

/-! ### TDC_RD -/

theorem Dev.writeCh_tdcRd (s : Dev) (c : Nat) (v : W) : s.writeCh c 0x13C v = s.tdcRd c v := by
  have hcfg : isPinCfg 0x13C = false := by decide
  rw [Dev.writeCh, hcfg, Bool.false_and, if_neg Bool.false_ne_true, if_neg (by decide), if_pos rfl]

theorem Dev.tdcRd_leaves (s : Dev) (c : Nat) (v : W) :
    (s.tdcRd c v).rd (aCh c 0x13C) = (if min v.toNat (s.rd (aCh c 0x138)).toNat < (s.rd (aCh c 0x13C)).toNat then s.rd (aCh c 0x13C)
      else wn (min v.toNat (s.rd (aCh c 0x138)).toNat)) ∧
    s.Cards (s.tdcRd c v) [aCh c 0x13C] ∧ s.CardsOnly (s.tdcRd c v) := by
  unfold Dev.tdcRd
  dsimp only
  split
  · exact ⟨rfl, Dev.Cards.refl s _, Dev.CardsOnly.refl s⟩
  · exact ⟨Dev.rd_wr_self _ _ _, (Dev.Cards.refl s _).wr (List.mem_singleton_self _) _, (Dev.CardsOnly.refl s).wr _ _⟩

theorem tdcRdWrite_acts {s : State} {h : Hdr} {v : W} {q : Fin 144} {c : Fin 5} (hadm : s.Admits h (aCh (5 * q.val + c.val) 0x13C) v) :
    ∃ t : Dev, (exec (.tdcRdWrite h q c v) s = .next { s with toDev := t } ∧ t.AnswersMem h false 0 1 0 []) ∧
      t.rd (aCh (5 * q.val + c.val) 0x13C) = (if min v.toNat (s.rd (aCh (5 * q.val + c.val) 0x138)).toNat <
        (s.rd (aCh (5 * q.val + c.val) 0x13C)).toNat then s.rd (aCh (5 * q.val + c.val) 0x13C)
        else wn (min v.toNat (s.rd (aCh (5 * q.val + c.val) 0x138)).toNat)) ∧
      s.Cards t [aCh (5 * q.val + c.val) 0x13C] ∧ { t with regs := s.regs, links := s.links } = s.toDev := by
  have hq := q.isLt
  have hc := c.isLt
  obtain ⟨hcard, hforce, hnow⟩ := directCard_ch (c := 5 * q.val + c.val) (by omega) (.inl rfl)
  obtain ⟨l, m, hexec, hans⟩ := exec_directWrite hcard (hforce v) (c := .tdcRdWrite h q c v) rfl hadm
  rw [hnow, Dev.writeCh_tdcRd] at hexec hans
  obtain ⟨hrd, hcards, r, hr⟩ := (s.relinked l).tdcRd_leaves (5 * q.val + c.val) v
  generalize (s.relinked l).tdcRd (5 * q.val + c.val) v = t at hexec hans hrd hcards hr
  refine ⟨_, ⟨hexec, hans⟩, hrd, hcards, ?_⟩
  rw [hr]
  rfl

end Sys2Proof.Machine
end

section
/-! PROOFS. Fault registers under a write of the host: acknowledgement and FORCE (R48, R292, R295, R296). -/

namespace Sys2Proof.Machine

/-! ### No message is lost in a forced occurrence (R343) -/

/-- What was said stays said. -/
def Dev.StillSays (s t : Dev) : Prop := ∀ m, s.Said m → t.Said m

namespace Dev.StillSays

variable {s t u : Dev}

theorem refl (s : Dev) : Dev.StillSays s s := fun _ h => h

theorem trans (h : Dev.StillSays s t) (k : Dev.StillSays t u) : Dev.StillSays s u := fun m hm => k m (h m hm)

theorem of_links (h : t.links = s.links) : Dev.StillSays s t := by
  rintro m ⟨l, hl⟩
  have hlink : t.link l = s.link l := congrArg (fun x : Tab Link => x.get _ l) h
  exact ⟨l, by rw [hlink]; exact hl⟩

theorem sendMsg (s : Dev) (l : Nat) (m : Msg) : Dev.StillSays s (s.sendMsg l m) := by
  rintro x ⟨k, hk⟩
  refine ⟨k, ?_⟩
  unfold Dev.sendMsg Dev.onLink
  dsimp only
  generalize (if (s.link l).inSvc.isEmpty then s.firstLink.getD l else l) = j
  by_cases hj : k = j
  · subst hj
    rw [Dev.link_setLink_self]
    refine Link.mem_pumpGo _ [] _ (hk.imp (fun h => ?_) id)
    exact List.mem_append_left _ h
  · rw [Dev.link_setLink_of_ne _ hj]
    exact hk

theorem complete (s : Dev) (j : Job) (status detail : Nat) (data : List W) : Dev.StillSays s (s.complete j status detail data) := by
  unfold Dev.complete
  cases j.via with
  | mspi => exact of_links rfl
  | link l => exact sendMsg s l.val _

theorem note {s t : Dev} (h : s.NoteFrame t) : Dev.StillSays s t := by
  obtain ⟨_, _, rfl⟩ := h
  exact of_links rfl

theorem voidSites (s : Dev) (c : Nat) (l : List Nat) : Dev.StillSays s (s.voidSites c l) := by
  obtain ⟨_, _, h⟩ := (Dev.voidFrame_voidSites s c l).exists
  rw [h]
  exact of_links rfl

theorem endReq (s : Dev) (r : ModeReq) (n : Nat) : Dev.StillSays s (s.endReq r n) := by
  unfold Dev.endReq
  have hrej : Dev.StillSays s (s.rejMode r.tag n) := by
    obtain ⟨x, hx⟩ := (((Dev.CardsOnly.refl s).setBits 0x108 2).setFld 0x108 11 8 n).setFld 0x108 23 16 r.tag
    rw [Dev.rejMode, hx]
    exact of_links rfl
  split
  · exact hrej.trans (complete _ _ _ _ _)
  · exact hrej

theorem forL {α : Type} (l : List α) (f : α → Dev → Dev) (hf : ∀ a s, Dev.StillSays s (f a s)) (s : Dev) :
    Dev.StillSays s (Machine.forL l f s) :=
  forL_keeps (I := Dev.StillSays s) (fun a _ t h => h.trans (hf a t)) (refl s)

theorem abortCmds (s : Dev) : Dev.StillSays s s.abortCmds := by
  unfold Dev.abortCmds
  dsimp only
  refine trans ?_ (forL _ _ (fun j s => complete s j 14 0 []) _)
  exact of_links rfl

theorem nvCount (s : Dev) (o : Nat) : Dev.StillSays s (s.nvCount o) := by
  unfold Dev.nvCount
  obtain ⟨m, n, hstored⟩ := s.nvStored_only o (if s.word (aNvr o) = 0xFFFFFFFF then s.word (aNvr o) else s.word (aNvr o) + 1)
  have hset : Dev.StillSays s { s with mem := m, nv := n } := of_links rfl
  dsimp only
  rw [Dev.nvPut_eq, hstored]
  split
  · exact hset.trans (note (Dev.noteFrame_note _ 291))
  · exact hset

theorem enterSafe (s : Dev) (x : Nat) : Dev.StillSays s (s.enterSafe x) := by
  unfold Dev.enterSafe
  split
  · exact refl s
  · have hntfy : Dev.StillSays s (if s.bit (aFlt 0xA04) 31 then s.notify (s.ntfyNow 4 (x + 16 * 3 + 64 * b2n (s.unack x))
        (wn (s.fld (aCls x) 15 0))) true else s) := by
      split
      · refine of_links ?_
        unfold Dev.notify
        split <;> rfl
      · exact refl s
    have hreqs := forL (s.sys.req.toList ++ s.sys.asked) (fun r s => s.endReq r 9) (fun r s => endReq s r 9)
    have harm : ∀ d : Dev, Dev.StillSays d (if d.sys.mode = .stress then d.clrBits 0x114 0x80000000 else d) := fun d => by
      split
      · exact of_links rfl
      · exact refl d
    exact (((hntfy.trans (forL _ _ (fun r s => endReq s r 9) _)).trans (abortCmds _)).trans (nvCount _ _)).trans
      ((harm _).trans (of_links rfl))

theorem reacts {r : Raise} (hr : r.forced = true) (s : Dev) (x e : Nat) (o : OccNow) : Dev.StillSays s (s.reacts x e o [r]) := by
  have hreact : ∀ d : Dev, Dev.StillSays d (d.react e r) := fun d => by
    have heq : d.react e r = if e = 2 then d.voidSites (causeBit r.f) r.sites else d := by
      rw [Dev.react, hr, Bool.not_true, Bool.and_false]
      rfl
    rw [heq]
    split
    · exact voidSites d _ _
    · exact refl d
  have hearlier : ∀ b : Bool, Dev.StillSays s (if b then Machine.forL o.srcs (fun r s => s.voidSites (causeBit r.1) r.2) s else s) := fun b => by
    cases b
    · exact refl s
    · exact forL _ _ (fun q t => voidSites t _ _) s
  unfold Dev.reacts
  split
  · exact enterSafe s x
  · exact (hearlier _).trans (hreact _)

/-- A forced occurrence performs no repair: it loses no message. -/
theorem raise {r : Raise} (hf : r.f < 384) (hr : r.forced = true) (s : Dev) : Dev.StillSays s (s.raise r) := by
  rw [Dev.raise_eq_occur hf (by rw [hr]; rfl), Dev.occur]
  exact (note (Dev.noteFrame_recordOcc s _ _ _ _)).trans (reacts hr _ _ _ _)

end Dev.StillSays

end Sys2Proof.Machine
end

section
/-! PROOFS. FLT.SRC under a write of the host: the acknowledgement and FORCE as commands (R48, R292, R295, R296). -/

namespace Sys2Proof.Machine

/-! ### The row -/

theorem locOf_aSrc {f : Nat} (h : f < 384) : locOf (aSrc f) = .flt (4 * f) := by
  unfold aSrc
  exact locOf_aFlt (by omega)

theorem forcedBy_aSrc {f : Nat} (h : f < 384) (v : W) :
    forcedBy (aSrc f) v = if v.bit 29 && fltNamed f then some f else none := by
  have hdiv : 4 * f / 4 = f := by omega
  rw [forcedBy, locOf_aSrc h]
  dsimp only
  rw [decide_eq_true (show 4 * f < 0x600 by omega), hdiv, Bool.true_and]

theorem Dev.writeNow_aSrc (s : Dev) {f : Nat} (h : f < 384) (v : W) : s.writeNow (aSrc f) v = s.srcWrite f v := by
  have hdiv : 4 * f / 4 = f := by omega
  have hroute : isRoute (aSrc f) = false := by rw [isRoute, locOf_aSrc h]
  rw [Dev.writeNow, hroute, if_neg Bool.false_ne_true, locOf_aSrc h]
  dsimp only
  rw [Dev.writeFlt, if_pos (by omega), hdiv]

/-- A row that writes a source's register: what it wrote, its completion, then what it forces. -/
theorem exec_srcWrite {s : State} {h : Hdr} {f : Nat} (hf : f < 384) {v : W} {c : Instr}
    (hexec : exec c s = .next { s with toDev := s.hostWord h (aSrc f) v }) (hadm : s.Admits h (aSrc f) v) :
    ∃ l m, exec c s = .next { s with toDev := (((s.relinked l).srcWrite f v).relinked m).forced [(aSrc f, v)] } ∧
      (((s.relinked l).srcWrite f v).relinked m).AnswersMem h false 0 1 0 [] := by
  have hloc := locOf_aSrc hf
  have hcanon : canonAddr (aSrc f) = aSrc f := by rw [canonAddr, hloc]
  have hstage : stages (aSrc f) = false := by
    rw [stages, hcanon, isStaged, hloc]
    rfl
  have huser : userNv (aSrc f) = none := by rw [userNv, hloc]
  have hword : ∀ l, (s.relinked l).wrStart.word (aSrc f) v =
      { s := (s.relinked l).srcWrite f v, status := 0, words := 1, tick := 0, nv := [] } := fun l => by
    unfold WrOut.word
    rw [if_neg (fun h => h rfl), huser]
    dsimp only
    rw [hstage, if_neg Bool.false_ne_true, hcanon]
    rw [← Dev.writeNow_aSrc _ hf]
    rfl
  obtain ⟨l, hl⟩ := Dev.hostWord_admitted hadm (by unfold aSrc aFlt; omega) hword (fun _ => rfl)
  obtain ⟨hlinks, hans⟩ := ((s.relinked l).srcWrite f v).memDone_relinked h false 0 1 0 []
  dsimp only at hl
  rw [hlinks] at hl
  rw [hl] at hexec
  exact ⟨l, _, hexec, hlinks ▸ hans⟩

/-! ### The fields -/

/-- The word a write leaves in a source's register, before its acknowledgement. -/
def Dev.srcPut (s : Dev) (f : Nat) (v : W) : Dev := if s.sys.mode ≠ .recovery then s.putCard (aSrc f) v else s

theorem rwMask_aSrc {f : Nat} (h : f < 384) :
    rwMask (aSrc f) = if fltNamed f then (if fltMaskable f then 0x10030000 else 0x30000) else 0 := by
  have hdiv : 4 * f / 4 = f := by omega
  rw [rwMask, locOf_aSrc h]
  dsimp only
  rw [if_pos (by omega), hdiv]

theorem w1cMask_aSrc {f : Nat} (h : f < 384) : w1cMask (aSrc f) = 0 := by
  rw [w1cMask, locOf_aSrc h]
  exact if_neg (by omega)

theorem bit_cardWrite_kept {a : Nat} (old v : W) {i : Nat} (hi : i < 32) (hrw : (rwMask a).bit i = false) (hw1c : (w1cMask a).bit i = false) :
    (cardWrite a old v).bit i = old.bit i := by
  rw [cardWrite, W.bit_and, W.bit_or, W.bit_and, W.bit_and, W.bit_not _ hi, W.bit_not _ hi, W.bit_and, hrw, hw1c]
  simp

theorem rwMask_aSrc_kept {f : Nat} (h : f < 384) {i : Nat} (hi : i ∈ [31, 30, 25, 24]) : (rwMask (aSrc f)).bit i = false := by
  rw [rwMask_aSrc h]
  revert i
  split
  · split
    · decide
    · decide
  · decide

theorem Dev.srcPut_only (s : Dev) (f : Nat) (v : W) : s.CardsOnly (s.srcPut f v) ∧ s.Cards (s.srcPut f v) [aSrc f] := by
  unfold Dev.srcPut
  split
  · exact ⟨(Dev.CardsOnly.refl s).wr _ _, (Dev.Cards.refl s _).putCard (List.mem_singleton_self _) v⟩
  · exact ⟨Dev.CardsOnly.refl s, Dev.Cards.refl s _⟩

/-- LIVE, STICKY and LVL are no field of the host. -/
theorem Dev.srcPut_bit (s : Dev) {f : Nat} (h : f < 384) (v : W) {i : Nat} (hi : i ∈ [31, 30, 25, 24]) :
    (s.srcPut f v).bit (aSrc f) i = s.bit (aSrc f) i := by
  have hlt : i < 32 := by
    have hall : ∀ j ∈ [31, 30, 25, 24], j < 32 := by decide
    exact hall i hi
  unfold Dev.srcPut
  split
  · rw [Dev.bit, Dev.rd_putCard_self, bit_cardWrite_kept _ v hlt (rwMask_aSrc_kept h hi) (by rw [w1cMask_aSrc h]; exact BitVec.getLsbD_zero),
      Dev.bit]
  · rfl

/-- The level that FORCE takes. -/
theorem Dev.srcPut_level (s : Dev) {f : Nat} (h : f < 384) (v : W) : (s.srcPut f v).fld (aSrc f) 17 16 =
    if fltNamed f = true ∧ s.sys.mode ≠ .recovery then v.fld 17 16 else s.fld (aSrc f) 17 16 := by
  unfold Dev.srcPut
  by_cases hm : s.sys.mode ≠ .recovery
  · rw [if_pos hm, Dev.fld, Dev.rd_putCard_self]
    cases hn : fltNamed f with
    | true =>
      rw [if_pos ⟨rfl, hm⟩]
      refine fld_cardWrite _ v (fun i hlo hhi => ⟨?_, by rw [w1cMask_aSrc h]; exact BitVec.getLsbD_zero⟩)
      rw [rwMask_aSrc h, hn, if_pos rfl]
      obtain rfl | rfl : i = 16 ∨ i = 17 := by omega
      · split <;> decide
      · split <;> decide
    | false =>
      rw [if_neg (fun hc => Bool.false_ne_true hc.1)]
      refine W.fld_congr (fun i hlo hhi => bit_cardWrite_kept _ v (by omega) ?_ (by rw [w1cMask_aSrc h]; exact BitVec.getLsbD_zero))
      rw [rwMask_aSrc h, hn, if_neg Bool.false_ne_true]
      exact BitVec.getLsbD_zero
  · rw [if_neg hm, if_neg (fun hc => hm hc.2)]

/-! ### The acknowledgement (R48, R292) -/

theorem Dev.ackHost_live {s : Dev} {f : Nat} (h : s.bit (aSrc f) 31 = true) :
    s.ackHost f = s.setBits (aFlt 0xA0C) 0x80000000 := by
  have hack : s.ackSrc f = s.setBits (aFlt 0xA0C) 0x80000000 := if_pos h
  have hsticky : (s.setBits (aFlt 0xA0C) 0x80000000).sticky 0 = s.sticky 0 :=
    Dev.bit_congr (Dev.rd_setBits_of_ne s _ (by unfold aSrc aFlt; omega)) 30
  rw [Dev.ackHost, hack]
  refine if_neg ?_
  rw [hsticky]
  by_cases h0 : f = 0
  · subst h0
    cases s.sticky 0 <;> simp
  · simp [h0]

/-- A source without its condition loses STICKY and LVL; the first one in holdover relocks SCLK. -/
theorem Dev.ackHost_clear {s : Dev} {f : Nat} (h : s.bit (aSrc f) 31 = false) :
    s.ackHost f = if f = 0 ∧ s.sticky 0 = true ∧ s.clk.holdover = true then (s.clrBits (aSrc f) 0x43000000).startRelock
      else s.clrBits (aSrc f) 0x43000000 := by
  have hack : s.ackSrc f = s.clrBits (aSrc f) 0x43000000 := if_neg (by rw [h]; decide)
  have hclear : (s.clrBits (aSrc 0) 0x43000000).sticky 0 = false := by
    rw [Dev.sticky, Dev.bit, Dev.rd_clrBits_self]
    exact W.bit_clear_30 _
  have hhold : (s.clrBits (aSrc f) 0x43000000).clk.holdover = s.clk.holdover := rfl
  rw [Dev.ackHost, hack, hhold]
  by_cases h0 : f = 0
  · subst h0
    rw [hclear]
    cases s.sticky 0 <;> cases s.clk.holdover <;> rfl
  · have hno : ¬(decide (f = 0) && s.sticky f && !(s.clrBits (aSrc f) 0x43000000).sticky 0 && s.clk.holdover) = true := by simp [h0]
    exact (if_neg hno).trans (if_neg (fun hc => h0 hc.1)).symm

/-- What an acknowledgement by the host leaves of a source of the fault table. -/
structure Dev.AckedBy (s : Dev) (f : Nat) (t : Dev) : Prop where
  clear : s.bit (aSrc f) 31 = false → t.sticky f = false ∧ t.lvlOf f = 0
  live  : s.bit (aSrc f) 31 = true → t.sticky f = s.sticky f ∧ t.bit (aFlt 0xA0C) 31 = true
  level : t.fld (aSrc f) 17 16 = s.fld (aSrc f) 17 16
  clk   : t.clk = (if f = 0 ∧ s.sticky 0 = true ∧ s.bit (aSrc 0) 31 = false ∧ s.clk.holdover = true then
    { s.clk with
      locked := false, relock := true, slocked := false, captured := false, again := false, good := 0, miss := 0
      synced := false } else s.clk)
  cards : s.Cards t [aSrc f, aFlt 0xA0C]
  only  : { t with regs := s.regs, clk := s.clk } = s

theorem W.fld_clear_lvl (v : W) : (v &&& ~~~0x43000000).fld 25 24 = 0 := by
  have hbits : ∀ i, 24 ≤ i → i ≤ 25 → (v &&& ~~~(0x43000000 : W)).bit i = (0 : W).bit i := fun i hlo hhi => by
    rw [W.bit_and, W.bit_not _ (by omega)]
    obtain rfl | rfl : i = 24 ∨ i = 25 := by omega
    · exact Bool.and_false _
    · exact Bool.and_false _
  exact W.fld_congr hbits

theorem W.fld_clear_level (v : W) : (v &&& ~~~0x43000000).fld 17 16 = v.fld 17 16 := by
  refine W.fld_congr (fun i hlo hhi => ?_)
  rw [W.bit_and, W.bit_not _ (by omega)]
  obtain rfl | rfl : i = 16 ∨ i = 17 := by omega
  · exact Bool.and_true _
  · exact Bool.and_true _

theorem Dev.ackHost_acked (s : Dev) (f : Nat) (hf : f < 384) : Dev.AckedBy s f (s.ackHost f) := by
  have hne : aSrc f ≠ aFlt 0xA0C := by unfold aSrc aFlt; omega
  cases hlive : s.bit (aSrc f) 31 with
  | true =>
    rw [Dev.ackHost_live hlive]
    have hrd := Dev.rd_setBits_of_ne s 0x80000000 hne
    have hbit := Dev.bit_setBits_self s (aFlt 0xA0C) (m := 0x80000000) 31 (by decide)
    have hcards := (Dev.Cards.refl s [aSrc f, aFlt 0xA0C]).setBits (a := aFlt 0xA0C) (by simp) 0x80000000
    obtain ⟨r, hr⟩ := (Dev.CardsOnly.refl s).setBits (aFlt 0xA0C) 0x80000000
    generalize s.setBits (aFlt 0xA0C) 0x80000000 = t at hrd hbit hcards hr
    refine
      { clear := fun h => absurd (hlive.symm.trans h) (by decide), live := fun _ => ⟨Dev.bit_congr hrd 30, hbit⟩
        level := Dev.fld_congr hrd 17 16, clk := ?_, cards := hcards, only := by rw [hr] }
    rw [hr, if_neg]
    rintro ⟨rfl, _, h, _⟩
    rw [hlive] at h
    cases h
  | false =>
    rw [Dev.ackHost_clear hlive]
    have hrd := Dev.rd_clrBits_self s (aSrc f) 0x43000000
    have hcards := (Dev.Cards.refl s [aSrc f, aFlt 0xA0C]).clrBits (a := aSrc f) (by simp) 0x43000000
    obtain ⟨r, hr⟩ : s.CardsOnly (s.clrBits (aSrc f) 0x43000000) := (Dev.CardsOnly.refl s).wr _ _
    generalize s.clrBits (aSrc f) 0x43000000 = t at hrd hcards hr ⊢
    have hsticky : t.sticky f = false := (congrArg (fun w : W => w.bit 30) hrd).trans (W.bit_clear_30 _)
    have hlvl : t.lvlOf f = 0 := (congrArg (fun w : W => w.fld 25 24) hrd).trans (W.fld_clear_lvl _)
    have hlevel : t.fld (aSrc f) 17 16 = s.fld (aSrc f) 17 16 := (congrArg (fun w : W => w.fld 17 16) hrd).trans (W.fld_clear_level _)
    have hcond : (f = 0 ∧ s.sticky 0 = true ∧ s.bit (aSrc 0) 31 = false ∧ s.clk.holdover = true) ↔
        (f = 0 ∧ s.sticky 0 = true ∧ s.clk.holdover = true) :=
      ⟨fun h => ⟨h.1, h.2.1, h.2.2.2⟩, fun h => ⟨h.1, h.2.1, by rw [← h.1]; exact hlive, h.2.2⟩⟩
    by_cases hre : f = 0 ∧ s.sticky 0 = true ∧ s.clk.holdover = true
    · rw [if_pos hre]
      exact
        { clear := fun _ => ⟨hsticky, hlvl⟩, live := fun h => absurd (hlive.symm.trans h) (by decide), level := hlevel
          clk := by rw [if_pos (hcond.mpr hre), hr]; rfl, cards := hcards, only := by rw [hr]; rfl }
    · rw [if_neg hre]
      exact
        { clear := fun _ => ⟨hsticky, hlvl⟩, live := fun h => absurd (hlive.symm.trans h) (by decide), level := hlevel
          clk := by rw [if_neg (fun h => hre (hcond.mp h)), hr], cards := hcards, only := by rw [hr] }

end Sys2Proof.Machine
end

section
/-! PROOFS. The acknowledgement and FORCE of a source as commands (R48, R292, R295, R296). -/

namespace Sys2Proof.Machine

/-- The fields and the acknowledgement of a write, before FORCE. -/
def Dev.srcAcked (s : Dev) (f : Nat) (v : W) : Dev :=
  if v.bit 30 && fltNamed f then (s.srcPut f v).ackHost f else s.srcPut f v

theorem Dev.srcWrite_eq (s : Dev) (f : Nat) (v : W) : s.srcWrite f v =
    if decide (s.sys.mode ≠ .recovery) && v.bit 29 then (s.srcAcked f v).forceSrc f else s.srcAcked f v := by
  unfold Dev.srcWrite Dev.srcAcked Dev.srcPut
  by_cases hm : s.sys.mode ≠ .recovery
  · simp only [hm, decide_true, if_true]
  · simp only [hm, decide_false, Bool.false_and, if_false]

/-- Of the sources, a write changes its own card. -/
theorem Dev.srcAcked_only (s : Dev) {f : Nat} (hf : f < 384) (v : W) :
    s.Cards (s.srcAcked f v) [aSrc f, aFlt 0xA0C] ∧ { s.srcAcked f v with regs := s.regs, clk := s.clk } = s := by
  obtain ⟨⟨r, hr⟩, hcards⟩ := s.srcPut_only f v
  have hput : s.Cards (s.srcPut f v) [aSrc f, aFlt 0xA0C] := hcards.mono (by simp)
  unfold Dev.srcAcked
  split
  · have hack := (s.srcPut f v).ackHost_acked f hf
    refine ⟨hput.trans hack.cards, ?_⟩
    have honly := congrArg (fun d : Dev => { d with regs := s.regs, clk := s.clk }) hack.only
    exact honly.trans (by rw [hr])
  · exact ⟨hput, by rw [hr]⟩

/-- Rest of a frame of cards and clock. -/
theorem Dev.srcAcked_sys (s : Dev) {f : Nat} (hf : f < 384) (v : W) :
    (s.srcAcked f v).sys = s.sys ∧ (s.srcAcked f v).sites = s.sites ∧ (s.srcAcked f v).flt = s.flt := by
  obtain ⟨-, honly⟩ := s.srcAcked_only hf v
  have hsys := congrArg Dev.sys honly
  have hsites := congrArg Dev.sites honly
  have hflt := congrArg Dev.flt honly
  exact ⟨hsys, hsites, hflt⟩

theorem Dev.srcAcked_level (s : Dev) {f : Nat} (hf : f < 384) (v : W) :
    (s.srcAcked f v).fld (aSrc f) 17 16 = (s.srcPut f v).fld (aSrc f) 17 16 := by
  unfold Dev.srcAcked
  split
  · exact ((s.srcPut f v).ackHost_acked f hf).level
  · rfl

/-- A write leaves STICKY and LVL of a source, or clears STICKY. -/
theorem Dev.srcAcked_sticky (s : Dev) {f g : Nat} (hf : f < 384) (hg : g < 384) (v : W) :
    (s.srcAcked f v).sticky g = false ∨
      ((s.srcAcked f v).sticky g = s.sticky g ∧ (s.srcAcked f v).lvlOf g = s.lvlOf g) := by
  have hput : (s.srcPut f v).sticky g = s.sticky g ∧ (s.srcPut f v).lvlOf g = s.lvlOf g := by
    by_cases hgf : g = f
    · subst hgf
      refine ⟨s.srcPut_bit hg v (by simp), W.fld_congr (fun i hlo hhi => ?_)⟩
      exact s.srcPut_bit hg v (by simp only [List.mem_cons, List.not_mem_nil, or_false]; omega)
    · have hrd : (s.srcPut f v).rd (aSrc g) = s.rd (aSrc g) :=
        (s.srcPut_only f v).2 _ (by rw [List.mem_singleton]; unfold aSrc aFlt; omega)
      exact ⟨Dev.bit_congr hrd 30, Dev.fld_congr hrd 25 24⟩
  unfold Dev.srcAcked
  split
  · have hrd := (s.srcPut f v).rd_ackHost_src f hg
    by_cases hc : g = f ∧ (s.srcPut f v).bit (aSrc f) 31 = false
    · rw [if_pos hc] at hrd
      exact .inl ((congrArg (fun w : W => w.bit 30) hrd).trans (W.bit_clear_30 _))
    · rw [if_neg hc] at hrd
      exact .inr ⟨(Dev.bit_congr hrd 30).trans hput.1, (Dev.fld_congr hrd 25 24).trans hput.2⟩
  · exact .inr hput

/-- A clean class stays clean. -/
theorem Dev.Clean.srcAcked {s : Dev} {f x : Nat} (hf : f < 384) (hx : x < 12) (hc : s.Clean x) (v : W) : (s.srcAcked f v).Clean x := by
  obtain ⟨-, -, hflt⟩ := s.srcAcked_sys hf v
  refine ⟨?_, by rw [hflt]; exact hc.alone⟩
  have hacked := hc.acked
  rw [Dev.unackAt] at hacked ⊢
  rw [hflt]
  cases ht : s.flt.tick with
  | some l =>
    rw [ht] at hacked
    exact hacked
  | none =>
    rw [ht] at hacked
    have hnone : s.unack x = false := hacked
    show (s.srcAcked f v).unack x = false
    rw [Dev.unack, List.any_eq_false] at hnone ⊢
    intro n hn hboth
    have hg : 32 * x + n < 384 := by have := List.mem_range.mp hn; omega
    obtain ⟨hs, hl⟩ := (Bool.and_eq_true_iff).mp hboth
    rcases s.srcAcked_sticky hf hg v with h | ⟨h, h'⟩
    · rw [h] at hs
      cases hs
    · rw [h] at hs
      rw [h'] at hl
      exact hnone n hn (Bool.and_eq_true_iff.mpr ⟨hs, hl⟩)

/-! ### The acknowledgement -/

theorem Dev.forced_recovery {s : Dev} (h : s.sys.mode = .recovery) (l : List (Nat × W)) : s.forced l = s := by
  rw [Dev.forced]
  exact if_pos (by rw [h]; simp)

theorem faultAck_acts {s : State} {h : Hdr} {v : W} {f : Fin 384} (hadm : s.Admits h (aSrc f) v) (h30 : v.bit 30 = true)
    (hno : v.bit 29 = false ∨ s.sys.mode = .recovery) :
    ∃ t : Dev, (exec (.faultAck h f v) s = .next { s with toDev := t } ∧ t.AnswersMem h false 0 1 0 []) ∧
      (fltNamed f = true → s.bit (aSrc f) 31 = false → t.sticky f = false ∧ t.lvlOf f = 0) ∧
      (fltNamed f = true → s.bit (aSrc f) 31 = true → t.sticky f = s.sticky f ∧ t.bit (aFlt 0xA0C) 31 = true) ∧
      t.fld (aSrc f) 17 16 = (if fltNamed f = true ∧ s.sys.mode ≠ .recovery then v.fld 17 16 else s.fld (aSrc f) 17 16) ∧
      t.clk = (if f.val = 0 ∧ s.sticky 0 = true ∧ s.bit (aSrc 0) 31 = false ∧ s.clk.holdover = true then
          { s.clk with
            locked := false, relock := true, slocked := false, captured := false, again := false, good := 0, miss := 0
            synced := false } else s.clk) ∧
      s.Cards t [aSrc f, aFlt 0xA0C] ∧ { t with regs := s.regs, links := s.links, clk := s.clk } = s.toDev := by
  have hf := f.isLt
  obtain ⟨l, m, hexec, hans⟩ := exec_srcWrite hf (c := .faultAck h f v) rfl hadm
  have hwrite : (s.relinked l).srcWrite f v = (s.relinked l).srcAcked f v := by
    rw [Dev.srcWrite_eq]
    refine if_neg ?_
    rcases hno with h29 | hm
    · rw [h29, Bool.and_false]
      exact Bool.false_ne_true
    · have hm' : (s.relinked l).sys.mode = .recovery := hm
      rw [hm']
      exact Bool.false_ne_true
  obtain ⟨hcards, honly⟩ := (s.relinked l).srcAcked_only hf v
  obtain ⟨hsys, -, -⟩ := (s.relinked l).srcAcked_sys hf v
  have hlevel := ((s.relinked l).srcAcked_level hf v).trans ((s.relinked l).srcPut_level hf v)
  have hput31 := (s.relinked l).srcPut_bit hf v (i := 31) (by simp)
  have hput30 := (s.relinked l).srcPut_bit hf v (i := 30) (by simp)
  have hnamed : fltNamed f = true → Dev.AckedBy ((s.relinked l).srcPut f v) f ((s.relinked l).srcAcked f v) := fun hn => by
    rw [Dev.srcAcked, h30, hn]
    exact ((s.relinked l).srcPut f v).ackHost_acked f hf
  obtain ⟨⟨r, hr⟩, -⟩ := (s.relinked l).srcPut_only f v
  have hclk : ((s.relinked l).srcPut f v).clk = s.clk := by rw [hr]; rfl
  have hplain : fltNamed f = false → ((s.relinked l).srcAcked f v).clk = s.clk := fun hn => by
    rw [Dev.srcAcked, hn, Bool.and_false, if_neg Bool.false_ne_true, hclk]
  have hzero : f.val = 0 → fltNamed f = true := fun h0 => by
    rw [h0]
    decide
  rw [hwrite] at hexec hans
  generalize (s.relinked l).srcAcked f v = t at hexec hans hcards honly hsys hlevel hnamed hplain
  have hquiet : (t.relinked m).forced [(aSrc f, v)] = t.relinked m := by
    rcases hno with h29 | hm
    · refine Dev.forced_of_none ?_
      rw [List.filterMap_cons, forcedBy_aSrc hf, h29, Bool.false_and, if_neg Bool.false_ne_true]
      rfl
    · refine Dev.forced_recovery (s := t.relinked m) ?_ _
      have hmode : t.sys.mode = s.sys.mode := congrArg Sys.mode hsys
      exact hmode.trans hm
  rw [hquiet] at hexec
  have honly' := congrArg (fun d : Dev => { d with links := s.links }) honly
  refine ⟨_, ⟨hexec, hans⟩, fun hn hl => (hnamed hn).clear (hput31.trans hl),
    fun hn hl => ⟨((hnamed hn).live (hput31.trans hl)).1.trans hput30, ((hnamed hn).live (hput31.trans hl)).2⟩, hlevel, ?_, hcards, honly'⟩
  cases hn : fltNamed f with
  | false =>
    rw [if_neg (fun hc => by rw [hzero hc.1] at hn; cases hn)]
    exact hplain hn
  | true =>
    refine (hnamed hn).clk.trans ?_
    by_cases h0 : f.val = 0
    · rw [h0] at hput31 hput30 ⊢
      have hsticky : ((s.relinked l).srcPut 0 v).sticky 0 = s.sticky 0 := hput30
      have hlive : ((s.relinked l).srcPut 0 v).bit (aSrc 0) 31 = s.bit (aSrc 0) 31 := hput31
      rw [h0] at hclk
      rw [hsticky, hlive, hclk]
    · rw [if_neg (fun hc => h0 hc.1), if_neg (fun hc => h0 hc.1)]
      exact hclk

/-! ### FORCE -/

/-- A mode that admits a write of a source is not RESET. -/
theorem admits_src_not_reset {s : Dev} {h : Hdr} {f : Nat} {v : W} (hf : f < 384) (hadm : s.Admits h (aSrc f) v) :
    s.sys.mode ≠ .reset := by
  intro hm
  have hok := hadm.mode
  unfold Dev.modeOk at hok
  rw [hm, wclass, locOf_aSrc hf] at hok
  dsimp only at hok
  have hroute : isRoute (aSrc f) = false := by rw [isRoute, locOf_aSrc hf]
  rw [hroute] at hok
  revert hok
  split
  · decide
  · simp [WClass.mayWrite, Mode.idleOrWorking]

/-- The occurrence that a write of a source forces. -/
def Dev.forceOf (s : Dev) (f : Nat) (v : W) : Raise :=
  { f := f, lvl := v.fld 17 16, sites := if s.bit (aFlt 0xA08) 31 then [s.fld (aFlt 0xA08) 7 0] else [], unit := 0, forced := true }

/-- A write with FORCE of a named source, outside RECOVERY, raises it at the level it wrote. -/
theorem Dev.forced_named {d s : Dev} {f : Nat} (hf : f < 384) {v : W} (h29 : v.bit 29 = true) (hn : fltNamed f = true)
    (hm : d.sys.mode ≠ .recovery) (haim : d.rd (aFlt 0xA08) = s.rd (aFlt 0xA08)) (hlevel : d.fld (aSrc f) 17 16 = v.fld 17 16) :
    d.forced [(aSrc f, v)] = d.raise (s.forceOf f v) := by
  have hlist : [(aSrc f, v)].filterMap (fun x => forcedBy x.1 x.2) = [f] := by
    rw [List.filterMap_cons, forcedBy_aSrc hf, h29, hn]
    rfl
  rw [Dev.forced, hlist]
  refine (if_neg (by simp [hm])).trans ?_
  rw [Dev.raise, Dev.forceOf, ← hlevel, ← Dev.bit_congr haim 31, ← Dev.fld_congr haim 7 0]
  rfl

theorem Dev.srcPut_unnamed (s : Dev) {f : Nat} (hf : f < 384) (v : W) (hn : fltNamed f = false) :
    (s.srcPut f v).rd (aSrc f) = s.rd (aSrc f) := by
  unfold Dev.srcPut
  split
  · rw [Dev.rd_putCard_self]
    refine W.ext_bit (fun i hi => bit_cardWrite_kept _ v hi ?_ (by rw [w1cMask_aSrc hf]; exact BitVec.getLsbD_zero))
    rw [rwMask_aSrc hf, hn, if_neg Bool.false_ne_true]
    exact BitVec.getLsbD_zero
  · rfl

theorem faultForce_named {s : State} {h : Hdr} {v : W} {f : Fin 384} (hadm : s.Admits h (aSrc f) v) (hm : s.sys.mode ≠ .recovery)
    (h29 : v.bit 29 = true) (hn : fltNamed f = true) :
    ∃ t : Dev, (exec (.faultForce h f v) s = .next { s with toDev := t } ∧ t.AnswersMem h false 0 1 0 []) ∧
      t.sticky f = true ∧ (v.fld 17 16 = 3 → t.sys.mode = .safe) ∧
      (v.fld 17 16 = 2 → s.Clean (f / 32) →
        s.Voids t (causeBit f) (if s.bit (aFlt 0xA08) 31 then [s.fld (aFlt 0xA08) 7 0] else [])) := by
  have hf := f.isLt
  have hreset := admits_src_not_reset hf hadm
  obtain ⟨l, m, hexec, hans⟩ := exec_srcWrite hf (c := .faultForce h f v) rfl hadm
  have hwrite : (s.relinked l).srcWrite f v = (s.relinked l).srcAcked f v := by
    rw [Dev.srcWrite_eq, Dev.forceSrc, hn, if_pos rfl]
    split <;> rfl
  obtain ⟨hcards, -⟩ := (s.relinked l).srcAcked_only hf v
  obtain ⟨hsys, hsites, -⟩ := (s.relinked l).srcAcked_sys hf v
  have hlevel := ((s.relinked l).srcAcked_level hf v).trans ((s.relinked l).srcPut_level hf v)
  have hclean := fun hc : s.Clean (f / 32) => Dev.Clean.srcAcked (s := s.relinked l) (x := f / 32) hf (by omega) ⟨hc.acked, hc.alone⟩ v
  rw [if_pos ⟨hn, hm⟩] at hlevel
  rw [hwrite] at hexec hans
  have haim : aFlt 0xA08 ∉ [aSrc f, aFlt 0xA0C] := by
    simp only [List.mem_cons, List.not_mem_nil, or_false, not_or]
    unfold aSrc aFlt
    omega
  generalize (s.relinked l).srcAcked f v = t at hexec hans hcards hsys hsites hlevel hclean
  have hmode : t.sys.mode = s.sys.mode := congrArg Sys.mode hsys
  rw [Dev.forced_named (d := t.relinked m) (s := s.toDev) hf h29 hn (by rw [← hmode] at hm; exact hm) (hcards _ haim) hlevel] at hexec
  have hsay := Dev.StillSays.raise (r := s.forceOf f v) hf rfl (t.relinked m)
  refine ⟨_, ⟨hexec, fun k hk => hsay _ (hans k hk)⟩, Dev.sticky_raise (t.relinked m) (r := s.forceOf f v) hf, fun h3 => ?_, fun h2 hc => ?_⟩
  · refine Dev.raise_safe (r := s.forceOf f v) hf rfl (Nat.le_of_eq h3.symm) ?_
    have : (t.relinked m).sys.mode = s.sys.mode := hmode
    rw [this]
    exact hreset
  · have hvoids := Dev.raise_voids (s := t.relinked m) (r := s.forceOf f v) hf rfl ⟨(hclean hc).acked, (hclean hc).alone⟩ h2
    have hsite : ∀ i, (t.relinked m).site i = s.site i := fun i => congrArg (fun x : Tab Site => x.get (fun _ => siteInit) i) hsites
    exact
      { mode := hvoids.mode.trans hmode
        noted := fun i hi => by
          have h := hvoids.noted i hi
          rw [hsite] at h
          exact h
        others := fun i hi => (hvoids.others i hi).trans (hsite i) }

theorem faultForce_unnamed {s : State} {h : Hdr} {v : W} {f : Fin 384} (hadm : s.Admits h (aSrc f) v) (hm : s.sys.mode ≠ .recovery)
    (h29 : v.bit 29 = true) (hn : fltNamed f = false) :
    ∃ t : Dev, (exec (.faultForce h f v) s = .next { s with toDev := t } ∧ t.AnswersMem h false 0 1 0 []) ∧
      t.bit (aFlt 0xA0C) 30 = true ∧ s.Cards t [aFlt 0xA0C] ∧ { t with regs := s.regs, links := s.links } = s.toDev := by
  have hf := f.isLt
  obtain ⟨l, m, hexec, hans⟩ := exec_srcWrite hf (c := .faultForce h f v) rfl hadm
  have hwrite : (s.relinked l).srcWrite f v = ((s.relinked l).srcPut f v).setBits (aFlt 0xA0C) 0x40000000 := by
    have hmode : (s.relinked l).sys.mode ≠ .recovery := hm
    rw [Dev.srcWrite_eq, decide_eq_true hmode, h29, Bool.and_self, if_pos rfl, Dev.forceSrc, hn, Dev.srcAcked, hn, Bool.and_false]
    rfl
  obtain ⟨⟨r, hr⟩, hcards⟩ := (s.relinked l).srcPut_only f v
  have hsame := (s.relinked l).srcPut_unnamed hf v hn
  rw [hwrite] at hexec hans
  generalize (s.relinked l).srcPut f v = d at hexec hans hr hcards hsame
  have hbit := Dev.bit_setBits_self d (aFlt 0xA0C) (m := 0x40000000) 30 (by decide)
  have hset := (Dev.Cards.refl d [aFlt 0xA0C]).setBits (List.mem_singleton_self _) 0x40000000
  obtain ⟨r', hr'⟩ := (Dev.CardsOnly.refl d).setBits (aFlt 0xA0C) 0x40000000
  generalize d.setBits (aFlt 0xA0C) 0x40000000 = t at hexec hans hbit hset hr'
  have hquiet : (t.relinked m).forced [(aSrc f, v)] = t.relinked m := by
    refine Dev.forced_of_none ?_
    rw [List.filterMap_cons, forcedBy_aSrc hf, hn, Bool.and_false, if_neg Bool.false_ne_true]
    rfl
  rw [hquiet] at hexec
  refine ⟨_, ⟨hexec, hans⟩, hbit, fun a ha => (hset a ha).trans ?_, ?_⟩
  · by_cases haf : a = aSrc f
    · rw [haf]
      exact hsame
    · exact hcards a (by rw [List.mem_singleton]; exact haf)
  · rw [hr', hr]
    rfl

end Sys2Proof.Machine
end

section
/-! PROOFS. Route registers under a write of the host, and the registers of the units together (R275-R288). -/

namespace Sys2Proof.Machine

/-! ### Route addresses (R285, R288) -/

/-- Word alignment of a register of a sluice line or consumer is that of its address. -/
def Loc.alignedAs (a : Nat) : Loc → Prop
  | .slc o => o % 4 = a % 4
  | .quad _ o => o % 4 = a % 4
  | .ch _ o => o % 4 = a % 4
  | _ => True

theorem Loc.alignedAs_ite {a : Nat} {p : Prop} [Decidable p] {x y : Loc} (hx : p → x.alignedAs a) (hy : ¬p → y.alignedAs a) :
    (if p then x else y).alignedAs a := by
  split
  next h => exact hx h
  next h => exact hy h

theorem locOf_alignedAs (a : Nat) : (locOf a).alignedAs a := by
  have hslc : ¬a < 0x40000 → (Loc.slc (a - 0x40000)).alignedAs a := fun h => by
    rw [Loc.alignedAs]
    omega
  have hquads : (if a % 0x4000 < 0x2800 then Loc.ch (5 * ((a - 0x2000000) / 0x4000) + a % 0x4000 / 0x800) (a % 0x4000 % 0x800)
      else Loc.quad ((a - 0x2000000) / 0x4000) (a % 0x4000 - 0x2800)).alignedAs a :=
    Loc.alignedAs_ite (fun _ => by rw [Loc.alignedAs]; omega) (fun _ => by rw [Loc.alignedAs]; omega)
  have hplys : (if 0xC00 ≤ a % 0x1000 ∧ a % 0x1000 < 0xD00 then Loc.ts ((a % 0x1000 - 0xC00) / 4)
      else if 0xE00 ≤ a % 0x1000 ∧ a % 0x1000 < 0xF00 then Loc.cisReg (a % 0x1000 - 0xE00)
      else Loc.ply ((a - 0x3000000) / 0x1000) (a % 0x1000)).alignedAs a :=
    Loc.alignedAs_ite (fun _ => trivial) (fun _ => Loc.alignedAs_ite (fun _ => trivial) (fun _ => trivial))
  unfold locOf
  iterate 4 refine Loc.alignedAs_ite (fun _ => trivial) (fun hge => ?_)
  refine Loc.alignedAs_ite (fun _ => hslc hge) (fun _ => ?_)
  iterate 5 refine Loc.alignedAs_ite (fun _ => trivial) (fun _ => ?_)
  refine Loc.alignedAs_ite (fun _ => hquads) (fun _ => ?_)
  refine Loc.alignedAs_ite (fun _ => trivial) (fun _ => ?_)
  refine Loc.alignedAs_ite (fun _ => hplys) (fun _ => ?_)
  iterate 16 refine Loc.alignedAs_ite (fun _ => trivial) (fun _ => ?_)
  exact trivial

theorem isRoute_spec {a : Nat} (h : isRoute a = true) : a % 4 = 0 ∧ wclass a = .load := by
  have hal := locOf_alignedAs a
  rw [isRoute] at h
  rw [wclass]
  cases hloc : locOf a with
  | slc o =>
    rw [hloc] at h hal
    refine ⟨?_, rfl⟩
    simp only [Loc.alignedAs] at hal
    simp only [Bool.or_eq_true, Bool.and_eq_true, decide_eq_true_eq] at h
    omega
  | quad q o =>
    rw [hloc] at h hal
    simp only [Loc.alignedAs] at hal
    simp only [Bool.or_eq_true, Bool.and_eq_true, decide_eq_true_eq] at h
    dsimp only
    refine ⟨by omega, ?_⟩
    rw [if_neg (by omega), if_neg (by omega), if_neg (by omega)]
  | ch c o =>
    rw [hloc] at h hal
    refine ⟨?_, rfl⟩
    simp only [Loc.alignedAs] at hal
    simp only [Bool.or_eq_true, Bool.and_eq_true, decide_eq_true_eq] at h
    omega
  | _ => rw [hloc] at h; cases h

theorem isRoute_ne_status {a : Nat} (h : isRoute a = true) : a ≠ aSlc 0x1024 := by
  rintro rfl
  revert h
  decide

theorem Dev.modeRej_route (s : Dev) {a : Nat} (h : isRoute a = true) : s.modeRej a = s := by
  rw [Dev.modeRej, (isRoute_spec h).2]
  split <;> rfl

/-! ### What is captured before the edge (R279, R285) -/

theorem Dev.incSat_relinked (s : Dev) (a hi lo : Nat) (m : Tab Link) :
    (s.relinked m).incSat a hi lo = (s.incSat a hi lo).relinked m := rfl

theorem Dev.countLine_relinked (s : Dev) (l : Line) (b : Bool) (m : Tab Link) :
    (s.relinked m).countLine l b = (s.countLine l b).relinked m := by
  cases l with
  | loc q n => rfl
  | global n =>
    cases b
    · exact Dev.incSat_relinked s _ _ _ m
    · exact Dev.incSat_relinked s _ _ _ m

theorem Dev.fireLine_relinked (s : Dev) (l : Line) (x tag : Nat) (b : Block) (tb : Option Nat) (m : Tab Link) :
    (s.relinked m).fireLine l x tag b tb = (s.fireLine l x tag b tb).relinked m := by
  have hgate : (s.relinked m).gateOpen l x = s.gateOpen l x := rfl
  have hslc : (s.relinked m).slc = s.slc := rfl
  have hsys : (s.relinked m).sys = s.sys := rfl
  unfold Dev.fireLine
  rw [hgate, hslc, hsys]
  split
  · rfl
  · split
    · exact Dev.countLine_relinked s l false m
    · split
      · rfl
      · dsimp only
        rw [Dev.countLine_relinked]
        rfl

/-- What does not read the links goes on beside them. -/
theorem forL_relinked {α : Type} {f : α → Dev → Dev} (hf : ∀ a s m, f a (Dev.relinked s m) = (f a s).relinked m) (l : List α) :
    ∀ (s : Dev) (m : Tab Link), forL l f (s.relinked m) = (forL l f s).relinked m := by
  induction l with
  | nil => intro s m; rfl
  | cons a r ih =>
    intro s m
    have h : forL (a :: r) f (s.relinked m) = forL r f (f a (s.relinked m)) := rfl
    rw [h, hf]
    exact ih _ m

theorem Dev.capture_relinked (s : Dev) (c : Coming) (m : Tab Link) : (s.relinked m).capture c = (s.capture c).relinked m := by
  unfold Dev.capture
  cases c.mouth with
  | emit l => exact s.fireLine_relinked l _ _ _ _ m
  | prod p =>
    have hlines : (s.relinked m).linesOf p = s.linesOf p := rfl
    dsimp only
    rw [Dev.produce, Dev.produce, hlines]
    exact forL_relinked (fun l s m => s.fireLine_relinked l _ _ _ _ m) _ s m

theorem Dev.capturesTo_relinked (s : Dev) (x : Nat) (m : Tab Link) : (s.relinked m).capturesTo x = (s.capturesTo x).relinked m :=
  forL_relinked (fun c s m => s.capture_relinked c m) _ { s with slc := { s.slc with coming := s.slc.coming.filter (fun c => x ≤ c.edge) } } m

/-- A capture touches the cards and the sluice, of which the writes of the edge stand. -/
def Dev.Captured (s t : Dev) : Prop := ∃ r f c, t = { s with regs := r, slc := { s.slc with flights := f, coming := c } }

theorem Dev.Captured.trans {s t u : Dev} (h : s.Captured t) (k : t.Captured u) : s.Captured u := by
  obtain ⟨_, _, _, rfl⟩ := h
  obtain ⟨r, f, c, rfl⟩ := k
  exact ⟨r, f, c, rfl⟩

theorem Dev.captured_countLine (s : Dev) (l : Line) (b : Bool) : s.Captured (s.countLine l b) := by
  cases l <;> cases b <;> exact ⟨_, _, _, rfl⟩

theorem Dev.captured_fireLine (s : Dev) (l : Line) (x tag : Nat) (b : Block) (tb : Option Nat) : s.Captured (s.fireLine l x tag b tb) := by
  unfold Dev.fireLine
  split
  · exact ⟨_, _, _, rfl⟩
  · split
    · exact s.captured_countLine l false
    · split
      · exact ⟨_, _, _, rfl⟩
      · exact (s.captured_countLine l true).trans ⟨_, _, _, rfl⟩

theorem Dev.captured_capture (s : Dev) (c : Coming) : s.Captured (s.capture c) := by
  unfold Dev.capture
  cases c.mouth with
  | emit l => exact s.captured_fireLine l _ _ _ _
  | prod p =>
    exact forL_keeps (I := s.Captured) (fun l _ t h => h.trans (t.captured_fireLine l _ _ _ _)) ⟨_, _, _, rfl⟩

theorem Dev.captured_capturesTo (s : Dev) (x : Nat) : s.Captured (s.capturesTo x) :=
  forL_keeps (I := s.Captured) (fun c _ t h => h.trans (t.captured_capture c)) ⟨_, _, _, rfl⟩

/-- With nothing to come before the edge, nothing is captured. -/
theorem Dev.capturesTo_of_none {s : Dev} {x : Nat} (h : ∀ y, y ∈ s.slc.coming → x ≤ y.edge) : s.capturesTo x = s := by
  have hdue : s.slc.coming.filter (fun c => decide (c.edge < x)) = [] :=
    List.filter_eq_nil_iff.mpr (fun c hc => by simpa using h c hc)
  have hrest : s.slc.coming.filter (fun c => decide (x ≤ c.edge)) = s.slc.coming :=
    List.filter_eq_self.mpr (fun c hc => decide_eq_true (h c hc))
  unfold Dev.capturesTo
  rw [hdue, hrest, List.mergeSort_nil]
  rfl

end Sys2Proof.Machine
end

section
/-! PROOFS. A route register takes a value (R276, R285-R287), and the registers of the units together (R78-R81, R121-R125, R229,
R263, R275-R297). -/

namespace Sys2Proof.Machine

/-! ### Storing and counting -/

/-- What a route register's store leaves of the cards. -/
structure Dev.Routed (s : Dev) (a : Nat) (v : W) (t : Dev) : Prop where
  taken   : (lineOfSrc a).all (fun l => srcOk l (v &&& rwMask a)) = true → t.rd a = v &&& rwMask a
  refused : (lineOfSrc a).all (fun l => srcOk l (v &&& rwMask a)) = false →
    t.fld a 19 16 = 0 ∧ t.bit (aSlc 0x1024) 30 = true
  count   : t.fld (aSlc 0x1024) 15 0 = s.fld (aSlc 0x1024) 15 0
  cards   : s.Cards t [a, aSlc 0x1024]
  only    : s.CardsOnly t

theorem Dev.routeStore_routed (s : Dev) {a : Nat} (ha : a ≠ aSlc 0x1024) (v : W) : Dev.Routed s a v (s.routeStore a v) := by
  have hplain : ∀ w : W, s.Cards (s.wr a w) [a, aSlc 0x1024] ∧ s.CardsOnly (s.wr a w) ∧ (s.wr a w).rd a = w ∧
      (s.wr a w).rd (aSlc 0x1024) = s.rd (aSlc 0x1024) := fun w =>
    ⟨(Dev.Cards.refl s _).wr (by simp) w, (Dev.CardsOnly.refl s).wr a w, Dev.rd_wr_self s a w, Dev.rd_wr_of_ne s ha.symm w⟩
  have htaken : (lineOfSrc a).all (fun l => srcOk l (v &&& rwMask a)) = true →
      Dev.Routed s a v (s.wr a (v &&& rwMask a)) := fun hok => by
    obtain ⟨hcards, honly, hself, hstatus⟩ := hplain (v &&& rwMask a)
    exact
      { taken := fun _ => hself, refused := fun h => absurd (hok.symm.trans h) (by decide)
        count := Dev.fld_congr hstatus 15 0, cards := hcards, only := honly }
  unfold Dev.routeStore
  cases hl : lineOfSrc a with
  | none =>
    rw [hl] at htaken
    exact htaken rfl
  | some l =>
    rw [hl] at htaken
    dsimp only
    cases hok : srcOk l (v &&& rwMask a) with
    | true =>
      rw [if_pos rfl]
      exact htaken hok
    | false =>
      obtain ⟨hcards, honly, hself, hstatus⟩ := hplain ((v &&& rwMask a).put 19 16 0)
      rw [if_neg Bool.false_ne_true]
      generalize s.wr a ((v &&& rwMask a).put 19 16 0) = d at hcards honly hself hstatus
      have hrd := Dev.rd_setBits_of_ne d 0x40000000 ha
      have hbit := Dev.bit_setBits_self d (aSlc 0x1024) (m := 0x40000000) 30 (by decide)
      have hlow : (d.setBits (aSlc 0x1024) 0x40000000).fld (aSlc 0x1024) 15 0 = d.fld (aSlc 0x1024) 15 0 := by
        rw [Dev.fld, Dev.rd_setBits_self]
        exact W.fld_congr (fun i _ hi => by
          have hmask : ∀ i, i ≤ 15 → (0x40000000 : W).bit i = false := by decide
          rw [W.bit_or, hmask i hi, Bool.or_false])
      refine
        { taken := fun h => ?_, refused := fun _ => ⟨?_, hbit⟩, count := hlow.trans (Dev.fld_congr hstatus 15 0)
          cards := hcards.setBits (by simp) _, only := honly.setBits _ _ }
      · rw [hl] at h
        exact absurd (hok.symm.trans h) (by decide)
      · exact ((Dev.fld_congr hrd 19 16).trans (congrArg (fun w : W => w.fld 19 16) hself)).trans
          (W.fld_put_self _ (by decide) (by decide) 0)

/-- A counted write: the count, and LIVE_WR while a step is open (R287). -/
structure Dev.RouteCounted (s t : Dev) : Prop where
  count  : t.fld (aSlc 0x1024) 15 0 = min (s.fld (aSlc 0x1024) 15 0 + 1) 65535
  rej    : t.bit (aSlc 0x1024) 30 = s.bit (aSlc 0x1024) 30
  writes : t.slc.writes = s.slc.writes + 1
  live   : s.anyStepOpen = true → t.bit (aSlc 0x1024) 31 = true
  cards  : s.Cards t [aSlc 0x1024]
  only   : { t with regs := s.regs, slc := s.slc } = s

theorem Dev.routeCount_counted (s : Dev) : Dev.RouteCounted s s.routeCount := by
  have hcount := s.fld_incSat_self (a := aSlc 0x1024) (hi := 15) (lo := 0) (by decide) (by decide)
  have hrej : (s.incSat (aSlc 0x1024) 15 0).bit (aSlc 0x1024) 30 = s.bit (aSlc 0x1024) 30 :=
    Dev.bit_setFld_of_ne s (by decide) (by decide) (.inr (by decide)) _
  have hcards : s.Cards (s.incSat (aSlc 0x1024) 15 0) [aSlc 0x1024] := (Dev.Cards.refl s _).setFld (by simp) _ _ _
  obtain ⟨r, hr⟩ : s.CardsOnly (s.incSat (aSlc 0x1024) 15 0) := (Dev.CardsOnly.refl s).setFld _ _ _ _
  unfold Dev.routeCount
  dsimp only
  generalize s.incSat (aSlc 0x1024) 15 0 = d at hcount hrej hcards hr
  subst hr
  have hopen : Dev.anyStepOpen ({ s with regs := r, slc := { s.slc with writes := s.slc.writes + 1 } } : Dev) = s.anyStepOpen := rfl
  by_cases ho : s.anyStepOpen = true
  · rw [if_pos (hopen.trans ho)]
    generalize hd : ({ s with regs := r, slc := { s.slc with writes := s.slc.writes + 1 } } : Dev) = d at *
    have hd' : Dev.rd d = Dev.rd { s with regs := r } := by rw [← hd]; rfl
    have hbit := Dev.bit_setBits_self d (aSlc 0x1024) (m := 0x80000000) 31 (by decide)
    have hother : ∀ i, i < 31 → (d.setBits (aSlc 0x1024) 0x80000000).bit (aSlc 0x1024) i = d.bit (aSlc 0x1024) i := fun i hi => by
      have hmask : ∀ i, i < 31 → (0x80000000 : W).bit i = false := by decide
      rw [Dev.bit, Dev.rd_setBits_self, W.bit_or, hmask i hi, Bool.or_false, Dev.bit]
    have hdcards : s.Cards d [aSlc 0x1024] := fun a ha => by rw [hd']; exact hcards a ha
    have hdbit : ∀ i, d.bit (aSlc 0x1024) i = Dev.bit { s with regs := r } (aSlc 0x1024) i := fun i => by rw [Dev.bit, hd', Dev.bit]
    obtain ⟨r', hr'⟩ := (Dev.CardsOnly.refl d).setBits (aSlc 0x1024) 0x80000000
    refine
      { count := ?_, rej := (hother 30 (by decide)).trans ((hdbit 30).trans hrej), writes := ?_, live := fun _ => hbit
        cards := hdcards.setBits (by simp) _, only := ?_ }
    · refine Eq.trans (W.fld_congr (fun i _ hi => ?_)) hcount
      exact (hother i (by omega)).trans (hdbit i)
    · rw [hr', ← hd]
    · rw [hr', ← hd]
  · rw [if_neg (fun h => ho (hopen.symm.trans h))]
    exact
      { count := hcount, rej := hrej, writes := rfl, live := fun h => absurd h ho, cards := hcards, only := rfl }

end Sys2Proof.Machine
end

section
/-! PROOFS. A route write of a known instant, and the registers of the units together (R285-R287). -/

namespace Sys2Proof.Machine

/-- The write of the register that stands at the edge. -/
def Dev.routeStands (s : Dev) (a x : Nat) : Option Wrote := s.slc.wrote.find? (fun y => decide (y.addr = a) && decide (y.edge = x))

/-- What a host's write of a route register, effective at an edge, leaves of the device as captured up to there. -/
structure Dev.RouteWritten (s u : Dev) (a : Nat) (v : W) (x : Nat) (t : Dev) : Prop where
  cards   : u.Cards t [a, aSlc 0x1024]
  only    : { t with regs := u.regs, slc := u.slc } = u
  stored  : (∀ y, s.routeStands a x = some y → y.rank = 0) →
    ((lineOfSrc a).all (fun l => srcOk l (v &&& rwMask a)) = true → t.rd a = v &&& rwMask a) ∧
    ((lineOfSrc a).all (fun l => srcOk l (v &&& rwMask a)) = false → t.fld a 19 16 = 0 ∧ t.bit (aSlc 0x1024) 30 = true)
  counted : s.routeStands a x = none → t.fld (aSlc 0x1024) 15 0 = min (u.fld (aSlc 0x1024) 15 0 + 1) 65535 ∧
    t.slc.writes = u.slc.writes + 1 ∧ (s.anyStepOpen = true → t.bit (aSlc 0x1024) 31 = true)
  once    : s.routeStands a x ≠ none → t.fld (aSlc 0x1024) 15 0 = u.fld (aSlc 0x1024) 15 0 ∧ t.slc.writes = u.slc.writes
  yields  : ∀ y, s.routeStands a x = some y → 0 < y.rank → t.regs = u.regs

/-- The writes of the edges passed are forgotten; that of this edge is found all the same. -/
theorem Dev.routeStands_capturesTo (s : Dev) (a x : Nat) :
    ((s.capturesTo x).slc.wrote.filter (fun w => decide (x ≤ w.edge))).find? (fun w => decide (w.addr = a) && decide (w.edge = x)) =
      s.routeStands a x := by
  obtain ⟨r, f, c, hcap⟩ := s.captured_capturesTo x
  have hwrote : (s.capturesTo x).slc.wrote = s.slc.wrote := by rw [hcap]
  rw [hwrote, Dev.routeStands, List.find?_filter]
  refine congrArg (fun p => s.slc.wrote.find? p) (funext (fun w => ?_))
  by_cases hx : w.edge = x
  · simp [hx]
  · simp [hx]

theorem Dev.routeMark_rd (s : Dev) (l : List Wrote) (a x k n : Nat) : (s.routeMark l a x k).rd n = s.rd n := rfl

theorem Dev.routeWriteAt_written (s : Dev) {a : Nat} (ha : a ≠ aSlc 0x1024) (v : W) (x : Nat) :
    Dev.RouteWritten s (s.capturesTo x) a v x (s.routeWriteAt a v x 0) := by
  have hstands := s.routeStands_capturesTo a x
  obtain ⟨r, f, c, hcap⟩ := s.captured_capturesTo x
  have hopen : (s.capturesTo x).anyStepOpen = s.anyStepOpen := by rw [hcap]; rfl
  unfold Dev.routeWriteAt
  dsimp only
  generalize s.capturesTo x = u at hstands hopen
  rw [hstands]
  cases hst : s.routeStands a x with
  | none =>
    have hmark : ∀ n, (u.routeMark (u.slc.wrote.filter (fun w => decide (x ≤ w.edge))) a x 0).rd n = u.rd n := fun n => rfl
    have hmarkOnly : { u.routeMark (u.slc.wrote.filter (fun w => decide (x ≤ w.edge))) a x 0 with slc := u.slc } = u := rfl
    have hwrites : (u.routeMark (u.slc.wrote.filter (fun w => decide (x ≤ w.edge))) a x 0).slc.writes = u.slc.writes := rfl
    have hsites : (u.routeMark (u.slc.wrote.filter (fun w => decide (x ≤ w.edge))) a x 0).anyStepOpen = u.anyStepOpen := rfl
    dsimp only
    generalize u.routeMark (u.slc.wrote.filter (fun w => decide (x ≤ w.edge))) a x 0 = d at hmark hmarkOnly hwrites hsites
    obtain ⟨htaken, hrefused, hcount, hcards, r', hr'⟩ := d.routeStore_routed ha v
    have hstoreWrites : (d.routeStore a v).slc.writes = d.slc.writes := by rw [hr']
    have hstoreOpen : (d.routeStore a v).anyStepOpen = d.anyStepOpen := by rw [hr']; rfl
    have hstoreOnly : { d.routeStore a v with regs := d.regs } = d := by rw [hr']
    generalize d.routeStore a v = e at htaken hrefused hcount hcards hstoreWrites hstoreOpen hstoreOnly
    obtain ⟨kcount, krej, kwrites, klive, kcards, konly⟩ := e.routeCount_counted
    generalize e.routeCount = t at kcount krej kwrites klive kcards konly
    have hself : t.rd a = e.rd a := kcards a (by rw [List.mem_singleton]; exact ha)
    have hlow : e.fld (aSlc 0x1024) 15 0 = u.fld (aSlc 0x1024) 15 0 := hcount.trans (Dev.fld_congr (hmark _) 15 0)
    exact
      { cards := fun n hn => ((kcards n (fun h => hn (List.mem_cons_of_mem a h))).trans (hcards n hn)).trans (hmark n)
        only := by
          have h1 := congrArg (fun w : Dev => { w with regs := u.regs, slc := u.slc }) konly
          have h2 := congrArg (fun w : Dev => { w with regs := u.regs, slc := u.slc }) hstoreOnly
          have h3 := congrArg (fun w : Dev => { w with regs := u.regs }) hmarkOnly
          exact (h1.trans h2).trans h3
        stored := fun _ => ⟨fun h => hself.trans (htaken h),
          fun h => ⟨(Dev.fld_congr hself 19 16).trans (hrefused h).1, krej.trans (hrefused h).2⟩⟩
        counted := fun _ => ⟨by rw [kcount, hlow], by rw [kwrites, hstoreWrites, hwrites],
          fun ho => klive (by rw [hstoreOpen, hsites, hopen]; exact ho)⟩
        once := fun h => absurd hst h
        yields := fun y hy => by rw [hst] at hy; cases hy }
  | some w =>
    dsimp only
    by_cases hrank : 0 < w.rank
    · rw [if_pos hrank]
      exact
        { cards := Dev.Cards.refl u _, only := rfl
          stored := fun h => absurd (h w hst) (by omega), counted := fun h => by rw [hst] at h; cases h
          once := fun _ => ⟨rfl, rfl⟩, yields := fun _ _ _ => rfl }
    · rw [if_neg hrank]
      generalize (u.slc.wrote.filter (fun w => decide (x ≤ w.edge))).filter (fun w => decide (w.addr ≠ a)) = ws
      have hmark : ∀ n, (u.routeMark ws a x 0).rd n = u.rd n := fun n => rfl
      have hmarkOnly : { u.routeMark ws a x 0 with slc := u.slc } = u := rfl
      have hwrites : (u.routeMark ws a x 0).slc.writes = u.slc.writes := rfl
      generalize u.routeMark ws a x 0 = d at hmark hmarkOnly hwrites
      obtain ⟨htaken, hrefused, hcount, hcards, r', hr'⟩ := d.routeStore_routed ha v
      have hstoreWrites : (d.routeStore a v).slc.writes = d.slc.writes := by rw [hr']
      have hstoreOnly : { d.routeStore a v with regs := d.regs } = d := by rw [hr']
      generalize d.routeStore a v = t at htaken hrefused hcount hcards hstoreWrites hstoreOnly
      exact
        { cards := fun n hn => (hcards n hn).trans (hmark n)
          only := by
            have h2 := congrArg (fun w : Dev => { w with regs := u.regs, slc := u.slc }) hstoreOnly
            have h3 := congrArg (fun w : Dev => { w with regs := u.regs }) hmarkOnly
            exact h2.trans h3
          stored := fun _ => ⟨htaken, hrefused⟩, counted := fun h => by rw [hst] at h; cases h
          once := fun _ => ⟨hcount.trans (Dev.fld_congr (hmark _) 15 0), hstoreWrites.trans hwrites⟩
          yields := fun y hy h => by
            rw [hst] at hy
            cases hy
            exact absurd h hrank }

/-! ### The row -/

theorem exec_routeWrite (s : State) (h : Hdr) (a : BitVec 40) (v : W) (p : Pos) :
    exec (.routeWrite h a ⟨v, p⟩) s = s.run (fun s => if isRoute a.toNat then s.hostRoute h a.toNat v p.toNat else s.hostWord h a.toNat v) :=
  rfl

theorem Dev.wr_relinked (s : Dev) (a : Nat) (v : W) (m : Tab Link) : (s.relinked m).wr a v = (s.wr a v).relinked m := rfl

theorem Dev.setBits_relinked (s : Dev) (a : Nat) (v : W) (m : Tab Link) : (s.relinked m).setBits a v = (s.setBits a v).relinked m := rfl

theorem Dev.routeStore_relinked (s : Dev) (a : Nat) (v : W) (m : Tab Link) :
    (s.relinked m).routeStore a v = (s.routeStore a v).relinked m := by
  unfold Dev.routeStore
  cases lineOfSrc a with
  | none => exact Dev.wr_relinked s a _ m
  | some l =>
    dsimp only
    cases srcOk l (v &&& rwMask a) with
    | true => exact Dev.wr_relinked s a _ m
    | false =>
      rw [if_neg Bool.false_ne_true, if_neg Bool.false_ne_true, Dev.wr_relinked, Dev.setBits_relinked]

/-- A route write counted, before LIVE_WR. -/
def Dev.routeTally (s : Dev) : Dev :=
  { s.incSat (aSlc 0x1024) 15 0 with slc := { s.slc with writes := s.slc.writes + 1 } }

theorem Dev.routeCount_eq (s : Dev) : s.routeCount = if s.anyStepOpen then s.routeTally.setBits (aSlc 0x1024) 0x80000000 else s.routeTally :=
  rfl

theorem Dev.routeTally_relinked (s : Dev) (m : Tab Link) : (s.relinked m).routeTally = s.routeTally.relinked m := by
  unfold Dev.routeTally
  rw [Dev.incSat_relinked]
  generalize s.incSat (aSlc 0x1024) 15 0 = d
  rfl

theorem Dev.routeCount_relinked (s : Dev) (m : Tab Link) : (s.relinked m).routeCount = s.routeCount.relinked m := by
  have hopen : (s.relinked m).anyStepOpen = s.anyStepOpen := rfl
  rw [Dev.routeCount_eq, Dev.routeCount_eq, hopen, Dev.routeTally_relinked]
  cases s.anyStepOpen with
  | true => exact Dev.setBits_relinked _ _ _ m
  | false => rfl

theorem Dev.routeMark_relinked (s : Dev) (l : List Wrote) (a x k : Nat) (m : Tab Link) :
    (s.relinked m).routeMark l a x k = (s.routeMark l a x k).relinked m := rfl

theorem Dev.routeWriteAt_relinked (s : Dev) (a : Nat) (v : W) (x k : Nat) (m : Tab Link) :
    (s.relinked m).routeWriteAt a v x k = (s.routeWriteAt a v x k).relinked m := by
  unfold Dev.routeWriteAt
  rw [Dev.capturesTo_relinked]
  generalize s.capturesTo x = u
  have hslc : (u.relinked m).slc = u.slc := rfl
  dsimp only
  rw [hslc]
  split
  · split
    · rfl
    · rw [Dev.routeMark_relinked, Dev.routeStore_relinked]
  · rw [Dev.routeMark_relinked, Dev.routeStore_relinked, Dev.routeCount_relinked]

theorem Dev.hostRoute_unlinked {s : Dev} (h : Hdr) (a : Nat) (v : W) (p : Nat) (hl : s.linked = false) : s.hostRoute h a v p = s := by
  rw [Dev.hostRoute, hl]
  rfl

theorem framed_route {a : Nat} (h : isRoute a = true) : framed a 4 = true := by
  rw [framed, (isRoute_spec h).1]
  rfl

theorem Dev.hostRoute_linked {s : Dev} (h : Hdr) {a : Nat} (v : W) (p : Nat) (hl : s.linked = true) (hr : isRoute a = true) :
    ∃ l, s.hostRoute h a v p = if s.modeOk h.via a v then
        ((s.relinked l).routeWriteAt a v (s.edgeAfter p) 0).memDone h false 0 1 0 []
      else (s.relinked l).memDone h false 2 0 0 [] := by
  refine ⟨(s.received h.via 2).links, ?_⟩
  have hrec := s.received_relinked h.via 2
  generalize (s.received h.via 2).links = l at hrec ⊢
  have hok : (s.relinked l).modeOk h.via a v = s.modeOk h.via a v := rfl
  have hedge : (s.relinked l).edgeAfter p = s.edgeAfter p := rfl
  rw [Dev.hostRoute, hl, Bool.not_true, if_neg Bool.false_ne_true]
  dsimp only
  rw [hrec, framed_route hr, Bool.not_true, if_neg Bool.false_ne_true, hok, hedge, Dev.modeRej_route _ hr]
  cases s.modeOk h.via a v with
  | true => rfl
  | false => rfl

end Sys2Proof.Machine
end

section
/-! PROOFS. The registers of engines, microcode, filters, TDC queues, faults and routes together (R78-R81, R121-R125, R229, R263,
R275-R297). -/

namespace Sys2Proof.Machine

theorem routeWrite_acts {s : State} {h : Hdr} {a : BitVec 40} {v : W} {p : Pos} (hr : isRoute a.toNat = true)
    (hadm : s.Admits h a.toNat v) :
    ∃ t : Dev, (exec (.routeWrite h a ⟨v, p⟩) s = .next { s with toDev := t } ∧ t.AnswersMem h false 0 1 0 []) ∧
      ∃ w, t = w.relinked t.links ∧ Dev.RouteWritten s.toDev (s.capturesTo (s.edgeAfter p.toNat)) a.toNat v (s.edgeAfter p.toNat) w := by
  obtain ⟨l, hl⟩ := Dev.hostRoute_linked h v p.toNat hadm.linked hr
  have hrow : exec (.routeWrite h a ⟨v, p⟩) s = .next { s with toDev := s.hostRoute h a.toNat v p.toNat } := by
    rw [exec_routeWrite, State.run, if_pos hr]
  rw [if_pos hadm.mode, Dev.routeWriteAt_relinked] at hl
  have hwritten := s.toDev.routeWriteAt_written (isRoute_ne_status hr) v (s.edgeAfter p.toNat)
  generalize s.toDev.routeWriteAt a.toNat v (s.edgeAfter p.toNat) 0 = w at hl hwritten
  obtain ⟨hlinks, hans⟩ := (w.relinked l).memDone_relinked h false 0 1 0 []
  rw [hl] at hrow
  generalize (w.relinked l).memDone h false 0 1 0 [] = t at hrow hlinks hans
  exact ⟨t, ⟨hrow, hans⟩, w, hlinks, hwritten⟩

theorem routeWrite_refused {s : State} {h : Hdr} {a : BitVec 40} {v : W} {p : Pos} (hr : isRoute a.toNat = true)
    (hl : s.linked = true) (hm : s.modeOk h.via a.toNat v = false) :
    ∃ t : Dev, exec (.routeWrite h a ⟨v, p⟩) s = .next { s with toDev := t } ∧ t.AnswersMem h false 2 0 0 [] ∧
      { t with links := s.links } = s.toDev := by
  obtain ⟨l, hroute⟩ := Dev.hostRoute_linked h v p.toNat hl hr
  have hrow : exec (.routeWrite h a ⟨v, p⟩) s = .next { s with toDev := s.hostRoute h a.toNat v p.toNat } := by
    rw [exec_routeWrite, State.run, if_pos hr]
  rw [if_neg (by rw [hm]; decide)] at hroute
  obtain ⟨hlinks, hans⟩ := (s.relinked l).memDone_relinked h false 2 0 0 []
  rw [hroute] at hrow
  generalize (s.relinked l).memDone h false 2 0 0 [] = t at hrow hlinks hans
  refine ⟨t, hrow, hans, ?_⟩
  rw [hlinks]
  rfl

/-- Settles O52, register by register; a route write acts on the device as captured up to its edge. -/
theorem unitRegisterWritesAct : Obligations.UnitRegisterWritesAct := by
  unfold Obligations.UnitRegisterWritesAct
  intro s h v
  refine ⟨fun e o hadm h4 => ?_, fun w hadm => pramWordWrite_acts hadm, fun n hadm => matchWrite_acts hadm, wcsDataWrite_acts,
    fun q c b n hadm => firCoefWrite_acts hadm, fun q c hadm => tdcRdWrite_acts hadm,
    fun f hadm h30 hno => faultAck_acts hadm h30 hno, fun f hadm hm h29 => ?_, fun a p => ⟨fun hr => ?_, fun hr hl => ?_,
      fun hr hl hm => routeWrite_refused hr hl hm, fun hr hadm => ?_⟩⟩
  · obtain ⟨l, m, hexec, hans⟩ := engineRegisterWrite_acts hadm h4
    refine ⟨fun hno => ⟨_, ⟨hexec, hans⟩, ?_⟩, fun hyes hst => ⟨_, ⟨hexec, hans⟩, ?_⟩, fun hyes hst => ⟨_, ⟨hexec, hans⟩, ?_⟩⟩
    · rw [Dev.writeEng_unassigned hno]
      rfl
    · rw [Dev.writeEng_refused (s := s.relinked l) hyes hst]
      exact ⟨Dev.bit_setBits_self s.toDev (aEng e 0) (m := 0x80000000) 31 (by decide),
        (Dev.Cards.refl s.toDev _).setBits (List.mem_singleton_self _) _, rfl⟩
    · obtain ⟨honly, hpg, hvoidh, hscratch, hplain⟩ := Dev.writeEng_taken (s := s.relinked l) e.isLt o.isLt h4 hyes hst
      have honly' := congrArg (fun d : Dev => { d with links := s.links }) honly
      exact ⟨honly', hpg, hvoidh, hscratch, hplain⟩
  · cases hn : fltNamed f with
    | true =>
      obtain ⟨t, hdone, hsticky, hsafe, hvoids⟩ := faultForce_named hadm hm h29 hn
      exact ⟨t, hdone, fun _ => ⟨hsticky, hsafe, hvoids⟩, fun hc => absurd hc (by decide)⟩
    | false =>
      obtain ⟨t, hdone, hrest⟩ := faultForce_unnamed hadm hm h29 hn
      exact ⟨t, hdone, fun hc => absurd hc (by decide), fun _ => hrest⟩
  · rw [exec_routeWrite, State.run, hr, if_neg Bool.false_ne_true]
    rfl
  · rw [exec_routeWrite, State.run, if_pos hr, Dev.hostRoute_unlinked h _ v _ hl]
  · obtain ⟨t, hdone, w, hw, hcards, honly, hstored, hcounted, honce, hyields⟩ := routeWrite_acts (p := p) hr hadm
    have honly' := congrArg (fun d : Dev => { d with links := (s.capturesTo (s.edgeAfter p.toNat)).links }) honly
    refine ⟨t, hdone, Dev.capturesTo_of_none, ?_⟩
    rw [hw]
    exact ⟨hcards, honly', hstored, hcounted, honce, hyields⟩

end Sys2Proof.Machine
end

section
/-! PROOFS. The ends of jobs: CRC, fill and calibration (R354, R369, R388). -/

namespace Sys2Proof.Machine

/-! ### A job ends -/

theorem Dev.jobOf_code {s : Dev} {code : Nat} {j : Job} (h : s.jobOf code = some j) : j.code = code := by
  have hp := List.find?_some h
  exact of_decide_eq_true hp

/-- The device without the jobs of a code. -/
def Dev.unjobbed (s : Dev) (code : Nat) : Dev :=
  { s with host := { s.host with jobs := s.host.jobs.filter (fun x => x.code ≠ code) } }

theorem Dev.endJob_plain {s : Dev} {j : Job} (h : j.code ≠ 0x70) (status detail : Nat) (data : List W) :
    s.endJob j status detail data = (s.unjobbed j.code).complete j status detail data := by
  unfold Dev.endJob
  dsimp only
  rw [if_neg h]
  rfl

theorem Dev.endJob_quad {s : Dev} {j : Job} (h : j.code = 0x70) (status detail : Nat) (data : List W) :
    s.endJob j status detail data =
      ((s.unjobbed j.code).onQuad (j.p 0).toNat (fun z => { z with cal := false })).complete j status detail data := by
  unfold Dev.endJob
  dsimp only
  rw [if_pos h]
  rfl

/-- What the end of a job that holds no quad leaves. -/
structure Dev.JobEnded (s : Dev) (j : Job) (status detail : Nat) (data : List W) (t : Dev) : Prop where
  answers : s.AnswersCmd t j status detail data
  jobs    : t.host.jobs = s.host.jobs.filter (fun x => x.code ≠ j.code)
  only    : s.Answered { t with host := { t.host with jobs := s.host.jobs } }

theorem Dev.endJob_ended {s : Dev} {j : Job} (h : j.code ≠ 0x70) (status detail : Nat) (data : List W) :
    Dev.JobEnded s j status detail data (s.endJob j status detail data) := by
  have hans := Dev.answersCmd_complete (s := s) (v := s.unjobbed j.code) j status detail data rfl rfl rfl
  rw [Dev.endJob_plain h]
  obtain ⟨m, l, heq⟩ := (s.unjobbed j.code).complete_only j status detail data
  rw [heq] at hans ⊢
  exact ⟨hans, rfl, rfl⟩

/-! ### LOAD_CRC (R354, R363) -/

theorem exec_loadCrcDone (s : State) : exec .loadCrcDone s = .next { s with toDev := s.toDev.loadCrcDone } := rfl

theorem Dev.loadCrcDone_of_none {s : Dev} (h : s.jobOf 0x20 = none) : s.loadCrcDone = s := by
  rw [Dev.loadCrcDone, h]

theorem Dev.loadCrcDone_of_job {s : Dev} {j : Job} (h : s.jobOf 0x20 = some j) :
    s.loadCrcDone = s.settleLogs.drawErrors.2.crcReads j s.settleLogs.drawErrors.1.1 s.settleLogs.drawErrors.1.2 := by
  rw [Dev.loadCrcDone, h]

/-- The CRC, or ECC, and the end of the job. -/
theorem Dev.crcReads_ended (s : Dev) {j : Job} (hj : j.code ≠ 0x70) (bad : Option Nat) (fixed : List Nat) :
    let r := s.readFrom ((j.p 0).toNat + (j.p 1).toNat * 2 ^ 32) bad fixed 0 ((j.p 2).toNat / 4)
    Dev.JobEnded r.1 j (if r.2.2 then 4 else 0) 0 (if r.2.2 then [] else [crcWords r.2.1]) (s.crcReads j bad fixed) := by
  intro r
  have heq : s.crcReads j bad fixed = if r.2.2 then r.1.endJob j 4 0 [] else r.1.endJob j 0 0 [crcWords r.2.1] := rfl
  rw [heq]
  clear_value r
  obtain ⟨t, l, stopped⟩ := r
  cases stopped
  · exact Dev.endJob_ended hj 0 0 [crcWords l]
  · exact Dev.endJob_ended hj 4 0 []

/-- The words of a read before the first that has an error leave the device as it was. -/
theorem Dev.readFrom_of_good {s : Dev} {a : Nat} {bad : Option Nat} (n : Nat) :
    ∀ (m k : Nat), (∀ i, k ≤ i → i < k + m → s.wordBad (a + 4 * i) i none = false ∧ a + 4 * i ≠ aFrm 8 ∧ bad ≠ some i) →
      s.readFrom a bad [] k (m + n) = ((s.readFrom a bad [] (k + m) n).1,
        (List.range' k m).map (fun i => s.readWord (a + 4 * i)) ++ (s.readFrom a bad [] (k + m) n).2.1,
        (s.readFrom a bad [] (k + m) n).2.2) := by
  intro m
  induction m with
  | zero =>
    intro k _
    rw [Nat.zero_add]
    rfl
  | succ m ih =>
    intro k h
    obtain ⟨hclean, hplain, hbad⟩ := h k (Nat.le_refl k) (by omega)
    rw [show m + 1 + n = (m + n) + 1 by omega, Dev.readFrom, s.wordBad_of_ne hbad, hclean, if_neg Bool.false_ne_true]
    dsimp only
    rw [s.readOne_of_clean hplain List.not_mem_nil, ih (k + 1) (fun i hi hm => h i (by omega) (by omega)),
      List.range'_succ, show k + 1 + m = k + (m + 1) by omega]
    rfl

theorem Dev.readFrom_all {s : Dev} {a n : Nat}
    (h : ∀ k, k < n → s.wordBad (a + 4 * k) k none = false ∧ a + 4 * k ≠ aFrm 8) :
    s.readFrom a none [] 0 n = (s, (List.range n).map (fun k => s.readWord (a + 4 * k)), false) := by
  have hgood := Dev.readFrom_of_good (s := s) (a := a) (bad := none) 0 n 0 (fun i _ hi => by
    obtain ⟨hclean, hplain⟩ := h i (by omega)
    exact ⟨hclean, hplain, nofun⟩)
  rw [Nat.add_zero] at hgood
  rw [hgood, List.range_eq_range', Dev.readFrom, List.append_nil]

theorem Dev.readFrom_stop {s : Dev} {a n k : Nat} (hk : k < n)
    (h : ∀ k, k < n → s.wordBad (a + 4 * k) k none = false ∧ a + 4 * k ≠ aFrm 8) :
    (s.readFrom a (some k) [] 0 n).2 = ((List.range k).map (fun i => s.readWord (a + 4 * i)) ++ [0], true) := by
  have hgood := Dev.readFrom_of_good (s := s) (a := a) (bad := some k) (n - k - 1 + 1) k 0 (fun i _ hi => by
    obtain ⟨hclean, hplain⟩ := h i (by omega)
    exact ⟨hclean, hplain, fun he => absurd (Option.some.inj he) (by omega)⟩)
  have hbad : s.wordBad (a + 4 * (0 + k)) (0 + k) (some k) = true := by
    rw [Nat.zero_add, Dev.wordBad, decide_eq_true rfl, Bool.true_or]
  rw [show k + (n - k - 1 + 1) = n by omega, Dev.readFrom, hbad, if_pos rfl] at hgood
  rw [hgood, List.range_eq_range']

/-- What is settled before the job's reads changes no word's error. -/
theorem Dev.wordBad_settle (s : Dev) (a k : Nat) : s.settleLogs.drawErrors.2.wordBad a k none = s.wordBad a k none := by
  refine Dev.wordBad_congr ?_ a k none
  obtain ⟨_, _, _, _, _, _, heq⟩ := Dev.LogFrame.settleLogs s
  rw [heq]
  rfl

/-! ### CIS_FILL (R369) -/

theorem exec_cisFillDone (s : State) : exec .cisFillDone s = .next { s with toDev := s.toDev.cisFillDone } := rfl

theorem Dev.cisFillDone_of_none {s : Dev} (h : s.jobOf 0x21 = none) : s.cisFillDone = s := by
  rw [Dev.cisFillDone, h]

theorem Dev.word_congr {s t : Dev} {a : Nat} (h : ∀ b, a ≤ b → b < a + 4 → t.byte b = s.byte b) : t.word a = s.word a := by
  unfold Dev.word wordOf
  simp only [h (a + 3) (by omega) (by omega), h (a + 2) (by omega) (by omega), h (a + 1) (by omega) (by omega),
    h a (by omega) (by omega)]

theorem Dev.word_setWord_of_ne (s : Dev) {a b : Nat} (v : W) (h : b + 4 ≤ a ∨ a + 4 ≤ b) : (s.setWord a v).word b = s.word b :=
  Dev.word_congr (fun x hx hb => Dev.byte_setWord_of_ne s v (by omega))

/-- One word of the pattern. -/
def Dev.fillWord (o : Nat) (v : W) (k : Nat) (s : Dev) : Dev := if o + 4 * k < s.cisBytes then s.setWord (aCis (o + 4 * k)) v else s

theorem Dev.cisFillDone_of_job {s : Dev} {j : Job} (h : s.jobOf 0x21 = some j) :
    s.cisFillDone = ((forN ((j.p 1).toNat / 4) (Dev.fillWord (j.p 0).toNat (j.p 2)) s).cisFresh (j.p 0).toNat (j.p 1).toNat).endJob j 0 0 [] := by
  rw [Dev.cisFillDone, h]
  rfl

/-- The fill so far: the words below it hold the pattern, no byte outside moved, and memory alone changed. -/
structure Dev.Filled (s : Dev) (o : Nat) (v : W) (n : Nat) (t : Dev) : Prop where
  words : ∀ k, k < n → o + 4 * k < s.cisBytes → t.word (aCis (o + 4 * k)) = v
  bytes : ∀ b, b < aCis o ∨ aCis (o + 4 * n) ≤ b → t.byte b = s.byte b
  only  : ∃ m, t = { s with mem := m }

theorem Dev.Filled.next {s : Dev} {o : Nat} {v : W} {n : Nat} {t : Dev} (h : Dev.Filled s o v n t) :
    Dev.Filled s o v (n + 1) (Dev.fillWord o v n t) := by
  obtain ⟨hwords, hbytes, m, rfl⟩ := h
  have hsize : Dev.cisBytes { s with mem := m } = s.cisBytes := rfl
  unfold Dev.fillWord
  rw [hsize]
  split
  case isTrue hin =>
    refine ⟨fun k hk hb => ?_, fun b hb => ?_, ?_⟩
    · rcases Nat.lt_succ_iff_lt_or_eq.mp hk with hlt | rfl
      · rw [Dev.word_setWord_of_ne _ _ (by unfold aCis; omega)]
        exact hwords k hlt hb
      · exact Dev.word_setWord_self _ _ _
    · rw [Dev.byte_setWord_of_ne _ _ (by unfold aCis at *; omega)]
      exact hbytes b (by unfold aCis at *; omega)
    · obtain ⟨m', hm⟩ := Dev.setWord_only { s with mem := m } (aCis (o + 4 * n)) v
      exact ⟨m', hm⟩
  case isFalse hout =>
    refine ⟨fun k hk hb => ?_, fun b hb => hbytes b (by unfold aCis at *; omega), m, rfl⟩
    have hlt : k < n := by
      rcases Nat.lt_succ_iff_lt_or_eq.mp hk with hlt | rfl
      · exact hlt
      · exact absurd hb hout
    exact hwords k hlt hb

theorem Dev.filled_forN (s : Dev) (o : Nat) (v : W) (n : Nat) : Dev.Filled s o v n (forN n (Dev.fillWord o v) s) := by
  induction n with
  | zero => exact ⟨fun k hk => absurd hk (Nat.not_lt_zero k), fun _ _ => rfl, s.mem, rfl⟩
  | succ n ih =>
    rw [forN_succ]
    exact ih.next

/-- The fill's end: its words, its ECC, and its command. -/
theorem Dev.cisFillDone_filled {s : Dev} {j : Job} (h : s.jobOf 0x21 = some j) :
    s.AnswersCmd s.cisFillDone j 0 0 [] ∧
    (∀ k, k < (j.p 1).toNat / 4 → (j.p 0).toNat + 4 * k < s.cisBytes → s.cisFillDone.word (aCis ((j.p 0).toNat + 4 * k)) = j.p 2) ∧
    (∀ b, b < aCis (j.p 0).toNat ∨ aCis ((j.p 0).toNat + (j.p 1).toNat) ≤ b → s.cisFillDone.byte b = s.byte b) ∧
    s.cisFillDone.host.jobs = s.host.jobs.filter (fun x => x.code ≠ j.code) ∧
    s.Answered { s.cisFillDone with host := { s.cisFillDone.host with jobs := s.host.jobs }, mem := s.mem, cis := s.cis } := by
  have hj : j.code ≠ 0x70 := by rw [Dev.jobOf_code h]; decide
  obtain ⟨hwords, hbytes, m, hm⟩ := s.filled_forN (j.p 0).toNat (j.p 2) ((j.p 1).toNat / 4)
  rw [Dev.cisFillDone_of_job h]
  rw [hm] at hwords hbytes ⊢
  obtain ⟨hans, hjobs, honly⟩ := Dev.endJob_ended (s := Dev.cisFresh { s with mem := m } (j.p 0).toNat (j.p 1).toNat) hj 0 0 []
  generalize (Dev.cisFresh { s with mem := m } (j.p 0).toNat (j.p 1).toNat).endJob j 0 0 [] = t at hans hjobs honly ⊢
  have hmem : t.mem = m := congrArg Dev.mem honly
  refine ⟨hans, fun k hk hb => ?_, fun b hb => ?_, hjobs, ?_⟩
  · exact (Dev.word_congr (fun b _ _ => by unfold Dev.byte; rw [hmem])).trans (hwords k hk hb)
  · have hbyte : t.byte b = Dev.byte { s with mem := m } b := by unfold Dev.byte; rw [hmem]
    exact hbyte.trans (hbytes b (by unfold aCis at *; omega))
  · exact congrArg (fun d : Dev => { d with mem := s.mem, cis := s.cis }) honly

/-! ### Calibrations (R370, R388) -/

theorem exec_calQuadDone (s : State) (ch : Option (Fin 720)) :
    exec (.calQuadDone ch) s = .next { s with toDev := s.toDev.calQuadDone ch } := rfl

theorem exec_calFullDone (s : State) (ch : Option (Fin 720)) :
    exec (.calFullDone ch) s = .next { s with toDev := s.toDev.calFullDone ch } := rfl

/-- With no such job, or with its save already asked for, nothing changes. -/
theorem Dev.calQuadDone_of_idle {s : Dev} (h : s.jobOf 0x70 = none ∨ s.jobSaves 0x70 = true) (ch : Option (Fin 720)) :
    s.calQuadDone ch = s := by
  unfold Dev.calQuadDone
  cases hj : s.jobOf 0x70 with
  | none => rfl
  | some j =>
    have hsaves : s.jobSaves 0x70 = true := h.resolve_left (by rw [hj]; nofun)
    exact if_pos hsaves

theorem Dev.calFullDone_of_idle {s : Dev} (h : s.jobOf 0x71 = none ∨ s.jobSaves 0x71 = true) (ch : Option (Fin 720)) :
    s.calFullDone ch = s := by
  unfold Dev.calFullDone
  cases hj : s.jobOf 0x71 with
  | none => rfl
  | some j =>
    have hsaves : s.jobSaves 0x71 = true := h.resolve_left (by rw [hj]; nofun)
    exact if_pos hsaves

theorem Dev.calQuadDone_of_fail {s : Dev} {j : Job} (h : s.jobOf 0x70 = some j) (hs : s.jobSaves 0x70 = false) (ch : Fin 720) :
    s.calQuadDone (some ch) = s.endJob j 12 ch [] := by
  rw [Dev.calQuadDone, h]
  dsimp only
  rw [hs, if_neg Bool.false_ne_true]

theorem Dev.calQuadDone_of_good {s : Dev} {j : Job} (h : s.jobOf 0x70 = some j) (hs : s.jobSaves 0x70 = false) :
    s.calQuadDone none = s.requestSave (.cal (j.p 0).toNat none) (some j) := by
  rw [Dev.calQuadDone, h]
  dsimp only
  rw [hs, if_neg Bool.false_ne_true]

/-- A calibration that fails releases its quad and names its channel (R370). -/
theorem Dev.calQuadDone_failed {s : Dev} {j : Job} (h : s.jobOf 0x70 = some j) (hs : s.jobSaves 0x70 = false) (ch : Fin 720) :
    s.AnswersCmd (s.calQuadDone (some ch)) j 12 ch.val [] ∧ ((s.calQuadDone (some ch)).quad (j.p 0).toNat).cal = false ∧
    (s.calQuadDone (some ch)).host.jobs = s.host.jobs.filter (fun x => x.code ≠ j.code) ∧
    s.Answered { s.calQuadDone (some ch) with
      host := { (s.calQuadDone (some ch)).host with jobs := s.host.jobs }, quads := s.quads } := by
  rw [Dev.calQuadDone_of_fail h hs, Dev.endJob_quad (Dev.jobOf_code h)]
  have hans := Dev.answersCmd_complete (s := s)
    (v := (s.unjobbed j.code).onQuad (j.p 0).toNat (fun z => { z with cal := false })) j 12 ch [] rfl rfl rfl
  have hquad : ((s.unjobbed j.code).onQuad (j.p 0).toNat (fun z => { z with cal := false })).quad (j.p 0).toNat =
      { (s.unjobbed j.code).quad (j.p 0).toNat with cal := false } := by
    rw [Dev.onQuad, Dev.quad_setQuad_self]
  obtain ⟨m, l, heq⟩ := ((s.unjobbed j.code).onQuad (j.p 0).toNat (fun z => { z with cal := false })).complete_only j 12 ch []
  rw [heq] at hans ⊢
  exact ⟨hans, congrArg Quad.cal hquad, rfl, rfl⟩

theorem Dev.calFullDone_of_fail {s : Dev} {j : Job} (h : s.jobOf 0x71 = some j) (hs : s.jobSaves 0x71 = false) (ch : Fin 720) :
    s.calFullDone (some ch) = Dev.endJob { s with nv := { s.nv with calFull := none } } j 12 ch [] := by
  rw [Dev.calFullDone, h]
  dsimp only
  rw [hs, if_neg Bool.false_ne_true]

theorem Dev.calFullDone_of_good {s : Dev} {j : Job} (h : s.jobOf 0x71 = some j) (hs : s.jobSaves 0x71 = false) :
    s.calFullDone none = (forL s.calLeft.2 (fun q (t : Dev) => t.requestSave (.cal q (some s.calLeft.1)) none)
      { s with nv := { s.nv with calFull := some (s.calLeft.1, 144) } }).requestSave (.calFull s.calLeft.1) (some j) := by
  rw [Dev.calFullDone, h]
  dsimp only
  rw [hs, if_neg Bool.false_ne_true]

theorem Dev.calFullDone_failed {s : Dev} {j : Job} (h : s.jobOf 0x71 = some j) (hs : s.jobSaves 0x71 = false) (ch : Fin 720) :
    s.AnswersCmd (s.calFullDone (some ch)) j 12 ch.val [] ∧
    (s.calFullDone (some ch)).host.jobs = s.host.jobs.filter (fun x => x.code ≠ j.code) ∧
    (s.calFullDone (some ch)).nv = { s.nv with calFull := none } ∧
    s.Answered { s.calFullDone (some ch) with
      host := { (s.calFullDone (some ch)).host with jobs := s.host.jobs }, nv := s.nv } := by
  have hj : j.code ≠ 0x70 := by rw [Dev.jobOf_code h]; decide
  rw [Dev.calFullDone_of_fail h hs]
  obtain ⟨hans, hjobs, honly⟩ := Dev.endJob_ended (s := { s with nv := { s.nv with calFull := none } }) hj 12 ch []
  generalize Dev.endJob { s with nv := { s.nv with calFull := none } } j 12 ch [] = t at hans hjobs honly ⊢
  have hnv : t.nv = { s.nv with calFull := none } := congrArg Dev.nv honly
  have hback := congrArg (fun d : Dev => { d with nv := s.nv }) honly
  exact ⟨hans, hjobs, hnv, hback⟩

/-- The saves a full calibration asks for of its quads. -/
def fullSave (g q : Nat) : NvSave := { set_ := .cal q (some g), job := none }

/-- Every quad's save joins those that wait, in order. -/
theorem Dev.requestSaves_of_new (g : Nat) : ∀ (l : List Nat) (s : Dev), l.Nodup →
    (∀ x ∈ s.nv.saves, ∀ q ∈ l, x.set_ ≠ .cal q (some g)) →
    forL l (fun q (t : Dev) => t.requestSave (.cal q (some g)) none) s =
      { s with nv := { s.nv with saves := s.nv.saves ++ l.map (fullSave g) } } := by
  intro l
  induction l with
  | nil =>
    intro s _ _
    rw [List.map_nil, List.append_nil]
    rfl
  | cons q r ih =>
    intro s hnodup hnew
    obtain ⟨hq, hr⟩ := List.nodup_cons.mp hnodup
    have hstep := Dev.requestSave_of_new (s := s) (v := .cal q (some g)) none (fun x hx => hnew x hx q List.mem_cons_self)
    have hrest := ih (s.requestSave (.cal q (some g)) none) hr (fun x hx p hp => by
      rw [hstep] at hx
      rcases List.mem_append.mp hx with hx | hx
      · exact hnew x hx p (List.mem_cons_of_mem q hp)
      · rw [List.mem_singleton.mp hx]
        intro he
        obtain ⟨rfl, -⟩ := NvSet.cal.inj he
        exact hq hp)
    refine hrest.trans ?_
    rw [hstep, List.map_cons]
    simp only [List.append_assoc]
    rfl

/-- A full calibration that succeeds asks for its quads' saves and for its word's (R370, R388). -/
theorem Dev.calFullDone_saves {s : Dev} {j : Job} (h : s.jobOf 0x71 = some j) (hs : s.jobSaves 0x71 = false)
    (hnew : ∀ x ∈ s.nv.saves, x.set_ ≠ .calFull s.calLeft.1 ∧ ∀ q, x.set_ ≠ .cal q (some s.calLeft.1)) :
    s.calFullDone none = { s with nv := { s.nv with
      saves := s.nv.saves ++ s.calLeft.2.map (fullSave s.calLeft.1) ++ [{ set_ := .calFull s.calLeft.1, job := some j }]
      calFull := some (s.calLeft.1, 144) } } := by
  have hnodup : s.calLeft.2.Nodup := List.Nodup.filter _ List.nodup_range
  rw [Dev.calFullDone_of_good h hs]
  generalize s.calLeft = c at hnew hnodup ⊢
  rw [Dev.requestSaves_of_new c.1 c.2 { s with nv := { s.nv with calFull := some (c.1, 144) } } hnodup
    (fun x hx q _ => (hnew x hx).2 q), Dev.requestSave_of_new]
  intro x hx
  rcases List.mem_append.mp hx with hx | hx
  · exact (hnew x hx).1
  · obtain ⟨q, -, rfl⟩ := List.mem_map.mp hx
    nofun

theorem Dev.calLeft_of {s : Dev} {g n : Nat}
    (h : s.nv.calFull = some (g, n) ∨ (s.nv.calFull = none ∧ g = s.nextGen (.cal 0 none) ∧ n = 0)) :
    s.calLeft = (g, (List.range 144).filter (fun q => decide (n ≤ q) && decide ((s.quad q).st ≠ .retired))) := by
  unfold Dev.calLeft
  rcases h with h | ⟨h, rfl, rfl⟩
  · rw [h]
  · rw [h]

end Sys2Proof.Machine
end

section
/-! PROOFS. How the save of an NV set begins, and how one word is verified (R379, R380, R383, R388). -/

namespace Sys2Proof.Machine

/-! ### A save begins -/

theorem exec_nvSetSave (s : State) : exec .nvSetSave s = .next { s with toDev := s.toDev.beginSave } := rfl

/-- The oldest save that waits begins. -/
theorem Dev.beginSave_of_waiting {s : Dev} {v : NvSave} {r : List NvSave} (hrun : s.nv.run = none) (hsaves : s.nv.saves = v :: r) :
    s.beginSave = Dev.runSave { s with nv := { s.nv with saves := r } } v := by
  rw [Dev.beginSave, hrun, hsaves]

theorem Dev.saveFirst_of_slot (s : Dev) {t : NvSet} (h : ∀ g, t ≠ .calFull g) (g : Nat) :
    s.saveFirst t g = [(s.saveSlot t.num, s.nvWord (s.saveSlot t.num) &&& 0xFFFFFF00)] := by
  unfold Dev.saveFirst
  split
  case h_1 g' => exact absurd rfl (h g')
  case h_2 => rfl

theorem Dev.saveFirst_of_full (s : Dev) (g : Nat) : s.saveFirst (.calFull g) g = [(0x3A000, wn (g * 65536 + 0x5A))] := by
  unfold Dev.saveFirst commitWord
  dsimp only

/-- The save of a full calibration's word takes no payload. -/
def NvSet.wordAlone : NvSet → Bool
  | .calFull _ => true
  | _ => false

/-- A save as it begins. -/
def Dev.runOf (s : Dev) (v : NvSave) : NvRun :=
  { save := v, left := s.saveFirst v.set_ (s.nextGen v.set_), gen := s.nextGen v.set_, filled := v.set_.wordAlone, cut := false }

theorem Dev.runSave_eq (s : Dev) (v : NvSave) : s.runSave v = { s with nv := { s.nv with run := some (s.runOf v) } } := rfl

/-- A set's slot has its STATE at 0 first, and its payload is still to be taken. -/
theorem Dev.runOf_slot (s : Dev) {v : NvSave} (h : ∀ g, v.set_ ≠ .calFull g) :
    (s.runOf v).filled = false ∧
      (s.runOf v).left = [(s.saveSlot v.set_.num, s.nvWord (s.saveSlot v.set_.num) &&& 0xFFFFFF00)] := by
  refine ⟨?_, s.saveFirst_of_slot h _⟩
  unfold Dev.runOf NvSet.wordAlone
  dsimp only
  split
  case h_1 g hg => exact absurd hg (h g)
  case h_2 => rfl

/-- A full calibration's word has no slot and no payload. -/
theorem Dev.runOf_full (s : Dev) {v : NvSave} {g : Nat} (h : v.set_ = .calFull g) :
    (s.runOf v).filled = true ∧ (s.runOf v).left = [(0x3A000, wn (g * 65536 + 0x5A))] := by
  unfold Dev.runOf
  rw [h]
  exact ⟨rfl, s.saveFirst_of_full g⟩

/-- With none that waits a full calibration saves the next quad it has finished. -/
theorem Dev.beginSave_of_full {s : Dev} {q : Nat} (hrun : s.nv.run = none) (hsaves : s.nv.saves = [])
    (hjob : ∃ j ∈ s.host.jobs, j.code = 0x71) (hq : s.calLeft.2.head? = some q) :
    s.beginSave = Dev.runSave { s with nv := { s.nv with calFull := some (s.calLeft.1, q + 1) } } (fullSave s.calLeft.1 q) := by
  obtain ⟨j, hmem, hcode⟩ := hjob
  have hall : ¬(s.host.jobs.all (fun j => decide (j.code ≠ 0x71)) = true) := fun hall =>
    absurd (of_decide_eq_true (List.all_eq_true.mp hall j hmem)) (not_not.mpr hcode)
  obtain ⟨l, hl⟩ := List.head?_eq_some_iff.mp hq
  rw [Dev.beginSave, hrun, hsaves]
  dsimp only
  rw [if_neg hall, hl]
  rfl

/-- Nothing to begin: a set is being written, or nothing waits and no quad is left. -/
theorem Dev.beginSave_of_idle {s : Dev}
    (h : s.nv.run ≠ none ∨ (s.nv.saves = [] ∧ ((∀ j ∈ s.host.jobs, j.code ≠ 0x71) ∨ s.calLeft.2 = []))) : s.beginSave = s := by
  unfold Dev.beginSave
  cases hrun : s.nv.run with
  | some r =>
    cases s.nv.saves <;> rfl
  | none =>
    obtain ⟨hsaves, hnone⟩ := h.resolve_left (fun hne => hne hrun)
    rw [hsaves]
    dsimp only
    rcases hnone with hjobs | hleft
    · rw [if_pos (List.all_eq_true.mpr (fun j hj => decide_eq_true (hjobs j hj)))]
    · rw [hleft]
      split <;> rfl

end Sys2Proof.Machine
end

section
/-! PROOFS. One word of NVR, written and verified (R379, R380). -/

namespace Sys2Proof.Machine

/-! ### NV_WRITE_FAIL and what it leaves alone -/

/-- The spare rows, and the commands that wait, are as they were. -/
structure Dev.RowsKept (s t : Dev) : Prop where
  spare   : t.nv.spare = s.nv.spare
  waiting : t.host.waiting = s.host.waiting

namespace Dev.RowsKept

theorem refl (s : Dev) : Dev.RowsKept s s := ⟨rfl, rfl⟩

theorem trans {s t u : Dev} (h : Dev.RowsKept s t) (k : Dev.RowsKept t u) : Dev.RowsKept s u :=
  ⟨k.spare.trans h.spare, k.waiting.trans h.waiting⟩

theorem note {s t : Dev} (h : s.NoteFrame t) : Dev.RowsKept s t := by
  obtain ⟨_, _, rfl⟩ := h
  exact ⟨rfl, rfl⟩

theorem voidSites (s : Dev) (c : Nat) (l : List Nat) : Dev.RowsKept s (s.voidSites c l) := by
  obtain ⟨_, _, h⟩ := (Dev.voidFrame_voidSites s c l).exists
  rw [h]
  exact ⟨rfl, rfl⟩

theorem forL {α : Type} (l : List α) (f : α → Dev → Dev) (hf : ∀ a s, Dev.RowsKept s (f a s)) (s : Dev) :
    Dev.RowsKept s (Machine.forL l f s) :=
  forL_keeps (I := Dev.RowsKept s) (fun a _ t h => h.trans (hf a t)) (refl s)

theorem complete (s : Dev) (j : Job) (status detail : Nat) (data : List W) : Dev.RowsKept s (s.complete j status detail data) := by
  obtain ⟨_, _, h⟩ := s.complete_only j status detail data
  rw [h]
  exact ⟨rfl, rfl⟩

theorem nvPut (s : Dev) (o : Nat) (v : W) : Dev.RowsKept s (s.nvPut o v) := by
  have hstored : Dev.RowsKept s (s.nvStored o v) := ⟨rfl, rfl⟩
  rw [Dev.nvPut_eq]
  split
  · exact hstored.trans (note (Dev.noteFrame_note _ 291))
  · exact hstored

theorem endReq (s : Dev) (r : ModeReq) (n : Nat) : Dev.RowsKept s (s.endReq r n) := by
  have hrej : Dev.RowsKept s (s.rejMode r.tag n) := ⟨rfl, rfl⟩
  unfold Dev.endReq
  split
  · exact hrej.trans (complete _ _ _ _ _)
  · exact hrej

theorem abortCmds (s : Dev) : Dev.RowsKept s s.abortCmds := by
  unfold Dev.abortCmds
  dsimp only
  refine trans ?_ (forL _ _ (fun j s => complete s j 14 0 []) _)
  exact ⟨rfl, rfl⟩

theorem notify (s : Dev) (n : Ntfy) (h : Bool) : Dev.RowsKept s (s.notify n h) := by
  unfold Dev.notify
  split
  · exact ⟨rfl, rfl⟩
  · split <;> exact ⟨rfl, rfl⟩

theorem safeStopped (s : Dev) : Dev.RowsKept s s.safeStopped := ⟨rfl, rfl⟩

theorem enterSafe (s : Dev) (x : Nat) : Dev.RowsKept s (s.enterSafe x) := by
  unfold Dev.enterSafe
  split
  · exact refl s
  · extract_lets n s1 s2 s3 s4 s5
    have h1 : Dev.RowsKept s s1 := by
      unfold s1
      split
      · exact notify s _ _
      · exact refl s
    have h2 : Dev.RowsKept s s2 := h1.trans (forL _ _ (fun r t => endReq t r 9) s1)
    have h4 : Dev.RowsKept s s4 := (h2.trans (abortCmds s2)).trans (nvPut _ _ _)
    clear_value s4
    have h5 : Dev.RowsKept s s5 := by
      unfold s5
      split
      · exact h4.trans ⟨rfl, rfl⟩
      · exact h4
    clear_value s5
    exact h5.trans (safeStopped s5)

/-- A word that is not durable asks for no repair (R380). -/
theorem react (s : Dev) (e : Nat) : Dev.RowsKept s (s.react e (raiseOf 290 1)) := by
  have heq : s.react e (raiseOf 290 1) = if e = 2 then s.voidSites (causeBit 290) [] else s := by
    unfold Dev.react
    exact if_pos rfl
  rw [heq]
  split
  · exact voidSites s _ _
  · exact refl s

theorem reacts (s : Dev) (x e : Nat) (o : OccNow) : Dev.RowsKept s (s.reacts x e o [raiseOf 290 1]) := by
  unfold Dev.reacts
  split
  · exact enterSafe s x
  · have hearlier : Dev.RowsKept s (if e = 2 && o.eff < 2 then Machine.forL o.srcs (fun r s => s.voidSites (causeBit r.1) r.2) s else s) := by
      split
      · exact forL _ _ (fun q t => voidSites t _ _) s
      · exact refl s
    exact hearlier.trans (react _ e)

end Dev.RowsKept

/-- NV_WRITE_FAIL, masked: it is marked, and nothing follows. -/
theorem Dev.raise_of_masked {s : Dev} {r : Raise} (h : (r.forced || s.srcEn r.f) = false) : s.raise r = s.markRaise r.f := by
  have hon : [r].filter (fun r => r.forced || s.srcEn r.f) = [] :=
    List.filter_eq_nil_iff.mpr (fun q hq => by rw [List.mem_singleton.mp hq, h]; exact Bool.false_ne_true)
  have hoff : [r].filter (fun r => !(r.forced || s.srcEn r.f)) = [r] :=
    List.filter_eq_self.mpr (fun q hq => by rw [List.mem_singleton.mp hq, h]; rfl)
  unfold Dev.raise Dev.raises
  dsimp only
  rw [hon, hoff]
  exact forL_keeps (I := fun t : Dev => t = s.markRaise r.f) (fun x _ t ht => ht) rfl

theorem Dev.raise_writeFail_rows (s : Dev) : Dev.RowsKept s (s.raise (raiseOf 290 1)) := by
  cases hen : ((raiseOf 290 1).forced || s.srcEn (raiseOf 290 1).f) with
  | false =>
    rw [Dev.raise_of_masked hen]
    exact Dev.RowsKept.note (Dev.noteFrame_markRaise s _)
  | true =>
    rw [Dev.raise_eq_occur (by decide) hen, Dev.occur]
    exact (Dev.RowsKept.note (Dev.noteFrame_recordOcc s _ _ _ _)).trans (Dev.RowsKept.reacts _ _ _ _)

/-- In a clean class it is noted, and nothing follows. -/
theorem Dev.raise_writeFail_note {s : Dev} (hc : s.Clean 9) : s.NoteFrame (s.raise (raiseOf 290 1)) := by
  cases hen : s.srcEn 290 with
  | false =>
    rw [Dev.raise_of_masked (r := raiseOf 290 1) hen]
    exact Dev.noteFrame_markRaise s _
  | true =>
    rw [Dev.raise_of_degrade (r := raiseOf 290 1) (by decide) hen hc rfl rfl]
    exact Dev.noteFrame_recordOcc s _ _ _ _

/-! ### The word written -/

/-- An NV word was written: its value, and besides it only its wear, cards and the fault unit may differ. -/
structure Dev.NvWrote (s t : Dev) (o : Nat) (v : W) : Prop where
  word  : t.word (aNvr o) = v
  bytes : ∀ b, b < aNvr o ∨ aNvr (o + 4) ≤ b → t.byte b = s.byte b
  only  : ∃ m w r f, t = { s with mem := m, nv := { s.nv with wear := w }, regs := r, flt := f }
  stays : ∀ g, s.sticky g = true → t.sticky g = true

theorem Dev.nvWrote_stored (s : Dev) (o : Nat) (v : W) : Dev.NvWrote s (s.nvStored o v) o v := by
  obtain ⟨m, hm⟩ := s.setWord_only (aNvr o) v
  have hmem : (s.nvStored o v).mem = (s.setWord (aNvr o) v).mem := rfl
  have hbyte : ∀ b, (s.nvStored o v).byte b = (s.setWord (aNvr o) v).byte b := fun b => by unfold Dev.byte; rw [hmem]
  refine ⟨(Dev.word_congr (fun b _ _ => hbyte b)).trans (s.word_setWord_self (aNvr o) v), fun b hb => ?_, ?_,
    fun g hg => ?_⟩
  · rw [hbyte]
    exact Dev.byte_setWord_of_ne s v (by unfold aNvr at *; omega)
  · rw [Dev.nvStored, hm]
    exact ⟨_, _, _, _, rfl⟩
  · rw [Dev.sticky_congr (s := s) (by rw [Dev.nvStored, hm]) g]
    exact hg

theorem Dev.NvWrote.note {s t : Dev} {o : Nat} {v : W} (h : Dev.NvWrote s t o v) {f : Nat} (hf : f < 384) :
    Dev.NvWrote s (t.note f) o v := by
  obtain ⟨hword, hbytes, ⟨m, w, r, x, rfl⟩, hstays⟩ := h
  have hup := (Upset.note { s with mem := m, nv := { s.nv with wear := w }, regs := r, flt := x } hf).stays
  obtain ⟨r', f', hnote⟩ := Dev.noteFrame_note { s with mem := m, nv := { s.nv with wear := w }, regs := r, flt := x } f
  rw [hnote] at hup ⊢
  exact ⟨hword, hbytes, ⟨m, w, r', f', rfl⟩, fun g hg => hup g (hstays g hg)⟩

theorem Dev.nvWrote_nvPut (s : Dev) (o : Nat) (v : W) : Dev.NvWrote s (s.nvPut o v) o v := by
  rw [Dev.nvPut_eq]
  split
  · exact (s.nvWrote_stored o v).note (by decide)
  · exact s.nvWrote_stored o v

theorem Dev.NvWrote.again {s t : Dev} {o : Nat} {v : W} (h : Dev.NvWrote s t o v) : Dev.NvWrote s (t.nvPut o v) o v := by
  obtain ⟨hword, hbytes, ⟨m', w', r', f', heq⟩, hstays⟩ := t.nvWrote_nvPut o v
  obtain ⟨-, hb, ⟨m, w, r, f, rfl⟩, hs⟩ := h
  exact ⟨hword, fun b hx => (hbytes b hx).trans (hb b hx), ⟨m', w', r', f', heq⟩, fun g hg => hstays g (hs g hg)⟩

/-- The write that takes the wear past 10^14 notes NV_WEAR (R380). -/
theorem Dev.sticky_worn {s : Dev} {o : Nat} (h : s.nv.wear.get (fun _ => 0) (o / 4) = 10 ^ 14) (v : W) :
    (s.nvPut o v).sticky 291 = true := by
  rw [Dev.nvPut_eq, if_pos h]
  exact Dev.sticky_note _ (by decide)

end Sys2Proof.Machine
end

section
/-! PROOFS. A verified word of NVR, and what follows it in its set (R379, R380, R383). -/

namespace Sys2Proof.Machine

/-! ### The verify -/

/-- A word that verified, at once or retried, is durable. -/
theorem Dev.nvVerified_of_good (s : Dev) (o : Nat) (w : W) {v : NvVerify} (hv : v ≠ .failed) :
    (s.nvVerified o w v).2 = true ∧ Dev.NvWrote s (s.nvVerified o w v).1 o w ∧
      (s.nv.wear.get (fun _ => 0) (o / 4) = 10 ^ 14 → (s.nvVerified o w v).1.sticky 291 = true) := by
  cases v with
  | failed => exact absurd rfl hv
  | ok => exact ⟨rfl, s.nvWrote_nvPut o w, fun h => Dev.sticky_worn h w⟩
  | retried => exact ⟨rfl, (s.nvWrote_nvPut o w).again, fun h => Dev.sticky_nvPut o w (Dev.sticky_worn h w)⟩

/-- The device with NV_WRITE_FAIL raised. -/
def Dev.writeFailed (s : Dev) : Dev := s.raise (raiseOf 290 1)

theorem Dev.writeFailed_sticky (s : Dev) : s.writeFailed.sticky 290 = true := (s.raise_raised (raiseOf 290 1) ⟨by decide, by decide⟩).1

theorem Dev.writeFailed_rows (s : Dev) : Dev.RowsKept s s.writeFailed := s.raise_writeFail_rows

theorem Dev.writeFailed_note {s : Dev} (hc : s.Clean 9) : s.NoteFrame s.writeFailed := Dev.raise_writeFail_note hc

/-- The device with one spare row fewer. -/
def Dev.rowTaken (s : Dev) : Dev := { s with nv := { s.nv with spare := s.nv.spare - 1 } }

/-- A failed word takes a spare row. -/
theorem Dev.nvVerified_of_spare {s : Dev} (h : s.nv.spare ≠ 0) (o : Nat) (w : W) :
    s.nvVerified o w .failed = (((s.writeFailed.rowTaken.nvPut o w).nvPut o w).nvPut o w, true) := by
  have hspare : ¬(s.raise (raiseOf 290 1)).nv.spare = 0 := fun h0 => h (s.writeFailed_rows.spare.symm.trans h0)
  unfold Dev.nvVerified
  dsimp only
  rw [if_neg hspare]
  rfl

/-- With none left it keeps its old or its new value, and NV_FAIL is noted. -/
theorem Dev.nvVerified_of_none {s : Dev} (h : s.nv.spare = 0) (o : Nat) (w : W) :
    s.nvVerified o w .failed = ((if s.writeFailed.draw.1.bit 0 then s.writeFailed.draw.2.nvPut o w else s.writeFailed.draw.2).note 292, false) := by
  have hspare : (s.raise (raiseOf 290 1)).nv.spare = 0 := s.writeFailed_rows.spare.trans h
  exact if_pos hspare

/-- The word is durable unless its row failed and none was left. -/
theorem Dev.nvVerified_durable (s : Dev) (o : Nat) (w : W) (v : NvVerify) :
    (s.nvVerified o w v).2 = true ↔ v ≠ .failed ∨ s.nv.spare ≠ 0 := by
  by_cases hv : v = .failed
  · subst hv
    by_cases h : s.nv.spare = 0
    · rw [Dev.nvVerified_of_none h]
      simp [h]
    · rw [Dev.nvVerified_of_spare h]
      simp [h]
  · simp [(s.nvVerified_of_good o w hv).1, hv]

theorem Dev.nvVerified_word {s : Dev} {v : NvVerify} (h : v ≠ .failed ∨ s.nv.spare ≠ 0) (o : Nat) (w : W) :
    (s.nvVerified o w v).1.word (aNvr o) = w := by
  by_cases hv : v = .failed
  · subst hv
    rw [Dev.nvVerified_of_spare (h.resolve_left (fun hn => hn rfl))]
    generalize (s.writeFailed.rowTaken.nvPut o w).nvPut o w = u
    exact (u.nvWrote_nvPut o w).word
  · exact (s.nvVerified_of_good o w hv).2.1.word

/-- A failed word raises NV_WRITE_FAIL, and NV_FAIL with no row left; the commands that wait stand. -/
theorem Dev.nvVerified_failed (s : Dev) (o : Nat) (w : W) :
    (s.nvVerified o w .failed).1.sticky 290 = true ∧ (s.nv.spare = 0 → (s.nvVerified o w .failed).1.sticky 292 = true) ∧
      (s.nvVerified o w .failed).1.host.waiting = s.host.waiting := by
  have hst := s.writeFailed_sticky
  have hwait := s.writeFailed_rows.waiting
  by_cases h : s.nv.spare = 0
  · rw [Dev.nvVerified_of_none h]
    generalize s.writeFailed = u at hst hwait ⊢
    have hdraw : u.draw.2.sticky 290 = true := hst
    have hput : (if u.draw.1.bit 0 then u.draw.2.nvPut o w else u.draw.2).sticky 290 = true := by
      split
      · exact Dev.sticky_nvPut o w hdraw
      · exact hdraw
    have hkept : (if u.draw.1.bit 0 then u.draw.2.nvPut o w else u.draw.2).host.waiting = s.host.waiting := by
      split
      · exact (Dev.RowsKept.nvPut u.draw.2 o w).waiting.trans hwait
      · exact hwait
    exact ⟨(Upset.note _ (by decide)).stays 290 hput, fun _ => Dev.sticky_note _ (by decide),
      (Dev.RowsKept.note (Dev.noteFrame_note _ 292)).waiting.trans hkept⟩
  · rw [Dev.nvVerified_of_spare h]
    generalize s.writeFailed = u at hst hwait ⊢
    have htaken : u.rowTaken.sticky 290 = true := hst
    exact ⟨Dev.sticky_nvPut o w (Dev.sticky_nvPut o w (Dev.sticky_nvPut o w htaken)), fun h0 => absurd h0 h,
      (((Dev.RowsKept.nvPut _ o w).trans (Dev.RowsKept.nvPut _ o w)).trans (Dev.RowsKept.nvPut _ o w)).waiting.trans hwait⟩

/-- In a clean class the word that failed stands in its spare row. -/
theorem Dev.nvVerified_spared {s : Dev} (hc : s.Clean 9) (h : s.nv.spare ≠ 0) (o : Nat) (w : W) :
    (s.nvVerified o w .failed).1.word (aNvr o) = w ∧ (s.nvVerified o w .failed).1.nv.spare = s.nv.spare - 1 := by
  refine ⟨Dev.nvVerified_word (.inr h) o w, ?_⟩
  rw [Dev.nvVerified_of_spare h]
  obtain ⟨_, _, hnote⟩ := Dev.writeFailed_note hc
  rw [hnote]
  exact (((Dev.RowsKept.nvPut _ o w).trans (Dev.RowsKept.nvPut _ o w)).trans (Dev.RowsKept.nvPut _ o w)).spare

/-- In a clean class, with no row left, the word is the old or the new one, and the clock and the host's commands stand. -/
theorem Dev.nvVerified_lost {s : Dev} (hc : s.Clean 9) (h : s.nv.spare = 0) (o : Nat) (w : W) :
    ((s.nvVerified o w .failed).1.word (aNvr o) = w ∨ (s.nvVerified o w .failed).1.word (aNvr o) = s.word (aNvr o)) ∧
      (s.nvVerified o w .failed).1.clk = s.clk ∧ (s.nvVerified o w .failed).1.host = s.host := by
  rw [Dev.nvVerified_of_none h]
  obtain ⟨r, f, hnote⟩ := Dev.writeFailed_note hc
  rw [hnote]
  cases (Dev.draw { s with regs := r, flt := f }).1.bit 0 with
  | false =>
    obtain ⟨r', f', h292⟩ := Dev.noteFrame_note (Dev.draw { s with regs := r, flt := f }).2 292
    dsimp only
    rw [if_neg Bool.false_ne_true, h292]
    exact ⟨.inr rfl, rfl, rfl⟩
  | true =>
    obtain ⟨hword, -, ⟨m, n, r', f', hput⟩, -⟩ := (Dev.nvWrote_nvPut (Dev.draw { s with regs := r, flt := f }).2 o w).note
      (f := 292) (by decide)
    dsimp only
    rw [if_pos rfl]
    exact ⟨.inl hword, by rw [hput]; rfl, by rw [hput]; rfl⟩

end Sys2Proof.Machine
end

section
/-! PROOFS. What follows a durable word of a set: the next one, the payload, the slot in force, or the end of the save
(R383, R385). -/

namespace Sys2Proof.Machine

/-! ### What the end of a save leaves alone -/

/-- Memory, clock, modes, spare rows and the commands that wait stand, and no source loses STICKY. -/
structure Dev.NvAside (s t : Dev) : Prop where
  mem     : t.mem = s.mem
  clk     : t.clk = s.clk
  sys     : t.sys = s.sys
  spare   : t.nv.spare = s.nv.spare
  waiting : t.host.waiting = s.host.waiting
  stays   : ∀ g, s.sticky g = true → t.sticky g = true

namespace Dev.NvAside

theorem refl (s : Dev) : Dev.NvAside s s := ⟨rfl, rfl, rfl, rfl, rfl, fun _ h => h⟩

theorem trans {s t u : Dev} (h : Dev.NvAside s t) (k : Dev.NvAside t u) : Dev.NvAside s u :=
  ⟨k.mem.trans h.mem, k.clk.trans h.clk, k.sys.trans h.sys, k.spare.trans h.spare, k.waiting.trans h.waiting,
    fun g hg => k.stays g (h.stays g hg)⟩

theorem word {s t : Dev} (h : Dev.NvAside s t) (a : Nat) : t.word a = s.word a :=
  Dev.word_congr (fun b _ _ => by unfold Dev.byte; rw [h.mem])

theorem byte {s t : Dev} (h : Dev.NvAside s t) (b : Nat) : t.byte b = s.byte b := by unfold Dev.byte; rw [h.mem]

/-- Fields of the NV unit but the spare rows. -/
theorem nv (s : Dev) {n : Nv} (h : n.spare = s.nv.spare) : Dev.NvAside s { s with nv := n } :=
  ⟨rfl, rfl, rfl, h, rfl, fun _ hg => hg⟩

theorem forL {α : Type} (l : List α) (f : α → Dev → Dev) (hf : ∀ a s, Dev.NvAside s (f a s)) (s : Dev) :
    Dev.NvAside s (Machine.forL l f s) :=
  forL_keeps (I := Dev.NvAside s) (fun a _ t h => h.trans (hf a t)) (refl s)

end Dev.NvAside

/-! ### The save's command completes -/

/-- The end of a job changes its completion, its list and the quad it held. -/
theorem Dev.endJob_only (s : Dev) (j : Job) (status detail : Nat) (data : List W) :
    ∃ m k l q, s.endJob j status detail data = { s with host := { s.host with mspiCpl := m, jobs := k }, links := l, quads := q } := by
  by_cases h : j.code = 0x70
  · rw [Dev.endJob_quad h]
    obtain ⟨m, l, heq⟩ := ((s.unjobbed j.code).onQuad (j.p 0).toNat (fun z => { z with cal := false })).complete_only j status detail data
    rw [heq]
    exact ⟨_, _, _, _, rfl⟩
  · rw [Dev.endJob_plain h]
    obtain ⟨m, l, heq⟩ := (s.unjobbed j.code).complete_only j status detail data
    rw [heq]
    exact ⟨_, _, _, _, rfl⟩

theorem Dev.saveEnds_only (s : Dev) (j : Job) (status : Nat) (data : List W) :
    ∃ m k l q, s.saveEnds j status data = { s with host := { s.host with mspiCpl := m, jobs := k }, links := l, quads := q } := by
  unfold Dev.saveEnds
  split
  · exact s.endJob_only j status 0 data
  · obtain ⟨m, l, heq⟩ := s.complete_only j status 0 data
    exact ⟨m, _, l, _, heq⟩

theorem Dev.NvAside.saveEnds (s : Dev) (j : Job) (status : Nat) (data : List W) : Dev.NvAside s (s.saveEnds j status data) := by
  obtain ⟨_, _, _, _, h⟩ := s.saveEnds_only j status data
  rw [h]
  exact ⟨rfl, rfl, rfl, rfl, rfl, fun _ hg => hg⟩

/-- The end of a job answers with the frame of the device that it began on. -/
theorem Dev.answersCmd_endJob {s v : Dev} (j : Job) (status detail : Nat) (data : List W) (hclk : v.clk = s.clk)
    (hcpl : v.host.mspiCpl = s.host.mspiCpl) : s.AnswersCmd (v.endJob j status detail data) j status detail data := by
  by_cases h : j.code = 0x70
  · rw [Dev.endJob_quad h]
    exact Dev.answersCmd_complete j status detail data (congrArg Clk.ticked hclk) (congrArg Clk.frame hclk) hcpl
  · rw [Dev.endJob_plain h]
    exact Dev.answersCmd_complete j status detail data (congrArg Clk.ticked hclk) (congrArg Clk.frame hclk) hcpl

theorem Dev.answersCmd_saveEnds {s v : Dev} (j : Job) (status : Nat) (data : List W) (hclk : v.clk = s.clk)
    (hcpl : v.host.mspiCpl = s.host.mspiCpl) : s.AnswersCmd (v.saveEnds j status data) j status 0 data := by
  unfold Dev.saveEnds
  split
  · exact Dev.answersCmd_endJob j status 0 data hclk hcpl
  · exact Dev.answersCmd_complete j status 0 data (congrArg Clk.ticked hclk) (congrArg Clk.frame hclk) hcpl

/-! ### A slot in force -/

theorem Dev.nvForce_flipSlot (s : Dev) (n : Nat) : (s.flipSlot n).nvForce n = if s.nvForce n = 1 then 2 else 1 :=
  Tab.get_set_self _ _ _ _

/-- The device with other slots in force. -/
def Dev.withSlots (s : Dev) (l : Tab Nat) (c : Option (Nat × Nat)) : Dev := { s with nv := { s.nv with slot := l, calFull := c } }

/-- A slot comes into force: slots and the full calibration alone, and CAL_NONE counted of those. -/
theorem Dev.inForce_only (s : Dev) (t : NvSet) :
    ∃ l c, s.inForce t = s.withSlots l c ∨ s.inForce t = (s.withSlots l c).calCount := by
  cases t with
  | calFull g =>
    have hflips : ∀ n, ∃ l, forN n (fun q t =>
        if t.nvWord (t.saveSlot (3 + q)) = commitWord (.cal q (some g)) g then t.flipSlot (3 + q) else t)
          (s.withSlots s.nv.slot none) = s.withSlots l none := by
      intro n
      induction n with
      | zero => exact ⟨_, rfl⟩
      | succ n ih =>
        obtain ⟨l, hl⟩ := ih
        rw [forN_succ, hl]
        split
        · exact ⟨_, rfl⟩
        · exact ⟨_, rfl⟩
    obtain ⟨l, hl⟩ := hflips 144
    exact ⟨l, none, .inr (congrArg Dev.calCount hl)⟩
  | cal q full =>
    cases full with
    | some g => exact ⟨s.nv.slot, s.nv.calFull, .inl rfl⟩
    | none => exact ⟨_, s.nv.calFull, .inr rfl⟩
  | repair | thermal | patch e => exact ⟨_, s.nv.calFull, .inl rfl⟩

theorem Dev.NvAside.calCount (s : Dev) : Dev.NvAside s s.calCount :=
  have hne : ∀ g, aSrc g ≠ 0x904 := fun g => by unfold aSrc aFlt; omega
  ⟨rfl, rfl, rfl, rfl, rfl, fun g hg => (Dev.bit_congr (Dev.rd_setFld_of_ne s (hne g)) 30).trans hg⟩

theorem Dev.NvAside.inForce (s : Dev) (t : NvSet) : Dev.NvAside s (s.inForce t) := by
  obtain ⟨l, c, h | h⟩ := s.inForce_only t
  · rw [h]
    exact Dev.NvAside.nv s rfl
  · rw [h]
    exact Dev.NvAside.trans (t := s.withSlots l c) (Dev.NvAside.nv s rfl) (Dev.NvAside.calCount (s.withSlots l c))

theorem Dev.inForce_run (s : Dev) (t : NvSet) : (s.inForce t).nv.run = s.nv.run := by
  obtain ⟨l, c, h | h⟩ := s.inForce_only t <;> (rw [h]; rfl)

theorem Dev.inForce_mspiCpl (s : Dev) (t : NvSet) : (s.inForce t).host.mspiCpl = s.host.mspiCpl := by
  obtain ⟨l, c, h | h⟩ := s.inForce_only t <;> (rw [h]; rfl)

/-- A set outside a full calibration has its other slot in force (R383). -/
theorem Dev.nvForce_inForce (s : Dev) {t : NvSet} (h : t = .repair ∨ t = .thermal ∨ (∃ e, t = .patch e) ∨ ∃ q, t = .cal q none) :
    (s.inForce t).nvForce t.num = if s.nvForce t.num = 1 then 2 else 1 := by
  rcases h with rfl | rfl | ⟨e, rfl⟩ | ⟨q, rfl⟩ <;> exact s.nvForce_flipSlot _

/-- CAL_NONE counts the quads without a calibration in force (R384). -/
theorem Dev.fld_calCount (s : Dev) :
    s.calCount.fld 0x904 7 0 = ((List.range 144).filter (fun q => s.calCount.nvForce (3 + q) == 0)).length := by
  have hlen : ((List.range 144).filter (fun q => s.nvForce (3 + q) == 0)).length < 256 :=
    Nat.lt_of_le_of_lt (List.length_filter_le _ _) (by rw [List.length_range]; omega)
  exact (Dev.fld_setFld_self s (by omega) (by omega) _).trans (Nat.mod_eq_of_lt hlen)

end Sys2Proof.Machine
end

section
/-! PROOFS. NV_WRITE_DONE: the words of a set (R380, R383, R385). -/

namespace Sys2Proof.Machine

/-! ### The branches after a word -/

/-- The device with another set being written, or none. -/
def Dev.withRun (s : Dev) (r : Option NvRun) : Dev := { s with nv := { s.nv with run := r } }

section Branches
variable {s : Dev} {r : NvRun} {o : Nat} {w : W} {l : List (Nat × W)} {v : NvVerify} (hl : r.left = (o, w) :: l)
include hl

theorem Dev.setWordDone_cut (hc : r.cut = true) : s.setWordDone r v = (s.nvVerified o w v).1.withRun none := by
  rw [Dev.setWordDone, hl]
  dsimp only
  rw [if_pos hc]
  rfl

theorem Dev.setWordDone_failed (hc : r.cut = false) (hd : (s.nvVerified o w v).2 = false) :
    s.setWordDone r v = (s.nvVerified o w v).1.saveFails r := by
  rw [Dev.setWordDone, hl]
  dsimp only
  rw [hc, hd, if_neg Bool.false_ne_true, Bool.not_false, if_pos rfl]

theorem Dev.setWordDone_last (hc : r.cut = false) (hd : (s.nvVerified o w v).2 = true) (he : l = []) (hf : r.filled = true) :
    s.setWordDone r v = (s.nvVerified o w v).1.saveDone r := by
  subst he
  rw [Dev.setWordDone, hl]
  dsimp only
  rw [hc, hd, if_neg Bool.false_ne_true, Bool.not_true, if_neg Bool.false_ne_true, hf]
  rfl

theorem Dev.setWordDone_first (hc : r.cut = false) (hd : (s.nvVerified o w v).2 = true) (he : l = []) (hf : r.filled = false) :
    s.setWordDone r v = (s.nvVerified o w v).1.fillSave r := by
  subst he
  rw [Dev.setWordDone, hl]
  dsimp only
  rw [hc, hd, if_neg Bool.false_ne_true, Bool.not_true, if_neg Bool.false_ne_true, hf]
  rfl

theorem Dev.setWordDone_next (hc : r.cut = false) (hd : (s.nvVerified o w v).2 = true) (he : l ≠ []) :
    s.setWordDone r v = (s.nvVerified o w v).1.withRun (some { r with left := l }) := by
  have hempty : l.isEmpty = false := by simpa using he
  rw [Dev.setWordDone, hl]
  dsimp only
  rw [hc, hd, if_neg Bool.false_ne_true, Bool.not_true, if_neg Bool.false_ne_true, hempty, Bool.false_and,
    if_neg Bool.false_ne_true, if_neg Bool.false_ne_true]
  rfl

end Branches

theorem Dev.NvAside.withRun (s : Dev) (r : Option NvRun) : Dev.NvAside s (s.withRun r) := Dev.NvAside.nv s rfl

/-! ### The payload is taken -/

/-- The commit word is the last of the part. -/
theorem Dev.saveRest_last (s : Dev) (t : NvSet) (g : Nat) :
    (s.saveRest t g).getLast? = some (s.saveSlot t.num, commitWord t g) := by
  unfold Dev.saveRest
  exact List.getLast?_append_of_ne_nil _ (List.cons_ne_nil _ _)

theorem Dev.NvAside.fillSave (s : Dev) (r : NvRun) : Dev.NvAside s (s.fillSave r) := ⟨rfl, rfl, rfl, rfl, rfl, fun _ hg => hg⟩

theorem Dev.fillSave_run (s : Dev) (r : NvRun) :
    (s.fillSave r).nv.run = some { r with left := s.saveRest r.save.set_ r.gen, filled := true } := rfl

/-! ### The save ends -/

/-- What the end of a good save returns with its command (R370). -/
def NvRun.answer (r : NvRun) : List W :=
  match r.save.set_ with
  | .patch _ | .thermal => [wn r.gen]
  | .repair | .cal _ _ | .calFull _ => []

theorem NvRun.answer_eq (r : NvRun) :
    r.answer = if r.save.set_ = .thermal ∨ ∃ e, r.save.set_ = .patch e then [wn r.gen] else [] := by
  unfold NvRun.answer
  cases r.save.set_ <;> simp

theorem Dev.saveDone_of_none {s : Dev} {r : NvRun} (h : r.save.job = none) :
    s.saveDone r = (s.withRun none).inForce r.save.set_ := by
  rw [Dev.saveDone, h]
  rfl

theorem Dev.saveDone_of_job {s : Dev} {r : NvRun} {j : Job} (h : r.save.job = some j) :
    s.saveDone r = ((s.withRun none).inForce r.save.set_).saveEnds j 0 r.answer := by
  rw [Dev.saveDone, h]
  rfl

/-- The command's end changes neither the NV unit nor a card. -/
theorem Dev.saveDone_slots (s : Dev) (r : NvRun) :
    (s.saveDone r).nv = ((s.withRun none).inForce r.save.set_).nv ∧ (s.saveDone r).regs = ((s.withRun none).inForce r.save.set_).regs := by
  cases h : r.save.job with
  | none =>
    rw [Dev.saveDone_of_none h]
    exact ⟨rfl, rfl⟩
  | some j =>
    rw [Dev.saveDone_of_job h]
    obtain ⟨_, _, _, _, heq⟩ := ((s.withRun none).inForce r.save.set_).saveEnds_only j 0 r.answer
    rw [heq]
    exact ⟨rfl, rfl⟩

theorem Dev.NvAside.saveDone (s : Dev) (r : NvRun) : Dev.NvAside s (s.saveDone r) := by
  have hforce := (Dev.NvAside.withRun s none).trans (Dev.NvAside.inForce (s.withRun none) r.save.set_)
  cases h : r.save.job with
  | none =>
    rw [Dev.saveDone_of_none h]
    exact hforce
  | some j =>
    rw [Dev.saveDone_of_job h]
    exact hforce.trans (Dev.NvAside.saveEnds _ j 0 r.answer)

/-- A set in force completes the command that asked for it. -/
theorem Dev.saveDone_answers {s u : Dev} (hclk : u.clk = s.clk) (hcpl : u.host.mspiCpl = s.host.mspiCpl) {r : NvRun} {j : Job}
    (h : r.save.job = some j) : s.AnswersCmd (u.saveDone r) j 0 0 r.answer := by
  rw [Dev.saveDone_of_job h]
  have hforce := (Dev.NvAside.withRun u none).trans (Dev.NvAside.inForce (u.withRun none) r.save.set_)
  exact Dev.answersCmd_saveEnds j 0 r.answer (hforce.clk.trans hclk) (((u.withRun none).inForce_mspiCpl r.save.set_).trans hcpl)

/-! ### The save fails -/

/-- The commands that a failed save answers: its own, or with a full calibration's quad its job's. -/
def Dev.failJobs (s : Dev) (r : NvRun) : List Job :=
  match r.save.set_ with
  | .cal _ (some _) => (s.jobOf 0x71).toList
  | _ => r.save.job.toList

/-- The device without the failed save, nor those of its full calibration. -/
theorem Dev.saveFails_eq (s : Dev) (r : NvRun) :
    ∃ k c, s.saveFails r = forL (s.failJobs r) (fun j t => t.saveEnds j 13 [])
      { s with nv := { s.nv with run := none, saves := k, calFull := c } } := by
  unfold Dev.saveFails Dev.failJobs
  dsimp only
  cases r.save.set_ with
  | cal q full => cases full <;> exact ⟨_, _, rfl⟩
  | repair | thermal | patch e | calFull g => exact ⟨_, _, rfl⟩

theorem Dev.NvAside.saveFails (s : Dev) (r : NvRun) : Dev.NvAside s (s.saveFails r) ∧ (s.saveFails r).nv.run = none := by
  obtain ⟨k, c, h⟩ := s.saveFails_eq r
  rw [h]
  refine ⟨(Dev.NvAside.nv s (n := { s.nv with run := none, saves := k, calFull := c }) rfl).trans (Dev.NvAside.forL _ _ (fun j t => Dev.NvAside.saveEnds t j 13 []) _), ?_⟩
  refine forL_keeps (I := fun t : Dev => t.nv.run = none) (fun j _ t ht => ?_) rfl
  obtain ⟨_, _, _, _, heq⟩ := t.saveEnds_only j 13 []
  rw [heq]
  exact ht

theorem Dev.failJobs_of {s : Dev} {r : NvRun} {j : Job}
    (h : (r.save.job = some j ∧ (∀ q g, r.save.set_ ≠ .cal q (some g))) ∨ (s.jobOf 0x71 = some j ∧ ∃ q g, r.save.set_ = .cal q (some g))) :
    s.failJobs r = [j] := by
  unfold Dev.failJobs
  rcases h with ⟨hjob, hset⟩ | ⟨hjob, q, g, hset⟩
  · split
    case h_1 q g hq => exact absurd hq (hset q g)
    case h_2 => rw [hjob]; rfl
  · rw [hset, hjob]
    rfl

/-- The command of a save that failed completes NV_FAIL. -/
theorem Dev.saveFails_answers {s u : Dev} (hclk : u.clk = s.clk) (hhost : u.host = s.host) {r : NvRun} {j : Job}
    (h : (r.save.job = some j ∧ (∀ q g, r.save.set_ ≠ .cal q (some g))) ∨ (s.jobOf 0x71 = some j ∧ ∃ q g, r.save.set_ = .cal q (some g))) :
    s.AnswersCmd (u.saveFails r) j 13 0 [] := by
  have hjob : u.jobOf 0x71 = s.jobOf 0x71 := by unfold Dev.jobOf; rw [hhost]
  obtain ⟨k, c, heq⟩ := u.saveFails_eq r
  rw [heq, Dev.failJobs_of (s := u) (by rw [hjob]; exact h)]
  exact Dev.answersCmd_saveEnds (v := { u with nv := { u.nv with run := none, saves := k, calFull := c } }) j 13 [] hclk
    (congrArg HostIf.mspiCpl hhost)

end Sys2Proof.Machine
end

section
/-! PROOFS. O56: jobs, the saves of NV sets, and the words of NVR that requests write (R340, R379-R389). -/

namespace Sys2Proof.Machine

theorem exec_nvWriteDone (s : State) (v : NvVerify) : exec (.nvWriteDone v) s = .next { s with toDev := s.toDev.nvWriteDone v } := rfl

/-! ### A word of a set -/

/-- With a set's word under way and no command that waits, the word's end is all that happens. -/
theorem Dev.nvWriteDone_of_run {s : Dev} {r : NvRun} (hs : s.nv.singles = []) (hr : s.nv.run = some r) {v : NvVerify}
    (hw : (s.setWordDone r v).host.waiting = []) : s.nvWriteDone v = s.setWordDone r v := by
  rw [Dev.nvWriteDone, hs, hr]
  exact Dev.drain_of_none hw

/-- Whatever follows a word of a set stands aside of it. -/
theorem Dev.setWordDone_aside {s : Dev} {r : NvRun} {o : Nat} {w : W} {l : List (Nat × W)} (hl : r.left = (o, w) :: l) (v : NvVerify) :
    Dev.NvAside (s.nvVerified o w v).1 (s.setWordDone r v) := by
  cases hc : r.cut with
  | true =>
    rw [Dev.setWordDone_cut hl hc]
    exact Dev.NvAside.withRun _ none
  | false =>
    cases hd : (s.nvVerified o w v).2 with
    | false =>
      rw [Dev.setWordDone_failed hl hc hd]
      exact (Dev.NvAside.saveFails _ r).1
    | true =>
      by_cases he : l = []
      · cases hf : r.filled with
        | true =>
          rw [Dev.setWordDone_last hl hc hd he hf]
          exact Dev.NvAside.saveDone _ r
        | false =>
          rw [Dev.setWordDone_first hl hc hd he hf]
          exact Dev.NvAside.fillSave _ r
      · rw [Dev.setWordDone_next hl hc hd he]
        exact Dev.NvAside.withRun _ _

section Word
variable {s : Dev} {r : NvRun} {o : Nat} {w : W} {l : List (Nat × W)} (hl : r.left = (o, w) :: l)
include hl

/-- A word that verified, whatever its set: it stands alone, and NV_WEAR is noted with the write that wears it out. -/
theorem Dev.setWordDone_good {v : NvVerify} (hv : v ≠ .failed) :
    (s.setWordDone r v).word (aNvr o) = w ∧
    (∀ b, b < aNvr o ∨ aNvr (o + 4) ≤ b → (s.setWordDone r v).byte b = s.byte b) ∧
    (s.setWordDone r v).clk = s.clk ∧ (s.setWordDone r v).sys = s.sys ∧
    (s.nv.wear.get (fun _ => 0) (o / 4) = 10 ^ 14 → (s.setWordDone r v).sticky 291 = true) ∧
    (s.setWordDone r v).host.waiting = s.host.waiting := by
  have haside := Dev.setWordDone_aside (s := s) hl v
  obtain ⟨-, ⟨hword, hbytes, ⟨_, _, _, _, heq⟩, -⟩, hworn⟩ := s.nvVerified_of_good o w hv
  refine ⟨(haside.word _).trans hword, fun b hb => (haside.byte b).trans (hbytes b hb), haside.clk.trans ?_,
    haside.sys.trans ?_, fun h => haside.stays 291 (hworn h), haside.waiting.trans ?_⟩ <;> rw [heq]

/-- After the first word the payload is taken as it stands, with its commit word last (R383, R385). -/
theorem Dev.setWordDone_fills {v : NvVerify} (hv : v ≠ .failed) (hc : r.cut = false) (he : l = []) (hf : r.filled = false) :
    ∃ x : NvRun, (s.setWordDone r v).nv.run = some x ∧ x.filled = true ∧ x.save = r.save ∧ x.gen = r.gen ∧
      x.left.getLast? = some (s.saveSlot r.save.set_.num, commitWord r.save.set_ r.gen) := by
  obtain ⟨hd, ⟨-, -, ⟨_, _, _, _, heq⟩, -⟩, -⟩ := s.nvVerified_of_good o w hv
  rw [Dev.setWordDone_first hl hc hd he hf]
  refine ⟨_, Dev.fillSave_run _ r, rfl, rfl, rfl, ?_⟩
  rw [heq]
  exact Dev.saveRest_last _ _ _

/-- After the last word the set is in force (R383, R384). -/
theorem Dev.setWordDone_forces {v : NvVerify} (hv : v ≠ .failed) (hc : r.cut = false) (he : l = []) (hf : r.filled = true) :
    (s.setWordDone r v).nv.run = none ∧
    ((∃ q, r.save.set_ = .cal q none) → (s.setWordDone r v).fld 0x904 7 0 =
      ((List.range 144).filter (fun q => (s.setWordDone r v).nvForce (3 + q) == 0)).length) ∧
    ((r.save.set_ = .repair ∨ r.save.set_ = .thermal ∨ (∃ e, r.save.set_ = .patch e) ∨ ∃ q, r.save.set_ = .cal q none) →
      (s.setWordDone r v).nvForce r.save.set_.num = if s.nvForce r.save.set_.num = 1 then 2 else 1) ∧
    (∀ j, r.save.job = some j → s.AnswersCmd (s.setWordDone r v) j 0 0
      (if r.save.set_ = .thermal ∨ ∃ e, r.save.set_ = .patch e then [wn r.gen] else [])) := by
  obtain ⟨hd, ⟨-, -, ⟨m, n, x, f, heq⟩, -⟩, -⟩ := s.nvVerified_of_good o w hv
  have hclk : (s.nvVerified o w v).1.clk = s.clk := by rw [heq]
  have hcpl : (s.nvVerified o w v).1.host.mspiCpl = s.host.mspiCpl := by rw [heq]
  have hforce : ∀ k, (s.nvVerified o w v).1.nvForce k = s.nvForce k := fun k => by rw [heq]; rfl
  rw [Dev.setWordDone_last hl hc hd he hf]
  generalize (s.nvVerified o w v).1 = u at hclk hcpl hforce ⊢
  obtain ⟨hnv, hregs⟩ := u.saveDone_slots r
  have hslot : ∀ k, (u.saveDone r).nvForce k = ((u.withRun none).inForce r.save.set_).nvForce k := fun k => by
    unfold Dev.nvForce
    rw [hnv]
  refine ⟨?_, ?_, fun hset => ?_, fun j hj => ?_⟩
  · rw [hnv, Dev.inForce_run]
    rfl
  · rintro ⟨q, hq⟩
    have hcard : (u.saveDone r).fld 0x904 7 0 = ((u.withRun none).inForce r.save.set_).fld 0x904 7 0 :=
      Dev.fld_congr (by unfold Dev.rd; rw [hregs]) 7 0
    rw [hcard]
    simp only [hslot]
    rw [hq]
    exact Dev.fld_calCount ((u.withRun none).flipSlot (3 + q))
  · rw [hslot, Dev.nvForce_inForce _ hset]
    have hkept : (u.withRun none).nvForce r.save.set_.num = s.nvForce r.save.set_.num := hforce _
    rw [hkept]
  · rw [← r.answer_eq]
    exact Dev.saveDone_answers hclk hcpl hj

/-- A word that fails raises NV_WRITE_FAIL, and NV_FAIL with no row left (R380). -/
theorem Dev.setWordDone_fails :
    (s.setWordDone r .failed).sticky 290 = true ∧ (s.nv.spare = 0 → (s.setWordDone r .failed).sticky 292 = true) ∧
    (s.setWordDone r .failed).host.waiting = s.host.waiting := by
  have haside := Dev.setWordDone_aside (s := s) hl .failed
  obtain ⟨hst, hlost, hwait⟩ := s.nvVerified_failed o w
  exact ⟨haside.stays 290 hst, fun h => haside.stays 292 (hlost h), haside.waiting.trans hwait⟩

/-- In a clean class a spare row takes the word (R380). -/
theorem Dev.setWordDone_spared (hc : s.Clean 9) (h : s.nv.spare ≠ 0) :
    (s.setWordDone r .failed).word (aNvr o) = w ∧ (s.setWordDone r .failed).nv.spare = s.nv.spare - 1 := by
  have haside := Dev.setWordDone_aside (s := s) hl .failed
  obtain ⟨hword, hspare⟩ := Dev.nvVerified_spared hc h o w
  exact ⟨(haside.word _).trans hword, haside.spare.trans hspare⟩

/-- In a clean class with no row left the save ends, and its command completes NV_FAIL (R380, R370). -/
theorem Dev.setWordDone_lost (hc : s.Clean 9) (h : s.nv.spare = 0) :
    ((s.setWordDone r .failed).word (aNvr o) = w ∨ (s.setWordDone r .failed).word (aNvr o) = s.word (aNvr o)) ∧
    (s.setWordDone r .failed).nv.run = none ∧
    (∀ j, r.cut = false → (r.save.job = some j ∧ (∀ q g, r.save.set_ ≠ .cal q (some g))) ∨
        (s.jobOf 0x71 = some j ∧ ∃ q g, r.save.set_ = .cal q (some g)) → s.AnswersCmd (s.setWordDone r .failed) j 13 0 []) := by
  have haside := Dev.setWordDone_aside (s := s) hl .failed
  obtain ⟨hword, hclk, hhost⟩ := Dev.nvVerified_lost hc h o w
  have hd : (s.nvVerified o w .failed).2 = false := by
    rw [Bool.eq_false_iff, ne_eq, s.nvVerified_durable]
    exact fun hor => hor.elim (fun hn => hn rfl) (fun hn => hn h)
  refine ⟨hword.imp (haside.word _).trans (haside.word _).trans, ?_, fun j hcut hj => ?_⟩
  · cases hcut : r.cut with
    | true =>
      rw [Dev.setWordDone_cut hl hcut]
      rfl
    | false =>
      rw [Dev.setWordDone_failed hl hcut hd]
      exact (Dev.NvAside.saveFails _ r).2
  · rw [Dev.setWordDone_failed hl hcut hd]
    exact Dev.saveFails_answers hclk hhost hj

end Word

/-! ### A word of a request (R340, R380) -/

/-- The device with other words of requests still to write. -/
def Dev.withSingles (s : Dev) (l : List NvWord) : Dev := { s with nv := { s.nv with singles := l } }

theorem Dev.nvWriteDone_of_single {s : Dev} {x : NvWord} {rest : List NvWord} (h : s.nv.singles = x :: rest) (v : NvVerify) :
    s.nvWriteDone v = s.singleDone x rest v := by
  rw [Dev.nvWriteDone, h]

theorem Dev.singleDone_of_more {s : Dev} {x : NvWord} (h : x.fin = none) (rest : List NvWord) (v : NvVerify) :
    s.singleDone x rest v = (s.nvVerified x.off x.val v).1.withSingles (if (s.nvVerified x.off x.val v).2 then rest else markBad rest) := by
  rw [Dev.singleDone, h]
  rfl

theorem Dev.singleDone_of_last {s : Dev} {x : NvWord} {f : NvFin} (h : x.fin = some f) (rest : List NvWord) (v : NvVerify) :
    s.singleDone x rest v = ((s.nvVerified x.off x.val v).1.withSingles rest).memDone f.hdr false
      (if f.bad || !(s.nvVerified x.off x.val v).2 then 4 else 0) f.words 0 [] := by
  rw [Dev.singleDone, h]
  rfl

theorem Dev.NvAside.singleDone (s : Dev) (x : NvWord) (rest : List NvWord) (v : NvVerify) :
    Dev.NvAside (s.nvVerified x.off x.val v).1 (s.singleDone x rest v) := by
  cases h : x.fin with
  | none =>
    rw [Dev.singleDone_of_more h]
    exact Dev.NvAside.nv _ rfl
  | some f =>
    rw [Dev.singleDone_of_last h, (Dev.memDone_relinked _ _ _ _ _ _ _).1]
    exact ⟨rfl, rfl, rfl, rfl, rfl, fun _ hg => hg⟩

/-- The request goes on, or its word's loss will complete it ECC. -/
theorem Dev.singleDone_rest {s : Dev} {x : NvWord} (h : x.fin = none) (rest : List NvWord) (v : NvVerify) :
    (s.singleDone x rest v).nv.singles = if v ≠ .failed ∨ s.nv.spare ≠ 0 then rest else markBad rest := by
  rw [Dev.singleDone_of_more h]
  exact if_congr (s.nvVerified_durable x.off x.val v) rfl rfl

/-- Its last word completes the request. -/
theorem Dev.singleDone_answers {s : Dev} {x : NvWord} {f : NvFin} (h : x.fin = some f) (rest : List NvWord) (v : NvVerify) :
    (s.singleDone x rest v).nv.singles = rest ∧ (s.singleDone x rest v).AnswersMem f.hdr false
      (if f.bad = true ∨ ¬(v ≠ .failed ∨ s.nv.spare ≠ 0) then 4 else 0) f.words 0 [] := by
  have hbad : (f.bad || !(s.nvVerified x.off x.val v).2) = true ↔ f.bad = true ∨ ¬(v ≠ .failed ∨ s.nv.spare ≠ 0) := by
    rw [Bool.or_eq_true, Bool.not_eq_true', ← s.nvVerified_durable x.off x.val v, Bool.not_eq_true]
  have hstatus : (if f.bad || !(s.nvVerified x.off x.val v).2 then 4 else 0) =
      if f.bad = true ∨ ¬(v ≠ .failed ∨ s.nv.spare ≠ 0) then 4 else 0 := if_congr hbad rfl rfl
  rw [Dev.singleDone_of_last h, ← hstatus]
  obtain ⟨hlinks, hans⟩ := Dev.memDone_relinked ((s.nvVerified x.off x.val v).1.withSingles rest) f.hdr false
    (if f.bad || !(s.nvVerified x.off x.val v).2 then 4 else 0) f.words 0 []
  exact ⟨by rw [hlinks]; rfl, hans⟩

/-! ### O56 -/

/-- Settles O56, part by part: the ends of jobs, a save's beginning, a word of a set, and a word of a request. -/
theorem jobsAndSavesEnd : Obligations.JobsAndSavesEnd := by
  unfold Obligations.JobsAndSavesEnd
  intro s
  refine ⟨fun j hj => ⟨?_, fun hgood => ?_⟩, fun hj => ?_, fun j hj => ?_, fun hj => ?_, fun j hj hs => ⟨fun ch => ?_, fun hnew => ?_⟩,
    fun hidle ch => ?_, fun j hj hs => ⟨fun ch => ?_, fun g n hleft hnew => ?_⟩, fun hidle ch => ?_, fun v r hrun hsaves => ?_,
    fun g q hrun hsaves hjob hg hq => ?_, fun hidle => ?_, fun r o w l v hs hr hl hw => ?_, fun r v hs hr hl hw => ?_,
    fun x rest v hs => ?_, fun hs hr v => ?_⟩
  case refine_1 =>
    have hcode : j.code ≠ 0x70 := by rw [Dev.jobOf_code hj]; decide
    obtain ⟨hans, hjobs, honly⟩ := Dev.crcReads_ended s.settleLogs.drawErrors.2 hcode s.settleLogs.drawErrors.1.1
      s.settleLogs.drawErrors.1.2
    rw [exec_loadCrcDone, Dev.loadCrcDone_of_job hj]
    exact ⟨_, rfl, hans, hjobs, honly⟩
  case refine_2 =>
    have hclean : ∀ k, k < (j.p 2).toNat / 4 →
        s.settleLogs.drawErrors.2.wordBad ((j.p 0).toNat + (j.p 1).toNat * 2 ^ 32 + 4 * k) k none = false ∧
          (j.p 0).toNat + (j.p 1).toNat * 2 ^ 32 + 4 * k ≠ aFrm 8 := fun k hk =>
      ⟨(s.toDev.wordBad_settle _ k).trans (hgood k hk).1, (hgood k hk).2⟩
    exact ⟨Dev.readFrom_all hclean, fun k hk => Dev.readFrom_stop hk hclean⟩
  case refine_3 => rw [exec_loadCrcDone, Dev.loadCrcDone_of_none hj]
  case refine_4 =>
    obtain ⟨hans, hwords, hbytes, hjobs, honly⟩ := Dev.cisFillDone_filled hj
    exact ⟨_, exec_cisFillDone s, hans, hwords, hbytes, hjobs, honly⟩
  case refine_5 => rw [exec_cisFillDone, Dev.cisFillDone_of_none hj]
  case refine_6 =>
    obtain ⟨hans, hcal, hjobs, honly⟩ := Dev.calQuadDone_failed hj hs ch
    exact ⟨_, exec_calQuadDone s (some ch), hans, hcal, hjobs, honly⟩
  case refine_7 =>
    rw [exec_calQuadDone, Dev.calQuadDone_of_good hj hs, Dev.requestSave_of_new (some j) hnew]
    exact ⟨_, rfl, rfl, rfl⟩
  case refine_8 => rw [exec_calQuadDone, Dev.calQuadDone_of_idle hidle]
  case refine_9 =>
    obtain ⟨hans, hjobs, hnv, honly⟩ := Dev.calFullDone_failed hj hs ch
    exact ⟨_, exec_calFullDone s (some ch), hans, hjobs, hnv, honly⟩
  case refine_10 =>
    have hcal := Dev.calLeft_of hleft
    rw [exec_calFullDone, Dev.calFullDone_saves hj hs (by rw [hcal]; exact hnew), hcal]
    exact ⟨_, rfl, rfl, rfl, rfl⟩
  case refine_11 => rw [exec_calFullDone, Dev.calFullDone_of_idle hidle]
  case refine_12 =>
    rw [exec_nvSetSave, Dev.beginSave_of_waiting hrun hsaves, Dev.runSave_eq]
    exact ⟨_, _, rfl, rfl, rfl, rfl, rfl, rfl, Dev.runOf_slot _, fun g hg => Dev.runOf_full _ hg, rfl⟩
  case refine_13 =>
    subst hg
    rw [exec_nvSetSave, Dev.beginSave_of_full hrun hsaves hjob hq, Dev.runSave_eq]
    exact ⟨_, _, rfl, rfl, rfl, rfl, rfl, rfl, rfl⟩
  case refine_14 => rw [exec_nvSetSave, Dev.beginSave_of_idle hidle]
  case refine_15 =>
    have hdone : s.nvWriteDone v = s.setWordDone r v := by
      refine Dev.nvWriteDone_of_run hs hr ?_
      by_cases hv : v = .failed
      · subst hv
        exact (Dev.setWordDone_fails (s := s.toDev) hl).2.2.trans hw
      · exact (Dev.setWordDone_good (s := s.toDev) hl hv).2.2.2.2.2.trans hw
    rw [exec_nvWriteDone, hdone]
    refine ⟨_, rfl, fun hv => ?_, ?_⟩
    · obtain ⟨hword, hbytes, hclk, hsys, hworn, -⟩ := Dev.setWordDone_good (s := s.toDev) hl hv
      have hd := (s.toDev.nvVerified_of_good o w hv).1
      refine ⟨hword, hbytes, hclk, hsys, hworn, fun hc => ?_, fun hc he => ?_, Dev.setWordDone_fills hl hv, Dev.setWordDone_forces hl hv⟩
      · rw [Dev.setWordDone_cut hl hc]
        rfl
      · rw [Dev.setWordDone_next hl hc hd he]
        rfl
    · rintro rfl
      obtain ⟨hfail, hnone, -⟩ := Dev.setWordDone_fails (s := s.toDev) hl
      exact ⟨hfail, hnone, fun h hc => Dev.setWordDone_spared hl hc h, fun h hc => Dev.setWordDone_lost hl hc h⟩
  case refine_16 =>
    have hdone : s.setWordDone r v = s.toDev := by rw [Dev.setWordDone, hl]
    rw [exec_nvWriteDone, Dev.nvWriteDone_of_run hs hr (by rw [hdone]; exact hw), hdone]
  case refine_17 =>
    have haside := Dev.NvAside.singleDone s.toDev x rest v
    rw [exec_nvWriteDone, Dev.nvWriteDone_of_single hs]
    refine ⟨_, rfl, fun hgood => (haside.word _).trans (Dev.nvVerified_word hgood _ _), ?_, fun hbad => ?_,
      fun hfin => Dev.singleDone_rest hfin rest v, fun f hfin => Dev.singleDone_answers hfin rest v, fun hv b hb => ?_⟩
    · rintro rfl
      exact haside.stays 290 (s.toDev.nvVerified_failed x.off x.val).1
    · obtain ⟨hv, hspare⟩ := not_or.mp hbad
      have hfail : v = .failed := not_not.mp hv
      subst hfail
      exact haside.stays 292 ((s.toDev.nvVerified_failed x.off x.val).2.1 (not_not.mp hspare))
    · exact (haside.byte b).trans ((s.toDev.nvVerified_of_good x.off x.val hv).2.1.bytes b hb)
  case refine_18 =>
    have hdone : s.nvWriteDone v = s.toDev := by rw [Dev.nvWriteDone, hs, hr]
    rw [exec_nvWriteDone, hdone]

end Sys2Proof.Machine
end

section
/-! PROOFS. What the load of NV at boot does to the device, word by word (R377, R380, R384, R386). -/

namespace Sys2Proof.Machine

/-! ### No occurrence of the tick stands above DEGRADE -/

/-- Every occurrence that the tick under way has joined is one of NV's class, and at DEGRADE or below. -/
def Dev.Calm (s : Dev) : Prop := ∀ o ∈ s.flt.joined, o.cls = 9 ∧ o.lvl ≤ 1

theorem Dev.Calm.of_flt {s t : Dev} (h : s.Calm) (hf : t.flt = s.flt) : t.Calm := by
  unfold Dev.Calm
  rw [hf]
  exact h

theorem Dev.Calm.of_none {s : Dev} (h : s.flt.joined = []) : s.Calm := by
  unfold Dev.Calm
  rw [h]
  nofun

/-- An occurrence that is counted joins the others of its tick, in place of the one of its class. -/
theorem Dev.joined_countOcc (s : Dev) (x l e : Nat) (o : OccNow) (rs : List (Nat × List Nat)) :
    (s.countOcc x l e o rs).flt.joined = s.flt.joined ∨ (s.countOcc x l e o rs).flt.joined =
      { cls := x, lvl := l, eff := e, srcs := o.srcs ++ rs } :: s.flt.joined.filter (fun p => decide (p.cls ≠ x)) := by
  unfold Dev.countOcc
  extract_lets s1 s2 k s3
  have h1 : s1.flt = s.flt :=
    forL_keeps (I := fun t : Dev => t.flt = s.flt) (fun f _ t h => (t.setFld_flt _ _ _ _).trans h) rfl
  have h2 : s2.flt = s.flt := by
    unfold s2
    split
    · rw [Dev.incSat_flt, h1]
    · exact h1
  have h3 : s3.flt.joined = s.flt.joined := by
    rw [← h2]
  clear_value s3
  split
  · exact .inr (by rw [← h3])
  · split
    · exact .inl (by rw [Dev.incSat_flt, h3])
    · exact .inl h3

theorem Dev.flt_recordRaise (s : Dev) (e f : Nat) : (s.recordRaise e f).flt = s.flt := by
  rw [Dev.recordRaise, Dev.setFld_flt, Dev.markRaise, Dev.incSat_flt]
  rfl

theorem Dev.flt_recordRaises (l : List Nat) (e : Nat) (s : Dev) : (forL l (fun f (t : Dev) => t.recordRaise e f) s).flt = s.flt :=
  forL_keeps (I := fun t : Dev => t.flt = s.flt) (fun f _ t h => (t.flt_recordRaise e f).trans h) rfl

theorem Dev.Calm.recordOcc {s : Dev} (h : s.Calm) {l : Nat} (hl : l ≤ 1) (e : Nat) (rs : List (Nat × List Nat)) :
    (s.recordOcc 9 l e rs).Calm := by
  unfold Dev.recordOcc
  have hflt := Dev.flt_recordRaises (rs.map (·.1)) e s
  generalize forL (rs.map (·.1)) (fun f (t : Dev) => t.recordRaise e f) s = t at hflt ⊢
  have ht : t.Calm := h.of_flt hflt
  intro o ho
  rcases t.joined_countOcc 9 l e (s.occNow 9) rs with hj | hj
  · rw [hj] at ho
    exact ht o ho
  · rw [hj] at ho
    rcases List.mem_cons.mp ho with rfl | ho
    · exact ⟨rfl, hl⟩
    · exact ht o (List.mem_filter.mp ho).1

/-- The occurrence of a class that the tick has joined stands at DEGRADE or below. -/
theorem Dev.Calm.occNow {s : Dev} (h : s.Calm) (x : Nat) : (s.occNow x).lvl ≤ 1 := by
  unfold Dev.occNow
  cases hf : s.flt.joined.find? (fun o => decide (o.cls = x)) with
  | none => exact Nat.zero_le 1
  | some o => exact (h o (List.mem_of_find?_eq_some hf)).2

/-- Another class than NV's has no occurrence in the tick. -/
theorem Dev.Calm.occNow_of_ne {s : Dev} (h : s.Calm) {x : Nat} (hx : x ≠ 9) : s.occNow x = { cls := x, lvl := 0, eff := 0, srcs := [] } := by
  unfold Dev.occNow
  rw [List.find?_eq_none.mpr (fun o ho => by rw [(h o ho).1, decide_eq_true_eq]; exact Ne.symm hx)]
  rfl

/-- A raise at DEGRADE does not reach SAFE, escalated or not (R291, R301). -/
theorem Dev.Calm.judge {s : Dev} (h : s.Calm) (x : Nat) {l : Nat} (hl : l ≤ 1) : (s.judgeOcc x l).1 ≤ 1 ∧ (s.judgeOcc x l).2 ≤ 2 := by
  have hm : max (s.occNow x).lvl l ≤ 1 := Nat.max_le.mpr ⟨h.occNow x, hl⟩
  refine ⟨hm, ?_⟩
  have heff : effLevel (max (s.occNow x).lvl l) (s.unackAt x) ≤ max (s.occNow x).lvl l + 1 := by
    unfold effLevel
    split
    · exact Nat.min_le_left _ _
    · exact Nat.le_succ _
  exact heff.trans (Nat.succ_le_succ hm)

theorem Dev.Calm.note {s : Dev} (h : s.Calm) {f : Nat} (hf : f / 32 = 9) : (s.note f).Calm := by
  unfold Dev.note
  split
  · rw [hf]
    exact h.recordOcc (h.judge 9 (Nat.zero_le 1)).1 _ _
  · exact h.of_flt rfl

/-! ### A word of NV is written -/

/-- A step that writes NV words alone, in a byte range. -/
structure Dev.NvStep (lo hi : Nat) (s t : Dev) : Prop where
  only  : ∃ m n r f, t = { s with mem := m, nv := n, regs := r, flt := f }
  bytes : ∀ b, b < aNvr lo ∨ aNvr hi ≤ b → t.byte b = s.byte b
  cause : t.rd 0x900 = s.rd 0x900
  slots : t.nv.slot = s.nv.slot
  calm  : s.Calm → t.Calm

namespace Dev.NvStep

theorem refl (lo hi : Nat) (s : Dev) : Dev.NvStep lo hi s s := ⟨⟨_, _, _, _, rfl⟩, fun _ _ => rfl, rfl, rfl, id⟩

theorem trans {lo hi : Nat} {s t u : Dev} (h : Dev.NvStep lo hi s t) (k : Dev.NvStep lo hi t u) : Dev.NvStep lo hi s u := by
  obtain ⟨⟨m, n, r, f, rfl⟩, hb, hc, hs, hcalm⟩ := h
  obtain ⟨⟨m', n', r', f', rfl⟩, kb, kc, ks, kcalm⟩ := k
  exact ⟨⟨m', n', r', f', rfl⟩, fun b hx => (kb b hx).trans (hb b hx), kc.trans hc, ks.trans hs, fun hx => kcalm (hcalm hx)⟩

theorem mono {lo hi lo' hi' : Nat} {s t : Dev} (h : Dev.NvStep lo hi s t) (hlo : lo' ≤ lo) (hhi : hi ≤ hi') : Dev.NvStep lo' hi' s t :=
  ⟨h.only, fun b hb => h.bytes b (hb.imp (fun hx => by unfold aNvr at *; omega) (fun hx => by unfold aNvr at *; omega)),
    h.cause, h.slots, h.calm⟩

/-- A word outside the range is kept. -/
theorem word {lo hi o : Nat} {s t : Dev} (h : Dev.NvStep lo hi s t) (ho : o + 4 ≤ lo ∨ hi ≤ o) : t.nvWord o = s.nvWord o :=
  Dev.word_congr (fun b _ _ => h.bytes b (by unfold aNvr at *; omega))

theorem nvPut (s : Dev) (o : Nat) (v : W) : Dev.NvStep o (o + 4) s (s.nvPut o v) := by
  obtain ⟨-, hbytes, ⟨m, w, r, f, heq⟩, -⟩ := s.nvWrote_nvPut o v
  have hcause := (s.cutFrame_nvPut o v).cause
  have hcalm : s.Calm → (s.nvPut o v).Calm := fun h => by
    have hstored : (s.nvStored o v).Calm := h.of_flt (by
      obtain ⟨m', n', hs⟩ := s.nvStored_only o v
      rw [hs])
    rw [Dev.nvPut_eq]
    split
    · exact hstored.note (by decide)
    · exact hstored
  exact ⟨⟨m, _, r, f, heq⟩, hbytes, hcause, by rw [heq], hcalm⟩

theorem nvCount (s : Dev) (o : Nat) : Dev.NvStep o (o + 4) s (s.nvCount o) := nvPut s o _

/-- Cards but the cause of the reset. -/
theorem wr (lo hi : Nat) (s : Dev) {a : Nat} (h : a ≠ 0x900) (v : W) : Dev.NvStep lo hi s (s.wr a v) :=
  ⟨⟨_, _, _, _, rfl⟩, fun _ _ => rfl, Dev.rd_wr_of_ne s (Ne.symm h) v, rfl, fun hc => hc.of_flt rfl⟩

theorem forN {lo hi : Nat} (n : Nat) (f : Nat → Dev → Dev) (h : ∀ k s, k < n → Dev.NvStep lo hi s (f k s)) (s : Dev) :
    Dev.NvStep lo hi s (Machine.forN n f s) :=
  forL_keeps (I := Dev.NvStep lo hi s) (fun k hk t ht => ht.trans (h k t (List.mem_range.mp hk))) (refl lo hi s)

end Dev.NvStep

/-- A counter of NVR, one more, saturating (R386). -/
def countUp (v : W) : W := if v = 0xFFFFFFFF then v else v + 1

theorem Dev.nvWord_nvCount (s : Dev) (o : Nat) : (s.nvCount o).nvWord o = countUp (s.nvWord o) := (s.nvWrote_nvPut o _).word

/-! ### The load judges its slots -/

/-- A set's slots lie above the identity, the counters and the log, and below CAL_FULL. -/
theorem nvSlot_range {n b : Nat} (hn : n < 147) (hb : b < 2) : 0x800 ≤ (nvSlot n b).1 ∧ 64 ≤ (nvSlot n b).2 ∧
    (nvSlot n b).1 + (nvSlot n b).2 ≤ 0x3A000 := by
  unfold nvSlot
  split_ifs <;> dsimp only <;> omega

section Judge
variable {s t : Dev} (h : ∀ o, 0x800 ≤ o → o < 0x40000 → t.nvWord o = s.nvWord o)
include h

theorem Dev.slotOk_congr {n b : Nat} (hn : n < 147) (hb : b < 2) (bad : List Nat) : t.slotOk bad n b = s.slotOk bad n b := by
  obtain ⟨hlo, hsize, hhi⟩ := nvSlot_range hn hb
  have hwords : t.nvWords ((nvSlot n b).1 + 64) (((nvSlot n b).2 - 64) / 4) = s.nvWords ((nvSlot n b).1 + 64) (((nvSlot n b).2 - 64) / 4) :=
    List.map_congr_left (fun i hi => h _ (by omega) (by have := List.mem_range.mp hi; omega))
  unfold Dev.slotOk
  dsimp only
  rw [h _ hlo (by omega), h _ (by omega) (by omega), hwords]

theorem Dev.slotCounts_congr {n b : Nat} (hn : n < 147) (hb : b < 2) (bad : List Nat) : t.slotCounts bad n b = s.slotCounts bad n b := by
  obtain ⟨hlo, hsize, hhi⟩ := nvSlot_range hn hb
  have hfull : t.calFullOk = s.calFullOk := by unfold Dev.calFullOk; rw [h 0x3A000 (by decide) (by decide)]
  have hgen : t.calFullGen = s.calFullGen := by unfold Dev.calFullGen; rw [hfull, h 0x3A000 (by decide) (by decide)]
  unfold Dev.slotCounts
  dsimp only
  rw [Dev.slotOk_congr h hn hb, h _ hlo (by omega), hfull, hgen]

theorem Dev.judge_congr {n : Nat} (hn : n < 147) (bad : List Nat) : t.judge bad n = s.judge bad n := by
  have h0 : t.slotCounts bad n 0 = s.slotCounts bad n 0 := Dev.slotCounts_congr h hn Nat.zero_lt_two bad
  have h1 : t.slotCounts bad n 1 = s.slotCounts bad n 1 := Dev.slotCounts_congr h hn Nat.one_lt_two bad
  obtain ⟨hlo0, hsize0, hhi0⟩ := nvSlot_range hn Nat.zero_lt_two
  obtain ⟨hlo1, hsize1, hhi1⟩ := nvSlot_range hn Nat.one_lt_two
  have w0 := h (nvSlot n 0).1 hlo0 (by omega)
  have w1 := h (nvSlot n 1).1 hlo1 (by omega)
  unfold Dev.judge
  simp only [h0, h1, w0, w1]

end Judge

/-- The slots in force as the load judges them. -/
def Dev.judged (s : Dev) (bad : List Nat) (n : Nat) : Tab Nat :=
  (List.range n).foldl (fun (t : Tab Nat) k => Tab.set (fun _ => 0) k (s.judge bad k) t) []

theorem Dev.get_judged (s : Dev) (bad : List Nat) {n k : Nat} (hk : k < n) : (s.judged bad n).get (fun _ => 0) k = s.judge bad k := by
  induction n with
  | zero => exact absurd hk (Nat.not_lt_zero k)
  | succ n ih =>
    have hstep : s.judged bad (n + 1) = (s.judged bad n).set (fun _ => 0) n (s.judge bad n) := by
      unfold Dev.judged
      rw [List.range_succ, List.foldl_append]
      rfl
    rw [hstep]
    rcases Nat.lt_succ_iff_lt_or_eq.mp hk with hlt | rfl
    · rw [Tab.get_set_of_ne _ (Nat.ne_of_lt hlt)]
      exact ih hlt
    · exact Tab.get_set_self _ _ _ _

theorem Dev.NvStep.dropSlot (s : Dev) (bad : List Nat) {n b : Nat} (hn : n < 147) (hb : b < 2) :
    Dev.NvStep 0x800 0x3A000 s (s.dropSlot bad n b) := by
  obtain ⟨hlo, hsize, hhi⟩ := nvSlot_range hn hb
  unfold Dev.dropSlot
  dsimp only
  split
  · exact (Dev.NvStep.nvPut s _ _).mono hlo (by omega)
  · exact Dev.NvStep.refl _ _ s

/-- The slots that did not count, dropped. -/
def Dev.dropped (s : Dev) (bad : List Nat) : Dev := forN 147 (fun n t => (t.dropSlot bad n 0).dropSlot bad n 1) s

theorem Dev.NvStep.dropped (s : Dev) (bad : List Nat) : Dev.NvStep 0x800 0x3A000 s (s.dropped bad) :=
  Dev.NvStep.forN 147 _ (fun _ t hk => (Dev.NvStep.dropSlot t bad hk (by decide)).trans (Dev.NvStep.dropSlot _ bad hk (by decide))) s

/-- The load: its slots in force, and the words it drops (R384). -/
theorem Dev.loadNv_loaded (s : Dev) (bad : List Nat) :
    (∃ m n r f, s.loadNv bad = { s with mem := m, nv := n, regs := r, flt := f }) ∧
    (∀ b, b < aNvr 0x800 ∨ aNvr 0x3A000 ≤ b → (s.loadNv bad).byte b = s.byte b) ∧
    (s.loadNv bad).rd 0x900 = s.rd 0x900 ∧ (∀ n, n < 147 → (s.loadNv bad).nvForce n = s.judge bad n) ∧
    (s.Calm → (s.loadNv bad).Calm) := by
  have heq : ∃ v, s.loadNv bad = Dev.wr { s.dropped bad with nv := { (s.dropped bad).nv with slot := s.judged bad 147 } } 0x904 v := ⟨_, rfl⟩
  obtain ⟨v, hv⟩ := heq
  obtain ⟨⟨m, n, r, f, hd⟩, hbytes, hcause, -, hcalm⟩ := Dev.NvStep.dropped s bad
  rw [hv]
  generalize s.dropped bad = u at hd hbytes hcause hcalm ⊢
  refine ⟨⟨_, _, _, f, by rw [hd]; rfl⟩, hbytes, (Dev.rd_wr_of_ne _ (by decide) v).trans hcause,
    fun k hk => s.get_judged bad hk, fun h => (hcalm h).of_flt rfl⟩

end Sys2Proof.Machine
end

section
/-! PROOFS. What the errors and faults that the self-test finds lead to (R302, R308, R377, R380). -/

namespace Sys2Proof.Machine

/-! ### An NV word that cannot be corrected -/

/-- NV_ECC2 of a word. -/
def ecc2Raise (o : Nat) : Raise := { f := 289, lvl := 1, sites := [], unit := o, forced := false }

/-- The sites of the occurrence that an NV_ECC2 lifts to VOID are voided; none of its own are. -/
theorem Dev.reacts_ecc2 (s : Dev) {e : Nat} (he : ¬3 ≤ e) (o : OccNow) (u : Nat) :
    ∃ v, s.VoidFrame v ∧ s.reacts 9 e o [ecc2Raise u] = v.nvRowSpare u := by
  have hsites : ∀ d : Dev, ∃ v, d.VoidFrame v ∧ d.react e (ecc2Raise u) = v.nvRowSpare u := fun d => by
    refine ⟨if e = 2 then d.voidSites (causeBit 289) [] else d, ?_, rfl⟩
    split
    · exact Dev.voidFrame_voidSites d _ _
    · rfl
  have hearlier : s.VoidFrame (if e = 2 && o.eff < 2 then forL o.srcs (fun r s => s.voidSites (causeBit r.1) r.2) s else s) := by
    split
    · exact forL_keeps (I := s.VoidFrame) (fun r _ t h => h.trans (t.voidFrame_voidSites _ _)) rfl
    · rfl
  obtain ⟨v, hv, heq⟩ := hsites (if e = 2 && o.eff < 2 then forL o.srcs (fun r s => s.voidSites (causeBit r.1) r.2) s else s)
  refine ⟨v, hearlier.trans hv, ?_⟩
  rw [Dev.reacts, if_neg he]
  exact heq

/-- NV_ECC2: it is marked where it is masked, or leads to SAFE, or the word takes a spare row. -/
theorem Dev.nvEcc2_cases (s : Dev) (o : Nat) :
    ∃ u, s.NoteFrame u ∧ (s.Calm → u.Calm) ∧
      (s.nvEcc2 o = u ∨ (¬s.Calm ∧ s.nvEcc2 o = u.enterSafe 9) ∨ ∃ v, u.VoidFrame v ∧ s.nvEcc2 o = v.nvRowSpare o) := by
  cases hen : ((ecc2Raise o).forced || s.srcEn (ecc2Raise o).f) with
  | false =>
    exact ⟨s.markRaise 289, Dev.noteFrame_markRaise s _, fun h => h.of_flt rfl, .inl (Dev.raise_of_masked hen)⟩
  | true =>
    have hraise : s.nvEcc2 o = s.raise (ecc2Raise o) := rfl
    have hclass : (ecc2Raise o).f / 32 = 9 := show 289 / 32 = 9 from rfl
    have hmax : [ecc2Raise o].foldl (fun m r => max m r.lvl) 0 = 1 := rfl
    have hocc : s.nvEcc2 o = (s.recordOcc 9 (s.judgeOcc 9 1).1 (s.judgeOcc 9 1).2 [(289, [])]).reacts 9 (s.judgeOcc 9 1).2
        (s.occNow 9) [ecc2Raise o] := by
      rw [hraise, Dev.raise_eq_occur (show 289 < 384 by decide) hen, hclass, Dev.occur, hmax]
      rfl
    have hjudge : s.Calm → (s.judgeOcc 9 1).1 ≤ 1 ∧ (s.judgeOcc 9 1).2 ≤ 2 := fun h => h.judge 9 (l := 1) (Nat.le_refl 1)
    rw [hocc]
    generalize s.judgeOcc 9 1 = j at hjudge ⊢
    have hcalm : s.Calm → (s.recordOcc 9 j.1 j.2 [(289, [])]).Calm := fun h => h.recordOcc (hjudge h).1 _ _
    refine ⟨s.recordOcc 9 j.1 j.2 [(289, [])], Dev.noteFrame_recordOcc s _ _ _ _, hcalm, .inr ?_⟩
    by_cases he : 3 ≤ j.2
    · refine .inl ⟨fun h => absurd (hjudge h).2 (by omega), ?_⟩
      rw [Dev.reacts, if_pos he]
    · exact .inr (Dev.reacts_ecc2 _ he _ o)

/-! ### What the load's errors leave alone -/

/-- Memory outside NVR, clock and TAP are kept. -/
structure Dev.OutsideNv (s t : Dev) : Prop where
  bytes : ∀ b, b < aNvr 0 ∨ aNvr 0x40000 ≤ b → t.byte b = s.byte b
  clk   : t.clk = s.clk
  tap   : t.jtag = s.jtag ∧ t.tdo = s.tdo

namespace Dev.OutsideNv

theorem refl (s : Dev) : Dev.OutsideNv s s := ⟨fun _ _ => rfl, rfl, rfl, rfl⟩

theorem trans {s t u : Dev} (h : Dev.OutsideNv s t) (k : Dev.OutsideNv t u) : Dev.OutsideNv s u :=
  ⟨fun b hb => (k.bytes b hb).trans (h.bytes b hb), k.clk.trans h.clk, k.tap.1.trans h.tap.1, k.tap.2.trans h.tap.2⟩

theorem of_mem {s t : Dev} (hm : t.mem = s.mem) (hc : t.clk = s.clk) (hj : t.jtag = s.jtag) (ht : t.tdo = s.tdo) : Dev.OutsideNv s t :=
  ⟨fun b _ => by unfold Dev.byte; rw [hm], hc, hj, ht⟩

theorem note {s t : Dev} (h : s.NoteFrame t) : Dev.OutsideNv s t := by
  obtain ⟨_, _, rfl⟩ := h
  exact of_mem rfl rfl rfl rfl

theorem fault {s t : Dev} (h : s.FaultFrame t) : Dev.OutsideNv s t :=
  ⟨fun b hb => h.bytes b (by unfold aNvr at *; omega), h.clk, h.tap⟩

theorem step {lo hi : Nat} {s t : Dev} (h : Dev.NvStep lo hi s t) (hhi : hi ≤ 0x40000) : Dev.OutsideNv s t := by
  obtain ⟨⟨m, n, r, f, rfl⟩, hbytes, -, -, -⟩ := h
  exact ⟨fun b hb => hbytes b (by unfold aNvr at *; omega), rfl, rfl, rfl⟩

theorem nvRowSpare (s : Dev) {o : Nat} (ho : o + 4 ≤ 0x40000) : Dev.OutsideNv s (s.nvRowSpare o) := by
  unfold Dev.nvRowSpare
  split
  · exact note (Dev.noteFrame_note s _)
  · have hdraw : Dev.OutsideNv s s.draw.2 := of_mem rfl rfl rfl rfl
    have hput := step (Dev.NvStep.nvPut s.draw.2 o s.draw.1) ho
    dsimp only
    generalize s.draw.2.nvPut o s.draw.1 = t at hput ⊢
    exact (hdraw.trans hput).trans (of_mem rfl rfl rfl rfl)

theorem nvEcc2 (s : Dev) {o : Nat} (ho : o + 4 ≤ 0x40000) : Dev.OutsideNv s (s.nvEcc2 o) := by
  obtain ⟨u, hnote, -, h | ⟨-, h⟩ | ⟨v, hv, h⟩⟩ := s.nvEcc2_cases o
  · rw [h]
    exact note hnote
  · rw [h]
    exact (note hnote).trans (fault (Upset.enterSafe u (by decide)).rest)
  · rw [h]
    have hvoid : Dev.OutsideNv u v := by
      obtain ⟨_, _, rfl⟩ := hv.exists
      exact of_mem rfl rfl rfl rfl
    exact ((note hnote).trans hvoid).trans (nvRowSpare v ho)

end Dev.OutsideNv

/-- The note of a corrected word. -/
theorem Dev.NvStep.note (lo hi : Nat) (s : Dev) {f : Nat} (hf : f / 32 = 9) : Dev.NvStep lo hi s (s.note f) := by
  have hcause := (Upset.note s (f := f) (by omega)).rest.cards 0x900 (by decide) (by decide) (by decide)
  have hcalm : s.Calm → (s.note f).Calm := fun h => h.note hf
  obtain ⟨r, x, heq⟩ := s.noteFrame_note f
  rw [heq] at hcause hcalm ⊢
  exact ⟨⟨_, _, _, _, rfl⟩, fun _ _ => rfl, hcause, rfl, hcalm⟩

theorem Dev.NvStep.nvEcc1 (s : Dev) (o : Nat) : Dev.NvStep o (o + 4) s (s.nvEcc1 o) :=
  (Dev.NvStep.nvPut s o _).trans (Dev.NvStep.note _ _ _ (by decide))

/-- Calm at a load's error: the mode stands (R291, R301). -/
def Dev.CalmStep (s t : Dev) : Prop := s.Calm → t.Calm ∧ t.sys.mode = s.sys.mode

theorem Dev.CalmStep.trans {s t u : Dev} (h : Dev.CalmStep s t) (k : Dev.CalmStep t u) : Dev.CalmStep s u := fun hc => by
  obtain ⟨ht, hm⟩ := h hc
  obtain ⟨hu, hm'⟩ := k ht
  exact ⟨hu, hm'.trans hm⟩

theorem Dev.CalmStep.step {lo hi : Nat} {s t : Dev} (h : Dev.NvStep lo hi s t) : Dev.CalmStep s t := fun hc => by
  obtain ⟨_, _, _, _, heq⟩ := h.only
  exact ⟨h.calm hc, by rw [heq]⟩

theorem Dev.CalmStep.nvRowSpare (s : Dev) (o : Nat) : Dev.CalmStep s (s.nvRowSpare o) := by
  unfold Dev.nvRowSpare
  split
  · exact Dev.CalmStep.step (Dev.NvStep.note 0 0 s (f := 292) (by decide))
  · have hput := Dev.CalmStep.step (Dev.NvStep.nvPut s.draw.2 o s.draw.1)
    dsimp only
    generalize s.draw.2.nvPut o s.draw.1 = t at hput ⊢
    intro hc
    obtain ⟨ht, hm⟩ := hput (hc.of_flt rfl)
    exact ⟨ht.of_flt rfl, hm⟩

theorem Dev.CalmStep.nvEcc2 (s : Dev) (o : Nat) : Dev.CalmStep s (s.nvEcc2 o) := by
  intro hc
  obtain ⟨u, hnote, hcalm, h | ⟨hn, -⟩ | ⟨v, hv, h⟩⟩ := s.nvEcc2_cases o
  · rw [h]
    exact ⟨hcalm hc, congrArg Sys.mode hnote.sys⟩
  · exact absurd hc hn
  · obtain ⟨x, y, rfl⟩ := hv.exists
    have hspare := Dev.CalmStep.nvRowSpare { u with sites := x, engs := y } o ((hcalm hc).of_flt rfl)
    rw [h]
    exact ⟨hspare.1, hspare.2.trans (congrArg Sys.mode hnote.sys)⟩

/-- What the load's errors leave: memory outside NVR, clock and TAP, the parts of `sys` that SAFE entry leaves, and, calm, the
mode. -/
structure Dev.LoadKept (s t : Dev) : Prop where
  out  : Dev.OutsideNv s t
  sys  : ∃ m r a d, t.sys = { s.sys with mode := m, req := r, asked := a, safeDue := d }
  calm : Dev.CalmStep s t

theorem Dev.LoadKept.refl (s : Dev) : Dev.LoadKept s s := ⟨Dev.OutsideNv.refl s, ⟨_, _, _, _, rfl⟩, fun h => ⟨h, rfl⟩⟩

theorem Dev.LoadKept.trans {s t u : Dev} (h : Dev.LoadKept s t) (k : Dev.LoadKept t u) : Dev.LoadKept s u := by
  obtain ⟨m, r, a, d, hs⟩ := h.sys
  obtain ⟨m', r', a', d', ks⟩ := k.sys
  exact ⟨h.out.trans k.out, ⟨m', r', a', d', by rw [ks, hs]⟩, h.calm.trans k.calm⟩

theorem Dev.LoadKept.step {lo hi : Nat} {s t : Dev} (h : Dev.NvStep lo hi s t) (hhi : hi ≤ 0x40000) : Dev.LoadKept s t := by
  refine ⟨Dev.OutsideNv.step h hhi, ?_, Dev.CalmStep.step h⟩
  obtain ⟨_, _, _, _, heq⟩ := h.only
  exact ⟨_, _, _, _, by rw [heq]⟩

/-- What the ECC of the load finds, word by word (R380). -/
theorem Dev.LoadKept.nvFound (s : Dev) (l : List (BitVec 16 × Bool)) : Dev.LoadKept s (s.nvFound l) := by
  refine forL_keeps (I := Dev.LoadKept s) (fun x _ t h => h.trans ?_) (Dev.LoadKept.refl s)
  have hoff : 4 * x.1.toNat + 4 ≤ 0x40000 := by omega
  split
  · exact ⟨Dev.OutsideNv.nvEcc2 t hoff, (Dev.Steady.raise t _).sys, Dev.CalmStep.nvEcc2 t _⟩
  · exact Dev.LoadKept.step (Dev.NvStep.nvEcc1 t _) hoff

end Sys2Proof.Machine
end

section
/-! PROOFS. The end of the self-test: what the load applies, the faults it raises, the domains it asks for (R302, R322,
R377, R389-R391). -/

namespace Sys2Proof.Machine

/-! ### The sets in force become live state -/

/-- Cards, quads, engines, lanes, the cistern's spares and the patch alone may differ. -/
def Dev.Applied (s t : Dev) : Prop :=
  ∃ r q e l c u, t = { s with regs := r, quads := q, engs := e, lanes := l, cis := c, ucs := u }

namespace Dev.Applied

theorem refl (s : Dev) : Dev.Applied s s := ⟨_, _, _, _, _, _, rfl⟩

theorem trans {s t u : Dev} (h : Dev.Applied s t) (k : Dev.Applied t u) : Dev.Applied s u := by
  obtain ⟨_, _, _, _, _, _, rfl⟩ := h
  obtain ⟨_, _, _, _, _, _, rfl⟩ := k
  exact ⟨_, _, _, _, _, _, rfl⟩

theorem wr (s : Dev) (a : Nat) (v : W) : Dev.Applied s (s.wr a v) := ⟨_, _, _, _, _, _, rfl⟩

theorem onQuad (s : Dev) (q : Nat) (f : Quad → Quad) : Dev.Applied s (s.onQuad q f) := ⟨_, _, _, _, _, _, rfl⟩

theorem onEng (s : Dev) (e : Nat) (f : Eng → Eng) : Dev.Applied s (s.onEng e f) := ⟨_, _, _, _, _, _, rfl⟩

theorem onLane (s : Dev) (j : Nat) (f : Lane → Lane) : Dev.Applied s (s.onLane j f) := ⟨_, _, _, _, _, _, rfl⟩

theorem setSpareBank (s : Dev) (n : Nat) (x : SpareBank) : Dev.Applied s (s.setSpareBank n x) := ⟨_, _, _, _, _, _, rfl⟩

theorem ucs (s : Dev) (u : Ucs) : Dev.Applied s { s with ucs := u } := ⟨_, _, _, _, _, _, rfl⟩

theorem ite {s t : Dev} {c : Prop} [Decidable c] (h : Dev.Applied s t) : Dev.Applied s (if c then t else s) := by
  split
  · exact h
  · exact refl s

theorem forN (n : Nat) (f : Nat → Dev → Dev) (h : ∀ k s, Dev.Applied s (f k s)) (s : Dev) : Dev.Applied s (Machine.forN n f s) :=
  forL_keeps (I := Dev.Applied s) (fun k _ t ht => ht.trans (h k t)) (refl s)

theorem applyMap (s : Dev) : Dev.Applied s s.applyMap := by
  unfold Dev.applyMap
  split
  · exact refl s
  · refine trans (trans (trans (forN 144 _ (fun q t => ?_) s) (forN 272 _ (fun e t => ite (onEng t e _)) _))
      (forN 4 _ (fun n t => setSpareBank t n _) _)) (forN 16 _ (fun j t => ite (onLane t j _)) _)
    dsimp only
    split
    · exact refl t
    · exact onQuad t q _

theorem applyThermal (s : Dev) : Dev.Applied s s.applyThermal := by
  unfold Dev.applyThermal
  split
  · exact refl s
  · refine trans (forN 28 _ (fun z t => ?_) s) (forN 8 _ (fun r t => wr t _ _) _)
    split
    · exact (wr t _ _).trans (wr _ _ _)
    · exact wr t _ _

theorem installPatch (s : Dev) : Dev.Applied s s.installPatch := by
  unfold Dev.installPatch
  extract_lets a s1 w s2 empty s3 s4 s5 s6
  have h1 : Dev.Applied s s1 := wr s _ _
  have h2 : Dev.Applied s s2 := h1.trans (wr s1 _ _)
  have h5 : Dev.Applied s s5 := (h2.trans (wr s2 _ _)).trans (((wr s3 _ _).trans (wr _ _ _)).trans (forN 64 _ (fun n t => wr t _ _) s4))
  have h6 : Dev.Applied s s6 := h5.trans (forN 256 _ (fun o t => wr t _ _) s5)
  clear_value s6 s5 s2 s1
  split
  · exact h1
  · split
    · exact h2
    · exact h6.trans (forN 1024 _ (fun p t => ite (ucs t _)) s6)

end Dev.Applied

/-- The sets in force become live state; a patch is not installed in RECOVERY (R377). -/
def Dev.bootApplied (s : Dev) : Dev :=
  let s := s.applyMap.applyThermal
  if s.sys.mode = .recovery then s else s.installPatch

theorem Dev.Applied.boot (s : Dev) : Dev.Applied s s.bootApplied := by
  have h := (Dev.Applied.applyMap s).trans (Dev.Applied.applyThermal s.applyMap)
  unfold Dev.bootApplied
  dsimp only
  split
  · exact h
  · exact h.trans (Dev.Applied.installPatch _)

/-! ### Bad clusters and banks -/

/-- The clusters that failed, off. -/
def Dev.clustersCut (s : Dev) (u : SelfTest) : Dev := forL (u.badClusters.map (·.val)) (fun k t => t.domCut (144 + k)) s

/-- The raises of the clusters and banks that failed; a bank already replaced raises none. -/
def Dev.testRaises (s d : Dev) (u : SelfTest) : List Raise :=
  (u.badClusters.map (·.val)).map (fun k => raiseAt 36 2 (d.clusterAim k)) ++
    ((u.badBanks.map (·.val)).filter (fun b => !s.bankHandled b)).map weakOf

theorem Dev.testFaults_eq (s : Dev) (u : SelfTest) :
    s.testFaults u = if (s.testRaises (s.clustersCut u) u).isEmpty then s.clustersCut u
      else (s.clustersCut u).raises (s.testRaises (s.clustersCut u) u) := rfl

theorem Dev.testRaises_plain (s d : Dev) (u : SelfTest) : ∀ r ∈ s.testRaises d u, r.plain := by
  intro r hr
  rcases List.mem_append.mp hr with hr | hr
  · obtain ⟨k, -, rfl⟩ := List.mem_map.mp hr
    exact ⟨show 36 < 384 by decide, show 36 ≠ 289 by decide⟩
  · obtain ⟨b, -, rfl⟩ := List.mem_map.mp hr
    exact weakOf_plain b

theorem Dev.pwrFrame_domCut (s : Dev) (n : Nat) : s.PwrFrame (s.domCut n) := rfl

theorem Dev.domAsked_domCut (s : Dev) (m n : Nat) : (s.domCut m).domAsked n = (decide (n ≠ m) && s.domAsked n) := by
  have hrmv : ∀ l : List Nat, (rmv m l).contains n = (decide (n ≠ m) && l.contains n) := fun l => by
    rw [Bool.eq_iff_iff]
    simp [rmv, and_comm]
  have heq : (s.domCut m).domAsked n = ((rmv m s.pwr.on).contains n || (rmv m s.pwr.wait).contains n || (rmv m s.pwr.fresh).contains n) := rfl
  rw [heq, hrmv, hrmv, hrmv, ← Bool.and_or_distrib_left, ← Bool.and_or_distrib_left]
  rfl

theorem Dev.pwrFrame_clustersCut (s : Dev) (u : SelfTest) : s.PwrFrame (s.clustersCut u) :=
  forL_keeps (I := s.PwrFrame) (fun k _ t h => h.trans (t.pwrFrame_domCut _)) rfl

/-- A cluster that failed is not asked for. -/
theorem Dev.domAsked_clustersCut (s : Dev) {u : SelfTest} {k : Fin 16} (hk : k ∈ u.badClusters) :
    (s.clustersCut u).domAsked (144 + k.val) = false := by
  refine forL_reaches (I := fun _ => True) (P := fun t : Dev => t.domAsked (144 + k.val) = false)
    (List.mem_map.mpr ⟨k, hk, rfl⟩) (fun _ _ _ _ => trivial) (fun t _ => ?_) (fun i _ t ht => ?_) trivial
  · rw [Dev.domAsked_domCut]
    simp
  · rw [Dev.domAsked_domCut, ht, Bool.and_false]

/-- The faults that the self-test found, raised. -/
theorem Upset.testFaults (s : Dev) (u : SelfTest) : Upset (s.clustersCut u) (s.testFaults u) := by
  rw [Dev.testFaults_eq]
  split
  · exact Upset.refl _
  · exact Upset.raises _ _ (s.testRaises_plain _ u)

theorem Dev.Steady.testFaults (s : Dev) (u : SelfTest) : (s.clustersCut u).Steady (s.testFaults u) := by
  rw [Dev.testFaults_eq]
  split
  · exact Dev.Steady.refl _
  · exact Dev.Steady.raises _ _

theorem Dev.testFaults_cluster (s : Dev) {u : SelfTest} {k : Fin 16} (hk : k ∈ u.badClusters) :
    (s.testFaults u).sticky 36 = true ∧ (s.testFaults u).domAsked (144 + k.val) = false := by
  have hin : raiseAt 36 2 ((s.clustersCut u).clusterAim k.val) ∈ s.testRaises (s.clustersCut u) u :=
    List.mem_append_left _ (List.mem_map.mpr ⟨k.val, List.mem_map.mpr ⟨k, hk, rfl⟩, rfl⟩)
  refine ⟨?_, ?_⟩
  · rw [Dev.testFaults_eq, if_neg (by simpa using List.ne_nil_of_mem hin)]
    exact Dev.raises_sticky _ (r := raiseAt 36 2 _) (s.testRaises_plain _ u) hin
  · obtain ⟨hon, -, hwait, hfresh, -, -⟩ := (Upset.testFaults s u).rest.power
    have hasked := s.domAsked_clustersCut hk
    unfold Dev.domAsked Dev.domOn at hasked ⊢
    rw [hon, hwait, hfresh]
    exact hasked

/-! ### Banks alone, in a tick without other classes -/

/-- Cards, the cistern's spares and the fault unit alone may differ. -/
def Dev.BankFrame (s t : Dev) : Prop := ∃ r c f, t = { s with regs := r, cis := c, flt := f }

namespace Dev.BankFrame

theorem refl (s : Dev) : Dev.BankFrame s s := ⟨_, _, _, rfl⟩

theorem trans {s t u : Dev} (h : Dev.BankFrame s t) (k : Dev.BankFrame t u) : Dev.BankFrame s u := by
  obtain ⟨_, _, _, rfl⟩ := h
  obtain ⟨_, _, _, rfl⟩ := k
  exact ⟨_, _, _, rfl⟩

theorem note {s t : Dev} (h : s.NoteFrame t) : Dev.BankFrame s t := by
  obtain ⟨_, _, rfl⟩ := h
  exact ⟨_, _, _, rfl⟩

theorem replaceBank (s : Dev) (b : Nat) : Dev.BankFrame s (s.replaceBank b) := by
  unfold Dev.replaceBank
  split
  · exact refl s
  · split
    · exact ⟨_, _, _, rfl⟩
    · split
      · exact ⟨_, _, _, rfl⟩
      · exact note (Dev.noteFrame_note s _)

theorem react (s : Dev) (e b : Nat) : Dev.BankFrame s (s.react e (weakOf b)) := by
  have heq : s.react e (weakOf b) = (if e = 2 then s.voidSites (causeBit 130) [] else s).replaceBank b := rfl
  have hnone : (if e = 2 then s.voidSites (causeBit 130) [] else s) = s := by split <;> rfl
  rw [heq, hnone]
  exact replaceBank s b

theorem forL {α : Type} (l : List α) (f : α → Dev → Dev) (h : ∀ a ∈ l, ∀ s, Dev.BankFrame s (f a s)) (s : Dev) :
    Dev.BankFrame s (Machine.forL l f s) :=
  forL_keeps (I := Dev.BankFrame s) (fun a ha t ht => ht.trans (h a ha t)) (refl s)

/-- An occurrence of weak banks does not reach SAFE, and voids no site. -/
theorem occur {s : Dev} (h : s.Calm) {rs : List Raise} (hrs : ∀ r ∈ rs, ∃ b, r = weakOf b) : Dev.BankFrame s (s.occur 4 rs) := by
  have hmax : rs.foldl (fun m r => max m r.lvl) 0 ≤ 1 := by
    have hgo : ∀ l : List Raise, (∀ r ∈ l, ∃ b, r = weakOf b) → ∀ m, m ≤ 1 → l.foldl (fun m r => max m r.lvl) m ≤ 1 := by
      intro l
      induction l with
      | nil => intro _ m hm; exact hm
      | cons r l ih =>
        intro hl m hm
        obtain ⟨b, rfl⟩ := hl r List.mem_cons_self
        exact ih (fun q hq => hl q (List.mem_cons_of_mem _ hq)) _ (Nat.max_le.mpr ⟨hm, Nat.le_refl 1⟩)
    exact hgo rs hrs 0 (Nat.zero_le 1)
  have he := (h.judge 4 hmax).2
  have hnow := h.occNow_of_ne (x := 4) (by decide)
  unfold Dev.occur
  dsimp only
  generalize s.judgeOcc 4 (rs.foldl (fun m r => max m r.lvl) 0) = j at he ⊢
  rw [hnow]
  have hrec := Dev.noteFrame_recordOcc s 4 j.1 j.2 (rs.map (fun r => (r.f, r.sites)))
  generalize s.recordOcc 4 j.1 j.2 (rs.map (fun r => (r.f, r.sites))) = v at hrec ⊢
  refine (note hrec).trans ?_
  have hearlier : (if j.2 = 2 && (0 : Nat) < 2 then Machine.forL ([] : List (Nat × List Nat)) (fun r (s : Dev) => s.voidSites (causeBit r.1) r.2) v else v) = v := by
    split <;> rfl
  rw [Dev.reacts, if_neg (by omega)]
  dsimp only
  rw [hearlier]
  exact forL rs _ (fun r hr t => by obtain ⟨b, rfl⟩ := hrs r hr; exact react t j.2 b) v

theorem raises {s : Dev} (h : s.Calm) {rs : List Raise} (hrs : ∀ r ∈ rs, ∃ b, r = weakOf b) : Dev.BankFrame s (s.raises rs) := by
  rw [Dev.raises_eq_occurOf]
  have hmark : Dev.BankFrame s (Machine.forL (rs.filter (fun r => !(r.forced || s.srcEn r.f))) (fun r s => s.markRaise r.f) s) :=
    forL _ _ (fun r _ t => note (Dev.noteFrame_markRaise t _)) s
  have hflt : (Machine.forL (rs.filter (fun r => !(r.forced || s.srcEn r.f))) (fun r (s : Dev) => s.markRaise r.f) s).flt = s.flt :=
    forL_keeps (I := fun t : Dev => t.flt = s.flt) (fun r _ t ht => by rw [← ht]; rfl) rfl
  generalize Machine.forL (rs.filter (fun r => !(r.forced || s.srcEn r.f))) (fun r (s : Dev) => s.markRaise r.f) s = u at hmark hflt ⊢
  have hon : ∀ r ∈ rs.filter (fun r => r.forced || s.srcEn r.f), ∃ b, r = weakOf b := fun r hr => hrs r (List.mem_filter.mp hr).1
  generalize rs.filter (fun r => r.forced || s.srcEn r.f) = on at hon ⊢
  have hother : ∀ x, x ≠ 4 → ∀ t, Dev.occurOf on x t = t := fun x hx t => by
    have hempty : on.filter (fun r => decide (r.f / 32 = x)) = [] := List.filter_eq_nil_iff.mpr (fun r hr => by
      obtain ⟨b, rfl⟩ := hon r hr
      rw [decide_eq_true_eq]
      exact fun hc => hx (hc.symm.trans (show 130 / 32 = 4 from rfl)))
    rw [Dev.occurOf, hempty]
    rfl
  have honly : Machine.forL (List.range 12) (Dev.occurOf on) u = Dev.occurOf on 4 u := forN_of_only (k := 4) (by decide) hother u
  rw [honly, Dev.occurOf]
  split
  · exact hmark
  · exact hmark.trans (occur (h.of_flt hflt) (fun r hr => hon r (List.mem_filter.mp hr).1))

theorem testFaults {s : Dev} (h : s.Calm) {u : SelfTest} (hu : u.badClusters = []) : Dev.BankFrame s (s.testFaults u) := by
  have hcut : s.clustersCut u = s := by rw [Dev.clustersCut, hu]; rfl
  rw [Dev.testFaults_eq, hcut]
  split
  · exact refl s
  · refine raises h (fun r hr => ?_)
    rw [Dev.testRaises, hu] at hr
    obtain ⟨b, -, rfl⟩ := List.mem_map.mp hr
    exact ⟨b, rfl⟩

end Dev.BankFrame

end Sys2Proof.Machine
end

section
/-! PROOFS. O24: SELF_TEST_END leads to the training, RECOVERY or SAFE (R377, R384, R386). -/

namespace Sys2Proof.Machine

/-! ### The parts of the step -/

/-- The cistern is zero. -/
def Dev.cisZero (s : Dev) : Dev := s.clearMem (aCis 0) (aCis (2 ^ 27))

/-- The boot goes to RECOVERY (R377, R386). -/
def Dev.recovers (s : Dev) (u : SelfTest) : Bool := (u.romBad || s.sys.recov) && decide (s.sys.mode = .boot)

/-- The device in the mode that the load finds. -/
def Dev.bootMode (s : Dev) (u : SelfTest) : Dev :=
  { s.cisZero with sys := { s.sys with mode := if s.recovers u then .recovery else s.sys.mode } }

/-- RECOVERY is counted. -/
def Dev.bootRecovery (s : Dev) (u : SelfTest) : Dev := if s.recovers u then (s.bootMode u).nvCount 0x454 else s.bootMode u

/-- The load of NV with the errors it finds. -/
def Dev.bootLoaded (s : Dev) (u : SelfTest) : Dev := ((s.loadNv (nvBad u)).idCheck (nvBad u)).nvFound u.nv

/-- The boot and the cause of its reset, counted. -/
def Dev.bootCounted (s : Dev) : Dev := (s.nvCount (0x440 + 4 * s.fld 0x900 1 0)).nvCount 0x450

/-- Training is next. -/
def Dev.inTraining (s : Dev) : Dev := { s with sys := { s.sys with boot := .training } }

/-- A lane that has not failed is asked for. -/
def Dev.askLane (j : Nat) (s : Dev) : Dev := if (s.lane j).st = .failed then s else s.domWait (176 + j)

/-- Bias and lanes are asked for. -/
def Dev.bootAsks (s : Dev) : Dev := forN 16 Dev.askLane (forN 4 (fun d t => t.domWait (192 + d)) s)

theorem Dev.selfTestEnd_of_good {s : Dev} {u : SelfTest} (hb : s.sys.boot = .selfTest) (hf : u.fatal = none) :
    s.selfTestEnd u = (((((s.bootRecovery u).bootLoaded u).bootCounted.bootApplied).testFaults u).inTraining).bootAsks := by
  have hrec : (if (u.romBad || s.cisZero.sys.recov) && decide (s.cisZero.sys.mode = .boot) then s.cisZero.toRecovery else s.cisZero) =
      s.bootRecovery u := by
    unfold Dev.bootRecovery Dev.bootMode
    have hsame : ((u.romBad || s.cisZero.sys.recov) && decide (s.cisZero.sys.mode = .boot)) = s.recovers u := rfl
    rw [hsame]
    cases s.recovers u <;> rfl
  unfold Dev.selfTestEnd
  rw [if_neg (by rw [hb]; simp)]
  dsimp only
  rw [hf]
  dsimp only
  rw [← hrec]
  rfl

theorem Dev.selfTestEnd_of_aon {s : Dev} {u : SelfTest} (hb : s.sys.boot = .selfTest) (hf : u.fatal = some .aon) :
    s.selfTestEnd u = s.cisZero.raise (raiseOf 354 3) := by
  unfold Dev.selfTestEnd
  rw [if_neg (by rw [hb]; simp)]
  dsimp only
  rw [hf]
  rfl

theorem Dev.selfTestEnd_of_fabric {s : Dev} {u : SelfTest} (hb : s.sys.boot = .selfTest) (hf : u.fatal = some .fabric) :
    s.selfTestEnd u = s.cisZero.raise (raiseOf 353 3) := by
  unfold Dev.selfTestEnd
  rw [if_neg (by rw [hb]; simp)]
  dsimp only
  rw [hf]
  rfl

/-! ### Memory -/

theorem Dev.byte_cisZero (s : Dev) {o : Nat} (ho : o < 2 ^ 27) : s.cisZero.byte (aCis o) = 0 := by
  have hdrop : s.cisZero.byte (aCis o) = memByte (aCis o) :=
    Tab.get_filter_of_drop memByte (fun v => by unfold aCis; simp; omega) s.mem
  rw [hdrop, memByte, locOf_aCis ho]

theorem Dev.nvWord_cisZero (s : Dev) {o : Nat} (ho : o < 0x40000) : s.cisZero.nvWord o = s.nvWord o :=
  Dev.word_congr (fun b hb hb' => Tab.get_filter_of_keep memByte (fun v => by unfold aNvr aCis at *; simp; omega) s.mem)

/-! ### The load and its counters -/

theorem Dev.NvStep.recovery (s : Dev) (u : SelfTest) : Dev.NvStep 0x454 0x458 (s.bootMode u) (s.bootRecovery u) := by
  unfold Dev.bootRecovery
  split
  · exact Dev.NvStep.nvCount _ _
  · exact Dev.NvStep.refl _ _ _

theorem Dev.NvStep.idCheck (lo hi : Nat) (s : Dev) (bad : List Nat) : Dev.NvStep lo hi s (s.idCheck bad) := by
  unfold Dev.idCheck
  split
  · exact Dev.NvStep.refl _ _ _
  · exact Dev.NvStep.wr _ _ s (by decide) _

theorem Dev.NvStep.counted (s : Dev) : Dev.NvStep 0x440 0x454 s s.bootCounted := by
  have hcause : s.fld 0x900 1 0 < 4 := W.fld_lt _ _ _
  exact ((Dev.NvStep.nvCount s _).mono (by omega) (by omega)).trans ((Dev.NvStep.nvCount _ 0x450).mono (by omega) (by omega))

theorem Dev.LoadKept.loadNv (s : Dev) (bad : List Nat) : Dev.LoadKept s (s.loadNv bad) := by
  obtain ⟨⟨m, n, r, f, heq⟩, hbytes, -, -, hcalm⟩ := s.loadNv_loaded bad
  refine ⟨⟨fun b hb => hbytes b (by unfold aNvr at *; omega), by rw [heq], by rw [heq]; exact ⟨rfl, rfl⟩⟩, ⟨_, _, _, _, by rw [heq]⟩,
    fun h => ⟨hcalm h, by rw [heq]⟩⟩

/-- What the whole load leaves, with the errors it finds. -/
theorem Dev.LoadKept.boot (s : Dev) (u : SelfTest) : Dev.LoadKept (s.bootMode u) (((s.bootRecovery u).bootLoaded u).bootCounted) :=
  ((Dev.LoadKept.step (Dev.NvStep.recovery s u) (by decide)).trans
    (((Dev.LoadKept.loadNv _ (nvBad u)).trans (Dev.LoadKept.step (Dev.NvStep.idCheck 0 0 _ (nvBad u)) (by decide))).trans
      (Dev.LoadKept.nvFound _ u.nv))).trans (Dev.LoadKept.step (Dev.NvStep.counted _) (by decide))

/-- Without an error the load writes NV words, cards and the fault unit alone. -/
theorem Dev.bootLoaded_clean (s : Dev) {u : SelfTest} (hu : u.nv = []) :
    s.bootLoaded u = (s.loadNv []).idCheck [] := by
  have hbad : nvBad u = [] := by unfold nvBad; rw [hu]; rfl
  unfold Dev.bootLoaded
  rw [hbad, hu]
  rfl

/-- The NV words after a load without an error, and the slots in force. -/
structure Dev.Counted (s t : Dev) (again : Bool) : Prop where
  boots    : t.nvWord 0x450 = countUp (s.nvWord 0x450)
  causes   : t.nvWord (0x440 + 4 * s.fld 0x900 1 0) = countUp (s.nvWord (0x440 + 4 * s.fld 0x900 1 0))
  recovers : t.nvWord 0x454 = if again then countUp (s.nvWord 0x454) else s.nvWord 0x454
  slots    : ∀ n, n < 147 → t.nvForce n = s.judge [] n

theorem Dev.bootMode_words (s : Dev) (u : SelfTest) {o : Nat} (ho : o < 0x40000) : (s.bootMode u).nvWord o = s.nvWord o :=
  s.nvWord_cisZero ho

theorem Dev.counted_boot (s : Dev) {u : SelfTest} (hu : u.nv = []) :
    Dev.Counted s (((s.bootRecovery u).bootLoaded u).bootCounted) (s.recovers u) := by
  have hrec := Dev.NvStep.recovery s u
  obtain ⟨-, hbytes, hcause, hslots, -⟩ := (s.bootRecovery u).loadNv_loaded []
  have hid := Dev.NvStep.idCheck 0x800 0x3A000 ((s.bootRecovery u).loadNv []) []
  have hcount : (s.bootRecovery u).nvWord 0x454 = if s.recovers u then countUp (s.nvWord 0x454) else s.nvWord 0x454 := by
    have hword := s.bootMode_words u (o := 0x454) (by decide)
    unfold Dev.bootRecovery
    split
    · rw [Dev.nvWord_nvCount, hword]
    · exact hword
  rw [Dev.bootLoaded_clean _ hu]
  generalize hl : ((s.bootRecovery u).loadNv []).idCheck [] = l at hid ⊢
  have hlow : ∀ o, o + 4 ≤ 0x800 → l.nvWord o = (s.bootRecovery u).nvWord o := fun o ho =>
    (hid.word (.inl ho)).trans (Dev.word_congr (fun b _ _ => hbytes b (by unfold aNvr at *; omega)))
  have hfld : l.fld 0x900 1 0 = s.fld 0x900 1 0 := Dev.fld_congr ((hid.cause.trans hcause).trans hrec.cause) 1 0
  have hlt : s.fld 0x900 1 0 < 4 := W.fld_lt _ _ _
  have hsecond := Dev.NvStep.nvCount (l.nvCount (0x440 + 4 * l.fld 0x900 1 0)) 0x450
  have hfirst := Dev.NvStep.nvCount l (0x440 + 4 * l.fld 0x900 1 0)
  have hbase : ∀ o, o + 4 ≤ 0x454 → l.nvWord o = s.nvWord o := fun o ho =>
    (hlow o (by omega)).trans ((hrec.word (.inl ho)).trans (s.bootMode_words u (by omega)))
  unfold Dev.bootCounted
  refine ⟨?_, ?_, ?_, fun n hn => ?_⟩
  · rw [Dev.nvWord_nvCount, hfirst.word (.inr (by omega)), hbase _ (by decide)]
  · rw [hsecond.word (.inl (by omega)), ← hfld, Dev.nvWord_nvCount, hbase _ (by omega)]
  · rw [hsecond.word (.inr (by decide)), hfirst.word (.inr (by omega)), hlow _ (by decide), hcount]
  · have hforce : Dev.nvForce ((l.nvCount (0x440 + 4 * l.fld 0x900 1 0)).nvCount 0x450) n = l.nvForce n := by
      unfold Dev.nvForce
      rw [hsecond.slots, hfirst.slots]
    have hlslots : l.nvForce n = ((s.bootRecovery u).loadNv []).nvForce n := by
      unfold Dev.nvForce
      rw [hid.slots]
    rw [hforce, hlslots, hslots n hn]
    refine Dev.judge_congr (fun o ho hin => ?_) hn []
    exact (hrec.word (.inr (by omega))).trans (s.bootMode_words u hin)

/-! ### The domains that the boot asks for -/

theorem Dev.askLane_asks (j : Nat) (s : Dev) : s.PwrFrame (Dev.askLane j s) ∧
    ∀ n, (Dev.askLane j s).domAsked n = (decide (n = 176 + j ∧ (s.lane j).st ≠ .failed) || s.domAsked n) := by
  unfold Dev.askLane
  split
  case isTrue h => exact ⟨rfl, fun n => by simp [h]⟩
  case isFalse h => exact ⟨s.pwrFrame_domWait _, fun n => by rw [Dev.domAsked_domWait]; simp [h]⟩

theorem Dev.askLanes_asks (s : Dev) (m : Nat) : s.PwrFrame (forN m Dev.askLane s) ∧
    ∀ n, (forN m Dev.askLane s).domAsked n = true ↔
      (∃ j, j < m ∧ n = 176 + j ∧ (s.lane j).st ≠ .failed) ∨ s.domAsked n = true := by
  induction m with
  | zero => exact ⟨rfl, fun n => ⟨.inr, fun h => h.resolve_left (fun ⟨j, hj, _⟩ => Nat.not_lt_zero j hj)⟩⟩
  | succ m ih =>
    obtain ⟨hframe, hasked⟩ := ih
    obtain ⟨hnext, hone⟩ := Dev.askLane_asks m (forN m Dev.askLane s)
    have hlane : (forN m Dev.askLane s).lane m = s.lane m := by
      obtain ⟨p, hp⟩ := hframe.exists_pwr
      rw [hp]
      rfl
    rw [forN_succ]
    refine ⟨hframe.trans hnext, fun n => ?_⟩
    rw [hone, hlane, Bool.or_eq_true, decide_eq_true_iff, hasked]
    constructor
    · rintro (⟨hn, hst⟩ | ⟨j, hj, hn, hst⟩ | h)
      · exact .inl ⟨m, Nat.lt_succ_self m, hn, hst⟩
      · exact .inl ⟨j, Nat.lt_succ_of_lt hj, hn, hst⟩
      · exact .inr h
    · rintro (⟨j, hj, hn, hst⟩ | h)
      · rcases Nat.lt_succ_iff_lt_or_eq.mp hj with hlt | rfl
        · exact .inr (.inl ⟨j, hlt, hn, hst⟩)
        · exact .inl ⟨hn, hst⟩
      · exact .inr (.inr h)

theorem Dev.bootAsks_asks (s : Dev) :
    s.PwrFrame s.bootAsks ∧ (∀ d, d < 4 → s.bootAsks.domAsked (192 + d) = true) ∧
    (∀ j, j < 16 → (s.bootAsks.lane j).st ≠ .failed → s.bootAsks.domAsked (176 + j) = true) ∧
    (∀ k, k < 16 → s.domAsked (144 + k) = false → s.bootAsks.domAsked (144 + k) = false) := by
  obtain ⟨hbias, hbiasAsked⟩ := Dev.domAsked_forN_domWait 192 4 s
  unfold Dev.bootAsks
  generalize forN 4 (fun d t => t.domWait (192 + d)) s = v at hbias hbiasAsked ⊢
  obtain ⟨hlanes, hasked⟩ := v.askLanes_asks 16
  have hlane : ∀ j, (forN 16 Dev.askLane v).lane j = v.lane j := fun j => by
    obtain ⟨p, hp⟩ := hlanes.exists_pwr
    rw [hp]
    rfl
  refine ⟨hbias.trans hlanes, fun d hd => ?_, fun j hj hst => ?_, fun k hk hoff => ?_⟩
  · rw [hasked, hbiasAsked, decide_eq_true (by omega)]
    exact .inr rfl
  · rw [hasked]
    exact .inl ⟨j, hj, rfl, by rw [← hlane]; exact hst⟩
  · rw [Bool.eq_false_iff, ne_eq, hasked, hbiasAsked, hoff, decide_eq_false (by omega)]
    rintro (⟨j, hj, hn, -⟩ | h)
    · omega
    · exact Bool.false_ne_true h

/-! ### The whole step -/

/-- What the boot's step writes; nothing else differs. -/
def Dev.BootFrame (s t : Dev) : Prop :=
  { t with sys := s.sys, regs := s.regs, mem := s.mem, engs := s.engs, quads := s.quads, lanes := s.lanes,
           cis := s.cis, pwr := s.pwr, nv := s.nv, ucs := s.ucs, flt := s.flt } = s

theorem Dev.BootFrame.trans {s t u : Dev} (h : s.BootFrame t) (k : t.BootFrame u) : s.BootFrame u := by
  unfold Dev.BootFrame at *
  rw [← h, ← k]

theorem Dev.BootFrame.step {lo hi : Nat} {s t : Dev} (h : Dev.NvStep lo hi s t) : s.BootFrame t := by
  obtain ⟨_, _, _, _, rfl⟩ := h.only
  rfl

theorem Dev.BootFrame.loadNv (s : Dev) (bad : List Nat) : s.BootFrame (s.loadNv bad) := by
  obtain ⟨⟨_, _, _, _, heq⟩, -⟩ := s.loadNv_loaded bad
  rw [heq]
  rfl

theorem Dev.BootFrame.loaded (s : Dev) {u : SelfTest} (hu : u.nv = []) :
    s.BootFrame (((s.bootRecovery u).bootLoaded u).bootCounted) := by
  have hmode : s.BootFrame (s.bootMode u) := rfl
  have hload : (s.bootRecovery u).BootFrame ((s.bootRecovery u).bootLoaded u) := by
    rw [Dev.bootLoaded_clean _ hu]
    exact (Dev.BootFrame.loadNv _ []).trans (Dev.BootFrame.step (Dev.NvStep.idCheck 0 0 _ []))
  exact ((hmode.trans (Dev.BootFrame.step (Dev.NvStep.recovery s u))).trans hload).trans (Dev.BootFrame.step (Dev.NvStep.counted _))

/-! What the parts after the load keep, each said of any device. -/

theorem Dev.Applied.kept {s t : Dev} (h : Dev.Applied s t) :
    Dev.OutsideNv s t ∧ t.sys = s.sys ∧ t.mem = s.mem ∧ t.nv = s.nv ∧ t.flt = s.flt ∧ s.BootFrame t := by
  obtain ⟨_, _, _, _, _, _, rfl⟩ := h
  exact ⟨Dev.OutsideNv.of_mem rfl rfl rfl rfl, rfl, rfl, rfl, rfl, rfl⟩

theorem Dev.BankFrame.kept {s t : Dev} (h : Dev.BankFrame s t) : t.sys = s.sys ∧ s.BootFrame t := by
  obtain ⟨_, _, _, rfl⟩ := h
  exact ⟨rfl, rfl⟩

theorem Dev.PwrFrame.kept {s t : Dev} (h : s.PwrFrame t) : Dev.OutsideNv s t ∧ t.sys = s.sys ∧ t.mem = s.mem ∧ t.nv = s.nv := by
  obtain ⟨_, rfl⟩ := h.exists_pwr
  exact ⟨Dev.OutsideNv.of_mem rfl rfl rfl rfl, rfl, rfl, rfl⟩

/-- Training is next, and domains are asked for. -/
structure Dev.Trained (s t : Dev) : Prop where
  out  : Dev.OutsideNv s t
  sys  : t.sys = { s.sys with boot := .training }
  mem  : t.mem = s.mem
  nv   : t.nv = s.nv
  regs : t.regs = s.regs
  rest : s.BootFrame t

theorem Dev.trained_bootAsks (s : Dev) : Dev.Trained s s.inTraining.bootAsks := by
  obtain ⟨hpwr, -⟩ := s.inTraining.bootAsks_asks
  obtain ⟨p, hp⟩ := hpwr.exists_pwr
  rw [hp]
  exact ⟨Dev.OutsideNv.of_mem rfl rfl rfl rfl, rfl, rfl, rfl, rfl, rfl⟩

/-- What the load found has become live state; the faults are next. -/
def Dev.bootRead (s : Dev) (u : SelfTest) : Dev := ((s.bootRecovery u).bootLoaded u).bootCounted.bootApplied

/-- SELF_TEST_END without a fatal error. -/
def Dev.bootTested (s : Dev) (u : SelfTest) : Dev := ((s.bootRead u).testFaults u).inTraining.bootAsks

theorem Dev.bootTested_trained (s : Dev) (u : SelfTest) : Dev.Trained ((s.bootRead u).testFaults u) (s.bootTested u) :=
  Dev.trained_bootAsks _

theorem Dev.applied_bootRead (s : Dev) (u : SelfTest) :
    Dev.Applied (((s.bootRecovery u).bootLoaded u).bootCounted) (s.bootRead u) := Dev.Applied.boot _

/-- The load calm, the device that it read is calm in the mode that it found. -/
theorem Dev.bootRead_calm {s : Dev} (h : s.flt.joined = []) (u : SelfTest) :
    (s.bootRead u).Calm ∧ (s.bootRead u).sys.mode = if s.recovers u then .recovery else s.sys.mode := by
  have hstart : (s.bootMode u).Calm := Dev.Calm.of_none h
  obtain ⟨hcalm, hmode⟩ := (Dev.LoadKept.boot s u).calm hstart
  obtain ⟨-, hsys, -, -, hflt, -⟩ := (s.applied_bootRead u).kept
  exact ⟨hcalm.of_flt hflt, (congrArg Sys.mode hsys).trans hmode⟩

/-- Memory outside NVR, clock, TAP and straps under the faults. -/
theorem Dev.testFaults_kept (s : Dev) (u : SelfTest) :
    Dev.OutsideNv s (s.testFaults u) ∧ ∃ m r a d, (s.testFaults u).sys = { s.sys with mode := m, req := r, asked := a, safeDue := d } := by
  obtain ⟨hout, hsys, -, -⟩ := (s.pwrFrame_clustersCut u).kept
  obtain ⟨m, r, a, d, htest⟩ := (Dev.Steady.testFaults s u).sys
  rw [hsys] at htest
  exact ⟨hout.trans (Dev.OutsideNv.fault (Upset.testFaults s u).rest), m, r, a, d, htest⟩

/-- Memory outside NVR, clock, TAP and straps at the end of the step. -/
theorem Dev.bootTested_kept (s : Dev) (u : SelfTest) :
    Dev.OutsideNv (s.bootMode u) (s.bootTested u) ∧ (s.bootTested u).sys.boot = .training ∧
    (s.bootTested u).sys.devid = s.sys.devid ∧ (s.bootTested u).sys.master = s.sys.master ∧
    (s.bootTested u).sys.recov = s.sys.recov := by
  obtain ⟨hload, ⟨m, r, a, d, hloadSys⟩, -⟩ := Dev.LoadKept.boot s u
  obtain ⟨hread, hreadSys, -, -, -, -⟩ := (s.applied_bootRead u).kept
  obtain ⟨htest, m', r', a', d', htestSys⟩ := (s.bootRead u).testFaults_kept u
  obtain ⟨hend, hendSys, -, -, -, -⟩ := s.bootTested_trained u
  have hreadIs : (s.bootRead u).sys = { (s.bootMode u).sys with mode := m, req := r, asked := a, safeDue := d } := hreadSys.trans hloadSys
  rw [hreadIs] at htestSys
  rw [htestSys] at hendSys
  rw [hendSys]
  exact ⟨((hload.trans hread).trans htest).trans hend, rfl, rfl, rfl, rfl⟩

/-- NV words above the counters of faults, and slots, stand under the faults. -/
theorem Dev.testFaults_nv (s : Dev) (u : SelfTest) :
    (∀ o, 0x430 ≤ o → (s.testFaults u).nvWord o = s.nvWord o) ∧ (s.testFaults u).nv.slot = s.nv.slot := by
  obtain ⟨-, -, hmem, hnv⟩ := (s.pwrFrame_clustersCut u).kept
  have hbytes := (Upset.testFaults s u).rest.bytes
  refine ⟨fun o ho => Dev.word_congr (fun b hb _ => ?_), (Dev.Steady.testFaults s u).slot.trans (congrArg Nv.slot hnv)⟩
  rw [hbytes b (by unfold aNvr at *; omega)]
  unfold Dev.byte
  rw [hmem]

/-- The counters and the slots are as the load left them. -/
theorem Dev.bootTested_counted (s : Dev) {u : SelfTest} (hu : u.nv = []) : Dev.Counted s (s.bootTested u) (s.recovers u) := by
  obtain ⟨hboots, hcauses, hrecovers, hslots⟩ := s.counted_boot hu
  obtain ⟨-, -, hmem, hnv, -, -⟩ := (s.applied_bootRead u).kept
  obtain ⟨hwords, hslot⟩ := (s.bootRead u).testFaults_nv u
  obtain ⟨-, -, hendMem, hendNv, -, -⟩ := s.bootTested_trained u
  have hword : ∀ o, 0x430 ≤ o → (s.bootTested u).nvWord o = (((s.bootRecovery u).bootLoaded u).bootCounted).nvWord o := fun o ho =>
    ((Dev.word_congr (fun b _ _ => by unfold Dev.byte; rw [hendMem])).trans (hwords o ho)).trans
      (Dev.word_congr (fun b _ _ => congrArg (fun m : Tab Byte => m.get memByte b) hmem))
  have hforce : ∀ n, (s.bootTested u).nvForce n = (((s.bootRecovery u).bootLoaded u).bootCounted).nvForce n := fun n =>
    congrArg (fun l : Tab Nat => l.get (fun _ => 0) n) (((congrArg Nv.slot hendNv).trans hslot).trans (congrArg Nv.slot hnv))
  exact ⟨(hword _ (by decide)).trans hboots, (hword _ (by omega)).trans hcauses, (hword _ (by decide)).trans hrecovers,
    fun n hn => (hforce n).trans (hslots n hn)⟩

/-- With no bad cluster and no tick under way the faults keep the mode. -/
theorem Dev.bootTested_mode {s : Dev} {u : SelfTest} (hk : u.badClusters = []) (h : s.flt.joined = []) :
    (s.bootTested u).sys.mode = if s.recovers u then .recovery else s.sys.mode := by
  obtain ⟨hcalm, hmode⟩ := Dev.bootRead_calm h u
  obtain ⟨hsys, -⟩ := (Dev.BankFrame.testFaults hcalm hk).kept
  rw [(s.bootTested_trained u).sys]
  exact (congrArg Sys.mode hsys).trans hmode

/-- And but for what the step writes, nothing differs. -/
theorem Dev.bootTested_rest {s : Dev} {u : SelfTest} (hk : u.badClusters = []) (hu : u.nv = []) (h : s.flt.joined = []) :
    s.BootFrame (s.bootTested u) := by
  obtain ⟨hcalm, -⟩ := Dev.bootRead_calm h u
  obtain ⟨-, -, -, -, -, hread⟩ := (s.applied_bootRead u).kept
  obtain ⟨-, htest⟩ := (Dev.BankFrame.testFaults hcalm hk).kept
  exact (((Dev.BootFrame.loaded s hu).trans hread).trans htest).trans (s.bootTested_trained u).rest

/-! ### O24 -/

theorem exec_selfTestEnd (s : State) (u : SelfTest) : exec (.selfTestEnd u) s = .next { s with toDev := s.toDev.selfTestEnd u } := rfl

/-- A fatal error of the self-test: SAFE, with the boot where it is (R377). -/
theorem Dev.fatal_safe (s : Dev) {f : Nat} (hf : f < 384) (hne : f ≠ 289) (hen : fltMaskable f = false) (hb : s.sys.boot = .selfTest)
    (hm : s.sys.mode ≠ .reset) :
    (s.cisZero.raise (raiseOf f 3)).sys.mode = .safe ∧ s.cisZero.Raised (s.cisZero.raise (raiseOf f 3)) f ∧
    (s.cisZero.raise (raiseOf f 3)).sys.boot = .selfTest ∧
    (∀ o, o < 2 ^ 27 → (s.cisZero.raise (raiseOf f 3)).byte (aCis o) = 0) := by
  have hraised := s.cisZero.raise_raised (raiseOf f 3) ⟨hf, hne⟩
  obtain ⟨_, _, _, _, hsys⟩ := (Dev.Steady.raise s.cisZero (raiseOf f 3)).sys
  refine ⟨Dev.raise_safe hf ?_ (Nat.le_refl 3) hm, hraised, by rw [hsys]; exact hb, fun o ho => ?_⟩
  · rw [Dev.srcEn_of_unmaskable (f := (raiseOf f 3).f) hen, Bool.or_true]
  · rw [hraised.rest.bytes _ (by unfold aCis aNvr; omega)]
    exact s.byte_cisZero ho

/-- Settles O24: the load (`Dev.LoadKept.boot`, `Dev.counted_boot`), the faults, and the domains asked for. -/
theorem selfTestEndsInTraining : Obligations.SelfTestEndsInTraining := by
  unfold Obligations.SelfTestEndsInTraining
  intro s u up rec_
  refine ⟨fun hb hf => ?_, fun x hb hf hm => ?_, fun hb => ?_⟩
  · have hend : s.toDev.selfTestEnd u = s.toDev.bootTested u := Dev.selfTestEnd_of_good hb hf
    rw [exec_selfTestEnd, hend]
    obtain ⟨⟨hbytes, hclk, hjtag, htdo⟩, hboot, hdevid, hmaster, hrecov⟩ := s.toDev.bootTested_kept u
    obtain ⟨-, hbias, hlanes, hoff⟩ := ((s.toDev.bootRead u).testFaults u).inTraining.bootAsks_asks
    refine ⟨_, rfl, hboot, fun o ho => ?_, hbias, hlanes, fun k hk => ?_, hclk, hjtag, htdo, hdevid, hmaster, hrecov,
      fun hu => ?_, fun hk h => Dev.bootTested_mode hk h, fun hk hu h => Dev.bootTested_rest hk hu h⟩
    · exact (hbytes _ (.inr (by unfold aCis aNvr; omega))).trans (s.toDev.byte_cisZero ho)
    · obtain ⟨hsticky, hasked⟩ := (s.toDev.bootRead u).testFaults_cluster hk
      exact ⟨(Dev.sticky_congr (s.toDev.bootTested_trained u).regs 36).trans hsticky, hoff k.val k.isLt hasked⟩
    · obtain ⟨hboots, hcauses, hrecovers, hslots⟩ := s.toDev.bootTested_counted hu
      exact ⟨hboots, hcauses, hrecovers, hslots⟩
  · cases x with
    | aon =>
      have hend : s.toDev.selfTestEnd u = s.toDev.cisZero.raise (raiseOf 354 3) := Dev.selfTestEnd_of_aon hb hf
      obtain ⟨hsafe, hraised, hboot, hzero⟩ := s.toDev.fatal_safe (f := 354) (by decide) (by decide) (by decide) hb hm
      rw [exec_selfTestEnd, hend]
      exact ⟨_, rfl, hsafe, hraised, hboot, hzero⟩
    | fabric =>
      have hend : s.toDev.selfTestEnd u = s.toDev.cisZero.raise (raiseOf 353 3) := Dev.selfTestEnd_of_fabric hb hf
      obtain ⟨hsafe, hraised, hboot, hzero⟩ := s.toDev.fatal_safe (f := 353) (by decide) (by decide) (by decide) hb hm
      rw [exec_selfTestEnd, hend]
      exact ⟨_, rfl, hsafe, hraised, hboot, hzero⟩
  · have hidle : s.toDev.selfTestEnd u = s.toDev := if_pos hb
    rw [exec_selfTestEnd, hidle]

end Sys2Proof.Machine
end

section
/-! PROOFS. The standing of a device - what only ticks, mode switches and a few operations move - and the operations that
leave it. -/

namespace Sys2Proof.Machine

/-- What only the tick and a few operations of its own move: the frame number and its clock, the commands that wait
for the scarab, the staging queues, the mode with SAFE's pending tick, the straps and the TAP. -/
structure Standing where
  frame   : Nat
  ticked  : Bool
  eclk    : Nat
  moved   : Option Int
  overran : Nat
  waiting : List (Nat × Cmd)
  stage   : Stage
  mode    : Mode
  due     : Bool
  devid   : BitVec 5
  master  : Bool
  jtag    : Jtag

def Dev.standing (s : Dev) : Standing where
  frame := s.clk.frame
  ticked := s.clk.ticked
  eclk := s.clk.eclk
  moved := s.clk.moved
  overran := s.clk.overran
  waiting := s.host.waiting
  stage := s.stage
  mode := s.sys.mode
  due := s.sys.safeDue
  devid := s.sys.devid
  master := s.sys.master
  jtag := s.jtag

@[simp] theorem Dev.standing_ite (p : Prop) [Decidable p] (s t : Dev) :
    (if p then s else t).standing = if p then s.standing else t.standing := apply_ite _ _ _ _

/-- An update of other fields. -/
@[simp] theorem Dev.standing_update {s : Dev} {sys : Sys} {clk : Clk} {regs : Tab W} {mem : List Host.Cell}
    {scratch : List Host.Cell} {engs : Tab Eng} {sites : Tab Site} {plys : Tab Ply} {cmps : List Cmp} {quads : Tab Quad}
    {circs : Tab Circ} {chains : Tab Chain} {acqs : Tab Acq} {tdcs : Tab Tdc} {weirs : Tab Weir} {slc : Slc} {led : Led}
    {flt : Flt} {cis : Cis} {pwr : Pwr} {lanes : Tab Lane} {links : Tab Link} {host : HostIf} {nv : Nv} {ucs : Ucs}
    {imgs : Tab (Tab W)} {tdo : W} {freeIx : Nat} (hf : clk.frame = s.clk.frame) (ht : clk.ticked = s.clk.ticked)
    (he : clk.eclk = s.clk.eclk) (hv : clk.moved = s.clk.moved) (ho : clk.overran = s.clk.overran)
    (hw : host.waiting = s.host.waiting) (hm : sys.mode = s.sys.mode) (hd : sys.safeDue = s.sys.safeDue)
    (hi : sys.devid = s.sys.devid) (ha : sys.master = s.sys.master) :
    (Dev.mk sys clk s.stage regs mem scratch engs sites plys cmps quads circs chains acqs tdcs weirs slc led flt cis pwr
      lanes links host nv ucs imgs s.jtag tdo freeIx).standing = s.standing := by
  simp [Dev.standing, hf, ht, he, hv, ho, hw, hm, hd, hi, ha]

@[simp] theorem foldl_standing {β : Type} {f : Dev → β → Dev} {l : List β} {s : Dev} (k : ∀ t x, (f t x).standing = t.standing) :
    (l.foldl f s).standing = s.standing := by
  induction l generalizing s with
  | nil => rfl
  | cons x r ih => exact (ih (s := f s x)).trans (k s x)

@[simp] theorem forL_standing {β : Type} {f : β → Dev → Dev} {l : List β} {s : Dev} (k : ∀ x t, (f x t).standing = t.standing) :
    (forL l f s).standing = s.standing := foldl_standing fun t x => k x t

@[simp] theorem forN_standing {f : Nat → Dev → Dev} {n : Nat} {s : Dev} (k : ∀ x t, (f x t).standing = t.standing) :
    (forN n f s).standing = s.standing := foldl_standing fun t x => k x t

/-- A fold that carries the device in a pair. -/
@[simp] theorem foldl_fst_standing {β γ : Type} {f : Dev × γ → β → Dev × γ} {l : List β} {r : Dev × γ}
    (k : ∀ r x, (f r x).1.standing = r.1.standing) : (l.foldl f r).1.standing = r.1.standing := by
  induction l generalizing r with
  | nil => rfl
  | cons x l ih => exact (ih (r := f r x)).trans (k r x)

@[simp] theorem Dev.wr_standing {s : Dev} {n : Nat} {v : W} : (s.wr n v).standing = s.standing := by rfl

@[simp] theorem Dev.setByte_standing {s : Dev} {n : Nat} {v : Byte} : (s.setByte n v).standing = s.standing := by rfl

@[simp] theorem Dev.clearScr_standing {s : Dev} {e : Nat} : (s.clearScr e).standing = s.standing := by rfl

@[simp] theorem Dev.clearMem_standing {s : Dev} {l u : Nat} : (s.clearMem l u).standing = s.standing := by rfl

@[simp] theorem Dev.setEng_standing {s : Dev} {n : Nat} {x : Eng} : (s.setEng n x).standing = s.standing := by rfl

@[simp] theorem Dev.setSite_standing {s : Dev} {n : Nat} {x : Site} : (s.setSite n x).standing = s.standing := by rfl

@[simp] theorem Dev.setPly_standing {s : Dev} {n : Nat} {x : Ply} : (s.setPly n x).standing = s.standing := by rfl

@[simp] theorem Dev.setQuad_standing {s : Dev} {n : Nat} {x : Quad} : (s.setQuad n x).standing = s.standing := by rfl

@[simp] theorem Dev.setCirc_standing {s : Dev} {n : Nat} {x : Circ} : (s.setCirc n x).standing = s.standing := by rfl

@[simp] theorem Dev.setChain_standing {s : Dev} {n : Nat} {x : Chain} : (s.setChain n x).standing = s.standing := by rfl

@[simp] theorem Dev.setAcq_standing {s : Dev} {n : Nat} {x : Acq} : (s.setAcq n x).standing = s.standing := by rfl

@[simp] theorem Dev.setTdc_standing {s : Dev} {n : Nat} {x : Tdc} : (s.setTdc n x).standing = s.standing := by rfl

@[simp] theorem Dev.setWeir_standing {s : Dev} {n : Nat} {x : Weir} : (s.setWeir n x).standing = s.standing := by rfl

@[simp] theorem Dev.setLane_standing {s : Dev} {n : Nat} {x : Lane} : (s.setLane n x).standing = s.standing := by rfl

@[simp] theorem Dev.setLink_standing {s : Dev} {n : Nat} {x : Link} : (s.setLink n x).standing = s.standing := by rfl

@[simp] theorem Dev.draw_standing {s : Dev} : (s.draw.2).standing = s.standing := by rfl

@[simp] theorem Dev.setFld_standing {s : Dev} {a hi lo x : Nat} : (s.setFld a hi lo x).standing = s.standing := by rfl

@[simp] theorem Dev.setBits_standing {s : Dev} {a : Nat} {m : W} : (s.setBits a m).standing = s.standing := by rfl

@[simp] theorem Dev.clrBits_standing {s : Dev} {a : Nat} {m : W} : (s.clrBits a m).standing = s.standing := by rfl

@[simp] theorem Dev.incSat_standing {s : Dev} {a hi lo : Nat} : (s.incSat a hi lo).standing = s.standing := by rfl

@[simp] theorem Dev.wrFrame_standing {s : Dev} {aLo aHi n : Nat} : (s.wrFrame aLo aHi n).standing = s.standing := by rfl

@[simp] theorem Dev.onEng_standing {s : Dev} {e : Nat} {f : Eng → Eng} : (s.onEng e f).standing = s.standing := by rfl

@[simp] theorem Dev.onSite_standing {s : Dev} {i : Nat} {f : Site → Site} : (s.onSite i f).standing = s.standing := by
  rfl

@[simp] theorem Dev.onPly_standing {s : Dev} {y : Nat} {f : Ply → Ply} : (s.onPly y f).standing = s.standing := by rfl

@[simp] theorem Dev.onQuad_standing {s : Dev} {q : Nat} {f : Quad → Quad} : (s.onQuad q f).standing = s.standing := by
  rfl

@[simp] theorem Dev.onCirc_standing {s : Dev} {c : Nat} {f : Circ → Circ} : (s.onCirc c f).standing = s.standing := by
  rfl

@[simp] theorem Dev.onChain_standing {s : Dev} {c : Nat} {f : Chain → Chain} :
    (s.onChain c f).standing = s.standing := by
  rfl

@[simp] theorem Dev.onAcq_standing {s : Dev} {q : Nat} {f : Acq → Acq} : (s.onAcq q f).standing = s.standing := by rfl

@[simp] theorem Dev.onTdc_standing {s : Dev} {c : Nat} {f : Tdc → Tdc} : (s.onTdc c f).standing = s.standing := by rfl

@[simp] theorem Dev.onWeir_standing {s : Dev} {c : Nat} {f : Weir → Weir} : (s.onWeir c f).standing = s.standing := by
  rfl

@[simp] theorem Dev.onLane_standing {s : Dev} {j : Nat} {f : Lane → Lane} : (s.onLane j f).standing = s.standing := by
  rfl

@[simp] theorem Dev.onLink_standing {s : Dev} {l : Nat} {f : Link → Link} : (s.onLink l f).standing = s.standing := by
  rfl

@[simp] theorem Dev.setWord_standing {s : Dev} {a : Nat} {v : W} : (s.setWord a v).standing = s.standing := by rfl

@[simp] theorem Dev.setPc_standing {s : Dev} {e n : Nat} : (s.setPc e n).standing = s.standing := by rfl

@[simp] theorem Dev.setFlag_standing {s : Dev} {e i : Nat} : (s.setFlag e i b).standing = s.standing := by rfl

@[simp] theorem Dev.sendMsg_standing {s : Dev} {l : Nat} {m : Msg} : (s.sendMsg l m).standing = s.standing := by rfl

@[simp] theorem Dev.moveMsgs_standing {s : Dev} {l : Nat} : (s.moveMsgs l).standing = s.standing := by
  unfold Dev.moveMsgs; dsimp only; split <;> simp

@[simp] theorem Dev.notify_standing {s : Dev} {n : Ntfy} {head : Bool} : (s.notify n head).standing = s.standing := by
  unfold Dev.notify; simp

@[simp] theorem Dev.complete_standing {s : Dev} {j : Job} {status detail : Nat} {data : List W} :
    (s.complete j status detail data).standing = s.standing := by
  unfold Dev.complete; dsimp only; split <;> simp

@[simp] theorem Dev.markRaise_standing {s : Dev} {f : Nat} : (s.markRaise f).standing = s.standing := by rfl

@[simp] theorem Dev.recordRaise_standing {s : Dev} {e f : Nat} : (s.recordRaise e f).standing = s.standing := by
  unfold Dev.recordRaise; simp

@[simp] theorem Dev.countOcc_standing {s : Dev} {x l e : Nat} {o : OccNow} {rs : List (Nat × List Nat)} :
    (s.countOcc x l e o rs).standing = s.standing := by
  unfold Dev.countOcc; simp

@[simp] theorem Dev.recordOcc_standing {s : Dev} {x l e : Nat} {rs : List (Nat × List Nat)} :
    (s.recordOcc x l e rs).standing = s.standing := by
  unfold Dev.recordOcc; simp

@[simp] theorem Dev.closeOccs_standing {s : Dev} : s.closeOccs.standing = s.standing := by
  unfold Dev.closeOccs; simp

@[simp] theorem Dev.note_standing {s : Dev} {f : Nat} : (s.note f).standing = s.standing := by
  unfold Dev.note; simp

@[simp] theorem Dev.nvPut_standing {s : Dev} {o : Nat} {v : W} : (s.nvPut o v).standing = s.standing := by
  unfold Dev.nvPut; simp

@[simp] theorem Dev.nvCount_standing {s : Dev} {o : Nat} : (s.nvCount o).standing = s.standing := by
  unfold Dev.nvCount; simp

@[simp] theorem Dev.voidSite_standing {s : Dev} {cause i : Nat} : (s.voidSite cause i).standing = s.standing := by
  unfold Dev.voidSite; simp

@[simp] theorem Dev.voidSites_standing {s : Dev} {cause : Nat} {l : List Nat} :
    (s.voidSites cause l).standing = s.standing := by
  unfold Dev.voidSites; simp

@[simp] theorem Dev.setSpareBank_standing {s : Dev} {n : Nat} {x : SpareBank} :
    (s.setSpareBank n x).standing = s.standing := by
  rfl

@[simp] theorem Dev.replaceBank_standing {s : Dev} {b : Nat} : (s.replaceBank b).standing = s.standing := by
  unfold Dev.replaceBank
  split
  · rfl
  · split
    · simp
    · split <;> simp

@[simp] theorem Dev.nvRowSpare_standing {s : Dev} {o : Nat} : (s.nvRowSpare o).standing = s.standing := by
  unfold Dev.nvRowSpare; simp

@[simp] theorem Dev.repair_standing {s : Dev} {f u : Nat} : (s.repair f u).standing = s.standing := by
  unfold Dev.repair; simp

@[simp] theorem Dev.rejMode_standing {s : Dev} {tag reason : Nat} : (s.rejMode tag reason).standing = s.standing := by
  unfold Dev.rejMode; simp

@[simp] theorem Dev.endReq_standing {s : Dev} {r : ModeReq} {reason : Nat} :
    (s.endReq r reason).standing = s.standing := by
  unfold Dev.endReq; split <;> simp

@[simp] theorem Dev.unlessSafe_standing {s : Dev} {f : Dev → Dev} (k : ∀ t, (f t).standing = t.standing) :
    (s.unlessSafe f).standing = s.standing := by
  unfold Dev.unlessSafe; simp [k]

@[simp] theorem Dev.react_standing {s : Dev} {e : Nat} {r : Raise} : (s.react e r).standing = s.standing := by
  unfold Dev.react; simp

@[simp] theorem Dev.jumpTo_standing {s : Dev} {e t : Nat} : (s.jumpTo e t).standing = s.standing := by rfl

@[simp] theorem Dev.yieldFor_standing {s : Dev} {e n : Nat} : (s.yieldFor e n).standing = s.standing := by rfl

@[simp] theorem Dev.countLine_standing {s : Dev} {l : Line} {passed : Bool} :
    (s.countLine l passed).standing = s.standing := by
  unfold Dev.countLine; split <;> simp

@[simp] theorem Dev.fireLine_standing {s : Dev} {l : Line} {edge tag : Nat} {b : Block} {tb : Option Nat} :
    (s.fireLine l edge tag b tb).standing = s.standing := by
  unfold Dev.fireLine; simp

@[simp] theorem Dev.produce_standing {s : Dev} {p : Prod} {edge tag : Nat} {b : Block} {tb : Option Nat} :
    (s.produce p edge tag b tb).standing = s.standing := by
  unfold Dev.produce; simp

@[simp] theorem Dev.capture_standing {s : Dev} {c : Coming} : (s.capture c).standing = s.standing := by
  unfold Dev.capture; split <;> simp

@[simp] theorem Dev.fireAhead_standing {s : Dev} {c : Coming} : (s.fireAhead c).standing = s.standing := by rfl

@[simp] theorem Dev.capturesTo_standing {s : Dev} {x : Nat} : (s.capturesTo x).standing = s.standing := by
  unfold Dev.capturesTo; simp

@[simp] theorem Dev.setOcc_standing {s : Dev} {k n : Nat} : (s.setOcc k n).standing = s.standing := by rfl

@[simp] theorem Dev.incWord_standing {s : Dev} {a : Nat} : (s.incWord a).standing = s.standing := by rfl

@[simp] theorem Dev.offer_standing {s : Dev} {k : Nat} {p : Step} {c : Cand} :
    (s.offer k p c).1.standing = s.standing := by
  unfold Dev.offer
  split
  · rfl
  · dsimp only; split <;> simp

@[simp] theorem Dev.offers_standing {s : Dev} {k : Nat} {p : Step} {l : List Cand} :
    (s.offers k p l).1.standing = s.standing := by
  unfold Dev.offers; simp

@[simp] theorem Dev.offerLogs_standing {s : Dev} {i : Nat} {p : Step} : (s.offerLogs i p).1.standing = s.standing := by
  unfold Dev.offerLogs; simp

@[simp] theorem Dev.offerOne_standing {o : Offer} {s : Dev} : (Dev.offerOne o s).standing = s.standing := by
  unfold Dev.offerOne; split <;> simp

@[simp] theorem Dev.flushOffers_standing {s : Dev} : s.flushOffers.standing = s.standing := by
  unfold Dev.flushOffers; split <;> simp

@[simp] theorem Dev.offerSite_standing {r : Dev × List Closing} {i : Nat} :
    (Dev.offerSite r i).1.standing = r.1.standing := by
  unfold Dev.offerSite; dsimp only
  split
  · split <;> simp
  · simp

@[simp] theorem Dev.offerFrame_standing {s : Dev} : s.offerFrame.standing = s.standing := by
  unfold Dev.offerFrame; simp

@[simp] theorem Dev.setWords_standing {s : Dev} {a : Nat} {l : List W} : (s.setWords a l).standing = s.standing := by
  induction l generalizing s a with
  | nil => rfl
  | cons v r ih => exact ih.trans (by simp)

@[simp] theorem Dev.numberEntry_standing {s : Dev} {i id : Nat} {c : Cand} :
    (s.numberEntry i id c).standing = s.standing := by
  rfl

@[simp] theorem Dev.ringPut_standing {x : Nat × List W} {s : Dev} : (Dev.ringPut x s).standing = s.standing := by
  unfold Dev.ringPut; simp

@[simp] theorem Dev.hwmCheck_standing {s : Dev} : s.hwmCheck.standing = s.standing := by
  unfold Dev.hwmCheck; simp

@[simp] theorem Dev.ringRun_standing {s : Dev} : s.ringRun.standing = s.standing := by
  unfold Dev.ringRun; simp

@[simp] theorem Dev.numberDue_standing {s : Dev} : s.numberDue.standing = s.standing := by
  unfold Dev.numberDue; simp

@[simp] theorem Dev.patchImage_standing {s : Dev} {l : List Closing} : (s.patchImage l).standing = s.standing := by
  unfold Dev.patchImage; simp

@[simp] theorem Dev.settleFrame_standing {s : Dev} : s.settleFrame.standing = s.standing := by
  unfold Dev.settleFrame; simp

@[simp] theorem Dev.settleLogs_standing {s : Dev} : s.settleLogs.standing = s.standing := by
  unfold Dev.settleLogs; simp

@[simp] theorem Dev.haltEng_standing {s : Dev} {e : Nat} : (s.haltEng e).standing = s.standing := by rfl

@[simp] theorem Mi.close_standing {s : Dev} {m : Mi} {e : Nat} : (m.close e s).dev.standing = s.standing := by rfl

@[simp] theorem Mi.stand_standing {m : Mi} {e : Nat} {p : Phase} : (Mi.stand m e p).standing = m.s.standing := by rfl

@[simp] theorem Dev.lwmCheck_standing {s : Dev} {y : Nat} : (s.lwmCheck y).standing = s.standing := by
  unfold Dev.lwmCheck; simp

@[simp] theorem Dev.ringClear_standing {s : Dev} {y : Nat} {r : RingState} :
    (s.ringClear y r).standing = s.standing := by
  unfold Dev.ringClear; simp

@[simp] theorem Dev.holdDwell_standing {s : Dev} {y : Nat} : (s.holdDwell y).standing = s.standing := by
  unfold Dev.holdDwell; simp

@[simp] theorem Dev.restDwell_standing {s : Dev} {y : Nat} : (s.restDwell y).standing = s.standing := by
  unfold Dev.restDwell; simp

@[simp] theorem Dev.enterDwell_standing {s : Dev} {y : Nat} : (s.enterDwell y).standing = s.standing := by
  unfold Dev.enterDwell; simp

@[simp] theorem Dev.cutDwell_standing {s : Dev} {y : Nat} : (s.cutDwell y).standing = s.standing := by
  unfold Dev.cutDwell; simp

@[simp] theorem Dev.edgeClamp_standing {s : Dev} {y : Nat} : (s.edgeClamp y).standing = s.standing := by
  unfold Dev.edgeClamp; split <;> simp

@[simp] theorem Dev.underVoid_standing {s : Dev} {y : Nat} : (s.underVoid y).standing = s.standing := by
  unfold Dev.underVoid; simp

@[simp] theorem Dev.failedStart_standing {s : Dev} {y : Nat} : (s.failedStart y).standing = s.standing := by
  unfold Dev.failedStart; simp

@[simp] theorem Dev.latchAtTick_standing {s : Dev} {y : Nat} : (s.latchAtTick y).standing = s.standing := by rfl

@[simp] theorem Dev.pausePly_standing {s : Dev} {y : Nat} : (s.pausePly y).standing = s.standing := by rfl

@[simp] theorem Dev.slotResult_standing {s : Dev} {i m : Nat} {owner : Option Nat} {v : W} :
    (s.slotResult i m owner v).standing = s.standing := by
  rfl

@[simp] theorem Dev.chFlag_standing {s : Dev} {c bit : Nat} : (s.chFlag c bit).standing = s.standing := by rfl

@[simp] theorem Dev.tdcEmpty_standing {s : Dev} {ch : Nat} : (s.tdcEmpty ch).standing = s.standing := by
  unfold Dev.tdcEmpty; simp

@[simp] theorem Dev.tdcClose_standing {s : Dev} {ch : Nat} {c : Int} {v : W} {st : TdcState} :
    (s.tdcClose ch c v st).standing = s.standing := by
  unfold Dev.tdcClose; simp

@[simp] theorem Dev.tdcKill_standing {s : Dev} {ch : Nat} : (s.tdcKill ch).standing = s.standing := by
  unfold Dev.tdcKill; dsimp only
  split
  · rfl
  · rfl
  · split <;> simp

@[simp] theorem Dev.tdcCut_standing {s : Dev} {ch : Nat} : (s.tdcCut ch).standing = s.standing := by
  unfold Dev.tdcCut; simp

@[simp] theorem Dev.tdcLost_standing {s : Dev} {ch : Nat} : (s.tdcLost ch).standing = s.standing := by
  unfold Dev.tdcLost; simp

@[simp] theorem Dev.tdcOpenAt_standing {s : Dev} {ch q mode pre prof : Nat} {slot : Option (Nat × Nat × Option Nat)} :
    (s.tdcOpenAt ch q mode pre prof slot).standing = s.standing := by
  unfold Dev.tdcOpenAt; simp

@[simp] theorem Dev.tdcWrite_standing {s : Dev} {ch : Nat} : (s.tdcWrite ch).standing = s.standing := by
  unfold Dev.tdcWrite
  refine (forL_standing fun p t => ?_).trans (by simp)
  dsimp only; split <;> simp

@[simp] theorem Dev.tdcMaxt_standing {s : Dev} {ch : Nat} : (s.tdcMaxt ch).standing = s.standing := by
  unfold Dev.tdcMaxt; simp

@[simp] theorem Dev.tdcTick_standing {s : Dev} {n : Nat} : (s.tdcTick n).standing = s.standing := by
  unfold Dev.tdcTick; simp

@[simp] theorem Dev.setFunc_standing {s : Dev} {fn range : Nat} {v : W} {p : Nat} :
    (s.setFunc fn range v p).standing = s.standing := by
  unfold Dev.setFunc; simp

@[simp] theorem Dev.freeFollower_standing {s : Dev} {p : Nat} : (s.freeFollower p).standing = s.standing := by rfl

@[simp] theorem Dev.releaseGang_standing {s : Dev} {p : Nat} : (s.releaseGang p).standing = s.standing := by
  unfold Dev.releaseGang; split <;> simp

@[simp] theorem Dev.copyCard_standing {s : Dev} {p r o : Nat} : (s.copyCard p r o).standing = s.standing := by rfl

@[simp] theorem Dev.copySlew_standing {s : Dev} {p r : Nat} : (s.copySlew p r).standing = s.standing := by rfl

@[simp] theorem Dev.formGang_standing {s : Dev} {p mask : Nat} : (s.formGang p mask).standing = s.standing := by
  unfold Dev.formGang; simp

@[simp] theorem applyLevel_standing {lvl : Nat} {v : W} {p : Nat} {s : Dev} :
    (applyLevel lvl v p s).standing = s.standing := by
  rfl

@[simp] theorem applyEdge_standing {ts edge pos p : Nat} {s : Dev} :
    (applyEdge ts edge pos p s).standing = s.standing := by
  rfl

@[simp] theorem applyWinset_standing {mode n hi lo p : Nat} {s : Dev} :
    (applyWinset mode n hi lo p s).standing = s.standing := by
  rfl

@[simp] theorem Dev.applyMeas_standing {s : Dev} {i slot t kind ap : Nat} {owner : Option Nat} :
    (s.applyMeas i slot t kind ap owner).standing = s.standing := by
  unfold Dev.applyMeas; split <;> simp

@[simp] theorem Dev.measWrite_standing {s : Dev} {c : Nat} {m : Meas} : (s.measWrite c m).standing = s.standing := by
  unfold Dev.measWrite; dsimp only
  split
  · simp
  · split <;> simp

@[simp] theorem Dev.measKill_standing {s : Dev} {c : Nat} : (s.measKill c).standing = s.standing := by
  unfold Dev.measKill; split <;> simp

@[simp] theorem Dev.measTick_standing {s : Dev} {c : Nat} : (s.measTick c).standing = s.standing := by
  unfold Dev.measTick; split <;> simp

@[simp] theorem Dev.measYield_standing {s : Dev} : s.measYield.standing = s.standing := by rfl

@[simp] theorem Dev.measTicksAll_standing {s : Dev} : s.measTicksAll.standing = s.standing := by
  unfold Dev.measTicksAll; simp

@[simp] theorem Dev.dpsScan_standing {s : Dev} {q : Nat} : (s.dpsScan q).standing = s.standing := by
  unfold Dev.dpsScan; simp

@[simp] theorem Dev.admitQuad_standing {s : Dev} {q : Nat} : (s.admitQuad q).standing = s.standing := by
  unfold Dev.admitQuad; simp

@[simp] theorem Dev.admitting_standing {s : Dev} {n : Nat} : (s.admitting n).standing = s.standing := by
  induction n generalizing s with
  | zero => rfl
  | succ n ih =>
    unfold Dev.admitting
    split
    · rfl
    · exact ih.trans (by simp)

@[simp] theorem Dev.queueDps_standing {s : Dev} : s.queueDps.standing = s.standing := by
  unfold Dev.queueDps; simp

@[simp] theorem Dev.dpsPhase_standing {s : Dev} : s.dpsPhase.standing = s.standing := by
  unfold Dev.dpsPhase; simp

@[simp] theorem Dev.restartChain_standing {s : Dev} {c : Nat} : (s.restartChain c).standing = s.standing := by rfl

@[simp] theorem Dev.moveOrigin_standing {s : Dev} : s.moveOrigin.standing = s.standing := by
  unfold Dev.moveOrigin; simp

@[simp] theorem Dev.recount_standing {s : Dev} {c : Nat} : (s.recount c).standing = s.standing := by rfl

@[simp] theorem Dev.acqEnd_standing {s : Dev} {q why : Nat} : (s.acqEnd q why).standing = s.standing := by
  unfold Dev.acqEnd; simp

@[simp] theorem Dev.acqArmAt_standing {s : Dev} {q prof c post : Nat} :
    (s.acqArmAt q prof c post).standing = s.standing := by
  unfold Dev.acqArmAt; simp

@[simp] theorem Dev.firSwapAt_standing {s : Dev} {c xf : Nat} : (s.firSwapAt c xf).standing = s.standing := by
  unfold Dev.firSwapAt; simp

@[simp] theorem Dev.acqCtl_standing {s : Dev} {q : Nat} {v : W} : (s.acqCtl q v).standing = s.standing := by
  unfold Dev.acqCtl; simp

@[simp] theorem Dev.syncAct_standing {s : Dev} : s.syncAct.standing = s.standing := by
  unfold Dev.syncAct; simp

@[simp] theorem Dev.requestSave_standing {s : Dev} {t : NvSet} {j : Option Job} :
    (s.requestSave t j).standing = s.standing := by
  unfold Dev.requestSave; simp

@[simp] theorem Dev.saveMap_standing {s : Dev} : s.saveMap.standing = s.standing := by
  unfold Dev.saveMap; simp

@[simp] theorem Dev.replay_standing {s : Dev} {l : Nat} : (s.replay l).standing = s.standing := by
  unfold Dev.replay; simp

@[simp] theorem Dev.linkDown_standing {s : Dev} {l : Nat} : (s.linkDown l).standing = s.standing := by
  unfold Dev.linkDown; simp

@[simp] theorem Dev.moveAll_standing {s : Dev} : s.moveAll.standing = s.standing := by
  unfold Dev.moveAll; simp

@[simp] theorem Dev.agree_standing {s : Dev} {l : Nat} : (s.agree l).standing = s.standing := by
  unfold Dev.agree; simp

@[simp] theorem Dev.attempt_standing {s : Dev} {j n : Nat} : (s.attempt j n).standing = s.standing := by rfl

@[simp] theorem Dev.retrain_standing {s : Dev} {j : Nat} : (s.retrain j).standing = s.standing := by
  unfold Dev.retrain; simp

@[simp] theorem Dev.laneUp_standing {s : Dev} {j : Nat} : (s.laneUp j).standing = s.standing := by
  unfold Dev.laneUp; simp

@[simp] theorem Dev.laneOff_standing {s : Dev} {j : Nat} : (s.laneOff j).standing = s.standing := by
  unfold Dev.laneOff; simp

@[simp] theorem Dev.narrow_standing {s : Dev} {n : Nat} : (s.narrow n).standing = s.standing := by
  induction n with
  | zero => rfl
  | succ j ih =>
    unfold Dev.narrow; dsimp only
    split
    · simpa using ih
    · exact ih

@[simp] theorem Dev.listed_standing {s : Dev} {l : Nat} {m : BitVec 4} : (s.listed l m).standing = s.standing := by
  unfold Dev.listed; simp

@[simp] theorem Dev.qRej_standing {s : Dev} {q tag why : Nat} : (s.qRej q tag why).standing = s.standing := by
  unfold Dev.qRej; simp

@[simp] theorem Dev.qDone_standing {s : Dev} {q tag : Nat} : (s.qDone q tag).standing = s.standing := by
  unfold Dev.qDone; simp

@[simp] theorem Dev.setCircs_standing {s : Dev} {q : Nat} : (s.setCircs q).standing = s.standing := by
  unfold Dev.setCircs; simp

@[simp] theorem Dev.weirsOn_standing {s : Dev} {q : Nat} : (s.weirsOn q).standing = s.standing := by
  unfold Dev.weirsOn; simp

@[simp] theorem Dev.quadUnits_standing {s : Dev} {q : Nat} {old new : QState} :
    (s.quadUnits q old new).standing = s.standing := by
  unfold Dev.quadUnits; simp

@[simp] theorem Dev.handOver_standing {s : Dev} {q p n : Nat} : (s.handOver q p n).standing = s.standing := by
  unfold Dev.handOver; simp

@[simp] theorem Dev.serveRecord_standing {s : Dev} {q : Nat} {r : Nat × Bool} :
    (s.serveRecord q r).standing = s.standing := by
  unfold Dev.serveRecord; simp

@[simp] theorem Dev.quadTo_standing {s : Dev} {q : Nat} {t : QState} : (s.quadTo q t).standing = s.standing := by
  unfold Dev.quadTo; dsimp only
  split <;> simp

@[simp] theorem Dev.dwellPins_standing {s : Dev} {q : Nat} : (s.dwellPins q).standing = s.standing := by
  unfold Dev.dwellPins; simp

@[simp] theorem Dev.qSupersede_standing {s : Dev} {q : Nat} : (s.qSupersede q).standing = s.standing := by
  unfold Dev.qSupersede; split <;> simp

@[simp] theorem Dev.qRequest_standing {s : Dev} {q : Nat} {t : QState} {tag : Nat} :
    (s.qRequest q t tag).standing = s.standing := by
  unfold Dev.qRequest; simp

@[simp] theorem Dev.qReqWrite_standing {s : Dev} {q : Nat} {v : W} : (s.qReqWrite q v).standing = s.standing := by
  unfold Dev.qReqWrite; split <;> simp

@[simp] theorem Dev.quadPowered_standing {s : Dev} {q : Nat} : (s.quadPowered q).standing = s.standing := by
  unfold Dev.quadPowered; simp

@[simp] theorem Dev.substVoid_standing {s : Dev} {q c : Nat} : (s.substVoid q c).standing = s.standing := by
  unfold Dev.substVoid
  split
  · rfl
  · split <;> simp

@[simp] theorem Dev.substBegin_standing {s : Dev} {q c : Nat} {restore : Bool} :
    (s.substBegin q c restore).standing = s.standing := by
  unfold Dev.substBegin; simp

@[simp] theorem Dev.substRecord_standing {s : Dev} {q c : Nat} {restore : Bool} :
    (s.substRecord q c restore).standing = s.standing := by
  unfold Dev.substRecord; simp

@[simp] theorem Dev.substStart_standing {s : Dev} {q c : Nat} {restore : Bool} :
    (s.substStart q c restore).standing = s.standing := by
  unfold Dev.substStart; split <;> simp

@[simp] theorem Dev.substWrite_standing {s : Dev} {q : Nat} {v : W} : (s.substWrite q v).standing = s.standing := by
  unfold Dev.substWrite; simp

@[simp] theorem Dev.quadFaults_standing {s : Dev} {q : Nat} : (s.quadFaults q).1.standing = s.standing := by
  unfold Dev.quadFaults; dsimp only
  split
  · simp
  · split
    · simp
    · split
      · simp
      · split
        · simp
        · split <;> simp
      · simp

@[simp] theorem Dev.spareServes_standing {s : Dev} {q c : Nat} : (s.spareServes q c).standing = s.standing := by
  unfold Dev.spareServes; simp

@[simp] theorem Dev.primaryServes_standing {s : Dev} {q c : Nat} : (s.primaryServes q c).standing = s.standing := by
  unfold Dev.primaryServes; simp

@[simp] theorem Dev.substServe_standing {s : Dev} {q : Nat} : (s.substServe q).standing = s.standing := by
  unfold Dev.substServe; split <;> simp

@[simp] theorem Dev.substTick_standing {s : Dev} {q : Nat} : (s.substTick q).standing = s.standing := by
  unfold Dev.substTick; split <;> simp

@[simp] theorem Dev.wakeEval_standing {s : Dev} {q : Nat} : (s.wakeEval q).standing = s.standing := by
  unfold Dev.wakeEval; simp

@[simp] theorem Dev.wakeAtTick_standing {s : Dev} {q : Nat} : (s.wakeAtTick q).standing = s.standing := by
  unfold Dev.wakeAtTick; simp

@[simp] theorem Dev.wake_standing {s : Dev} {q : Nat} : (s.wake q).standing = s.standing := by
  unfold Dev.wake; simp

@[simp] theorem Dev.pwrRej_standing {s : Dev} {why : Nat} : (s.pwrRej why).standing = s.standing := by rfl

@[simp] theorem Dev.domCut_standing {s : Dev} {n : Nat} : (s.domCut n).standing = s.standing := by rfl

@[simp] theorem Dev.domSwitch_standing {s : Dev} {n : Nat} : (s.domSwitch n).standing = s.standing := by rfl

@[simp] theorem Dev.domWait_standing {s : Dev} {n : Nat} : (s.domWait n).standing = s.standing := by
  unfold Dev.domWait; simp

@[simp] theorem Dev.clusterClear_standing {s : Dev} {k : Nat} : (s.clusterClear k).standing = s.standing := by rfl

@[simp] theorem Dev.enginesUp_standing {s : Dev} : s.enginesUp.standing = s.standing := by
  unfold Dev.enginesUp; simp

@[simp] theorem Dev.cisClear_standing {s : Dev} : s.cisClear.standing = s.standing := by
  unfold Dev.cisClear; simp

@[simp] theorem Dev.domOff_standing {s : Dev} {n : Nat} : (s.domOff n).standing = s.standing := by
  unfold Dev.domOff; simp

@[simp] theorem Dev.domAsk_standing {s : Dev} {n : Nat} {on : Bool} : (s.domAsk n on).1.standing = s.standing := by
  unfold Dev.domAsk; dsimp only
  split
  · split
    · rfl
    · split <;> simp
  · split
    · rfl
    · split <;> simp

@[simp] theorem Dev.setGroups_standing {s : Dev} {n : Nat} : (s.setGroups n).standing = s.standing := by
  unfold Dev.setGroups; simp

@[simp] theorem Dev.greq_standing {s : Dev} : s.greq.standing = s.standing := by
  unfold Dev.greq; simp

@[simp] theorem Dev.askEntry_standing {s : Dev} {o : Nat} {m : W} : (s.askEntry o m).1.standing = s.standing := by
  unfold Dev.askEntry; dsimp only
  split
  · simp
  · refine foldl_fst_standing fun r k => ?_
    split <;> simp

@[simp] theorem Dev.askAll_standing {s : Dev} {l : List (Nat × W)} {j : Option Job} :
    (s.askAll l j).standing = s.standing := by
  unfold Dev.askAll; split <;> simp

@[simp] theorem Dev.admitDoms_standing {s : Dev} : s.admitDoms.standing = s.standing := by
  unfold Dev.admitDoms; simp

@[simp] theorem Dev.retiredOff_standing {s : Dev} : s.retiredOff.standing = s.standing := by
  unfold Dev.retiredOff; simp

@[simp] theorem Dev.groupsDone_standing {s : Dev} : s.groupsDone.standing = s.standing := by
  unfold Dev.groupsDone; split <;> simp

@[simp] theorem Dev.quadsPowered_standing {s : Dev} : s.quadsPowered.standing = s.standing := by
  unfold Dev.quadsPowered; simp

@[simp] theorem Dev.demands_standing {s : Dev} : s.demands.standing = s.standing := by
  unfold Dev.demands; simp

@[simp] theorem Dev.applyDwell_standing {s : Dev} {i code sel : Nat} :
    (s.applyDwell i code sel).standing = s.standing := by
  unfold Dev.applyDwell; simp

@[simp] theorem Dev.applyJoin_standing {s : Dev} {e i : Nat} {seg : BitVec 16} {w : Nat} :
    (s.applyJoin e i seg w).standing = s.standing := by
  unfold Dev.applyJoin; simp

@[simp] theorem Dev.exitSite_standing {s : Dev} {i : Nat} : (s.exitSite i).standing = s.standing := by rfl

@[simp] theorem Dev.dwellSite_standing {s : Dev} {d i : Nat} : (s.dwellSite d i).standing = s.standing := by rfl

@[simp] theorem Dev.dropTpoint_standing {s : Dev} {i : Nat} : (s.dropTpoint i).standing = s.standing := by rfl

@[simp] theorem Dev.tpointMask_standing {s : Dev} {y : Nat} : (s.tpointMask y).1.standing = s.standing := by
  unfold Dev.tpointMask; dsimp only
  split
  · rfl
  · split <;> simp

@[simp] theorem Dev.tpoints_standing {s : Dev} : (s.tpoints.1).standing = s.standing := by
  unfold Dev.tpoints; split <;> simp

@[simp] theorem Dev.detachSite_standing {s : Dev} {alt : Bool} {i : Nat} :
    (s.detachSite alt i).standing = s.standing := by
  unfold Dev.detachSite; simp

@[simp] theorem Dev.maskExits_standing {s : Dev} : s.maskExits.standing = s.standing := by
  unfold Dev.maskExits; simp

@[simp] theorem Dev.failRdv_standing {s : Dev} {i : Nat} : (s.failRdv i).standing = s.standing := by rfl

@[simp] theorem Dev.agePlay_standing {s : Dev} {i : Nat} : (s.agePlay i).standing = s.standing := by
  unfold Dev.agePlay; simp

@[simp] theorem SeqOut.wait_standing {o : SeqOut} {y : Nat} {m : List Nat} {free : Bool} :
    (SeqOut.wait o y m free).s.standing = o.s.standing := by
  unfold SeqOut.wait; split <;> simp

@[simp] theorem SeqOut.elect_standing {o : SeqOut} {y : Nat} : (SeqOut.elect o y).s.standing = o.s.standing := by rfl

@[simp] theorem Dev.ageAlone_standing {s : Dev} : s.ageAlone.standing = s.standing := by
  unfold Dev.ageAlone; simp

@[simp] theorem Dev.joinLapse_standing {s : Dev} {i : Nat} : (s.joinLapse i).standing = s.standing := by
  unfold Dev.joinLapse; simp

@[simp] theorem Dev.joinTick_standing {s : Dev} {moved : List (Nat × Nat)} {i : Nat} :
    (s.joinTick moved i).standing = s.standing := by
  unfold Dev.joinTick; split <;> simp

@[simp] theorem Dev.joins_standing {s : Dev} {moved : List (Nat × Nat)} : (s.joins moved).standing = s.standing := by
  unfold Dev.joins; simp

@[simp] theorem Dev.quietPins_standing {s : Dev} : s.quietPins.standing = s.standing := by
  unfold Dev.quietPins; simp

@[simp] theorem Dev.voidSlots_standing {s : Dev} {i n : Nat} : (s.voidSlots i n).standing = s.standing := by rfl

@[simp] theorem Dev.addDue_standing {s : Dev} {c : Closing} : (s.addDue c).standing = s.standing := by rfl

@[simp] theorem Dev.closeStep_standing {s : Dev} {i : Nat} {p : Step} {st : Nat} :
    (s.closeStep i p st).standing = s.standing := by
  unfold Dev.closeStep; simp

@[simp] theorem Dev.cancelStep_standing {s : Dev} {i : Nat} {p : Step} : (s.cancelStep i p).standing = s.standing := by
  rfl

@[simp] theorem Dev.keepStep_standing {s : Dev} {i : Nat} {p : Step} : (s.keepStep i p).standing = s.standing := by
  unfold Dev.keepStep; simp

@[simp] theorem Dev.commitVoid_standing {s : Dev} {i cause : Nat} {ended step : Option Step} :
    (s.commitVoid i cause ended step).standing = s.standing := by
  unfold Dev.commitVoid; simp

@[simp] theorem Dev.commitEnded_standing {s : Dev} {i : Nat} {ended : Option Step} :
    (s.commitEnded i ended).standing = s.standing := by
  unfold Dev.commitEnded; split <;> simp

@[simp] theorem Dev.commitSite_standing {i : Nat} {s : Dev} : (Dev.commitSite i s).standing = s.standing := by
  unfold Dev.commitSite; dsimp only
  split
  · rfl
  · split
    · split <;> simp
    · split <;> simp

@[simp] theorem Dev.closeTick_standing {s : Dev} : s.closeTick.standing = s.standing := by
  unfold Dev.closeTick; simp

@[simp] theorem Dev.commitAll_standing {s : Dev} : s.commitAll.1.standing = s.standing := by
  unfold Dev.commitAll; simp

@[simp] theorem Dev.retireEng_standing {s : Dev} {e : Nat} : (s.retireEng e).standing = s.standing := by
  unfold Dev.retireEng; simp

@[simp] theorem Dev.takeOver_standing {s : Dev} {i n : Nat} : (s.takeOver i n).standing = s.standing := by
  unfold Dev.takeOver; simp

@[simp] theorem Dev.repairEng_standing {s : Dev} {e : Nat} : (s.repairEng e).standing = s.standing := by
  unfold Dev.repairEng; dsimp only
  split
  · simp
  · split <;> simp

@[simp] theorem Dev.engRepairs_standing {s : Dev} : s.engRepairs.standing = s.standing := by
  unfold Dev.engRepairs; simp

@[simp] theorem Dev.engRepairsSafe_standing {s : Dev} : s.engRepairsSafe.standing = s.standing := by
  unfold Dev.engRepairsSafe; simp

@[simp] theorem Dev.releaseFlags_standing {s : Dev} {e : Nat} : (s.releaseFlags e).standing = s.standing := by
  unfold Dev.releaseFlags; split <;> simp

@[simp] theorem Dev.enterVoidh_standing {s : Dev} {e i cause : Nat} :
    (s.enterVoidh e i cause).standing = s.standing := by
  unfold Dev.enterVoidh; dsimp only
  split
  · split <;> simp
  · simp

@[simp] theorem Dev.releaseEng_standing {s : Dev} {e : Nat} : (s.releaseEng e).standing = s.standing := by
  unfold Dev.releaseEng; dsimp only
  split
  · simp
  · split <;> (try split) <;> simp

@[simp] theorem Dev.releaseAll_standing {s : Dev} : s.releaseAll.standing = s.standing := by
  unfold Dev.releaseAll; simp

@[simp] theorem Dev.startSite_standing {s : Dev} {entry i : Nat} : (s.startSite entry i).standing = s.standing := by rfl

@[simp] theorem Dev.runStart_standing {s : Dev} {entry : Nat} {l : List Nat} :
    (s.runStart entry l).1.standing = s.standing := by
  unfold Dev.runStart; split <;> simp

@[simp] theorem Dev.stopSite_standing {s : Dev} {i : Nat} : (s.stopSite i).standing = s.standing := by rfl

@[simp] theorem Dev.runStop_standing {s : Dev} {l : List Nat} : (s.runStop l).1.standing = s.standing := by
  unfold Dev.runStop; simp

@[simp] theorem Dev.pauseSite_standing {s : Dev} {i : Nat} : (s.pauseSite i).standing = s.standing := by rfl

@[simp] theorem Dev.resumeSite_standing {s : Dev} {i : Nat} : (s.resumeSite i).standing = s.standing := by rfl

@[simp] theorem Dev.oneRun_standing {s : Dev} {pause : Bool} {i : Nat} : (s.oneRun pause i).1.standing = s.standing := by
  unfold Dev.oneRun
  split
  · rfl
  · cases pause
    · simp only [Bool.false_eq_true, if_false]; split <;> simp
    · simp only [if_true]; split <;> simp

@[simp] theorem Dev.chanOff_standing {s : Dev} {p : Nat} : (s.chanOff p).standing = s.standing := by rfl

@[simp] theorem Dev.chansTo_standing {s : Dev} {m : Mode} : (s.chansTo m).standing = s.standing := by
  unfold Dev.chansTo; simp

@[simp] theorem Dev.unitsTo_standing {s : Dev} {old new : Mode} : (s.unitsTo old new).standing = s.standing := by
  unfold Dev.unitsTo; simp

@[simp] theorem Dev.readThrough_standing {s : Dev} {bad : List (Fin 16)} :
    (s.readThrough bad).standing = s.standing := by
  unfold Dev.readThrough; simp

@[simp] theorem Dev.putCard_standing {s : Dev} {a : Nat} {v : W} : (s.putCard a v).standing = s.standing := by rfl

@[simp] theorem Dev.cfgRej_standing {s : Dev} : s.cfgRej.standing = s.standing := by rfl

@[simp] theorem Dev.askMode_standing {s : Dev} {tag target : Nat} {cmd : Option Job} :
    (s.askMode tag target cmd).standing = s.standing := by
  rfl

@[simp] theorem Dev.askPower_standing {s : Dev} {o : Nat} {v : W} : (s.askPower o v).standing = s.standing := by rfl

@[simp] theorem Dev.applyFlen_standing {s : Dev} {v : W} : (s.applyFlen v).standing = s.standing := by
  unfold Dev.applyFlen; simp

@[simp] theorem Dev.applyAdc_standing {s : Dev} {p : Nat} {v : W} : (s.applyAdc p v).standing = s.standing := by
  unfold Dev.applyAdc; simp

@[simp] theorem Dev.applyTdc_standing {s : Dev} {p : Nat} {v : W} : (s.applyTdc p v).standing = s.standing := by
  unfold Dev.applyTdc; simp

@[simp] theorem Dev.applyCh_standing {s : Dev} {p o : Nat} {v : W} : (s.applyCh p o v).standing = s.standing := by
  unfold Dev.applyCh; simp

@[simp] theorem Dev.applyWrite_standing {s : Dev} {a : Nat} {v : W} : (s.applyWrite a v).standing = s.standing := by
  unfold Dev.applyWrite; split <;> simp

@[simp] theorem Dev.pwrSet_standing {s : Dev} {j : Job} : (s.pwrSet j).standing = s.standing := by
  unfold Dev.pwrSet; simp

@[simp] theorem Dev.quadState_standing {s : Dev} {j : Job} : (s.quadState j).standing = s.standing := by
  unfold Dev.quadState; simp

@[simp] theorem Dev.seal_standing {s : Dev} {h : Header} : (s.seal h).standing = s.standing := by
  unfold Dev.seal; simp

@[simp] theorem Dev.clockVoids_standing {s : Dev} {moved : Bool} : (s.clockVoids moved).standing = s.standing := by
  unfold Dev.clockVoids; simp

@[simp] theorem Dev.resetsAt_standing {s : Dev} {t : Nat} : (s.resetsAt t).standing = s.standing := by
  unfold Dev.resetsAt; simp

@[simp] theorem Dev.bankSwitch_standing {n : Nat} {s : Dev} : (Dev.bankSwitch n s).standing = s.standing := by
  unfold Dev.bankSwitch; simp

@[simp] theorem Dev.unitsTick_standing {s : Dev} {len : Nat} : (s.unitsTick len).standing = s.standing := by
  unfold Dev.unitsTick; simp

@[simp] theorem Dev.wakePhase_standing {s : Dev} : s.wakePhase.standing = s.standing := by
  unfold Dev.wakePhase; simp

@[simp] theorem Dev.sparesWatch_standing {s : Dev} : s.sparesWatch.standing = s.standing := by
  unfold Dev.sparesWatch; simp

@[simp] theorem Dev.emits_standing {s : Dev} {l : List EngEnt} : (s.emits l).standing = s.standing := by
  unfold Dev.emits
  refine forL_standing fun x t => ?_
  split <;> simp

@[simp] theorem Dev.keepOcc_standing {s : Dev} {due : Tab Nat} : (s.keepOcc due).standing = s.standing := by
  unfold Dev.keepOcc; simp

@[simp] theorem Dev.queueNotes_standing {s : Dev} {old notes : List Ntfy} :
    (s.queueNotes old notes).standing = s.standing := by
  unfold Dev.queueNotes; simp

@[simp] theorem Dev.frameReset_standing {s : Dev} : s.frameReset.standing = s.standing := by
  unfold Dev.frameReset; simp

@[simp] theorem Dev.releaseStep_standing {s : Dev} : s.releaseStep.standing = s.standing := by
  unfold Dev.releaseStep; simp

@[simp] theorem Dev.quadsOff_standing {s : Dev} : s.quadsOff.standing = s.standing := by
  unfold Dev.quadsOff; simp

@[simp] theorem Dev.tickOpens_standing {s : Dev} : s.tickOpens.standing = s.standing := by rfl

@[simp] theorem Dev.tickNotes_standing {s : Dev} {old : List Ntfy} {due : Tab Nat} :
    (s.tickNotes old due).standing = s.standing := by
  unfold Dev.tickNotes; simp

end Sys2Proof.Machine
end

section
/-! PROOFS. What an operation of a tick that may raise a fault leaves of the standing of a device. -/

namespace Sys2Proof.Machine

/-- `s` may follow `a` where no tick and no mode switch lies between: faults may have entered SAFE, which drops staged
commands, and overran engines have lost their staged writes. -/
structure Standing.Leads (a s : Standing) : Prop where
  rest : s = { a with stage := s.stage, mode := s.mode, due := s.due }
  host : s.stage.host ⊆ a.stage.host
  eng  : a.stage.eng = [] → s.stage.eng = []
  safe : a.mode = .safe → s.mode = .safe ∧ s.due = a.due

variable {a : Standing}

@[simp] theorem Standing.Leads.refl (s : Standing) : s.Leads s := ⟨rfl, fun _ h => h, id, fun h => ⟨h, rfl⟩⟩

theorem Standing.Leads.trans {b c : Standing} (h : a.Leads b) (k : b.Leads c) : a.Leads c where
  rest := by
    have e := k.rest
    rw [h.rest] at e
    exact e
  host := List.Subset.trans k.host h.host
  eng := k.eng ∘ h.eng
  safe m := ⟨(k.safe (h.safe m).1).1, (k.safe (h.safe m).1).2.trans (h.safe m).2⟩

@[simp] theorem Standing.leads_ite (p : Prop) [Decidable p] (s t : Standing) :
    a.Leads (if p then s else t) ↔ if p then a.Leads s else a.Leads t := by split <;> rfl

theorem forL_leads {β : Type} {f : β → Dev → Dev} {l : List β} {s : Dev} (h : a.Leads s.standing)
    (k : ∀ x t, a.Leads t.standing → a.Leads (f x t).standing) : a.Leads (forL l f s).standing := by
  unfold forL
  induction l generalizing s with
  | nil => exact h
  | cons x r ih => exact ih (k x s h)

theorem forN_leads {f : Nat → Dev → Dev} {n : Nat} {s : Dev} (h : a.Leads s.standing)
    (k : ∀ x t, a.Leads t.standing → a.Leads (f x t).standing) : a.Leads (forN n f s).standing :=
  forL_leads (l := List.range n) h k

/-- A fold of what carries the device. -/
theorem foldl_leads {σ β : Type} (p : σ → Dev) {f : σ → β → σ} {l : List β} {r : σ} (h : a.Leads (p r).standing)
    (k : ∀ r x, a.Leads (p r).standing → a.Leads (p (f r x)).standing) : a.Leads (p (l.foldl f r)).standing := by
  induction l generalizing r with
  | nil => exact h
  | cons x l ih => exact ih (k r x h)

/-! ### SAFE -/

/-- SAFE entry drops the staged commands. -/
theorem Dev.abortCmds_standing (s : Dev) :
    s.abortCmds.standing = { s.standing with stage := { s.stage with
      host := s.stage.host.filter (fun x => match x.op with | .cmd _ => false | _ => true) } } := by
  unfold Dev.abortCmds
  exact forL_standing fun j t => by simp

@[simp] theorem Dev.abortCmds_leads {s : Dev} (h : a.Leads s.standing) : a.Leads s.abortCmds.standing := by
  refine h.trans ?_
  rw [Dev.abortCmds_standing]
  exact ⟨rfl, List.filter_subset_self _, id, fun m => ⟨m, rfl⟩⟩

/-- A device outside SAFE that enters it with its tick to come. -/
theorem Standing.Leads.enter {s : Standing} (h : a.Leads s) (hm : a.mode ≠ .safe) :
    a.Leads { s with mode := .safe, due := true } where
  rest := by rw [h.rest]
  host := h.host
  eng := h.eng
  safe m := absurd m hm

@[simp] theorem Dev.enterSafe_leads {s : Dev} {x : Nat} (h : a.Leads s.standing) : a.Leads (s.enterSafe x).standing := by
  unfold Dev.enterSafe
  split
  · exact h
  · rename_i hm
    extract_lets n s1 s2 s3 s4 s5
    have h1 : a.Leads s1.standing := by simp [s1, h]
    have h2 : a.Leads s2.standing := by simpa [s2] using h1
    have h4 : a.Leads s4.standing := by simpa [s4] using Dev.abortCmds_leads h2
    have h5 : a.Leads s5.standing := by simpa [s5] using h4
    have ne : a.mode ≠ .safe := fun k => hm (by simp [show s.sys.mode = .safe from (h.safe k).1])
    clear_value s1 s2 s3 s4 s5
    exact h5.enter ne

/-! ### Raises -/

@[simp] theorem Dev.reacts_leads {s : Dev} {x e : Nat} {o : OccNow} {rs : List Raise} (h : a.Leads s.standing) :
    a.Leads (s.reacts x e o rs).standing := by
  unfold Dev.reacts
  split <;> simp [h]

@[simp] theorem Dev.occur_leads {s : Dev} {x : Nat} {rs : List Raise} (h : a.Leads s.standing) :
    a.Leads (s.occur x rs).standing := by
  unfold Dev.occur; simp [h]

@[simp] theorem Dev.raises_leads {s : Dev} {rs : List Raise} (h : a.Leads s.standing) :
    a.Leads (s.raises rs).standing := by
  unfold Dev.raises
  exact forN_leads (by simpa using h) fun x t k => by simp [k]

@[simp] theorem Dev.raise_leads {s : Dev} {r : Raise} (h : a.Leads s.standing) : a.Leads (s.raise r).standing :=
  Dev.raises_leads h

/-! ### Players -/

@[simp] theorem Dev.plyFault_leads {s : Dev} {y f b : Nat} (h : a.Leads s.standing) :
    a.Leads (s.plyFault y f b).standing := Dev.raise_leads (by simpa using h)

@[simp] theorem Dev.badSeg_leads {s : Dev} {y : Nat} (h : a.Leads s.standing) : a.Leads (s.badSeg y).standing :=
  Dev.plyFault_leads h

@[simp] theorem Dev.claimFail_standing {s : Dev} {y seg blk : Nat} {m : Bool} :
    (s.claimFail y m seg blk).standing = s.standing := by
  unfold Dev.claimFail; simp

@[simp] theorem Dev.claimOne_leads {s : Dev} {y seg blk : Nat} (h : a.Leads s.standing) :
    a.Leads (s.claimOne y seg blk).1.standing := by
  unfold Dev.claimOne
  extract_lets p s1
  split
  · simpa only [Dev.claimFail_standing] using h
  · split
    · exact Dev.raise_leads (by simpa only [s1, Dev.claimFail_standing] using h)
    · simpa only [Dev.setPly_standing] using h

@[simp] theorem Dev.claimNext_leads {s : Dev} {y n : Nat} (h : a.Leads s.standing) :
    a.Leads (s.claimNext y n).standing := by
  induction n with
  | zero => exact h
  | succ n ih =>
    unfold Dev.claimNext; dsimp only
    split
    · split <;> simp [ih]
    · exact ih

@[simp] theorem Dev.takeLink_leads {s : Dev} {y : Nat} {g : Machine.Placed} (h : a.Leads s.standing) :
    a.Leads (s.takeLink y g).standing := by
  unfold Dev.takeLink; simp [h]

@[simp] theorem Dev.startSeg_leads {s : Dev} {y got : Nat} {g : Machine.Placed} (h : a.Leads s.standing) :
    a.Leads (s.startSeg y g got).standing := by
  unfold Dev.startSeg; simp [h]

@[simp] theorem Dev.startFromDwell_leads {s : Dev} {y : Nat} {g : Machine.Placed} (h : a.Leads s.standing) :
    a.Leads (s.startFromDwell y g).standing := by
  unfold Dev.startFromDwell; simp [h]

@[simp] theorem Dev.moveSeg_leads {s : Dev} {y : Nat} {g : Machine.Placed} (h : a.Leads s.standing) :
    a.Leads (s.moveSeg y g).standing := by
  unfold Dev.moveSeg; simp [h]

@[simp] theorem Dev.jumpSeq_standing {s : Dev} {y : Nat} {g : Machine.Placed} : (s.jumpSeq y g).standing = s.standing := by
  unfold Dev.jumpSeq; dsimp only
  split
  · rfl
  · split
    · simp
    · split <;> simp

@[simp] theorem Dev.jump_leads {s : Dev} {y id : Nat} (h : a.Leads s.standing) : a.Leads (s.jump y id).standing := by
  unfold Dev.jump; dsimp only
  split
  · simp [h]
  · split
    · exact Dev.badSeg_leads h
    · split <;> simp [h]

@[simp] theorem Dev.waitingJump_leads {s : Dev} {y : Nat} {p : Ply} (h : a.Leads s.standing) :
    a.Leads (s.waitingJump y p).standing := by
  unfold Dev.waitingJump
  split
  · split
    · exact h
    · split
      · dsimp only; split <;> simp [h]
      · simpa using h
  · exact h

@[simp] theorem Dev.fixSeq_leads {s : Dev} {y : Nat} (h : a.Leads s.standing) : a.Leads (s.fixSeq y).standing := by
  unfold Dev.fixSeq; dsimp only
  split
  · simpa using h
  · split <;> simp [h]

@[simp] theorem Dev.resumePly_leads {s : Dev} {y : Nat} (h : a.Leads s.standing) : a.Leads (s.resumePly y).standing := by
  unfold Dev.resumePly; dsimp only
  split
  · split <;> simp [h]
  · simpa using h

/-! ### Quads and power -/

@[simp] theorem Dev.quadsTo_leads {s : Dev} {l : List (Nat × QState)} (h : a.Leads s.standing) :
    a.Leads (s.quadsTo l).standing := by
  unfold Dev.quadsTo; simp [h]

@[simp] theorem Dev.quadChanges_leads {s : Dev} (h : a.Leads s.standing) : a.Leads s.quadChanges.standing := by
  unfold Dev.quadChanges; simp [h]

@[simp] theorem Dev.retireMark_standing {s : Dev} {q : Nat} : (s.retireMark q).standing = s.standing := by
  unfold Dev.retireMark; simp

@[simp] theorem Dev.retireQuads_leads {s : Dev} {l : List Nat} (h : a.Leads s.standing) :
    a.Leads (s.retireQuads l).standing := by
  unfold Dev.retireQuads; simp [h]

@[simp] theorem Dev.quadPhase_leads {s : Dev} (h : a.Leads s.standing) : a.Leads s.quadPhase.standing := by
  unfold Dev.quadPhase; dsimp only
  refine Dev.quadChanges_leads (Dev.retireQuads_leads ?_)
  rw [forL_standing fun q t => by simp]
  exact foldl_leads Prod.fst (by simpa using h) fun r x k => by simpa using k

@[simp] theorem Dev.powerPhase_leads {s : Dev} (h : a.Leads s.standing) : a.Leads s.powerPhase.standing := by
  unfold Dev.powerPhase; simp [h]

/-! ### Sites, engines and the staged entries -/

@[simp] theorem Dev.throttleWait_leads {s : Dev} {i d : Nat} (h : a.Leads s.standing) :
    a.Leads (s.throttleWait i d).standing := by
  unfold Dev.throttleWait; simp [h]

@[simp] theorem Dev.waitCounts_leads {s : Dev} (h : a.Leads s.standing) : a.Leads s.waitCounts.standing := by
  unfold Dev.waitCounts
  split
  · exact h
  · exact forL_leads h fun i t k => by simp [k]

@[simp] theorem applyForce_leads {i fn r p : Nat} {v : W} {s : Dev} (h : a.Leads s.standing) :
    a.Leads (applyForce i fn r v p s).standing := by
  unfold applyForce; simp [h]

/-- A staged entry of an engine applies. -/
theorem Dev.applyEng_leads {s : Dev} {x : EngEnt} (h : a.Leads s.standing) : a.Leads (s.applyEng x).standing := by
  unfold Dev.applyEng
  split
  · exact h
  · rename_i i hi
    cases x.op
    case force fn sel r v => exact forL_leads h fun p t k => applyForce_leads k
    case gang on lead m => dsimp only; split <;> simp [h]
    case acqarm prof t post => dsimp only; split <;> simp [h]
    case tdcopen mode t pre prof owner => dsimp only; split <;> simp [h]
    all_goals simp [h]

@[simp] theorem Dev.retireUnit_standing {s : Dev} {v : W} : (s.retireUnit v).1.standing = s.standing := by
  unfold Dev.retireUnit; dsimp only
  split
  · simp
  · split
    · simp
    · split
      · rfl
      · split <;> simp
  · split <;> simp
  · split <;> simp
  · split <;> simp
  · split
    · rfl
    · split <;> simp

@[simp] theorem Dev.groupRun_leads {s : Dev} {p : Bool} {y : Nat} (h : a.Leads s.standing) :
    a.Leads (s.groupRun p y).standing := by
  unfold Dev.groupRun; simp [h]

/-- A staged command applies. -/
theorem Dev.applyCmd_leads {s : Dev} {j : Job} (h : a.Leads s.standing) : a.Leads (s.applyCmd j).standing := by
  unfold Dev.applyCmd; simp [h]

theorem Dev.applyHost_leads {x : HostEnt} {r : Dev × Bool} (h : a.Leads r.1.standing) :
    a.Leads (Dev.applyHost x r).1.standing := by
  unfold Dev.applyHost
  extract_lets late s
  have hs : a.Leads s.standing := by simp [s, h]
  clear_value s
  dsimp only
  split
  · simp [hs]
  · split
    · simp [hs]
    · exact Dev.applyCmd_leads hs

/-! ### Players' phase -/

theorem SeqOut.move_leads {o : SeqOut} {y c : Nat} {m : List Nat} {seg : BitVec 16} {g : Machine.Placed}
    (h : a.Leads o.s.standing) : a.Leads (o.move y m c seg g).s.standing := by
  unfold SeqOut.move; simp [h]

theorem SeqOut.player_leads {o : SeqOut} {y : Nat} (h : a.Leads o.s.standing) : a.Leads (o.player y).s.standing := by
  have he : a.Leads (o.elect y).s.standing := by simpa using h
  unfold SeqOut.player; dsimp only
  split
  · exact he
  · split
    · simpa using h
    · split
      · split
        · exact SeqOut.move_leads he
        · exact Dev.badSeg_leads he
      · exact he

@[simp] theorem Dev.finishPly_leads {s was : Dev} {j : List (Nat × Nat)} {y : Nat} (h : a.Leads s.standing) :
    a.Leads (s.finishPly was j y).standing := by
  unfold Dev.finishPly; dsimp only
  split
  · exact h
  · simp only [Dev.edgeClamp_standing, Dev.latchAtTick_standing]
    refine Dev.fixSeq_leads ?_
    split <;> simp [h]

theorem Dev.playersPhase_leads {s : Dev} {j : List (Nat × Nat)} (h : a.Leads s.standing) :
    a.Leads (s.playersPhase j).standing := by
  unfold Dev.playersPhase
  extract_lets was s1 t s2 o s3 s4
  have h2 : a.Leads s2.standing := by simpa [s2, t, s1] using h
  have h3 : a.Leads s3.standing := by
    simp only [s3, Dev.joins_standing, Dev.ageAlone_standing]
    exact foldl_leads SeqOut.s (by simpa using h2) fun r y k => SeqOut.player_leads k
  have h4 : a.Leads s4.standing := by simp [s4, h3]
  simp only [Dev.quietPins_standing]
  exact forN_leads h4 fun y t k => Dev.finishPly_leads k

end Sys2Proof.Machine
end

section
/-! PROOFS. The frame registers and marks that a tick reads for its own number and length stand through its opening
raises. -/

namespace Sys2Proof.Machine

/-- The marks of an epoch, with FRM.FLEN and the two words of an epoch's frame number. -/
def Dev.tickCards (s : Dev) : Bool × Option Nat × W × W × W :=
  (s.clk.mark, s.clk.markIn, s.rd (aFrm 4), s.rd (aFrm 0x18), s.rd (aFrm 0x1C))

/-- The register at `a` is none of those. -/
def NoTickCard (a : Nat) : Prop := a ≠ 0x20004 ∧ a ≠ 0x20018 ∧ a ≠ 0x2001C

@[simp] theorem noTickCard_aSrc {f : Nat} (h : f < 384) : NoTickCard (aSrc f) := by
  unfold NoTickCard aSrc aFlt; omega

@[simp] theorem noTickCard_aCls {x : Nat} (h : x < 12) : NoTickCard (aCls x) := by
  unfold NoTickCard aCls aFlt; omega

@[simp] theorem noTickCard_aFrm {o : Nat} (h : o ≠ 4 ∧ o ≠ 0x18 ∧ o ≠ 0x1C) : NoTickCard (aFrm o) := by
  unfold NoTickCard aFrm; omega

@[simp] theorem noTickCard_low {a : Nat} (h : a < 0x1000) : NoTickCard a := by
  unfold NoTickCard; omega

@[simp] theorem Dev.tickCards_ite (p : Prop) [Decidable p] (s t : Dev) :
    (if p then s else t).tickCards = if p then s.tickCards else t.tickCards := apply_ite _ _ _ _

/-- An update of other fields. -/
@[simp] theorem Dev.tickCards_update {s : Dev} {sys : Sys} {clk : Clk} {stage : Stage} {mem : List Host.Cell}
    {scratch : List Host.Cell} {engs : Tab Eng} {sites : Tab Site} {plys : Tab Ply} {cmps : List Cmp} {quads : Tab Quad}
    {circs : Tab Circ} {chains : Tab Chain} {acqs : Tab Acq} {tdcs : Tab Tdc} {weirs : Tab Weir} {slc : Slc} {led : Led}
    {flt : Flt} {cis : Cis} {pwr : Pwr} {lanes : Tab Lane} {links : Tab Link} {host : HostIf} {nv : Nv} {ucs : Ucs}
    {imgs : Tab (Tab W)} {jtag : Jtag} {tdo : W} {freeIx : Nat} (hm : clk.mark = s.clk.mark)
    (hi : clk.markIn = s.clk.markIn) :
    (Dev.mk sys clk stage s.regs mem scratch engs sites plys cmps quads circs chains acqs tdcs weirs slc led flt cis pwr
      lanes links host nv ucs imgs jtag tdo freeIx).tickCards = s.tickCards := by
  simp only [Dev.tickCards, hm, hi]; rfl

theorem forL_tickCards {β : Type} {f : β → Dev → Dev} {l : List β} {s : Dev}
    (k : ∀ x ∈ l, ∀ t, (f x t).tickCards = t.tickCards) : (forL l f s).tickCards = s.tickCards := by
  unfold forL
  induction l generalizing s with
  | nil => rfl
  | cons x r ih => exact (ih fun y hy => k y (.tail _ hy)).trans (k x (.head _) s)

/-- A fold of what carries the device. -/
theorem foldl_tickCards {σ β : Type} (p : σ → Dev) {f : σ → β → σ} {l : List β} {r : σ}
    (k : ∀ r x, (p (f r x)).tickCards = (p r).tickCards) : (p (l.foldl f r)).tickCards = (p r).tickCards := by
  induction l generalizing r with
  | nil => rfl
  | cons x l ih => exact (ih (r := f r x)).trans (k r x)

variable {s : Dev}

@[simp] theorem Dev.wr_tickCards {a : Nat} {v : W} (h : NoTickCard a) : (s.wr a v).tickCards = s.tickCards := by
  obtain ⟨h1, h2, h3⟩ := h
  have e (b : Nat) (hb : a ≠ b) : (s.wr a v).rd b = s.rd b := Dev.rd_wr_of_ne _ (Ne.symm hb) _
  simp only [Dev.tickCards, e _ h1, e _ h2, e _ h3, aFrm]
  rfl

@[simp] theorem Dev.setFld_tickCards {a hi lo x : Nat} (h : NoTickCard a) :
    (s.setFld a hi lo x).tickCards = s.tickCards := Dev.wr_tickCards h

@[simp] theorem Dev.setBits_tickCards {a : Nat} {m : W} (h : NoTickCard a) : (s.setBits a m).tickCards = s.tickCards :=
  Dev.wr_tickCards h

@[simp] theorem Dev.clrBits_tickCards {a : Nat} {m : W} (h : NoTickCard a) : (s.clrBits a m).tickCards = s.tickCards :=
  Dev.wr_tickCards h

@[simp] theorem Dev.incSat_tickCards {a hi lo : Nat} (h : NoTickCard a) : (s.incSat a hi lo).tickCards = s.tickCards :=
  Dev.setFld_tickCards h

@[simp] theorem Dev.onEng_tickCards {e : Nat} {f : Eng → Eng} : (s.onEng e f).tickCards = s.tickCards := by rfl

@[simp] theorem Dev.onSite_tickCards {i : Nat} {f : Site → Site} : (s.onSite i f).tickCards = s.tickCards := by rfl

@[simp] theorem Dev.setSite_tickCards {i : Nat} {x : Site} : (s.setSite i x).tickCards = s.tickCards := by rfl

@[simp] theorem Dev.onQuad_tickCards {q : Nat} {f : Quad → Quad} : (s.onQuad q f).tickCards = s.tickCards := by rfl

@[simp] theorem Dev.onLane_tickCards {j : Nat} {f : Lane → Lane} : (s.onLane j f).tickCards = s.tickCards := by rfl

@[simp] theorem Dev.onLink_tickCards {l : Nat} {f : Link → Link} : (s.onLink l f).tickCards = s.tickCards := by rfl

@[simp] theorem Dev.setWord_tickCards {a : Nat} {v : W} : (s.setWord a v).tickCards = s.tickCards := by rfl

@[simp] theorem Dev.draw_tickCards : s.draw.2.tickCards = s.tickCards := by rfl

@[simp] theorem Dev.setWords_tickCards {a : Nat} {l : List W} : (s.setWords a l).tickCards = s.tickCards := by
  induction l generalizing s a with
  | nil => rfl
  | cons v r ih => exact ih.trans (by simp)

@[simp] theorem Dev.notify_tickCards {n : Ntfy} {b : Bool} : (s.notify n b).tickCards = s.tickCards := by
  unfold Dev.notify; simp

@[simp] theorem Dev.sendMsg_tickCards {l : Nat} {m : Msg} : (s.sendMsg l m).tickCards = s.tickCards := by
  unfold Dev.sendMsg; simp

@[simp] theorem Dev.complete_tickCards {j : Job} {st d : Nat} {ws : List W} :
    (s.complete j st d ws).tickCards = s.tickCards := by
  unfold Dev.complete; dsimp only
  split <;> simp

/-! ### Raises -/

@[simp] theorem Dev.markRaise_tickCards {f : Nat} (h : f < 384) : (s.markRaise f).tickCards = s.tickCards := by
  unfold Dev.markRaise; simp [h]

@[simp] theorem Dev.recordRaise_tickCards {e f : Nat} (h : f < 384) : (s.recordRaise e f).tickCards = s.tickCards := by
  unfold Dev.recordRaise; simp [h]

@[simp] theorem Dev.countOcc_tickCards {x l e : Nat} {o : OccNow} {rs : List (Nat × List Nat)} (h : x < 12) :
    (s.countOcc x l e o rs).tickCards = s.tickCards := by
  unfold Dev.countOcc
  extract_lets s1 s2 y s3
  have h1 : s1.tickCards = s.tickCards := forL_tickCards fun f hf t => by
    have : f / 32 = x := by simpa using (List.mem_filter.mp hf).2
    exact Dev.setFld_tickCards (noTickCard_aSrc (by omega))
  have h3 : s3.tickCards = s.tickCards := by simpa [s3, y, s2, h] using h1
  clear_value s3
  simp [h, h3]

theorem Dev.recordOcc_tickCards {x l e : Nat} {rs : List (Nat × List Nat)} (h : x < 12) (hr : ∀ r ∈ rs, r.1 < 384) :
    (s.recordOcc x l e rs).tickCards = s.tickCards := by
  unfold Dev.recordOcc
  rw [Dev.countOcc_tickCards h]
  refine forL_tickCards fun f hf t => ?_
  obtain ⟨r, hm, rfl⟩ := List.mem_map.mp hf
  exact Dev.recordRaise_tickCards (hr r hm)

@[simp] theorem Dev.note_tickCards {f : Nat} (h : f < 384) : (s.note f).tickCards = s.tickCards := by
  unfold Dev.note
  split
  · exact Dev.recordOcc_tickCards (by omega) (by simpa using h)
  · exact Dev.markRaise_tickCards h

@[simp] theorem Dev.nvPut_tickCards {o : Nat} {v : W} : (s.nvPut o v).tickCards = s.tickCards := by
  unfold Dev.nvPut; simp

@[simp] theorem Dev.nvCount_tickCards {o : Nat} : (s.nvCount o).tickCards = s.tickCards := by
  unfold Dev.nvCount; simp

@[simp] theorem Dev.voidSite_tickCards {c i : Nat} : (s.voidSite c i).tickCards = s.tickCards := by
  unfold Dev.voidSite; simp

@[simp] theorem Dev.voidSites_tickCards {c : Nat} {l : List Nat} : (s.voidSites c l).tickCards = s.tickCards :=
  forL_tickCards fun _ _ _ => Dev.voidSite_tickCards

@[simp] theorem Dev.replaceBank_tickCards {b : Nat} : (s.replaceBank b).tickCards = s.tickCards := by
  unfold Dev.replaceBank
  split
  · rfl
  · split
    · simp
    · split <;> simp [Dev.setSpareBank]

@[simp] theorem Dev.nvRowSpare_tickCards {o : Nat} : (s.nvRowSpare o).tickCards = s.tickCards := by
  unfold Dev.nvRowSpare; simp

@[simp] theorem Dev.repair_tickCards {f u : Nat} : (s.repair f u).tickCards = s.tickCards := by
  unfold Dev.repair; simp

@[simp] theorem Dev.react_tickCards {e : Nat} {r : Raise} : (s.react e r).tickCards = s.tickCards := by
  unfold Dev.react; simp

@[simp] theorem Dev.endReq_tickCards {r : ModeReq} {w : Nat} : (s.endReq r w).tickCards = s.tickCards := by
  unfold Dev.endReq Dev.rejMode; dsimp only
  split <;> simp

@[simp] theorem Dev.abortCmds_tickCards : s.abortCmds.tickCards = s.tickCards := by
  unfold Dev.abortCmds
  exact (forL_tickCards fun _ _ _ => Dev.complete_tickCards).trans (by simp)

@[simp] theorem Dev.enterSafe_tickCards {x : Nat} : (s.enterSafe x).tickCards = s.tickCards := by
  unfold Dev.enterSafe
  split
  · rfl
  · extract_lets n s1 s2 s3 s4 s5
    have h2 : s2.tickCards = s1.tickCards := forL_tickCards fun _ _ _ => Dev.endReq_tickCards
    have h5 : s5.tickCards = s.tickCards := by simp [s5, s4, s3, h2, s1]
    clear_value s5
    exact h5

theorem Dev.reacts_tickCards {x e : Nat} {o : OccNow} {rs : List Raise} :
    (s.reacts x e o rs).tickCards = s.tickCards := by
  unfold Dev.reacts
  split
  · simp
  · refine (forL_tickCards fun _ _ _ => Dev.react_tickCards).trans ?_
    split
    · exact forL_tickCards fun _ _ _ => Dev.voidSites_tickCards
    · rfl

theorem Dev.occur_tickCards {x : Nat} {rs : List Raise} (h : x < 12) (hr : ∀ r ∈ rs, r.f < 384) :
    (s.occur x rs).tickCards = s.tickCards := by
  unfold Dev.occur; dsimp only
  rw [Dev.reacts_tickCards]
  exact Dev.recordOcc_tickCards h fun r hm => by
    obtain ⟨q, hq, rfl⟩ := List.mem_map.mp hm
    exact hr q hq

theorem Dev.raises_tickCards {rs : List Raise} (hr : ∀ r ∈ rs, r.f < 384) : (s.raises rs).tickCards = s.tickCards := by
  unfold Dev.raises
  refine (forL_tickCards fun x hx t => ?_).trans (forL_tickCards fun r hm t => ?_)
  · dsimp only; split
    · rfl
    · exact Dev.occur_tickCards (List.mem_range.mp hx) fun r hm =>
        hr r (List.mem_of_mem_filter (List.mem_of_mem_filter hm))
  · exact Dev.markRaise_tickCards (hr r (List.mem_of_mem_filter hm))

/-! ### The ledger of the ended frame -/

@[simp] theorem Dev.offer_tickCards {k : Nat} {p : Step} {c : Cand} : (s.offer k p c).1.tickCards = s.tickCards := by
  unfold Dev.offer
  split
  · rfl
  · dsimp only; split <;> simp [Dev.setOcc, Dev.incWord]

@[simp] theorem Dev.offerLogs_tickCards {i : Nat} {p : Step} : (s.offerLogs i p).1.tickCards = s.tickCards :=
  foldl_tickCards Prod.fst fun _ _ => Dev.offer_tickCards

theorem Dev.offerOne_tickCards {o : Offer} : (Dev.offerOne o s).tickCards = s.tickCards := by
  unfold Dev.offerOne; dsimp only
  split <;> simp

@[simp] theorem Dev.flushOffers_tickCards : s.flushOffers.tickCards = s.tickCards := by
  unfold Dev.flushOffers
  split
  · rfl
  · exact (forL_tickCards fun _ _ _ => Dev.offerOne_tickCards).trans (by simp)

theorem Dev.offerSite_tickCards {r : Dev × List Closing} {i : Nat} : (Dev.offerSite r i).1.tickCards = r.1.tickCards := by
  have due : ∀ l : List Closing, (l.foldl (fun r c =>
      ((r.1.offerLogs i c.step).1, r.2 ++ [{ c with step := (r.1.offerLogs i c.step).2 }])) r).1.tickCards = r.1.tickCards :=
    fun l => foldl_tickCards Prod.fst fun r c => by simp
  unfold Dev.offerSite; dsimp only
  split
  · split <;> simp [due]
  · exact due _

@[simp] theorem Dev.offerFrame_tickCards : s.offerFrame.tickCards = s.tickCards := by
  unfold Dev.offerFrame
  simpa using foldl_tickCards Prod.fst (r := (s, [])) fun _ _ => Dev.offerSite_tickCards

@[simp] theorem Dev.numberEntry_tickCards {i id : Nat} {c : Cand} : (s.numberEntry i id c).tickCards = s.tickCards := by
  have e : (s.wr 0x300 (wn ((s.rd 0x300).toNat + 1))).tickCards = s.tickCards := Dev.wr_tickCards (by simp)
  exact e

theorem Dev.ringPut_tickCards {x : Nat × List W} : (Dev.ringPut x s).tickCards = s.tickCards := by
  unfold Dev.ringPut; simp

@[simp] theorem Dev.ringRun_tickCards : s.ringRun.tickCards = s.tickCards := by
  have put : ∀ l t, (forL l Dev.ringPut t).tickCards = t.tickCards :=
    fun l t => forL_tickCards fun _ _ _ => Dev.ringPut_tickCards
  unfold Dev.ringRun Dev.hwmCheck; dsimp only
  split <;> simp [put]

@[simp] theorem Dev.settleFrame_tickCards : s.settleFrame.tickCards = s.tickCards := by
  have num : ∀ (l : List Closing) (t : Dev), (forL l (fun c s =>
      forL c.step.kept (fun k s => s.numberEntry c.site c.step.id.toNat k) s) t).tickCards = t.tickCards :=
    fun l t => forL_tickCards fun _ _ _ => forL_tickCards fun _ _ _ => Dev.numberEntry_tickCards
  have rec_ : ∀ (l : List Closing) (t : Dev), (forL l (fun c s => s.onSite c.site (fun x =>
      { x with record := { x.record with lastDrops := c.step.drops } })) t).tickCards = t.tickCards :=
    fun l t => forL_tickCards fun _ _ _ => Dev.onSite_tickCards
  unfold Dev.settleFrame Dev.patchImage Dev.numberDue; simp [num, rec_]

@[simp] theorem Dev.settleLogs_tickCards : s.settleLogs.tickCards = s.tickCards := by
  unfold Dev.settleLogs; simp

/-! ### The overruns of the ended frame -/

theorem Dev.overrunEng_tickCards {e : Nat} : (s.overrunEng e).tickCards = s.tickCards := by
  unfold Dev.overrunEng; dsimp only
  rw [Dev.setBits_tickCards (by simp), Dev.setBits_tickCards (noTickCard_aFrm (by omega))]
  split <;> simp

@[simp] theorem Dev.overrunAll_tickCards {l : List Nat} : (s.overrunAll l).tickCards = s.tickCards := by
  unfold Dev.overrunAll
  split
  · rfl
  · rw [Dev.raises_tickCards fun r hr => by obtain ⟨e, _, rfl⟩ := List.mem_map.mp hr; simp [raiseAt]]
    exact forL_tickCards fun _ _ _ => Dev.overrunEng_tickCards

end Sys2Proof.Machine
end

section
/-! PROOFS. What the phases of a tick leave of the standing of a device. -/

namespace Sys2Proof.Machine

variable {a : Standing} {s : Dev}

/-! ### The mode phase -/

/-- Outside SAFE a mode may come into force. -/
theorem Standing.Leads.switch {s : Standing} (h : a.Leads s) (m : Mode) (hm : a.mode ≠ .safe) :
    a.Leads { s with mode := m } where
  rest := by rw [h.rest]
  host := h.host
  eng := h.eng
  safe k := absurd k hm

@[simp] theorem Dev.calEnter_leads (h : a.Leads s.standing) : a.Leads s.calEnter.standing := by
  unfold Dev.calEnter; simp [h]

@[simp] theorem Dev.calLeave_leads (h : a.Leads s.standing) : a.Leads s.calLeave.standing := by
  unfold Dev.calLeave; simp [h]

theorem Dev.switchTo_leads {r : ModeReq} (h : a.Leads s.standing) (hm : a.mode ≠ .safe) :
    a.Leads (s.switchTo r).standing := by
  unfold Dev.switchTo
  extract_lets old new s1 s2 s3 s4 y s5 s6
  have h4 : a.Leads s4.standing := by simp [s4, s3, s2, s1, h]
  split
  · exact h4
  · have h5 : a.Leads s5.standing := h4.switch r.target hm
    have h6 : a.Leads s6.standing := by simpa [s6] using h5
    clear_value s6
    split <;> simp [h6]

theorem Dev.takeReq_standing {bad : List (Fin 16)} {r : ModeReq} {s : Dev} : (Dev.takeReq bad r s).standing = s.standing := by
  unfold Dev.takeReq
  split
  · simp
  · extract_lets s1 s2
    have h1 : s1.standing = s.standing := by
      unfold s1
      split <;> simp
    have h2 : s2.standing = s.standing := by simp [s2, h1]
    exact h2

theorem Dev.modePhase_leads {bad : List (Fin 16)} (h : a.Leads s.standing) (hm : a.mode ≠ .safe) :
    a.Leads (s.modePhase bad).standing := by
  unfold Dev.modePhase
  extract_lets l y s1
  have h1 : a.Leads (forL l (Dev.takeReq bad) s1).standing := by
    rw [forL_standing fun _ _ => Dev.takeReq_standing]
    exact h
  clear_value s1
  unfold Dev.switchDue
  split
  · split
    · unfold Dev.trySwitch; dsimp only
      split
      · exact Dev.switchTo_leads h1 hm
      · simpa using h1
    · exact h1
  · exact h1

/-! ### Phases a to g -/

theorem Dev.unlessSafe_leads {f : Dev → Dev} (h : a.Leads s.standing)
    (k : ∀ t, a.Leads t.standing → a.Leads (f t).standing) : a.Leads (s.unlessSafe f).standing := by
  unfold Dev.unlessSafe
  split
  · exact h
  · exact k s h

theorem Dev.laterPhases_leads {j : List (Nat × Nat)} {bad : List (Fin 16)} (h : a.Leads s.standing) :
    a.Leads (s.laterPhases j bad).standing := by
  unfold Dev.laterPhases
  extract_lets s1 s2 s3
  have h1 : a.Leads s1.standing :=
    Dev.unlessSafe_leads (Dev.unlessSafe_leads h fun _ k => Dev.powerPhase_leads k) fun _ k => by simpa using k
  have h2 : a.Leads s2.standing :=
    Dev.unlessSafe_leads (Dev.unlessSafe_leads h1 fun _ k => by simp [k]) fun _ k => by simpa using k
  have h3 : a.Leads s3.standing :=
    Dev.unlessSafe_leads (Dev.unlessSafe_leads h2 fun _ k => Dev.playersPhase_leads k) fun _ k => by simpa using k
  clear_value s3
  unfold Dev.unlessSafe
  split
  · exact h3
  · rename_i hm
    exact Dev.modePhase_leads h3 fun k => hm (h3.safe k).1

/-- The standing at a tick whose staged entries have been taken. -/
def Standing.taken (b : Standing) : Standing :=
  { b with stage := { host := b.stage.host.filter (fun x => !x.isFor b.frame b.frame), eng := [] } }

theorem Dev.stagedPhase_leads : s.standing.taken.Leads s.stagedPhase.1.standing := by
  unfold Dev.stagedPhase
  extract_lets n now y s1 r s2 l jumps z s3
  have h2 : s1.standing.Leads s2.standing :=
    foldl_leads Prod.fst (Standing.Leads.refl _) fun r x k => Dev.applyHost_leads k
  have h3 : s.standing.taken.Leads s3.standing := by
    have e : s.standing.taken = { s1.standing with stage := { s1.stage with eng := [] } } := rfl
    rw [e]
    exact ⟨by rw [show s3.standing = { s2.standing with stage := s3.stage } from rfl, h2.rest], h2.host, fun _ => rfl, h2.safe⟩
  clear_value s3
  exact forL_leads h3 fun x t k => Dev.unlessSafe_leads k fun u k => Dev.applyEng_leads k

theorem Dev.runTick_leads {o : Mode} {n : Nat} {bad : List (Fin 16)} {h : Header} :
    s.standing.taken.Leads (s.runTick o n bad h).standing := by
  unfold Dev.runTick
  extract_lets p s1 c s2 m s3 s4
  have hp : s.standing.taken.Leads p.1.standing := by
    have := Dev.stagedPhase_leads (s := (s.unitsTick n).wakePhase)
    simpa using this
  have h1 : s.standing.taken.Leads s1.standing := by simpa [s1] using Dev.laterPhases_leads hp
  have h2 : s.standing.taken.Leads s2.standing := by simpa [s2, c] using h1
  have h4 : s.standing.taken.Leads s4.standing := by simp [s4, s3, h2]
  simpa using h4

/-! ### The tick of SAFE -/

theorem Dev.safeRepairs_leads (h : a.Leads s.standing) : a.Leads s.safeRepairs.standing := by
  unfold Dev.safeRepairs
  extract_lets s1 s2 s3
  have h3 : s3.standing = s.standing := by
    have e : s3.standing = s2.standing := forL_standing fun q t => by simp
    rw [e]
    simp [s2, s1]
  rw [← h3] at h
  exact Dev.retireQuads_leads h

/-- The standing at the first tick of SAFE, with both queues empty. -/
def Standing.swept (b : Standing) : Standing := { b with stage := { host := [], eng := [] }, due := false }

/-- The first tick of SAFE empties both queues. -/
theorem Dev.safeTick_due {h : Header} (hd : s.sys.safeDue = true) :
    s.standing.swept.Leads (s.safeTick h).standing := by
  unfold Dev.safeTick
  rw [if_neg (by simp [hd])]
  extract_lets y s1 s2 c
  have h1 : s2.standing = s.standing.swept := by
    simp [s2]; rfl
  have hc : s.standing.swept.Leads c.1.standing := by
    clear_value s2
    simp only [c, Dev.commitAll_standing]
    exact Dev.safeRepairs_leads (by rw [Dev.quadsOff_standing, h1]; exact Standing.Leads.refl _)
  clear_value c
  rwa [Dev.seal_standing]

theorem Dev.safeTick_later {h : Header} (hd : s.sys.safeDue = false) : s.standing.Leads (s.safeTick h).standing := by
  unfold Dev.safeTick
  rw [if_pos (by simp [hd])]
  simpa using Dev.safeRepairs_leads (Standing.Leads.refl s.standing)

end Sys2Proof.Machine
end

section
/-! PROOFS. What a tick leaves: the first clause of O46. -/

namespace Sys2Proof.Machine

variable {a : Standing} {s : Dev}

/-! ### The frame's number and clock -/

@[simp] theorem Dev.dropTarget_standing {x : HostEnt} : (Dev.dropTarget x s).standing = s.standing := by
  unfold Dev.dropTarget
  split <;> simp

/-- The number of the frame that a tick begins. -/
def Dev.tickNumber (s : Dev) : Nat := if s.marks then s.rdFrame (aFrm 0x18) (aFrm 0x1C) else s.nextTick

/-- The standing of the frame that a tick begins, with `n` overruns counted in it: at a mark the targeted entries are
gone. -/
def Dev.begun (s : Dev) (n : Nat) : Standing :=
  { s.standing with
    frame := s.tickNumber, ticked := true, eclk := s.clk.eclk + s.frameLen / 2, moved := none, overran := n
    stage := { s.stage with host := s.stage.host.filter (fun x => !s.marks || x.tgt.isNone) } }

@[simp] theorem Dev.renumber_standing {j : Nat} : (s.renumber j).standing = s.standing := by rfl

/-- The end of a tick at an epoch mark: what waits for a target is discarded. -/
def Dev.epochEnd (s : Dev) : Dev :=
  let gone := s.stage.host.filter (fun x => x.tgt.isSome)
  let s := { s with stage := { s.stage with host := s.stage.host.filter (fun x => x.tgt.isNone) } }
  let s := forL gone Dev.dropTarget s
  (s.setBits (aFrm 0x10) 0x400).clrBits (aFrm 0x10) 0x200

/-- The device that has taken the number of an epoch mark. -/
def Dev.epochBegin (s : Dev) (n : Nat) : Dev :=
  { s with clk := { s.clk with frame := n, ticked := true, mark := false, markIn := none } }

theorem Dev.epochTick_eq : s.epochTick = ((s.epochBegin (s.rdFrame (aFrm 0x18) (aFrm 0x1C))).renumber
    ((s.rdFrame (aFrm 0x18) (aFrm 0x1C) + 2 ^ 48 - s.nextTick) % 2 ^ 48)).epochEnd := rfl

theorem Dev.epochEnd_standing : s.epochEnd.standing =
    { s.standing with stage := { s.stage with host := s.stage.host.filter (fun x => x.tgt.isNone) } } := by
  unfold Dev.epochEnd
  simp only [Dev.clrBits_standing, Dev.setBits_standing]
  exact forL_standing fun _ _ => Dev.dropTarget_standing

theorem Dev.epoch_standing (n j : Nat) : ((s.epochBegin n).renumber j).epochEnd.standing =
    { s.standing with
      frame := n, ticked := true, stage := { s.stage with host := s.stage.host.filter (fun x => x.tgt.isNone) } } :=
  Dev.epochEnd_standing

theorem Dev.epochTick_standing : s.epochTick.standing =
    { s.standing with
      frame := s.rdFrame (aFrm 0x18) (aFrm 0x1C), ticked := true
      stage := { s.stage with host := s.stage.host.filter (fun x => x.tgt.isNone) } } :=
  (congrArg Dev.standing Dev.epochTick_eq).trans (Dev.epoch_standing _ _)

/-- The tick's own part of the clock, before the frame's events are captured. -/
theorem Dev.advance_standing : (s.advance s.frameLen).standing = s.begun s.clk.overran := by
  unfold Dev.advance Dev.begun Dev.tickNumber
  extract_lets mark y s1 z s2
  have e : s2.standing = { s.standing with eclk := s.clk.eclk + s.frameLen / 2, moved := none } := by
    unfold s2
    split <;> rfl
  have er : s2.rdFrame (aFrm 0x18) (aFrm 0x1C) = s.rdFrame (aFrm 0x18) (aFrm 0x1C) := by
    unfold s2
    split <;> rfl
  have en : s2.nextTick = s.nextTick := by
    unfold s2
    split <;> rfl
  have es : s2.stage = s.stage := congrArg Standing.stage e
  clear_value s2
  by_cases hm : s.marks = true
  · rw [if_pos (show mark = true from hm), Dev.epochTick_standing, er, es, e]
    simp only [hm, Bool.not_true, Bool.false_or, if_true]
    rfl
  · rw [if_neg (show ¬mark = true from hm)]
    simp only [Bool.not_eq_true] at hm
    simp only [hm, Bool.not_false, Bool.true_or, List.filter_true, Bool.false_eq_true, if_false, ← en]
    exact congrArg (fun b : Standing => { b with frame := s2.nextTick, ticked := true }) e

theorem Dev.newFrame_standing : s.newFrame.standing = s.begun 0 := by
  unfold Dev.newFrame
  extract_lets s1 s2
  have e : s2.standing = s.begun s.clk.overran := by
    simp only [s2, Dev.capturesTo_standing]
    exact Dev.advance_standing
  exact congrArg (fun b : Standing => { b with overran := 0 }) e

/-! ### The opening of a tick -/

theorem Dev.overrunEng_leads {e : Nat} (h : a.Leads s.standing) : a.Leads (s.overrunEng e).standing := by
  refine h.trans ?_
  unfold Dev.overrunEng
  extract_lets s1 y s2 s3
  have h2 : s.standing.Leads s2.standing :=
    ⟨rfl, fun _ k => k, fun k => by rw [show s2.standing.stage.eng = s.stage.eng.filter (fun x => x.e ≠ e) from rfl]
                                    rw [show s.stage.eng = [] from k]; rfl, fun k => ⟨k, rfl⟩⟩
  have h3 : s3.standing = s2.standing := by
    unfold s3
    split <;> simp
  simpa [h3] using h2

theorem Dev.overrunAll_leads {l : List Nat} (h : a.Leads s.standing) : a.Leads (s.overrunAll l).standing := by
  unfold Dev.overrunAll
  split
  · exact h
  · exact Dev.raises_leads (forL_leads h fun _ _ k => Dev.overrunEng_leads k)

/-- The device whose new frame a tick begins: its ledger settled, its overruns raised. -/
def Dev.opened (s : Dev) : Dev :=
  let t := s.settleLogs.tickOpens.overrunAll ((s.engs.map (·.1)).filter s.overruns)
  { t with flt := { t.flt with occ := [] } }

theorem Dev.opened_leads : s.standing.Leads s.opened.standing := by
  have h : s.standing.Leads s.settleLogs.tickOpens.standing := by simp
  exact Dev.overrunAll_leads h

theorem Dev.opened_tickCards : s.opened.tickCards = s.tickCards := by
  have h1 : s.settleLogs.tickOpens.tickCards = s.settleLogs.tickCards := rfl
  exact (Dev.overrunAll_tickCards.trans h1).trans Dev.settleLogs_tickCards

/-- The opening leaves the number, the clock and the marks to the tick. -/
theorem Dev.opened_begun :
    s.opened.marks = s.marks ∧ s.opened.tickNumber = s.tickNumber ∧ s.opened.frameLen = s.frameLen ∧
      s.opened.clk.eclk = s.clk.eclk := by
  have hc := Dev.opened_tickCards (s := s)
  have hr := (Dev.opened_leads (s := s)).rest
  have hm : s.opened.clk.mark = s.clk.mark := congrArg (·.1) hc
  have hi : s.opened.clk.markIn = s.clk.markIn := congrArg (·.2.1) hc
  have h4 : s.opened.rd (aFrm 4) = s.rd (aFrm 4) := congrArg (·.2.2.1) hc
  have h18 : s.opened.rd (aFrm 0x18) = s.rd (aFrm 0x18) := congrArg (·.2.2.2.1) hc
  have h1c : s.opened.rd (aFrm 0x1C) = s.rd (aFrm 0x1C) := congrArg (·.2.2.2.2) hc
  have hf : s.opened.clk.frame = s.clk.frame := congrArg Standing.frame hr
  have ht : s.opened.clk.ticked = s.clk.ticked := congrArg Standing.ticked hr
  have hv : s.opened.clk.moved = s.clk.moved := congrArg Standing.moved hr
  have marks : s.opened.marks = s.marks := by simp [Dev.marks, hm, hi]
  have rd : s.opened.rdFrame (aFrm 0x18) (aFrm 0x1C) = s.rdFrame (aFrm 0x18) (aFrm 0x1C) := by
    simp [Dev.rdFrame, Dev.fld, h18, h1c]
  have next : s.opened.nextTick = s.nextTick := by simp [Dev.nextTick, hf, ht]
  refine ⟨marks, ?_, ?_, congrArg Standing.eclk hr⟩
  · simp [Dev.tickNumber, marks, rd, next]
  · simp [Dev.frameLen, Dev.flen, Dev.fld, hv, h4]

/-! ### The tick -/

theorem Standing.Leads.taken {b : Standing} (h : a.Leads b) : a.taken.Leads b.taken where
  rest := by
    unfold Standing.taken
    rw [h.rest]
  host := by
    have hf : b.frame = a.frame := by rw [h.rest]
    intro x hx
    unfold Standing.taken at hx ⊢
    rw [hf] at hx
    have := List.mem_filter.mp hx
    exact List.mem_filter.mpr ⟨h.host this.1, this.2⟩
  eng _ := rfl
  safe := h.safe

/-- Steps 1 to 4 of a tick. -/
def Dev.frameSteps (s : Dev) (w : List (Fin 16)) (moved : Bool) (h : Header) : Dev :=
  if s.sys.mode = .safe then s.opened.newFrame.safeTick h
  else ((s.opened.newFrame.clockVoids moved).waitCounts).runTick s.sys.mode s.frameLen w h

/-- The device that a tick leaves to the scarab. -/
def Dev.frameDone (s : Dev) (w : List (Fin 16)) (moved : Bool) (h : Header) (due : Tab Nat) : Dev :=
  ((s.frameSteps w moved h).tickNotes s.host.ntfy due).releaseStep.frameReset

theorem Dev.frameTick_eq (w : List (Fin 16)) (hr : s.tickRuns = true) :
    ∃ moved h due, s.frameTick w = (s.frameDone w moved h due).drain := by
  refine ⟨s.clk.moved.isSome && s.clk.again, s.opened.headerOf
    (s.opened.clk.overran + ((s.engs.map (·.1)).filter s.overruns).length),
    (s.settleLogs.tickOpens.overrunAll ((s.engs.map (·.1)).filter s.overruns)).flt.occ, ?_⟩
  unfold Dev.frameTick
  rw [if_neg (by simp [hr])]
  rfl

section
variable {w : List (Fin 16)} {moved : Bool} {h : Header} {due : Tab Nat}

theorem Dev.frameDone_standing : (s.frameDone w moved h due).standing = (s.frameSteps w moved h).standing := by
  simp [Dev.frameDone]

theorem Dev.frameSteps_leads (hm : s.sys.mode ≠ .safe) :
    (s.opened.begun 0).taken.Leads (s.frameSteps w moved h).standing := by
  unfold Dev.frameSteps
  rw [if_neg hm]
  have h3 : (s.opened.begun 0).Leads ((s.opened.newFrame.clockVoids moved).waitCounts).standing := by
    simp [Dev.newFrame_standing]
  exact h3.taken.trans Dev.runTick_leads

/-- In SAFE nothing changes it, nor whether its first tick is to come. -/
theorem Dev.opened_safe (hm : s.sys.mode = .safe) :
    s.opened.newFrame.sys.mode = .safe ∧ s.opened.newFrame.sys.safeDue = s.sys.safeDue := by
  have hn := Dev.newFrame_standing (s := s.opened)
  obtain ⟨ho, hd⟩ := (Dev.opened_leads (s := s)).safe hm
  exact ⟨(congrArg Standing.mode hn).trans ho, (congrArg Standing.due hn).trans hd⟩

theorem Dev.frameSteps_due (hm : s.sys.mode = .safe) (hd : s.sys.safeDue = true) :
    (s.opened.begun 0).swept.Leads (s.frameSteps w moved h).standing := by
  unfold Dev.frameSteps
  rw [if_pos hm, ← Dev.newFrame_standing]
  exact Dev.safeTick_due ((Dev.opened_safe hm).2.trans hd)

theorem Dev.frameSteps_later (hm : s.sys.mode = .safe) (hd : s.sys.safeDue = false) :
    (s.opened.begun 0).Leads (s.frameSteps w moved h).standing := by
  unfold Dev.frameSteps
  rw [if_pos hm, ← Dev.newFrame_standing]
  exact Dev.safeTick_later ((Dev.opened_safe hm).2.trans hd)

/-- The clock, the straps and the TAP of the new frame. -/
theorem Dev.frameDone_rest : ∃ stage mode late, (s.frameDone w moved h due).standing =
    { s.opened.begun 0 with stage := stage, mode := mode, due := late } := by
  rw [Dev.frameDone_standing]
  by_cases hm : s.sys.mode = .safe
  · cases hd : s.sys.safeDue
    · exact ⟨_, _, _, (Dev.frameSteps_later hm hd).rest⟩
    · exact ⟨_, _, _, (Dev.frameSteps_due hm hd).rest⟩
  · exact ⟨_, _, _, (Dev.frameSteps_leads hm).rest⟩

@[simp] theorem Dev.closeOccs_joined : s.closeOccs.flt.joined = [] := by
  have all : ∀ (l : List OccNow) (t : Dev), (forL l (fun o s => s.incSat (aCls o.cls) 23 16) t).flt = t.flt := by
    intro l
    unfold forL
    induction l with
    | nil => exact fun _ => rfl
    | cons o r ih => exact fun t => by rw [List.foldl_cons, ih, Dev.incSat_flt]
  unfold Dev.closeOccs
  rw [all]

theorem Dev.frameDone_joined : (s.frameDone w moved h due).flt.joined = [] := Dev.closeOccs_joined

/-- What the new frame finds staged. -/
theorem Dev.frameDone_stage (hm : s.sys.mode ≠ .safe) :
    (s.frameDone w moved h due).stage.eng = [] ∧
      ∀ x ∈ (s.frameDone w moved h due).stage.host, x ∈ s.stage.host ∧ x.isFor s.tickNumber s.tickNumber = false ∧
        (s.marks = true → x.tgt = none) := by
  have hl := Dev.frameSteps_leads (w := w) (moved := moved) (h := h) hm
  rw [← Dev.frameDone_standing (due := due)] at hl
  obtain ⟨em, en, -, -⟩ := Dev.opened_begun (s := s)
  refine ⟨hl.eng rfl, fun x hx => ?_⟩
  obtain ⟨hb, hn⟩ := List.mem_filter.mp (hl.host hx)
  obtain ⟨ho, hk⟩ := List.mem_filter.mp hb
  have hn : (!x.isFor s.opened.tickNumber s.opened.tickNumber) = true := hn
  rw [en] at hn
  rw [em] at hk
  refine ⟨(Dev.opened_leads (s := s)).host ho, by simpa using hn, fun hs => ?_⟩
  simpa [hs] using hk

theorem Dev.frameDone_swept (hm : s.sys.mode = .safe) (hd : s.sys.safeDue = true) :
    (s.frameDone w moved h due).stage = { host := [], eng := [] } ∧ (s.frameDone w moved h due).sys.safeDue = false := by
  have hl := Dev.frameSteps_due (w := w) (moved := moved) (h := h) hm hd
  rw [← Dev.frameDone_standing (due := due)] at hl
  have hh : (s.frameDone w moved h due).stage.host = [] := List.subset_nil.mp hl.host
  have he : (s.frameDone w moved h due).stage.eng = [] := hl.eng rfl
  have safe : (s.opened.begun 0).swept.mode = .safe := ((Dev.opened_leads (s := s)).safe hm).1
  refine ⟨?_, (hl.safe safe).2⟩
  show Stage.mk _ _ = _
  rw [hh, he]

end

end Sys2Proof.Machine
end

section
/-! PROOFS. Synchronised resets and mode switches: the other clauses of O46. -/

namespace Sys2Proof.Machine

/-! ### The origin of the chains -/

/-- A frame number written to a pair of cards reads back its low 48 bits. -/
theorem Dev.rdFrame_wrFrame_mod (s : Dev) {lo hi : Nat} (hne : lo ≠ hi) (n : Nat) :
    (s.wrFrame lo hi n).rdFrame lo hi = n % 2 ^ 48 := by
  have hlow : ((s.wrFrame lo hi n).rd lo).toNat = n % 2 ^ 32 := by
    rw [Dev.wrFrame, Dev.setFld, Dev.rd_wr_of_ne _ hne, Dev.rd_wr_self, wn, BitVec.toNat_ofNat]
  have hhigh : (s.wrFrame lo hi n).fld hi 15 0 = n / 2 ^ 32 % 2 ^ 16 := by
    rw [Dev.wrFrame, Dev.setFld, Dev.fld, Dev.rd_wr_self, W.fld_put_self _ (by omega) (by omega)]
  rw [Dev.rdFrame, hlow, hhigh]
  omega

theorem Dev.rdFrame_congr {s t : Dev} {lo hi : Nat} (hl : t.rd lo = s.rd lo) (hh : t.rd hi = s.rd hi) :
    t.rdFrame lo hi = s.rdFrame lo hi := by
  rw [Dev.rdFrame, Dev.rdFrame, hl, Dev.fld_congr hh]

/-- Only cards, chains and captures differ. -/
def Dev.SyncFrame (s t : Dev) : Prop := { t with regs := s.regs, chains := s.chains, acqs := s.acqs } = s

/-- One chain restarts at a new origin. -/
def Dev.chainOrigin (c : Nat) (s : Dev) : Dev :=
  (s.restartChain c).onChain c (fun h => { h with n := 0, j := 0, restarted := false })

/-- The first `m` chains restart at a new origin. -/
def Dev.originOf (m : Nat) (s : Dev) : Dev :=
  (forN m Dev.chainOrigin s).wrFrame (aFrm 0x90) (aFrm 0x94) (forN m Dev.chainOrigin s).clk.frame

theorem Dev.moveOrigin_eq (s : Dev) : s.moveOrigin = Dev.originOf 720 s := by
  unfold Dev.moveOrigin Dev.originOf Dev.chainOrigin
  generalize (720 : Nat) = m
  rfl

theorem Dev.chainOrigin_chain (c : Nat) (s : Dev) :
    ((Dev.chainOrigin c s).chain c).n = 0 ∧ ((Dev.chainOrigin c s).chain c).j = 0 ∧
      ((Dev.chainOrigin c s).chain c).integ = [0, 0, 0, 0] ∧ ((Dev.chainOrigin c s).chain c).line = [] := by
  simp only [Dev.chainOrigin, Dev.restartChain, Dev.chain_onChain_self, Chain.restart, and_self]

theorem Dev.chainOrigin_other {c k : Nat} (h : k ≠ c) (s : Dev) : (Dev.chainOrigin c s).chain k = s.chain k := by
  unfold Dev.chainOrigin Dev.restartChain
  exact (Dev.chain_setChain_of_ne _ h _).trans (Dev.chain_setChain_of_ne _ h _)

theorem Dev.chainOrigin_rd {c a : Nat} (h : a ≠ aCh c 0x114) (s : Dev) : (Dev.chainOrigin c s).rd a = s.rd a := by
  simp only [Dev.chainOrigin, Dev.restartChain, Dev.onChain, Dev.setChain_rd, Dev.setBits, Dev.rd_wr_of_ne _ h]

theorem Dev.SyncFrame.wr {s t : Dev} (h : s.SyncFrame t) (a : Nat) (v : W) : s.SyncFrame (t.wr a v) := h

theorem Dev.SyncFrame.onChain {s t : Dev} (h : s.SyncFrame t) (c : Nat) (f : Chain → Chain) : s.SyncFrame (t.onChain c f) := h

theorem Dev.SyncFrame.chainOrigin {s t : Dev} (h : s.SyncFrame t) (c : Nat) : s.SyncFrame (Dev.chainOrigin c t) :=
  ((h.wr _ _).onChain _ _).onChain _ _

theorem Dev.chainOrigin_acqs (c : Nat) (s : Dev) : (Dev.chainOrigin c s).acqs = s.acqs ∧ (Dev.chainOrigin c s).clk = s.clk := by
  simp only [Dev.chainOrigin, Dev.restartChain, Dev.onChain, Dev.setBits, Dev.setChain_acqs, Dev.wr_acqs, Dev.setChain_clk,
    Dev.wr_clk, and_self]

/-- The cards that a move of the origin of `m` chains writes. -/
def originCards (m : Nat) : List Nat := [aFrm 0x90, aFrm 0x94] ++ (List.range m).map (fun c => aCh c 0x114)

theorem Dev.originOf_cards (m : Nat) (s : Dev) : s.Cards (Dev.originOf m s) (originCards m) := by
  intro a ha
  simp only [originCards, List.mem_append, List.mem_cons, List.not_mem_nil, or_false, List.mem_map, List.mem_range, not_or,
    not_exists, not_and] at ha
  obtain ⟨⟨h0, h4⟩, hc⟩ := ha
  have all : (forN m Dev.chainOrigin s).rd a = s.rd a :=
    forL_keeps (I := fun t : Dev => t.rd a = s.rd a)
      (fun c hm t k => (Dev.chainOrigin_rd (fun e => hc c (List.mem_range.mp hm) e.symm) t).trans k) (Eq.refl (s.rd a))
  rw [Dev.originOf, Dev.wrFrame, Dev.rd_setFld_of_ne _ h4, Dev.rd_wr_of_ne _ h0, all]

theorem Dev.originOf_frame (m : Nat) (s : Dev) :
    s.SyncFrame (Dev.originOf m s) ∧ (Dev.originOf m s).acqs = s.acqs ∧ (Dev.originOf m s).clk = s.clk := by
  have all : s.SyncFrame (forN m Dev.chainOrigin s) ∧ (forN m Dev.chainOrigin s).acqs = s.acqs ∧
      (forN m Dev.chainOrigin s).clk = s.clk :=
    forL_keeps (I := fun t : Dev => s.SyncFrame t ∧ t.acqs = s.acqs ∧ t.clk = s.clk)
      (fun c _ t ⟨k1, k2, k3⟩ =>
        ⟨k1.chainOrigin c, (Dev.chainOrigin_acqs c t).1.trans k2, (Dev.chainOrigin_acqs c t).2.trans k3⟩)
      ⟨Eq.refl s, Eq.refl s.acqs, Eq.refl s.clk⟩
  exact all

theorem Dev.originOf_chain (m : Nat) (s : Dev) {c : Nat} (hc : c < m) :
    ((Dev.originOf m s).chain c).n = 0 ∧ ((Dev.originOf m s).chain c).j = 0 ∧
      ((Dev.originOf m s).chain c).integ = [0, 0, 0, 0] ∧ ((Dev.originOf m s).chain c).line = [] := by
  obtain ⟨t, -, h⟩ := forN_at (get := Dev.chain) (f := Dev.chainOrigin) (fun i s k hk => Dev.chainOrigin_other hk s) hc s
  have e : (Dev.originOf m s).chain c = (Dev.chainOrigin c t).chain c := h
  rw [e]
  exact Dev.chainOrigin_chain c t

theorem Dev.originOf_rdFrame (m : Nat) (s : Dev) :
    (Dev.originOf m s).rdFrame (aFrm 0x90) (aFrm 0x94) = s.clk.frame % 2 ^ 48 := by
  rw [← (Dev.originOf_frame m s).2.2]
  exact Dev.rdFrame_wrFrame_mod _ (by decide) _

/-! ### Captures that end -/

theorem Dev.acq_setFld (s : Dev) (a hi lo x k : Nat) : (s.setFld a hi lo x).acq k = s.acq k := rfl

theorem Dev.acq_setBits (s : Dev) (a : Nat) (m : W) (k : Nat) : (s.setBits a m).acq k = s.acq k := rfl

theorem Dev.acqEnd_rd {q why a : Nat} (h : a ≠ aQuad q 0x104) (s : Dev) : (s.acqEnd q why).rd a = s.rd a := by
  unfold Dev.acqEnd
  split
  · rw [Dev.rd_setFld_of_ne _ h, Dev.setBits, Dev.rd_wr_of_ne _ h]
    rfl
  · rfl

theorem Dev.acqEnd_other {q k why : Nat} (h : k ≠ q) (s : Dev) : (s.acqEnd q why).acq k = s.acq k := by
  unfold Dev.acqEnd
  split
  · rw [Dev.acq_setFld, Dev.acq_setBits, Dev.onAcq, Dev.acq_setAcq_of_ne _ h]
  · rfl

theorem Dev.SyncFrame.setFld {s t : Dev} (h : s.SyncFrame t) (a hi lo x : Nat) : s.SyncFrame (t.setFld a hi lo x) := h

theorem Dev.SyncFrame.setBits {s t : Dev} (h : s.SyncFrame t) (a : Nat) (m : W) : s.SyncFrame (t.setBits a m) := h

theorem Dev.SyncFrame.onAcq {s t : Dev} (h : s.SyncFrame t) (q : Nat) (f : Acq → Acq) : s.SyncFrame (t.onAcq q f) := h

theorem Dev.SyncFrame.acqEnd {s t : Dev} (h : s.SyncFrame t) (q why : Nat) : s.SyncFrame (t.acqEnd q why) := by
  unfold Dev.acqEnd
  split
  · exact ((h.onAcq _ _).setBits _ _).setFld _ _ _ _
  · exact h

/-- The chains and the clock stand while a card is written. -/
theorem Dev.chainClk_setFld (s : Dev) (a hi lo x : Nat) :
    (s.setFld a hi lo x).chains = s.chains ∧ (s.setFld a hi lo x).clk = s.clk := ⟨rfl, rfl⟩

theorem Dev.acqEnd_chains (q why : Nat) (t : Dev) : (t.acqEnd q why).chains = t.chains ∧ (t.acqEnd q why).clk = t.clk := by
  unfold Dev.acqEnd
  split
  · exact Dev.chainClk_setFld _ _ _ _ _
  · exact ⟨rfl, rfl⟩

/-- A capture has ended with its cause shown. -/
def Dev.AcqEnded (q why : Nat) (s : Dev) : Prop :=
  (s.acq q).st = .idle ∧ s.bit (aQuad q 0x104) 30 = true ∧ s.fld (aQuad q 0x104) 23 21 = why

theorem Dev.acqEnd_self {q why : Nat} (hw : why < 8) {s : Dev} (h : (s.acq q).busy = true) : (s.acqEnd q why).AcqEnded q why := by
  unfold Dev.acqEnd
  rw [if_pos h]
  refine ⟨by rw [Dev.acq_setFld, Dev.acq_setBits, Dev.onAcq, Dev.acq_setAcq_self], ?_, ?_⟩
  · rw [Dev.bit_setFld_of_ne _ (by omega) (by omega) (by omega)]
    exact Dev.bit_setBits_self _ _ _ _ (by decide)
  · rw [Dev.fld_setFld_self _ (by omega) (by omega)]
    exact Nat.mod_eq_of_lt hw

theorem aQuad_inj {q k o : Nat} (h : aQuad q o = aQuad k o) : q = k := by
  unfold aQuad at h; omega

/-- An ended capture stays so. -/
theorem Dev.AcqEnded.acqEnd {q k why : Nat} {s : Dev} (h : s.AcqEnded q why) : (s.acqEnd k why).AcqEnded q why := by
  obtain ⟨hi, hb, hf⟩ := h
  by_cases hk : q = k
  · subst hk
    have : (s.acq q).busy = false := by rw [Acq.busy, hi]
    rw [Dev.acqEnd, if_neg (by simp [this])]
    exact ⟨hi, hb, hf⟩
  · have hr := Dev.acqEnd_rd (why := why) (fun e => hk (aQuad_inj e) : aQuad q 0x104 ≠ aQuad k 0x104) s
    exact ⟨by rw [Dev.acqEnd_other hk]; exact hi, (Dev.bit_congr hr _).trans hb, (Dev.fld_congr hr _ _).trans hf⟩

theorem Dev.mem_acqs_of_busy {s : Dev} {q : Nat} (h : (s.acq q).busy = true) : q ∈ s.acqs.map (·.1) := by
  have key : ∀ t : Tab Acq, (Tab.get (fun _ => acqInit) t q).busy = true → q ∈ t.map (·.1) := by
    intro t
    induction t with
    | nil => intro h; cases h
    | cons p r ih =>
      obtain ⟨j, v⟩ := p
      intro h
      by_cases hj : j = q
      · simp [hj]
      · rw [Tab.get, if_neg hj] at h
        exact List.mem_cons_of_mem _ (ih h)
  exact key _ h

/-- Every capture of a list ends. -/
theorem Dev.acqsEnd_ended {l : List Nat} {why q : Nat} (hw : why < 8) {s : Dev} (hq : q ∈ l) (h : (s.acq q).busy = true) :
    (forL l (fun q s => s.acqEnd q why) s).AcqEnded q why := by
  refine forL_reaches (I := fun t : Dev => (t.acq q).busy = true ∨ t.AcqEnded q why) hq (fun k _ t i => ?_)
    (fun t i => i.elim (Dev.acqEnd_self hw) Dev.AcqEnded.acqEnd) (fun k _ t i => i.acqEnd) (.inl h)
  rcases i with i | i
  · by_cases hk : q = k
    · exact .inr (hk ▸ Dev.acqEnd_self hw i)
    · exact .inl (by rw [Dev.acqEnd_other hk]; exact i)
  · exact .inr i.acqEnd

theorem Dev.acqsEnd_rd {l : List Nat} {why a : Nat} (h : ∀ q ∈ l, a ≠ aQuad q 0x104) (s : Dev) :
    (forL l (fun q s => s.acqEnd q why) s).rd a = s.rd a :=
  forL_keeps (I := fun t : Dev => t.rd a = s.rd a) (fun q hq t k => (Dev.acqEnd_rd (h q hq) t).trans k) (Eq.refl (s.rd a))

/-! ### A synchronised reset -/

/-- The end of SYNC_RESET, once the chains have their origin: its card shows it and the captures end. -/
def Dev.endCaptures (s : Dev) : Dev :=
  forL ((s.setBits (aFrm 0x8C) 0x20000000).acqs.map (·.1)) (fun q s => s.acqEnd q 3) (s.setBits (aFrm 0x8C) 0x20000000)

/-- What SYNC_RESET of `m` chains does where the mode serves the sense ADCs. -/
def Dev.syncOf (m : Nat) (s : Dev) : Dev := (Dev.originOf m s).endCaptures

theorem Dev.syncAct_eq {s : Dev} (he : s.sys.mode.enables 7 = true) : s.syncAct = Dev.syncOf 720 s := by
  have h : s.syncAct = s.moveOrigin.endCaptures := by
    unfold Dev.syncAct Dev.endCaptures
    generalize s.moveOrigin = o
    rw [if_neg (by simp [he])]
  rw [h, Dev.moveOrigin_eq, Dev.syncOf]

theorem Dev.syncOf_eq (m : Nat) (s : Dev) : Dev.syncOf m s =
    forL (s.acqs.map (·.1)) (fun q s => s.acqEnd q 3) ((Dev.originOf m s).setBits (aFrm 0x8C) 0x20000000) := by
  have ha : ((Dev.originOf m s).setBits (aFrm 0x8C) 0x20000000).acqs = s.acqs := (Dev.originOf_frame m s).2.1
  rw [Dev.syncOf, Dev.endCaptures, ha]

theorem Dev.syncOf_acts (m : Nat) (s : Dev) :
    s.SyncFrame (Dev.syncOf m s) ∧ (Dev.syncOf m s).clk = s.clk ∧
      (∀ c, c < m → ((Dev.syncOf m s).chain c).n = 0 ∧ ((Dev.syncOf m s).chain c).j = 0 ∧
        ((Dev.syncOf m s).chain c).integ = [0, 0, 0, 0] ∧ ((Dev.syncOf m s).chain c).line = []) ∧
      (Dev.syncOf m s).bit (aFrm 0x8C) 29 = true ∧
      (Dev.syncOf m s).rdFrame (aFrm 0x90) (aFrm 0x94) = s.clk.frame % 2 ^ 48 ∧
      (∀ q, (s.acq q).busy = true → (Dev.syncOf m s).AcqEnded q 3) ∧
      s.Cards (Dev.syncOf m s) ([aFrm 0x8C, aFrm 0x90, aFrm 0x94] ++ (List.range m).map (fun c => aCh c 0x114) ++
        s.acqs.map (fun x => aQuad x.1 0x104)) := by
  obtain ⟨hframe, hacqs, hclk⟩ := Dev.originOf_frame m s
  have low (o : Nat) (ho : o < 0x1000) : ∀ q ∈ s.acqs.map (·.1), aFrm o ≠ aQuad q 0x104 :=
    fun q _ => by unfold aFrm aQuad; omega
  obtain ⟨hf, hchains, hc⟩ : s.SyncFrame (Dev.syncOf m s) ∧ (Dev.syncOf m s).chains = (Dev.originOf m s).chains ∧
      (Dev.syncOf m s).clk = s.clk := by
    rw [Dev.syncOf_eq]
    refine forL_keeps (I := fun t : Dev => s.SyncFrame t ∧ t.chains = (Dev.originOf m s).chains ∧ t.clk = s.clk)
      (fun q _ t k => ?_) ⟨hframe.setBits _ _, Eq.refl (Dev.originOf m s).chains, hclk⟩
    obtain ⟨k1, k2, k3⟩ := k
    obtain ⟨h2, h3⟩ := Dev.acqEnd_chains q 3 t
    exact ⟨k1.acqEnd q 3, h2.trans k2, h3.trans k3⟩
  refine ⟨hf, hc, fun c hlt => ?_, ?_, ?_, fun q hb => ?_, fun a ha => ?_⟩
  · rw [show (Dev.syncOf m s).chain c = (Dev.originOf m s).chain c from congrArg (Tab.get _ · c) hchains]
    exact Dev.originOf_chain m s hlt
  · rw [Dev.syncOf_eq, Dev.bit_congr (Dev.acqsEnd_rd (low 0x8C (by omega)) _)]
    exact Dev.bit_setBits_self _ _ _ _ (by decide)
  · rw [Dev.syncOf_eq, Dev.rdFrame_congr (Dev.acqsEnd_rd (low 0x90 (by omega)) _) (Dev.acqsEnd_rd (low 0x94 (by omega)) _),
      ← Dev.originOf_rdFrame m s]
    exact Dev.rdFrame_congr (Dev.rd_wr_of_ne _ (by decide) _) (Dev.rd_wr_of_ne _ (by decide) _)
  · rw [Dev.syncOf_eq]
    refine Dev.acqsEnd_ended (by omega) (Dev.mem_acqs_of_busy hb) ?_
    rwa [Dev.acq_setBits, show (Dev.originOf m s).acq q = s.acq q from congrArg (Tab.get _ · q) hacqs]
  · simp only [List.mem_append, not_or, List.mem_map, not_exists, not_and] at ha
    obtain ⟨⟨hfrm, hch⟩, hq⟩ := ha
    simp only [List.mem_cons, List.not_mem_nil, or_false, not_or] at hfrm
    obtain ⟨h8c, h90, h94⟩ := hfrm
    rw [Dev.syncOf_eq, Dev.acqsEnd_rd (fun q hm => ?_), Dev.setBits, Dev.rd_wr_of_ne _ h8c]
    · refine Dev.originOf_cards m s a ?_
      simp only [originCards, List.mem_append, List.mem_cons, List.not_mem_nil, or_false, List.mem_map, not_or, not_exists,
        not_and]
      exact ⟨⟨h90, h94⟩, hch⟩
    · obtain ⟨x, hx, rfl⟩ := List.mem_map.mp hm
      exact fun e => hq x hx e.symm

end Sys2Proof.Machine
end

section
/-! PROOFS. What a mode switch that raises nothing keeps. -/

namespace Sys2Proof.Machine

/-- The clock, the engines, the program memories, the MSPI completions and the STRESS arm; and the FUNC card of every
pin. -/
def Dev.switchKept (s : Dev) : (Clk × Tab Eng × List Host.Cell × List CmdCpl × W) × (Nat → W) :=
  ((s.clk, s.engs, s.mem, s.host.mspiCpl, s.rd 0x114), fun p => s.rd (aPin p 0x30))

/-- The register at `a` is none of those. -/
def NoSwitchCard (a : Nat) : Prop := a ≠ 0x114 ∧ a % 0x800 ≠ 0x30

@[simp] theorem noSwitchCard_aCh {c o : Nat} (h : o % 0x800 ≠ 0x30) : NoSwitchCard (aCh c o) := by
  unfold NoSwitchCard aCh; omega

@[simp] theorem noSwitchCard_aQuad {q o : Nat} (h : o % 0x800 ≠ 0x30) : NoSwitchCard (aQuad q o) := by
  unfold NoSwitchCard aQuad; omega

@[simp] theorem noSwitchCard_aFrm {o : Nat} (h : o % 0x800 ≠ 0x30) : NoSwitchCard (aFrm o) := by
  unfold NoSwitchCard aFrm; omega

@[simp] theorem noSwitchCard_aUcs {o : Nat} (h : o % 0x800 ≠ 0x30) : NoSwitchCard (aUcs o) := by
  unfold NoSwitchCard aUcs; omega

@[simp] theorem noSwitchCard_aSlc {n : Nat} : NoSwitchCard (aSlc (16 * n + 8)) := by
  unfold NoSwitchCard aSlc; omega

@[simp] theorem Dev.switchKept_ite (p : Prop) [Decidable p] (s t : Dev) :
    (if p then s else t).switchKept = if p then s.switchKept else t.switchKept := apply_ite _ _ _ _

theorem forL_switchKept {β : Type} {f : β → Dev → Dev} {l : List β} {s : Dev}
    (k : ∀ x ∈ l, ∀ t, (f x t).switchKept = t.switchKept) : (forL l f s).switchKept = s.switchKept := by
  unfold forL
  induction l generalizing s with
  | nil => rfl
  | cons x r ih => exact (ih fun y hy => k y (.tail _ hy)).trans (k x (.head _) s)

theorem forN_switchKept {f : Nat → Dev → Dev} {n : Nat} {s : Dev}
    (k : ∀ x t, (f x t).switchKept = t.switchKept) : (forN n f s).switchKept = s.switchKept :=
  forL_switchKept fun x _ t => k x t

variable {s : Dev}

@[simp] theorem Dev.wr_switchKept {a : Nat} {v : W} (h : NoSwitchCard a) : (s.wr a v).switchKept = s.switchKept := by
  obtain ⟨h1, h2⟩ := h
  have e : (s.wr a v).rd 0x114 = s.rd 0x114 := Dev.rd_wr_of_ne _ (Ne.symm h1) _
  have f : (fun p => (s.wr a v).rd (aPin p 0x30)) = fun p => s.rd (aPin p 0x30) :=
    funext fun p => Dev.rd_wr_of_ne _ (by unfold aPin aCh; omega) _
  simp only [Dev.switchKept, e, f, Dev.wr_clk, Dev.wr_engs, Dev.wr_mem, Dev.wr_host]

@[simp] theorem Dev.setFld_switchKept {a hi lo x : Nat} (h : NoSwitchCard a) :
    (s.setFld a hi lo x).switchKept = s.switchKept := Dev.wr_switchKept h

@[simp] theorem Dev.setBits_switchKept {a : Nat} {m : W} (h : NoSwitchCard a) : (s.setBits a m).switchKept = s.switchKept :=
  Dev.wr_switchKept h

@[simp] theorem Dev.incSat_switchKept {a hi lo : Nat} (h : NoSwitchCard a) : (s.incSat a hi lo).switchKept = s.switchKept :=
  Dev.setFld_switchKept h

@[simp] theorem Dev.wrFrame_switchKept {lo hi n : Nat} (hl : NoSwitchCard lo) (hh : NoSwitchCard hi) :
    (s.wrFrame lo hi n).switchKept = s.switchKept :=
  (Dev.setFld_switchKept hh).trans (Dev.wr_switchKept hl)

@[simp] theorem Dev.onSite_switchKept {i : Nat} {f : Site → Site} : (s.onSite i f).switchKept = s.switchKept := by rfl

@[simp] theorem Dev.setPly_switchKept {y : Nat} {x : Ply} : (s.setPly y x).switchKept = s.switchKept := by rfl

@[simp] theorem Dev.onPly_switchKept {y : Nat} {f : Ply → Ply} : (s.onPly y f).switchKept = s.switchKept := by rfl

@[simp] theorem Dev.setQuad_switchKept {q : Nat} {x : Quad} : (s.setQuad q x).switchKept = s.switchKept := by rfl

@[simp] theorem Dev.onQuad_switchKept {q : Nat} {f : Quad → Quad} : (s.onQuad q f).switchKept = s.switchKept := by rfl

@[simp] theorem Dev.onCirc_switchKept {c : Nat} {f : Circ → Circ} : (s.onCirc c f).switchKept = s.switchKept := by rfl

@[simp] theorem Dev.onChain_switchKept {c : Nat} {f : Chain → Chain} : (s.onChain c f).switchKept = s.switchKept := by rfl

@[simp] theorem Dev.onAcq_switchKept {q : Nat} {f : Acq → Acq} : (s.onAcq q f).switchKept = s.switchKept := by rfl

@[simp] theorem Dev.setTdc_switchKept {c : Nat} {x : Tdc} : (s.setTdc c x).switchKept = s.switchKept := by rfl

@[simp] theorem Dev.setWeir_switchKept {c : Nat} {x : Weir} : (s.setWeir c x).switchKept = s.switchKept := by rfl

@[simp] theorem Dev.onLink_switchKept {l : Nat} {f : Link → Link} : (s.onLink l f).switchKept = s.switchKept := by rfl

/-- An update of the sluice, the interface to the host, the quads or the device's own state. -/
@[simp] theorem Dev.slc_switchKept {x : Slc} : ({ s with slc := x } : Dev).switchKept = s.switchKept := by rfl

@[simp] theorem Dev.host_switchKept {x : HostIf} (h : x.mspiCpl = s.host.mspiCpl) :
    ({ s with host := x } : Dev).switchKept = s.switchKept := by
  simp only [Dev.switchKept, h]
  rfl

@[simp] theorem Dev.quads_switchKept {x : Tab Quad} : ({ s with quads := x } : Dev).switchKept = s.switchKept := by rfl

@[simp] theorem Dev.sys_switchKept {x : Sys} : ({ s with sys := x } : Dev).switchKept = s.switchKept := by rfl

@[simp] theorem Dev.notify_switchKept {n : Ntfy} {b : Bool} : (s.notify n b).switchKept = s.switchKept := by
  unfold Dev.notify; simp

/-! ### Sluice, players and captures -/

@[simp] theorem Dev.countLine_switchKept {l : Line} {b : Bool} : (s.countLine l b).switchKept = s.switchKept := by
  unfold Dev.countLine
  split <;> simp

@[simp] theorem Dev.fireLine_switchKept {l : Line} {e t : Nat} {b : Block} {tb : Option Nat} :
    (s.fireLine l e t b tb).switchKept = s.switchKept := by
  unfold Dev.fireLine; simp

@[simp] theorem Dev.produce_switchKept {p : Prod} {e t : Nat} {b : Block} {tb : Option Nat} :
    (s.produce p e t b tb).switchKept = s.switchKept :=
  forL_switchKept fun _ _ _ => Dev.fireLine_switchKept

@[simp] theorem Dev.cutDwell_switchKept {y : Nat} : (s.cutDwell y).switchKept = s.switchKept := by
  have hold : (s.holdDwell y).switchKept = s.switchKept := forL_switchKept fun _ _ _ => Dev.onSite_switchKept
  unfold Dev.cutDwell Dev.enterDwell Dev.restDwell Dev.lwmCheck; simp [hold]

@[simp] theorem Dev.tdcClose_switchKept {c : Nat} {x : Int} {v : W} {st : TdcState} :
    (s.tdcClose c x v st).switchKept = s.switchKept := by
  unfold Dev.tdcClose; simp

@[simp] theorem Dev.tdcLost_switchKept {c : Nat} : (s.tdcLost c).switchKept = s.switchKept := by
  unfold Dev.tdcLost Dev.chFlag; simp

@[simp] theorem Dev.acqEnd_switchKept {q why : Nat} : (s.acqEnd q why).switchKept = s.switchKept := by
  unfold Dev.acqEnd; simp

@[simp] theorem Dev.restartChain_switchKept {c : Nat} : (s.restartChain c).switchKept = s.switchKept := by
  unfold Dev.restartChain; simp

@[simp] theorem Dev.moveOrigin_switchKept : s.moveOrigin.switchKept = s.switchKept := by
  rw [Dev.moveOrigin_eq, Dev.originOf, Dev.wrFrame_switchKept (by simp) (by simp)]
  exact forN_switchKept fun c t => by simp [Dev.chainOrigin]

/-! ### Quads -/

@[simp] theorem Dev.quadUnits_switchKept {q : Nat} {o n : QState} : (s.quadUnits q o n).switchKept = s.switchKept := by
  have lost : (forN 5 (fun c s => s.tdcLost (5 * q + c)) s).switchKept = s.switchKept :=
    forN_switchKept fun _ _ => Dev.tdcLost_switchKept
  unfold Dev.quadUnits; simp [lost]

@[simp] theorem Dev.handOver_switchKept {q p n : Nat} : (s.handOver q p n).switchKept = s.switchKept := by
  unfold Dev.handOver Dev.tdcEmpty; simp

@[simp] theorem Dev.serveRecord_switchKept {q : Nat} {r : Nat × Bool} : (s.serveRecord q r).switchKept = s.switchKept := by
  unfold Dev.serveRecord; simp

@[simp] theorem Dev.weirsOn_switchKept {q : Nat} : (s.weirsOn q).switchKept = s.switchKept :=
  forN_switchKept fun _ _ => Dev.setWeir_switchKept

@[simp] theorem Dev.setCircs_switchKept {q : Nat} : (s.setCircs q).switchKept = s.switchKept := by
  unfold Dev.setCircs; dsimp only
  rw [Dev.onCirc_switchKept]
  exact forN_switchKept fun _ _ => Dev.onCirc_switchKept

@[simp] theorem Dev.quadTo_switchKept {q : Nat} {t : QState} : (s.quadTo q t).switchKept = s.switchKept := by
  unfold Dev.quadTo; dsimp only
  split <;> simp

@[simp] theorem Dev.dwellPins_switchKept {q : Nat} : (s.dwellPins q).switchKept = s.switchKept :=
  forL_switchKept fun _ _ _ => Dev.onSite_switchKept

@[simp] theorem Dev.qSupersede_switchKept {q : Nat} : (s.qSupersede q).switchKept = s.switchKept := by
  unfold Dev.qSupersede Dev.qRej; dsimp only
  split <;> simp

/-- No engine runs or is paused. -/
def Dev.Still (s : Dev) : Prop := ∀ e, (s.eng e).live = false

theorem Dev.Still.of_kept {s t : Dev} (h : s.Still) (k : t.switchKept = s.switchKept) : t.Still := fun e => by
  have hk : t.engs = s.engs := congrArg (·.1.2.1) k
  rw [show t.eng e = s.eng e from congrArg (Tab.get _ · e) hk]
  exact h e

/-- With no engine live, quads that leave ACTIVE raise nothing. -/
theorem Dev.quadsTo_still (h : s.Still) {l : List (Nat × QState)} :
    (s.quadsTo l).switchKept = s.switchKept ∧ (s.quadsTo l).standing = s.standing := by
  have none : l.flatMap (fun x => s.leftRaises x.1 x.2) = [] :=
    List.flatMap_eq_nil_iff.mpr fun x _ => by
      have run : s.runningIn x.1 = [] := List.filter_eq_nil_iff.mpr fun i _ => by simp [h (s.engOf i)]
      simp [Dev.leftRaises, run]
  unfold Dev.quadsTo
  rw [none]
  exact ⟨forL_switchKept fun x _ t => by simp, by simp⟩

theorem Dev.calEnter_still (h : s.Still) : s.calEnter.switchKept = s.switchKept ∧ s.calEnter.standing = s.standing := by
  unfold Dev.calEnter
  extract_lets l y s1 s2
  have k1 : s1.switchKept = s.switchKept := rfl
  have k2 : s2.switchKept = s1.switchKept := forL_switchKept fun _ _ _ => Dev.qSupersede_switchKept
  have n2 : s2.standing = s.standing := (forL_standing fun _ _ => Dev.qSupersede_standing).trans rfl
  obtain ⟨k3, n3⟩ := Dev.quadsTo_still (h.of_kept (k2.trans k1))
    (l := (l.filter (fun q => (s2.quad q).st ≠ .service)).map (fun q => (q, QState.service)))
  exact ⟨k3.trans (k2.trans k1), n3.trans n2⟩

theorem Dev.calLeave_still (h : s.Still) : s.calLeave.switchKept = s.switchKept ∧ s.calLeave.standing = s.standing := by
  unfold Dev.calLeave
  extract_lets l
  obtain ⟨k, n⟩ := Dev.quadsTo_still (s := { s with sys := { s.sys with held := [] } }) (h.of_kept rfl) (l := l)
  exact ⟨k, n⟩

/-! ### Channels -/

theorem Dev.chanOff_eq (p : Nat) (s : Dev) : ∃ f, s.chanOff p =
    (s.onCirc (s.circOf p) f).wr (aPin p 0x30) (wn (s.range p % 8 * 16)) :=
  ⟨_, by unfold Dev.chanOff Dev.setFunc; rfl⟩

theorem aPin_func_inj {p k : Nat} (h : aPin p 0x30 = aPin k 0x30) : p = k := by
  unfold aPin aCh at h; omega

theorem Dev.chanOff_other {p k : Nat} (h : k ≠ p) (s : Dev) : (s.chanOff p).rd (aPin k 0x30) = s.rd (aPin k 0x30) := by
  obtain ⟨f, hf⟩ := Dev.chanOff_eq p s
  rw [hf, Dev.rd_wr_of_ne _ fun e => h (aPin_func_inj e)]
  rfl

theorem Dev.chanOff_func (p : Nat) (s : Dev) : (s.chanOff p).func p = 0 := by
  obtain ⟨f, hf⟩ := Dev.chanOff_eq p s
  rw [hf, Dev.func, Dev.fld, Dev.rd_wr_self]
  have hr : s.range p % 8 < 8 := Nat.mod_lt _ (by omega)
  generalize s.range p % 8 = r at hr
  interval_cases r <;> decide

theorem Dev.chanOff_kept (p : Nat) (s : Dev) : (s.chanOff p).switchKept.1 = s.switchKept.1 := by
  obtain ⟨f, hf⟩ := Dev.chanOff_eq p s
  have e : (s.chanOff p).rd 0x114 = s.rd 0x114 := by
    rw [hf, Dev.rd_wr_of_ne _ (by unfold aPin aCh; omega)]
    rfl
  simp only [Dev.switchKept, e]
  rw [hf]
  rfl

/-- One channel of a mode switch. -/
def Dev.chanTo (m : Mode) (p : Nat) (s : Dev) : Dev := if m.funcOk (s.func p) (s.range p) then s else s.chanOff p

theorem Dev.chanTo_other (m : Mode) {p k : Nat} (h : k ≠ p) (s : Dev) :
    (Dev.chanTo m p s).rd (aPin k 0x30) = s.rd (aPin k 0x30) := by
  unfold Dev.chanTo
  split
  · rfl
  · exact Dev.chanOff_other h s

theorem Dev.chansTo_eq (m : Mode) (s : Dev) : s.chansTo m = forN 576 (Dev.chanTo m) s := by
  unfold Dev.chansTo Dev.chanTo
  generalize (576 : Nat) = n
  rfl

/-- A channel whose function the mode does not serve is Off. -/
theorem chansTo_off {m : Mode} {n p : Nat} (hp : p < n) {s : Dev} (hf : m.funcOk (s.func p) (s.range p) = false) :
    (forN n (Dev.chanTo m) s).func p = 0 := by
  obtain ⟨t, ht, he⟩ := forN_at (get := fun (s : Dev) p => s.rd (aPin p 0x30)) (f := Dev.chanTo m)
    (fun i s k hk => Dev.chanTo_other m hk s) hp s
  have same (hi lo : Nat) : t.fld (aPin p 0x30) hi lo = s.fld (aPin p 0x30) hi lo := Dev.fld_congr ht hi lo
  have off : Dev.chanTo m p t = t.chanOff p := by
    unfold Dev.chanTo Dev.func Dev.range
    rw [same, same]
    have hf : m.funcOk (s.fld (aPin p 0x30) 2 0) (s.fld (aPin p 0x30) 6 4) = false := hf
    exact if_neg (by simp [hf])
  rw [Dev.func, Dev.fld, show (forN n (Dev.chanTo m) s).rd (aPin p 0x30) = _ from he, off]
  exact Dev.chanOff_func p t

theorem chansTo_kept (m : Mode) (n : Nat) (s : Dev) : (forN n (Dev.chanTo m) s).switchKept.1 = s.switchKept.1 := by
  refine forL_keeps (I := fun t : Dev => t.switchKept.1 = s.switchKept.1) (fun p _ t k => ?_) (Eq.refl s.switchKept.1)
  unfold Dev.chanTo
  split
  · exact k
  · exact (Dev.chanOff_kept p t).trans k

theorem Dev.unitsTo_kept (o n : Mode) (s : Dev) : (s.unitsTo o n).switchKept.1 = s.switchKept.1 ∧
    ∀ p, p < 576 → n.funcOk (s.func p) (s.range p) = false → (s.unitsTo o n).func p = 0 := by
  unfold Dev.unitsTo
  extract_lets s1 s2 s3 s4 s5
  have k1 : s1.switchKept = s.switchKept := by
    unfold s1
    split
    · rfl
    · exact forN_switchKept fun _ _ => Dev.cutDwell_switchKept
  have e2 : s2 = forN 576 (Dev.chanTo n) s1 := Dev.chansTo_eq n s1
  have k3 : s3.switchKept = s2.switchKept := by simp [s3]
  have k4 : s4.switchKept = s3.switchKept := by
    unfold s4
    split
    · rfl
    · exact forL_switchKept fun _ _ _ => Dev.tdcLost_switchKept
  have k5 : s5.switchKept = s4.switchKept := by
    unfold s5
    split
    · rfl
    · exact forL_switchKept fun _ _ _ => Dev.acqEnd_switchKept
  clear_value s2 s3 s4 s5
  have k : (if (n.enables 7 && !o.enables 7) = true then s5.moveOrigin else s5).switchKept = s2.switchKept := by
    simp [k5, k4, k3]
  refine ⟨(congrArg Prod.fst k).trans ?_, fun p hp hf => ?_⟩
  · rw [e2, chansTo_kept, k1]
  · have card : s1.rd (aPin p 0x30) = s.rd (aPin p 0x30) := congrFun (congrArg Prod.snd k1) p
    have same (hi lo : Nat) : s1.fld (aPin p 0x30) hi lo = s.fld (aPin p 0x30) hi lo := Dev.fld_congr card hi lo
    have off : s2.func p = 0 := by
      rw [e2]
      exact chansTo_off hp (by rw [Dev.func, Dev.range, same, same]; exact hf)
    exact (Dev.fld_congr (congrFun (congrArg Prod.snd k) p) 2 0).trans off

end Sys2Proof.Machine
end

section
/-! PROOFS. FRAME_TICK, MODE_SWITCH and SYNC_RESET: O46. -/

namespace Sys2Proof.Machine

variable {s : Dev}

/-! ### A mode in force -/

/-- The cards of MODE_STAT that a switch writes. -/
def Dev.switchCards (s : Dev) (tag : Nat) : Dev := ((s.setBits 0x108 4).setFld 0x108 23 16 tag).wrFrame 0x10C 0x110 s.clk.frame

theorem Dev.switchCards_shows {tag : Nat} (ht : tag < 256) :
    (s.switchCards tag).bit 0x108 2 = true ∧ (s.switchCards tag).fld 0x108 23 16 = tag ∧
      (s.switchCards tag).rdFrame 0x10C 0x110 = s.clk.frame % 2 ^ 48 := by
  have card : (s.switchCards tag).rd 0x108 = ((s.setBits 0x108 4).setFld 0x108 23 16 tag).rd 0x108 := by
    rw [Dev.switchCards, Dev.wrFrame, Dev.rd_setFld_of_ne _ (by decide), Dev.rd_wr_of_ne _ (by decide)]
  refine ⟨?_, ?_, Dev.rdFrame_wrFrame_mod _ (by decide) _⟩
  · rw [Dev.bit_congr card, Dev.bit_setFld_of_ne _ (by omega) (by omega) (by omega)]
    exact Dev.bit_setBits_self _ _ _ _ (by decide)
  · rw [Dev.fld_congr card, Dev.fld_setFld_self _ (by omega) (by omega)]
    exact Nat.mod_eq_of_lt ht

theorem Dev.switchCards_rd {tag a : Nat} (h : a ≠ 0x108 ∧ a ≠ 0x10C ∧ a ≠ 0x110) : (s.switchCards tag).rd a = s.rd a := by
  obtain ⟨h1, h2, h3⟩ := h
  rw [Dev.switchCards, Dev.wrFrame, Dev.rd_setFld_of_ne _ h3, Dev.rd_wr_of_ne _ h2, Dev.rd_setFld_of_ne _ h1, Dev.setBits,
    Dev.rd_wr_of_ne _ h1]

/-- What a switch that raises nothing leaves, before its completion: `s` is the device it began on. -/
structure Dev.Switched (s : Dev) (r : ModeReq) (t : Dev) : Prop where
  mode   : t.sys.mode = r.target
  req    : t.sys.req = none
  done   : t.bit 0x108 2 = true
  tag    : t.fld 0x108 23 16 = r.tag
  tick   : t.rdFrame 0x10C 0x110 = s.clk.frame % 2 ^ 48
  arm    : s.sys.mode = .stress → t.bit 0x114 31 = false
  off    : ∀ p, p < 576 → r.target.funcOk (s.func p) (s.range p) = false → t.func p = 0
  clk    : t.clk = s.clk
  engs   : t.engs = s.engs
  mem    : t.mem = s.mem

/-- A completion changes none of it. -/
theorem Dev.Switched.complete {r : ModeReq} {t : Dev} (h : s.Switched r t) (j : Job) (a b : Nat) (d : List W) :
    s.Switched r (t.complete j a b d) := by
  obtain ⟨m, l, e⟩ := Dev.complete_only t j a b d
  rw [e]
  exact { h with }

/-- A bit cleared in a card reads back. -/
theorem Dev.bit_clrBits_self (s : Dev) (a : Nat) {i : Nat} (m : W) (h : m.bit i = true) : (s.clrBits a m).bit a i = false := by
  have hm : m.getLsbD i = true := h
  rw [Dev.bit, Dev.clrBits, Dev.rd_wr_self, W.bit, BitVec.getLsbD_and, BitVec.getLsbD_not, hm]
  simp

/-- The units of the old mode have left, those of the new one are in place. -/
def Dev.switchUnits (s : Dev) (r : ModeReq) : Dev :=
  let old := s.sys.mode
  let s := if old = .stress then s.clrBits 0x114 0x80000000 else s
  let s := if old = .calibrate then s.calLeave else s
  let s := if r.target = .calibrate then s.calEnter else s
  s.unitsTo old r.target

/-- The mode is in force and its cards show it. -/
def Dev.switchDone (s : Dev) (r : ModeReq) (old : Mode) : Dev :=
  ({ s with sys := { s.sys with mode := r.target, req := none, wcs := s.sys.wcs || decide (old = Mode.recovery) } } : Dev).switchCards
    r.tag

theorem Dev.switchTo_eq (r : ModeReq) (hm : (s.switchUnits r).sys.mode ≠ .safe) :
    s.switchTo r = match r.cmd with
      | some j => ((s.switchUnits r).switchDone r s.sys.mode).complete j 0 0 []
      | none => (s.switchUnits r).switchDone r s.sys.mode := by
  have e : s.switchTo r = if (s.switchUnits r).sys.mode = .safe then s.switchUnits r else
      match r.cmd with
      | some j => ((s.switchUnits r).switchDone r s.sys.mode).complete j 0 0 []
      | none => (s.switchUnits r).switchDone r s.sys.mode := rfl
  rw [e, if_neg hm]

/-- Where no engine is live in CALIBRATE, the units change without a raise. -/
theorem Dev.switchUnits_kept {r : ModeReq} (hc : s.sys.mode = .calibrate ∨ r.target = .calibrate → s.Still) :
    (s.switchUnits r).standing = s.standing ∧ (s.switchUnits r).clk = s.clk ∧ (s.switchUnits r).engs = s.engs ∧
      (s.switchUnits r).mem = s.mem ∧ (s.switchUnits r).host.mspiCpl = s.host.mspiCpl ∧
      (s.sys.mode = .stress → (s.switchUnits r).bit 0x114 31 = false) ∧
      ∀ p, p < 576 → r.target.funcOk (s.func p) (s.range p) = false → (s.switchUnits r).func p = 0 := by
  unfold Dev.switchUnits
  extract_lets old s1 s2 s3
  have e1 : s1.clk = s.clk ∧ s1.engs = s.engs ∧ s1.mem = s.mem ∧ s1.host = s.host := by
    unfold s1
    split
    · exact ⟨rfl, rfl, rfl, rfl⟩
    · exact ⟨rfl, rfl, rfl, rfl⟩
  have n1 : s1.standing = s.standing := by simp [s1]
  have a1 : s.sys.mode = .stress → s1.bit 0x114 31 = false := fun hs => by
    have : s1 = s.clrBits 0x114 0x80000000 := if_pos hs
    rw [this]
    exact Dev.bit_clrBits_self _ _ _ (by decide)
  have f1 : ∀ p, s1.rd (aPin p 0x30) = s.rd (aPin p 0x30) := fun p => by
    unfold s1
    split
    · exact Dev.rd_wr_of_ne _ (by unfold aPin aCh; omega) _
    · rfl
  clear_value s1
  obtain ⟨c1, g1, m1, h1⟩ := e1
  have st1 : s.Still → s1.Still := fun h e => by
    rw [show s1.eng e = s.eng e from congrArg (Tab.get _ · e) g1]
    exact h e
  have k2 : s2.switchKept = s1.switchKept ∧ s2.standing = s1.standing := by
    unfold s2
    split
    · rename_i ho
      exact Dev.calLeave_still (st1 (hc (.inl ho)))
    · exact ⟨rfl, rfl⟩
  have k3 : s3.switchKept = s1.switchKept ∧ s3.standing = s1.standing := by
    unfold s3
    split
    · rename_i hn
      obtain ⟨k, n⟩ := Dev.calEnter_still ((st1 (hc (.inr hn))).of_kept k2.1)
      exact ⟨k.trans k2.1, n.trans k2.2⟩
    · exact k2
  clear_value s2 s3
  obtain ⟨k3, n3⟩ := k3
  obtain ⟨k4, f4⟩ := Dev.unitsTo_kept old r.target s3
  have k : (s3.unitsTo old r.target).switchKept.1 = s1.switchKept.1 := k4.trans (congrArg Prod.fst k3)
  refine ⟨?_, (congrArg (·.1) k).trans c1, (congrArg (·.2.1) k).trans g1, (congrArg (·.2.2.1) k).trans m1,
    (congrArg (·.2.2.2.1) k).trans (congrArg HostIf.mspiCpl h1), fun hs => ?_, fun p hp hf => ?_⟩
  · rw [Dev.unitsTo_standing, n3, n1]
  · exact (Dev.bit_congr (congrArg (·.2.2.2.2) k) 31).trans (a1 hs)
  · have card : s3.rd (aPin p 0x30) = s.rd (aPin p 0x30) := (congrFun (congrArg Prod.snd k3) p).trans (f1 p)
    have same (hi lo : Nat) : s3.fld (aPin p 0x30) hi lo = s.fld (aPin p 0x30) hi lo := Dev.fld_congr card hi lo
    exact f4 p hp (by rw [Dev.func, Dev.range, same, same]; exact hf)

/-- A mode switch that its reason lets pass. -/
theorem Dev.switchTo_switched {r : ModeReq} (hm : s.sys.mode ≠ .safe) (ht : r.tag < 256)
    (hc : s.sys.mode = .calibrate ∨ r.target = .calibrate → s.Still) :
    s.Switched r (s.switchTo r) ∧ ∀ j, r.cmd = some j → s.AnswersCmd (s.switchTo r) j 0 0 [] := by
  obtain ⟨hn, hclk, hengs, hmem, hcpl, harm, hoff⟩ := Dev.switchUnits_kept hc
  have hmode : (s.switchUnits r).sys.mode ≠ .safe := fun e => hm ((congrArg Standing.mode hn).symm.trans e)
  rw [Dev.switchTo_eq r hmode]
  generalize s.switchUnits r = u at *
  obtain ⟨hd, htag, htick⟩ := Dev.switchCards_shows (tag := r.tag) ht
    (s := { u with sys := { u.sys with mode := r.target, req := none, wcs := u.sys.wcs || decide (s.sys.mode = Mode.recovery) } })
  have rd (a : Nat) (h : a ≠ 0x108 ∧ a ≠ 0x10C ∧ a ≠ 0x110) : (u.switchDone r s.sys.mode).rd a = u.rd a :=
    Dev.switchCards_rd h
  have hs : s.Switched r (u.switchDone r s.sys.mode) :=
    { mode := rfl, req := rfl, done := hd, tag := htag, tick := by rw [← hclk]; exact htick
      arm := fun k => (Dev.bit_congr (rd 0x114 (by decide)) 31).trans (harm k)
      off := fun p hp hf => (Dev.fld_congr (rd _ (by unfold aPin aCh; omega)) 2 0).trans (hoff p hp hf)
      clk := hclk, engs := hengs, mem := hmem }
  cases hj : r.cmd with
  | none => exact ⟨hs, fun j h => nomatch h⟩
  | some i =>
    refine ⟨hs.complete i 0 0 [], fun j h => ?_⟩
    cases h
    exact Dev.answersCmd_complete i 0 0 [] (congrArg Clk.ticked hclk) (congrArg Clk.frame hclk) hcpl

/-! ### A request refused -/

/-- A refusal shows its reason and its tag, and no other card. -/
theorem Dev.rejMode_shows {tag why : Nat} (ht : tag < 256) (hw : why < 16) :
    (s.rejMode tag why).bit 0x108 1 = true ∧ (s.rejMode tag why).fld 0x108 11 8 = why ∧
      (s.rejMode tag why).fld 0x108 23 16 = tag ∧ s.Cards (s.rejMode tag why) [0x108] := by
  unfold Dev.rejMode
  refine ⟨?_, ?_, ?_, (((Dev.Cards.refl s _).setBits (by simp) _).setFld (by simp) _ _ _).setFld (by simp) _ _ _⟩
  · rw [Dev.bit_setFld_of_ne _ (by omega) (by omega) (by omega), Dev.bit_setFld_of_ne _ (by omega) (by omega) (by omega)]
    exact Dev.bit_setBits_self _ _ _ _ (by decide)
  · rw [Dev.fld_setFld_of_ne _ (by omega) (by omega) (by omega), Dev.fld_setFld_self _ (by omega) (by omega)]
    exact Nat.mod_eq_of_lt hw
  · rw [Dev.fld_setFld_self _ (by omega) (by omega)]
    exact Nat.mod_eq_of_lt ht

theorem Dev.switchReason_lt (m : Mode) : s.switchReason m < 16 := by
  unfold Dev.switchReason
  dsimp only
  repeat' split
  all_goals omega

/-- The device whose request is refused, before its command is answered. -/
def Dev.refused (s : Dev) (r : ModeReq) : Dev :=
  ({ s with sys := { s.sys with req := none } } : Dev).rejMode r.tag (s.switchReason r.target)

theorem Dev.trySwitch_refused {r : ModeReq} (h : s.switchReason r.target ≠ 0) :
    s.trySwitch r = match r.cmd with
      | some j => (s.refused r).complete j 3 (s.switchReason r.target) []
      | none => s.refused r := by
  unfold Dev.trySwitch
  exact if_neg h

/-! ### The read-through of the writable store -/

/-- One copy read through. -/
def Dev.readCopy (w : List (Fin 16)) (k : Nat) (s : Dev) : Dev :=
  s.setFld (aUcs (0x8620 + 4 * k)) 30 30 (b2n (w.any (fun x => x.val = k)))

theorem aUcs_copy_inj {k n : Nat} (h : k ≠ n) : aUcs (0x8620 + 4 * k) ≠ aUcs (0x8620 + 4 * n) := by
  unfold aUcs; omega

/-- The cards of `n` writable copies. -/
def copyCards (n : Nat) : List Nat := (List.range n).map (fun k => aUcs (0x8620 + 4 * k))

theorem readCopies_bit {w : List (Fin 16)} {n k : Nat} (hk : k < n) :
    (forN n (Dev.readCopy w) s).bit (aUcs (0x8620 + 4 * k)) 30 = w.any (fun x => x.val = k) := by
  obtain ⟨t, -, he⟩ := forN_at (get := fun (s : Dev) k => s.rd (aUcs (0x8620 + 4 * k))) (f := Dev.readCopy w)
    (fun i s k hk => Dev.rd_setFld_of_ne s (aUcs_copy_inj hk)) hk s
  rw [Dev.bit, show (forN n (Dev.readCopy w) s).rd (aUcs (0x8620 + 4 * k)) = _ from he]
  exact Dev.bit_setFld_self t (by omega) _

theorem readCopies_cards (w : List (Fin 16)) (n : Nat) : s.Cards (forN n (Dev.readCopy w) s) (copyCards n) :=
  forL_keeps (I := fun t : Dev => s.Cards t (copyCards n)) (fun _ hk _ h => h.setFld (List.mem_map_of_mem hk) _ _ _)
    (Dev.Cards.refl s _)

/-- Only cards differ. -/
def Dev.RegsFrame (s t : Dev) : Prop := { t with regs := s.regs } = s

theorem Dev.RegsFrame.setFld {t : Dev} (h : s.RegsFrame t) (a hi lo x : Nat) : s.RegsFrame (t.setFld a hi lo x) := h

theorem readCopies_frame (w : List (Fin 16)) (n : Nat) : s.RegsFrame (forN n (Dev.readCopy w) s) :=
  forL_keeps (I := s.RegsFrame) (fun _ _ _ h => h.setFld _ _ _ _) (Eq.refl s)

theorem Dev.readThrough_eq (w : List (Fin 16)) : s.readThrough w = forN 16 (Dev.readCopy w) s := by
  unfold Dev.readThrough Dev.readCopy
  rfl

theorem Dev.readThrough_shows (w : List (Fin 16)) :
    (∀ k, k < 16 → (s.readThrough w).bit (aUcs (0x8620 + 4 * k)) 30 = w.any (fun x => x.val = k)) ∧
      s.Cards (s.readThrough w) (copyCards 16) ∧ s.RegsFrame (s.readThrough w) := by
  rw [Dev.readThrough_eq]
  exact ⟨fun k hk => readCopies_bit hk, readCopies_cards w 16, readCopies_frame w 16⟩

/-- The device that a switch judges. -/
def Dev.switchFrom (s : Dev) (w : List (Fin 16)) : Dev := if s.sys.mode = .recovery then s.readThrough w else s

theorem Dev.switchFrom_frame (w : List (Fin 16)) : s.RegsFrame (s.switchFrom w) := by
  unfold Dev.switchFrom
  split
  · exact (Dev.readThrough_shows w).2.2
  · exact Eq.refl s

/-- The read-through writes no FUNC card. -/
theorem Dev.switchFrom_func (w : List (Fin 16)) (p : Nat) : (s.switchFrom w).func p = s.func p ∧ (s.switchFrom w).range p = s.range p := by
  have card : (s.switchFrom w).rd (aPin p 0x30) = s.rd (aPin p 0x30) := by
    unfold Dev.switchFrom
    split
    · refine (Dev.readThrough_shows w).2.1 _ fun h => ?_
      obtain ⟨k, hk, e⟩ := List.mem_map.mp h
      have hk := List.mem_range.mp hk
      unfold aUcs aPin aCh at e
      omega
    · rfl
  exact ⟨Dev.fld_congr card 2 0, Dev.fld_congr card 6 4⟩

end Sys2Proof.Machine
end

section
/-! PROOFS. The clauses of O46, one by one, and their sum. -/

namespace Sys2Proof.Machine

theorem exec_frameTick (w : List (Fin 16)) (s : State) :
    exec (.frameTick w) s = .next { s with toDev := s.toDev.frameTick w } := by intros; rfl

theorem exec_syncReset (s : State) :
    exec .syncReset s = .next { s with toDev := s.toDev.resetsAt s.clk.frame } := by intros; rfl

theorem exec_modeSwitch_of_due {s : State} (w : List (Fin 16)) {r : ModeReq} (hr : s.sys.req = some r)
    (hs : r.switchAt = s.clk.frame) :
    exec (.modeSwitch w) s = .next { s with toDev := (s.toDev.switchFrom w).trySwitch r } := by
  have e : exec (.modeSwitch w) s = execModeSwitch w s := rfl
  rw [e, execModeSwitch, State.run, hr]
  dsimp only
  rw [if_pos hs]
  rfl

theorem exec_modeSwitch_of_idle {s : State} (w : List (Fin 16)) (h : ∀ r, s.sys.req = some r → r.switchAt ≠ s.clk.frame) :
    exec (.modeSwitch w) s = .next s := by
  have e : exec (.modeSwitch w) s = execModeSwitch w s := rfl
  rw [e, execModeSwitch, State.run]
  cases hr : s.sys.req with
  | none => rfl
  | some r =>
    dsimp only
    rw [if_neg (h r hr)]

/-- A tick: the number and the clock of its frame, and what it finds staged. -/
theorem frameTick_ticks (s : State) (w : List (Fin 16)) (hr : s.tickRuns = true) :
    ∃ u : Dev, exec (.frameTick w) s = .next { s with toDev := u.drain } ∧ (s.host.waiting = [] → u.drain = u) ∧
      u.clk.frame = (if s.marks then s.rdFrame (aFrm 0x18) (aFrm 0x1C) else s.nextTick) ∧ u.clk.ticked = true ∧
      u.clk.moved = none ∧ u.clk.eclk = s.clk.eclk + s.frameLen / 2 ∧ u.clk.overran = 0 ∧ u.flt.joined = [] ∧
      (s.sys.mode ≠ .safe → u.stage.eng = [] ∧
        ∀ x, x ∈ u.stage.host → x ∈ s.stage.host ∧ x.isFor u.clk.frame u.clk.frame = false ∧ (s.marks = true → x.tgt = none)) ∧
      (s.sys.mode = .safe → s.sys.safeDue = true → u.stage = { host := [], eng := [] } ∧ u.sys.safeDue = false) ∧
      u.sys.devid = s.sys.devid ∧ u.sys.master = s.sys.master ∧ u.jtag = s.jtag := by
  obtain ⟨moved, h, due, ht⟩ := Dev.frameTick_eq w hr
  obtain ⟨stage, mode, late, hu⟩ := Dev.frameDone_rest (s := s.toDev) (w := w) (moved := moved) (h := h) (due := due)
  obtain ⟨-, hnum, hlen, heclk⟩ := Dev.opened_begun (s := s.toDev)
  have ho := (Dev.opened_leads (s := s.toDev)).rest
  have frame : (s.toDev.frameDone w moved h due).clk.frame = s.toDev.tickNumber := (congrArg Standing.frame hu).trans hnum
  have eclk : (s.toDev.opened).clk.eclk + s.toDev.opened.frameLen / 2 = s.clk.eclk + s.frameLen / 2 := by rw [hlen, heclk]
  have waiting : (s.toDev.frameDone w moved h due).host.waiting = s.toDev.opened.host.waiting := congrArg Standing.waiting hu
  have waits : s.toDev.opened.host.waiting = s.host.waiting := congrArg Standing.waiting ho
  have devid : (s.toDev.frameDone w moved h due).sys.devid = s.toDev.opened.sys.devid := congrArg Standing.devid hu
  have devid' : s.toDev.opened.sys.devid = s.sys.devid := congrArg Standing.devid ho
  have master : (s.toDev.frameDone w moved h due).sys.master = s.toDev.opened.sys.master := congrArg Standing.master hu
  have master' : s.toDev.opened.sys.master = s.sys.master := congrArg Standing.master ho
  have jtag : (s.toDev.frameDone w moved h due).jtag = s.toDev.opened.jtag := congrArg Standing.jtag hu
  have jtag' : s.toDev.opened.jtag = s.jtag := congrArg Standing.jtag ho
  refine ⟨s.toDev.frameDone w moved h due, ?_, fun hw => Dev.drain_of_none ((waiting.trans waits).trans hw), frame,
    congrArg Standing.ticked hu, congrArg Standing.moved hu, (congrArg Standing.eclk hu).trans eclk,
    congrArg Standing.overran hu, Dev.frameDone_joined, fun hm => ?_, Dev.frameDone_swept, devid.trans devid',
    master.trans master', jtag.trans jtag'⟩
  · rw [exec_frameTick, ht]
  · rw [frame]
    exact Dev.frameDone_stage hm

/-- A relock, RESET or a clock that never locked holds the ticks. -/
theorem frameTick_held (s : State) (w : List (Fin 16)) (hr : s.tickRuns = false) : exec (.frameTick w) s = .next s := by
  have e : s.toDev.frameTick w = s.toDev := if_pos (by rw [hr]; rfl)
  rw [exec_frameTick, e]

/-- A refusal changes the request and one card. -/
theorem Dev.refused_shows {u : Dev} {r : ModeReq} (ht : r.tag < 256) :
    (u.refused r).bit 0x108 1 = true ∧ (u.refused r).fld 0x108 11 8 = u.switchReason r.target ∧
      (u.refused r).fld 0x108 23 16 = r.tag ∧ u.Cards (u.refused r) [0x108] ∧
      (u.refused r).sys = { u.sys with req := none } ∧ ({ u.refused r with sys := u.sys, regs := u.regs } : Dev) = u := by
  obtain ⟨hb, hf, hg, hcards⟩ := Dev.rejMode_shows (s := { u with sys := { u.sys with req := none } }) ht
    (Dev.switchReason_lt (s := u) r.target)
  exact ⟨hb, hf, hg, hcards, rfl, rfl⟩

/-- A mode switch that its reason refuses. -/
theorem modeSwitch_refused {s : State} (w : List (Fin 16)) {r : ModeReq} (hr : s.sys.req = some r)
    (hs : r.switchAt = s.clk.frame) (ht : r.tag < 256) (hw : (s.toDev.switchFrom w).switchReason r.target ≠ 0) :
    ∃ t : Dev, exec (.modeSwitch w) s = .next { s with toDev := t } ∧ t.sys = { s.sys with req := none } ∧
      t.bit 0x108 1 = true ∧ t.fld 0x108 11 8 = (s.toDev.switchFrom w).switchReason r.target ∧ t.fld 0x108 23 16 = r.tag ∧
      (s.toDev.switchFrom w).Cards t [0x108] ∧
      (∀ j, r.cmd = some j → s.AnswersCmd t j 3 ((s.toDev.switchFrom w).switchReason r.target) []) ∧
      { t with sys := s.sys, regs := s.regs, links := s.links
               host := { t.host with mspiCpl := s.host.mspiCpl } } = s.toDev ∧
      (r.cmd = none → t.links = s.links ∧ t.host = s.host) := by
  have frame : ({ s.toDev.switchFrom w with regs := s.regs } : Dev) = s.toDev := Dev.switchFrom_frame (s := s.toDev) w
  have hexec := exec_modeSwitch_of_due w hr hs
  rw [Dev.trySwitch_refused hw] at hexec
  generalize s.toDev.switchFrom w = u at *
  obtain ⟨hb, hf, hg, hcards, hsys, same⟩ := Dev.refused_shows (u := u) ht
  have sys : u.sys = s.sys := (congrArg Dev.sys frame :)
  generalize u.refused r = v at *
  generalize u.switchReason r.target = why at *
  have same : ({ v with sys := s.sys, regs := s.regs } : Dev) = s.toDev := by
    rw [← frame, ← same]
  have links : v.links = s.links := (congrArg Dev.links same :)
  have host : v.host = s.host := (congrArg Dev.host same :)
  rw [sys] at hsys
  cases hc : r.cmd with
  | none =>
    rw [hc] at hexec
    refine ⟨v, hexec, hsys, hb, hf, hg, hcards, fun j h => (nomatch h), ?_, fun _ => ⟨links, host⟩⟩
    rw [← links, ← host]
    exact same
  | some i =>
    rw [hc] at hexec
    obtain ⟨m, l, e⟩ := Dev.complete_only v i 3 why []
    have hans : s.AnswersCmd (v.complete i 3 why []) i 3 why [] :=
      Dev.answersCmd_complete i 3 _ [] (congrArg (fun d : Dev => d.clk.ticked) same :) (congrArg (fun d : Dev => d.clk.frame) same :)
        (congrArg (fun d : Dev => d.host.mspiCpl) same :)
    dsimp only at hexec
    rw [e] at hexec hans
    refine ⟨_, hexec, hsys, hb, hf, hg, hcards, fun j h => ?_, ?_, fun h => (nomatch h)⟩
    · cases h
      exact hans
    · rw [← links, ← host]
      exact same

/-- A mode switch in force. -/
theorem modeSwitch_acts {s : State} (w : List (Fin 16)) {r : ModeReq} (hr : s.sys.req = some r)
    (hs : r.switchAt = s.clk.frame) (ht : r.tag < 256) (hw : (s.toDev.switchFrom w).switchReason r.target = 0)
    (hm : s.sys.mode ≠ .safe) (hc : s.sys.mode = .calibrate ∨ r.target = .calibrate → ∀ e, (s.eng e).live = false) :
    ∃ t : Dev, exec (.modeSwitch w) s = .next { s with toDev := t } ∧ t.sys.mode = r.target ∧ t.sys.req = none ∧
      t.bit 0x108 2 = true ∧ t.fld 0x108 23 16 = r.tag ∧ t.rdFrame 0x10C 0x110 = s.clk.frame % 2 ^ 48 ∧
      (s.sys.mode = .stress → t.bit 0x114 31 = false) ∧
      (∀ p, p < 576 → r.target.funcOk (s.func p) (s.range p) = false → t.func p = 0) ∧
      (∀ j, r.cmd = some j → s.AnswersCmd t j 0 0 []) ∧ t.clk = s.clk ∧ t.engs = s.engs ∧ t.mem = s.mem := by
  have frame : ({ s.toDev.switchFrom w with regs := s.regs } : Dev) = s.toDev := Dev.switchFrom_frame (s := s.toDev) w
  have func := Dev.switchFrom_func (s := s.toDev) w
  rw [exec_modeSwitch_of_due w hr hs]
  generalize s.toDev.switchFrom w = u at *
  have sys : u.sys = s.sys := (congrArg Dev.sys frame :)
  have clk : u.clk = s.clk := (congrArg Dev.clk frame :)
  have host : u.host = s.host := (congrArg Dev.host frame :)
  have hstill : u.sys.mode = .calibrate ∨ r.target = .calibrate → u.Still := fun h e => by
    rw [show u.eng e = s.eng e from (congrArg (fun v : Dev => v.eng e) frame :)]
    exact hc (sys ▸ h) e
  obtain ⟨⟨hmode, hreq, hdone, htag, htick, harm, hoff, hclk, hengs, hmem⟩, hans⟩ :=
    Dev.switchTo_switched (s := u) (r := r) (sys ▸ hm) ht hstill
  rw [show u.trySwitch r = u.switchTo r from if_pos hw]
  refine ⟨_, rfl, hmode, hreq, hdone, htag, clk ▸ htick, sys ▸ harm, fun p hp hf => hoff p hp ?_, fun j h => ?_,
    hclk.trans clk, hengs.trans (congrArg Dev.engs frame :), hmem.trans (congrArg Dev.mem frame :)⟩
  · rw [(func p).1, (func p).2]
    exact hf
  · have := hans j h
    unfold Dev.AnswersCmd at this ⊢
    rw [clk, host] at this
    exact this

/-- The resets whose tick has come, gone from the list. -/
def Dev.resetsTaken (s : Dev) : Dev := { s with clk := { s.clk with resets := s.clk.resets.filter (fun r => r.1 ≠ s.clk.frame) } }

theorem syncReset_acts {s : State} {r : Nat × Nat} (hr : r ∈ s.clk.resets) (ht : r.1 = s.clk.frame) :
    exec .syncReset s = .next { s with toDev := s.toDev.resetsTaken.syncAct } := by
  rw [exec_syncReset]
  unfold Dev.resetsAt
  rw [if_pos (List.any_eq_true.mpr ⟨r, hr, by simpa using ht⟩)]
  rfl

theorem syncReset_idle {s : State} (h : ∀ r, r ∈ s.clk.resets → r.1 ≠ s.clk.frame) : exec .syncReset s = .next s := by
  have e : s.toDev.resetsAt s.clk.frame = s.toDev := by
    unfold Dev.resetsAt
    rw [if_neg]
    simp only [List.any_eq_true, decide_eq_true_eq, not_exists, not_and]
    exact h
  rw [exec_syncReset, e]

/-- Settles O46. A tick's phases leave its number, its clock and the waiting commands to the tick itself, and only take
from the staging queues; a switch without a live engine raises nothing, so its units change card by card. -/
theorem ticksAndSwitches : Obligations.TicksAndSwitches := by
  unfold Obligations.TicksAndSwitches
  intro s
  refine ⟨frameTick_ticks s, frameTick_held s, fun w r hr hs ht => ?_, fun w h => exec_modeSwitch_of_idle w h,
    ⟨fun r hr ht he => ?_, fun r hr ht he => ?_⟩, syncReset_idle⟩
  · have hu : (if s.sys.mode = .recovery then s.readThrough w else s.toDev) = s.toDev.switchFrom w := rfl
    dsimp only
    rw [hu]
    refine ⟨fun hm => ?_, modeSwitch_refused w hr hs ht, modeSwitch_acts w hr hs ht⟩
    have hf : s.toDev.switchFrom w = s.toDev.readThrough w := if_pos hm
    rw [hf]
    exact Dev.readThrough_shows w
  · have hexec := syncReset_acts hr ht
    have acts := Dev.syncOf_acts 720 s.toDev.resetsTaken
    rw [Dev.syncAct_eq (s := s.toDev.resetsTaken) he] at hexec
    generalize Dev.syncOf 720 s.toDev.resetsTaken = t at acts hexec
    obtain ⟨hf, hclk, hchain, hbit, hfr, hacq, hcards⟩ := acts
    refine ⟨t, hexec, hclk, hchain, hbit, hfr, hacq, hcards, ?_⟩
    exact (congrArg (fun v : Dev => { v with clk := s.clk }) hf :)
  · have e : s.toDev.resetsTaken.syncAct = s.toDev.resetsTaken := by
      unfold Dev.syncAct
      exact if_pos (by simp [Dev.resetsTaken, he])
    rw [syncReset_acts hr ht, e]
    rfl

end Sys2Proof.Machine
end
